-- ==== Sys2Proof/Word.lean ====
section
/-! DEFINITION. The word types of the KZ-6400 (R6, R9): a register is 64 bits, a byte is 8 bits, bit 0 is the least
significant bit. The bit-field helpers stand in Sys2Proof/Machine/Bits.lean. -/
namespace Sys2Proof

/-- A device register: 64 bits (R9). -/
abbrev W64 := BitVec 64

/-- A byte of memory. -/
abbrev Byte := BitVec 8

/-- A fault code: class in [15:8], number in [7:0] (R12). -/
abbrev Code := BitVec 16

end Sys2Proof
end

