-- ==== Sys2Proof/Syntax.lean ====
section
/-! DEFINITION. The commands of the KZ-6400: one constructor of `Instr` per row of the opcode table, with the operands the
outside (a host, an SMBus or JTAG master, a link partner, the physics of the module, or the order in which its clockless parts
move) gives it. -/
namespace Sys2Proof

/-- A logical Yard (Table 0.3). -/
abbrev Yard := Fin 64
/-- A physical Yard (Table 0.3). -/
abbrev PhysYard := Fin 72
/-- A firing unit of a Yard as UNIT of Table 3.7: 0..15 MU, 16..19 VU, 20..21 SU, 22..37 ST0..ST15. -/
abbrev UnitId := Fin 38
/-- A partition. -/
abbrev Part := Fin 8
/-- A job. -/
abbrev JobId := Fin 16
/-- An HBM stack, and the stream-cache slice before it. -/
abbrev Stack := Fin 32
/-- A Stay port. -/
abbrev PortId := Fin 32
/-- A Stay die, and its collective engine. -/
abbrev Die := Fin 8
/-- A global HBM channel. -/
abbrev Chan := Fin 1024
/-- An edge of a Yard: 0 north, 1 east, 2 south, 3 west (Table 3.9). -/
abbrev Edge := Fin 4

/-- A host port (Table 0.3). -/
inductive HostPort | a | b
  deriving DecidableEq, Repr

/-- Whether the port is B. -/
def HostPort.isB : HostPort → Bool
  | .a => false | .b => true

/-- Owner codes of Table 0.3: 1 = A, 2 = B. -/
def HostPort.code : HostPort → Nat
  | .a => 1 | .b => 2

/-- The other port. -/
def HostPort.other : HostPort → HostPort
  | .a => .b | .b => .a

/-- How a host access reaches a register: the port, the size in bytes and the byte offset from the register's address
(R384: naturally aligned accesses of 4 or 8 bytes are taken); `tie`: an access of the other port reaches the same page at the same moment
and is not handled yet (R396). -/
structure Acc where
  port : HostPort
  size : Nat
  sub : Nat
  tie : Bool := false
  deriving DecidableEq, Repr

/-- A lane of a switch port (Table 3.1): one of the eight vector planes, the scalar lane, or the halyard. -/
inductive Lane
  | plane (p : Fin 8)
  | scalar
  | halyard
  deriving DecidableEq, Repr

/-- A halyard rail. -/
inductive Rail | a | b
  deriving DecidableEq, Repr

/-- A lane of a network crossing: the two halyard rails are separate wires (R471, R63). -/
inductive XLane
  | plane (p : Fin 8)
  | scalar
  | rail (r : Rail)
  deriving DecidableEq, Repr

/-- A port of a switch (R107). -/
inductive SwPort
  | edge (e : Edge)
  | core
  | tracker
  | unit (u : UnitId)
  deriving DecidableEq, Repr

/-- How one Masthead's boot ended (R428). -/
inductive BootOutcome | active | fallback | failed
  deriving DecidableEq, Repr

/-- What self-test found (R429): a wafer fault, the physical Yards that failed with the SAIL_OK mask of each, and the Stay
dies and stream-cache slices that failed. -/
structure SelfTest where
  wafer : Bool
  yards : List (PhysYard × BitVec 4)
  stays : BitVec 8
  slices : BitVec 32
  deriving DecidableEq, Repr

/-- What a Yard's sensors measured (Table 2.8, 2.10). -/
structure YardSense where
  y : Yard
  tj : BitVec 16
  baseMv : BitVec 16
  muMv : BitVec 16
  rate : BitVec 16
  deriving DecidableEq, Repr

/-- A stack that still fails after its second training and test (R430): whether its PHY trained, and its CH_OK mask. -/
structure StackTest where
  h : Stack
  phy : Bool
  chOk : BitVec 32
  repairs : BitVec 16 := 0
  deriving DecidableEq, Repr

/-- The outcome of the check code of a word read (SECDED, on-die ECC): no error, corrected, uncorrectable. -/
inductive Ecc | ok | corrected | bad
  deriving DecidableEq, Repr

/-- What resets a host port (R380). -/
inductive PortReset | perst | hot | flr | dlDown
  deriving DecidableEq, Repr

/-- An Abaul frame on the wire: its 32-byte header and its payload (R309, R311); as received, also whether the Ethernet FCS
was good and how many FEC codewords were corrected and uncorrectable. -/
structure Frame where
  hdr : BitVec 256
  payload : List Byte
  fcsOk : Bool := true
  fecCorr : Nat := 0
  fecBad : Nat := 0
  deriving DecidableEq, Repr

/-- What a partner says in its IDENT frame (R305, Table 13.2): its device ID, its port, its mode, and
the frame slots it grants each VC. -/
structure IdentInfo where
  dev : BitVec 15
  port : Fin 32
  ethernet : Bool
  credits : Nat
  deriving DecidableEq, Repr

/-- The outcome of the check codes of the local memory words a Yard core instruction reads: its own word, and its data. -/
structure YcReads where
  fetch : Ecc
  data : Ecc
  deriving DecidableEq, Repr

/-- The partition registers that PT_CFG_WRITE covers (R354). -/
inductive PtReg
  | cfg
  | yards
  | chan (i : Fin 16)
  deriving DecidableEq, Repr

/-- What the cap loop measured (R404): VIN in 10 mV, IIN in 0.1 A, PIN in 10 W, the 6 V bus in mV, coolant in 1/16 °C, and
each Yard's rate with gating removed. -/
structure CapSample where
  vin : BitVec 16
  iin : BitVec 16
  pin : BitVec 16
  busMv : BitVec 16
  inlet : BitVec 16
  outlet : BitVec 16
  ungated : List (Yard × Nat)
  deriving DecidableEq, Repr

/-- The die whose junction is hot (Table 17.7). -/
inductive HotDie
  | yard (y : Yard)
  | stay (d : Die)
  | mast (m : Fin 2)
  deriving DecidableEq, Repr

/-- Where a scrub found an error (R441): a reef slot of a unit, a route entry of a switch slot with its image's partition and
RIG_ID, an entry that holds no record, a Shard Directory word, a Layer Numerics Table word. -/
inductive ScrubSite
  | slot (y : Yard) (u : UnitId) (s : Fin 8)
  | route (y : Yard) (p : Part) (rig : Fin 16)
  | empty
  | sd (b : Fin 131072) (word : Fin 4)
  | lnt (e : Fin 16384) (word : Fin 8)
  deriving DecidableEq, Repr

/-- Test access port instructions (R465). -/
inductive JtagOp | bypass | idcode | sample | extest | intest | debug
  deriving DecidableEq, Repr

/-- The commands, in the order of the opcode table. -/
inductive Instr
  /-- POWER_ON (R426): 54 V is applied (R426, R433). -/
  | powerOn
  /-- HOUSEKEEPING_DONE (R426): Stage 1 ends after `dt` ns; `good` is false when it failed (FAIL cause 4). -/
  | housekeepingDone (dt : Nat) (good : Bool)
  /-- BOOT_DONE (R428): Stage 2 ends (R428). -/
  | bootDone (dt : Nat) (a b : BootOutcome)
  /-- SELFTEST_DONE (R429): Stage 3 ends (R429). -/
  | selftestDone (dt : Nat) (r : SelfTest)
  /-- HBM_TRAIN_DONE (R430): Stage 4 ends; `bad` lists what still fails after the retry (R430). -/
  | hbmTrainDone (dt : Nat) (bad : List StackTest)
  /-- LINKS_DONE (R426): Stage 5 ends. -/
  | linksDone (dt : Nat)
  /-- READY (R431): Stage 6 ends (R431). -/
  | ready (dt : Nat)
  /-- COLD (R433): A BR_RESET write that names a cold reset. -/
  | cold (acc : Acc) (w : W64)
  /-- WARM (R433): A BR_RESET write that names a warm reset. -/
  | warm (acc : Acc) (w : W64)
  /-- PART_RST (R434): A BR_RESET write that names a partition reset, which takes `ms` ms. -/
  | partRst (acc : Acc) (w : W64) (ms : Nat)
  /-- YARD_RST (R435): A BR_RESET write that names a Yard reset, which takes `ms` ms. -/
  | yardRst (acc : Acc) (w : W64) (ms : Nat)
  /-- REFCLK_LOST (R44): Oscillator `i` of R46 leaves specification. -/
  | refclkLost (i : Fin 8)
  /-- YD_SENSE_UPDATE (R48): The 100 µs refresh of the Yards' sensors (R48). -/
  | ydSenseUpdate (dt : Nat) (xs : List YardSense)
  /-- TOKEN_ROUTE (R86): The head of a switch input queue is routed; `flip` is what its header lost on the way in. -/
  | tokenRoute (y : Yard) (src : SwPort) (lane : Lane) (flip : BitVec 32)
  /-- CROSSING_PASS (R471): The crossing of a non-enabled Yard passes the token travelling toward edge `dir`. -/
  | crossingPass (p : PhysYard) (dir : Edge) (lane : XLane) (flip : BitVec 32)
  /-- HALYARD_COPY_RECEIVE (R61): The receiver of edge `e` takes one copy from one rail. -/
  | halyardCopyReceive (y : Yard) (e : Edge) (rail : Rail) (flip : BitVec 96)
  /-- RAIL_RETRY (R63): A write to SW_CTRL. -/
  | railRetry (acc : Acc) (y : Yard) (w : W64)
  /-- UNIT_TOKEN_ARRIVE (R71): A unit takes the token its switch offers it. -/
  | unitTokenArrive (y : Yard) (u : UnitId) (lane : Lane) (flip : BitVec 32)
  /-- FIRING_DECISION (R67): The procedure of R67 and R71 runs once for unit `u.1`; `u.2` is what the check of the Shard Directory entry of a
  firing's first weight block finds (R281). -/
  | firingDecision (y : Yard) (u : UnitId × Ecc)
  /-- FIRING_END (R91): A firing all of whose outputs are accepted ends. -/
  | firingEnd (y : Yard) (u : UnitId)
  /-- STEERING_PASS (R72): A BRANCH, MERGE or GATE unit passes or drops the burst it matched. -/
  | steeringPass (y : Yard) (st : Fin 16)
  /-- COUNT_TICK (R74): A COUNT unit takes one tick. -/
  | countTick (y : Yard) (st : Fin 16)
  /-- STALL_SAMPLE (R78): The stall monitor's 1 µs sample. -/
  | stallSample (dt : Nat) (p : Part)
  /-- FABRIC_RESET (R77): A fabric reset of a partition. -/
  | fabricReset (p : Part)
  /-- ABANDON (R100): A PT_RIG_CTRL write with ABANDON. -/
  | abandon (acc : Acc) (p : Part) (w : W64)
  /-- REEF_OPEN (R89): The unit takes a REEF_OPEN from halyard channel 0xFF. -/
  | reefOpen (y : Yard) (u : UnitId)
  /-- REEF_DATA (R89): The unit takes a REEF_DATA. -/
  | reefData (y : Yard) (u : UnitId)
  /-- REEF_CLOSE (R89): The unit takes a REEF_CLOSE. -/
  | reefClose (y : Yard) (u : UnitId)
  /-- SECTION_START (R91): The unit takes a SECTION_START. -/
  | sectionStart (y : Yard) (u : UnitId)
  /-- SECTION_END (R91): The unit takes a SECTION_END. -/
  | sectionEnd (y : Yard) (u : UnitId)
  /-- SLOT_DONE (R98): The tracker takes a SLOT_DONE at port 5 of a switch. -/
  | slotDone (y : Yard)
  /-- TRACKER_PORT_TOKEN (R472): The tracker takes another token at port 5. -/
  | trackerPortToken (y : Yard) (lane : Lane)
  /-- SECTION_ISSUE (R95): The tracker takes the oldest start record given to it. -/
  | sectionIssue (p : Part)
  /-- TRACKER_RELEASE_WAITING (R96): A waiting start record starts when what it waits for has ended. -/
  | trackerReleaseWaiting (p : Part)
  /-- STEP_SEQ_RELEASE (R193): The oldest record held by the step sequencer is examined again. -/
  | stepSeqRelease (p : Part) (j : JobId)
  /-- BUDGET_SAMPLE (R101): The tracker's 1 µs budget sample. -/
  | budgetSample (dt : Nat) (p : Part)
  /-- RIG_LOAD (R108): A PT_RIG_CTRL write with LOAD. -/
  | rigLoad (acc : Acc) (p : Part) (w : W64)
  /-- LOAD_COMMIT (R111): A load that passed its checks commits. -/
  | loadCommit (p : Part)
  /-- UNLOAD (R112): A PT_RIG_CTRL write with UNLOAD. -/
  | unload (acc : Acc) (p : Part) (w : W64)
  /-- MU_PENDING_WAIT_END (R136): An array waiting on a pending tile goes on. -/
  | muPendingWaitEnd (y : Yard) (m : Fin 16)
  /-- SU_DELAY_EMIT (R273): A DELAY emits its oldest stored firing. -/
  | suDelayEmit (y : Yard) (k : Fin 2)
  /-- HBM_GRANT (R265): One 64 ns grant slot of channel `c.1`; `c.2` is how often command parity errors made the controller reissue it. -/
  | hbmGrant (c : Chan × Nat)
  /-- HBM_READ_COMPLETE (R291): A read of row `row` of channel `c` returns with severity `sev`. -/
  | hbmReadComplete (c : Chan) (row : BitVec 22) (sev : Ecc)
  /-- SC_ACCESS (R283): The slice of stack `h` treats its next access. -/
  | scAccess (h : Stack)
  /-- SC_FILL_COMPLETE (R283): The oldest fill of slice `h` whose data have returned completes. -/
  | scFillComplete (h : Stack)
  /-- HBM_TEMP_SAMPLE (R289): The 1 ms temperature reading of stack `h`, in 1/16 °C. -/
  | hbmTempSample (dt : Nat) (h : Stack) (t : BitVec 16)
  /-- PATROL_SCRUB (R291): The patrol scrub reads row `row` of channel `c`. -/
  | patrolScrub (c : Chan) (row : BitVec 22) (sev : Ecc)
  /-- REPAIR (R294): A write to REP_CTRL. -/
  | repair (acc : Acc) (h : Stack) (w : W64)
  /-- ROW_REPAIR_RUN (R294): The running row repair of stack `h` takes its next channel. -/
  | rowRepairRun (dt : Nat) (h : Stack)
  /-- MAP_OUT_REQUEST (R298): A write to HC_MO_CTRL. -/
  | mapOutRequest (acc : Acc) (h : Stack) (w : W64)
  /-- MAP_OUT_QUIESCED (R297): QUIESCE of the map-out of channel `c` ends. -/
  | mapOutQuiesced (dt : Nat) (c : Chan)
  /-- MAP_OUT_SHARDS_DONE (R297): SHARDS of channel `c.1` ends; FLIP follows. `c.2` is what the on-die ECC reported for rows read. -/
  | mapOutShardsDone (dt : Nat) (c : Chan × List (Chan × BitVec 22 × Ecc))
  /-- MAP_OUT_RESTRIPE_DONE (R297): RESTRIPE of channel `c.1` ends. `c.2` is what the on-die ECC reported for rows read. -/
  | mapOutRestripeDone (dt : Nat) (c : Chan × List (Chan × BitVec 22 × Ecc))
  /-- SD_ENTRY_WRITE (R279): A write to word `word` of Shard Directory entry `b`. -/
  | sdEntryWrite (acc : Acc) (b : Fin 131072) (word : Fin 4) (w : W64)
  /-- FLIP (R280): A write to SD_CTRL. -/
  | flip (acc : Acc) (w : W64)
  /-- SD_FLIP (R280): The pending flip takes place. -/
  | sdFlip
  /-- STOW_BASE_WRITE (R264): A write to YD_STOW. -/
  | stowBaseWrite (acc : Acc) (y : Yard) (w : W64)
  /-- YC_INBOUND_TOKEN (R173): Port 4 takes the token its switch offers it. -/
  | ycInboundToken (y : Yard) (lane : Lane) (flip : BitVec 32)
  /-- YC_WAKE (R164): The instruction that waits on core `y` is tried again. -/
  | ycWake (dt : Nat) (y : Yard) (r : YcReads)
  /-- ADD (R169): The context on core `y` executes its next instruction, a ADD. -/
  | ycAdd (y : Yard) (r : YcReads)
  /-- SUB (R169): The context on core `y` executes its next instruction, a SUB. -/
  | ycSub (y : Yard) (r : YcReads)
  /-- AND (R169): The context on core `y` executes its next instruction, a AND. -/
  | ycAnd (y : Yard) (r : YcReads)
  /-- OR (R169): The context on core `y` executes its next instruction, a OR. -/
  | ycOr (y : Yard) (r : YcReads)
  /-- XOR (R169): The context on core `y` executes its next instruction, a XOR. -/
  | ycXor (y : Yard) (r : YcReads)
  /-- SLL (R169): The context on core `y` executes its next instruction, a SLL. -/
  | ycSll (y : Yard) (r : YcReads)
  /-- SRL (R169): The context on core `y` executes its next instruction, a SRL. -/
  | ycSrl (y : Yard) (r : YcReads)
  /-- SRA (R169): The context on core `y` executes its next instruction, a SRA. -/
  | ycSra (y : Yard) (r : YcReads)
  /-- SLT (R169): The context on core `y` executes its next instruction, a SLT. -/
  | ycSlt (y : Yard) (r : YcReads)
  /-- SLTU (R169): The context on core `y` executes its next instruction, a SLTU. -/
  | ycSltu (y : Yard) (r : YcReads)
  /-- MUL (R169): The context on core `y` executes its next instruction, a MUL. -/
  | ycMul (y : Yard) (r : YcReads)
  /-- MULHU (R169): The context on core `y` executes its next instruction, a MULHU. -/
  | ycMulhu (y : Yard) (r : YcReads)
  /-- MULH (R169): The context on core `y` executes its next instruction, a MULH. -/
  | ycMulh (y : Yard) (r : YcReads)
  /-- DIVU (R169): The context on core `y` executes its next instruction, a DIVU. -/
  | ycDivu (y : Yard) (r : YcReads)
  /-- REMU (R169): The context on core `y` executes its next instruction, a REMU. -/
  | ycRemu (y : Yard) (r : YcReads)
  /-- DIV (R169): The context on core `y` executes its next instruction, a DIV. -/
  | ycDiv (y : Yard) (r : YcReads)
  /-- REM (R169): The context on core `y` executes its next instruction, a REM. -/
  | ycRem (y : Yard) (r : YcReads)
  /-- ADDI (R169): The context on core `y` executes its next instruction, a ADDI. -/
  | ycAddi (y : Yard) (r : YcReads)
  /-- ANDI (R169): The context on core `y` executes its next instruction, a ANDI. -/
  | ycAndi (y : Yard) (r : YcReads)
  /-- ORI (R169): The context on core `y` executes its next instruction, a ORI. -/
  | ycOri (y : Yard) (r : YcReads)
  /-- XORI (R169): The context on core `y` executes its next instruction, a XORI. -/
  | ycXori (y : Yard) (r : YcReads)
  /-- SLLI (R169): The context on core `y` executes its next instruction, a SLLI. -/
  | ycSlli (y : Yard) (r : YcReads)
  /-- SRLI (R169): The context on core `y` executes its next instruction, a SRLI. -/
  | ycSrli (y : Yard) (r : YcReads)
  /-- SRAI (R169): The context on core `y` executes its next instruction, a SRAI. -/
  | ycSrai (y : Yard) (r : YcReads)
  /-- LSH16 (R169): The context on core `y` executes its next instruction, a LSH16. -/
  | ycLsh16 (y : Yard) (r : YcReads)
  /-- FADD (R169): The context on core `y` executes its next instruction, a FADD. -/
  | ycFadd (y : Yard) (r : YcReads)
  /-- FSUB (R169): The context on core `y` executes its next instruction, a FSUB. -/
  | ycFsub (y : Yard) (r : YcReads)
  /-- FMUL (R169): The context on core `y` executes its next instruction, a FMUL. -/
  | ycFmul (y : Yard) (r : YcReads)
  /-- FDIV (R169): The context on core `y` executes its next instruction, a FDIV. -/
  | ycFdiv (y : Yard) (r : YcReads)
  /-- FMIN (R169): The context on core `y` executes its next instruction, a FMIN. -/
  | ycFmin (y : Yard) (r : YcReads)
  /-- FMAX (R169): The context on core `y` executes its next instruction, a FMAX. -/
  | ycFmax (y : Yard) (r : YcReads)
  /-- FSQRT (R169): The context on core `y` executes its next instruction, a FSQRT. -/
  | ycFsqrt (y : Yard) (r : YcReads)
  /-- FLT (R169): The context on core `y` executes its next instruction, a FLT. -/
  | ycFlt (y : Yard) (r : YcReads)
  /-- FLE (R169): The context on core `y` executes its next instruction, a FLE. -/
  | ycFle (y : Yard) (r : YcReads)
  /-- FEQ (R169): The context on core `y` executes its next instruction, a FEQ. -/
  | ycFeq (y : Yard) (r : YcReads)
  /-- FCVT_L (R169): The context on core `y` executes its next instruction, a FCVT_L. -/
  | ycFcvtL (y : Yard) (r : YcReads)
  /-- FCVT_F (R169): The context on core `y` executes its next instruction, a FCVT_F. -/
  | ycFcvtF (y : Yard) (r : YcReads)
  /-- LD (R169): The context on core `y` executes its next instruction, a LD. -/
  | ycLd (y : Yard) (r : YcReads)
  /-- LW (R169): The context on core `y` executes its next instruction, a LW. -/
  | ycLw (y : Yard) (r : YcReads)
  /-- LWS (R169): The context on core `y` executes its next instruction, a LWS. -/
  | ycLws (y : Yard) (r : YcReads)
  /-- LB (R169): The context on core `y` executes its next instruction, a LB. -/
  | ycLb (y : Yard) (r : YcReads)
  /-- SD (R169): The context on core `y` executes its next instruction, a SD. -/
  | ycSd (y : Yard) (r : YcReads)
  /-- SW (R169): The context on core `y` executes its next instruction, a SW. -/
  | ycSw (y : Yard) (r : YcReads)
  /-- SB (R169): The context on core `y` executes its next instruction, a SB. -/
  | ycSb (y : Yard) (r : YcReads)
  /-- BEQ (R169): The context on core `y` executes its next instruction, a BEQ. -/
  | ycBeq (y : Yard) (r : YcReads)
  /-- BNE (R169): The context on core `y` executes its next instruction, a BNE. -/
  | ycBne (y : Yard) (r : YcReads)
  /-- BLT (R169): The context on core `y` executes its next instruction, a BLT. -/
  | ycBlt (y : Yard) (r : YcReads)
  /-- BGE (R169): The context on core `y` executes its next instruction, a BGE. -/
  | ycBge (y : Yard) (r : YcReads)
  /-- BLTU (R169): The context on core `y` executes its next instruction, a BLTU. -/
  | ycBltu (y : Yard) (r : YcReads)
  /-- BGEU (R169): The context on core `y` executes its next instruction, a BGEU. -/
  | ycBgeu (y : Yard) (r : YcReads)
  /-- JAL (R169): The context on core `y` executes its next instruction, a JAL. -/
  | ycJal (y : Yard) (r : YcReads)
  /-- JALR (R169): The context on core `y` executes its next instruction, a JALR. -/
  | ycJalr (y : Yard) (r : YcReads)
  /-- CSRR (R170): The context on core `y` executes its next instruction, a CSRR. -/
  | ycCsrr (y : Yard) (r : YcReads)
  /-- CSRW (R170): The context on core `y` executes its next instruction, a CSRW. -/
  | ycCsrw (y : Yard) (r : YcReads)
  /-- CSRSET (R170): The context on core `y` executes its next instruction, a CSRSET. -/
  | ycCsrset (y : Yard) (r : YcReads)
  /-- CSRCLR (R170): The context on core `y` executes its next instruction, a CSRCLR. -/
  | ycCsrclr (y : Yard) (r : YcReads)
  /-- SEND (R175): The context on core `y` executes its next instruction, a SEND. -/
  | ycSend (y : Yard) (r : YcReads)
  /-- RECV (R174): The context on core `y` executes its next instruction, a RECV. -/
  | ycRecv (y : Yard) (r : YcReads)
  /-- GETSUM (R174): The context on core `y` executes its next instruction, a GETSUM. -/
  | ycGetsum (y : Yard) (r : YcReads)
  /-- WAIT (R174): The context on core `y` executes its next instruction, a WAIT. -/
  | ycWait (y : Yard) (r : YcReads)
  /-- REEFSEND (R176): The context on core `y` executes its next instruction, a REEFSEND. -/
  | ycReefsend (y : Yard) (r : YcReads)
  /-- ISSUE (R177): The context on core `y` executes its next instruction, a ISSUE. -/
  | ycIssue (y : Yard) (r : YcReads)
  /-- XFER_TO_LOCAL (R179): The context on core `y` executes its next instruction, a XFER_TO_LOCAL. -/
  | ycXferToLocal (y : Yard) (r : YcReads)
  /-- XFER_TO_HBM (R179): The context on core `y` executes its next instruction, a XFER_TO_HBM. -/
  | ycXferToHbm (y : Yard) (r : YcReads)
  /-- XFER_COMPLETE (R179): XFER `i.1` in flight of the context of job `j` in Yard `y` finishes; `i.2` is the check of the local words it reads. -/
  | xferComplete (y : Yard) (j : JobId) (i : Fin 4 × Ecc)
  /-- FENCE (R169): The context on core `y` executes its next instruction, a FENCE. -/
  | ycFence (y : Yard) (r : YcReads)
  /-- TAKE (R182): The context on core `y` executes its next instruction, a TAKE. -/
  | ycTake (y : Yard) (r : YcReads)
  /-- COMMIT (R183): The context on core `y` executes its next instruction, a COMMIT. -/
  | ycCommit (y : Yard) (r : YcReads)
  /-- HALT (R169): The context on core `y` executes its next instruction, a HALT. -/
  | ycHalt (y : Yard) (r : YcReads)
  /-- TRET (R171): The context on core `y` executes its next instruction, a TRET. -/
  | ycTret (y : Yard) (r : YcReads)
  /-- WORK_COUNTER_SERVE (R182): The counter block serves its oldest request. -/
  | workCounterServe
  /-- LEASE_TIMEOUT (R184): The 1 µs check of held leases. -/
  | leaseTimeout (dt : Nat)
  /-- WC_DATA_WRITE (R185): A write to WC_DATA. -/
  | wcDataWrite (acc : Acc) (y : Yard) (w : W64)
  /-- REEF_STREAMER_SEND (R176): The reef streamer of Yard `y` sends the next token of its oldest record. -/
  | reefStreamerSend (y : Yard)
  /-- STOP (R189): A YC_CTRL write of `w.1` with STOP; `w.2` is the check of the local words its save reads. -/
  | stop (acc : Acc) (y : Yard) (w : W64 × Ecc)
  /-- START (R189): A YC_CTRL write with START. -/
  | start (acc : Acc) (y : Yard) (w : W64)
  /-- SCHED_DECIDE (R361): The scheduler of Yard `y.1` acts at a state change; `y.2` is the check of the local words a save reads. -/
  | schedDecide (y : Yard × Ecc)
  /-- SCHED_QUANTUM (R361): The scheduler of Yard `y.1` acts after QUANTUM_US; `y.2` is the check of the local words a save reads. -/
  | schedQuantum (dt : Nat) (y : Yard × Ecc)
  /-- STEP_VETO (R201): The step sequencer takes the STEP_VETO at port 5 of the switch of Yard `y`. -/
  | stepVeto (y : Yard)
  /-- GATE_NO_RESULT (R203): 2 × GATE_DEADLINE_US have passed since the PIPE section ended. -/
  | gateNoResult (dt : Nat) (p : Part) (j : JobId)
  /-- RESYNC (R203): A write to PT_STEP_CTRL. -/
  | resync (acc : Acc) (p : Part) (j : JobId) (w : W64)
  /-- STEP_PLAN_WRITE (R211): A write to PT_STEP_PLAN, or to PT_STEP_CFG with `cfg`. -/
  | stepPlanWrite (acc : Acc) (p : Part) (j : JobId) (cfg : Bool) (w : W64)
  /-- PHASE_DRAINED (R223): The phase logic of job `j`, DRAINING, looks at the sections in flight. -/
  | phaseDrained (p : Part) (j : JobId)
  /-- PHASE_SWITCH_DEADLINE (R223): EXCHANGING has outlasted SWITCH_DEADLINE_US. -/
  | phaseSwitchDeadline (dt : Nat) (p : Part) (j : JobId)
  /-- RETRY (R225): A PT_PHASE_CTRL write with RETRY. -/
  | retry (acc : Acc) (p : Part) (j : JobId) (w : W64)
  /-- FORCE (R225): A PT_PHASE_CTRL write with FORCE. -/
  | force (acc : Acc) (p : Part) (j : JobId) (w : W64)
  /-- PHASE_CFG_WRITE (R227): A write to PT_PHASE_CFG. -/
  | phaseCfgWrite (acc : Acc) (p : Part) (j : JobId) (w : W64)
  /-- WVER_WRITE (R221): A write to PT_WVER. -/
  | wverWrite (acc : Acc) (p : Part) (j : JobId) (w : W64)
  /-- LNT_WRITE (R238): A write to word `word` of Layer Numerics Table entry `e`. -/
  | lntWrite (acc : Acc) (e : Fin 16384) (word : Fin 8) (w : W64)
  /-- LSCALE_WRITE (R256): A write to PT_LSCALE. -/
  | lscaleWrite (acc : Acc) (p : Part) (j : JobId) (w : W64)
  /-- NUM_ROLL (R243): A PT_NUM_CTRL write with ROLL. -/
  | numRoll (acc : Acc) (p : Part) (j : JobId) (w : W64)
  /-- SPIKE_RESET (R256): A PT_NUM_CTRL write with SPIKE_RESET. -/
  | spikeReset (acc : Acc) (p : Part) (j : JobId) (w : W64)
  /-- PORT_TRAIN_DONE (R304): Training of port `p` ends with these lanes locked. -/
  | portTrainDone (dt : Nat) (p : PortId) (lanes : BitVec 8)
  /-- PORT_RETRY_TIMER (R304): 10 ms have passed since the port went DOWN. -/
  | portRetryTimer (dt : Nat) (p : PortId)
  /-- IDENT_RETRY (R305): The 1 ms retry of IDENT. -/
  | identRetry (dt : Nat) (p : PortId)
  /-- IDENT (R305): An IDENT frame arrives. -/
  | ident (p : PortId) (x : IdentInfo)
  /-- LANE_BAD (R307): Lane `lane` goes bad (loss of lock with `lock`, else error ratio); with `clash` the two ends chose different halves. -/
  | laneBad (p : PortId) (lane : Fin 8) (lock clash : Bool)
  /-- PORT_LOSS (R308): The port goes DOWN with this cause of Table 13.8. -/
  | portLoss (p : PortId) (cause : Fin 9)
  /-- TOKEN (R315): A TOKEN frame arrives. -/
  | token (p : PortId) (f : Frame)
  /-- MARK (R315): A MARK frame arrives. -/
  | mark (p : PortId) (f : Frame)
  /-- COLL (R336): A COLL frame arrives. -/
  | coll (p : PortId) (f : Frame)
  /-- LINK (R312): A LINK frame arrives. -/
  | link (p : PortId) (f : Frame)
  /-- PHASE (R324): A PHASE frame arrives. -/
  | phase (p : PortId) (f : Frame)
  /-- PHASE_CONF (R324): A PHASE_CONF frame arrives. -/
  | phaseConf (p : PortId) (f : Frame)
  /-- REPLAY_TIMEOUT (R312): The replay timer of the port is looked at. -/
  | replayTimeout (dt : Nat) (p : PortId)
  /-- PFC_PAUSE (R317): A priority flow-control frame pauses or resumes a VC. -/
  | pfcPause (p : PortId) (vc : Fin 8) (xoff : Bool)
  /-- BRIDGE_TOKEN_OUT (R314): The bridge of die `d` takes the token at the outer edge of its first or second attached Yard. -/
  | bridgeTokenOut (d : Die) (side : Fin 2) (plane : Fin 8)
  /-- BRIDGE_FLUSH_TIMER (R314): 100 ns have passed since the last token of channel `c`. -/
  | bridgeFlushTimer (dt : Nat) (d : Die) (c : Fin 256)
  /-- GROUP_TABLE_WRITE (R321): A write to word `word` of Group Table entry `g`. -/
  | groupTableWrite (acc : Acc) (g : Fin 255) (word : Fin 9) (w : W64)
  /-- GLB_DEV_WRITE (R305): A write to GLB_DEV. -/
  | glbDevWrite (acc : Acc) (w : W64)
  /-- ST_CFG_WRITE (R304): A write to ST_CFG. -/
  | stCfgWrite (acc : Acc) (p : PortId) (w : W64)
  /-- COLL_DESC_START (R331): Engine `d` starts its next waiting descriptor. -/
  | collDescStart (d : Die)
  /-- COLL_CHUNK_READY (R338): Chunk (for RING, step and chunk) `k` of descriptor `x` is ready at this node. -/
  | collChunkReady (d : Die) (x : Fin 510) (k : Nat)
  /-- COLL_DESC_COMPLETE (R333): Descriptor `x` completes. -/
  | collDescComplete (d : Die) (x : Fin 510)
  /-- COLL_DEADLINE (R342): The deadline of descriptor `x` is sampled. -/
  | collDeadline (dt : Nat) (d : Die) (x : Fin 510)
  /-- AGREE_UP (R340): A COLL_CTRL frame of CODE 1 arrives. -/
  | agreeUp (p : PortId) (f : Frame)
  /-- AGREE_DOWN (R340): A COLL_CTRL frame of CODE 2 arrives. -/
  | agreeDown (p : PortId) (f : Frame)
  /-- AGREE_DEADLINE (R340): T_A of the gate of job `j`, or of its permute with `perm`, is looked at. -/
  | agreeDeadline (dt : Nat) (perm : Bool) (j : JobId)
  /-- NORM_UP (R345): A COLL_CTRL frame of CODE 3 arrives. -/
  | normUp (p : PortId) (f : Frame)
  /-- NORM_DOWN (R345): A COLL_CTRL frame of CODE 4 arrives. -/
  | normDown (p : PortId) (f : Frame)
  /-- ABORT (R343): A COLL_CTRL frame of CODE 5 arrives. -/
  | abort (p : PortId) (f : Frame)
  /-- PERMUTE_REQUEST (R346): A write to PERM_CTRL. -/
  | permuteRequest (acc : Acc) (w : W64)
  /-- PERMUTE_WAIT_DONE (R346): WAIT of the permute ends; CHECK runs and MOVE begins. -/
  | permuteWaitDone
  /-- PERMUTE_MOVE_DONE (R346): MOVE of the permute ends. -/
  | permuteMoveDone
  /-- PERMUTE_NO_RESULT (R348): 2 × DEADLINE_MS have passed since this device contributed. -/
  | permuteNoResult (dt : Nat)
  /-- PT_CFG_WRITE (R354): A write to PT_CFG, PT_YARDS or PT_CHAN. -/
  | ptCfgWrite (acc : Acc) (p : Part) (r : PtReg) (w : W64)
  /-- PT_SAVE_WRITE (R355): A write to PT_SAVE. -/
  | ptSaveWrite (acc : Acc) (p : Part) (w : W64)
  /-- JOB_CFG_WRITE (R356): A write to PT_JOB_CFG. -/
  | jobCfgWrite (acc : Acc) (p : Part) (j : JobId) (w : W64)
  /-- REGULATOR_REFILL (R359): The 64 ns refill of the buckets of partition `p`. -/
  | regulatorRefill (dt : Nat) (p : Part)
  /-- YIELD (R363): A PT_JOB_CTRL write with YIELD. -/
  | yield_ (acc : Acc) (p : Part) (w : W64)
  /-- YIELD_DRAINED (R363): The yield of job `j.1` looks at the sections in flight; `j.2` are the checks of the local words its saves read. -/
  | yieldDrained (p : Part) (j : JobId × List (Yard × Ecc))
  /-- RESUME (R365): A PT_JOB_CTRL write with RESUME. -/
  | resume (acc : Acc) (p : Part) (w : W64)
  /-- PREEMPT_WAIT (R366): PREEMPT_WARN_US have passed since YIELD was written. -/
  | preemptWait (dt : Nat) (p : Part) (j : JobId)
  /-- RING_TAIL_WRITE (R372): A write to RING_TAIL. -/
  | ringTailWrite (acc : Acc) (j : JobId) (w : W64)
  /-- RING_CFG_WRITE (R367): A write to RING_CFG. -/
  | ringCfgWrite (acc : Acc) (j : JobId) (w : W64)
  /-- RING_FETCH (R369): The device fetches the next entry of the ring of job `j`. -/
  | ringFetch (j : JobId)
  /-- NOP (R369): The oldest fetched entry of the ring of job `j`, a NOP, is acted on. -/
  | nop (j : JobId)
  /-- RING_START (R369): The same for a START. -/
  | ringStart (j : JobId)
  /-- RING_LOAD (R369): The same for a LOAD. -/
  | ringLoad (j : JobId)
  /-- RING_UNLOAD (R369): The same for an UNLOAD. -/
  | ringUnload (j : JobId)
  /-- RING_WAIT (R369): The same for a WAIT. -/
  | ringWait (j : JobId)
  /-- SIGNAL (R369): The same for a SIGNAL. -/
  | signal (j : JobId)
  /-- GO (R371): A RING_CTRL write with GO. -/
  | go (acc : Acc) (j : JobId) (w : W64)
  /-- SKIP (R371): A RING_CTRL write with SKIP. -/
  | skip (acc : Acc) (j : JobId) (w : W64)
  /-- HOST_PORT_RESET (R380): One host port is reset (R380). -/
  | hostPortReset (p : HostPort) (k : PortReset)
  /-- BAR2_READ (R382): A host read through BAR2. -/
  | bar2Read (p : HostPort) (off len : Nat)
  /-- BAR2_WRITE (R382): A host write through BAR2. -/
  | bar2Write (p : HostPort) (off : Nat) (bytes : List Byte)
  /-- REGISTER_WRITE (R384): A BAR0 or BAR4 write to a register with no row of its own. -/
  | registerWrite (acc : Acc) (addr : Nat) (w : W64)
  /-- PG_OWNER_WRITE (R390): A write to PG_OWNER. -/
  | pgOwnerWrite (acc : Acc) (page : Nat) (w : W64)
  /-- EVT_PEND_CLEAR (R391): A write to EVT_PEND. -/
  | evtPendClear (acc : Acc) (page : Nat) (w : W64)
  /-- EVT_ENABLE_WRITE (R392): A write to EVT_ENABLE. -/
  | evtEnableWrite (acc : Acc) (page : Nat) (w : W64)
  /-- EVT_SET (R391): A write to EVT_SET. -/
  | evtSet (acc : Acc) (page : Nat) (w : W64)
  /-- PG_CTRL_WRITE (R392): A write to PG_CTRL. -/
  | pgCtrlWrite (acc : Acc) (page : Nat) (w : W64)
  /-- CLR (R389): A write to ERR_CODE. -/
  | clr (acc : Acc) (page : Nat) (w : W64)
  /-- COUNTER_SAT_CLEAR (R443): A write to a counter with a SAT bit. -/
  | counterSatClear (acc : Acc) (addr : Nat) (w : W64)
  /-- SEM_ACQUIRE (R394): A read of GLB_SEM[i]. -/
  | semAcquire (acc : Acc) (i : Fin 32)
  /-- SEM_RELEASE (R394): A write to GLB_SEM[i]. -/
  | semRelease (acc : Acc) (i : Fin 32) (w : W64)
  /-- SEMAPHORE_TIMEOUT (R395): The 1 ms semaphore check. -/
  | semaphoreTimeout (dt : Nat)
  /-- INPUT_LOW (R401): The input has been below 48 V for 1 ms. -/
  | inputLow (vin : BitVec 16)
  /-- INPUT_UNDERVOLT (R401): The input has been below 46 V for 10 µs. -/
  | inputUndervolt (vin : BitVec 16)
  /-- INPUT_OVERVOLT (R401): The input has been above 60 V for 10 µs. -/
  | inputOvervolt (vin : BitVec 16)
  /-- INPUT_RECOVERED (R403): The input has been in range for 1 ms. -/
  | inputRecovered (vin : BitVec 16)
  /-- BUS_COLLAPSE (R403): The 6 V bus falls below 5.4 V. -/
  | busCollapse (busMv : BitVec 16)
  /-- CAP_LOOP (R404): One period of the cap loop. -/
  | capLoop (dt : Nat) (x : CapSample)
  /-- CURRENT_LIMIT (R407): The hardware current limit lowers the bus. -/
  | currentLimit (iin busMv : BitVec 16)
  /-- JUNCTION_HOT (R408): A junction reaches 120 °C. -/
  | junctionHot (d : HotDie) (t : BitVec 16)
  /-- HEARTBEAT (R411): The primary's heartbeat; which shroud pairs carried it. -/
  | heartbeat (dt : Nat) (pair0 pair1 : Bool)
  /-- MASTHEAD_TAKEOVER (R412): The standby has heard no heartbeat for 1,000 µs. -/
  | mastheadTakeover (dt : Nat)
  /-- MASTHEAD_BOTH_LOST (R415): The latch lies unclaimed 2,000 µs after it expired. -/
  | mastheadBothLost (dt : Nat)
  /-- MAINT_REQUEST (R419): A request by the primary's policy. -/
  | maintRequest (cls : Fin 8) (target : BitVec 32)
  /-- LANE_RETRAIN (R307): An MA_REQ write with class 4. -/
  | laneRetrain (acc : Acc) (w : W64)
  /-- YARD_RETIRE (R456): An MA_REQ write with class 5. -/
  | yardRetire (acc : Acc) (w : W64)
  /-- FIRMWARE_UPDATE (R421): An MA_REQ write with class 7. -/
  | firmwareUpdate (acc : Acc) (w : W64)
  /-- MAINT_OP_END (R419): A running maintenance operation ends. -/
  | maintOpEnd (dt : Nat) (cls : Fin 8) (target : BitVec 32) (good : Bool)
  /-- MA_CTRL_WRITE (R417): A write to MA_CTRL. -/
  | maCtrlWrite (acc : Acc) (w : W64)
  /-- RETIRE_TEST_DONE (R456): The test of the chosen spare ends. -/
  | retireTestDone (dt : Nat) (y : Yard) (pass : Bool)
  /-- HITS_WINDOW_CLEAR (R455): GLB_TIME passes a multiple of WINDOW_H hours. -/
  | hitsWindowClear (dt : Nat)
  /-- CONFIG_SCRUB (R441): The 10 s scrub, with the errors it found. -/
  | configScrub (found : List (ScrubSite × Ecc))
  /-- MONITOR_SAMPLE (R448): A page's monitor takes one sample of its source. -/
  | monitorSample (page : Nat) (v : Int)
  /-- MON_CFG_WRITE (R449): A write to MON_CFG. -/
  | monCfgWrite (acc : Acc) (page : Nat) (w : W64)
  /-- TSYNC_EDGE (R432): A rising edge on TSYNC_IN. -/
  | tsyncEdge (dt : Nat)
  /-- TSYNC_TIMEOUT (R432): No edge for 2 ms. -/
  | tsyncTimeout (dt : Nat)
  /-- TSYNC_PULSE (R432): GLB_TIME passes a multiple of 1,000,000. -/
  | tsyncPulse (dt : Nat)
  /-- ARM (R432): A write to BR_TSYNC_CTRL. -/
  | arm (acc : Acc) (w : W64)
  /-- CAGE_OVERPOWER (R460): A cage's module draws more than 16 W. -/
  | cageOverpower (p : PortId)
  /-- MODULE_INSERT (R461): The module is inserted on live bus bars. -/
  | moduleInsert
  /-- FRU_READ (R464): An SMBus read of the FRU memory. -/
  | fruRead (off : Fin 256)
  /-- SMB_SET_OFFSET (R464): SMBus command 0x01; `pec` is whether its PEC was good. -/
  | smbSetOffset (off : BitVec 32) (pec : Bool)
  /-- SMB_READ (R464): SMBus command 0x02. -/
  | smbRead
  /-- SMB_WRITE (R464): SMBus command 0x03. -/
  | smbWrite (off : BitVec 32) (w : W64) (pec : Bool)
  /-- JTAG_INSTRUCTION (R465): An instruction enters the test access port. -/
  | jtagInstruction (i : JtagOp)
  /-- REFCLK_RECOVERED (R45): A lost oscillator is back within specification. -/
  | refclkRecovered (i : Fin 8)
  /-- PHY_RELOCK_DONE (R44): The PHYs of a memory half (0 H0..H15, 1 H16..H31) have relocked. -/
  | phyRelockDone (east : Fin 2)
  /-- HOST_LINK_UP (R398): A host port trained or left Recovery; `msix` is whether its host enabled MSI-X. -/
  | hostLinkUp (p : HostPort) (speed : Fin 7) (width : Fin 17) (flit recovery msix : Bool)
  /-- STANDBY_READY (R412): A rebooted Masthead (0 A, 1 B) enters STANDBY. -/
  | standbyReady (m : Fin 2)
  /-- SHROUD_CLAIM_RETRY (R413): The standby's 1 ms retry of its claim. -/
  | shroudClaimRetry (dt : Nat)
  /-- ACKNOWLEDGE_TIMER (R312): 1 µs after frames without an acknowledgement. -/
  | acknowledgeTimer (p : PortId) (vc : Fin 8)
  /-- RESIZABLE_BAR_WRITE (R382): The host sets the BAR2 window to 2^log2 bytes. -/
  | resizableBarWrite (p : HostPort) (log2 : Nat)
  deriving DecidableEq, Repr

end Sys2Proof
end

