-- ==== Sys2Proof/Decode.lean ====
section
/-! DEFINITION. The commands reach the block as commands, not as words: the opcode table gives no row any bits, so no word spells a
command (assumption 60). -/
namespace Sys2Proof

/-- The command that a word spells by the opcode table's bits: none, since no row has bits. -/
def decodeTableWord (_nbits _w : Nat) : Option Instr := none

end Sys2Proof
end

