-- ==== Sys2Proof/Config.lean ====
section
/-! DEFINITION. What an implementation fixes and what the spec leaves open: every constant of this file is opaque, so
no proof can see its value. Each one is named in a row of notes/assumptions. -/
namespace Sys2Proof.Config

/-- What byte `addr` of an on-wafer memory or of HBM holds after the reset number `epoch` left its contents undefined
(R137, R141, R190, R429, R430, R435). -/
opaque freeByte : (epoch addr : Nat) → Byte

/-- R145: RCP is within 1 ulp, so an inexact result is one of the two neighbours of the true value. -/
opaque rcpUp : BitVec 32 → Bool

/-- R145: RSQRT is within 1 ulp; as `rcpUp`. -/
opaque rsqrtUp : BitVec 32 → Bool

/-- R145: the result of a stage function 0x11..0x18 (EXP, EXP2, LOG, TANH, SIGMOID, SOFTPLUS, SILU, GELU), by opcode. The spec bounds it by
2 ulp and gives no value: it is taken where it lies within the bound (`twoUlp`). -/
opaque stageFn : (opc : Nat) → BitVec 32 → BitVec 32

/-- R145, R158: the result of DSIGMOID to DGELU on saved operand `a` and gradient `b`, by opcode, likewise. -/
opaque stageFn2 : (opc : Nat) → (a b : BitVec 32) → BitVec 32

/-- R291: the bank, 0..63, that the controller of a channel maps a row to. -/
opaque rowBank : (chan row : Nat) → Fin 64

/-- R294: the spare rows a bank has when it leaves the factory. -/
opaque bankSpare : (chan : Nat) → (bank : Nat) → Bool

/-- R182: which FREE lease entry a TAKE allocates ("any FREE entry"): a free choice for each value of the free-value counter. -/
opaque pickLease : (n : Nat) → Nat

/-- R464: the bytes of the FRU memory. -/
opaque fruByte : Fin 256 → Byte

/-- R423: the module serial number of the module record. -/
opaque serial : W64

/-- R423, R428: the firmware version in bank `bank` of Masthead `m`'s flash when the module ships. -/
opaque fwVersion : (m bank : Bool) → BitVec 32

/-- R305: the 32 bytes of an IDENT frame, which carry the device ID, port, mode, width and initial credits in a layout the spec does not
give. -/
opaque identBytes : (dev port : Nat) → (ethernet : Bool) → (width credits : Nat) → BitVec 256

/-- A fresh value of the free-value counter: values the spec leaves undefined, 64 bits wide. -/
opaque freeWord : Nat → W64

end Sys2Proof.Config
end

