-- ==== Sys2Proof/Machine/Bits.lean ====
section
/-! DEFINITION. Bit fields of little-endian words and records as natural numbers (R5, R6, R7), and small list helpers. -/
namespace Sys2Proof

/-- Bits [hi:lo] of `w` (R5, R6). -/
def bits (w hi lo : Nat) : Nat := w / 2 ^ lo % 2 ^ (hi + 1 - lo)

/-- Bit `i` of `w`. -/
def bit (w i : Nat) : Bool := w / 2 ^ i % 2 == 1

/-- `w` with bits [hi:lo] replaced by the low bits of `v`. -/
def setBits (w hi lo v : Nat) : Nat :=
  w - bits w hi lo * 2 ^ lo + v % 2 ^ (hi + 1 - lo) * 2 ^ lo

/-- `w` with bit `i` set to `b`. -/
def setBit (w i : Nat) (b : Bool) : Nat := setBits w i i (if b then 1 else 0)

/-- A field value placed at bit `lo`. -/
def fieldAt (lo v : Nat) : Nat := v * 2 ^ lo

/-- A truth value as a bit. -/
def b2n (b : Bool) : Nat := if b then 1 else 0

/-- The bits of `w` under the mask `m`. -/
def maskAnd (w m : Nat) : Nat := Nat.land w m

/-- A register value from a natural number. -/
def toW (n : Nat) : W64 := BitVec.ofNat 64 n

/-- The two's complement value of an n-bit field. -/
def toSigned (n v : Nat) : Int :=
  if v % 2 ^ n < 2 ^ (n - 1) then (v % 2 ^ n : Nat) else (v % 2 ^ n : Nat) - (2 ^ n : Nat)

/-- An integer as an n-bit two's complement field. -/
def ofSigned (n : Nat) (i : Int) : Nat := (i % (2 ^ n : Nat)).toNat

/-- A field that "stops at" its largest value (R444). -/
def stopAt (max v : Nat) : Nat := if v ≤ max then v else max

/-- A field stored as the nearer bound. -/
def clampNat (lo hi v : Nat) : Nat := if v < lo then lo else if hi < v then hi else v

/-- An integer held between two bounds. -/
def clampInt (lo hi v : Int) : Int := if v < lo then lo else if hi < v then hi else v

/-- R445: `a` is later than `b` among n-bit sequence numbers. -/
def laterThan (n a b : Nat) : Bool :=
  let d := (a + 2 ^ n - b % 2 ^ n) % 2 ^ n
  decide (0 < d ∧ d < 2 ^ (n - 1))

/-- Little-endian value of a byte list (R7). -/
def leNat : List Byte → Nat
  | [] => 0
  | b :: bs => b.toNat + 256 * leNat bs

/-- The `n` little-endian bytes of a value (R7). -/
def leBytes : (n v : Nat) → List Byte
  | 0, _ => []
  | n + 1, v => BitVec.ofNat 8 v :: leBytes n (v / 256)

/-- The number of 1 bits among the low `n` bits of `w`. -/
def popCount : (n w : Nat) → Nat
  | 0, _ => 0
  | n + 1, w => w % 2 + popCount n (w / 2)

/-- The positions of the 1 bits among the low `n` bits of `w`, rising. -/
def bitList (n w : Nat) : List Nat := (List.range n).filter (bit w)

/-- The least number below `n` that satisfies `p`. -/
def firstBelow (n : Nat) (p : Nat → Bool) : Option Nat := (List.range n).find? p

/-- The XOR of two values. -/
def xorN (a b : Nat) : Nat := Nat.xor a b

/-- One step of a reflected CRC over one bit. -/
def crcBitR (poly c : Nat) : Nat := if c % 2 = 1 then xorN (c / 2) poly else c / 2

/-- One step of a CRC register of `n` bits shifted left, most significant bit first. -/
def crcBitL (n poly c : Nat) : Nat :=
  if bit c (n - 1) then xorN (c * 2 % 2 ^ n) poly else c * 2 % 2 ^ n

/-- `f` applied `n` times. -/
def iter {α : Type} (f : α → α) : Nat → α → α
  | 0, x => x
  | n + 1, x => iter f n (f x)

/-- The first index at which `p` holds. -/
def indexWhere {α : Type} (p : α → Bool) : List α → Option Nat
  | [] => none
  | x :: xs => if p x then some 0 else (indexWhere p xs).map (· + 1)

/-- `x` put before the first element that does not precede it. -/
def insertBy {α : Type} (le : α → α → Bool) (x : α) : List α → List α
  | [] => [x]
  | y :: ys => if le x y then x :: y :: ys else y :: insertBy le x ys

/-- The list in the order `le`, equal elements in their old order. -/
def sortBy {α : Type} (le : α → α → Bool) : List α → List α
  | [] => []
  | x :: xs => insertBy le x (sortBy le xs)

/-- The list with the element at `i` replaced. -/
def setAt {α : Type} (xs : List α) (i : Nat) (x : α) : List α := xs.set i x

/-- The list without its `i`-th element. -/
def dropAt {α : Type} (xs : List α) (i : Nat) : List α := xs.eraseIdx i

/-- The integer floor of a square root, by bisection on `fuel` bits from the top. -/
def isqrtAux : (fuel n r : Nat) → Nat
  | 0, _, r => r
  | k + 1, n, r =>
    let t := r + 2 ^ k
    isqrtAux k n (if t * t ≤ n then t else r)

/-- The integer floor of the square root of `n`. -/
def isqrt (n : Nat) : Nat := isqrtAux (n.log2 / 2 + 1) n 0

/-- A sum of natural numbers. -/
def sumNat (xs : List Nat) : Nat := xs.foldl (· + ·) 0

end Sys2Proof
end

