-- ==== Sys2Proof/Machine/Tab.lean ====
section
/-! DEFINITION. Sparse tables by key in one canonical form (keys strictly rising, no entry equal to what an unlisted key
reads as), and memories whose unlisted bytes read as Config gives. -/
namespace Sys2Proof.Machine

/-- A sparse table: an unlisted key reads as the default its user names. -/
abbrev Tab (α : Type) := List (Nat × α)

namespace Tab

/-- The entry of key `k`. -/
def find? {α : Type} : Tab α → Nat → Option α
  | [], _ => none
  | (j, v) :: t, k => if j = k then some v else find? t k

/-- What key `k` reads as. -/
def get {α : Type} (d : α) (t : Tab α) (k : Nat) : α := (find? t k).getD d

/-- The table with `k` listed as `v`. -/
def put {α : Type} : Tab α → Nat → α → Tab α
  | [], k, v => [(k, v)]
  | (j, w) :: t, k, v =>
    if k < j then (k, v) :: (j, w) :: t else if k = j then (k, v) :: t else (j, w) :: put t k v

/-- The table with `k` unlisted. -/
def del {α : Type} (t : Tab α) (k : Nat) : Tab α := List.filter (fun e => !(e.1 == k)) t

/-- The table in which `k` reads as `v`, where an unlisted `k` reads as `d`. -/
def set {α : Type} [DecidableEq α] (d : α) (t : Tab α) (k : Nat) (v : α) : Tab α :=
  if v = d then del t k else put t k v

/-- The table with every key that satisfies `p` unlisted. -/
def clear {α : Type} (p : Nat → Bool) (t : Tab α) : Tab α := List.filter (fun e => !(p e.1)) t

/-- The table with the keys `lo ≤ k < hi` unlisted. -/
def clearRange {α : Type} (lo hi : Nat) (t : Tab α) : Tab α :=
  clear (fun k => decide (lo ≤ k ∧ k < hi)) t

/-- The canonical form: keys strictly rising, and no entry equal to its default. -/
def wf {α : Type} [DecidableEq α] (d : Nat → α) : Tab α → Bool
  | [] => true
  | [(j, v)] => !(v == d j)
  | (j, v) :: (k, w) :: t => !(v == d j) && decide (j < k) && wf d ((k, w) :: t)

end Tab

/-- What an unlisted byte of a memory of this epoch reads as: 0 before any reset left it undefined (DESIGN CHOICE, assumption 3),
else a free value. -/
def unlistedByte (epoch addr : Nat) : Byte := if epoch = 0 then 0 else Config.freeByte epoch addr

/-- A byte memory. Unlisted bytes read as `unlistedByte` of the epoch of the first hole that holds their address, else of
`epoch`: an epoch is the number of the reset or event that left contents undefined. -/
structure Mem where
  epoch : Nat := 0
  holes : List (Nat × Nat × Nat) := []
  cells : Tab Byte := []
  deriving DecidableEq, Repr

namespace Mem

/-- What an unlisted byte reads as. -/
def unlisted (m : Mem) (a : Nat) : Byte :=
  match m.holes.find? fun h => decide (h.1 ≤ a ∧ a < h.2.1) with
  | some h => unlistedByte h.2.2 a
  | none => unlistedByte m.epoch a

/-- Reading one byte. -/
def get (m : Mem) (a : Nat) : Byte := Tab.get (m.unlisted a) m.cells a

/-- Writing one byte. -/
def set (m : Mem) (a : Nat) (v : Byte) : Mem := { m with cells := Tab.set (m.unlisted a) m.cells a v }

/-- Reading `n` bytes from `a`. -/
def read (m : Mem) : (a n : Nat) → List Byte
  | _, 0 => []
  | a, n + 1 => m.get a :: read m (a + 1) n

/-- Writing a byte list from `a`. -/
def write (m : Mem) : (a : Nat) → List Byte → Mem
  | _, [] => m
  | a, b :: bs => write (m.set a b) (a + 1) bs

/-- Reading an n-byte little-endian value (R7). -/
def readNat (m : Mem) (a n : Nat) : Nat := leNat (m.read a n)

/-- Writing an n-byte little-endian value (R7). -/
def writeNat (m : Mem) (a n v : Nat) : Mem := m.write a (leBytes n v)

/-- The canonical form of a memory. -/
def wf (m : Mem) : Bool := Tab.wf m.unlisted m.cells

/-- The memory after a reset that leaves its contents undefined. -/
def undefinedBy (epoch : Nat) : Mem := { epoch := epoch }

/-- The bytes `lo ≤ a < hi` left undefined. -/
def scramble (m : Mem) (epoch lo hi : Nat) : Mem :=
  { m with holes := (lo, hi, epoch) :: m.holes, cells := Tab.clearRange lo hi m.cells }

end Mem

end Sys2Proof.Machine
end

