-- ==== Sys2Proof/Machine/Regs.lean ====
section
/-! DEFINITION. The register map (R384..R387, Tables 16.4, 16.5): page bases, page types, and for every page type the table
of its block registers with their writable bits, reset values and kinds. BAR0 offsets are register numbers 0..0x1FF_FFFF;
BAR4 offset x is register number 0x200_0000 + x. -/
namespace Sys2Proof.Machine

/-! ### Page bases (Tables 16.4 and 16.5) -/

/-- The Global page. -/
def pgGlobal : Nat := 0x0000
/-- The page of Masthead A (`false`) or B (`true`). -/
def pgMast (m : Bool) : Nat := if m then 0x2000 else 0x1000
/-- The Bare page. -/
def pgBare : Nat := 0x3000
/-- The host port page of A (`false`) or B (`true`). -/
def pgHost (b : Bool) : Nat := if b then 0x5000 else 0x4000
/-- Power page `i`. -/
def pgPower (i : Nat) : Nat := 0x1_0000 + i * 0x1000
/-- Partition page `p`. -/
def pgPart (p : Nat) : Nat := 0x2_0000 + p * 0x1000
/-- The maintenance arbiter page. -/
def pgArb : Nat := 0x3_0000
/-- The monitor aggregation page. -/
def pgMon : Nat := 0x4_0000
/-- The page of Stay port `p`. -/
def pgPort (p : Nat) : Nat := 0x10_0000 + p * 0x1000
/-- The page of collective engine `d`. -/
def pgEngine (d : Nat) : Nat := 0x12_0000 + d * 0x1000
/-- Group Table entry `g`. -/
def pgGroup (g : Nat) : Nat := 0x12_8000 + g * 0x80
/-- The controller page of stack `h` (R301). -/
def pgHc (h : Nat) : Nat := 0x20_0000 + h * 0x4000
/-- The PHY page of stack `h`. -/
def pgPhy (h : Nat) : Nat := pgHc h + 0x1000
/-- The thermal page of stack `h`. -/
def pgTherm (h : Nat) : Nat := pgHc h + 0x2000
/-- The repair page of stack `h`. -/
def pgRep (h : Nat) : Nat := pgHc h + 0x3000
/-- The page of stream-cache slice `s`. -/
def pgSlice (s : Nat) : Nat := 0x28_0000 + s * 0x1000
/-- Shard Directory entry `b` (R278). -/
def sdAddr (b : Nat) : Nat := 0x30_0000 + b * 32
/-- Layer Numerics Table entry `e` (R237). -/
def lntAddr (e : Nat) : Nat := 0x80_0000 + e * 64
/-- The Yard page of logical Yard `y`. -/
def pgYard (y : Nat) : Nat := 0x100_0000 + y * 0x4_0000
/-- The switch page. -/
def pgSwitch (y : Nat) : Nat := pgYard y + 0x1000
/-- The Yard core page. -/
def pgCore (y : Nat) : Nat := pgYard y + 0x2000
/-- The page of unit `u` of Table 3.7: an MU (0..15), VU (16..19) or SU (20, 21); a steering unit is in the switch page. -/
def pgUnit (y u : Nat) : Nat :=
  if u < 16 then pgYard y + 0x1_0000 + u * 0x1000
  else if u < 20 then pgYard y + 0x5000 + (u - 16) * 0x1000
  else if u < 22 then pgYard y + 0x3000 + (u - 20) * 0x1000
  else pgSwitch y
/-- The tag-store window of unit `u` (R82). -/
def tagWindow (y u : Nat) : Nat := pgYard y + 0x2_0000 + u * 0x400
/-- Doorbell page of job `j` (Table 16.3). -/
def pgDoor (j : Nat) : Nat := 0x200_0000 + j * 0x1000
/-- The MSI-X table in BAR4 of port A (`false`) or B (`true`): each port has its own (R380, R381); the second copy of BAR4's
upper half is numbered 0x100_0000 higher. -/
def pgMsix (b : Bool) : Nat := if b then 0x301_0000 else 0x201_0000
/-- Fault log entry `e` (Table 19.4). -/
def logAddr (e : Nat) : Nat := 0x4_1000 + e * 32

/-! ### Page types and instances (Table 16.11) -/

/-- The block type of the 4 KB page numbered `n` (its BAR0 offset / 0x1000), 0 where there is none. -/
def pageType (n : Nat) : Nat :=
  if n = 0 then 0x01 else if n ≤ 2 then 0x02 else if n = 3 then 0x03 else if n ≤ 5 then 0x04
  else if n = 0x10 ∨ n = 0x11 then 0x05
  else if 0x20 ≤ n ∧ n < 0x28 then 0x06
  else if n = 0x30 then 0x07 else if n = 0x40 then 0x08
  else if 0x100 ≤ n ∧ n < 0x120 then 0x09
  else if 0x120 ≤ n ∧ n < 0x128 then 0x0A
  else if 0x200 ≤ n ∧ n < 0x280 then 0x0B + n % 4
  else if 0x280 ≤ n ∧ n < 0x2A0 then 0x0F
  else if 0x1000 ≤ n ∧ n < 0x2000 then
    let r := n % 64
    if r = 0 then 0x10 else if r = 1 then 0x11 else if r = 2 then 0x12
    else if r ≤ 4 then 0x13 else if r ≤ 8 then 0x14
    else if 16 ≤ r ∧ r < 32 then 0x15 else 0
  else 0

/-- INSTANCE of PG_IDENT for the page numbered `n` (Table 16.7). -/
def pageInstance (n : Nat) : Nat :=
  let t := pageType n
  if t = 0x02 then n - 1 else if t = 0x04 then n - 4 else if t = 0x05 then n - 0x10
  else if t = 0x06 then n - 0x20 else if t = 0x09 then n - 0x100 else if t = 0x0A then n - 0x120
  else if 0x0B ≤ t ∧ t ≤ 0x0E then (n - 0x200) / 4
  else if t = 0x0F then n - 0x280
  else if 0x10 ≤ t then
    let y := (n - 0x1000) / 64
    let r := n % 64
    y * 64 + (if t = 0x10 then 62 else if t = 0x11 then 38 else if t = 0x12 then 63
      else if t = 0x13 then 20 + (r - 3) else if t = 0x14 then 16 + (r - 5) else r - 16)
  else 0

/-- The windows without a header: 1 Shard Directory, 2 Layer Numerics Table, 3 Group Table, 4 tag store, 5 fault log,
6 doorbell page, 7 MSI-X table, 8 MSI-X pending bits; 0 none of them. -/
def windowKind (a : Nat) : Nat :=
  if 0x30_0000 ≤ a ∧ a < 0x70_0000 then 1
  else if 0x80_0000 ≤ a ∧ a < 0x90_0000 then 2
  else if 0x12_8000 ≤ a ∧ a < 0x12_8000 + 255 * 0x80 then 3
  else if 0x100_0000 ≤ a ∧ a < 0x200_0000 ∧ 0x2_0000 ≤ a % 0x4_0000 ∧ a % 0x4_0000 < 0x2_0000 + 38 * 0x400 then 4
  else if 0x4_1000 ≤ a ∧ a < 0x4_3000 then 5
  else if 0x200_0000 ≤ a ∧ a < 0x201_0000 then 6
  else if (0x201_0000 ≤ a ∧ a < 0x201_1000) ∨ (0x301_0000 ≤ a ∧ a < 0x301_1000) then 7
  else if (0x201_1000 ≤ a ∧ a < 0x201_1020) ∨ (0x301_1000 ≤ a ∧ a < 0x301_1020) then 8
  else 0

/-! ### Register tables -/

/-- How a register takes a write. -/
inductive RegKind
  /-- RW, RO and RSV fields only. -/
  | plain
  /-- A masked write (R388). -/
  | masked
  /-- SAT and COUNT (R443). -/
  | counter
  /-- W1C bits under `rw`. -/
  | w1c
  deriving DecidableEq, Repr

/-- One line of a register table: `count` registers from `off`, `stride` bytes apart, their writable bits (for a masked
register, the writable bits of [31:0]), their reset value, and whether the opcode table gives their write a row of its own. -/
structure RegRow where
  off : Nat
  count : Nat := 1
  stride : Nat := 8
  rw : Nat := 0
  reset : Nat := 0
  kind : RegKind := .plain
  own : Bool := false
  deriving DecidableEq, Repr

/-- Whether row `r` holds the register at offset `o`. -/
def RegRow.covers (r : RegRow) (o : Nat) : Bool :=
  decide (r.off ≤ o ∧ o < r.off + r.count * r.stride) && (o - r.off) % r.stride == 0

/-- A run of SAT/COUNT counters (R443). -/
def counters (off n : Nat) : RegRow := { off := off, count := n, rw := 0x8000_0000_0000_0000, kind := .counter, own := true }

/-- The default SOURCE and BASE of a page type (Table 19.3), with EN = 1 (Table 19.2). -/
def monCfgReset (ty : Nat) : Nat :=
  let sb : Nat × Nat :=
    if ty = 0x11 then (0x01, 11) else if ty = 0x15 ∨ ty = 0x14 then (0x03, 0) else if ty = 0x13 then (0x04, 0)
    else if ty = 0x0B then (0x07, 5) else if ty = 0x10 ∨ ty = 0x0D then (0x08, 10)
    else if ty = 0x09 then (0x0A, 8) else if ty = 0x12 then (0x0B, 4) else (0, 0)
  0x8000_0000 + sb.1 * 0x1_0000 + sb.2 * 0x100

/-- MIN and MAX at reset, for a signed source (TEMP, 0x08) or an unsigned one (Table 19.2). -/
def monMinMaxReset (source : Nat) : Nat := if source = 0x08 then 0x8000_0000_7FFF_FFFF else 0xFFFF_FFFF

/-- The common header and monitor slots of a page of type `ty` (Tables 16.6, 19.2). -/
def headerRows (ty : Nat) : List RegRow :=
  [ { off := 0x000 }, { off := 0x008, rw := 0x3_00FF, kind := .masked, own := true }, { off := 0x010 }, { off := 0x018 },
    { off := 0x020, rw := 0xFFFF_FFFF, kind := .masked, own := true },
    { off := 0x028, own := true }, { off := 0x030, own := true }, { off := 0x038, own := true }, { off := 0x040 },
    { off := 0x048, own := true },
    { off := 0x050, rw := 0xC0FF_3F00, kind := .masked, reset := monCfgReset ty, own := true }, { off := 0x058 },
    { off := 0x060, reset := monMinMaxReset (monCfgReset ty / 0x1_0000 % 0x100) },
    counters 0x068 2, { off := 0x078, count := 8 } ]

/-- Table 16.12: the Global page. -/
def rowsGlobal : List RegRow :=
  [ { off := 0x100, reset := 0x6400_1000_0000_0000 }, { off := 0x108 }, { off := 0x110 }, { off := 0x118 }, { off := 0x120 },
    { off := 0x200, count := 32, own := true },
    { off := 0x300, rw := 0xFFFF_FFFF }, { off := 0x308, rw := 0xFFFF_FFFF, kind := .masked }, { off := 0x310 },
    counters 0x318 1,
    { off := 0x3F8 }, { off := 0x400, count := 64 }, { off := 0x600, count := 72 },
    { off := 0x900, rw := 0xFF00, kind := .w1c }, { off := 0x908 }, { off := 0x910, reset := 0x1_0000 },
    { off := 0x920, rw := 0xF0, kind := .masked, own := true }, { off := 0x928 },
    { off := 0x930, rw := 0xFFFF_FFFF_FFFF_FFFF, reset := 0x0200_0000_88B5_0000, own := true },
    { off := 0x940, rw := 0xFFFF_FFFF_FFFE_0000, reset := 0xFF * 2 ^ 52 },
    { off := 0x948, rw := 0xFFFF_F000_FFFF_FFFF, reset := 1000 },
    { off := 0x950, kind := .masked, own := true }, { off := 0x958 } ]

/-- Table 17.9: a Masthead page. -/
def rowsMast : List RegRow :=
  [ { off := 0x100 }, { off := 0x108 }, { off := 0x110, rw := 0xFFFF_0000_0000 }, counters 0x118 1 ]

/-- Tables 18.4..18.7: the Bare page. -/
def rowsBare : List RegRow :=
  [ { off := 0x100, reset := 0x0200_0000_0000_0000 }, { off := 0x108, rw := 0xFF80, kind := .masked, own := true },
    { off := 0x110, reset := 0x2000_0000_0000_0000 }, { off := 0x118 }, { off := 0x120, count := 6 },
    { off := 0x180, rw := 0xC000_FFFF_0000_0000 }, { off := 0x188, rw := 0xFFFF_FFFF_FFFF_FFFF },
    { off := 0x190, kind := .masked, own := true }, { off := 0x198 } ]

/-- Table 16.14: a host port page. -/
def rowsHost : List RegRow :=
  [ { off := 0x100, reset := 2 ^ 53 }, { off := 0x108, rw := 0x3FF_C000_0000 }, { off := 0x110, reset := 34 },
    { off := 0x118 }, counters 0x120 5 ]

/-- Tables 17.5 and 17.6: the power pages (page 0 from 0x100, page 1 the domains; a reader of page 0 finds page 1's rows
reserved and the reverse, by `pageRows`). -/
def rowsPower0 : List RegRow :=
  [ { off := 0x100, rw := 0xFFFF_FFFF_FFFF_F801,
      reset := 95 * 2 ^ 40 + 600 * 2 ^ 30 + 260 * 2 ^ 21 + 900 * 2 ^ 11 + 1 },
    { off := 0x108 }, { off := 0x110 }, { off := 0x118 }, counters 0x120 3 ]

/-- Table 17.6. -/
def rowsPower1 : List RegRow := [ { off := 0x100, count := 72, reset := 750 * 2 ^ 42 } ]

/-- Table 15.3: a partition page. -/
def rowsPart : List RegRow :=
  [ { off := 0x100, rw := 0x8000_FFFF_FEFF_0000, reset := 64 * 2 ^ 16, own := true },
    { off := 0x108, rw := 0xFFFF_FFFF_FFFF_FFFF, own := true }, { off := 0x110, rw := 0x3FF_FFFF_F000, own := true },
    { off := 0x118, rw := 0xFFFF, reset := 100 }, { off := 0x130, rw := 0xFFFF, kind := .w1c },
    { off := 0x140, count := 3, rw := 0xFFFF_FFF0_0000_0000, reset := 16 * 2 ^ 40 + 0xE * 2 ^ 36 }, counters 0x158 3,
    { off := 0x180, rw := 0xFFFF_FFFF, reset := 1000 }, { off := 0x188, rw := 0xFFFF_FFFF, reset := 5000 },
    { off := 0x190, rw := 0xF0, kind := .masked, own := true },
    { off := 0x1C0, rw := 0x3FF_FFFF_F000 }, { off := 0x1C8, rw := 0xFF00, kind := .masked, own := true },
    { off := 0x1D0 }, { off := 0x1D8 },
    { off := 0x200, count := 16, stride := 0x10, rw := 0xF000_0000_FFFF_FFFF, reset := 1000, own := true },
    { off := 0x208, count := 16, stride := 0x10 },
    { off := 0x300, count := 16, rw := 0xFFFF_FFFF_FFFF_FFFF, own := true },
    { off := 0x400, count := 16, stride := 0x40, rw := 0x80F0_FFFF_FFFF_FFFF, reset := 0xFFFF_0000, own := true },
    { off := 0x408, count := 16, stride := 0x40, rw := 0xFFFF_FF1F_000F_FFFF, reset := 1000 * 2 ^ 48 + 0xFF * 2 ^ 40, own := true },
    { off := 0x410, count := 16, stride := 0x40 },
    { counters 0x418 16 with stride := 0x40 }, { counters 0x420 16 with stride := 0x40 },
    { off := 0x428, count := 16, stride := 0x40, kind := .masked, own := true }, { off := 0x430, count := 16, stride := 0x40 },
    { off := 0x800, count := 16, stride := 0x20, rw := 0x8F00_0000_FFFF_FFFF, own := true },
    { off := 0x808, count := 16, stride := 0x20, rw := 0xEFF0_FF00_FFFF_0000, reset := 0xFF * 2 ^ 40 + 1000 * 2 ^ 16, own := true },
    { off := 0x810, count := 16, stride := 0x20 }, { off := 0x818, count := 16, stride := 0x20, kind := .masked, own := true },
    { off := 0xA00, count := 16, stride := 0x40, rw := 0xFFFF_0000_0FFF_FFFF,
      reset := 1000 * 2 ^ 48 + 1 * 2 ^ 24 + 151 * 2 ^ 16 + 127 * 2 ^ 8 + 143, own := true },
    { off := 0xA08, count := 16, stride := 0x40, rw := 0xFFFF_FFFF_0000_00FF },
    { off := 0xA10, count := 16, stride := 0x40, rw := 0xFFFF_FF00_FFFF_0000, reset := 1 * 2 ^ 48 + 0x60 * 2 ^ 40 + 64 * 2 ^ 16 },
    { off := 0xA18, count := 16, stride := 0x40 }, { off := 0xA20, count := 16, stride := 0x40 },
    { off := 0xA28, count := 16, stride := 0x40, kind := .masked, own := true },
    { counters 0xA30 16 with stride := 0x40 },
    { off := 0xE00, count := 16, stride := 0x20, rw := 0xFFF0_0000_FFFF_FFFF, reset := 1 * 2 ^ 57 + 6 * 2 ^ 52 },
    { off := 0xE08, count := 16, stride := 0x20 }, { off := 0xE10, count := 16, stride := 0x20 },
    { off := 0xE18, count := 16, stride := 0x20 } ]

/-- Table 17.11: the maintenance arbiter. -/
def rowsArb : List RegRow :=
  [ { off := 0x100, rw := 3, kind := .masked, reset := 2, own := true }, { off := 0x108, rw := 0xF000_0000_FFFF_FFFF, own := true },
    { off := 0x110, rw := 0x3FF_FFFF_F000 }, { off := 0x118, rw := 0xFFFF_FFFF }, { off := 0x120 },
    { off := 0x128, count := 4 }, { off := 0x148 } ]

/-- Table 19.8: monitor aggregation. -/
def rowsMon : List RegRow :=
  [ { off := 0x100, rw := 0x1F, reset := 0x1F }, { off := 0x108 }, counters 0x110 5, counters 0x138 4,
    { off := 0x180, rw := 0x8000_FFFF_0000_FFFF, reset := 0x8000_0018_0000_0003 }, { off := 0x400, count := 64 } ]

/-- Tables 13.8 and 13.9: a Stay port; the channel map only in the page of the first port of its die. -/
def rowsPort (first : Bool) : List RegRow :=
  [ { off := 0x100, rw := 0xFFFF_FFF8_F000_0007, reset := 4 * 2 ^ 48 + 4 * 2 ^ 28 + 5, own := true }, { off := 0x108 },
    counters 0x110 10, { off := 0x180, count := 8 } ] ++
  (if first then [ { off := 0x800, count := 256, rw := 0xFFFF_FF80_F800_0000 } ] else [])

/-- Table 14.6: a collective engine. -/
def rowsEngine : List RegRow := [ { off := 0x100 }, counters 0x110 6, { off := 0x180 } ]

/-- Tables 12.5 and 12.6: an HBM controller. -/
def rowsHc : List RegRow :=
  [ { off := 0x100, count := 32 }, counters 0x200 4, { off := 0x300, rw := 0x1F, kind := .masked, own := true },
    { off := 0x308, rw := 0xFFFF_F3FF_FFFF_F000 }, { off := 0x310 } ]

/-- Table 12.7: an HBM PHY. -/
def rowsPhy : List RegRow := [ { off := 0x100 } ]

/-- Table 12.8: HBM thermal. -/
def rowsTherm : List RegRow := [ { off := 0x100, rw := 0xFFFF_0000 }, { off := 0x108 }, counters 0x110 3 ]

/-- Table 12.9: HBM repair. -/
def rowsRep : List RegRow :=
  [ { off := 0x100, rw := 0xFFFF, reset := 16 }, { off := 0x108, kind := .masked, own := true }, { off := 0x110 },
    { off := 0x200, count := 32 }, { off := 0x400, count := 128 } ]

/-- R286: a stream-cache slice. -/
def rowsSlice : List RegRow := [ counters 0x100 4 ]

/-- Tables 2.8..2.10, 11.9, 11.10: a Yard page. -/
def rowsYard : List RegRow :=
  [ { off := 0x100 }, counters 0x108 1, { off := 0x110 }, { off := 0x180 }, { off := 0x188, rw := 0x3F, own := true },
    { off := 0x200, count := 16, rw := 0x8000_0000_07FF_07FF } ]

/-- Tables 3.8..3.12: a switch page. -/
def rowsSwitch : List RegRow :=
  [ { off := 0x100, rw := 3, kind := .masked, own := true }, { off := 0x108 }, counters 0x110 3,
    { off := 0x128, rw := 0xFF_0000_0000 }, { off := 0x200, count := 16 } ]

/-- Tables 7.9..7.13: a Yard core page. -/
def rowsCore : List RegRow :=
  [ { off := 0x100 }, { off := 0x108, rw := 0xF0, kind := .masked, own := true }, counters 0x110 4, { off := 0x180, count := 16 },
    { off := 0x200, rw := 0x3_03FF }, { off := 0x208, own := true }, { off := 0x210, rw := 0x1FFF_0000 } ]

/-- Table 11.11: an SU page. -/
def rowsSu : List RegRow := [ { off := 0x100 }, counters 0x110 8, { off := 0x180, count := 8 } ]

/-- Tables 6.12..6.15: a VU page. -/
def rowsVu : List RegRow := [ { off := 0x100 }, { off := 0x108 }, counters 0x110 8, { off := 0x180, count := 8 } ]

/-- Tables 5.11..5.14: an MU page. -/
def rowsMu : List RegRow :=
  [ { off := 0x100 }, { off := 0x108 }, counters 0x110 5, { off := 0x138 }, counters 0x140 1, { off := 0x180, count := 8 } ]

/-- Table 15.9: a doorbell page. -/
def rowsDoor : List RegRow :=
  [ { off := 0x000, rw := 0xFFFF, own := true }, { off := 0x008, rw := 0x3FF_FFFF_F000 },
    { off := 0x010, rw := 0xC000_0000_0000_000F, reset := 4, own := true }, { off := 0x018 },
    { off := 0x020, kind := .masked, own := true } ]

/-- Table 11.8: the four words of a Shard Directory entry. -/
def rowsSd : List RegRow :=
  [ { off := 0, rw := 0xCFF0_0000_FFFF_FFFF, own := true }, { off := 8, rw := 0x7FFF_03FF_FFFF_FFFF, own := true },
    { off := 16, rw := 0x7FFF_03FF_FFFF_FFFF, own := true }, { off := 24, rw := 0xFFFF_FFFF_FFFF_FFFF, own := true } ]

/-- Table 10.3: the eight words of entry `e` of the Layer Numerics Table. -/
def rowsLnt (e : Nat) : List RegRow :=
  [ { off := 0, rw := 0xFFFF_FCFF_FFFF_FFFF, own := true,
      reset := 0xF * 2 ^ 52 + 1 * 2 ^ 48 + 4 * 2 ^ 32 + 256 * 2 ^ 16 + 128 * 2 ^ 8 },
    { off := 8, rw := 0x3FFF_3FFF_3FFF_0000, reset := e * 2 ^ 48 + e * 2 ^ 32 + e * 2 ^ 16, own := true },
    { off := 16, rw := 0xFFFF_FFFF_00FF_FFFF, reset := 127 * 2 ^ 56 + 127 * 2 ^ 48 + 127 * 2 ^ 40, own := true },
    { off := 24, own := true }, { off := 32, own := true }, { off := 40, own := true },
    { off := 48, rw := 0xFFFF_FFFF_FFFF_FFFF, own := true }, { off := 56, rw := 0xFFFF_FFFF_FFFF_FFFF, own := true } ]

/-- Table 13.5: the words of a Group Table entry. -/
def rowsGroup : List RegRow :=
  [ { off := 0, rw := 0xFFE0_FFFF_FFFF_FFF0, reset := 0xF000, own := true },
    { off := 8, count := 8, rw := 0xFFFF_0000_FFFF_FFFF, own := true } ]

/-- The MSI-X table of PCI Express: an entry is 16 bytes, message address and data with the vector control word, whose Mask
bit is 1 at reset (PRESUMED, assumption 8). -/
def rowsMsix : List RegRow :=
  [ { off := 0, count := 256, stride := 16, rw := 0xFFFF_FFFF_FFFF_FFFC },
    { off := 8, count := 256, stride := 16, rw := 0x1_FFFF_FFFF, reset := 0x1_0000_0000 } ]

/-- The block registers of the page numbered `n`. -/
def pageRows (n : Nat) : List RegRow :=
  match pageType n with
  | 0x01 => rowsGlobal | 0x02 => rowsMast | 0x03 => rowsBare | 0x04 => rowsHost
  | 0x05 => if n = 0x10 then rowsPower0 else rowsPower1
  | 0x06 => rowsPart | 0x07 => rowsArb | 0x08 => rowsMon | 0x09 => rowsPort (n % 4 == 0)
  | 0x0A => rowsEngine | 0x0B => rowsHc | 0x0C => rowsPhy | 0x0D => rowsTherm | 0x0E => rowsRep
  | 0x0F => rowsSlice | 0x10 => rowsYard | 0x11 => rowsSwitch | 0x12 => rowsCore | 0x13 => rowsSu
  | 0x14 => rowsVu | 0x15 => rowsMu | _ => []

/-- The line of the register tables that holds register `a`. -/
def regRow (a : Nat) : Option RegRow :=
  match windowKind a with
  | 1 => rowsSd.find? (·.covers (a % 32))
  | 2 => (rowsLnt ((a - 0x80_0000) / 64)).find? (·.covers (a % 64))
  | 3 => rowsGroup.find? (·.covers (a % 0x80))
  | 4 => some { off := a }
  | 5 => some { off := a }
  | 6 => rowsDoor.find? (·.covers (a % 0x1000))
  | 7 => rowsMsix.find? (·.covers (a % 0x1000))
  | 8 => some { off := a }
  | _ =>
    let n := a / 0x1000
    if pageType n = 0 then none
    else if a % 0x1000 < 0x100 then (headerRows (pageType n)).find? (·.covers (a % 0x1000))
    else (pageRows n).find? (·.covers (a % 0x1000))

/-- The value register `a` holds right after a cold reset (the tables' Reset column; "—" fields: DESIGN CHOICE 0,
assumption 1). -/
def regReset (a : Nat) : W64 :=
  match regRow a with
  | some r => toW r.reset
  | none => 0

/-- The register that holds byte address `a`, by its 8-byte slot. -/
def slotOf (a : Nat) : Nat := a / 8 * 8

/-- The page base of register `a`. -/
def pageBase (a : Nat) : Nat := a / 0x1000 * 0x1000

/-- Whether register `a` lies in a page with a common header. -/
def inPage (a : Nat) : Bool := decide (a < 0x200_0000) && windowKind a == 0 && !(pageType (a / 0x1000) == 0)

/-- The bit of the CNT_SAT event in a page of each type (Tables 16.18, 16.19, 17.8, 17.10, 15.8, 13.10, 14.8, 12.10, 19.9,
3.13, 7.15, 11.13, R286, 6.16, 5.15); a page whose event table has no CNT_SAT raises none. -/
def cntSatBit (ty : Nat) : Option Nat :=
  match ty with
  | 0x01 => some 6 | 0x02 => some 3 | 0x04 => some 5 | 0x05 => some 5 | 0x06 => some 12 | 0x08 => some 3
  | 0x09 => some 5 | 0x0A => some 4 | 0x0B => some 5 | 0x0F => some 0 | 0x11 => some 5 | 0x12 => some 4
  | 0x13 => some 1 | 0x14 => some 2 | 0x15 => some 2 | _ => none

/-! ### Faults (Table 19.6) -/

/-- The severities of Table 19.5. -/
inductive Severity | info | absorbed | job | partition | device
  deriving DecidableEq, Repr

/-- SEV codes of Table 19.4. -/
def Severity.code : Severity → Nat
  | .info => 0 | .absorbed => 1 | .job => 2 | .partition => 3 | .device => 4

/-- The severity of each fault code of Table 19.6. -/
def faultSev (code : Nat) : Severity :=
  if code / 0x100 = 0x01 ∨ code / 0x100 = 0x02 then .job
  else if code / 0x100 = 0x03 ∨ code / 0x100 = 0x04 then .partition
  else if code = 0x0505 then .job
  else if code = 0x0502 ∨ code = 0x0503 then .info
  else if code / 0x100 = 0x05 then .absorbed
  else if code = 0x0605 then .partition
  else if code / 0x100 = 0x06 ∨ code / 0x100 = 0x07 then .absorbed
  else if code = 0x0801 then .absorbed
  else if code / 0x100 = 0x08 then .info
  else if code = 0x0903 then .info
  else if code = 0x0905 then .partition
  else if code / 0x100 = 0x09 then .device
  else if code = 0x0A02 then .absorbed
  else if code = 0x0A03 then .device
  else if code / 0x100 = 0x0A then .info
  else if code = 0x0B01 then .job
  else .info

end Sys2Proof.Machine
end

