-- ==== Sys2Proof/Machine/Types.lean ====
section
/-! DEFINITION. The data of the machine that are not registers: tokens, queues, units and their slots, sections, images. -/
namespace Sys2Proof.Machine

/-! ### Tokens (R54, R57) -/

/-- A token: its 32-bit header and its payload (512 bits on the vector network, 64 on the scalar network, 56 on the
halyard). -/
structure Token where
  hdr : BitVec 32
  payload : Nat
  deriving DecidableEq, Repr

/-- KIND of Table 3.2. -/
inductive Kind | data | ctrl | mark | reserved
  deriving DecidableEq, Repr

/-- A halyard copy in order of arrival on the rail that is ahead: the copy, whether it was good, whether it was passed on. -/
structure RailCopy where
  copy : BitVec 96
  good : Bool
  passed : Bool
  deriving DecidableEq, Repr

/-- The receiver of one halyard link (R61..R63): the copies on each rail's wires, the copies that wait for their second, and
which rail they came from, and the run of bad copies on each rail. -/
structure HalLink where
  wireA : List (BitVec 96) := []
  wireB : List (BitVec 96) := []
  ahead : Rail := .a
  firsts : List RailCopy := []
  badA : Nat := 0
  badB : Nat := 0
  deriving DecidableEq, Repr

/-- A switch: its input queues by 16 × input port + lane (R64), the outputs that have accepted the head of each queue (R52), the queue last
served on each output lane, and under 4096 × (input port + 1) + output lane that port's lane last served there (R52), and the tokens
offered to the Yard core, the section tracker and the units (the handshakes begun, R36). -/
structure SwitchState where
  inQ : Tab (List Token) := []
  copied : Tab (List Nat) := []
  served : Tab Nat := []
  offers : Tab Token := []
  deriving DecidableEq, Repr

/-! ### Configuration records (Table 4.11) -/

/-- A configuration record: its header fields and its body as a little-endian number (R107). -/
structure CfgRec where
  yard : Nat
  unit : Nat
  slot : Nat
  next : Nat
  section_ : Nat
  flags : Nat
  quota : Nat
  bodyLen : Nat
  body : Nat
  deriving DecidableEq, Repr

/-- ENTRY of FLAGS. -/
def CfgRec.entry (r : CfgRec) : Bool := bit r.flags 0
/-- TERMINAL of FLAGS. -/
def CfgRec.terminal (r : CfgRec) : Bool := bit r.flags 1
/-- PER_ITER of FLAGS. -/
def CfgRec.perIter (r : CfgRec) : Bool := bit r.flags 2
/-- STREAMED of FLAGS. -/
def CfgRec.streamed (r : CfgRec) : Bool := bit r.flags 3

/-- A reef slot (R84, R89): the job it belongs to, whether it is reserved for a streamed record, the record it holds, LIVE
and FIRED (Table 5.14), and the key of the section it was last started for. -/
structure Slot where
  job : Nat := 0
  reserved : Bool := false
  record : Option CfgRec := none
  live : Bool := false
  fired : Nat := 0
  sec : Nat := 0
  deriving DecidableEq, Repr

/-- A tag-store entry (Table 3.14); `limit` is the LIMIT a COUNT entry keeps (R74). -/
structure TagEntry where
  count : Bool
  slot : Nat
  pos : Nat
  tok : Token
  k : Nat
  limit : Nat
  deriving DecidableEq, Repr

/-- A firing under way: its job and tag, the positions it uses, the tokens of its bursts so far, and whether its results have
been formed. -/
structure Firing where
  job : Nat
  tag : Nat
  uses : List Nat
  got : Tab (List Token)
  formed : Bool
  deriving DecidableEq, Repr

/-- A record being streamed in (R89, R90). -/
structure ReefIn where
  slot : Nat
  job : Nat
  left : Nat
  bytes : List Byte
  discard : Bool
  deriving DecidableEq, Repr

/-- A token a unit has to send: the output it leaves on and its lane. -/
structure OutTok where
  out : Nat
  lane : Lane
  tok : Token
  deriving DecidableEq, Repr

/-- One firing stored in a DELAY ring (R273): its ring slot, job and tag, for each input its token count and whether it is
a MARK, and whether it is being emitted: its slot is free once its outputs have accepted all of it. -/
structure RingItem where
  pos : Nat
  job : Nat
  tag : Nat
  bursts : List (Nat × Bool)
  sent : Bool := false
  deriving DecidableEq, Repr

/-- A token delivered to the wafer and not yet in a queue: the Yard and its input (16 × port + lane), or 64 + a non-enabled physical Yard and
16 × direction + lane; and the port, VC and sender of the frame whose slot is free once it has gone (R315, R316). -/
structure InjTok where
  y : Nat
  inp : Nat
  tok : Token
  slot : Option (Nat × Nat) := none
  dev : Nat := 0
  deriving DecidableEq, Repr

/-! ### Sections and start records -/

/-- Where a start record came from. -/
inductive RecSource
  | ring (job : Nat) (index : Nat)
  | core (y : Nat)
  deriving DecidableEq, Repr

/-- A start record (Table 4.2) with its job and its source (R95). -/
structure StartRec where
  job : Nat
  rig : Nat
  section_ : Nat
  tagBase : Nat
  ext : List Nat
  src : RecSource
  deriving DecidableEq, Repr

/-- The values of a Layer Numerics Table entry latched at issue (R132, R240); for an UPDATE entry also IMM1, IMM2 and IMM3 of R251. -/
structure LntLatch where
  entry : Nat
  scale : Nat
  inSa : Nat
  inSb : Nat
  fmtL : Nat
  imms : Option (Nat × Nat × Nat)
  deriving DecidableEq, Repr

/-- A section in flight (R96..R101); `role` is its part in the step plan (1 PIPE, 2 RED, 3 UPD, 0 none, Table 8.1) and
`phase` its phase (R222), `step` the STEP latched at issue (R234). -/
structure Section where
  uid : Nat
  part : Nat
  job : Nat
  rig : Nat
  num : Nat
  n : Nat
  tagBase : Nat
  ext : List Nat
  lead : Nat
  start : Nat
  budgetUs : Nat
  need : Nat
  got : Nat
  latched : List LntLatch
  version : Nat
  src : RecSource
  pinLoad : Bool
  role : Nat := 0
  phase : Nat := 0
  step : Nat := 0
  deriving DecidableEq, Repr

/-- What a unit took in from a SECTION_START: N and TAG_BASE (R91), and the section, whose latched values it resolves with until the slot leaves
(R132). -/
structure SecInfo where
  sec : Option Section
  n : Nat
  tagBase : Nat
  deriving DecidableEq, Repr

/-- A firing unit: its slots; the active slot, the one that waits to be activated and the one whose record has not arrived (R91); the
sections it was started on; position queues and tag store; the firing under way; tokens to send; a SECTION_END that waits for
the firing; a record coming in; TAG of the last firing, ST_DROP; ACC_ALT's second region next; NOTIFY tiles pending, by entry
(R136); the DELAY ring, its next slot, the reads its emission waits for, and a leave that waits for it to empty (R273); memory requests
outstanding and their epoch; a held SELECT (R72). -/
structure UnitState where
  slots : Tab Slot := []
  active : Option Nat := none
  pend : Option Nat := none
  activating : Option Nat := none
  secs : Tab SecInfo := []
  queues : Tab (List Token) := []
  tags : List TagEntry := []
  firing : Option Firing := none
  outbox : List OutTok := []
  endWait : Option Nat := none
  reef : Option ReefIn := none
  lastTag : Nat := 0
  drops : Nat := 0
  altSecond : Bool := false
  pendingTiles : List Nat := []
  ring : List RingItem := []
  ringNext : Nat := 0
  ringWait : Nat := 0
  memWait : Nat := 0
  epoch : Nat := 0
  heldSelect : Option Token := none
  leaving : Bool := false
  deriving DecidableEq, Repr

/-! ### Rig images (R103..R107) -/

/-- A section record (Table 4.8). -/
structure SecRec where
  num : Nat
  lead : Nat
  iterDim : Nat
  budgetUs : Nat
  deriving DecidableEq, Repr

/-- A RESOURCES record (Table 4.14) with the stowage range the loader chose (R264). -/
structure ResRec where
  yard : Nat
  ycBase : Nat
  ycLen : Nat
  storeBase : Nat
  storeLen : Nat
  stowLen : Nat
  stowBase : Nat
  deriving DecidableEq, Repr

/-- A route entry (R107) of one switch slot. -/
structure Route where
  yard : Nat
  slot : Nat
  net : Nat
  inPort : Nat
  chan : Nat
  outs : List Nat
  plane : Nat
  deriving DecidableEq, Repr

/-- A STREAMS or COLLECTIVES record: TARGET, SUB, INDEX and the descriptor as a little-endian number. -/
structure DescRec where
  target : Nat
  sub : Nat
  index : Nat
  len : Nat
  body : Nat
  deriving DecidableEq, Repr

/-- A join record (Table 4.10). -/
structure JoinRec where
  section_ : Nat
  yard : Nat
  unit : Nat
  pos : Nat
  forkYard : Nat
  imbalance : Nat
  off : Nat
  deriving DecidableEq, Repr

/-- YC code of an image: where it goes and its bytes. -/
structure CodeRec where
  yard : Nat
  off : Nat
  bytes : List Byte
  deriving DecidableEq, Repr

/-- A loaded image; `cross` are the non-enabled Yards whose crossings it uses, `switches` the Yard and slot of each switch record (R84),
`collsFirst` that its COLLECTIVES part stands before its UNIT_CONFIG part. -/
structure Image where
  part : Nat
  rig : Nat
  job : Nat
  maxExt : List Nat
  secs : List SecRec
  cfgs : List CfgRec
  routes : List Route
  codes : List CodeRec
  streams : List DescRec
  colls : List DescRec
  res : List ResRec
  joins : List JoinRec
  cross : List Nat
  switches : List (Nat × Nat) := []
  collsFirst : Bool := false
  deriving DecidableEq, Repr

/-- A load whose checks have passed and that waits for its commit (R111); `at_` is the GLB_TIME at which they did. -/
structure PendingLoad where
  part : Nat
  job : Nat
  gen : Nat
  image : Image
  geometry : Nat
  fromRing : Option Nat
  at_ : Nat := 0
  deriving DecidableEq, Repr

/-! ### Yard cores (R162..R190) -/

/-- A token of an inbound queue: its network (0 scalar, 1 halyard), the token, whether it is a device notification (R173). -/
structure InTok where
  net : Nat
  tok : Token
  notice : Bool
  deriving DecidableEq, Repr

/-- An XFER in flight (R179); `id` names its memory requests. -/
structure Xfer where
  loc : Nat
  hbm : Nat
  left : Nat
  toHbm : Bool
  id : Nat := 0
  deriving DecidableEq, Repr

/-- Context states of Table 7.13; a context that does not exist is NONE. -/
inductive CtxSt | ready | running | blocked | preempted | stopped | halted | faulted
  deriving DecidableEq, Repr

/-- STATE codes of Table 7.13. -/
def CtxSt.code : CtxSt → Nat
  | .ready => 1 | .running => 2 | .blocked => 3 | .preempted => 4 | .stopped => 5 | .halted => 6 | .faulted => 7

/-- A context (R162, R167, R170): registers and CSRs, what Table 7.13 shows, its XFERs in flight, a cause-10 trap held until
TRET (R171) and one that becomes due when the waiting instruction completes or the context resumes (R180), the word of the instruction
that waits, whether a request to the counter block is outstanding, and whether its state lies in its save frame (R188). -/
structure YcCtx where
  st : CtxSt := .ready
  pc : Nat := 0
  g : Tab W64 := []
  status : Nat := 0
  trapVec : Nat := 0
  trapPc : Nat := 0
  trapCause : Nat := 0
  trapVal : Nat := 0
  scratch : Nat := 0
  inValid : Bool := false
  inHdr : Nat := 0
  dataBase : Nat := 0
  dataLen : Nat := 0
  instret : Nat := 0
  seq : Nat := 0
  shownPc : Nat := 0
  xfers : List Xfer := []
  held10 : Option Nat := none
  due10 : Option Nat := none
  word : Nat := 0
  asked : Bool := false
  inFrame : Bool := false
  deriving DecidableEq, Repr

/-- A record in the reef streamer (R176): its job, its unit and the tokens left to send. -/
structure StreamRec where
  job : Nat
  unit : Nat
  toks : List Token
  deriving DecidableEq, Repr

/-- A Yard core: the job of the context on the core, the contexts and inbound queues by job, the reef streamer, and the job and
time of the last placement (R361). -/
structure YcCore where
  cur : Option Nat := none
  ctxs : Tab YcCtx := []
  inbound : Tab (List InTok) := []
  streamer : List StreamRec := []
  lastPlaced : Nat := 15
  placedAt : Nat := 0
  deriving DecidableEq, Repr

/-- State of a lease entry (R182..R184). -/
inductive LeaseSt | free | held | reissue
  deriving DecidableEq, Repr

/-- A lease entry. -/
structure Lease where
  counter : Nat := 0
  item : Nat := 0
  holder : Nat := 0
  st : LeaseSt := .free
  t : Nat := 0
  gen : Nat := 0
  deriving DecidableEq, Repr

/-- A request to the counter block: a TAKE, or a COMMIT of `handle`. -/
structure WcReq where
  y : Nat
  job : Nat
  commit : Bool
  counter : Nat
  handle : Nat
  gd : Nat
  pc : Nat
  deriving DecidableEq, Repr

/-! ### Memory traffic (R265, R283, R358) -/

/-- A request of up to 4 KB that a firing unit sends to a stack: the unit, the partition, the class, the line (address /
4096), the bytes, whether it writes, whether a miss fills, the unit's epoch (a fabric reset starts a new one,
and answers to older requests reach no firing), its first byte and its end within the line, its job, and whether a DELAY's emission waits for it.
A request of another requester has `y` 64 with the requester's key in `u`, or `y` 65 where nothing waits for its answer. -/
structure MemReq where
  y : Nat
  u : Nat
  part : Nat
  cls : Nat
  line : Nat
  len : Nat
  write : Bool
  cache : Bool
  epoch : Nat
  lo : Nat := 0
  hi : Nat := 0
  job : Nat := 0
  emit : Bool := false
  deriving DecidableEq, Repr

/-- Who sends a memory request other than a firing unit's: the partition whose regulators charge it (8: none), its class (Table 11.3) and
its job. -/
structure HbmUser where
  part : Nat
  cls : Nat
  job : Nat := 15
  deriving DecidableEq, Repr

/-- A BAR2 read under way: its port, HBM address and length. -/
structure BarRead where
  port : HostPort
  addr : Nat
  len : Nat
  deriving DecidableEq, Repr

/-- A cached line: its number, its set and way, and the slice's use count at its last use. -/
structure CacheLine where
  line : Nat
  set : Nat
  way : Nat
  used : Nat
  deriving DecidableEq, Repr

/-- A read of HBM under way for a slice: its request, the reads merged into it, and whether its data have returned. -/
structure Fill where
  req : MemReq
  merged : List MemReq
  back : Bool
  deriving DecidableEq, Repr

/-- A stream-cache slice: the accesses that wait, the lines it holds, the fills in flight, its use count. -/
structure SliceState where
  acc : List MemReq := []
  lines : List CacheLine := []
  fills : List Fill := []
  uses : Nat := 0
  deriving DecidableEq, Repr

/-- A channel controller (R265): its queue of each class, the weights of the round robin, its grant slots so far, and the
reads in service. -/
structure ChanState where
  q0 : List MemReq := []
  q1 : List MemReq := []
  q2 : List MemReq := []
  q3 : List MemReq := []
  cur1 : Int := 0
  cur2 : Int := 0
  cur3 : Int := 0
  slots : Nat := 0
  service : List MemReq := []
  deriving DecidableEq, Repr

/-- A frame to send (R309), before its credit and acknowledgement fields; `chan` is its outbound channel, 256 × die + c. -/
structure TxFrame where
  type : Nat
  last : Bool
  ph : Nat
  set : Nat
  vc : Nat
  dst : Nat
  job : Nat
  group : Nat
  tag : Nat
  target : Nat
  payload : List Byte
  chan : Option Nat := none
  deriving DecidableEq, Repr

/-- What a regulator holds. -/
inductive Held
  | mem (r : MemReq)
  | frame (port : Nat) (f : TxFrame)
  deriving DecidableEq, Repr

/-- A token bucket (R359): its tokens, full at reset, and the requests it holds. -/
structure Bucket where
  tokens : Int := 65536
  held : List Held := []
  deriving DecidableEq, Repr

/-! ### Rings (R367..R373) -/

/-- A fetched ring entry: its index, OP, IRQ, ARG and BODY, whether the device has acted on it, whether it has completed, and
whether its section belongs to the step plan (R370). -/
structure RingEntry where
  index : Nat
  op : Nat
  irq : Bool
  arg : Nat
  body : List Byte
  acted : Bool := false
  done : Bool := false
  plan : Bool := false
  deriving DecidableEq, Repr

/-! ### Agreements (R324, R340) -/

/-- An agreement under way at this device: whether it is a permute's (else the gate's), its job, group and instance, this
device's own value, when the first contribution was seen, when this device contributed, the children heard (slot, VALUE,
MISSING, ZERO), whether it has forwarded, and a result that came before this device contributed. -/
structure Agree where
  perm : Bool
  job : Nat
  group : Nat
  tag : Nat
  own : Option Bool
  t0 : Nat
  contributed : Nat
  heard : List (Nat × Bool × Bool × Bool)
  sent : Bool
  down : Option (Bool × Bool × Bool) := none
  deriving DecidableEq, Repr

/-- A PHASE frame heard from a child: its slot, target and EPOCH. -/
structure PhaseHeard where
  slot : Nat
  target : Nat
  epoch : Nat
  deriving DecidableEq, Repr

/-! ### Links (R304..R325) -/

/-- A sequenced frame in the replay buffer: its sequence number, when it was last sent, how often, and whether it waits to be sent again. -/
structure Sent where
  frame : TxFrame
  seq : Nat
  at_ : Nat
  sends : Nat
  due : Bool := false
  deriving DecidableEq, Repr

/-- A Stay port. Sequence numbers are kept by VC × 32768 + device; queues and counts by VC. `txSeq` is the next number to send, `rxSeq` the
next expected, `rxIdle` when a pair was last heard, `unacked` the frames taken since the last acknowledgement, `granted` CR_CUM,
`seenCum` the partner's last CR_CUM, `sharedUsed` the shared slots granted to a VC, `xoff` the VCs told to stop; `identSent` is 1 more
than the time of the last IDENT sent. -/
structure PortState where
  txSeq : Tab Nat := []
  rxSeq : Tab Nat := []
  rxIdle : Tab Nat := []
  queues : Tab (List TxFrame) := []
  replay : List Sent := []
  rr : Nat := 0
  unacked : Tab Nat := []
  granted : Tab Nat := []
  seenCum : Tab Nat := []
  downAt : Nat := 0
  identSent : Nat := 0
  partner : Option IdentInfo := none
  sharedUsed : Tab Nat := []
  xoff : List Nat := []
  deriving DecidableEq, Repr

/-- A TOKEN frame being packed (R314): its job, tag, the payloads so far, and when the last token came. -/
structure Pack where
  job : Nat
  tag : Nat
  toks : List Nat
  at_ : Nat
  deriving DecidableEq, Repr

/-! ### Collective engines (R329..R345) -/

/-- A collective descriptor that waits to start: its image, its INDEX and BUCKET, its job, and its section. -/
structure CollWait where
  part : Nat
  rig : Nat
  index : Nat
  bucket : Nat
  job : Nat
  uid : Nat
  tag : Nat
  deriving DecidableEq, Repr

/-- A chunk received: from peer slot `slot`, up or DOWN, its number, CNT and payload. -/
structure Chunk where
  slot : Nat
  down : Bool
  k : Nat
  cnt : Nat
  data : List Byte
  deriving DecidableEq, Repr

/-- A running descriptor: where it comes from, when it started, its resolved window count, the chunks received and not yet
used, how many chunks it has forwarded, which it has received from above, the MISSING slots, what its completion token
says, whether it reads the window buffer, and its norm sums. -/
structure CollRun where
  wait : CollWait
  body : Nat
  t0 : Nat
  w : Nat
  chunks : List Chunk := []
  taken : List (Nat × Nat) := []
  upK : Nat := 0
  downK : Nat := 0
  missing : List Nat := []
  minCnt : Nat := 0xFFFF
  win : Bool := false
  backup : Bool := false
  normUps : List (Nat × Nat × Nat) := []
  normLocal : Nat := 0
  normTotal : Nat := 0
  normCnt : Nat := 0
  normUp : Bool := false
  normDone : Bool := false
  deriving DecidableEq, Repr

/-- A collective engine: what waits, what runs, the last instance completed of each descriptor (INDEX × 16 + job), and the job
served last (R331). -/
structure EngineState where
  waiting : List CollWait := []
  running : List CollRun := []
  doneTag : Tab Nat := []
  lastJob : Nat := 15
  deriving DecidableEq, Repr

/-- The norms of a completed NORMS bucket (R345): its job, engine, BUCKET and INDEX, the FP64 local and global squared norms,
and CNT. -/
structure NormRec where
  job : Nat
  d : Nat
  bucket : Nat
  index : Nat
  loc : Nat
  glob : Nat
  cnt : Nat
  aborted : Bool
  deriving DecidableEq, Repr

/-- A permute (R346): the blocks expected with the chunks of each still to come, whether CHECK passed or a port was lost, and 1 more than the
time at which this device contributed. -/
structure PermRun where
  expect : List (Nat × Nat) := []
  checkOk : Bool := true
  lost : Bool := false
  contributed : Nat := 0
  deriving DecidableEq, Repr

/-! ### Management -/

/-- A maintenance request or operation (R417..R421): its class, target and source (0 policy, 1 port A, 2 port B), the phase
of a running one, and the physical Yard a retirement tests. -/
structure MaintOp where
  cls : Nat
  target : Nat
  src : Nat
  phase : Nat := 0
  spare : Option Nat := none
  deriving DecidableEq, Repr

/-- What a host sets in a port's configuration space (Table 16.1): D3hot in place of D0, the maximum payload and read request sizes in bytes,
and the uncorrectable and correctable status of Advanced Error Reporting (PRESUMED, assumption 182). -/
structure HostCfg where
  d3hot : Bool := false
  maxPayload : Nat := 128
  maxReadRequest : Nat := 512
  aerUncorrectable : BitVec 32 := 0
  aerCorrectable : BitVec 32 := 0
  deriving DecidableEq, Repr

/-- What leaves the module. -/
inductive Out
  /-- An MSI-X message on a port (R392). -/
  | msix (port : HostPort) (vector : Nat)
  /-- The completion of a host read: its port and data. -/
  | readData (port : HostPort) (v : Nat)
  /-- A read completed with Completer Abort (R382, R384). -/
  | abort (port : HostPort)
  /-- What an SMBus read returned (R464). -/
  | smbus (v : Nat)
  /-- A 100 ns pulse on TSYNC_OUT (R432). -/
  | pulse
  /-- A frame sent by a Stay port in direct mode, on a VC (R309). -/
  | frame (port : Nat) (vc : Nat) (f : Frame)
  /-- An IEEE 802.3 frame sent by a Stay port in Ethernet mode, on a VC's priority: its bytes from the destination address to the FCS (R311). -/
  | ethernet (port : Nat) (vc : Nat) (bytes : List Byte)
  /-- A priority flow-control frame for a VC's priority (R317). -/
  | pfc (port : Nat) (vc : Nat) (xoff : Bool)
  deriving DecidableEq, Repr

end Sys2Proof.Machine
end

