-- ==== Sys2Proof/Machine/Image.lean ====
section
/-! DEFINITION. The fields of a rig image (R103..R107): CRC-32C, little-endian fields of byte strings, configuration records. -/
namespace Sys2Proof.Machine

/-- CRC-32C of a byte string (R104). -/
def crc32c (bs : List Byte) : Nat :=
  xorN (bs.foldl (fun c b => iter (crcBitR 0x82F6_3B78) 8 (xorN c b.toNat)) 0xFFFF_FFFF) 0xFFFF_FFFF

/-- The `n`-byte little-endian field at offset `o`. -/
def fieldOf (bs : List Byte) (o n : Nat) : Nat := leNat ((bs.drop o).take n)

/-- The configuration record at the start of a byte string (Table 4.11). -/
def parseCfg (bs : List Byte) : CfgRec :=
  { yard := fieldOf bs 0 1, unit := fieldOf bs 1 1, slot := fieldOf bs 2 1 % 8, next := fieldOf bs 3 1, section_ := fieldOf bs 4 2,
    flags := fieldOf bs 6 2, quota := fieldOf bs 8 4, bodyLen := fieldOf bs 12 2, body := fieldOf bs 16 (fieldOf bs 12 2) }

/-- The route entries of a switch record (R107). -/
def CfgRec.routes (r : CfgRec) : List Route :=
  (List.range (r.bodyLen / 8)).map fun i =>
    let w := r.body / 2 ^ (64 * i) % 2 ^ 64
    let outs := [bits w 47 42, bits w 41 36, bits w 35 30, bits w 29 24]
    { yard := r.yard, slot := r.slot, net := bits w 63 62, inPort := bits w 61 56, chan := bits w 55 48
      outs := (List.range 4).filterMap fun k => if bit w (20 + k) then outs[k]? else none
      plane := bits w 19 17 }

end Sys2Proof.Machine
end

