-- ==== Sys2Proof/Machine/Numerics.lean ====
section
/-! DEFINITION. Encodings, exact values, FP32 arithmetic, casts and random bits (R118..R120, R145, R228..R235). A value is
exact until it is rounded: every rounding stands where a rule puts it. -/
namespace Sys2Proof.Machine

/-- A number as an encoding stands for it: NaN, an infinity, or the exact ± m × 2^e. -/
inductive FVal
  | nan
  | inf (neg : Bool)
  | fin (neg : Bool) (m : Nat) (e : Int)
  deriving DecidableEq, Repr

/-- How a format spends its top codes (Table 10.1): as IEEE 754, as OCP E4M3, or on finite values only. -/
inductive Top | ieee | e4m3 | finite
  deriving DecidableEq, Repr

/-- A format of Table 10.1. -/
structure Fmt where
  eb : Nat
  mb : Nat
  bias : Nat
  top : Top
  deriving DecidableEq, Repr

/-- The format of a code of Tables 5.4, 6.5 and 10.1; other codes read as FP32 (no rule reaches them). -/
def fmtOf : Nat → Fmt
  | 0x0 => ⟨4, 3, 7, .e4m3⟩ | 0x1 => ⟨5, 2, 15, .ieee⟩ | 0x2 => ⟨4, 3, 7, .e4m3⟩ | 0x3 => ⟨5, 2, 15, .ieee⟩
  | 0x4 => ⟨2, 3, 1, .finite⟩ | 0x5 => ⟨3, 2, 3, .finite⟩ | 0x6 => ⟨2, 1, 1, .finite⟩
  | 0x7 => ⟨8, 7, 127, .ieee⟩ | 0x8 => ⟨5, 10, 15, .ieee⟩ | _ => ⟨8, 23, 127, .ieee⟩

/-- Bits of one element. -/
def fmtBits (code : Nat) : Nat :=
  match code with
  | 0x4 | 0x5 => 6 | 0x6 => 4 | 0x7 | 0x8 => 16 | 0x9 | 0xA => 32 | _ => 8

/-- Whether a code is an MX format (Table 5.4). -/
def fmtMx (code : Nat) : Bool := decide (2 ≤ code ∧ code ≤ 6)

/-- The exponent of one unit in the last place of the subnormals. -/
def Fmt.qmin (f : Fmt) : Int := 1 - (f.bias : Int) - f.mb

/-- The code of the largest finite magnitude (Table 10.1). -/
def Fmt.maxCode (f : Fmt) : Nat :=
  match f.top with
  | .ieee => (2 ^ f.eb - 1) * 2 ^ f.mb - 1
  | .e4m3 => 2 ^ (f.eb + f.mb) - 2
  | .finite => 2 ^ (f.eb + f.mb) - 1

/-- emax of Table 10.1: the exponent of the largest finite value. -/
def Fmt.emax (f : Fmt) : Int :=
  match f.top with
  | .ieee => (f.bias : Int)
  | _ => (2 ^ f.eb : Nat) - 1 - (f.bias : Int)

/-- The value an encoding stands for (R228). -/
def decodeFmt (f : Fmt) (w : Nat) : FVal :=
  let neg := bit w (f.eb + f.mb)
  let ex := w / 2 ^ f.mb % 2 ^ f.eb
  let man := w % 2 ^ f.mb
  let num : FVal := if ex = 0 then .fin neg man f.qmin else .fin neg (man + 2 ^ f.mb) (f.qmin + ex - 1)
  match f.top with
  | .ieee => if ex = 2 ^ f.eb - 1 then (if man = 0 then .inf neg else .nan) else num
  | .e4m3 => if ex = 2 ^ f.eb - 1 ∧ man = 2 ^ f.mb - 1 then .nan else num
  | .finite => num

/-- The value of FP32 bits. -/
def f32 (w : BitVec 32) : FVal := decodeFmt (fmtOf 9) w.toNat

/-- An E8M0 scale as an exponent, none for NaN (Table 10.1). -/
def e8m0 (w : Nat) : Option Int := if w % 256 = 0xFF then none else some (((w % 256 : Nat) : Int) - 127)

/-- A magnitude m × 2^e cut to a format with `mb` mantissa bits: the code of the neighbour toward zero, the remainder, and
the size of one step as a power of two (0: exact). -/
def cutMag (mb : Nat) (qmin : Int) (m : Nat) (e : Int) : Nat × Nat × Nat :=
  if m = 0 then (0, 0, 0)
  else
    let q : Int := max (e + m.log2 - mb) qmin
    let base := (q - qmin).toNat * 2 ^ mb
    if q ≤ e then (base + m * 2 ^ (e - q).toNat, 0, 0)
    else
      let sh := (q - e).toNat
      (base + m / 2 ^ sh, m % 2 ^ sh, sh)

/-- How a cast rounds: to nearest even (R232), or stochastically with 24 random bits (R233). -/
inductive Rounding
  | nearest
  | stochastic (n : Nat)
  deriving DecidableEq, Repr

/-- A cut magnitude rounded (R232, R233): the next code up when the rounding takes it. -/
def roundCut (r : Rounding) (c : Nat × Nat × Nat) : Nat :=
  let (code, rem, sh) := c
  match r with
  | .nearest => if 2 * rem > 2 ^ sh ∨ (2 * rem = 2 ^ sh ∧ 0 < rem ∧ code % 2 = 1) then code + 1 else code
  | .stochastic n => if 0 < rem ∧ 2 ^ 24 ≤ rem * 2 ^ 24 / 2 ^ sh + n then code + 1 else code

/-- The canonical NaN (R120, R145, R229). -/
def nan32 : BitVec 32 := 0x7FC0_0000

/-- A value rounded once to FP32 by round-to-nearest-even (R118, R232). -/
def toF32 : FVal → BitVec 32
  | .nan => nan32
  | .inf neg => if neg then 0xFF80_0000 else 0x7F80_0000
  | .fin neg m e =>
    let c := roundCut .nearest (cutMag 23 (-149) m e)
    BitVec.ofNat 32 ((if neg then 2 ^ 31 else 0) + min c 0x7F80_0000)

/-- Whether FP32 bits are NaN or infinite. -/
def nonFinite (w : BitVec 32) : Bool := w.toNat / 2 ^ 23 % 256 == 255

/-- Whether FP32 bits are NaN. -/
def isNan (w : BitVec 32) : Bool := nonFinite w && !(w.toNat % 2 ^ 23 == 0)

/-- A NaN result is written 0x7FC0_0000 (R145). -/
def canon (w : BitVec 32) : BitVec 32 := if isNan w then nan32 else w

namespace FVal

/-- The exact product; ∞ × 0 is NaN (R120). -/
def mul : FVal → FVal → FVal
  | .nan, _ => .nan
  | _, .nan => .nan
  | .inf a, .inf b => .inf (xor a b)
  | .inf a, .fin b m _ => if m = 0 then .nan else .inf (xor a b)
  | .fin a m _, .inf b => if m = 0 then .nan else .inf (xor a b)
  | .fin a m e, .fin b n f => .fin (xor a b) (m * n) (e + f)

/-- The signed mantissa at exponent `q ≤ e`. -/
def mantAt (neg : Bool) (m : Nat) (e q : Int) : Int :=
  let v : Int := (m * 2 ^ (e - q).toNat : Nat)
  if neg then -v else v

/-- The exact sum; a zero sum is −0 only when every term is −0 (R118, R232). -/
def add : FVal → FVal → FVal
  | .nan, _ => .nan
  | _, .nan => .nan
  | .inf a, .inf b => if a = b then .inf a else .nan
  | .inf a, .fin _ _ _ => .inf a
  | .fin _ _ _, .inf b => .inf b
  | .fin a m e, .fin b n f =>
    let q := min e f
    let s := mantAt a m e q + mantAt b n f q
    if s = 0 then .fin (a && b && (m == 0) && (n == 0)) 0 q else .fin (decide (s < 0)) s.natAbs q

/-- The value times 2^k, exactly. -/
def scale (k : Int) : FVal → FVal
  | .fin a m e => .fin a m (e + k)
  | v => v

/-- The value with its sign changed. -/
def neg : FVal → FVal
  | .nan => .nan
  | .inf a => .inf (!a)
  | .fin a m e => .fin (!a) m e

/-- Ordering of two numbers, none with a NaN: the sign of a − b. -/
def cmp : FVal → FVal → Option Ordering
  | .nan, _ => none
  | _, .nan => none
  | .inf a, .inf b => some (if a = b then .eq else if a then .lt else .gt)
  | .inf a, .fin _ _ _ => some (if a then .lt else .gt)
  | .fin _ _ _, .inf b => some (if b then .gt else .lt)
  | .fin a m e, .fin b n f =>
    let q := min e f
    some (compare (mantAt a m e q) (mantAt b n f q))

/-- Whether the value is a zero. -/
def isZero : FVal → Bool
  | .fin _ m _ => m == 0
  | _ => false

/-- Whether the value is finite. -/
def isFinite : FVal → Bool
  | .fin _ _ _ => true
  | _ => false

/-- The magnitude, with the sign cleared. -/
def abs : FVal → FVal
  | .nan => .nan
  | .inf _ => .inf false
  | .fin _ m e => .fin false m e

end FVal

/-- The exact sum of a list of terms (R118). -/
def sumExact : List FVal → FVal
  | [] => .fin false 0 0
  | [x] => x
  | x :: xs => (sumExact xs).add x

/-! ### FP32 operations (R145) -/

/-- Correctly rounded sum. -/
def f32Add (a b : BitVec 32) : BitVec 32 := toF32 ((f32 a).add (f32 b))
/-- Correctly rounded difference. -/
def f32Sub (a b : BitVec 32) : BitVec 32 := toF32 ((f32 a).add (f32 b).neg)
/-- Correctly rounded product. -/
def f32Mul (a b : BitVec 32) : BitVec 32 := toF32 ((f32 a).mul (f32 b))
/-- a × b + c with one rounding. -/
def f32Fma (a b c : BitVec 32) : BitVec 32 := toF32 (((f32 a).mul (f32 b)).add (f32 c))

/-- A quotient m1 / m2 of mantissas with 64 bits and a sticky bit. -/
def divMant (m1 m2 : Nat) : Nat × Int :=
  let s := 64 + m2.log2
  let q := m1 * 2 ^ s / m2
  (2 * q + (if m1 * 2 ^ s % m2 = 0 then 0 else 1), -(s : Int) - 1)

/-- The quotient, exact or with a sticky bit that decides every FP32 rounding; x / 0 is ±∞ and 0 / 0, ∞ / ∞ are NaN
(IEEE 754). -/
def divVal : FVal → FVal → FVal
  | .nan, _ => .nan
  | _, .nan => .nan
  | .inf _, .inf _ => .nan
  | .inf a, .fin b _ _ => .inf (xor a b)
  | .fin a _ _, .inf b => .fin (xor a b) 0 0
  | .fin a m e, .fin b n f =>
    if n = 0 then (if m = 0 then .nan else .inf (xor a b))
    else
      let d := divMant m n
      .fin (xor a b) d.1 (e - f + d.2)

/-- Correctly rounded quotient. -/
def f32Div (a b : BitVec 32) : BitVec 32 := toF32 (divVal (f32 a) (f32 b))

/-- The square root, with a sticky bit; of a negative number NaN, of ±0 itself. -/
def sqrtVal : FVal → FVal
  | .nan => .nan
  | .inf a => if a then .nan else .inf false
  | .fin a m e =>
    if m = 0 then .fin a 0 e
    else if a then .nan
    else
      let k : Nat := 64 + (if e % 2 = 0 then 0 else 1)
      let x := m * 2 ^ k
      let r := isqrt x
      .fin false (2 * r + (if r * r = x then 0 else 1)) ((e - k) / 2 - 1)

/-- Correctly rounded square root. -/
def f32Sqrt (a : BitVec 32) : BitVec 32 := toF32 (sqrtVal (f32 a))

/-- A value within 1 ulp of `v` (R145): `v` itself where FP32 holds it, else the neighbour toward zero or, with `up`, the one
away from it. -/
def within1 (up : Bool) : FVal → BitVec 32
  | .fin neg m e =>
    let c := cutMag 23 (-149) m e
    let code := if c.2.1 = 0 then c.1 else if up then c.1 + 1 else c.1
    BitVec.ofNat 32 ((if neg then 2 ^ 31 else 0) + min code 0x7F80_0000)
  | v => toF32 v

/-- RCP, within 1 ulp (R145); which neighbour is `Config.rcpUp`. -/
def f32Rcp (a : BitVec 32) : BitVec 32 := within1 (Config.rcpUp a) (divVal (.fin false 1 0) (f32 a))

/-- RSQRT, within 1 ulp (R145); which neighbour is `Config.rsqrtUp`. The root is formed with more than 64 bits before it is
inverted, so the neighbours are those of 1/√a. -/
def f32Rsqrt (a : BitVec 32) : BitVec 32 := within1 (Config.rsqrtUp a) (divVal (.fin false 1 0) (sqrtVal (f32 a)))

/-- a > b; false with a NaN. -/
def f32Gt (a b : BitVec 32) : Bool := (f32 a).cmp (f32 b) == some .gt
/-- a < b; false with a NaN. -/
def f32Lt (a b : BitVec 32) : Bool := (f32 a).cmp (f32 b) == some .lt
/-- a = b; false with a NaN. -/
def f32Eq (a b : BitVec 32) : Bool := (f32 a).cmp (f32 b) == some .eq

/-- MAX: NaN if either operand is NaN (R145); of +0 and −0 the +0 (IEEE 754 maximum; DEDUCED, assumption 12). -/
def f32Max (a b : BitVec 32) : BitVec 32 :=
  if isNan a || isNan b then nan32
  else if f32Gt a b then a else if f32Gt b a then b
  else if (f32 a).isZero && bit a.toNat 31 then b else a

/-- MIN: NaN if either operand is NaN; of +0 and −0 the −0. -/
def f32Min (a b : BitVec 32) : BitVec 32 :=
  if isNan a || isNan b then nan32
  else if f32Lt a b then a else if f32Lt b a then b
  else if (f32 a).isZero && bit a.toNat 31 then a else b

/-- |a|. -/
def f32Abs (a : BitVec 32) : BitVec 32 := canon (BitVec.ofNat 32 (a.toNat % 2 ^ 31))
/-- −a. -/
def f32Neg (a : BitVec 32) : BitVec 32 := canon (BitVec.ofNat 32 (xorN a.toNat (2 ^ 31)))

/-- A natural number as exact FP32 when it fits in 24 bits. -/
def f32OfNat (n : Nat) : BitVec 32 := toF32 (.fin false n 0)

/-! ### Casts (R229..R231) -/

/-- The outcome of a cast: the code, and whether it overflowed and underflowed (R231). -/
structure Cast where
  code : Nat
  ovf : Bool
  undf : Bool
  deriving DecidableEq, Repr

/-- The NaN of each format (R229); an E4M3 infinity becomes it too (R231). -/
def nanCode (fmt : Nat) : Nat :=
  match fmt with
  | 0x7 => 0x7FC0 | 0x8 => 0x7E00 | 0x9 => 0x7FC0_0000 | _ => 0x7F

/-- Steps 3 to 5 of R231 on an exact u. -/
def castFin (fmt : Nat) (r : Rounding) (neg : Bool) (m : Nat) (e : Int) : Cast :=
  let f := fmtOf fmt
  let cut := cutMag f.mb f.qmin m e
  let code := roundCut r cut
  let ovf := decide (f.maxCode < cut.1) || (cut.1 == f.maxCode && !(cut.2.1 == 0))
  let lim := if fmt = 0x7 ∨ fmt = 0x8 ∨ fmt = 0x9 then f.maxCode + 1 else f.maxCode
  { code := min code lim + (if neg then 2 ^ (f.eb + f.mb) else 0)
    ovf := ovf
    undf := !(m == 0) && code == 0 }

/-- A cast of a true value to a plain format with output scale `s` (R231). -/
def castTo (fmt : Nat) (r : Rounding) (s : Nat) (v : FVal) : Cast :=
  match v with
  | .nan => ⟨nanCode fmt, false, false⟩
  | .inf neg =>
    if fmt = 0x0 then ⟨nanCode fmt, false, false⟩
    else
      let f := fmtOf fmt
      ⟨(2 ^ f.eb - 1) * 2 ^ f.mb + (if neg then 2 ^ (f.eb + f.mb) else 0), false, false⟩
  | .fin neg m e => castFin fmt r neg m (e + 127 - s)

/-- q of R230 for a BF16 code. -/
def bf16rQ (h : Nat) : Int :=
  let ex : Nat := h / 2 ^ 7 % 256
  max ((ex : Int) - 127) (-126) - 23

/-- A value times 2^−q rounded to an integer by the output's rounding mode (R230 step 3). -/
def roundInt (r : Rounding) (neg : Bool) (m : Nat) (e q : Int) : Int :=
  let n : Nat :=
    if q ≤ e then m * 2 ^ (e - q).toNat
    else
      let sh := (q - e).toNat
      roundCut r (m / 2 ^ sh, m % 2 ^ sh, sh)
  if neg then -(n : Int) else n

/-- Whether a finite magnitude exceeds BF16R's largest finite value, 0x7F7F with residual 32,767 (R230, R231). -/
def bf16rOver : FVal → Bool
  | .fin _ m e => (FVal.fin false m e).cmp (.fin false 0xFF_7FFF 104) == some .gt
  | _ => false

/-- The cast to BF16R (R230, R231). -/
def castBf16r (r : Rounding) (s : Nat) (v : FVal) : Cast :=
  let u := v.scale (127 - s)
  let h := castTo 0x7 .nearest 127 u
  match u, decodeFmt (fmtOf 7) h.code with
  | .fin _ m _, .fin hn hm he =>
    let q := bf16rQ h.code
    let res : Int :=
      match u.add (FVal.fin hn hm he).neg with
      | .fin dn dm de => clampInt (-32768) 32767 (roundInt r dn dm de q)
      | _ => 0
    { code := h.code * 2 ^ 16 + ofSigned 16 res, ovf := bf16rOver u, undf := !(m == 0) && hm == 0 && res == 0 }
  | _, _ => { code := h.code * 2 ^ 16, ovf := bf16rOver u, undf := false }

/-- The value of a BF16R element before it is rounded to FP32 (R230). -/
def bf16rVal (w : Nat) : FVal :=
  let h := w / 2 ^ 16 % 2 ^ 16
  match decodeFmt (fmtOf 7) h with
  | .fin a m e =>
    let r := toSigned 16 (w % 2 ^ 16)
    if r = 0 then .fin a m e else (FVal.fin a m e).add (.fin (decide (r < 0)) r.natAbs (bf16rQ h))
  | v => v

/-- A cast to a plain format or BF16R. -/
def castOut (fmt : Nat) (r : Rounding) (s : Nat) (v : FVal) : Cast :=
  if fmt = 0xA then castBf16r r s v else castTo fmt r s v

/-- A narrow element widened to its exact value (R146, R228, R230). -/
def widen (fmt w : Nat) : FVal := if fmt = 0xA then f32 (toF32 (bf16rVal w)) else decodeFmt (fmtOf fmt) w

/-- floor(log2 |v|) of a finite non-zero value. -/
def floorLog2 (m : Nat) (e : Int) : Int := e + m.log2

/-- The magnitude order: the larger of two finite magnitudes. -/
def maxMag (a b : FVal) : FVal := if a.abs.cmp b.abs == some .lt then b else a

/-- The block scale of 32 scaled values (R235). -/
def blockScale (fmt : Nat) (us : List FVal) : Nat :=
  if us.any (fun u => !u.isFinite) then 0xFF
  else
    match us.foldl maxMag (.fin false 0 0) with
    | .fin _ m e => if m = 0 then 127 else (clampInt 0 254 (floorLog2 m e - (fmtOf fmt).emax + 127)).toNat
    | _ => 0xFF

/-- The elements of an MX block: casts of u / 2^(code − 127), all +0 in a block of scale 0xFF (R229, R235). -/
def castBlock (fmt : Nat) (rs : List Rounding) (us : List FVal) : Nat × List Cast :=
  let code := blockScale fmt us
  (code, (us.zip rs).map fun ur =>
    match ur.1 with
    | .fin n m e => if code = 0xFF then ⟨0, false, false⟩ else castFin fmt ur.2 n m (e + 127 - code)
    | _ => ⟨0, false, false⟩)

/-! ### Random bits (R234) -/

/-- mix of R234, modulo 2^64. -/
def mix (z : Nat) : Nat :=
  let z1 := xorN z (z / 2 ^ 30) * 0xBF58_476D_1CE4_E5B9 % 2 ^ 64
  let z2 := xorN z1 (z1 / 2 ^ 27) * 0x94D0_49BB_1331_11EB % 2 ^ 64
  xorN z2 (z2 / 2 ^ 31)

/-- rand24 of R234. -/
def rand24 (key stream tag prob row col : Nat) : Nat :=
  let a := mix (Nat.lor (Nat.lor (key * 2 ^ 32 % 2 ^ 64) (stream * 2 ^ 16)) tag)
  let b := mix (xorN a (Nat.lor (Nat.lor (prob * 2 ^ 42 % 2 ^ 64) (row * 2 ^ 21)) col))
  b / 2 ^ 40

/-! ### The MU's sums (R118) -/

/-- Block sums aligned to the largest and added with 64 fraction bits below its leading bit, the bits below truncated. -/
def alignedSum (xs : List FVal) : FVal :=
  match xs.foldl maxMag (.fin false 0 0) with
  | .fin _ m e =>
    if m = 0 then sumExact xs
    else
      let q := floorLog2 m e - 64
      sumExact (xs.map fun x =>
        match x with
        | .fin n k f => if q ≤ f then .fin n k f else .fin n (k / 2 ^ (q - f).toNat) q
        | v => v)
  | _ => sumExact xs

/-- One wave's contribution and its addition into an accumulator entry (R118): the wave sum scaled by the tensor scales and
rounded once to FP32, then added with one further rounding; with `first`, it replaces the entry. A NaN scale makes it NaN. -/
def accumulate (first : Bool) (sa sb : Nat) (acc : BitVec 32) (wave : FVal) : BitVec 32 :=
  match e8m0 sa, e8m0 sb with
  | some a, some b =>
    let c := toF32 (wave.scale (a + b))
    if first then c else f32Add acc c
  | _, _ => nan32

end Sys2Proof.Machine
end

