-- ==== Sys2Proof/Machine/State.lean ====
section
/-! DEFINITION. The state of the KZ-6400: every register, queue, buffer, counter, mode and pin the spec gives the module, and
the queue of commands. Each field's default is its value right after a cold reset at power-on (R426, R439; DESIGN CHOICE where
the spec gives none, assumptions 1 to 9). -/
namespace Sys2Proof.Machine

/-- Why a step stops with a fault: nothing in the module's specification stops it so, and no command raises one (R1, R36:
every command completes or waits). -/
inductive Fault
  deriving DecidableEq, Repr

/-- Why a command has no meaning. -/
inductive Refusal
  /-- Raised by an arm of `exec` that has no meaning yet. Safe: no claim reaches it. -/
  | notModelled (mnemonic : String)
  deriving DecidableEq, Repr

/-- The machine. -/
structure State where
  /-- The commands that wait, first in, first out. -/
  pending : List Instr := []
  /-- The register file, by BAR0/BAR4 number; an unlisted register reads as `regReset` says. -/
  regs : Tab W64 := []
  /-- HBM, by 42-bit address (R260). -/
  hbm : Mem := {}
  /-- MODEL'S OWN: the counter that supplies fresh free values and epochs. -/
  freeCtr : Nat := 0
  /-- MODEL'S OWN: what left the module, oldest first (MSI-X messages, read data, frames, pin pulses). -/
  out : List Out := []
  /-- Time since STAGE last changed, ns (STAGE_MS of Table 18.4). -/
  stageNs : Nat := 0
  /-- Whether GLB_TIME runs (R426: it starts at the end of HOUSEKEEPING). -/
  timeOn : Bool := false
  /-- PWR_OK on J5 (R427). -/
  pwrOk : Bool := false
  /-- THERMTRIP_N asserted (R408, R463). -/
  thermtrip : Bool := false
  /-- The GaN stage is off (R401). -/
  ganOff : Bool := false
  /-- The input has crossed Undervoltage or Overvoltage and has not recovered since (R401, R403). -/
  inputOut : Bool := false
  /-- GLB_TIME at the start of the reset under way (DUR_MS of Table 18.6). -/
  startReset : Nat := 0
  /-- Time since the reset under way began, ns. -/
  resetNs : Nat := 0
  /-- MSI-X enabled on port A. -/
  hostMsixA : Bool := false
  /-- MSI-X enabled on port B. -/
  hostMsixB : Bool := false
  /-- GLB_TIME of the last acquire of each held semaphore (R395). -/
  semSince : Tab Nat := []
  /-- The Masthead that holds the primary latch (R410). -/
  latch : Option (Fin 2) := some 0
  /-- The Masthead that last held the latch (R439). -/
  lastLatch : Fin 2 := 0
  /-- Time since the latch was refreshed, ns (R410). -/
  latchNs : Nat := 0
  /-- Time since the standby heard a heartbeat, ns (R411). -/
  beatNs : Nat := 0
  /-- The standby's claim was refused and it retries (R413). -/
  shroudLost : Bool := false
  /-- The bank marked active in Masthead A's flash (R428). -/
  bankA : Bool := false
  /-- The bank marked active in Masthead B's flash. -/
  bankB : Bool := false
  /-- Firmware versions by 2 × Masthead + bank, where an update has changed them; else `Config.fwVersion`. -/
  fwVer : Tab (BitVec 32) := []
  /-- The retired list in Masthead A's flash (R26). -/
  retiredA : List Nat := []
  /-- The retired list in Masthead B's flash. -/
  retiredB : List Nat := []
  /-- A power-loss record stands in both flash devices (R402). -/
  powerLoss : Bool := false
  /-- The maintenance operations running (R417). -/
  maintRun : List MaintOp := []
  /-- The arbiter's queue, oldest first (R419). -/
  maintQueue : List MaintOp := []
  /-- MA_REQ requests written while no Masthead was primary, oldest first (R414). -/
  maintWait : List MaintOp := []
  /-- Input energy not yet counted in PWR_ENERGY, in nJ (below 1 J). -/
  energyRem : Nat := 0
  /-- How long LIM has stayed NONE or RATE since the last report (R405). -/
  limQuietNs : Nat := 0
  /-- POWER_CAP_ACTIVE has been reported and LIM has not yet been quiet for 1 s (R405). -/
  limReported : Bool := false
  /-- Dies whose junction tripped and that have not been seen below 90 °C (R408): 0..63 logical Yards, 64..71 Stay dies, 72 and 73 Mastheads. -/
  hotYards : List Nat := []
  /-- The pages at which port B goes first in the next tie (R396): it lost the last one there. -/
  tieB : List Nat := []
  /-- The configuration-space settings of Table 16.1 of port A and of port B. -/
  hostCfgA : HostCfg := {}
  hostCfgB : HostCfg := {}
  /-- Dies, numbered likewise, whose junction was last read at 90 °C or above (R408). -/
  warmDies : List Nat := []
  /-- Consecutive edges with |e| ≤ 50 (R432). -/
  tsyncGood : Nat := 0
  /-- Time since the last TSYNC_IN edge (R432). -/
  tsyncNs : Nat := 0
  /-- The correction still to be slewed into GLB_TIME (R432). -/
  slewLeft : Int := 0
  /-- The SMBus register target's offset (R464). -/
  smbOffset : Nat := 0
  /-- The test access port's instruction (R465). -/
  jtagIr : JtagOp := .bypass
  /-- OSFP cages switched off (R460). -/
  cagesOff : List Nat := []
  /-- Memory halves whose PHYs relock on the partner (Table 2.5). -/
  relock : List Nat := []
  /-- Oscillator pairs both of which count as lost (R45): 0 host, 1 link, 2 memory. -/
  oscOut : List Nat := []
  /-- The switches, by logical Yard. -/
  switches : Tab SwitchState := []
  /-- The halyard receivers, by 4 × Yard + edge. -/
  links : Tab HalLink := []
  /-- Crossing latches of vector and scalar lanes, by (4 × physical Yard + direction) × 16 + lane (R471). -/
  crossTok : Tab Token := []
  /-- Crossing latches of the halyard rails, by (4 × physical Yard + direction) × 2 + rail (R471). -/
  crossRail : Tab (BitVec 96) := []
  /-- The firing units, by 64 × Yard + UNIT. -/
  units : Tab UnitState := []
  /-- GLB_TIME of the last progress in each partition (R78). -/
  moved : Tab Nat := []
  /-- Epoch of every on-wafer memory that no later Yard reset left undefined. -/
  sramEpoch : Nat := 0
  /-- MU operand buffers, by 64 × Yard + UNIT. -/
  opBuf : Tab Mem := []
  /-- MU accumulator memories. -/
  accMem : Tab Mem := []
  /-- VU tile registers. -/
  tileRegs : Tab Mem := []
  /-- Yard stores, by Yard. -/
  yardStore : Tab Mem := []
  /-- Yard core local memories, by Yard. -/
  ycMem : Tab Mem := []
  /-- Sections in flight, in issue order (R96). -/
  sections : List Section := []
  /-- MODEL'S OWN: the next section instance number. -/
  nextUid : Nat := 1
  /-- Start records given to each partition's tracker and not yet taken. -/
  issueQ : Tab (List StartRec) := []
  /-- Start records that wait for a free section place, a roll, a flip or a permute hold, by partition (R96). -/
  waiting : Tab (List StartRec) := []
  /-- Loaded images. -/
  images : List Image := []
  /-- The partition that holds the crossings of each non-enabled Yard, by physical Yard (R53). -/
  crossOwner : Tab Nat := []
  /-- Loads that wait for their commit (R111). -/
  loads : List PendingLoad := []
  /-- Bit d = 1: Stay die d failed self-test and is absent (R22). -/
  stayAbsent : Nat := 0
  /-- Both Mastheads are lost (R415). -/
  bothLost : Bool := false
  /-- The Yard cores, by logical Yard. -/
  cores : Tab YcCore := []
  /-- Work counter words, by 4 × counter + word (Table 7.7). -/
  wc : Tab W64 := []
  /-- The lease table, by entry. -/
  leases : Tab Lease := []
  /-- Requests at the counter block, oldest first (R182). -/
  wcQ : List WcReq := []
  /-- Stream-cache slices, by stack. -/
  slices : Tab SliceState := []
  /-- Channel controllers, by global channel. -/
  chans : Tab ChanState := []
  /-- The memory requests of requesters other than firing units, by `askKey`: the number of the asking, and how many have no answer yet. -/
  askers : Tab (Nat × Nat) := []
  /-- BAR2 reads under way, by `askKey`. -/
  barReads : Tab BarRead := []
  /-- Corrected errors of each row since its last repair, by channel × 2^22 + row (R292). -/
  rowCe : Tab Nat := []
  /-- Rows repaired in the field, as channel × 2^22 + row, in both flash devices (R300). -/
  recRepaired : List Nat := []
  /-- Rows with a PERMANENT fence entry, in both flash devices (R300). -/
  recPermanent : List Nat := []
  /-- Rows with a PENDING fence entry, from which a cold reset rebuilds them (R300). -/
  recPending : List Nat := []
  /-- Channels mapped out, in both flash devices (R300). -/
  recMapped : List Nat := []
  /-- Banks whose spare row a field repair used, as channel × 64 + bank. -/
  spareUsed : List Nat := []
  /-- GLB_TIME up to which each stack's TH_TIME has counted. -/
  thermSince : Tab Nat := []
  /-- Records held by the step sequencer, by job (R193). -/
  stepHeld : Tab (List StartRec) := []
  /-- Records held by the phase logic, by job (R223). -/
  phaseHeld : Tab (List StartRec) := []
  /-- TAG_BASE of each job's last PIPE section (R335). -/
  pipeTag : Tab Nat := []
  /-- GLB_TIME at which each job's last PIPE section ended (R203). -/
  pipeEnd : Tab Nat := []
  /-- The loss-spike detector's sample of each job's last PIPE section, where it was valid (R253). -/
  spikeX : Tab (BitVec 32) := []
  /-- Jobs whose boundary enters HELD (R249). -/
  heldOnClose : List Nat := []
  /-- GLB_TIME at which each job's phase logic left SETTLED. -/
  phaseFrom : Tab Nat := []
  /-- GLB_TIME at which each job entered EXCHANGING. -/
  phaseT0 : Tab Nat := []
  /-- EPOCH of each job (R324). -/
  epochs : Tab Nat := []
  /-- PHASE frames heard from children, by job. -/
  phaseHeard : Tab (List PhaseHeard) := []
  /-- Agreements under way. -/
  agrees : List Agree := []
  /-- Instance of the last agreement that ended, of each job's gate; of the permute under key 16 (R336). -/
  agreeDone : Tab Nat := []
  /-- GLB_TIME at which each job's YIELD was written. -/
  yieldAt : Tab Nat := []
  /-- Yields that have been reported (R366): job j with cause 1, 16 + j with cause 2. -/
  yieldWarned : List Nat := []
  /-- Regulator buckets, by (8 × kind + partition) × 32 + index; kind 0 HBM, 1 stream cache, 2 link. -/
  buckets : Tab Bucket := []
  /-- The PT_REG setting in force, taken at the last refill, by 8 × kind + partition (R359, Table 15.6). -/
  regLive : Tab W64 := []
  /-- GLB_TIME at which a bucket of each kind last held a request, plus 1, by 8 × kind + partition (R360). -/
  regHeldAt : Tab Nat := []
  /-- Fetched entries that have not completed, by job. -/
  rings : Tab (List RingEntry) := []
  /-- Stay ports. -/
  ports : Tab PortState := []
  /-- Tokens in the crossing FIFOs of the Stay dies (Table 2.4), by 32 × die + 16 × side + lane. -/
  bridgeTok : Tab (List Token) := []
  /-- TOKEN frames being packed, by 256 × die + channel (R314). -/
  packs : Tab Pack := []
  /-- The port and the job of the burst under way on an outbound channel, by 256 × die + channel (R308, R314). -/
  burstPort : Tab (Nat × Nat) := []
  /-- Tokens delivered and not yet injected, oldest first (R315). -/
  inject : List InjTok := []
  /-- Frames held under credit, with their port (R323, R336). -/
  heldFrames : List (Nat × Frame) := []
  /-- Collective engines. -/
  engines : Tab EngineState := []
  /-- Norms of the NORMS buckets completed in RED sections under way (R345). -/
  norms : List NormRec := []
  /-- The permute that runs. -/
  permute : Option PermRun := none
  deriving DecidableEq, Repr

/-- The machine right after a cold reset at power-on: stage 1, every register at its reset value, memory with nothing listed,
no command waiting. -/
def State.reset : State := {}

end Sys2Proof.Machine
end

