-- ==== Sys2Proof/Machine/Ops.lean ====
section
/-! DEFINITION. The named operations over registers and memories that every family uses: reading and writing register fields,
counters (R443), events and MSI-X (R391, R392), recording faults (R389, R450), the clock, free values. -/
namespace Sys2Proof.Machine

/-- The outcome of every command of the model. -/
abbrev Result := Host.Outcome State Fault Refusal

/-! ### Registers -/

/-- The stored value of register `a`. -/
def State.reg (s : State) (a : Nat) : Nat := (Tab.get (regReset a) s.regs a).toNat

/-- Register `a` set to `v`. -/
def State.setReg (s : State) (a v : Nat) : State := { s with regs := Tab.set (regReset a) s.regs a (toW v) }

/-- Bits [hi:lo] of register `a`. -/
def State.fld (s : State) (a hi lo : Nat) : Nat := bits (s.reg a) hi lo

/-- Bit `i` of register `a`. -/
def State.flag (s : State) (a i : Nat) : Bool := bit (s.reg a) i

/-- Register `a` with bits [hi:lo] set to `v`. -/
def State.setFld (s : State) (a hi lo v : Nat) : State := s.setReg a (setBits (s.reg a) hi lo v)

/-- Register `a` with bit `i` set to `b`. -/
def State.setFlag (s : State) (a i : Nat) (b : Bool) : State := s.setFld a i i (b2n b)

/-- Every register from `lo` up to `hi` back at its reset value. -/
def State.resetRegs (s : State) (lo hi : Nat) : State := { s with regs := Tab.clearRange lo hi s.regs }

/-- The next fresh number of the free-value counter. -/
def State.fresh (s : State) : Nat × State := (s.freeCtr + 1, { s with freeCtr := s.freeCtr + 1 })

/-- Something leaves the module. -/
def State.emit (s : State) (o : Out) : State := { s with out := s.out ++ [o] }

/-- GLB_TIME. -/
def State.now (s : State) : Nat := s.reg (pgGlobal + 0x108)

/-- READY of BR_STATUS (R431). -/
def State.isReady (s : State) : Bool := s.flag (pgBare + 0x100) 63

/-- STAGE of BR_STATUS (Table 18.4). -/
def State.stage (s : State) : Nat := s.fld (pgBare + 0x100) 60 57

/-! ### The Yard map (R23..R29) -/

/-- The physical Yard behind logical Yard `y`, none when it is vacant (Table 1.5). -/
def State.physOf (s : State) (y : Nat) : Option Nat :=
  if s.flag (pgGlobal + 0x400 + 8 * y) 31 then some (s.fld (pgGlobal + 0x400 + 8 * y) 6 0) else none

/-- The logical Yard that physical Yard `p` backs (Table 1.6); before the map is built there is none. -/
def State.logicalOf (s : State) (p : Nat) : Option Nat :=
  let l := s.fld (pgGlobal + 0x600 + 8 * p) 31 24
  if l < 64 ∧ s.physOf l = some p then some l else none

/-- Whether logical Yard `y` has units (R24). -/
def State.enabled (s : State) (y : Nat) : Bool := (s.physOf y).isSome

/-! ### Events and MSI-X (R391..R393) -/

/-- IRQ of a page (Table 16.9). -/
def State.irq (s : State) (pg : Nat) : Bool := !(maskAnd (s.reg (pg + 0x28)) (s.reg (pg + 0x20)) == 0)

/-- HP_LINK UP of a port. -/
def State.linkUp (s : State) (b : Bool) : Bool := s.flag (pgHost b + 0x100) 63

/-- One MSI-X message to one port (R392): not sent and not kept on a port that is down or has MSI-X disabled; to a masked
vector it sets the pending bit. -/
def State.msixTo (s : State) (p : HostPort) (v : Nat) : State :=
  let b := p.isB
  if s.linkUp b && (if b then s.hostMsixB else s.hostMsixA) then
    if s.flag (pgMsix b + 16 * v + 8) 32 then s.setFlag (pgMsix b + 0x1000 + v / 64 * 8) (v % 64) true
    else s.emit (.msix p v)
  else s

/-- The message of a page's interrupt, on each port PG_CTRL selects (R392). -/
def State.sendIrq (s : State) (pg : Nat) : State :=
  let c := s.reg (pg + 0x08)
  let s1 := if bit c 16 then s.msixTo .a (bits c 7 0) else s
  if bit c 17 then s1.msixTo .b (bits c 7 0) else s1

/-- Event `i` of page `pg` occurs (R391), sending the message when the interrupt condition becomes 1 (R392). -/
def State.event (s : State) (pg i : Nat) : State :=
  let was := s.irq pg
  let s1 := s.setFlag (pg + 0x18) i true
  let s2 := if s1.flag (pg + 0x20) i then s1.setFlag (pg + 0x28) i true else s1
  if s2.irq pg && !was then s2.sendIrq pg else s2

/-- A write of the page's EVT_PEND, EVT_ENABLE or PG_CTRL that leaves the condition at 1 sends the message; so does one that
raises it (R392). -/
def State.irqAfterWrite (s : State) (pg : Nat) : State := if s.irq pg then s.sendIrq pg else s

/-! ### Counters (R443) -/

/-- A SAT/COUNT counter incremented by `n`: it stops at its maximum and raises its page's CNT_SAT event at that moment. -/
def State.bump (s : State) (a n : Nat) : State :=
  let v := s.reg a
  if n = 0 ∨ bit v 63 then s
  else
    let c := bits v 47 0 + n
    if c < 2 ^ 48 - 1 then s.setReg a c
    else
      let s1 := s.setReg a (2 ^ 63 + (2 ^ 48 - 1))
      match cntSatBit (pageType (a / 0x1000)) with
      | some b => s1.event (pageBase a) b
      | none => s1

/-- A counter of nanoseconds waited takes a free number more (DEDUCED, assumption 150): the spec gives a wait no length. One that has reached
its maximum stays there. -/
def State.waitNs (s : State) (a : Nat) : State :=
  if bit (s.reg a) 63 then s
  else
    let r := s.fresh
    r.2.bump a (Config.freeWord r.1).toNat

/-- COUNT of a counter. -/
def State.count (s : State) (a : Nat) : Nat := s.fld a 47 0

/-- A field that stops at its largest value, incremented by `n` (R444). -/
def State.bumpFld (s : State) (a hi lo n : Nat) : State :=
  s.setFld a hi lo (stopAt (2 ^ (hi + 1 - lo) - 1) (s.fld a hi lo + n))

/-! ### Faults (R389, R450..R453) -/

/-- The next entry of the fault log (R450, R451). -/
def State.logFault (s : State) (pg code info sev : Nat) (first : Bool) : State :=
  let seq := s.fld (pgMon + 0x108) 31 0
  let a := logAddr (seq % 256)
  let n := pg / 0x1000
  let s1 := s.setReg a s.now
  let s2 := s1.setReg (a + 8) (fieldAt 48 code + fieldAt 40 (pageType n) + fieldAt 24 (pageInstance n) + fieldAt 21 sev + fieldAt 20 (b2n first))
  let s3 := s2.setReg (a + 16) info
  let s4 := s3.setReg (a + 24) (2 ^ 63 + seq)
  s4.setFld (pgMon + 0x108) 31 0 (seq + 1)

/-- The logical Yard whose hardware a fault points to (R455): CTRL_TOKEN_CRC with CAUSE 1, 2, 3, 6 or 9, and YC_FAULT with
exception cause 8. -/
def hitYard (pg code info : Nat) : Option Nat :=
  if pg < 0x100_0000 then none
  else if (code = 0x0403 ∧ [1, 2, 3, 6, 9].contains (bits info 51 48)) ∨ (code = 0x0404 ∧ bits info 63 60 = 8) then
    some ((pg - 0x100_0000) / 0x4_0000)
  else none

/-- One hit of logical Yard `y`; HITS is raised when it reaches TH (R455, Table 19.9). -/
def State.yardHit (s : State) (y : Nat) : State :=
  let s1 := s.bumpFld (pgMon + 0x400 + 8 * y) 15 0 1
  if s1.fld (pgMon + 0x400 + 8 * y) 15 0 = s.fld (pgMon + 0x180) 15 0 then s1.event pgMon 2 else s1

/-- A page records a fault (R389): in ERR_CODE and ERR_INFO while CODE is 0, else in MORE; the severity's counter and the log
follow (R450), and a DEVICE fault asserts FAULT_N (R416). -/
def State.fault (s : State) (pg code info : Nat) : State :=
  let first := s.fld (pg + 0x38) 15 0 == 0
  let s1 :=
    if first then (s.setReg (pg + 0x38) code).setReg (pg + 0x40) info
    else s.bumpFld (pg + 0x38) 31 16 1
  let sev := (faultSev code).code
  let s2 := s1.bump (pgMon + 0x110 + 8 * sev) 1
  let s3 := if bit (s2.reg (pgMon + 0x100)) sev then s2.logFault pg code info sev first else s2
  let s4 := match hitYard pg code info with
    | some y => s3.yardHit y
    | none => s3
  if sev = 4 then s4.setFlag (pgBare + 0x100) 62 true else s4

/-- A fault and the event its page raises for it. -/
def State.faultEv (s : State) (pg code info ev : Nat) : State := (s.fault pg code info).event pg ev

/-! ### The clock (R397, R426, R432) -/

/-- The kinds and partitions, as 8 × kind + partition, of which some regulator bucket holds a request. -/
def State.regsHolding (s : State) : List Nat := ((s.buckets.filter fun e => decide (e.1 < 768) && !e.2.held.isEmpty).map fun e => e.1 / 32).eraseDups

/-- PT_REG_WAIT of every kind that holds a request while `dt` nanoseconds pass (R360). -/
def State.regWaits (s : State) (dt : Nat) : State :=
  s.regsHolding.foldl (fun (t : State) k => t.bump (pgPart (k % 8) + 0x158 + 8 * (k / 8)) dt) s

/-- Every kind that holds a request does so until now. -/
def State.regHeldNow (s : State) : State :=
  { s with regHeldAt := s.regsHolding.foldl (fun t k => Tab.put t k (s.now + 1)) s.regHeldAt }

/-- PWR_LIMIT_NS, or the time for which LIM of PWR_LOOP has stayed at NONE or RATE (R405). -/
def State.limitTime (s : State) (dt : Nat) : State :=
  let lim := s.fld (pgPower 0 + 0x110) 47 45
  if 1 ≤ lim ∧ lim ≤ 3 then s.bump (pgPower 0 + 0x120) dt else { s with limQuietNs := s.limQuietNs + dt }

/-- The ages and the clock after `dt` nanoseconds. -/
def State.clocks (s : State) (dt : Nat) : State :=
  let s1 := { s with stageNs := s.stageNs + dt, resetNs := s.resetNs + dt, tsyncNs := s.tsyncNs + dt,
                     latchNs := s.latchNs + dt, beatNs := s.beatNs + dt }
  if s.timeOn then
    let lim : Int := (dt * 200 / 1000000 : Nat)
    let corr := clampInt (-lim) lim s.slewLeft
    { (s1.setReg (pgGlobal + 0x108) (((s.now : Int) + dt + corr).toNat % 2 ^ 64)) with slewLeft := s.slewLeft - corr }
  else s1

/-- `dt` nanoseconds pass: the ages of the stage and the reset grow, and GLB_TIME advances where it runs, with what is left of a slew (at most
200 ns per ms, never backward); regulators that hold requests and the cap loop's limit count the time (R360, R405). -/
def State.tick (s : State) (dt : Nat) : State := (((s.regWaits dt).limitTime dt).clocks dt).regHeldNow

/-- The primary Masthead: the one that holds the latch, which expires 1,000 µs after its last refresh (R410). -/
def State.primary (s : State) : Option (Fin 2) := if s.latchNs < 1000000 then s.latch else none

/-- STAGE changes (Table 18.4, Table 18.8): its age starts again and the Bare page event STAGE is raised. -/
def State.setStage (s : State) (n : Nat) : State :=
  if s.stage = n then s
  else (({ s with stageNs := 0 }.setFld (pgBare + 0x100) 60 57 n)).event pgBare 1

/-! ### Memories -/

/-- The memory of unit or Yard `k` in a table of memories: one not listed was left undefined by reset `epoch`. -/
def memOf (t : Tab Mem) (epoch k : Nat) : Mem := Tab.get (Mem.undefinedBy epoch) t k

/-- The table with memory `k` replaced. -/
def setMem (t : Tab Mem) (epoch k : Nat) (m : Mem) : Tab Mem := Tab.set (Mem.undefinedBy epoch) t k m

/-- The state of unit `u` of Yard `y`. -/
def State.unit (s : State) (y u : Nat) : UnitState := Tab.get {} s.units (64 * y + u)

/-- The state with unit `u` of Yard `y` replaced. -/
def State.setUnit (s : State) (y u : Nat) (x : UnitState) : State := { s with units := Tab.set {} s.units (64 * y + u) x }

/-- The switch of Yard `y`. -/
def State.switch (s : State) (y : Nat) : SwitchState := Tab.get {} s.switches y

/-- The state with the switch of Yard `y` replaced. -/
def State.setSwitch (s : State) (y : Nat) (x : SwitchState) : State := { s with switches := Tab.set {} s.switches y x }

/-- Every SRAM of the wafer is left undefined (R429). -/
def State.scrambleSram (s : State) : State :=
  let (e, s1) := s.fresh
  { s1 with sramEpoch := e, opBuf := [], accMem := [], tileRegs := [], yardStore := [], ycMem := [] }

/-- The memories of Yard `y` are left undefined (R435, R137, R141, R190). -/
def State.scrambleYard (s : State) (y : Nat) : State :=
  let (e, s1) := s.fresh
  let m := Mem.undefinedBy e
  let ks := (List.range 38).map (64 * y + ·)
  let all := fun (t : Tab Mem) (ks : List Nat) => ks.foldl (fun t k => setMem t s.sramEpoch k m) t
  { s1 with opBuf := all s.opBuf (ks.take 16), accMem := all s.accMem (ks.take 16),
            tileRegs := all s.tileRegs ((ks.drop 16).take 4), yardStore := all s.yardStore [y], ycMem := all s.ycMem [y] }

/-! ### Ownership of resources (Table 15.1) -/

/-- EN of PT_CFG. -/
def State.partOn (s : State) (p : Nat) : Bool := s.flag (pgPart p + 0x100) 63

/-- The partition that owns logical Yard `y`. -/
def State.partOfYard (s : State) (y : Nat) : Option Nat :=
  firstBelow 8 fun p => s.partOn p && s.flag (pgPart p + 0x108) y

/-- The partition a job runs in (PT_JOB_CFG EN). -/
def State.partOfJob (s : State) (j : Nat) : Option Nat :=
  firstBelow 8 fun p => s.partOn p && s.flag (pgPart p + 0x200 + 16 * j) 63

/-- The Yards of a partition. -/
def State.yardsOf (s : State) (p : Nat) : List Nat := bitList 64 (s.reg (pgPart p + 0x108))

/-- Progress in a partition, for its stall monitor (R78). -/
def State.progress (s : State) (p : Nat) : State := { s with moved := Tab.put s.moved p s.now }

/-- Progress in the partition of Yard `y`. -/
def State.progressY (s : State) (y : Nat) : State :=
  match s.partOfYard y with
  | some p => s.progress p
  | none => s

end Sys2Proof.Machine
end

