-- ==== Sys2Proof/Machine/Operands.lean ====
section
/-! DEFINITION. How a host access reaches a register (R384..R390): which accesses are taken and which are dropped, the page
lock, partial and masked writes, and what each register stores of a write. -/
namespace Sys2Proof.Machine

/-- The address of the host port page of the port that accesses. -/
def pgOf (acc : Acc) : Nat := pgHost acc.port.isB

/-- A dropped access counted in HP_DROPPED of its port (R384). -/
def State.dropped (s : State) (acc : Acc) : State := s.bump (pgOf acc + 0x138) 1

/-- A dropped access that also raises BAD_ACCESS (R384). -/
def State.badAccess (s : State) (acc : Acc) : State := (s.dropped acc).event (pgOf acc) 3

/-- A naturally aligned access of 4 or 8 bytes (R384). -/
def accOk (acc : Acc) : Bool := (acc.size == 8 && acc.sub == 0) || (acc.size == 4 && (acc.sub == 0 || acc.sub == 4))

/-- The bits of the register that an access reaches. -/
def accMask (acc : Acc) : Nat :=
  if acc.size = 8 then 2 ^ 64 - 1 else if acc.sub = 0 then 2 ^ 32 - 1 else (2 ^ 32 - 1) * 2 ^ 32

/-- The pages that take writes before READY: Global, Mastheads, Bare, host ports (R386); the MSI-X table belongs to the port's
function, not to a page. -/
def earlyPage (a : Nat) : Bool := decide (a < 0x6000) || windowKind a == 7

/-- The pages that keep serving writes when both Mastheads are lost: Bare, Global, host ports (R415); the MSI-X table belongs to the
port's function. -/
def servedLost (a : Nat) : Bool := (inPage a && [0, 3, 4, 5].contains (a / 0x1000)) || windowKind a == 7

/-- Whether the block behind register `a` is absent (R386): a vacant logical Yard, an absent Stay die or its engine, a stack
that failed training. -/
def State.absent (s : State) (a : Nat) : Bool :=
  if 0x100_0000 ≤ a ∧ a < 0x200_0000 then !(s.enabled ((a - 0x100_0000) / 0x4_0000))
  else if 0x10_0000 ≤ a ∧ a < 0x12_0000 then bit s.stayAbsent ((a - 0x10_0000) / 0x4000)
  else if 0x12_0000 ≤ a ∧ a < 0x12_8000 then bit s.stayAbsent ((a - 0x12_0000) / 0x1000)
  else if 0x20_0000 ≤ a ∧ a < 0x28_0000 then !(s.flag (pgPhy ((a - 0x20_0000) / 0x4000) + 0x100) 63)
  else false

/-- PAGE_LOCKED for a write the page's owner shuts out (R390, Table 16.15). -/
def State.pageLocked (s : State) (acc : Acc) (a : Nat) : State :=
  ((s.dropped acc).fault (pgOf acc) 0x0B02
      (fieldAt 62 (s.fld (pageBase a + 0x48) 1 0) + fieldAt 61 (if 0x200_0000 ≤ a then 1 else 0) + (a + acc.sub) % 2 ^ 25)).event
    (pgOf acc) 2

/-- Whether another port owns the page of register `a` (R390). -/
def State.lockedOut (s : State) (acc : Acc) (a : Nat) : Bool :=
  inPage a && decide (s.fld (pageBase a + 0x48) 1 0 = acc.port.other.code)

/-- What becomes of a host write before its register sees it. -/
inductive Gate
  | drop
  | quiet
  | bad
  | locked
  | pass
  deriving DecidableEq, Repr

/-- The order in which a write is looked at (R384, R386, R388, R390; the order among the grounds is DEDUCED, assumption 21):
size and alignment, READY, an absent block, the page lock, a reserved offset, a 4-byte write to a masked register. -/
def State.gate (s : State) (acc : Acc) (a : Nat) : Gate :=
  if !(accOk acc) then .bad
  else if !s.isReady && !(earlyPage a) then .drop
  else if s.bothLost && !(servedLost a) then .drop
  else if s.isReady && s.absent a then .quiet
  else if s.lockedOut acc a then .locked
  else match regRow a with
    | none => .bad
    | some r => if r.kind = .masked ∧ acc.size ≠ 8 then .bad else .pass

/-- Whether a host access to register `a` is handled now: not while both host oscillators are lost (Table 2.5), and in a tie with the other
port only in its turn (R396). -/
def State.served_ (s : State) (acc : Acc) (a : Nat) : Bool :=
  !(s.oscOut.contains 0) && (!acc.tie || s.tieB.contains (a / 0x1000) == acc.port.isB)

/-- The port that an access has gone ahead of goes first in the next tie at that page (R396). -/
def State.tieSettled (s : State) (acc : Acc) (a : Nat) : State :=
  let n := a / 0x1000
  if acc.tie then { s with tieB := if acc.port.isB then s.tieB.filter fun x => !(x == n) else s.tieB ++ [n] } else s

/-- A host access to register `a`, handled by `f` in its turn; one that must wait for the other port's changes nothing yet (assumption
128). -/
def State.inTurn (s : State) (acc : Acc) (a : Nat) (f : State → State) : State :=
  if s.served_ acc a then f (s.tieSettled acc a) else s

/-- A host write to register `a`, taken by `f`. -/
def State.hostWrite (s0 : State) (acc : Acc) (a : Nat) (f : State → State) : State :=
  s0.inTurn acc a fun s => match s.gate acc a with
    | .drop => s.dropped acc
    | .quiet => s
    | .bad => s.badAccess acc
    | .locked => s.pageLocked acc a
    | .pass => f s

/-- A read that completes with Completer Abort (R384). -/
def State.readAbort (s : State) (acc : Acc) : State := ((s.bump (pgOf acc + 0x130) 1).event (pgOf acc) 3).emit (.abort acc.port)

/-- The half of a register that a 4-byte read returns, or the whole (R384). -/
def readHalf (acc : Acc) (v : Nat) : Nat := if acc.size = 8 then v else if acc.sub = 0 then bits v 31 0 else bits v 63 32

/-- `old` with the bits of `m` taken from `new`. -/
def mergeBits (old new m : Nat) : Nat := old - maskAnd old m + maskAnd new m

/-- The bits of [31:0] that a masked write changes: those whose WE is 1 (R388). -/
def maskedBits (w : Nat) : Nat := bits w 63 32

/-- Whether a masked write acts on WO bit `i`: it writes 1 with WE 1 (R388). -/
def acts (w i : Nat) : Bool := bit w i && bit w (32 + i)

/-- The value register `a` stores for the value `v` written ("stored as", Tables 3.15, 4.4, 8.6, 9.6, 10.8, 11.9, 12.9, 13.8, 13.12,
14.5, 14.9, 15.5, 15.6, 15.9, 17.5, 19.8). -/
def clampReg (a old v : Nat) : Nat :=
  let one := fun (hi lo : Nat) (x : Nat) => if bits x hi lo = 0 then setBits x hi lo 1 else x
  let o := a % 0x1000
  match (if a < 0x200_0000 ∧ windowKind a = 0 then pageType (a / 0x1000) else if windowKind a = 6 then 0x100 else 0) with
  | 0x01 =>
    if a = 0x930 then (if bits v 31 16 < 0x0600 then setBits v 31 16 (bits old 31 16) else v)
    else if a = 0x948 then one 15 0 v else v
  | 0x05 =>
    if a = pgPower 0 + 0x100 then
      let v1 := setBits v 47 40 (clampNat 70 105 (bits v 47 40))
      let v2 := setBits v1 39 30 (clampNat 100 650 (bits v1 39 30))
      let v3 := setBits v2 29 21 (clampNat 120 280 (bits v2 29 21))
      setBits v3 20 11 (clampNat 880 950 (bits v3 20 11))
    else v
  | 0x06 =>
    if o = 0x118 then one 15 0 v
    else if o = 0x140 ∨ o = 0x148 ∨ o = 0x150 then one 51 40 v
    else if o = 0x180 then
      let w := bits v 31 0
      setBits v 31 0 (if w = 0 then 0 else clampNat 10 100000 w)
    else if o = 0x188 then setBits v 31 0 (clampNat 1 1000000 (bits v 31 0))
    else if 0x400 ≤ o ∧ o < 0x800 ∧ o % 0x40 = 0x08 then one 63 48 v
    else if 0x800 ≤ o ∧ o < 0xA00 ∧ o % 0x20 = 0x08 then one 31 16 v
    else if 0xA00 ≤ o ∧ o < 0xE00 ∧ o % 0x40 = 0 then
      let v1 := one 63 48 v
      setBits v1 27 24 (clampNat 1 8 (bits v1 27 24))
    else if 0xE00 ≤ o ∧ o % 0x20 = 0 then
      let v1 := setBits v 63 57 (clampNat 1 64 (bits v 63 57))
      setBits v1 56 52 (clampNat 1 16 (bits v1 56 52))
    else v
  | 0x08 => if o = 0x180 then one 15 0 (one 47 32 v) else v
  | 0x09 => if o = 0x100 then one 31 28 (one 63 48 v) else v
  | 0x0E => if o = 0x100 then one 15 0 v else v
  | 0x10 => if o = 0x188 then (if 40 < bits v 5 0 then setBits v 5 0 40 else v) else v
  | 0x100 => if o = 0x010 then (if bits v 3 0 < 4 then setBits v 3 0 4 else v) else v
  | _ => v

/-- Register `a` after a write of `w` to the bits of `m` (R6, R384, R388, R443). -/
def State.storeReg (s : State) (a w m : Nat) : State :=
  match regRow a with
  | none => s
  | some r =>
    let old := s.reg a
    match r.kind with
    | .plain => s.setReg a (clampReg a old (mergeBits old w (maskAnd r.rw m)))
    | .masked => s.setReg a (clampReg a old (mergeBits old w (maskAnd r.rw (maskedBits w))))
    | .w1c => s.setReg a (old - maskAnd old (maskAnd w (maskAnd r.rw m)))
    | .counter => if bit (maskAnd w m) 63 then s.setReg a 0 else s

/-! ### Reading registers -/

/-- Whether register `a` has been listed since its reset. -/
def State.written (s : State) (a : Nat) : Bool := (Tab.find? s.regs a).isSome

end Sys2Proof.Machine
end

