-- ==== Sys2Proof/Machine/Net.lean ====
section
/-! DEFINITION. The networks (R50..R58, R61, R64, R107, R471): where an edge leads, token headers and their checks, input queues,
offers, and the routes of the loaded images. -/
namespace Sys2Proof.Machine

/-! ### Lanes, ports and headers -/

/-- The number of a lane: planes 0..7, scalar 8, halyard 9. -/
def laneCode : Lane → Nat
  | .plane p => p.val | .scalar => 8 | .halyard => 9

/-- The lane numbered `n`. -/
def laneOf (n : Nat) : Lane := if h : n < 8 then .plane ⟨n, h⟩ else if n = 8 then .scalar else .halyard

/-- NET of a lane (R107). -/
def laneNet (n : Nat) : Nat := if n < 8 then 0 else if n = 8 then 1 else 2

/-- The code of a switch port (R107). -/
def portCode : SwPort → Nat
  | .edge e => e.val | .core => 4 | .tracker => 5 | .unit u => 8 + u.val

/-- JOB of a header (Table 3.2). -/
def hJob (h : Nat) : Nat := bits h 3 0
/-- TAG. -/
def hTag (h : Nat) : Nat := bits h 19 4
/-- CHANNEL. -/
def hChan (h : Nat) : Nat := bits h 27 20
/-- KIND: 0 DATA, 1 CTRL, 2 MARK. -/
def hKind (h : Nat) : Nat := bits h 29 28
/-- LAST. -/
def hLast (h : Nat) : Bool := bit h 30

namespace Token
/-- JOB of a token. -/
def job (t : Token) : Nat := hJob t.hdr.toNat
/-- TAG of a token. -/
def tag (t : Token) : Nat := hTag t.hdr.toNat
/-- CHANNEL of a token. -/
def chan (t : Token) : Nat := hChan t.hdr.toNat
/-- KIND of a token. -/
def kind (t : Token) : Nat := hKind t.hdr.toNat
/-- LAST of a token. -/
def last (t : Token) : Bool := hLast t.hdr.toNat
/-- OPCODE of a CTRL token: bits [87:80] of the token (Table 3.3). -/
def opcode (t : Token) : Nat := bits t.payload 55 48
end Token

/-- A header with PAR computed (R54). -/
def mkHdr (job tag chan kind : Nat) (last : Bool) : BitVec 32 :=
  let h := job % 16 + tag % 2 ^ 16 * 16 + chan % 256 * 2 ^ 20 + kind % 4 * 2 ^ 28 + b2n last * 2 ^ 30
  BitVec.ofNat 32 (h + popCount 31 h % 2 * 2 ^ 31)

/-- A DATA token. -/
def dataTok (job tag chan : Nat) (last : Bool) (payload : Nat) : Token := { hdr := mkHdr job tag chan 0 last, payload := payload }
/-- A MARK token with LAST = 1 (R56). -/
def markTok (job tag chan : Nat) : Token := { hdr := mkHdr job tag chan 2 true, payload := 0 }
/-- A CTRL token with LAST = 1: OPCODE and the 48-bit OPERAND [79:32] (Table 3.3). -/
def ctrlTok (job tag chan opc operand : Nat) : Token :=
  { hdr := mkHdr job tag chan 1 true, payload := opc % 256 * 2 ^ 48 + operand % 2 ^ 48 }

/-- Whether PAR is good (R54). -/
def parOk (h : BitVec 32) : Bool := popCount 32 h.toNat % 2 == 0

/-- CRC-8 of bits [87:0] (R57): polynomial 0x07, initial value 0xFF, the 11 bytes in little-endian order. -/
def crc8 (v : Nat) : Nat :=
  (List.range 11).foldl (fun c i => iter (crcBitL 8 0x07) 8 (xorN c (v / 256 ^ i % 256))) 0xFF

/-- A CTRL token as the 96 bits of a halyard copy. -/
def toCopy (t : Token) : BitVec 96 :=
  let v := t.hdr.toNat + t.payload % 2 ^ 56 * 2 ^ 32
  BitVec.ofNat 96 (v + crc8 v * 2 ^ 88)

/-- The token of a halyard copy. -/
def ofCopy (c : BitVec 96) : Token := { hdr := BitVec.ofNat 32 c.toNat, payload := bits c.toNat 87 32 }

/-- Whether a copy passes PAR and CRC-8 (R61). -/
def copyOk (c : BitVec 96) : Bool := parOk (BitVec.ofNat 32 c.toNat) && crc8 (bits c.toNat 87 0) == bits c.toNat 95 88

/-- The defined control opcodes (R58). -/
def opcodeDefined (o : Nat) : Bool :=
  o == 1 || o == 2 || decide (0x10 ≤ o ∧ o ≤ 0x15) || o == 0x20 || decide (0x30 ≤ o ∧ o ≤ 0x33)

/-- The header error of a token on network `net`, as CAUSE of Table 3.7 (R51, R62): 4 a KIND that is reserved or of another network,
6 DATA or MARK parity, 5 an undefined opcode. -/
def tokenError (net : Nat) (t : Token) : Option Nat :=
  if t.kind = 3 ∨ (net = 2 ∧ t.kind ≠ 1) ∨ (net ≠ 2 ∧ t.kind = 1) then some 4
  else if net ≠ 2 ∧ !(parOk t.hdr) then some 6
  else if net = 2 ∧ !(opcodeDefined t.opcode) then some 5
  else none

/-- The header error of a token at a port other than 5: STEP_VETO is an undefined opcode there (R201). -/
def destError (net : Nat) (t : Token) : Option Nat := (tokenError net t).or (if net = 2 ∧ t.opcode = 0x20 then some 5 else none)

/-- ERR_INFO of fault classes 0x03 and 0x04 (Table 3.7). -/
def fabricInfo (yard unit cause h : Nat) : Nat :=
  fieldAt 58 yard + fieldAt 52 unit + fieldAt 48 cause + fieldAt 40 (hChan h) + fieldAt 36 (hJob h) + fieldAt 20 (hTag h)

/-! ### Geometry (R15, R18, R471) -/

/-- The opposite edge. -/
def oppEdge (e : Nat) : Nat := (e + 2) % 4

/-- The physical Yard beyond edge `e` (0 north, 1 east, 2 south, 3 west) of physical Yard `p`. -/
def physNext (p e : Nat) : Option Nat :=
  match e with
  | 0 => if p / 9 = 0 then none else some (p - 9)
  | 1 => if p % 9 = 8 then none else some (p + 1)
  | 2 => if p / 9 = 7 then none else some (p + 9)
  | _ => if p % 9 = 0 then none else some (p - 1)

/-- The Stay die and side attached at the wafer edge `e` of physical Yard `p` (Table 1.2). -/
def stayAt (p e : Nat) : Option (Nat × Nat) :=
  let r := p / 9
  let c := p % 9
  match e with
  | 0 => if c = 2 ∨ c = 3 then some (0, c - 2) else if c = 5 ∨ c = 6 then some (1, c - 5) else none
  | 1 => if r = 1 ∨ r = 2 then some (2, r - 1) else if r = 5 ∨ r = 6 then some (3, r - 5) else none
  | 2 => if c = 5 ∨ c = 6 then some (4, c - 5) else if c = 2 ∨ c = 3 then some (5, c - 2) else none
  | _ => if r = 5 ∨ r = 6 then some (6, r - 5) else if r = 1 ∨ r = 2 then some (7, r - 1) else none

/-- The physical Yard and edge of side `side` of Stay die `d` (Table 1.2). -/
def staySite (d side : Nat) : Nat × Nat :=
  match d with
  | 0 => (2 + side, 0) | 1 => (5 + side, 0)
  | 2 => ((1 + side) * 9 + 8, 1) | 3 => ((5 + side) * 9 + 8, 1)
  | 4 => (7 * 9 + 5 + side, 2) | 5 => (7 * 9 + 2 + side, 2)
  | 6 => ((5 + side) * 9, 3) | _ => ((1 + side) * 9, 3)

/-- Whether a stack or Stay die is attached at the wafer edge `e` of physical Yard `p` (Table 1.2). -/
def attached (p e : Nat) : Bool :=
  match e with
  | 0 => decide (p / 9 = 0 ∧ p % 9 ≤ 7)
  | 1 => decide (p % 9 = 8)
  | 2 => decide (p / 9 = 7 ∧ 1 ≤ p % 9)
  | _ => decide (p % 9 = 0)

/-- Where a token goes that leaves physical Yard `p` by edge `e`: into an enabled Yard's switch (logical Yard, edge), into the
crossing of a non-enabled Yard, to a Stay die's bridge, or to an attachment or edge that takes no tokens. -/
inductive Way
  | switch (y : Nat) (e : Nat)
  | crossing (p : Nat)
  | stay (d side : Nat)
  | off
  deriving DecidableEq, Repr

/-- The next place beyond edge `e` of physical Yard `p` (R471). -/
def State.way (s : State) (p e : Nat) : Way :=
  match physNext p e with
  | some q => match s.logicalOf q with
    | some y => .switch y (oppEdge e)
    | none => .crossing q
  | none => match stayAt p e with
    | some (d, k) => .stay d k
    | none => .off

/-- The switch or edge attachment at which the run of non-enabled Yards from edge `e` of `p` ends, with the non-enabled Yards
passed; `n` bounds the run by the grid's nine columns. -/
def State.run (s : State) : (n p e : Nat) → List Nat → Way × List Nat
  | 0, _, _, acc => (.off, acc)
  | n + 1, p, e, acc =>
    match s.way p e with
    | .crossing q => s.run n q e (acc ++ [q])
    | w => (w, acc)

/-! ### Queues and offers -/

/-- The queue of input port `p` and lane `l` of Yard `y`. -/
def State.inQueue (s : State) (y p l : Nat) : List Token := Tab.get [] (s.switch y).inQ (16 * p + l)

/-- That queue replaced. -/
def State.setInQueue (s : State) (y p l : Nat) (q : List Token) : State :=
  let w := s.switch y
  s.setSwitch y { w with inQ := Tab.set [] w.inQ (16 * p + l) q }

/-- A token offered to port `p` (core, tracker, unit) on lane `l`. -/
def State.offer (s : State) (y p l : Nat) : Option Token := Tab.find? (s.switch y).offers (16 * p + l)

/-- The offer taken away. -/
def State.takeOffer (s : State) (y p l : Nat) : State :=
  let w := s.switch y
  s.setSwitch y { w with offers := Tab.del w.offers (16 * p + l) }

/-- An offer made. -/
def State.setOffer (s : State) (y p l : Nat) (t : Token) : State :=
  let w := s.switch y
  s.setSwitch y { w with offers := Tab.put w.offers (16 * p + l) t }

/-- The halyard receiver of edge `e` of Yard `y`. -/
def State.link (s : State) (y e : Nat) : HalLink := Tab.get {} s.links (4 * y + e)

/-- That receiver replaced. -/
def State.setLink (s : State) (y e : Nat) (l : HalLink) : State := { s with links := Tab.set {} s.links (4 * y + e) l }

/-- Bit of SW_RAIL for a rail of an edge. -/
def railBit (e : Nat) (r : Rail) : Nat := match r with | .a => e | .b => 4 + e

/-- The other rail. -/
def otherRail : Rail → Rail
  | .a => .b | .b => .a

/-- Whether a receiver has a rail out of service: declared down (R63), or disabled for test (Table 3.8). -/
def State.railOut (s : State) (y e : Nat) (r : Rail) : Bool :=
  s.flag (pgSwitch y + 0x108) (railBit e r) || s.flag (pgSwitch y + 0x100) (match r with | .a => 0 | .b => 1)

/-- Whether nothing is sent on a rail toward a receiver: it is out of service and the other rail takes the tokens; with both out, rail
A carries them, to fail there (Table 3.8; DESIGN CHOICE, assumption 35). -/
def State.railIdle (s : State) (y e : Nat) (r : Rail) : Bool :=
  s.railOut y e r && !(r = .a && s.railOut y e .b)

/-- The copies on one rail's wire. -/
def HalLink.wire (l : HalLink) (r : Rail) : List (BitVec 96) := match r with | .a => l.wireA | .b => l.wireB

/-- A rail's wire replaced. -/
def HalLink.setWire (l : HalLink) (r : Rail) (w : List (BitVec 96)) : HalLink :=
  match r with
  | .a => { l with wireA := w }
  | .b => { l with wireB := w }

/-- How many tokens the queue of a rail at edge `e` of Yard `y` holds (R64): copies not yet taken, and taken ones whose token has not left.
A token passed on from the rail ahead stands in the queue of the rail behind while its second copy does. -/
def State.railHeld (s : State) (y e : Nat) (r : Rail) : Nat :=
  let l := s.link y e
  let q := (s.inQueue y e 9).length
  let open_ := (l.firsts.filter (·.passed)).length
  (l.wire r).length + (if r = l.ahead then q + (l.firsts.length - open_) else q - min q open_)

/-- Whether a rail toward edge `e` of Yard `y` can take a copy (R64). -/
def State.wireRoom (s : State) (y e : Nat) (r : Rail) : Bool :=
  s.railIdle y e r || decide (s.railHeld y e r < 16)

/-- Tokens in the crossing FIFO of Stay die `d` (Table 2.4). -/
def State.bridgeHeld (s : State) (d : Nat) : Nat :=
  ((s.bridgeTok.filter fun e => e.1 / 32 == d).map fun e => e.2.length).foldl (· + ·) 0

/-- The rail of a halyard lane at an edge: lane 9 is rail A and lane 10 rail B (R52). -/
def laneRail (l : Nat) : Rail := if l = 10 then .b else .a

/-- The crossing latch of a rail that moves in direction `o` through physical Yard `q`. -/
def crossKey (q o : Nat) (r : Rail) : Nat := (4 * q + o) * 2 + (match r with | .a => 0 | .b => 1)

/-- Whether output `o` of Yard `y` (at physical Yard `p`) can take a token on lane `l` (R36, R43, R64, R471). An edge where nothing takes
tokens of the network never acknowledges (DEDUCED, assumption 22). -/
def State.hasRoom (s : State) (y p o l : Nat) : Bool :=
  if 4 ≤ o then (s.offer y o l).isNone
  else match s.way p o with
    | .switch z e =>
      if 9 ≤ l then s.wireRoom z e (laneRail l)
      else decide ((s.inQueue z e l).length < 16)
    | .crossing q =>
      if 9 ≤ l then (Tab.find? s.crossRail (crossKey q o (laneRail l))).isNone
      else (Tab.find? s.crossTok ((4 * q + o) * 16 + l)).isNone
    | .stay d _ => decide (l < 8) && decide (s.bridgeHeld d < 64)
    | .off => false

/-- A copy put on one rail toward edge `e` of Yard `y`. -/
def State.onWire (s : State) (y e : Nat) (r : Rail) (c : BitVec 96) : State :=
  if s.railIdle y e r then s
  else s.setLink y e ((s.link y e).setWire r ((s.link y e).wire r ++ [c]))

/-- A rail returns to service, its run of bad copies at 0, in step with what the link has still to take: with the other rail working,
that rail's stream beyond the copies that wait for their second; with both out, what waits to fail on rail A (DEDUCED,
assumption 35). -/
def HalLink.gain (l : HalLink) (r : Rail) (otherOut : Bool) : HalLink :=
  match r with
  | .a => if otherOut then { l with badA := 0 } else { l with badA := 0, wireA := l.wireB.drop l.firsts.length }
  | .b => if otherOut then { l with badB := 0, wireB := l.wireA, wireA := [] }
    else { l with badB := 0, wireB := l.wireA.drop l.firsts.length }

/-- A rail goes out of service: the link runs on the other rail alone (R63), and the copies that waited for a second from it wait no
more. With both out, every token still to come fails on rail A (Table 3.8). -/
def HalLink.lose (l : HalLink) (r : Rail) (otherOut : Bool) : HalLink :=
  if otherOut then
    { l with firsts := [], wireA := ((l.firsts.filter fun f => !f.passed).map (·.copy)) ++ (l.wire r).drop l.firsts.length, wireB := [] }
  else if l.ahead = r then l.setWire r []
  else { l.setWire r [] with firsts := [] }

/-- The rails of edge `e` of Yard `y` that are out in `s` and in service in `t`, returned in `t`. -/
def State.gainRails (s t : State) (y e : Nat) : State :=
  let a := s.railOut y e .a
  let b := s.railOut y e .b
  let a' := a && t.railOut y e .a
  let t1 := if a && !a' then t.setLink y e ((t.link y e).gain .a b) else t
  if b && !(t.railOut y e .b) then t1.setLink y e ((t1.link y e).gain .b a') else t1

/-- A token accepted by output `o` of Yard `y` (at physical Yard `p`) on lane `l`, where there is room. -/
def State.putOut (s : State) (y p o l : Nat) (t : Token) : State :=
  if 4 ≤ o then s.setOffer y o l t
  else match s.way p o with
    | .switch z e =>
      if 9 ≤ l then s.onWire z e (laneRail l) (toCopy t)
      else s.setInQueue z e l (s.inQueue z e l ++ [t])
    | .crossing q =>
      if 9 ≤ l then { s with crossRail := Tab.put s.crossRail (crossKey q o (laneRail l)) (toCopy t) }
      else { s with crossTok := Tab.put s.crossTok ((4 * q + o) * 16 + l) t }
    | .stay d k =>
      if 8 ≤ l then s
      else
        let i := 32 * d + 16 * k + l
        { s with bridgeTok := Tab.put s.bridgeTok i (Tab.get [] s.bridgeTok i ++ [t]) }
    | .off => s

/-! ### Routes (R86, R107) -/

/-- The outputs enabled in a route entry with the lane of each: PLANE on the vector network, both rails of an edge on the halyard, else
the lane itself. -/
def Route.lanes (r : Route) (l : Nat) : List (Nat × Nat) :=
  r.outs.flatMap fun o => if r.net = 0 then [(o, r.plane)] else if r.net = 2 ∧ o < 4 then [(o, 9), (o, 10)] else [(o, l)]

/-- The route entry that matches a token (R86). The fixed routes of the reef streamer pass before every entry with IN_PORT 4 of
halyard channel 0xFF (R176). -/
def State.routeFor (s : State) (y inPort net : Nat) (t : Token) : Option Route :=
  if inPort = 4 ∧ net = 2 ∧ t.chan = 0xFF then none
  else ((s.images.filter fun i => i.job == t.job && s.partOfYard y == some i.part).flatMap (·.routes)).find? fun r =>
    r.yard == y && r.net == net && r.inPort == inPort && r.chan == t.chan

/-- A stray (R70, R86). -/
def State.stray (s : State) (y : Nat) : State := (s.bump (pgSwitch y + 0x120) 1).event (pgSwitch y) 2

/-- The tokens a halyard link has still to pass on: each stands once, whether one of its copies or both are there. -/
def HalLink.tokens (l : HalLink) : Nat :=
  (l.firsts.filter fun f => !f.passed).length +
    max (l.wire l.ahead).length ((l.wire (otherRail l.ahead)).length - l.firsts.length)

/-- Tokens held by Yard `y` in queues, tag stores and steering units (Table 3.11), the offers to its units included. A count in progress is no
token. -/
def State.heldTokens (s : State) (y : Nat) : Nat :=
  let w := s.switch y
  let q := (w.inQ.map fun e => e.2.length).foldl (· + ·) 0 + w.offers.length
  let us := (List.range 38).map fun u =>
    let x := s.unit y u
    (x.queues.map fun e => e.2.length).foldl (· + ·) 0 + (x.tags.filter fun e => !e.count).length +
      (if u < 22 then 0 else (if x.heldSelect.isSome then 1 else 0) + x.outbox.length)
  let hs := (List.range 4).map fun e => (s.link y e).tokens
  q + us.foldl (· + ·) 0 + hs.foldl (· + ·) 0

/-! ### Jobs and sections -/

/-- Jobs of a partition (R356). -/
def State.jobsOf (s : State) (p : Nat) : List Nat := (List.range 16).filter fun j => s.flag (pgPart p + 0x200 + 16 * j) 63

/-- Sections of a job in flight. -/
def State.sectionsOf (s : State) (j : Nat) : List Section := s.sections.filter (·.job == j)

/-- Whether no section of a job is in flight. -/
def State.jobIdle (s : State) (j : Nat) : Bool := (s.sectionsOf j).isEmpty

/-- EN of PT_STEP_PLAN of job `j`. -/
def State.planOn (s : State) (p j : Nat) : Bool := s.flag (pgPart p + 0x400 + 0x40 * j) 63

/-- STATE of PT_STEP_STATUS (Table 8.2). -/
def State.seqState (s : State) (p j : Nat) : Nat := s.fld (pgPart p + 0x410 + 0x40 * j) 63 61

/-- The sequencer of job `j` is IDLE or HELD, or the job has no step plan. -/
def State.seqQuiet (s : State) (p j : Nat) : Bool :=
  !(s.planOn p j) || s.seqState p j == 0 || s.seqState p j == 7

/-- STATE of PT_PHASE_STATUS (Table 9.7). -/
def State.phState (s : State) (p j : Nat) : Nat := s.fld (pgPart p + 0x810 + 0x20 * j) 59 58

/-- STATE of PT_JOB_STATUS (Table 15.7). -/
def State.jobState (s : State) (p j : Nat) : Nat := s.fld (pgPart p + 0x208 + 16 * j) 63 62

/-- A partition event marked "per job" (R375). -/
def State.jobEvent (s : State) (p j i : Nat) : State := (s.setFlag (pgPart p + 0x130) j true).event (pgPart p) i

/-- A fault recorded in a partition page, with the event FAULT for the classes that raise it (R375). -/
def State.partFault (s : State) (p code info : Nat) : State :=
  let c := code / 256
  let s1 := s.fault (pgPart p) code info
  if c = 1 ∨ c = 2 ∨ c = 4 ∨ c = 8 ∨ c = 0xB then s1.event (pgPart p) 5 else s1

/-- The partition that an image of job `j` runs in, 0 where there is none. -/
def State.partOf (s : State) (j : Nat) : Nat := (s.partOfJob j).getD 0

end Sys2Proof.Machine
end

