-- ==== Sys2Proof/Machine/LinkOps.lean ====
section
/-! DEFINITION. Sending on the Stay links (R309..R312, R316..R322) and the bandwidth regulators (R358..R360). -/
namespace Sys2Proof.Machine

/-! ### Regulators -/

/-- The bucket of kind `kind` (0 HBM, 1 stream cache, 2 link), partition `p` and index `i`. -/
def State.bucket (s : State) (kind p i : Nat) : Bucket := Tab.get {} s.buckets ((8 * kind + p) * 32 + i)

/-- That bucket replaced. -/
def State.setBucket (s : State) (kind p i : Nat) (b : Bucket) : State :=
  { s with buckets := Tab.set {} s.buckets ((8 * kind + p) * 32 + i) b }

/-- The PT_REG setting in force: a write takes effect at the next refill (Table 15.6). -/
def State.regInForce (s : State) (kind p : Nat) : Nat := (Tab.get (toW (16 * 2 ^ 40 + 0xE * 2 ^ 36)) s.regLive (8 * kind + p)).toNat

/-- Whether some bucket of a kind and partition holds a request. -/
def State.anyHeld (s : State) (kind p : Nat) : Bool :=
  (List.range 32).any fun i => !((s.bucket kind p i).held.isEmpty)

/-- A bucket begins to hold: REGULATOR_THROTTLE after at least 1 ms in which no bucket of the kind held any (R360). -/
def State.beginHold (s : State) (kind p i job : Nat) : State :=
  let k := 8 * kind + p
  let last := Tab.get 0 s.regHeldAt k
  let s1 := { s with regHeldAt := Tab.put s.regHeldAt k (s.now + 1) }
  if s.anyHeld kind p ∨ (last ≠ 0 ∧ s.now + 1 < last + 1000000) then s1
  else (s1.partFault p 0x0803
    (fieldAt 56 job + fieldAt 52 (kind + 1) + fieldAt 32 i + bits (s.regInForce kind p) 63 52)).event (pgPart p) 9

/-- letIn() of R359: whether the request goes on now; else the bucket holds it. -/
def State.letIn (s : State) (kind p i job cls bytes : Nat) (h : Held) : Bool × State :=
  let r := s.regInForce kind p
  if bits r 63 52 = 0 ∨ (kind ≠ 2 ∧ !(bit (bits r 39 36) cls)) then (true, s)
  else
    let b := s.bucket kind p i
    if b.tokens ≤ 0 ∨ !b.held.isEmpty then
      (false, (if b.held.isEmpty then s.beginHold kind p i job else s).setBucket kind p i { b with held := b.held ++ [h] })
    else (true, s.setBucket kind p i { b with tokens := b.tokens - bytes })

/-! ### Ports -/

/-- A Stay port. -/
def State.port (s : State) (q : Nat) : PortState := Tab.get {} s.ports q

/-- A port replaced. -/
def State.setPort (s : State) (q : Nat) (x : PortState) : State := { s with ports := Tab.set {} s.ports q x }

/-- STATE of ST_STATUS (Table 13.2). -/
def State.portState (s : State) (q : Nat) : Nat := s.fld (pgPort q + 0x108) 63 61

/-- Whether a port is UP. -/
def State.portUp (s : State) (q : Nat) : Bool := s.portState q == 3

/-- Whether a port runs in Ethernet mode. -/
def State.ethernet (s : State) (q : Nat) : Bool := s.flag (pgPort q + 0x100) 1

/-- CREDITS of ST_VC. -/
def State.credits (s : State) (q vc : Nat) : Nat := s.fld (pgPort q + 0x180 + 8 * vc) 63 56

/-- This device's ID. -/
def State.devId (s : State) : Nat := s.fld (pgGlobal + 0x930) 14 0

/-- A frame or token dropped at port `q` (R306, R314, R315, R322, R323). -/
def State.stDrop (s : State) (q : Nat) : State := (s.bump (pgPort q + 0x158) 1).event (pgPort q) 4

/-- The key of a (VC, device) pair. -/
def pairKey (vc dev : Nat) : Nat := vc * 32768 + dev

/-! ### Receive slots (R316, R317) -/

/-- Header fields of a frame as received (Table 13.3). -/
def fld13 (f : Frame) (hi lo : Nat) : Nat := bits f.hdr.toNat hi lo
/-- VC of a frame. -/
def fVc (f : Frame) : Nat := fld13 f 10 8

/-- RX_USED: the slots VC `vc` of port `q` holds: the frames held under credit, and those whose tokens have not all been injected. -/
def State.rxUsed (s : State) (q vc : Nat) : Nat :=
  (s.heldFrames.filter fun e => e.1 == q && fVc e.2 == vc).length + (s.inject.filter fun e => e.slot == some (q, vc)).length

/-- Shared slots in use at a port, beyond the four reserved for each VC. -/
def State.sharedHeld (s : State) (q : Nat) : Nat := ((List.range 8).map fun v => s.rxUsed q v - 4).foldl (· + ·) 0

/-- The VCs of the partition that VC `vc` is assigned to, and its LINK_SHARED (Table 15.4). -/
def State.vcShare (s : State) (vc : Nat) : List Nat × Nat :=
  match firstBelow 8 fun p => s.partOn p && s.flag (pgPart p + 0x100) (24 + vc) with
  | some p => ((List.range 8).filter fun v => s.flag (pgPart p + 0x100) (24 + v), s.fld (pgPart p + 0x100) 23 16)
  | none => ([vc], 64)

/-- Slots granted to VC `vc`: the count CR_CUM goes up. -/
def PortState.grant (x : PortState) (vc : Nat) : PortState := { x with granted := Tab.put x.granted vc ((Tab.get 0 x.granted vc + 1) % 256) }

/-- The VC that gets a free shared slot: of those that have had a slot freed since UP and whose partition holds fewer than LINK_SHARED, the one
with the fewest, the lowest among equals (R316, R354; DESIGN CHOICE, assumption 43). -/
def State.sharedNext (s : State) (x : PortState) : Option Nat :=
  let n := fun (v : Nat) => Tab.get 0 x.sharedUsed v
  let sum := fun (vs : List Nat) => (vs.map n).foldl (· + ·) 0
  let may := (List.range 8).filter fun v =>
    (Tab.find? x.granted v).isSome && decide (sum (s.vcShare v).1 < (s.vcShare v).2)
  if 64 ≤ sum (List.range 8) then none
  else may.foldl (fun (best : Option Nat) v => match best with
    | none => some v
    | some b => if n v < n b then some v else some b) none

/-- A free shared slot is granted, where some VC may have it. -/
def State.grantShared (s : State) (x : PortState) : PortState :=
  match s.sharedNext x with
  | none => x
  | some v => { x.grant v with sharedUsed := Tab.set 0 x.sharedUsed v (Tab.get 0 x.sharedUsed v + 1) }

/-- A slot of VC `vc` at port `q` is freed: in direct mode a shared slot returns to the pool, a reserved one is granted again, and then up to
two free shared slots are granted (R316); in Ethernet mode XON follows when 40 shared slots are free (R317). -/
def State.freeSlot (s : State) (q vc : Nat) : State :=
  let x := s.port q
  if s.ethernet q then
    if s.sharedHeld q ≤ 24 ∧ !x.xoff.isEmpty then
      x.xoff.foldl (fun (t : State) v => t.emit (.pfc q v false)) (s.setPort q { x with xoff := [] })
    else s
  else
    let n := Tab.get 0 x.sharedUsed vc
    let x1 := if n = 0 then x.grant vc
      else { x with sharedUsed := Tab.set 0 x.sharedUsed vc (n - 1), granted := Tab.put x.granted vc (Tab.get 0 x.granted vc) }
    s.setPort q (s.grantShared (s.grantShared x1))

/-- A slot of VC `vc` at port `q` has been taken: in Ethernet mode XOFF for its priority when fewer than 24 shared slots are free (R317). -/
def State.tookSlot (s : State) (q vc : Nat) : State :=
  let x := s.port q
  if s.ethernet q ∧ 40 < s.sharedHeld q ∧ !(x.xoff.contains vc) then
    (s.setPort q { x with xoff := x.xoff ++ [vc] }).emit (.pfc q vc true)
  else s

/-- A frame held under credit (R323, R336). -/
def State.holdFrame (s : State) (q : Nat) (f : Frame) : State :=
  ({ s with heldFrames := s.heldFrames ++ [(q, f)] }).tookSlot q (fVc f)

/-- Held frames that satisfy `g` are discarded, and their slots freed. -/
def State.dropHeld (s : State) (g : Frame → Bool) : State :=
  (s.heldFrames.filter fun e => g e.2).foldl (fun (t : State) e => t.freeSlot e.1 (fVc e.2))
    { s with heldFrames := s.heldFrames.filter fun e => !(g e.2) }

/-! ### Frames on the wire (R309, R310) -/

/-- HCRC: CRC-16 of the first 30 bytes of a header (R310). -/
def hcrc (h : Nat) : Nat :=
  (List.range 30).foldl (fun c i => iter (crcBitL 16 0x1021) 8 (xorN c (h / 256 ^ i % 256 * 256))) 0xFFFF

/-- The header of a frame with its sequence number and its credit and acknowledgement fields (Table 13.3). -/
def frameHdr (f : TxFrame) (src seq cr : Nat) (nak : Bool) : BitVec 256 :=
  let h := f.type + 0x10 + fieldAt 8 f.vc + fieldAt 11 f.set + fieldAt 13 f.ph + fieldAt 15 (b2n f.last) +
    fieldAt 16 f.payload.length + fieldAt 32 f.dst + fieldAt 48 src + fieldAt 64 f.job + fieldAt 68 (b2n nak) +
    fieldAt 72 f.group + fieldAt 80 f.tag + fieldAt 96 (seq % 2 ^ 32) + fieldAt 128 (f.target % 2 ^ 64) + fieldAt 192 (cr % 2 ^ 48)
  BitVec.ofNat 256 (h + fieldAt 240 (hcrc h))

/-- The credit and acknowledgement fields for VC `vc` and device `dev` (offset 0x18 of Table 13.3): credits in direct mode only
(R317), and an acknowledgement once something has been received. -/
def State.crAck (s : State) (q vc dev : Nat) (nak : Bool) : Nat :=
  let x := s.port q
  let cr := if s.ethernet q then 0 else fieldAt 47 1 + fieldAt 44 vc + fieldAt 36 (Tab.get 0 x.granted vc % 256)
  let ack := match Tab.find? x.rxSeq (pairKey vc dev) with
    | some exp => fieldAt 35 1 + fieldAt 32 vc + (if nak then exp else exp + (2 ^ 32 - 1)) % 2 ^ 32
    | none => if nak then fieldAt 35 1 + fieldAt 32 vc else 0
  cr + ack

/-- Bytes in network order, the most significant first. -/
def beBytes (n v : Nat) : List Byte := (leBytes n v).reverse

/-- The FCS of IEEE 802.3 (CRC-32, PRESUMED, assumption 162). -/
def crc32 (bs : List Byte) : Nat :=
  xorN (bs.foldl (fun c b => iter (crcBitR 0xEDB8_8320) 8 (xorN c b.toNat)) 0xFFFF_FFFF) 0xFFFF_FFFF

/-- The IEEE 802.3 frame that carries an Abaul frame of port `q` on VC `vc` (R311): addresses, the tag where VLAN_EN is 1, EtherType, the frame,
padding to 64 bytes from `pad` (a free value), FCS. -/
def State.ethBytes (s : State) (q vc : Nat) (f : Frame) (pad : Nat) : List Byte :=
  let g := s.reg (pgGlobal + 0x930)
  let c := s.reg (pgPort q + 0x100)
  let mac := fun (dev : Nat) => beBytes 4 (bits g 63 32) ++ beBytes 2 dev
  let tag := if bit c 35 then beBytes 2 0x8100 ++ beBytes 2 ((7 - vc) * 2 ^ 13 + bits c 47 36) else []
  let body := mac (fld13 f 46 32) ++ mac s.devId ++ tag ++ beBytes 2 (bits g 31 16) ++ leBytes 32 f.hdr.toNat ++ f.payload
  let whole := body ++ leBytes (60 - body.length) pad
  whole ++ leBytes 4 (crc32 whole)

/-- A frame leaves port `q` on VC `vc`, wrapped in Ethernet mode (R311). -/
def State.emitFrame (s : State) (q vc : Nat) (f : Frame) : State :=
  if s.ethernet q then
    let r := s.fresh
    r.2.emit (.ethernet q vc (s.ethBytes q vc f (Config.freeWord r.1).toNat))
  else s.emit (.frame q vc f)

/-- Whether the switch pauses VC `vc` of a port in Ethernet mode (R317). -/
def State.paused (s : State) (q vc : Nat) : Bool := s.ethernet q && s.flag (pgPort q + 0x180 + 8 * vc) 47

/-- A LINK frame to `dev` for VC `vc` (R312, R316); it waits for the next acknowledgement while VC0 is paused. -/
def State.sendLink (s : State) (q vc dev : Nat) (nak : Bool) : State :=
  if !(s.portUp q) || s.paused q 0 then s
  else
    let f : TxFrame := { type := 4, last := false, ph := 0, set := 0, vc := 0, dst := dev, job := 0, group := 0xFF,
                         tag := 0, target := 0, payload := [] }
    let x := s.port q
    ((s.setPort q { x with unacked := Tab.set 0 x.unacked (pairKey vc dev) 0 }).bump (pgPort q + 0x110) 1).emitFrame q 0
      { hdr := frameHdr f s.devId 0 (s.crAck q vc dev nak) nak, payload := [] }

/-- Bytes a frame takes in the replay buffer. -/
def frameBytes (f : TxFrame) : Nat := 32 + f.payload.length

/-- The first frame of VC `vc` that waits to be sent again. -/
def PortState.dueOf (x : PortState) (vc : Nat) : Option Sent := x.replay.find? fun e => e.due && e.frame.vc == vc

/-- Whether VC `vc` of a port may send its next frame: the port UP, a credit in direct mode or no pause in Ethernet mode, and for a new frame
room in the 512 KB replay buffer (R312, R316, R317). -/
def State.maySend (s : State) (q vc : Nat) : Bool :=
  let x := s.port q
  let free := s.portUp q && (if s.ethernet q then !(s.paused q vc) else !(s.credits q vc == 0))
  match x.dueOf vc, Tab.get [] x.queues vc with
  | some _, _ => free
  | none, [] => false
  | none, f :: _ => free && decide ((x.replay.map fun r => frameBytes r.frame).foldl (· + ·) 0 + frameBytes f ≤ 524288)

/-- A sequenced frame put on the wire with sequence number `seq`. -/
def State.putFrame (s : State) (q : Nat) (f : TxFrame) (seq : Nat) : State :=
  let s1 := if s.ethernet q then s else s.setFld (pgPort q + 0x180 + 8 * f.vc) 63 56 (s.credits q f.vc - 1)
  let x := s1.port q
  let s2 := s1.setPort q { x with unacked := Tab.set 0 x.unacked (pairKey f.vc f.dst) 0 }
  (((s2.bump (pgPort q + 0x110) 1).bump (pgPort q + 0x120) f.payload.length)).emitFrame q f.vc
    { hdr := frameHdr f s.devId seq (s.crAck q f.vc f.dst false) false, payload := f.payload }

/-- A frame of the replay buffer sent again with its own number, as its VC allows: it spends a credit as any sending does (R316, DEDUCED,
assumption 44). -/
def State.resend (s : State) (q : Nat) (e : Sent) : State :=
  let x := s.port q
  let x1 := { x with replay := x.replay.map fun (r : Sent) => if r = e then { r with at_ := s.now, sends := r.sends + 1, due := false } else r
                     rr := if e.frame.vc = 0 then x.rr else e.frame.vc }
  ((s.setPort q x1).bump (pgPort q + 0x138) 1).putFrame q e.frame e.seq

/-- The next frame of VC `vc` sent: one that waits to be sent again, else the first of its queue, numbered per port, VC and device, and kept
for replay (R312). -/
def State.sendHead (s : State) (q vc : Nat) : State :=
  let x := s.port q
  match x.dueOf vc, Tab.get [] x.queues vc with
  | some e, _ => s.resend q e
  | none, [] => s
  | none, f :: rest =>
    let k := pairKey vc f.dst
    let seq := Tab.get 0 x.txSeq k
    let x1 := { x with queues := Tab.set [] x.queues vc rest, txSeq := Tab.set 0 x.txSeq k ((seq + 1) % 2 ^ 32),
                       replay := x.replay ++ [{ frame := f, seq := seq, at_ := s.now, sends := 1 }],
                       rr := if vc = 0 then x.rr else vc }
    (s.setPort q x1).putFrame q f seq

/-- The VC a port serves next: VC0 first, then VC1..VC7 by round robin (R318). -/
def State.nextVc (s : State) (q : Nat) : Option Nat :=
  if s.maySend q 0 then some 0
  else ((List.range 7).map fun i => ((s.port q).rr + i) % 7 + 1).find? (s.maySend q)

/-- A port sends what it may, at most `n` frames. -/
def State.pumpPort (s : State) (q : Nat) : (n : Nat) → State
  | 0 => s
  | n + 1 => match s.nextVc q with
    | none => s
    | some vc => (s.sendHead q vc).pumpPort q n

/-- Frames that wait at a port. -/
def State.queued (s : State) (q : Nat) : Nat :=
  ((s.port q).queues.map fun e => e.2.length).foldl (· + ·) 0 + ((s.port q).replay.filter (·.due)).length

/-- A port sends all it may. -/
def State.pump (s : State) (q : Nat) : State := s.pumpPort q (s.queued q)

/-- A frame put into its VC's queue at port `q`, and the port sends what it may. -/
def State.pushFrame (s : State) (q : Nat) (f : TxFrame) : State :=
  let x := s.port q
  (s.setPort q { x with queues := Tab.set [] x.queues f.vc (Tab.get [] x.queues f.vc ++ [f]) }).pump q

/-- A frame enters its VC's queue at port `q`, unless the partition's regulator holds it (R318, R358). -/
def State.enqueue (s : State) (q : Nat) (f : TxFrame) : State :=
  if f.vc = 0 then s.pushFrame q f
  else match s.partOfJob f.job with
    | none => s.pushFrame q f
    | some p =>
      let (yes, s1) := s.letIn 2 p q f.job 0 f.payload.length (.frame q f)
      if yes then s1.pushFrame q f else s1

/-! ### Routes to peers (R320, R322) -/

/-- PHASE of PT_PHASE_STATUS. -/
def State.phaseOf (s : State) (p j : Nat) : Nat := s.fld (pgPart p + 0x810 + 0x20 * j) 63 62

/-- Whether the phase logic of job `j` is on. -/
def State.phaseOn (s : State) (p j : Nat) : Bool := s.flag (pgPart p + 0x808 + 0x20 * j) 63

/-- The active route set of job `j` (Table 13.6); `dir` is DIR of the channel-map entry of a TOKEN or MARK frame. -/
def State.activeSet (s : State) (j : Nat) (dir : Bool) : Nat :=
  let p := s.partOf j
  if s.phaseOn p j && s.phaseOf p j == 2 then 3
  else if s.phaseOn p j && s.phaseOf p j == 3 then 0
  else if 3 ≤ s.seqState p j ∧ s.seqState p j ≤ 6 then 2
  else if dir then 1 else 0

/-- The word of peer slot `i` of group `g`. -/
def State.peer (s : State) (g i : Nat) : Nat := s.reg (pgGroup g + 8 + 8 * i)

/-- VALID of a peer slot. -/
def State.peerValid (s : State) (g i : Nat) : Bool := bit (s.peer g i) 63

/-- DEVICE of a peer slot. -/
def State.peerDev (s : State) (g i : Nat) : Nat := bits (s.peer g i) 62 48

/-- The route of set `set` to a peer: its first port and its width, where VALID. -/
def State.route (s : State) (g i set : Nat) : Option (Nat × Nat) :=
  let b := bits (s.peer g i) (8 * set + 7) (8 * set)
  if bit b 7 then some (bits b 4 0, if bits b 6 5 = 0 then 1 else if bits b 6 5 = 1 then 2 else 4) else none

/-- The set and route of a frame: on VC0 the first valid in the order 0, 1, 2, 3, else the active set's (R322). -/
def State.setFor (s : State) (g i vc j : Nat) (dir : Bool) : Option (Nat × Nat × Nat) :=
  if vc = 0 then (List.range 4).findSome? fun t => (s.route g i t).map fun r => (t, r)
  else (s.route g i (s.activeSet j dir)).map fun r => (s.activeSet j dir, r)

/-- The port of a stripe with the most free credit among those UP; the first where none is (R308, R322). -/
def State.creditPort (s : State) (vc first w : Nat) : Nat :=
  let up := ((List.range w).map (first + ·)).filter s.portUp
  up.foldl (fun best q => if s.credits best vc < s.credits q vc then q else best) (up.headD first)

/-- The port of channel `k` (256 × die + c): the one its burst under way uses; else PORT + (c mod w), or the next UP port of the stripe in
cyclic order (R308, R314). -/
def State.chanPort (s : State) (k first w : Nat) : Nat :=
  let c := k % 256
  let free := (((List.range w).map fun i => first + (c + i) % w).find? s.portUp).getD (first + c % w)
  match Tab.find? s.burstPort k with
  | some (q, _) => if first ≤ q ∧ q < first + w then q else free
  | none => free

/-- Whether a frame belongs to a burst under way at port `q`. -/
def State.inBurst (s : State) (q : Nat) (f : TxFrame) : Bool :=
  match f.chan with
  | some k => (Tab.find? s.burstPort k).any (·.1 == q)
  | none => false

/-- The next UP port, in cyclic order, of the stripe that carries a frame at port `q`: a channel moves at a burst boundary (R308). -/
def State.otherPort (s : State) (q : Nat) (f : TxFrame) : Option Nat :=
  if s.inBurst q f then none
  else match firstBelow 8 fun i => s.peerValid f.group i && s.peerDev f.group i == f.dst with
  | none => none
  | some i => match s.route f.group i f.set with
    | none => none
    | some (first, w) =>
      if first ≤ q ∧ q < first + w then ((List.range (w - 1)).map fun k => first + (q - first + k + 1) % w).find? s.portUp else none

/-- Entries of a replay buffer numbered again, each pair from its first number `nxt` on. -/
def renumber (es : List Sent) (nxt : Tab Nat) : List Sent × Tab Nat :=
  es.foldl (fun (a : List Sent × Tab Nat) r =>
    let k := pairKey r.frame.vc r.frame.dst
    let n := Tab.get 0 a.2 k
    (a.1 ++ [{ r with seq := n }], Tab.put a.2 k ((n + 1) % 2 ^ 32))) ([], nxt)

/-- The frames of a port that is DOWN move, unacknowledged ones first, to the next UP port of their stripe; the others wait (R308). The
numbers of the moved frames are given out again by the port that lost them (DESIGN CHOICE, assumption 37). -/
def State.moveFrames (s : State) (q : Nat) : State :=
  let x := s.port q
  let goes := fun (f : TxFrame) => (s.otherPort q f).isSome
  let sent := x.replay.filter fun r => goes r.frame
  let all := sent.map (·.frame) ++ (x.queues.flatMap (·.2)).filter goes
  let start := x.replay.reverse.foldl (fun t r => Tab.put t (pairKey r.frame.vc r.frame.dst) r.seq) []
  let (kept, nxt) := renumber (x.replay.filter fun r => !(goes r.frame)) start
  let x1 := { x with
    replay := kept
    queues := (x.queues.map fun e => (e.1, e.2.filter fun f => !(goes f))).filter fun e => !e.2.isEmpty
    txSeq := nxt.foldl (fun t e => Tab.set 0 t e.1 e.2) x.txSeq }
  all.foldl (fun (t : State) f => match t.otherPort q f with
    | some k => t.pushFrame k f
    | none => t.pushFrame q f) (s.setPort q x1)

/-- After a frame of channel `k` has entered port `q`: the burst goes on there, or it ends, and at that boundary a port that is DOWN gives its
frames to the stripe (R308). -/
def State.burstAt (s : State) (k q job : Nat) (last : Bool) : State :=
  if last then
    let s1 := { s with burstPort := Tab.del s.burstPort k }
    if s1.portUp q then s1 else s1.moveFrames q
  else { s with burstPort := Tab.put s.burstPort k (q, job) }

/-- A frame sent to peer slot `i` of its group; a TOKEN or MARK frame names its channel, 256 × die + c (R314, R322). -/
def State.sendPeer (s : State) (i : Nat) (f : TxFrame) (chan : Option Nat) (dir : Bool) : State :=
  match s.setFor f.group i f.vc f.job dir with
  | none => s.stDrop (bits (s.peer f.group i) (8 * s.activeSet f.job dir + 4) (8 * s.activeSet f.job dir) % 32)
  | some (set, first, w) =>
    let g := fun (c : Option Nat) =>
      { f with set := set, dst := s.peerDev f.group i, ph := s.phaseOf (s.partOf f.job) f.job, chan := c }
    match chan with
    | some k => (s.enqueue (s.chanPort k first w) (g (some k))).burstAt k (s.chanPort k first w) f.job f.last
    | none => s.enqueue (s.creditPort f.vc first w) (g none)

/-- CHILDREN of a group entry as peer slots, rising. -/
def State.children (s : State) (g : Nat) : List Nat := (bitList 8 (s.fld (pgGroup g) 11 4))

/-- The peer slot of the tree parent, none at the root (Table 13.5) and where there is no group (R320). -/
def State.parent (s : State) (g : Nat) : Option Nat :=
  let x := s.fld (pgGroup g) 15 12
  if x < 8 ∧ g < 255 then some x else none

/-- VC of a group's traffic. -/
def State.groupVc (s : State) (g : Nat) : Nat := s.fld (pgGroup g) 55 53

/-- A COLL_CTRL frame (Table 14.4). -/
def ctrlFrame (job group tag code desc : Nat) (v miss zero : Bool) (cnt : Nat) (payload : List Byte) : TxFrame :=
  { type := 7, last := false, ph := 0, set := 0, vc := 0, dst := 0, job := job, group := group, tag := tag,
    target := code + fieldAt 8 (b2n v) + fieldAt 9 (b2n miss) + fieldAt 10 (b2n zero) + fieldAt 16 desc + fieldAt 48 cnt,
    payload := payload }

/-- A COLL_CTRL frame to peer slot `i`. -/
def State.sendCtrl (s : State) (i : Nat) (f : TxFrame) : State := s.sendPeer i f none false

/-- A PHASE (5) or PHASE_CONF (6) frame to peer slot `i` of the phase group (R324). -/
def State.sendPhase (s : State) (type g i job target epoch : Nat) : State :=
  s.sendPeer i { type := type, last := false, ph := 0, set := 0, vc := 0, dst := 0, job := job, group := g, tag := epoch % 65536,
                 target := target, payload := [] } none false

end Sys2Proof.Machine
end

