-- ==== Sys2Proof/Machine/Elementary.lean ====
section
/-! DEFINITION. The stage functions EXP to GELU and the derivatives as real numbers (Tables 6.4 and 6.9), to well below an ulp of FP32, and the
bound of 2 ulp (R145). Real numbers between are integers of 384 fractional bits; the errors of the series lie below 2^-360. -/
namespace Sys2Proof.Machine

/-- 1, with 384 fractional bits. -/
def fxOne : Nat := 0x1_0000_0000_0000_0000_0000_0000_0000_0000_0000_0000_0000_0000_0000_0000_0000_0000_0000_0000_0000_0000_0000_0000_0000_0000

/-- ln 2. -/
def fxLn2 : Nat := 0xB172_17F7_D1CF_79AB_C9E3_B398_03F2_F6AF_40F3_4326_7298_B62D_8A0D_175B_8BAA_FA2B_E7B8_7620_6DEB_AC98_5595_52FB_4AFA_1B10

/-- 1 / √(2π). -/
def fxInvSqrt2Pi : Nat := 0x6621_14CF_50D9_4234_3F2C_F140_2EAE_38BF_D382_9F30_5127_06D8_C047_1B48_0263_9D2E_9DF8_AC55_447D_3DB7_23F5_D3AB_B374_E88D

/-- The product, rounded down. -/
def fxMul (a b : Int) : Int := a * b / (fxOne : Int)

/-- A finite FP32 value with 384 fractional bits, exactly; 0 for others. -/
def fxOf (a : BitVec 32) : Int :=
  match f32 a with
  | .fin neg m e => FVal.mantAt neg m e (-384)
  | _ => 0

/-- A number of 384 fractional bits as an exact value. -/
def fxVal (x : Int) : FVal := .fin (decide (x < 0)) x.natAbs (-384)

/-- The series of e^r from its term `n` down. -/
def expLoop (r : Int) : Nat → Int → Int
  | 0, acc => acc
  | n + 1, acc => expLoop r n ((fxOne : Int) + fxMul r acc / ((n : Int) + 1))

/-- e^x as T × 2^k, T in [1, 2), for |x| < 512. -/
def expParts (x : Int) : Int × Int :=
  let k := x / (fxLn2 : Int)
  (expLoop (x - k * fxLn2) 96 fxOne, k)

/-- e^x; beyond ±512 a number that no FP32 value is near. -/
def expReal (x : Int) : FVal :=
  if 512 * (fxOne : Int) ≤ x then .fin false 1 800
  else if x ≤ -512 * (fxOne : Int) then .fin false 1 (-800)
  else
    let t := expParts x
    .fin false t.1.toNat (t.2 - 384)

/-- 2^x; beyond ±512 a number that no FP32 value is near. -/
def exp2Real (x : Int) : FVal :=
  let k := x / (fxOne : Int)
  if 512 ≤ k then .fin false 1 800
  else if k < -512 then .fin false 1 (-800)
  else .fin false (expLoop (fxMul (x - k * fxOne) fxLn2) 96 fxOne).toNat (k - 384)

/-- e^x for x ≤ 0, with 384 fractional bits. -/
def expNeg (x : Int) : Int :=
  if x ≤ -512 * (fxOne : Int) then 0
  else
    let t := expParts x
    if 0 ≤ t.2 then t.1 else t.1 / (2 ^ (-t.2).toNat : Nat)

/-- The series of atanh z / z in z², from its term `n` down. -/
def atanhLoop (z2 : Int) : Nat → Int → Int
  | 0, acc => acc
  | n + 1, acc => atanhLoop z2 n ((fxOne : Int) / (2 * n + 1) + fxMul z2 acc)

/-- ln t for t in [2/3, 2]. -/
def lnNear (t : Int) : Int :=
  let z := (t - fxOne) * fxOne / (t + fxOne)
  2 * fxMul z (atanhLoop (fxMul z z) 140 0)

/-- ln of m × 2^e, m not 0. -/
def lnReal (m : Nat) (e : Int) : Int :=
  let l := m.log2
  let t : Int := m * fxOne / (2 ^ l : Nat)
  if 4 * (fxOne : Int) < 3 * t then (e + l + 1) * fxLn2 + lnNear (t / 2) else (e + l) * fxLn2 + lnNear t

/-- The logistic function σ(x). -/
def sigmoidFx (x : Int) : Int :=
  let g := expNeg (-(x.natAbs : Int))
  (if x < 0 then g else fxOne) * fxOne / (fxOne + g)

/-- tanh x. -/
def tanhFx (x : Int) : Int :=
  let g := expNeg (-2 * (x.natAbs : Int))
  let v := (fxOne - g) * fxOne / (fxOne + g)
  if x < 0 then -v else v

/-- ln (1 + e^x). -/
def softplusFx (x : Int) : Int := max x 0 + lnNear (fxOne + expNeg (-(x.natAbs : Int)))

/-- The sum of x^(2n+1) / (1 · 3 · … · (2n+1)) from its term `k` on. -/
def normLoop (x2 : Int) : Nat → Nat → Int → Int → Int
  | 0, _, _, acc => acc
  | fuel + 1, k, term, acc => normLoop x2 fuel (k + 1) (fxMul term x2 / (2 * k + 3)) (acc + term)

/-- The density φ(x) and the distribution Φ(x) of the normal law; beyond ±24 they are 0 and 0 or 1. -/
def normalFx (x : Int) : Int × Int :=
  if 24 * (fxOne : Int) ≤ x then (0, fxOne)
  else if x ≤ -24 * (fxOne : Int) then (0, 0)
  else
    let x2 := fxMul x x
    let t := expParts (-x2 / 2)
    let sh : Int := (2 ^ (384 + (-t.2).toNat) : Nat)
    let d := fxMul t.1 fxInvSqrt2Pi
    (d * fxOne / sh, (fxOne : Int) / 2 + d * normLoop x2 1000 0 x 0 / sh)

/-- The function of a stage opcode 0x11..0x18 at a finite value; none where it has none (LOG of a number not above 0). -/
def stageReal (o : Nat) (a : BitVec 32) : Option FVal :=
  let x := fxOf a
  match o with
  | 0x11 => some (expReal x)
  | 0x12 => some (exp2Real x)
  | 0x13 => match f32 a with
    | .fin false m e => if m = 0 then none else some (fxVal (lnReal m e))
    | _ => none
  | 0x14 => some (fxVal (tanhFx x))
  | 0x15 => some (fxVal (sigmoidFx x))
  | 0x16 => some (fxVal (softplusFx x))
  | 0x17 => some ((f32 a).mul (fxVal (sigmoidFx x)))
  | _ => some ((f32 a).mul (fxVal (normalFx x).2))

/-- b × f′ of a derivative opcode 0x21..0x26 at finite values (Table 6.9). -/
def stageReal2 (o : Nat) (a b : BitVec 32) : FVal :=
  let one : FVal := .fin false 1 0
  let x := fxOf a
  let d := match o with
    | 0x21 => (f32 a).mul (one.add (f32 a).neg)
    | 0x22 => one.add ((f32 a).mul (f32 a)).neg
    | 0x23 => f32 a
    | 0x24 => one.add (expReal (-x)).neg
    | 0x25 => let g := sigmoidFx x; fxVal (fxMul g (fxOne + fxMul x (fxOne - g)))
    | _ => let n := normalFx x; fxVal (n.2 + fxMul x n.1)
  (f32 b).mul d

/-- The same where an operand is infinite: the formula of Table 6.9 on the extended reals, none where it has no value there (x infinite in
DSILU and DGELU). -/
def stageReal2Inf (o : Nat) (a b : BitVec 32) : Option FVal :=
  let one : FVal := .fin false 1 0
  let y := f32 a
  let d : Option FVal := match o, y with
    | 0x21, _ => some (y.mul (one.add y.neg))
    | 0x22, _ => some (one.add (y.mul y).neg)
    | 0x23, _ => some y
    | 0x24, .inf s => some (if s then .inf true else one)
    | _, .inf _ => none
    | _, _ =>
      let k := stageReal2 o a 0x3F80_0000
      some (if k.isZero && bit a.toNat 31 && !(y.isZero) then .fin true 1 0 else k)
  d.map (f32 b).mul

/-- The exponent of one ulp of FP32 at a value. -/
def ulpExp : FVal → Int
  | .fin _ m e => if m = 0 then -149 else max (e + m.log2 - 23) (-149)
  | _ => 104

/-- Whether FP32 bits lie within 2 ulp of a value, give or take 2^-64 ulp; ∞ stands for 2^128 and more. -/
def nearTwoUlp (w : BitVec 32) (v : FVal) : Bool :=
  let slack : FVal := .fin false 0x2_0000_0000_0000_0001 (ulpExp v - 64)
  match f32 w with
  | .nan => false
  | .inf s => !(((if s then v.neg else v).add slack).cmp (.fin false 1 128) == some .lt)
  | f => !((f.add v.neg).abs.cmp slack == some .gt)

/-- The result of a stage whose value is within 2 ulp of `v`: the free value `w` where it is, else the nearest FP32 value. -/
def twoUlp (w : BitVec 32) (v : FVal) : BitVec 32 := if nearTwoUlp w v then w else toF32 v

end Sys2Proof.Machine
end

