-- ==== Sys2Proof/Machine/Matrix.lean ====
section
/-! DEFINITION. What a matrix unit computes (R116..R135): the resolved descriptor, the operand streams, the sums, the tiles. -/
namespace Sys2Proof.Machine

/-- Division rounded up. -/
def ceilDiv (a b : Nat) : Nat := (a + b - 1) / b

/-- The little-endian concatenation of fixed-width fields. -/
def packFields (w : Nat) : List Nat → Nat
  | [] => 0
  | x :: xs => x % 2 ^ w + 2 ^ w * packFields w xs

/-- A dimension field (Table 5.3) resolved on the section's extents. -/
def resolveDim (ext : List Nat) (d : Nat) : Nat :=
  if bit d 31 then ext.getD (bits d 3 0) 0 * bits d 19 8 else bits d 20 0

/-- MUL of a dynamic dimension is not 0, and its reserved bits are 0 (Table 5.3). -/
def dimOk (d : Nat) : Bool :=
  if bit d 31 then !(bits d 19 8 == 0) && bits d 30 20 == 0 && bits d 7 4 == 0 else bits d 30 21 == 0

/-! ### Binding block (R107) -/

/-- IN[p] of a record's body. -/
def bindIn (body p : Nat) : Nat := bits body (16 * p + 15) (16 * p)
/-- OUT[k] of a record's body, k = 0..3. -/
def bindOut (body k : Nat) : Nat := bits body (64 + 16 * k + 15) (64 + 16 * k)
/-- VALID of a binding word. -/
def bindValid (w : Nat) : Bool := bit w 15
/-- NET of a binding word. -/
def bindNet (w : Nat) : Nat := bits w 14 13
/-- CHANNEL of a binding word. -/
def bindChan (w : Nat) : Nat := bits w 7 0

/-- The MU descriptor of a record's body. -/
def muDesc (body : Nat) : Nat := bits body 383 128
/-- The fold descriptor of a record's body. -/
def foldDesc (body : Nat) : Nat := bits body 639 384

/-- A resolved MU descriptor and fold descriptor (R121, R129, R132). -/
structure MuPlan where
  fa : Nat
  fb : Nat
  m : Nat
  n : Nat
  k : Nat
  p : Nat
  mode : Nat
  s : Nat
  acc : Nat
  alt : Bool
  emit : Nat
  bMode : Nat
  aBlk : Bool
  aT : Bool
  bBlk : Bool
  bT : Bool
  sa : Nat
  sb : Nat
  accBase : Nat
  aBase : Nat
  bBase : Nat
  bLen : Nat
  deriving DecidableEq, Repr

/-- A format code with 0xF resolved to the latched gradient format (Table 5.4). -/
def resolveFmt (l : Option LntLatch) (f : Nat) : Nat := if f = 0xF then (l.map (·.fmtL)).getD 0xF else f

/-- The resolved descriptor of an MU record. -/
def muPlan (body : Nat) (ext : List Nat) (l : Option LntLatch) : MuPlan :=
  let d := muDesc body
  let f := foldDesc body
  let src := bit d 24
  { fa := resolveFmt l (bits d 7 4), fb := resolveFmt l (bits d 11 8)
    m := resolveDim ext (bits d 95 64), n := resolveDim ext (bits d 127 96), k := resolveDim ext (bits d 159 128)
    p := resolveDim ext (bits f 31 0), mode := bits f 33 32, s := 2 ^ bits f 35 34
    acc := bits d 13 12, alt := bit d 14, emit := bits d 17 16, bMode := bits d 19 18
    aBlk := bit d 20, aT := bit d 21, bBlk := bit d 22, bT := bit d 23
    sa := if src then (l.map (·.inSa)).getD 127 else bits d 39 32
    sb := if src then (l.map (·.inSb)).getD 127 else bits d 47 40
    accBase := bits d 180 160, aBase := bits d 206 192, bBase := bits d 222 208, bLen := bits d 239 224 }

/-- Table 5.1: whether two formats may be paired. -/
def pairLegal (fa fb : Nat) : Bool :=
  let fp8 := fun f => decide (f ≤ 1)
  let mx := fun f => decide (2 ≤ f ∧ f ≤ 6)
  (fp8 fa && fp8 fb) || (mx fa && mx fb) || (fa == 7 && fb == 7) || (fa == 8 && fb == 8) ||
    ((fa == 7 || fa == 8) && fp8 fb) || (fp8 fa && (fb == 7 || fb == 8))

namespace MuPlan

/-- KW of Table 5.1. -/
def kw (q : MuPlan) : Nat := if q.fa = 6 ∧ q.fb = 6 then 512 else 256
/-- W of Table 5.1: waves per row per block. -/
def w (q : MuPlan) : Nat := if q.fa = 7 ∨ q.fa = 8 ∨ q.fb = 7 ∨ q.fb = 8 then 2 else 1
/-- KS of Table 5.7. -/
def ks (q : MuPlan) : Nat := if q.mode = 2 then q.kw / q.s else q.kw
/-- Groups of Table 5.7. -/
def groups (q : MuPlan) : Nat := if q.mode = 2 then ceilDiv q.p q.s else 1
/-- Rows per block r of Table 5.7. -/
def rows (q : MuPlan) : Nat := if q.mode = 0 then q.p * q.m else q.m
/-- Chunks of the contraction. -/
def chunks (q : MuPlan) : Nat := ceilDiv q.k q.ks
/-- 256-column blocks of one problem. -/
def nbOne (q : MuPlan) : Nat := ceilDiv q.n 256
/-- nb of R125. -/
def nb (q : MuPlan) : Nat := if q.mode = 1 then q.p * q.nbOne else q.nbOne
/-- Rows rounded up to whole tiles. -/
def mp (q : MuPlan) : Nat := ceilDiv q.m 32 * 32
/-- Columns rounded up to whole tiles. -/
def np (q : MuPlan) : Nat := ceilDiv q.n 32 * 32
/-- Accumulator entries of one region. -/
def region (q : MuPlan) : Nat := q.p * q.mp * q.np
/-- acc of R125. -/
def accNeed (q : MuPlan) : Nat := q.region * (if q.alt then 2 else 1)
/-- Bits of one element and its share of a block scale, in 32nds of a byte (Table 5.4): ea + sa. -/
def per32 (f : Nat) : Nat := fmtBits f * 4 + (if fmtMx f then 1 else 0)
/-- a_need of R125, in bytes, divisions rounded up. -/
def aNeed (q : MuPlan) : Nat := ceilDiv (2 * q.rows * q.kw * per32 q.fa) 32
/-- Bytes of one block of B with its scales (R126). -/
def blockBytes (q : MuPlan) : Nat := ceilDiv (q.kw * 256 * per32 q.fb) 32
/-- blocks of R125. -/
def blocks (q : MuPlan) : Nat := q.groups * q.chunks * q.nb
/-- b_need of R125. -/
def bNeed (q : MuPlan) : Nat := if q.bMode = 0 then 2 * q.blockBytes else q.blocks * q.blockBytes
/-- L of R117: the block's bytes divided by 1,024. -/
def loadWaves (q : MuPlan) : Nat := q.kw * 256 * fmtBits q.fb / 8 / 1024
/-- The waves of one firing (R117). -/
def waves (q : MuPlan) : Nat := q.loadWaves + q.blocks * max (q.rows * q.w) q.loadWaves
/-- Whether some resolved extent is zero (R134). -/
def empty (q : MuPlan) : Bool := q.m == 0 || q.n == 0 || q.k == 0 || q.p == 0
/-- Problems of group `g` that exist (R130). -/
def inGroup (q : MuPlan) (g : Nat) : Nat := if q.mode = 2 then min q.s (q.p - g * q.s) else 1
/-- Width of chunk `c` of group `g` in the A stream and depth in the B stream (R123, R130). -/
def width (q : MuPlan) (g c : Nat) : Nat := if q.mode = 2 then q.inGroup g * q.ks else min q.kw (q.k - c * q.kw)
/-- Columns of block `n` (R123). -/
def cols (q : MuPlan) (n : Nat) : Nat := min 256 (q.n - n % q.nbOne * 256)

end MuPlan

/-! ### Operand streams (R123, R124) -/

/-- A stream being read: the payloads left, and whether it ran short. -/
structure Stream where
  toks : List Nat
  short : Bool
  deriving DecidableEq, Repr

/-- The next `n` tokens of 512 bits as one number; missing bytes read as zero (R123). -/
def Stream.take (s : Stream) (n : Nat) : Nat × Stream :=
  (packFields 512 (s.toks.take n), { toks := s.toks.drop n, short := s.short || decide (s.toks.length < n) })

/-- The fields of width `w` of a number, `n` of them. -/
def fields (w n v : Nat) : List Nat := (List.range n).map fun i => v / 2 ^ (w * i) % 2 ^ w

/-- The rows of a piece of `rows × cols` elements in ROW layout: each row begins a new token (R123). -/
def readRows (w cols : Nat) : (rows : Nat) → Stream → List (List Nat) × Stream
  | 0, s => ([], s)
  | r + 1, s =>
    let (v, s1) := s.take (ceilDiv (cols * w) 512)
    let (rest, s2) := readRows w cols r s1
    (fields w cols v :: rest, s2)

/-- The 32 × 32 blocks of a piece, row-major over blocks, each as one number. -/
def readBlocks (w : Nat) : (n : Nat) → Stream → List Nat × Stream
  | 0, s => ([], s)
  | n + 1, s =>
    let (v, s1) := s.take (w * 1024 / 512)
    let (rest, s2) := readBlocks w n s1
    (v :: rest, s2)

/-- A piece of `rows × cols` elements of width `w` in either layout, each 32 × 32 block transposed with `t` (R124). -/
def readPiece (blk t : Bool) (w rows cols : Nat) (s : Stream) : List (List Nat) × Stream :=
  if blk then
    let cb := ceilDiv cols 32
    let (bs, s1) := readBlocks w (ceilDiv rows 32 * cb) s
    ((List.range rows).map fun i => (List.range cols).map fun j =>
        let b := bs.getD (i / 32 * cb + j / 32) 0
        let at_ := if t then j % 32 * 32 + i % 32 else i % 32 * 32 + j % 32
        b / 2 ^ (w * at_) % 2 ^ w, s1)
  else readRows w cols rows s

/-- A byte stream packed without gaps, for block scales (R123): the bytes of all its tokens. -/
def scaleBytes (toks : List Nat) : List Nat := toks.flatMap fun t => fields 8 64 t

/-- A two-dimensional list read at (i, j), zero outside. -/
def at2 (x : List (List Nat)) (i j : Nat) : Nat := (x.getD i []).getD j 0

/-- The pieces of A in stream order: for each group and chunk, its rows (R123). -/
def readA (q : MuPlan) : (gcs : List (Nat × Nat)) → Stream → List (List (List Nat)) × Stream
  | [], s => ([], s)
  | (g, c) :: r, s =>
    let (x, s1) := readPiece q.aBlk q.aT (fmtBits q.fa) q.rows (q.width g c) s
    let (xs, s2) := readA q r s1
    (x :: xs, s2)

/-- The blocks of B in stream order: for each group, chunk and 256-column block (R123). -/
def readB (q : MuPlan) : (gcn : List (Nat × Nat × Nat)) → Stream → List (List (List Nat)) × Stream
  | [], s => ([], s)
  | (g, c, n) :: r, s =>
    let (x, s1) := readPiece q.bBlk q.bT (fmtBits q.fb) (q.width g c) (q.cols n) s
    let (xs, s2) := readB q r s1
    (x :: xs, s2)

/-- Groups and chunks in loop order. -/
def MuPlan.gcs (q : MuPlan) : List (Nat × Nat) :=
  (List.range q.groups).flatMap fun g => (List.range q.chunks).map fun c => (g, c)

/-- Groups, chunks and blocks in loop order. -/
def MuPlan.gcns (q : MuPlan) : List (Nat × Nat × Nat) :=
  q.gcs.flatMap fun gc => (List.range q.nb).map fun n => (gc.1, gc.2, n)

/-- Cut a scale stream into pieces of the given sizes. -/
def cutScales : (sizes : List Nat) → List Nat → List (List Nat)
  | [], _ => []
  | n :: ns, xs => xs.take n :: cutScales ns (xs.drop n)

/-- The scales of A's pieces: one per 32 contraction elements of each row, in element order (DEDUCED, assumption 14). -/
def scalesA (q : MuPlan) (toks : List Nat) : List (List Nat) :=
  cutScales (q.gcs.map fun gc => q.rows * ceilDiv (q.width gc.1 gc.2) 32) (scaleBytes toks)

/-- The scales of B's blocks: one per 32 contraction rows of each column, columns in order within a run of 32 rows (R118,
DEDUCED, assumption 14). -/
def scalesB (q : MuPlan) (toks : List Nat) : List (List Nat) :=
  cutScales (q.gcns.map fun x => ceilDiv (q.width x.1 x.2.1) 32 * q.cols x.2.2) (scaleBytes toks)

/-- The operands of a firing: the pieces and scales of A and B, in loop order. -/
structure MuOps where
  a : List (List (List Nat))
  b : List (List (List Nat))
  sa : List (List Nat)
  sb : List (List Nat)
  deriving DecidableEq, Repr

/-! ### The pinned region (R126) -/

/-- One block of B in the packed layout: KW × 256 elements in the array's orientation, then its scales. -/
def packBlock (q : MuPlan) (x : List (List Nat)) (sc : List Nat) (n : Nat) : List Byte :=
  let w := fmtBits q.fb
  let els := (List.range q.kw).flatMap fun i => (List.range 256).map fun j => at2 x i j
  let scs := (List.range (q.kw / 32)).flatMap fun i =>
    (List.range 256).map fun j => if j < q.cols n then sc.getD (i * q.cols n + j) 0 else 0
  leBytes (q.kw * 256 * w / 8) (packFields w els) ++
    (if fmtMx q.fb then leBytes (q.kw / 32 * 256) (packFields 8 scs) else [])

/-- The bytes a PIN_LOAD firing writes from B_BASE; a format without block scales has none to write (R126). -/
def pinBytes (q : MuPlan) (o : MuOps) : List Byte :=
  ((q.gcns.zip (o.b.zip (o.sb ++ o.b.map fun _ => []))).map fun x => packBlock q x.2.1 x.2.2 x.1.2.2).flatten

/-- B and its scales as a PINNED firing reads them back (R126). -/
def pinnedB (q : MuPlan) (buf : Mem) : List (List (List Nat)) × List (List Nat) :=
  let w := fmtBits q.fb
  let blk := fun (i : Nat) (n : Nat) =>
    let base := q.bBase * 256 + i * q.blockBytes
    let raw := fields w (q.kw * 256) (buf.readNat base (q.kw * 256 * w / 8))
    let scs := fields 8 (q.kw / 32 * 256) (buf.readNat (base + q.kw * 256 * w / 8) (q.kw / 32 * 256))
    ((List.range q.kw).map (fun r => (List.range (q.cols n)).map fun c => raw.getD (r * 256 + c) 0),
     (List.range (q.kw / 32)).flatMap fun r => (List.range (q.cols n)).map fun c => scs.getD (r * 256 + c) 0)
  let xs := (q.gcns.zip (List.range q.gcns.length)).map fun x => blk x.2 x.1.2.2
  (xs.map (·.1), xs.map (·.2))

/-! ### Sums and accumulators (R118, R127) -/

/-- The sum of one wave for problem `p`, row `m` of the problem, column `col` and chunk `c`. -/
def waveSum (q : MuPlan) (o : MuOps) (p m col c : Nat) : FVal :=
  let g := if q.mode = 2 then p / q.s else 0
  let seg := if q.mode = 2 then p % q.s * q.ks else 0
  let row := if q.mode = 0 then p * q.m + m else m
  let blkN := if q.mode = 1 then p * q.nbOne + col / 256 else col / 256
  let gc := g * q.chunks + c
  let gcn := gc * q.nb + blkN
  let a := o.a.getD gc []
  let b := o.b.getD gcn []
  let wid := min q.ks (q.k - c * q.ks)
  let j := col % 256
  let prod := fun i => (decodeFmt (fmtOf q.fa) (at2 a row (seg + i))).mul (decodeFmt (fmtOf q.fb) (at2 b (seg + i) j))
  if fmtMx q.fa then
    let kb := ceilDiv (q.width g c) 32
    alignedSum ((List.range (ceilDiv wid 32)).map fun t =>
      let terms := ((List.range 32).filter (fun i => decide (32 * t + i < wid))).map fun i => prod (32 * t + i)
      let kk := seg / 32 + t
      match e8m0 ((o.sa.getD gc []).getD (row * kb + kk) 0), e8m0 ((o.sb.getD gcn []).getD (kk * q.cols blkN + j) 0) with
      | some x, some y => (sumExact terms).scale (x + y)
      | _, _ => .nan)
  else sumExact ((List.range wid).map prod)

/-- An accumulator entry after all its contributions (R118, R127): the chunks in order. -/
def accEntry (q : MuPlan) (o : MuOps) (old : BitVec 32) (p m col : Nat) : BitVec 32 :=
  (List.range q.chunks).foldl (fun acc c =>
    accumulate (q.acc == 0 && c == 0) q.sa q.sb acc (waveSum q o p m col c)) old

/-- Where entry `i` of a problem's region lies: its row and column, in the tile order of R127 and R135. -/
def tilePlace (q : MuPlan) (i : Nat) : Nat × Nat :=
  let perBlock := q.mp * 256
  let b := i / perBlock
  let r := i % perBlock
  let wb := min 8 (q.np / 32 - 8 * b)
  let t := r / 1024
  (t / wb * 32 + r % 1024 / 32, b * 256 + t % wb * 32 + r % 32)

/-- The FP32 entry at accumulator index `e`. -/
def accRead (acc : Mem) (e : Nat) : BitVec 32 := BitVec.ofNat 32 (acc.readNat (e * 4) 4)

/-- The new contents of the firing's region, entry by entry: the sums, and +0.0 beyond M or N (R135). -/
def regionValues (q : MuPlan) (o : MuOps) (acc : Mem) (base : Nat) : List (BitVec 32) :=
  (List.range q.region).map fun i =>
    let p := i / (q.mp * q.np)
    let (m, n) := tilePlace q (i % (q.mp * q.np))
    if m < q.m ∧ n < q.n then accEntry q o (accRead acc (base + i)) p m n else 0

/-- The accumulator memory after the firing. -/
def accWrite (acc : Mem) (base : Nat) (vs : List (BitVec 32)) : Mem :=
  acc.write (base * 4) (vs.flatMap fun v => leBytes 4 v.toNat)

/-- The payloads of the firing's tiles: 64 tokens of 16 FP32 entries each (R135). -/
def tilePayloads (vs : List (BitVec 32)) : List Nat :=
  (List.range (vs.length / 16)).map fun t => packFields 32 ((vs.drop (16 * t)).take 16 |>.map (·.toNat))

/-- The payload of the NOTIFY token of tile `t` of the firing (Table 5.10). -/
def notifyPayload (q : MuPlan) (base t : Nat) : Nat :=
  let per := q.mp * q.np / 1024
  let (m, n) := tilePlace q (t % per * 1024)
  fieldAt 40 (min 32 (q.n - n)) + fieldAt 32 (min 32 (q.m - m)) + (base + t * 1024) % 2 ^ 21

/-! ### Issue checks (Table 5.8) -/

/-- Check 1: defined values and reserved fields of 0. -/
def muFormatOk (body : Nat) : Bool :=
  let d := muDesc body
  let f := foldDesc body
  bits d 3 0 == 1 && decide (bits d 13 12 ≤ 1) && !(bit d 15) && decide (bits d 17 16 ≤ 2) && decide (bits d 19 18 ≤ 2) &&
    bits d 31 25 == 0 && !(bits d 39 32 == 0xFF) && !(bits d 47 40 == 0xFF) && bits d 63 62 == 0 &&
    (!(bit d 21) || bit d 20) && (!(bit d 23) || bit d 22) &&
    dimOk (bits d 95 64) && dimOk (bits d 127 96) && dimOk (bits d 159 128) && bits d 191 181 == 0 &&
    !(bit d 207) && !(bit d 223) && bits d 255 240 == 0 &&
    dimOk (bits f 31 0) && decide (bits f 33 32 ≤ 2) && decide (bits f 35 34 ≤ 2) &&
    (bits f 35 34 == 0 || bits f 33 32 == 2) && bits f 255 36 == 0

/-- A binding word that is VALID exactly when `want`, on network `net`. -/
def bindIs (w : Nat) (want : Bool) (net : Nat) : Bool := bindValid w == want && (!want || bindNet w == net)

/-- Check 3: bindings agree with Table 5.5. -/
def muBindOk (body : Nat) (q : MuPlan) : Bool :=
  bindIs (bindIn body 0) true 0 && bindIs (bindIn body 1) (!(q.bMode == 2)) 0 && bindIs (bindIn body 2) (fmtMx q.fa) 0 &&
    bindIs (bindIn body 3) (fmtMx q.fb && !(q.bMode == 2)) 0 && bindIs (bindOut body 0) (q.emit == 1) 0 &&
    bindIs (bindOut body 1) (q.emit == 2) 1 && !(bindValid (bindOut body 2)) && !(bindValid (bindOut body 3))

/-- The first failing check of Table 5.8 as (fault code, cause, NEED). A zero extent needs no footprint (R134). Where several tests of check 6
fail, NEED is that of the first: the A area's, also for an overlap with the B region, then the B region's (DESIGN CHOICE, assumption 171). -/
def muIssueCheck (body : Nat) (ext : List Nat) (l : Option LntLatch) : Option (Nat × Nat × Nat) :=
  let q := muPlan body ext l
  let big := [q.m, q.n, q.k, q.p].find? (fun x => decide (1048576 < x))
  let fit := fun (n : Nat) => if q.empty then 0 else n
  let (aNeed, bNeed, accNeed) := (fit q.aNeed, fit q.bNeed, fit q.accNeed)
  let aEnd := q.aBase * 256 + aNeed
  let bEnd := q.bBase * 256 + q.bLen * 256
  if !(muFormatOk body) then some (0x0203, 1, 0)
  else if !(pairLegal q.fa q.fb) then some (0x0203, 2, 0)
  else if !(muBindOk body q) then some (0x0203, 3, 0)
  else if big.isSome then some (0x0201, 4, stopAt 0xFFFF_FFFF (big.getD 0))
  else if 1048576 < q.accBase + accNeed then some (0x0201, 5, stopAt 0xFFFF_FFFF (q.accBase + accNeed))
  else if 8388608 < aEnd ∨ (0 < q.bLen ∧ 0 < aNeed ∧ q.bBase * 256 < aEnd ∧ q.aBase * 256 < bEnd) then some (0x0201, 6, ceilDiv aNeed 256)
  else if 8388608 < bEnd ∨ q.bLen * 256 < bNeed then some (0x0201, 6, ceilDiv bNeed 256)
  else none

end Sys2Proof.Machine
end

