-- ==== Sys2Proof/Machine/Vector.lean ====
section
/-! DEFINITION. What a vector unit computes (R139..R160): the resolved chain, its stages, row states, outputs, summaries. -/
namespace Sys2Proof.Machine

/-- The chain descriptor of a record's body. -/
def vuDesc (body : Nat) : Nat := bits body 639 128

/-- A resolved chain descriptor (Table 6.1). -/
structure VuPlan where
  bond : Bool
  bondMu : Nat
  passes : Nat
  stages : List Nat
  outFmt : Nat
  out1Fmt : Nat
  stoch : Bool
  scale : Nat
  lnt : Nat
  sumStage : Nat
  sumScope : Nat
  vecRow : Bool
  regBase : Nat
  rowN : Nat
  rowOut : Nat
  amax : Bool
  outT : Bool
  vecN : Nat
  capN : Nat
  in0Fmt : Nat
  in1Fmt : Nat
  inScale : Nat
  m : Nat
  n : Nat
  p : Nat
  imm : List Nat
  deriving DecidableEq, Repr

/-- The resolved chain of a VU record. -/
def vuPlan (body : Nat) (ext : List Nat) (l : Option LntLatch) : VuPlan :=
  let d := vuDesc body
  { bond := bit d 4, bondMu := bits d 6 5, passes := if bit d 7 then 2 else 1
    stages := (List.range (bits d 11 8)).map fun i => bits d (215 + 24 * i) (192 + 24 * i)
    outFmt := resolveFmt l (bits d 15 12), out1Fmt := resolveFmt l (bits d 19 16), stoch := bit d 20
    scale := if bit d 21 then (l.map (·.scale)).getD 127 else bits d 29 22
    lnt := bits d 43 30, sumStage := bits d 46 44, sumScope := bits d 48 47, vecRow := bit d 49
    regBase := bits d 54 50, rowN := bits d 59 55, rowOut := bits d 61 60, amax := bit d 62, outT := bit d 63
    vecN := bits d 68 64, capN := bits d 74 69
    in0Fmt := resolveFmt l (bits d 78 75), in1Fmt := resolveFmt l (bits d 82 79), inScale := bits d 90 83
    m := resolveDim ext (bits d 127 96), n := resolveDim ext (bits d 159 128), p := resolveDim ext (bits d 191 160)
    imm := match (if bit d 21 then l.bind (·.imms) else none) with
      | some (a, b, c) => [bits d 415 384, a, b, c]
      | none => [bits d 415 384, bits d 447 416, bits d 479 448, bits d 511 480] }

/-! ### Stage words (Table 6.2) -/

/-- P2: the stage runs in pass 2. -/
def stP2 (w : Nat) : Bool := bit w 23
/-- OPC. -/
def stOpc (w : Nat) : Nat := bits w 5 0
/-- Operand A. -/
def stA (w : Nat) : Nat := bits w 9 6
/-- Operand B. -/
def stB (w : Nat) : Nat := bits w 13 10
/-- Operand C. -/
def stC (w : Nat) : Nat := bits w 17 14
/-- SK. -/
def stSK (w : Nat) : Nat := bits w 20 18

/-- How many of the operands A, B, C an opcode of Table 6.4 reads (R144): 0 where the code is reserved. -/
def opcArity (o : Nat) : Nat :=
  if o = 0x04 ∨ o = 0x0D ∨ o = 0x0F then 3
  else if (1 ≤ o ∧ o ≤ 6) ∨ o = 0x0C ∨ o = 0x0E ∨ (0x20 ≤ o ∧ o ≤ 0x26) then 2
  else if o = 0x07 ∨ o = 0x08 ∨ (0x09 ≤ o ∧ o ≤ 0x0B) ∨ (0x10 ≤ o ∧ o ≤ 0x1A) ∨ (0x28 ≤ o ∧ o ≤ 0x2A) ∨
    (0x30 ≤ o ∧ o ≤ 0x32) then 1
  else 0

/-- The operand sources an opcode reads, by field. -/
def stSources (w : Nat) : List Nat :=
  let o := stOpc w
  if o = 0x1A then [stB w]
  else if o = 0x30 then [stA w, stB w]
  else if o = 0x31 then [stA w]
  else if o = 0x32 then [stA w, stB w, stC w]
  else match opcArity o with
    | 3 => [stA w, stB w, stC w]
    | 2 => [stA w, stB w]
    | 1 => [stA w]
    | _ => []

/-- Whether a stage is a row reduction. -/
def isReduction (w : Nat) : Bool := decide (0x28 ≤ stOpc w ∧ stOpc w ≤ 0x2A)

namespace VuPlan

/-- Whether some stage reads source code `c`. -/
def reads (q : VuPlan) (c : Nat) : Bool := q.stages.any fun w => (stSources w).contains c
/-- Whether some stage is MASK_LEN. -/
def usesLen (q : VuPlan) : Bool := q.stages.any fun w => stOpc w == 0x31
/-- Whether some stage has OUT1. -/
def hasOut1 (q : VuPlan) : Bool := q.stages.any fun w => bit w 22
/-- Whether the chain has a row reduction. -/
def reduces (q : VuPlan) : Bool := q.stages.any isReduction
/-- Tiles of one problem's row of tiles. -/
def tilesRow (q : VuPlan) : Nat := ceilDiv q.n 32
/-- Tiles of a problem. -/
def tilesOne (q : VuPlan) : Nat := ceilDiv q.m 32 * q.tilesRow
/-- Tiles of the firing. -/
def tiles (q : VuPlan) : Nat := q.p * q.tilesOne
/-- Rows of the firing. -/
def rows (q : VuPlan) : Nat := q.p * q.m
/-- Vector length (VEC_AXIS). -/
def vecLen (q : VuPlan) : Nat := if q.vecRow then q.m else q.n
/-- Whether some resolved extent is zero. -/
def empty (q : VuPlan) : Bool := q.m == 0 || q.n == 0 || q.p == 0
/-- Stage waves of a pass (R140). -/
def stageWaves (q : VuPlan) (p2 : Bool) : Nat :=
  if q.stages.any (fun w => stP2 w == p2 && (stOpc w == 0x25 || stOpc w == 0x26)) then 2 else 1
/-- The waves of a firing (R140, R159). -/
def waves (q : VuPlan) : Nat :=
  2 * q.tiles * q.stageWaves false + 8 + (if q.passes = 2 then 2 * q.tiles * q.stageWaves true + 8 else 0)

/-- Where tile `t` lies: problem, first row, first column (R135, R148). -/
def tileAt (q : VuPlan) (t : Nat) : Nat × Nat × Nat :=
  let p := t / q.tilesOne
  let r := t % q.tilesOne
  let mt := ceilDiv q.m 32
  let b := r / (mt * 8)
  let wb := min 8 (q.tilesRow - 8 * b)
  let u := r - b * (mt * 8)
  (p, u / wb * 32, (b * 8 + u % wb) * 32)

end VuPlan

/-! ### Elements -/

/-- What an element brings to a pass: its inputs, its place, its row's length, and the final row states. -/
structure Elem where
  x0 : BitVec 32
  x1 : BitVec 32
  vec : BitVec 32
  rs0 : BitVec 32
  rs1 : BitVec 32
  prob : Nat
  row : Nat
  col : Nat
  len : Nat
  tag : Nat
  deriving DecidableEq, Repr

/-- What a stage did to an element and its row states. -/
structure StageOut where
  val : BitVec 32
  valid : Bool
  rs0 : BitVec 32
  rs1 : BitVec 32
  deriving DecidableEq, Repr

/-- The value of operand source `c` (Table 6.3). -/
def sourceVal (q : VuPlan) (e : Elem) (prev : BitVec 32) (done : List (Nat × BitVec 32)) (sk c : Nat) : BitVec 32 :=
  match c with
  | 0x0 => prev | 0x1 => e.x0 | 0x2 => e.x1 | 0x3 => e.vec
  | 0x4 => BitVec.ofNat 32 (q.imm.getD 0 0) | 0x5 => BitVec.ofNat 32 (q.imm.getD 1 0)
  | 0x6 => BitVec.ofNat 32 (q.imm.getD 2 0) | 0x7 => BitVec.ofNat 32 (q.imm.getD 3 0)
  | 0x8 => e.rs0 | 0x9 => e.rs1 | 0xA => f32OfNat e.row | 0xB => f32OfNat e.col
  | 0xC => ((done.find? (fun d => d.1 == sk)).map (·.2)).getD 0
  | 0xE => 0x3F80_0000 | _ => 0

/-- A stage function 0x11..0x18: NaN for NaN; a value that `Config.stageFn` leaves open within 2 ulp; at an infinity, and where the function
has no value, free (R145). -/
def stageFree (o : Nat) (a : BitVec 32) : BitVec 32 :=
  if isNan a then nan32
  else if nonFinite a then canon (Config.stageFn o a)
  else match stageReal o a with
    | some v => twoUlp (Config.stageFn o a) v
    | none => canon (Config.stageFn o a)

/-- A derivative 0x21..0x26, likewise; at an infinite operand the product of Table 6.9 on the extended reals, free where that has no value. -/
def stageFree2 (o : Nat) (a b : BitVec 32) : BitVec 32 :=
  if isNan a || isNan b then nan32
  else if nonFinite a || nonFinite b then ((stageReal2Inf o a b).map toF32).getD (canon (Config.stageFn2 o a b))
  else twoUlp (Config.stageFn2 o a b) (stageReal2 o a b)

/-- EXP as the chain uses it: exp(−∞) = 0 (R155). -/
def f32Exp (a : BitVec 32) : BitVec 32 := if a = 0xFF80_0000 then 0 else stageFree 0x11 a

/-- The online log-sum-exp update (R155). -/
def rlse (x m0 s0 : BitVec 32) : BitVec 32 × BitVec 32 :=
  if nonFinite x then (nan32, nan32)
  else if isNan m0 then (m0, s0)
  else
    let m := f32Max m0 x
    (m, f32Add (f32Mul s0 (f32Exp (f32Sub m0 m))) (f32Exp (f32Sub x m)))

/-- The result of a stage opcode on its operands (Table 6.4, R145, R158), reductions and masks giving `a`. -/
def stageVal (o : Nat) (e : Elem) (a b c : BitVec 32) : BitVec 32 :=
  match o with
  | 0x01 => f32Add a b | 0x02 => f32Sub a b | 0x03 => f32Mul a b | 0x04 => f32Fma a b c
  | 0x05 => f32Max a b | 0x06 => f32Min a b | 0x07 => f32Abs a | 0x08 => f32Neg a
  | 0x09 => f32Rcp a | 0x0A => f32Rsqrt a | 0x0B => f32Sqrt a | 0x0C => f32Div a b
  | 0x0D => if f32Gt c 0 then canon a else canon b
  | 0x0E => if f32Gt a b then 0x3F80_0000 else 0
  | 0x0F => f32Min (f32Max a b) c
  | 0x11 => f32Exp a
  | 0x19 => if isNan a then nan32 else if f32Gt a 0 then a else 0
  | 0x1A => toF32 (.fin false (rand24 b.toNat 0 e.tag e.prob e.row e.col) (-24))
  | 0x20 => if f32Gt a 0 then canon b else 0
  | _ =>
    if 0x12 ≤ o ∧ o ≤ 0x18 then stageFree o a
    else if 0x21 ≤ o ∧ o ≤ 0x26 then stageFree2 o a b
    else canon a

/-- Whether b − a, as real numbers, exceed: CIDX − RIDX > b for MASK_CAUSAL, compared exactly. -/
def causalMasks (e : Elem) (b : BitVec 32) : Bool :=
  let d : Int := (e.col : Int) - e.row
  (FVal.fin (decide (d < 0)) d.natAbs 0).cmp (f32 b) == some .gt

/-- One stage on one element (R144, R154, R155). -/
def stageStep (q : VuPlan) (e : Elem) (prev : BitVec 32) (done : List (Nat × BitVec 32)) (w : Nat) (s : StageOut) :
    StageOut :=
  let src := sourceVal q e prev done (stSK w)
  let a := src (stA w)
  let b := src (stB w)
  let c := src (stC w)
  let o := stOpc w
  let v := stageVal o e a b c
  if o = 0x28 then
    let upd := fun r => if s.valid then f32Add r a else r
    { s with val := v, rs0 := if stC w = 0 then upd s.rs0 else s.rs0, rs1 := if stC w = 0 then s.rs1 else upd s.rs1 }
  else if o = 0x29 then
    let upd := fun r => if s.valid then f32Max r a else r
    { s with val := v, rs0 := if stC w = 0 then upd s.rs0 else s.rs0, rs1 := if stC w = 0 then s.rs1 else upd s.rs1 }
  else if o = 0x2A then
    let r := if s.valid then rlse a s.rs0 s.rs1 else (s.rs0, s.rs1)
    { s with val := v, rs0 := r.1, rs1 := r.2 }
  else if o = 0x30 then { s with val := v, valid := s.valid && !(causalMasks e b) }
  else if o = 0x31 then { s with val := v, valid := s.valid && decide (e.col < e.len) }
  else if o = 0x32 then { s with val := v, valid := s.valid && !(!(f32Gt b c) && !(isNan b || isNan c)) }
  else { s with val := v }

/-- The stages of one pass on one element, in order: the results by stage, with the valid flag after each. -/
def runStages (q : VuPlan) (e : Elem) : (ws : List (Nat × Nat)) → (prev : BitVec 32) → (done : List (Nat × BitVec 32)) →
    (flags : List (Nat × Bool)) → StageOut → List (Nat × BitVec 32) × List (Nat × Bool) × StageOut
  | [], _, done, flags, s => (done, flags, s)
  | (i, w) :: ws, prev, done, flags, s =>
    let s1 := stageStep q e prev done w s
    runStages q e ws s1.val ((i, s1.val) :: done) ((i, s1.valid) :: flags) s1

/-- The numbered stages of a pass. -/
def passStages (q : VuPlan) (p2 : Bool) : List (Nat × Nat) :=
  ((List.range q.stages.length).zip q.stages).filter fun x => stP2 x.2 == p2

/-- The inputs of a firing: elements of IN0 and IN1 by tile and place within the tile, the vector, the row lengths. -/
structure VuIn where
  t0 : List (List (BitVec 32))
  t1 : List (List (BitVec 32))
  vec : List (BitVec 32)
  lens : List Nat
  deriving DecidableEq, Repr

/-- The element at place `i` (0..1023) of tile `t`. -/
def elemAt (q : VuPlan) (x : VuIn) (tag t i : Nat) (rs0 rs1 : BitVec 32) : Elem :=
  let (p, r0, c0) := q.tileAt t
  let row := r0 + i / 32
  let col := c0 + i % 32
  { x0 := (x.t0.getD t []).getD i 0, x1 := (x.t1.getD t []).getD i 0
    vec := x.vec.getD (if q.vecRow then row else col) 0
    rs0 := rs0, rs1 := rs1, prob := p, row := row, col := col, len := x.lens.getD (p * q.m + row) 0, tag := tag }

/-- Whether a place lies within M × N. -/
def elemIn (q : VuPlan) (e : Elem) : Bool := decide (e.row < q.m ∧ e.col < q.n)

/-- Identity of a row state (R155): −∞ where an RMAX writes it or RLSE writes RS0, else 0. -/
def rowIdentity (q : VuPlan) (which : Nat) : BitVec 32 :=
  if q.stages.any (fun w => (stOpc w == 0x29 && stC w == which) || (stOpc w == 0x2A && which == 0)) then 0xFF80_0000 else 0

/-- The row states of a firing by row. -/
structure RowState where
  rs0 : Tab (BitVec 32)
  rs1 : Tab (BitVec 32)
  deriving DecidableEq, Repr

/-- What a pass gives for one element: the results by stage, the flags, and whether it is valid at the end. -/
structure ElemOut where
  res : List (Nat × BitVec 32)
  flags : List (Nat × Bool)
  valid : Bool
  prob : Nat
  row : Nat
  col : Nat
  deriving DecidableEq, Repr

/-- The places of a firing in the order of R148. -/
def vuPlaces (q : VuPlan) : List (Nat × Nat) :=
  (List.range q.tiles).flatMap fun t => (List.range 1024).map fun i => (t, i)

/-- One pass over the places in order; `upd` tells whether the row states are written (pass 1). -/
def runPass (q : VuPlan) (x : VuIn) (tag : Nat) (p2 : Bool) : List (Nat × Nat) → RowState → List ElemOut × RowState
  | [], rs => ([], rs)
  | (t, i) :: rest, rs =>
    let r := (q.tileAt t).1 * q.m + (q.tileAt t).2.1 + i / 32
    let a := Tab.get (rowIdentity q 0) rs.rs0 r
    let b := Tab.get (rowIdentity q 1) rs.rs1 r
    let e := elemAt q x tag t i a b
    let out := runStages q e (passStages q p2) e.x0 [] [] { val := e.x0, valid := elemIn q e, rs0 := a, rs1 := b }
    let s := out.2.2
    let rs1 : RowState := if elemIn q e && !p2 then { rs0 := Tab.put rs.rs0 r s.rs0, rs1 := Tab.put rs.rs1 r s.rs1 } else rs
    let tl := runPass q x tag p2 rest rs1
    ({ res := out.1, flags := out.2.1, valid := s.valid, prob := e.prob, row := e.row, col := e.col } :: tl.1, tl.2)

/-! ### Outputs (R146, R148, R157) -/

/-- The stage whose result leaves on OUT0 (`bitNo` 21) or OUT1 (22): the flagged one, else the last. -/
def outStage (q : VuPlan) (bitNo : Nat) : Nat :=
  match ((List.range q.stages.length).zip q.stages).find? (fun x => bit x.2 bitNo) with
  | some x => x.1
  | none => q.stages.length - 1

/-- The valid flag of an element at stage `i`: the AND of the flags cleared up to it (R154). -/
def ElemOut.validAt (i : Nat) (e : ElemOut) : Bool := ((e.flags.find? (fun d => d.1 == i)).map (·.2)).getD e.valid

/-- The result of stage `i` for an element, +0.0 where it is not valid there (R154). -/
def resOf (i : Nat) (e : ElemOut) : BitVec 32 :=
  if e.validAt i then ((e.res.find? (fun d => d.1 == i)).map (·.2)).getD 0 else 0

/-- How an element of OUT0 (stream 1) or OUT1 (stream 2) rounds (R233, R234). -/
def elemRounding (q : VuPlan) (step stream tag : Nat) (e : ElemOut) : Rounding :=
  if q.stoch then .stochastic (rand24 (step % 2 ^ 32) stream tag e.prob e.row e.col) else .nearest

/-- The 1,024 elements of an output tile in the order sent: transposed with OUT_T. -/
def tileOrder (q : VuPlan) (xs : List ElemOut) : List ElemOut :=
  if q.outT then (List.range 1024).filterMap fun i => xs[(i % 32) * 32 + i / 32]? else xs

/-- Cut a list into tiles of 1,024. -/
def chop {α : Type} (n : Nat) : (fuel : Nat) → List α → List (List α)
  | 0, _ => []
  | f + 1, xs => if xs.isEmpty then [] else xs.take n :: chop n f (xs.drop n)

/-- The casts of one tile for a plain format, or its MX blocks with their scales. -/
def castTile (q : VuPlan) (fmt step stream tag stage : Nat) (xs : List ElemOut) : List Cast × List Nat :=
  let ys := tileOrder q xs
  if fmtMx fmt then
    let rows := (chop 32 32 ys).map fun r =>
      castBlock fmt (r.map (elemRounding q step stream tag)) (r.map fun e => (f32 (resOf stage e)).scale (127 - q.scale))
    (rows.flatMap (·.2), rows.map (·.1))
  else (ys.map fun e => castOut fmt (elemRounding q step stream tag e) q.scale (f32 (resOf stage e)), [])

/-- Tokens of 512 bits from one long number of `n` bits, the last zero-padded. -/
def tokens512 (n v : Nat) : List Nat := fields 512 (ceilDiv n 512) v

/-- A summary of a list of elements (Tables 6.7, 6.8): the four token payloads. -/
def summary (stage index : Nat) (xs : List ElemOut) : List Nat :=
  let vs := (xs.filter (·.validAt stage)).map (resOf stage)
  let fin := vs.filter (fun v => !(nonFinite v))
  let mx := fin.foldl f32Max 0xFF80_0000
  let mn := fin.foldl f32Min 0x7F80_0000
  let sm := fin.foldl f32Add 0
  let sq := fin.foldl (fun a v => f32Fma v v a) 0
  [ fieldAt 32 mx.toNat + mn.toNat, fieldAt 32 sm.toNat + sq.toNat,
    fieldAt 32 ((vs.filter nonFinite).length) + (vs.filter (fun v => (f32 v).isZero)).length,
    fieldAt 32 vs.length + index ]

/-- What AMAX_REC folds into a Layer Numerics Table record (R146): AMAX, ELEMS, underflows, overflows, zeros, non-finites. -/
structure AmaxRec where
  amax : BitVec 32
  elems : Nat
  uf : Nat
  of_ : Nat
  zs : Nat
  nf : Nat
  deriving DecidableEq, Repr

/-- What a VU firing produces. -/
structure VuOut where
  out0 : List Nat
  out1 : List Nat
  out2 : List Nat
  out3 : List Nat
  rows : RowState
  nonfinite : Nat
  rec_ : AmaxRec
  deriving DecidableEq, Repr

/-- Whether a cast result is infinite or NaN in its format (Table 10.1). -/
def castNonFinite (fmt : Nat) (c : Cast) : Bool :=
  if fmtMx fmt then false
  else if fmt = 0xA then c.code / 2 ^ 23 % 256 == 255
  else match decodeFmt (fmtOf fmt) c.code with
    | .fin _ _ _ => false
    | _ => true

/-- `n` FP32 values from tile register `r` on. -/
def regVals (m : Mem) (r n : Nat) : List (BitVec 32) := (List.range n).map fun i => accRead m (r * 1024 + i)

/-- The resident vector as the registers hold it. -/
def VuIn.regVec (x : VuIn) (q : VuPlan) (m : Mem) : VuIn := { x with vec := regVals m (q.regBase + 2 * q.rowN) q.vecLen }

/-- The captured tiles that pass 2 of a QUEUE chain reads, as the registers hold them. -/
def VuIn.regTiles (x : VuIn) (q : VuPlan) (m : Mem) : VuIn :=
  let tiles := fun (r n : Nat) => (List.range n).map fun i => regVals m (r + i) 1024
  let r := q.regBase + 2 * q.rowN + q.vecN
  if q.bond then x else { x with t0 := tiles r x.t0.length, t1 := tiles (r + x.t0.length) x.t1.length }

/-- The row states as the registers hold them. -/
def regRows (q : VuPlan) (m : Mem) : RowState :=
  let tab := fun (r : Nat) => (List.range q.rows).zip (regVals m r q.rows)
  { rs0 := tab q.regBase, rs1 := tab (q.regBase + q.rowN) }

/-- A whole firing of a VU: both passes, the outputs, the summaries (R139..R157). `regs` are the tile registers where another record shares them
(R141), `step` is the STEP latched at issue. -/
def vuFire (q : VuPlan) (x0 : VuIn) (regs : Option Mem) (tag step : Nat) : VuOut :=
  let places := vuPlaces q
  let x := (regs.map (x0.regVec q)).getD x0
  let p := runPass q x tag false places { rs0 := [], rs1 := [] }
  let p1 := (p.1, ((regs.filter fun _ => q.reduces).map (regRows q)).getD p.2)
  let last := if q.passes = 2 then (runPass q ((regs.map (x.regTiles q)).getD x) tag true places p1.2).1 else p1.1
  let tiles := chop 1024 q.tiles last
  let st0 := outStage q 21
  let c0 := tiles.map (castTile q q.outFmt step 1 tag st0)
  let c1 := tiles.map (castTile q q.out1Fmt step 2 tag (outStage q 22))
  let b0 := fmtBits q.outFmt
  let b1 := fmtBits q.out1Fmt
  let rowVals := fun (t : Tab (BitVec 32)) (d : BitVec 32) => (List.range q.rows).map fun r => (Tab.get d t r).toNat
  let rsList := rowVals p1.2.rs0 (rowIdentity q 0) ++ (if q.rowOut = 2 then rowVals p1.2.rs1 (rowIdentity q 1) else [])
  let scs := c0.flatMap (·.2)
  let pairs := if q.outFmt = 0xE then [] else (tiles.zip c0).flatMap fun tc => (tileOrder q tc.1).zip tc.2.1
  let val := pairs.filter (·.1.validAt st0)
  let fin := val.filter fun p => !(nonFinite (resOf st0 p.1))
  { out0 := if q.outFmt = 0xE then [] else c0.flatMap fun t => tokens512 (b0 * 1024) (packFields b0 (t.1.map (·.code)))
    out1 := if q.hasOut1 then c1.flatMap fun t => tokens512 (b1 * 1024) (packFields b1 (t.1.map (·.code))) else []
    out2 := if q.rowOut ≠ 0 then tokens512 (32 * rsList.length) (packFields 32 rsList)
      else if fmtMx q.outFmt then tokens512 (8 * scs.length) (packFields 8 scs) else []
    out3 := if q.sumScope = 1 then summary q.sumStage 0xFFFF_FFFF last
      else if q.sumScope = 2 then ((List.range tiles.length).zip tiles).flatMap fun t => summary q.sumStage t.1 t.2 else []
    rows := p1.2
    nonfinite := (val.filter fun p => nonFinite (resOf st0 p.1) || castNonFinite q.outFmt p.2).length
    rec_ :=
      { amax := fin.foldl (fun a p => f32Max a (f32Abs (resOf st0 p.1))) 0
        elems := val.length
        uf := (val.filter (·.2.undf)).length
        of_ := (val.filter (·.2.ovf)).length
        zs := (val.filter fun p => p.2.code % 2 ^ (b0 - 1) == 0).length
        nf := (val.filter fun p => nonFinite (resOf st0 p.1) || castNonFinite q.outFmt p.2).length } }

/-! ### Inputs (R146, R148, R149) -/

/-- The FP32 elements of `n` tiles from tokens of a narrow or wide format; missing elements read as +0.0. -/
def tilesFrom (fmt scale n : Nat) (toks : List Nat) : List (List (BitVec 32)) :=
  let w := fmtBits fmt
  let per := w * 1024 / 512
  (List.range n).map fun t =>
    (fields w 1024 (packFields 512 ((toks.drop (t * per)).take per))).map fun c =>
      if toks.length ≤ t * per then 0
      else if fmt = 0x9 then BitVec.ofNat 32 c
      else if fmt = 0xA then toF32 (bf16rVal c)
      else match e8m0 scale with
        | some k => toF32 ((widen fmt c).scale k)
        | none => nan32

/-- FP32 values packed 16 to a token. -/
def vecFrom (toks : List Nat) : List (BitVec 32) := toks.flatMap fun t => (fields 32 16 t).map (BitVec.ofNat 32)

/-- Row lengths packed two to a scalar token, low half first. -/
def lensFrom (toks : List Nat) : List Nat := toks.flatMap fun t => fields 32 2 t

/-! ### Issue checks (Table 6.11) -/

/-- Whether a code is allowed in the IN0/IN1 (`col` 0), OUT0 (1) or OUT1 (2) column of Table 6.5, after resolving 0xF. -/
def vuFmtOk (col f : Nat) : Bool :=
  if f ≤ 1 then true
  else if 2 ≤ f ∧ f ≤ 6 then col == 1
  else if f = 7 ∨ f = 8 ∨ f = 9 ∨ f = 0xA then true
  else f == 0xE && col == 1

/-- Whether a code appears in Table 6.5. -/
def vuFmtDefined (f : Nat) : Bool := decide (f ≤ 0xA) || f == 0xE || f == 0xF

/-- The pass structure and OUT flags of R153, and STG naming earlier stages of the same pass. -/
def passOk (q : VuPlan) : Bool :=
  let ps := q.stages.map stP2
  let idx := (List.range q.stages.length).zip q.stages
  let two := q.passes == 2
  (if two then ps.getD 0 true == false && ps.getLast? == some true &&
      ((List.range (ps.length - 1)).all fun i => !(ps.getD i false) || ps.getD (i + 1) false)
    else ps.all (fun b => !b) && !(q.reads 8) && !(q.reads 9)) &&
  idx.all (fun x => !(isReduction x.2) || !(stP2 x.2)) &&
  idx.all (fun x => !((stSources x.2).any fun c => c == 8 || c == 9) || stP2 x.2) &&
  ((q.stages.filter fun w => (isReduction w && (stC w == 0 || stOpc w == 0x2A))).length ≤ 1) &&
  ((q.stages.filter fun w => (isReduction w && (stC w == 1 || stOpc w == 0x2A))).length ≤ 1) &&
  ((q.stages.filter fun w => bit w 21).length ≤ 1) && ((q.stages.filter fun w => bit w 22).length ≤ 1) &&
  idx.all (fun x => !(bit x.2 21 || bit x.2 22) || stP2 x.2 == two) &&
  idx.all (fun x => !((stSources x.2).contains 0xC) ||
    (decide (stSK x.2 < x.1) && stP2 (q.stages.getD (stSK x.2) 0) == stP2 x.2))

/-- Check 1 of Table 6.11. A VEC_N above the 16 of Table 6.1 is no defined code; a ROW_N or CAP_N above its range fails check 7 whatever else it
holds (DEDUCED, assumption 170). -/
def vuFormatOk (body : Nat) (q : VuPlan) : Bool :=
  let d := vuDesc body
  bits d 3 0 == 1 && decide (1 ≤ bits d 11 8 ∧ bits d 11 8 ≤ 8) && !(bits d 29 22 == 0xFF) && bits d 95 91 == 0 &&
    decide (q.sumScope ≤ 2) && decide (q.rowOut ≤ 2) && decide (q.vecN ≤ 16) &&
    vuFmtDefined (bits d 15 12) && vuFmtDefined (bits d 19 16) && vuFmtDefined (bits d 78 75) && vuFmtDefined (bits d 82 79) &&
    dimOk (bits d 127 96) && dimOk (bits d 159 128) && dimOk (bits d 191 160) &&
    (q.stages.all fun w => decide (0 < opcArity (stOpc w)) && !((stSources w).contains 0xF) &&
      (!(stOpc w == 0x28 || stOpc w == 0x29) || decide (stC w ≤ 1))) && passOk q &&
    (q.sumScope == 0 || (decide (q.sumStage < q.stages.length) && stP2 (q.stages.getD q.sumStage 0) == (q.passes == 2)))

/-- Check 3 of Table 6.11: bindings agree with Table 6.6. -/
def vuBindOk (body : Nat) (q : VuPlan) : Bool :=
  bindIs (bindIn body 0) true (if q.bond then 1 else 0) && bindIs (bindIn body 1) (q.reads 2) 0 &&
    bindIs (bindIn body 2) (q.reads 3) 0 && bindIs (bindIn body 3) q.usesLen 1 &&
    bindIs (bindOut body 0) (!(q.outFmt == 0xE)) 0 && bindIs (bindOut body 1) q.hasOut1 0 &&
    bindIs (bindOut body 2) (!(q.rowOut == 0) || fmtMx q.outFmt) 0 && bindIs (bindOut body 3) (!(q.sumScope == 0)) 1

/-- Tiles a two-pass QUEUE chain captures (R153). -/
def capTiles (q : VuPlan) : Nat :=
  if q.passes = 2 ∧ !q.bond then
    let x1 := q.stages.any fun w => stP2 w && (stSources w).contains 2
    q.tiles * (if x1 then 2 else 1)
  else 0

/-- The first failing check of Table 6.11 as (fault code, cause, NEED). A zero extent needs no register (R160). -/
def vuIssueCheck (body : Nat) (ext : List Nat) (l : Option LntLatch) : Option (Nat × Nat × Nat) :=
  let q := vuPlan body ext l
  let big := [q.m, q.n, q.p].find? (fun x => decide (1048576 < x))
  let rowNeed := if (q.reduces || !(q.rowOut == 0)) && !q.empty then ceilDiv q.rows 1024 else 0
  let vecNeed := if q.reads 3 && !q.empty then ceilDiv q.vecLen 1024 else 0
  let capNeed := if q.empty then 0 else capTiles q
  let need := 2 * max q.rowN rowNeed + max q.vecN vecNeed + max q.capN capNeed
  if !(vuFormatOk body q) then some (0x0203, 1, 0)
  else if !(vuFmtOk 0 q.in0Fmt && vuFmtOk 0 q.in1Fmt && vuFmtOk 1 q.outFmt && vuFmtOk 2 q.out1Fmt && (!q.bond || q.in0Fmt == 9) &&
      (!(fmtMx q.outFmt) || q.rowOut == 0)) then
    some (0x0203, 2, 0)
  else if !(vuBindOk body q) then some (0x0203, 3, 0)
  else if big.isSome then some (0x0201, 4, stopAt 0xFFFF_FFFF (big.getD 0))
  else if 32 < q.regBase + 2 * q.rowN + q.vecN + q.capN ∨ q.rowN < rowNeed ∨ q.vecN < vecNeed ∨ q.capN < capNeed then
    some (0x0201, 7, need)
  else none

end Sys2Proof.Machine
end

