-- ==== Sys2Proof/Machine/Stowage.lean ====
section
/-! DEFINITION. What a stowage unit's descriptor says (R258..R277): the resolved plan, the bursts and their deal units, the
tokens of a unit of data, and the issue checks. The accesses themselves stand in Machine/Ops.lean and Machine/Firing.lean. -/
namespace Sys2Proof.Machine

/-- The 80-byte SU descriptor of a record's body. -/
def suDesc (body : Nat) : Nat := bits body 767 128

/-- Output k, 0..7, of an SU record: OUT0..OUT3 of the binding block, then XOUT4..XOUT7 (R267, R270). -/
def suOut (body k : Nat) : Nat :=
  if k < 4 then bindOut body k else bits (suDesc body) (0x40 * 8 + 16 * (k - 4) + 15) (0x40 * 8 + 16 * (k - 4))

/-- A resolved SU descriptor (Tables 11.4, 11.5). -/
structure SuPlan where
  mode : Nat
  space : Nat
  fmt : Nat
  blk : Bool
  bcol : Bool
  trans : Bool
  half : Bool
  cache : Bool
  prio : Nat
  markV : Bool
  trig : Bool
  base : Nat
  rows : Nat
  cols : Nat
  rowStride : Nat
  regionOff : Nat
  burstStride : Nat
  leadIn : Nat
  real : Nat
  runOut : Nat
  blockCount : Nat
  blockStep : Nat
  ring : Nat
  deriving DecidableEq, Repr

/-- The resolved plan of an SU record. -/
def suPlan (body : Nat) (ext : List Nat) (l : Option LntLatch) : SuPlan :=
  let d := suDesc body
  { mode := bits d 3 0, space := bits d 7 4, fmt := resolveFmt l (bits d 11 8), blk := bit d 12, bcol := bit d 13
    trans := bit d 14, half := bit d 15, cache := bit d 16, prio := bits d 18 17, markV := bit d 19, trig := bit d 20
    base := bits d 127 64
    rows := resolveDim ext (bits d 159 128), cols := resolveDim ext (bits d 191 160)
    rowStride := bits d 223 192, regionOff := bits d 255 224, burstStride := bits d 319 256
    leadIn := resolveDim ext (bits d 351 320), real := resolveDim ext (bits d 383 352)
    runOut := resolveDim ext (bits d 415 384)
    blockCount := bits d 431 416, blockStep := bits d 447 432, ring := bits d 479 448 }

namespace SuPlan

/-- Bits of an element in memory. -/
def w (q : SuPlan) : Nat := fmtBits q.fmt
/-- Bits of an element in a token: HALF sends 16 of 32 (R272). -/
def wTok (q : SuPlan) : Nat := if q.half then 16 else q.w
/-- Whether firing `n` is real, and which real burst it is (R269). -/
def realBurst (q : SuPlan) (n : Nat) : Option Nat :=
  if q.leadIn ≤ n ∧ n < q.leadIn + q.real then some (n - q.leadIn) else none
/-- The factor of the address of real burst `j`: j mod RING, or j (R269). -/
def turn (q : SuPlan) (j : Nat) : Nat := if q.ring = 0 then j else j % q.ring
/-- Where real burst `j` starts (R269). -/
def start (q : SuPlan) (j : Nat) : Nat := q.base + q.turn j * q.burstStride
/-- Blocks across and down in BLOCK32 layout. -/
def bDown (q : SuPlan) : Nat := ceilDiv q.rows 32
/-- Blocks across. -/
def bAcross (q : SuPlan) : Nat := ceilDiv q.cols 32
/-- Bytes of a row in memory. -/
def rowBytes (q : SuPlan) : Nat := ceilDiv (q.cols * q.w) 8
/-- Bytes of a 32 × 32 block in memory. -/
def blockBytes (q : SuPlan) : Nat := 128 * q.w
/-- Whether a resolved ROWS or COLS is 0 (R274). -/
def empty (q : SuPlan) : Bool := q.rows == 0 || q.cols == 0

/-- The pieces of memory of real burst `j` in the order they are read: address and bytes (R270). -/
def pieces (q : SuPlan) (j : Nat) : List (Nat × Nat) :=
  if q.blk then
    (List.range (q.bDown * q.bAcross)).map fun i =>
      let b := if q.bcol then i % q.bDown * q.bAcross + i / q.bDown else i
      (q.start j + b * q.blockBytes, q.blockBytes)
  else (List.range q.rows).map fun i => (q.start j + i * q.rowStride, q.rowBytes)

/-- The tokens of one deal unit of `n` elements: HALF keeps bits [31:16] of each (R272), the last token zero-padded. -/
def unitTokens (q : SuPlan) (n raw : Nat) : List Nat :=
  if q.half then tokens512 (16 * n) (packFields 16 ((fields 32 n raw).map (· / 2 ^ 16)))
  else tokens512 (q.w * n) (raw % 2 ^ (q.w * n))

/-- The deal units of a LOAD burst as tokens, from its pieces' contents in order (R270, R272). -/
def dealUnits (q : SuPlan) (raws : List Nat) : List (List Nat) :=
  if q.blk then raws.map (q.unitTokens 1024)
  else if q.trans then
    let m := raws.map fun r => (fields q.w q.cols r).map fun e => if q.half then e / 2 ^ 16 else e
    (List.range q.cols).map fun c => tokens512 (q.wTok * q.rows) (packFields q.wTok (m.map fun r => r.getD c 0))
  else raws.map (q.unitTokens q.cols)

/-- Tokens of one deal unit of a STORE. -/
def storeUnitTokens (q : SuPlan) : Nat := if q.blk then ceilDiv (1024 * q.w) 512 else ceilDiv (q.cols * q.w) 512

end SuPlan

/-- The deal: unit i goes to bound output i mod b (R270). -/
def deal {α : Type} (b k : Nat) (xs : List α) : List α :=
  ((List.range xs.length).zip xs).filterMap fun ix => if ix.1 % b = k then some ix.2 else none

/-- Check 3 of Table 11.7: bindings agree with Table 11.6. A DELAY binds output k exactly where it binds input k, since the burst taken
from INk leaves on output k (R273; DEDUCED, assumption 83). -/
def suBindOk (body : Nat) (q : SuPlan) : Bool :=
  let ins := (List.range 4).map (bindIn body)
  let outs := (List.range 8).map (suOut body)
  let nIn := (ins.filter bindValid).length
  let vecOuts := outs.all fun w => !(bindValid w) || bindNet w == 0
  let vecIns := ins.all fun w => !(bindValid w) || bindNet w == 0
  if q.mode = 1 ∨ q.mode = 4 then
    bindValid (outs.getD 0 0) && vecOuts &&
      (if q.trig then bindValid (ins.getD 0 0) && decide (bindNet (ins.getD 0 0) ≤ 1) && nIn == 1 else nIn == 0)
  else if q.mode = 3 then
    bindValid (ins.getD 0 0) && vecIns && vecOuts && (outs.take 4).map bindValid == ins.map bindValid &&
      ((outs.drop 4).all fun w => !(bindValid w))
  else
    bindValid (ins.getD 0 0) && vecIns && ((outs.drop 1).all fun w => !(bindValid w)) &&
      (!(bindValid (outs.getD 0 0)) || bindNet (outs.getD 0 0) == 1)

/-- Check 1 of Table 11.7. -/
def suFormatOk (body : Nat) (q : SuPlan) : Bool :=
  let d := suDesc body
  let ws := q.mode == 4 || q.mode == 5
  decide (1 ≤ q.mode ∧ q.mode ≤ 5) && decide (q.space ≤ 2) && vuFmtDefined (bits d 11 8) && bits d 29 21 == 0 &&
    bits d 63 44 == 0 && bits d 511 480 == 0 && bits d 639 576 == 0 && ((List.range 4).all fun k => bits (suOut body (4 + k)) 12 8 == 0) &&
    (!ws || bits d 127 81 == 0) &&
    dimOk (bits d 159 128) && dimOk (bits d 191 160) && dimOk (bits d 351 320) && dimOk (bits d 383 352) &&
    dimOk (bits d 415 384) && (!q.trans || (q.mode == 1 && !q.blk)) && (!q.bcol || q.blk) &&
    (!q.half || (bits d 11 8 == 0xA && (q.mode == 1 || q.mode == 4))) &&
    (!ws || (q.space == 0 && !(q.regionOff == 0) && q.regionOff % 4096 == 0 && decide (1 ≤ q.blockCount))) &&
    (!(q.mode == 3) || (decide (1 ≤ q.ring) && decide (q.space ≤ 1)))

/-- The first failing check of Table 11.7 as (fault code, cause, NEED). -/
def suIssueCheck (body : Nat) (ext : List Nat) (l : Option LntLatch) : Option (Nat × Nat × Nat) :=
  let q := suPlan body ext l
  let big := [q.rows, q.cols, q.leadIn, q.real, q.runOut].find? (fun x => decide (1048576 < x))
  if !(suFormatOk body q) then some (0x0203, 1, 0)
  else if q.fmt = 0xE then some (0x0203, 2, 0)
  else if !(suBindOk body q) then some (0x0203, 3, 0)
  else if big.isSome then some (0x0201, 4, stopAt 0xFFFF_FFFF (big.getD 0))
  else none

end Sys2Proof.Machine
end

