-- ==== Sys2Proof/Machine/MemOps.lean ====
section
/-! DEFINITION. HBM addresses, channels, grants and stowage (R260..R264, R288, R353), and accesses to HBM through the stream-cache
slices (R282, R283). -/
namespace Sys2Proof.Machine

/-- Channel of an HBM address (R260). -/
def adChan (a : Nat) : Nat := a / 2 ^ 32 % 1024
/-- Offset of an HBM address. -/
def adOff (a : Nat) : Nat := a % 2 ^ 32
/-- The bytes of a channel: offsets from 0xA000_0000 up do not exist. -/
def chanBytes : Nat := 0xA000_0000
/-- Whether a range lies within its channel (R260). -/
def rangeOk (a len : Nat) : Bool := decide (a < 2 ^ 42 ∧ adOff a + len ≤ chanBytes)

/-- The register of channel `c` (HC_CH). -/
def chReg (c : Nat) : Nat := pgHc (c / 32) + 0x100 + 8 * (c % 32)

/-- STATE of HC_CH: 0 LIVE, 1 FENCED, 2 MAPPED_OUT, 3 DOWN (Table 12.2). -/
def State.chState (s : State) (c : Nat) : Nat := s.fld (chReg c) 63 62

/-- Whether a channel is LIVE. -/
def State.chLive (s : State) (c : Nat) : Bool := s.chState c == 0

/-- The home stack of each logical Yard (Table 11.2). -/
def homeStack : List Nat :=
  [0, 1, 2, 3, 4, 5, 6, 7] ++ [0, 1, 2, 3, 4, 5, 6, 7] ++ [29, 29, 31, 31, 8, 8, 10, 10] ++ [28, 28, 30, 30, 9, 9, 11, 11] ++
    [27, 27, 25, 25, 14, 14, 12, 12] ++ [26, 26, 24, 24, 15, 15, 13, 13] ++ [23, 22, 21, 20, 19, 18, 17, 16] ++
    [23, 22, 21, 20, 19, 18, 17, 16]

/-- The home half of each logical Yard: 0 a, 1 b (Table 11.2). -/
def homeHalf (y : Nat) : Nat :=
  match y / 8 with
  | 0 => 0 | 1 => 1 | 6 => 1 | 7 => 0 | _ => y % 2

/-- The first home channel of logical Yard `y` (R262). -/
def homeFirst (y : Nat) : Nat := 32 * homeStack.getD y 0 + 16 * homeHalf y

/-- The logical Yard whose home set holds channel `c` (R262). -/
def homeYard (c : Nat) : Option Nat := firstBelow 64 fun y => homeFirst y == c / 16 * 16

/-- The home channels of Yard `y`. -/
def homeChans (y : Nat) : List Nat := (List.range 16).map (homeFirst y + ·)

/-- Whether partition `p`'s grant includes channel `c` (R353, Table 15.1): a home channel of its Yards, or a claim. -/
def State.granted (s : State) (p c : Nat) : Bool :=
  s.flag (pgPart p + 0x300 + 8 * (c / 64)) (c % 64) ||
    (match homeYard c with
     | some y => s.flag (pgPart p + 0x108) y
     | none => false)

/-- Whether a range lies within a LIVE channel granted to partition `p`. -/
def State.reach (s : State) (p a len : Nat) : Bool := rangeOk a len && s.granted p (adChan a) && s.chLive (adChan a)

/-! ### Stowage (R263, R264) -/

/-- A home channel that has not been mapped out: it counts toward stowage while LIVE (R263, R288). -/
def State.liveHome (s : State) (y : Nat) : List Nat := (homeChans y).filter s.chLive

/-- BASE of YD_STOW in bytes. -/
def State.stowBase (s : State) (y : Nat) : Nat := s.fld (pgYard y + 0x188) 5 0 * 0x400_0000

/-- The stowage capacity of Yard `y` in bytes. -/
def State.stowCap (s : State) (y : Nat) : Nat := (s.liveHome y).length * (chanBytes - s.stowBase y)

/-- The HBM address of stowage offset `o` over the channels `chs` from `base` (R263). -/
def stowAddr (chs : List Nat) (base o : Nat) : Nat :=
  let n := chs.length
  let k := o / 4096
  chs.getD (k % n) 0 * 2 ^ 32 + base + k / n * 4096 + o % 4096

/-- The images loaded in Yard `y` that hold stowage, with their extents. -/
def State.stowExtents (s : State) (y : Nat) : List (Nat × Nat) :=
  (s.images.flatMap (·.res)).filterMap fun r => if r.yard = y ∧ 0 < r.stowLen then some (r.stowBase, r.stowLen) else none

/-- The end of the highest loaded stowage extent of Yard `y`. -/
def State.stowEnd (s : State) (y : Nat) : Nat := (s.stowExtents y).foldl (fun m e => max m (e.1 + ceilDiv e.2 4096 * 4096)) 0

/-! ### Slices (R282, R283, R286) -/

/-- A slice. -/
def State.slice (s : State) (h : Nat) : SliceState := Tab.get {} s.slices h

/-- A slice replaced. -/
def State.setSlice (s : State) (h : Nat) (x : SliceState) : State := { s with slices := Tab.set {} s.slices h x }

/-- A channel controller. -/
def State.chan (s : State) (c : Nat) : ChanState := Tab.get {} s.chans c

/-- A channel controller replaced. -/
def State.setChan (s : State) (c : Nat) (x : ChanState) : State := { s with chans := Tab.set {} s.chans c x }

/-- The stack of line `l`. -/
def lineStack (l : Nat) : Nat := adChan (l * 4096) / 32

/-- The set of line `l` (R282). -/
def lineSet (l : Nat) : Nat := xorN (l % 512) (adChan (l * 4096) % 32 * 16)

/-- The lines of a range. -/
def linesOf (a len : Nat) : List Nat :=
  if len = 0 then [] else (List.range ((a + len - 1) / 4096 - a / 4096 + 1)).map (a / 4096 + ·)

/-- Whether slice lines hold line `l`. -/
def SliceState.holds (x : SliceState) (l : Nat) : Bool := x.lines.any (·.line == l)

/-- Line `l` marked as the last used. -/
def SliceState.use (x : SliceState) (l : Nat) : SliceState :=
  { x with uses := x.uses + 1, lines := x.lines.map fun e => if e.line = l then { e with used := x.uses + 1 } else e }

/-- A range cut at 4 KB lines. -/
def cutLines (a len : Nat) : List (Nat × Nat) :=
  (linesOf a len).map fun l =>
    let lo := max a (l * 4096)
    (lo, min (a + len) ((l + 1) * 4096) - lo)

/-- What a request covers within one line: its first byte, its bytes, and the end of its last. -/
structure LineUse where
  lo : Nat
  len : Nat
  hi : Nat
  deriving DecidableEq, Repr

/-- Ranges that follow one another in one line are one request (R265: 4 KB each). -/
def joinLines : List (Nat × Nat) → List LineUse
  | [] => []
  | a :: as => match joinLines as with
    | [] => [{ lo := a.1, len := a.2, hi := a.1 + a.2 }]
    | b :: bs =>
      if a.1 / 4096 = b.lo / 4096 then { lo := min a.1 b.lo, len := a.2 + b.len, hi := max (a.1 + a.2) b.hi } :: bs
      else { lo := a.1, len := a.2, hi := a.1 + a.2 } :: b :: bs

/-! ### Requests to the slices (R265, R266, R283) -/

/-- A request joins the accesses of its slice. -/
def State.toSlice (s : State) (r : MemReq) : State :=
  let h := lineStack r.line
  let x := s.slice h
  s.setSlice h { x with acc := x.acc ++ [r] }

/-- The request of a requester other than a firing unit for one range within a line. -/
def HbmUser.req (w : HbmUser) (y key epoch : Nat) (write : Bool) (a : LineUse) : MemReq :=
  { y := y, u := key, part := w.part, cls := w.cls, line := a.lo / 4096, len := a.len, write := write, cache := false, epoch := epoch
    lo := a.lo % 4096, hi := a.hi - a.lo / 4096 * 4096, job := w.job }

/-- Requests for whose answers nothing waits. -/
def State.post (s : State) (w : HbmUser) (write : Bool) (rs : List (Nat × Nat)) : State :=
  (joinLines rs).foldl (fun (t : State) a => t.toSlice (w.req 65 0 0 write a)) s

/-- Read requests for whose answers the requester `key` waits. -/
def State.ask (s : State) (key : Nat) (w : HbmUser) (rs : List (Nat × Nat)) : State :=
  let js := joinLines rs
  let (n, s1) := s.fresh
  js.foldl (fun (t : State) a => t.toSlice (w.req 64 key n false a)) { s1 with askers := Tab.put s1.askers key (n, js.length) }

/-- The answers a requester waits for have come. -/
def State.served (s : State) (key : Nat) : Bool := match Tab.find? s.askers key with
  | some e => e.2 == 0
  | none => true

/-- A requester no longer waits. -/
def State.dropAsk (s : State) (key : Nat) : State := { s with askers := Tab.del s.askers key }

/-- A requester that can go on only with what it reads: the first time it asks, later it goes on if the answers have come. -/
def State.readNow (s : State) (key : Nat) (w : HbmUser) (rs : List (Nat × Nat)) : Bool × State :=
  match Tab.find? s.askers key with
  | none => if rs.isEmpty then (true, s) else (false, s.ask key w rs)
  | some e => if e.2 = 0 then (true, s.dropAsk key) else (false, s)

/-- Keys of requesters: an XFER or a BAR2 read by its number, a running descriptor by its engine and INDEX, and a Yard core, a ring or a
partition's load. -/
inductive Asker
  | xfer (n : Nat)
  | bar (n : Nat)
  | run (d index : Nat)
  | core (y : Nat)
  | ring (j : Nat)
  | load (p : Nat)
  deriving DecidableEq, Repr

/-- The key of a requester. -/
def askKey : Asker → Nat
  | .xfer n => 4 * n
  | .bar n => 4 * n + 1
  | .run d i => 4 * (512 * d + i) + 2
  | .core y => 4 * y + 3
  | .ring j => 4 * (64 + j) + 3
  | .load p => 4 * (80 + p) + 3

/-- A BAR2 read all of whose requests are answered completes with its data (R382). -/
def State.barDone (s : State) (key : Nat) : State :=
  match Tab.find? s.barReads key with
  | none => s
  | some x =>
    ({ s with barReads := Tab.del s.barReads key }.dropAsk key).emit (.readData x.port (leNat (s.hbm.read x.addr x.len)))

/-- HBM read by a requester that does not wait for the answer: the bytes, and the requests (assumption 23). -/
def State.hbmRead (s : State) (w : HbmUser) (a len : Nat) : List Byte × State := (s.hbm.read a len, s.post w false (cutLines a len))

/-- HBM written: the bytes at once, and the requests (assumption 23). -/
def State.hbmWrite (s : State) (w : HbmUser) (a : Nat) (bs : List Byte) : State :=
  { s with hbm := s.hbm.write a bs }.post w true (cutLines a bs.length)

/-- A line read in one act, as the copies of a map-out and the patrol scrub read it: a hit, a merge or a miss that does not fill. -/
def State.readLine (s : State) (l : Nat) : State :=
  let h := lineStack l
  let x := s.slice h
  if x.holds l then (s.setSlice h (x.use l)).bump (pgSlice h + 0x100) 1
  else if x.fills.any (·.req.line == l) then s.bump (pgSlice h + 0x110) 1
  else s.bump (pgSlice h + 0x108) 1

/-- A line written in one act: it updates the line where the slice holds it (R283). -/
def State.writeLine (s : State) (l : Nat) : State :=
  let h := lineStack l
  if (s.slice h).holds l then s.bump (pgSlice h + 0x118) 1 else s

/-- The lines of a channel are invalidated (R283, R297). -/
def State.dropLines (s : State) (c : Nat) : State :=
  let h := c / 32
  let x := s.slice h
  s.setSlice h { x with lines := x.lines.filter fun e => !(adChan (e.line * 4096) == c) }

end Sys2Proof.Machine
end

