-- ==== Sys2Proof/Machine/SlotOps.lean ====
section
/-! DEFINITION. What the slots and the firing of a unit hold (R84, R91, R132): the active record, what it resolves with, the bursts that
have arrived, the finished-tile queue (R150), and the sequencing of slots (R91). -/
namespace Sys2Proof.Machine

/-! ### Slots of firing units -/

/-- The slot `k` of a unit. -/
def UnitState.slot (x : UnitState) (k : Nat) : Slot := Tab.get {} x.slots k

/-- That slot replaced. -/
def UnitState.setSlot (x : UnitState) (k : Nat) (v : Slot) : UnitState := { x with slots := Tab.set {} x.slots k v }

/-- The record of the active slot. -/
def UnitState.activeRec (x : UnitState) : Option CfgRec := x.active.bind fun k => (x.slot k).record

/-- The job of the active slot. -/
def UnitState.activeJob (x : UnitState) : Nat := match x.active with
  | some k => (x.slot k).job
  | none => 0

/-- The key of a section of a job in what a unit remembers of SECTION_STARTs. -/
def secKey (job num : Nat) : Nat := 16 * num + job

/-- The section instance a record of a unit runs in. -/
def UnitState.secOf (x : UnitState) (job : Nat) (r : CfgRec) : Option Section := (Tab.find? x.secs (secKey job r.section_)).bind (·.sec)

/-- The Layer Numerics Table entry a record names (LNT_IDX of Tables 5.2, 6.1, 11.6). -/
def lntIdx (u body : Nat) : Nat :=
  if u < 16 then bits (muDesc body) 61 48 else if u < 20 then bits (vuDesc body) 43 30 else bits (suDesc body) 43 30

/-- The latched values a record resolves with (R132). -/
def Section.latch (x : Section) (u body : Nat) : Option LntLatch := x.latched.find? (·.entry == lntIdx u body)

/-- Extents and latched values the active slot of a unit resolves with. -/
def UnitState.activeSet_ (x : UnitState) (u : Nat) (r : CfgRec) : List Nat × Option LntLatch :=
  match x.secOf x.activeJob r with
  | some c => (c.ext, c.latch u r.body)
  | none => ([], none)

/-! ### The firing under way -/

/-- Whether a burst is whole: its last token has LAST. -/
def burstDone (ts : List Token) : Bool := match ts.getLast? with
  | some t => t.last
  | none => false

/-- The tokens of position `p`. -/
def Firing.burst (f : Firing) (p : Nat) : List Token := Tab.get [] f.got p

/-- Whether a firing is on a MARK (R69). -/
def Firing.isMark (f : Firing) : Bool := f.uses.any fun p => (f.burst p).any fun t => t.kind == 2

/-- Whether burst `p` holds a MARK. -/
def Firing.markAt (f : Firing) (p : Nat) : Bool := (f.burst p).any fun t => t.kind == 2

/-- The tiles of IN0 that the lanes of a VU have taken of those that arrived (R150): they go on while the partner's tiles arrive, once the
vector and the lengths are whole (DESIGN CHOICE, assumption 174). -/
def VuPlan.laneTiles (q : VuPlan) (got : Tab (List Token)) : Nat :=
  let burst := fun (p : Nat) => Tab.get [] got p
  if (q.reads 3 && !(burstDone (burst 2))) || (q.usesLen && !(burstDone (burst 3))) then 0
  else if q.reads 2 && !(burstDone (burst 1)) then (burst 1).length / (2 * fmtBits q.in1Fmt)
  else q.tiles

/-- The tokens of IN0's burst that a VU in QUEUE mode takes in all, so that its finished-tile queue holds at most 16 tiles (R150); none
where nothing bounds them. -/
def VuPlan.queueEnd (q : VuPlan) (got : Tab (List Token)) : Option Nat :=
  if q.bond ∨ q.tiles ≤ q.laneTiles got then none else some ((q.laneTiles got + 16) * (2 * fmtBits q.in0Fmt))

/-- Tiles in the finished-tile queue (FTQ of Table 6.12). -/
def VuPlan.queueTiles (q : VuPlan) (got : Tab (List Token)) : Nat :=
  if q.bond then 0 else (Tab.get [] got 0).length / (2 * fmtBits q.in0Fmt) - q.laneTiles got

/-- The tokens that the firing of unit `u` takes at position `p` in all, none where nothing bounds them. -/
def UnitState.takeEnd (x : UnitState) (u p : Nat) (got : Tab (List Token)) : Option Nat :=
  if p = 0 ∧ 16 ≤ u ∧ u < 20 then
    x.activeRec.bind fun r =>
      let (ext, l) := x.activeSet_ u r
      (vuPlan r.body ext l).queueEnd got
  else none

/-- Whether another live slot's record shares tile registers with the chain `q` of slot `k` (R141). -/
def UnitState.regClash (x : UnitState) (k : Nat) (q : VuPlan) : Bool :=
  let top := fun (p : VuPlan) => p.regBase + 2 * p.rowN + p.vecN + p.capN
  (List.range 8).any fun j => decide (j ≠ k) && (x.slot j).live && (match (x.slot j).record with
    | some r =>
      let p := vuPlan r.body [] none
      decide (p.regBase < top q ∧ q.regBase < top p ∧ p.regBase < top p ∧ q.regBase < top q)
    | none => false)

/-! ### Sequencing of slots (R91) -/

/-- n[s] of a slot's section. -/
def UnitState.iters (x : UnitState) (k : Nat) : Nat :=
  match (x.slot k).record with
  | some r => ((Tab.find? x.secs (secKey (x.slot k).job r.section_)).map (·.n)).getD 0
  | none => 0

/-- finish(a): the slot is no longer live, and a terminal slot sends SLOT_DONE. -/
def UnitState.finish (x : UnitState) (k : Nat) : UnitState :=
  let v := x.slot k
  let x1 := x.setSlot k { v with live := false }
  match v.record with
  | some r =>
    if r.terminal then
      let tb := ((Tab.find? x.secs (secKey v.job r.section_)).map (·.tagBase)).getD 0
      { x1 with outbox := x1.outbox ++ [{ out := 0, lane := .halyard, tok := ctrlTok v.job tb 0xFF 0x15 (fieldAt 32 r.section_) }] }
    else x1
  | none => x1

/-- activate(q) and leave(), which call each other at most once for each live slot. -/
def UnitState.activate (x : UnitState) (q : Nat) : (n : Nat) → UnitState
  | 0 => x
  | n + 1 =>
    let v := x.slot q
    if !v.live then { x with active := none }
    else match v.record with
      | none => { x with activating := some q }
      | some r =>
        let x1 := { x with active := some q, drops := 0, altSecond := false }
        if r.quota ≠ 0 ∧ x1.iters q = 0 then
          let x2 := { x1.finish q with active := none }
          match x2.pend with
          | some p => ({ x2 with pend := none }).activate p n
          | none => if r.next ≠ 0xFF then x2.activate r.next n else x2
        else x1

/-- leave(); a DELAY slot is left only when its ring is empty (R273). -/
def UnitState.leave (x : UnitState) : UnitState :=
  if !x.ring.isEmpty then { x with leaving := true }
  else
  let next := match x.activeRec with
    | some r => r.next
    | none => 0xFF
  let x1 := { x with active := none, leaving := false, ringNext := 0 }
  match x1.pend with
  | some p => ({ x1 with pend := none }).activate p 16
  | none => if next ≠ 0xFF then x1.activate next 16 else x1

/-- After each firing of the active slot. -/
def UnitState.afterFiring (x : UnitState) : UnitState :=
  match x.active with
  | none => x
  | some a =>
    let v := x.slot a
    match v.record with
    | none => x
    | some r =>
      let fired := v.fired + 1
      let x1 := x.setSlot a { v with fired := fired }
      let total := r.quota * x1.iters a
      if r.quota = 0 then x1
      else if r.perIter then
        if fired % r.quota = 0 then (if fired = total then x1.finish a else x1).leave else x1
      else if fired = total then (x1.finish a).leave else x1

/-- SECTION_END takes effect (R91): every slot of the section is no longer live, and an active one leaves. A slot that waits for the REEF_CLOSE
that fills it waits no more (DESIGN CHOICE, assumption 168). -/
def UnitState.endSection (x : UnitState) (key : Nat) : UnitState :=
  let hit := fun (k : Option Nat) => match k with
    | some k => (x.slot k).sec == key
    | none => false
  let was := hit x.active
  let x1 := { x with slots := x.slots.map fun e => if e.2.sec = key then (e.1, { e.2 with live := false }) else e
                     secs := Tab.del x.secs key, endWait := none
                     activating := if hit x.activating then none else x.activating }
  if was then x1.leave
  else if hit x.activating then ({ x1 with active := none }).leave else x1

end Sys2Proof.Machine
end

