-- ==== Sys2Proof/Machine/YcOps.lean ====
section
/-! DEFINITION. Shared operations of the Yard cores: registers and CSRs (R167, R170), taking a trap (R171), the save frame
(R186..R188), notifications (R173, R178), and a context's exceptions and blocking. -/
namespace Sys2Proof.Machine

/-- The Yard core of `y`. -/
def State.core (s : State) (y : Nat) : YcCore := Tab.get {} s.cores y

/-- That core replaced. -/
def State.setCore (s : State) (y : Nat) (x : YcCore) : State := { s with cores := Tab.set {} s.cores y x }

/-- The context of job `j` in Yard `y`. -/
def State.ctx (s : State) (y j : Nat) : Option YcCtx := Tab.find? (s.core y).ctxs j

/-- That context replaced. -/
def State.setCtx (s : State) (y j : Nat) (c : YcCtx) : State :=
  let x := s.core y
  s.setCore y { x with ctxs := Tab.put x.ctxs j c }

/-- The local memory of Yard `y`. -/
def State.local_ (s : State) (y : Nat) : Mem := memOf s.ycMem s.sramEpoch y

/-- That memory replaced. -/
def State.setLocal (s : State) (y : Nat) (m : Mem) : State := { s with ycMem := setMem s.ycMem s.sramEpoch y m }

/-! ### Registers -/

/-- g register `i`; g0 reads 0 (R167). -/
def YcCtx.get (c : YcCtx) (i : Nat) : Nat := if i = 0 then 0 else (Tab.get 0 c.g i).toNat

/-- g register `i` written modulo 2^64; a write to g0 is ignored (R167). -/
def YcCtx.put (c : YcCtx) (i v : Nat) : YcCtx := if i = 0 then c else { c with g := Tab.set 0 c.g i (toW (v % 2 ^ 64)) }

/-- The value of CSR `n` (Table 7.4); an undefined number reads 0 (R170). -/
def csrRead (s : State) (y j : Nat) (c : YcCtx) (n : Nat) : Nat :=
  match n with
  | 0x000 => j
  | 0x001 => y + ((s.partOfYard y).getD 0) * 2 ^ 8
  | 0x002 => s.now
  | 0x003 => c.instret
  | 0x008 => c.status | 0x009 => c.trapVec | 0x00A => c.trapPc | 0x00B => c.trapCause | 0x00C => c.trapVal | 0x00D => c.scratch
  | 0x010 => if c.inValid then 2 ^ 63 + c.inHdr else c.inHdr
  | 0x011 => c.xfers.length
  | 0x012 => c.dataBase | 0x013 => c.dataLen
  | _ => 0

/-- A write of a CSR: one that is read-only or undefined is ignored (R170). STATUS holds its two bits; DATA_BASE and DATA_LEN are
multiples of 256, and DATA_LEN stops at 49,152. -/
def YcCtx.csrWrite (c : YcCtx) (n v : Nat) : YcCtx :=
  match n with
  | 0x008 => { c with status := v % 4 }
  | 0x009 => { c with trapVec := v % 2 ^ 64 }
  | 0x00A => { c with trapPc := v % 2 ^ 64 }
  | 0x00D => { c with scratch := v % 2 ^ 64 }
  | 0x012 => { c with dataBase := v % 2 ^ 64 / 256 * 256 }
  | 0x013 => { c with dataLen := min 49152 (v % 2 ^ 64 / 256 * 256) }
  | _ => c

/-- IN_TRAP of STATUS. -/
def YcCtx.inTrap (c : YcCtx) : Bool := bit c.status 0

/-- A trap is taken (R171): TRAP_PC, TRAP_CAUSE, TRAP_VAL and IN_TRAP are set, and the context continues at TRAP_VEC. -/
def YcCtx.trap (c : YcCtx) (cause val : Nat) : YcCtx :=
  { c with trapPc := c.pc, trapCause := cause, trapVal := val, status := setBit c.status 0 true, pc := c.trapVec % 2 ^ 18 }

/-- A cause-10 trap becomes due between instructions (R171, R180): with no handler it does nothing; in a trap it is held. -/
def YcCtx.trap10 (c : YcCtx) (code : Nat) : YcCtx :=
  if c.trapVec = 0 then c else if c.inTrap then { c with held10 := some code } else c.trap 10 code

/-! ### The inbound queue -/

/-- An entry at the end of the inbound queue of job `j`, which holds 128 (R173); one that finds it full is dropped (DESIGN CHOICE,
assumption 175). -/
def State.enqueueIn (s : State) (y j : Nat) (t : InTok) : State :=
  let x := s.core y
  let q := Tab.get [] x.inbound j
  if 128 ≤ q.length then s else s.setCore y { x with inbound := Tab.set [] x.inbound j (q ++ [t]) }

/-- A device notification (Table 7.6): halyard channel 0xFF, with OPCODE, OPERAND and the header TAG. -/
def State.notifyCore (s : State) (y j tag opc operand : Nat) : State :=
  s.enqueueIn y j { net := 1, tok := ctrlTok j tag 0xFF opc operand, notice := true }

/-- ISSUE_RESULT (0x32) for a record of a Yard core (R177). -/
def State.issueResult (s : State) (r : StartRec) (code : Nat) : State :=
  match r.src with
  | .core y => s.notifyCore y r.job r.tagBase 0x32 (fieldAt 32 r.section_ + fieldAt 16 code + r.rig)
  | .ring _ _ => s

/-! ### The save frame -/

/-- Where the frame of job `j` in Yard `y` lies (R187). -/
def State.frameAddr (s : State) (y j : Nat) : Nat :=
  let p := (s.partOfYard y).getD 0
  s.fld (pgPart p + 0x110) 41 12 * 4096 + (y * 16 + j) * 0x10000

/-- The traffic of save and resume frames: P0 (Table 11.3). -/
def State.frameUser (s : State) (y j : Nat) : HbmUser := { part := (s.partOfYard y).getD 8, cls := 0, job := j }

/-- Whether the save area of a partition is usable (R355). -/
def State.saveOk (s : State) (p : Nat) : Bool :=
  let b := s.fld (pgPart p + 0x110) 41 12 * 4096
  s.reach p b 0x400_0000

/-- The bytes of a frame (Table 7.8) with VALID as given. -/
def frameBytesOf (s : State) (y j : Nat) (c : YcCtx) (reason seq : Nat) (valid : Bool) : List Byte :=
  let w := leBytes 8
  let xf := fun i => match c.xfers[i]? with
    | some x => w x.loc ++ w x.hbm ++ w x.left ++ w (1 + 2 * b2n x.toHbm)
    | none => leBytes 32 0
  w (fieldAt 63 (b2n valid) + fieldAt 56 j + fieldAt 48 y + fieldAt 32 1 + seq) ++ w c.pc ++ w s.now ++ w reason ++ leBytes 32 0 ++
    (List.range 4).flatMap xf ++ leBytes 64 0 ++
    (List.range 32).flatMap (fun i => w (c.get i)) ++ (List.range 64).flatMap (fun n => w (csrRead s y j c n)) ++
    (s.local_ y).read c.dataBase c.dataLen

/-- The first `n` bytes of an XFER are copied (R179). -/
def State.xferBytes (s : State) (y : Nat) (x : Xfer) (n : Nat) : State :=
  if x.toHbm then { s with hbm := s.hbm.write x.hbm ((s.local_ y).read x.loc n) }
  else s.setLocal y ((s.local_ y).write x.loc (s.hbm.read x.hbm n))

/-- An XFER enters flight: its requests go to the slices at P3, and it ends when they are answered (R179, R266). -/
def State.startXfer (s : State) (y j : Nat) (x : Xfer) : Xfer × State :=
  let w : HbmUser := { part := (s.partOfYard y).getD 8, cls := 3, job := j }
  let (n, s1) := s.fresh
  let key := askKey (.xfer n)
  let js := joinLines (cutLines x.hbm x.left)
  ({ x with id := n }, js.foldl (fun (t : State) a => t.toSlice (w.req 64 key n x.toHbm a))
    { s1 with askers := Tab.put s1.askers key (n, js.length) })

/-- XFERs enter flight one after another. -/
def State.startXfers (s : State) (y j : Nat) : List Xfer → List Xfer × State
  | [] => ([], s)
  | x :: xs =>
    let (x1, s1) := s.startXfer y j x
    let (rest, s2) := s1.startXfers y j xs
    (x1 :: rest, s2)

/-- The bytes an XFER moves up to a 256-byte boundary of its HBM address, or to its end: how many is a free value (R186, assumption 24). -/
def Xfer.upTo (x : Xfer) (k : Nat) : Nat := min x.left (256 * (k % (x.left / 256 + 2)) - x.hbm % 256)

/-- Each XFER in flight stops at a boundary (R186): the remainders and the state. -/
def State.stopXfers (s : State) (y : Nat) : List Xfer → List Xfer × State
  | [] => ([], s)
  | x :: xs =>
    let (k, s1) := s.fresh
    let n := x.upTo (Config.freeWord k).toNat
    let (rest, s2) := ((s1.xferBytes y x n).dropAsk (askKey (.xfer x.id))).stopXfers y xs
    (if n = x.left then rest else { x with loc := x.loc + n, hbm := x.hbm + n, left := x.left - n } :: rest, s2)

/-- The context's state written to its frame, VALID last (R187); the frame is then where it resumes from. -/
def State.saveCtx (s : State) (y j : Nat) (c : YcCtx) (reason : Nat) : YcCtx × State :=
  let seq := (c.seq + 1) % 2 ^ 32
  let (xs, s0) := s.stopXfers y c.xfers
  let c0 := { c with xfers := xs }
  let s1 := s0.hbmWrite (s0.frameUser y j) (s0.frameAddr y j) (frameBytesOf s0 y j c0 reason seq true)
  ({ c0 with seq := seq, shownPc := c.pc, inFrame := true }, s1.bump (pgCore y + 0x118) 1)

/-- Resuming reads the frame (R188): G[1..31], the writable CSRs, DATA and the XFER remainders, which enter flight again, and the PC. The
core executes nothing until the reads are answered. -/
def State.loadCtx (s : State) (y j : Nat) (c : YcCtx) : YcCtx × State :=
  let a := s.frameAddr y j
  let rd := fun o => s.hbm.readNat (a + o) 8
  let g := (List.range 32).foldl (fun (d : YcCtx) i => d.put i (rd (0x100 + 8 * i))) { c with g := [] }
  let cs := [0x008, 0x009, 0x00A, 0x00D, 0x012, 0x013].foldl (fun (d : YcCtx) n => d.csrWrite n (rd (0x200 + 8 * n))) g
  let xs := (List.range 4).filterMap fun i =>
    let o := 0x040 + 32 * i
    if bit (rd (o + 24)) 0 then some { loc := rd o % 2 ^ 18, hbm := rd (o + 8) % 2 ^ 42, left := rd (o + 16), toHbm := bit (rd (o + 24)) 1 : Xfer }
    else none
  let s1 := s.ask (askKey (.core y)) (s.frameUser y j) (cutLines a (0x400 + cs.dataLen))
  let (xs1, s2) := s1.startXfers y j xs
  ({ cs with pc := rd 8 % 2 ^ 18, xfers := xs1, inFrame := false },
   s2.setLocal y ((s2.local_ y).write cs.dataBase (s.hbm.read (a + 0x400) cs.dataLen)))

/-! ### Leaving the core -/

/-- No context is on core `y`. -/
def State.clearCur (s : State) (y : Nat) : State := s.setCore y { s.core y with cur := none }

/-- A context leaves the core and is saved with a reason (R186): a waiting instruction is abandoned and runs again. -/
def State.preempt (s : State) (y j reason : Nat) (next : CtxSt) : State :=
  match s.ctx y j with
  | none => s
  | some c =>
    let (c1, s1) := s.saveCtx y j c reason
    let s2 := s1.setCtx y j { c1 with st := next }
    if (s2.core y).cur = some j then s2.clearCur y else s2

/-- The contexts of job `j` end in the Yards `ys` (R162). -/
def State.endCtx (s : State) (y j : Nat) : State :=
  let x := s.core y
  s.setCore y { x with ctxs := Tab.del x.ctxs j, inbound := Tab.del x.inbound j,
                       cur := if x.cur = some j then none else x.cur }

end Sys2Proof.Machine
end

