-- ==== Sys2Proof/Machine/Reset.lean ====
section
/-! DEFINITION. Resets of parts of the machine: a fabric reset (R77, R180, R209, R226, R325, R343, R373), the unload of an image
(R112, R162), a Yard reset and a partition reset (R434, R435). -/
namespace Sys2Proof.Machine

/-! ### Collective descriptors (Table 14.2) -/

/-- Fields of a 64-byte collective descriptor as a little-endian number. -/
def dOp (b : Nat) : Nat := bits b 7 0
/-- FLAGS. -/
def dFlag (b i : Nat) : Bool := bit b (8 + i)
/-- GROUP. -/
def dGroup (b : Nat) : Nat := bits b 23 16
/-- DONE_CHAN. -/
def dDone (b : Nat) : Nat := bits b 31 24
/-- SECTION. -/
def dSection (b : Nat) : Nat := bits b 47 32
/-- BUCKET. -/
def dBucket (b : Nat) : Nat := bits b 63 48
/-- IN_FMT. -/
def dInFmt (b : Nat) : Nat := bits b 67 64
/-- OUT_FMT. -/
def dOutFmt (b : Nat) : Nat := bits b 71 68
/-- LEVEL. -/
def dLevel (b : Nat) : Nat := bits b 79 76
/-- STRIPE. -/
def dStripe (b : Nat) : Nat := bits b 82 80
/-- The backup slot of child slot `i`, where VALID and BACKUP_EN (R341). -/
def dBackup (b i : Nat) : Option Nat :=
  if dFlag b 2 && bit b (96 + 24 + i) then some (bits b (96 + 3 * i + 2) (96 + 3 * i)) else none
/-- SRC. -/
def dSrc (b : Nat) : Nat := bits b 191 128
/-- DST. -/
def dDst (b : Nat) : Nat := bits b 255 192
/-- WIN_ADDR. -/
def dWin (b : Nat) : Nat := bits b 319 256
/-- LEN. -/
def dLen (b : Nat) : Nat := bits b 351 320
/-- DEADLINE_US. -/
def dDeadline (b : Nat) : Nat := bits b 383 352
/-- RING of ALG. -/
def dRing (b : Nat) : Bool := dFlag b 0

/-- Engine `d`. -/
def State.engine (s : State) (d : Nat) : EngineState := Tab.get {} s.engines d

/-- An engine replaced. -/
def State.setEngine (s : State) (d : Nat) (x : EngineState) : State := { s with engines := Tab.set {} s.engines d x }

/-- The peer slots a tree descriptor's ABORT goes to: the PARENT, each child and each backup (R343). -/
def State.abortSlots (s : State) (body : Nat) : List Nat :=
  let g := dGroup body
  let ch := s.children g
  (s.parent g).toList ++ ch ++ ch.filterMap (dBackup body)

/-- The instance key of a frame a descriptor may take: job, group, DESC (R336). -/
def frameFor (f : Frame) (job g desc : Nat) : Bool :=
  let h := f.hdr.toNat
  bits h 67 64 == job && bits h 79 72 == g &&
    (if bits h 3 0 = 3 then bits h 136 128 == desc else bits h 3 0 == 7 && bits h 152 144 == desc)

/-- The norm record of an aborted descriptor. -/
def abortedNorm (w : CollWait) (d : Nat) : NormRec :=
  { job := w.job, d := d, bucket := w.bucket, index := w.index, loc := 0, glob := 0, cnt := 0, aborted := true }

/-- Whether a descriptor runs for the RED section of its job: its norms are folded when that section ends (R345). -/
def State.redRun (s : State) (w : CollWait) : Bool := s.sections.any fun c => c.uid == w.uid && c.role == 2

/-- A running descriptor is stopped (R343): it leaves the engine, its frames are discarded, ABORT goes to `slots`, its norms
count as aborted. -/
def State.stopRun (s : State) (d : Nat) (r : CollRun) (slots : List Nat) : State :=
  let x := s.engine d
  let g := dGroup r.body
  let s1 := s.setEngine d { x with running := x.running.filter fun q => !(decide (q.wait = r.wait)) }
  let s2 := { s1.dropHeld (fun f => frameFor f r.wait.job g r.wait.index) with
    norms := if dFlag r.body 4 && s1.redRun r.wait then s1.norms ++ [abortedNorm r.wait d] else s1.norms }
  let s3 := slots.foldl (fun (t : State) i => t.sendCtrl i (ctrlFrame r.wait.job g r.wait.tag 5 r.wait.index false false false 0 [])) s2
  s3.event (pgEngine d) 3

/-! ### Rings -/

/-- EN of RING_CFG. -/
def State.ringOn (s : State) (j : Nat) : Bool := s.flag (pgDoor j + 0x10) 63

/-- The ring enters HALTED (R371, R373). -/
def State.haltRing (s : State) (j cause code : Nat) : State :=
  let a := pgDoor j + 0x18
  let s1 := ((s.setFld a 63 62 3).setFld a 60 58 cause).setFld a 47 32 code
  match s.partOfJob j with
  | some p => s1.jobEvent p j 10
  | none => s1

/-- The entries a ring holds. -/
def State.ringOf (s : State) (j : Nat) : List RingEntry := Tab.get [] s.rings j

/-- Those entries replaced. -/
def State.setRing (s : State) (j : Nat) (q : List RingEntry) : State := { s with rings := Tab.set [] s.rings j q }

/-- RING_STATUS of job `j`. -/
def ringSt (j : Nat) : Nat := pgDoor j + 0x18

/-- STATE of RING_STATUS: OFF, HALTED as it is, WAIT where an entry is pending that later fetches wait for or the job yields, else RUN. -/
def State.refreshRing (s : State) (j : Nat) : State :=
  let a := ringSt j
  let yields := match s.partOfJob j with
    | some p => decide (2 ≤ s.jobState p j)
    | none => false
  let pending := (s.ringOf j).any fun e => decide (2 ≤ e.op) && !e.done
  if !(s.ringOn j) then s.setFld a 63 62 0
  else if s.fld a 63 62 = 3 then s
  else s.setFld a 63 62 (if yields || pending then 2 else 1)

/-- A ring after a fabric reset that affects its job (R373): it fetches again, or halts with cause 2. -/
def State.restartRing (s : State) (j code : Nat) : State :=
  if s.ringOn j then
    let a := ringSt j
    let s1 := ((s.setFld a 15 0 (s.fld a 31 16)).setRing j []).dropAsk (askKey (.ring j))
    if s.flag (pgDoor j + 0x10) 62 then (s1.setFld a 63 62 1).refreshRing j else s1.haltRing j 2 code
  else s

/-! ### Fabric reset -/

/-- A firing unit after a fabric reset (R77, R285): its records and its counts stay. -/
def UnitState.fabricReset (x : UnitState) : UnitState :=
  { slots := x.slots.map fun e => (e.1, { e.2 with live := false }), lastTag := x.lastTag, epoch := x.epoch + 1 }

/-- A context after a fabric reset that affects its job (R180): the trap of one whose state lies in its frame, or that waits in another
instruction, comes when it resumes or when that instruction completes. -/
def YcCtx.fabricReset (c : YcCtx) (code : Nat) : YcCtx :=
  match c.st with
  | .faulted => c
  | _ =>
    let c1 := if c.st = .blocked ∧ 0x28 ≤ bits c.word 5 0 ∧ bits c.word 5 0 ≤ 0x2C then
        { c with st := .running, pc := (c.pc + 4) % 2 ^ 18, inValid := false }
      else c
    if c1.inFrame ∨ c1.st = .blocked then { c1 with due10 := some code } else c1.trap10 code

/-- A Yard core after a fabric reset of the partition of jobs `js`, caused by `code` (R77, R180): every job of the partition is affected, since
its tokens are discarded; `tag` is the TAG of the notification, which
Table 7.6 does not give. The fault code lies in bits [47:32] of the token, the low bits of the operand. -/
def YcCore.fabricReset (x : YcCore) (js : List Nat) (tag code : Nat) : YcCore :=
  let note := fun j => [{ net := 1, tok := ctrlTok j tag 0xFF 0x31 code, notice := true : InTok }]
  { x with inbound := js.foldl (fun t j => Tab.put t j (note j)) x.inbound
           streamer := x.streamer.filter fun r => !(js.contains r.job)
           ctxs := x.ctxs.map fun e => if js.contains e.1 then (e.1, e.2.fabricReset code) else e }

/-- The Yard behind key `k` of a table keyed by Yard × `n` + something lies in `ys`. -/
def inYards (ys : List Nat) (n k : Nat) : Bool := ys.contains (k / n)

/-- The B regions that PIN_LOAD firings of the Yards `ys` were writing hold a mixture, which nothing defines (R137); the rest of the
operand buffer does not change (DEDUCED, assumption 177). -/
def State.spoilPins (s : State) (ys : List Nat) : State :=
  (s.units.filter fun e => inYards ys 64 e.1 && decide (e.1 % 64 < 16)).foldl (fun (t : State) e =>
    match e.2.firing, e.2.activeRec with
    | some f, some r =>
      let (ext, l) := e.2.activeSet_ (e.1 % 64) r
      let q := muPlan r.body ext l
      if q.bMode = 1 ∧ !q.empty ∧ !f.isMark ∧ (f.formed ∨ !(f.burst 1).isEmpty) then
        let (n, t1) := t.fresh
        let b := (memOf t1.opBuf t1.sramEpoch e.1).scramble n (q.bBase * 256) (q.bBase * 256 + q.bNeed)
        { t1 with opBuf := setMem t1.opBuf t1.sramEpoch e.1 b }
      else t
    | _, _ => t) s

/-- Tokens, parked entries, held SELECTs and counts of the partition's fabric are discarded (R77): in its Yards, in the crossings and
at the edges where they belong to its jobs. The runs of bad copies of R63 go on. -/
def State.clearFabric (s : State) (ys js : List Nat) : State :=
  let mine := fun (t : Token) => js.contains t.job
  { s with
    switches := Tab.clear (inYards ys 1) s.switches
    links := (s.links.map fun e => if inYards ys 4 e.1 then (e.1, { badA := e.2.badA, badB := e.2.badB }) else e).filter fun e =>
      !(decide (e.2 = {}))
    units := (s.units.map fun e => if inYards ys 64 e.1 then (e.1, e.2.fabricReset) else e).filter fun e => !(decide (e.2 = {}))
    crossTok := s.crossTok.filter fun e => !(mine e.2)
    crossRail := s.crossRail.filter fun e => !(mine (ofCopy e.2))
    bridgeTok := (s.bridgeTok.map fun e => (e.1, e.2.filter fun t => !(mine t))).filter fun e => !e.2.isEmpty
    packs := s.packs.filter fun e => !(js.contains e.2.job) }

/-- Stay bridges and a fabric reset (R325): unsent TOKEN and MARK frames of the partition's jobs, and those taken in and not yet injected, are
discarded; frames on the wire, credits and numbers stay. -/
def State.clearBridge (s : State) (js : List Nat) : State :=
  let stays := fun (f : TxFrame) => !(decide (f.type ≤ 2) && js.contains f.job)
  let s0 := s.dropHeld fun f => decide (bits f.hdr.toNat 3 0 ≤ 2) && js.contains (bits f.hdr.toNat 67 64)
  let mine := fun (x : InjTok) => js.contains (hJob x.tok.hdr.toNat)
  let s1 := (s0.inject.filter mine).foldl (fun (t : State) x => match x.slot with
    | some (q, vc) => t.freeSlot q vc
    | none => t) { s0 with inject := s0.inject.filter fun x => !(mine x) }
  let s2 := s1.ports.foldl (fun (t : State) e =>
    t.setPort e.1 { e.2 with queues := (e.2.queues.map fun q => (q.1, q.2.filter stays)).filter fun q => !q.2.isEmpty }) s1
  let s3 := s2.buckets.foldl (fun (t : State) e =>
    { t with buckets := Tab.set {} t.buckets e.1 { e.2 with held := e.2.held.filter fun h => match h with
      | .frame _ f => stays f
      | .mem _ => true } }) s2
  { s3 with burstPort := s3.burstPort.filter fun e => !(js.contains e.2.2) }

/-- The step sequencer and phase logic of job `j` after a fabric reset (R209, R226). -/
def State.resetStep (s : State) (p j : Nat) : State :=
  let a := pgPart p + 0x410 + 0x40 * j
  let st := s.seqState p j
  let alone := s.fld (pgPart p + 0x408 + 0x40 * j) 47 40 == 0xFF
  let s1 := if st = 0 ∨ st = 7 then s
    else s.setFld a 63 61 (if alone || st == 1 || st == 2 then 0 else 7)
  let s2 := { s1 with stepHeld := Tab.del s1.stepHeld j, phaseHeld := Tab.del s1.phaseHeld j,
                      agrees := s1.agrees.filter fun g => g.perm || !(g.job == j) }
  let b := pgPart p + 0x810 + 0x20 * j
  let s3 := (s2.setFld a 58 56 0).setFld b 56 54 0
  (if s3.phState p j = 1 then s3.setFld b 59 58 0 else s3).setFlag b 57 false

/-- A fabric reset of partition `p`, caused by fault `code` (0 for ABANDON and a partition reset). -/
def State.fabricReset (s : State) (p code : Nat) : State :=
  let ys := s.yardsOf p
  let js := s.jobsOf p
  let held := fun (t : Tab (List StartRec)) (k : Nat) => !((Tab.get [] t k).isEmpty)
  let queued := fun j => ((Tab.get [] s.waiting p) ++ (Tab.get [] s.issueQ p)).any (·.job == j)
  let hit := js.filter fun j => !(s.jobIdle j) || held s.stepHeld j || held s.phaseHeld j || queued j
  let s1 := ((s.spoilPins ys).clearFabric ys js).clearBridge js
  let s2 := { s1 with sections := s1.sections.filter fun x => !(x.part == p)
                      issueQ := Tab.del s1.issueQ p, waiting := Tab.del s1.waiting p }
  let s3 := js.foldl (fun (t : State) j => t.resetStep p j) s2
  let s4 := (List.range 8).foldl (fun (t : State) d =>
    let x := t.engine d
    let t1 := t.setEngine d { x with waiting := x.waiting.filter fun w => !(js.contains w.job) }
    (x.running.filter fun r => js.contains r.wait.job).foldl (fun (u : State) r => u.stopRun d r (u.abortSlots r.body)) t1) s3
  let (n, s4f) := s4.fresh
  let s5 := ys.foldl (fun (t : State) y => t.setCore y ((t.core y).fabricReset js (Config.freeWord n).toNat code)) s4f
  let s6 := hit.foldl (fun (t : State) j => t.restartRing j code) s5
  (s6.event (pgPart p) 6).progress p

/-- A PARTITION fault recorded in page `pg` with event `ev`, and the fabric reset that follows (R75, R80). -/
def State.fabricFault (s : State) (y pg code info ev : Nat) : State :=
  let s1 := s.faultEv pg code info ev
  match s1.partOfYard y with
  | some p => s1.fabricReset p code
  | none => s1

/-- The fault page and event bit of CTRL_TOKEN_CRC and TAG_OVERFLOW of unit `u` (Tables 3.13, 5.15, 6.16, 11.13). -/
def unitEvent (u code : Nat) : Nat :=
  if code = 0x0403 then (if u < 16 then 4 else if u < 20 then 4 else if u < 22 then 3 else 4)
  else (if u < 16 then 3 else if u < 20 then 3 else if u < 22 then 2 else 3)

/-- CTRL_TOKEN_CRC at unit or switch `u` of Yard `y` (R62, R80). -/
def State.ctrlError (s : State) (y u cause h : Nat) : State :=
  let s1 := if u < 22 then s.event (pgSwitch y) 4 else s
  s1.fabricFault y (pgUnit y u) 0x0403 (fabricInfo y u cause h) (unitEvent u 0x0403)

/-- TAG_OVERFLOW at unit `u` (R75). -/
def State.tagOverflow (s : State) (y u h : Nat) : State :=
  s.fabricFault y (pgUnit y u) 0x0301 (fabricInfo y u 0 h) (unitEvent u 0x0301)

/-! ### Unloading an image (R112, R162) -/

/-- The slots of an image's records are freed. -/
def State.freeSlots (s : State) (i : Image) : State :=
  (i.cfgs.filter fun c => decide (c.unit < 38)).foldl (fun (t : State) c =>
    let x := t.unit c.yard c.unit
    t.setUnit c.yard c.unit { x with slots := Tab.del x.slots c.slot }) s

/-- An image leaves the device: slots, routes, extents and crossings are free, and a context ends with the last image that carries
code for its job and Yard. -/
def State.dropImage (s : State) (i : Image) : State :=
  let s1 := { s.freeSlots i with images := s.images.filter fun k => !(k.part == i.part && k.rig == i.rig) }
  let s2 := { s1.setFlag (pgPart i.part + 0x1D8) i.rig false with
    crossOwner := if s1.images.any (·.part == i.part) then s1.crossOwner else s1.crossOwner.filter fun e => !(e.2 == i.part) }
  (i.codes.map (·.yard)).foldl (fun (t : State) y =>
    if t.images.any fun k => k.job == i.job && k.codes.any (·.yard == y) then t else t.endCtx y i.job) s2

/-! ### Work counters -/

/-- A counter returns to EN 0 with all fields 0 (STEP 1, Table 7.7), and its leases are freed (R184). -/
def State.clearCounter (s : State) (c : Nat) : State :=
  { s with wc := Tab.clearRange (4 * c) (4 * c + 4) s.wc
           leases := s.leases.map fun e => if e.2.counter = c ∧ e.2.st ≠ .free then (e.1, { e.2 with st := .free, gen := (e.2.gen + 1) % 65536 }) else e }

/-- Word `w` of counter `c`; STEP is 1 at reset. -/
def State.wcWord (s : State) (c w : Nat) : Nat := (Tab.get (if w = 1 then toW (2 ^ 32) else 0) s.wc (4 * c + w)).toNat

/-- Word `w` of counter `c` replaced. -/
def State.setWcWord (s : State) (c w v : Nat) : State :=
  { s with wc := Tab.set (if w = 1 then toW (2 ^ 32) else 0) s.wc (4 * c + w) (toW v) }

/-! ### Yard reset (R435) -/

/-- Both rails of the links of Yard `y` return to service at the neighbours' receivers. -/
def State.restoreRails (s : State) (y : Nat) : State :=
  match s.physOf y with
  | none => s
  | some p => (List.range 4).foldl (fun (t : State) e =>
      match (s.run 9 p e []).1 with
      | .switch z f => t.gainRails ((t.setFlag (pgSwitch z + 0x108) f false).setFlag (pgSwitch z + 0x108) (4 + f) false) z f
      | _ => t) s

/-- A Yard reset of logical Yard `y`: registers, units, switch, contexts; its memories are left undefined. A vacant Yard is left
as it is. -/
def State.yardReset (s : State) (y : Nat) : State :=
  if !(s.enabled y) then s
  else
    let s1 := (s.restoreRails y).resetRegs (pgYard y) (pgYard y + 0x4_0000)
    let s2 := { s1 with units := Tab.clear (inYards [y] 64) s1.units, switches := Tab.del s1.switches y,
                        links := Tab.clear (inYards [y] 4) s1.links, cores := Tab.del s1.cores y,
                        wcQ := s1.wcQ.filter fun r => !(r.y == y) }
    s2.scrambleYard y

/-- Whether some loaded image has a configuration record, YC code or an extent in Yard `y` (R436). -/
def State.yardUsed (s : State) (y : Nat) : Bool :=
  s.images.any fun i => i.cfgs.any (·.yard == y) || i.codes.any (·.yard == y) ||
    i.res.any fun r => r.yard == y && (decide (0 < r.ycLen) || decide (0 < r.storeLen) || decide (0 < r.stowLen))

end Sys2Proof.Machine
end

