-- ==== Sys2Proof/Machine/HealthOps.lean ====
section
/-! DEFINITION. The Bad Row Fence (R291..R296), spare rows, and shard directory entries as the map-out and the flip use them
(R278..R280). -/
namespace Sys2Proof.Machine

/-- The number of a row of a channel: channel × 2^22 + row. -/
def rowKey (c row : Nat) : Nat := c * 2 ^ 22 + row % 2 ^ 22

/-- The bank of a row (R291). -/
def rowBank (c row : Nat) : Nat := (Config.rowBank c row).val

/-- Whether bank `b` of channel `c` has a spare row (REP_SPARE, R294). -/
def State.spare (s : State) (c b : Nat) : Bool := Config.bankSpare c b && !(s.spareUsed.contains (c * 64 + b))

/-- The register of word `w` of fence entry `e` of stack `h`. -/
def fenceReg (h e w : Nat) : Nat := pgRep h + 0x400 + 16 * e + 8 * w

/-- VALID of a fence entry. -/
def State.fenceValid (s : State) (h e : Nat) : Bool := s.flag (fenceReg h e 0) 63

/-- The channel and row of a fence entry. -/
def State.fenceRow (s : State) (h e : Nat) : Nat × Nat := (32 * h + s.fld (fenceReg h e 0) 59 55, s.fld (fenceReg h e 1) 21 0)

/-- The fence entry of a row. -/
def State.fenceOf (s : State) (c row : Nat) : Option Nat :=
  firstBelow 64 fun e => s.fenceValid (c / 32) e && s.fenceRow (c / 32) e == (c, row)

/-- FENCED of REP_STATUS counts the entries in use. -/
def State.countFence (s : State) (h : Nat) : State :=
  s.setFld (pgRep h + 0x110) 6 0 (((List.range 64).filter (s.fenceValid h)).length)

/-- A fence entry made for a row (R292, R293): PENDING while its bank has a spare row, else PERMANENT. -/
def State.putFence (s : State) (c row e : Nat) : State :=
  let h := c / 32
  let b := rowBank c row
  let k := rowKey c row
  let perm := !(s.spare c b)
  let s1 := s.setReg (fenceReg h e 0)
    (fieldAt 63 1 + fieldAt 61 (b2n perm) + fieldAt 60 (b2n (s.recRepaired.contains k)) + fieldAt 55 (c % 32) + fieldAt 49 b)
  let s2 := s1.setReg (fenceReg h e 1) (fieldAt 32 (Tab.get 0 s.rowCe k % 2 ^ 32) + row)
  let s3 := if perm then { s2 with recPermanent := s2.recPermanent.filter (fun x => !(x == k)) ++ [k] }
    else { s2 with recPending := s2.recPending.filter (fun x => !(x == k)) ++ [k] }
  s3.countFence h

/-- A fence entry freed. -/
def State.freeFence (s : State) (h e : Nat) : State :=
  let (c, row) := s.fenceRow h e
  let k := rowKey c row
  let s1 := (s.setReg (fenceReg h e 0) 0).setReg (fenceReg h e 1) 0
  { s1 with recPermanent := s1.recPermanent.filter fun x => !(x == k)
            recPending := s1.recPending.filter fun x => !(x == k) }.countFence h

/-- ERR_INFO of the controller page (Table 12.4). -/
def hcInfo (c cause bank value : Nat) : Nat :=
  fieldAt 59 (c / 32) + fieldAt 54 (c % 32) + fieldAt 51 cause + fieldAt 45 bank + value % 2 ^ 22

/-- REPAIR_ESCAPE (R293, R295, R296): ESCAPES grows, and MO_DUE is set at 2. -/
def State.escape (s : State) (c row cause : Nat) : State :=
  let s1 := s.bumpFld (chReg c) 61 60 1
  let s2 := if 2 ≤ s1.fld (chReg c) 61 60 then s1.setFlag (chReg c) 59 true else s1
  s2.faultEv (pgHc (c / 32)) 0x0603 (hcInfo c cause (rowBank c row) row) 2

/-- A row is fenced (R292, R293, R295); a row fenced already stays as it is. -/
def State.fenceRowNow (s : State) (c row : Nat) : State :=
  let h := c / 32
  if (s.fenceOf c row).isSome then s
  else match firstBelow 64 fun e => !(s.fenceValid h e) with
    | none => s.escape c row 3
    | some e =>
      let s1 := (s.putFence c row e).event (pgHc h) 1
      if !(s.spare c (rowBank c row)) then s1.escape c row 2
      else if s.recRepaired.contains (rowKey c row) then s1.escape c row 1 else s1

/-- A read of a row returns with the on-die severity `sev` (R291, R292). A fenced row is read from its buffer, whose reads report
nothing. -/
def State.rowRead (s : State) (c row : Nat) (sev : Ecc) : State :=
  let h := c / 32
  if (s.fenceOf c row).isSome then s
  else
    let k := rowKey c row
    let again := s.recRepaired.contains k
    match sev with
    | .ok => s
    | .corrected =>
      let s1 := (s.bumpFld (chReg c) 31 0 1).bump (pgHc h + 0x200) 1
      let n := Tab.get 0 s1.rowCe k + 1
      let s2 := { s1 with rowCe := Tab.put s1.rowCe k n }
      if again ∨ s2.fld (pgRep h + 0x100) 15 0 ≤ n then s2.fenceRowNow c row else s2
    | .bad =>
      let s1 := (s.bumpFld (chReg c) 47 32 1).bump (pgHc h + 0x208) 1
      (s1.faultEv (pgHc h) 0x0601 (hcInfo c 0 (rowBank c row) row) 0).fenceRowNow c row

/-- Fence entries rebuilt from the records at FINISH of a cold start (R300). -/
def State.rebuildFence (s : State) : State :=
  (s.recPermanent ++ s.recPending).foldl (fun (t : State) k =>
    let c := k / 2 ^ 22
    let row := k % 2 ^ 22
    match firstBelow 64 fun e => !(t.fenceValid (c / 32) e) with
    | some e => if t.chState c = 2 then t else t.putFence c row e
    | none => t) s

/-! ### Shard Directory entries (Table 11.8) -/

/-- Word `w` of entry `b`. -/
def State.sdWord (s : State) (b w : Nat) : Nat := s.reg (sdAddr b + 8 * w)

/-- VALID of an entry. -/
def State.sdValid (s : State) (b : Nat) : Bool := bit (s.sdWord b 0) 63
/-- ACT: the active placement, 0 word 1, 1 word 2. -/
def State.sdAct (s : State) (b : Nat) : Nat := (s.sdWord b 0) / 2 ^ 61 % 2
/-- STAGED. -/
def State.sdStaged (s : State) (b : Nat) : Bool := bit (s.sdWord b 0) 62
/-- JOB. -/
def State.sdJob (s : State) (b : Nat) : Nat := bits (s.sdWord b 0) 59 56
/-- LEN. -/
def State.sdLen (s : State) (b : Nat) : Nat := bits (s.sdWord b 0) 31 0

/-- An entry with an uncorrectable error is marked and not valid, with its fault (R281). -/
def State.sdMark (s : State) (b : Nat) : State :=
  ((s.setFlag (sdAddr b) 60 true).setFlag (sdAddr b) 63 false).faultEv pgGlobal 0x0605 (b + fieldAt 20 (s.sdJob b)) 2

/-- SHARD_DIR_ECC of entry `b` (R281). -/
def State.sdLost (s : State) (b : Nat) : State :=
  let s1 := s.sdMark b
  match s.partOfJob (s.sdJob b) with
  | some p => s1.fabricReset p 0x0605
  | none => s1

end Sys2Proof.Machine
end

