-- ==== Sys2Proof/Machine/StartOps.lean ====
section
/-! DEFINITION. The module's start-up and its wide resets: stages and their records (R426), the Yard map (R23, R24, R29), what a
cold and a warm reset keep (R433, Table 18.3), the safe stop (R402), BR_RESET (R436, R437). -/
namespace Sys2Proof.Machine

/-! ### Stages -/

/-- BR_STAGE_MS[k] takes the age of the stage that ends (Table 18.6), and the next stage begins. The Mastheads carry out the stages, so
the one that ends a stage has refreshed its latch and its heartbeat (DEDUCED, assumption 50). -/
def State.endStage (s : State) (k next : Nat) : State :=
  let s := { s with latchNs := 0, beatNs := 0 }
  (s.setReg (pgBare + 0x120 + 8 * (k - 1)) (s.stageNs / 1000000 % 2 ^ 32)).setStage next

/-- The device stops in stage 9 with FAIL cause `c` (Table 18.4). -/
def State.failStart (s : State) (c : Nat) : State := (s.setFld (pgBare + 0x100) 56 53 c).setStage 9

/-- Whether the device runs: STAGE 7 (READY). -/
def State.live (s : State) : Bool := s.stage == 7

/-- TYPE of BR_LOG. -/
def State.resetType (s : State) : Nat := s.fld (pgBare + 0x110) 63 61

/-- ROLE of a Masthead page (Table 17.9). -/
def State.role (s : State) (m : Bool) : Nat := s.fld (pgMast m + 0x100) 63 61

/-- A Masthead takes a role. -/
def State.setRole (s : State) (m : Bool) (r : Nat) : State :=
  let s1 := s.setFld (pgMast m + 0x100) 63 61 r
  if r = 2 ∧ s.role m ≠ 2 then s1.event (pgMast m) 2 else s1

/-- The firmware version in a bank of a Masthead's flash. -/
def State.fwVersion (s : State) (m bank : Bool) : BitVec 32 :=
  (Tab.find? s.fwVer (2 * b2n m + b2n bank)).getD (Config.fwVersion m bank)

/-- A Masthead runs from bank `bank` (Table 17.9). -/
def State.useBank (s : State) (m bank : Bool) : State :=
  ((s.setFlag (pgMast m + 0x100) 60 bank).setFld (pgMast m + 0x100) 31 0 (s.fwVersion m bank).toNat).setReg (pgMast m + 0x108)
    Config.serial.toNat

/-- Masthead number `m` as a truth value. -/
def mastOf (m : Fin 2) : Bool := m == 1

/-! ### The Yard map -/

/-- SAIL_OK of a physical Yard that failed self-test. -/
def failedSails (r : SelfTest) (p : Nat) : Option (BitVec 4) := (r.yards.find? fun e => e.1.val == p).map (·.2)

/-- The Yards of row `r` that pass and are not retired, west to east. -/
def usableIn (t : SelfTest) (retired : List Nat) (r : Nat) : List Nat :=
  ((List.range 9).map (9 * r + ·)).filter fun p => (failedSails t p).isNone && !(retired.contains p)

/-- YARD_MAP of a number backed by physical Yard `p` (Table 1.5). -/
def mapWord (p : Nat) (remapped : Bool) : Nat :=
  fieldAt 31 1 + fieldAt 30 (b2n remapped) + fieldAt 12 (p / 9) + fieldAt 8 (p % 9) + p

/-- PHYS_YARD (Table 1.6). -/
def physWord (p logical state sails : Nat) : Nat :=
  fieldAt 24 logical + fieldAt 20 state + fieldAt 16 sails + fieldAt 4 (p / 9) + p % 9

/-- YARD_MAP_GEN becomes `g`; the event YARD_MAP is raised when it changes (Table 16.18). -/
def State.setMapGen (s : State) (g : Nat) : State :=
  let s1 := s.setReg (pgGlobal + 0x3F8) (g % 2 ^ 32)
  if s.reg (pgGlobal + 0x3F8) = g % 2 ^ 32 then s1 else s1.event pgGlobal 1

/-- The Yard map built from self-test (R23, R24). The domains of the enabled Yards are on at the test supply of R429, 0.58 V (DEDUCED, assumption
31), with the ceiling at 0.75 V (R406); the others are off. ROW, COL and REMAPPED of a vacant entry read 0 (DESIGN CHOICE, assumption 185). -/
def State.buildMap (s : State) (t : SelfTest) : State :=
  let retired := s.retiredA
  let place := fun (u : State) (y : Nat) =>
    match (usableIn t retired (y / 8))[y % 8]? with
    | some p => u.setReg (pgGlobal + 0x400 + 8 * y) (mapWord p false)
    | none => u.setReg (pgGlobal + 0x400 + 8 * y) 0x7F
  let s1 := (List.range 64).foldl place s
  let phys := fun (u : State) (p : Nat) =>
    let i := indexWhere (· == p) (usableIn t retired (p / 9))
    let l := match i with
      | some k => if k < 8 then some (8 * (p / 9) + k) else none
      | none => none
    let st := if retired.contains p then 3 else if (failedSails t p).isSome then 2 else if l.isSome then 0 else 1
    let sails := (failedSails t p).map (·.toNat)
    (u.setReg (pgGlobal + 0x600 + 8 * p) (physWord p (l.getD 0xFF) st (sails.getD 0xF))).setReg (pgPower 1 + 0x100 + 8 * p)
      (if l.isSome then fieldAt 63 1 + fieldAt 42 750 + fieldAt 32 580 else fieldAt 42 750)
  ((List.range 72).foldl phys s1).setMapGen 1

/-- YARD_RETIRED recorded (Table 19.10). -/
def State.yardRetired (s : State) (y old new cause parts : Nat) : State :=
  s.faultEv pgMon 0x0905 (fieldAt 58 y + fieldAt 51 old + fieldAt 44 new + fieldAt 40 cause + fieldAt 32 parts) 0

/-! ### What resets keep -/

/-- Whether a warm reset keeps register `a` (Table 18.3, R301, R327, R397, R398, R422, R439, R449, R458; the link and window of
a host port: the text after Table 18.2; PRESENT is DEDUCED, assumption 32). -/
def warmKept (a : Nat) : Bool :=
  a == 0x108 || decide (0x200 ≤ a ∧ a < 0x310) ||
  a == pgBare + 0x110 || a == pgBare + 0x118 || decide (pgBare + 0x180 ≤ a ∧ a < pgBare + 0x1A0) ||
  a == 0x4100 || a == 0x5100 || a == 0x4110 || a == 0x5110 ||
  a == 0x1_0100 || decide (0x1_0120 ≤ a ∧ a < 0x1_0138) ||
  (decide (0x4_0000 ≤ a ∧ a < 0x5_0000) && !(decide (0x4_0050 ≤ a ∧ a < 0x4_00B8)) && !(decide (0x4_0400 ≤ a ∧ a < 0x4_0600))) ||
  (decide (0x10_0000 ≤ a ∧ a < 0x12_0000) && (a % 0x1000 == 0x100 || decide (0x800 ≤ a % 0x1000))) ||
  decide (0x12_8000 ≤ a ∧ a < 0x13_0000) ||
  (decide (0x20_0000 ≤ a ∧ a < 0x28_0000) &&
    ((a % 0x4000 == 0x308) || decide (0x100 ≤ a % 0x4000 ∧ a % 0x4000 < 0x200) || decide (0x3400 ≤ a % 0x4000 ∧ a % 0x4000 < 0x3800))) ||
  decide (0x30_0000 ≤ a ∧ a < 0x70_0000) ||
  decide (pgMsix false ≤ a ∧ a < pgMsix false + 0x2000) || decide (pgMsix true ≤ a ∧ a < pgMsix true + 0x2000)

/-- What stands outside every reset: the queue, HBM, flash, the outside's own state, the records of the model. -/
def State.outer (s : State) (regs : Tab W64) (hbm : Mem) (freeCtr : Nat) : State :=
  { pending := s.pending, regs := regs, hbm := hbm, freeCtr := freeCtr, out := s.out,
    bankA := s.bankA, bankB := s.bankB, fwVer := s.fwVer, retiredA := s.retiredA, retiredB := s.retiredB,
    powerLoss := s.powerLoss, recRepaired := s.recRepaired, recPermanent := s.recPermanent, recPending := s.recPending,
    recMapped := s.recMapped, spareUsed := s.spareUsed, jtagIr := s.jtagIr, smbOffset := s.smbOffset, lastLatch := s.lastLatch }

/-- A cold reset begins (R433): stage 1, everything at its reset value, HBM contents lost. TYPE and SOURCE go to BR_LOG. -/
def State.coldReset (s : State) (type source : Nat) : State :=
  let t0 := if type = 1 then 0 else s.now
  let s1 := s.outer [] (Mem.undefinedBy (s.freeCtr + 1)) (s.freeCtr + 1)
  (s1.setReg (pgBare + 0x110) (fieldAt 61 type + fieldAt 58 source)).setReg (pgBare + 0x118) t0

/-- A map-out that a warm reset ends (R438): before FLIP the channel stays LIVE; at or after it the channel is MAPPED_OUT and recorded,
and the stowage of its Yard is left undefined. -/
def State.endMapOut (s : State) (c : Nat) : State :=
  let ph := s.fld (pgHc (c / 32) + 0x310) 62 60
  if ph < 3 then (if s.chState c = 1 then s.setFld (chReg c) 63 62 0 else s)
  else match homeYard c with
    | none => s
    | some y =>
      let s1 := (s.setFld (chReg c) 63 62 2).setFlag (chReg c) 59 false
      let (e, s2) := s1.fresh
      let lo := fun (k : Nat) => k * 2 ^ 32 + s2.stowBase y
      { s2 with recMapped := s2.recMapped ++ [c]
                hbm := (s2.liveHome y).foldl (fun m k => m.scramble e (lo k) (k * 2 ^ 32 + chanBytes)) s2.hbm }

/-- The bits of register `a` that stand through a warm reset where the whole of it does not: PRESENT of REFCLK_STATUS; REPAIRED and
FENCED of REP_STATUS. BORROW is cleared even where the lost oscillator is still absent (DESIGN CHOICE, assumption 187). -/
def warmPart (a : Nat) : Nat :=
  if a = 0x900 then 0xFF else if 0x20_0000 ≤ a ∧ a < 0x28_0000 ∧ a % 0x4000 = 0x3110 then 0xFFFF_0000_007F else 0

/-- A register table through a warm reset. -/
def warmRegs (t : Tab W64) : Tab W64 :=
  (t.filter fun e => warmKept e.1 || !(warmPart e.1 == 0)).filterMap fun e =>
    if warmKept e.1 then some e
    else
      let v := toW (maskAnd e.2.toNat (warmPart e.1))
      if v = regReset e.1 then none else some (e.1, v)

/-- A warm reset begins at stage 2 (R433, R438). -/
def State.warmReset (s : State) (source : Nat) : State :=
  let s0 := (s.maintRun.filter fun m => m.cls == 1).foldl (fun (t : State) m => t.endMapOut m.target) s
  let s1 := { s0.outer (warmRegs s0.regs) s0.hbm s0.freeCtr with
    timeOn := s0.timeOn, pwrOk := true, hostMsixA := s0.hostMsixA, hostMsixB := s0.hostMsixB,
    hostCfgA := s0.hostCfgA, hostCfgB := s0.hostCfgB, tsyncGood := s0.tsyncGood, tsyncNs := s0.tsyncNs, slewLeft := s0.slewLeft,
    semSince := s0.semSince, rowCe := s0.rowCe, energyRem := s0.energyRem, cagesOff := s0.cagesOff
    oscOut := s0.oscOut.filter (· == 2), relock := if s0.oscOut.contains 2 then [0, 1] else [] }
  let s2 := (s1.setReg (pgBare + 0x110) (fieldAt 61 3 + fieldAt 58 source)).setReg (pgBare + 0x118) s.now
  ((s2.setStage 2).setFld (pgMast false + 0x100) 63 61 1).setFld (pgMast true + 0x100) 63 61 1

/-! ### The safe stop -/

/-- PORT_DOWN (0x0702) and the state of a port that leaves UP, TRAIN or IDENT for DOWN (R308). -/
def State.portDown (s : State) (q cause : Nat) : State :=
  let a := pgPort q + 0x108
  let was := s.portState q
  let s1 := (((s.setFld a 63 61 0).setFld a 58 55 cause).setFld a 60 59 0).setFld a 7 0 0
  let s2 := s1.setPort q { s1.port q with downAt := s1.now }
  if was = 0 then s2
  else
    let s3 := s2.fault (pgPort q) 0x0702 (fieldAt 59 q + fieldAt 55 cause + fieldAt 32 (s.fld a 54 40))
    s3.event (pgPort q) 1

/-- The safe stop of R402 that fault `code` causes: a fabric reset in every partition, every Stay port stopped (DOWN_CAUSE 6, DEDUCED, assumption 33), every Yard domain
off, STAGE 8, FAULT_N asserted, PWR_OK low. -/
def State.safeStop (s : State) (code : Nat) : State :=
  let s1 := (List.range 8).foldl (fun (t : State) p => if t.partOn p then t.fabricReset p code else t) s
  let s2 := (List.range 32).foldl (fun (t : State) q => t.portDown q 6) s1
  let s3 := (List.range 72).foldl (fun (t : State) p => t.setFlag (pgPower 1 + 0x100 + 8 * p) 63 false) s2
  { ((s3.setFlag (pgBare + 0x100) 62 true).setFld (pgBare + 0x100) 56 53 0).setStage 8 with pwrOk := false }

/-! ### BR_RESET -/

/-- Whether a cold reset or start runs: stages 1 to 6 of one. -/
def State.coldRuns (s : State) : Bool := decide (1 ≤ s.stage ∧ s.stage ≤ 6) && decide (s.resetType ≤ 2)

/-- A reset of part of the device ends after `ms` ms: BR_LOG and RESET_DONE (Tables 18.6, 18.8). -/
def State.resetDone (s : State) (type source target ms t0 : Nat) : State :=
  let s1 := (s.setReg (pgBare + 0x110) (fieldAt 61 type + fieldAt 58 source + fieldAt 52 target + ms % 2 ^ 32)).setReg (pgBare + 0x118) t0
  ((s1.setFlag (pgBare + 0x100) 61 false).tick (ms * 1000000)).event pgBare 2

/-- REFUSED of BR_STATUS. -/
def State.refuseReset (s : State) : State := s.setFlag (pgBare + 0x100) 61 true

end Sys2Proof.Machine
end

