-- ==== Sys2Proof/Machine/MaintOps.lean ====
section
/-! DEFINITION. The maintenance arbiter (R417..R420, Tables 17.3, 17.4) and how each class begins: map-out (R297, R298), row repair
(R294), lane retrain (R307), retirement of a Yard (R25, R27, R456), permute (R346), firmware update (R421). -/
namespace Sys2Proof.Machine

/-! ### The matrix (Table 17.4) -/

/-- The stack a map-out or row repair acts on. -/
def MaintOp.stack (m : MaintOp) : Nat := if m.cls = 1 then m.target / 32 else m.target

/-- Whether two operations may run together, the class of the first not above the second's. -/
def compat (a b : MaintOp) : Bool :=
  match a.cls, b.cls with
  | 3, 3 => false | 3, _ => true | _, 3 => true
  | 1, 2 => a.stack != b.stack | 2, 2 => a.stack != b.stack
  | 1, 4 => true | 2, 4 => true | 2, 5 => true | 4, 5 => true
  | 4, 4 => a.target != b.target
  | _, _ => false

/-- Table 17.4. -/
def MaintOp.with_ (a b : MaintOp) : Bool := if a.cls ≤ b.cls then compat a b else compat b a

/-! ### Map-out checks (R298) -/

/-- HC_MO_DEST of stack `h`: DEST and REGION_OFF in bytes. -/
def State.moDest (s : State) (h : Nat) : Nat × Nat := (s.fld (pgHc h + 0x308) 41 12 * 4096, s.fld (pgHc h + 0x308) 63 44 * 4096)

/-- The placement word of the active (`act`) or inactive placement of entry `b`. -/
def State.sdPlace (s : State) (b : Nat) (act : Bool) : Nat := s.sdWord b (if act then s.sdAct b + 1 else 2 - s.sdAct b)

/-- The Shard Directory entries that have been written: VALID is 0 and STAGED is 0 at reset, so the others take part in nothing. -/
def State.sdListed (s : State) : List Nat :=
  s.regs.filterMap fun e => if windowKind e.1 = 1 ∧ e.1 % 32 = 0 then some ((e.1 - 0x30_0000) / 32) else none

/-- Whether a placement word names this device and channel `c`. -/
def State.placedIn (s : State) (w c : Nat) : Bool := bits w 62 48 == s.devId && adChan (bits w 41 0) == c

/-- The valid entries whose active placement lies in channel `c`, rising. -/
def State.migrants (s : State) (c : Nat) : List Nat :=
  s.sdListed.filter fun b => s.sdValid b && s.placedIn (s.sdPlace b true) c

/-- LEN rounded up to 4 KB. -/
def up4k (n : Nat) : Nat := ceilDiv n 4096 * 4096

/-- Why a map-out of channel `c` is refused, as RESULT of HC_MO_STATUS (R298); a channel that is not LIVE has none to map out (DESIGN
CHOICE, assumption 38). -/
def State.moRefused (s : State) (c : Nat) : Option Nat :=
  let (d, off) := s.moDest (c / 32)
  let n := ((s.migrants c).map fun b => up4k (s.sdLen b)).foldl (· + ·) 0
  if !(s.chLive c) ∨ adChan d = c ∨ !(s.chLive (adChan d)) then some 2
  else if off = 0 then some 3
  else if off < n ∨ chanBytes < adOff d + off + n then some 4
  else match homeYard c with
    | some y => if ((s.liveHome y).length - 1) * (chanBytes - s.stowBase y) < s.stowEnd y then some 5 else none
    | none => none

/-- HC_MO_STATUS of stack `h`. -/
def moSt (h : Nat) : Nat := pgHc h + 0x310

/-! ### Ports -/

/-- A port goes DOWN and its traffic moves within its stripe (R308). -/
def State.portLost (s : State) (q cause : Nat) : State := (s.portDown q cause).moveFrames q

/-- A lane retrain or a change of reference: the port goes DOWN and trains again (R304, R307). -/
def State.retrain (s : State) (q cause : Nat) : State := (s.portLost q cause).setFld (pgPort q + 0x108) 63 61 1

/-! ### Retiring a Yard (R25, R456) -/

/-- The spare chosen for a Yard that stands at `p`: in its row, else the nearest by hops; the lower index among equals (R25). -/
def State.chooseSpare (s : State) (p : Nat) : Option Nat :=
  let dist := fun (q : Nat) => (max (p / 9) (q / 9) - min (p / 9) (q / 9)) + (max (p % 9) (q % 9) - min (p % 9) (q % 9))
  let key := fun (q : Nat) => (if q / 9 = p / 9 then 0 else 1000) + dist q
  let free := (List.range 72).filter fun q => s.fld (pgGlobal + 0x600 + 8 * q) 23 20 == 1
  (sortBy (fun (a b : Nat) => decide (key a ≤ key b)) free).head?

/-- A physical Yard added to the retired list of both flash devices (R26), with its PHYS_YARD and its domain off. SAIL_OK keeps what the last
self-test found (DESIGN CHOICE, assumption 184). -/
def State.retirePhys (s : State) (p : Nat) : State :=
  let a := pgGlobal + 0x600 + 8 * p
  let s1 := ((s.setFld a 23 20 3).setFld a 31 24 0xFF).setFlag (pgPower 1 + 0x100 + 8 * p) 63 false
  { s1 with retiredA := s1.retiredA.filter (fun q => !(q == p)) ++ [p], retiredB := s1.retiredB.filter (fun q => !(q == p)) ++ [p] }

/-- Whether an image names logical Yard `y`. -/
def Image.names (i : Image) (y : Nat) : Bool :=
  i.cfgs.any (·.yard == y) || i.routes.any (·.yard == y) || i.codes.any (·.yard == y) || i.streams.any (·.target == y) ||
    i.res.any (·.yard == y) || i.secs.any (·.lead == y) || i.joins.any fun x => x.yard == y || x.forkYard == y

/-- STOP unloads an image whether or not its sections are in flight: RESULT 3 and RIG_DONE (R456). -/
def State.stopImage (s : State) (i : Image) : State :=
  let a := pgPart i.part + 0x1D0
  let s1 := (((s.dropImage i).setFld a 62 60 3).setFld a 59 56 i.rig).setFld a 15 0 0
  ((if s1.flag a 63 then s1 else s1.setFld a 55 52 i.job)).jobEvent i.part i.job 0

/-- The leases held by logical Yard `y` become REISSUE (R184). -/
def State.reissue (s : State) (y : Nat) : State :=
  { s with leases := s.leases.map fun e => if e.2.holder = y ∧ e.2.st = .held then (e.1, { e.2 with st := .reissue }) else e }

/-- SWITCH: logical Yard `y` is re-pointed to the spare, or becomes vacant; the Yard behind it is retired (R27, R456). ROW, COL and REMAPPED
of a vacant entry read 0 (DESIGN CHOICE, assumption 185). -/
def State.switchYard (s : State) (y old : Nat) (spare : Option Nat) : State :=
  let s1 := (s.retirePhys old).reissue y
  let gen := s1.reg (pgGlobal + 0x3F8) + 1
  match spare with
  | some p =>
    let a := pgGlobal + 0x600 + 8 * p
    let s2 := (s1.setReg (pgGlobal + 0x400 + 8 * y) (mapWord p true)).setReg a (physWord p y 0 (s1.fld a 19 16))
    let s3 := s2.setReg (pgPower 1 + 0x100 + 8 * p) (fieldAt 63 1 + fieldAt 42 750 + fieldAt 32 580)
    (s3.setMapGen gen).yardReset y
  | none => (((s1.yardReset y).setReg (pgGlobal + 0x400 + 8 * y) 0x7F)).setMapGen gen

/-- STOP, SWITCH and DONE of R456; `cause` is 2 for a host request and 3 for the policy's (Table 19.10). -/
def State.retireYard (s : State) (y cause : Nat) (spare : Option Nat) : State :=
  match s.physOf y with
  | none => s
  | some old =>
    let hit := fun (i : Image) => i.names y || i.cross.contains old || (match spare with | some p => i.cross.contains p | none => false)
    let gone := s.images.filter hit
    let ps := (List.range 8).filter fun p => gone.any (·.part == p) || s.partOfYard y == some p
    let s1 := gone.foldl State.stopImage s
    let s2 := ps.foldl (fun (t : State) p => t.fabricReset p 0x0905) s1
    let s3 := s2.switchYard y old spare
    let s4 := s3.yardRetired y old (spare.getD 0x7F) cause ((ps.map fun p => 2 ^ p).foldl (· + ·) 0)
    s4.setFld (pgMon + 0x400 + 8 * y) 15 0 0

/-! ### The arbiter (R419) -/

/-- MA_RESULT and ENDED. -/
def State.maintResult (s : State) (m : MaintOp) (r : Nat) : State :=
  (s.setReg (pgArb + 0x148) (fieldAt 60 m.cls + fieldAt 58 r + m.target)).event pgArb 2

/-- RESULT and CHANNEL of a map-out request; a map-out that runs in the stack keeps its BUSY and PHASE. -/
def State.moShow (s : State) (c r : Nat) (busy : Bool) : State :=
  let a := moSt (c / 32)
  if s.maintRun.any fun m => m.cls == 1 && m.target / 32 == c / 32 then (s.setFld a 59 57 r).setFld a 56 52 (c % 32)
  else s.setReg a (fieldAt 63 (b2n busy) + fieldAt 57 r + fieldAt 52 (c % 32))

/-- An operation begins: what it runs as, or the RESULT with which it ends at once. -/
def State.beginOp (s : State) (m : MaintOp) : (MaintOp ⊕ Nat) × State :=
  match m.cls with
  | 1 => (.inl { m with phase := if s.flag (pgGlobal + 0x928) 63 then 0 else 1 },
          s.setReg (moSt m.stack) (fieldAt 63 1 + fieldAt 60 1 + fieldAt 52 (m.target % 32)))
  | 2 =>
    let a := pgRep m.target + 0x110
    (.inl m, (s.setFlag a 63 true).setFlag a 62 (decide (0 < s.fld (pgTherm m.target + 0x108) 1 0)))
  | 4 =>
    if 32 ≤ m.target ∨ bit s.stayAbsent (m.target / 4) ∨ !(s.flag (pgPort m.target + 0x100) 0) ∨ s.oscOut.contains 1 then (.inr 3, s)
    else (.inl m, s.retrain m.target 0)
  | 5 =>
    if 64 ≤ m.target ∨ !(s.enabled m.target) then (.inr 3, s)
    else match s.chooseSpare ((s.physOf m.target).getD 0) with
      | some p => (.inl { m with phase := 2, spare := some p }, s)
      | none => (.inr 1, s.retireYard m.target (if m.src = 0 then 3 else 2) none)
  | 6 => (.inl m, { s.setReg (pgGlobal + 0x958) (fieldAt 63 1 + fieldAt 60 1) with permute := some {} })
  | _ => (.inl m, s)

/-- An operation starts: STARTED, and it runs or ends at once. -/
def State.startOp (s : State) (m : MaintOp) : State :=
  match (s.event pgArb 1).beginOp m with
  | (.inl k, s1) => { s1 with maintRun := s1.maintRun ++ [k] }
  | (.inr r, s1) => s1.maintResult m r

/-- Whether the arbiter may start a request now: a Masthead is primary (R414), and one of the policy starts only while WINDOW is 1 (R417). -/
def State.mayStart (s : State) (m : MaintOp) : Bool := s.primary.isSome && (m.src != 0 || s.flag (pgArb + 0x100) 0)

/-- The arbiter examines its queue, oldest first: `kept` are the older requests that still wait. -/
def State.examineQueue (s : State) (kept : List MaintOp) : List MaintOp → State
  | [] => { s with maintQueue := kept }
  | m :: q =>
    if s.maintRun.all m.with_ && kept.all m.with_ && s.mayStart m then (s.startOp m).examineQueue kept q
    else s.examineQueue (kept ++ [m]) q

/-- A running operation of a class and target ends with RESULT `r`; the queue is examined. -/
def State.endMaint (s : State) (cls target r : Nat) : State :=
  match s.maintRun.find? fun m => m.cls == cls && m.target == target with
  | none => s
  | some m =>
    let s1 := { s with maintRun := s.maintRun.filter fun k => !(k.cls == cls && k.target == target) }
    (s1.maintResult m r).examineQueue [] s1.maintQueue

/-- MAINT_DEFERRED (Table 17.13). -/
def State.deferred (s : State) (m : MaintOp) (cause blocker : Nat) : State :=
  s.faultEv pgArb 0x0A01 (fieldAt 60 m.cls + fieldAt 58 cause + fieldAt 54 blocker + m.target) 0

/-- A request's own status register shows it as deferred, BUSY while it is queued. -/
def State.showDeferred (s : State) (m : MaintOp) (busy : Bool) : State :=
  match m.cls with
  | 1 => s.moShow m.target 6 busy
  | 6 => s.setReg (pgGlobal + 0x958) (fieldAt 63 (b2n busy) + fieldAt 57 3)
  | _ => s

/-- A request reaches the arbiter (R419). -/
def State.maintAsk (s : State) (m : MaintOp) : State :=
  let same := fun (k : MaintOp) => k.cls == m.cls && k.target == m.target
  if s.maintRun.any same || s.maintQueue.any same then s.deferred m 3 0
  else match (s.maintRun ++ s.maintQueue).find? fun k => !(m.with_ k) with
    | none => s.startOp m
    | some k =>
      if s.maintQueue.length < 4 then ({ s with maintQueue := s.maintQueue ++ [m] }.showDeferred m true).deferred m 1 k.cls
      else (s.showDeferred m false).deferred m 2 k.cls

end Sys2Proof.Machine
end

