-- ==== Sys2Proof/Machine/PartReset.lean ====
section
/-! DEFINITION. The end of a permute without a flip (R347), the partition reset (R434), BR_RESET (R436, R437). -/
namespace Sys2Proof.Machine

/-! ### Permute (R347) -/

/-- The key of the last finished instance of a permute's or gate's agreement (R336). -/
def agreeKey (perm : Bool) (j g : Nat) : Nat := 4096 * b2n perm + 16 * g + j

/-- The contributions to the permute's agreement counted at this device: its own and its children's. -/
def State.permCount (s : State) : Nat :=
  match s.agrees.find? (·.perm) with
  | some a => b2n a.own.isSome + a.heard.length
  | none => 0

/-- ERR_INFO of a permute's faults (Table 14.7). -/
def State.permInfo (s : State) (cause : Nat) : Nat :=
  let c := s.reg (pgGlobal + 0x940)
  fieldAt 56 (bits c 59 52) + fieldAt 39 0x1FE + fieldAt 36 cause + fieldAt 32 (bits c 63 60) + fieldAt 16 (stopAt 0xFFFF s.permCount) +
    s.fld (pgGlobal + 0x948) 31 16

/-- The permute ends with RESULT 2: PERMUTE_ABORT with `cause`, and the held records are released (R347). -/
def State.permAbort (s : State) (cause : Nat) : State :=
  let a := pgGlobal + 0x958
  let s1 := ((((s.setFlag a 63 false).setFld a 62 60 0).setFld a 59 57 2).setFld a 56 53 cause)
  let s2 := { s1 with permute := none, agrees := s1.agrees.filter fun g => !g.perm }
  ((s2.fault pgGlobal 0x0706 (s.permInfo cause)).event pgGlobal 4).endMaint 6 (s.fld (pgGlobal + 0x940) 63 60) 2

/-! ### Partition reset (R434) -/

/-- What is kept by job returns to its reset value. -/
def State.clearJob (s : State) (j : Nat) : State :=
  let s0 := s.resetRegs (pgDoor j) (pgDoor j + 0x1000)
  let s1 := { s0 with
    stepHeld := Tab.del s0.stepHeld j, phaseHeld := Tab.del s0.phaseHeld j, rings := Tab.del s0.rings j
    pipeTag := Tab.del s0.pipeTag j, pipeEnd := Tab.del s0.pipeEnd j, spikeX := Tab.del s0.spikeX j, phaseFrom := Tab.del s0.phaseFrom j
    phaseT0 := Tab.del s0.phaseT0 j, epochs := Tab.del s0.epochs j, phaseHeard := Tab.del s0.phaseHeard j
    yieldAt := Tab.del s0.yieldAt j, yieldWarned := s0.yieldWarned.filter fun k => !(k % 16 == j)
    heldOnClose := s0.heldOnClose.filter fun k => !(k == j)
    agrees := s0.agrees.filter fun g => !(g.job == j)
    norms := s0.norms.filter fun n => !(n.job == j) }
  let s2 := (List.range 16384).foldl (fun (t : State) e =>
    if t.fld (lntAddr e) 59 56 = j then t.resetRegs (lntAddr e) (lntAddr e + 64) else t) s1
  (List.range 255).foldl (fun (t : State) g =>
    if t.fld (pgGroup g) 59 56 = j then t.setFlag (pgGroup g) 63 false else t) s2

/-- A partition reset of partition `p`. -/
def State.partitionReset (s : State) (p : Nat) : State :=
  let ys := s.yardsOf p
  let js := s.jobsOf p
  let s1 := s.fabricReset p 0
  let a := pgPart p + 0x1D0
  let s2 := if s1.flag a 63 then ((((s1.setFlag a 63 false).setFld a 62 60 2).setFld a 59 56 0).setFld a 15 0 0).jobEvent p (s1.fld a 55 52) 0 else s1
  let s3 := { s2 with loads := s2.loads.filter fun l => !(l.part == p) }
  let s4 := (s3.images.filter (·.part == p)).foldl State.dropImage s3
  let s5 := if s4.permute.isSome ∧ js.contains (s4.fld (pgGlobal + 0x940) 63 60) then s4.permAbort 4 else s4
  let s6 := ys.foldl State.yardReset s5
  let s7 := js.foldl (fun (t : State) j => t.clearJob j) s6
  let s8 := (List.range 1024).foldl (fun (t : State) c =>
    if bits (t.wcWord c 1) 61 59 = p ∧ bit (t.wcWord c 1) 63 then t.clearCounter c else t) s7
  let s9 := (List.range 8).foldl (fun (t : State) d => t.resetRegs (pgEngine d) (pgEngine d + 0x1000)) s8
  let s10 := s9.resetRegs (pgPart p + 0x100) (pgPart p + 0x1000)
  { s10 with buckets := Tab.clear (fun k => k / 32 % 8 == p) s10.buckets, regLive := Tab.clear (fun k => k % 8 == p) s10.regLive,
             regHeldAt := Tab.clear (fun k => k % 8 == p) s10.regHeldAt,
             moved := Tab.del s10.moved p }

/-! ### BR_RESET -/

/-- A die's junction is below 90 °C (R408). -/
def State.coolDie (s : State) (k : Nat) : State :=
  { s with hotYards := s.hotYards.filter fun x => !(x == k), warmDies := s.warmDies.filter fun x => !(x == k) }

/-- A die's junction is at 90 °C or above. -/
def State.warmDie (s : State) (k : Nat) : State := { s with warmDies := s.warmDies.filter (fun x => !(x == k)) ++ [k] }

/-- Whether a junction trip keeps the device stopped: some junction is not below 90 °C (R408). -/
def State.tripHolds (s : State) : Bool := s.thermtrip && !s.warmDies.isEmpty

/-- A write to BR_RESET from `source` (1 port A, 2 port B, 4 SMBus) starts the widest reset it names (R436, R437); `ms` is what a
partition or Yard reset takes. After a junction trip cold and warm resets wait until every junction is below 90 °C (R408; a request before
that is refused, DEDUCED, assumption 48). -/
def State.brReset (s : State) (w source ms : Nat) : State :=
  let s1 := s.storeReg (pgBare + 0x108) w (2 ^ 64 - 1)
  let key := bits (maskAnd w (maskedBits w)) 23 16
  if key ≠ 0xA5 then s1
  else if acts w 0 then (if s1.coldRuns || s1.tripHolds then s1.refuseReset else s1.coldReset 2 source)
  else if acts w 1 then (if s1.isReady && !s1.tripHolds then s1.warmReset source else s1.refuseReset)
  else if acts w 2 then
    if !s1.isReady || s1.stage == 8 then s1.refuseReset
    else
      let p := s1.fld (pgBare + 0x108) 9 7
      (s1.partitionReset p).resetDone 4 source p ms s1.now
  else if acts w 3 then
    if !s1.isReady || s1.stage == 8 then s1.refuseReset
    else
      let y := s1.fld (pgBare + 0x108) 15 10
      if s1.yardUsed y then s1.refuseReset else (s1.yardReset y).resetDone 5 source y ms s1.now
  else s1

end Sys2Proof.Machine
end

