-- ==== Sys2Proof/Machine/Flags.lean ====
section
/-! DEFINITION. What registers read as (R384, R386, R387): the status registers whose value the machine's other state gives, and the
read of any register. -/
namespace Sys2Proof.Machine

/-! ### Steering records -/

/-- KIND of a steering record (Table 4.12). -/
def stKind (body : Nat) : Nat := bits body 129 128
/-- MODE of a steering record. -/
def stMode (body : Nat) : Nat := bits body 131 130
/-- LIMIT of a steering record. -/
def stLimit (body : Nat) : Nat := bits body 191 160

/-! ### Status registers of units (Tables 5.12..5.14, 6.12..6.15, 11.11, 3.11, 3.12) -/

/-- ACTIVE, SLOT, JOB, SECTION and TAG. -/
def statusWord (x : UnitState) : Nat :=
  match x.active, x.activeRec with
  | some k, some r => fieldAt 63 1 + fieldAt 60 k + fieldAt 56 (x.slot k).job + fieldAt 40 r.section_ + fieldAt 16 x.lastTag
  | _, _ => fieldAt 16 x.lastTag

/-- FMT_A and FMT_B never read 0xF (Table 5.12): an active slot whose section left no latched format shows 0 (DESIGN CHOICE, assumption 172). -/
def shownFmt (f : Nat) : Nat := if f = 0xF then 0 else f

/-- PASS and FTQ of a VU (Table 6.12): the last pass is in progress once the results are formed and their tokens leave. -/
def vuProgress (q : VuPlan) : Option Firing → Nat
  | none => 0
  | some f => fieldAt 38 (if f.formed then q.passes else 1) + (if f.formed then 0 else fieldAt 11 (min 16 (q.queueTiles f.got)))

/-- MU_STATUS, VU_STATUS or SU_STATUS. -/
def unitStatus (s : State) (y u : Nat) : Nat :=
  let x := s.unit y u
  let base := statusWord x
  let more := match x.activeRec with
    | none => 0
    | some r =>
      let (ext, l) := x.activeSet_ u r
      if u < 16 then fieldAt 36 (shownFmt (muPlan r.body ext l).fa) + fieldAt 32 (shownFmt (muPlan r.body ext l).fb)
      else if u < 20 then vuProgress (vuPlan r.body ext l) x.firing
      else fieldAt 36 (suPlan r.body ext l).mode + stopAt 0xFFFF (sumNat (x.ring.map fun it => it.bursts.length))
  let notices := match x.activeRec, x.firing with
    | some r, some f => if 16 ≤ u ∧ u < 20 ∧ bit (vuDesc r.body) 4 then min 1024 (Tab.get [] f.got 0).length else 0
    | _, _ => 0
  base + more + notices

/-- MU_SHAPE, VU_SHAPE (offset 0x108). -/
def unitShape (s : State) (y u : Nat) : Nat :=
  let x := s.unit y u
  match x.activeRec with
  | none => 0
  | some r =>
    let (ext, l) := x.activeSet_ u r
    if u < 16 then
      let q := muPlan r.body ext l
      fieldAt 42 q.m + fieldAt 21 q.n + q.k
    else
      let q := vuPlan r.body ext l
      fieldAt 42 q.m + fieldAt 21 q.n + q.p

/-- MU_FOLD. -/
def unitFold (s : State) (y u : Nat) : Nat :=
  let x := s.unit y u
  match x.activeRec with
  | none => 0
  | some r =>
    let (ext, l) := x.activeSet_ u r
    let q := muPlan r.body ext l
    fieldAt 23 (bits (foldDesc r.body) 35 34) + fieldAt 21 q.mode + q.p

/-- MU_SLOT[k], VU_SLOT[k], SU_SLOT[k]. -/
def slotWord (x : UnitState) (k : Nat) : Nat :=
  let v := x.slot k
  let head := fieldAt 62 (b2n v.reserved) + fieldAt 61 (b2n v.live) + fieldAt 60 (b2n (x.active == some k)) + fieldAt 56 v.job + stopAt (2 ^ 32 - 1) v.fired
  match v.record with
  | some r => fieldAt 63 1 + fieldAt 40 r.section_ + fieldAt 32 r.next + head
  | none => head

/-- SW_LEVEL's computed fields: the queues that hold 16 tokens, each rail of an edge having its own. -/
def swLevel (s : State) (y : Nat) : Nat :=
  let rails := ((List.range 4).map fun e => b2n (decide (16 ≤ s.railHeld y e .a)) + b2n (decide (16 ≤ s.railHeld y e .b))).foldl (· + ·) 0
  let full := rails + ((s.switch y).inQ.filter fun e => decide (16 ≤ e.2.length) && !(decide (e.1 < 64) && e.1 % 16 == 9)).length +
    ((List.range 38).map fun u => ((s.unit y u).queues.filter fun e => decide (16 ≤ e.2.length)).length).foldl (· + ·) 0
  fieldAt 16 (stopAt 0xFFFF (s.heldTokens y)) + full

/-- ST_STATE[i]. -/
def stState (s : State) (y i : Nat) : Nat :=
  let x := s.unit y (22 + i)
  let r := (x.activeRec.map (·.body)).getD 0
  let kind := if x.active.isSome then stKind r else 0
  let mode := if kind = 3 then stMode r else 0
  fieldAt 62 kind + fieldAt 60 mode + fieldAt 48 x.tags.length + fieldAt 32 (if kind = 2 then x.drops else 0) +
    (if kind = 3 ∧ mode ≠ 1 then stLimit r else 0)

/-- A word of the tag-store window (Table 3.14). -/
def tagWord (x : UnitState) (e w : Nat) : Nat :=
  match x.tags[e]? with
  | none => 0
  | some t =>
    if w = 0 then fieldAt 63 1 + fieldAt 62 (b2n t.count) + fieldAt 59 t.slot + fieldAt 54 t.pos + fieldAt 48 e + t.tok.hdr.toNat
    else if t.count then t.k % 2 ^ 32 else t.tok.payload % 2 ^ 64

/-! ### Yard cores and counters -/

/-- YC_STATUS. -/
def ycStatus (s : State) (y : Nat) : Nat :=
  let x := s.core y
  let ex := (x.ctxs.map fun e => 2 ^ e.1).foldl (· + ·) 0
  match x.cur with
  | some j => fieldAt 63 1 + fieldAt 56 j + fieldAt 32 (((s.ctx y j).map (·.pc)).getD 0 % 2 ^ 18) + ex
  | none => ex

/-- YC_CTX[j]. -/
def ycCtx (s : State) (y j : Nat) : Nat :=
  match s.ctx y j with
  | none => 0
  | some c => fieldAt 61 c.st.code + fieldAt 32 (c.shownPc % 2 ^ 18) + c.seq % 2 ^ 32

/-- Lease entries HELD or REISSUE. -/
def State.leasesUsed (s : State) : Nat := (s.leases.filter fun e => !(e.2.st == .free)).length

/-- PEAK of WC_LEASES in the page of Yard core `y` takes in the entries in use (Table 7.12). -/
def State.peakAt (s : State) (y : Nat) : State :=
  if s.fld (pgCore y + 0x210) 28 16 < s.leasesUsed then s.setFld (pgCore y + 0x210) 28 16 s.leasesUsed else s

/-! ### Other status -/

/-- IRQ as PG_STATUS shows it: a page whose block is absent shows 0 (R386, R392). -/
def State.shownIrq (s : State) (pg : Nat) : Bool := !(s.isReady && s.absent pg) && s.irq pg

/-- ALERT_N (R463): asserted while FAULT_N is, or while IRQ of the Bare page or of power page 0 is 1. -/
def State.alertN (s : State) : Bool := s.flag (pgBare + 0x100) 62 || s.shownIrq pgBare || s.shownIrq (pgPower 0)

/-- Whether any of some pages has IRQ = 1 (R393). -/
def State.anyIrq (s : State) (ps : List Nat) : Bool := ps.any s.shownIrq

/-- The pages of logical Yard `y`. -/
def yardPages (y : Nat) : List Nat :=
  [pgYard y, pgSwitch y, pgCore y] ++ (List.range 22).map (pgUnit y)

/-- GLB_EVT_YARDS (Table 16.13). -/
def evtYards (s : State) : Nat := ((List.range 64).map fun y => fieldAt y (b2n (s.anyIrq (yardPages y)))).foldl (· + ·) 0

/-- GLB_EVT_SUM (Table 16.13). -/
def evtSum (s : State) : Nat :=
  let at_ := fun (i : Nat) (ps : List Nat) => fieldAt i (b2n (s.anyIrq ps))
  let ys := (List.range 8).map fun g => fieldAt (56 + g) (b2n (((List.range 8).any fun i => s.anyIrq (yardPages (8 * g + i)))))
  let hs := (List.range 32).map fun h => at_ (24 + h) [pgHc h, pgPhy h, pgTherm h, pgRep h, pgSlice h]
  let ds := (List.range 8).map fun d => at_ (16 + d) ((List.range 4).map (fun q => pgPort (4 * d + q)) ++ [pgEngine d])
  let ps := (List.range 8).map fun p => at_ (6 + p) [pgPart p]
  (ys ++ hs ++ ds ++ ps ++ [at_ 15 [pgMon], at_ 14 [pgArb], at_ 5 [pgPower 0, pgPower 1], at_ 4 [pgHost true], at_ 3 [pgHost false],
    at_ 2 [pgMast true], at_ 1 [pgMast false], at_ 0 [pgGlobal]]).foldl (· + ·) 0

/-- STANDBY_OK: the Masthead without the latch is STANDBY, its shroud has not failed, and heartbeats reach it (R411, R413). -/
def State.standbyOk (s : State) : Bool :=
  match s.latch with
  | none => false
  | some l => s.role (l == 0) == 2 && !s.shroudLost && decide (s.beatNs < 1000000)

/-- GLB_STATUS (Table 16.13). -/
def glbStatus (s : State) : Nat :=
  fieldAt 63 (b2n s.isReady) + fieldAt 62 (b2n (s.flag (pgBare + 0x100) 62)) +
    fieldAt 61 (match s.latch with | some l => l.val | none => 0) + fieldAt 60 (b2n s.standbyOk)

/-- Owner code of a semaphore. -/
def State.semOwner (s : State) (i : Nat) : Nat := s.fld (pgGlobal + 0x200 + 8 * i) 1 0

/-- PT_JOB_STATUS with INFLIGHT and CONTEXTS. -/
def jobStatus (s : State) (p j : Nat) : Nat :=
  let on := (s.yardsOf p).filter fun y => (s.core y).cur == some j
  let stored := s.reg (pgPart p + 0x208 + 16 * j)
  setBits (setBits stored 61 60 (if s.flag (pgPart p + 0x200 + 16 * j) 63 then min 3 (s.sectionsOf j).length else 0)) 15 0 on.length

/-- CE_STATUS (Table 14.6). -/
def ceStatus (s : State) (d : Nat) : Nat :=
  let x := s.engine d
  match x.running with
  | [] => 0
  | r :: _ => fieldAt 63 1 + fieldAt 60 (min 4 x.running.length) + fieldAt 56 r.wait.job + fieldAt 47 r.wait.index + r.wait.tag

/-- MA_RUN (Table 17.11); the patrol scrub runs while SCRUB_EN = 1 (Table 17.3). -/
def maRun (s : State) : Nat :=
  ((List.range 8).map fun c => fieldAt c (b2n (s.maintRun.any (·.cls == c) || (c == 3 && s.live && s.flag (pgArb + 0x100) 1)))).foldl
    (· + ·) 0

/-- MA_QUEUE[k]. -/
def maQueue (s : State) (k : Nat) : Nat :=
  match s.maintQueue[k]? with
  | some m => fieldAt 63 1 + fieldAt 61 m.src + fieldAt 57 m.cls + m.target
  | none => 0

/-- The job whose registers hold offset `o` of a partition page (R210, R226, R256, R349). -/
def jobOfOffset (o : Nat) : Option Nat :=
  if 0x400 ≤ o ∧ o < 0x800 then some ((o - 0x400) / 0x40)
  else if 0x800 ≤ o ∧ o < 0xA00 then some ((o - 0x800) / 0x20)
  else if 0xA00 ≤ o ∧ o < 0xE00 then some ((o - 0xA00) / 0x40)
  else if 0xE00 ≤ o ∧ o < 0x1000 then some ((o - 0xE00) / 0x20)
  else none

/-- Whether offset `o` of partition page `p` belongs to a job that does not run there: it reads its reset value, and writes to it are
ignored. -/
def foreignJobReg (s : State) (p o : Nat) : Bool :=
  match jobOfOffset o with
  | some j => !((s.jobsOf p).contains j)
  | none => false

/-- The value register `a` of a present block reads as. -/
def readPresent (s : State) (a : Nat) : Nat :=
  let v := s.reg a
  let o := a % 0x1000
  let y := (a - 0x100_0000) / 0x4_0000
  match windowKind a with
  | 4 =>
    let r := a % 0x4_0000 - 0x2_0000
    tagWord (s.unit y (r / 0x400)) (r % 0x400 / 16) (r % 16 / 8)
  | 0 =>
    if o = 0x30 then s.reg (pageBase a + 0x18)
    else if o < 0x100 then v
    else match pageType (a / 0x1000) with
      | 0x01 =>
        if o = 0x110 then glbStatus s else if o = 0x118 then evtSum s else if o = 0x120 then evtYards s
        else if 0x200 ≤ o ∧ o < 0x300 then (if v % 4 = 0 then 0 else 2 ^ 63 + v % 4)
        else if o = 0x310 then ((List.range 32).map fun i => fieldAt (2 * i) (s.semOwner i)).foldl (· + ·) 0 else v
      | 0x03 => if o = 0x100 then setBits v 31 0 (stopAt (2 ^ 32 - 1) (s.stageNs / 1000000)) else v
      | 0x04 =>
        if o = 0x118 then ((List.range 32).map fun i => fieldAt i (b2n (s.semOwner i == a / 0x1000 - 3))).foldl (· + ·) 0 else v
      | 0x06 =>
        let p := a / 0x1000 - 0x20
        if o = 0x100 then setBit v 61 (s.partOn p && s.saveOk p)
        else if 0x200 ≤ o ∧ o < 0x300 ∧ o % 16 = 8 then jobStatus s p ((o - 0x200) / 16)
        else if 0x300 ≤ o ∧ o < 0x380 then
          ((List.range 64).map fun b => fieldAt b (b2n (s.granted p (64 * ((o - 0x300) / 8) + b)))).foldl (· + ·) 0
        else if foreignJobReg s p o then (regReset a).toNat
        else v
      | 0x07 => if o = 0x120 then maRun s else if 0x128 ≤ o ∧ o < 0x148 then maQueue s ((o - 0x128) / 8) else v
      | 0x09 => if 0x180 ≤ o ∧ o < 0x1C0 then setBits v 55 48 (s.rxUsed (a / 0x1000 - 0x100) ((o - 0x180) / 8)) else v
      | 0x0A => if o = 0x100 then ceStatus s (a / 0x1000 - 0x120) else v
      | 0x0E =>
        if 0x200 ≤ o ∧ o < 0x300 then
          ((List.range 64).map fun b => fieldAt b (b2n (s.spare (32 * ((a / 0x1000 - 0x200) / 4) + (o - 0x200) / 8) b))).foldl (· + ·) 0
        else v
      | 0x10 =>
        if o = 0x180 then ((List.range 16).map fun i => fieldAt (16 + i) (b2n (s.chLive (homeFirst y + i)))).foldl (· + ·) 0 + homeFirst y
        else if o = 0x188 then
          fieldAt 32 (s.stowCap y / 0x10_0000 % 2 ^ 16) +
            fieldAt 16 (ceilDiv (sumNat ((s.stowExtents y).map fun e => ceilDiv e.2 4096 * 4096)) 0x10_0000 % 2 ^ 16) + v % 64
        else v
      | 0x11 =>
        if o = 0x128 then v + swLevel s y else if 0x200 ≤ o ∧ o < 0x280 then stState s y ((o - 0x200) / 8) else v
      | 0x12 =>
        if o = 0x100 then ycStatus s y else if 0x180 ≤ o ∧ o < 0x200 then ycCtx s y ((o - 0x180) / 8)
        else if o = 0x208 then s.wcWord (s.fld (pgCore y + 0x200) 9 0) (s.fld (pgCore y + 0x200) 17 16)
        else if o = 0x210 then v + s.leasesUsed else v
      | 0x13 =>
        let u := 20 + (a / 0x1000 % 64 - 3)
        if o = 0x100 then unitStatus s y u else if 0x180 ≤ o ∧ o < 0x1C0 then slotWord (s.unit y u) ((o - 0x180) / 8) else v
      | 0x14 =>
        let u := 16 + (a / 0x1000 % 64 - 5)
        if o = 0x100 then unitStatus s y u else if o = 0x108 then unitShape s y u
        else if 0x180 ≤ o ∧ o < 0x1C0 then slotWord (s.unit y u) ((o - 0x180) / 8) else v
      | 0x15 =>
        let u := a / 0x1000 % 64 - 16
        if o = 0x100 then unitStatus s y u else if o = 0x108 then unitShape s y u else if o = 0x138 then unitFold s y u
        else if 0x180 ≤ o ∧ o < 0x1C0 then slotWord (s.unit y u) ((o - 0x180) / 8) else v
      | _ => v
  | _ => v

/-- The value register `a` reads as (R384, R386, R387): a reserved offset reads 0; of an absent block only PG_IDENT and PG_STATUS
read other than 0. -/
def readReg (s : State) (a : Nat) : Nat :=
  match regRow a with
  | none => 0
  | some _ =>
    let gone := s.isReady && s.absent a
    let hdr := inPage a
    if hdr && a % 0x1000 == 0 then
      fieldAt 56 (pageType (a / 0x1000)) + fieldAt 32 (pageInstance (a / 0x1000)) + fieldAt 16 1
    else if hdr && a % 0x1000 == 0x10 then
      if gone then 8
      else fieldAt 2 (b2n !(s.fld (pageBase a + 0x48) 1 0 == 0)) + fieldAt 1 (b2n (s.irq (pageBase a))) +
        b2n !(s.fld (pageBase a + 0x38) 15 0 == 0)
    else if gone then 0
    else readPresent s a

end Sys2Proof.Machine
end

