-- ==== Sys2Proof/Machine/Fabric.lean ====
section
/-! DEFINITION. The networks move: switches route (R52, R62, R70, R86), crossings pass (R471), halyard receivers match the copies of
two rails (R61, R63). -/
namespace Sys2Proof.Machine

/-- The command has its effect only while the device runs (STAGE READY). -/
def State.whenLive (s : State) (f : State → State) : State := if s.live then f s else s

/-! ### Units and their switch -/

/-- The lane a unit's output leaves on: output `k` on plane `k` of the vector network (DESIGN CHOICE, assumption 34), the scalar lane,
the halyard. -/
def outLane (net k : Nat) : Nat := if net = 0 then k % 8 else if net = 1 then 8 else 9

/-- Tokens of a unit's outbox enter the input queues of its switch, in order on each lane, while there is room (R64). -/
def State.pumpUnit (s : State) (y u : Nat) : State :=
  let go := fun (a : State × List OutTok) (o : OutTok) =>
    let l := laneCode o.lane
    let q := a.1.inQueue y (8 + u) l
    if a.2.any (fun k => laneCode k.lane == l) || decide (16 ≤ q.length) then (a.1, a.2 ++ [o])
    else (a.1.setInQueue y (8 + u) l (q ++ [o.tok]), a.2)
  let r := (s.unit y u).outbox.foldl go (s, [])
  r.1.setUnit y u { r.1.unit y u with outbox := r.2 }

/-- Whether the active record of SU `u` is a DELAY. -/
def UnitState.isDelay (x : UnitState) (u : Nat) : Bool :=
  decide (20 ≤ u ∧ u < 22) && (match x.activeRec with
    | some r => bits (suDesc r.body) 3 0 == 3
    | none => false)

/-- The firing a DELAY emits leaves its ring once its outputs have accepted all of it, and a leave that waited goes on with the ring empty
(R273). -/
def UnitState.ringOut (x : UnitState) : UnitState :=
  match x.ring with
  | it :: rest =>
    if it.sent && x.outbox.isEmpty then
      let x1 := { x with ring := rest }
      if rest.isEmpty ∧ x.leaving then x1.leave else x1
    else x
  | [] => x

/-- All that has room goes; what an SU reads leaves when memory has answered, and the notice of a write when memory has accepted it
(R271). -/
def State.pumpOut (s : State) (y u : Nat) : State :=
  let x := s.unit y u
  if 20 ≤ u ∧ u < 22 ∧ 0 < (if x.isDelay u then x.ringWait else x.memWait) then s
  else if x.isDelay u then
    let t := s.pumpUnit y u
    let v := (t.unit y u).ringOut
    if (t.unit y u).ring.length = v.ring.length then t else (t.setUnit y u v).pumpUnit y u
  else s.pumpUnit y u

/-- The slot of the frame whose last token has been injected is free; a LINK frame returns its credit (R316). -/
def State.slotGone (s : State) (x : InjTok) : State :=
  match x.slot with
  | some (q, vc) => (s.freeSlot q vc).sendLink q vc x.dev false
  | none => s

/-- Tokens delivered to the outer edges enter their switches or the crossing latches of the non-enabled Yards there, in order, while there
is room (R315, R471). -/
def State.pumpInject (s : State) : State :=
  let go := fun (a : State × List InjTok × List InjTok) (x : InjTok) =>
    let p := x.inp / 16
    let l := x.inp % 16
    let q := a.1.inQueue x.y p l
    let k := (4 * (x.y - 64) + p) * 16 + l
    if x.y < 64 then
      if q.length < 16 then (a.1.setInQueue x.y p l (q ++ [x.tok]), a.2.1, a.2.2 ++ [x]) else (a.1, a.2.1 ++ [x], a.2.2)
    else if (Tab.find? a.1.crossTok k).isNone then ({ a.1 with crossTok := Tab.put a.1.crossTok k x.tok }, a.2.1, a.2.2 ++ [x])
    else (a.1, a.2.1 ++ [x], a.2.2)
  let r := s.inject.foldl go (s, [], [])
  r.2.2.foldl State.slotGone { r.1 with inject := r.2.1 }

/-! ### TOKEN_ROUTE -/

/-- Key of an input queue. -/
def inKey (p l : Nat) : Nat := 16 * p + l

/-- The outputs the head of queue `k` still waits for. -/
def State.wants (s : State) (y k : Nat) : List (Nat × Nat) :=
  match Tab.get [] (s.switch y).inQ k with
  | [] => []
  | t :: _ =>
    match s.routeFor y (k / 16) (laneNet (k % 16)) t with
    | none => []
    | some r => (r.lanes (k % 16)).filter fun o => !((Tab.get [] (s.switch y).copied k).contains (inKey o.1 o.2))

/-- The first queue after a limit in cyclic order. -/
def nextAfter (ks : List Nat) (f : Nat → Nat) : Option Nat → Option Nat
  | none => ks.head?
  | some last => (ks.find? fun k => decide (last < f k)).orElse fun _ => ks.head?

/-- The queues that wait for an output lane. Both rails of an edge carry the same tokens in the same order (R61): while one rail has
accepted a head and the other has not, no other head is served there. -/
def State.waitersOf (s : State) (y o l : Nat) : List Nat :=
  let w := s.switch y
  let ks := w.inQ.map (·.1)
  let waiting := ks.filter fun k => (s.wants y k).contains (o, l)
  let half := if l < 9 ∨ 4 ≤ o then [] else ks.filter fun k =>
    let c := Tab.get [] w.copied k
    c.contains (inKey o 9) != c.contains (inKey o 10)
  if half.isEmpty then waiting else waiting.filter half.contains

/-- The queue served next on an output lane: of the first input port after the one last served, in cyclic order (R52), and of that port's
lanes the one after its last served (DESIGN CHOICE, assumption 10). -/
def State.turnOf (s : State) (y o l : Nat) : Option Nat :=
  let t := (s.switch y).served
  let ks := s.waitersOf y o l
  (nextAfter ks (· / 16) ((Tab.find? t (inKey o l)).map (· / 16))).bind fun k =>
    nextAfter (ks.filter fun i => i / 16 == k / 16) (· % 16) (Tab.find? t (4096 * (k / 16 + 1) + inKey o l))

/-- One output accepts the head of queue `k` when it has room and it is that input's turn (R36, R52). -/
def State.copyTo (s : State) (y p k : Nat) (t : Token) (o : Nat × Nat) : State :=
  if s.hasRoom y p o.1 o.2 && s.turnOf y o.1 o.2 == some k then
    let w := s.switch y
    let w1 := { w with copied := Tab.put w.copied k (Tab.get [] w.copied k ++ [inKey o.1 o.2])
                       served := Tab.put (Tab.put w.served (inKey o.1 o.2) k) (4096 * (k / 16 + 1) + inKey o.1 o.2) (k % 16) }
    ((s.setSwitch y w1).putOut y p o.1 o.2 t).progressY y
  else s

/-- The head of queue `k` leaves. -/
def State.popHead (s : State) (y k : Nat) : State :=
  let w := s.switch y
  let s1 := s.setSwitch y { w with inQ := Tab.set [] w.inQ k (Tab.get [] w.inQ k).tail, copied := Tab.del w.copied k }
  if 8 * 16 ≤ k then s1.pumpOut y (k / 16 - 8) else s1.pumpInject

/-- The head of an input queue is routed: a header error is reported (R62), a token without a route is a stray (R70), else each
output that can takes its copy, and the head leaves when all have (R52). -/
def State.routeHead (s : State) (y p k : Nat) (flip : BitVec 32) : State :=
  match Tab.get [] (s.switch y).inQ k with
  | [] => s
  | t0 :: rest =>
    let fresh := (Tab.get [] (s.switch y).copied k).isEmpty
    let t : Token := if fresh then { t0 with hdr := t0.hdr ^^^ flip } else t0
    let s0 := if fresh ∧ flip ≠ 0 then
        let w := s.switch y
        s.setSwitch y { w with inQ := Tab.put w.inQ k (t :: rest) }
      else s
    match tokenError (laneNet (k % 16)) t with
    | some c => s0.ctrlError y 38 c t.hdr.toNat
    | none =>
      match s0.routeFor y (k / 16) (laneNet (k % 16)) t with
      | none => (s0.popHead y k).stray y
      | some r =>
        let s1 := (s0.wants y k).foldl (fun (u : State) o => u.copyTo y p k t o) s0
        if (r.lanes (k % 16)).all fun o => (Tab.get [] (s1.switch y).copied k).contains (inKey o.1 o.2) then s1.popHead y k else s1

/-- TOKEN_ROUTE (R86). -/
def execTokenRoute (y : Yard) (src : SwPort) (lane : Lane) (flip : BitVec 32) (s : State) : Result :=
  .next (s.whenLive fun s =>
    match s.physOf y.val with
    | none => s
    | some p => s.routeHead y.val p (inKey (portCode src) (laneCode lane)) flip)

/-! ### CROSSING_PASS -/

/-- Whether one rail beyond edge `o` of physical Yard `p` can take a copy. -/
def State.railRoom (s : State) (p o : Nat) (r : Rail) : Bool :=
  match s.way p o with
  | .switch z e => s.wireRoom z e r
  | .crossing q => (Tab.find? s.crossRail (crossKey q o r)).isNone
  | _ => false

/-- One rail beyond edge `o` of physical Yard `p` takes a copy. -/
def State.putRail (s : State) (p o : Nat) (r : Rail) (c : BitVec 96) : State :=
  match s.way p o with
  | .switch z e => s.onWire z e r c
  | .crossing q => { s with crossRail := Tab.put s.crossRail (crossKey q o r) c }
  | _ => s

/-- CROSSING_PASS (R471): the token held by a lane of the crossing of a non-enabled Yard goes straight on, to the opposite edge. -/
def execCrossingPass (p : PhysYard) (dir : Edge) (lane : XLane) (flip : BitVec 32) (s : State) : Result :=
  .next (s.whenLive fun s =>
    match lane with
    | .rail r =>
      let k := crossKey p.val dir.val r
      match Tab.find? s.crossRail k with
      | none => s
      | some c =>
        if s.railRoom p.val dir.val r then
          ({ s with crossRail := Tab.del s.crossRail k }).putRail p.val dir.val r (c ^^^ flip.setWidth 96)
        else s
    | _ =>
      let l := match lane with | .plane i => i.val | _ => 8
      let k := (4 * p.val + dir.val) * 16 + l
      match Tab.find? s.crossTok k with
      | none => s
      | some t =>
        if s.hasRoom 0 p.val dir.val l then
          (({ s with crossTok := Tab.del s.crossTok k }).putOut 0 p.val dir.val l { t with hdr := t.hdr ^^^ flip }).pumpInject
        else s)

/-! ### Halyard receivers (R61..R63) -/

/-- A token passed on into the halyard input queue of edge `e`. -/
def State.deliver (s : State) (y e : Nat) (c : BitVec 96) : State :=
  (s.setInQueue y e 9 (s.inQueue y e 9 ++ [ofCopy c])).progressY y

/-- Good copies that no earlier copy holds back pass on, in order (R61, R65; DEDUCED, assumption 35). -/
def State.passFirsts (s : State) (y e : Nat) : State :=
  let l := s.link y e
  let go := fun (a : State × List RailCopy × Bool) (f : RailCopy) =>
    if f.passed then (a.1, a.2.1 ++ [f], a.2.2)
    else if f.good && a.2.2 then (a.1.deliver y e f.copy, a.2.1 ++ [{ f with passed := true }], true)
    else (a.1, a.2.1 ++ [f], false)
  let r := l.firsts.foldl go (s, [], true)
  r.1.setLink y e { r.1.link y e with firsts := r.2.1 }

/-- A rail of edge `e` goes out of service. If it was the rail behind, the copies that waited for it are settled: a bad one among them
is a bad copy on the only working rail. -/
def State.loseRail (s : State) (y e : Nat) (r : Rail) (otherOut : Bool) : State :=
  let l := s.link y e
  let s1 := s.setLink y e (l.lose r otherOut)
  if otherOut ∨ l.ahead = r then s1
  else
    match l.firsts.find? fun f => !f.passed && !f.good with
    | some f => s1.ctrlError y 38 3 f.copy.toNat
    | none => s1

/-- A rail is declared down (R63): SW_RAIL, RAIL_DOWN, a hit (R455). -/
def State.railDown (s : State) (y e : Nat) (r : Rail) : State :=
  let s1 := ((s.setFlag (pgSwitch y + 0x108) (railBit e r) true).event (pgSwitch y) 1).yardHit y
  if s.railOut y e r then s1 else s1.loseRail y e r (s.railOut y e (otherRail r))

/-- The links of Yard `y` as the rails in service change from those of `s` to those of `t`. -/
def State.changeRails (s t : State) (y : Nat) : State :=
  (List.range 4).foldl (fun (v : State) e =>
    let a := s.railOut y e .a
    let b := s.railOut y e .b
    let a' := t.railOut y e .a
    let b' := t.railOut y e .b
    let v0 := s.gainRails v y e
    let v1 := if !a && a' then v0.loseRail y e .a (b && b') else v0
    if !b && b' then v1.loseRail y e .b a' else v1) t

/-- The second copy of the oldest first (R61). -/
def State.second (s : State) (y e : Nat) (f : RailCopy) (rest : List RailCopy) (c : BitVec 96) (good : Bool) : State :=
  let s1 := s.setLink y e { s.link y e with firsts := rest }
  if f.good && good then
    if f.copy = c then (if f.passed then s1 else s1.deliver y e c).passFirsts y e
    else s1.ctrlError y 38 2 f.copy.toNat
  else if f.good then (if f.passed then s1 else s1.deliver y e f.copy).passFirsts y e
  else if good then (s1.deliver y e c).passFirsts y e
  else s1.ctrlError y 38 1 f.copy.toNat

/-- One copy from rail `r` is judged. -/
def State.takeCopy (s : State) (y e : Nat) (r : Rail) (c : BitVec 96) : State :=
  let good := copyOk c
  let run := if good then 0 else (match r with | .a => (s.link y e).badA | .b => (s.link y e).badB) + 1
  let s1 := s.setLink y e (match r with
    | .a => { s.link y e with badA := run } | .b => { s.link y e with badB := run })
  let s2 := if good then s1 else (s1.bump (pgSwitch y + (match r with | .a => 0x110 | .b => 0x118)) 1).event (pgSwitch y) 0
  let l := s2.link y e
  let s3 := match l.firsts with
    | f :: rest =>
      if r = l.ahead then
        let t := (s2.setLink y e { l with firsts := l.firsts ++ [{ copy := c, good := good, passed := false }] }).passFirsts y e
        if 16 < (t.link y e).firsts.length then t.railDown y e (otherRail r) else t
      else s2.second y e f rest c good
    | [] =>
      if s2.railOut y e (otherRail r) then (if good then s2.deliver y e c else s2.ctrlError y 38 3 c.toNat)
      else (s2.setLink y e { l with ahead := r, firsts := [{ copy := c, good := good, passed := false }] }).passFirsts y e
  if run = 16 then s3.railDown y e r else s3

/-- HALYARD_COPY_RECEIVE (R61): the receiver of edge `e` takes one copy from one rail. A copy on a rail out of service is dropped; with both
out, the token on rail A fails (Table 3.8). -/
def execHalyardCopyReceive (y : Yard) (e : Edge) (rail : Rail) (flip : BitVec 96) (s : State) : Result :=
  .next (s.whenLive fun s =>
    let l := s.link y.val e.val
    match l.wire rail with
    | [] => s
    | c :: rest =>
      let s1 := s.setLink y.val e.val (l.setWire rail rest)
      if s.railIdle y.val e.val rail then s1
      else if s.railOut y.val e.val rail then s1.ctrlError y.val 38 3 (c ^^^ flip).toNat
      else s1.takeCopy y.val e.val rail (c ^^^ flip))

/-- RAIL_RETRY (R63, Table 3.8): a write to SW_CTRL; with RETRY the rails that are down return to service, and the rails that the write
disables or enables leave or return. -/
def execRailRetry (acc : Acc) (y : Yard) (w : W64) (s : State) : Result :=
  .next (s.hostWrite acc (pgSwitch y.val + 0x100) fun t =>
    let t1 := t.storeReg (pgSwitch y.val + 0x100) w.toNat (accMask acc)
    let t2 := if acts w.toNat 2 then t1.setFld (pgSwitch y.val + 0x108) 7 0 0 else t1
    t.changeRails t2 y.val)

end Sys2Proof.Machine
end

