-- ==== Sys2Proof/Machine/UnitOps.lean ====
section
/-! DEFINITION. Firing units: where tokens go (R70, R71), matching and parking (R66..R68, R75), and bursts. -/
namespace Sys2Proof.Machine

/-! ### Bindings -/

/-- The position a record binds a channel of network `net` to (R107). -/
def CfgRec.pos (r : CfgRec) (net chan : Nat) : Option Nat :=
  firstBelow 4 fun p => bindIs (bindIn r.body p) true net && bindChan (bindIn r.body p) == chan

/-- Slot `k` binds the channel of a token of job `j` to a position. -/
def UnitState.slotPos (x : UnitState) (k j net chan : Nat) : Option Nat :=
  match (x.slot k).record with
  | some r => if (x.slot k).job = j then r.pos net chan else none
  | none => none

/-- The slot and position a token belongs to (R71): the active slot's, else the lowest-numbered slot's that binds its channel. -/
def UnitState.placeOf (x : UnitState) (j net chan : Nat) : Option (Nat × Nat) :=
  match x.active.bind fun k => (x.slotPos k j net chan).map fun p => (k, p) with
  | some r => some r
  | none => (List.range 8).findSome? fun k => (x.slotPos k j net chan).map fun p => (k, p)

/-- The network a token of kind DATA, MARK or CTRL was bound on: positions of the active slot name it. -/
def UnitState.activePos (x : UnitState) (t : Token) (p : Nat) : Bool :=
  match x.active, x.activeRec with
  | some k, some r =>
    (x.slot k).job == t.job && bindValid (bindIn r.body p) && bindChan (bindIn r.body p) == t.chan &&
      ((bindNet (bindIn r.body p) == 2) == (t.kind == 1))
  | _, _ => false

/-- The operand positions the active slot uses. -/
def UnitState.positions (x : UnitState) : List Nat :=
  match x.activeRec with
  | some r => (List.range 4).filter fun p => bindValid (bindIn r.body p)
  | none => []

/-- The queue of a position. -/
def UnitState.queue (x : UnitState) (p : Nat) : List Token := Tab.get [] x.queues p

/-- That queue replaced. -/
def UnitState.setQueue (x : UnitState) (p : Nat) (q : List Token) : UnitState := { x with queues := Tab.set [] x.queues p q }

/-! ### Matching (R66, R67) -/

/-- The oldest parked token of a job and tag for a position of the active slot. -/
def UnitState.parked (x : UnitState) (j t p : Nat) : Option Token :=
  (x.tags.find? fun e => !e.count && e.tok.job == j && e.tok.tag == t && x.activePos e.tok p).map (·.tok)

/-- The head of a position's queue where it has that job and tag and the channel bound to the position. -/
def UnitState.headOf (x : UnitState) (j t p : Nat) : Option Token :=
  match x.queue p with
  | h :: _ => if h.job = j ∧ h.tag = t ∧ x.activePos h p then some h else none
  | [] => none

/-- v of a SELECT (Table 3.4). -/
def selectV (t : Token) : Nat := t.payload % 2

/-- The positions that a firing of (j, t) uses, where `has` finds a token for each (R66, R72, R74): MERGE uses its control and the
data input the selector names; a COUNT in LOOP_DYNAMIC uses L only for a tick that starts a count. -/
def UnitState.usesFor (x : UnitState) (steering : Bool) (j t : Nat) (has : Nat → Option Token) : Option (List Nat) :=
  match x.activeRec with
  | none => none
  | some r =>
    let all := fun (ps : List Nat) => if ps.all (fun p => (has p).isSome) && !ps.isEmpty then some ps else none
    if steering && stKind r.body == 1 then
      match has 2 with
      | some c => all [selectV c, 2]
      | none => none
    else if steering && stKind r.body == 3 then
      if stMode r.body = 1 ∧ !(x.tags.any fun e => e.count && e.tok.job == j && e.tok.tag == t) then all [0, 1] else all [0]
    else all x.positions

/-- A token available for (j, t) at a position: the oldest parked one, else the queue's head. -/
def UnitState.avail (x : UnitState) (j t p : Nat) : Option Token :=
  match x.parked j t p with
  | some e => some e
  | none => x.headOf j t p

/-- What the procedure of R67 finds to fire: job, tag and positions. -/
def UnitState.choose (x : UnitState) (steering : Bool) : Option (Nat × Nat × List Nat) :=
  let whole := x.tags.findSome? fun e =>
    if e.count then none
    else (x.usesFor steering e.tok.job e.tok.tag (x.parked e.tok.job e.tok.tag)).map fun u => (e.tok.job, e.tok.tag, u)
  match whole with
  | some r => some r
  | none => x.positions.findSome? fun p =>
      match x.queue p with
      | [] => none
      | h :: _ =>
        match x.usesFor steering h.job h.tag (x.avail h.job h.tag) with
        | some u => if u.contains p then some (h.job, h.tag, u) else none
        | none => none

/-- The position whose head has the latest tag, the lowest among equals (R67). -/
def UnitState.latest (x : UnitState) : Option Nat :=
  x.positions.foldl (fun (best : Option Nat) p =>
    match best, (x.queue p).head? with
    | some b, some h =>
      (match (x.queue b).head? with
       | some g => if laterThan 16 h.tag g.tag then some p else best
       | none => best)
    | none, some _ => some p
    | _, none => best) none

/-- A queue head moves into the tag store. -/
def UnitState.park (x : UnitState) (p : Nat) : UnitState :=
  match x.queue p with
  | [] => x
  | h :: rest =>
    let k := ((x.placeOf h.job (if h.kind = 1 then 2 else 0) h.chan).orElse fun _ => x.placeOf h.job 1 h.chan).map (·.1)
    { x.setQueue p rest with tags := x.tags ++ [{ count := false, slot := k.getD 0, pos := p, tok := h, k := 0, limit := 0 }] }

/-- TS_PEAK (Table 3.11). -/
def State.tsPeak (s : State) (y n : Nat) : State :=
  if s.fld (pgSwitch y + 0x128) 39 32 < n then s.setFld (pgSwitch y + 0x128) 39 32 n else s

/-- A park, or TAG_OVERFLOW where the tag store is full (R75). -/
def State.parkAt (s : State) (y u p : Nat) : State :=
  let x := s.unit y u
  if x.tags.length < 64 then
    let x1 := x.park p
    ((s.setUnit y u x1).tsPeak y x1.tags.length).progressY y
  else s.tagOverflow y u (((x.queue p).head?.map (·.hdr.toNat)).getD 0)

/-- The positions whose head is foreign, ascending (R71). -/
def UnitState.foreign (x : UnitState) : List Nat :=
  (List.range 4).filter fun p => match x.queue p with
    | [] => false
    | h :: _ => !(x.activePos h p)

/-- The unit as the procedure of R67 sees it: the positions `ps`, whose heads were just parked, as empty. -/
def UnitState.without (x : UnitState) (ps : List Nat) : UnitState := { x with queues := x.queues.filter fun e => !(ps.contains e.1) }

/-- Every foreign head is parked, in ascending position order (R71); one that finds the tag store full starts a fabric reset, which leaves
no other head. -/
def State.parkForeign (s : State) (y u : Nat) : State :=
  (s.unit y u).foreign.foldl (fun (t : State) p => if ((t.unit y u).queue p).isEmpty then t else t.parkAt y u p) s

/-! ### Bursts -/

/-- One token of (j, t) for position `p`: the oldest parked, else the head of the queue (R65, R66). -/
def UnitState.pull (x : UnitState) (j t p : Nat) : Option (Token × UnitState) :=
  match indexWhere (fun e => !e.count && e.tok.job == j && e.tok.tag == t && x.activePos e.tok p) x.tags with
  | some i => (x.tags[i]?).map fun e => (e.tok, { x with tags := dropAt x.tags i })
  | none =>
    match x.headOf j t p with
    | some h => some (h, x.setQueue p (x.queue p).tail)
    | none => none

/-- The rest of a position's burst as far as it has arrived; `n` bounds the tokens. -/
def UnitState.pullBurst (x : UnitState) (j t p : Nat) : (n : Nat) → (got : List Token) → List Token × UnitState
  | 0, got => (got, x)
  | n + 1, got =>
    if burstDone got then (got, x)
    else match x.pull j t p with
      | some (k, x1) => x1.pullBurst j t p n (got ++ [k])
      | none => (got, x)

/-- The bursts of the firing under way take what has arrived, IN0 last, as far as the finished-tile queue of a VU has room (R150). A steering
unit takes its burst token by token (`State.steerOne`), so its firing lists no positions. -/
def UnitState.collect (x : UnitState) (u : Nat) : UnitState :=
  match x.firing with
  | none => x
  | some f =>
    if f.formed then x
    else
      let r := (f.uses.filter (· ≠ 0) ++ f.uses.filter (· = 0)).foldl (fun (a : UnitState × Tab (List Token)) p =>
        let g := Tab.get [] a.2 p
        let all := a.1.tags.length + (a.1.queue p).length + 1
        let n := ((a.1.takeEnd u p a.2).map fun e => min all (e - g.length)).getD all
        let (g1, x1) := a.1.pullBurst f.job f.tag p n g
        (x1, Tab.put a.2 p g1)) (x, f.got)
      { r.1 with firing := some { f with got := r.2 } }

/-- Whether every burst of the firing is whole. -/
def Firing.whole (f : Firing) : Bool := f.uses.all fun p => burstDone (Tab.get [] f.got p)

/-- A firing begins, and takes what has arrived at `uses` (R66). -/
def UnitState.fire (x : UnitState) (u j t : Nat) (uses : List Nat) : UnitState :=
  ({ x with firing := some { job := j, tag := t, uses := uses, got := [], formed := false }, lastTag := t } : UnitState).collect u

/-! ### Outputs -/

/-- The tokens of one burst on an output (R55, R56): an empty one is a MARK. -/
def burstToks (w job tag : Nat) (payloads : List Nat) : List Token :=
  if payloads.isEmpty then [markTok job tag (bindChan w)]
  else ((List.range payloads.length).zip payloads).map fun ip =>
    dataTok job tag (bindChan w) (ip.1 + 1 == payloads.length) ip.2

/-- Tokens put in the outbox on output `k` bound by word `w`; an unbound output sends nothing. -/
def outToks (k w : Nat) (ts : List Token) : List OutTok :=
  if bindValid w then ts.map fun t => { out := k, lane := laneOf (outLane (bindNet w) k), tok := t } else []

/-- A MARK on each bound output (R69). -/
def markAll (outs : List Nat) (job tag : Nat) : List OutTok :=
  ((List.range outs.length).zip outs).flatMap fun kw => outToks kw.1 kw.2 (burstToks kw.2 job tag [])

end Sys2Proof.Machine
end

