-- ==== Sys2Proof/Machine/FireOps.lean ====
section
/-! DEFINITION. What a firing does once its bursts are whole: matrix units (R118..R136), vector units (R139..R160), stowage units
(R265..R277), and the procedure that decides what fires (R67, R71). -/
namespace Sys2Proof.Machine

/-! ### Shared -/

/-- The payloads of a burst; a MARK carries none. -/
def payloads (ts : List Token) : List Nat := (ts.filter fun t => !(t.kind == 2)).map (·.payload)

/-- A firing with mismatched bursts: the counter at offset `o` and the event MISMATCH, 5 in each unit page. -/
def State.mismatch (s : State) (y u o : Nat) : State := (s.bump (pgUnit y u + o) 1).event (pgUnit y u) 5

/-- The firing's results are formed: what it leaves in its unit. -/
def UnitState.formed (x : UnitState) (f : Firing) (toks : List OutTok) : UnitState :=
  { x with firing := some { f with formed := true, got := [] }, outbox := x.outbox ++ toks }

/-- STEP_NF of the job adds what a slot of its plan's PIPE section counted (R200). -/
def State.stepNf (s : State) (x : UnitState) (r : CfgRec) (n : Nat) : State :=
  match x.secOf x.activeJob r with
  | some c => if c.role = 1 ∧ 0 < n then s.bump (pgPart c.part + 0x418 + 0x40 * c.job) n else s
  | none => s

/-- Non-finite values counted in MU_NONFINITE or VU_NONFINITE, with the event when it leaves 0 (Tables 5.15, 6.16). -/
def State.countNf (s : State) (y u : Nat) (x : UnitState) (r : CfgRec) (n : Nat) : State :=
  let a := pgUnit y u + 0x128
  let zero := s.count a == 0
  let s1 := s.bump a n
  (if zero ∧ 0 < n then s1.event (pgUnit y u) 1 else s1).stepNf x r n

/-! ### Matrix units -/

/-- Bytes of block scales of A that the firing needs. -/
def scaleNeedA (q : MuPlan) : Nat := sumNat (q.gcs.map fun gc => q.rows * ceilDiv (q.width gc.1 gc.2) 32)

/-- Bytes of block scales of B that the firing needs. -/
def scaleNeedB (q : MuPlan) : Nat := sumNat (q.gcns.map fun x => ceilDiv (q.width x.1 x.2.1) 32 * q.cols x.2.2)

/-- The operands of a firing and whether a burst was short or long (R123). -/
def muOperands (q : MuPlan) (f : Firing) (buf : Mem) : MuOps × Bool :=
  let toks := fun p => payloads (f.burst p)
  let a := readA q q.gcs { toks := toks 0, short := false }
  let b := readB q q.gcns { toks := toks 1, short := false }
  let pin := pinnedB q buf
  let off := fun (p n : Nat) => !((toks p).length == ceilDiv n 64)
  let hasB := !(q.bMode == 2)
  ({ a := a.1, b := if hasB then b.1 else pin.1
     sa := if fmtMx q.fa then scalesA q (toks 2) else []
     sb := if fmtMx q.fb then (if hasB then scalesB q (toks 3) else pin.2) else [] },
   a.2.short || !a.2.toks.isEmpty || (hasB && (b.2.short || !b.2.toks.isEmpty)) || (fmtMx q.fa && off 2 (scaleNeedA q)) ||
     (hasB && fmtMx q.fb && off 3 (scaleNeedB q)))

/-- A MARK firing of an MU (R69, R134). -/
def State.markMu (s : State) (y u : Nat) (x : UnitState) (f : Firing) (r : CfgRec) (bad : Bool) : State :=
  let pg := pgUnit y u
  let s1 := ((s.setUnit y u (x.formed f (markAll ((List.range 2).map (bindOut r.body)) f.job f.tag))).bump (pg + 0x118) 1).bump (pg + 0x120) 1
  (if bad then s1.mismatch y u 0x140 else s1).pumpOut y u

/-- The operand buffer after a firing: a PIN_LOAD has written the B region; the A area and the staging area of a STREAM hold what the
firing left there, which nothing defines (R126, R128). -/
def State.muBuffer (s : State) (k : Nat) (q : MuPlan) (o : MuOps) : State :=
  let (e, s1) := s.fresh
  let b := memOf s1.opBuf s1.sramEpoch k
  let b1 := b.scramble e (q.aBase * 256) (q.aBase * 256 + q.aNeed)
  let b2 := if q.bMode = 1 then b1.write (q.bBase * 256) (pinBytes q o)
    else if q.bMode = 0 then b1.scramble e (q.bBase * 256) (q.bBase * 256 + min q.bNeed (q.bLen * 256)) else b1
  { s1 with opBuf := setMem s1.opBuf s1.sramEpoch k b2 }

/-- A firing of an MU whose bursts are whole. It waits while it would write an entry of a pending tile (R136). -/
def State.formMu (s : State) (y u : Nat) (x : UnitState) (f : Firing) (r : CfgRec) : State :=
  let (ext, l) := x.activeSet_ u r
  let q := muPlan r.body ext l
  let pg := pgUnit y u
  let k := 64 * y + u
  if f.isMark || q.empty then s.markMu y u x f r (q.empty && f.uses.any fun p => !(f.markAt p))
  else
    let base := q.accBase + (if q.alt && x.altSecond then q.region else 0)
    if x.pendingTiles.any fun e => decide (e < base + q.region ∧ base < e + 1024) then s
    else
      let (o, bad) := muOperands q f (memOf s.opBuf s.sramEpoch k)
      let acc := memOf s.accMem s.sramEpoch k
      let vs := regionValues q o acc base
      let tiles := List.range (q.region / 1024)
      let toks :=
        if q.emit = 1 then outToks 0 (bindOut r.body 0) (burstToks (bindOut r.body 0) f.job f.tag (tilePayloads vs))
        else if q.emit = 2 then outToks 1 (bindOut r.body 1) (burstToks (bindOut r.body 1) f.job f.tag (tiles.map (notifyPayload q base)))
        else []
      let pend := if q.emit = 2 then tiles.map (base + 1024 * ·) else []
      let x1 := { x.formed f toks with altSecond := !x.altSecond, pendingTiles := x.pendingTiles ++ pend }
      let s1 := ({ s with accMem := setMem s.accMem s.sramEpoch k (accWrite acc base vs) }.muBuffer k q o).setUnit y u x1
      let s2 := (((s1.waitNs (pg + 0x130)).bump (pg + 0x110) q.waves).bump (pgYard y + 0x108) q.waves).bump (pg + 0x118) 1
      let s3 := s2.countNf y u x r (if q.emit = 0 then 0 else (vs.filter nonFinite).length)
      (if bad then s3.mismatch y u 0x140 else s3).pumpOut y u

/-! ### Vector units -/

/-- The tile at accumulator entry `e`, read over the bond (R151). -/
def bondTile (acc : Mem) (e : Nat) : List (BitVec 32) := (List.range 1024).map fun i => accRead acc (e + i)

/-- The inputs of a VU firing, and whether some burst was short or long (R149). -/
def vuInputs (q : VuPlan) (f : Firing) (acc : Mem) : VuIn × Bool :=
  let toks := fun p => payloads (f.burst p)
  let per := fun fmt => fmtBits fmt * 1024 / 512
  let t0 := if q.bond then ((toks 0).take q.tiles).map (fun n => bondTile acc (n % 2 ^ 21))
    else tilesFrom q.in0Fmt q.inScale q.tiles (toks 0)
  let need0 := if q.bond then q.tiles else q.tiles * per q.in0Fmt
  let off := fun (p n : Nat) => !((toks p).length == n)
  ({ t0 := t0, t1 := if q.reads 2 then tilesFrom q.in1Fmt q.inScale q.tiles (toks 1) else []
     vec := if q.reads 3 then vecFrom (toks 2) else [], lens := if q.usesLen then lensFrom (toks 3) else [] },
   off 0 need0 || (q.reads 2 && off 1 (q.tiles * per q.in1Fmt)) || (q.reads 3 && off 2 (ceilDiv q.vecLen 16)) ||
     (q.usesLen && off 3 (ceilDiv q.rows 2)))

/-- FP32 values as bytes. -/
def f32Bytes (vs : List (BitVec 32)) : List Byte := vs.flatMap fun v => leBytes 4 v.toNat

/-- The tile registers after a firing (R141, R153): row states from REG_BASE, the vector behind them, then captured tiles. -/
def vuRegsAfter (q : VuPlan) (x : VuIn) (o : VuOut) (m : Mem) : Mem :=
  let at_ := fun (r : Nat) => r * 4096
  let rows := fun (t : Tab (BitVec 32)) (d : BitVec 32) => f32Bytes ((List.range q.rows).map fun i => Tab.get d t i)
  let m1 := if 0 < q.rowN ∧ (q.reduces ∨ q.rowOut ≠ 0) then
      (m.write (at_ q.regBase) (rows o.rows.rs0 (rowIdentity q 0))).write (at_ (q.regBase + q.rowN)) (rows o.rows.rs1 (rowIdentity q 1))
    else m
  let m2 := if q.reads 3 then m1.write (at_ (q.regBase + 2 * q.rowN)) (f32Bytes (x.vec.take q.vecLen)) else m1
  if capTiles q = 0 then m2
  else m2.write (at_ (q.regBase + 2 * q.rowN + q.vecN)) (f32Bytes ((x.t0 ++ (if capTiles q = q.tiles then [] else x.t1)).flatten))

/-- AMAX_REC: the statistics of OUT0 folded into entry `e` (R146, R242). -/
def State.foldAmax (s : State) (e : Nat) (a : AmaxRec) : State :=
  let w := lntAddr e
  if !(s.flag w 63) then s
  else
    let mx := f32Max (BitVec.ofNat 32 (s.fld (w + 24) 63 32)) a.amax
    ((((((s.setFld (w + 24) 63 32 mx.toNat).bumpFld (w + 24) 31 0 a.elems).bumpFld (w + 32) 63 32 a.uf).bumpFld (w + 32) 31 0 a.of_).bumpFld
      (w + 40) 63 32 a.zs).bumpFld (w + 40) 31 0 a.nf)

/-- Tiles released by their reader (R136, R151). -/
def State.releaseTiles (s : State) (y m : Nat) (es : List Nat) : State :=
  let x := s.unit y m
  s.setUnit y m { x with pendingTiles := es.foldl (fun ps e => ps.erase e) x.pendingTiles }

/-- The tile registers as a chain finds them that shares some with another live record: nothing defines them (R141, DESIGN CHOICE,
assumption 173); none where it has its registers to itself. -/
def State.vuRegs (s : State) (y u : Nat) (x : UnitState) (q : VuPlan) : Option Mem × State :=
  if x.regClash (x.active.getD 0) q then
    let (e, s1) := s.fresh
    (some ((memOf s1.tileRegs s1.sramEpoch (64 * y + u)).scramble e (q.regBase * 4096)
      ((q.regBase + 2 * q.rowN + q.vecN + q.capN) * 4096)), s1)
  else (none, s)

/-- A firing of a VU whose bursts are whole (R139..R157); one on a MARK or over a zero extent is a MARK firing (R156, R160). -/
def State.formVu (s : State) (y u : Nat) (x : UnitState) (f : Firing) (r : CfgRec) : State :=
  let (ext, l) := x.activeSet_ u r
  let q := vuPlan r.body ext l
  let pg := pgUnit y u
  let k := 64 * y + u
  let outs := (List.range 4).map (bindOut r.body)
  if f.isMark || q.empty then
    let s1 := ((s.setUnit y u (x.formed f (markAll outs f.job f.tag))).bump (pg + 0x118) 1).bump (pg + 0x120) 1
    (if q.empty && f.uses.any fun p => !(f.markAt p) then s1.mismatch y u 0x148 else s1).pumpOut y u
  else
    let mu := 4 * (u - 16) + q.bondMu
    let (i, bad) := vuInputs q f (memOf s.accMem s.sramEpoch (64 * y + mu))
    let (regs, s0) := s.vuRegs y u x q
    let step := match x.secOf x.activeJob r with
      | some c => c.step
      | none => 0
    let o := vuFire q i regs f.tag step
    let out := fun (n : Nat) (ps : List Nat) => outToks n (bindOut r.body n) (burstToks (bindOut r.body n) f.job f.tag ps)
    let s1 := s0.setUnit y u (x.formed f (out 0 o.out0 ++ out 1 o.out1 ++ out 2 o.out2 ++ out 3 o.out3))
    let m := vuRegsAfter q i o (regs.getD (memOf s1.tileRegs s1.sramEpoch k))
    let s2 := { s1 with tileRegs := setMem s1.tileRegs s1.sramEpoch k m }
    let s3 := (((s2.waitNs (pg + 0x130)).waitNs (pg + 0x138)).bump (pg + 0x110) q.waves).bump (pg + 0x118) 1
    let s4 := s3.countNf y u x r o.nonfinite
    let s5 := if q.amax then s4.foldAmax q.lnt o.rec_ else s4
    let s6 := if q.bond then
        (s5.bump (pg + 0x140) (i.t0.length * q.passes)).releaseTiles y mu (((payloads (f.burst 0)).take q.tiles).map (· % 2 ^ 21))
      else s5
    (if bad then s6.mismatch y u 0x148 else s6).pumpOut y u

/-! ### Stowage units -/

/-- The image that holds slot `k` of unit `u` in Yard `y` for job `j`. -/
def State.imageOf (s : State) (y u k j : Nat) : Option Image :=
  s.images.find? fun i => i.job == j && i.cfgs.any fun c => c.yard == y && c.unit == u && c.slot == k

/-- The RESOURCES record of an image for Yard `y`; without one all three extents are empty (Table 4.14). -/
def Image.resOf (i : Image) (y : Nat) : ResRec :=
  (i.res.find? (·.yard == y)).getD { yard := y, ycBase := 0, ycLen := 0, storeBase := 0, storeLen := 0, stowLen := 0, stowBase := 0 }

/-- Where an SU access lies: in the Yard store at one address, or in HBM at some ranges, one for each 4 KB line. -/
inductive SuPlace
  | store (a len : Nat)
  | hbm (rs : List (Nat × Nat))
  | bad (code cause : Nat)
  deriving DecidableEq, Repr

/-- The access of `len` bytes at `a` in a space of an image (R114, R115, R261, R263, R268). -/
def State.suPlace (s : State) (y p : Nat) (r : ResRec) (space a len : Nat) : SuPlace :=
  if space = 0 then (if r.storeLen < a + len then .bad 0x0302 1 else .store (r.storeBase + a) len)
  else if space = 1 then
    if r.stowLen < a + len then .bad 0x0303 1
    else if (s.liveHome y).isEmpty then .bad 0x0303 2
    else .hbm ((cutLines (r.stowBase + a) len).map fun x => (stowAddr (s.liveHome y) (s.stowBase y) x.1, x.2))
  else if s.reach p a len then .hbm (cutLines a len) else .bad 0x0303 2

/-- The bytes at a place. -/
def State.suRead (s : State) (y : Nat) : SuPlace → List Byte
  | .store a len => (memOf s.yardStore s.sramEpoch y).read a len
  | .hbm rs => rs.flatMap fun x => s.hbm.read x.1 x.2
  | .bad _ _ => []

/-- Bytes written at HBM ranges. -/
def hbmPut (m : Mem) : List (Nat × Nat) → List Byte → Mem
  | [], _ => m
  | x :: xs, bs => hbmPut (m.write x.1 (bs.take x.2)) xs (bs.drop x.2)

/-- Bytes written at a place. -/
def State.suWrite (s : State) (y : Nat) (pl : SuPlace) (bs : List Byte) : State :=
  match pl with
  | .store a len => { s with yardStore := setMem s.yardStore s.sramEpoch y ((memOf s.yardStore s.sramEpoch y).write a (bs.take len)) }
  | .hbm rs => { s with hbm := hbmPut s.hbm rs bs }
  | .bad _ _ => s

/-- Requests of an SU to its slices: up to 4 KB each, queued in order (R265, R283). Its firing waits for them, or with `emit` the
emission of its DELAY ring. -/
def State.suAsk (s : State) (y u p : Nat) (q : SuPlan) (write emit : Bool) (rs : List (Nat × Nat)) : State :=
  let x := s.unit y u
  let js := joinLines rs
  let s1 := s.setUnit y u (if emit then { x with ringWait := x.ringWait + js.length } else { x with memWait := x.memWait + js.length })
  js.foldl (fun (t : State) a =>
    t.toSlice { y := y, u := u, part := p, cls := q.prio, line := a.lo / 4096, len := a.len, write := write, cache := q.cache, epoch := x.epoch
                lo := a.lo % 4096, hi := a.hi - a.lo / 4096 * 4096, job := x.activeJob, emit := emit }) s1

/-- ERR_INFO of STORE_OVERFLOW and STOWAGE_OVERFLOW (Table 11.12). -/
def suInfo (y : Nat) (x : UnitState) (write : Bool) (cause addr : Nat) : Nat :=
  fieldAt 58 y + fieldAt 55 cause + fieldAt 51 x.activeJob + fieldAt 48 (x.active.getD 0) + fieldAt 47 (b2n write) + addr % 2 ^ 42

/-- STORE_OVERFLOW or STOWAGE_OVERFLOW (R115). -/
def State.suFault (s : State) (y u : Nat) (x : UnitState) (write : Bool) (code cause addr : Nat) : State :=
  s.fabricFault y (pgUnit y u) code (suInfo y x write cause addr) 0

/-- SHARD_DIR_ECC found by an SU's access to block `id` (R281): the access is withheld, named in the SU's page with cause 3 and SD_ECC, and
the partition that runs the entry's job is reset; where that is not the SU's own, the SU's own is reset for its withheld access too. -/
def State.blockLost (s : State) (y u : Nat) (x : UnitState) (write : Bool) (id : Nat) : State :=
  let s1 := s.event (pgUnit y u) 6
  if s1.partOfJob (s1.sdJob id) = s1.partOfYard y then (s1.faultEv (pgUnit y u) 0x0303 (suInfo y x write 3 id) 0).sdLost id
  else (s1.suFault y u x write 0x0303 3 id).sdLost id

/-- What an SU has done so far in a firing: the state, the raw contents read, the HBM ranges touched, whether it faulted. -/
structure SuRun where
  s : State
  raws : List Nat := []
  bytes : Nat := 0
  asks : List (Nat × Nat) := []
  stopped : Bool := false
  deriving DecidableEq, Repr

/-- A place touched. -/
def SuRun.touch (z : SuRun) (t : State) (pl : SuPlace) (n : Nat) : SuRun :=
  { z with s := t, bytes := z.bytes + n, asks := z.asks ++ (match pl with | .hbm rs => rs | _ => []) }

/-- The requests of the run sent to the slices. -/
def SuRun.ask (z : SuRun) (y u p : Nat) (q : SuPlan) (write emit : Bool) : State := z.s.suAsk y u p q write emit z.asks

/-- An access withheld: what went before it is asked of memory, then `fail` reports it. -/
def SuRun.stop (z : SuRun) (y u p : Nat) (q : SuPlan) (write : Bool) (fail : State → State) : SuRun :=
  { z with s := fail (z.ask y u p q write false), asks := [], stopped := true }

/-- One read of an access `(a, len)`. -/
def SuRun.read (z : SuRun) (y u p : Nat) (x : UnitState) (r : ResRec) (q : SuPlan) (a : Nat × Nat) : SuRun :=
  if z.stopped then z
  else match z.s.suPlace y p r q.space a.1 a.2 with
    | .bad c k => z.stop y u p q false fun t => t.suFault y u x false c k a.1
    | pl => { z.touch z.s pl a.2 with raws := z.raws ++ [leNat (z.s.suRead y pl)] }

/-- One write of bytes at an access `(a, len)`. -/
def SuRun.write (z : SuRun) (y u p : Nat) (x : UnitState) (r : ResRec) (q : SuPlan) (a : Nat × Nat) (bs : List Byte) : SuRun :=
  if z.stopped then z
  else match z.s.suPlace y p r q.space a.1 a.2 with
    | .bad c k => z.stop y u p q true fun t => t.suFault y u x true c k a.1
    | pl => z.touch (z.s.suWrite y pl bs) pl a.2

/-- The region address of a weight block, or the cause that withholds the access (R276, R277): cause 3 with the block ID, cause 2 where the
channel is not LIVE. -/
def State.blockAt (s : State) (p j id v : Nat) (q : SuPlan) : Except (Nat × Nat) (Nat × Nat) :=
  if 131071 < id ∨ !(s.sdValid id) ∨ s.sdJob id ≠ j then .error (3, id)
  else
    let w := s.sdWord id (1 + s.sdAct id)
    let a := bits w 41 0 + (v + b2n q.markV) % 2 * q.regionOff
    let len := s.sdLen id
    if bits w 62 48 ≠ s.devId ∨ !(s.granted p (adChan (bits w 41 0))) ∨
        chanBytes < adOff (bits w 41 0) + (v + b2n q.markV) % 2 * q.regionOff + len ∨ q.regionOff < len then .error (3, id)
    else if !(s.chLive (adChan a)) then .error (2, a)
    else .ok (a, len)

/-- The access to weight block `id`, where the check of its directory entry found `ecc` (R277, R281): its address and length, or the run
stopped. -/
def SuRun.block (z : SuRun) (y u p : Nat) (x : UnitState) (q : SuPlan) (write : Bool) (j v id : Nat) (ecc : Ecc) :
    SuRun × Option (Nat × Nat) :=
  if z.stopped then (z, none)
  else if ecc = .bad then (z.stop y u p q write fun t => t.blockLost y u x write id, none)
  else
    let z1 := if ecc = .corrected then { z with s := z.s.bump (pgMon + 0x148) 1 } else z
    match z1.s.blockAt p j id v q with
    | .error (c, a) => (z1.stop y u p q write fun t => t.suFault y u x write 0x0303 c a, none)
    | .ok a => (z1, some a)

/-- The check of the directory entry of the `i`-th block of a firing: `sd` for the first (R281). -/
def sdCheck (sd : Ecc) (i : Nat) : Ecc := if i = 0 then sd else .ok

/-- The block IDs of real burst `j` (R276). -/
def SuPlan.blocks (q : SuPlan) (j : Nat) : List Nat :=
  (List.range q.blockCount).map fun i => q.base % 2 ^ 17 + q.turn j * q.blockStep + i

/-- The bound outputs of an SU record, by output number. -/
def suOuts (body : Nat) : List Nat := (List.range 8).filter fun k => bindValid (suOut body k)

/-- The bound inputs. -/
def suIns (body : Nat) : List Nat := (List.range 4).filter fun k => bindValid (bindIn body k)

/-- What a read sends: its deal units over the bound outputs (R270). -/
def suDeal (body job tag : Nat) (units : List (List Nat)) : List OutTok :=
  let os := suOuts body
  ((List.range os.length).zip os).flatMap fun ik =>
    outToks ik.2 (suOut body ik.2) (burstToks (suOut body ik.2) job tag (deal os.length ik.1 units).flatten)

/-- Counts of an SU firing, and the tokens it sends. -/
def State.suDone (s : State) (y u : Nat) (f : Firing) (toks : List OutTok) (mark bad : Bool) (rd wr : Nat) : State :=
  let pg := pgUnit y u
  let s1 := s.setUnit y u ((s.unit y u).formed f toks)
  let s2 := ((((s1.waitNs (pg + 0x130)).waitNs (pg + 0x138)).bump (pg + 0x110) rd).bump (pg + 0x118) wr).bump (pg + 0x120) 1
  let s3 := if mark then s2.bump (pg + 0x128) 1 else s2
  (if bad then s3.mismatch y u 0x148 else s3).pumpOut y u

/-- A LOAD or WSTREAM firing (R269, R270, R274, R276). -/
def State.formRead (s : State) (y u : Nat) (x : UnitState) (f : Firing) (r : CfgRec) (q : SuPlan) (p v : Nat) (res : ResRec) (sd : Ecc) :
    State :=
  let n := (x.active.map fun k => (x.slot k).fired).getD 0
  let marks := ((suOuts r.body).flatMap fun k => outToks k (suOut r.body k) (burstToks (suOut r.body k) f.job f.tag []))
  match q.realBurst n with
  | none => s.suDone y u f marks true false 0 0
  | some j =>
    if f.isMark || q.empty then s.suDone y u f marks true false 0 0
    else
      let fin := fun (z : SuRun) (units : List (List Nat)) =>
        if z.stopped then z.s
        else (z.ask y u p q false false).suDone y u f (suDeal r.body f.job f.tag units) false false z.bytes 0
      if q.mode = 1 then
        let z := (q.pieces j).foldl (fun z a => z.read y u p x res q a) { s := s }
        fin z (q.dealUnits z.raws)
      else
        let z := ((List.range q.blockCount).zip (q.blocks j)).foldl (fun (z : SuRun × List (List Nat)) ib =>
          match z.1.block y u p x q false f.job v ib.2 (sdCheck sd ib.1) with
          | (w, none) => (w, z.2)
          | (w, some (a, len)) =>
            let pl := SuPlace.hbm (cutLines a len)
            let raw := leNat (w.s.suRead y pl)
            (w.touch w.s pl len, z.2 ++ [if q.half then q.unitTokens (len / 4) raw else tokens512 (8 * len) raw])) ({ s := s }, [])
        fin z.1 z.2

/-- The deal units that arrived on the bound inputs: unit `i` in the burst of input `i mod b`, with its number of tokens given by `len`;
none where it did not arrive whole. -/
def unitTaken (f : Firing) (ins : List Nat) (lens : List Nat) (i : Nat) : Option (List Nat) :=
  let b := ins.length
  let mine := (List.range i).filter fun k => k % b = i % b
  let off := sumNat (mine.map fun k => lens.getD k 0)
  let n := lens.getD i 0
  let ts := ((payloads (f.burst (ins.getD (i % b) 0))).drop off).take n
  if ts.length = n then some ts else none

/-- Whether some input held more or fewer tokens than its share. -/
def dealOff (f : Firing) (ins : List Nat) (lens : List Nat) : Bool :=
  ((List.range ins.length).zip ins).any fun kp =>
    !(sumNat (deal ins.length kp.1 lens) == (payloads (f.burst kp.2)).length)

/-- The scalar notice of a STORE or WWRITE, a DATA token whose payload the spec leaves open (Table 11.6), or a MARK (R274). -/
def State.suNotice (s : State) (r : CfgRec) (f : Firing) (mark : Bool) : List OutTok × State :=
  let w := suOut r.body 0
  if mark then (outToks 0 w (burstToks w f.job f.tag []), s)
  else
    let (n, s1) := s.fresh
    (outToks 0 w (burstToks w f.job f.tag [(Config.freeWord n).toNat]), s1)

/-- A STORE or WWRITE firing (R69, R269, R270, R274, R276). A phantom is a MARK firing whatever bursts it takes (DEDUCED, assumption 83). -/
def State.formWrite (s : State) (y u : Nat) (x : UnitState) (f : Firing) (r : CfgRec) (q : SuPlan) (p v : Nat) (res : ResRec) (sd : Ecc) :
    State :=
  let n := (x.active.map fun k => (x.slot k).fired).getD 0
  let ins := suIns r.body
  let mark := ins.all f.markAt
  let z0 : SuRun := { s := s }
  let fin := fun (z : SuRun) (mk bad : Bool) =>
    if z.stopped then z.s
    else
      let (ts, s1) := (z.ask y u p q true false).suNotice r f mk
      s1.suDone y u f ts mk bad 0 z.bytes
  match q.realBurst n with
  | none => fin z0 true (dealOff f ins [])
  | some j =>
    if mark then fin z0 true false
    else if q.mode = 2 then
      let ps := if q.empty then [] else q.pieces j
      let lens := ps.map fun _ => q.storeUnitTokens
      let z := ((List.range ps.length).zip ps).foldl (fun (z : SuRun) ia =>
        match unitTaken f ins lens ia.1 with
        | some ts => z.write y u p x res q ia.2 (leBytes ia.2.2 (packFields 512 ts))
        | none => z) z0
      fin z false (dealOff f ins lens)
    else
      let z := ((List.range q.blockCount).zip (q.blocks j)).foldl (fun (z : SuRun × List Nat) ib =>
        match z.1.block y u p x q true f.job v ib.2 (sdCheck sd ib.1) with
        | (w, none) => (w, z.2)
        | (w, some (a, len)) =>
          let k := ib.1 % ins.length
          let off := sumNat (deal ins.length k z.2)
          let ts := ((payloads (f.burst (ins.getD k 0))).drop off).take (ceilDiv len 64)
          let got := min len (64 * ts.length)
          let pl := SuPlace.hbm (cutLines a got)
          (w.touch (w.s.suWrite y pl (leBytes got (packFields 512 ts))) pl got, z.2 ++ [ceilDiv len 64])) (z0, [])
      fin z.1 false (dealOff f ins z.2)

/-- A DELAY firing (R69, R273, R274): the bursts are written one after another into the next ring slot; a MARK is stored as a burst of no
bytes. -/
def State.formDelay (s : State) (y u : Nat) (x : UnitState) (f : Firing) (r : CfgRec) (q : SuPlan) (p : Nat) (res : ResRec) : State :=
  let ins := suIns r.body
  let slot := q.base + x.ringNext * q.burstStride
  let mark := ins.any f.markAt
  let toks := if mark then [] else ins.flatMap fun k => payloads (f.burst k)
  let z := ((List.range toks.length).zip toks).foldl (fun (z : SuRun) it =>
    if z.stopped then z
    else if q.burstStride < 64 * (it.1 + 1) then
      z.stop y u p q true fun t => t.suFault y u x true (if q.space = 0 then 0x0302 else 0x0303) 4 (slot + q.burstStride)
    else z.write y u p x res q (slot + 64 * it.1, 64) (leBytes 64 it.2)) { s := s }
  if z.stopped then z.s
  else
    let bursts := ins.map fun k => (if mark then 0 else (payloads (f.burst k)).length, mark)
    let s0 := z.ask y u p q true false
    let x1 := s0.unit y u
    let s1 := s0.setUnit y u { x1 with ring := x1.ring ++ [{ pos := x1.ringNext, job := f.job, tag := f.tag, bursts := bursts }],
                                        ringNext := (x1.ringNext + 1) % q.ring }
    s1.suDone y u f [] mark false 0 z.bytes

/-- The extents of the image of the active slot in Yard `y`. -/
def State.activeRes (s : State) (y u : Nat) (x : UnitState) : ResRec :=
  ((s.imageOf y u (x.active.getD 0) x.activeJob).map (·.resOf y)).getD
    { yard := y, ycBase := 0, ycLen := 0, storeBase := 0, storeLen := 0, stowLen := 0, stowBase := 0 }

/-- A firing of an SU whose bursts are whole; `sd` is what the check of its first weight block's directory entry found. -/
def State.formSu (s : State) (y u : Nat) (x : UnitState) (f : Firing) (r : CfgRec) (sd : Ecc) : State :=
  let (ext, l) := x.activeSet_ u r
  let q := suPlan r.body ext l
  let p := (s.partOfYard y).getD 0
  let res := s.activeRes y u x
  let v := match x.secOf x.activeJob r with
    | some c => c.version
    | none => 0
  if q.mode = 1 ∨ q.mode = 4 then s.formRead y u x f r q p v res sd
  else if q.mode = 3 then s.formDelay y u x f r q p res
  else s.formWrite y u x f r q p v res sd

/-! ### Deciding -/

/-- A firing whose bursts are whole takes its effect. A steering unit passes its tokens by STEERING_PASS and COUNT_TICK. -/
def State.tryForm (s : State) (y u : Nat) (sd : Ecc) : State :=
  let x := s.unit y u
  match x.firing, x.activeRec with
  | some f, some r =>
    if f.formed || !f.whole || decide (22 ≤ u) then s
    else if u < 16 then s.formMu y u x f r
    else if u < 20 then s.formVu y u x f r
    else s.formSu y u x f r sd
  | _, _ => s

/-- A firing begins; where it steers it takes and holds the SELECT (R72), and its data follow token by token. -/
def State.beginFire (s : State) (y u j t : Nat) (uses : List Nat) (body : Nat) (sd : Ecc) : State :=
  let x := s.unit y u
  if u < 22 then ((s.setUnit y u (x.fire u j t uses)).tryForm y u sd).progressY y
  else match x.pull j t (if stKind body = 1 then 2 else 1) with
    | some (c, x1) => (s.setUnit y u { x1.fire u j t [] with heldSelect := some c }).progressY y
    | none => s

/-- An SU slot that fires unprompted (R269), and the tag of its next firing. -/
def UnitState.unprompted (x : UnitState) (u k : Nat) (r : CfgRec) : Option Nat :=
  if 20 ≤ u ∧ u < 22 then
    let (ext, l) := x.activeSet_ u r
    let q := suPlan r.body ext l
    let n := (x.slot k).fired
    if (q.mode = 1 ∨ q.mode = 4) ∧ !q.trig ∧ (r.quota ≠ 0 ∨ n < q.leadIn + q.real + q.runOut) then
      some ((((Tab.find? x.secs (secKey (x.slot k).job r.section_)).map (·.tagBase)).getD 0 + n) % 65536)
    else none
  else none

/-- Whether the active slot waits for no input: unprompted reads (they have none). -/
def UnitState.hasNoInput (x : UnitState) (u : Nat) (r : CfgRec) : Bool :=
  decide (20 ≤ u ∧ u < 22) &&
    (let (ext, l) := x.activeSet_ u r
     let q := suPlan r.body ext l
     (q.mode == 1 || q.mode == 4) && !q.trig)

/-- A DELAY takes input only while a slot of its ring is free (R273). -/
def UnitState.ringFull (x : UnitState) (u : Nat) (r : CfgRec) : Bool :=
  decide (20 ≤ u ∧ u < 22) &&
    (let (ext, l) := x.activeSet_ u r
     let q := suPlan r.body ext l
     q.mode == 3 && decide (q.ring ≤ x.ring.length))

/-- The procedure of R67 and R71, run once: foreign heads are parked, then something fires, parks or waits. A COUNT unit fires by
COUNT_TICK; `sd` is what the check of the Shard Directory entry of a firing's first weight block finds (R281). -/
def State.decideFiring (s : State) (y u : Nat) (sd : Ecc) : State :=
  let skip := (s.unit y u).foreign
  let s1 := s.parkForeign y u
  let x0 := s1.unit y u
  if x0.firing.isSome then (s1.setUnit y u (x0.collect u)).tryForm y u sd
  else
    let x := x0.without skip
    match x.active, x.activeRec with
    | some k, some r =>
      if x.leaving then s1
      else if x.hasNoInput u r then
        match x.unprompted u k r with
        | some t => s1.beginFire y u (x.slot k).job t [] r.body sd
        | none => s1
      else match x.choose (decide (22 ≤ u)) with
        | some (j, t, us) =>
          if x.ringFull u r || (decide (22 ≤ u) && stKind r.body == 3) then s1 else s1.beginFire y u j t us r.body sd
        | none =>
          if x.positions.all (fun p => !(x.queue p).isEmpty) then
            match x.latest with
            | some p => s1.parkAt y u p
            | none => s1
          else s1
    | _, _ => s1

/-- A firing all of whose outputs have been accepted ends (R91, R136, R273). -/
def State.endFiring (s : State) (y u : Nat) : State :=
  let x := s.unit y u
  match x.firing with
  | none => s
  | some f =>
    if f.formed && (x.isDelay u || x.outbox.isEmpty) && x.memWait == 0 then
      let x1 := ({ x with firing := none }).afterFiring
      let x2 := match x1.endWait with
        | some key => x1.endSection key
        | none => x1
      ((s.setUnit y u x2).pumpOut y u).progressY y
    else s

end Sys2Proof.Machine
end

