-- ==== Sys2Proof/Machine/NumOps.lean ====
section
/-! DEFINITION. Numerics of the training step (R236..R256): what issue latches, the roll, the loss scale, the spike detector, the monitors
at the end of a PIPE section. -/
namespace Sys2Proof.Machine

/-- Register `o` of the numerics registers of job `j` (Table 10.6). -/
def numReg (p j o : Nat) : Nat := pgPart p + 0xA00 + 0x40 * j + o

/-- A fault of class 0x05 (R255, Table 10.7): the partition page and its event NUMERICS. -/
def State.numFault (s : State) (p j code entry cause value : Nat) : State :=
  (s.partFault p code (fieldAt 50 entry + fieldAt 46 j + fieldAt 44 cause + value % 2 ^ 32)).jobEvent p j 3

/-! ### Layer Numerics Table entries -/

/-- Bits [hi:lo] of word `w` of entry `e`. -/
def State.lnt (s : State) (e w hi lo : Nat) : Nat := s.fld (lntAddr e + 8 * w) hi lo

/-- Those bits replaced. -/
def State.setLnt (s : State) (e w hi lo v : Nat) : State := s.setFld (lntAddr e + 8 * w) hi lo v

/-- EN of an entry. -/
def State.lntEn (s : State) (e : Nat) : Bool := s.lnt e 0 63 63 == 1
/-- ROLE (Table 10.2). -/
def State.lntRole (s : State) (e : Nat) : Nat := s.lnt e 0 62 60
/-- JOB. -/
def State.lntJob (s : State) (e : Nat) : Nat := s.lnt e 0 59 56

/-- The enabled entries of job `j`, in index order: EN is 0 at reset, so each of them has a listed word 0. -/
def State.lntOf (s : State) (j : Nat) : List Nat :=
  (s.regs.filterMap fun e => if windowKind e.1 = 2 ∧ e.1 % 64 = 0 then some ((e.1 - 0x80_0000) / 64) else none).filter fun e =>
    s.lntEn e && s.lntJob e == j

/-- k of R251: −(LR_EXP + LR_OFF). -/
def State.lrShift (s : State) (p j e : Nat) : Int := -(toSigned 8 (s.fld (numReg p j 8) 7 0) + toSigned 8 (s.lnt e 0 7 0))

/-- 2^k as FP32, where representable as a normal number (R251: −126..126). -/
def f32Pow2 (k : Int) : BitVec 32 := toF32 (.fin false 1 k)

/-- The values latched at issue from entry `e` (R240, R251). -/
def State.latchLnt (s : State) (p j e : Nat) : LntLatch :=
  let upd := s.lntRole e == 3
  { entry := e, scale := s.lnt e 2 63 56, inSa := s.lnt e 2 55 48, inSb := s.lnt e 2 47 40, fmtL := s.lnt e 2 35 32
    imms := if upd then
        some (s.fld (numReg p j 8) 63 32, (f32Pow2 (127 - (s.fld (numReg p j 0) 7 0 : Nat))).toNat,
              (f32Neg (f32Pow2 (-(s.lrShift p j e)))).toNat)
      else none }

/-- R241, cause 1: the entry cannot serve a record of job `j`. -/
def State.lntBad (s : State) (p j e : Nat) : Bool :=
  !(s.lntEn e) || !(s.lntJob e == j) || (s.lntRole e == 3 && !(decide (-126 ≤ s.lrShift p j e ∧ s.lrShift p j e ≤ 126)))

/-- Whether a record takes a value from its entry (Table 10.4). -/
def usesLnt (u body : Nat) : Bool :=
  if u < 16 then
    let d := muDesc body
    bits d 7 4 == 0xF || bits d 11 8 == 0xF || bit d 24
  else if u < 20 then
    let d := vuDesc body
    bits d 78 75 == 0xF || (bits d 82 79 == 0xF) || bits d 15 12 == 0xF || bits d 19 16 == 0xF || bit d 21
  else bits (suDesc body) 11 8 == 0xF

/-! ### The loss scale (R248, R249) -/

/-- SCALE of every LOSS entry follows LS: clamp(254 − LS, 1, 254) (R245, R256). -/
def lossScaleOf (ls : Nat) : Nat := (clampInt 1 254 (254 - (ls : Int))).toNat

/-- loss_scale(j, skipped); `upd` says that the boundary ended an UPD section. -/
def State.lossScale (s : State) (p j : Nat) (skipped upd : Bool) : State :=
  let a := numReg p j 0
  let ls := s.fld a 7 0
  let floor := s.fld a 15 8
  let down := s.fld a 27 24
  if skipped then
    let s1 := s.setFld a 47 32 0
    if ls < floor + down then
      let s2 := ((s1.setFld a 7 0 floor).numFault p j 0x0505 0 0 floor).setFlag (numReg p j 0x20) 46 true
      { s2 with heldOnClose := s2.heldOnClose.filter (fun k => !(k == j)) ++ [j] }
    else s1.setFld a 7 0 (ls - down)
  else
    let good := stopAt 0xFFFF (s.fld a 47 32 + 1)
    if s.fld a 63 48 ≤ good ∧ upd then
      let s1 := s.setFld a 47 32 0
      if ls < s.fld a 23 16 then s1.setFld a 7 0 (ls + 1) else s1
    else s.setFld a 47 32 good

/-! ### The roll (R243..R247) -/

/-- expo(): floor(log2 AMAX) + 127 limited to 1..254, or 0 when AMAX is 0. -/
def expoOf (amax : Nat) : Nat :=
  match f32 (BitVec.ofNat 32 amax) with
  | .fin _ m e => if m = 0 then 0 else (clampInt 1 254 (floorLog2 m e + 127)).toNat
  | _ => 254

/-- HIST[i] of an entry. -/
def State.hist (s : State) (e i : Nat) : Nat := s.lnt e (6 + i / 8) (8 * (i % 8) + 7) (8 * (i % 8))

/-- The history shifted and its newest byte set. -/
def State.pushHist (s : State) (e v : Nat) : State :=
  let lo := s.reg (lntAddr e + 48)
  let hi := s.reg (lntAddr e + 56)
  (s.setReg (lntAddr e + 48) (lo % 2 ^ 56 * 256 + v)).setReg (lntAddr e + 56) (hi % 2 ^ 56 * 256 + lo / 2 ^ 56)

/-- The format fixed by SEL (Table 10.3). -/
def fixedFmt (sel : Nat) : Nat := if sel = 1 then 0x0 else if sel = 2 then 0x1 else 0x7

/-- select_format(e) (R246). -/
def State.selectFormat (s : State) (e : Nat) : State :=
  let sel := s.lnt e 0 43 42
  let fmt := s.lnt e 2 39 36
  let elems := s.lnt e 3 31 0
  let set := fun (t : State) (f : Nat) => (t.setLnt e 2 39 36 f).setLnt e 2 23 16 0
  if sel ≠ 0 then s.setLnt e 2 39 36 (fixedFmt sel)
  else if elems = 0 then s
  else if s.lnt e 4 31 0 ≠ 0 ∨ s.lnt e 0 39 32 * elems < s.lnt e 4 63 32 * 256 then
    if fmt = 0x0 then set s 0x1 else if fmt = 0x1 then set s 0x7 else s
  else
    let clean := stopAt 255 (s.lnt e 2 23 16 + 1)
    let win := s.lnt e 0 15 8
    let s1 := s.setLnt e 2 23 16 clean
    if win ≠ 0 ∧ win ≤ clean ∧ fmt ≠ 0x0 then set s1 (if fmt = 0x7 then 0x1 else 0x0) else s1

/-- streak(e) (R247). -/
def State.streakStep (s : State) (p j e : Nat) : State :=
  let th := s.lnt e 0 31 16
  let elems := s.lnt e 3 31 0
  if th = 0 ∨ elems = 0 then s
  else if s.lnt e 5 63 32 = elems then
    let k := stopAt 0xFFFF (s.lnt e 2 15 0 + 1)
    let s1 := s.setLnt e 2 15 0 k
    if k = th then s1.numFault p j 0x0503 e (if s.lnt e 4 63 32 = 0 then 2 else 1) k else s1
  else s.setLnt e 2 15 0 0

/-- new_scale(e) (R245). -/
def State.newScale (s : State) (p j e : Nat) : Nat :=
  let role := s.lntRole e
  if role = 2 then lossScaleOf (s.fld (numReg p j 0) 7 0)
  else if role = 3 then 127
  else
    let f := if role = 0 then s.lnt e 0 47 44 else s.lnt e 2 39 36
    if role = 0 ∧ fmtMx f then 127
    else
      let m := ((List.range (s.lnt e 0 55 52 + 1)).map (s.hist e)).foldl max 0
      if m = 0 then s.lnt e 2 63 56
      else (clampInt 1 254 ((m : Int) - (fmtOf f).emax + (s.lnt e 0 51 48 : Nat))).toNat

/-- One entry of the roll: its first pass. -/
def State.rollEntry (s : State) (p j : Nat) (skipped : Bool) (e : Nat) : State :=
  let s1 := if s.lnt e 5 31 0 ≠ 0 then s.bumpFld (lntAddr e + 8) 15 0 1 else s
  let s2 := if !skipped then
      let t := s1.pushHist e (expoOf (s1.lnt e 3 63 32))
      let t1 := if t.lntRole e = 1 then (t.selectFormat e).streakStep p j e else t
      t1.setLnt e 2 63 56 (t1.newScale p j e)
    else if s1.lntRole e = 2 then s1.setLnt e 2 63 56 (lossScaleOf (s1.fld (numReg p j 0) 7 0)) else s1
  ((s2.setReg (lntAddr e + 24) 0).setReg (lntAddr e + 32) 0).setReg (lntAddr e + 40) 0

/-- One entry's links, after every scale has rolled (R244). -/
def State.rollLinks (s : State) (e : Nat) : State :=
  let s1 := s.setLnt e 2 55 48 (s.lnt (s.lnt e 1 29 16) 2 63 56)
  let s2 := s1.setLnt e 2 47 40 (s1.lnt (s1.lnt e 1 45 32) 2 63 56)
  s2.setLnt e 2 35 32 (s2.lnt (s2.lnt e 1 61 48) 2 39 36)

/-- STARVED of PT_NUM_STATUS: entries whose STREAK is at or above STARVE_TH after the roll. -/
def State.countStarved (s : State) (p j : Nat) : State :=
  let n := ((s.lntOf j).filter fun e => s.lntRole e == 1 && !(s.lnt e 0 31 16 == 0) && decide (s.lnt e 0 31 16 ≤ s.lnt e 2 15 0)).length
  s.setFld (numReg p j 0x20) 15 0 (stopAt 0xFFFF n)

/-- roll_job(j, skipped) after the loss scale. -/
def State.rollEntries (s : State) (p j : Nat) (skipped : Bool) : State :=
  let es := s.lntOf j
  let s1 := es.foldl (fun (t : State) e => t.rollEntry p j skipped e) s
  (es.foldl State.rollLinks s1).countStarved p j

/-! ### The spike detector and the monitors at PIPE end (R252, R253) -/

/-- The LOSS entry watched and whether its sample is valid. -/
def State.spikeSample (s : State) (p j : Nat) : Option (BitVec 32) :=
  let e := s.fld (numReg p j 0x10) 63 50
  if s.fld (numReg p j 0x10) 49 48 ≠ 0 ∧ s.lntEn e ∧ s.lntRole e = 2 ∧ s.lntJob e = j ∧ s.lnt e 3 31 0 ≠ 0 ∧ s.lnt e 5 31 0 = 0 then
    some (BitVec.ofNat 32 (s.lnt e 3 63 32))
  else none

/-- The detector at PIPE end, before the gate. Its sample is kept for the boundary. -/
def State.spikeAtPipeEnd (s0 : State) (p j : Nat) : State :=
  let s : State := { s0 with spikeX := match s0.spikeSample p j with | none => Tab.del s0.spikeX j | some x => Tab.put s0.spikeX j x }
  let cfg := numReg p j 0x10
  let st := numReg p j 0x18
  let nm := numReg p j 0x20
  match s.spikeSample p j with
  | none => s.setFlag nm 47 false
  | some x =>
    let mean := BitVec.ofNat 32 (s.fld st 63 32)
    let var := BitVec.ofNat 32 (s.fld st 31 0)
    let kf := toF32 (.fin false (s.fld cfg 47 40) (-4))
    let th := f32Add mean (f32Mul kf (f32Sqrt var))
    if s.fld cfg 31 16 ≤ s.fld nm 63 48 ∧ f32Gt x th then
      let s1 := ((s.setFlag nm 47 true).numFault p j 0x0502 (s.fld cfg 63 50) 0 x.toNat).bump (numReg p j 0x30) 1
      if s.fld cfg 49 48 = 2 then s1.bump (pgPart p + 0x418 + 0x40 * j) 1 else s1
    else s.setFlag nm 47 false

/-- The detector at the boundary: the PIPE end's sample without a spike enters mean and variance (R253). -/
def State.spikeAtBoundary (s : State) (p j : Nat) (skipped : Bool) : State :=
  let st := numReg p j 0x18
  let nm := numReg p j 0x20
  match Tab.find? s.spikeX j with
  | none => s
  | some x =>
    if s.flag nm 47 || skipped then s
    else
      let n := s.fld nm 63 48
      let mean := BitVec.ofNat 32 (s.fld st 63 32)
      let var := BitVec.ofNat 32 (s.fld st 31 0)
      let by64 := fun (v : BitVec 32) => f32Div v 0x4280_0000
      let d := f32Sub x mean
      let m1 := if n = 0 then x else f32Add mean (by64 d)
      let v1 := if n = 0 then 0 else f32Mul 0x3F7C_0000 (f32Add var (by64 (f32Mul d d)))
      (s.setReg st (fieldAt 32 m1.toNat + v1.toNat)).setFld nm 63 48 (stopAt 0xFFFF (n + 1))

/-- The monitors at the end of a PIPE section (R252). -/
def State.numMonitors (s : State) (p j : Nat) : State :=
  let bad := (s.lntOf j).filter fun e => !(s.lnt e 5 31 0 == 0)
  let s1 := s.setFld (numReg p j 0x20) 31 16 (stopAt 0xFFFF bad.length)
  match bad with
  | [] => s1
  | e :: _ => (s1.setFld (numReg p j 0x20) 45 32 e).numFault p j 0x0501 e 0 (s1.lnt e 5 31 0)

end Sys2Proof.Machine
end

