-- ==== Sys2Proof/Machine/CollOps.lean ====
section
/-! DEFINITION. Collective descriptors: their issue checks (R332, Table 14.3), chunks and arithmetic (R337), trees and rings (R338, R339), norms
and the noise statistics (R345), the window (R344), completion (R333, R334). -/
namespace Sys2Proof.Machine

/-! ### FP64 (R345) -/

/-- The FP64 format. -/
def fmt64 : Fmt := ⟨11, 52, 1023, .ieee⟩

/-- The value of FP64 bits. -/
def f64 (w : Nat) : FVal := decodeFmt fmt64 w

/-- A value rounded once to FP64 by round-to-nearest-even. -/
def toF64 : FVal → Nat
  | .nan => 0x7FF8_0000_0000_0000
  | .inf neg => 0x7FF0_0000_0000_0000 + fieldAt 63 (b2n neg)
  | .fin neg m e => min (roundCut .nearest (cutMag 52 (-1074) m e)) 0x7FF0_0000_0000_0000 + fieldAt 63 (b2n neg)

/-- a + b in FP64. -/
def f64Add (a b : Nat) : Nat := toF64 ((f64 a).add (f64 b))
/-- a − b in FP64. -/
def f64Sub (a b : Nat) : Nat := toF64 ((f64 a).add (f64 b).neg)
/-- a × b in FP64. -/
def f64Mul (a b : Nat) : Nat := toF64 ((f64 a).mul (f64 b))
/-- An integer in FP64. -/
def f64OfNat (n : Nat) : Nat := toF64 (.fin false n 0)

/-- The quotient of two finite FP64 magnitudes to 64 bits and a sticky bit, enough for one rounding. -/
def divVal64 : FVal → FVal → FVal
  | .fin a m e, .fin b n k =>
    if n = 0 then (if m = 0 then .nan else .inf (a != b))
    else
      let x := m * 2 ^ 128
      .fin (a != b) (2 * (x / n) + (if x % n = 0 then 0 else 1)) (e - k - 129)
  | x, y => divVal x y

/-- a / b in FP64. -/
def f64Div (a b : Nat) : Nat := toF64 (divVal64 (f64 a) (f64 b))

/-! ### Buffers -/

/-- Whether a descriptor is a RED descriptor that reads the window buffer is decided at its start; this is WIN of FLAGS. -/
def dWinFlag (b : Nat) : Bool := dFlag b 5

/-- The HBM address of chunk `k` of a buffer at `a` with STRIPE `s`. -/
def chunkAddr (a s k : Nat) : Nat := (adChan a + k % 2 ^ s) * 2 ^ 32 + adOff a + k / 2 ^ s * 4096

/-- Chunks of a contribution. -/
def dChunks (b : Nat) : Nat := dLen b / 4096

/-- Bytes of the result of one chunk of the contribution: 2048, 4096 or 8192, by the widths of the two formats. -/
def outLen (b : Nat) : Nat := 4096 * fmtBits (dOutFmt b) / fmtBits (dInFmt b)

/-- Frames that carry the result of one chunk: a COLL frame carries exactly 4,096 bytes (DESIGN CHOICE, assumption 36). -/
def outFrames (b : Nat) : Nat := if 4096 < outLen b then 2 else 1

/-- Whether every chunk `k0 ≤ k < k0 + n` of a buffer lies in LIVE channels granted to partition `p` (Table 14.3, order 6): the last chunk of
each of its channels does. -/
def State.bufferOk (s : State) (p a st k0 n : Nat) : Bool :=
  (List.range (min n (2 ^ st))).all fun i => s.reach p (chunkAddr a st (k0 + n - 1 - i)) 4096

/-! ### Issue checks (Table 14.3) -/

/-- Order 1. -/
def collFormatOk (b : Nat) : Bool :=
  let op := dOp b
  let fmtOk := fun f => f == 0x7 || f == 0x9
  let ring := dRing b
  decide (1 ≤ op ∧ op ≤ 4) && fmtOk (dInFmt b) && fmtOk (dOutFmt b) && bits b 15 14 == 0 && bits b 75 74 == 0 && bits b 95 83 == 0 &&
    decide (dStripe b ≤ 4) && bits b 511 384 == 0 &&
    (if ring then !(op == 4) && !(dFlag b 2) && dDeadline b == 0 else op == 1 || op == 4) &&
    (!(dFlag b 1) || op == 1 || op == 2) && (!(dFlag b 4) || op == 1)

/-- The peer slots a descriptor uses: the two neighbours of a ring; the PARENT, children and backups of a tree, and of a ring whose norms
travel the tree. -/
def State.slotsUsed (s : State) (b : Nat) : List Nat :=
  let g := dGroup b
  let ch := s.children g
  let tree := (s.parent g).toList ++ ch ++ ch.filterMap (dBackup b)
  if dRing b then [0, 1] ++ (if dFlag b 4 then tree else []) else tree

/-- Order 3. -/
def State.collBindOk (s : State) (j d b : Nat) : Bool :=
  let g := dGroup b
  let c := s.reg (pgPort (4 * d) + 0x800 + 8 * dDone b)
  decide (g < 255) && s.flag (pgGroup g) 63 && s.fld (pgGroup g) 59 56 == j &&
    ((s.slotsUsed b).all fun i => s.peerValid g i &&
      (match s.route g i (s.activeSet j false) with
       | some (q, _) => q / 4 == d
       | none => false)) &&
    (!(dFlag b 3) || (bit c 31 && bits c 42 39 == j))

/-- The buffers an operation touches: address, first chunk and count (R338, R339). -/
def State.buffers (s : State) (b : Nat) (win : Bool) : List (Nat × Nat × Nat) :=
  let g := dGroup b
  let n := dChunks b
  let size := s.fld (pgGroup g) 47 32
  let rank := s.fld (pgGroup g) 31 16
  let per := n / size
  let out := (n * outLen b + 4095) / 4096
  let src := if win && dWinFlag b then dWin b else dSrc b
  match dOp b with
  | 2 => [(src, 0, n), (dDst b, rank * per, (per * outLen b + 4095) / 4096)]
  | 3 => [(src, rank * per, per), (dDst b, 0, out)]
  | 4 => (if (s.parent g).isNone then [(src, 0, n)] else []) ++ [(dDst b, 0, out)]
  | _ => [(src, 0, n), (dDst b, 0, out)]

/-- The issue check of a descriptor: the fault code, the cause and NEED of its first failure. `win`: the record is of the plan's RED section. -/
def State.collCheck (s : State) (p j d b : Nat) (win : Bool) : Option (Nat × Nat × Nat) :=
  let size := s.fld (pgGroup (dGroup b)) 47 32
  if !(collFormatOk b) then some (0x0203, 1, 0)
  else if !(s.collBindOk j d b) then some (0x0203, 3, 0)
  else if dLen b < 4096 ∨ (dRing b ∧ dLen b % (4096 * size) ≠ 0) then some (0x0201, 4, dLen b)
  else if !((s.buffers b win).all fun x => s.bufferOk p x.1 (dStripe b) x.2.1 x.2.2) then some (0x0201, 6, 0)
  else none

/-! ### Elements -/

/-- The elements of a chunk in a format of R330, widened to FP32 (R337). -/
def readElems (fmt : Nat) : List Byte → List (BitVec 32)
  | a :: b :: c :: d :: rest =>
    (if fmt = 0x7 then [BitVec.ofNat 32 (leNat [a, b] * 2 ^ 16), BitVec.ofNat 32 (leNat [c, d] * 2 ^ 16)]
     else [BitVec.ofNat 32 (leNat [a, b, c, d])]) ++ readElems fmt rest
  | _ => []

/-- FP32 elements cast to a format (R337); a NaN is written as R229 gives. -/
def writeElems (fmt : Nat) (xs : List (BitVec 32)) : List Byte :=
  xs.flatMap fun x => if fmt = 0x7 then leBytes 2 (castTo 0x7 .nearest 127 (f32 x)).code else leBytes 4 (toF32 (f32 x)).toNat

/-- Two chunks added element by element. -/
def addElems (xs ys : List (BitVec 32)) : List (BitVec 32) := List.zipWith f32Add xs ys

/-- The final elements: with MEAN divided once by D = CNT × W (R337). -/
def meanElems (b cnt w : Nat) (xs : List (BitVec 32)) : List (BitVec 32) :=
  if dFlag b 1 then xs.map fun x => toF32 (divVal (f32 x) (.fin false (cnt * w) 0)) else xs

/-! ### Engines at work -/

/-- The register of a counter of engine `d` (Table 14.6). -/
def ceReg (d o : Nat) : Nat := pgEngine d + o

/-- A collective register of job `j` (Table 14.5). -/
def collReg (p j o : Nat) : Nat := pgPart p + 0xE00 + 0x20 * j + o

/-- MIN_CNT and MISSING take in what a run of the RED section has counted and marked so far. -/
def State.redStatus (s : State) (r : CollRun) : State :=
  match s.sections.find? (·.uid == r.wait.uid) with
  | some c =>
    if c.role = 2 then
      let a := collReg c.part c.job 8
      let old := s.fld a 47 32
      let m := r.missing.foldl (fun (v : Nat) i => Nat.lor v (2 ^ i)) (s.fld a 31 16)
      (s.setFld a 47 32 (if r.minCnt = 0xFFFF then old else if old = 0 then r.minCnt else min old r.minCnt)).setFld a 31 16 m
    else s
  | none => s

/-- A running descriptor replaced. -/
def State.setRun (s : State) (d : Nat) (r : CollRun) : State :=
  let x := s.engine d
  (s.setEngine d { x with running := x.running.map fun q => if q.wait = r.wait then r else q }).redStatus r

/-- The source buffer of a run: the window buffer where it reads that (R344). -/
def CollRun.src (r : CollRun) : Nat := if r.win then dWin r.body else dSrc r.body

/-- The children that count as present (R338). -/
def CollRun.present (r : CollRun) (ch : List Nat) : List Nat := ch.filter fun i => !(r.missing.contains i)

/-- The HBM traffic of a descriptor (R329): PRIO of the descriptor, the partition's regulators. -/
def State.collUser (s : State) (j body : Nat) : HbmUser := { part := s.partOf j, cls := bits body 73 72, job := j }

/-- JOB of PERM_CFG. -/
def State.permJob (s : State) : Nat := s.fld (pgGlobal + 0x940) 63 60
/-- GROUP of PERM_CFG. -/
def State.permGroup (s : State) : Nat := s.fld (pgGlobal + 0x940) 59 52
/-- TAG of PERM_CFG2. -/
def State.permTag (s : State) : Nat := s.fld (pgGlobal + 0x948) 31 16
/-- REGION_OFF in bytes. -/
def State.permOff (s : State) : Nat := s.fld (pgGlobal + 0x948) 63 44 * 4096

/-- The HBM traffic of the permute: migration, at P3 (Table 11.3). -/
def State.permUser (s : State) : HbmUser := { part := s.partOf s.permJob, cls := 3, job := s.permJob }

/-- Chunk `k` of this device's contribution, once memory has answered its read. -/
def State.ownChunk (s : State) (d : Nat) (r : CollRun) (k : Nat) : Option (List (BitVec 32)) × State :=
  let a := chunkAddr r.src (dStripe r.body) k
  let (now, s1) := s.readNow (askKey (.run d r.wait.index)) (s.collUser r.wait.job r.body) (cutLines a 4096)
  (if now then some (readElems (dInFmt r.body) (s1.hbm.read a 4096)) else none, s1)

/-- A data chunk sent to peer slot `i` on the group's VC (R335). -/
def State.sendChunk (s : State) (d i : Nat) (r : CollRun) (down : Bool) (k cnt : Nat) (bs : List Byte) : State :=
  let g := dGroup r.body
  let f : TxFrame := { type := 3, last := false, ph := 0, set := 0, vc := s.groupVc g, dst := 0, job := r.wait.job, group := g,
                       tag := r.wait.tag, target := r.wait.index + fieldAt 16 (b2n down) + fieldAt 17 k + fieldAt 48 cnt, payload := bs }
  (s.sendPeer i f none false).bump (ceReg d 0x110) 4096

/-- The slots below this device: each child and each valid backup (R338). -/
def State.below (s : State) (b : Nat) : List Nat :=
  let ch := s.children (dGroup b)
  ch ++ ch.filterMap (dBackup b)

/-- Where the payload of result frame `k` goes in DST, and how much of it: one after another, but a REDUCE_SCATTER puts shard q at
DST + q × LEN / SIZE (R339). -/
def outPlace (b size k : Nat) : Nat × Nat :=
  let frames := dChunks b / size * outFrames b
  let at_ := if dOp b = 2 then dChunks b / size * (k / frames) * 4096 else 0
  let c := if dOp b = 2 then k % frames else k
  let o := at_ + (if outLen b < 4096 then c * 2048 else c * 4096)
  (chunkAddr (dDst b) (dStripe b) (o / 4096) + o % 4096, min 4096 (outLen b))

/-- SIZE of a run's group. -/
def State.sizeOf (s : State) (r : CollRun) : Nat := s.fld (pgGroup (dGroup r.body)) 47 32

/-- A result frame's payload written to DST. -/
def State.putOutFrame (s : State) (r : CollRun) (k : Nat) (bs : List Byte) : State :=
  let pl := outPlace r.body (s.sizeOf r) k
  s.hbmWrite (s.collUser r.wait.job r.body) pl.1 (bs.take pl.2)

/-- The frames of the result of chunk `k` of the contribution. -/
def outCut (b k : Nat) (bs : List Byte) : List (Nat × List Byte) :=
  if outFrames b = 2 then [(2 * k, bs.take 4096), (2 * k + 1, bs.drop 4096)]
  else [(k, bs ++ leBytes (4096 - bs.length) 0)]

/-- send_down (R338). -/
def State.sendDown (s : State) (d : Nat) (r : CollRun) (k cnt : Nat) (bs : List Byte) : State :=
  (s.below r.body).foldl (fun (t : State) i => t.sendChunk d i r true k cnt bs) s

/-- Squared elements summed in FP64, each first divided by `w` (R345). -/
def addSquares (acc w : Nat) (xs : List (BitVec 32)) : Nat :=
  xs.foldl (fun a x =>
    let v := f64Div (toF64 (f32 x)) (f64OfNat w)
    f64Add a (f64Mul v v)) acc

/-- The factor 2^(2 × (127 − LS)) that removes the loss scale (R345). -/
def State.unscale (s : State) (j : Nat) : Nat :=
  toF64 (.fin false 1 (2 * (127 - (s.fld (numReg (s.partOf j) j 0) 7 0 : Int))))

/-- The squared norm of this device's own contribution (R345). -/
def State.localNorm (s : State) (r : CollRun) : Nat :=
  let n := (List.range (dChunks r.body)).foldl (fun acc k =>
    addSquares acc r.w (readElems (dInFmt r.body) (s.hbm.read (chunkAddr r.src (dStripe r.body) k) 4096))) 0
  f64Mul n (s.unscale r.wait.job)

/-- The squared norm of the reduced mean (R345). -/
def State.globalNorm (s : State) (r : CollRun) : Nat :=
  let div := if dFlag r.body 1 then 1 else r.minCnt * r.w
  let n := (List.range (dChunks r.body * outFrames r.body)).foldl (fun acc k =>
    let pl := outPlace r.body (s.sizeOf r) k
    addSquares acc div (readElems (dOutFmt r.body) (s.hbm.read pl.1 pl.2))) 0
  f64Mul n (s.unscale r.wait.job)

/-! ### Trees (R338) -/

/-- Whether a run belongs to the root of its tree. -/
def State.isRoot (s : State) (r : CollRun) : Bool := (s.parent (dGroup r.body)).isNone

/-- The final value of chunk `k`: written to DST and sent down. -/
def State.finalChunk (s : State) (d : Nat) (r : CollRun) (k cnt : Nat) (xs : List (BitVec 32)) : State :=
  (outCut r.body k (writeElems (dOutFmt r.body) (meanElems r.body cnt r.w xs))).foldl (fun (t : State) o =>
    (t.putOutFrame r o.1 o.2).sendDown d r o.1 cnt o.2) s

/-- The chunk a present child delivered. -/
def CollRun.chunkFrom (r : CollRun) (i k : Nat) : Option Chunk := r.chunks.find? fun c => !c.down && c.slot == i && c.k == k

/-- The next chunk goes up, once every present child has delivered it. -/
def State.treeUp (s : State) (d : Nat) (r : CollRun) : State :=
  let k := r.upK
  let root := s.isRoot r
  if dOp r.body = 4 then
    if root then
      match s.ownChunk d r k with
      | (none, s1) => s1
      | (some xs, s1) =>
        let r1 := { r with upK := k + 1, minCnt := 1 }
        (s1.setRun d r1).finalChunk d r1 k 1 xs
    else s
  else
    let here := r.present (s.children (dGroup r.body))
    let got := here.filterMap fun i => r.chunkFrom i k
    if got.length < here.length then s
    else match s.ownChunk d r k with
    | (none, s1) => s1
    | (some own, s1) =>
      let xs := got.foldl (fun a c => addElems a (readElems (dInFmt r.body) c.data)) own
      let cnt := got.foldl (fun a c => a + c.cnt) 1
      let r1 := { r with upK := k + 1, minCnt := if root then min r.minCnt cnt else r.minCnt
                         chunks := r.chunks.filter fun c => c.down || !(c.k == k) }
      let s2 := s1.setRun d r1
      match s.parent (dGroup r.body) with
      | none => s2.finalChunk d r1 k cnt xs
      | some u => s2.sendChunk d u r1 false k cnt (writeElems (dInFmt r.body) xs)

/-! ### Rings (R339) -/

/-- SIZE and RANK of a run's group. -/
def State.ringPlace (s : State) (r : CollRun) : Nat × Nat :=
  (s.fld (pgGroup (dGroup r.body)) 47 32, s.fld (pgGroup (dGroup r.body)) 31 16)

/-- Chunks of one shard. -/
def State.perShard (s : State) (r : CollRun) : Nat := dChunks r.body / (s.ringPlace r).1

/-- How many (step, chunk) events a ring run has at this node: its own partial, one for each partial received, then one for each shard
received onward. -/
def State.ringEvents (s : State) (r : CollRun) : Nat :=
  let size := (s.ringPlace r).1
  let per := s.perShard r
  match dOp r.body with
  | 2 => size * per
  | 3 => per + (size - 1) * (per * outFrames r.body)
  | _ => size * per + (size - 1) * (per * outFrames r.body)

/-- A final chunk of this device's own shard: written, and sent onward where the operation gathers. -/
def State.ownShard (s : State) (d : Nat) (r : CollRun) (k size : Nat) (xs : List (BitVec 32)) : State :=
  (outCut r.body k (writeElems (dOutFmt r.body) (meanElems r.body size r.w xs))).foldl (fun (t : State) o =>
    let t1 := t.putOutFrame r o.1 o.2
    if dOp r.body ≠ 2 ∧ 1 < size then t1.sendChunk d 0 r true o.1 size o.2 else t1) s

/-- A reduce-scatter event: step `t`, chunk `c` of the shard. -/
def State.ringReduce (s : State) (d : Nat) (r : CollRun) (t c : Nat) : State :=
  let (size, rank) := s.ringPlace r
  let per := s.perShard r
  let k := (rank + 2 * size - t - 1) % size * per + c
  let came := r.chunks.find? fun x => !x.down && x.k == k
  if t ≠ 0 ∧ came.isNone then s
  else match s.ownChunk d r k with
  | (none, s1) => s1
  | (some own, s1) =>
    let xs := match came with
      | some x => if t = 0 then own else addElems (readElems (dInFmt r.body) x.data) own
      | none => own
    let r1 := { r with upK := r.upK + 1, minCnt := size
                       chunks := if t = 0 then r.chunks else r.chunks.filter fun x => x.down || !(x.k == k) }
    let s2 := s1.setRun d r1
    if t + 1 < size then s2.sendChunk d 0 r1 false k size (writeElems (dInFmt r.body) xs) else s2.ownShard d r1 k size xs

/-- An all-gather event: step `t` ≥ 1, frame `c` of the shard received. -/
def State.ringGather (s : State) (d : Nat) (r : CollRun) (t c : Nat) : State :=
  let (size, rank) := s.ringPlace r
  let k := (rank + size - t) % size * (s.perShard r * outFrames r.body) + c
  match r.chunks.find? fun x => x.down && x.k == k with
  | none => s
  | some x =>
    let r1 := { r with upK := r.upK + 1, minCnt := size, chunks := r.chunks.filter fun y => !(y.down && y.k == k) }
    let s1 := (s.setRun d r1).putOutFrame r k x.data
    if t + 1 < size then s1.sendChunk d 0 r1 true k size x.data else s1

/-- The next event of a ring run. -/
def State.ringStep (s : State) (d : Nat) (r : CollRun) : State :=
  let (size, rank) := s.ringPlace r
  let per := s.perShard r
  let gp := per * outFrames r.body
  if s.ringEvents r ≤ r.upK then s
  else if dOp r.body = 3 then
    if r.upK < per then
      let k := rank * per + r.upK
      match s.ownChunk d r k with
      | (none, s1) => s1
      | (some own, s1) =>
        let r1 := { r with upK := r.upK + 1, minCnt := size }
        (s1.setRun d r1).ownShard d r1 k size own
    else s.ringGather d r ((r.upK - per) / gp + 1) ((r.upK - per) % gp)
  else if r.upK < size * per then s.ringReduce d r (r.upK / per) (r.upK % per)
  else s.ringGather d r ((r.upK - size * per) / gp + 1) ((r.upK - size * per) % gp)

/-! ### Norms (R345) -/

/-- Whether all of this device's contribution has gone up. -/
def State.upDone (s : State) (r : CollRun) : Bool :=
  if dRing r.body then decide (s.ringEvents r ≤ r.upK)
  else (dOp r.body == 4 && !(s.isRoot r)) || decide (dChunks r.body ≤ r.upK)

/-- A norm frame to peer slot `i`; its 16 payload bytes count in CE_TX_BYTES. -/
def State.sendNorm (s : State) (d i code : Nat) (r : CollRun) (v cnt : Nat) : State :=
  (s.sendCtrl i (ctrlFrame r.wait.job (dGroup r.body) r.wait.tag code r.wait.index false false false cnt (leBytes 8 v ++ leBytes 8 0))).bump
    (ceReg d 0x110) 16

/-- The total of the local norms, at the root or from above, goes down. -/
def State.normTotal (s : State) (d : Nat) (r : CollRun) (v cnt : Nat) : State :=
  let s1 := s.setRun d { r with normTotal := v, normCnt := cnt, normDone := true, normUp := true }
  (s.below r.body).foldl (fun (t : State) i => t.sendNorm d i 4 r v cnt) s1

/-- The local norms go up once this device's contribution and every present child's sum are in. -/
def State.tryNorm (s : State) (d : Nat) (r : CollRun) : State :=
  let here := r.present (s.children (dGroup r.body))
  let got := here.filterMap fun i => r.normUps.find? (·.1 == i)
  if !(dFlag r.body 4) || r.normUp || !(s.upDone r) || decide (got.length < here.length) then s
  else
    let v := got.foldl (fun a x => f64Add a x.2.1) r.normLocal
    let cnt := got.foldl (fun a x => a + x.2.2) 1
    match s.parent (dGroup r.body) with
    | none => s.normTotal d r v cnt
    | some u => (s.setRun d { r with normUp := true }).sendNorm d u 3 r v cnt

/-! ### Completion (R333, R334) -/

/-- Whether some frame of a run still waits at, or is unacknowledged by, a port of its die. -/
def State.unsent (s : State) (d : Nat) (r : CollRun) : Bool :=
  let mine := fun (f : TxFrame) => (f.type == 3 || f.type == 7) && f.job == r.wait.job && f.group == dGroup r.body && f.tag == r.wait.tag &&
    (if f.type = 3 then f.target % 512 == r.wait.index else bits f.target 24 16 == r.wait.index)
  let held := s.buckets.any fun b => b.2.held.any fun h => match h with
    | .frame _ f => mine f
    | .mem _ => false
  held || (List.range 4).any fun i =>
    let x := s.port (4 * d + i)
    x.replay.any (fun e => mine e.frame) || x.queues.any fun q => q.2.any mine

/-- Whether a run has its whole result and has sent what it must. -/
def State.runDone (s : State) (d : Nat) (r : CollRun) : Bool :=
  s.upDone r && (dRing r.body || s.isRoot r || decide (dChunks r.body * outFrames r.body ≤ r.downK)) &&
    (!(dFlag r.body 4) || r.normDone) && !(s.unsent d r)

/-- A token of a Stay die enters the network at the outer edge of its first or second attached Yard, through the crossings of non-enabled
Yards (R315, R471); where no enabled Yard follows it is lost (assumption 22). -/
def State.injectStay (s : State) (d side lane : Nat) (t : Token) : State :=
  let (p, e) := staySite d side
  let add := fun (y f : Nat) =>
    let x : InjTok := { y := y, inp := 16 * f + lane, tok := t }
    ({ s with inject := s.inject ++ [x] }).pumpInject
  match s.logicalOf p with
  | some y => add y e
  | none => add (64 + p) (oppEdge e)

/-- The completion token (R334). -/
def State.doneToken (s : State) (d : Nat) (r : CollRun) : State :=
  let c := s.reg (pgPort (4 * d) + 0x800 + 8 * dDone r.body)
  let pay := r.minCnt % 65536 + fieldAt 16 (b2n r.backup) + fieldAt 17 (b2n !r.missing.isEmpty) + fieldAt 18 (b2n r.win)
  s.injectStay d (bits c 30 30) (bits c 29 27) (dataTok r.wait.job r.wait.tag (dDone r.body) true pay)

/-- The key of the last completed instance of a descriptor (R336): GROUP, DESC and JOB. -/
def doneKey (g desc j : Nat) : Nat := 8192 * g + 16 * desc + j

/-- A descriptor completes. -/
def State.completeRun (s : State) (d : Nat) (r : CollRun) : State :=
  let x := s.engine d
  let s1 := s.setEngine d { x with
    running := x.running.filter fun q => !(decide (q.wait = r.wait))
    doneTag := Tab.put x.doneTag (doneKey (dGroup r.body) r.wait.index r.wait.job) r.wait.tag }
  let s2 := if dFlag r.body 4 && s1.redRun r.wait then
      { s1 with norms := s1.norms ++ [{ job := r.wait.job, d := d, bucket := r.wait.bucket, index := r.wait.index, loc := r.normTotal,
                                        glob := s.globalNorm r, cnt := r.minCnt, aborted := false }] }
    else s1
  let s3 := (s2.waitNs (ceReg d 0x138)).bump (ceReg d 0x120) 1
  if dFlag r.body 3 then s3.doneToken d r else s3

/-! ### The noise statistics at the end of a RED section (R345) -/

/-- A sequence of norm records in R331 order over engines 0..7. -/
def normOrder (xs : List NormRec) : List NormRec :=
  sortBy (fun a b => decide (a.d < b.d ∨ (a.d = b.d ∧ (a.bucket < b.bucket ∨ (a.bucket = b.bucket ∧ a.index ≤ b.index))))) xs

/-- The fold of a job's norms into PT_NOISE and PT_NOISE_B; `w` is W of the section. -/
def State.foldNorms (s : State) (p j w : Nat) : State :=
  let xs := normOrder (s.norms.filter (·.job == j))
  let s1 := { s with norms := s.norms.filter fun n => !(n.job == j) }
  let cnt := xs.foldl (fun m x => min m x.cnt) 0xFFFF
  let b := s.fld (collReg p j 0) 31 0
  if xs.isEmpty ∨ (xs.any (·.aborted)) ∨ cnt < 2 ∨ b * w = 0 then s1
  else
    let l := f64Div (xs.foldl (fun a x => f64Add a x.loc) 0) (f64OfNat cnt)
    let g := xs.foldl (fun a x => f64Add a x.glob) 0
    let b1 := f64OfNat (b * w)
    let b2 := f64OfNat (b * w * cnt)
    let one := f64OfNat 1
    let g2 := f64Div (f64Sub (f64Mul b2 g) (f64Mul b1 l)) (f64Sub b2 b1)
    let sv := f64Div (f64Sub l g) (f64Sub (f64Div one b1) (f64Div one b2))
    let a := toF64 (.fin false 1 (-(s.fld (collReg p j 0) 56 52 : Int)))
    let n := s.fld (collReg p j 0x18) 15 0
    let wide := fun (x : Nat) => toF64 (f32 (BitVec.ofNat 32 x))
    let narrow := fun (x : Nat) => (toF32 (f64 x)).toNat
    let og := wide (s.fld (collReg p j 0x10) 63 32)
    let os := wide (s.fld (collReg p j 0x10) 31 0)
    let eg := if n = 0 then g2 else f64Add og (f64Mul a (f64Sub g2 og))
    let es := if n = 0 then sv else f64Add os (f64Mul a (f64Sub sv os))
    (s1.setReg (collReg p j 0x10) (fieldAt 32 (narrow eg) + narrow es)).setReg (collReg p j 0x18)
      (fieldAt 32 (narrow (f64Div es eg)) + stopAt 0xFFFF (n + 1))

/-! ### The window (R344) -/

/-- An issue fault of a descriptor in its engine's page (R332, Table 5.9 with SLOT 0). -/
def State.engineFault (s : State) (d j section_ : Nat) (x : Nat × Nat × Nat) : State :=
  s.faultEv (pgEngine d) x.1 (fieldAt 60 x.2.1 + fieldAt 56 j + fieldAt 32 section_ + stopAt 0xFFFF_FFFF x.2.2) 2

/-- The descriptors of a section of an image, engine by engine, in ascending BUCKET and INDEX order (R331). -/
def Image.collsOf (i : Image) (num : Nat) : List DescRec :=
  let le := fun (a b : DescRec) =>
    decide (dBucket a.body < dBucket b.body ∨ (dBucket a.body = dBucket b.body ∧ a.index ≤ b.index))
  (List.range 8).flatMap fun d => sortBy le (i.colls.filter fun c => c.target == d && dSection c.body == num)

/-- A loaded image of a partition. -/
def State.imageAt (s : State) (p rig : Nat) : Option Image := s.images.find? fun i => i.part == p && i.rig == rig

/-- One WIN descriptor of job `j` added into its window buffer. -/
def State.addWindow (s : State) (j : Nat) (c : DescRec) (w : Nat) : State :=
  let b := c.body
  let u := s.collUser j b
  (List.range (dChunks b)).foldl (fun (t : State) k =>
    let src := chunkAddr (dSrc b) (dStripe b) k
    let win := chunkAddr (dWin b) (dStripe b) k
    let (bs, t1) := t.hbmRead u src 4096
    if w = 0 then t1.hbmWrite u win (writeElems (dInFmt b) (readElems (dInFmt b) bs))
    else
      let (old, t2) := t1.hbmRead u win 4096
      t2.hbmWrite u win (writeElems (dInFmt b) (addElems (readElems (dInFmt b) old) (readElems (dInFmt b) bs)))) s

/-- The addition at a gate PASS of job `j`. -/
def State.windowPass (s : State) (p j : Nat) : State :=
  let st := collReg p j 8
  let w := s.fld st 63 57
  if w = s.fld (collReg p j 0) 63 57 then s.bumpFld st 15 0 1
  else
    let plan := s.reg (pgPart p + 0x400 + 0x40 * j)
    let rig := bits plan 55 52
    let red := bits plan 31 16
    let ds := match s.imageAt p rig with
      | some i => (i.collsOf red).filter fun (c : DescRec) => dWinFlag c.body
      | none => []
    let step := fun (a : State × Bool) (c : DescRec) =>
      if a.2 then a
      else match a.1.collCheck p j c.target c.body false with
        | some x =>
          let t := a.1.partFault p x.1 (fieldAt 56 j + fieldAt 52 rig + fieldAt 32 red)
          ((t.engineFault c.target j red x).setFld st 63 57 0, true)
        | none =>
          if a.1.bufferOk p (dWin c.body) (dStripe c.body) 0 (dChunks c.body) then (a.1.addWindow j c w, false)
          else
            let t := a.1.partFault p 0x0201 (fieldAt 56 j + fieldAt 52 rig + fieldAt 32 red)
            ((t.engineFault c.target j red (0x0201, 6, 0)).setFld st 63 57 0, true)
    let r := ds.foldl step (s, false)
    if r.2 then r.1 else r.1.setFld st 63 57 (w + 1)

end Sys2Proof.Machine
end

