-- ==== Sys2Proof/Machine/StepOps.lean ====
section
/-! DEFINITION. The step of a job: ring entries that complete (R370), records consumed, the step boundary (R194), the result of the gate
(R202..R204), what holds a start record (R96, R218, R363), flips (R280). -/
namespace Sys2Proof.Machine

/-- Step register `o` of job `j` (Table 8.4). -/
def stepReg (p j o : Nat) : Nat := pgPart p + 0x400 + 0x40 * j + o
/-- Version and phase register `o` of job `j` (Table 9.4). -/
def phReg (p j o : Nat) : Nat := pgPart p + 0x800 + 0x20 * j + o
/-- PT_JOB_CFG of job `j`. -/
def jobCfg (p j : Nat) : Nat := pgPart p + 0x200 + 0x10 * j
/-- PT_JOB_STATUS of job `j`. -/
def jobSt (p j : Nat) : Nat := pgPart p + 0x208 + 0x10 * j

/-! ### Rings (R369, R370) -/

/-- COMPLETED is the oldest entry that has not completed; completed ones before it leave. -/
def State.advanceRing (s : State) (j : Nat) : State :=
  let q := (s.ringOf j).dropWhile (·.done)
  let c := match q with
    | e :: _ => e.index
    | [] => s.fld (ringSt j) 15 0
  ((s.setRing j q).setFld (ringSt j) 31 16 c).refreshRing j

/-- Entry `i` of a ring completes: RING_DONE where it has IRQ. -/
def State.ringDone (s : State) (j i : Nat) : State :=
  match (s.ringOf j).find? fun e => e.index == i && !e.done with
  | none => s
  | some e =>
    let s1 := s.setRing j ((s.ringOf j).map fun x => if x.index = i then { x with done := true } else x)
    let s2 := match e.irq, s1.partOfJob j with
      | true, some p => s1.jobEvent p j 11
      | _, _ => s1
    s2.advanceRing j

/-- The source of a record learns that it has completed. -/
def State.sourceDone (s : State) (src : RecSource) : State :=
  match src with
  | .ring j i => s.ringDone j i
  | .core _ => s

/-- A record is consumed without running (R177, R370). -/
def State.consume (s : State) (r : StartRec) (code : Nat) : State := (s.issueResult r code).sourceDone r.src

/-- ERR_INFO of issue faults in the partition page (Table 4.3). -/
def StartRec.info (r : StartRec) (dim ext : Nat) : Nat :=
  fieldAt 60 dim + fieldAt 56 r.job + fieldAt 52 (r.rig % 16) + fieldAt 32 r.section_ + ext % 2 ^ 32

/-- A record is rejected: its fault in the partition page, and it is consumed. -/
def State.reject (s : State) (p : Nat) (r : StartRec) (code dim ext : Nat) : State :=
  (s.partFault p code (r.info dim ext)).consume r code

/-! ### The version fence (R216, R218) -/

/-- CUR of a job. -/
def State.curVer (s : State) (p j : Nat) : Nat := s.fld (phReg p j 0) 31 0

/-- The version a section of job `j` latches. -/
def State.versionOf (s : State) (p j : Nat) : Nat :=
  if s.flag (phReg p j 0) 63 then s.curVer p (s.fld (phReg p j 0) 59 56) else s.curVer p j

/-- The jobs that follow job `j`. -/
def State.followers (s : State) (p j : Nat) : List Nat :=
  (s.jobsOf p).filter fun k => s.flag (phReg p k 0) 63 && s.fld (phReg p k 0) 59 56 == j

/-- Whether an in-flight section of the job or of a follower has latched CUR − 1. -/
def State.fenced (s : State) (p j : Nat) : Bool :=
  let old := (s.curVer p j + 2 ^ 32 - 1) % 2 ^ 32
  s.sections.any fun c => (c.job == j || (s.followers p j).contains c.job) && c.version == old

/-! ### Step plans and the sequencer (R191..R193) -/

/-- The role of a section in the job's step plan (Table 8.1): 1 PIPE, 2 RED, 3 UPD, 0 none. -/
def State.roleOf (s : State) (p j rig num : Nat) : Nat :=
  let a := s.reg (stepReg p j 0)
  if !(bit a 63) ∨ bits a 55 52 ≠ rig then 0
  else if bits a 15 0 = num then 1
  else if bits a 31 16 = num ∧ num ≠ 0xFFFF then 2
  else if bits a 47 32 = num then 3
  else 0

/-- Whether the plan of a job names no RED section. -/
def State.noRed (s : State) (p j : Nat) : Bool := s.fld (stepReg p j 0) 31 16 == 0xFFFF

/-- The sequencer changes state. -/
def State.setSeq (s : State) (p j st : Nat) : State := s.setFld (stepReg p j 0x10) 63 61 st

/-- What the sequencer does with a record (Table 8.2). -/
inductive SeqAct
  | hold
  | consume (code : Nat)
  | start (boundary : Bool)
  deriving DecidableEq, Repr

/-- Table 8.2, with the fence of R218. -/
def State.seqAct (s : State) (p j role : Nat) : SeqAct :=
  let skipped := s.flag (stepReg p j 0x10) 60
  match s.seqState p j with
  | 0 => if role = 1 then .start false else .consume (if skipped then 0x0504 else 0x0B01)
  | 3 =>
    if role = 1 then .start true
    else if role = 2 then .start false
    else if s.noRed p j then (if s.fenced p j then .hold else .start false) else .consume 0x0B01
  | 4 => if role = 2 then .consume 0x0B01 else .hold
  | 5 => if role = 3 then (if s.fenced p j then .hold else .start false) else .consume 0x0B01
  | 6 => if role = 1 then .hold else .consume 0x0B01
  | _ => .hold

/-- WAITING of PT_STEP_STATUS, HELD and FENCE of PT_PHASE_STATUS follow what is held. -/
def State.refreshHeld (s : State) (p j : Nat) : State :=
  let q := Tab.get [] s.stepHeld j
  let st := s.seqState p j
  let upd := match q with
    | r :: _ => s.roleOf p j r.rig r.section_ == 3
    | [] => false
  let fence := upd && (st == 5 || (st == 3 && s.noRed p j)) && s.fenced p j
  ((s.setFld (stepReg p j 0x10) 58 56 q.length).setFld (phReg p j 0x10) 56 54 (Tab.get [] s.phaseHeld j).length).setFlag
    (phReg p j 0x10) 57 fence

/-! ### The boundary (R194) -/

/-- The acted ring entries of the step that closes complete (R370). -/
def State.planDone (s : State) (j : Nat) : State :=
  ((s.ringOf j).filter fun e => e.plan && !e.done).foldl (fun (t : State) e => t.ringDone j e.index) s

/-- A step boundary of job `j`; `hold` is the state HELD in place of IDLE (R203). -/
def State.boundary (s : State) (p j : Nat) (skipped accum upd hold : Bool) : State :=
  let s1 := ((s.lossScale p j skipped upd).spikeAtBoundary p j skipped).rollEntries p j skipped
  let a := stepReg p j 0x10
  let s2 := s1.setFld a 31 0 ((s1.fld a 31 0 + 1) % 2 ^ 32)
  let s3 := ((s2.setFlag a 60 skipped).setFlag a 59 accum).setReg (stepReg p j 0x30) s2.now
  let s4 := if upd then s3.setFld (phReg p j 0) 31 0 ((s3.curVer p j + 1) % 2 ^ 32) else s3
  let floor := s4.heldOnClose.contains j
  let s5 := { s4.setSeq p j (if hold || floor then 7 else 0) with heldOnClose := s4.heldOnClose.filter fun k => !(k == j) }
  (((s5.jobEvent p j 1).planDone j).refreshHeld p j).progress p

/-! ### The gate (R200..R204) -/

/-- The result of the gate of job `j`; on FAIL `cause` is SKIP_CAUSE, and `hold` closes the step into HELD (R203). -/
def State.gateResult (s : State) (p j : Nat) (pass : Bool) (cause : Nat) (hold : Bool) : State :=
  if s.seqState p j ≠ 2 then s
  else if pass then ((s.windowPass p j).setSeq p j 3).refreshHeld p j
  else
    let s1 := (s.setFld (stepReg p j 0x10) 55 54 cause).setFld (collReg p j 8) 63 57 0
    let q := Tab.get [] s1.stepHeld j
    let out := fun (r : StartRec) => decide (2 ≤ s1.roleOf p j r.rig r.section_)
    let s2 := (q.filter out).foldl (fun (t : State) r => t.consume r 0x0504)
      { s1 with stepHeld := Tab.set [] s1.stepHeld j (q.filter fun r => !(out r)) }
    let s3 := (s2.bump (stepReg p j 0x20) 1).jobEvent p j 2
    let s4 := s3.numFault p j 0x0504 0 cause (s3.count (stepReg p j 0x18))
    s4.boundary p j true false false hold

/-! ### What holds a start record at R96 -/

/-- The channel a running map-out or row repair has quiesced or quiesces (R294, R297): a map-out from when no flip was pending, a row
repair while it is at a channel. -/
def MaintOp.channel (m : MaintOp) : Option Nat :=
  if m.cls = 1 ∧ 0 < m.phase then some m.target
  else if m.cls = 2 ∧ 0 < m.phase then some (32 * m.target + m.phase - 1) else none

/-- Whether a map-out or row repair holds the start records of partition `p` (R294, R297). -/
def State.quiesced (s : State) (p : Nat) : Bool :=
  s.maintRun.any fun m => match m.channel with
    | some c => s.granted p c
    | none => false

/-- Whether start records of job `j` are held: two sections in flight (R96), a yield (R363), a permute past WAIT (R346), a channel map-out (R297). -/
def State.r96Holds (s : State) (p j : Nat) : Bool :=
  decide (2 ≤ (s.sectionsOf j).length) || decide (2 ≤ s.jobState p j) ||
    (s.permute.isSome && s.fld (pgGlobal + 0x940) 63 60 == j && decide (2 ≤ s.fld (pgGlobal + 0x958) 62 60)) ||
    s.quiesced p

/-! ### Flips (R280) -/

/-- One staged entry flips: ACT inverted, STAGED cleared, VER incremented. -/
def State.flipEntry (s : State) (b : Nat) : State :=
  let a := sdAddr b
  if s.flag a 62 then ((s.setFlag a 61 !(s.flag a 61)).setFlag a 62 false).setFld a 47 32 ((s.fld a 47 32 + 1) % 65536) else s

/-- The flip of job `j`, in one act. -/
def State.flipJob (s : State) (j : Nat) : State :=
  (s.sdListed.filter fun b => s.sdStaged b && s.sdJob b == j).foldl State.flipEntry s

/-- FLIPS of SD_STATUS increments, with JOB of the flip (Tables 11.13, 16.18). -/
def State.countFlip (s : State) (j : Nat) : State :=
  let a := pgGlobal + 0x928
  (((s.setFlag a 63 false).setFld a 59 56 j).setFld a 31 0 ((s.fld a 31 0 + 1) % 2 ^ 32)).event pgGlobal 3

/-- The flip of the jobs `js` in one act, at a map-out or a permute (R297, R346); FLIPS grows once. A flip that is pending stays so. -/
def State.flipJobs (s : State) (js : List Nat) : State :=
  match js.getLast? with
  | none => s
  | some j =>
    let a := pgGlobal + 0x928
    let was := s.reg a
    let s1 := (js.foldl State.flipJob s).countFlip j
    if bit was 63 then (s1.setFlag a 63 true).setFld a 59 56 (bits was 59 56) else s1

end Sys2Proof.Machine
end

