-- ==== Sys2Proof/Machine/RxOps.lean ====
section
/-! DEFINITION. Receiving on the Stay links: header checks, credits and acknowledgements (R306, R309..R313, R316), what becomes of a token or
collective frame (R315, R323, R336), what an engine takes (R338..R343, R345), and the permute's blocks (R346). -/
namespace Sys2Proof.Machine

/-! ### Header fields (Tables 13.3, 14.4) -/

/-- TYPE. -/
def fType (f : Frame) : Nat := fld13 f 3 0
/-- PH. -/
def fPh (f : Frame) : Nat := fld13 f 14 13
/-- LAST. -/
def fLast (f : Frame) : Bool := bit f.hdr.toNat 15
/-- LEN. -/
def fLen (f : Frame) : Nat := fld13 f 28 16
/-- DST. -/
def fDst (f : Frame) : Nat := fld13 f 46 32
/-- SRC. -/
def fSrc (f : Frame) : Nat := fld13 f 62 48
/-- JOB. -/
def fJob (f : Frame) : Nat := fld13 f 67 64
/-- GROUP. -/
def fGroup (f : Frame) : Nat := fld13 f 79 72
/-- TAG. -/
def fTag (f : Frame) : Nat := fld13 f 95 80
/-- SEQ. -/
def fSeq (f : Frame) : Nat := fld13 f 127 96
/-- TARGET. -/
def fTarget (f : Frame) : Nat := fld13 f 191 128
/-- CODE of a COLL_CTRL frame. -/
def fCode (f : Frame) : Nat := bits (fTarget f) 7 0
/-- DESC of a COLL or COLL_CTRL frame. -/
def fDesc (f : Frame) : Nat := if fType f = 3 then bits (fTarget f) 8 0 else bits (fTarget f) 24 16

/-- The peer slot of a group from which a frame of device `dev` comes. -/
def State.slotFrom (s : State) (g dev : Nat) : Option Nat := firstBelow 8 fun i => s.peerValid g i && s.peerDev g i == dev

/-- ERR_INFO of Table 14.7. -/
def collInfo (g slots desc cause j cnt tag : Nat) : Nat :=
  fieldAt 56 g + fieldAt 48 slots + fieldAt 39 desc + fieldAt 36 cause + fieldAt 32 j + fieldAt 16 (stopAt 0xFFFF cnt) + tag % 65536

/-- A set of peer slots as bits. -/
def slotBits (xs : List Nat) : Nat := xs.foldl (fun v i => Nat.lor v (2 ^ i)) 0

/-- A frame discarded as late at engine `d` (R336). -/
def State.ceLate (s : State) (d : Nat) : State := s.bump (ceReg d 0x130) 1

/-! ### Credits, acknowledgements and resends (R312, R316) -/

/-- ERR_INFO of the port page (Table 13.11). -/
def portInfo (q cause lanes peer seq : Nat) : Nat := fieldAt 59 q + fieldAt 55 cause + fieldAt 47 lanes + fieldAt 32 peer + seq

/-- Frames of the replay buffer are to be sent again, as their VCs allow; one already sent 8 times takes the port DOWN with cause 4 (R312). -/
def State.resendAll (s : State) (q : Nat) (es : List Sent) : State :=
  if es.any fun e => decide (8 ≤ e.sends) then s.portLost q 4
  else
    let x := s.port q
    (s.setPort q { x with replay := x.replay.map fun r => if es.contains r then { r with due := true } else r }).pump q

/-- The credits a frame returns (direct mode): the slots since the last count (R316). -/
def State.takeCredits (s : State) (q : Nat) (f : Frame) : State :=
  if s.ethernet q || fld13 f 239 239 == 0 then s
  else
    let vc := fld13 f 238 236
    let cum := fld13 f 235 228
    let x := s.port q
    let n := (cum + 256 - Tab.get 0 x.seenCum vc) % 256
    (s.setPort q { x with seenCum := Tab.set 0 x.seenCum vc cum }).setFld (pgPort q + 0x180 + 8 * vc) 63 56 (stopAt 255 (s.credits q vc + n))

/-- The acknowledgement a frame carries, or the NAK of a LINK frame (R312). -/
def State.takeAck (s : State) (q : Nat) (f : Frame) : State :=
  if fld13 f 227 227 = 0 then s
  else
    let vc := fld13 f 226 224
    let n := fld13 f 223 192
    let nak := fType f == 4 && fld13 f 68 68 == 1
    let x := s.port q
    let mine := fun (e : Sent) => e.frame.vc == vc && e.frame.dst == fSrc f
    let gone := fun (e : Sent) => mine e && (if nak then laterThan 32 n e.seq else !(laterThan 32 e.seq n))
    let s1 := s.setPort q { x with replay := x.replay.filter fun e => !(gone e) }
    if nak then s1.resendAll q ((s1.port q).replay.filter mine) else s1

/-- The state a port keeps of a pair that is new in a full table: room where some pair has been idle for more than 1 ms (R312). -/
def State.pairRoom (s : State) (q k : Nat) : Option State :=
  let x := s.port q
  if !(s.ethernet q) || (Tab.find? x.rxIdle k).isSome || decide (x.rxIdle.length < 4096) then some s
  else match x.rxIdle.foldl (fun (best : Option (Nat × Nat)) e => match best with
      | none => some e
      | some b => if e.2 < b.2 then some e else some b) none with
    | none => some s
    | some (o, t) =>
      if t + 1000000 < s.now + 1 then
        some (s.setPort q { x with rxIdle := Tab.del x.rxIdle o, rxSeq := Tab.del x.rxSeq o, unacked := Tab.del x.unacked o })
      else none

/-! ### A frame arrives -/

/-- The header error of a frame: its cause (R313). -/
def frameError (f : Frame) : Option Nat :=
  let h := f.hdr.toNat
  if hcrc h ≠ bits h 255 240 then some 1
  else if bits h 7 4 ≠ 1 ∨ fType f = 0 ∨ 8 < fType f then some 2
  else none

/-- A frame is taken in order: counted, and acknowledged at every 16th (R312), after `go` has delivered it. -/
def State.accept (s : State) (q : Nat) (f : Frame) (go : State → State) : State :=
  let k := pairKey (fVc f) (fSrc f)
  let x := s.port q
  let n := Tab.get 0 x.unacked k + 1
  let s1 := s.setPort q { x with rxSeq := Tab.put x.rxSeq k ((fSeq f + 1) % 2 ^ 32), rxIdle := Tab.put x.rxIdle k (s.now + 1)
                                 unacked := Tab.set 0 x.unacked k n }
  let s2 := go ((s1.bump (pgPort q + 0x118) 1).bump (pgPort q + 0x128) f.payload.length)
  if 16 ≤ n then s2.sendLink q (fVc f) (fSrc f) false else s2

/-- A sequenced frame: delivered only in its turn; the slot of one that is discarded is free at once (R312, R316). -/
def State.inOrder (s : State) (q : Nat) (f : Frame) (go : State → State) : State :=
  let k := pairKey (fVc f) (fSrc f)
  match s.pairRoom q k with
  | none => s.freeSlot q (fVc f)
  | some s0 =>
    let e := Tab.get 0 (s0.port q).rxSeq k
    if fSeq f = e then s0.accept q f go
    else
      let x := s0.port q
      ((s0.setPort q { x with rxIdle := Tab.put x.rxIdle k (s0.now + 1) }).freeSlot q (fVc f)).sendLink q (fVc f) (fSrc f) (laterThan 32 (fSeq f) e)

/-- A frame arrives at port `q`: counts (R311), header checks (R313), destination (R306), credits and acknowledgements, then `go` on a frame
that `want` names; a command that carries another frame changes nothing. -/
def State.receive (s : State) (q : Nat) (f : Frame) (want : Frame → Bool) (go : State → State) : State :=
  if !(s.portUp q) || decide (f.payload.length ≠ fLen f ∧ frameError f = none) then s
  else
    let c1 := if s.ethernet q && !f.fcsOk then s.bump (pgPort q + 0x140) 1 else s
    let c2 := (c1.bump (pgPort q + 0x148) f.fecCorr).bump (pgPort q + 0x150) f.fecBad
    match frameError f with
    | some c => (c2.bump (pgPort q + 0x130) 1).faultEv (pgPort q) 0x0703 (portInfo q c 0 (fSrc f) (fSeq f)) 3
    | none =>
      if !(want f) then s
      else if fDst f ≠ s.devId then (if fType f = 4 then c2.stDrop q else (c2.stDrop q).freeSlot q (fVc f))
      else
        let s1 := (c2.takeCredits q f).takeAck q f
        (if fType f = 4 then s1.bump (pgPort q + 0x118) 1 else s1.inOrder q f go).pump q

/-! ### What becomes of a token or collective frame (R323, R336) -/

/-- What a delivered frame meets: it waits under credit, is dropped, is late, or is taken. -/
inductive Meets
  | hold | drop | late | take
  deriving DecidableEq, Repr

/-- PH against the job's phase (R323). -/
def State.phaseMeets (s : State) (f : Frame) : Meets :=
  match s.partOfJob (fJob f) with
  | none => .take
  | some p =>
    if !(s.phaseOn p (fJob f)) ∨ fPh f = s.phaseOf p (fJob f) then .take
    else if s.phState p (fJob f) ≠ 0 ∧ fPh f = s.fld (phReg p (fJob f) 0x10) 61 60 then .hold
    else .drop

/-- Whether a frame is one of the permute that PERM_CFG and PERM_CFG2 name. -/
def State.permFrame (s : State) (f : Frame) : Bool :=
  fType f == 3 && fJob f == s.permJob && fGroup f == s.permGroup && fTag f == s.permTag

/-- A COLL frame whose TARGET no collective's can be: it has a bit that Table 14.4 reserves there. -/
def permOnly (f : Frame) : Bool := fType f == 3 && (bits (fTarget f) 15 9 != 0 || bit (fTarget f) 37)

/-- PHASE of PERM_STATUS. -/
def State.permPhase (s : State) : Nat := s.fld (pgGlobal + 0x958) 62 60

/-- Whether a run is the instance of a frame but for its TAG. -/
def CollRun.serves (r : CollRun) (f : Frame) : Bool :=
  r.wait.job == fJob f && dGroup r.body == fGroup f && r.wait.index == fDesc f

/-- The running instance that a frame names. -/
def State.runFor (s : State) (d : Nat) (f : Frame) : Option CollRun :=
  (s.engine d).running.find? fun r => r.serves f && r.wait.tag == fTag f

/-- A collective frame against the instances of engine `d` (R336). -/
def State.instanceMeets (s : State) (d : Nat) (f : Frame) : Meets :=
  let x := s.engine d
  if (s.runFor d f).isSome then .take
  else match x.running.find? fun r => r.serves f with
    | some r => if laterThan 16 (fTag f) r.wait.tag then .hold else .late
    | none => match Tab.find? x.doneTag (doneKey (fGroup f) (fDesc f) (fJob f)) with
      | some t => if laterThan 16 (fTag f) t then .hold else .late
      | none => .hold

/-- A permute's COLL frame against the permutes of this device (R336): held until MOVE, late once its permute has ended here. -/
def State.permMeets (s : State) (f : Frame) : Meets :=
  if s.permute.isSome ∧ s.permFrame f then (if 3 ≤ s.permPhase then .take else .hold)
  else match Tab.find? s.agreeDone (agreeKey true (fJob f) (fGroup f)) with
    | some t => if laterThan 16 (fTag f) t then .hold else .late
    | none => .hold

/-- Whether a COLL frame is a permute's (DESIGN CHOICE, assumption 179): no running or completed instance of a descriptor has its TAG, and it is of the
permute that PERM_CFG names or can be no collective's. -/
def State.ofPermute (s : State) (d : Nat) (f : Frame) : Bool :=
  (s.runFor d f).isNone && Tab.find? (s.engine d).doneTag (doneKey (fGroup f) (fDesc f) (fJob f)) != some (fTag f) &&
    (s.permFrame f || permOnly f)

/-- What a delivered frame meets. -/
def State.meets (s : State) (q : Nat) (f : Frame) : Meets :=
  let ph := if fType f = 7 then .take else s.phaseMeets f
  match ph with
  | .take =>
    if fType f ≤ 2 then .take
    else if s.ofPermute (q / 4) f then s.permMeets f
    else s.instanceMeets (q / 4) f
  | m => m

/-! ### Tokens (R315) -/

/-- The payload of a TOKEN frame as tokens of 64 bytes. -/
def cutTokens : (n : Nat) → List Byte → List Nat
  | 0, _ => []
  | n + 1, bs => if bs.isEmpty then [] else leNat (bs.take 64) :: cutTokens n (bs.drop 64)

/-- A TOKEN or MARK frame injected through its channel-map entry; its slot is free when its tokens have entered the wafer (R316). -/
def State.takeTokens (s : State) (q : Nat) (f : Frame) : State :=
  let d := q / 4
  let c := bits (fTarget f) 7 0
  let e := s.reg (pgPort (4 * d) + 0x800 + 8 * c)
  if !(bit e 31) then (s.stDrop q).freeSlot q (fVc f)
  else
    let put := fun (t : State) (x : Token) => t.injectStay d (bits e 30 30) (bits e 29 27) x
    let ps := cutTokens 64 f.payload
    let n := s.inject.length
    let s1 := if fType f = 2 then put s { hdr := mkHdr (fJob f) (fTag f) c 2 (fLast f), payload := 0 }
      else ((List.range ps.length).zip ps).foldl (fun (t : State) x =>
        put t (dataTok (fJob f) (fTag f) c (fLast f && x.1 + 1 == ps.length) x.2)) s
    match (s1.inject.drop n).getLast? with
    | some x =>
      { s1 with inject := s1.inject.dropLast ++ [{ x with slot := some (q, fVc f), dev := fSrc f }] }.tookSlot q (fVc f)
    | none => s1.freeSlot q (fVc f)

/-! ### Collective frames -/

/-- The child slot that slot `i` delivers for, and whether it is its backup (R341). -/
def State.childOf (s : State) (r : CollRun) (i : Nat) : Option (Nat × Bool) :=
  let ch := s.children (dGroup r.body)
  if ch.contains i then some (i, false) else (ch.find? fun c => dBackup r.body c == some i).map fun c => (c, true)

/-- The first chunk taken from a backup (R341). -/
def State.backupUsed (s : State) (d : Nat) (r : CollRun) (child : Nat) : State :=
  s.faultEv (pgEngine d) 0x0704
    (collInfo (dGroup r.body) (2 ^ child) r.wait.index 0 r.wait.job (1 + ((s.children (dGroup r.body)).filter fun i =>
      r.chunks.any fun c => !c.down && c.slot == i).length) r.wait.tag) 0

/-- A chunk on its way up the tree (R338, R341, R342). -/
def State.takeUp (s : State) (d : Nat) (r : CollRun) (f : Frame) (slot : Option Nat) : State :=
  let k := bits (fTarget f) 36 17
  match slot.bind (s.childOf r) with
  | none => s.ceLate d
  | some (child, backup) =>
    if r.missing.contains child then s.ceLate d
    else if r.taken.contains (child, k) then s.bump (ceReg d 0x128) 1
    else
      let c : Chunk := { slot := child, down := false, k := k, cnt := bits (fTarget f) 63 48, data := f.payload }
      let r1 := { r with chunks := r.chunks ++ [c], taken := r.taken ++ [(child, k)], backup := r.backup || backup }
      let s1 := (s.setRun d r1).bump (ceReg d 0x118) f.payload.length
      if backup && !r.backup then s1.backupUsed d r1 child else s1

/-- A result chunk from the PARENT (R338). -/
def State.takeDown (s : State) (d : Nat) (r : CollRun) (f : Frame) : State :=
  let k := bits (fTarget f) 36 17
  let cnt := bits (fTarget f) 63 48
  let r1 := { r with downK := r.downK + 1, minCnt := min r.minCnt cnt }
  (((s.setRun d r1).bump (ceReg d 0x118) f.payload.length).putOutFrame r k f.payload).sendDown d r1 k cnt f.payload

/-- A COLL frame of a running instance. -/
def State.takeColl (s : State) (d : Nat) (r : CollRun) (f : Frame) : State :=
  let g := dGroup r.body
  let down := bit (fTarget f) 16
  if dRing r.body then
    if s.peerValid g 1 ∧ s.peerDev g 1 = fSrc f then
      let c : Chunk := { slot := 1, down := down, k := bits (fTarget f) 36 17, cnt := bits (fTarget f) 63 48, data := f.payload }
      (s.setRun d { r with chunks := r.chunks ++ [c] }).bump (ceReg d 0x118) f.payload.length
    else s.ceLate d
  else
    let slot := s.slotFrom g (fSrc f)
    if down then (if slot.isSome ∧ slot = s.parent g then s.takeDown d r f else s.ceLate d)
    else s.takeUp d r f slot

/-- ABORT of a running descriptor (R343): a child becomes MISSING from the first chunk not yet forwarded; from the PARENT the descriptor
is stopped, and ABORT goes to the children and backups. -/
def State.takeAbort (s : State) (d : Nat) (r : CollRun) (slot : Option Nat) : State :=
  let g := dGroup r.body
  match slot with
  | none => s.ceLate d
  | some i =>
    if (s.children g).contains i then
      let r1 := { r with missing := if r.missing.contains i then r.missing else r.missing ++ [i]
                         chunks := r.chunks.filter fun c => c.down || !(c.slot == i) }
      (s.setRun d r1).tryNorm d r1
    else if s.parent g = some i then s.stopRun d r (s.below r.body)
    else s

/-- A NORM or ABORT frame of a running instance (R343, R345): a child's sum is taken once, from it or its backup (R341). -/
def State.takeCtrl (s : State) (d : Nat) (r : CollRun) (f : Frame) : State :=
  let slot := s.slotFrom (dGroup r.body) (fSrc f)
  let v := leNat (f.payload.take 8)
  let cnt := bits (fTarget f) 63 48
  match fCode f with
  | 3 => match slot.bind (s.childOf r) with
    | some (i, _) =>
      if r.missing.contains i then s.ceLate d
      else if r.normUps.any (·.1 == i) then s.bump (ceReg d 0x128) 1
      else
        let r1 := { r with normUps := r.normUps ++ [(i, v, cnt)] }
        ((s.setRun d r1).bump (ceReg d 0x118) f.payload.length).tryNorm d r1
    | none => s.ceLate d
  | 4 =>
    if slot.isSome ∧ slot = s.parent (dGroup r.body) then (s.bump (ceReg d 0x118) f.payload.length).normTotal d r v cnt else s.ceLate d
  | 5 => s.takeAbort d r slot
  | _ => s

/-- A block's chunk of the permute, written at the inactive placement (R346): RECEIVED counts the blocks that are whole. -/
def State.takeBlock (s : State) (d : Nat) (f : Frame) : State :=
  match s.permute with
  | none => s
  | some r =>
    let b := bits (fTarget f) 16 0
    let k := bits (fTarget f) 37 18
    match r.expect.find? (·.1 == b) with
    | none => s
    | some (_, left) =>
      let base := bits (s.sdPlace b false) 41 0 + (if bit (fTarget f) 17 then s.fld (pgGlobal + 0x948) 63 44 * 4096 else 0)
      let s1 := (s.bump (ceReg d 0x118) f.payload.length).hbmWrite s.permUser (base + k * 4096) (f.payload.take (min 4096 (s.sdLen b - k * 4096)))
      let r1 := { r with expect := if left ≤ 1 then r.expect.filter fun e => !(e.1 == b)
                                   else r.expect.map fun e => if e.1 = b then (b, left - 1) else e }
      let s2 := { s1 with permute := some r1 }
      if left ≤ 1 then s2.setFld (pgGlobal + 0x958) 34 17 (s2.fld (pgGlobal + 0x958) 34 17 + 1) else s2

/-- A frame taken. -/
def State.takeFrame (s : State) (q : Nat) (f : Frame) : State :=
  let d := q / 4
  if fType f ≤ 2 then s.takeTokens q f
  else if s.ofPermute d f then s.takeBlock d f
  else match s.runFor d f with
    | some r => if fType f = 3 then s.takeColl d r f else s.takeCtrl d r f
    | none => s

/-- A frame that does not wait goes where it goes. -/
def State.settleFrame (s : State) (q : Nat) (f : Frame) : Meets → State
  | .take => s.takeFrame q f
  | .drop => s.stDrop q
  | .late => s.ceLate (q / 4)
  | .hold => s

/-- A frame that need not wait, and its slot: that of a TOKEN or MARK frame taken is free when its tokens have entered the wafer. -/
def State.endFrame (s : State) (q : Nat) (f : Frame) (m : Meets) : State :=
  if fType f ≤ 2 ∧ m = .take then s.settleFrame q f m else (s.settleFrame q f m).freeSlot q (fVc f)

/-- A delivered TOKEN, MARK, COLL, NORM or ABORT frame. -/
def State.deliverFrame (s : State) (q : Nat) (f : Frame) : State :=
  match s.meets q f with
  | .hold => s.holdFrame q f
  | m => s.endFrame q f m

/-- The frames held for what satisfies `g` that need wait no longer go on, oldest first; a LINK frame returns the credit of each
(assumption 43). -/
def State.releaseHeld (s : State) (g : Frame → Bool) : State :=
  (s.heldFrames.filter fun e => g e.2).foldl (fun (t : State) e =>
    if !(t.heldFrames.contains e) then t
    else match t.meets e.1 e.2 with
      | .hold => t
      | m =>
        let t1 := { t with heldFrames := t.heldFrames.erase e }
        (t1.endFrame e.1 e.2 m).sendLink e.1 (fVc e.2) (fSrc e.2) false) s

end Sys2Proof.Machine
end

