-- ==== Sys2Proof/Machine/AgreeOps.lean ====
section
/-! DEFINITION. Agreements of the gate and the permute (R340, R202, R346..R348) and the phase exchange (R223, R324). -/
namespace Sys2Proof.Machine

/-! ### Engines and groups -/

/-- The Stay die whose port carries VC0 to the PARENT of a group, at a root to its first child (R340): the engine that runs the group's
agreements. -/
def State.groupDie (s : State) (g : Nat) : Nat :=
  let nb := match s.parent g with
    | some i => some i
    | none => (s.children g).head?
  match nb with
  | some i => match s.setFor g i 0 0 false with
    | some (_, q, w) => s.creditPort 0 q w / 4 % 8
    | none => 0
  | none => 0

/-- DEADLINE_FALLBACK in the page of engine `d`, and CE_MISS (R342, R350). -/
def State.fallback (s : State) (d info : Nat) : State :=
  (s.faultEv (pgEngine d) 0x0705 info 1).setReg (ceReg d 0x180) info

/-! ### What follows a result -/

/-- The agreement of a permute ends (R346, R347): on 1 every member flips and RESULT is 1. -/
def State.permResult (s : State) (v z : Bool) : State :=
  let a := pgGlobal + 0x958
  let j := s.fld (pgGlobal + 0x940) 63 60
  match s.permute with
  | none => s
  | some r =>
    if v then
      let s1 := s.flipJobs [j]
      (({ (((s1.setFlag a 63 false).setFld a 62 60 0).setFld a 59 57 1).setFld a 56 53 0 with permute := none }).event pgGlobal 4).endMaint
        6 j 1
    else s.permAbort (if !r.checkOk then 1 else if r.lost then 4 else if z then 3 else 2)

/-- SKIP_CAUSE of a gate that failed (R340): 1 where this device contributed 0, else 2 where a present device did, else 3. -/
def skipCause (own z : Bool) : Nat := if !own then 1 else if z then 2 else 3

/-! ### The agreement (R340) -/

/-- DESC of an agreement. -/
def Agree.desc (a : Agree) : Nat := if a.perm then 0x1FE else 0x1FF

/-- An agreement identified by its instance. -/
def Agree.same (a b : Agree) : Bool := a.perm == b.perm && a.job == b.job && a.group == b.group && a.tag == b.tag

/-- T_A in ns: GATE_DEADLINE_US of the job, or DEADLINE_MS of the permute. -/
def State.agreeTime (s : State) (a : Agree) : Nat :=
  if a.perm then s.fld (pgGlobal + 0x948) 15 0 * 1000000 else s.fld (stepReg (s.partOf a.job) a.job 8) 63 48 * 1000

/-- An agreement put in place of its older record. -/
def State.putAgree (s : State) (a : Agree) : State :=
  { s with agrees := if s.agrees.any a.same then s.agrees.map fun b => if a.same b then a else b else s.agrees ++ [a] }

/-- The result of an agreement: it goes down to every child, and this device acts on it. -/
def State.agreeResult (s : State) (a : Agree) (v z m : Bool) : State :=
  let s1 := { s with agreeDone := Tab.put s.agreeDone (agreeKey a.perm a.job a.group) a.tag }
  let s2 := (s1.children a.group).foldl (fun (t : State) i => t.sendCtrl i (ctrlFrame a.job a.group a.tag 2 a.desc v m z 0 [])) s1
  let s3 := if a.perm then s2.permResult v z else s2
  let s4 := { s3 with agrees := s3.agrees.filter fun b => !(a.same b) }
  if a.perm then s4 else s4.gateResult (s4.partOf a.job) a.job v (skipCause (a.own.getD false) z) false

/-- An agreement goes on once this device has contributed: to its result at the root, else up to the PARENT, when every child has been heard or
T_A has passed. -/
def State.tryAgree (s : State) (a : Agree) : State :=
  match a.own, a.down with
  | some _, some (v, z, m) => s.agreeResult a v z m
  | some own, none =>
    let ch := s.children a.group
    let heard := ch.filterMap fun i => a.heard.find? (·.1 == i)
    let all := decide (ch.length ≤ heard.length)
    if a.sent || !(all || decide (a.t0 + s.agreeTime a < s.now)) then s
    else
      let alone := (s.parent a.group).isNone && ch.isEmpty
      let v := own && all && heard.all fun h => h.2.1
      let z := (!own && !alone) || heard.any fun h => h.2.2.2 || (!h.2.1 && !h.2.2.1)
      let m := !all || heard.any fun h => h.2.2.1
      match s.parent a.group with
      | none => s.agreeResult a v z m
      | some i => (s.putAgree { a with sent := true }).sendCtrl i (ctrlFrame a.job a.group a.tag 1 a.desc v m z 0 [])
  | none, _ => s

/-- The record of an instance, new where its first contribution is seen now. -/
def State.agreeAt (s : State) (perm : Bool) (j g tag : Nat) : Agree :=
  let a : Agree := { perm := perm, job := j, group := g, tag := tag, own := none, t0 := s.now, contributed := 0, heard := [], sent := false }
  (s.agrees.find? a.same).getD a

/-- This device contributes its own value. -/
def State.contribute (s : State) (perm : Bool) (j g tag : Nat) (own : Bool) : State :=
  let a := { s.agreeAt perm j g tag with own := some own, contributed := s.now }
  (s.putAgree a).tryAgree a

/-- Whether an instance has finished here, or a later one is under way (R336). -/
def State.agreeLate (s : State) (perm : Bool) (j g tag : Nat) : Bool :=
  let a := s.agreeAt perm j g tag
  if s.agrees.any a.same then false
  else (match Tab.find? s.agreeDone (agreeKey a.perm a.job a.group) with
    | some t => !(laterThan 16 tag t)
    | none => false) || s.agrees.any fun b => b.perm == perm && b.job == j && b.own.isSome && laterThan 16 b.tag tag

/-! ### The phase exchange (R222..R226, R324) -/

/-- PHASE_GROUP of a job. -/
def State.phaseGroup (s : State) (p j : Nat) : Nat := s.fld (phReg p j 8) 47 40

/-- TARGET of PT_PHASE_STATUS. -/
def State.phTarget (s : State) (p j : Nat) : Nat := s.fld (phReg p j 0x10) 61 60

/-- The phase of a start record by its image (R222): 1 LEARN, 2 GENERATE, 3 SCORE, 0 NONE. -/
def State.phaseOfRig (s : State) (p j rig : Nat) : Nat :=
  let c := s.reg (phReg p j 8)
  let plan := s.reg (stepReg p j 0)
  if !(bit c 63) then 0
  else if bit plan 63 ∧ bits plan 55 52 = rig then 1
  else if bit c 61 ∧ bits c 55 52 = rig then 2
  else if bit c 62 ∧ bits c 59 56 = rig then 3
  else 0

end Sys2Proof.Machine
end

