-- ==== Sys2Proof/Machine/SecOps.lean ====
section
/-! DEFINITION. The section tracker: how a start record passes the step sequencer, the phase logic, R96 and the issue checks (R95, R132,
R192, R193, R223), the start of a section (R97) and its end (R98). -/
namespace Sys2Proof.Machine

/-! ### Issue checks (R132, R133) -/

/-- The numerics entry a record takes its values from, latched (R240); none where it takes none. -/
def State.latchFor (s : State) (p j u body : Nat) : Option LntLatch := if usesLnt u body then some (s.latchLnt p j (lntIdx u body)) else none

/-- The first failing check of a record: R241 is part of check 1. -/
def State.recordCheck (s : State) (p j : Nat) (ext : List Nat) (c : CfgRec) : Option (Nat × Nat × Nat) :=
  let l := s.latchFor p j c.unit c.body
  if 22 ≤ c.unit then none
  else if usesLnt c.unit c.body ∧ s.lntBad p j (lntIdx c.unit c.body) then some (0x0203, 1, 0)
  else if c.unit < 16 then muIssueCheck c.body ext l
  else if c.unit < 20 then vuIssueCheck c.body ext l
  else suIssueCheck c.body ext l

/-- The records of a section in an image. -/
def Image.recordsOf (i : Image) (num : Nat) : List CfgRec := i.cfgs.filter fun c => c.section_ == num

/-- What fails at issue: a record of a unit or a collective descriptor, with its fault code, cause and NEED. -/
inductive IssueFail
  | unit (c : CfgRec) (x : Nat × Nat × Nat)
  | coll (d : Nat) (x : Nat × Nat × Nat)
  deriving DecidableEq, Repr

/-- The first failure of the issue list of a section, in image order (R132, R332). -/
def State.issueFail (s : State) (p : Nat) (i : Image) (r : StartRec) : Option IssueFail :=
  let red := s.roleOf p r.job r.rig r.section_ == 2
  let units := (i.recordsOf r.section_).findSome? fun c => (s.recordCheck p r.job r.ext c).map (IssueFail.unit c)
  let colls := (i.colls.filter fun c => dSection c.body == r.section_).findSome? fun c =>
    (s.collCheck p r.job c.target c.body red).map (IssueFail.coll c.target)
  if i.collsFirst then colls.or units else units.or colls

/-- An issue fault recorded twice (R133), and the record consumed. -/
def State.issueFault (s : State) (p : Nat) (r : StartRec) (f : IssueFail) : State :=
  match f with
  | .unit c x =>
    let s1 := s.partFault p x.1 (r.info 0 0)
    (s1.faultEv (pgUnit c.yard c.unit) x.1
      (fieldAt 60 x.2.1 + fieldAt 56 r.job + fieldAt 53 c.slot + fieldAt 32 r.section_ + stopAt 0xFFFF_FFFF x.2.2)
      (if c.unit < 20 then 0 else 4)).consume r x.1
  | .coll d x => ((s.partFault p x.1 (r.info 0 0)).engineFault d r.job r.section_ x).consume r x.1

/-! ### The start of a section (R97) -/

/-- KSHIFT of every UPDATE entry from which a VU record of a section latches its constants (R251). -/
def State.writeKshift (s : State) (p j : Nat) (es : List Nat) : State :=
  es.foldl (fun (t : State) e => if t.lntRole e = 3 then t.setLnt e 2 31 24 (ofSigned 8 (t.lrShift p j e)) else t) s

/-- Whether a record pins operand B (PIN_LOAD, R221). -/
def pins (c : CfgRec) : Bool := decide (c.unit < 16) && bits (muDesc c.body) 19 18 == 1

/-- The engines' descriptors of a section wait to start, in R331 order. -/
def State.queueColls (s : State) (i : Image) (num j uid tag : Nat) : State :=
  (i.collsOf num).foldl (fun (t : State) c =>
    let x := t.engine c.target
    t.setEngine c.target { x with waiting := x.waiting ++ [{ part := i.part, rig := i.rig, index := c.index, bucket := dBucket c.body,
                                                             job := j, uid := uid, tag := tag }] }) s

/-- The sequencer's part in a start (Table 8.2). -/
def State.seqStart (s : State) (p j role tag : Nat) : State :=
  match role with
  | 1 => { (s.setReg (stepReg p j 0x18) 0).setSeq p j 1 with pipeTag := Tab.put s.pipeTag j tag }
  | 2 => { (s.setFld (collReg p j 8) 47 16 0).setSeq p j 4 with norms := s.norms.filter fun n => !(n.job == j) }
  | 3 => s.setSeq p j 6
  | _ => s

/-- A section starts: SECTION_START is injected at the lead Yard's tracker port, and the issuer learns it. -/
def State.startSection (s : State) (p : Nat) (i : Image) (c : SecRec) (r : StartRec) : State :=
  let j := r.job
  let role := s.roleOf p j r.rig r.section_
  let n := if c.iterDim = 0xFF then 1 else r.ext.getD c.iterDim 0
  let recs := i.recordsOf r.section_
  let es := recs.filterMap fun x => if x.unit < 22 ∧ usesLnt x.unit x.body then some (lntIdx x.unit x.body) else none
  let sec : Section := {
    uid := s.nextUid, part := p, job := j, rig := r.rig, num := r.section_, n := n, tagBase := r.tagBase, ext := r.ext
    lead := c.lead, start := s.now, budgetUs := c.budgetUs, need := (recs.filter (·.terminal)).length, got := 0
    latched := es.map (s.latchLnt p j), version := s.versionOf p j, src := r.src, pinLoad := recs.any pins, role := role
    phase := s.phaseOfRig p j r.rig, step := if s.planOn p j then s.fld (stepReg p j 0x10) 31 0 else 0 }
  let ks := recs.filterMap fun x => if 16 ≤ x.unit ∧ x.unit < 20 ∧ bit (vuDesc x.body) 21 then some (lntIdx x.unit x.body) else none
  let s1 := s.writeKshift p j ks
  let s2 := { s1 with
    nextUid := s1.nextUid + 1, sections := s1.sections ++ [sec]
    inject := s1.inject ++ [({ y := c.lead, inp := 16 * 5 + 9, tok := ctrlTok j r.tagBase 0xFF 0x13 (fieldAt 32 r.section_ + n % 2 ^ 32) } : InjTok)] }
  let s3 := (s2.pumpInject).queueColls i r.section_ j sec.uid r.tagBase
  let s4 := if sec.pinLoad then s3.setFld (phReg p j 0x10) 31 0 sec.version else s3
  let s5 := match r.src with
    | .ring k x => if role ≠ 0 then
        s4.setRing k ((s4.ringOf k).map fun (e : RingEntry) => if e.index = x then { e with plan := true } else e) else s4
    | .core _ => s4
  ((s5.issueResult r 0).refreshHeld p j).progress p

/-! ### Records on their way (R192, R193, R223, R96) -/

/-- Records of a job held by the sequencer, or by the phase logic, in place of its list. -/
def State.setStepHeld (s : State) (p j : Nat) (q : List StartRec) : State := { s with stepHeld := Tab.set [] s.stepHeld j q }.refreshHeld p j
/-- The list of the phase logic. -/
def State.setPhaseHeld (s : State) (p j : Nat) (q : List StartRec) : State := { s with phaseHeld := Tab.set [] s.phaseHeld j q }.refreshHeld p j

/-- The sequencer holds a record: at most 4 per job, the one it examines again back at the head (R193). -/
def State.holdStep (s : State) (p : Nat) (r : StartRec) (again : Bool) : State :=
  let q := Tab.get [] s.stepHeld r.job
  if again then s.setStepHeld p r.job (r :: q)
  else if 4 ≤ q.length then s.reject p r 0x0B01 0 0
  else s.setStepHeld p r.job (q ++ [r])

/-- The phase logic holds a record: at most 4 (R223). -/
def State.holdPhase (s : State) (p : Nat) (r : StartRec) : State :=
  let q := Tab.get [] s.phaseHeld r.job
  if 4 ≤ q.length then s.reject p r 0x0B01 0 0 else s.setPhaseHeld p r.job (q ++ [r])

/-- A phase switch begins (R223). -/
def State.beginSwitch (s : State) (p j target : Nat) : State :=
  let a := phReg p j 0x10
  if s.phState p j ≠ 0 then s
  else { (s.setFld a 61 60 target).setFld a 59 58 1 with phaseFrom := Tab.put s.phaseFrom j s.now }

/-- A record that nothing holds waits at R96 in issue order, a plan record after its transition of the sequencer (Table 8.2, R223); `accum`:
it closes an accumulation step first, and is held where that boundary leaves the job HELD (R219). -/
def State.reach96 (s : State) (p : Nat) (r : StartRec) (accum : Bool) : State :=
  let role := s.roleOf p r.job r.rig r.section_
  let s1 := if accum then s.boundary p r.job false true false false else s
  if accum ∧ s1.seqState p r.job ≠ 0 then s1.holdStep p r true
  else
    let s2 := s1.seqStart p r.job role r.tagBase
    { s2 with waiting := Tab.set [] s2.waiting p (Tab.get [] s2.waiting p ++ [r]) }.refreshHeld p r.job

/-- A record at the phase logic (R223). -/
def State.passPhase (s : State) (p : Nat) (r : StartRec) (accum : Bool) : State :=
  let ph := s.phaseOfRig p r.job r.rig
  if ph = 0 then s.reach96 p r accum
  else if !(Tab.get [] s.phaseHeld r.job).isEmpty then s.holdPhase p r
  else if s.phState p r.job = 0 ∧ s.phaseOf p r.job = ph then s.reach96 p r accum
  else (s.holdPhase p r).beginSwitch p r.job ph

/-- The sequencer examines a plan record by its state (R193); `again`: the oldest one it holds. -/
def State.sequence (s : State) (p : Nat) (r : StartRec) (again : Bool) : State :=
  match s.seqAct p r.job (s.roleOf p r.job r.rig r.section_) with
  | .hold => s.holdStep p r again
  | .consume code => (if code = 0x0504 then s.consume r code else s.reject p r code 0 0).refreshHeld p r.job
  | .start accum => s.passPhase p r accum

/-- A record that passed R95 and R208, or that the phase logic lets go, is examined (R192); it overtakes none that the sequencer holds. A plan
record of a following job never runs (R220). -/
def State.examine (s : State) (p : Nat) (r : StartRec) : State :=
  if s.roleOf p r.job r.rig r.section_ = 0 then s.passPhase p r false
  else if s.flag (phReg p r.job 0) 63 then s.reject p r 0x0B01 0 0
  else if !(Tab.get [] s.stepHeld r.job).isEmpty then s.holdStep p r false
  else s.sequence p r false

/-- The sequencer's state before the transition of a plan record of a role. -/
def State.seqBefore (s : State) (p j role : Nat) : Nat :=
  match role with
  | 1 => 0
  | 2 => 3
  | _ => if s.noRed p j then 3 else 5

/-- A record leaves R96: the issue checks, and its start. The sequencer goes back where the checks consume a plan record (DEDUCED, assumption 180). -/
def State.leave96 (s : State) (p : Nat) (r : StartRec) : State :=
  match s.imageAt p r.rig with
  | none => s
  | some i =>
    match i.secs.find? (·.num == r.section_) with
    | none => s
    | some c =>
      let role := s.roleOf p r.job r.rig r.section_
      match s.issueFail p i r with
      | some f =>
        let s1 := s.issueFault p r f
        (if role = 0 then s1 else s1.setSeq p r.job (s1.seqBefore p r.job role)).refreshHeld p r.job
      | none => s.startSection p i c r

/-! ### The tracker's own commands -/

/-- The first two checks of R192 on a record, and what becomes of it: some fault with DIM and EXTENT. -/
def State.firstChecks (s : State) (p : Nat) (r : StartRec) : Option (Nat × Nat × Nat) :=
  let bad := some (0x0B01, 0, 0)
  match s.imageAt p r.rig with
  | none => bad
  | some i =>
    match i.secs.find? (·.num == r.section_) with
    | none => bad
    | some c =>
      let lead := match r.src with
        | .core y => c.lead == y
        | .ring _ _ => true
      if i.job ≠ r.job ∨ !lead then bad
      else match firstBelow 16 fun d => decide (i.maxExt.getD d 0 < r.ext.getD d 0) with
        | some d => some (0x0202, d, r.ext.getD d 0)
        | none =>
          let plan := s.reg (stepReg p r.job 0)
          let cfg := s.reg (stepReg p r.job 8)
          let d := bits cfg 35 32
          let e := r.ext.getD d 0
          let base := bits cfg 19 0
          if !(bit plan 63) ∨ bits plan 55 52 ≠ r.rig ∨ !(bit cfg 36) then none
          else if 65536 < e then some (0x0204, d, e)
          else if 1048576 < base + e then some (0x0204, d, base + e)
          else none

/-- PRIO of a job (Table 15.7). -/
def State.prio (s : State) (p j : Nat) : Nat := s.fld (jobCfg p j) 61 60

/-- Whether job `a` goes before job `b`: higher PRIO, then the lower job ID (R357). -/
def State.before (s : State) (p a b : Nat) : Bool :=
  decide (s.prio p b < s.prio p a ∨ (s.prio p a = s.prio p b ∧ a ≤ b))

/-- The first record of the job that goes first among some records. -/
def State.firstOf (s : State) (p : Nat) (rs : List StartRec) : Option StartRec :=
  rs.foldl (fun (best : Option StartRec) r => match best with
    | none => some r
    | some b => if s.before p b.job r.job then some b else some r) none

/-- A list without the first record equal to `r`. -/
def without (r : StartRec) (q : List StartRec) : List StartRec := q.erase r

/-- The record that passes R96 next: of the jobs whose oldest waiting record may pass, that of the job that goes first (R96, R357). -/
def State.next96 (s : State) (p : Nat) : Option StartRec :=
  s.firstOf p ((s.jobsOf p).filterMap fun j => if s.r96Holds p j then none else (Tab.get [] s.waiting p).find? (·.job == j))

/-- The records that may pass R96 do so one after another; `n` bounds them. -/
def State.passWaiting (s : State) (p : Nat) : (n : Nat) → State
  | 0 => s
  | n + 1 => match s.next96 p with
    | none => s
    | some r => ({ s with waiting := Tab.set [] s.waiting p (without r (Tab.get [] s.waiting p)) }.leave96 p r).passWaiting p n

/-- All records that may pass R96 do so. -/
def State.passAllWaiting (s : State) (p : Nat) : State := s.passWaiting p (Tab.get [] s.waiting p).length

/-- The tracker takes a record given to it (R95, R192, R357). -/
def State.issueOne (s : State) (p : Nat) : State :=
  match s.firstOf p (Tab.get [] s.issueQ p) with
  | none => s
  | some r =>
    let s1 := { s with issueQ := Tab.set [] s.issueQ p (without r (Tab.get [] s.issueQ p)) }
    match s1.firstChecks p r with
    | some (code, d, e) => s1.reject p r code d e
    | none => (s1.examine p r).passAllWaiting p

/-- The oldest record the sequencer holds is examined again (R193). -/
def State.releaseStep (s : State) (p j : Nat) : State :=
  match Tab.get [] s.stepHeld j with
  | [] => s
  | r :: rest => ((s.setStepHeld p j rest).sequence p r true).passAllWaiting p

/-! ### The phase exchange (R222..R226, R324) -/

/-- The records the phase logic holds are examined afresh, in issue order, once the phase has settled (R223). -/
def State.releasePhase (s : State) (p j : Nat) : State :=
  ((Tab.get [] s.phaseHeld j).foldl (fun (t : State) r => t.examine p r) (s.setPhaseHeld p j [])).passAllWaiting p

/-- settle(): PHASE becomes TARGET, LAST_US, PHASE_DONE; the frames held for the phase go on (R323). The records held are
released. -/
def State.settle (s : State) (p j : Nat) : State :=
  let a := phReg p j 0x10
  let us := (s.now - Tab.get 0 s.phaseFrom j) / 1000
  let s1 := (((s.setFld a 63 62 (s.phTarget p j)).setFld a 59 58 0).setFld a 47 32 (stopAt 0xFFFF us))
  (({ s1 with phaseFrom := Tab.del s1.phaseFrom j, phaseT0 := Tab.del s1.phaseT0 j, phaseHeard := Tab.del s1.phaseHeard j }.jobEvent p j 4).releaseHeld
    (fun f => fJob f == j && fType f ≤ 3)).releasePhase p j

/-- EPOCH of a job, as frames carry it in TAG. -/
def State.epoch (s : State) (j : Nat) : Nat := Tab.get 0 s.epochs j % 65536

/-- confirm(): PHASE_CONF to every child, and the switch settles. -/
def State.confirmPhase (s : State) (p j : Nat) : State :=
  let g := s.phaseGroup p j
  let s1 := (s.children g).foldl (fun (t : State) i => t.sendPhase 6 g i j (t.phTarget p j) (t.epoch j)) s
  s1.settle p j

/-- Whether every child of the phase group has sent PHASE with this device's target and epoch. -/
def State.phaseAll (s : State) (p j : Nat) : Bool :=
  let heard := Tab.get [] s.phaseHeard j
  (s.children (s.phaseGroup p j)).all fun i => heard.any fun h => h.slot == i && h.target == s.phTarget p j && h.epoch == s.epoch j

/-- The exchange goes on while EXCHANGING or STUCK: when every child has sent PHASE, up or, at the root, confirmed. -/
def State.tryPhase (s : State) (p j : Nat) : State :=
  let g := s.phaseGroup p j
  if s.phState p j < 2 ∨ !(s.phaseAll p j) then s
  else match s.parent g with
    | none => s.confirmPhase p j
    | some i => s.sendPhase 5 g i j (s.phTarget p j) (s.epoch j)

/-! ### The end of a section (R98) -/

/-- What follows the end of a plan section. -/
def State.seqEnd (s : State) (c : Section) : State :=
  let p := c.part
  let j := c.job
  let a := collReg p j 8
  match c.role with
  | 1 =>
    let s0 := (s.numMonitors p j).spikeAtPipeEnd p j
    let s1 : State := { s0 with pipeEnd := Tab.put s0.pipeEnd j s0.now }
    let s2 := s1.setSeq p j 2
    let ok := s2.count (stepReg p j 0x18) == 0
    let g : Nat := s2.fld (stepReg p j 8) 47 40
    if g = 0xFF then s2.gateResult p j ok 1 false else s2.contribute false j g c.tagBase ok
  | 2 => (((s.foldNorms p j (s.fld a 63 57)).setFld a 63 57 0).setSeq p j 5).refreshHeld p j
  | 3 => s.boundary p j false false true false
  | _ => s

/-- FENCE and the held counts of every job of a partition follow a section's end. -/
def State.refreshAll (s : State) (p : Nat) : State := (s.jobsOf p).foldl (fun (t : State) j => t.refreshHeld p j) s

/-- A section that has received every SLOT_DONE ends. -/
def State.endOf (s : State) (c : Section) : State :=
  let s1 := { s with
    sections := s.sections.filter fun x => !(x.uid == c.uid)
    inject := s.inject ++ [({ y := c.lead, inp := 16 * 5 + 9, tok := ctrlTok c.job c.tagBase 0xFF 0x14 (fieldAt 32 c.num) } : InjTok)] }
  let s2 := (s1.pumpInject).notifyCore c.lead c.job c.tagBase 0x30 (fieldAt 32 c.num + c.rig)
  let s3 := if c.role = 0 then s2.sourceDone c.src else s2
  ((s3.seqEnd c).refreshAll c.part).progress c.part

/-- A SLOT_DONE of a section (R98, R472). -/
def State.slotDone (s : State) (p j num : Nat) : State :=
  match s.sections.find? fun c => c.part == p && c.job == j && c.num == num with
  | none => s
  | some c =>
    let c1 := { c with got := c.got + 1 }
    let s1 := { s with sections := s.sections.map fun x => if x.uid = c.uid then c1 else x }
    if c1.got = c1.need then s1.endOf c1 else s1

end Sys2Proof.Machine
end

