-- ==== Sys2Proof/Machine/LinkRows.lean ====
section
/-! DEFINITION. Commands of the Stay links (R304..R325): training, identity, lanes, loss, frames, replay, flow control, the token bridge, the
Group Table, GLB_DEV and ST_CFG. -/
namespace Sys2Proof.Machine

/-! ### Port states (R304, R305) -/

/-- An IDENT frame sent (R305, Table 13.2): its 32 bytes carry the device ID, the port, its mode, its width and the initial credits (four slots
a VC, R316) in a layout that is not given (`Config.identBytes`), and its DST is not given (a free value). Nothing is sent while the
switch pauses VC0. -/
def State.sendIdent (s : State) (q : Nat) : State :=
  if s.paused q 0 then s
  else
    let (n, s0) := s.fresh
    let bs := Config.identBytes s.devId q (s.ethernet q) (s.fld (pgPort q + 0x108) 60 59) (if s.ethernet q then 0 else 4)
    let f : TxFrame := { type := 8, last := false, ph := 0, set := 0, vc := 0, dst := (Config.freeWord n).toNat % 32768, job := 0,
                         group := 0xFF, tag := 0, target := 0, payload := leBytes 32 bs.toNat }
    (((s0.setPort q { s0.port q with identSent := s0.now + 1 }).bump (pgPort q + 0x110) 1).bump (pgPort q + 0x120) 32).emitFrame q 0
      { hdr := frameHdr f s0.devId 0 0 false, payload := f.payload }

/-- Whether what a partner says is a mismatch in direct mode (R305). -/
def State.identBad (s : State) (q : Nat) (x : IdentInfo) : Bool :=
  !(s.ethernet q) && (x.ethernet || (s.flag (pgGlobal + 0x930) 15 && x.dev.toNat == s.devId))

/-- PEER_DEV and PEER_PORT: the partner in direct mode, none in Ethernet mode (R305, Table 13.8). -/
def State.setPeer (s : State) (q : Nat) (x : IdentInfo) : State :=
  let direct := !(s.ethernet q)
  (s.setFld (pgPort q + 0x108) 54 40 (if direct then x.dev.toNat else 0)).setFld (pgPort q + 0x108) 39 35 (if direct then x.port.val else 0)

/-- The port enters UP: its credits are the partner's grants, its own counts of grants begin again, frames that were not acknowledged are sent
again, and what waits at ports of its stripe that are DOWN moves to it (R308). -/
def State.portUpNow (s : State) (q : Nat) : State :=
  let x := s.port q
  let x1 := { x with granted := [], seenCum := [], sharedUsed := [], xoff := [], replay := x.replay.map fun e => { e with sends := 0 } }
  let c := match x.partner with
    | some p => stopAt 255 p.credits
    | none => 0
  let s1 := (List.range 8).foldl (fun (t : State) v => t.setReg (pgPort q + 0x180 + 8 * v) (if t.ethernet q then 0 else fieldAt 56 c))
    ((s.setPort q x1).setFld (pgPort q + 0x108) 63 61 3)
  let s2 := ((s1.event (pgPort q) 2).resendAll q x1.replay).pump q
  (List.range 4).foldl (fun (t : State) i => if t.portUp (q / 4 * 4 + i) then t else t.moveFrames (q / 4 * 4 + i)) s2

/-- IDENT ends when this device has sent its identity and, in direct mode, has heard the partner's. -/
def State.tryUp (s : State) (q : Nat) : State :=
  let x := s.port q
  if s.portState q ≠ 2 ∨ x.identSent = 0 then s
  else if s.ethernet q then ((s.setFld (pgPort q + 0x108) 54 35 0)).portUpNow q
  else match x.partner with
    | none => s
    | some i => if s.identBad q i then s.portLost q 3 else (s.setPeer q i).portUpNow q

/-- The port sends IDENT where ID_VALID is 1. -/
def State.offerIdent (s : State) (q : Nat) : State :=
  if s.flag (pgGlobal + 0x930) 15 then (s.sendIdent q).tryUp q else s.setPort q { s.port q with identSent := 0 }

/-- ERR_INFO and event of LANE_DEGRADED (R307). -/
def State.degraded (s : State) (q cause lanes : Nat) : State :=
  s.faultEv (pgPort q) 0x0701 (portInfo q cause lanes (s.fld (pgPort q + 0x108) 54 40) 0) 0

/-- Training ends with some lanes locked: all eight, or a half that is whole (a port that trains on a half is degraded, DESIGN CHOICE,
assumption 45), else the port has failed TRAIN; a cage that is off locks none (R460). -/
def State.trained (s : State) (q lanes : Nat) : State :=
  if s.portState q ≠ 1 then s
  else
    let lanes := if s.cagesOff.contains q then 0 else lanes
    let w := if lanes % 256 = 0xFF then 3 else if lanes % 16 = 0xF then 1 else if lanes / 16 % 16 = 0xF then 2 else 0
    if w = 0 then s.portLost q 2
    else
      let a := pgPort q + 0x108
      let s1 := (((s.setFld a 63 61 2).setFld a 60 59 w).setFld a 58 55 0).setFld a 7 0 lanes
      let s2 := s1.setPort q { s1.port q with partner := none, identSent := 0 }
      (if w = 3 then s2 else s2.degraded q 2 (255 - lanes % 256)).offerIdent q

/-- PORT_TRAIN_DONE (R304): training of a port ends. -/
def execPortTrainDone (dt : Nat) (p : PortId) (lanes : BitVec 8) (s : State) : Result := .next ((s.tick dt).trained p.val lanes.toNat)

/-- PORT_RETRY_TIMER (R304): a port that is DOWN starts again from TRAIN after 10 ms, unless ENABLE is 0 or its die is absent. -/
def execPortRetryTimer (dt : Nat) (p : PortId) (s : State) : Result :=
  let s1 := s.tick dt
  let q := p.val
  if s1.portState q = 0 ∧ s1.flag (pgPort q + 0x100) 0 ∧ !(bit s1.stayAbsent (q / 4)) ∧ !(s1.oscOut.contains 1) ∧ 5 ≤ s1.stage ∧ s1.stage ≤ 7 ∧
      (s1.port q).downAt + 10000000 ≤ s1.now then .next (s1.setFld (pgPort q + 0x108) 63 61 1)
  else .next s1

/-- IDENT_RETRY (R305): a port in IDENT sends its identity again every 1 ms. -/
def execIdentRetry (dt : Nat) (p : PortId) (s : State) : Result :=
  let s1 := s.tick dt
  if s1.portState p.val = 2 ∧ (s1.port p.val).identSent ≤ s1.now + 1 - 1000000 then .next (s1.offerIdent p.val) else .next s1

/-- IDENT (R305): the partner's identity arrives. -/
def execIdent (p : PortId) (x : IdentInfo) (s : State) : Result :=
  let q := p.val
  if s.portState q < 2 then .next s
  else
    let s1 := (s.bump (pgPort q + 0x118) 1).bump (pgPort q + 0x128) 32
    let t := s1.setPort q { s1.port q with partner := some x }
    .next (if s.identBad q x then s1.portLost q 3 else if s.portState q = 2 then t.tryUp q else t.setPeer q x)

/-! ### Lanes and loss (R307, R308) -/

/-- Lane `l` of a port in IDENT or UP goes bad: a whole port moves to the half without a bad lane, where its frames are replayed. -/
def State.laneBad (s : State) (q l : Nat) (lock clash : Bool) : State :=
  let a := pgPort q + 0x108
  let s1 := s.setFlag a l false
  let ok := s1.fld a 7 0
  let w := s.fld a 60 59
  if s.portState q < 2 then s
  else if w = 3 then
    if clash ∨ (ok % 16 ≠ 0xF ∧ ok / 16 ≠ 0xF) then s1.portLost q 8
    else
      let s2 := (s1.setFld a 60 59 (if ok % 16 = 0xF then 1 else 2)).degraded q (if lock then 2 else 1) (2 ^ l)
      s2.resendAll q (s2.port q).replay
  else if (w = 1 ∧ l < 4) ∨ (w = 2 ∧ 4 ≤ l) then s1.portLost q 8
  else s1

/-- LANE_BAD (R307). -/
def execLaneBad (p : PortId) (lane : Fin 8) (lock clash : Bool) (s : State) : Result := .next (s.laneBad p.val lane.val lock clash)

/-- PORT_LOSS (R308): the port goes DOWN with a cause of Table 13.8. -/
def execPortLoss (p : PortId) (cause : Fin 9) (s : State) : Result :=
  if s.portState p.val = 0 ∨ cause.val = 0 then .next s else .next (s.portLost p.val cause.val)

/-! ### Frames -/

/-- TOKEN (R315, R323). -/
def execToken (p : PortId) (f : Frame) (s : State) : Result :=
  .next (s.receive p.val f (fun x => fType x == 1) fun t => t.deliverFrame p.val f)

/-- MARK (R315, R323). -/
def execMark (p : PortId) (f : Frame) (s : State) : Result :=
  .next (s.receive p.val f (fun x => fType x == 2) fun t => t.deliverFrame p.val f)

/-- COLL (R323, R336). -/
def execColl (p : PortId) (f : Frame) (s : State) : Result :=
  .next (s.receive p.val f (fun x => fType x == 3) fun t => t.deliverFrame p.val f)

/-- LINK (R312, R316): credits and acknowledgements. -/
def execLink (p : PortId) (f : Frame) (s : State) : Result := .next (s.receive p.val f (fun x => fType x == 4) fun t => t)

/-- A PHASE frame from a child (R324): kept where its EPOCH is the job's, or the next while this device still drains (DEDUCED, assumption
46); it counts only with this device's own target. -/
def State.heardPhase (s : State) (f : Frame) : State :=
  let j := fJob f
  match s.partOfJob j with
  | none => s
  | some p =>
    let g := s.phaseGroup p j
    let want := if 2 ≤ s.phState p j then s.epoch j else (s.epoch j + 1) % 65536
    match s.slotFrom g (fSrc f) with
    | none => s
    | some i =>
      if !(s.phaseOn p j) ∨ fGroup f ≠ g ∨ fTag f ≠ want ∨ !((s.children g).contains i) then s
      else
        let old := (Tab.get [] s.phaseHeard j).filter fun h => !(h.slot == i)
        let new : PhaseHeard := { slot := i, target := bits (fTarget f) 1 0, epoch := fTag f }
        { s with phaseHeard := Tab.put s.phaseHeard j (old ++ [new]) }.tryPhase p j

/-- PHASE (R324). -/
def execPhase (p : PortId) (f : Frame) (s : State) : Result :=
  .next (s.receive p.val f (fun x => fType x == 5) fun t => (t.heardPhase f).freeSlot p.val (fVc f))

/-- A PHASE_CONF frame from the PARENT (R324): it settles an exchange of this target and EPOCH. -/
def State.heardConf (s : State) (f : Frame) : State :=
  let j := fJob f
  match s.partOfJob j with
  | none => s
  | some p =>
    let g := s.phaseGroup p j
    let up := s.slotFrom g (fSrc f)
    if 2 ≤ s.phState p j ∧ fGroup f = g ∧ up.isSome ∧ up = s.parent g ∧ fTag f = s.epoch j ∧ bits (fTarget f) 1 0 = s.phTarget p j then
      s.confirmPhase p j
    else s

/-- PHASE_CONF (R324). -/
def execPhaseConf (p : PortId) (f : Frame) (s : State) : Result :=
  .next (s.receive p.val f (fun x => fType x == 6) fun t => (t.heardConf f).freeSlot p.val (fVc f))

/-- REPLAY_TIMEOUT (R312): every frame older than REPLAY_US is sent again. -/
def execReplayTimeout (dt : Nat) (p : PortId) (s : State) : Result :=
  let s1 := s.tick dt
  let q := p.val
  let limit := s1.fld (pgPort q + 0x100) 63 48 * 1000
  let late := (s1.port q).replay.filter fun e => decide (e.at_ + limit < s1.now)
  .next (if s1.portUp q && !late.isEmpty then s1.resendAll q late else s1)

/-- ACKNOWLEDGE_TIMER (R312): what VC `vc` has taken and not acknowledged is acknowledged. -/
def execAcknowledgeTimer (p : PortId) (vc : Fin 8) (s : State) : Result :=
  let q := p.val
  .next (((s.port q).unacked.filter fun e => e.1 / 32768 == vc.val && decide (0 < e.2)).foldl
    (fun (t : State) e => t.sendLink q vc.val (e.1 % 32768) false) s)

/-- PFC_PAUSE (R317): the switch pauses or resumes a VC of a port in Ethernet mode. -/
def execPfcPause (p : PortId) (vc : Fin 8) (xoff : Bool) (s : State) : Result :=
  let q := p.val
  if !(s.portUp q) || !(s.ethernet q) then .next s
  else
    let s1 := s.setFlag (pgPort q + 0x180 + 8 * vc.val) 47 xoff
    .next (if xoff then s1 else s1.pump q)

/-! ### The token bridge (R314) -/

/-- The channel-map entry `c` of die `d` (Table 13.9). -/
def State.chanMap (s : State) (d c : Nat) : Nat := s.reg (pgPort (4 * d) + 0x800 + 8 * c)

/-- A TOKEN (1) or MARK (2) frame sent through a channel-map entry. -/
def State.sendTokens (s : State) (d c type job tag : Nat) (last : Bool) (ps : List Nat) : State :=
  let e := s.chanMap d c
  let g := bits e 62 55
  s.sendPeer (bits e 54 52)
    { type := type, last := last, ph := 0, set := 0, vc := s.groupVc g, dst := 0, job := job, group := g, tag := tag
      target := bits e 51 44, payload := ps.flatMap fun v => leBytes 64 v } (some (256 * d + c)) (bit e 43)

/-- The frame being packed on a channel is sent. -/
def State.flushPack (s : State) (d c : Nat) (last : Bool) : State :=
  match Tab.find? s.packs (256 * d + c) with
  | none => s
  | some x => { s with packs := Tab.del s.packs (256 * d + c) }.sendTokens d c 1 x.job x.tag last x.toks

/-- The bridge takes a token. -/
def State.bridgeOut (s : State) (d : Nat) (t : Token) : State :=
  let c := t.chan
  let e := s.chanMap d c
  let k := 256 * d + c
  if !(bit e 63) ∨ t.job ≠ bits e 42 39 then s.stDrop (4 * d)
  else if t.kind = 2 then (s.flushPack d c false).sendTokens d c 2 t.job t.tag true []
  else
    let s1 := match Tab.find? s.packs k with
      | some x => if x.job = t.job ∧ x.tag = t.tag then s else s.flushPack d c false
      | none => s
    let old := match Tab.find? s1.packs k with
      | some x => x.toks
      | none => []
    let s2 := { s1 with packs := Tab.put s1.packs k { job := t.job, tag := t.tag, toks := old ++ [t.payload], at_ := s1.now } }
    if t.last ∨ 64 ≤ old.length + 1 then s2.flushPack d c t.last else s2

/-- Whether the bridge of die `d` cannot take a token: frames of its channel's VC still wait at the channel's port, or the partition's regulator
holds some there (R43, R316; DESIGN CHOICE, assumption 163). -/
def State.bridgeFull (s : State) (d : Nat) (t : Token) : Bool :=
  let e := s.chanMap d t.chan
  let g := bits e 62 55
  match s.setFor g (bits e 54 52) (s.groupVc g) t.job (bit e 43) with
  | none => false
  | some (_, first, w) =>
    let q := s.chanPort (256 * d + t.chan) first w
    !(Tab.get [] (s.port q).queues (s.groupVc g)).isEmpty || !(s.bucket 2 (s.partOf t.job) q).held.isEmpty

/-- BRIDGE_TOKEN_OUT (R314): the bridge takes the oldest token of an outer edge's lane from the crossing FIFO; while its port is stopped the token
waits there (R43). -/
def execBridgeTokenOut (d : Die) (side : Fin 2) (plane : Fin 8) (s : State) : Result :=
  let k := 32 * d.val + 16 * side.val + plane.val
  match Tab.get [] s.bridgeTok k with
  | [] => .next s
  | t :: rest =>
    if s.bridgeFull d.val t then .next s
    else .next ({ s with bridgeTok := Tab.set [] s.bridgeTok k rest }.bridgeOut d.val t)

/-- BRIDGE_FLUSH_TIMER (R314): 100 ns after its last token, a frame is sent as it stands. -/
def execBridgeFlushTimer (dt : Nat) (d : Die) (c : Fin 256) (s : State) : Result :=
  let s1 := s.tick dt
  match Tab.find? s1.packs (256 * d.val + c.val) with
  | some x => if x.at_ + 100 ≤ s1.now then .next (s1.flushPack d.val c.val false) else .next s1
  | none => .next s1

/-! ### Tables and configuration (R304, R305, R321, R354) -/

/-- Whether a peer word is refused (R321): its device is this one, or a valid route's port is no multiple of its width. -/
def State.peerBad (s : State) (v : Nat) : Bool :=
  (bit v 63 && bits v 62 48 == s.devId) || (List.range 4).any fun k =>
    let b := bits v (8 * k + 7) (8 * k)
    bit b 7 && !(bits b 4 0 % (if bits b 6 5 = 0 then 1 else if bits b 6 5 = 1 then 2 else 4) == 0)

/-- Whether an entry that a write leaves with EN = 1 is refused (R321, R354). -/
def State.groupBad (s : State) (ws : List Nat) : Bool :=
  let v := ws.headD 0
  let kind := bits v 62 60
  let vc := bits v 55 53
  let size := bits v 47 32
  vc == 0 || size == 0 || decide (size ≤ bits v 31 16) || decide (3 < kind) || (kind == 2 && decide (16 < size)) ||
    ws.tail.any s.peerBad ||
    (match s.partOfJob (bits v 59 56) with
     | some p => !(s.flag (pgPart p + 0x100) (24 + vc))
     | none => true)

/-- GROUP_TABLE_WRITE (R321): a refused or ignored write sets REFUSED. -/
def execGroupTableWrite (acc : Acc) (g : Fin 255) (word : Fin 9) (w : W64) (s : State) : Result :=
  let b := pgGroup g.val
  let a := b + 8 * word.val
  .next (s.hostWrite acc a fun t =>
    let j := t.fld b 59 56
    let busy := t.flag b 63 && (!(t.jobIdle j) || (match t.partOfJob j with
      | some p => !(t.phState p j == 0)
      | none => false))
    let t1 := (t.storeReg a w.toNat (accMask acc)).setFlag b 3 false
    if busy || (t1.flag b 63 && t1.groupBad ((List.range 9).map fun i => t1.reg (b + 8 * i))) then t.setFlag b 3 true else t1)

/-- GLB_DEV_WRITE (R305): IDENT is sent again on every UP port. -/
def execGlbDevWrite (acc : Acc) (w : W64) (s : State) : Result :=
  .next (s.hostWrite acc (pgGlobal + 0x930) fun t =>
    let t1 := t.storeReg (pgGlobal + 0x930) w.toNat (accMask acc)
    (List.range 32).foldl (fun (u : State) q => if u.portUp q then u.sendIdent q else u) t1)

/-- ST_CFG_WRITE (R304): ENABLE and MODE retrain the port or hold it DOWN with cause 6. -/
def execStCfgWrite (acc : Acc) (p : PortId) (w : W64) (s : State) : Result :=
  let q := p.val
  let a := pgPort q + 0x100
  .next (s.hostWrite acc a fun t =>
    let t1 := t.storeReg a w.toNat (accMask acc)
    if !t.live || t.oscOut.contains 1 then t1
    else if !(t1.flag a 0) then (if t.flag a 0 then t1.portLost q 6 else t1)
    else if !(t.flag a 0) ∨ t.ethernet q ≠ t1.ethernet q then t1.retrain q 0
    else t1)

end Sys2Proof.Machine
end

