-- ==== Sys2Proof/Machine/Sections.lean ====
section
/-! DEFINITION. The commands of the section tracker: tokens at port 5 (R98, R472, R201), start records (R95, R96, R193), the budget and stall
monitors (R78, R79, R101, R102), fabric resets (R77). -/
namespace Sys2Proof.Machine

/-- The control token of an opcode offered to the tracker's port of Yard `y`. -/
def State.trackerOffer (s : State) (y opc : Nat) : Option Token :=
  match s.offer y 5 9 with
  | some t => if tokenError 2 t = none ∧ t.opcode = opc then some t else none
  | none => none

/-- The token at the tracker's port is taken. -/
def State.takeTracker (s : State) (y l : Nat) : State := (s.takeOffer y 5 l).progressY y

/-- SLOT_DONE (R98): the tracker counts it for the section in flight it names, and the section ends with its last. -/
def execSlotDone (y : Yard) (s : State) : Result :=
  .next (s.whenLive fun s =>
    match s.trackerOffer y.val 0x15 with
    | none => s
    | some t =>
      let s1 := s.takeTracker y.val 9
      match s1.partOfYard y.val with
      | some p => s1.slotDone p t.job (bits t.payload 47 32)
      | none => s1)

/-- TRACKER_PORT_TOKEN (R472): any other token is an undefined opcode, a header error or a stray. -/
def execTrackerPortToken (y : Yard) (lane : Lane) (s : State) : Result :=
  .next (s.whenLive fun s =>
    let l := laneCode lane
    match s.offer y.val 5 l with
    | none => s
    | some t =>
      match tokenError (laneNet l) t with
      | some c => (s.takeTracker y.val l).ctrlError y.val 38 c t.hdr.toNat
      | none =>
        if laneNet l ≠ 2 then (s.takeTracker y.val l).stray y.val
        else if t.opcode = 0x15 ∨ t.opcode = 0x20 then s
        else (s.takeTracker y.val l).ctrlError y.val 38 5 t.hdr.toNat)

/-- STEP_VETO (R201): COUNT is added to STEP_NF while the sequencer of its job is in PIPE; else the token is discarded. -/
def execStepVeto (y : Yard) (s : State) : Result :=
  .next (s.whenLive fun s =>
    match s.trackerOffer y.val 0x20 with
    | none => s
    | some t =>
      let s1 := s.takeTracker y.val 9
      match s1.partOfYard y.val with
      | some p => if s1.seqState p t.job = 1 then s1.bump (stepReg p t.job 0x18) (t.payload % 2 ^ 32) else s1
      | none => s1)

/-- SECTION_ISSUE (R95, R192): the tracker takes a start record given to it. -/
def execSectionIssue (p : Part) (s : State) : Result := .next (s.whenLive fun s => s.issueOne p.val)

/-- TRACKER_RELEASE_WAITING (R96, R223, R365). -/
def execTrackerReleaseWaiting (p : Part) (s : State) : Result := .next (s.whenLive fun s => s.passAllWaiting p.val)

/-- STEP_SEQ_RELEASE (R193). -/
def execStepSeqRelease (p : Part) (j : JobId) (s : State) : Result := .next (s.whenLive fun s => s.releaseStep p.val j.val)

/-! ### Monitors -/

/-- Whether a request of a partition is outstanding at a controller, a slice, a regulator, a Stay port or a collective engine (R78, R360). -/
def State.outstanding (s : State) (p : Nat) : Bool :=
  let js := s.jobsOf p
  let mem := fun (r : MemReq) => r.part == p
  (s.slices.any fun e => e.2.acc.any mem || e.2.fills.any fun f => mem f.req || f.merged.any mem) ||
    (s.chans.any fun e => e.2.q0.any mem || e.2.q1.any mem || e.2.q2.any mem || e.2.q3.any mem || e.2.service.any mem) ||
    (s.buckets.any fun e => e.2.held.any fun h => match h with
      | .mem r => r.part == p
      | .frame _ f => js.contains f.job) ||
    (s.ports.any fun e => (e.2.queues.any fun q => q.2.any fun f => js.contains f.job) || e.2.replay.any fun r => js.contains r.frame.job) ||
    (s.engines.any fun e => e.2.running.any fun r => js.contains r.wait.job) ||
    (s.cores.any fun e => (s.yardsOf p).contains e.1 && e.2.ctxs.any fun c => !c.2.xfers.isEmpty)

/-- Whether an MU or VU of a partition is in the waves of a firing: its results are formed, it waits for no output, and FIRING_END has not
come. Waves are handshakes (R78). -/
def State.waving (s : State) (p : Nat) : Bool :=
  (s.yardsOf p).any fun y => (List.range 20).any fun u =>
    let x := s.unit y u
    x.outbox.isEmpty && x.firing.any (·.formed)

/-- The Yard that SECTION_STALL names where it is due: tokens held, nothing moved for WINDOW, nothing outstanding (R78, R80). -/
def State.stallDue (s : State) (p : Nat) : Option Nat :=
  let win := s.fld (pgPart p + 0x180) 31 0 * 1000
  let held := (s.yardsOf p).map fun y => (y, s.heldTokens y)
  if win = 0 ∨ sumNat (held.map (·.2)) = 0 ∨ s.outstanding p ∨ s.waving p ∨ s.now < Tab.get 0 s.moved p + win then none
  else some (held.foldl (fun (best : Nat × Nat) e => if best.2 < e.2 then e else best) (0, 0)).1

/-- SECTION_STALL, and its fabric reset. -/
def State.stallFault (s : State) (p y : Nat) : State :=
  (s.partFault p 0x0401 (fieldAt 58 y + fieldAt 52 63)).fabricReset p 0x0401

/-- STALL_SAMPLE: the time without a handshake starts again while there is no token or something is outstanding. -/
def State.stallSample (s : State) (p : Nat) : State :=
  match s.stallDue p with
  | some y => s.stallFault p y
  | none => if sumNat ((s.yardsOf p).map s.heldTokens) = 0 ∨ s.outstanding p ∨ s.waving p then s.progress p else s

/-- The budget of a section in ns (R101). -/
def State.budgetNs (s : State) (c : Section) : Nat :=
  1000 * (if c.budgetUs = 0 then s.fld (pgPart c.part + 0x188) 31 0 else c.budgetUs)

/-- BUDGET_SAMPLE (R101): every section past its budget is a fault, in issue order, and one fabric reset serves them all; a stall due in the same
sample is reported alone (R79). -/
def State.budgetSample (s : State) (p : Nat) : State :=
  let late := s.sections.filter fun c => c.part == p && decide (c.start + s.budgetNs c < s.now)
  if late.isEmpty then s
  else match s.stallDue p with
  | some y => s.stallFault p y
  | none =>
    let s1 := late.foldl (fun (t : State) c =>
      t.partFault p 0x0402 (fieldAt 58 c.lead + fieldAt 52 63 + fieldAt 36 c.job + fieldAt 20 (c.tagBase % 65536))) s
    s1.fabricReset p 0x0402

/-- BUDGET_SAMPLE. -/
def execBudgetSample (dt : Nat) (p : Part) (s : State) : Result := .next ((s.tick dt).whenLive fun s => s.budgetSample p.val)

/-- STALL_SAMPLE. -/
def execStallSample (dt : Nat) (p : Part) (s : State) : Result :=
  .next ((s.tick dt).whenLive fun s => if s.partOn p.val then s.stallSample p.val else s)

/-- FABRIC_RESET (R77): a fabric reset of an enabled partition, with no fault as its cause. -/
def execFabricReset (p : Part) (s : State) : Result :=
  .next (s.whenLive fun s => if s.partOn p.val then s.fabricReset p.val 0 else s)

end Sys2Proof.Machine
end

