-- ==== Sys2Proof/Machine/LoadOps.lean ====
section
/-! DEFINITION. Loading rig images: the parts and records of an image (R103..R107, R473) and the load checks of Table 4.15 (R108..R110,
R131, R160, R264, R275, R330). -/
namespace Sys2Proof.Machine

/-- A failed load check: the fault code and the fields of Table 4.21. -/
structure LoadFail where
  code : Nat
  yard : Nat := 0
  unit : Nat := 63
  cause : Nat
  slot : Nat := 0
  off : Nat
  deriving DecidableEq, Repr

/-- ERR_INFO of Table 4.21. -/
def LoadFail.info (f : LoadFail) : Nat :=
  fieldAt 58 (f.yard % 64) + fieldAt 52 (f.unit % 64) + fieldAt 48 f.cause + fieldAt 45 (f.slot % 8) + f.off % 2 ^ 32

/-- A part table entry (Table 4.6) and the offset it stands at. -/
structure PartRow where
  type : Nat
  count : Nat
  off : Nat
  len : Nat
  crc : Nat
  entry : Nat
  deriving DecidableEq, Repr

/-- A record of an image: its part type, its offset, its bytes. -/
structure RawRec where
  type : Nat
  off : Nat
  bytes : List Byte
  deriving DecidableEq, Repr

/-- The `n`-byte field at offset `o` of a record. -/
def RawRec.f (r : RawRec) (o n : Nat) : Nat := fieldOf r.bytes o n

/-! ### Parts and records -/

/-- PART_COUNT. -/
def imgParts (bs : List Byte) : Nat := fieldOf bs 0x14 2
/-- HDR_LEN. -/
def imgHdrLen (bs : List Byte) : Nat := fieldOf bs 0x0C 4
/-- IMAGE_LEN. -/
def imgLen (bs : List Byte) : Nat := fieldOf bs 0x10 4

/-- Entry `i` of the part table. -/
def partAt (bs : List Byte) (i : Nat) : PartRow :=
  let e := 0x80 + 24 * i
  { type := fieldOf bs e 2, count := fieldOf bs (e + 4) 4, off := fieldOf bs (e + 8) 4, len := fieldOf bs (e + 12) 4,
    crc := fieldOf bs (e + 16) 4, entry := e }

/-- The part table. -/
def partTable (bs : List Byte) : List PartRow := (List.range (imgParts bs)).map (partAt bs)

/-- Bytes of the fixed head of a record of a part type. -/
def recHead (type : Nat) : Nat :=
  match type with
  | 1 => 32 | 2 => 80 | 3 => 16 | 4 => 16 | 5 => 16 | 8 => 32 | _ => 8

/-- Bytes of a record of a part type, its padding included (R105). -/
def recLen (type : Nat) (bs : List Byte) : Nat :=
  match type with
  | 4 => ceilDiv (16 + fieldOf bs 12 2) 16 * 16
  | 5 => ceilDiv (16 + fieldOf bs 8 4) 16 * 16
  | 6 => ceilDiv (8 + fieldOf bs 4 2) 16 * 16
  | 7 => ceilDiv (8 + fieldOf bs 4 2) 16 * 16
  | t => recHead t

/-- The `n` records of a part whose bytes are `bs`; none where they do not fill it exactly. -/
def cutRecs (type : Nat) : (n off : Nat) → List Byte → Option (List RawRec)
  | 0, _, bs => if bs.isEmpty then some [] else none
  | n + 1, off, bs =>
    let k := recLen type bs
    if bs.length < recHead type ∨ bs.length < k then none
    else (cutRecs type n (off + k) (bs.drop k)).map ({ type := type, off := off, bytes := bs.take k } :: ·)

/-- The records of a part. -/
def PartRow.recs (q : PartRow) (bs : List Byte) : Option (List RawRec) := cutRecs q.type q.count q.off ((bs.drop q.off).take q.len)

/-- The records of an image, in image order. -/
def imageRecs (bs : List Byte) : List RawRec :=
  (sortBy (fun (a b : PartRow) => decide (a.off ≤ b.off)) (partTable bs)).flatMap fun q => (q.recs bs).getD []

/-- The Yard a record names first. -/
def RawRec.yard (r : RawRec) : Nat :=
  match r.type with
  | 1 => r.f 2 1 | 3 => r.f 2 1 | 2 => 0 | 7 => 0 | _ => r.f 0 1

/-- The unit a record names, 63 where none. -/
def RawRec.unit (r : RawRec) : Nat :=
  match r.type with
  | 4 => r.f 1 1 | 3 => r.f 3 1 | 6 => 20 + r.f 1 1 | _ => 63

/-- A failed check at a record. -/
def RawRec.fail (r : RawRec) (code cause o : Nat) : LoadFail :=
  { code := code, yard := r.yard, unit := r.unit, cause := cause, slot := if r.type = 4 then r.f 2 1 % 8 else 0, off := r.off + o }

/-! ### Checks 1 and 2 (R108) -/

/-- Check 1 of the image at `a`; an HDR_LEN above IMAGE_LEN is reported at IMAGE_LEN (DESIGN CHOICE, assumption 166). -/
def State.check1 (s : State) (p a : Nat) : Option LoadFail :=
  let h := s.hbm.read a 128
  let bad := fun (c o : Nat) => some { code := 0x0105, cause := c, off := o : LoadFail }
  if !(s.reach p a 128) then bad 6 0
  else if fieldOf h 0 4 ≠ 0x4752_5A4B then bad 1 0
  else if fieldOf h 6 2 ≠ 1 then bad 2 6
  else if s.fld (pgGlobal + 0x910) 15 0 < fieldOf h 4 2 then bad 3 4
  else if imgHdrLen h < 128 then bad 5 0x0C
  else if imgLen h < imgHdrLen h ∨ 2 ^ 30 < imgLen h then bad 5 0x10
  else if !(s.reach p a (imgLen h)) then bad 6 0
  else none

/-- Check 2: HDR_CRC, its own field taken as 0. -/
def check2 (bs : List Byte) : Option LoadFail :=
  if crc32c (bs.take 8 ++ leBytes 4 0 ++ (bs.drop 12).take (imgHdrLen bs - 12)) = fieldOf bs 8 4 then none
  else some { code := 0x0101, cause := 1, off := 8 }

/-! ### Check 3 (R473) -/

/-- Whether two parts overlap; one of length 0 strictly inside another counts (DESIGN CHOICE, assumption 169). -/
def PartRow.overlaps (a b : PartRow) : Bool := decide (a.off < b.off + b.len ∧ b.off < a.off + a.len)

/-- COUNT as the image header gives it. -/
def PartRow.countOk (q : PartRow) (bs : List Byte) : Bool :=
  match q.type with
  | 1 => q.count == fieldOf bs 0x16 2
  | 2 => q.count == 1
  | 3 => q.count == fieldOf bs 0x18 4
  | _ => true

/-- The yards of two RESOURCES records repeat. -/
def repeats : List Nat → Bool
  | [] => false
  | x :: xs => xs.contains x || repeats xs

/-- A part table entry that breaks R473, given the entries before it. -/
def PartRow.bad (q : PartRow) (bs : List Byte) (before : List PartRow) : Option LoadFail :=
  let at_ := fun (c o : Nat) => some { code := 0x0105, cause := c, off := q.entry + o : LoadFail }
  if q.type = 0 ∨ 8 < q.type then at_ 4 0
  else if fieldOf bs (q.entry + 2) 2 ≠ 0 then at_ 4 2
  else if fieldOf bs (q.entry + 0x14) 4 ≠ 0 then at_ 4 0x14
  else if (before.any (·.type == q.type)) ∨ q.off % 16 ≠ 0 ∨ q.off < imgHdrLen bs ∨ imgLen bs < q.off + q.len ∨
      (before.any q.overlaps) ∨ !(q.countOk bs) ∨ (q.recs bs).isNone then at_ 5 0
  else if q.type = 8 ∧ repeats (((q.recs bs).getD []).map RawRec.yard) then at_ 5 0
  else none

/-- The first entry of the part table that breaks R473. -/
def firstBadPart (bs : List Byte) : (before qs : List PartRow) → Option LoadFail
  | _, [] => none
  | before, q :: qs => match q.bad bs before with
    | some f => some f
    | none => firstBadPart bs (before ++ [q]) qs

/-- Whether bytes `o` to `o + n` of a record hold something other than 0. -/
def RawRec.nonzero (r : RawRec) (o n : Nat) : Bool := !(r.f o n == 0)

/-- BODY_LEN of a firing unit's record (R107): 16 plus the length of its descriptor. -/
def unitBody (u : Nat) : Nat := if u < 20 then 80 else if u < 22 then 96 else 24

/-- The first reserved field of a record that is not 0 (offset), with the reserved values of R473. -/
def RawRec.reservedAt (r : RawRec) : Option Nat :=
  let first := fun (xs : List (Nat × Nat)) => (xs.find? fun x => r.nonzero x.1 x.2).map (·.1)
  match r.type with
  | 1 => first [(8, 24)]
  | 2 => if r.nonzero 0x49 7 then some 0x40 else none
  | 3 => first [(6, 2), (12, 4)]
  | 4 =>
    let sw := r.f 1 1 == 38
    let words := (List.range 8).map fun k => 16 + 2 * k
    if 8 ≤ r.f 2 1 then some 2
    else if sw && r.f 3 1 != 0xFF then some 3
    else if sw && r.f 4 2 != 0xFFFF then some 4
    else if (if sw then r.f 6 2 else r.f 6 2 / 16) != 0 then some 6
    else if sw && r.f 8 4 != 0 then some 8
    else if r.f 14 2 != 0 then some 14
    else if sw then
      ((List.range (r.f 12 2 / 8)).find? fun i => !(r.f (16 + 8 * i) 8 % 2 ^ 17 == 0)).map fun i => 16 + 8 * i
    else match words.find? fun o => !(bits (r.f o 2) 12 8 == 0) with
      | some o => some o
      | none =>
        if 22 ≤ r.f 1 1 ∧ r.f 1 1 < 38 then
          (if r.f 32 1 / 16 ≠ 0 then some 32 else if r.f 33 3 ≠ 0 then some 33 else none)
        else none
  | 5 => first [(1, 3), (12, 4)]
  | 6 => first [(6, 2)]
  | 7 => first [(1, 1), (6, 2)]
  | _ => first [(1, 3), (0x14, 4)]

/-- Whether a record has the wrong length (R473). -/
def RawRec.wrongLen (r : RawRec) : Bool :=
  match r.type with
  | 4 =>
    let n := r.f 12 2
    if r.f 1 1 = 38 then n % 8 != 0
    else if r.f 1 1 < 38 then decide (n ≤ 240) && n != unitBody (r.f 1 1) else false
  | 7 => r.f 4 2 != 64
  | _ => false

/-- Where the zero padding of a variable record begins (R105). -/
def RawRec.padAt (r : RawRec) : Nat :=
  match r.type with
  | 4 => 16 + r.f 12 2
  | 5 => 16 + r.f 8 4
  | 6 => 8 + r.f 4 2
  | 7 => 8 + r.f 4 2
  | _ => r.bytes.length

/-- A record that breaks R473 or R105: padding that is not 0 is reported as a reserved field (DEDUCED, assumption 113). -/
def RawRec.bad3 (r : RawRec) : Option LoadFail :=
  match r.reservedAt with
  | some o => some (r.fail 0x0105 4 o)
  | none =>
    if r.wrongLen then some (r.fail 0x0105 5 0)
    else if (r.bytes.drop r.padAt).any (fun b => b != 0) then some (r.fail 0x0105 4 r.padAt) else none

/-- Check 3: the header, each field of it that disagrees at its own offset, then the part table, then the records. -/
def check3 (bs : List Byte) : Option LoadFail :=
  let bad := fun (c o : Nat) => some { code := 0x0105, cause := c, off := o : LoadFail }
  let qs := partTable bs
  let has := fun (t : Nat) => qs.any (·.type == t)
  if imgHdrLen bs ≠ 128 + 24 * imgParts bs then bad 5 0x0C
  else if imgParts bs < 3 ∨ 8 < imgParts bs then bad 5 0x14
  else if fieldOf bs 0x16 2 = 0 ∨ 256 < fieldOf bs 0x16 2 then bad 5 0x16
  else if fieldOf bs 0x68 24 ≠ 0 then bad 4 0x68
  else match firstBadPart bs [] qs with
    | some f => some f
    | none =>
      if !(has 1) ∨ !(has 2) ∨ !(has 4) then bad 5 0x80
      else if !(has 3) ∧ fieldOf bs 0x18 4 ≠ 0 then bad 5 0x18
      else (imageRecs bs).findSome? RawRec.bad3

/-- Check 4: the CRC of each part. -/
def check4 (bs : List Byte) : Option LoadFail :=
  ((partTable bs).find? fun q => !(crc32c ((bs.drop q.off).take q.len) == q.crc)).map fun q =>
    { code := 0x0101, cause := 2, off := q.entry }

/-! ### The image -/

/-- The section record of a record. -/
def RawRec.sec (r : RawRec) : SecRec := { num := r.f 0 2, lead := r.f 2 1, iterDim := r.f 3 1, budgetUs := r.f 4 4 }

/-- The join record of a record. -/
def RawRec.join (r : RawRec) : JoinRec :=
  { section_ := r.f 0 2, yard := r.f 2 1, unit := r.f 3 1, pos := r.f 4 1, forkYard := r.f 5 1, imbalance := r.f 8 4, off := r.off }

/-- The RESOURCES record of a record. -/
def RawRec.res (r : RawRec) : ResRec :=
  { yard := r.f 0 1, ycBase := r.f 4 4, ycLen := r.f 8 4, storeBase := r.f 12 4, storeLen := r.f 16 4, stowLen := r.f 24 8,
    stowBase := 0 }

/-- The YC code of a record. -/
def RawRec.code (r : RawRec) : CodeRec := { yard := r.f 0 1, off := r.f 4 4, bytes := (r.bytes.drop 16).take (r.f 8 4) }

/-- The descriptor of a STREAMS or COLLECTIVES record. -/
def RawRec.desc (r : RawRec) : DescRec :=
  { target := r.f 0 1, sub := r.f 1 1, index := r.f 2 2, len := r.f 4 2, body := r.f 8 (r.f 4 2) }

/-- The image of some records, without its crossings; RIG_ID 255 stands for the lowest free one. -/
def imageFrom (p j rig : Nat) (bs : List Byte) (rs : List RawRec) : Image :=
  let of_ := fun (t : Nat) => rs.filter (·.type == t)
  let cfgs := (of_ 4).map fun r => parseCfg r.bytes
  { part := p, rig := rig, job := j
    maxExt := (List.range 16).map fun i => fieldOf bs (0x20 + 4 * i) 4
    secs := (of_ 1).map RawRec.sec, cfgs := cfgs.filter fun c => decide (c.unit < 38)
    routes := (cfgs.filter fun c => c.unit == 38).flatMap CfgRec.routes, codes := (of_ 5).map RawRec.code
    streams := (of_ 6).map RawRec.desc, colls := (of_ 7).map RawRec.desc, res := (of_ 8).map RawRec.res
    joins := (of_ 3).map RawRec.join, cross := []
    switches := (cfgs.filter fun c => c.unit == 38).map fun c => (c.yard, c.slot)
    collsFirst := ((rs.find? fun r => r.type == 4 || r.type == 7).map (·.type)) == some 7 }

/-! ### Check 5 (R53, R106, R111) -/

/-- What is wrong with naming logical Yard `y` in an image of partition `p`. -/
def State.yardFail (s : State) (p y : Nat) : Option Nat :=
  if 64 ≤ y ∨ !(s.enabled y) then some 1 else if !((s.yardsOf p).contains y) then some 2 else none

/-- The logical Yards a record names. -/
def RawRec.yards (r : RawRec) : List Nat :=
  match r.type with
  | 2 => [] | 7 => [] | 3 => [r.f 2 1, r.f 5 1] | _ => [r.yard]

/-- The place of the first true value of a list. -/
def firstIdx (l : List Bool) : Option Nat := (List.range l.length).find? fun k => l.getD k false

/-- The non-enabled Yards that a route passes straight through (R471): those of the runs it starts, and those between a Stay die and its
input edge. -/
def State.routeCross (s : State) (r : Route) : List Nat :=
  match s.physOf r.yard with
  | none => []
  | some q =>
    let out := (r.outs.filter fun o => decide (o < 4)).flatMap fun o => (s.run 9 q o []).2
    let inn := if r.inPort < 4 then
        (match s.run 9 q r.inPort [] with
          | (.stay _ _, xs) => xs
          | _ => []) else []
    out ++ inn

/-- The non-enabled Yards whose crossings an image uses. -/
def State.crossOf (s : State) (i : Image) : List Nat := (i.routes.flatMap s.routeCross).eraseDups

/-- CROSS as the present map gives it (R106). -/
def State.crossBits (s : State) (i : Image) : Nat :=
  let ps := ((i.routes.filterMap fun r => s.physOf r.yard) ++ i.cross).eraseDups
  (ps.map fun q => 2 ^ q).foldl (· + ·) 0

/-- GEOMETRY against the present map (R106). -/
def State.geometryFail (s : State) (i : Image) (rs : List RawRec) : Option LoadFail :=
  match rs.find? (·.type == 2) with
  | none => none
  | some g =>
    let named := (rs.flatMap RawRec.yards).eraseDups
    match (List.range 64).find? fun y => named.contains y && s.physOf y != some (g.f y 1) with
    | some y => some { code := 0x0102, yard := y, cause := 4, off := g.off + y }
    | none => if g.f 0x40 16 = s.crossBits i then none else some { code := 0x0102, cause := 4, off := g.off + 0x40 }

/-- A crossing of an image that another partition holds (R53). -/
def State.crossHeld (s : State) (i : Image) : Bool :=
  i.cross.any fun q => (Tab.find? s.crossOwner q).any fun p => p != i.part

/-- Where the GEOMETRY record stands. -/
def geometryOff (rs : List RawRec) : Nat := ((rs.find? (·.type == 2)).map (·.off)).getD 0

/-- Whether a route leaves by an edge toward the switch of a Yard outside the image's partition (R53). -/
def State.routeAway (s : State) (p : Nat) (r : Route) : Bool :=
  (r.outs.filter fun o => decide (o < 4)).any fun o => match s.physOf r.yard with
    | none => false
    | some q => match s.run 9 q o [] with
      | (.switch z _, _) => !((s.yardsOf p).contains z)
      | _ => false

/-- What check 5 finds in a record: a Yard or unit it names, the switch of another partition that a route enters, the comparison of
GEOMETRY with the map, a crossing that another partition holds. -/
def State.recFail5 (s : State) (i : Image) (rs : List RawRec) (r : RawRec) : Option LoadFail :=
  match r.yards.findSome? (s.yardFail i.part) with
  | some c => some (r.fail 0x0102 c 0)
  | none =>
    let absent := match r.type with
      | 3 => decide (37 < r.f 3 1)
      | 4 => decide (38 < r.f 1 1)
      | 6 => decide (1 < r.f 1 1)
      | 7 => decide (7 < r.f 0 1) || bit s.stayAbsent (r.f 0 1)
      | _ => false
    if absent then some (r.fail 0x0102 3 0)
    else if r.type = 4 ∧ r.f 1 1 = 38 then
      (firstIdx ((parseCfg r.bytes).routes.map (s.routeAway i.part))).map fun k => r.fail 0x0102 2 (16 + 8 * k)
    else if r.type = 2 then
      match s.geometryFail i rs with
      | some f => some f
      | none => if s.crossHeld i then some { code := 0x0102, cause := 5, off := r.off + 0x40 } else none
    else none

/-- Check 5. -/
def State.check5 (s : State) (i : Image) (rs : List RawRec) : Option LoadFail := rs.findSome? (s.recFail5 i rs)

/-! ### Check 6 (R110, R131, R160, R264, R275, R330) -/

/-- Whether a slot of a unit or switch is free. -/
def State.slotFree (s : State) (y u k : Nat) : Bool :=
  if u = 38 then !(s.images.any fun i => i.switches.contains (y, k))
  else
    let v := (s.unit y u).slot k
    v.record.isNone && !v.reserved

/-- The positions and outputs a steering record binds as Table 4.13 gives, with L exactly in LOOP_DYNAMIC; its kind, mode and limit. -/
def steeringOk (body : Nat) : Bool :=
  let kind := stKind body
  let mode := stMode body
  let inn := fun (k : Nat) => bindValid (bindIn body k)
  let out := fun (k : Nat) => bindValid (bindOut body k)
  let ins := match kind with
    | 0 => inn 0 && inn 1
    | 1 => inn 0 && inn 1 && inn 2
    | 2 => inn 0 && inn 1
    | _ => inn 0 && inn 1 == (mode == 1)
  ins && out 0 && (kind != 0 || out 1) && mode != 3 && (kind == 3 || mode == 0) && !(kind == 3 && mode == 2 && stLimit body == 0)

/-- The binding words of a record of unit `u` with their offsets in it: the binding block, and XOUT4..XOUT7 of an SU (R107, R267). -/
def bindings (u body : Nat) : List (Nat × Nat) :=
  ((List.range 8).map fun k => (16 + 2 * k, bindIn body k)) ++
    (if 20 ≤ u ∧ u < 22 then (List.range 4).map fun k => (0x60 + 2 * k, suOut body (4 + k)) else [])

/-- The offset of the first binding word with NET 3 or with halyard channel 0xFF (R87, R110). -/
def bindingBad (u body : Nat) : Option Nat :=
  ((bindings u body).find? fun x => bindNet x.2 == 3 || (bindValid x.2 && bindNet x.2 == 2 && bindChan x.2 == 0xFF)).map (·.1)

/-- A port code that is not reserved. -/
def portCodeOk (c : Nat) : Bool := decide (c < 6) || (decide (8 ≤ c) && decide (c < 46))

/-- Whether a run of non-enabled Yards from a switch's edge ends at a switch or an edge attachment. -/
def State.runEnds (s : State) (y o : Nat) : Bool :=
  match s.physOf y with
  | none => true
  | some q => match s.run 9 q o [] with
    | (.off, xs) => attached ((xs.getLast?).getD q) o
    | _ => true

/-- A valid route entry (R110). -/
def State.routeOk (s : State) (r : Route) : Bool :=
  r.net != 3 && !r.outs.isEmpty && portCodeOk r.inPort && r.outs.all portCodeOk &&
    (r.outs.filter fun o => decide (o < 4)).all (s.runEnds r.yard)

/-- Whether two route entries of one switch share their key. -/
def Route.clash (a b : Route) : Bool := a.yard == b.yard && a.net == b.net && a.inPort == b.inPort && a.chan == b.chan

/-- Whether some entry of a list shares its key with a later one. -/
def clashing : List Route → Bool
  | [] => false
  | r :: rs => rs.any r.clash || clashing rs

/-- The class of a firing unit: MU, VU, SU, steering. -/
def unitClass (u : Nat) : Nat := if u < 16 then 0 else if u < 20 then 1 else if u < 22 then 2 else 3

/-- The most records of a class in one Yard and section. -/
def classLimit (k : Nat) : Nat := if k = 0 then 256 else if k = 3 then 2 ^ 32 else 64

/-- Whether two extents overlap; an empty one meets none. -/
def meet (a la b lb : Nat) : Bool := decide (0 < la ∧ 0 < lb ∧ a < b + lb ∧ b < a + la)

/-- The first entry of a list of routes that is not valid (cause 4), or whose key an entry before it or one of `old` holds (cause 8),
and its place. -/
def State.routeFail (s : State) (old : List Route) (k : Nat) : List Route → Option (Nat × Nat)
  | [] => none
  | r :: rs => if !(s.routeOk r) then some (4, 16 + 8 * k)
    else if old.any r.clash then some (8, 16 + 8 * k)
    else s.routeFail (r :: old) (k + 1) rs

/-- What check 6 finds in a configuration record, given the records before it: the cause and the field, the field at the lowest offset
first (DEDUCED, assumption 113). A slot that an earlier record of the image names is free for it only where both are streamed (R89). -/
def State.cfgFail (s : State) (i : Image) (before : List RawRec) (r : RawRec) : Option (Nat × Nat) :=
  let c := parseCfg r.bytes
  let mine := before.filter (·.type == 4)
  let same := mine.filter fun q => q.f 0 1 == c.yard && q.f 1 1 == c.unit
  let long := decide ((if c.unit = 38 then 4096 else 240) < c.bodyLen)
  if !(s.slotFree c.yard c.unit c.slot) ∨ (same.any fun q => q.f 2 1 % 8 == c.slot && !(c.streamed && bit (q.f 6 2) 3)) then some (1, 0)
  else if c.unit = 38 then
    let old := (s.images.filter fun k => k.job == i.job).flatMap (·.routes)
    let prev := (same.map fun q => parseCfg q.bytes).flatMap CfgRec.routes
    if long then some (2, 0x0C) else s.routeFail (old ++ prev) 0 c.routes
  else
    let here := i.cfgs.filter fun q => q.yard == c.yard && q.unit == c.unit && q.section_ == c.section_
    let group := mine.filter fun q => q.f 0 1 == c.yard && q.f 1 1 == c.unit && q.f 4 2 == c.section_
    let cls := mine.filter fun q => q.f 0 1 == c.yard && q.f 4 2 == c.section_ && decide (q.f 1 1 < 38) && unitClass (q.f 1 1) == unitClass c.unit
    if classLimit (unitClass c.unit) ≤ cls.length then some (3, 0)
    else if c.next ≠ 0xFF ∧ !(here.any (·.slot == c.next)) then some (3, 3)
    else if !(i.secs.any (·.num == c.section_)) then some (3, 4)
    else if !(here.any (·.entry)) ∨ (c.entry ∧ group.any fun q => bit (q.f 6 2) 0) then some (3, 6)
    else if c.terminal ∧ c.quota = 0 then some (3, 8)
    else if long then some (2, 0x0C)
    else match bindingBad c.unit c.body with
      | some o => some (4, o)
      | none => if 22 ≤ c.unit ∧ !(steeringOk c.body) then some (4, 32) else none

/-- The lowest base at which `len` bytes of stowage fit among the extents of Yard `y` (R264). -/
def State.stowFit (s : State) (y len : Nat) : Option Nat :=
  let up := fun (n : Nat) => ceilDiv n 4096 * 4096
  let xs := (s.stowExtents y).map fun e => (e.1, up e.2)
  let bases := sortBy (fun (a b : Nat) => decide (a ≤ b)) (0 :: xs.map fun e => e.1 + e.2)
  bases.find? fun b => decide (b + up len ≤ s.stowCap y) && xs.all fun e => !(meet b (up len) e.1 e.2)

/-- What check 6 finds in a RESOURCES record. -/
def State.resFail (s : State) (r : ResRec) : Option (Nat × Nat) :=
  let others := (s.images.flatMap (·.res)).filter (·.yard == r.yard)
  if 0 < r.ycLen ∧ (r.ycBase < 0x8000 ∨ 0x4_0000 < r.ycBase + r.ycLen ∨
      (others.any fun o => meet r.ycBase r.ycLen o.ycBase o.ycLen)) then some (6, 4)
  else if 0 < r.storeLen ∧ (96 * 2 ^ 20 < r.storeBase + r.storeLen ∨ (others.any fun o => meet r.storeBase r.storeLen o.storeBase o.storeLen)) then
    some (5, 0x0C)
  else if s.stowCap r.yard < ((others.map (·.stowLen)).foldl (· + ·) 0) + r.stowLen ∨ (0 < r.stowLen ∧ (s.stowFit r.yard r.stowLen).isNone) then
    some (7, 0x18)
  else none

/-- What check 6 finds in a record: its cause and the field. -/
def State.recCause6 (s : State) (i : Image) (before : List RawRec) (r : RawRec) : Option (Nat × Nat) :=
  match r.type with
  | 1 =>
    let c := r.sec
    if (before.any fun q => q.type == 1 && q.f 0 2 == c.num) ∨ !(i.cfgs.any fun q => q.section_ == c.num && q.terminal) then some (3, 0)
    else if 15 < c.iterDim ∧ c.iterDim ≠ 0xFF then some (3, 3)
    else if 1000000 < c.budgetUs then some (3, 4) else none
  | 4 => s.cfgFail i before r
  | 5 =>
    let c := r.code
    if i.res.any fun x => x.yard == c.yard && decide (x.ycBase ≤ c.off ∧ c.off + r.f 8 4 ≤ x.ycBase + x.ycLen) then none else some (6, 4)
  | 7 =>
    let c := r.desc
    let mine := before.filter fun q => q.type == 7 && q.f 0 1 == c.target
    if 256 ≤ (mine.filter fun q => dSection (q.desc.body) == dSection c.body).length then some (3, 0)
    else if 509 < c.index then some (2, 2)
    else if (s.images.any fun k => k.colls.any fun x => x.target == c.target && x.index == c.index) ∨
        (mine.any fun q => q.f 2 2 == c.index) then some (1, 2)
    else none
  | 8 => s.resFail r.res
  | _ => none

/-- The first record that fails check 6. -/
def State.firstBad6 (s : State) (i : Image) : (before rs : List RawRec) → Option LoadFail
  | _, [] => none
  | before, r :: rs => match s.recCause6 i before r with
    | some (c, o) => some (r.fail 0x0104 c o)
    | none => s.firstBad6 i (before ++ [r]) rs

/-- The RIG_IDs a partition uses. -/
def State.rigUsed (s : State) (p r : Nat) : Bool := s.images.any fun k => k.part == p && k.rig == r

/-- The RIG_ID an image takes: the one wanted, or the lowest free (R108, R369). -/
def State.rigFor (s : State) (p want : Nat) : Option Nat :=
  if want = 255 then firstBelow 16 fun r => !(s.rigUsed p r) else if s.rigUsed p want then none else some want

/-- Check 6. -/
def State.check6 (s : State) (i : Image) (rs : List RawRec) : Option LoadFail :=
  if (s.rigFor i.part i.rig).isNone then some { code := 0x0104, cause := 1, off := 0 } else s.firstBad6 i [] rs

/-! ### Check 7 (R76, R109) -/

/-- Capacity of the path from output `o` of Yard `y`'s switch back to the fork at `fork`, on network `net` and channel `chan`: the
least over its branches; none where a branch cannot be traced within `n` switches. -/
def State.trace (s : State) (rs : List Route) (net chan fork : Nat) : (n y o : Nat) → Option Nat
  | 0, _, _ => none
  | n + 1, y, o =>
    let es := rs.filter fun r => r.yard == y && r.net == net && r.chan == chan && r.outs.contains o
    let cap := fun (r : Route) =>
      if y = fork ∧ 2 ≤ r.outs.length then some 16
      else if 4 ≤ r.inPort then none
      else match s.physOf y with
        | none => none
        | some q => match s.run 9 q r.inPort [] with
          | (.switch z e, _) => (s.trace rs net chan fork n z e).map (· + 16)
          | _ => none
    match es with
    | [] => none
    | e :: es => es.foldl (fun best r => match best, cap r with
      | some a, some b => some (min a b)
      | _, _ => none) (cap e)

/-- Whether a join record fails check 7: its cause. -/
def State.joinFail (s : State) (i : Image) (x : JoinRec) : Option Nat :=
  if x.imbalance = 0 then none
  else
    let rs := i.routes ++ (s.images.filter fun k => k.job == i.job).flatMap (·.routes)
    let rec? := i.cfgs.find? fun c => c.yard == x.yard && c.unit == x.unit && c.section_ == x.section_ && bindValid (bindIn c.body x.pos)
    match rec? with
    | none => some 2
    | some c =>
      let w := bindIn c.body x.pos
      match (if x.pos < 4 then s.trace rs (bindNet w) (bindChan w) x.forkYard 65 x.yard (8 + x.unit) else none) with
      | none => some 2
      | some k => if k + 16 < x.imbalance then some 1 else none

/-- Check 7: an IMBALANCE above the capacity at its own field, a path without a trace at its record. -/
def State.check7 (s : State) (i : Image) : Option LoadFail :=
  i.joins.findSome? fun x => (s.joinFail i x).map fun c =>
    { code := 0x0103, yard := x.yard, unit := x.unit, cause := c, off := if c = 1 then x.off + 8 else x.off }

/-! ### All checks -/

/-- Checks 1 to 7 of the image at `a` for job `j`: the first failure, or the image (R108). -/
def State.loadChecks (s : State) (p j a want : Nat) : LoadFail ⊕ Image :=
  match s.check1 p a with
  | some f => .inl f
  | none =>
    let bs := s.hbm.read a (imgLen (s.hbm.read a 128))
    match (check2 bs).orElse (fun _ => (check3 bs).orElse fun _ => check4 bs) with
    | some f => .inl f
    | none =>
      let rs := imageRecs bs
      let i0 := imageFrom p j want bs rs
      let i := { i0 with cross := s.crossOf i0 }
      match (s.check5 i rs).orElse (fun _ => (s.check6 i rs).orElse fun _ => s.check7 i) with
      | some f => .inl f
      | none => .inr i

end Sys2Proof.Machine
end

