-- ==== Sys2Proof/Machine/Loading.lean ====
section
/-! DEFINITION. Loading, committing, unloading and abandoning (R108, R111, R112, R113, R162, R264, R330, R356). -/
namespace Sys2Proof.Machine

/-- PT_RIG_STATUS of a partition (Table 4.18). -/
def rigSt (p : Nat) : Nat := pgPart p + 0x1D0

/-- Whether a load or unload is in progress. -/
def State.rigBusy (s : State) (p : Nat) : Bool := s.flag (rigSt p) 63

/-- BUSY falls with a RESULT (Table 4.18); RIG_DONE (R113). -/
def State.rigResult (s : State) (p res rig j code : Nat) : State :=
  (s.setReg (rigSt p) (fieldAt 60 res + fieldAt 56 rig + fieldAt 52 j + code)).jobEvent p j 0

/-- What the ring that asked for a load or unload learns: the entry completes, and with a code the ring halts with cause 3 (R370,
R371). -/
def State.tellRing (s : State) (j : Nat) (src : Option Nat) (code : Option Nat) : State :=
  match src with
  | none => s
  | some i => match code with
    | none => s.ringDone j i
    | some c => (s.ringDone j i).haltRing j 3 c

/-- A load rejected with its fault in the partition page (R108, R113). -/
def State.rejectLoad (s : State) (p j code info : Nat) (src : Option Nat) : State :=
  ((s.partFault p code info).rigResult p 2 0 j code).tellRing j src (some code)

/-- The offset in the image at HBM address `a` of its GEOMETRY record. -/
def State.geometryAt (s : State) (a : Nat) : Nat := geometryOff (imageRecs (s.hbm.read a (imgLen (s.hbm.read a 128))))

/-- What the checks read of the image at `a`: nothing where its header cannot be reached, the header alone where check 1 fails, else all. -/
def State.imageReads (s : State) (p a : Nat) : List (Nat × Nat) :=
  if !(s.reach p a 128) then []
  else if (s.check1 p a).isSome then cutLines a 128
  else cutLines a (imgLen (s.hbm.read a 128))

/-- A load begins (R108): its checks run, and with all passed it waits for its commit (R111) and for the reads of the image at P3 (Table 11.3). A
job that does not run in the partition is refused (R356). -/
def State.startLoad (s : State) (p j a want : Nat) (src : Option Nat) : State :=
  if s.partOfJob j ≠ some p then
    s.rejectLoad p j 0x0804 (fieldAt 56 j + (match s.partOfJob j with | some q => q | none => 0xFFFF_FFFF)) src
  else match s.loadChecks p j a want with
    | .inl f => (s.post { part := p, cls := 3, job := j } false (s.imageReads p a)).rejectLoad p j f.code f.info src
    | .inr i =>
      let s1 := (s.setReg (rigSt p) (fieldAt 63 1 + fieldAt 52 j)).ask (askKey (.load p)) { part := p, cls := 3, job := j } (s.imageReads p a)
      { s1 with
        loads := s1.loads ++ [{ part := p, job := j, gen := s.reg (pgGlobal + 0x3F8), image := i, geometry := s.geometryAt a
                                fromRing := src, at_ := s.now }] }

/-! ### Commit (R111) -/

/-- The RESOURCES records with their stowage ranges; none where one does not fit. -/
def State.placeStow (s : State) : List ResRec → Option (List ResRec)
  | [] => some []
  | r :: rs =>
    if r.stowLen = 0 then (s.placeStow rs).map (r :: ·)
    else match s.stowFit r.yard r.stowLen with
      | none => none
      | some b => (s.placeStow rs).map ({ r with stowBase := b } :: ·)

/-- What stops a commit (R27, R111, R264, R330): a crossing lost, the map changed, an INDEX or the RIG_ID taken meanwhile, no free
range of stowage. -/
def State.commitFail (s : State) (l : PendingLoad) : Option LoadFail :=
  let taken := l.image.colls.find? fun c => s.images.any fun k => k.colls.any fun x => x.target == c.target && x.index == c.index
  if s.crossHeld l.image then some { code := 0x0102, cause := 5, off := l.geometry + 0x40 }
  else if taken.isSome ∨ (s.rigFor l.part l.image.rig).isNone then some { code := 0x0104, cause := 1, off := 0 }
  else if s.reg (pgGlobal + 0x3F8) ≠ l.gen then some { code := 0x0102, cause := 6, off := 0 }
  else if (s.placeStow l.image.res).isNone then some { code := 0x0104, cause := 7, off := 0 }
  else none

/-- A record takes its slot: a resident one stands in it, a streamed one reserves it (R89). -/
def State.takeSlot (s : State) (j : Nat) (c : CfgRec) : State :=
  let x := s.unit c.yard c.unit
  let v := x.slot c.slot
  let w := if c.streamed then { v with job := j, reserved := true } else { v with job := j, record := some c }
  s.setUnit c.yard c.unit (x.setSlot c.slot w)

/-- YC code is written, and a context of its job comes into being with the first code of its Yard (R162). -/
def State.takeCode (s : State) (j : Nat) (c : CodeRec) : State :=
  let s1 := s.setLocal c.yard ((s.local_ c.yard).write c.off c.bytes)
  if (s1.ctx c.yard j).isSome then s1 else s1.setCtx c.yard j { pc := c.off % 2 ^ 18 }

/-- An image committed under RIG_ID `rig` with its stowage placed. -/
def State.commitImage (s : State) (l : PendingLoad) (rig : Nat) (res : List ResRec) : State :=
  let i := { l.image with rig := rig, res := res }
  let s1 := i.cfgs.foldl (fun (t : State) c => t.takeSlot l.job c) s
  let s2 := i.codes.foldl (fun (t : State) c => t.takeCode l.job c) s1
  { s2 with
    images := s2.images ++ [i]
    crossOwner := i.cross.foldl (fun t q => Tab.put t q i.part) s2.crossOwner }.setFlag (pgPart l.part + 0x1D8) rig true

/-- The commit of a load. -/
def State.commit (s : State) (l : PendingLoad) : State :=
  let s0 := { s with loads := s.loads.erase l }.dropAsk (askKey (.load l.part))
  match s0.commitFail l, s0.rigFor l.part l.image.rig, s0.placeStow l.image.res with
  | none, some rig, some res => (((s0.commitImage l rig res).rigResult l.part 1 rig l.job 0)).tellRing l.job l.fromRing none
  | some f, _, _ => s0.rejectLoad l.part l.job f.code f.info l.fromRing
  | _, _, _ => s0

/-- The load that commits next, of those whose image memory has delivered: the first to finish its checks, of those that finish in one
microsecond the lowest partition's (R111). -/
def State.nextCommit (s : State) : Option PendingLoad :=
  let before := fun (a b : PendingLoad) => decide (a.at_ / 1000 < b.at_ / 1000 ∨ (a.at_ / 1000 = b.at_ / 1000 ∧ a.part < b.part))
  (s.loads.filter fun l => s.served (askKey (.load l.part))).foldl (fun (best : Option PendingLoad) l => match best with
    | none => some l
    | some b => if before l b then some l else some b) none

/-- LOAD_COMMIT (R111): the load of partition `p` that passed its checks commits, in its turn. -/
def execLoadCommit (p : Part) (s : State) : Result :=
  .next (s.whenLive fun s => match s.nextCommit with
    | some l => if l.part = p.val then s.commit l else s
    | none => s)

/-! ### Unload (R112) -/

/-- Whether a section of an image is in flight or one of its records waits in the tracker. -/
def State.imageUsed (s : State) (i : Image) : Bool :=
  s.sections.any (fun c => c.part == i.part && c.rig == i.rig) ||
    ([s.issueQ, s.waiting].any fun t => (Tab.get [] t i.part).any fun r => r.job == i.job && r.rig == i.rig) ||
    [s.stepHeld, s.phaseHeld].any fun t => (Tab.get [] t i.job).any fun r => r.rig == i.rig

/-- Whether a firing unit has one of an image's slots active. -/
def State.imageActive (s : State) (i : Image) : Bool :=
  i.cfgs.any fun c => (s.unit c.yard c.unit).active == some c.slot

/-- An unload of a RIG_ID asked for job `j`, and whether it was done (R112). -/
def State.unload (s : State) (p j rig : Nat) : Bool × State :=
  match s.imageAt p rig with
  | none => (false, s.rigResult p 4 rig j 0)
  | some i =>
    if s.imageUsed i || s.imageActive i then (false, s.rigResult p 4 rig j 0)
    else (true, (s.dropImage i).rigResult p 3 rig j 0)

/-! ### Writes to PT_RIG_CTRL (Table 4.17) -/

/-- PT_RIG_CTRL written by the host. -/
def State.rigCtrl (s : State) (acc : Acc) (p : Nat) (w : Nat) : State :=
  let a := pgPart p + 0x1C8
  s.hostWrite acc a fun s =>
    let s1 := s.storeReg a w (accMask acc)
    let load := acts w 0
    let unload := acts w 1
    let s2 :=
      if s1.rigBusy p || (load && unload) then s1
      else if load then s1.startLoad p (s1.fld a 11 8) (s1.reg (pgPart p + 0x1C0)) 255 none
      else if unload then (s1.unload p (s1.fld a 11 8) (s1.fld a 15 12)).2
      else s1
    if acts w 2 then s2.fabricReset p 0 else s2

/-- RIG_LOAD (R108): a PT_RIG_CTRL write with LOAD. -/
def execRigLoad (acc : Acc) (p : Part) (w : W64) (s : State) : Result := .next (s.rigCtrl acc p.val w.toNat)

/-- UNLOAD (R112): a PT_RIG_CTRL write with UNLOAD. -/
def execUnload (acc : Acc) (p : Part) (w : W64) (s : State) : Result := .next (s.rigCtrl acc p.val w.toNat)

/-- ABANDON (R100): a PT_RIG_CTRL write with ABANDON. -/
def execAbandon (acc : Acc) (p : Part) (w : W64) (s : State) : Result := .next (s.rigCtrl acc p.val w.toNat)

end Sys2Proof.Machine
end

