-- ==== Sys2Proof/Machine/Memory.lean ====
section
/-! DEFINITION. Memory traffic and the health of the HBM stacks: grants (R265, R289), the stream-cache slices (R282, R283, R286), the
regulators' refill (R359), temperature (R289, R290), reads and their severity (R291), row repair (R294), map-out (R296..R299), the
Shard Directory (R279, R280), YD_STOW (R264). -/
namespace Sys2Proof.Machine

/-! ### Requests and answers -/

/-- A request of a requester other than a firing unit is answered. -/
def State.askAnswer (s : State) (r : MemReq) : State :=
  match Tab.find? s.askers r.u with
  | none => s
  | some e =>
    if e.1 = r.epoch ∧ 0 < e.2 then
      let s1 := { s with askers := Tab.put s.askers r.u (e.1, e.2 - 1) }
      if e.2 = 1 then s1.barDone r.u else s1
    else s

/-- A request of a firing unit is answered: the unit, or its DELAY's emission, has one less to wait for, and goes on when none is left. -/
def State.unitAnswer (s : State) (r : MemReq) : State :=
  let x := s.unit r.y r.u
  if x.epoch = r.epoch ∧ r.emit ∧ 0 < x.ringWait then
    let s1 := s.setUnit r.y r.u { x with ringWait := x.ringWait - 1 }
    if x.ringWait = 1 then (s1.pumpOut r.y r.u).progress r.part else s1
  else if x.epoch = r.epoch ∧ !r.emit ∧ 0 < x.memWait then
    let s1 := s.setUnit r.y r.u { x with memWait := x.memWait - 1 }
    if x.memWait = 1 then (s1.pumpOut r.y r.u).progress r.part else s1
  else s

/-- A request is answered. -/
def State.memAnswer (s : State) (r : MemReq) : State :=
  if r.y < 64 then s.unitAnswer r else if r.y = 64 then s.askAnswer r else s

/-- The queue of class `p`. -/
def ChanState.q (c : ChanState) (p : Nat) : List MemReq :=
  match p with
  | 0 => c.q0 | 1 => c.q1 | 2 => c.q2 | _ => c.q3

/-- That queue replaced. -/
def ChanState.setQ (c : ChanState) (p : Nat) (q : List MemReq) : ChanState :=
  match p with
  | 0 => { c with q0 := q } | 1 => { c with q1 := q } | 2 => { c with q2 := q } | _ => { c with q3 := q }

/-- Whether every row of a request has a fence entry: its buffer then serves it (R292). -/
def State.allFenced (s : State) (r : MemReq) : Bool :=
  let a := r.line * 4096
  decide (r.lo < r.hi) && (List.range ((r.hi - 1) / 1024 - r.lo / 1024 + 1)).all fun i =>
    (s.fenceOf (adChan a) (adOff a / 1024 + r.lo / 1024 + i)).isSome

/-- The data of a read have come back to the slice: the fill of its line completes, or the read is answered. -/
def State.cameBack (s : State) (r : MemReq) : State :=
  let h := lineStack r.line
  let y := s.slice h
  match (if r.cache then indexWhere (fun (f : Fill) => f.req == r && !f.back) y.fills else none) with
  | none => s.memAnswer r
  | some k => s.setSlice h { y with fills := y.fills.set k { req := r, merged := ((y.fills[k]?).map (·.merged)).getD [], back := true } }

/-- A request leaves the slice: fenced rows are served from their buffers (R292), else it enters its channel's queue; a write is then
accepted. The bytes of a fence buffer are those of its row in `State.hbm`. -/
def State.chanPut (s : State) (r : MemReq) : State :=
  if s.allFenced r then (if r.write then s.memAnswer r else s.cameBack r)
  else
    let c := adChan (r.line * 4096)
    let x := s.chan c
    let s1 := s.setChan c (x.setQ r.cls (x.q r.cls ++ [r]))
    if r.write then s1.memAnswer r else s1

/-- A read that hit or merged is served: at once, or with the fill of its line while that is in flight. -/
def State.serveHit (s : State) (r : MemReq) : State :=
  let h := lineStack r.line
  let x := s.slice h
  if x.fills.any (·.req.line == r.line) ∧ !(x.holds r.line) then
    s.setSlice h { x with fills := x.fills.map fun f => if f.req.line = r.line then { f with merged := f.merged ++ [r] } else f }
  else s.memAnswer r

/-- A request that a regulator lets go on: kind 0 to the channel, 1 served by the slice, 2 to the port's queue. -/
def State.letGo (s : State) (kind : Nat) (h : Held) : State :=
  match h with
  | .mem r => if kind = 1 then s.serveHit r else s.chanPut r
  | .frame q f => s.pushFrame (if s.portUp q then q else (s.otherPort q f).getD q) f

/-- Whether a request misses: a read whose line the slice neither holds nor fetches. -/
def SliceState.misses (x : SliceState) (r : MemReq) : Bool := !r.write && !(x.holds r.line) && !(x.fills.any (·.req.line == r.line))

/-- The access a slice treats next: the oldest, or where that misses the oldest miss of the lowest class (R265). -/
def SliceState.turn (x : SliceState) : Option Nat :=
  match x.acc with
  | [] => none
  | r :: _ =>
    if !(x.misses r) then some 0
    else
      let low := (x.acc.filter x.misses).foldl (fun m e => min m e.cls) r.cls
      indexWhere (fun (e : MemReq) => x.misses e && e.cls == low) x.acc

/-- SU_CACHE_HIT of a firing unit whose line was served by hit or merge (Table 11.11). -/
def State.cacheHit (s : State) (r : MemReq) : State := if r.y < 64 then s.bump (pgUnit r.y r.u + 0x140) 1 else s

/-- A request goes on once a regulator of its partition lets it (R358); BAR2 traffic has none (R382). -/
def State.goOn (s : State) (h kind : Nat) (r : MemReq) : State :=
  if 8 ≤ r.part then s.letGo kind (.mem r)
  else
    let (yes, u) := s.letIn kind r.part h r.job r.cls r.len (.mem r)
    if yes then u.letGo kind (.mem r) else u

/-- The access of slice `h` whose turn it is is treated (R283, R358). -/
def State.slAccess (s : State) (h : Nat) : State :=
  let x := s.slice h
  match x.turn.bind fun i => (x.acc[i]?).map fun r => (i, r) with
  | none => s
  | some (i, r) =>
    let s0 := s.setSlice h { x with acc := dropAt x.acc i }
    let pg := pgSlice h
    let used := s0.setSlice h ((s0.slice h).use r.line)
    if r.write then (if x.holds r.line then used.bump (pg + 0x118) 1 else s0).goOn h 0 r
    else if x.holds r.line then ((used.bump (pg + 0x100) 1).cacheHit r).goOn h 1 r
    else if x.fills.any (·.req.line == r.line) then ((s0.bump (pg + 0x110) 1).cacheHit r).goOn h 1 r
    else
      let s1 := if r.cache then
          let x1 := s0.slice h
          s0.setSlice h { x1 with fills := x1.fills ++ [{ req := r, merged := [], back := false }] } else s0
      (s1.bump (pg + 0x108) 1).goOn h 0 r

/-- SC_ACCESS (R283): the slice of stack `h` treats its next access. -/
def execScAccess (h : Stack) (s : State) : Result := .next (s.whenLive fun s => s.slAccess h.val)

/-- The way a fill takes: a free one of the partition's ways, else the least recently used of them (R282, R283); none where it has
none. -/
def State.wayFor (s : State) (h p line : Nat) : Option Nat :=
  let ways := bitList 16 (s.fld (pgPart p + 0x100) 47 32)
  let here := (s.slice h).lines.filter (·.set == lineSet line)
  match ways.find? fun w => !(here.any (·.way == w)) with
  | some w => some w
  | none => ((sortBy (fun (a b : CacheLine) => decide (a.used ≤ b.used)) (here.filter fun e => ways.contains e.way)).head?).map (·.way)

/-- A line put into a way of its set; what the way held leaves. -/
def State.putLine (s : State) (h p line : Nat) : State :=
  match s.wayFor h p line with
  | none => s
  | some w =>
    let x := s.slice h
    let u := x.uses + 1
    s.setSlice h { x with uses := u
                          lines := (x.lines.filter fun e => !(e.set == lineSet line && e.way == w) && !(e.line == line)) ++
                            [{ line := line, set := lineSet line, way := w, used := u }] }

/-- The oldest fill of slice `h` whose data have returned completes. -/
def State.fillDone (s : State) (h : Nat) : State :=
  let x := s.slice h
  match indexWhere (fun (f : Fill) => f.back) x.fills with
  | none => s
  | some i => match x.fills[i]? with
    | none => s
    | some f =>
      let s1 := (s.setSlice h { x with fills := dropAt x.fills i }).putLine h f.req.part f.req.line
      f.merged.foldl State.memAnswer (s1.memAnswer f.req)

/-- SC_FILL_COMPLETE (R283). -/
def execScFillComplete (h : Stack) (s : State) : Result := .next (s.whenLive fun s => s.fillDone h.val)

/-! ### Channels (R265, R289, R291) -/

/-- Weight of class `p` of the round robin. -/
def classWeight (p : Nat) : Int := if p = 1 then 8 else if p = 2 then 4 else 1

/-- Credit of class `p`. -/
def ChanState.cur (c : ChanState) (p : Nat) : Int := if p = 1 then c.cur1 else if p = 2 then c.cur2 else c.cur3

/-- Credit of class `p` replaced. -/
def ChanState.setCur (c : ChanState) (p : Nat) (v : Int) : ChanState :=
  if p = 1 then { c with cur1 := v } else if p = 2 then { c with cur2 := v } else { c with cur3 := v }

/-- grant() of R265: the request granted and the controller after it. -/
def ChanState.grant (c : ChanState) : Option (MemReq × ChanState) :=
  match c.q0 with
  | r :: rest => some (r, { c with q0 := rest })
  | [] =>
    let e := [1, 2, 3].filter fun p => !(c.q p).isEmpty
    let total := (e.map classWeight).foldl (· + ·) 0
    let c1 := e.foldl (fun (x : ChanState) p => x.setCur p (x.cur p + classWeight p)) c
    match e with
    | [] => none
    | p0 :: ps =>
      let p := ps.foldl (fun best p => if c1.cur best < c1.cur p then p else best) p0
      match c1.q p with
      | [] => none
      | r :: rest => some (r, (c1.setCur p (c1.cur p - total)).setQ p rest)

/-- Whether grant slot `n` of a channel is used at a thermal level (Table 12.3). -/
def slotUsed (level n : Nat) : Bool :=
  match level with
  | 0 => true | 1 => n % 4 != 3 | 2 => n % 4 == 0 | _ => false

/-- One 64 ns grant slot of channel `c`, whose command was issued `again` more times after command/address parity errors (Table 12.1). -/
def State.grantSlot (s : State) (c again : Nat) : State :=
  let h := c / 32
  let x := s.chan c
  let used := slotUsed (s.fld (pgTherm h + 0x108) 1 0) x.slots
  let x1 := { x with slots := (x.slots + 1) % 4 }
  let s1 := s.setChan c x1
  if !(s.chLive c) || s.relock.contains (c / 512) then s
  else if !used then s1.bump (pgHc h + 0x218) 64
  else match x1.grant with
    | none => s1
    | some (r, x2) =>
      (s1.setChan c (if r.write then x2 else { x2 with service := x2.service ++ [r] })).bump (pgHc h + 0x210) again

/-- HBM_GRANT (R265). -/
def execHbmGrant (c : Chan × Nat) (s : State) : Result := .next (s.whenLive fun s => s.grantSlot c.1.val c.2)

/-- The read in service whose line holds row `row` of channel `c` returns. -/
def State.readBack (s : State) (c row : Nat) (sev : Ecc) : State :=
  let x := s.chan c
  match indexWhere (fun (r : MemReq) => adOff (r.line * 4096) / 4096 == row / 4) x.service with
  | none => s
  | some i => match x.service[i]? with
    | none => s
    | some r =>
      ((s.setChan c { x with service := dropAt x.service i }).rowRead c row sev).cameBack r

/-- HBM_READ_COMPLETE (R291). -/
def execHbmReadComplete (c : Chan) (row : BitVec 22) (sev : Ecc) (s : State) : Result :=
  .next (s.whenLive fun s => s.readBack c.val row.toNat sev)

/-- The patrol scrub reads a row, through its slice (R283): a line the slice holds is not read from HBM. -/
def State.scrubRow (s : State) (c row : Nat) (sev : Ecc) : State :=
  let l := (c * 2 ^ 32 + row * 1024) / 4096
  let s1 := s.readLine l
  if !((s.slice (lineStack l)).holds l) && !((s.slice (lineStack l)).fills.any (·.req.line == l)) then s1.rowRead c row sev else s1

/-- PATROL_SCRUB (R291, R418): the patrol scrub reads a row of a LIVE channel that nothing has quiesced, at P3: while its stack grants slots
and no P0 request waits there. -/
def execPatrolScrub (c : Chan) (row : BitVec 22) (sev : Ecc) (s : State) : Result :=
  .next (s.whenLive fun s =>
    if s.flag (pgArb + 0x100) 1 && s.chLive c.val && decide (row.toNat < chanBytes / 1024) &&
        !(s.maintRun.any fun m => m.channel == some c.val) && s.fld (pgTherm (c.val / 32) + 0x108) 1 0 != 3 &&
        !(s.relock.contains (c.val / 512)) && (s.chan c.val).q0.isEmpty then
      s.scrubRow c.val row.toNat sev else s)

/-! ### Regulators (R359) -/

/-- What a bucket lets go on once refilled: held requests while it has tokens. -/
def drainHeld (tokens : Int) : List Held → Int × List Held × List Held
  | [] => (tokens, [], [])
  | h :: hs =>
    if tokens ≤ 0 then (tokens, [], h :: hs)
    else
      let n : Nat := match h with
        | .mem r => r.len
        | .frame _ f => f.payload.length
      let (t, go, keep) := drainHeld (tokens - n) hs
      (t, h :: go, keep)

/-- One bucket refilled. -/
def State.refillOne (s : State) (kind p i : Nat) : State :=
  let r := pgPart p + 0x140 + 8 * kind
  let b := s.bucket kind p i
  let cap : Int := s.fld r 51 40 * 4096
  let t := b.tokens + s.fld r 63 52 * 64
  let (t1, go, keep) := drainHeld (if cap < t then cap else t) b.held
  go.foldl (fun (u : State) h => u.letGo kind h) (s.setBucket kind p i { b with tokens := t1, held := keep })

/-- The buckets of a kind refilled, by the setting that takes effect now (Table 15.6). -/
def State.refillKind (s0 : State) (p kind : Nat) : State :=
  let s : State := { s0 with regLive := Tab.set (toW (16 * 2 ^ 40 + 0xE * 2 ^ 36)) s0.regLive (8 * kind + p) (toW (s0.reg (pgPart p + 0x140 + 8 * kind))) }
  (List.range 32).foldl (fun (t : State) i => t.refillOne kind p i) s

/-- REGULATOR_REFILL (R359): the 64 ns refill of the buckets of partition `p`. -/
def execRegulatorRefill (dt : Nat) (p : Part) (s : State) : Result :=
  .next ((s.tick dt).whenLive fun s =>
    if s.partOn p.val then (List.range 3).foldl (fun (t : State) k => t.refillKind p.val k) s else s)

/-! ### Temperature (R289, R290) -/

/-- Where a level is entered and left, in 1/16 °C (Table 12.3). -/
def levelEnter (k : Nat) : Int := if k = 1 then 85 * 16 else if k = 2 then 95 * 16 else 105 * 16

/-- The level at temperature `t` coming from level `old`. -/
def nextLevel (old : Nat) (t : Int) : Nat :=
  let inn := fun (k : Nat) => decide (levelEnter k ≤ t) || (decide (k ≤ old) && decide (levelEnter k - 48 ≤ t))
  if inn 3 then 3 else if inn 2 then 2 else if inn 1 then 1 else 0

/-- The 1 ms reading of stack `h`. -/
def State.readTemp (s : State) (h t : Nat) : State :=
  let a := pgTherm h
  let ti := toSigned 16 t
  let old := s.fld (a + 0x108) 1 0
  let new := nextLevel old ti
  let peak := toSigned 16 (s.fld (a + 0x100) 31 16)
  let s1 := (s.setFld (a + 0x100) 15 0 t).setFld (a + 0x100) 31 16 (if peak < ti then t else s.fld (a + 0x100) 31 16)
  let ms := (s.now - Tab.get 0 s.thermSince h) / 1000000
  let s2 := if old = 0 then { s1 with thermSince := Tab.put s1.thermSince h s1.now }
    else { s1.bump (a + 0x108 + 8 * old) ms with thermSince := Tab.put s1.thermSince h (Tab.get 0 s.thermSince h + ms * 1000000) }
  let s3 := (s2.setFlag (a + 0x108) 2 (decide (85 * 16 < ti))).setFld (a + 0x108) 1 0 new
  let s4 := if s3.flag (pgRep h + 0x110) 63 then s3.setFlag (pgRep h + 0x110) 62 (decide (0 < new)) else s3
  if new = old then s4 else s4.faultEv (pgHc h) 0x0604 (fieldAt 59 h + fieldAt 51 new + t % 2 ^ 16) 3

/-- HBM_TEMP_SAMPLE (R289). -/
def execHbmTempSample (dt : Nat) (h : Stack) (t : BitVec 16) (s : State) : Result :=
  .next ((s.tick dt).whenLive fun s => if s.flag (pgPhy h.val + 0x100) 63 then s.readTemp h.val t.toNat else s)

/-! ### Row repair (R294) -/

/-- The entries of a channel in a state of Table 12.9: 0 PENDING, 1 PERMANENT, 2 REPAIRING. -/
def State.fencesIn (s : State) (c st : Nat) : List Nat :=
  (List.range 64).filter fun e => s.fenceValid (c / 32) e && s.fld (fenceReg (c / 32) e 0) 62 61 == st && (s.fenceRow (c / 32) e).1 == c

/-- No section is in flight in a partition whose grant includes channel `c`. -/
def State.noSectionsAt (s : State) (c : Nat) : Bool := s.sections.all fun x => !(s.granted x.part c)

/-- One REPAIRING entry repaired: its bank's spare row takes the buffer; where the bank has none left, the entry is PERMANENT (R293). -/
def State.repairEntry (s : State) (h e : Nat) : State :=
  let (c, row) := s.fenceRow h e
  let b := rowBank c row
  let k := rowKey c row
  if s.spare c b then
    let s1 := s.freeFence h e
    { s1.bumpFld (pgRep h + 0x110) 47 32 1 with
      spareUsed := s1.spareUsed ++ [c * 64 + b], recRepaired := s1.recRepaired.filter (fun x => !(x == k)) ++ [k]
      rowCe := Tab.del s1.rowCe k }
  else
    { s.setFld (fenceReg h e 0) 62 61 1 with
      recPending := s.recPending.filter (fun x => !(x == k)), recPermanent := s.recPermanent.filter (fun x => !(x == k)) ++ [k] }

/-- The running row repair of stack `h` takes its next step: it chooses the next channel that holds a PENDING entry; with that channel
quiesced it begins to repair its entries, which then show REPAIRING, and ends their repair; with no entry left it ends. -/
def State.repairStep (s : State) (h : Nat) : State :=
  match s.maintRun.find? fun m => m.cls == 2 && m.target == h with
  | none => s
  | some m =>
    let upd := fun (t : State) (ph : Nat) =>
      { t with maintRun := t.maintRun.map fun k => if k.cls = 2 ∧ k.target = h then { k with phase := ph } else k }
    if 0 < s.fld (pgTherm h + 0x108) 1 0 then s.setFlag (pgRep h + 0x110) 62 true
    else
      let s0 := s.setFlag (pgRep h + 0x110) 62 false
      if m.phase = 0 then
        match ((List.range 32).map (32 * h + ·)).find? fun c => !(s.fencesIn c 0).isEmpty || !(s.fencesIn c 2).isEmpty with
        | none => (s0.setFlag (pgRep h + 0x110) 63 false).endMaint 2 h 1
        | some c => if s.flag (pgGlobal + 0x928) 63 then s0 else upd s0 (c % 32 + 1)
      else
        let c := 32 * h + m.phase - 1
        if !(s.noSectionsAt c) then s0
        else if (s0.fencesIn c 2).isEmpty then (s0.fencesIn c 0).foldl (fun (t : State) e => t.setFld (fenceReg h e 0) 62 61 2) s0
        else upd ((s0.fencesIn c 2).foldl (fun (t : State) e => t.repairEntry h e) s0) 0

/-- ROW_REPAIR_RUN (R294). -/
def execRowRepairRun (dt : Nat) (h : Stack) (s : State) : Result := .next ((s.tick dt).whenLive fun s => s.repairStep h.val)

/-! ### Map-out (R296..R299) -/

/-- A request to map out channel `c`: a duplicate goes to the arbiter, which drops it; a refused one ends with its RESULT and MO_DONE
(R298). -/
def State.askMapOut (s : State) (c src : Nat) : State :=
  let m : MaintOp := { cls := 1, target := c, src := src }
  if (s.maintRun ++ s.maintQueue).any fun k => k.cls == 1 && k.target == c then s.maintAsk m
  else match s.moRefused c with
    | some r => (s.moShow c r false).event (pgHc (c / 32)) 4
    | none => s.maintAsk m

/-- A request reaches the arbiter with its own checks: a permute is ignored while BUSY is 1 (R346, R298, R419). -/
def State.arbiter (s : State) (m : MaintOp) : State :=
  if m.cls = 1 then s.askMapOut m.target m.src
  else if m.cls = 6 ∧ s.flag (pgGlobal + 0x958) 63 then s
  else s.maintAsk m

/-- A request written by a host: the arbiter is in the primary, so it waits for one (R414; DEDUCED for the
registers outside its page, assumption 183). -/
def State.request (s : State) (m : MaintOp) : State :=
  if s.primary.isNone then { s with maintWait := s.maintWait ++ [m] } else s.arbiter m

/-- The requests that waited for a primary reach the arbiter, after those it had queued (R414). -/
def State.actOnWaiting (s : State) : State :=
  let s1 := s.examineQueue [] s.maintQueue
  s1.maintWait.foldl (fun (t : State) m => t.arbiter m) { s1 with maintWait := [] }

/-- MAP_OUT_REQUEST (R298): a write to HC_MO_CTRL. -/
def execMapOutRequest (acc : Acc) (h : Stack) (w : W64) (s : State) : Result :=
  let a := pgHc h.val + 0x300
  .next (s.hostWrite acc a fun t =>
    let t1 := t.storeReg a w.toNat (accMask acc)
    if acts w.toNat 8 then t1.request { cls := 1, target := 32 * h.val + t1.fld a 4 0, src := acc.port.code } else t1)

/-- REPAIR (R294): a write to REP_CTRL. -/
def execRepair (acc : Acc) (h : Stack) (w : W64) (s : State) : Result :=
  .next (s.hostWrite acc (pgRep h.val + 0x108) fun t =>
    if acts w.toNat 0 then t.request { cls := 2, target := h.val, src := acc.port.code } else t)

/-- The running map-out of channel `c`, where HC_MO_STATUS shows phase `ph`. -/
def State.mapOutAt (s : State) (c ph : Nat) : Bool :=
  (s.maintRun.any fun m => m.cls == 1 && m.target == c && decide (0 < m.phase)) && s.fld (moSt (c / 32)) 62 60 == ph

/-- MAP_OUT_QUIESCED (R297): QUIESCE of the map-out of channel `c` ends, and the channel is FENCED. -/
def execMapOutQuiesced (dt : Nat) (c : Chan) (s : State) : Result :=
  .next ((s.tick dt).whenLive fun s =>
    if s.mapOutAt c.val 1 && s.noSectionsAt c.val then (s.setFld (chReg c.val) 63 62 1).setFld (moSt (c.val / 32)) 62 60 2 else s)

/-- What the on-die ECC reported for rows that copies read: those of `errs` at an address that `read` names (R291, R297). -/
def State.copyErrs (s : State) (read : Nat → Bool) (errs : List (Chan × BitVec 22 × Ecc)) : State :=
  errs.foldl (fun (t : State) e =>
    if read (e.1.val * 2 ^ 32 + e.2.1.toNat * 1024) then t.rowRead e.1.val e.2.1.toNat e.2.2 else t) s

/-- A range of HBM copied, through the slices (R283). -/
def State.copyHbm (s : State) (a b n : Nat) : State :=
  (linesOf b n).foldl State.writeLine ((linesOf a n).foldl State.readLine { s with hbm := s.hbm.write b (s.hbm.read a n) })

/-- Placement word `k` of entry `b` set to this device and address `a`. -/
def State.setPlace (s : State) (b k a : Nat) : State := s.setReg (sdAddr b + 8 * k) (fieldAt 48 s.devId + a % 2 ^ 42)

/-- One entry migrated to `d`: both regions copied, its inactive placement set and staged. -/
def State.migrate (s : State) (b d off : Nat) : State :=
  let a := bits (s.sdPlace b true) 41 0
  let n := s.sdLen b
  let s1 := (s.copyHbm a d n).copyHbm (a + off) (d + off) n
  (s1.setPlace b (2 - s.sdAct b) d).setFlag (sdAddr b) 62 true

/-- SHARDS of R297: the entries `bs` migrated from `d` on; the bytes copied. -/
def State.migrateAll (s : State) (off : Nat) : (bs : List Nat) → (d n : Nat) → State × Nat
  | [], _, n => (s, n)
  | b :: bs, d, n => (s.migrate b d off).migrateAll off bs (d + up4k (s.sdLen b)) (n + 2 * s.sdLen b)

/-- Whether the row at address `x` holds bytes of the range `[a, a + n)`. -/
def rowIn (a n x : Nat) : Bool := decide (a < x + 1024 ∧ x < a + n)

/-- SHARDS and FLIP of the map-out of channel `c`; `errs` is what the reads of its copies reported. -/
def State.moveShards (s0 : State) (c : Nat) (errs : List (Chan × BitVec 22 × Ecc)) : State :=
  let a := moSt (c / 32)
  let (d, off) := s0.moDest (c / 32)
  let bs := s0.migrants c
  let from_ := bs.map fun b => (bits (s0.sdPlace b true) 41 0, s0.sdLen b)
  let s := s0.copyErrs (fun x => from_.any fun z => rowIn z.1 z.2 x || rowIn (z.1 + off) z.2 x) errs
  let s1 := (s.sdListed.filter fun b => !(bs.contains b) && s.placedIn (s.sdPlace b false) c).foldl
    (fun (t : State) b => t.setFlag (sdAddr b) 62 false) s
  let (s2, n) := s1.migrateAll off bs d 0
  let s3 := s2.flipJobs ((bs.map s.sdJob).eraseDups)
  ((s3.setFld a 51 36 bs.length).setFld a 35 0 (n / 2 ^ 20)).setFld a 62 60 4

/-- MAP_OUT_SHARDS_DONE (R297). -/
def execMapOutShardsDone (dt : Nat) (c : Chan × List (Chan × BitVec 22 × Ecc)) (s : State) : Result :=
  .next ((s.tick dt).whenLive fun s => if s.mapOutAt c.1.val 2 then s.moveShards c.1.val c.2 else s)

/-- RESTRIPE of R297: the stowage of Yard `y` from the map over the channels `old` to the map over `new`, through the slices; `errs` is what
the reads reported. -/
def State.restripe (s : State) (y : Nat) (old new : List Nat) (errs : List (Chan × BitVec 22 × Ecc)) : State :=
  let base := s.stowBase y
  let n := ceilDiv (s.stowEnd y) 4096
  let src := fun (i : Nat) => stowAddr old base (i * 4096)
  let dst := fun (i : Nat) => stowAddr new base (i * 4096)
  let s1 := s.copyErrs (fun x => (List.range n).any fun i => rowIn (src i) 4096 x) errs
  (List.range n).foldl (fun (t : State) i =>
    { (t.readLine (src i / 4096)).writeLine (dst i / 4096) with hbm := t.hbm.write (dst i) (s.hbm.read (src i) 4096) }) s1

/-- RESTRIPE and DONE of the map-out of channel `c`. -/
def State.mapOutDone (s : State) (c : Nat) (errs : List (Chan × BitVec 22 × Ecc)) : State :=
  let h := c / 32
  let a := moSt h
  let s1 := match homeYard c with
    | none => s
    | some y => s.restripe y ((homeChans y).filter fun k => k == c || s.chLive k) (s.liveHome y) errs
  let mb := match homeYard c with
    | none => 0
    | some y => s.stowEnd y / 2 ^ 20
  let s2 := ((s1.setFld (chReg c) 63 62 2).setFlag (chReg c) 59 false).dropLines c
  let s3 := ((List.range 64).filter fun e => s2.fenceValid h e && (s2.fenceRow h e).1 == c).foldl (fun (t : State) e => t.freeFence h e) s2
  let s4 := { s3 with recMapped := s3.recMapped ++ [c] }
  let s5 := (((s4.setFld a 35 0 (s4.fld a 35 0 + mb)).setFlag a 63 false).setFld a 62 60 0).setFld a 59 57 1
  ((s5.fault (pgHc h) 0x0602 (hcInfo c 0 0 0)).event (pgHc h) 4).endMaint 1 c 1

/-- MAP_OUT_RESTRIPE_DONE (R297). -/
def execMapOutRestripeDone (dt : Nat) (c : Chan × List (Chan × BitVec 22 × Ecc)) (s : State) : Result :=
  .next ((s.tick dt).whenLive fun s => if s.mapOutAt c.1.val 4 then s.mapOutDone c.1.val c.2 else s)

/-! ### The Shard Directory (R279, R280) -/

/-- A write to word `k` of entry `b`, under R279: where a section of the job of a valid entry is in flight, only STAGED and the inactive
placement's word take it. -/
def State.sdWrite (s : State) (b k w m : Nat) : State :=
  let a := sdAddr b + 8 * k
  let free := !(s.sdValid b) || s.jobIdle (s.sdJob b)
  if free then
    let s1 := s.storeReg a w m
    if k = 0 ∧ bit (maskAnd w m) 60 then s1.setFlag a 60 false else s1
  else if k = 0 then s.storeReg a w (maskAnd m (2 ^ 62))
  else if k = 2 - s.sdAct b then s.storeReg a w m
  else s

/-- SD_ENTRY_WRITE (R279). -/
def execSdEntryWrite (acc : Acc) (b : Fin 131072) (word : Fin 4) (w : W64) (s : State) : Result :=
  .next (s.hostWrite acc (sdAddr b.val + 8 * word.val) fun t => t.sdWrite b.val word.val w.toNat (accMask acc))

/-- FLIP (R280): a write to SD_CTRL; ignored while a flip is pending. -/
def execFlip (acc : Acc) (w : W64) (s : State) : Result :=
  let a := pgGlobal + 0x920
  .next (s.hostWrite acc a fun t =>
    let t1 := t.storeReg a w.toNat (accMask acc)
    if acts w.toNat 0 && !(t1.flag (pgGlobal + 0x928) 63) then
      (t1.setFlag (pgGlobal + 0x928) 63 true).setFld (pgGlobal + 0x928) 59 56 (t1.fld a 7 4)
    else t1)

/-- A map-out that waited for the pending flip now holds start records (R297). -/
def State.moHold (s : State) : State :=
  { s with maintRun := s.maintRun.map fun m => if m.cls = 1 ∧ m.phase = 0 then { m with phase := 1 } else m }

/-- The pending flip takes place, once no section of its job is in flight. -/
def State.doFlip (s : State) : State :=
  let j := s.fld (pgGlobal + 0x928) 59 56
  if s.flag (pgGlobal + 0x928) 63 && s.jobIdle j then ((s.flipJob j).countFlip j).moHold else s

/-- SD_FLIP (R280). -/
def execSdFlip (s : State) : Result := .next (s.whenLive State.doFlip)

/-- STOW_BASE_WRITE (R264): BASE changes only while no image with stowage is loaded in the Yard. -/
def execStowBaseWrite (acc : Acc) (y : Yard) (w : W64) (s : State) : Result :=
  let a := pgYard y.val + 0x188
  .next (s.hostWrite acc a fun t => if (t.stowExtents y.val).isEmpty then t.storeReg a w.toNat (accMask acc) else t)

end Sys2Proof.Machine
end

