-- ==== Sys2Proof/Machine/CollRows.lean ====
section
/-! DEFINITION. Commands of the collective engines (R331, R333, R338, R339, R342), agreements (R340), norms (R345), ABORT (R343) and the permute
(R346..R348). -/
namespace Sys2Proof.Machine

/-! ### Descriptors -/

/-- The waiting descriptor an engine starts next: the jobs take turns (R331). -/
def EngineState.nextWait (x : EngineState) : Option CollWait :=
  (List.range 16).findSome? fun i => x.waiting.find? fun w => w.job == (x.lastJob + 1 + i) % 16

/-- The descriptor a waiting start names, in its image. -/
def State.waitBody (s : State) (d : Nat) (w : CollWait) : Option Nat :=
  (s.imageAt w.part w.rig).bind fun i => (i.colls.find? fun c => c.target == d && c.index == w.index).map (·.body)

/-- A descriptor starts: W and the window buffer for a WIN descriptor of the RED section (R344), its own norm (R345); the frames held for it
go on (R336). -/
def State.startRun (s : State) (d : Nat) (w : CollWait) (body : Nat) : State :=
  let win := dWinFlag body && s.redRun w
  let r : CollRun := { wait := w, body := body, t0 := s.now, win := win, w := if win then s.fld (collReg w.part w.job 8) 63 57 else 1 }
  let r1 := if dFlag body 4 then { r with normLocal := s.localNorm r } else r
  let x := s.engine d
  ((s.dropAsk (askKey (.run d w.index))).setEngine d { x with running := x.running ++ [r1] }).releaseHeld fun f => fJob f == w.job

/-- Engine `d` starts its next waiting descriptor, where fewer than 4 are in flight. -/
def State.descStart (s : State) (d : Nat) : State :=
  let x := s.engine d
  if 4 ≤ x.running.length then s
  else match x.nextWait with
    | none => s
    | some w =>
      let s1 := s.setEngine d { x with waiting := x.waiting.erase w, lastJob := w.job }
      match s1.waitBody d w with
      | none => s1
      | some b => s1.startRun d w b

/-- COLL_DESC_START (R331). -/
def execCollDescStart (d : Die) (s : State) : Result := .next (s.whenLive fun s => s.descStart d.val)

/-- The running descriptor of INDEX `x` on engine `d`. -/
def State.runAt (s : State) (d x : Nat) : Option CollRun := (s.engine d).running.find? (·.wait.index == x)

/-- The norms of a run go on where they can. -/
def State.pushNorm (s : State) (d x : Nat) : State :=
  match s.runAt d x with
  | some r => s.tryNorm d r
  | none => s

/-- The next chunk, or for RING the next step and chunk, of a descriptor is handled where it is ready. -/
def State.chunkReady (s : State) (d x k : Nat) : State :=
  match s.runAt d x with
  | none => s
  | some r =>
    if r.upK ≠ k ∨ s.upDone r then s.pushNorm d x
    else (if dRing r.body then s.ringStep d r else s.treeUp d r).pushNorm d x

/-- COLL_CHUNK_READY (R338, R339). -/
def execCollChunkReady (d : Die) (x : Fin 510) (k : Nat) (s : State) : Result :=
  .next (s.whenLive fun s => s.chunkReady d.val x.val k)

/-- COLL_DESC_COMPLETE (R333, R334). -/
def execCollDescComplete (d : Die) (x : Fin 510) (s : State) : Result :=
  .next (s.whenLive fun s => match s.runAt d.val x.val with
    | some r => if s.runDone d.val r then s.completeRun d.val r else s
    | none => s)

/-- The deadline of a tree descriptor (R342): every child that has delivered no chunk 0 becomes MISSING. A BROADCAST takes no chunks from its
children and has none to miss (DEDUCED, assumption 47). -/
def State.collDeadline (s : State) (d x : Nat) : State :=
  match s.runAt d x with
  | none => s
  | some r =>
    let g := dGroup r.body
    let t := dDeadline r.body * (dLevel r.body + 1) * 1000
    let ch := s.children g
    let late := (r.present ch).filter fun i => !(r.taken.contains (i, 0))
    if dDeadline r.body = 0 ∨ dRing r.body ∨ dOp r.body = 4 ∨ s.now ≤ r.t0 + t ∨ late.isEmpty then s
    else
      let r1 := { r with missing := r.missing ++ late, chunks := r.chunks.filter fun c => c.down || !(late.contains c.slot) }
      let s1 := s.setRun d r1
      (s1.fallback d (collInfo g (slotBits late) x 0 r.wait.job (1 + (r1.present ch).length) r.wait.tag)).tryNorm d r1

/-- COLL_DEADLINE (R342). -/
def execCollDeadline (dt : Nat) (d : Die) (x : Fin 510) (s : State) : Result :=
  .next ((s.tick dt).whenLive fun s => s.collDeadline d.val x.val)

/-! ### Agreements -/

/-- Whether a COLL_CTRL frame has a CODE. -/
def isCtrl (code : Nat) (f : Frame) : Bool := fType f == 7 && fCode f == code

/-- An AGREE_UP taken (R340): late after the instance ended or this node has forwarded; else heard. -/
def State.agreeUp (s : State) (q : Nat) (f : Frame) : State :=
  let perm := fDesc f == 0x1FE
  let g := fGroup f
  match s.slotFrom g (fSrc f) with
  | none => s
  | some i =>
    if !((s.children g).contains i) ∨ (fDesc f ≠ 0x1FE ∧ fDesc f ≠ 0x1FF) then s
    else if s.agreeLate perm (fJob f) g (fTag f) then s.ceLate (q / 4)
    else
      let a := s.agreeAt perm (fJob f) g (fTag f)
      if a.sent then s.ceLate (q / 4)
      else if a.heard.any (·.1 == i) then s
      else
        let t := fTarget f
        let a1 := { a with heard := a.heard ++ [(i, bit t 8, bit t 9, bit t 10)] }
        (s.putAgree a1).tryAgree a1

/-- AGREE_UP (R340). -/
def execAgreeUp (p : PortId) (f : Frame) (s : State) : Result :=
  .next (s.receive p.val f (isCtrl 1) fun t => (t.agreeUp p.val f).freeSlot p.val (fVc f))

/-- An AGREE_DOWN taken from the PARENT (R340): the result; one that comes before this device contributed waits for it. -/
def State.agreeDown (s : State) (q : Nat) (f : Frame) : State :=
  let perm := fDesc f == 0x1FE
  let g := fGroup f
  let up := s.slotFrom g (fSrc f)
  if up.isNone ∨ up ≠ s.parent g ∨ (fDesc f ≠ 0x1FE ∧ fDesc f ≠ 0x1FF) then s
  else if s.agreeLate perm (fJob f) g (fTag f) then s.ceLate (q / 4)
  else
    let a := s.agreeAt perm (fJob f) g (fTag f)
    let t := fTarget f
    let a1 := { a with down := some (bit t 8, bit t 10, bit t 9) }
    (s.putAgree a1).tryAgree a1

/-- AGREE_DOWN (R340). -/
def execAgreeDown (p : PortId) (f : Frame) (s : State) : Result :=
  .next (s.receive p.val f (isCtrl 2) fun t => (t.agreeDown p.val f).freeSlot p.val (fVc f))

/-- AGREE_DEADLINE (R340): T_A of the agreement of a job's gate or permute is looked at. -/
def execAgreeDeadline (dt : Nat) (perm : Bool) (j : JobId) (s : State) : Result :=
  .next ((s.tick dt).whenLive fun s => match s.agrees.find? fun a => a.perm == perm && a.job == j.val && a.own.isSome with
    | some a => s.tryAgree a
    | none => s)

/-- NORM_UP (R345). -/
def execNormUp (p : PortId) (f : Frame) (s : State) : Result := .next (s.receive p.val f (isCtrl 3) fun t => t.deliverFrame p.val f)

/-- NORM_DOWN (R345). -/
def execNormDown (p : PortId) (f : Frame) (s : State) : Result := .next (s.receive p.val f (isCtrl 4) fun t => t.deliverFrame p.val f)

/-! ### The permute (R346..R348) -/

/-- PERM_STATUS PHASE. -/
def State.setPermPhase (s : State) (n : Nat) : State := s.setFld (pgGlobal + 0x958) 62 60 n

/-- This device contributes to the agreement of the permute: AGREE. -/
def State.permContribute (s : State) (r : PermRun) (own : Bool) : State :=
  ({ s.setPermPhase 4 with permute := some { r with contributed := s.now + 1 } }).contribute true s.permJob s.permGroup s.permTag own

/-- ABORT of the permute from a peer: this device contributes 0 at once (R346). -/
def State.permPeerAbort (s : State) (f : Frame) : State :=
  match s.permute with
  | none => s
  | some r =>
    if fJob f ≠ s.permJob ∨ fGroup f ≠ s.permGroup ∨ fTag f ≠ s.permTag ∨ (s.slotFrom (fGroup f) (fSrc f)).isNone then s
    else
      let r1 := { r with lost := true }
      if r.contributed = 0 ∧ 2 ≤ s.permPhase then s.permContribute r1 false else { s with permute := some r1 }

/-- ABORT (R343, R346). -/
def execAbort (p : PortId) (f : Frame) (s : State) : Result :=
  .next (s.receive p.val f (isCtrl 5) fun t =>
    if fDesc f = 0x1FE then (t.permPeerAbort f).freeSlot p.val (fVc f) else t.deliverFrame p.val f)

/-- PERMUTE_REQUEST (R346): a request to the arbiter, ignored while BUSY is 1. -/
def execPermuteRequest (acc : Acc) (w : W64) (s : State) : Result :=
  .next (s.hostWrite acc (pgGlobal + 0x950) fun t =>
    if acts w.toNat 0 ∧ !(t.flag (pgGlobal + 0x958) 63) ∧ t.live then
      t.request { cls := 6, target := t.permJob, src := acc.port.code }
    else t)

/-- Device of a placement word (Table 11.8). -/
def placeDev (w : Nat) : Nat := bits w 62 48

/-- The staged entries of the permute's job, rising. -/
def State.staged (s : State) : List Nat := s.sdListed.filter fun b => s.sdStaged b && s.sdJob b == s.permJob

/-- The active (A) and inactive (I) device of an entry. -/
def State.permDevs (s : State) (b : Nat) : Nat × Nat := (placeDev (s.sdPlace b true), placeDev (s.sdPlace b false))

/-- CHECK of the permute (R346). -/
def State.permCheck (s : State) : Bool :=
  let me := s.devId
  let first := s.fld (pgGlobal + 0x940) 51 35
  let count := s.fld (pgGlobal + 0x940) 34 17
  let mine := s.staged.filter fun b => (s.permDevs b).1 == me || (s.permDevs b).2 == me
  let peerOk := fun (dev : Nat) => dev == me || (match s.slotFrom s.permGroup dev with
    | some i => (s.route s.permGroup i (s.activeSet s.permJob false)).isSome
    | none => false)
  s.staged.all (fun b => decide (first ≤ b ∧ b < first + count)) && mine.all (fun b => peerOk (s.permDevs b).1 && peerOk (s.permDevs b).2) &&
    !(s.permOff == 0) && mine.all fun b => decide (s.sdLen b ≤ s.permOff)

/-- The bytes of chunk `k` of a block of LEN `n` at `a`, padded to the 4,096 bytes of a COLL frame (assumption 36). -/
def State.blockChunk (s : State) (a n k : Nat) : List Byte × State :=
  let len := min 4096 (n - k * 4096)
  let (bs, s1) := s.hbmRead s.permUser (a + k * 4096) len
  (bs ++ leBytes (4096 - len) 0, s1)

/-- One region of block `b` sent to peer slot `i`. -/
def State.sendRegion (s : State) (b i region : Nat) : State :=
  let n := s.sdLen b
  let a := bits (s.sdPlace b true) 41 0 + region * s.permOff
  let g := s.permGroup
  let d := match s.route g i (s.activeSet s.permJob false) with
    | some (q, _) => q / 4
    | none => 0
  (List.range (ceilDiv n 4096)).foldl (fun (t : State) k =>
    let (bs, t1) := t.blockChunk a n k
    (t1.sendPeer i { type := 3, last := false, ph := 0, set := 0, vc := t1.groupVc g, dst := 0, job := t1.permJob, group := g, tag := t1.permTag
                     target := b + fieldAt 17 region + fieldAt 18 k, payload := bs } none false).bump (ceReg d 0x110) 4096) s

/-- One region of block `b` copied on this device. -/
def State.copyRegion (s : State) (b region : Nat) : State :=
  let (bs, s1) := s.hbmRead s.permUser (bits (s.sdPlace b true) 41 0 + region * s.permOff) (s.sdLen b)
  s1.hbmWrite s.permUser (bits (s.sdPlace b false) 41 0 + region * s.permOff) bs

/-- MOVE of one block whose active device is this one. -/
def State.moveBlock (s : State) (b : Nat) : State :=
  let dev := (s.permDevs b).2
  let s1 :=
    if dev = s.devId then (s.copyRegion b 0).copyRegion b 1
    else match s.slotFrom s.permGroup dev with
      | some i => (s.sendRegion b i 0).sendRegion b i 1
      | none => s
  s1.setFld (pgGlobal + 0x958) 52 35 (s1.fld (pgGlobal + 0x958) 52 35 + 1)

/-- CHECK and MOVE begin (R346): what this device expects, and its own blocks in ascending order. -/
def State.permStart (s : State) (r : PermRun) : State :=
  let s1 := s.setPermPhase 2
  if r.lost then s1.permContribute r false
  else if !s1.permCheck then s1.permContribute { r with checkOk := false } false
  else
    let me := s1.devId
    let bs := sortBy (fun (a b : Nat) => decide (a ≤ b)) s1.staged
    let expect := (bs.filter fun b => (s1.permDevs b).2 == me && !((s1.permDevs b).1 == me) && decide (0 < s1.sdLen b)).map fun b =>
      (b, 2 * ceilDiv (s1.sdLen b) 4096)
    let s2 := { s1.setPermPhase 3 with permute := some { r with expect := expect } }
    ((bs.filter fun b => (s2.permDevs b).1 == me).foldl State.moveBlock s2).releaseHeld fun f => s2.permFrame f || permOnly f

/-- PERMUTE_WAIT_DONE (R346). -/
def execPermuteWaitDone (s : State) : Result :=
  .next (s.whenLive fun s => match s.permute with
    | none => s
    | some r =>
      let j := s.permJob
      if s.permPhase ≠ 1 ∨ !(s.seqQuiet (s.partOf j) j) ∨ !(s.jobIdle j) ∨ s.flag (pgGlobal + 0x928) 63 then s else s.permStart r)

/-- The ports that still hold a frame of the permute, and whether a regulator does. -/
def State.permUnsent (s : State) : List Nat × Bool :=
  let mine := fun (f : TxFrame) => f.type == 3 && f.job == s.permJob && f.group == s.permGroup && f.tag == s.permTag
  ((List.range 32).filter fun q => (s.port q).replay.any (fun e => mine e.frame) || (s.port q).queues.any fun e => e.2.any mine,
   s.buckets.any fun b => b.2.held.any fun h => match h with
     | .frame _ f => mine f
     | .mem _ => false)

/-- MOVE ends: everything acknowledged and received contributes 1; frames that wait on a port that is lost contribute 0. -/
def State.permMoved (s : State) (r : PermRun) : State :=
  let (qs, reg) := s.permUnsent
  if r.lost || qs.any (fun q => !(s.portUp q)) then s.permContribute { r with lost := true } false
  else if !qs.isEmpty || reg || !r.expect.isEmpty then s
  else s.permContribute r true

/-- PERMUTE_MOVE_DONE (R346). -/
def execPermuteMoveDone (s : State) : Result :=
  .next (s.whenLive fun s => match s.permute with
    | some r => if s.permPhase = 3 then s.permMoved r else s
    | none => s)

/-- No result within 2 × DEADLINE_MS of contributing (R348): no flip, PERMUTE_ABORT with cause 5, and the sequencer in HELD. -/
def State.permNoResult (s : State) (r : PermRun) : State :=
  let j := s.permJob
  let p := s.partOf j
  if r.contributed = 0 ∨ s.now + 1 ≤ r.contributed + 2 * (s.fld (pgGlobal + 0x948) 15 0 * 1000000) then s
  else
    let s1 := { s with agreeDone := Tab.put s.agreeDone (agreeKey true j s.permGroup) s.permTag }.permAbort 5
    if s1.planOn p j then (s1.setSeq p j 7).refreshHeld p j else s1

/-- PERMUTE_NO_RESULT (R348). -/
def execPermuteNoResult (dt : Nat) (s : State) : Result :=
  .next ((s.tick dt).whenLive fun s => match s.permute with
    | some r => s.permNoResult r
    | none => s)

end Sys2Proof.Machine
end

