-- ==== Sys2Proof/Machine/Startup.lean ====
section
/-! DEFINITION. Start-up, resets, oscillators and time: the meanings of the commands of "Start-up, Self-test and Reset" and
"Clockless Timing". -/
namespace Sys2Proof.Machine

/-! ### Stages (R426..R431) -/

/-- POWER_ON: 54 V is applied to a module that is off; it cold-starts (R403, R426, R433). -/
def execPowerOn (s : State) : Result :=
  .next (if s.stage = 0 then s.coldReset 1 0 else s)

/-- HOUSEKEEPING_DONE: stage 1 ends. GLB_TIME starts at 0, PWR_OK rises, every oscillator not borrowed reads PRESENT, and both
Mastheads boot (R426, R427); a failure stops the device with FAIL cause 4. An oscillator is taken to be there when HOUSEKEEPING ends
(DESIGN CHOICE, assumption 186). -/
def execHousekeepingDone (dt : Nat) (good : Bool) (s : State) : Result :=
  if s.stage ≠ 1 then .next s
  else
    let s1 := s.tick dt
    if !good then .next (s1.failStart 4)
    else
      let s2 := s1.setFld (pgGlobal + 0x900) 7 0 (0xFF - s1.fld (pgGlobal + 0x900) 23 16)
      let s3 := (s2.setRole false 1).setRole true 1
      .next { (s3.endStage 1 2).setReg (pgGlobal + 0x108) 0 with timeOn := true, pwrOk := true }

/-- One Masthead after boot: its bank, its version and its role (R428). -/
def State.bootMast (s : State) (m : Bool) (o : BootOutcome) : State :=
  let active := if m then s.bankB else s.bankA
  match o with
  | .active => s.useBank m active
  | .fallback => s.useBank m (!active)
  | .failed => s.setRole m 4

/-- BOOT_DONE: stage 2 ends. The latch goes to A, or to B if A failed (R410); the retired lists are merged (R26); on a cold start the
channels recorded as mapped out read MAPPED_OUT (R300). If both Mastheads failed, FAIL cause 2 and FAULT_N (R428). -/
def execBootDone (dt : Nat) (a b : BootOutcome) (s : State) : Result :=
  if s.stage ≠ 2 then .next s
  else
    let s1 := ((s.tick dt).bootMast false a).bootMast true b
    if a = .failed ∧ b = .failed then .next ((s1.failStart 2).setFlag (pgBare + 0x100) 62 true)
    else
      let prim : Bool := a == .failed
      let s2 := s1.setRole prim 3
      let s3 := if (if prim then a else b) = .failed then s2 else s2.setRole (!prim) 2
      let union := s3.retiredA ++ s3.retiredB.filter fun p => !(s3.retiredA.contains p)
      let s4 := if s3.resetType ≤ 2 then s3.recMapped.foldl (fun (t : State) c => t.setFld (chReg c) 63 62 2) s3 else s3
      .next { s4.endStage 2 3 with
        latch := some (if prim then 1 else 0), lastLatch := if prim then 1 else 0, latchNs := 0, beatNs := 0,
        shroudLost := false, retiredA := union, retiredB := union }

/-- The channels of a stack that are not mapped out take state `st`. -/
def State.setChannels (s : State) (h st : Nat) : State :=
  (List.range 32).foldl (fun (t : State) i =>
    if t.chState (32 * h + i) = 2 then t else t.setFld (chReg (32 * h + i)) 63 62 st) s

/-- SELFTEST_DONE: stage 3 ends (R429). A wafer fault is FAIL cause 1, no enabled Yard FAIL cause 3. The map is built, failed Stay
dies and the stacks of failed slices are out, and every SRAM is left undefined. -/
def execSelftestDone (dt : Nat) (r : SelfTest) (s : State) : Result :=
  if s.stage ≠ 3 then .next s
  else
    let s1 := s.tick dt
    if r.wafer then .next (s1.failStart 1)
    else
      let s2 := ({ s1.scrambleSram with stayAbsent := r.stays.toNat }).buildMap r
      if (List.range 64).all fun y => !(s2.enabled y) then .next (s2.failStart 3)
      else
        let s3 := (List.range 32).foldl (fun (t : State) h => t.setChannels h (if r.slices.getLsbD h then 3 else 0)) s2
        .next (s3.endStage 3 4)

/-- A stack after training (R288, R430): one that a failed slice has taken out of service stays out, and a MAPPED_OUT channel is not trained. -/
def State.trainStack (s : State) (bad : List StackTest) (h : Nat) : State :=
  if (List.range 32).all fun i => !(s.chLive (32 * h + i)) then s
  else
    let r := bad.find? fun x => x.h.val == h
    let out := ((List.range 32).map fun i => fieldAt i (b2n (s.chState (32 * h + i) == 2))).foldl (· + ·) 0
    let ok := maskAnd ((r.map (·.chOk.toNat)).getD 0xFFFF_FFFF) (0xFFFF_FFFF - out)
    let phy := (r.map (·.phy)).getD true
    if !phy then s.setChannels h 3
    else
      let s1 := s.setReg (pgPhy h + 0x100) (fieldAt 63 1 + fieldAt 62 1 + fieldAt 32 ((r.map (·.repairs.toNat)).getD 0) + ok)
      (List.range 32).foldl (fun (t : State) i =>
        if t.chState (32 * h + i) = 2 ∨ bit ok i then t else t.setFld (chReg (32 * h + i)) 63 62 3) s1

/-- HBM_TRAIN_DONE: stage 4 ends (R430). On a cold start every channel's contents are undefined; every port with ENABLE = 1 then
trains, but one of an absent Stay die stays DOWN with cause 7 (R22, R426). -/
def execHbmTrainDone (dt : Nat) (bad : List StackTest) (s : State) : Result :=
  if s.stage ≠ 4 then .next s
  else
    let s1 := (List.range 32).foldl (fun (t : State) h => t.trainStack bad h) (s.tick dt)
    let s2 := if s1.resetType ≤ 2 then
        let (e, t) := s1.fresh
        { t with hbm := Mem.undefinedBy e }
      else s1
    let s3 := (List.range 32).foldl (fun (t : State) q =>
      if bit t.stayAbsent (q / 4) then
        (t.setFld (pgPort q + 0x108) 58 55 7).faultEv (pgPort q) 0x0702 (fieldAt 59 q + fieldAt 55 7) 1
      else if t.flag (pgPort q + 0x100) 0 then t.setFld (pgPort q + 0x108) 63 61 1
      else t.setFld (pgPort q + 0x108) 58 55 6) s2
    .next (s3.endStage 4 5)

/-- LINKS_DONE: stage 5 ends, once no port trains. -/
def execLinksDone (dt : Nat) (s : State) : Result :=
  if s.stage ≠ 5 then .next s
  else
    let s1 := s.tick dt
    if (List.range 32).any fun q => s1.portState q == 1 then .next s1 else .next (s1.endStage 5 6)

/-- READY: stage 6 ends (R431), once no port trains. On a cold start the fence entries are rebuilt (R300); each vacant logical number reports
YARD_RETIRED with cause 1 (R24, R458). -/
def execReady (dt : Nat) (s : State) : Result :=
  if s.stage ≠ 6 ∨ s.latch = none then .next s
  else
    let s1 := s.tick dt
    if (List.range 32).any fun q => s1.portState q == 1 then .next s1
    else
    let s2 := if s1.resetType ≤ 2 then s1.rebuildFence else s1
    let s3 := (List.range 64).foldl (fun (t : State) y => if t.enabled y then t else t.yardRetired y 0x7F 0x7F 1 0) s2
    let s4 := (s3.endStage 6 7).setFld (pgBare + 0x110) 31 0 (s3.resetNs / 1000000)
    .next ((s4.setFlag (pgBare + 0x100) 63 true).event pgBare 0)

/-! ### Resets (R433..R437) -/

/-- COLD: a BR_RESET write. -/
def execCold (acc : Acc) (w : W64) (s : State) : Result :=
  .next (s.hostWrite acc (pgBare + 0x108) fun t => t.brReset w.toNat acc.port.code 0)

/-- WARM: a BR_RESET write. -/
def execWarm (acc : Acc) (w : W64) (s : State) : Result :=
  .next (s.hostWrite acc (pgBare + 0x108) fun t => t.brReset w.toNat acc.port.code 0)

/-- PART_RST: a BR_RESET write. -/
def execPartRst (acc : Acc) (w : W64) (ms : Nat) (s : State) : Result :=
  .next (s.hostWrite acc (pgBare + 0x108) fun t => t.brReset w.toNat acc.port.code ms)

/-- YARD_RST: a BR_RESET write. -/
def execYardRst (acc : Acc) (w : W64) (ms : Nat) (s : State) : Result :=
  .next (s.hostWrite acc (pgBare + 0x108) fun t => t.brReset w.toNat acc.port.code ms)

/-! ### Oscillators (R44..R46, Table 2.5) -/

/-- The two oscillators of the pair of oscillator `i`. -/
def partner (i : Nat) : Nat := if i % 2 = 0 then i + 1 else i - 1

/-- A host port is reset or its link goes down (R380): its outstanding reads end, its configuration space, MSI-X table and HP_APERTURE are
reset, its semaphores and pages freed. -/
def State.hostPortGone (s : State) (b : Bool) : State :=
  let code := if b then 2 else 1
  let s1 := (List.range 32).foldl (fun (t : State) i =>
    if t.fld (pgGlobal + 0x200 + 8 * i) 1 0 = code then
      { t.setReg (pgGlobal + 0x200 + 8 * i) 0 with semSince := Tab.del t.semSince i } else t) s
  let s2 := { s1 with
    regs := (s1.regs.filter fun e => !(decide (pgMsix b ≤ e.1 ∧ e.1 < pgMsix b + 0x2000)) && !(e.1 == pgHost b + 0x108) &&
      !(e.1 == pgHost b + 0x110) &&
      !(inPage e.1 && e.1 % 0x1000 == 0x048 && e.2.toNat % 4 == code)) }
  let s3 := { s2 with barReads := s2.barReads.filter fun e => !(e.2.port.isB == b) }
  if b then { s3 with hostMsixB := false, hostCfgB := {} } else { s3 with hostMsixA := false, hostCfgA := {} }

/-- The link of a host port falls. -/
def State.hostLinkDown (s : State) (b : Bool) : State :=
  if s.linkUp b then ((s.hostPortGone b).setFld (pgHost b + 0x100) 63 54 0).event (pgHost b) 1 else s.hostPortGone b

/-- The loads of oscillator `i` move to its partner (Table 2.5): a host port enters Recovery, the 16 ports of a half retrain (Table 1.9), a memory
half's stacks relock. -/
def State.loseOne (s : State) (i : Nat) : State :=
  match i with
  | 0 => s.bump (pgHost false + 0x140) 1
  | 1 => s.bump (pgHost true + 0x140) 1
  | 2 => (List.range 32).foldl (fun (t : State) q =>
      if (q < 4 ∨ 20 ≤ q) ∧ 1 ≤ t.portState q then t.retrain q 5 else t) s
  | 3 => (List.range 32).foldl (fun (t : State) q =>
      if 4 ≤ q ∧ q < 20 ∧ 1 ≤ t.portState q then t.retrain q 5 else t) s
  | 4 => (List.range 16).foldl (fun (t : State) h => t.setFlag (pgPhy h + 0x100) 62 false) { s with relock := s.relock ++ [0] }
  | 5 => (List.range 16).foldl (fun (t : State) h => t.setFlag (pgPhy (16 + h) + 0x100) 62 false) { s with relock := s.relock ++ [1] }
  | _ => s

/-- Both Mastheads are lost (R415). The Bare page has the lower TYPE, so its fault is logged before those of the ports (R450). -/
def State.losesBoth (s : State) : State :=
  let s1 := (s.faultEv pgBare 0x0A03 (fieldAt 62 (s.lastLatch.val + 1)) 4).safeStop 0x0A03
  ({ s1 with bothLost := true, latch := none }.setRole false 0).setRole true 0

/-- Both oscillators of the pair of `i` are lost (R45, Table 2.5). -/
def State.loseBoth (s0 : State) (i : Nat) : State :=
  let s := { s0 with oscOut := s0.oscOut ++ [i / 2] }
  match i / 2 with
  | 0 => (s.hostLinkDown false).hostLinkDown true
  | 1 => (List.range 32).foldl (fun (t : State) q => if t.portState q = 0 then t else t.portLost q 5) s
  | 2 =>
    let (e, s1) := s.fresh
    { s1 with hbm := Mem.undefinedBy e, relock := [0, 1] }
  | _ => s0.losesBoth

/-- REFCLK_LOST (R44, R45): LOST and BORROW, PRESENT, the event REFCLK, and the effects of Table 2.5. BORROW of the second oscillator of a
pair stays 0 where both count as lost (DESIGN CHOICE, assumption 188). -/
def execRefclkLost (i : Fin 8) (s : State) : Result :=
  let a := pgGlobal + 0x900
  let q := partner i.val
  let s1 := (s.setFlag a i.val false).setFlag a (8 + i.val) true
  if !(s.flag a i.val) then .next s
  else if s.flag a (16 + q) then
    -- the partner's loads run on this oscillator: both count as lost
    .next (((s1.setFlag a (8 + q) true).event pgGlobal 0).loseBoth i.val)
  else if s.flag a (16 + i.val) then .next (s1.event pgGlobal 0)
  else if !(s.flag a q) then .next ((s1.event pgGlobal 0).loseBoth i.val)
  else .next (((s1.setFlag a (16 + i.val) true).event pgGlobal 0).loseOne i.val)

/-- REFCLK_RECOVERED (R45, R46): PRESENT; the loads stay on the partner. The loads that an oscillator of a lost host or link pair carries run
again when it returns; the memory pair stays lost until a cold reset (Table 2.5; DEDUCED, assumption 165). -/
def execRefclkRecovered (i : Fin 8) (s : State) : Result :=
  let s1 := s.setFlag (pgGlobal + 0x900) i.val true
  .next (if i.val < 4 ∧ !(s.flag (pgGlobal + 0x900) (16 + i.val)) then
    { s1 with oscOut := s1.oscOut.filter fun k => !(k == i.val / 2) } else s1)

/-- PHY_RELOCK_DONE (Table 2.5): the PHYs of a memory half have relocked on the partner and traffic resumes; with both oscillators of
the pair lost it does not. -/
def execPhyRelockDone (east : Fin 2) (s : State) : Result :=
  if !(s.relock.contains east.val) || s.oscOut.contains 2 then .next s
  else .next ((List.range 16).foldl (fun (t : State) h =>
      let k := 16 * east.val + h
      if t.flag (pgPhy k + 0x100) 63 then t.setFlag (pgPhy k + 0x100) 62 true else t)
    { s with relock := s.relock.filter fun k => !(k == east.val) })

/-! ### Sensors (R48, R49) -/

/-- The slowest active Yard: the lowest RATE, the lower index among equals. -/
def slowest (s : State) : Option (Nat × Nat) :=
  (List.range 64).foldl (fun (best : Option (Nat × Nat)) y =>
    let r := s.fld (pgYard y + 0x110) 15 0
    if r = 0 ∨ !(s.enabled y) then best
    else match best with
      | some (_, m) => if r < m then some (y, r) else best
      | none => some (y, r)) none

/-- DEV_SLOW (Table 2.11). -/
def State.setSlow (s : State) : State :=
  s.setReg (pgGlobal + 0x908) (match slowest s with
    | some (y, r) => fieldAt 23 1 + fieldAt 16 y + r
    | none => 0)

/-- YD_SENSE_UPDATE (R48): YD_SENSE and RATE of each Yard named, and DEV_SLOW. -/
def execYdSenseUpdate (dt : Nat) (xs : List YardSense) (s : State) : Result :=
  let one := fun (t : State) (x : YardSense) =>
    if t.enabled x.y.val then
      (t.setReg (pgYard x.y.val + 0x100) (fieldAt 32 x.tj.toNat + fieldAt 16 x.baseMv.toNat + x.muMv.toNat)).setFld
        (pgYard x.y.val + 0x110) 15 0 x.rate.toNat
    else t
  let heat := fun (t : State) (x : YardSense) =>
    if !(t.enabled x.y.val) then t else if toSigned 16 x.tj.toNat < 90 * 16 then t.coolDie x.y.val else t.warmDie x.y.val
  .next (xs.foldl heat (xs.foldl one (s.tick dt)).setSlow)

/-! ### TSYNC (R432) -/

/-- MODE of BR_TSYNC_CFG. -/
def State.tsyncMode (s : State) : Nat := s.fld (pgBare + 0x180) 63 62

/-- The distance of `t` from the nearest multiple of a million plus the delay, signed. -/
def tsyncErr (t delay : Nat) : Int :=
  let m : Int := 1000000
  let d : Int := ((t : Int) - delay + 500000) % m
  d - 500000

/-- TSYNC_EDGE (R432): a rising edge on TSYNC_IN in FOLLOW mode. -/
def execTsyncEdge (dt : Nat) (s : State) : Result :=
  let s1 := { s.tick dt with tsyncNs := 0 }
  if s1.tsyncMode ≠ 2 then .next s1
  else
    let delay := s1.fld (pgBare + 0x180) 47 32
    let e := tsyncErr s1.now delay
    let st := pgBare + 0x198
    let s2 := s1.setFld st 31 0 (ofSigned 32 e)
    if s1.flag st 62 then
      let s3 := s2.setReg (pgGlobal + 0x108) ((s2.reg (pgBare + 0x188) + delay) % 2 ^ 64)
      .next { (s3.setFlag st 62 false).setFlag st 63 false with tsyncGood := 0, slewLeft := 0 }
    else if 100000 < e ∨ e < -100000 then
      .next ({ s2.setFlag st 63 false with tsyncGood := 0 }.event pgBare 3)
    else
      let good := if -50 ≤ e ∧ e ≤ 50 then min 8 (s2.tsyncGood + 1) else 0
      .next { s2.setFlag st 63 (good == 8) with tsyncGood := good, slewLeft := -e }

/-- TSYNC_TIMEOUT (R432): no edge for 2 ms in FOLLOW mode: LOCKED falls and TSYNC_LOST is raised. -/
def execTsyncTimeout (dt : Nat) (s : State) : Result :=
  let s1 := s.tick dt
  if s1.tsyncMode ≠ 2 ∨ s1.tsyncNs < 2000000 then .next s1
  else .next ({ s1.setFlag (pgBare + 0x198) 63 false with tsyncGood := 0, tsyncNs := 0, slewLeft := 0 }.event pgBare 3)

/-- TSYNC_PULSE (R432): in MASTER and FOLLOW modes TSYNC_OUT pulses when GLB_TIME passes a multiple of 1,000,000. -/
def execTsyncPulse (dt : Nat) (s : State) : Result :=
  let s1 := s.tick dt
  if (s1.tsyncMode = 1 ∨ s1.tsyncMode = 2) ∧ s.now / 1000000 < s1.now / 1000000 then .next (s1.emit .pulse) else .next s1

/-- ARM (R432): a write to BR_TSYNC_CTRL. -/
def execArm (acc : Acc) (w : W64) (s : State) : Result :=
  .next (s.hostWrite acc (pgBare + 0x190) fun t => if acts w.toNat 0 then t.setFlag (pgBare + 0x198) 62 true else t)

end Sys2Proof.Machine
end

