-- ==== Sys2Proof/Machine/TrainStep.lean ====
section
/-! DEFINITION. Commands of the step plan (R203, R211), of versions and phases (R221, R223, R225, R227) and of the numerics registers (R238,
R243, R256). -/
namespace Sys2Proof.Machine

/-- A host write to register `a` of the per-job registers of partition `p`: one of a job that does not run there is ignored (R211, R227,
R256, R349). -/
def State.jobWrite (s : State) (acc : Acc) (p j a : Nat) (f : State → State) : State :=
  s.hostWrite acc a fun t => if (t.jobsOf p).contains j then f t else t

/-! ### The step plan -/

/-- What is missing of a job's agreement: the children not heard and the contributions counted at this device. -/
def State.agreeMissing (s : State) (j g : Nat) : List Nat × Nat :=
  let heard := match s.agrees.find? fun a => !a.perm && a.job == j with
    | some a => a.heard.map fun (h : Nat × Bool × Bool × Bool) => h.1
    | none => []
  ((s.children g).filter fun i => !(heard.contains i), 1 + heard.length)

/-- GATE_NO_RESULT (R203): no result within 2 × GATE_DEADLINE_US of the end of the PIPE section. The step closes as skipped, and the
job enters HELD. -/
def State.gateNoResult (s : State) (p j : Nat) : State :=
  let g := s.fld (stepReg p j 8) 47 40
  let limit := Tab.get 0 s.pipeEnd j + 2 * (s.fld (stepReg p j 8) 63 48 * 1000)
  if s.seqState p j ≠ 2 ∨ g = 0xFF ∨ s.now ≤ limit then s
  else
    let tag := Tab.get 0 s.pipeTag j
    let (miss, cnt) := s.agreeMissing j g
    let s1 := s.fallback (s.groupDie g) (collInfo g (slotBits miss) 0x1FF 0 j cnt tag)
    let s2 := { s1 with agrees := s1.agrees.filter fun a => a.perm || !(a.job == j), agreeDone := Tab.put s1.agreeDone (agreeKey false j g) tag }
    s2.gateResult p j false (if s2.count (stepReg p j 0x18) = 0 then 3 else 1) true

/-- GATE_NO_RESULT. -/
def execGateNoResult (dt : Nat) (p : Part) (j : JobId) (s : State) : Result :=
  .next ((s.tick dt).whenLive fun s => s.gateNoResult p.val j.val)

/-- RESYNC (Table 8.9): leave HELD for IDLE; ignored in other states. -/
def execResync (acc : Acc) (p : Part) (j : JobId) (w : W64) (s : State) : Result :=
  .next (s.jobWrite acc p.val j.val (stepReg p.val j.val 0x28) fun t =>
    if acts w.toNat 0 ∧ t.seqState p.val j.val = 7 then (t.setSeq p.val j.val 0).refreshHeld p.val j.val else t)

/-- STEP_PLAN_WRITE (R211): taken only while STATE is IDLE or HELD; a write that clears EN sets STATE to IDLE, and SKIP_CAUSE reads 0 from
when EN is set (Table 8.7). -/
def execStepPlanWrite (acc : Acc) (p : Part) (j : JobId) (cfg : Bool) (w : W64) (s : State) : Result :=
  let a := stepReg p.val j.val (if cfg then 8 else 0)
  .next (s.jobWrite acc p.val j.val a fun t =>
    if t.seqState p.val j.val ≠ 0 ∧ t.seqState p.val j.val ≠ 7 then t
    else
      let t1 := t.storeReg a w.toNat (accMask acc)
      let t2 := if !cfg && !(t1.planOn p.val j.val) then t1.setSeq p.val j.val 0 else t1
      let t3 := if !cfg && t1.planOn p.val j.val && !(t.planOn p.val j.val) then t2.setFld (stepReg p.val j.val 0x10) 55 54 0 else t2
      t3.refreshHeld p.val j.val)

/-! ### Phases -/

/-- The phase logic of a job in DRAINING looks at the sections in flight (R223, R324). -/
def State.phaseDrained (s : State) (p j : Nat) : State :=
  let target := s.phTarget p j
  if s.phState p j ≠ 1 ∨ (s.sectionsOf j).any (fun c => c.phase != 0 && c.phase != target) then s
  else if s.phaseGroup p j = 0xFF then s.settle p j
  else
    let s1 := s.setFld (phReg p j 0x10) 59 58 2
    { s1 with epochs := Tab.put s1.epochs j ((Tab.get 0 s1.epochs j + 1) % 65536), phaseT0 := Tab.put s1.phaseT0 j s1.now }.tryPhase p j

/-- PHASE_DRAINED. -/
def execPhaseDrained (p : Part) (j : JobId) (s : State) : Result := .next (s.whenLive fun s => s.phaseDrained p.val j.val)

/-- EXCHANGING has outlasted SWITCH_DEADLINE_US: DEADLINE_FALLBACK and STUCK. DESC of ERR_INFO is not given for a phase exchange (a free
value). -/
def State.phaseDeadline (s : State) (p j : Nat) : State :=
  let g := s.phaseGroup p j
  if s.phState p j ≠ 2 ∨ s.now ≤ Tab.get 0 s.phaseT0 j + s.fld (phReg p j 8) 31 16 * 1000 then s
  else
    let heard := (Tab.get [] s.phaseHeard j).filter fun h => h.target == s.phTarget p j && h.epoch == s.epoch j
    let ch := s.children g
    let miss := ch.filter fun i => !(heard.any fun h => h.slot == i)
    let (n, s1) := s.fresh
    (s1.fallback (s1.groupDie g)
      (collInfo g (slotBits miss) ((Config.freeWord n).toNat % 512) 0 j (1 + (ch.length - miss.length)) (s1.epoch j))).setFld
      (phReg p j 0x10) 59 58 3

/-- PHASE_SWITCH_DEADLINE (R223). -/
def execPhaseSwitchDeadline (dt : Nat) (p : Part) (j : JobId) (s : State) : Result :=
  .next ((s.tick dt).whenLive fun s => s.phaseDeadline p.val j.val)

/-- A write to PT_PHASE_CTRL (R225): in STUCK, RETRY sends PHASE again with a fresh deadline, and FORCE settles on TARGET. RETRY acts first
where both are written (DESIGN CHOICE, assumption 42). -/
def State.phaseCtrl (s : State) (acc : Acc) (p j : Nat) (w : W64) : State :=
  s.jobWrite acc p j (phReg p j 0x18) fun t =>
    if t.phState p j ≠ 3 then t
    else if acts w.toNat 0 then
      let t1 := t.setFld (phReg p j 0x10) 59 58 2
      { t1 with phaseT0 := Tab.put t1.phaseT0 j t1.now }.tryPhase p j
    else if acts w.toNat 1 then t.settle p j
    else t

/-- RETRY (R225). -/
def execRetry (acc : Acc) (p : Part) (j : JobId) (w : W64) (s : State) : Result := .next (s.phaseCtrl acc p.val j.val w)

/-- FORCE (R225). -/
def execForce (acc : Acc) (p : Part) (j : JobId) (w : W64) (s : State) : Result := .next (s.phaseCtrl acc p.val j.val w)

/-- PHASE_CFG_WRITE (R227): taken only while STATE is SETTLED and HELD is 0; PHASE reads NONE from when EN is set (Table 9.7). -/
def execPhaseCfgWrite (acc : Acc) (p : Part) (j : JobId) (w : W64) (s : State) : Result :=
  let a := phReg p.val j.val 8
  .next (s.jobWrite acc p.val j.val a fun t =>
    if t.phState p.val j.val ≠ 0 ∨ t.fld (phReg p.val j.val 0x10) 56 54 ≠ 0 then t
    else
      let t1 := t.storeReg a w.toNat (accMask acc)
      if t1.phaseOn p.val j.val && !(t.phaseOn p.val j.val) then t1.setFld (phReg p.val j.val 0x10) 63 62 0 else t1)

/-- WVER_WRITE (R221): CUR is taken only while the job's sequencer is IDLE or HELD and no section of the job or of its followers is in
flight; FOLLOW and SRC at any time. -/
def execWverWrite (acc : Acc) (p : Part) (j : JobId) (w : W64) (s : State) : Result :=
  let a := phReg p.val j.val 0
  .next (s.jobWrite acc p.val j.val a fun t =>
    let quiet := (t.seqState p.val j.val == 0 || t.seqState p.val j.val == 7) && t.jobIdle j.val && (t.followers p.val j.val).all t.jobIdle
    let m := if quiet then accMask acc else maskAnd (accMask acc) (2 ^ 64 - 2 ^ 32)
    (t.storeReg a w.toNat m).refreshAll p.val)

/-! ### Numerics -/

/-- LNT_WRITE (R238): a write to an entry in use is taken only while its job's sequencer is IDLE or HELD, or the job has no step plan, and no
section of the job is in flight. ECC_ERR is W1C. -/
def execLntWrite (acc : Acc) (e : Fin 16384) (word : Fin 8) (w : W64) (s : State) : Result :=
  let a := lntAddr e.val + 8 * word.val
  .next (s.hostWrite acc a fun t =>
    let j := t.lntJob e.val
    let free := match t.partOfJob j with
      | some p => t.seqQuiet p j && t.jobIdle j
      | none => true
    if t.lntEn e.val && !free then t
    else
      let t1 := t.storeReg a w.toNat (accMask acc)
      if word.val = 1 ∧ bit (maskAnd w.toNat (accMask acc)) 63 then t1.setFlag a 63 false else t1)

/-- LSCALE_WRITE (R256): a write that reaches LS sets GOOD to 0 and SCALE of every LOSS entry of the job. -/
def execLscaleWrite (acc : Acc) (p : Part) (j : JobId) (w : W64) (s : State) : Result :=
  let a := numReg p.val j.val 0
  .next (s.jobWrite acc p.val j.val a fun t =>
    if !(t.seqQuiet p.val j.val) then t
    else
      let t1 := t.storeReg a w.toNat (accMask acc)
      if bit (accMask acc) 0 then
        ((t1.lntOf j.val).filter fun e => t1.lntRole e == 2).foldl
          (fun (u : State) e => u.setLnt e 2 63 56 (lossScaleOf (u.fld a 7 0))) (t1.setFld a 47 32 0)
      else t1)

/-- A write to PT_NUM_CTRL (Table 10.13): SPIKE_RESET clears MEAN, VAR and SAMPLES; ROLL rolls the job's entries, not skipped (R243, R248),
for a job without a step plan or with its sequencer IDLE or HELD. -/
def State.numCtrl (s : State) (acc : Acc) (p j : Nat) (w : W64) : State :=
  s.jobWrite acc p j (numReg p j 0x28) fun t =>
    let t1 := if acts w.toNat 1 then (t.setReg (numReg p j 0x18) 0).setFld (numReg p j 0x20) 63 48 0 else t
    if acts w.toNat 0 && t1.seqQuiet p j then (t1.lossScale p j false false).rollEntries p j false else t1

/-- ROLL (R243). -/
def execNumRoll (acc : Acc) (p : Part) (j : JobId) (w : W64) (s : State) : Result := .next (s.numCtrl acc p.val j.val w)

/-- SPIKE_RESET (R256). -/
def execSpikeReset (acc : Acc) (p : Part) (j : JobId) (w : W64) (s : State) : Result := .next (s.numCtrl acc p.val j.val w)

end Sys2Proof.Machine
end

