-- ==== Sys2Proof/Machine/HostRows.lean ====
section
/-! DEFINITION. Commands of the host ports, the register pages, events, semaphores (R377..R399, R443). -/
namespace Sys2Proof.Machine

/-! ### The ports (R380, R382, R398) -/

/-- HOST_PORT_RESET (R380): a fundamental reset, a hot reset and DL_Down take the link down; a Function Level Reset leaves it up. -/
def execHostPortReset (p : HostPort) (k : PortReset) (s : State) : Result :=
  .next (match k with
    | .flr => s.hostPortGone p.isB
    | .perst | .hot | .dlDown => s.hostLinkDown p.isB)

/-- HOST_LINK_UP (R398, R427): the port trained, or left Recovery with `recovery`; `msix` is whether its host enabled MSI-X. A port
trains once HOUSEKEEPING has ended, at a rate and a width of Table 16.1, and while a host oscillator is there (Table 2.5). -/
def execHostLinkUp (p : HostPort) (speed : Fin 7) (width : Fin 17) (flit recovery msix : Bool) (s : State) : Result :=
  let b := p.isB
  let a := pgHost b + 0x100
  if !s.timeOn || s.oscOut.contains 0 || speed.val == 0 || !([1, 2, 4, 8, 16].contains width.val) then .next s
  else
    let was := s.linkUp b
    let s1 := s.setFld a 63 54 (fieldAt 9 1 + fieldAt 6 speed.val + fieldAt 1 width.val + b2n flit)
    let s2 := if b then { s1 with hostMsixB := msix } else { s1 with hostMsixA := msix }
    let s3 := if recovery then s2.bump (pgHost b + 0x140) 1 else s2
    .next (if was then s3 else s3.event (pgHost b) 0)

/-- The identity a port's configuration space reports (Table 16.2). -/
structure PortIdent where
  vendor : BitVec 16
  device : BitVec 16
  revision : BitVec 8
  classCode : BitVec 24
  subVendor : BitVec 16
  subsystem : BitVec 16
  deriving DecidableEq, Repr

/-- Table 16.2 (R379). -/
def portIdent (p : HostPort) : PortIdent :=
  { vendor := 0x1F3B, device := 0x6400, revision := 0x10, classCode := 0x12_0000, subVendor := 0x1F3B, subsystem := if p.isB then 2 else 1 }

/-- The 32 bits a configuration read of Table 16.2's fields returns, at the offsets PCI Express gives them (PRESUMED, assumption 182). -/
def configDword (p : HostPort) (off : Nat) : Option (BitVec 32) :=
  let i := portIdent p
  match off with
  | 0x00 => some (i.device ++ i.vendor)
  | 0x08 => some (i.classCode ++ i.revision)
  | 0x2C => some (i.subsystem ++ i.subVendor)
  | _ => none

/-- LOG2_SIZE of HP_BAR2. -/
def State.barLog2 (s : State) (b : Bool) : Nat := s.fld (pgHost b + 0x110) 5 0

/-- BASE of HP_APERTURE with the bits below the window size 0 (R382). -/
def alignBase (log2 v : Nat) : Nat := v / 2 ^ log2 * 2 ^ log2

/-- RESIZABLE_BAR_WRITE (R382): the window takes a size of 1 GB to 64 GB. -/
def execResizableBarWrite (p : HostPort) (log2 : Nat) (s : State) : Result :=
  let b := p.isB
  if s.linkUp b ∧ 30 ≤ log2 ∧ log2 ≤ 36 then
    let s1 := s.setFld (pgHost b + 0x110) 5 0 log2
    .next (s1.setReg (pgHost b + 0x108) (alignBase log2 (s1.reg (pgHost b + 0x108))))
  else .next s

/-- HBM address of BAR2 offset `off`. -/
def State.barAddr (s : State) (b : Bool) (off : Nat) : Nat := s.reg (pgHost b + 0x108) + off

/-- Whether a BAR2 access of `len` bytes is addressed to the window of a port whose link is up. -/
def State.barHit (s : State) (b : Bool) (off len : Nat) : Bool := s.linkUp b && decide (off + len ≤ 2 ^ s.barLog2 b)

/-- Whether HBM serves a BAR2 access: its channel is LIVE and it lies below offset 0xA000_0000 (R382, R288); before READY and in a safe
stop no stack carries traffic (R402, R427; DEDUCED, assumption 49). -/
def State.barServed (s : State) (b : Bool) (off len : Nat) : Bool :=
  let a := s.barAddr b off
  s.live && rangeOk a len && s.chLive (adChan a)

/-- BAR2 traffic: P3, charged by no regulator (R382). -/
def barUser : HbmUser := { part := 8, cls := 3 }

/-- BAR2_READ (R382): the data, once memory answers, or Completer Abort counted in HP_ABORTS. -/
def execBar2Read (p : HostPort) (off len : Nat) (s : State) : Result :=
  let b := p.isB
  let a := s.barAddr b off
  if !(s.barHit b off len) then .next s
  else if !(s.barServed b off len) then .next ((s.bump (pgHost b + 0x130) 1).emit (.abort p))
  else
    let (n, s1) := s.fresh
    let key := askKey (.bar n)
    let s2 := ({ s1 with barReads := Tab.put s1.barReads key { port := p, addr := a, len := len } }.ask key barUser (cutLines a len)).bump
      (pgHost b + 0x120) len
    .next (if len = 0 then s2.barDone key else s2)

/-- BAR2_WRITE (R382): the bytes are stored, or dropped and counted in HP_ABORTS. Every reader sees them at once, so before any later write
of the port takes effect (R383). -/
def execBar2Write (p : HostPort) (off : Nat) (bytes : List Byte) (s : State) : Result :=
  let b := p.isB
  if !(s.barHit b off bytes.length) then .next s
  else if !(s.barServed b off bytes.length) then .next (s.bump (pgHost b + 0x130) 1)
  else .next ((s.hbmWrite barUser (s.barAddr b off) bytes).bump (pgHost b + 0x128) bytes.length)

/-! ### Registers with no row of their own (R384) -/

/-- The register number of a host address: BAR0 below 32 MB, then BAR4, whose MSI-X part each port has for itself (R380, R381). -/
def hostReg (p : HostPort) (addr : Nat) : Option Nat :=
  if addr < 0x201_0000 then some addr
  else if addr < 0x202_0000 then some (if p.isB then addr + 0x100_0000 else addr)
  else none

/-- The message of an MSI-X vector that has just been unmasked with its pending bit set (R392). -/
def State.unmask (s : State) (p : HostPort) (v : Nat) : State :=
  let b := p.isB
  let pb := pgMsix b + 0x1000 + v / 64 * 8
  if !(s.flag (pgMsix b + 16 * v + 8) 32) && s.flag pb (v % 64) then (s.setFlag pb (v % 64) false).msixTo p v else s

/-- What register `a` takes of a write where the register has a rule of its own: HP_APERTURE (R382), PERM_CFG and PERM_CFG2 while a
permute is BUSY (R346), the registers of a job that does not run in the partition (R210, R226, R256, R349), PT_SPIKE_CFG and PT_COLL_CFG
while the job's sequencer runs (R256, R349), RING_BASE while its ring is enabled (R367), MSI-X vectors (R392), PEAK of WC_LEASES, which no write
makes less than IN_USE (Table 7.12). -/
def State.plainWrite (s : State) (p : HostPort) (a w m : Nat) : State :=
  let o := a % 0x1000
  let t := s.storeReg a w m
  if a = 0x4108 ∨ a = 0x5108 then t.setReg a (alignBase (s.barLog2 (decide (a = 0x5108))) (t.reg a))
  else if a = 0x940 ∨ a = 0x948 then (if s.flag 0x958 63 then s else t)
  else if 0x2_0400 ≤ a ∧ a < 0x2_8000 ∧ 0x400 ≤ o then
    let q := a / 0x1000 - 0x20
    let j := (jobOfOffset o).getD 0
    if foreignJobReg s q o then s
    else if ((0xA00 ≤ o ∧ o < 0xE00 ∧ o % 0x40 = 0x10) ∨ (0xE00 ≤ o ∧ o % 0x20 = 0)) ∧ !(s.seqQuiet q j) then s
    else t
  else if windowKind a = 6 ∧ o = 0x008 then (if s.flag (pageBase a + 0x10) 63 then s else t)
  else if windowKind a = 7 ∧ a % 16 = 8 then t.unmask p (o / 16)
  else if o = 0x210 then (List.range 64).foldl (fun (u : State) y => if pgCore y + 0x210 = a then u.peakAt y else u) t
  else t

/-- REGISTER_WRITE (R384): the log and tag-store windows take no write and report none (R451, R82); a register that has a row of its own
is that row's. -/
def execRegisterWrite (acc : Acc) (addr : Nat) (w : W64) (s : State) : Result :=
  match hostReg acc.port addr with
  | none => .next s
  | some a =>
    if windowKind a = 4 ∨ windowKind a = 5 then .next s
    else .next (s.hostWrite acc a fun t =>
      if ((regRow a).map (·.own)).getD false then t else t.plainWrite acc.port a w.toNat (accMask acc))

/-! ### The page header (R387..R392) -/

/-- The address of header register `off` of the page numbered `page`. -/
def hdrReg (page off : Nat) : Nat := page * 0x1000 + off

/-- A write to a header register; a number that names no page with a header is no such write. -/
def State.hdrWrite (s : State) (acc : Acc) (page off : Nat) (f : State → Nat → State) : State :=
  if inPage (page * 0x1000) then s.hostWrite acc (hdrReg page off) fun t => f t (page * 0x1000) else s

/-- PG_OWNER_WRITE (R390): a port's own code while OWNER is 0, 0 from the owner; the owner's own code again changes nothing. -/
def execPgOwnerWrite (acc : Acc) (page : Nat) (w : W64) (s : State) : Result :=
  .next (s.hdrWrite acc page 0x48 fun t pg =>
    let a := pg + 0x48
    let own := t.fld a 1 0
    let new := bits (mergeBits own w.toNat (accMask acc)) 1 0
    if bits (accMask acc) 1 0 = 0 then t
    else if own = 0 ∧ new = acc.port.code then t.setReg a new
    else if own = acc.port.code ∧ new = 0 then t.setReg a 0
    else if own = acc.port.code ∧ own = new then t
    else t.badAccess acc)

/-- EVT_PEND_CLEAR (R391): writing 1 to a bit clears it in EVT_PEND and EVT_RAW. -/
def execEvtPendClear (acc : Acc) (page : Nat) (w : W64) (s : State) : Result :=
  .next (s.hdrWrite acc page 0x28 fun t pg =>
    let c := bits (maskAnd w.toNat (accMask acc)) 31 0
    let off := fun (v : Nat) => v - maskAnd v c
    ((t.setReg (pg + 0x18) (off (t.reg (pg + 0x18)))).setReg (pg + 0x28) (off (t.reg (pg + 0x28)))).irqAfterWrite pg)

/-- EVT_ENABLE_WRITE (R388, R391, R392). -/
def execEvtEnableWrite (acc : Acc) (page : Nat) (w : W64) (s : State) : Result :=
  .next (s.hdrWrite acc page 0x20 fun t pg => (t.storeReg (pg + 0x20) w.toNat (accMask acc)).irqAfterWrite pg)

/-- The number of events of the page numbered `n` (the event tables; page types without one raise none). -/
def eventCount (n : Nat) : Nat :=
  match pageType n with
  | 0x01 => 7 | 0x02 => 4 | 0x03 => 5 | 0x04 => 6 | 0x05 => if n = 0x10 then 6 else 0
  | 0x06 => 13 | 0x07 => 3 | 0x08 => 4 | 0x09 => 6 | 0x0A => 5 | 0x0B => 6 | 0x0F => 1
  | 0x11 => 6 | 0x12 => 5 | 0x13 => 7 | 0x14 => 6 | 0x15 => 6 | _ => 0

/-- EVT_SET (R391): each bit written 1 acts as an occurrence of that event; a reserved bit is none. -/
def execEvtSet (acc : Acc) (page : Nat) (w : W64) (s : State) : Result :=
  .next (s.hdrWrite acc page 0x30 fun t pg =>
    (bitList (eventCount page) (maskAnd w.toNat (accMask acc))).foldl (fun (u : State) i => u.event pg i) t)

/-- PG_CTRL_WRITE (R388, R392). -/
def execPgCtrlWrite (acc : Acc) (page : Nat) (w : W64) (s : State) : Result :=
  .next (s.hdrWrite acc page 0x08 fun t pg => (t.storeReg (pg + 0x08) w.toNat (accMask acc)).irqAfterWrite pg)

/-- CLR (R389): bit 63 of a write to ERR_CODE clears ERR_CODE and ERR_INFO. -/
def execClr (acc : Acc) (page : Nat) (w : W64) (s : State) : Result :=
  .next (s.hdrWrite acc page 0x38 fun t pg =>
    if bit (maskAnd w.toNat (accMask acc)) 63 then (t.setReg (pg + 0x38) 0).setReg (pg + 0x40) 0 else t)

/-- COUNTER_SAT_CLEAR (R443): a write to a counter; one to another register is REGISTER_WRITE's or its own row's. -/
def execCounterSatClear (acc : Acc) (addr : Nat) (w : W64) (s : State) : Result :=
  match regRow addr with
  | some r =>
    if r.kind = .counter ∧ addr < 0x202_0000 then
      .next (s.hostWrite acc addr fun t =>
        if foreignCounter t addr then t else t.storeReg addr w.toNat (accMask acc))
    else .next s
  | none => .next s
where
  /-- A counter of a job that does not run in the partition. -/
  foreignCounter (t : State) (a : Nat) : Bool :=
    decide (0x2_0000 ≤ a ∧ a < 0x2_8000) && foreignJobReg t (a / 0x1000 - 0x20) (a % 0x1000)

/-! ### Semaphores (R394..R396) -/

/-- The register of semaphore `i`: it stores the owner code alone. -/
def semReg (i : Nat) : Nat := pgGlobal + 0x200 + 8 * i

/-- A semaphore given to an owner at this moment. -/
def State.takeSem (s : State) (i code : Nat) : State :=
  { s.setReg (semReg i) code with semSince := Tab.put s.semSince i s.now }

/-- A semaphore freed. -/
def State.freeSem (s : State) (i : Nat) : State :=
  { s.setReg (semReg i) 0 with semSince := Tab.del s.semSince i }

/-- An 8-byte read of semaphore `i` is an acquire (R394). -/
def State.semAcquire (s : State) (port : HostPort) (i : Nat) : State :=
  let own := s.semOwner i
  if own = 0 then (s.takeSem i port.code).emit (.readData port 0)
  else (if own = port.code then s.takeSem i own else s).emit (.readData port (2 ^ 63 + own))

/-- A host read of BAR0 or BAR4 at register `a` (R384): a whole register or the addressed half; an acquire at a semaphore; Completer Abort
for any other size or alignment, and for 4 bytes of a semaphore. -/
def State.hostRead (s0 : State) (acc : Acc) (a : Nat) : State :=
  s0.inTurn acc a fun s =>
    let sem := decide (semReg 0 ≤ a ∧ a < semReg 32)
    if !(accOk acc) || (sem && acc.size != 8) then s.readAbort acc
    else if sem then s.semAcquire acc.port ((a - semReg 0) / 8)
    else s.emit (.readData acc.port (readHalf acc (readReg s a)))

/-- SEM_ACQUIRE (R394). -/
def execSemAcquire (acc : Acc) (i : Fin 32) (s : State) : Result := .next (s.hostRead acc (semReg i.val))

/-- SEM_RELEASE (R394): an 8-byte write of 0 by the owner; another 8-byte write is dropped and counted, a 4-byte write is dropped and
reported besides (R384). -/
def execSemRelease (acc : Acc) (i : Fin 32) (w : W64) (s : State) : Result :=
  let a := semReg i.val
  if acc.size ≠ 8 ∨ acc.sub ≠ 0 then .next (s.inTurn acc a fun t => t.badAccess acc)
  else .next (s.hostWrite acc a fun t =>
    if w = 0 ∧ t.semOwner i.val = acc.port.code then t.freeSem i.val else t.dropped acc)

/-- A semaphore whose hold has lasted TMO_MS is freed and reported (R395, Table 16.17). -/
def State.semTimeout (s : State) (i : Nat) : State :=
  let own := s.semOwner i
  let tmo := s.fld (pgGlobal + 0x300) 31 0
  let held := s.now - Tab.get 0 s.semSince i
  if own = 0 ∨ tmo = 0 ∨ !(s.flag (pgGlobal + 0x308) i) ∨ held < tmo * 1000000 then s
  else
    let s1 := (s.freeSem i).bump (pgGlobal + 0x318) 1
    let s2 := s1.faultEv pgGlobal 0x0A04 (fieldAt 62 own + fieldAt 56 i + stopAt (2 ^ 32 - 1) (held / 1000000)) 5
    s2.event (pgHost (own == 2)) 4

/-- SEMAPHORE_TIMEOUT (R395): the 1 ms check. -/
def execSemaphoreTimeout (dt : Nat) (s : State) : Result :=
  .next ((List.range 32).foldl (fun (t : State) i => t.semTimeout i) (s.tick dt))

end Sys2Proof.Machine
end

