-- ==== Sys2Proof/Machine/MonRows.lean ====
section
/-! DEFINITION. Commands of the monitor slots (R446..R449). -/
namespace Sys2Proof.Machine

/-- Whether the page numbered `n` may watch source `src` (Table 19.3). -/
def sourceOk (n src : Nat) : Bool :=
  let ty := pageType n
  match src with
  | 0x01 | 0x02 => ty == 0x11
  | 0x03 => ty == 0x11 || ty == 0x13 || ty == 0x14 || ty == 0x15
  | 0x04 | 0x05 | 0x06 => ty == 0x13
  | 0x07 => ty == 0x0B
  | 0x08 => ty == 0x10 || ty == 0x0D || n == 0x10
  | 0x09 => ty == 0x10
  | 0x0A => ty == 0x09
  | 0x0B => ty == 0x12
  | _ => src == 0

/-- SOURCE of a page's monitor. -/
def State.monSource (s : State) (pg : Nat) : Nat := s.fld (pg + 0x50) 23 16

/-- Every slot of the monitor at its reset value, MIN and MAX those of its source (R449, Table 19.2). -/
def State.clearMon (s : State) (pg : Nat) : State :=
  let s1 := s.resetRegs (pg + 0x58) (pg + 0xB8)
  s1.setReg (pg + 0x60) (monMinMaxReset (s1.monSource pg))

/-- A write to MON_CFG (R447, R449): a SOURCE the page does not allow is stored as 0x00; CLR, or a change of SOURCE or BASE, clears the
monitor. -/
def State.writeMonCfg (s : State) (pg w m : Nat) : State :=
  let a := pg + 0x50
  let t1 := s.storeReg a w m
  let t2 := if sourceOk (pg / 0x1000) (t1.monSource pg) then t1 else t1.setFld a 23 16 0
  if acts w 29 ∨ t2.monSource pg ≠ s.monSource pg ∨ t2.fld a 13 8 ≠ s.fld a 13 8 then t2.clearMon pg else t2

/-- MON_CFG_WRITE (R447, R449). -/
def execMonCfgWrite (acc : Acc) (page : Nat) (w : W64) (s : State) : Result :=
  .next (s.hdrWrite acc page 0x50 fun t pg => t.writeMonCfg pg w.toNat (accMask acc))

/-- The bin of a sample (R448). -/
def monBin (base : Nat) (v : Int) : Nat :=
  match firstBelow 15 fun i => decide (v < (2 ^ (base + i) : Nat)) with
  | some i => i
  | none => 15

/-- A sample as it is taken: at most 0xFFFF_FFFF; only TEMP has negative ones. -/
def monValue (temp : Bool) (v : Int) : Int :=
  if temp then clampInt (-(2 ^ 31 : Nat)) (2 ^ 31 - 1 : Nat) v else clampInt 0 (2 ^ 32 - 1 : Nat) v

/-- One sample of the monitor of page `pg` (R448). -/
def State.monSample (s : State) (pg : Nat) (v0 : Int) : State :=
  let temp := s.monSource pg == 0x08
  let v := monValue temp v0
  let rd := fun (x : Nat) => if temp then toSigned 32 x else (x : Int)
  let mm := pg + 0x60
  let s1 := if v < rd (s.fld mm 31 0) then s.setFld mm 31 0 (ofSigned 32 v) else s
  let s2 := if rd (s1.fld mm 63 32) < v then s1.setFld mm 63 32 (ofSigned 32 v) else s1
  let s3 := (s2.bump (pg + 0x68) 1).bump (pg + 0x70) v.toNat
  let i := monBin (s.fld (pg + 0x50) 13 8) v
  let b := pg + 0x78 + 8 * (i / 2)
  let lo := if i % 2 = 1 then 32 else 0
  let s4 := s3.bumpFld b (lo + 31) lo 1
  if s4.fld b (lo + 31) lo = 2 ^ 32 - 1 then s4.setFlag (pg + 0x58) i true else s4

/-- MONITOR_SAMPLE (R448, R449): the source of a page's monitor is sampled; while EN is 0 or FREEZE is 1 the sample is discarded. -/
def execMonitorSample (page : Nat) (v : Int) (s : State) : Result :=
  let pg := page * 0x1000
  if inPage pg && !(s.absent pg) && s.stage != 0 && s.flag (pg + 0x50) 31 && !(s.flag (pg + 0x50) 30) && s.monSource pg != 0 then
    .next (s.monSample pg v)
  else .next s

end Sys2Proof.Machine
end

