-- ==== Sys2Proof/Machine/ConnRows.lean ====
section
/-! DEFINITION. Commands of the connectors: cages, insertion, SMBus, test access (R459..R465). -/
namespace Sys2Proof.Machine

/-- CAGE_OVERPOWER (R460): the cage is switched off and its port goes DOWN with cause 1. -/
def execCageOverpower (p : PortId) (s : State) : Result :=
  if s.stage = 0 ∨ s.cagesOff.contains p.val then .next s
  else
    let s1 := { s with cagesOff := s.cagesOff ++ [p.val] }
    .next (if s1.portState p.val = 0 then s1 else s1.portLost p.val 1)

/-- MODULE_INSERT (R461): the module mates with live bus bars; once its input has charged, 54 V is applied and it cold-starts (R433). -/
def execModuleInsert (s : State) : Result :=
  .next (if s.stage = 0 then s.coldReset 1 0 else s)

/-- FRU_READ (R464): a byte of the FRU memory. -/
def execFruRead (off : Fin 256) (s : State) : Result := .next (s.emit (.smbus (Config.fruByte off).toNat))

/-- The register target acknowledges from the end of HOUSEKEEPING, with 54 V (R464). -/
def State.smbServes (s : State) : Bool := s.timeOn && s.stage != 0

/-- SMB_SET_OFFSET (R464): command 0x01; one with a bad PEC is dropped. -/
def execSmbSetOffset (off : BitVec 32) (pec : Bool) (s : State) : Result :=
  .next (if s.smbServes && pec then { s with smbOffset := off.toNat } else s)

/-- SMB_READ (R464): command 0x02 returns the register at the offset; a misaligned offset or one beyond BAR0 is no register and reads 0. A
semaphore shows its owner and is not acquired. -/
def execSmbRead (s : State) : Result :=
  .next (if s.smbServes then s.emit (.smbus (if s.smbOffset < 0x200_0000 then readReg s s.smbOffset else 0)) else s)

/-- What an SMBus write of `w` to register `a` of the Bare page does: what a host's write does there. OWNER takes the codes of the two
ports from those ports alone (R390), so it is unchanged. -/
def State.smbStore (s : State) (a w : Nat) : State :=
  let m := 2 ^ 64 - 1
  let pg := pgBare
  match a % 0x1000 with
  | 0x108 => let r := s.fresh; r.2.brReset w 4 ((Config.freeWord r.1).toNat % 11)
  | 0x190 => if acts w 0 then s.setFlag (pgBare + 0x198) 62 true else s
  | 0x008 => (s.storeReg a w m).irqAfterWrite pg
  | 0x020 => (s.storeReg a w m).irqAfterWrite pg
  | 0x028 =>
    let c := bits w 31 0
    let off := fun (v : Nat) => v - maskAnd v c
    ((s.setReg (pg + 0x18) (off (s.reg (pg + 0x18)))).setReg (pg + 0x28) (off (s.reg (pg + 0x28)))).irqAfterWrite pg
  | 0x030 => (bitList 5 w).foldl (fun (u : State) i => u.event pg i) s
  | 0x038 => if bit w 63 then (s.setReg (pg + 0x38) 0).setReg (pg + 0x40) 0 else s
  | 0x048 => s
  | 0x050 => s.writeMonCfg pg w m
  | _ => s.storeReg a w m

/-- SMB_WRITE (R464): command 0x03 reaches the Bare page alone, whoever owns it; every other write, and one with a bad PEC, is dropped
without a report. -/
def execSmbWrite (off : BitVec 32) (w : W64) (pec : Bool) (s : State) : Result :=
  .next (if s.smbServes && pec && off.toNat / 0x1000 == 3 then s.smbStore off.toNat w.toNat else s)

/-- JTAG_INSTRUCTION (R465): outside stages 0, 8 and 9 EXTEST, INTEST and the debug instructions act as BYPASS. -/
def execJtagInstruction (i : JtagOp) (s : State) : Result :=
  let free := s.stage == 0 || s.stage == 8 || s.stage == 9
  .next { s with jtagIr := match i with
    | .extest | .intest | .debug => if free then i else .bypass
    | _ => i }

end Sys2Proof.Machine
end

