-- ==== Sys2Proof/Machine/Firing.lean ====
section
/-! DEFINITION. The commands of firing units: tokens arrive, firings begin and end, steering (R66..R75), streamed records and
section control tokens (R88..R91), pending tiles (R136), DELAY (R273). -/
namespace Sys2Proof.Machine

/-- UNIT_TOKEN_ARRIVE (R62, R70, R71, R88): a unit takes the token its switch offers on a lane. The reef and section control tokens of
halyard channel 0xFF stay offered for their own commands. -/
def execUnitTokenArrive (y : Yard) (u : UnitId) (lane : Lane) (flip : BitVec 32) (s : State) : Result :=
  .next (s.whenLive fun s =>
    let l := laneCode lane
    let net := laneNet l
    match s.offer y.val (8 + u.val) l with
    | none => s
    | some t0 =>
      let t : Token := { t0 with hdr := t0.hdr ^^^ flip }
      match destError net t with
      | some c => (s.takeOffer y.val (8 + u.val) l).ctrlError y.val u.val c t.hdr.toNat
      | none =>
        if net = 2 ∧ t.chan = 0xFF then
          if 0x10 ≤ t.opcode ∧ t.opcode ≤ 0x14 then s
          else (s.takeOffer y.val (8 + u.val) l).ctrlError y.val u.val 5 t.hdr.toNat
        else
          let x := s.unit y.val u.val
          match x.placeOf t.job net t.chan with
          | none => (s.takeOffer y.val (8 + u.val) l).stray y.val
          | some (_, p) =>
            if 16 ≤ (x.queue p).length then s
            else
              let x1 := (x.setQueue p (x.queue p ++ [t])).collect u.val
              let s1 := (s.takeOffer y.val (8 + u.val) l).setUnit y.val u.val x1
              (if u.val < 20 then s1.tryForm y.val u.val .ok else s1).progressY y.val)

/-- FIRING_DECISION (R67, R71). -/
def execFiringDecision (y : Yard) (u : UnitId × Ecc) (s : State) : Result := .next (s.whenLive fun s => s.decideFiring y.val u.1.val u.2)

/-- FIRING_END (R91). -/
def execFiringEnd (y : Yard) (u : UnitId) (s : State) : Result := .next (s.whenLive fun s => s.endFiring y.val u.val)

/-! ### Steering (R72..R74) -/

/-- A steered token as it leaves on an output: CHANNEL is the output's (R107). -/
def restamp (w : Nat) (t : Token) : Token := { t with hdr := mkHdr t.job t.tag (bindChan w) t.kind t.last }

/-- A BRANCH, MERGE or GATE passes or drops one token of the burst it matched (R72, Table 3.6): it leaves its input queue in the handshake by
which the queue of the output accepts it. The SELECT is retired with the token that has LAST. -/
def State.steerOne (s : State) (y u : Nat) : State :=
  let x := s.unit y u
  match x.firing, x.activeRec, x.heldSelect with
  | some f, some r, some c =>
    let kind := stKind r.body
    let v := selectV c
    let out := if kind = 0 then v else 0
    let w := bindOut r.body out
    let l := outLane (bindNet w) out
    let q := s.inQueue y (8 + u) l
    let drop := kind == 2 && v == 0
    match x.pull f.job f.tag (if kind = 1 then v else 0) with
    | none => s
    | some (t, x1) =>
      if f.formed || kind == 3 || (!drop && (decide (16 ≤ q.length) || x.outbox.any fun k => laneCode k.lane == l)) then s
      else
        let x2 := { x1 with
          firing := some { f with formed := t.last }
          heldSelect := if t.last then none else some c
          drops := if t.last && drop then stopAt 0xFFFF (x.drops + 1) else x.drops }
        ((if drop || !(bindValid w) then s else s.setInQueue y (8 + u) l (q ++ [restamp w t])).setUnit y u x2).progressY y
  | _, _, _ => s

/-- The tokens of the burst that have arrived pass while there is room. -/
def State.passSteered (s : State) (y u : Nat) : State :=
  let x := s.unit y u
  iter (fun (t : State) => t.steerOne y u) (x.tags.length + sumNat ((List.range 4).map fun p => (x.queue p).length)) s

/-- STEERING_PASS (R72). -/
def execSteeringPass (y : Yard) (st : Fin 16) (s : State) : Result := .next (s.whenLive fun s => s.passSteered y.val (22 + st.val))

/-- What a tick of (k, LIMIT) emits, and the count it leaves, none where the entry is freed (R74). -/
def countStep (mode k limit : Nat) (last : Bool) : Nat × Option Nat :=
  if mode = 2 then (if (k + 1) % limit = 0 then 1 else 0, if last then none else some (k + 1))
  else if k < limit then (1, some (k + 1)) else (0, none)

/-- The LIMIT of a count that starts: the slot's, or that of the LOOP_LOAD it uses (R74). -/
def UnitState.startLimit (x : UnitState) (r : CfgRec) (j t : Nat) (uses : List Nat) : Nat × UnitState :=
  if uses.contains 1 then
    match x.pull j t 1 with
    | some (c, x1) => (c.payload % 2 ^ 32, x1)
    | none => (stLimit r.body, x)
  else (stLimit r.body, x)

/-- One tick of a COUNT (R74). A tick that would start a count looks for a free entry before its own is freed (DESIGN CHOICE,
assumption 164). -/
def State.countOne (s : State) (y u : Nat) : State :=
  let skip := (s.unit y u).foreign
  let s1 := s.parkForeign y u
  let x := s1.unit y u
  match x.firing, x.active, x.activeRec with
  | none, some k, some r =>
    if stKind r.body ≠ 3 || x.leaving then s1
    else match (x.without skip).choose true with
      | none => s1
      | some (j, t, uses) =>
        match x.pull j t 0 with
        | none => s1
        | some (tick, x1) =>
          let mine := fun (e : TagEntry) => e.count && e.tok.job == j && e.tok.tag == t
          let old := x1.tags.find? mine
          if old.isNone ∧ 64 ≤ x.tags.length then s1.tagOverflow y u tick.hdr.toNat
          else
            let (limit, x2) := match old with
              | some e => (e.limit, x1)
              | none => x1.startLimit r j t uses
            let (v, left) := countStep (stMode r.body) ((old.map (·.k)).getD 0) limit tick.last
            let entry := fun (n : Nat) => { count := true, slot := k, pos := 0, tok := tick, k := n % 2 ^ 32, limit := limit : TagEntry }
            let tags := match old, left with
              | some _, some n => x2.tags.map fun e => if mine e then { e with k := n % 2 ^ 32 } else e
              | none, some n => x2.tags ++ [entry n]
              | _, none => x2.tags.filter fun e => !(mine e)
            let w := bindOut r.body 0
            let x3 := { x2 with
              tags := tags, lastTag := t
              outbox := x2.outbox ++ outToks 0 w [ctrlTok j t (bindChan w) 1 v]
              firing := some { job := j, tag := t, uses := [], got := [], formed := true } }
            ((((s1.setUnit y u x3).tsPeak y x3.tags.length).pumpOut y u).progressY y)
  | _, _, _ => s1

/-- COUNT_TICK (R74). -/
def execCountTick (y : Yard) (st : Fin 16) (s : State) : Result := .next (s.whenLive fun s => s.countOne y.val (22 + st.val))

/-! ### Streamed records (R89, R90) -/

/-- A control token of halyard channel 0xFF with this opcode, offered to a unit. -/
def State.ctrlOffer (s : State) (y u opc : Nat) : Option Token :=
  match s.offer y (8 + u) 9 with
  | some t => if t.chan = 0xFF ∧ t.kind = 1 ∧ t.opcode = opc then some t else none
  | none => none

/-- The control token is taken. -/
def State.takeUnitCtrl (s : State) (y u : Nat) : State := (s.takeOffer y (8 + u) 9).progressY y

/-- The OPERAND, bits [79:32], of a control token. -/
def Token.operand (t : Token) : Nat := t.payload % 2 ^ 48

/-- Whether a slot belongs to job `j` (R84). -/
def Slot.ownedBy (v : Slot) (j : Nat) : Bool := (v.reserved || v.record.isSome) && v.job == j

/-- REEF_OPEN (R89, R90): the unit holds it until the slot is neither active nor live; then it takes the record that follows. A REEF_OPEN of a job
that does not own the slot is discarded with what follows it. -/
def State.reefOpened (s : State) (y u : Nat) : State :=
  match s.ctrlOffer y u 0x10 with
  | none => s
  | some t =>
    let x := s.unit y u
    let k := t.operand % 8
    let v := x.slot k
    let n := bits t.operand 31 16
    if x.reef.isSome then s
    else if !(v.ownedBy t.job) then
      ((s.takeUnitCtrl y u).setUnit y u { x with reef := some { slot := k, job := t.job, left := n, bytes := [], discard := true } }).ctrlError
        y u 8 t.hdr.toNat
    else if v.live || x.active == some k then s
    else (s.takeUnitCtrl y u).setUnit y u { x.setSlot k { v with record := none } with
        reef := some { slot := k, job := t.job, left := n, bytes := [], discard := false } }

/-- REEF_OPEN. -/
def execReefOpen (y : Yard) (u : UnitId) (s : State) : Result := .next (s.whenLive fun s => s.reefOpened y.val u.val)

/-- REEF_DATA (R89): the next 6 bytes of the record; one without a record open is discarded, and so is one beyond COUNT (DESIGN CHOICE,
assumption 167). -/
def execReefData (y : Yard) (u : UnitId) (s : State) : Result :=
  .next (s.whenLive fun s =>
    match s.ctrlOffer y.val u.val 0x11 with
    | none => s
    | some t =>
      let x := s.unit y.val u.val
      let s1 := s.takeUnitCtrl y.val u.val
      match x.reef with
      | none => s1
      | some f =>
        if f.left = 0 then s1
        else s1.setUnit y.val u.val { x with reef := some { f with left := f.left - 1, bytes := f.bytes ++ leBytes 6 t.operand } })

/-- REEF_CLOSE (R89, R90): the slot holds the record when the CRCs match; else it stays empty, CTRL_TOKEN_CRC with CAUSE 7, also where fewer
than COUNT REEF_DATA have come (DESIGN CHOICE, assumption 167). -/
def State.reefClosed (s : State) (y u : Nat) : State :=
  match s.ctrlOffer y u 0x12 with
  | none => s
  | some t =>
    let x := s.unit y u
    let s1 := s.takeUnitCtrl y u
    match x.reef with
    | none => s1
    | some f =>
      let x1 := { x with reef := none }
      if f.discard then s1.setUnit y u x1
      else
        let r := parseCfg f.bytes
        if crc32c (f.bytes.take (16 + r.bodyLen)) = t.operand % 2 ^ 32 ∧ f.left = 0 then
          let x2 := x1.setSlot f.slot { x1.slot f.slot with record := some r }
          let x3 := if x2.activating = some f.slot then ({ x2 with activating := none }).activate f.slot 16 else x2
          (s1.setUnit y u x3).pumpOut y u
        else (s1.setUnit y u x1).ctrlError y u 7 t.hdr.toNat

/-- REEF_CLOSE. -/
def execReefClose (y : Yard) (u : UnitId) (s : State) : Result := .next (s.whenLive fun s => s.reefClosed y.val u.val)

/-! ### SECTION_START and SECTION_END (R91) -/

/-- The record with which slot `k` serves section `sec` of a job: the one it holds, or a streamed one of the job's image that has not
arrived. -/
def State.slotServes (s : State) (y u k job sec : Nat) : Option CfgRec :=
  let v := (s.unit y u).slot k
  if !(v.ownedBy job) then none
  else match v.record with
    | some r => if r.section_ = sec then some r else none
    | none => (s.images.filter (·.job == job)).findSome? fun i =>
        i.cfgs.find? fun c => c.yard == y && c.unit == u && c.slot == k && c.section_ == sec && c.streamed

/-- SECTION_START(s, n): the slots of the section become live; its ENTRY slot is activated, or waits behind the active one. A second start while
one waits is not taken. -/
def State.sectionStarted (s : State) (y u : Nat) : State :=
  match s.ctrlOffer y u 0x13 with
  | none => s
  | some t =>
    let x := s.unit y u
    let sec := bits t.operand 47 32
    let n := t.operand % 2 ^ 32
    let hits := (List.range 8).filterMap fun k => (s.slotServes y u k t.job sec).map fun r => (k, r)
    if hits.isEmpty then s.takeUnitCtrl y u
    else if x.pend.isSome then s
    else
      let key := secKey t.job sec
      let inst := s.sections.find? fun c => c.job == t.job && c.num == sec && c.tagBase == t.tag
      let x1 := hits.foldl (fun (a : UnitState) h => a.setSlot h.1 { a.slot h.1 with live := true, fired := 0, sec := key }) x
      let x2 := { x1 with secs := Tab.put x1.secs key { sec := inst, n := n, tagBase := t.tag } }
      let x3 := match hits.find? fun h => h.2.entry with
        | some (q, _) => if x2.active.isNone ∧ x2.activating.isNone then x2.activate q 16 else { x2 with pend := some q }
        | none => x2
      ((s.takeUnitCtrl y u).setUnit y u x3).pumpOut y u

/-- SECTION_START. -/
def execSectionStart (y : Yard) (u : UnitId) (s : State) : Result := .next (s.whenLive fun s => s.sectionStarted y.val u.val)

/-- SECTION_END(s): at once, or when the firing in progress of the section's active slot is done. -/
def State.sectionEnded (s : State) (y u : Nat) : State :=
  match s.ctrlOffer y u 0x14 with
  | none => s
  | some t =>
    let x := s.unit y u
    let key := secKey t.job (bits t.operand 47 32)
    let firing := x.firing.isSome && (match x.active with
      | some k => (x.slot k).sec == key
      | none => false)
    if firing ∧ x.endWait.isSome then s
    else
      let x1 := if firing then { x with endWait := some key } else x.endSection key
      ((s.takeUnitCtrl y u).setUnit y u x1).pumpOut y u

/-- SECTION_END. -/
def execSectionEnd (y : Yard) (u : UnitId) (s : State) : Result := .next (s.whenLive fun s => s.sectionEnded y.val u.val)

/-! ### Pending tiles and DELAY -/

/-- MU_PENDING_WAIT_END (R136): the array goes on when no tile it would overwrite is pending. -/
def execMuPendingWaitEnd (y : Yard) (m : Fin 16) (s : State) : Result := .next (s.whenLive fun s => s.tryForm y.val m.val .ok)

/-- A DELAY emits its oldest stored firing (R273): each burst whole on its own output, with the firing's tag, as memory answers and the
outputs accept. -/
def State.delayEmit (s : State) (y u : Nat) : State :=
  let x := s.unit y u
  match x.ring, x.activeRec with
  | it :: rest, some r =>
    if it.sent then s
    else
      let (ext, l) := x.activeSet_ u r
      let q := suPlan r.body ext l
      let p := (s.partOfYard y).getD 0
      let n := sumNat (it.bursts.map (·.1))
      let base := q.base + it.pos * q.burstStride
      let z : SuRun := if n = 0 then { s := s } else ({ s := s } : SuRun).read y u p x (s.activeRes y u x) q (base, 64 * n)
      if z.stopped then z.s
      else
        let all := fields 512 n (z.raws.headD 0)
        let step := fun (a : List Nat × List OutTok) (kb : Nat × Nat × Bool) =>
          let w := suOut r.body kb.1
          (a.1.drop kb.2.1, a.2 ++ outToks kb.1 w (burstToks w it.job it.tag (a.1.take kb.2.1)))
        let sent := ((suIns r.body).zip it.bursts).foldl step (all, [])
        let s1 := z.ask y u p q false true
        let x1 := s1.unit y u
        let s2 := s1.setUnit y u { x1 with ring := { it with sent := true } :: rest, outbox := x1.outbox ++ sent.2 }
        ((s2.bump (pgUnit y u + 0x110) (64 * n)).pumpOut y u).progressY y
  | _, _ => s

/-- SU_DELAY_EMIT (R273). -/
def execSuDelayEmit (y : Yard) (k : Fin 2) (s : State) : Result := .next (s.whenLive fun s => s.delayEmit y.val (20 + k.val))

end Sys2Proof.Machine
end

