-- ==== Sys2Proof/Machine/YcExec.lean ====
section
/-! DEFINITION. How a Yard core executes: the extents of a context (R165), ECC on reads (R166), formats and legal words
(R168, R169), exceptions and faults (R171, R172), what an instruction can do, the counter block (R181..R184), the scheduler (R361,
R362). -/
namespace Sys2Proof.Machine

/-! ### Local memory (R165, R166) -/

/-- The YC extents of the images of job `j` loaded in Yard `y`. -/
def State.ycExtents (s : State) (y j : Nat) : List (Nat × Nat) :=
  ((s.images.filter fun i => i.job == j && s.partOfYard y == some i.part).flatMap (·.res)).filterMap fun r =>
    if r.yard = y ∧ 0 < r.ycLen then some (r.ycBase, r.ycLen) else none

/-- Whether the `n` bytes from `a` lie within extents; `fuel` bounds the extents they may run through. -/
def covered (es : List (Nat × Nat)) : (fuel a n : Nat) → Bool
  | 0, _, n => n == 0
  | k + 1, a, n =>
    if n = 0 then true
    else match es.find? fun e => decide (e.1 ≤ a ∧ a < e.1 + e.2) with
      | none => false
      | some e => covered es k (e.1 + e.2) (n - (e.1 + e.2 - a))

/-- Whether the context of job `j` may access `n` bytes at `a`. -/
def State.ycOk (s : State) (y j a n : Nat) : Bool :=
  let es := s.ycExtents y j
  covered es (es.length + 1) a n

/-- A read of local memory: a corrected error is counted (the word written back is the word read), a double-bit error gives
nothing. -/
def State.eccRead (s : State) (y : Nat) (e : Ecc) : Option State :=
  match e with
  | .ok => some s
  | .bad => none
  | .corrected =>
    if s.flag (pgCore y + 0x120) 63 then some s else some ((s.bump (pgCore y + 0x120) 1).event (pgCore y) 1)

/-! ### Formats (Table 7.2) -/

/-- FN of format R. -/
def yFn (w : Nat) : Nat := bits w 31 21
/-- gs2 of format R. -/
def yGs2 (w : Nat) : Nat := bits w 20 16
/-- gs1 of formats R and I. -/
def yGs1 (w : Nat) : Nat := bits w 15 11
/-- gd of formats R and I. -/
def yGd (w : Nat) : Nat := bits w 10 6
/-- imm16, as it stands. -/
def yImm (w : Nat) : Nat := bits w 31 16
/-- imm16 sign-extended to 64 bits. -/
def yImmS (w : Nat) : Nat := ofSigned 64 (toSigned 16 (yImm w))

/-- The number of an instruction: OP and the bits that choose among the instructions of that OP. -/
def ycNum (op sub : Nat) : Nat := op + 64 * sub

/-- The instruction a word encodes (R169, Table 7.3): none for an undefined OP or FN or a reserved field that is not 0. Register fields
an instruction does not name are not looked at (DEDUCED, assumption 39). -/
def ycCode (w : Nat) : Option Nat :=
  let op := bits w 5 0
  let fn := yFn w
  let only := fun (ok : Bool) (sub : Nat) => if ok then some (ycNum op sub) else none
  if op = 0x01 then only (decide (fn ≤ 9 ∨ (0x10 ≤ fn ∧ fn ≤ 0x12) ∨ (0x18 ≤ fn ∧ fn ≤ 0x1B))) fn
  else if 0x02 ≤ op ∧ op ≤ 0x05 ∨ op = 0x07 then some (ycNum op 0)
  else if op = 0x06 then only (decide (bits w 31 24 = 0 ∧ bits w 23 22 < 3)) (bits w 23 22)
  else if op = 0x08 then only (decide (fn < 0x80 ∧ fn % 32 ≤ 0xB)) (fn % 32)
  else if (0x10 ≤ op ∧ op ≤ 0x16) ∨ (0x18 ≤ op ∧ op ≤ 0x1F) then some (ycNum op 0)
  else if 0x20 ≤ op ∧ op ≤ 0x23 then only (bits w 31 28 == 0) 0
  else if op = 0x28 then only (decide (fn < 4)) 0
  else if op = 0x29 then only (decide (fn < 2)) 0
  else if op = 0x2A then only (decide (fn = 0 ∧ yGd w % 4 = 0 ∧ yGd w ≤ 28)) 0
  else if op = 0x2E then only (decide (fn < 2)) fn
  else if (0x2B ≤ op ∧ op ≤ 0x31) ∨ op = 0x38 ∨ op = 0x39 then only (fn == 0) 0
  else none

/-! ### What an instruction can do -/

/-- What an instruction does: it completes, it waits, or an exception stops it (R171, R186). -/
inductive YcRes
  | done (c : YcCtx) (s : State)
  | wait (c : YcCtx) (s : State)
  | exc (cause val : Nat) (s : State)

/-- An instruction: the state, the Yard, the job, its context, the word and the check of the data it reads. -/
abbrev YcFn := State → (y j : Nat) → YcCtx → (w : Nat) → Ecc → YcRes

/-- PC moved to the next instruction; a PC is 18 bits wide (R167). -/
def YcCtx.next (c : YcCtx) : YcCtx := { c with pc := (c.pc + 4) % 2 ^ 18 }

/-- INSTRET counts an instruction, saturating. -/
def satInc (v : Nat) : Nat :=
  if bit v 63 then v else if v + 1 < 2 ^ 48 - 1 then v + 1 else 2 ^ 63 + (2 ^ 48 - 1)

/-- A cause-10 trap that waited for this instruction, or for the context to resume, becomes due. -/
def YcCtx.takeDue (c : YcCtx) : YcCtx :=
  match c.due10 with
  | some code => { c with due10 := none }.trap10 code
  | none => c

/-- A cause-10 trap held until TRET is taken. -/
def YcCtx.takeHeld (c : YcCtx) : YcCtx :=
  match c.held10 with
  | some code => { c with held10 := none }.trap10 code
  | none => c

/-- An instruction retires (Tables 7.11, 7.13, 7.15): HALT frees the core; after one that waited, a cause-10 trap that came meanwhile is
taken. -/
def State.retire (s : State) (y j : Nat) (c : YcCtx) : State :=
  let s1 := s.bump (pgCore y + 0x110) 1
  let c1 := { c with instret := satInc c.instret }
  if c.st = .halted then ((s1.setCtx y j { c1 with shownPc := c.pc }).clearCur y).event (pgCore y) 3
  else s1.setCtx y j { (if c.st = .blocked then c1.takeDue else c1) with st := .running }

/-- A context faults (R172): it is saved with REASON 3 where the save area is usable (R355), it is FAULTED, and YC_FAULT resets the
fabric. -/
def State.ycFault (s : State) (y j : Nat) (c : YcCtx) (cause val : Nat) : State :=
  let p := (s.partOfYard y).getD 0
  let c0 := { c with trapCause := cause, trapVal := val }
  let (c1, s1) := if s.saveOk p then s.saveCtx y j c0 3 else (c0, s)
  let s1f := s1.setCtx y j { c1 with st := .faulted }
  let s2 := if (s1f.core y).cur = some j then s1f.clearCur y else s1f
  s2.fabricFault y (pgCore y) 0x0404
    (fieldAt 60 cause + fieldAt 56 j + fieldAt 28 (c.pc % 2 ^ 18) + val % 2 ^ 28) 0

/-- An exception (R171): a trap, or a fault. An exception in a trap is DOUBLE; ECC can be neither trapped nor DOUBLE (DEDUCED,
assumption 40). -/
def State.ycException (s : State) (y j : Nat) (c : YcCtx) (cause val : Nat) : State :=
  if cause = 8 then s.ycFault y j c 8 val
  else if c.inTrap then s.ycFault y j c 7 cause
  else if c.trapVec = 0 then s.ycFault y j c cause val
  else s.setCtx y j { c.trap cause val with st := .running }

/-- What the instruction did takes effect on its context. -/
def YcRes.settle (r : YcRes) (y j : Nat) (c : YcCtx) (w : Nat) : State :=
  match r with
  | .done c1 s1 => s1.retire y j c1
  | .wait c1 s1 => s1.setCtx y j { c1 with st := .blocked, word := w }
  | .exc cause val s1 => s1.ycException y j ((s1.ctx y j).getD c) cause val

/-- The running context of core `y` executes its next instruction where that is the one numbered `code`. A misaligned or forbidden
PC, an ECC error and an illegal word are exceptions whichever instruction was expected (assumption 41). -/
def State.ycRun (s : State) (y : Nat) (r : YcReads) (code : Nat) (f : YcFn) : State :=
  match (s.core y).cur with
  | none => s
  | some j =>
    match s.ctx y j with
    | none => s
    | some c =>
      if c.st ≠ .running || !(s.served (askKey (.core y))) then s
      else if c.pc % 4 ≠ 0 then s.ycException y j c 2 c.pc
      else if !(s.ycOk y j c.pc 4) then s.ycException y j c 3 c.pc
      else match s.eccRead y r.fetch with
        | none => s.ycException y j c 8 c.pc
        | some s1 =>
          let w := (s1.local_ y).readNat c.pc 4
          match ycCode w with
          | none => s1.ycException y j c 1 w
          | some k => if k = code then (f s1 y j c w r.data).settle y j c w else s

/-! ### Forms shared by the instructions -/

/-- gd = f(gs1, gs2). -/
def ycReg (f : Nat → Nat → Nat) : YcFn := fun s _ _ c w _ =>
  .done (c.put (yGd w) (f (c.get (yGs1 w)) (c.get (yGs2 w)))).next s

/-- gd = f(gs1, imm). -/
def ycImm (f : Nat → Nat → Nat) : YcFn := fun s _ _ c w _ =>
  .done (c.put (yGd w) (f (c.get (yGs1 w)) (yImm w))).next s

/-- An FP32 operand: the half of a register that H1 or H2 names. -/
def fpHalf (v : Nat) (high : Bool) : BitVec 32 := BitVec.ofNat 32 (if high then v / 2 ^ 32 else v)

/-- gd[31:0] = f of two FP32 operands, gd[63:32] = 0. -/
def ycFp (f : BitVec 32 → BitVec 32 → BitVec 32) : YcFn := fun s _ _ c w _ =>
  .done (c.put (yGd w) (f (fpHalf (c.get (yGs1 w)) (bit (yFn w) 5)) (fpHalf (c.get (yGs2 w)) (bit (yFn w) 6))).toNat).next s

/-- gd = 0 or 1 by a comparison of two FP32 operands. -/
def ycCmp (f : BitVec 32 → BitVec 32 → Bool) : YcFn := fun s _ _ c w _ =>
  .done (c.put (yGd w) (b2n (f (fpHalf (c.get (yGs1 w)) (bit (yFn w) 5)) (fpHalf (c.get (yGs2 w)) (bit (yFn w) 6))))).next s

/-- A value toward zero as a 64-bit integer, saturating, NaN giving 0 (FCVT.L). -/
def toInt64 : FVal → Int
  | .nan => 0
  | .inf neg => if neg then -(2 ^ 63) else 2 ^ 63 - 1
  | .fin neg m e =>
    let n : Nat := if 0 ≤ e then m * 2 ^ e.toNat else m / 2 ^ (-e).toNat
    if neg then max (-(2 ^ 63)) (-(n : Int)) else min (2 ^ 63 - 1) (n : Int)

/-- gs1 + imm modulo 2^64. -/
def yAddr (c : YcCtx) (w : Nat) : Nat := (c.get (yGs1 w) + yImmS w) % 2 ^ 64

/-- A load of `n` bytes: natural alignment (cause 2), the extents (cause 3), then the read (cause 8). -/
def ycLoad (n : Nat) (ext : Nat → Nat) : YcFn := fun s y j c w e =>
  let a := yAddr c w
  if a % n ≠ 0 then .exc 2 a s
  else if !(s.ycOk y j a n) then .exc 3 a s
  else match s.eccRead y e with
    | none => .exc 8 a s
    | some s1 => .done (c.put (yGd w) (ext ((s1.local_ y).readNat a n))).next s1

/-- A store of the low `n` bytes of the register at [10:6] (R168). -/
def ycStore (n : Nat) : YcFn := fun s y j c w _ =>
  let a := yAddr c w
  if a % n ≠ 0 then .exc 2 a s
  else if !(s.ycOk y j a n) then .exc 3 a s
  else .done c.next (s.setLocal y ((s.local_ y).writeNat a n (c.get (yGd w))))

/-- PC moved by a number of instructions. -/
def YcCtx.branch (c : YcCtx) (off : Int) : YcCtx := { c with pc := (((c.pc : Int) + 4 * off) % (2 ^ 18 : Nat)).toNat }

/-- A branch: gs1 at [10:6], gs2 at [15:11], off16 (format B). -/
def ycBranch (p : Nat → Nat → Bool) : YcFn := fun s _ _ c w _ =>
  .done (if p (c.get (yGd w)) (c.get (yGs1 w)) then c.branch (toSigned 16 (yImm w)) else c.next) s

/-- a < b as signed 64-bit integers. -/
def sLt (a b : Nat) : Bool := decide (toSigned 64 a < toSigned 64 b)

/-- A CSR instruction: gd = old value where `rd`, and the CSR written where `wr` gives a value from the old one and gs1. -/
def ycCsr (rd : Bool) (wr : Nat → Nat → Option Nat) : YcFn := fun s y j c w _ =>
  let n := bits w 27 16
  let old := csrRead s y j c n
  let v := c.get (yGs1 w)
  let c1 := match wr old v with
    | some x => c.csrWrite n x
    | none => c
  .done (if rd then c1.put (yGd w) old else c1).next s

/-! ### The inbound queue (R174) -/

/-- The inbound queue of job `j`. -/
def State.inboundOf (s : State) (y j : Nat) : List InTok := Tab.get [] (s.core y).inbound j

/-- That queue replaced. -/
def State.setInbound (s : State) (y j : Nat) (q : List InTok) : State :=
  let x := s.core y
  s.setCore y { x with inbound := Tab.set [] x.inbound j q }

/-- What RECV writes to gd: payload [55:0] for CTRL, 0 for a MARK, else the payload. -/
def recvPayload (t : Token) : Nat := if t.kind = 1 then t.payload % 2 ^ 56 else if t.kind = 2 then 0 else t.payload % 2 ^ 64

/-- The indices of the oldest burst on scalar channel `ch`, where it is whole. -/
def burstIdx (q : List InTok) (ch : Nat) : Option (List Nat) :=
  let on := fun (t : InTok) => t.net == 0 && t.tok.chan == ch
  match q.find? on with
  | none => none
  | some h =>
    let ix := (List.range q.length).filter fun i =>
      match q[i]? with
      | some t => on t && t.tok.tag == h.tok.tag
      | none => false
    match indexWhere (fun i => match q[i]? with | some t => t.tok.last | none => false) ix with
    | some n => some (ix.take (n + 1))
    | none => none

/-! ### The counter block (R181..R184) -/

/-- SAT/COUNT word `w` of counter `c` incremented (Table 7.7). -/
def State.bumpWc (s : State) (c w : Nat) : State :=
  let v := s.wcWord c w
  if bit v 63 then s
  else s.setWcWord c w (if v + 1 < 2 ^ 48 - 1 then v + 1 else 2 ^ 63 + (2 ^ 48 - 1))

/-- Lease entry `i`. -/
def State.lease (s : State) (i : Nat) : Lease := Tab.get {} s.leases i

/-- That entry replaced. -/
def State.setLease (s : State) (i : Nat) (e : Lease) : State := { s with leases := Tab.set {} s.leases i e }

/-- The entries of counter `c` that are HELD or REISSUE. -/
def State.leasesOf (s : State) (c : Nat) : List (Nat × Lease) := s.leases.filter fun e => e.2.counter == c && !(e.2.st == .free)

/-- HANDLE of entry `i`: its index and generation. -/
def handleOf (i : Nat) (e : Lease) : Nat := i + e.gen * 2 ^ 12

/-- Whether a Yard core may use counter `c` for job `j` (R181). -/
def State.wcAllowed (s : State) (y j c : Nat) : Bool :=
  let v := s.wcWord c 1
  bit v 63 && s.partOfYard y == some (bits v 61 59) && bits v 58 55 == j

/-- PEAK of WC_LEASES in every Yard core page. -/
def State.peakLeases (s : State) : State := (List.range 64).foldl State.peakAt s

/-- The oldest entry of counter `c` in state REISSUE. -/
def State.oldestReissue (s : State) (c : Nat) : Option (Nat × Lease) :=
  (s.leasesOf c).foldl (fun (b : Option (Nat × Lease)) e =>
    if e.2.st = .reissue then
      match b with
      | some x => if e.2.t < x.2.t then some e else b
      | none => some e
    else b) none

/-- NEXT of counter `c` moved past a chunk; the last may be short. -/
def State.advanceWc (s : State) (c : Nat) : State :=
  let v := s.wcWord c 0
  let next := bits v 31 0
  s.setWcWord c 0 (setBits v 31 0 (next + min (bits (s.wcWord c 1) 47 32) (bits v 63 32 - next)))

/-- TAKE (R182): its result and the state. -/
def State.wcTake (s : State) (y c : Nat) : Nat × State :=
  let leased := bit (s.wcWord c 1) 62
  let next := bits (s.wcWord c 0) 31 0
  let limit := bits (s.wcWord c 0) 63 32
  match (if leased then s.oldestReissue c else none) with
  | some (i, e) =>
    (fieldAt 61 1 + fieldAt 32 (handleOf i e) + e.item, s.setLease i { e with holder := y, st := .held, t := s.now })
  | none =>
    if limit ≤ next then (fieldAt 63 1, s)
    else if !leased then (next, s.advanceWc c)
    else
      let free := (List.range 4096).filter fun i => (s.lease i).st == .free
      if free.isEmpty then (fieldAt 62 1, s.bumpWc c 3)
      else
        let (n, s1) := s.fresh
        let i := free.getD (Config.pickLease n % free.length) 0
        let e : Lease := { counter := c, item := next, holder := y, st := .held, t := s1.now, gen := (s1.lease i).gen }
        (fieldAt 32 (handleOf i e) + next, ((s1.setLease i e).advanceWc c).peakLeases)

/-- COMMIT (R183): its result and the state; a commit that is dropped is counted and reported. -/
def State.wcCommit (s : State) (r : WcReq) : Nat × State :=
  let i := bits r.handle 11 0
  let e := s.lease i
  if e.st ≠ .free ∧ e.counter = r.counter ∧ e.gen = bits r.handle 27 12 then
    let s1 := s.setLease i { e with st := .free, gen := (e.gen + 1) % 65536 }
    ((s1.leasesOf r.counter).length, s1)
  else
    let s1 := (s.bumpWc r.counter 2).bump (pgCore r.y + 0x128) 1
    (fieldAt 63 1 + (s1.leasesOf r.counter).length,
     s1.faultEv (pgCore r.y) 0x0801
       (fieldAt 56 r.job + fieldAt 46 r.counter + fieldAt 28 (r.pc % 2 ^ 18) + r.handle % 2 ^ 28) 2)

/-- The block serves the oldest request, and its instruction completes. -/
def State.wcServe (s : State) : State :=
  match s.wcQ with
  | [] => s
  | r :: rest =>
    let s0 := { s with wcQ := rest }
    let (v, s1) := if r.commit then s0.wcCommit r else s0.wcTake r.y r.counter
    match s1.ctx r.y r.job with
    | some c => if c.asked then s1.retire r.y r.job { (c.put r.gd v).next with asked := false } else s1
    | none => s1

/-- The block serves until the request of a context, if it has one, is served; `n` bounds the requests. -/
def State.wcServeFor (s : State) (y j : Nat) : (n : Nat) → State
  | 0 => s
  | n + 1 =>
    match s.ctx y j with
    | some c => if c.asked then s.wcServe.wcServeFor y j n else s
    | none => s

/-- A pre-emption (R186): a TAKE or COMMIT already sent completes first. The save reads DATA, where the check finds `e`: a double-bit
error is cause 8 of the context (R166). -/
def State.preemptNow (s : State) (y j reason : Nat) (next : CtxSt) (e : Ecc) : State :=
  let s1 := s.wcServeFor y j s.wcQ.length
  match s1.ctx y j with
  | none => s1
  | some c =>
    match (if c.dataLen = 0 then some s1 else s1.eccRead y e) with
    | some s2 => s2.preempt y j reason next
    | none => s1.ycFault y j c 8 c.dataBase

/-! ### The scheduler (R361, R362) -/

/-- Whether a context is runnable; none of a YIELDED job is placed (R363). -/
def State.runnable (s : State) (p y j : Nat) : Bool :=
  match s.ctx y j with
  | some c => (c.st == .ready || c.st == .preempted) && !(s.jobState p j == 3)
  | none => false

/-- The runnable context with the highest PRIO; among equals the next after the last placed. -/
def State.bestCtx (s : State) (p y : Nat) : Option Nat :=
  let last := (s.core y).lastPlaced
  let js := ((List.range 16).map fun i => (last + 1 + i) % 16).filter (s.runnable p y)
  js.foldl (fun (b : Option Nat) j =>
    match b with
    | some k => if s.prio p k < s.prio p j then some j else b
    | none => some j) none

/-- A context goes on the core: from its frame where its state lies there (R188), else at its PC; a cause-10 trap that waited
for it becomes due. -/
def State.placeCtx (s : State) (y j : Nat) : State :=
  match s.ctx y j with
  | none => s
  | some c =>
    let (c1, s1) := if c.inFrame then s.loadCtx y j c else (c, s)
    let s2 := s1.setCtx y j { c1.takeDue with st := .running }
    s2.setCore y { s2.core y with cur := some j, lastPlaced := j, placedAt := s2.now }

/-- QUANTUM_US has passed since the context on the core was placed. -/
def State.quantumOver (s : State) (p y : Nat) : Bool :=
  decide ((s.core y).placedAt + s.fld (pgPart p + 0x118) 15 0 * 1000 ≤ s.now)

/-- The scheduler of Yard `y` acts; with the save area unusable it neither places nor pre-empts (R355). `e` is what the check of the DATA
read of a save finds. -/
def State.schedule (s : State) (y : Nat) (e : Ecc) : State :=
  match s.partOfYard y with
  | none => s
  | some p =>
    if !(s.saveOk p) then s
    else match s.bestCtx p y with
      | none => s
      | some b =>
        match (s.core y).cur with
        | none => s.placeCtx y b
        | some j =>
          if s.flag (jobCfg p j) 62 && !(s.jobIdle j) then s
          else if s.prio p j < s.prio p b ∨ (s.prio p j = s.prio p b ∧ s.quantumOver p y) then
            (s.preemptNow y j 1 .preempted e).placeCtx y b
          else s

end Sys2Proof.Machine
end

