-- ==== Sys2Proof/Machine/YcInstr.lean ====
section
/-! DEFINITION. Yard core instructions on registers, local memory, the PC and CSRs (R167..R170, Table 7.3). Integer arithmetic wraps modulo
2^64; a write to g0 is ignored. -/
namespace Sys2Proof.Machine

/-! ### Integers -/

/-- ADD: gd = gs1 + gs2. -/
def execYcAdd (y : Yard) (r : YcReads) (s : State) : Result :=
  .next (s.whenLive fun s => s.ycRun y.val r (ycNum 0x01 0x000) (ycReg fun a b => a + b))

/-- SUB: gd = gs1 − gs2. -/
def execYcSub (y : Yard) (r : YcReads) (s : State) : Result :=
  .next (s.whenLive fun s => s.ycRun y.val r (ycNum 0x01 0x001) (ycReg fun a b => a + 2 ^ 64 - b))

/-- AND. -/
def execYcAnd (y : Yard) (r : YcReads) (s : State) : Result :=
  .next (s.whenLive fun s => s.ycRun y.val r (ycNum 0x01 0x002) (ycReg Nat.land))

/-- OR. -/
def execYcOr (y : Yard) (r : YcReads) (s : State) : Result :=
  .next (s.whenLive fun s => s.ycRun y.val r (ycNum 0x01 0x003) (ycReg Nat.lor))

/-- XOR. -/
def execYcXor (y : Yard) (r : YcReads) (s : State) : Result :=
  .next (s.whenLive fun s => s.ycRun y.val r (ycNum 0x01 0x004) (ycReg xorN))

/-- SLL: the amount is gs2[5:0]. -/
def execYcSll (y : Yard) (r : YcReads) (s : State) : Result :=
  .next (s.whenLive fun s => s.ycRun y.val r (ycNum 0x01 0x005) (ycReg fun a b => a * 2 ^ (b % 64)))

/-- SRL. -/
def execYcSrl (y : Yard) (r : YcReads) (s : State) : Result :=
  .next (s.whenLive fun s => s.ycRun y.val r (ycNum 0x01 0x006) (ycReg fun a b => a / 2 ^ (b % 64)))

/-- SRA: the quotient rounds toward minus infinity. -/
def execYcSra (y : Yard) (r : YcReads) (s : State) : Result :=
  .next (s.whenLive fun s => s.ycRun y.val r (ycNum 0x01 0x007) (ycReg fun a b => ofSigned 64 (toSigned 64 a / (2 ^ (b % 64) : Nat))))

/-- SLT. -/
def execYcSlt (y : Yard) (r : YcReads) (s : State) : Result :=
  .next (s.whenLive fun s => s.ycRun y.val r (ycNum 0x01 0x008) (ycReg fun a b => b2n (sLt a b)))

/-- SLTU. -/
def execYcSltu (y : Yard) (r : YcReads) (s : State) : Result :=
  .next (s.whenLive fun s => s.ycRun y.val r (ycNum 0x01 0x009) (ycReg fun a b => b2n (decide (a < b))))

/-- MUL: the low 64 bits of the product. -/
def execYcMul (y : Yard) (r : YcReads) (s : State) : Result :=
  .next (s.whenLive fun s => s.ycRun y.val r (ycNum 0x01 0x010) (ycReg fun a b => a * b))

/-- MULHU: the high 64 bits of the unsigned product. -/
def execYcMulhu (y : Yard) (r : YcReads) (s : State) : Result :=
  .next (s.whenLive fun s => s.ycRun y.val r (ycNum 0x01 0x011) (ycReg fun a b => a * b / 2 ^ 64))

/-- MULH: the high 64 bits of the signed product. -/
def execYcMulh (y : Yard) (r : YcReads) (s : State) : Result :=
  .next (s.whenLive fun s => s.ycRun y.val r (ycNum 0x01 0x012) (ycReg fun a b => ofSigned 64 (toSigned 64 a * toSigned 64 b / (2 ^ 64 : Nat))))

/-- DIVU: division by 0 gives all ones. -/
def execYcDivu (y : Yard) (r : YcReads) (s : State) : Result :=
  .next (s.whenLive fun s => s.ycRun y.val r (ycNum 0x01 0x018) (ycReg fun a b => if b = 0 then 2 ^ 64 - 1 else a / b))

/-- REMU: division by 0 leaves gs1. -/
def execYcRemu (y : Yard) (r : YcReads) (s : State) : Result :=
  .next (s.whenLive fun s => s.ycRun y.val r (ycNum 0x01 0x019) (ycReg fun a b => if b = 0 then a else a % b))

/-- DIV: toward zero; −2^63 / −1 is 2^63 modulo 2^64, which is −2^63. -/
def execYcDiv (y : Yard) (r : YcReads) (s : State) : Result :=
  .next (s.whenLive fun s => s.ycRun y.val r (ycNum 0x01 0x01A) (ycReg fun a b =>
    if b = 0 then 2 ^ 64 - 1 else ofSigned 64 ((toSigned 64 a).tdiv (toSigned 64 b))))

/-- REM. -/
def execYcRem (y : Yard) (r : YcReads) (s : State) : Result :=
  .next (s.whenLive fun s => s.ycRun y.val r (ycNum 0x01 0x01B) (ycReg fun a b => if b = 0 then a else ofSigned 64 ((toSigned 64 a).tmod (toSigned 64 b))))

/-- ADDI: the immediate is sign-extended. -/
def execYcAddi (y : Yard) (r : YcReads) (s : State) : Result :=
  .next (s.whenLive fun s => s.ycRun y.val r (ycNum 0x02 0) (ycImm fun a i => a + ofSigned 64 (toSigned 16 i)))

/-- ANDI: the immediate is zero-extended. -/
def execYcAndi (y : Yard) (r : YcReads) (s : State) : Result :=
  .next (s.whenLive fun s => s.ycRun y.val r (ycNum 0x03 0) (ycImm Nat.land))

/-- ORI. -/
def execYcOri (y : Yard) (r : YcReads) (s : State) : Result :=
  .next (s.whenLive fun s => s.ycRun y.val r (ycNum 0x04 0) (ycImm Nat.lor))

/-- XORI. -/
def execYcXori (y : Yard) (r : YcReads) (s : State) : Result :=
  .next (s.whenLive fun s => s.ycRun y.val r (ycNum 0x05 0) (ycImm xorN))

/-- SLLI: the amount is imm[5:0]. -/
def execYcSlli (y : Yard) (r : YcReads) (s : State) : Result :=
  .next (s.whenLive fun s => s.ycRun y.val r (ycNum 0x06 0) (ycImm fun a i => a * 2 ^ (i % 64)))

/-- SRLI. -/
def execYcSrli (y : Yard) (r : YcReads) (s : State) : Result :=
  .next (s.whenLive fun s => s.ycRun y.val r (ycNum 0x06 1) (ycImm fun a i => a / 2 ^ (i % 64)))

/-- SRAI. -/
def execYcSrai (y : Yard) (r : YcReads) (s : State) : Result :=
  .next (s.whenLive fun s => s.ycRun y.val r (ycNum 0x06 2) (ycImm fun a i => ofSigned 64 (toSigned 64 a / (2 ^ (i % 64) : Nat))))

/-- LSH16: gd = (gs1 << 16) | imm. -/
def execYcLsh16 (y : Yard) (r : YcReads) (s : State) : Result :=
  .next (s.whenLive fun s => s.ycRun y.val r (ycNum 0x07 0) (ycImm fun a i => a * 2 ^ 16 % 2 ^ 64 + i))

/-! ### FP32 -/

/-- FCVT.L (Table 7.3): its operand is an FP32 half of gs1. -/
def fcvtL : YcFn := fun s _ _ c w _ =>
  .done (c.put (yGd w) (ofSigned 64 (toInt64 (f32 (fpHalf (c.get (yGs1 w)) (bit (yFn w) 5)))))).next s

/-- FCVT.F (Table 7.3): its operand is the whole of gs1; the result is in gd[31:0]. -/
def fcvtF : YcFn := fun s _ _ c w _ =>
  let i := toSigned 64 (c.get (yGs1 w))
  .done (c.put (yGd w) (toF32 (.fin (decide (i < 0)) i.natAbs 0)).toNat).next s

/-- FADD. -/
def execYcFadd (y : Yard) (r : YcReads) (s : State) : Result :=
  .next (s.whenLive fun s => s.ycRun y.val r (ycNum 0x08 0) (ycFp f32Add))

/-- FSUB. -/
def execYcFsub (y : Yard) (r : YcReads) (s : State) : Result :=
  .next (s.whenLive fun s => s.ycRun y.val r (ycNum 0x08 1) (ycFp f32Sub))

/-- FMUL. -/
def execYcFmul (y : Yard) (r : YcReads) (s : State) : Result :=
  .next (s.whenLive fun s => s.ycRun y.val r (ycNum 0x08 2) (ycFp f32Mul))

/-- FDIV. -/
def execYcFdiv (y : Yard) (r : YcReads) (s : State) : Result :=
  .next (s.whenLive fun s => s.ycRun y.val r (ycNum 0x08 3) (ycFp f32Div))

/-- FMIN: NaN if either operand is NaN. -/
def execYcFmin (y : Yard) (r : YcReads) (s : State) : Result :=
  .next (s.whenLive fun s => s.ycRun y.val r (ycNum 0x08 4) (ycFp f32Min))

/-- FMAX. -/
def execYcFmax (y : Yard) (r : YcReads) (s : State) : Result :=
  .next (s.whenLive fun s => s.ycRun y.val r (ycNum 0x08 5) (ycFp f32Max))

/-- FSQRT of gs1. -/
def execYcFsqrt (y : Yard) (r : YcReads) (s : State) : Result :=
  .next (s.whenLive fun s => s.ycRun y.val r (ycNum 0x08 6) (ycFp fun a _ => f32Sqrt a))

/-- FLT: 0 with a NaN. -/
def execYcFlt (y : Yard) (r : YcReads) (s : State) : Result :=
  .next (s.whenLive fun s => s.ycRun y.val r (ycNum 0x08 7) (ycCmp f32Lt))

/-- FLE. -/
def execYcFle (y : Yard) (r : YcReads) (s : State) : Result :=
  .next (s.whenLive fun s => s.ycRun y.val r (ycNum 0x08 8) (ycCmp fun a b => f32Lt a b || f32Eq a b))

/-- FEQ. -/
def execYcFeq (y : Yard) (r : YcReads) (s : State) : Result :=
  .next (s.whenLive fun s => s.ycRun y.val r (ycNum 0x08 9) (ycCmp f32Eq))

/-- FCVT.L: a 64-bit integer toward zero, saturating; NaN gives 0. -/
def execYcFcvtL (y : Yard) (r : YcReads) (s : State) : Result :=
  .next (s.whenLive fun s => s.ycRun y.val r (ycNum 0x08 0xA) fcvtL)

/-- FCVT.F: the 64-bit signed integer gs1 with one rounding. -/
def execYcFcvtF (y : Yard) (r : YcReads) (s : State) : Result :=
  .next (s.whenLive fun s => s.ycRun y.val r (ycNum 0x08 0xB) fcvtF)

/-! ### Local memory -/

/-- LD. -/
def execYcLd (y : Yard) (r : YcReads) (s : State) : Result :=
  .next (s.whenLive fun s => s.ycRun y.val r (ycNum 0x10 0) (ycLoad 8 id))

/-- LW: zero-extended. -/
def execYcLw (y : Yard) (r : YcReads) (s : State) : Result :=
  .next (s.whenLive fun s => s.ycRun y.val r (ycNum 0x11 0) (ycLoad 4 id))

/-- LWS: sign-extended. -/
def execYcLws (y : Yard) (r : YcReads) (s : State) : Result :=
  .next (s.whenLive fun s => s.ycRun y.val r (ycNum 0x12 0) (ycLoad 4 fun v => ofSigned 64 (toSigned 32 v)))

/-- LB. -/
def execYcLb (y : Yard) (r : YcReads) (s : State) : Result :=
  .next (s.whenLive fun s => s.ycRun y.val r (ycNum 0x13 0) (ycLoad 1 id))

/-- SD. -/
def execYcSd (y : Yard) (r : YcReads) (s : State) : Result :=
  .next (s.whenLive fun s => s.ycRun y.val r (ycNum 0x14 0) (ycStore 8))

/-- SW. -/
def execYcSw (y : Yard) (r : YcReads) (s : State) : Result :=
  .next (s.whenLive fun s => s.ycRun y.val r (ycNum 0x15 0) (ycStore 4))

/-- SB. -/
def execYcSb (y : Yard) (r : YcReads) (s : State) : Result :=
  .next (s.whenLive fun s => s.ycRun y.val r (ycNum 0x16 0) (ycStore 1))

/-! ### Branches and jumps -/

/-- g31 = PC + 4; PC = PC + 4 × off26. -/
def ycJalFn : YcFn := fun s _ _ c w _ => .done ((c.put 31 c.next.pc).branch (toSigned 26 (bits w 31 6))) s

/-- gd = PC + 4; PC = (gs1 + imm) with bits [1:0] cleared. -/
def ycJalrFn : YcFn := fun s _ _ c w _ =>
  .done { c.put (yGd w) c.next.pc with pc := yAddr c w % 2 ^ 18 / 4 * 4 } s

/-- BEQ. -/
def execYcBeq (y : Yard) (r : YcReads) (s : State) : Result :=
  .next (s.whenLive fun s => s.ycRun y.val r (ycNum 0x18 0) (ycBranch fun a b => a == b))

/-- BNE. -/
def execYcBne (y : Yard) (r : YcReads) (s : State) : Result :=
  .next (s.whenLive fun s => s.ycRun y.val r (ycNum 0x19 0) (ycBranch fun a b => !(a == b)))

/-- BLT. -/
def execYcBlt (y : Yard) (r : YcReads) (s : State) : Result :=
  .next (s.whenLive fun s => s.ycRun y.val r (ycNum 0x1A 0) (ycBranch sLt))

/-- BGE. -/
def execYcBge (y : Yard) (r : YcReads) (s : State) : Result :=
  .next (s.whenLive fun s => s.ycRun y.val r (ycNum 0x1B 0) (ycBranch fun a b => !(sLt a b)))

/-- BLTU. -/
def execYcBltu (y : Yard) (r : YcReads) (s : State) : Result :=
  .next (s.whenLive fun s => s.ycRun y.val r (ycNum 0x1C 0) (ycBranch fun a b => decide (a < b)))

/-- BGEU. -/
def execYcBgeu (y : Yard) (r : YcReads) (s : State) : Result :=
  .next (s.whenLive fun s => s.ycRun y.val r (ycNum 0x1D 0) (ycBranch fun a b => decide (b ≤ a)))

/-- JAL. -/
def execYcJal (y : Yard) (r : YcReads) (s : State) : Result :=
  .next (s.whenLive fun s => s.ycRun y.val r (ycNum 0x1E 0) ycJalFn)

/-- JALR. -/
def execYcJalr (y : Yard) (r : YcReads) (s : State) : Result :=
  .next (s.whenLive fun s => s.ycRun y.val r (ycNum 0x1F 0) ycJalrFn)

/-! ### CSRs (R170) -/

/-- CSRR: gd = CSR. -/
def execYcCsrr (y : Yard) (r : YcReads) (s : State) : Result :=
  .next (s.whenLive fun s => s.ycRun y.val r (ycNum 0x20 0) (ycCsr true fun _ _ => none))

/-- CSRW: CSR = gs1. -/
def execYcCsrw (y : Yard) (r : YcReads) (s : State) : Result :=
  .next (s.whenLive fun s => s.ycRun y.val r (ycNum 0x21 0) (ycCsr false fun _ v => some v))

/-- CSRSET: gd = old value, then the bits of gs1 are set. -/
def execYcCsrset (y : Yard) (r : YcReads) (s : State) : Result :=
  .next (s.whenLive fun s => s.ycRun y.val r (ycNum 0x22 0) (ycCsr true fun o v => some (Nat.lor o v)))

/-- CSRCLR: gd = old value, then the bits of gs1 are cleared. -/
def execYcCsrclr (y : Yard) (r : YcReads) (s : State) : Result :=
  .next (s.whenLive fun s => s.ycRun y.val r (ycNum 0x23 0) (ycCsr true fun o v => some (o - maskAnd o v)))

end Sys2Proof.Machine
end

