-- ==== Sys2Proof/Machine/YardCore.lean ====
section
/-! DEFINITION. Yard core instructions that reach other parts (R174..R179, R182, R183), and the commands of the Yard core: its port, its
streamer, XFERs, the counter block, YC_CTRL, the scheduler (R173, R176, R179, R182..R185, R189, R361). -/
namespace Sys2Proof.Machine

/-! ### Port 4 (R173, R175) -/

/-- YC_INBOUND_TOKEN (R173): port 4 takes the token its switch offers on a lane into the inbound queue of its job, unless 120 entries
from the fabric fill it; a header error is reported (R62), a vector token is a stray. -/
def execYcInboundToken (y : Yard) (lane : Lane) (flip : BitVec 32) (s : State) : Result :=
  .next (s.whenLive fun s =>
    let l := laneCode lane
    let net := laneNet l
    match s.offer y.val 4 l with
    | none => s
    | some t0 =>
      let t : Token := { t0 with hdr := t0.hdr ^^^ flip }
      match destError net t with
      | some c => (s.takeOffer y.val 4 l).ctrlError y.val 38 c t.hdr.toNat
      | none =>
        if net = 0 then (s.takeOffer y.val 4 l).stray y.val
        else if 120 ≤ ((s.inboundOf y.val t.job).filter fun e => !e.notice).length ∨ 128 ≤ (s.inboundOf y.val t.job).length then s
        else ((s.takeOffer y.val 4 l).enqueueIn y.val t.job { net := net - 1, tok := t, notice := false }).progressY y.val)

/-- The opcodes a Yard core may send (R175). -/
def sendOpcode (o : Nat) : Bool := o == 1 || o == 2 || decide (0x20 ≤ o ∧ o ≤ 0x2F) || o == 0x33

/-- SEND (R175): the header of gs1[30:4], TAG of IN_HDR with TAGIN, JOB of the context, the payload gs2; it waits for room in the switch's
input queue of port 4. -/
def sendFn : YcFn := fun s y j c w _ =>
  let v := c.get (yGs1 w)
  let pay := c.get (yGs2 w)
  let hal := bit (yFn w) 0
  let tag := if bit (yFn w) 1 then bits c.inHdr 19 4 else bits v 19 4
  let kind := bits v 29 28
  let hdr := mkHdr j tag (bits v 27 20) kind (bit v 30)
  let t : Token := { hdr := hdr, payload := if kind = 1 then pay % 2 ^ 56 else if kind = 2 then 0 else pay }
  if (if hal then kind ≠ 1 else kind ≠ 0 ∧ kind ≠ 2) ∨ (hal ∧ !(sendOpcode t.opcode)) then .exc 4 hdr.toNat s
  else
    let l := if hal then 9 else 8
    let q := s.inQueue y 4 l
    if 16 ≤ q.length then .wait c s else .done c.next ((s.setInQueue y 4 l (q ++ [t])).progressY y)

/-- SEND. -/
def execYcSend (y : Yard) (r : YcReads) (s : State) : Result := .next (s.whenLive fun s => s.ycRun y.val r (ycNum 0x28 0) sendFn)

/-! ### The inbound queue (R174) -/

/-- RECV. -/
def recvFn : YcFn := fun s y j c w _ =>
  let v := c.get (yGs1 w)
  let q := s.inboundOf y j
  match indexWhere (fun (e : InTok) => e.net == bits v 8 8 && e.tok.chan == bits v 7 0) q with
  | some i =>
    match q[i]? with
    | some e => .done { (c.put (yGd w) (recvPayload e.tok)).next with inValid := true, inHdr := e.tok.hdr.toNat } (s.setInbound y j (dropAt q i))
    | none => .wait c s
  | none => if bit (yFn w) 0 then .done { c.next with inValid := false } s else .wait c s

/-- RECV. -/
def execYcRecv (y : Yard) (r : YcReads) (s : State) : Result := .next (s.whenLive fun s => s.ycRun y.val r (ycNum 0x29 0) recvFn)

/-- GETSUM: a burst of four DATA tokens, one MARK (the identity summary), or any other burst, which is discarded (cause 9). -/
def getsumFn : YcFn := fun s y j c w _ =>
  let q := s.inboundOf y j
  match burstIdx q (c.get (yGs1 w) % 256) with
  | none => .wait c s
  | some ix =>
    let ts := ix.filterMap fun i => (q[i]?).map (·.tok)
    let h := ((ts.getLast?).map fun t => t.hdr.toNat).getD 0
    let c1 := { c with inValid := true, inHdr := h }
    let s1 := (s.setInbound y j (((List.range q.length).filter fun i => !(ix.contains i)).filterMap fun i => q[i]?)).setCtx y j c1
    let gd := yGd w
    let put4 := fun (a b d e : Nat) => (((c1.put gd a).put (gd + 1) b).put (gd + 2) d).put (gd + 3) e
    match ts with
    | [a, b, d, e] =>
      if ts.all (·.kind == 0) then
        .done { (put4 a.payload b.payload d.payload e.payload).next with status := setBit c1.status 1 false } s1
      else .exc 9 h s1
    | [a] =>
      if a.kind = 2 then
        .done { (put4 0xFF80_0000_7F80_0000 0 0 0x0000_0000_FFFF_FFFF).next with status := setBit c1.status 1 true } s1
      else .exc 9 h s1
    | _ => .exc 9 h s1

/-- GETSUM. -/
def execYcGetsum (y : Yard) (r : YcReads) (s : State) : Result := .next (s.whenLive fun s => s.ycRun y.val r (ycNum 0x2A 0) getsumFn)

/-- WAIT: 1 where the queue holds an entry, 0 once GLB_TIME ≥ gs1. -/
def waitFn : YcFn := fun s y j c w _ =>
  if !(s.inboundOf y j).isEmpty then .done (c.put (yGd w) 1).next s
  else if c.get (yGs1 w) ≤ s.now then .done (c.put (yGd w) 0).next s
  else .wait c s

/-- WAIT. -/
def execYcWait (y : Yard) (r : YcReads) (s : State) : Result := .next (s.whenLive fun s => s.ycRun y.val r (ycNum 0x2B 0) waitFn)

/-! ### The reef streamer (R176) -/

/-- The tokens of a streamed record: REEF_OPEN with COUNT, REEF_DATA of 6 bytes each, zero-padded, REEF_CLOSE with the CRC-32C. -/
def reefToks (j tag : Nat) (bs : List Byte) : List Token :=
  let n := ceilDiv bs.length 6
  let tok := ctrlTok j tag 0xFF
  [tok 0x10 (fieldOf bs 2 1 % 8 + fieldAt 16 n)] ++ (List.range n).map (fun i => tok 0x11 (leNat ((bs.drop (6 * i)).take 6))) ++
    [tok 0x12 (crc32c bs)]

/-- REEFSEND: the record at local address gs1. The spec gives neither TRAP_VAL of its cause 4 nor the TAG of the tokens (free values). -/
def reefsendFn : YcFn := fun s y j c w e =>
  let a := c.get (yGs1 w)
  if !(s.ycOk y j a 16) then .exc 3 a s
  else
    let n := 16 + (s.local_ y).readNat (a + 12) 2
    if !(s.ycOk y j a n) then .exc 3 a s
    else match s.eccRead y e with
      | none => .exc 8 a s
      | some s1 =>
        let bs := (s1.local_ y).read a n
        let (k, s2) := s1.fresh
        if fieldOf bs 0 1 ≠ y ∨ 37 < fieldOf bs 1 1 then .exc 4 (Config.freeWord k).toNat s2
        else
          let x := s.core y
          if 4 ≤ x.streamer.length then .wait c s
          else
            let rec_ : StreamRec := { job := j, unit := fieldOf bs 1 1, toks := reefToks j (Config.freeWord k).toNat bs }
            .done c.next (s2.setCore y { s2.core y with streamer := (s2.core y).streamer ++ [rec_] })

/-- REEFSEND. -/
def execYcReefsend (y : Yard) (r : YcReads) (s : State) : Result := .next (s.whenLive fun s => s.ycRun y.val r (ycNum 0x2C 0) reefsendFn)

/-- REEF_STREAMER_SEND (R176): the next token of the oldest record goes to its unit by the fixed route. -/
def execReefStreamerSend (y : Yard) (s : State) : Result :=
  .next (s.whenLive fun s =>
    let x := s.core y.val
    match x.streamer with
    | [] => s
    | r :: rest =>
      match r.toks with
      | [] => s.setCore y.val { x with streamer := rest }
      | t :: ts =>
        if (s.offer y.val (8 + r.unit) 9).isSome then s
        else
          let q := if ts.isEmpty then rest else { r with toks := ts } :: rest
          ((s.setCore y.val { x with streamer := q }).setOffer y.val (8 + r.unit) 9 t).progressY y.val)

/-! ### ISSUE (R177) -/

/-- The start record in 80 bytes (Table 4.2). -/
def parseStart (job : Nat) (src : RecSource) (bs : List Byte) : StartRec :=
  { job := job, rig := fieldOf bs 0 1, section_ := fieldOf bs 2 2, tagBase := fieldOf bs 4 2
    ext := (List.range 16).map fun d => fieldOf bs (16 + 4 * d) 4, src := src }

/-- A start record is handed to the tracker of partition `p`. -/
def State.handRecord (s : State) (p : Nat) (r : StartRec) : State :=
  { s with issueQ := Tab.put s.issueQ p (Tab.get [] s.issueQ p ++ [r]) }

/-- ISSUE: the tracker checks the lead Yard and the job (SECTION_ISSUE). -/
def issueFn : YcFn := fun s y j c w e =>
  let a := c.get (yGs1 w)
  if !(s.ycOk y j a 80) then .exc 3 a s
  else match s.eccRead y e with
    | none => .exc 8 a s
    | some s1 =>
      .done c.next (s1.handRecord ((s1.partOfYard y).getD 0) (parseStart j (.core y) ((s1.local_ y).read a 80)))

/-- ISSUE. -/
def execYcIssue (y : Yard) (r : YcReads) (s : State) : Result := .next (s.whenLive fun s => s.ycRun y.val r (ycNum 0x2D 0) issueFn)

/-! ### XFER (R179) -/

/-- XFER: g[10:6] bytes between local address gs1 and HBM address gs2; a fifth waits. -/
def xferFn : YcFn := fun s y j c w _ =>
  let n := c.get (yGd w)
  let a := c.get (yGs1 w)
  let h := c.get (yGs2 w)
  if n < 16 ∨ 65536 < n ∨ n % 16 ≠ 0 ∨ !(s.reach ((s.partOfYard y).getD 0) h n) then .exc 5 h s
  else if !(s.ycOk y j a n) then .exc 3 a s
  else if 4 ≤ c.xfers.length then .wait c s
  else
    let (x, s1) := s.startXfer y j { loc := a, hbm := h, left := n, toHbm := bit (yFn w) 0 }
    .done { c.next with xfers := c.xfers ++ [x] } s1

/-- XFER, HBM to local memory. -/
def execYcXferToLocal (y : Yard) (r : YcReads) (s : State) : Result := .next (s.whenLive fun s => s.ycRun y.val r (ycNum 0x2E 0) xferFn)

/-- XFER, local memory to HBM. -/
def execYcXferToHbm (y : Yard) (r : YcReads) (s : State) : Result := .next (s.whenLive fun s => s.ycRun y.val r (ycNum 0x2E 1) xferFn)

/-- An XFER in flight copies its bytes and frees its slot. A double-bit error in the local memory it reads is cause 8 of its context (R166);
of one that has faulted already the XFER just ends. -/
def State.xferEnd (s : State) (y j i : Nat) (c : YcCtx) (x : Xfer) (e : Ecc) : State :=
  let free := { c with xfers := dropAt c.xfers i }
  match (if x.toHbm then s.eccRead y e else some s) with
  | some s1 => ((s1.xferBytes y x x.left).dropAsk (askKey (.xfer x.id))).setCtx y j free
  | none => if c.st = .faulted then (s.dropAsk (askKey (.xfer x.id))).setCtx y j free else s.ycFault y j c 8 x.loc

/-- XFER_COMPLETE (R179): XFER `i.1` of a context has copied its bytes and frees its slot; `i.2` is what the check of the local memory it reads
finds. Its memory requests have been answered. One kept in a save frame is not in flight. -/
def execXferComplete (y : Yard) (j : JobId) (i : Fin 4 × Ecc) (s : State) : Result :=
  .next (s.whenLive fun s =>
    match s.ctx y.val j.val with
    | none => s
    | some c =>
      match (if c.inFrame then none else c.xfers[i.1.val]?) with
      | none => s
      | some x => if s.served (askKey (.xfer x.id)) then s.xferEnd y.val j.val i.1.val c x i.2 else s)

/-- FENCE: no XFER of the context is in flight. -/
def fenceFn : YcFn := fun s _ _ c _ _ => if c.xfers.isEmpty then .done c.next s else .wait c s

/-- FENCE. -/
def execYcFence (y : Yard) (r : YcReads) (s : State) : Result := .next (s.whenLive fun s => s.ycRun y.val r (ycNum 0x2F 0) fenceFn)

/-! ### Work counters (R181..R185) -/

/-- A request sent to the counter block: the instruction completes when it is served. -/
def askFn (commit : Bool) : YcFn := fun s y j c w _ =>
  let n := c.get (if commit then yGs2 w else yGs1 w) % 1024
  if !(s.wcAllowed y j n) then .exc 6 n s
  else
    let q : WcReq := { y := y, job := j, commit := commit, counter := n, handle := c.get (yGs1 w) % 2 ^ 28, gd := yGd w, pc := c.pc }
    .wait { c with asked := true } { s with wcQ := s.wcQ ++ [q] }

/-- TAKE (R182). -/
def execYcTake (y : Yard) (r : YcReads) (s : State) : Result := .next (s.whenLive fun s => s.ycRun y.val r (ycNum 0x30 0) (askFn false))

/-- COMMIT (R183). -/
def execYcCommit (y : Yard) (r : YcReads) (s : State) : Result := .next (s.whenLive fun s => s.ycRun y.val r (ycNum 0x31 0) (askFn true))

/-- WORK_COUNTER_SERVE (R182, R183): the block serves the oldest request and returns its result. -/
def execWorkCounterServe (s : State) : Result := .next (s.whenLive fun s => s.wcServe)

/-- LEASE_TIMEOUT (R184): HELD entries older than their counter's TIMEOUT_US become REISSUE. -/
def execLeaseTimeout (dt : Nat) (s : State) : Result :=
  .next ((s.tick dt).whenLive fun s =>
    { s with leases := s.leases.map fun e =>
        let t := bits (s.wcWord e.2.counter 1) 31 0
        if e.2.st = .held ∧ t ≠ 0 ∧ e.2.t + t * 1000 < s.now then (e.1, { e.2 with st := .reissue }) else e })

/-- The entries of a counter freed, their generations incremented (R184). -/
def State.freeLeases (s : State) (c : Nat) : State :=
  { s with leases := s.leases.map fun e =>
      if e.2.counter = c ∧ e.2.st ≠ .free then (e.1, { e.2 with st := .free, gen := (e.2.gen + 1) % 65536 }) else e }

/-- A write of `w` to the bits `m` of the word WC_SEL selects, through the page of Yard `y` (R185, Table 7.7). -/
def State.wcWrite (s : State) (y w m : Nat) : State :=
  let c := s.fld (pgCore y + 0x200) 9 0
  let k := s.fld (pgCore y + 0x200) 17 16
  let cfg := s.wcWord c 1
  let mine := fun (v : Nat) => s.partOfYard y == some (bits v 61 59)
  let old := s.wcWord c k
  let new := mergeBits old w m
  if bit cfg 63 && !(mine cfg) then s
  else match k with
    | 0 => if m % 2 = 1 then (s.setWcWord c 0 new).freeLeases c else s.setWcWord c 0 new
    | 1 =>
      if bit m 59 && !(mine new) then s
      else
        let v := setBits new 54 48 0
        s.setWcWord c 1 (if bits v 47 32 = 0 then setBits v 47 32 1 else v)
    | _ => if bit (maskAnd w m) 63 then s.setWcWord c k 0 else s

/-- WC_DATA_WRITE (R185): the block serves the write after the requests that came before it. -/
def execWcDataWrite (acc : Acc) (y : Yard) (w : W64) (s : State) : Result :=
  .next (s.hostWrite acc (pgCore y.val + 0x208) fun t => (iter State.wcServe t.wcQ.length t).wcWrite y.val w.toNat (accMask acc))

/-! ### HALT and TRET -/

/-- HALT: the context stops in state HALTED. -/
def haltFn : YcFn := fun s _ _ c _ _ => .done { c.next with st := .halted } s

/-- HALT. -/
def execYcHalt (y : Yard) (r : YcReads) (s : State) : Result := .next (s.whenLive fun s => s.ycRun y.val r (ycNum 0x38 0) haltFn)

/-- TRET (Table 7.3, R171): PC = TRAP_PC, IN_TRAP = 0; a cause-10 trap that was held is then taken. -/
def tretFn : YcFn := fun s _ _ c _ _ =>
  .done { c with pc := c.trapPc % 2 ^ 18, status := setBit c.status 0 false }.takeHeld s

/-- TRET. -/
def execYcTret (y : Yard) (r : YcReads) (s : State) : Result := .next (s.whenLive fun s => s.ycRun y.val r (ycNum 0x39 0) tretFn)

/-! ### Waiting instructions (R164) -/

/-- The instruction a waiting word encodes; a TAKE or COMMIT waits for the block. -/
def waitingFn (w : Nat) : YcFn :=
  match bits w 5 0 with
  | 0x28 => sendFn
  | 0x29 => recvFn
  | 0x2A => getsumFn
  | 0x2B => waitFn
  | 0x2C => reefsendFn
  | 0x2E => xferFn
  | 0x2F => fenceFn
  | _ => fun s _ _ c _ _ => .wait c s

/-- YC_WAKE (R164): the instruction that waits on core `y` completes, where it now can. -/
def execYcWake (dt : Nat) (y : Yard) (r : YcReads) (s : State) : Result :=
  .next ((s.tick dt).whenLive fun s =>
    match (s.core y.val).cur with
    | none => s
    | some j =>
      match s.ctx y.val j with
      | none => s
      | some c => if c.st = .blocked ∧ !c.asked then (waitingFn c.word s y.val j c c.word r.data).settle y.val j c c.word else s)

/-! ### YC_CTRL (R189) -/

/-- STOP: a context on the core is pre-empted with REASON 2 and held STOPPED, unless the save area is unusable (R355); a READY context is
held STOPPED without a save. -/
def State.stopCtx (s : State) (y j : Nat) (e : Ecc) : State :=
  match s.ctx y j with
  | none => s
  | some c =>
    match c.st with
    | .running | .blocked => if s.saveOk ((s.partOfYard y).getD 0) then s.preemptNow y j 2 .stopped e else s
    | .ready => s.setCtx y j { c with st := .stopped, shownPc := c.pc }
    | _ => s

/-- START: a STOPPED or HALTED context becomes READY. -/
def State.startCtx (s : State) (y j : Nat) : State :=
  match s.ctx y j with
  | none => s
  | some c =>
    match c.st with
    | .stopped | .halted => s.setCtx y j { c with st := .ready }
    | _ => s

/-- A write to YC_CTRL: JOB is stored, STOP acts, then START (their order in one write is a DESIGN CHOICE, assumption 42). -/
def State.ycCtrl (s : State) (acc : Acc) (y : Nat) (w : W64) (e : Ecc) : State :=
  s.hostWrite acc (pgCore y + 0x108) fun t =>
    let t1 := t.storeReg (pgCore y + 0x108) w.toNat (accMask acc)
    let j := t1.fld (pgCore y + 0x108) 7 4
    let t2 := if acts w.toNat 0 then t1.stopCtx y j e else t1
    if acts w.toNat 1 then t2.startCtx y j else t2

/-- STOP (R189); `w.2` is what the check of the DATA read of the save finds. -/
def execStop (acc : Acc) (y : Yard) (w : W64 × Ecc) (s : State) : Result := .next (s.ycCtrl acc y.val w.1 w.2)

/-- START (R189). -/
def execStart (acc : Acc) (y : Yard) (w : W64) (s : State) : Result := .next (s.ycCtrl acc y.val w .ok)

/-! ### The scheduler (R361) -/

/-- SCHED_DECIDE. -/
def execSchedDecide (y : Yard × Ecc) (s : State) : Result := .next (s.whenLive fun s => s.schedule y.1.val y.2)

/-- SCHED_QUANTUM: QUANTUM_US has passed since the context on the core was placed. -/
def execSchedQuantum (dt : Nat) (y : Yard × Ecc) (s : State) : Result :=
  .next ((s.tick dt).whenLive fun s =>
    match s.partOfYard y.1.val with
    | some p => if s.quantumOver p y.1.val then s.schedule y.1.val y.2 else s
    | none => s)

end Sys2Proof.Machine
end

