-- ==== Sys2Proof/Machine/JobRows.lean ====
section
/-! DEFINITION. Commands of partitions, jobs and rings (R353..R373). -/
namespace Sys2Proof.Machine

/-! ### Partition settings (R353..R355) -/

/-- SC_WAYS of a partition. -/
def State.waysOf (s : State) (p : Nat) : Nat := s.fld (pgPart p + 0x100) 47 32
/-- VCS of a partition. -/
def State.vcsOf (s : State) (p : Nat) : Nat := s.fld (pgPart p + 0x100) 31 25

/-- Whether partition `p` would own a Yard, a way, a VC or a channel of another enabled partition (R353, R354). -/
def State.clashes (s : State) (p : Nat) : Bool :=
  (List.range 8).any fun q => decide (q ≠ p) && s.partOn q &&
    (!(maskAnd (s.reg (pgPart p + 0x108)) (s.reg (pgPart q + 0x108)) == 0) || !(maskAnd (s.waysOf p) (s.waysOf q) == 0) ||
      !(maskAnd (s.vcsOf p) (s.vcsOf q) == 0) || (List.range 1024).any fun c => s.granted p c && s.granted q c)

/-- REFUSED of PT_CFG. -/
def State.setPtRefused (s : State) (p : Nat) (b : Bool) : State := s.setFlag (pgPart p + 0x100) 62 b

/-- Whether partition `p` has an image loaded. -/
def State.loadedIn (s : State) (p : Nat) : Bool := s.images.any (·.part == p)

/-- A candidate setting taken where it clashes with no enabled partition, else refused (R354). -/
def State.takeSetting (s : State) (p : Nat) (t : State) : State :=
  if t.partOn p && t.clashes p then s.setPtRefused p true else t.setPtRefused p false

/-- A write to PT_CFG: SC_WAYS and VCS only while no image is loaded, EN is cleared only while no job is enabled. -/
def State.writePtCfg (s : State) (p w m : Nat) : State :=
  let a := pgPart p + 0x100
  let t := s.storeReg a w m
  let t1 := if s.loadedIn p then (t.setFld a 47 32 (s.waysOf p)).setFld a 31 25 (s.vcsOf p) else t
  let t2 := if s.partOn p && !(t1.partOn p) && !(s.jobsOf p).isEmpty then t1.setFlag a 63 true else t1
  s.takeSetting p t2

/-- A write to PT_CHAN[i]: home bits are not written, and a claim of a channel whose home Yard belongs to another enabled partition is
refused. -/
def State.writePtChan (s : State) (p i w m : Nat) : State :=
  let a := pgPart p + 0x300 + 8 * i
  let home := ((List.range 64).map fun b => fieldAt b (b2n (match homeYard (64 * i + b) with
    | some y => s.flag (pgPart p + 0x108) y
    | none => false))).foldl (· + ·) 0
  let t := s.storeReg a w (m - maskAnd m home)
  let foreign := (List.range 64).any fun b => t.flag a b && (match homeYard (64 * i + b) with
    | some y => (List.range 8).any fun q => decide (q ≠ p) && s.partOn q && s.flag (pgPart q + 0x108) y
    | none => false)
  if s.loadedIn p then s else if foreign then s.setPtRefused p true else s.takeSetting p t

/-- PT_CFG_WRITE (R354): PT_CFG, PT_YARDS, PT_CHAN. -/
def execPtCfgWrite (acc : Acc) (p : Part) (r : PtReg) (w : W64) (s : State) : Result :=
  let m := accMask acc
  match r with
  | .cfg => .next (s.hostWrite acc (pgPart p.val + 0x100) fun t => t.writePtCfg p.val w.toNat m)
  | .yards =>
    let a := pgPart p.val + 0x108
    .next (s.hostWrite acc a fun t => if t.loadedIn p.val then t else t.takeSetting p.val (t.storeReg a w.toNat m))
  | .chan i => .next (s.hostWrite acc (pgPart p.val + 0x300 + 8 * i.val) fun t => t.writePtChan p.val i.val w.toNat m)

/-- PT_SAVE_WRITE (R355): refused unless the save area lies in one LIVE channel granted to the partition. -/
def execPtSaveWrite (acc : Acc) (p : Part) (w : W64) (s : State) : Result :=
  let a := pgPart p.val + 0x110
  .next (s.hostWrite acc a fun t =>
    let t1 := t.storeReg a w.toNat (accMask acc)
    if t1.saveOk p.val then t1.setPtRefused p.val false else t.setPtRefused p.val true)

/-- ERR_INFO of Table 15.11. -/
def jobInfo (j cause index value : Nat) : Nat := fieldAt 56 j + fieldAt 48 cause + fieldAt 32 index + value % 2 ^ 32

/-- The partition, other than `p`, whose PT_JOB_CFG has EN = 1 for job `j`. -/
def State.jobElsewhere (s : State) (p j : Nat) : Option Nat := firstBelow 8 fun q => decide (q ≠ p) && s.flag (jobCfg q j) 63

/-- A write to PT_JOB_CFG (R356): JOB_LIMIT refuses EN, and REFUSED here and in PT_CFG tells of the last write of EN; EN is cleared only while no
image of the job is loaded and its ring is disabled. STATE follows EN (Table 15.7). -/
def State.writeJobCfg (s : State) (p j w m : Nat) : State :=
  let a := jobCfg p j
  let t := s.storeReg a w m
  let was := s.flag a 63
  let now := t.flag a 63
  if now && !was && ((s.jobElsewhere p j).isSome || !(s.partOn p)) then
    ((s.setFlag a 59 true).setPtRefused p true).partFault p 0x0804 (jobInfo j 0 0 ((s.jobElsewhere p j).getD 0xFFFF_FFFF))
  else
    let t1 := if bit m 63 then (t.setFlag a 59 false).setPtRefused p false else t
    if now && !was then t1.setFld (jobSt p j) 63 62 1
    else if was && !now then
      if (s.images.any fun i => i.part == p && i.job == j) || s.ringOn j then t1.setFlag a 63 true else t1.setFld (jobSt p j) 63 62 0
    else t1

/-- JOB_CFG_WRITE (R356). -/
def execJobCfgWrite (acc : Acc) (p : Part) (j : JobId) (w : W64) (s : State) : Result :=
  .next (s.hostWrite acc (jobCfg p.val j.val) fun t => t.writeJobCfg p.val j.val w.toNat (accMask acc))

/-! ### Yield and resume (R363..R366) -/

/-- A write to PT_JOB_CTRL: YIELD of a job that RUNs, RESUME of one that does not (YIELD first where both are written, assumption 42). -/
def State.jobCtrl (s : State) (acc : Acc) (p w : Nat) : State :=
  let a := pgPart p + 0x190
  s.hostWrite acc a fun t0 =>
    let t := t0.storeReg a w (accMask acc)
    let j := t.fld a 7 4
    let t1 :=
      if acts w 0 ∧ t.jobState p j = 1 then
        { t.setFld (jobSt p j) 63 62 2 with
          yieldAt := Tab.put t.yieldAt j t.now, yieldWarned := t.yieldWarned.filter fun k => !(k % 16 == j) }.refreshRing j
      else t
    if acts w 1 ∧ 2 ≤ t1.jobState p j then (t1.setFld (jobSt p j) 63 62 1).refreshRing j else t1

/-- YIELD (R363). -/
def execYield_ (acc : Acc) (p : Part) (w : W64) (s : State) : Result := .next (s.jobCtrl acc p.val w.toNat)

/-- RESUME (R365). -/
def execResume (acc : Acc) (p : Part) (w : W64) (s : State) : Result := .next (s.jobCtrl acc p.val w.toNat)

/-- PREEMPT_WAIT, once for each cause of a yield (R366). -/
def State.preemptWait (s : State) (p j cause : Nat) : State :=
  let k := if cause = 1 then j else 16 + j
  if s.yieldWarned.contains k then s
  else
    let us := (s.now - Tab.get 0 s.yieldAt j) / 1000
    ({ s with yieldWarned := s.yieldWarned ++ [k] }.partFault p 0x0802 (jobInfo j cause 0 us)).jobEvent p j 8

/-- A context of job `j` in Yard `y` is saved for a yield and held PREEMPTED (R363): one that is READY, on the core or waiting. -/
def State.yieldCtx (s : State) (y j : Nat) (e : Ecc) : State :=
  match s.ctx y j with
  | none => s
  | some c => if c.st = .ready ∨ c.st = .running ∨ c.st = .blocked then s.preemptNow y j 1 .preempted e else s

/-- Step 3 and 4 of R363; `es` is what the checks of the DATA reads of the saves find, where not `.ok`. -/
def State.drain (s : State) (p j : Nat) (es : List (Yard × Ecc)) : State :=
  if s.jobState p j ≠ 2 ∨ !(s.jobIdle j) then s
  else if !(s.saveOk p) then s.preemptWait p j 2
  else
    let s1 := (s.yardsOf p).foldl (fun (t : State) y => t.yieldCtx y j (((es.find? (·.1.val == y)).map (·.2)).getD .ok)) s
    let us := (s1.now - Tab.get 0 s1.yieldAt j) / 1000
    (((s1.setFld (jobSt p j) 63 62 3).setFld (jobSt p j) 47 32 (stopAt 0xFFFF us)).jobEvent p j 7).refreshRing j

/-- YIELD_DRAINED (R363). -/
def execYieldDrained (p : Part) (j : JobId × List (Yard × Ecc)) (s : State) : Result := .next (s.whenLive fun s => s.drain p.val j.1.val j.2)

/-- PREEMPT_WAIT (R366): PREEMPT_WARN_US have passed since YIELD. -/
def execPreemptWait (dt : Nat) (p : Part) (j : JobId) (s : State) : Result :=
  .next ((s.tick dt).whenLive fun s =>
    let warn := s.fld (jobCfg p.val j.val) 31 0
    if s.jobState p.val j.val = 2 ∧ warn ≠ 0 ∧ Tab.get 0 s.yieldAt j.val + warn * 1000 ≤ s.now then s.preemptWait p.val j.val 1 else s)

/-! ### Ring registers (R367, R371, R372) -/

/-- Entries of a ring. -/
def State.ringSize (s : State) (j : Nat) : Nat := 2 ^ s.fld (pgDoor j + 0x10) 3 0

/-- HEAD. -/
def State.ringHead (s : State) (j : Nat) : Nat := s.fld (ringSt j) 15 0

/-- BASE of RING_BASE as an address. -/
def State.ringBase (s : State) (j : Nat) : Nat := s.fld (pgDoor j + 0x08) 41 12 * 4096

/-- RING_TAIL_WRITE (R372): the doorbell; a value outside the ring is ignored. -/
def execRingTailWrite (acc : Acc) (j : JobId) (w : W64) (s : State) : Result :=
  let a := pgDoor j.val
  .next (s.hostWrite acc a fun t =>
    let t1 := t.storeReg a w.toNat (accMask acc)
    if t1.fld a 15 0 < t.ringSize j.val then t1 else t)

/-- A write to RING_CFG (R367): while EN is 1 only EN is taken; clearing it empties the ring; setting it is refused where the ring does not
fit a channel granted to the job's partition, or the job's EN is 0. -/
def State.writeRingCfg (s : State) (j w m : Nat) : State :=
  let a := pgDoor j + 0x10
  let t := s.storeReg a w m
  if s.ringOn j then
    if t.ringOn j then s
    else
      let s1 := (s.setFlag a 63 false).setReg (pgDoor j) 0
      ((((s1.setFld (ringSt j) 31 0 0).setFlag (ringSt j) 61 false).setRing j []).dropAsk (askKey (.ring j))).refreshRing j
  else if t.ringOn j then
    let b := t.ringBase j
    let ok := match t.partOfJob j with
      | some p => rangeOk b (128 * t.ringSize j) && t.granted p (adChan b)
      | none => false
    if ok then (t.setFlag (ringSt j) 61 false).refreshRing j else (t.setFlag a 63 false).setFlag (ringSt j) 61 true
  else if bit m 63 then t.setFlag (ringSt j) 61 false
  else t

/-- RING_CFG_WRITE (R367). -/
def execRingCfgWrite (acc : Acc) (j : JobId) (w : W64) (s : State) : Result :=
  .next (s.hostWrite acc (pgDoor j.val + 0x10) fun t => t.writeRingCfg j.val w.toNat (accMask acc))

/-- A write to RING_CTRL (R371): GO leaves HALTED; SKIP first moves HEAD past the entry it stands on.
HALT_CAUSE and CODE keep the last halt's (assumption 117). -/
def State.ringCtrl (s : State) (acc : Acc) (j w : Nat) : State :=
  s.hostWrite acc (pgDoor j + 0x20) fun t =>
    if t.fld (ringSt j) 63 62 ≠ 3 ∨ !(acts w 0 || acts w 1) then t
    else
      let h := t.ringHead j
      let t1 := if acts w 1 ∧ h ≠ t.fld (pgDoor j) 15 0 then t.setFld (ringSt j) 15 0 ((h + 1) % t.ringSize j) else t
      (t1.setFld (ringSt j) 63 62 1).advanceRing j

/-- GO (R371). -/
def execGo (acc : Acc) (j : JobId) (w : W64) (s : State) : Result := .next (s.ringCtrl acc j.val w.toNat)

/-- SKIP (R371). -/
def execSkip (acc : Acc) (j : JobId) (w : W64) (s : State) : Result := .next (s.ringCtrl acc j.val w.toNat)

/-! ### Fetching (R368, R369, R371) -/

/-- Whether some byte of a list differs from 0. -/
def anyByte (bs : List Byte) : Bool := bs.any fun b => !(b == 0)

/-- Whether an address lies in a channel granted to the partition. -/
def State.argOk (s : State) (p a len : Nat) : Bool := rangeOk a len && s.granted p (adChan a)

/-- Whether a ring entry is malformed (R371, Table 15.2). -/
def State.entryBad (s : State) (p : Nat) (bs : List Byte) : Bool :=
  let op := fieldOf bs 0 1
  let arg := fieldOf bs 8 8
  let body := (bs.drop 0x10).take 80
  let want := fieldOf body 0 1
  decide (1 < fieldOf bs 1 1) || anyByte ((bs.drop 2).take 2) || anyByte ((bs.drop 0x60).take 32) ||
    (match op with
     | 0 => !(arg == 0) || anyByte body
     | 1 => !(arg == 0) || anyByte ((body.drop 1).take 1) || anyByte ((body.drop 6).take 10)
     | 2 => !(arg % 4096 == 0) || !(s.argOk p arg 1) || (decide (15 < want) && !(want == 0xFF)) || anyByte (body.drop 1)
     | 3 => decide (15 < arg) || anyByte body
     | 4 => !(arg == 0) || anyByte body
     | 5 => !(arg % 8 == 0) || !(s.argOk p arg 8) || anyByte (body.drop 8)
     | _ => true)

/-- Whether the ring of a job may fetch: it is RUN, HEAD is not at TAIL, and fewer than 8 fetched entries wait to be acted on. -/
def State.mayFetch (s : State) (j : Nat) : Bool :=
  (s.refreshRing j).fld (ringSt j) 63 62 == 1 && s.ringHead j != s.fld (pgDoor j) 15 0 &&
    decide (((s.ringOf j).filter fun e => !e.acted).length < 8)

/-- Whether the ring of a job that goes before job `j` may fetch too and has not begun to (R357). -/
def State.fetchLater (s : State) (p j : Nat) : Bool :=
  (Tab.find? s.askers (askKey (.ring j))).isNone && (s.jobsOf p).any fun k => k != j && s.before p k j && s.mayFetch k &&
    (Tab.find? s.askers (askKey (.ring k))).isNone

/-- The next entry of a ring is fetched at P0, once memory has answered its read (R369, Table 11.3); rings that wait at once go
in the order of R357. -/
def State.ringFetch (s : State) (j : Nat) : State :=
  let h := s.ringHead j
  match s.partOfJob j with
  | none => s
  | some p =>
    if !(s.mayFetch j) ∨ s.fetchLater p j then s
    else
      let a := s.ringBase j + 128 * h
      if !(s.chLive (adChan a)) then s.haltRing j 4 0
      else
        let (now, s1) := s.readNow (askKey (.ring j)) { part := p, cls := 0, job := j } (cutLines a 128)
        let bs := s1.hbm.read a 128
        if !now then s1
        else if s1.entryBad p bs then
          (s1.partFault p 0x0B01 (jobInfo j 1 h (fieldOf bs 0 1))).haltRing j 1 0x0B01
        else
          let e : RingEntry := { index := h, op := fieldOf bs 0 1, irq := bit (fieldOf bs 1 1) 0, arg := fieldOf bs 8 8
                                 body := (bs.drop 0x10).take 80 }
          (((s1.setRing j (s1.ringOf j ++ [e])).setFld (ringSt j) 15 0 ((h + 1) % s1.ringSize j))).refreshRing j

/-- RING_FETCH (R369). -/
def execRingFetch (j : JobId) (s : State) : Result := .next (s.whenLive fun s => s.ringFetch j.val)

/-! ### Acting on entries (R369) -/

/-- The oldest fetched entry not yet acted on, where it has the OP; `alone` asks that every earlier entry has completed. -/
def State.nextEntry (s : State) (j op : Nat) (alone : Bool) : Option RingEntry :=
  match (s.ringOf j).find? fun e => !e.acted with
  | some e => if e.op = op ∧ (!alone ∨ (s.ringOf j).head? = some e) then some e else none
  | none => none

/-- Entry `e` is acted on. -/
def State.actOn (s : State) (j : Nat) (e : RingEntry) : State :=
  s.setRing j ((s.ringOf j).map fun (x : RingEntry) => if x.index = e.index then { x with acted := true } else x)

/-- An entry of a ring acted on by `f`, with the job's partition. -/
def State.ringAct (s : State) (j op : Nat) (alone : Bool) (f : State → Nat → RingEntry → State) : State :=
  match s.partOfJob j, s.nextEntry j op alone with
  | some p, some e => f s p e
  | _, _ => s

/-- NOP completes at once. -/
def execNop (j : JobId) (s : State) : Result :=
  .next (s.whenLive fun s => s.ringAct j.val 0 false fun t _ e => (t.actOn j.val e).ringDone j.val e.index)

/-- RING_START: the record goes to the tracker. -/
def execRingStart (j : JobId) (s : State) : Result :=
  .next (s.whenLive fun s => s.ringAct j.val 1 false fun t p e =>
    (t.actOn j.val e).handRecord p (parseStart j.val (.ring j.val e.index) e.body))

/-- RING_LOAD: a load once every earlier entry has completed and BUSY is 0. -/
def execRingLoad (j : JobId) (s : State) : Result :=
  .next (s.whenLive fun s => s.ringAct j.val 2 true fun t p e =>
    if t.rigBusy p then t else (t.actOn j.val e).startLoad p j.val e.arg (fieldOf e.body 0 1) (some e.index))

/-- RING_UNLOAD: an unload once every earlier entry has completed; refused, it halts the ring with cause 3. -/
def execRingUnload (j : JobId) (s : State) : Result :=
  .next (s.whenLive fun s => s.ringAct j.val 3 true fun t p e =>
    if t.rigBusy p then t
    else
      let (ok, t1) := (t.actOn j.val e).unload p j.val (e.arg % 16)
      let t2 := t1.ringDone j.val e.index
      if ok then t2 else t2.haltRing j.val 3 0x0B01)

/-- RING_WAIT completes when every earlier entry has completed. -/
def execRingWait (j : JobId) (s : State) : Result :=
  .next (s.whenLive fun s => s.ringAct j.val 4 true fun t _ e => (t.actOn j.val e).ringDone j.val e.index)

/-- SIGNAL: VALUE written to ARG once every earlier entry has completed; a channel that is not LIVE accepts no write. -/
def execSignal (j : JobId) (s : State) : Result :=
  .next (s.whenLive fun s => s.ringAct j.val 5 true fun t _ e =>
    if !(t.chLive (adChan e.arg)) then t
    else ((t.actOn j.val e).hbmWrite { part := t.partOf j.val, cls := 0, job := j.val } e.arg (e.body.take 8)).ringDone j.val e.index)

end Sys2Proof.Machine
end

