-- ==== Sys2Proof/Machine/MastRows.lean ====
section
/-! DEFINITION. Commands of the Mastheads: heartbeat, takeover, loss of both, standby (R410..R416, R423). -/
namespace Sys2Proof.Machine

/-- The other Masthead. -/
def otherMast (m : Fin 2) : Fin 2 := if m = 0 then 1 else 0

/-- MH_HB of a Masthead. -/
def mhHb (m : Fin 2) : Nat := pgMast (mastOf m) + 0x110

/-- SEQ of a Masthead's page goes on by one. -/
def State.countBeat (s : State) (m : Fin 2) : State := s.setFld (mhHb m) 31 0 (s.fld (mhHb m) 31 0 + 1)

/-- HEARTBEAT (R410, R411): the primary refreshes its latch and sends; a standby hears it on either pair. One whose latch has expired stops
acting and reboots. -/
def execHeartbeat (dt : Nat) (pair0 pair1 : Bool) (s : State) : Result :=
  let s1 := s.tick dt
  match s1.latch with
  | none => .next s1
  | some m =>
    if s1.role (mastOf m) ≠ 3 then .next s1
    else if s1.primary = none then .next (s1.setRole (mastOf m) 1)
    else
      let s2 := ({ s1 with latchNs := 0 }).countBeat m
      let b := otherMast m
      if (pair0 || pair1) && s2.role (mastOf b) == 2 then
        let gap := stopAt 0xFFFF (s1.beatNs / 1000)
        let s3 := (s2.countBeat b).setFld (mhHb b) 47 32 (max gap (s2.fld (mhHb b) 47 32))
        .next { s3 with beatNs := 0, shroudLost := false }
      else .next s2

/-- A running firmware update is abandoned (R412, R421). -/
def State.dropUpdate (s : State) : State := s.endMaint 7 0 2

/-- Masthead `m` becomes primary with CAUSE `c`, and the other boots as standby (R412, R423). -/
def State.becomePrimary (s : State) (m : Fin 2) (c : Nat) : State :=
  let pg := pgMast (mastOf m)
  let gap := stopAt (2 ^ 32 - 1) (s.beatNs / 1000)
  let s1 := (s.setRole (mastOf m) 3).setRole (mastOf (otherMast m)) 1
  let s2 := { s1 with latch := some m, lastLatch := m, latchNs := 0, beatNs := 0, shroudLost := false }
  ((s2.bump (pg + 0x118) 1).event pg 0).fault pg 0x0A02 (fieldAt 62 c + gap)

/-- The standby, where there is one. -/
def State.standby (s : State) : Option (Fin 2) :=
  match s.latch with
  | some m => if s.role (mastOf (otherMast m)) = 2 then some (otherMast m) else none
  | none => none

/-- The standby claims the latch: it takes over where the latch has expired, else the shroud has failed (R412, R413). -/
def State.claim (s : State) (m : Fin 2) : State :=
  if 1000000 ≤ s.latchNs then ((s.becomePrimary m 1).dropUpdate).actOnWaiting
  else if s.shroudLost then s
  else { s with shroudLost := true }.event (pgMast (mastOf m)) 1

/-- MASTHEAD_TAKEOVER (R412): no heartbeat has reached the standby for 1,000 µs. -/
def execMastheadTakeover (dt : Nat) (s : State) : Result :=
  let s1 := s.tick dt
  match s1.standby with
  | some m => .next (if 1000000 ≤ s1.beatNs then s1.claim m else s1)
  | none => .next s1

/-- SHROUD_CLAIM_RETRY (R413): the claim is tried again every 1 ms. -/
def execShroudClaimRetry (dt : Nat) (s : State) : Result :=
  let s1 := s.tick dt
  match s1.standby with
  | some m => .next (if s1.shroudLost then s1.claim m else s1)
  | none => .next s1

/-- MASTHEAD_BOTH_LOST (R415): the latch lies unclaimed 3,000 µs after its last refresh. -/
def execMastheadBothLost (dt : Nat) (s : State) : Result :=
  let s1 := s.tick dt
  if s1.latch.isSome && decide (3 ≤ s1.stage ∧ s1.stage ≤ 8 ∧ 3000000 ≤ s1.latchNs) then .next s1.losesBoth else .next s1

/-- STANDBY_READY (R412): a Masthead that boots enters STANDBY. -/
def execStandbyReady (m : Fin 2) (s : State) : Result :=
  if s.latch.isSome && s.latch != some m && s.role (mastOf m) == 1 && decide (3 ≤ s.stage ∧ s.stage ≤ 8) then
    let s1 := s.useBank (mastOf m) (if m = 1 then s.bankB else s.bankA)
    .next { s1.setRole (mastOf m) 2 with beatNs := 0, shroudLost := false }
  else .next s

end Sys2Proof.Machine
end

