-- ==== Sys2Proof/Machine/MaintRows.lean ====
section
/-! DEFINITION. Commands of the maintenance arbiter (R417..R421, R424), the retirement of a Yard (R455, R456), the configuration scrub
(R441, R239, R281). -/
namespace Sys2Proof.Machine

/-! ### Requests -/

/-- Whether a request by the policy is due (R417, Table 17.3). -/
def State.policyDue (s : State) (cls target : Nat) : Bool :=
  match cls with
  | 1 => decide (target < 1024) && s.chLive target && s.flag (chReg target) 59
  | 2 => decide (target < 32) && (List.range 64).any fun e => s.fenceValid target e && s.fld (fenceReg target e 0) 62 61 == 0
  | 4 => decide (target < 32) && (s.fld (pgPort target + 0x108) 60 59 == 1 || s.fld (pgPort target + 0x108) 60 59 == 2)
  | 5 => decide (target < 64) && s.flag (pgMon + 0x180) 63 &&
      decide (s.fld (pgMon + 0x180) 15 0 ≤ s.fld (pgMon + 0x400 + 8 * target) 15 0)
  | _ => false

/-- MAINT_REQUEST (R419): a request by the primary's policy, which starts only while WINDOW is 1 (R417). -/
def execMaintRequest (cls : Fin 8) (target : BitVec 32) (s : State) : Result :=
  let c := cls.val
  let t := target.toNat
  .next (s.whenLive fun s =>
    if s.primary.isSome && s.flag (pgArb + 0x100) 0 && s.policyDue c t then s.arbiter { cls := c, target := t, src := 0 } else s)

/-- A write to MA_REQ (Table 17.11): REQ with CLASS 4, 5 or 7 reaches the arbiter, or waits for a primary (R414). -/
def State.maReq (s : State) (acc : Acc) (w : Nat) : State :=
  let a := pgArb + 0x108
  s.hostWrite acc a fun t =>
    let t1 := t.storeReg a w (accMask acc)
    let c := t1.fld a 63 60
    if bit (maskAnd w (accMask acc)) 59 ∧ (c = 4 ∨ c = 5 ∨ c = 7) then
      let m : MaintOp := { cls := c, target := if c = 7 then 0 else t1.fld a 31 0, src := acc.port.code }
      t1.request m
    else t1

/-- LANE_RETRAIN (R307): an MA_REQ write with class 4. -/
def execLaneRetrain (acc : Acc) (w : W64) (s : State) : Result := .next (s.maReq acc w.toNat)

/-- YARD_RETIRE (R456): an MA_REQ write with class 5. -/
def execYardRetire (acc : Acc) (w : W64) (s : State) : Result := .next (s.maReq acc w.toNat)

/-- FIRMWARE_UPDATE (R421): an MA_REQ write with class 7. -/
def execFirmwareUpdate (acc : Acc) (w : W64) (s : State) : Result := .next (s.maReq acc w.toNat)

/-- MA_CTRL_WRITE (R417): where the window opens, queued policy requests that the matrix allows start. -/
def execMaCtrlWrite (acc : Acc) (w : W64) (s : State) : Result :=
  .next (s.hostWrite acc (pgArb + 0x100) fun t =>
    let t1 := t.storeReg (pgArb + 0x100) w.toNat (accMask acc)
    if !(t.flag (pgArb + 0x100) 0) && t1.flag (pgArb + 0x100) 0 then t1.examineQueue [] t1.maintQueue else t1)

/-! ### The end of an operation -/

/-- A firmware update that passed its checks (R421): the image stands in the inactive bank of both flash devices, with a version that the
module's specification does not tell (a free value); the standby has booted it and takes the latch. -/
def State.updateDone (s : State) (m : Fin 2) : State :=
  let (n, s1) := s.fresh
  let v := BitVec.truncate 32 (Config.freeWord n)
  let a := !s1.bankA
  let b := !s1.bankB
  let s2 := { s1 with fwVer := Tab.put (Tab.put s1.fwVer (b2n a) v) (2 + b2n b) v, bankA := a, bankB := b }
  ((s2.useBank (mastOf m) (if m = 1 then b else a)).becomePrimary m 2).endMaint 7 0 1

/-- MAINT_OP_END (R419): a lane retrain or a firmware update ends, well or not; the other classes end with commands of their own. A
firmware update needs a standby to hand over to (DEDUCED, assumption 51). -/
def execMaintOpEnd (dt : Nat) (cls : Fin 8) (target : BitVec 32) (good : Bool) (s : State) : Result :=
  let c := cls.val
  let g := target.toNat
  .next ((s.tick dt).whenLive fun s =>
    if !(s.maintRun.any fun m => m.cls == c && m.target == g) then s
    else if c = 4 then s.endMaint 4 g (if good then 1 else 2)
    else if c = 7 then
      match good, s.standby with
      | true, some m => s.updateDone m
      | _, _ => s.endMaint 7 g 2
    else s)

/-! ### Retirement (R455, R456) -/

/-- The retirement of Yard `y` goes on with its spare tested. -/
def State.retireTested (s : State) (y : Nat) (pass : Bool) : State :=
  match s.maintRun.find? fun m => m.cls == 5 && m.target == y with
  | none => s
  | some m =>
    let cause := if m.src = 0 then 3 else 2
    match m.spare with
    | none => s
    | some p =>
      if pass then (s.retireYard y cause (some p)).endMaint 5 y 1
      else
        let s1 := (s.retirePhys p).setMapGen (s.reg (pgGlobal + 0x3F8) + 1)
        match s1.chooseSpare ((s1.physOf y).getD 0) with
        | some q => { s1 with maintRun := s1.maintRun.map fun k =>
            if k.cls = 5 ∧ k.target = y then { k with spare := some q } else k }
        | none => (s1.retireYard y cause none).endMaint 5 y 1

/-- RETIRE_TEST_DONE (R456): TEST ends; STOP, SWITCH and DONE follow where the spare passed, the next spare where it failed. -/
def execRetireTestDone (dt : Nat) (y : Yard) (pass : Bool) (s : State) : Result :=
  .next ((s.tick dt).whenLive fun s => s.retireTested y.val pass)

/-- HITS_WINDOW_CLEAR (R455): every HITS is cleared where GLB_TIME passes a multiple of WINDOW_H hours. -/
def execHitsWindowClear (dt : Nat) (s : State) : Result :=
  let s1 := s.tick dt
  let w := s.fld (pgMon + 0x180) 47 32 * 3600000000000
  .next (if s.now / w < s1.now / w then s1.resetRegs (pgMon + 0x400) (pgMon + 0x600) else s1)

/-! ### The scrub (R441) -/

/-- The image that holds the record in slot `k` of unit `u` of Yard `y`: the one that carries the record or reserved the slot for it. A slot
that holds no record, a reserved one that waits for its record too, belongs to none. -/
def State.slotImage (s : State) (y u k : Nat) : Option Image :=
  if ((s.unit y u).slot k).record.isNone then none
  else s.images.find? fun i => i.cfgs.any fun c => c.yard == y && c.unit == u && c.slot == k

/-- MN_CFG_UE and its event. -/
def State.cfgUe (s : State) : State := (s.bump (pgMon + 0x140) 1).event pgMon 1

/-- An uncorrectable configuration error at unit or switch `u` of Yard `y`, in the record of image `i`: CTRL_TOKEN_CRC with CAUSE 9, a
fabric reset of its partition, and its unload. -/
def State.cfgLost (s : State) (y u : Nat) (i : Image) : State :=
  let s1 := s.cfgUe.faultEv (pgUnit y u) 0x0403 (fabricInfo y u 9 0) (unitEvent u 0x0403)
  (s1.fabricReset i.part 0x0403).stopImage i

/-- What an entry whose words 2 to 7 are not correctable keeps. -/
def State.lntWipe (s : State) (e : Nat) : State :=
  let a := lntAddr e
  let t := (((((s.setFld (a + 16) 63 40 0x7F_7F7F).setFld (a + 16) 39 32 0x77).setFld (a + 16) 23 0 0).setReg (a + 24) 0).setReg (a + 32) 0)
  ((t.setReg (a + 40) 0).setReg (a + 48) 0).setReg (a + 56) 0

/-- The entry with the lost word dealt with and its ECC flag set. -/
def State.lntMark (s : State) (e k : Nat) : State :=
  (if k < 2 then s.setFlag (lntAddr e) 63 false else s.lntWipe e).setFlag (lntAddr e + 8) 63 true

/-- An uncorrectable error in word `k` of Layer Numerics Table entry `e` (R239). -/
def State.lntLost (s : State) (e k : Nat) : State :=
  let j := s.lntJob e
  let s2 := s.lntMark e k
  match s.partOfJob j with
  | none => s2
  | some p =>
    let s3 := s2.numFault p j 0x0501 e 3 (s2.lnt e 5 31 0)
    if s3.seqState p j = 1 then s3.bump (stepReg p j 0x18) 1 else s3

/-- One error the scrub found. -/
def State.scrubOne (s : State) (x : ScrubSite × Ecc) : State :=
  let ce := fun (a : Nat) => s.bump (pgMon + a) 1
  match x.2 with
  | .ok => s
  | .corrected =>
    match x.1 with
    | .slot _ _ _ | .route _ _ _ | .empty => ce 0x138
    | .sd _ _ => ce 0x148
    | .lnt _ _ => ce 0x150
  | .bad =>
    match x.1 with
    | .slot y u k => match s.slotImage y.val u.val k.val with
      | some i => s.cfgLost y.val u.val i
      | none => s.cfgUe
    | .route y p rig => match s.images.find? fun i => i.part == p.val && i.rig == rig.val && i.routes.any (·.yard == y.val) with
      | some i => s.cfgLost y.val 38 i
      | none => s.cfgUe
    | .empty => s.cfgUe
    | .sd b _ => s.sdLost b.val
    | .lnt e k => s.lntLost e.val k.val

/-- CONFIG_SCRUB (R441): the 10 s scrub and the errors it found. -/
def execConfigScrub (found : List (ScrubSite × Ecc)) (s : State) : Result :=
  .next (s.whenLive fun s => found.foldl State.scrubOne s)

end Sys2Proof.Machine
end

