-- ==== Sys2Proof/Machine/PowerRows.lean ====
section
/-! DEFINITION. Commands of the power conversion, the cap loop and the junction trip (R400..R409, R422). -/
namespace Sys2Proof.Machine

/-! ### The input (R401..R403) -/

/-- PWR_STATUS. -/
def pwrStatus : Nat := pgPower 0 + 0x108
/-- PWR_LOOP. -/
def pwrLoop : Nat := pgPower 0 + 0x110
/-- PWR_CFG. -/
def pwrCfg : Nat := pgPower 0 + 0x100

/-- VIN as measured. -/
def State.seeVin (s : State) (v : Nat) : State := s.setFld pwrStatus 63 48 v

/-- INPUT_LOW (R401): below 48.0 V for 1 ms: the event LOW_INPUT. -/
def execInputLow (vin : BitVec 16) (s : State) : Result :=
  if s.stage = 0 ∨ 4800 ≤ vin.toNat then .next s else .next ((s.seeVin vin.toNat).event (pgPower 0) 2)

/-- The input is lost (R401, R402): fault, safe stop, and the power-loss record in both flash devices; where the device has stopped
already, the fault alone (R416). -/
def State.loseInput (s : State) (vin code ev : Nat) : State :=
  let s1 := ({ s.seeVin vin with inputOut := true }).faultEv (pgPower 0) code vin ev
  if s1.stage = 8 then s1 else { (s1.bump (pgPower 0 + 0x130) 1).safeStop code with powerLoss := true }

/-- INPUT_UNDERVOLT (R401): below 46.0 V for 10 µs. -/
def execInputUndervolt (vin : BitVec 16) (s : State) : Result :=
  if s.stage = 0 ∨ 4600 ≤ vin.toNat then .next s else .next (s.loseInput vin.toNat 0x0901 0)

/-- INPUT_OVERVOLT (R401): above 60.0 V for 10 µs; the GaN stage goes off. -/
def execInputOvervolt (vin : BitVec 16) (s : State) : Result :=
  if s.stage = 0 ∨ vin.toNat ≤ 6000 then .next s else .next { s.loseInput vin.toNat 0x0902 1 with ganOff := true }

/-- INPUT_RECOVERED (R403, R438): 48.0 V to 58.0 V for 1 ms. A module that is off cold-starts. One stopped by its input takes a warm
reset where AUTO_WARM is 1, a cold start where it had not reported READY; after a junction trip it stays stopped (R408). -/
def execInputRecovered (vin : BitVec 16) (s : State) : Result :=
  let v := vin.toNat
  if v < 4800 ∨ 5800 < v then .next s
  else if s.stage = 0 then .next (s.coldReset 1 0)
  else
    let s1 := { s.seeVin v with inputOut := false, ganOff := false }
    if !s.inputOut || s.stage != 8 || s.thermtrip then .next s1
    else if !s1.isReady then .next (s1.coldReset 1 0)
    else if s1.flag pwrCfg 0 then .next (s1.warmReset 3)
    else .next s1

/-- The module is off: HBM and every register are lost; the THERMTRIP_N latch is held from P3V3_AUX (R403, R463). -/
def State.powerOff (s : State) : State :=
  let s1 := { s.outer [] (Mem.undefinedBy (s.freeCtr + 1)) (s.freeCtr + 1) with thermtrip := s.thermtrip }
  s1.setFld (pgBare + 0x100) 60 57 0

/-- BUS_COLLAPSE (R403): the 6 V bus falls below 5.4 V. -/
def execBusCollapse (busMv : BitVec 16) (s : State) : Result :=
  if s.stage = 0 ∨ 5400 ≤ busMv.toNat then .next s else .next s.powerOff

/-- CURRENT_LIMIT (R407): the input current would pass 1.05 × ILIMIT; the power stage holds it there by lowering the bus. -/
def execCurrentLimit (iin busMv : BitVec 16) (s : State) : Result :=
  let lim := s.fld pwrCfg 39 30 * 21 / 2
  if s.stage = 0 ∨ iin.toNat ≤ lim then .next s
  else .next ((s.setFld pwrStatus 47 32 lim).setFld pwrStatus 15 0 busMv.toNat)

/-! ### The cap loop (R404..R406) -/

/-- PWR_DOM of the physical Yard behind logical Yard `y`. -/
def State.domReg (s : State) (y : Nat) : Nat := pgPower 1 + 0x100 + 8 * (s.physOf y).getD 0

/-- The excess of power and of current over their bounds, as numerator and denominator: 10 W over CAP, 0.1 A over ILIMIT. -/
def State.overPower (s : State) (pin : Nat) : Int × Nat :=
  let cap := s.fld pwrCfg 29 21 * 10
  ((pin : Int) - cap, cap)

/-- As `overPower`, for the input current. -/
def State.overCurrent (s : State) (iin : Nat) : Int × Nat :=
  let lim := s.fld pwrCfg 39 30 * 10
  ((iin : Int) - lim, lim)

/-- WT and LIM after the first lines of R404: lowered by the greater excess, or raised by 8 M waves/s where both lie more than 2 % below
their bounds. WT is stored in 16 bits. -/
def capStep (wt lim : Nat) (po io : Int × Nat) : Nat × Nat :=
  let power := decide (io.1 * po.2 ≤ po.1 * io.2)
  let o := if power then po else io
  if 0 < o.1 then (((wt : Int) * (o.2 - o.1) / o.2).toNat, if power then 1 else 2)
  else if 50 * o.1 < -(o.2 : Int) then (stopAt 0xFFFF (wt + 8), 0)
  else (wt, lim)

/-- The ceiling of a Yard after its junction `tj` is read (R406). -/
def nextVmax (limit tj : Int) (vmax v : Nat) : Nat :=
  if limit ≤ tj then max 580 (min vmax v - 5) else if tj < limit - 48 then min 750 (vmax + 5) else vmax

/-- The thermal ceilings of every enabled Yard. -/
def State.ceilings (s : State) : State :=
  let limit : Int := s.fld pwrCfg 47 40 * 16
  (List.range 64).foldl (fun (t : State) y =>
    if t.enabled y then
      let a := t.domReg y
      t.setFld a 51 42 (nextVmax limit (toSigned 16 (t.fld (pgYard y + 0x100) 47 32)) (t.fld a 51 42) (t.fld a 41 32))
    else t) s

/-- RATE of a Yard, 0 where it is not enabled. -/
def State.rateOf (s : State) (y : Nat) : Nat := if s.enabled y then s.fld (pgYard y + 0x110) 15 0 else 0

/-- The active Yards (R404). -/
def State.activeYards (s : State) : List Nat := (List.range 64).filter fun y => decide (0 < s.rateOf y)

/-- The thermal bound and the lowest Yard that sets it. -/
def State.thermalBound (s : State) : Option (Nat × Nat) :=
  (s.activeYards.filter fun y => decide (s.fld (s.domReg y) 51 42 ≤ s.fld (s.domReg y) 41 32)).foldl
    (fun (best : Option (Nat × Nat)) y => match best with
      | some (_, r) => if s.rateOf y < r then some (y, s.rateOf y) else best
      | none => some (y, s.rateOf y)) none

/-- A Yard's supply and gating toward `wt` (R404); `free` is its rate with gating removed. -/
def State.equalise (s : State) (wt : Nat) (free : Nat) (y : Nat) : State :=
  let a := s.domReg y
  let rate := s.rateOf y
  let step := clampInt (-10) 10 (((wt : Int) - rate).tdiv 4)
  let v := (clampInt 580 (s.fld a 51 42) (s.fld a 41 32 + step)).toNat
  let gate := if v = 580 ∧ wt < rate then min 1023 (1024 - 1024 * wt / max 1 free) else 0
  ((s.setFld a 41 32 v).setFld a 31 22 gate).setFld (pgYard y + 0x110) 25 16 gate

/-- POWER_CAP_ACTIVE where LIM passes to POWER, CURRENT or THERMAL and has been quiet for 1 s since the last report (R405). -/
def State.capReport (s : State) (old lim yard pin : Nat) : State :=
  let limited := fun (l : Nat) => decide (1 ≤ l ∧ l ≤ 3)
  let told := s.limReported && decide (s.limQuietNs < 1000000000)
  if limited lim then
    let s1 := { s with limQuietNs := 0, limReported := told }
    if limited old || told then s1
    else ({ s1 with limReported := true }).faultEv (pgPower 0) 0x0903
      (fieldAt 61 lim + fieldAt 55 (if lim = 3 then yard else 0) + pin) 3
  else { s with limReported := told }

/-- One period of the loop (R404, R405). -/
def State.capLoop (s : State) (x : CapSample) : State :=
  let old := s.fld pwrLoop 47 45
  let (wt0, lim0) := capStep (s.fld pwrLoop 63 48) old (s.overPower x.pin.toNat) (s.overCurrent x.iin.toNat)
  let s1 := s.ceilings
  let (wt1, lim1, slow) := match s1.thermalBound with
    | some (y, r) => if r < wt0 then (r, 3, y) else (wt0, lim0, s.fld pwrLoop 44 39)
    | none => (wt0, lim0, s.fld pwrLoop 44 39)
  let rl := s1.fld pwrCfg 63 48
  let (wt, lim) := if rl ≠ 0 ∧ rl < wt1 then (rl, 4) else (wt1, lim1)
  let free := fun (t : State) (y : Nat) =>
    match x.ungated.find? fun e => e.1.val == y with
    | some e => if e.2 = 0 then t.rateOf y else e.2
    | none => t.rateOf y
  let act := s1.activeYards
  let s2 := act.foldl (fun (t : State) y => t.equalise wt (free t y) y) s1
  let s3 := s2.setReg pwrLoop (fieldAt 48 wt + fieldAt 45 lim + fieldAt 39 (if lim = 3 then slow else 0) + fieldAt 32 act.length)
  s3.capReport old lim slow x.pin.toNat

/-- What the power stage measures: PWR_STATUS, PWR_COOL, PWR_ENERGY (Table 17.5). -/
def State.measure (s : State) (dt : Nat) (x : CapSample) : State :=
  let s1 := s.setReg pwrStatus (fieldAt 48 x.vin.toNat + fieldAt 32 x.iin.toNat + fieldAt 16 x.pin.toNat + x.busMv.toNat)
  let s2 := s1.setReg (pgPower 0 + 0x118) (fieldAt 16 x.outlet.toNat + x.inlet.toNat)
  let e := s.energyRem + x.pin.toNat * 10 * dt
  { s2.bump (pgPower 0 + 0x128) (e / 1000000000) with energyRem := e % 1000000000 }

/-- CAP_LOOP (R404): one period. The measurements are the power stage's; the loop runs while the device is READY and a Masthead is
primary. -/
def execCapLoop (dt : Nat) (x : CapSample) (s : State) : Result :=
  let s1 := s.tick dt
  if s1.stage = 0 then .next s1
  else
    let s2 := s1.measure dt x
    .next (if s2.live && s2.primary.isSome then s2.capLoop x else s2)

/-! ### The junction trip (R408) -/

/-- The code of a die in `hotYards`. -/
def hotKey : HotDie → Nat
  | .yard y => y.val
  | .stay d => 64 + d.val
  | .mast m => 72 + m.val

/-- ERR_INFO of JUNCTION_HOT (Table 17.7). -/
def hotInfo : HotDie → Nat
  | .yard y => fieldAt 55 y.val
  | .stay d => fieldAt 54 1 + fieldAt 49 d.val
  | .mast m => fieldAt 54 1 + fieldAt 52 1 + fieldAt 49 m.val

/-- Whether the die is there to be watched. -/
def State.dieThere (s : State) (d : HotDie) : Bool :=
  match d with
  | .yard y => s.enabled y.val
  | .stay d => !(bit s.stayAbsent d.val)
  | .mast _ => true

/-- JUNCTION_HOT (R408): a junction is read at `t` by the 10 µs watch: at 120 °C the trip and the safe stop, once for each die until it
has been below 90 °C. -/
def execJunctionHot (d : HotDie) (t : BitVec 16) (s : State) : Result :=
  let v := toSigned 16 t.toNat
  let k := hotKey d
  if s.stage = 0 ∨ !(s.dieThere d) then .next s
  else if v < 90 * 16 then .next (s.coolDie k)
  else if v < 120 * 16 ∨ s.hotYards.contains k then .next (s.warmDie k)
  else
    let s1 := ({ s.warmDie k with thermtrip := true, hotYards := s.hotYards ++ [k] }).faultEv (pgPower 0) 0x0904 (hotInfo d + t.toNat) 4
    .next (if s1.stage = 8 then s1 else s1.safeStop 0x0904)

end Sys2Proof.Machine
end

