-- ==== Sys2Proof/Machine/Dispatch.lean ====
section
/-! DEFINITION. One arm per command of the opcode table. -/
namespace Sys2Proof.Machine

/-- The effect of a command on everything but the queue. -/
def exec (i : Instr) (s : State) : Host.Outcome State Fault Refusal :=
  match i with
  | .powerOn => Sys2Proof.Machine.execPowerOn s
  | .housekeepingDone dt good => Sys2Proof.Machine.execHousekeepingDone dt good s
  | .bootDone dt a b => Sys2Proof.Machine.execBootDone dt a b s
  | .selftestDone dt r => Sys2Proof.Machine.execSelftestDone dt r s
  | .hbmTrainDone dt bad => Sys2Proof.Machine.execHbmTrainDone dt bad s
  | .linksDone dt => Sys2Proof.Machine.execLinksDone dt s
  | .ready dt => Sys2Proof.Machine.execReady dt s
  | .cold acc w => Sys2Proof.Machine.execCold acc w s
  | .warm acc w => Sys2Proof.Machine.execWarm acc w s
  | .partRst acc w ms => Sys2Proof.Machine.execPartRst acc w ms s
  | .yardRst acc w ms => Sys2Proof.Machine.execYardRst acc w ms s
  | .refclkLost i0 => Sys2Proof.Machine.execRefclkLost i0 s
  | .ydSenseUpdate dt xs => Sys2Proof.Machine.execYdSenseUpdate dt xs s
  | .tokenRoute y src lane flip => Sys2Proof.Machine.execTokenRoute y src lane flip s
  | .crossingPass p dir lane flip => Sys2Proof.Machine.execCrossingPass p dir lane flip s
  | .halyardCopyReceive y e rail flip => Sys2Proof.Machine.execHalyardCopyReceive y e rail flip s
  | .railRetry acc y w => Sys2Proof.Machine.execRailRetry acc y w s
  | .unitTokenArrive y u lane flip => Sys2Proof.Machine.execUnitTokenArrive y u lane flip s
  | .firingDecision y u => Sys2Proof.Machine.execFiringDecision y u s
  | .firingEnd y u => Sys2Proof.Machine.execFiringEnd y u s
  | .steeringPass y st => Sys2Proof.Machine.execSteeringPass y st s
  | .countTick y st => Sys2Proof.Machine.execCountTick y st s
  | .stallSample dt p => Sys2Proof.Machine.execStallSample dt p s
  | .fabricReset p => Sys2Proof.Machine.execFabricReset p s
  | .abandon acc p w => Sys2Proof.Machine.execAbandon acc p w s
  | .reefOpen y u => Sys2Proof.Machine.execReefOpen y u s
  | .reefData y u => Sys2Proof.Machine.execReefData y u s
  | .reefClose y u => Sys2Proof.Machine.execReefClose y u s
  | .sectionStart y u => Sys2Proof.Machine.execSectionStart y u s
  | .sectionEnd y u => Sys2Proof.Machine.execSectionEnd y u s
  | .slotDone y => Sys2Proof.Machine.execSlotDone y s
  | .trackerPortToken y lane => Sys2Proof.Machine.execTrackerPortToken y lane s
  | .sectionIssue p => Sys2Proof.Machine.execSectionIssue p s
  | .trackerReleaseWaiting p => Sys2Proof.Machine.execTrackerReleaseWaiting p s
  | .stepSeqRelease p j => Sys2Proof.Machine.execStepSeqRelease p j s
  | .budgetSample dt p => Sys2Proof.Machine.execBudgetSample dt p s
  | .rigLoad acc p w => Sys2Proof.Machine.execRigLoad acc p w s
  | .loadCommit p => Sys2Proof.Machine.execLoadCommit p s
  | .unload acc p w => Sys2Proof.Machine.execUnload acc p w s
  | .muPendingWaitEnd y m => Sys2Proof.Machine.execMuPendingWaitEnd y m s
  | .suDelayEmit y k => Sys2Proof.Machine.execSuDelayEmit y k s
  | .hbmGrant c => Sys2Proof.Machine.execHbmGrant c s
  | .hbmReadComplete c row sev => Sys2Proof.Machine.execHbmReadComplete c row sev s
  | .scAccess h => Sys2Proof.Machine.execScAccess h s
  | .scFillComplete h => Sys2Proof.Machine.execScFillComplete h s
  | .hbmTempSample dt h t => Sys2Proof.Machine.execHbmTempSample dt h t s
  | .patrolScrub c row sev => Sys2Proof.Machine.execPatrolScrub c row sev s
  | .repair acc h w => Sys2Proof.Machine.execRepair acc h w s
  | .rowRepairRun dt h => Sys2Proof.Machine.execRowRepairRun dt h s
  | .mapOutRequest acc h w => Sys2Proof.Machine.execMapOutRequest acc h w s
  | .mapOutQuiesced dt c => Sys2Proof.Machine.execMapOutQuiesced dt c s
  | .mapOutShardsDone dt c => Sys2Proof.Machine.execMapOutShardsDone dt c s
  | .mapOutRestripeDone dt c => Sys2Proof.Machine.execMapOutRestripeDone dt c s
  | .sdEntryWrite acc b word w => Sys2Proof.Machine.execSdEntryWrite acc b word w s
  | .flip acc w => Sys2Proof.Machine.execFlip acc w s
  | .sdFlip => Sys2Proof.Machine.execSdFlip s
  | .stowBaseWrite acc y w => Sys2Proof.Machine.execStowBaseWrite acc y w s
  | .ycInboundToken y lane flip => Sys2Proof.Machine.execYcInboundToken y lane flip s
  | .ycWake dt y r => Sys2Proof.Machine.execYcWake dt y r s
  | .ycAdd y r => Sys2Proof.Machine.execYcAdd y r s
  | .ycSub y r => Sys2Proof.Machine.execYcSub y r s
  | .ycAnd y r => Sys2Proof.Machine.execYcAnd y r s
  | .ycOr y r => Sys2Proof.Machine.execYcOr y r s
  | .ycXor y r => Sys2Proof.Machine.execYcXor y r s
  | .ycSll y r => Sys2Proof.Machine.execYcSll y r s
  | .ycSrl y r => Sys2Proof.Machine.execYcSrl y r s
  | .ycSra y r => Sys2Proof.Machine.execYcSra y r s
  | .ycSlt y r => Sys2Proof.Machine.execYcSlt y r s
  | .ycSltu y r => Sys2Proof.Machine.execYcSltu y r s
  | .ycMul y r => Sys2Proof.Machine.execYcMul y r s
  | .ycMulhu y r => Sys2Proof.Machine.execYcMulhu y r s
  | .ycMulh y r => Sys2Proof.Machine.execYcMulh y r s
  | .ycDivu y r => Sys2Proof.Machine.execYcDivu y r s
  | .ycRemu y r => Sys2Proof.Machine.execYcRemu y r s
  | .ycDiv y r => Sys2Proof.Machine.execYcDiv y r s
  | .ycRem y r => Sys2Proof.Machine.execYcRem y r s
  | .ycAddi y r => Sys2Proof.Machine.execYcAddi y r s
  | .ycAndi y r => Sys2Proof.Machine.execYcAndi y r s
  | .ycOri y r => Sys2Proof.Machine.execYcOri y r s
  | .ycXori y r => Sys2Proof.Machine.execYcXori y r s
  | .ycSlli y r => Sys2Proof.Machine.execYcSlli y r s
  | .ycSrli y r => Sys2Proof.Machine.execYcSrli y r s
  | .ycSrai y r => Sys2Proof.Machine.execYcSrai y r s
  | .ycLsh16 y r => Sys2Proof.Machine.execYcLsh16 y r s
  | .ycFadd y r => Sys2Proof.Machine.execYcFadd y r s
  | .ycFsub y r => Sys2Proof.Machine.execYcFsub y r s
  | .ycFmul y r => Sys2Proof.Machine.execYcFmul y r s
  | .ycFdiv y r => Sys2Proof.Machine.execYcFdiv y r s
  | .ycFmin y r => Sys2Proof.Machine.execYcFmin y r s
  | .ycFmax y r => Sys2Proof.Machine.execYcFmax y r s
  | .ycFsqrt y r => Sys2Proof.Machine.execYcFsqrt y r s
  | .ycFlt y r => Sys2Proof.Machine.execYcFlt y r s
  | .ycFle y r => Sys2Proof.Machine.execYcFle y r s
  | .ycFeq y r => Sys2Proof.Machine.execYcFeq y r s
  | .ycFcvtL y r => Sys2Proof.Machine.execYcFcvtL y r s
  | .ycFcvtF y r => Sys2Proof.Machine.execYcFcvtF y r s
  | .ycLd y r => Sys2Proof.Machine.execYcLd y r s
  | .ycLw y r => Sys2Proof.Machine.execYcLw y r s
  | .ycLws y r => Sys2Proof.Machine.execYcLws y r s
  | .ycLb y r => Sys2Proof.Machine.execYcLb y r s
  | .ycSd y r => Sys2Proof.Machine.execYcSd y r s
  | .ycSw y r => Sys2Proof.Machine.execYcSw y r s
  | .ycSb y r => Sys2Proof.Machine.execYcSb y r s
  | .ycBeq y r => Sys2Proof.Machine.execYcBeq y r s
  | .ycBne y r => Sys2Proof.Machine.execYcBne y r s
  | .ycBlt y r => Sys2Proof.Machine.execYcBlt y r s
  | .ycBge y r => Sys2Proof.Machine.execYcBge y r s
  | .ycBltu y r => Sys2Proof.Machine.execYcBltu y r s
  | .ycBgeu y r => Sys2Proof.Machine.execYcBgeu y r s
  | .ycJal y r => Sys2Proof.Machine.execYcJal y r s
  | .ycJalr y r => Sys2Proof.Machine.execYcJalr y r s
  | .ycCsrr y r => Sys2Proof.Machine.execYcCsrr y r s
  | .ycCsrw y r => Sys2Proof.Machine.execYcCsrw y r s
  | .ycCsrset y r => Sys2Proof.Machine.execYcCsrset y r s
  | .ycCsrclr y r => Sys2Proof.Machine.execYcCsrclr y r s
  | .ycSend y r => Sys2Proof.Machine.execYcSend y r s
  | .ycRecv y r => Sys2Proof.Machine.execYcRecv y r s
  | .ycGetsum y r => Sys2Proof.Machine.execYcGetsum y r s
  | .ycWait y r => Sys2Proof.Machine.execYcWait y r s
  | .ycReefsend y r => Sys2Proof.Machine.execYcReefsend y r s
  | .ycIssue y r => Sys2Proof.Machine.execYcIssue y r s
  | .ycXferToLocal y r => Sys2Proof.Machine.execYcXferToLocal y r s
  | .ycXferToHbm y r => Sys2Proof.Machine.execYcXferToHbm y r s
  | .xferComplete y j i0 => Sys2Proof.Machine.execXferComplete y j i0 s
  | .ycFence y r => Sys2Proof.Machine.execYcFence y r s
  | .ycTake y r => Sys2Proof.Machine.execYcTake y r s
  | .ycCommit y r => Sys2Proof.Machine.execYcCommit y r s
  | .ycHalt y r => Sys2Proof.Machine.execYcHalt y r s
  | .ycTret y r => Sys2Proof.Machine.execYcTret y r s
  | .workCounterServe => Sys2Proof.Machine.execWorkCounterServe s
  | .leaseTimeout dt => Sys2Proof.Machine.execLeaseTimeout dt s
  | .wcDataWrite acc y w => Sys2Proof.Machine.execWcDataWrite acc y w s
  | .reefStreamerSend y => Sys2Proof.Machine.execReefStreamerSend y s
  | .stop acc y w => Sys2Proof.Machine.execStop acc y w s
  | .start acc y w => Sys2Proof.Machine.execStart acc y w s
  | .schedDecide y => Sys2Proof.Machine.execSchedDecide y s
  | .schedQuantum dt y => Sys2Proof.Machine.execSchedQuantum dt y s
  | .stepVeto y => Sys2Proof.Machine.execStepVeto y s
  | .gateNoResult dt p j => Sys2Proof.Machine.execGateNoResult dt p j s
  | .resync acc p j w => Sys2Proof.Machine.execResync acc p j w s
  | .stepPlanWrite acc p j cfg w => Sys2Proof.Machine.execStepPlanWrite acc p j cfg w s
  | .phaseDrained p j => Sys2Proof.Machine.execPhaseDrained p j s
  | .phaseSwitchDeadline dt p j => Sys2Proof.Machine.execPhaseSwitchDeadline dt p j s
  | .retry acc p j w => Sys2Proof.Machine.execRetry acc p j w s
  | .force acc p j w => Sys2Proof.Machine.execForce acc p j w s
  | .phaseCfgWrite acc p j w => Sys2Proof.Machine.execPhaseCfgWrite acc p j w s
  | .wverWrite acc p j w => Sys2Proof.Machine.execWverWrite acc p j w s
  | .lntWrite acc e word w => Sys2Proof.Machine.execLntWrite acc e word w s
  | .lscaleWrite acc p j w => Sys2Proof.Machine.execLscaleWrite acc p j w s
  | .numRoll acc p j w => Sys2Proof.Machine.execNumRoll acc p j w s
  | .spikeReset acc p j w => Sys2Proof.Machine.execSpikeReset acc p j w s
  | .portTrainDone dt p lanes => Sys2Proof.Machine.execPortTrainDone dt p lanes s
  | .portRetryTimer dt p => Sys2Proof.Machine.execPortRetryTimer dt p s
  | .identRetry dt p => Sys2Proof.Machine.execIdentRetry dt p s
  | .ident p x => Sys2Proof.Machine.execIdent p x s
  | .laneBad p lane lock clash => Sys2Proof.Machine.execLaneBad p lane lock clash s
  | .portLoss p cause => Sys2Proof.Machine.execPortLoss p cause s
  | .token p f => Sys2Proof.Machine.execToken p f s
  | .mark p f => Sys2Proof.Machine.execMark p f s
  | .coll p f => Sys2Proof.Machine.execColl p f s
  | .link p f => Sys2Proof.Machine.execLink p f s
  | .phase p f => Sys2Proof.Machine.execPhase p f s
  | .phaseConf p f => Sys2Proof.Machine.execPhaseConf p f s
  | .replayTimeout dt p => Sys2Proof.Machine.execReplayTimeout dt p s
  | .pfcPause p vc xoff => Sys2Proof.Machine.execPfcPause p vc xoff s
  | .bridgeTokenOut d side plane => Sys2Proof.Machine.execBridgeTokenOut d side plane s
  | .bridgeFlushTimer dt d c => Sys2Proof.Machine.execBridgeFlushTimer dt d c s
  | .groupTableWrite acc g word w => Sys2Proof.Machine.execGroupTableWrite acc g word w s
  | .glbDevWrite acc w => Sys2Proof.Machine.execGlbDevWrite acc w s
  | .stCfgWrite acc p w => Sys2Proof.Machine.execStCfgWrite acc p w s
  | .collDescStart d => Sys2Proof.Machine.execCollDescStart d s
  | .collChunkReady d x k => Sys2Proof.Machine.execCollChunkReady d x k s
  | .collDescComplete d x => Sys2Proof.Machine.execCollDescComplete d x s
  | .collDeadline dt d x => Sys2Proof.Machine.execCollDeadline dt d x s
  | .agreeUp p f => Sys2Proof.Machine.execAgreeUp p f s
  | .agreeDown p f => Sys2Proof.Machine.execAgreeDown p f s
  | .agreeDeadline dt perm j => Sys2Proof.Machine.execAgreeDeadline dt perm j s
  | .normUp p f => Sys2Proof.Machine.execNormUp p f s
  | .normDown p f => Sys2Proof.Machine.execNormDown p f s
  | .abort p f => Sys2Proof.Machine.execAbort p f s
  | .permuteRequest acc w => Sys2Proof.Machine.execPermuteRequest acc w s
  | .permuteWaitDone => Sys2Proof.Machine.execPermuteWaitDone s
  | .permuteMoveDone => Sys2Proof.Machine.execPermuteMoveDone s
  | .permuteNoResult dt => Sys2Proof.Machine.execPermuteNoResult dt s
  | .ptCfgWrite acc p r w => Sys2Proof.Machine.execPtCfgWrite acc p r w s
  | .ptSaveWrite acc p w => Sys2Proof.Machine.execPtSaveWrite acc p w s
  | .jobCfgWrite acc p j w => Sys2Proof.Machine.execJobCfgWrite acc p j w s
  | .regulatorRefill dt p => Sys2Proof.Machine.execRegulatorRefill dt p s
  | .yield_ acc p w => Sys2Proof.Machine.execYield_ acc p w s
  | .yieldDrained p j => Sys2Proof.Machine.execYieldDrained p j s
  | .resume acc p w => Sys2Proof.Machine.execResume acc p w s
  | .preemptWait dt p j => Sys2Proof.Machine.execPreemptWait dt p j s
  | .ringTailWrite acc j w => Sys2Proof.Machine.execRingTailWrite acc j w s
  | .ringCfgWrite acc j w => Sys2Proof.Machine.execRingCfgWrite acc j w s
  | .ringFetch j => Sys2Proof.Machine.execRingFetch j s
  | .nop j => Sys2Proof.Machine.execNop j s
  | .ringStart j => Sys2Proof.Machine.execRingStart j s
  | .ringLoad j => Sys2Proof.Machine.execRingLoad j s
  | .ringUnload j => Sys2Proof.Machine.execRingUnload j s
  | .ringWait j => Sys2Proof.Machine.execRingWait j s
  | .signal j => Sys2Proof.Machine.execSignal j s
  | .go acc j w => Sys2Proof.Machine.execGo acc j w s
  | .skip acc j w => Sys2Proof.Machine.execSkip acc j w s
  | .hostPortReset p k => Sys2Proof.Machine.execHostPortReset p k s
  | .bar2Read p off len => Sys2Proof.Machine.execBar2Read p off len s
  | .bar2Write p off bytes => Sys2Proof.Machine.execBar2Write p off bytes s
  | .registerWrite acc addr w => Sys2Proof.Machine.execRegisterWrite acc addr w s
  | .pgOwnerWrite acc page w => Sys2Proof.Machine.execPgOwnerWrite acc page w s
  | .evtPendClear acc page w => Sys2Proof.Machine.execEvtPendClear acc page w s
  | .evtEnableWrite acc page w => Sys2Proof.Machine.execEvtEnableWrite acc page w s
  | .evtSet acc page w => Sys2Proof.Machine.execEvtSet acc page w s
  | .pgCtrlWrite acc page w => Sys2Proof.Machine.execPgCtrlWrite acc page w s
  | .clr acc page w => Sys2Proof.Machine.execClr acc page w s
  | .counterSatClear acc addr w => Sys2Proof.Machine.execCounterSatClear acc addr w s
  | .semAcquire acc i0 => Sys2Proof.Machine.execSemAcquire acc i0 s
  | .semRelease acc i0 w => Sys2Proof.Machine.execSemRelease acc i0 w s
  | .semaphoreTimeout dt => Sys2Proof.Machine.execSemaphoreTimeout dt s
  | .inputLow vin => Sys2Proof.Machine.execInputLow vin s
  | .inputUndervolt vin => Sys2Proof.Machine.execInputUndervolt vin s
  | .inputOvervolt vin => Sys2Proof.Machine.execInputOvervolt vin s
  | .inputRecovered vin => Sys2Proof.Machine.execInputRecovered vin s
  | .busCollapse busMv => Sys2Proof.Machine.execBusCollapse busMv s
  | .capLoop dt x => Sys2Proof.Machine.execCapLoop dt x s
  | .currentLimit iin busMv => Sys2Proof.Machine.execCurrentLimit iin busMv s
  | .junctionHot d t => Sys2Proof.Machine.execJunctionHot d t s
  | .heartbeat dt pair0 pair1 => Sys2Proof.Machine.execHeartbeat dt pair0 pair1 s
  | .mastheadTakeover dt => Sys2Proof.Machine.execMastheadTakeover dt s
  | .mastheadBothLost dt => Sys2Proof.Machine.execMastheadBothLost dt s
  | .maintRequest cls target => Sys2Proof.Machine.execMaintRequest cls target s
  | .laneRetrain acc w => Sys2Proof.Machine.execLaneRetrain acc w s
  | .yardRetire acc w => Sys2Proof.Machine.execYardRetire acc w s
  | .firmwareUpdate acc w => Sys2Proof.Machine.execFirmwareUpdate acc w s
  | .maintOpEnd dt cls target good => Sys2Proof.Machine.execMaintOpEnd dt cls target good s
  | .maCtrlWrite acc w => Sys2Proof.Machine.execMaCtrlWrite acc w s
  | .retireTestDone dt y pass => Sys2Proof.Machine.execRetireTestDone dt y pass s
  | .hitsWindowClear dt => Sys2Proof.Machine.execHitsWindowClear dt s
  | .configScrub found => Sys2Proof.Machine.execConfigScrub found s
  | .monitorSample page v => Sys2Proof.Machine.execMonitorSample page v s
  | .monCfgWrite acc page w => Sys2Proof.Machine.execMonCfgWrite acc page w s
  | .tsyncEdge dt => Sys2Proof.Machine.execTsyncEdge dt s
  | .tsyncTimeout dt => Sys2Proof.Machine.execTsyncTimeout dt s
  | .tsyncPulse dt => Sys2Proof.Machine.execTsyncPulse dt s
  | .arm acc w => Sys2Proof.Machine.execArm acc w s
  | .cageOverpower p => Sys2Proof.Machine.execCageOverpower p s
  | .moduleInsert => Sys2Proof.Machine.execModuleInsert s
  | .fruRead off => Sys2Proof.Machine.execFruRead off s
  | .smbSetOffset off pec => Sys2Proof.Machine.execSmbSetOffset off pec s
  | .smbRead => Sys2Proof.Machine.execSmbRead s
  | .smbWrite off w pec => Sys2Proof.Machine.execSmbWrite off w pec s
  | .jtagInstruction i0 => Sys2Proof.Machine.execJtagInstruction i0 s
  | .refclkRecovered i0 => Sys2Proof.Machine.execRefclkRecovered i0 s
  | .phyRelockDone east => Sys2Proof.Machine.execPhyRelockDone east s
  | .hostLinkUp p speed width flit recovery msix => Sys2Proof.Machine.execHostLinkUp p speed width flit recovery msix s
  | .standbyReady m => Sys2Proof.Machine.execStandbyReady m s
  | .shroudClaimRetry dt => Sys2Proof.Machine.execShroudClaimRetry dt s
  | .acknowledgeTimer p vc => Sys2Proof.Machine.execAcknowledgeTimer p vc s
  | .resizableBarWrite p log2 => Sys2Proof.Machine.execResizableBarWrite p log2 s

end Sys2Proof.Machine
end

