-- ==== Sys2Proof/Safety.lean ====
section
/-! DEFINITION. What counts as a safe run, and the invariants that statements about every step use. -/
namespace Sys2Proof.Machine

/-- A step that completes: it answers a next state. -/
def Completes (r : Result) : Prop := ∃ t, r = .next t

/-- A step that completes in a state of which `P` holds. -/
def Answers (r : Result) (P : State → Prop) : Prop := ∃ t, r = .next t ∧ P t

/-- A host access of this shape reaches register `a`: the port is served, size and alignment, READY, the owner of the page and the register
allow it (R44, R384, R386, R388, R390, R415), and the other port's access does not compete with it at the same instant (R396: of one that does,
`PlainRegisterWrites` says what comes of it). -/
abbrev State.Open (s : State) (acc : Acc) (a : Nat) : Prop :=
  s.gate acc a = .pass ∧ s.oscOut.contains 0 = false ∧ acc.tie = false

/-- Every register that `p` does not name reads as before, and HBM is unchanged. -/
def OnlyRegsOf (s t : State) (p : Nat → Prop) : Prop := (∀ a, ¬p a → t.reg a = s.reg a) ∧ t.hbm = s.hbm

/-- Core `y` runs context `c` of job `j` and waits for no save frame, its PC is aligned and inside the extents of the job, and it reads there without
an error the word `w`, which encodes the instruction numbered `code` (R164, R165, R168, R169, R188). -/
abbrev State.AtInstr (s : State) (y : Yard) (r : YcReads) (j : Nat) (c : YcCtx) (w code : Nat) : Prop :=
  s.live = true ∧ s.served (askKey (.core y.val)) = true ∧ (s.core y.val).cur = some j ∧ s.ctx y.val j = some c ∧
    c.st = .running ∧ c.pc % 4 = 0 ∧ s.ycOk y.val j c.pc 4 = true ∧
    r.fetch = .ok ∧ (s.local_ y.val).readNat c.pc 4 = w ∧ ycCode w = some code

/-- The state after an instruction of a running context that leaves it as `c`: the instruction is counted, in the page and in INSTRET, and
nothing else differs. -/
def State.retiring (s : State) (y : Yard) (j : Nat) (c : YcCtx) : State :=
  (s.bump (pgCore y.val + 0x110) 1).setCtx y.val j { c with instret := satInc c.instret, st := .running }

/-- The state after an instruction of a running context that must wait: the context is blocked on its word, and nothing else differs. -/
def State.blockedAt (s : State) (y : Yard) (j : Nat) (c : YcCtx) (w : Nat) : State := s.setCtx y.val j { c with st := .blocked, word := w }

/-- A sequenced frame `f` of type `n` arrives in its turn: port `q` is UP in direct mode, the header is good, this device is its destination, its
number is the next of its pair, and it carries no credit and no acknowledgement (R306, R310, R312, R313). -/
abbrev State.Takes (s : State) (q : Nat) (f : Frame) (n : Nat) : Prop :=
  s.portUp q = true ∧ s.ethernet q = false ∧ f.payload.length = fLen f ∧ frameError f = none ∧ fType f = n ∧ fDst f = s.devId ∧
    fSeq f = Tab.get 0 (s.port q).rxSeq (pairKey (fVc f) (fSrc f)) ∧ fld13 f 239 239 = 0 ∧ fld13 f 227 227 = 0

/-- A g register as the 64-bit word it is. -/
def YcCtx.word64 (c : YcCtx) (i : Nat) : W64 := toW (c.get i)

/-- The register file and HBM are in their canonical form: keys rise, and nothing listed equals what an unlisted key reads as. -/
def State.Canonical (s : State) : Prop := Tab.wf regReset s.regs = true ∧ s.hbm.wf = true

/-- Physical Yard `p` is on the retired list of both flash devices (R26). -/
def State.Retired (s : State) (p : Nat) : Prop := p ∈ s.retiredA ∧ p ∈ s.retiredB

end Sys2Proof.Machine
end

