-- ==== Sys2Proof/Certificates/Slice0/Obligations.lean ====
section
/-! DEFINITION. The statements for the provers: what each command does, what it leaves alone, and the rules of the whole block. -/
open Sys2Proof Sys2Proof.Machine

/-- For every command c and state s, a step with c at the front of the queue is exec of c on s with the rest of the queue; with an empty queue
a step answers the state as it is (the model's choice, assumption 61). Accesses are handled one at a time, in the order they come.
(spec/16_host_ports_and_register_pages.md R383, spec/16_host_ports_and_register_pages.md R396) -/
def Obligations.StepRunsFrontCommand : Prop :=
  (∀ (c : Instr) (rest : List Instr) (s : State), step { s with pending := c :: rest } = exec c { s with pending := rest }) ∧
  (∀ s : State, s.pending = [] → step s = .next s)

/-- At reset the device is in stage 1 and not READY, no command waits, no Yard is retired, registers and HBM are in canonical form, every
register holds the reset value of its table (one the tables leave open holds 0, assumption 1), and among them PT_STALL is 1,000, PT_BUDGET
5,000, GLB_IDENT part 0x6400, PWR_CFG 95 degrees, 600 A, 26 kW, 900 mV with AUTO_WARM, BR_LOG TYPE 1 and MN_CFG LOG_SEV 0x1F. Reset leaves
no stall, section, image, context or frame behind. (spec/00_scope.md R13, spec/03_fabric_and_tokens.md Table 3.15,
spec/04_sections_reefs_and_loading.md Table 4.4, spec/16_host_ports_and_register_pages.md Table 16.13, spec/17_power_and_mastheads.md
Table 17.5, spec/18_startup_and_reset.md Table 18.4, spec/18_startup_and_reset.md Table 18.6, spec/19_monitors_faults_integrity.md Table
19.8) -/
def Obligations.ResetState : Prop :=
  let s := State.reset
  s.stage = 1 ∧ s.isReady = false ∧ s.pending = [] ∧ s.Canonical ∧ (∀ p, ¬s.Retired p) ∧
  (∀ a, s.reg a = (regReset a).toNat) ∧
  (∀ p, p < 8 → s.reg (pgPart p + 0x180) = 1000 ∧ s.reg (pgPart p + 0x188) = 5000) ∧
  s.fld (pgGlobal + 0x100) 63 48 = 0x6400 ∧ s.fld (pgPower 0 + 0x100) 47 40 = 95 ∧ s.fld (pgPower 0 + 0x100) 39 30 = 600 ∧
  s.fld (pgPower 0 + 0x100) 29 21 = 260 ∧ s.fld (pgPower 0 + 0x100) 20 11 = 900 ∧ s.flag (pgPower 0 + 0x100) 0 = true ∧
  s.fld (pgBare + 0x110) 63 61 = 1 ∧ s.reg (pgMon + 0x100) = 0x1F ∧
  s.sections = [] ∧ s.images = [] ∧ s.cores = [] ∧ s.units = [] ∧ s.engines = [] ∧ s.ports = [] ∧ s.permute = none

/-- No command, with any operands and in any state, ends in a fault or a refusal: exec answers a next state whose queue of waiting commands is
as it was. So a step with a command waiting answers a next state that has lost the front command and no other. That a command that meets
nothing to act on, or must wait, changes nothing and completes is the model's form of 'waits' (assumption 23).
(spec/02_clockless_timing.md R36, spec/16_host_ports_and_register_pages.md R383, spec/16_host_ports_and_register_pages.md R396) -/
def Obligations.EveryCommandCompletes : Prop :=
  (∀ (c : Instr) (s : State), Answers (exec c s) fun t => t.pending = s.pending) ∧
  (∀ s : State, Answers (step s) fun t => t.pending = s.pending.tail)

/-- For every state and every physical Yard on the retired lists of both boot flash devices, whatever command a step takes, the Yard is on
both lists after the step. (spec/01_module_anatomy.md R26, spec/19_monitors_faults_integrity.md R456, spec/18_startup_and_reset.md Table
18.3) -/
def Obligations.RetiredYardsStayRetired : Prop :=
  ∀ (s t : State) (p : Nat), step s = .next t → s.Retired p → t.Retired p

/-- Each bit of GLB_EVT_SUM and GLB_EVT_YARDS is 1 exactly where a page that Table 16.13 puts under it shows IRQ = 1 in PG_STATUS, so it is 0
where none does. A write to either that reaches it changes no bit of it and no register, and sends nothing. (R393) -/
def Obligations.EventSummary : Prop :=
  ∀ s : State,
    let irq := fun (pg : Nat) => bit (readReg s (pg + 0x10)) 1
    let sum := readReg s (pgGlobal + 0x118)
    let yard := fun (y : Nat) => irq (pgYard y) || irq (pgSwitch y) || irq (pgCore y) || (List.range 22).any fun u => irq (pgUnit y u)
    (∀ g, g < 8 → bit sum (56 + g) = (List.range 8).any fun i => yard (8 * g + i)) ∧
    (∀ h, h < 32 → bit sum (24 + h) = (irq (pgHc h) || irq (pgPhy h) || irq (pgTherm h) || irq (pgRep h) || irq (pgSlice h))) ∧
    (∀ d, d < 8 → bit sum (16 + d) =
      (irq (pgPort (4 * d)) || irq (pgPort (4 * d + 1)) || irq (pgPort (4 * d + 2)) || irq (pgPort (4 * d + 3)) || irq (pgEngine d))) ∧
    bit sum 15 = irq pgMon ∧ bit sum 14 = irq pgArb ∧ (∀ p, p < 8 → bit sum (6 + p) = irq (pgPart p)) ∧
    bit sum 5 = (irq (pgPower 0) || irq (pgPower 1)) ∧ bit sum 4 = irq (pgHost true) ∧ bit sum 3 = irq (pgHost false) ∧
    bit sum 2 = irq (pgMast true) ∧ bit sum 1 = irq (pgMast false) ∧ bit sum 0 = irq pgGlobal ∧
    (∀ y, y < 64 → bit (readReg s (pgGlobal + 0x120)) y = yard y) ∧
    ∀ (acc : Acc) (w : W64) (a : Nat), a = pgGlobal + 0x118 ∨ a = pgGlobal + 0x120 → s.Open acc a →
      Answers (exec (.registerWrite acc a w) s) fun t => (∀ b, t.reg b = s.reg b) ∧ readReg t a = readReg s a ∧ t.out = s.out ∧ t.hbm = s.hbm

/-- POWER_ON of a module that is off leaves stage 1 with every register but BR_LOG at its reset value. Housekeeping ends in stage 2 with
GLB_TIME 0 and running, PWR_OK high and both Mastheads booting, or in stage 9 with cause 4; boot in stage 3 with the latch at A, or at B
if A failed, or in stage 9 with cause 2 and FAULT_N if both failed; self-test in stage 4 where a Yard is enabled, or in stage 9 with cause
1 on a wafer fault; HBM training in stage 5, on a cold start with HBM undefined; the links in stage 6, and stage 6 in READY, once no port
trains. (spec/18_startup_and_reset.md R426, spec/18_startup_and_reset.md R427, spec/18_startup_and_reset.md R428,
spec/18_startup_and_reset.md R429, spec/18_startup_and_reset.md R430, spec/18_startup_and_reset.md R431, spec/18_startup_and_reset.md
Table 18.4) -/
def Obligations.StartUpStages : Prop :=
  (∀ s : State, s.stage = 0 → Answers (exec .powerOn s) fun t =>
    t.stage = 1 ∧ t.resetType = 1 ∧ (∀ a, a ≠ pgBare + 0x110 → t.reg a = (regReset a).toNat) ∧ t.pending = s.pending) ∧
  (∀ (s : State) (dt : Nat), s.stage = 1 →
    (Answers (exec (.housekeepingDone dt true) s) fun t =>
      t.stage = 2 ∧ t.now = 0 ∧ t.timeOn = true ∧ t.pwrOk = true ∧ t.role false = 1 ∧ t.role true = 1) ∧
    (Answers (exec (.housekeepingDone dt false) s) fun t => t.stage = 9 ∧ t.fld (pgBare + 0x100) 56 53 = 4)) ∧
  (∀ (s : State) (dt : Nat) (a b : BootOutcome), s.stage = 2 →
    (¬(a = .failed ∧ b = .failed) → Answers (exec (.bootDone dt a b) s) fun t =>
      t.stage = 3 ∧ t.latch = some (if a = .failed then 1 else 0) ∧ t.role (decide (a = .failed)) = 3 ∧
      (∀ p, p ∈ s.retiredA ∨ p ∈ s.retiredB → t.Retired p)) ∧
    (a = .failed → b = .failed → Answers (exec (.bootDone dt a b) s) fun t =>
      t.stage = 9 ∧ t.fld (pgBare + 0x100) 56 53 = 2 ∧ t.flag (pgBare + 0x100) 62 = true)) ∧
  (∀ (s : State) (dt : Nat) (r : SelfTest), s.stage = 3 →
    (r.wafer = true → Answers (exec (.selftestDone dt r) s) fun t => t.stage = 9 ∧ t.fld (pgBare + 0x100) 56 53 = 1) ∧
    (r.wafer = false → ((List.range 64).any fun y => ((({ (s.tick dt).scrambleSram with stayAbsent := r.stays.toNat } : State).buildMap r)).enabled y) = true →
      Answers (exec (.selftestDone dt r) s) fun t => t.stage = 4 ∧ t.stayAbsent = r.stays.toNat ∧ t.hbm = s.hbm)) ∧
  (∀ (s : State) (dt : Nat) (bad : List StackTest), s.stage = 4 → Answers (exec (.hbmTrainDone dt bad) s) fun t =>
    t.stage = 5 ∧ (s.resetType ≤ 2 → t.hbm = Mem.undefinedBy (s.freeCtr + 1)) ∧ (2 < s.resetType → t.hbm = s.hbm)) ∧
  (∀ (s : State) (dt : Nat), s.stage = 5 → (∀ q, q < 32 → s.portState q ≠ 1) → Answers (exec (.linksDone dt) s) fun t => t.stage = 6 ∧ t.hbm = s.hbm) ∧
  (∀ (s : State) (dt : Nat), s.stage = 6 → s.latch ≠ none → (∀ q, q < 32 → s.portState q ≠ 1) → Answers (exec (.ready dt) s) fun t => t.stage = 7 ∧ t.isReady = true ∧ t.hbm = s.hbm) ∧
  (∀ (s : State) (dt : Nat), s.stage = 6 → (∃ q, q < 32 ∧ s.portState q = 1) → Answers (exec (.ready dt) s) fun t => t.stage = 6 ∧ t.isReady = s.isReady)

/-- With key 0xA5 written: COLD, where no cold start runs and no tripped die is still hot, leaves stage 1, TYPE 2, the writer as SOURCE and
every other register at reset; WARM of a READY device with no tripped die still hot leaves stage 2, TYPE 3, HBM and the kept registers as
they were (with no map-out running); PART_RST leaves BR_LOG with TYPE 4, the partition as TARGET and its registers at reset; YARD_RST of
an unused Yard leaves TYPE 5. What is asked where it may not be sets REFUSED alone. Without the key the write is only stored.
(spec/18_startup_and_reset.md R433, spec/18_startup_and_reset.md R434, spec/18_startup_and_reset.md R435, spec/18_startup_and_reset.md
R436, spec/18_startup_and_reset.md R437, spec/18_startup_and_reset.md Table 18.3, spec/18_startup_and_reset.md Table 18.6) -/
def Obligations.Resets : Prop :=
  ∀ (s : State) (acc : Acc) (w : W64), s.Open acc (pgBare + 0x108) →
    let s1 := s.storeReg (pgBare + 0x108) w.toNat (2 ^ 64 - 1)
    let key := bits (maskAnd w.toNat (maskedBits w.toNat)) 23 16
    (key = 0xA5 → acts w.toNat 0 = true → s.coldRuns = false → s.tripHolds = false → Answers (exec (.cold acc w) s) fun t =>
      t.stage = 1 ∧ t.reg (pgBare + 0x110) = 2 * 2 ^ 61 + acc.port.code * 2 ^ 58 ∧ t.reg (pgBare + 0x118) = s.now ∧
      (∀ a, a ≠ pgBare + 0x110 → a ≠ pgBare + 0x118 → t.reg a = (regReset a).toNat) ∧ t.retiredA = s.retiredA) ∧
    (key = 0xA5 → acts w.toNat 0 = true → s.tripHolds = true → exec (.cold acc w) s = .next (s1.setFlag (pgBare + 0x100) 61 true)) ∧
    (key = 0xA5 → acts w.toNat 0 = false → acts w.toNat 1 = true → s.isReady = true → s.tripHolds = false → s.maintRun = [] →
      Answers (exec (.warm acc w) s) fun t => t.stage = 2 ∧ t.resetType = 3 ∧ t.reg (pgBare + 0x118) = s.now ∧ t.hbm = s.hbm ∧
        (∀ a, warmKept a = true → a ≠ pgBare + 0x110 → a ≠ pgBare + 0x118 → a < 0x201_0000 → t.reg a = s.reg a)) ∧
    (key = 0xA5 → acts w.toNat 0 = false → acts w.toNat 1 = true → s.isReady = false →
      exec (.warm acc w) s = .next (s1.setFlag (pgBare + 0x100) 61 true)) ∧
    (∀ ms, key = 0xA5 → acts w.toNat 0 = false → acts w.toNat 1 = false → acts w.toNat 2 = true → s.isReady = true → s.stage ≠ 8 →
      let p := s1.fld (pgBare + 0x108) 9 7
      Answers (exec (.partRst acc w ms) s) fun t =>
        t.reg (pgBare + 0x110) = 4 * 2 ^ 61 + acc.port.code * 2 ^ 58 + p * 2 ^ 52 + ms % 2 ^ 32 ∧
        (∀ a, pgPart p + 0x100 ≤ a → a < pgPart p + 0x1000 → t.reg a = (regReset a).toNat) ∧ t.flag (pgBare + 0x18) 2 = true) ∧
    (∀ ms, key = 0xA5 → acts w.toNat 0 = false → acts w.toNat 1 = false → acts w.toNat 2 = false → acts w.toNat 3 = true → s.isReady = true → s.stage ≠ 8 →
      let y := s1.fld (pgBare + 0x108) 15 10
      s1.yardUsed y = false → Answers (exec (.yardRst acc w ms) s) fun t =>
        t.reg (pgBare + 0x110) = 5 * 2 ^ 61 + acc.port.code * 2 ^ 58 + y * 2 ^ 52 + ms % 2 ^ 32 ∧ t.flag (pgBare + 0x18) 2 = true) ∧
    (∀ ms, key ≠ 0xA5 → exec (.cold acc w) s = .next s1 ∧ exec (.warm acc w) s = .next s1 ∧ exec (.partRst acc w ms) s = .next s1 ∧
      exec (.yardRst acc w ms) s = .next s1)

/-- Losing a present oscillator whose partner is present and neither borrowed sets LOST and BORROW, clears PRESENT, raises REFCLK and moves
its loads; where the partner's loads ran on it, or the partner is absent, both count as lost: for the memory pair HBM is undefined and
both halves relock, for the host pair both links fall, for the pair of the Mastheads the device stops. Recovery sets PRESENT; an
oscillator of the host or the link pair that kept its own loads also ends their loss (the choice of assumption 165). The PHYs of a half
relock unless both oscillators of the pair count as lost. A sensor update stores the reading and the rate of every enabled Yard it names,
and the slowest rate. An edge in FOLLOW mode measures the error of GLB_TIME: within 50 ns it counts, and the eighth in a row sets LOCKED;
armed, it sets GLB_TIME to the epoch plus the delay and disarms; two milliseconds without an edge clear LOCKED and raise TSYNC_LOST; in
MASTER or FOLLOW mode a pulse leaves when GLB_TIME passes a multiple of 1,000,000. ARM sets ARMED and nothing else.
(spec/02_clockless_timing.md R44, spec/02_clockless_timing.md R45, spec/02_clockless_timing.md R48, spec/18_startup_and_reset.md R432,
spec/02_clockless_timing.md Table 2.5, spec/02_clockless_timing.md Table 2.11) -/
def Obligations.OscillatorsSensorsTime : Prop :=
  (∀ (s : State) (i : Fin 8), let a := pgGlobal + 0x900
    (s.flag a i.val = true → s.flag a (16 + i.val) = false → s.flag a (16 + partner i.val) = false → s.flag a (partner i.val) = true →
      exec (.refclkLost i) s = .next (((((s.setFlag a i.val false).setFlag a (8 + i.val) true).setFlag a (16 + i.val) true).event pgGlobal 0).loseOne i.val)) ∧
    (s.flag a i.val = true → s.flag a (16 + partner i.val) = true → exec (.refclkLost i) s =
      .next (((((s.setFlag a i.val false).setFlag a (8 + i.val) true).setFlag a (8 + partner i.val) true).event pgGlobal 0).loseBoth i.val)) ∧
    (s.flag a i.val = true → s.flag a (16 + partner i.val) = false → s.flag a (16 + i.val) = true →
      exec (.refclkLost i) s = .next (((s.setFlag a i.val false).setFlag a (8 + i.val) true).event pgGlobal 0)) ∧
    (s.flag a i.val = true → s.flag a (16 + i.val) = false → s.flag a (16 + partner i.val) = false → s.flag a (partner i.val) = false →
      exec (.refclkLost i) s = .next ((((s.setFlag a i.val false).setFlag a (8 + i.val) true).event pgGlobal 0).loseBoth i.val)) ∧
    (s.flag a i.val = false → exec (.refclkLost i) s = .next s) ∧
    (4 ≤ i.val ∨ s.flag a (16 + i.val) = true → exec (.refclkRecovered i) s = .next (s.setFlag a i.val true)) ∧
    (i.val < 4 → s.flag a (16 + i.val) = false → exec (.refclkRecovered i) s =
      .next { s.setFlag a i.val true with oscOut := s.oscOut.filter fun k => !(k == i.val / 2) })) ∧
  (∀ s : State, (s.loseBoth 4).oscOut.contains 2 = true ∧ (s.loseBoth 4).relock = [0, 1] ∧ (s.loseBoth 4).hbm = Mem.undefinedBy (s.freeCtr + 1) ∧
    (s.loseBoth 0).oscOut.contains 0 = true ∧ (s.loseBoth 0).linkUp false = false ∧ (s.loseBoth 0).linkUp true = false ∧
    ((s.loseBoth 6).latch = none ∧ (s.loseBoth 6).bothLost = true ∧ (s.loseBoth 6).stage = 8)) ∧
  (∀ (s : State) (east : Fin 2), s.relock.contains east.val = true → s.oscOut.contains 2 = false →
    Answers (exec (.phyRelockDone east) s) fun t => t.relock.contains east.val = false ∧ t.hbm = s.hbm ∧
      ∀ h, h < 16 → s.flag (pgPhy (16 * east.val + h) + 0x100) 63 = true → t.flag (pgPhy (16 * east.val + h) + 0x100) 62 = true) ∧
  (∀ (s : State) (dt : Nat) (xs : List YardSense), (xs.map (·.y)).Nodup → Answers (exec (.ydSenseUpdate dt xs) s) fun t =>
    t.hbm = s.hbm ∧ t.reg (pgGlobal + 0x908) = t.setSlow.reg (pgGlobal + 0x908) ∧ ∀ x ∈ xs, s.enabled x.y.val = true →
      t.reg (pgYard x.y.val + 0x100) = x.tj.toNat * 2 ^ 32 + x.baseMv.toNat * 2 ^ 16 + x.muMv.toNat ∧
      t.fld (pgYard x.y.val + 0x110) 15 0 = x.rate.toNat) ∧
  (∀ (s : State) (dt : Nat), (s.tick dt).tsyncMode = 2 → (s.tick dt).flag (pgBare + 0x198) 62 = true → Answers (exec (.tsyncEdge dt) s) fun t =>
    t.now = ((s.tick dt).reg (pgBare + 0x188) + (s.tick dt).fld (pgBare + 0x180) 47 32) % 2 ^ 64 ∧ t.flag (pgBare + 0x198) 62 = false ∧
    t.flag (pgBare + 0x198) 63 = false ∧ t.tsyncNs = 0) ∧
  (∀ (s : State) (dt : Nat), (s.tick dt).tsyncMode = 2 → (s.tick dt).flag (pgBare + 0x198) 62 = false →
    let e := tsyncErr (s.tick dt).now ((s.tick dt).fld (pgBare + 0x180) 47 32)
    e ≤ 50 → -50 ≤ e → Answers (exec (.tsyncEdge dt) s) fun t => t.fld (pgBare + 0x198) 31 0 = ofSigned 32 e ∧ t.tsyncGood = min 8 (s.tsyncGood + 1) ∧
      t.flag (pgBare + 0x198) 63 = decide (7 ≤ s.tsyncGood) ∧ t.slewLeft = -e ∧ t.tsyncNs = 0) ∧
  (∀ (s : State) (dt : Nat), (s.tick dt).tsyncMode = 2 → 2000000 ≤ s.tsyncNs + dt → Answers (exec (.tsyncTimeout dt) s) fun t =>
    t.flag (pgBare + 0x198) 63 = false ∧ t.flag (pgBare + 0x18) 3 = true ∧ t.tsyncNs = 0) ∧
  (∀ (s : State) (dt : Nat), (s.tick dt).tsyncMode = 1 ∨ (s.tick dt).tsyncMode = 2 → s.now / 1000000 < (s.tick dt).now / 1000000 →
    exec (.tsyncPulse dt) s = .next ((s.tick dt).emit .pulse)) ∧
  (∀ (s : State) (acc : Acc) (w : W64), s.Open acc (pgBare + 0x190) → acts w.toNat 0 = true →
    exec (.arm acc w) s = .next (s.setFlag (pgBare + 0x198) 62 true))

/-- At the head of a queue from an edge or the core, with nothing waiting to enter from an edge attachment and no bit flipped: a token with a
header error is reported with its cause; one without a route leaves as a stray; one routed to a single port of its own Yard that is free
and whose turn it is is offered there and leaves the queue; one routed to a neighbour's switch enters its queue, and on the halyard both
rails, where each has room for it; where the output has no room, on the halyard where each rail in service holds 16 tokens, nothing
changes. An empty queue changes nothing. The token in a crossing goes to the opposite edge where there is room, with the bits that
flipped, else it stays. (spec/03_fabric_and_tokens.md R52, spec/03_fabric_and_tokens.md R62, spec/03_fabric_and_tokens.md R64,
spec/03_fabric_and_tokens.md R70, spec/04_sections_reefs_and_loading.md R86, spec/03_fabric_and_tokens.md R471) -/
def Obligations.TokenRouting : Prop :=
  (∀ (s : State) (y : Yard) (src : SwPort) (lane : Lane) (p : Nat) (tok : Token) (rest : List Token), s.live = true → s.physOf y.val = some p →
    let k := inKey (portCode src) (laneCode lane)
    (s.inQueue y.val (portCode src) (laneCode lane) = [] → ∀ flip, exec (.tokenRoute y src lane flip) s = .next s) ∧
    (s.inQueue y.val (portCode src) (laneCode lane) = tok :: rest → Tab.get [] (s.switch y.val).copied k = [] →
      (∀ c, tokenError (laneNet (laneCode lane)) tok = some c →
        exec (.tokenRoute y src lane 0) s = .next (s.ctrlError y.val 38 c tok.hdr.toNat)) ∧
      (tokenError (laneNet (laneCode lane)) tok = none →
        (s.routeFor y.val (portCode src) (laneNet (laneCode lane)) tok = none →
          exec (.tokenRoute y src lane 0) s = .next ((s.popHead y.val k).stray y.val)) ∧
        (∀ r o, s.routeFor y.val (portCode src) (laneNet (laneCode lane)) tok = some r → r.outs = [o] →
          let l := if r.net = 0 then r.plane else laneCode lane
          (l ≠ 9 ∨ 4 ≤ o → s.hasRoom y.val p o l = false → exec (.tokenRoute y src lane 0) s = .next s) ∧
          (∀ z e, r.net = 2 → o < 4 → s.way p o = .switch z e → s.railOut z e .a = false → s.railOut z e .b = false →
            (16 ≤ s.railHeld z e .a → 16 ≤ s.railHeld z e .b → exec (.tokenRoute y src lane 0) s = .next s) ∧
            (z ≠ y.val → portCode src < 8 → s.inject = [] → (s.switch y.val).inQ = [(k, tok :: rest)] → s.railHeld z e .a < 16 →
              s.railHeld z e .b < 16 → Answers (exec (.tokenRoute y src lane 0) s) fun t => t.link z e = { s.link z e with
                wireA := (s.link z e).wireA ++ [toCopy tok], wireB := (s.link z e).wireB ++ [toCopy tok] } ∧
                t.inQueue y.val (portCode src) (laneCode lane) = rest ∧ t.hbm = s.hbm)) ∧
          (portCode src < 8 → s.inject = [] → s.hasRoom y.val p o l = true → s.turnOf y.val o l = some k →
            (4 ≤ o → Answers (exec (.tokenRoute y src lane 0) s) fun t => t.offer y.val o l = some tok ∧
              t.inQueue y.val (portCode src) (laneCode lane) = rest ∧ t.hbm = s.hbm ∧ t.regs = s.regs ∧ ∀ z, z ≠ y.val → t.switch z = s.switch z) ∧
            (∀ z e, o < 4 → s.way p o = .switch z e → z ≠ y.val → l < 9 → Answers (exec (.tokenRoute y src lane 0) s) fun t =>
              t.inQueue z e l = s.inQueue z e l ++ [tok] ∧ t.inQueue y.val (portCode src) (laneCode lane) = rest ∧ t.hbm = s.hbm)))))) ∧
  (∀ (s : State) (p : PhysYard) (dir : Edge) (i : Fin 8) (flip : BitVec 32), s.live = true →
    let k := (4 * p.val + dir.val) * 16 + i.val
    (Tab.find? s.crossTok k = none → exec (.crossingPass p dir (.plane i) flip) s = .next s) ∧
    (∀ tok, Tab.find? s.crossTok k = some tok →
      (s.hasRoom 0 p.val dir.val i.val = false → exec (.crossingPass p dir (.plane i) flip) s = .next s) ∧
      (∀ z e, s.inject = [] → s.way p.val dir.val = .switch z e → (s.inQueue z e i.val).length < 16 → Answers (exec (.crossingPass p dir (.plane i) flip) s) fun t =>
        t.inQueue z e i.val = s.inQueue z e i.val ++ [{ tok with hdr := tok.hdr ^^^ flip }] ∧ Tab.find? t.crossTok k = none ∧ t.hbm = s.hbm ∧ t.units = s.units)))

/-- With both rails in service and no copy waiting for its second: a good first copy from either rail passes on at once and waits for its
second. The second copy, good and equal, passes nothing more and settles the pair; a bad second copy counts for its rail and settles it
too. A copy from a rail that is declared down or disabled is dropped while the other is in service; with both out the token on rail A
fails with cause 3 (the choice of assumption 35). Nothing on the wires, nothing changes. A SW_CTRL write without RETRY that leaves each
rail in or out as it was is stored and does nothing else; with RETRY and no rail disabled it clears the rails declared down and changes no
other register. (spec/03_fabric_and_tokens.md R61, spec/03_fabric_and_tokens.md R63, spec/03_fabric_and_tokens.md R64,
spec/03_fabric_and_tokens.md Table 3.8) -/
def Obligations.HalyardReceivers : Prop :=
  (∀ (s : State) (y : Yard) (e : Edge) (c : BitVec 96) (rest : List (BitVec 96)), s.live = true →
    let l := s.link y.val e.val
    let q := s.inQueue y.val e.val 9
    (∀ rail, s.railOut y.val e.val rail = false) → l.firsts = [] → copyOk c = true →
    (l.wireA = c :: rest → Answers (exec (.halyardCopyReceive y e .a 0) s) fun t => t.inQueue y.val e.val 9 = q ++ [ofCopy c] ∧
      t.link y.val e.val = { l with wireA := rest, ahead := .a, firsts := [⟨c, true, true⟩], badA := 0 } ∧ t.regs = s.regs ∧ t.hbm = s.hbm) ∧
    (l.wireB = c :: rest → Answers (exec (.halyardCopyReceive y e .b 0) s) fun t => t.inQueue y.val e.val 9 = q ++ [ofCopy c] ∧
      t.link y.val e.val = { l with wireB := rest, ahead := .b, firsts := [⟨c, true, true⟩], badB := 0 } ∧ t.regs = s.regs ∧ t.hbm = s.hbm)) ∧
  (∀ (s : State) (y : Yard) (e : Edge) (c d : BitVec 96) (rest : List (BitVec 96)), s.live = true →
    let l := s.link y.val e.val
    let q := s.inQueue y.val e.val 9
    (∀ rail, s.railOut y.val e.val rail = false) → l.firsts = [⟨c, true, true⟩] → l.ahead = .a → l.wireB = d :: rest →
    (d = c → copyOk c = true → Answers (exec (.halyardCopyReceive y e .b 0) s) fun t => t.inQueue y.val e.val 9 = q ∧
      t.link y.val e.val = { l with wireB := rest, firsts := [], badB := 0 } ∧ t.regs = s.regs) ∧
    (copyOk d = false → l.badB < 15 → Answers (exec (.halyardCopyReceive y e .b 0) s) fun t => t.inQueue y.val e.val 9 = q ∧
      t.link y.val e.val = { l with wireB := rest, firsts := [], badB := l.badB + 1 } ∧ t.hbm = s.hbm)) ∧
  (∀ (s : State) (y : Yard) (e : Edge) (c : BitVec 96) (rest : List (BitVec 96)) (flip : BitVec 96), s.live = true → let l := s.link y.val e.val
    (l.wireA = [] → exec (.halyardCopyReceive y e .a flip) s = .next s) ∧
    (l.wireA = c :: rest → s.railOut y.val e.val .a = true → s.railOut y.val e.val .b = false →
      exec (.halyardCopyReceive y e .a flip) s = .next (s.setLink y.val e.val { l with wireA := rest })) ∧
    (l.wireA = c :: rest → s.railOut y.val e.val .a = true → s.railOut y.val e.val .b = true →
      exec (.halyardCopyReceive y e .a flip) s = .next ((s.setLink y.val e.val { l with wireA := rest }).ctrlError y.val 38 3 (c ^^^ flip).toNat))) ∧
  (∀ (s : State) (acc : Acc) (y : Yard) (w : W64), let a := pgSwitch y.val + 0x100; s.Open acc a →
    let u := s.storeReg a w.toNat (accMask acc)
    (acts w.toNat 2 = false → (∀ (e : Edge) rail, u.railOut y.val e.val rail = s.railOut y.val e.val rail) → exec (.railRetry acc y w) s = .next u) ∧
    (acts w.toNat 2 = true → u.fld a 1 0 = 0 → Answers (exec (.railRetry acc y w) s) fun t => t.fld (a + 8) 7 0 = 0 ∧ OnlyRegsOf s t fun r => r = a ∨ r = a + 8))

/-- A token offered to a unit with no firing under way enters the queue of the position its slot binds its channel to, while there is room,
and waits while there is none; one that no slot binds is a stray; one with a header error is reported. With every head its own, the
decision of an MU or VU that finds tokens for all positions begins their firing; where some position has none it changes nothing; where
all heads differ, the latest tag parks. A formed firing without anything left to send or to wait for ends, counted in its slot; an
unformed one does not end. An MU that waits for a pending tile goes on with a whole MARK firing, keeps waiting while the tile it would
overwrite is pending, and forms its firing and writes its accumulators once none is. A DELAY reads its oldest stored firing and sends it,
keeping its place in the ring until it has gone; where its ring is empty or that firing is on its way, nothing.
(spec/03_fabric_and_tokens.md R62, spec/03_fabric_and_tokens.md R66, spec/03_fabric_and_tokens.md R67, spec/03_fabric_and_tokens.md R70,
spec/03_fabric_and_tokens.md R71, spec/04_sections_reefs_and_loading.md R88, spec/04_sections_reefs_and_loading.md R91,
spec/05_matrix_units.md R136, spec/11_stowage_and_weight_streaming.md R273) -/
def Obligations.UnitFirings : Prop :=
  (∀ (s : State) (y : Yard) (u : UnitId) (lane : Lane), s.live = true →
    let l := laneCode lane
    let x := s.unit y.val u.val
    (s.offer y.val (8 + u.val) l = none → ∀ flip, exec (.unitTokenArrive y u lane flip) s = .next s) ∧
    (∀ tok, s.offer y.val (8 + u.val) l = some tok →
      (∀ c, destError (laneNet l) tok = some c →
        exec (.unitTokenArrive y u lane 0) s = .next ((s.takeOffer y.val (8 + u.val) l).ctrlError y.val u.val c tok.hdr.toNat)) ∧
      (destError (laneNet l) tok = none → (laneNet l ≠ 2 ∨ tok.chan ≠ 0xFF) →
        (x.placeOf tok.job (laneNet l) tok.chan = none →
          exec (.unitTokenArrive y u lane 0) s = .next ((s.takeOffer y.val (8 + u.val) l).stray y.val)) ∧
        (∀ k p, x.placeOf tok.job (laneNet l) tok.chan = some (k, p) →
          (16 ≤ (x.queue p).length → exec (.unitTokenArrive y u lane 0) s = .next s) ∧
          ((x.queue p).length < 16 → x.firing = none → Answers (exec (.unitTokenArrive y u lane 0) s) fun t =>
            t.unit y.val u.val = x.setQueue p (x.queue p ++ [tok]) ∧ t.offer y.val (8 + u.val) l = none ∧ t.regs = s.regs ∧ t.hbm = s.hbm))))) ∧
  (∀ (s : State) (y : Yard) (u : UnitId) (sd : Ecc) (k : Nat) (r : CfgRec), s.live = true → u.val < 20 →
    let x := s.unit y.val u.val
    x.active = some k → x.activeRec = some r → x.leaving = false → x.firing = none →
    (∀ p h rest, p < 4 → x.queue p = h :: rest → x.activePos h p = true) →
    (∀ j t us f, x.choose false = some (j, t, us) → (x.fire u.val j t us).firing = some f → f.whole = false →
      exec (.firingDecision y (u, sd)) s = .next ((s.setUnit y.val u.val { x.fire u.val j t us with heldSelect := none }).progressY y.val)) ∧
    (∀ p, x.choose false = none → p ∈ x.positions → x.queue p = [] → exec (.firingDecision y (u, sd)) s = .next s) ∧
    (∀ p h rest, x.choose false = none → (∀ q ∈ x.positions, x.queue q ≠ []) → x.latest = some p → x.queue p = h :: rest → x.tags.length < 64 →
      Answers (exec (.firingDecision y (u, sd)) s) fun t => (t.unit y.val u.val).queue p = rest ∧ (∃ e, (t.unit y.val u.val).tags = x.tags ++ [e] ∧ e.tok = h) ∧
        (t.unit y.val u.val).firing = none ∧ t.hbm = s.hbm)) ∧
  (∀ (s : State) (y : Yard) (u : UnitId), s.live = true → let x := s.unit y.val u.val
    (x.firing = none → exec (.firingEnd y u) s = .next s) ∧
    (∀ f, x.firing = some f → f.formed = false → exec (.firingEnd y u) s = .next s) ∧
    (∀ f k r, x.firing = some f → f.formed = true → x.outbox = [] → x.memWait = 0 → x.endWait = none → x.active = some k → (x.slot k).record = some r →
      x.leaving = false → (r.quota = 0 ∨ (r.perIter = false ∧ (x.slot k).fired + 1 ≠ r.quota * x.iters k)) →
      Answers (exec (.firingEnd y u) s) fun t => (t.unit y.val u.val).firing = none ∧ (t.unit y.val u.val).active = some k ∧
        ((t.unit y.val u.val).slot k).fired = (x.slot k).fired + 1 ∧ t.regs = s.regs ∧ t.hbm = s.hbm)) ∧
  (∀ (s : State) (y : Yard) (m : Fin 16) (f : Firing) (r : CfgRec), s.live = true → let x := s.unit y.val m.val
    x.firing = some f → f.formed = false → f.whole = true → x.activeRec = some r →
    let q := muPlan r.body (x.activeSet_ m.val r).1 (x.activeSet_ m.val r).2
    let base := q.accBase + (if q.alt && x.altSecond then q.region else 0)
    (f.isMark = true → Answers (exec (.muPendingWaitEnd y m) s) fun t => (∃ g, (t.unit y.val m.val).firing = some g ∧ g.formed = true) ∧
      t.accMem = s.accMem ∧ t.opBuf = s.opBuf ∧ t.hbm = s.hbm) ∧
    (f.isMark = false → q.empty = false → (∃ e ∈ x.pendingTiles, e < base + q.region ∧ base < e + 1024) → exec (.muPendingWaitEnd y m) s = .next s) ∧
    (f.isMark = false → q.empty = false → (∀ e ∈ x.pendingTiles, base + q.region ≤ e ∨ e + 1024 ≤ base) →
      let key := 64 * y.val + m.val
      let acc := memOf s.accMem s.sramEpoch key
      Answers (exec (.muPendingWaitEnd y m) s) fun t => (∃ g, (t.unit y.val m.val).firing = some g ∧ g.formed = true) ∧ t.hbm = s.hbm ∧
        t.accMem = setMem s.accMem s.sramEpoch key
          (accWrite acc base (regionValues q (muOperands q f (memOf s.opBuf s.sramEpoch key)).1 acc base)))) ∧
  (∀ (s : State) (y : Yard) (k : Fin 2), s.live = true → let x := s.unit y.val (20 + k.val)
    (x.ring = [] → exec (.suDelayEmit y k) s = .next s) ∧
    (∀ it rest, x.ring = it :: rest → it.sent = true → exec (.suDelayEmit y k) s = .next s) ∧
    (∀ it rest r p rs, x.ring = it :: rest → it.sent = false → x.activeRec = some r → s.partOfYard y.val = some p →
      let q := suPlan r.body (x.activeSet_ (20 + k.val) r).1 (x.activeSet_ (20 + k.val) r).2
      let n := sumNat (it.bursts.map (·.1))
      0 < n → s.suPlace y.val p (s.activeRes y.val (20 + k.val) x) q.space (q.base + it.pos * q.burstStride) (64 * n) = .hbm rs → rs ≠ [] →
      Answers (exec (.suDelayEmit y k) s) fun t => (t.unit y.val (20 + k.val)).ring = { it with sent := true } :: rest ∧
        (t.unit y.val (20 + k.val)).ringWait = x.ringWait + (joinLines rs).length ∧ t.hbm = s.hbm ∧ t.yardStore = s.yardStore))

/-- Where a BRANCH, MERGE or GATE has its SELECT and a token of the burst waits at the position it names, and that token is the last or no
other of the burst has come: it leaves its queue, and goes with the CHANNEL of the output into the output's queue where that has room; a
GATE whose SELECT is 0 drops it, and counts the drop at the last token. The last token ends the firing and frees the SELECT. Without room,
without a token, or with no firing, nothing changes. A COUNT takes its tick: a count under way, or one that starts at 0 with the slot's
LIMIT, goes on or ends as its mode says, and its value goes out; with no tick matched nothing changes. (spec/03_fabric_and_tokens.md R72,
spec/03_fabric_and_tokens.md R73, spec/03_fabric_and_tokens.md R74, spec/03_fabric_and_tokens.md Table 3.6) -/
def Obligations.SteeringUnits : Prop :=
  ∀ (s : State) (y : Yard) (st : Fin 16), s.live = true → let u := 22 + st.val; let x := s.unit y.val u
    (∀ f r c, x.firing = some f → x.activeRec = some r → x.heldSelect = some c → f.formed = false → stKind r.body ≠ 3 →
      let v := selectV c
      let p := if stKind r.body = 1 then v else 0
      let out := if stKind r.body = 0 then v else 0
      let w := bindOut r.body out
      let l := outLane (bindNet w) out
      let q := s.inQueue y.val (8 + u) l
      (x.pull f.job f.tag p = none → exec (.steeringPass y st) s = .next s) ∧
      (∀ t x1, x.pull f.job f.tag p = some (t, x1) → t.last = true ∨ x1.pull f.job f.tag p = none →
        let x2 := { x1 with firing := some { f with formed := t.last }, heldSelect := if t.last then none else some c }
        ((stKind r.body ≠ 2 ∨ v = 1) → bindValid w = true → q.length < 16 → (∀ k ∈ x.outbox, laneCode k.lane ≠ l) →
          Answers (exec (.steeringPass y st) s) fun z => z.unit y.val u = x2 ∧
            z.inQueue y.val (8 + u) l = q ++ [{ t with hdr := mkHdr t.job t.tag (bindChan w) t.kind t.last }] ∧ z.regs = s.regs ∧ z.hbm = s.hbm) ∧
        ((stKind r.body ≠ 2 ∨ v = 1) → 16 ≤ q.length → exec (.steeringPass y st) s = .next s) ∧
        (stKind r.body = 2 → v = 0 → Answers (exec (.steeringPass y st) s) fun z =>
          z.unit y.val u = { x2 with drops := if t.last then min 0xFFFF (x.drops + 1) else x.drops } ∧ z.switches = s.switches ∧ z.hbm = s.hbm))) ∧
    (x.firing = none → exec (.steeringPass y st) s = .next s) ∧
    (∀ k r, x.firing = none → x.active = some k → x.activeRec = some r → stKind r.body = 3 → x.leaving = false →
      (∀ p h rest, p < 4 → x.queue p = h :: rest → x.activePos h p = true) →
      (x.choose true = none → exec (.countTick y st) s = .next s) ∧
      (∀ j t us tick x1, x.choose true = some (j, t, us) → x.pull j t 0 = some (tick, x1) → us.contains 1 = false →
        let mine := fun (e : TagEntry) => e.count && e.tok.job == j && e.tok.tag == t
        let old := x1.tags.find? mine
        let n := (old.map (·.k)).getD 0
        let limit := (old.map (·.limit)).getD (stLimit r.body)
        let w := bindOut r.body 0
        let l := outLane (bindNet w) 0
        let go := fun (P : State → Prop) => Answers (exec (.countTick y st) s) fun z => (z.unit y.val u).firing = some ⟨j, t, [], [], true⟩ ∧ z.hbm = s.hbm ∧ P z
        let v := if stMode r.body = 2 then (if (n + 1) % limit = 0 then 1 else 0) else if n < limit then 1 else 0
        let ends := if stMode r.body = 2 then tick.last = true else limit ≤ n
        old.isSome = true ∨ x.tags.length < 64 →
        (x1.outbox = [] → bindValid w = true → (s.inQueue y.val (8 + u) l).length < 16 →
          go fun z => z.inQueue y.val (8 + u) l = s.inQueue y.val (8 + u) l ++ [ctrlTok j t (bindChan w) 1 v]) ∧
        (ends → go fun z => (z.unit y.val u).tags = x1.tags.filter fun e => !(mine e)) ∧
        (¬ends → (∀ e, old = some e → go fun z => (z.unit y.val u).tags = x1.tags.map fun e => if mine e then { e with k := (n + 1) % 2 ^ 32 } else e) ∧
          (old = none → go fun z => (z.unit y.val u).tags = x1.tags ++ [⟨true, k, 0, tick, (n + 1) % 2 ^ 32, limit⟩]))))

/-- Where no record is open: a REEF_OPEN for a slot of its job that is neither active nor live empties the slot and opens it for the number of
tokens named; for a live or active slot it stays offered. REEF_DATA appends its 6 bytes while tokens are left. REEF_CLOSE with all tokens
and the matching CRC, for a slot that nothing waits to activate, puts the record into the slot, with another CRC it is reported and the
slot stays empty; the record of a job that does not own the slot is dropped. With no such token offered, nothing changes.
(spec/04_sections_reefs_and_loading.md R84, spec/04_sections_reefs_and_loading.md R89, spec/04_sections_reefs_and_loading.md R90) -/
def Obligations.StreamedRecords : Prop :=
  ∀ (s : State) (y : Yard) (u : UnitId), s.live = true → let x := s.unit y.val u.val
    (s.ctrlOffer y.val u.val 0x10 = none → exec (.reefOpen y u) s = .next s) ∧
    (s.ctrlOffer y.val u.val 0x11 = none → exec (.reefData y u) s = .next s) ∧
    (s.ctrlOffer y.val u.val 0x12 = none → exec (.reefClose y u) s = .next s) ∧
    (∀ t, s.ctrlOffer y.val u.val 0x10 = some t → x.reef = none → let k := t.operand % 8; let v := x.slot k
      v.ownedBy t.job = true →
      ((v.live = true ∨ x.active = some k) → exec (.reefOpen y u) s = .next s) ∧
      (v.live = false → x.active ≠ some k → Answers (exec (.reefOpen y u) s) fun z =>
        z.unit y.val u.val = { x.setSlot k { v with record := none } with reef := some ⟨k, t.job, bits t.operand 31 16, [], false⟩ } ∧
        z.offer y.val (8 + u.val) 9 = none ∧ z.regs = s.regs ∧ z.hbm = s.hbm)) ∧
    (∀ t f, s.ctrlOffer y.val u.val 0x11 = some t → x.reef = some f → 0 < f.left → Answers (exec (.reefData y u) s) fun z =>
      z.unit y.val u.val = { x with reef := some { f with left := f.left - 1, bytes := f.bytes ++ leBytes 6 t.operand } } ∧ z.regs = s.regs) ∧
    (∀ t f, s.ctrlOffer y.val u.val 0x12 = some t → x.reef = some f → f.discard = true → Answers (exec (.reefClose y u) s) fun z =>
      z.unit y.val u.val = { x with reef := none } ∧ z.regs = s.regs) ∧
    (∀ t f, s.ctrlOffer y.val u.val 0x12 = some t → x.reef = some f → f.discard = false → f.left = 0 → x.activating = none → x.leaving = false →
      let r := parseCfg f.bytes
      (crc32c (f.bytes.take (16 + r.bodyLen)) = t.operand % 2 ^ 32 → Answers (exec (.reefClose y u) s) fun z =>
        (z.unit y.val u.val).slot f.slot = { x.slot f.slot with record := some r } ∧ (z.unit y.val u.val).reef = none ∧ z.regs = s.regs ∧ z.hbm = s.hbm) ∧
      (crc32c (f.bytes.take (16 + r.bodyLen)) ≠ t.operand % 2 ^ 32 → exec (.reefClose y u) s =
        .next (((s.takeUnitCtrl y.val u.val).setUnit y.val u.val { x with reef := none }).ctrlError y.val u.val 7 t.hdr.toNat)))

/-- A SECTION_START whose section no slot serves is taken and changes nothing in the unit. Served by one slot that holds an ENTRY record
without a quota: on a unit without an active slot that slot becomes active, live, with FIRED 0; behind an active slot it waits.
SECTION_END with no firing under way leaves no slot of its section live, and an active one leaves; with a firing of its slot under way it
waits for the end of that firing. With no such token offered, nothing changes. (spec/04_sections_reefs_and_loading.md R91,
spec/04_sections_reefs_and_loading.md R97) -/
def Obligations.SectionControlTokens : Prop :=
  ∀ (s : State) (y : Yard) (u : UnitId), s.live = true → let x := s.unit y.val u.val
    (s.ctrlOffer y.val u.val 0x13 = none → exec (.sectionStart y u) s = .next s) ∧
    (s.ctrlOffer y.val u.val 0x14 = none → exec (.sectionEnd y u) s = .next s) ∧
    (∀ t, s.ctrlOffer y.val u.val 0x13 = some t → let sec := bits t.operand 47 32
      ((∀ k, k < 8 → s.slotServes y.val u.val k t.job sec = none) → Answers (exec (.sectionStart y u) s) fun z =>
        z.unit y.val u.val = x ∧ z.offer y.val (8 + u.val) 9 = none ∧ z.regs = s.regs) ∧
      (∀ q r, q < 8 → s.slotServes y.val u.val q t.job sec = some r → (∀ k, k < 8 → k ≠ q → s.slotServes y.val u.val k t.job sec = none) →
        (x.slot q).record = some r → r.entry = true → r.quota = 0 → x.pend = none → x.leaving = false →
        (x.active = none → x.activating = none → Answers (exec (.sectionStart y u) s) fun z =>
          (z.unit y.val u.val).active = some q ∧ ((z.unit y.val u.val).slot q).live = true ∧ ((z.unit y.val u.val).slot q).fired = 0 ∧ z.hbm = s.hbm) ∧
        (∀ a, x.active = some a → Answers (exec (.sectionStart y u) s) fun z =>
          (z.unit y.val u.val).active = some a ∧ (z.unit y.val u.val).pend = some q ∧ ((z.unit y.val u.val).slot q).live = true))) ∧
    (∀ t, s.ctrlOffer y.val u.val 0x14 = some t → x.firing = none → x.active = none → x.activating = none → Answers (exec (.sectionEnd y u) s) fun z =>
      ∀ k, (x.slot k).sec = secKey t.job (bits t.operand 47 32) → ((z.unit y.val u.val).slot k).live = false) ∧
    (∀ t a r, s.ctrlOffer y.val u.val 0x14 = some t → x.active = some a → (x.slot a).record = some r → let key := secKey t.job (bits t.operand 47 32)
      (x.slot a).sec = key →
      (x.firing = none → x.ring = [] → x.pend = none → x.activating = none → r.next = 0xFF → Answers (exec (.sectionEnd y u) s) fun z =>
        (z.unit y.val u.val).active = none ∧ (∀ k, (x.slot k).sec = key → ((z.unit y.val u.val).slot k).live = false) ∧ z.hbm = s.hbm) ∧
      (x.firing.isSome = true → x.endWait = none → x.leaving = false → Answers (exec (.sectionEnd y u) s) fun z =>
        (z.unit y.val u.val).endWait = some key ∧ (z.unit y.val u.val).active = some a ∧ z.hbm = s.hbm))

/-- A SLOT_DONE that names a section in flight of its partition counts there; the last that a section outside the step plan needs takes it out
of the sections in flight, and no other section; one that names none is only taken. A STEP_VETO adds its count to STEP_NF while the
sequencer of its job is in PIPE, else it is only taken. Another halyard opcode is reported with cause 5, a header error with its cause, a
token of another network is a stray. With no such token offered nothing changes. (spec/03_fabric_and_tokens.md R58,
spec/03_fabric_and_tokens.md R62, spec/03_fabric_and_tokens.md R70, spec/04_sections_reefs_and_loading.md R98,
spec/08_fused_training_step.md R201, spec/04_sections_reefs_and_loading.md R472) -/
def Obligations.TrackerPort : Prop :=
  ∀ (s : State) (y : Yard), s.live = true →
    (s.trackerOffer y.val 0x15 = none → exec (.slotDone y) s = .next s) ∧
    (s.trackerOffer y.val 0x20 = none → exec (.stepVeto y) s = .next s) ∧
    (∀ t p, s.trackerOffer y.val 0x15 = some t → s.partOfYard y.val = some p →
      let mine := fun (c : Section) => c.part == p && c.job == t.job && c.num == bits t.payload 47 32
      (s.sections.find? mine = none → exec (.slotDone y) s = .next (s.takeTracker y.val 9)) ∧
      (∀ c, s.sections.find? mine = some c → c.got + 1 ≠ c.need → Answers (exec (.slotDone y) s) fun z =>
        z.sections = (s.sections.map fun x => if x.uid = c.uid then { c with got := c.got + 1 } else x) ∧ z.offer y.val 5 9 = none ∧ z.regs = s.regs) ∧
      (∀ c, s.sections.find? mine = some c → c.got + 1 = c.need → c.role = 0 → Answers (exec (.slotDone y) s) fun z =>
        (∀ x ∈ z.sections, x.uid ≠ c.uid) ∧ (∀ x ∈ s.sections, x.uid ≠ c.uid → x ∈ z.sections) ∧ z.hbm = s.hbm)) ∧
    (∀ t p, s.trackerOffer y.val 0x20 = some t → s.partOfYard y.val = some p →
      (s.seqState p t.job = 1 →
        exec (.stepVeto y) s = .next ((s.takeTracker y.val 9).bump (stepReg p t.job 0x18) (t.payload % 2 ^ 32))) ∧
      (s.seqState p t.job ≠ 1 → exec (.stepVeto y) s = .next (s.takeTracker y.val 9))) ∧
    (∀ lane : Lane, s.offer y.val 5 (laneCode lane) = none → exec (.trackerPortToken y lane) s = .next s) ∧
    (∀ lane t, s.offer y.val 5 (laneCode lane) = some t →
      (∀ c, tokenError (laneNet (laneCode lane)) t = some c →
        exec (.trackerPortToken y lane) s = .next ((s.takeTracker y.val (laneCode lane)).ctrlError y.val 38 c t.hdr.toNat)) ∧
      (tokenError (laneNet (laneCode lane)) t = none →
        (lane ≠ .halyard → exec (.trackerPortToken y lane) s = .next ((s.takeTracker y.val (laneCode lane)).stray y.val)) ∧
        (lane = .halyard → t.opcode ≠ 0x15 → t.opcode ≠ 0x20 →
          exec (.trackerPortToken y lane) s = .next ((s.takeTracker y.val 9).ctrlError y.val 38 5 t.hdr.toNat)) ∧
        (lane = .halyard → t.opcode = 0x15 ∨ t.opcode = 0x20 → exec (.trackerPortToken y lane) s = .next s)))

/-- With one record given to it: a record whose RIG_ID has no image is rejected with ISSUE_REJECTED; one that passes the checks of R95 and
R132 and that neither the step sequencer nor the phase logic holds starts its section with the next instance number, its extents, tag base
and iterations; one that R96 holds joins the records that wait. A waiting record whose hold has ended starts likewise, or is consumed
where an issue check fails. The oldest record held by the step sequencer stays held, is consumed without a fault, or starts its section,
and the sequencer then shows its state. Without a record that may go on nothing changes. (spec/04_sections_reefs_and_loading.md R95,
spec/04_sections_reefs_and_loading.md R96, spec/04_sections_reefs_and_loading.md R97, spec/08_fused_training_step.md R192,
spec/08_fused_training_step.md R193, spec/09_rollout_and_phase_alternation.md R223, spec/15_partitions_jobs_preemption.md R357) -/
def Obligations.SectionTracker : Prop :=
  let started := fun (s t : State) (p : Nat) (r : StartRec) (c : SecRec) => t.nextUid = s.nextUid + 1 ∧ Tab.get [] t.waiting p = [] ∧ t.hbm = s.hbm ∧
    ∃ x, t.sections = s.sections ++ [x] ∧ x.uid = s.nextUid ∧ x.part = p ∧ x.job = r.job ∧ x.rig = r.rig ∧ x.num = r.section_ ∧
      x.tagBase = r.tagBase ∧ x.ext = r.ext ∧ x.got = 0 ∧ x.start = s.now ∧ x.n = if c.iterDim = 0xFF then 1 else r.ext.getD c.iterDim 0
  (∀ (s : State) (p : Part), s.live = true → Tab.get [] s.issueQ p.val = [] → exec (.sectionIssue p) s = .next s) ∧
  (∀ (s : State) (p : Part) (r : StartRec), s.live = true → Tab.get [] s.issueQ p.val = [r] →
    let u : State := { s with issueQ := Tab.set [] s.issueQ p.val [] }
    let role := s.roleOf p.val r.job r.rig r.section_
    (s.imageAt p.val r.rig = none → exec (.sectionIssue p) s = .next (u.reject p.val r 0x0B01 0 0)) ∧
    (∀ i c, s.imageAt p.val r.rig = some i → i.secs.find? (·.num == r.section_) = some c → s.firstChecks p.val r = none →
      r.job ∈ s.jobsOf p.val → s.phaseOfRig p.val r.job r.rig = 0 →
      (role ≠ 0 → s.flag (phReg p.val r.job 0) 63 = false ∧ Tab.get [] s.stepHeld r.job = [] ∧ s.seqAct p.val r.job role = .start false) →
      (s.r96Holds p.val r.job = true → (∀ x ∈ Tab.get [] s.waiting p.val, s.r96Holds p.val x.job = true) →
        Answers (exec (.sectionIssue p) s) fun t => Tab.get [] t.waiting p.val = Tab.get [] s.waiting p.val ++ [r] ∧
          Tab.get [] t.issueQ p.val = [] ∧ t.sections = s.sections ∧ t.hbm = s.hbm) ∧
      (s.r96Holds p.val r.job = false → Tab.get [] s.waiting p.val = [] → s.issueFail p.val i r = none →
        Answers (exec (.sectionIssue p) s) fun t => started s t p.val r c ∧ Tab.get [] t.issueQ p.val = []))) ∧
  (∀ (s : State) (p : Part), s.live = true → (∀ x ∈ Tab.get [] s.waiting p.val, s.r96Holds p.val x.job = true) →
    exec (.trackerReleaseWaiting p) s = .next s) ∧
  (∀ (s : State) (p : Part) (r : StartRec) (i : Image) (c : SecRec), s.live = true → Tab.get [] s.waiting p.val = [r] → r.job ∈ s.jobsOf p.val →
    s.r96Holds p.val r.job = false → s.imageAt p.val r.rig = some i → i.secs.find? (·.num == r.section_) = some c →
    (s.issueFail p.val i r = none → Answers (exec (.trackerReleaseWaiting p) s) fun t => started s t p.val r c) ∧
    (∀ f, s.roleOf p.val r.job r.rig r.section_ = 0 → s.issueFail p.val i r = some f → exec (.trackerReleaseWaiting p) s =
      .next ((({ s with waiting := Tab.set [] s.waiting p.val [] } : State).issueFault p.val r f).refreshHeld p.val r.job))) ∧
  (∀ (s : State) (p : Part) (j : JobId), s.live = true →
    (Tab.get [] s.stepHeld j.val = [] → exec (.stepSeqRelease p j) s = .next s) ∧
    (∀ r rest i c, Tab.get [] s.stepHeld j.val = r :: rest → r.job = j.val → s.imageAt p.val r.rig = some i →
      i.secs.find? (·.num == r.section_) = some c → Tab.get [] s.waiting p.val = [] →
      let role := s.roleOf p.val j.val r.rig r.section_
      role ≠ 0 →
      (s.seqAct p.val j.val role = .hold → Answers (exec (.stepSeqRelease p j) s) fun t =>
        Tab.get [] t.stepHeld j.val = r :: rest ∧ t.sections = s.sections ∧ t.hbm = s.hbm) ∧
      (s.seqAct p.val j.val role = .consume 0x0504 → Answers (exec (.stepSeqRelease p j) s) fun t =>
        Tab.get [] t.stepHeld j.val = rest ∧ t.sections = s.sections ∧ t.hbm = s.hbm) ∧
      (s.seqAct p.val j.val role = .start false → s.phaseOfRig p.val j.val r.rig = 0 → j.val ∈ s.jobsOf p.val → s.r96Holds p.val j.val = false →
        s.issueFail p.val i r = none → Answers (exec (.stepSeqRelease p j) s) fun t => started s t p.val r c ∧
          Tab.get [] t.stepHeld j.val = rest ∧ t.seqState p.val j.val = if role = 1 then 1 else if role = 2 then 4 else 6)))

/-- A fabric reset of an enabled partition leaves none of its sections in flight and none of its records waiting, its Yards' switches empty,
the event raised, and HBM, the images and the sections of other partitions as they were. ABANDON makes one. A stall that is due is
recorded with its Yard and makes one, and so does a section that has outlasted its budget; where none has, the sample moves the clock
only. A partition that is not enabled is not reset. (spec/03_fabric_and_tokens.md R77, spec/03_fabric_and_tokens.md R78,
spec/03_fabric_and_tokens.md R79, spec/04_sections_reefs_and_loading.md R100, spec/04_sections_reefs_and_loading.md R101,
spec/04_sections_reefs_and_loading.md R102) -/
def Obligations.FabricResets : Prop :=
  let emptied := fun (s t : State) (p : Nat) => (∀ x ∈ t.sections, x.part ≠ p) ∧ (∀ x ∈ s.sections, x.part ≠ p → x ∈ t.sections) ∧
    Tab.get [] t.issueQ p = [] ∧ Tab.get [] t.waiting p = [] ∧ (∀ y ∈ s.yardsOf p, t.switch y = {}) ∧ t.images = s.images ∧ t.hbm = s.hbm ∧
    t.flag (pgPart p + 0x18) 6 = true
  (∀ (s : State) (p : Part), s.live = true →
    (s.partOn p.val = false → exec (.fabricReset p) s = .next s) ∧
    (s.partOn p.val = true → Answers (exec (.fabricReset p) s) fun t => emptied s t p.val)) ∧
  (∀ (s : State) (acc : Acc) (p : Part) (w : W64), s.Open acc (pgPart p.val + 0x1C8) → acts w.toNat 0 = false → acts w.toNat 1 = false →
    let t := s.storeReg (pgPart p.val + 0x1C8) w.toNat (accMask acc)
    (acts w.toNat 2 = true → Answers (exec (.abandon acc p w) s) fun z => emptied s z p.val) ∧
    (acts w.toNat 2 = false → exec (.abandon acc p w) s = .next t)) ∧
  (∀ (s : State) (dt : Nat) (p : Part), let u := s.tick dt; u.live = true →
    (u.partOn p.val = false → exec (.stallSample dt p) s = .next u) ∧
    (∀ y, u.partOn p.val = true → u.stallDue p.val = some y → Answers (exec (.stallSample dt p) s) fun t => emptied s t p.val ∧
      (s.fld (pgPart p.val + 0x38) 15 0 = 0 → t.fld (pgPart p.val + 0x38) 15 0 = 0x0401 ∧
        (y < 64 → t.reg (pgPart p.val + 0x40) = y * 2 ^ 58 + 63 * 2 ^ 52)))) ∧
  (∀ (s : State) (dt : Nat) (p : Part), let u := s.tick dt; u.live = true →
    let late := fun (c : Section) => c.part = p.val ∧ c.start + u.budgetNs c < u.now
    ((∀ c ∈ s.sections, ¬late c) → exec (.budgetSample dt p) s = .next u) ∧
    ((∃ c ∈ s.sections, late c) → Answers (exec (.budgetSample dt p) s) fun t => emptied s t p.val))

/-- A LOAD alone on a partition that is not busy: for a job of another partition it is rejected; where a check fails it is rejected with the
fault of that check; else the partition is BUSY and the image waits for its commit. A LOAD on a busy partition only stores the register.
The load that finished its checks first, and whose image memory has delivered, commits first. The commit of a load that nothing stops adds
the image under its RIG_ID, with RESULT 1 and its RIG_ID in use; one that something stops is rejected. An UNLOAD of a RIG_ID without an
image or with sections in flight ends with RESULT 4; else the image is gone, no other is, and RESULT is 3.
(spec/04_sections_reefs_and_loading.md R108, spec/04_sections_reefs_and_loading.md R111, spec/04_sections_reefs_and_loading.md R112,
spec/04_sections_reefs_and_loading.md R113, spec/11_stowage_and_weight_streaming.md R264, spec/15_partitions_jobs_preemption.md R356) -/
def Obligations.LoadingImages : Prop :=
  (∀ (s : State) (acc : Acc) (p : Part) (w : W64), s.Open acc (pgPart p.val + 0x1C8) → acts w.toNat 2 = false →
    let t := s.storeReg (pgPart p.val + 0x1C8) w.toNat (accMask acc)
    let j := t.fld (pgPart p.val + 0x1C8) 11 8
    let rig := t.fld (pgPart p.val + 0x1C8) 15 12
    let a := t.reg (pgPart p.val + 0x1C0)
    (acts w.toNat 0 = true → s.rigBusy p.val = true → exec (.rigLoad acc p w) s = .next t) ∧
    (acts w.toNat 0 = true → acts w.toNat 1 = true → exec (.rigLoad acc p w) s = .next t) ∧
    (acts w.toNat 0 = true → acts w.toNat 1 = false → s.rigBusy p.val = false → s.partOfJob j = none →
      exec (.rigLoad acc p w) s = .next (t.rejectLoad p.val j 0x0804 (j * 2 ^ 56 + 0xFFFFFFFF) none)) ∧
    (∀ f, acts w.toNat 0 = true → acts w.toNat 1 = false → s.rigBusy p.val = false → s.partOfJob j = some p.val → t.loadChecks p.val j a 255 = .inl f →
      exec (.rigLoad acc p w) s =
        .next ((t.post { part := p.val, cls := 3, job := j } false (t.imageReads p.val a)).rejectLoad p.val j f.code f.info none)) ∧
    (∀ i, acts w.toNat 0 = true → acts w.toNat 1 = false → s.rigBusy p.val = false → s.partOfJob j = some p.val → t.loadChecks p.val j a 255 = .inr i →
      Answers (exec (.rigLoad acc p w) s) fun z => z.rigBusy p.val = true ∧
        z.loads = s.loads ++ [⟨p.val, j, s.reg (pgGlobal + 0x3F8), i, t.geometryAt a, none, s.now⟩] ∧ z.images = s.images ∧ z.hbm = s.hbm) ∧
    (acts w.toNat 0 = false → acts w.toNat 1 = true → s.rigBusy p.val = false → s.imageAt p.val rig = none →
      exec (.unload acc p w) s = .next (t.rigResult p.val 4 rig j 0)) ∧
    (∀ i, acts w.toNat 0 = false → acts w.toNat 1 = true → s.rigBusy p.val = false → s.imageAt p.val rig = some i → s.imageUsed i = true →
      exec (.unload acc p w) s = .next (t.rigResult p.val 4 rig j 0)) ∧
    (∀ i, acts w.toNat 0 = false → acts w.toNat 1 = true → s.rigBusy p.val = false → s.imageAt p.val rig = some i → s.imageUsed i = false →
      s.imageActive i = false → Answers (exec (.unload acc p w) s) fun z =>
        z.images = (s.images.filter fun k => !(k.part == p.val && k.rig == rig)) ∧ z.fld (pgPart p.val + 0x1D0) 62 60 = 3 ∧
        z.flag (pgPart p.val + 0x1D8) rig = false ∧ z.rigBusy p.val = false ∧ z.hbm = s.hbm)) ∧
  (∀ (s : State) (p : Part), s.live = true →
    (s.nextCommit = none → exec (.loadCommit p) s = .next s) ∧
    (∀ l, s.nextCommit = some l → l.part ≠ p.val → exec (.loadCommit p) s = .next s) ∧
    (∀ l, s.nextCommit = some l → l.part = p.val →
      let u := ({ s with loads := s.loads.erase l } : State).dropAsk (askKey (.load p.val))
      (∀ f, u.commitFail l = some f → exec (.loadCommit p) s = .next (u.rejectLoad p.val l.job f.code f.info l.fromRing)) ∧
      (∀ rig res, u.commitFail l = none → s.rigFor p.val l.image.rig = some rig → s.placeStow l.image.res = some res → l.fromRing = none → rig < 16 →
        Answers (exec (.loadCommit p) s) fun z => z.images = s.images ++ [{ l.image with rig := rig, res := res }] ∧ z.loads = s.loads.erase l ∧
          z.fld (pgPart p.val + 0x1D0) 62 60 = 1 ∧ z.fld (pgPart p.val + 0x1D0) 59 56 = rig ∧ z.flag (pgPart p.val + 0x1D8) rig = true ∧ z.hbm = s.hbm)))

/-- In a slot that the thermal level of the stack uses (all at level 0, three of four at 1, one of four at 2, none at 3), a LIVE channel
grants its oldest class 0 request; where only class 1, 2 or 3 waits, the oldest of that, and the weights stay; a granted read enters
service, a granted write is done. Each command issued again after a parity error counts in HC_CAPAR_CNT. An unused slot adds 64 to the
throttle counter. A read without an error that fills no line answers its unit. The scrub, while the stack grants slots and no class 0
request waits, of a row without an error, of a fenced row or of a line the slice holds counts nothing for the row; a corrected error
counts in CE of the channel and in the row's own count; an uncorrectable one counts in UE and the row is fenced.
(spec/11_stowage_and_weight_streaming.md R265, spec/12_hbm_health.md R289, spec/12_hbm_health.md R291, spec/12_hbm_health.md Table 12.3) -/
def Obligations.HbmChannels : Prop :=
  (∀ (s : State) (c : Chan) (again : Nat), s.live = true → s.chLive c.val = true → s.relock.contains (c.val / 512) = false →
    let x := s.chan c.val
    let level := s.fld (pgTherm (c.val / 32) + 0x108) 1 0
    let used := level = 0 ∨ (level = 1 ∧ x.slots % 4 ≠ 3) ∨ (level = 2 ∧ x.slots % 4 = 0)
    let y : ChanState := { x with slots := (x.slots + 1) % 4 }
    let served := fun (r : MemReq) (z : ChanState) (t : State) =>
      t.chan c.val = (if r.write then z else { z with service := x.service ++ [r] }) ∧ t.regs = (s.bump (pgHc (c.val / 32) + 0x210) again).regs ∧
        t.hbm = s.hbm ∧ t.units = s.units ∧ ∀ d, d ≠ c.val → t.chan d = s.chan d
    (∀ r rest, used → x.q0 = r :: rest → Answers (exec (.hbmGrant (c, again)) s) (served r { y with q0 := rest })) ∧
    (∀ r rest, used → x.q0 = [] → x.q1 = r :: rest → x.q2 = [] → x.q3 = [] → Answers (exec (.hbmGrant (c, again)) s) (served r { y with q1 := rest })) ∧
    (∀ r rest, used → x.q0 = [] → x.q1 = [] → x.q2 = r :: rest → x.q3 = [] → Answers (exec (.hbmGrant (c, again)) s) (served r { y with q2 := rest })) ∧
    (∀ r rest, used → x.q0 = [] → x.q1 = [] → x.q2 = [] → x.q3 = r :: rest → Answers (exec (.hbmGrant (c, again)) s) (served r { y with q3 := rest })) ∧
    (¬used → exec (.hbmGrant (c, again)) s = .next ((s.setChan c.val y).bump (pgHc (c.val / 32) + 0x218) 64))) ∧
  (∀ (s : State) (c : Chan) (row : BitVec 22) (r : MemReq) (rest : List MemReq), s.live = true → (s.chan c.val).service = r :: rest →
    adOff (r.line * 4096) / 4096 = row.toNat / 4 → r.cache = false → r.emit = false → r.y < 64 → (s.unit r.y r.u).epoch = r.epoch → 1 < (s.unit r.y r.u).memWait →
    Answers (exec (.hbmReadComplete c row .ok) s) fun t => (t.chan c.val).service = rest ∧
      t.unit r.y r.u = { s.unit r.y r.u with memWait := (s.unit r.y r.u).memWait - 1 } ∧ t.regs = s.regs ∧ t.hbm = s.hbm) ∧
  (∀ (s : State) (c : Chan) (row : BitVec 22), s.live = true → s.flag (pgArb + 0x100) 1 = true → s.chLive c.val = true → row.toNat < 0x280000 →
    s.maintRun = [] → s.fld (pgTherm (c.val / 32) + 0x108) 1 0 ≠ 3 → s.relock.contains (c.val / 512) = false → (s.chan c.val).q0 = [] →
    let l := (c.val * 2 ^ 32 + row.toNat * 1024) / 4096
    let x := s.slice (lineStack l)
    let silent := fun (t : State) => t.reg (chReg c.val) = s.reg (chReg c.val) ∧ t.rowCe = s.rowCe ∧ t.hbm = s.hbm ∧ t.chans = s.chans
    Answers (exec (.patrolScrub c row .ok) s) silent ∧
    (∀ sev, x.holds l = true ∨ (s.fenceOf c.val row.toNat).isSome = true → Answers (exec (.patrolScrub c row sev) s) silent) ∧
    (x.holds l = false → (x.fills.any fun f => f.req.line == l) = false → s.fenceOf c.val row.toNat = none →
      (s.recRepaired.contains (rowKey c.val row.toNat) = false → Tab.get 0 s.rowCe (rowKey c.val row.toNat) + 1 < s.fld (pgRep (c.val / 32) + 0x100) 15 0 →
        Answers (exec (.patrolScrub c row .corrected) s) fun t => t.fld (chReg c.val) 31 0 = min (2 ^ 32 - 1) (s.fld (chReg c.val) 31 0 + 1) ∧
          Tab.get 0 t.rowCe (rowKey c.val row.toNat) = Tab.get 0 s.rowCe (rowKey c.val row.toNat) + 1 ∧ t.hbm = s.hbm ∧ t.chans = s.chans) ∧
      Answers (exec (.patrolScrub c row .bad) s) fun t => t.fld (chReg c.val) 47 32 = min (2 ^ 16 - 1) (s.fld (chReg c.val) 47 32 + 1) ∧ t.hbm = s.hbm))

/-- With no stream-cache or HBM regulator on: a read whose line the slice holds counts a hit there and at its unit and is answered; a read
that misses counts a miss and enters its channel's queue of its class, with a fill begun if it caches; a read of a line under way counts a
merge and waits with that fill; a write counts where the slice holds its line and enters the channel's queue. Where the oldest access
misses, the oldest miss of the lowest class goes first. A request all of whose rows are fenced enters no queue. A returned fill leaves the
list of fills, and its line is held where the partition has a way. The 64 ns refill of a partition that is not enabled changes nothing but
the clock; with nothing held it adds RATE x 64 bytes to each bucket up to BURST x 4096. (spec/11_stowage_and_weight_streaming.md R282,
spec/11_stowage_and_weight_streaming.md R283, spec/15_partitions_jobs_preemption.md R358, spec/15_partitions_jobs_preemption.md R359) -/
def Obligations.StreamCacheSlices : Prop :=
  (∀ (s : State) (h : Stack) (r : MemReq) (rest : List MemReq), s.live = true → (s.slice h.val).acc = r :: rest → lineStack r.line = h.val →
    r.part < 8 → r.cls < 4 → r.y < 64 → 20 ≤ r.u → r.u < 22 →
    (∀ k, k < 3 → bits (s.regInForce k r.part) 63 52 = 0) →
    s.allFenced r = false →
    let x := s.slice h.val
    (r.write = false → x.holds r.line = true → (s.unit r.y r.u).epoch ≠ r.epoch →
      Answers (exec (.scAccess h) s) fun t => t.slice h.val = { x with acc := rest }.use r.line ∧ t.hbm = s.hbm ∧ t.chans = s.chans) ∧
    (r.write = false → x.holds r.line = false → (x.fills.any fun f => f.req.line == r.line) = false → (∀ e ∈ rest, r.cls ≤ e.cls) →
      Answers (exec (.scAccess h) s) fun t =>
        t.slice h.val = { x with acc := rest, fills := if r.cache then x.fills ++ [⟨r, [], false⟩] else x.fills } ∧
        (t.chan (adChan (r.line * 4096))).q r.cls = (s.chan (adChan (r.line * 4096))).q r.cls ++ [r] ∧ t.hbm = s.hbm ∧ t.units = s.units) ∧
    (r.write = false → x.holds r.line = false → (x.fills.any fun f => f.req.line == r.line) = true →
      Answers (exec (.scAccess h) s) fun t => t.slice h.val = { x with
        acc := rest, fills := x.fills.map fun f => if f.req.line = r.line then { f with merged := f.merged ++ [r] } else f } ∧ t.chans = s.chans) ∧
    (r.write = true → x.holds r.line = false → (s.unit r.y r.u).epoch ≠ r.epoch →
      Answers (exec (.scAccess h) s) fun t => t.slice h.val = { x with acc := rest } ∧ t.hbm = s.hbm ∧ t.regs = s.regs ∧
        (t.chan (adChan (r.line * 4096))).q r.cls = (s.chan (adChan (r.line * 4096))).q r.cls ++ [r])) ∧
  (∀ (s : State) (h : Stack) (r0 r : MemReq) (rest : List MemReq), s.live = true → (s.slice h.val).acc = r0 :: r :: rest → lineStack r.line = h.val →
    let x := s.slice h.val
    x.misses r0 = true → x.misses r = true → r.cls < r0.cls → (∀ e ∈ rest, r.cls ≤ e.cls) → r.part = 8 → r.cache = false → s.allFenced r = false →
      Answers (exec (.scAccess h) s) fun t => t.slice h.val = { x with acc := r0 :: rest } ∧
        (t.chan (adChan (r.line * 4096))).q r.cls = (s.chan (adChan (r.line * 4096))).q r.cls ++ [r] ∧ t.hbm = s.hbm) ∧
  (∀ (s : State) (h : Stack) (r : MemReq) (rest : List MemReq), s.live = true → (s.slice h.val).acc = r :: rest → lineStack r.line = h.val →
    let x := s.slice h.val
    x.misses r = true → (∀ e ∈ rest, r.cls ≤ e.cls) → r.part = 8 → r.cache = false → r.y < 64 → (s.unit r.y r.u).epoch ≠ r.epoch →
    s.allFenced r = true → Answers (exec (.scAccess h) s) fun t => t.slice h.val = { x with acc := rest } ∧ t.chans = s.chans ∧ t.hbm = s.hbm) ∧
  (∀ (s : State) (h : Stack) (f : Fill) (rest : List Fill), s.live = true → (s.slice h.val).fills = f :: rest → f.back = true → f.merged = [] →
    f.req.y < 64 → (s.unit f.req.y f.req.u).epoch ≠ f.req.epoch →
    (∀ w, s.wayFor h.val f.req.part f.req.line = some w → Answers (exec (.scFillComplete h) s) fun t =>
      (t.slice h.val).fills = rest ∧ (t.slice h.val).holds f.req.line = true ∧ t.hbm = s.hbm ∧ t.regs = s.regs) ∧
    (s.wayFor h.val f.req.part f.req.line = none → Answers (exec (.scFillComplete h) s) fun t =>
      t.slice h.val = { s.slice h.val with fills := rest } ∧ t.hbm = s.hbm ∧ t.regs = s.regs)) ∧
  (∀ (s : State) (dt : Nat) (p : Part), (s.tick dt).live = true →
    ((s.tick dt).partOn p.val = false → exec (.regulatorRefill dt p) s = .next (s.tick dt)) ∧
    ((s.tick dt).partOn p.val = true → (∀ k i, k < 3 → i < 32 → (s.bucket k p.val i).held = []) → Answers (exec (.regulatorRefill dt p) s) fun t =>
      t.hbm = s.hbm ∧ ∀ k i, k < 3 → i < 32 →
        let r := pgPart p.val + 0x140 + 8 * k
        t.bucket k p.val i = ⟨min (s.fld r 51 40 * 4096) ((s.bucket k p.val i).tokens + s.fld r 63 52 * 64), []⟩))

/-- A HC_MO_CTRL write stores the channel and, with START, asks for its map-out, or waits for a primary Masthead where there is none
(assumption 183). In phase QUIESCE with no section in flight where the channel is granted, the channel becomes FENCED and the phase
SHARDS. SHARDS with no entry placed in the channel copies nothing and reaches RESTRIPE. RESTRIPE done, a channel whose home Yard holds no
stowage is MAPPED_OUT, BUSY is 0, RESULT 1, its lines have left the slice and HBM is unchanged. (spec/12_hbm_health.md R296,
spec/12_hbm_health.md R297, spec/12_hbm_health.md R298) -/
def Obligations.MapOut : Prop :=
  (∀ (s : State) (acc : Acc) (h : Stack) (w : W64), s.Open acc (pgHc h.val + 0x300) →
    let t := s.storeReg (pgHc h.val + 0x300) w.toNat (accMask acc)
    (acts w.toNat 8 = true → s.primary.isSome = true →
      exec (.mapOutRequest acc h w) s = .next (t.askMapOut (32 * h.val + t.fld (pgHc h.val + 0x300) 4 0) acc.port.code)) ∧
    (acts w.toNat 8 = true → s.primary = none → exec (.mapOutRequest acc h w) s = .next { t with
      maintWait := s.maintWait ++ [⟨1, 32 * h.val + t.fld (pgHc h.val + 0x300) 4 0, acc.port.code, 0, none⟩] }) ∧
    (acts w.toNat 8 = false → exec (.mapOutRequest acc h w) s = .next t)) ∧
  (∀ (s : State) (dt : Nat) (c : Chan) (errs : List (Chan × BitVec 22 × Ecc)), let u := s.tick dt; let a := pgHc (c.val / 32) + 0x310; u.live = true →
    (u.mapOutAt c.val 1 = true → u.noSectionsAt c.val = true → Answers (exec (.mapOutQuiesced dt c) s) fun t =>
      t.chState c.val = 1 ∧ t.fld a 62 60 = 2 ∧ OnlyRegsOf u t fun r => r = chReg c.val ∨ r = a) ∧
    (u.mapOutAt c.val 1 = true → u.noSectionsAt c.val = false → exec (.mapOutQuiesced dt c) s = .next u) ∧
    (u.mapOutAt c.val 2 = true → (∀ b ∈ u.sdListed, u.placedIn (u.sdPlace b true) c.val = false ∧ u.placedIn (u.sdPlace b false) c.val = false) →
      Answers (exec (.mapOutShardsDone dt (c, errs)) s) fun t => t.fld a 62 60 = 4 ∧ t.fld a 51 36 = 0 ∧ t.fld a 35 0 = 0 ∧ OnlyRegsOf u t fun r => r = a) ∧
    (u.mapOutAt c.val 4 = true → (∀ y, homeYard c.val = some y → u.stowExtents y = []) → s.maintQueue = [] →
      Answers (exec (.mapOutRestripeDone dt (c, errs)) s) fun t =>
      t.chState c.val = 2 ∧ t.flag a 63 = false ∧ t.fld a 59 57 = 1 ∧ t.fld a 62 60 = 0 ∧ c.val ∈ t.recMapped ∧ t.hbm = s.hbm ∧
      (t.slice (c.val / 32)).lines.all (fun e => adChan (e.line * 4096) != c.val) = true ∧
      t.maintRun = s.maintRun.filter fun k => !(k.cls == 1 && k.target == c.val)))

/-- Where no section of the job of a valid entry is in flight, a write stores its word; while one is, a write to word 0 changes only STAGED, a
write to the inactive placement's word stores it, and a write to the active placement's word or word 3 changes nothing. FLIP pends the
flip of the job named where none pends. A pending flip whose job has no section in flight inverts ACT of every staged entry of the job,
clears its STAGED and increments its VER, and changes no other entry; while one is in flight, it waits. BASE of YD_STOW is stored only
while no loaded image has stowage there. (spec/11_stowage_and_weight_streaming.md R264, spec/11_stowage_and_weight_streaming.md R279,
spec/11_stowage_and_weight_streaming.md R280, spec/11_stowage_and_weight_streaming.md Table 11.8) -/
def Obligations.ShardDirectory : Prop :=
  (∀ (s : State) (acc : Acc) (b : Fin 131072) (k : Fin 4) (w : W64), s.Open acc (sdAddr b.val + 8 * k.val) → acc.size = 8 →
    let a := sdAddr b.val + 8 * k.val
    let busy := s.sdValid b.val = true ∧ s.jobIdle (s.sdJob b.val) = false
    (¬busy → (0 < k.val ∨ bit w.toNat 60 = false) → exec (.sdEntryWrite acc b k w) s = .next (s.storeReg a w.toNat (accMask acc))) ∧
    (busy → k.val = 0 → exec (.sdEntryWrite acc b k w) s = .next (s.setFlag a 62 (bit w.toNat 62))) ∧
    (busy → k.val = 2 - s.sdAct b.val → exec (.sdEntryWrite acc b k w) s = .next (s.storeReg a w.toNat (accMask acc))) ∧
    (busy → k.val = s.sdAct b.val + 1 ∨ k.val = 3 → exec (.sdEntryWrite acc b k w) s = .next s)) ∧
  (∀ (s : State) (acc : Acc) (w : W64), s.Open acc (pgGlobal + 0x920) → acts w.toNat 0 = true → Answers (exec (.flip acc w) s) fun t =>
    (s.flag (pgGlobal + 0x928) 63 = false → t.flag (pgGlobal + 0x928) 63 = true ∧ t.fld (pgGlobal + 0x928) 59 56 = t.fld (pgGlobal + 0x920) 7 4) ∧
    (s.flag (pgGlobal + 0x928) 63 = true → t.reg (pgGlobal + 0x928) = s.reg (pgGlobal + 0x928)) ∧ ∀ b, t.sdAct b = s.sdAct b) ∧
  (∀ (s : State), let j := s.fld (pgGlobal + 0x928) 59 56; s.live = true → s.flag (pgGlobal + 0x928) 63 = true →
    (s.jobIdle j = false → exec .sdFlip s = .next s) ∧
    (s.jobIdle j = true → Answers (exec .sdFlip s) fun t => t.flag (pgGlobal + 0x928) 63 = false ∧ t.hbm = s.hbm ∧ ∀ b, b < 131072 →
      ((s.sdStaged b = true ∧ s.sdJob b = j) → t.sdAct b = 1 - s.sdAct b ∧ t.sdStaged b = false ∧
        bits (t.sdWord b 0) 47 32 = (bits (s.sdWord b 0) 47 32 + 1) % 65536) ∧
      (¬(s.sdStaged b = true ∧ s.sdJob b = j) → t.sdWord b 0 = s.sdWord b 0))) ∧
  (∀ (s : State) (acc : Acc) (y : Yard) (w : W64), s.Open acc (pgYard y.val + 0x188) →
    (s.stowExtents y.val = [] → exec (.stowBaseWrite acc y w) s = .next (s.storeReg (pgYard y.val + 0x188) w.toNat (accMask acc))) ∧
    (s.stowExtents y.val ≠ [] → exec (.stowBaseWrite acc y w) s = .next s))

/-- A reading of a trained stack is kept, with the peak; the level becomes 3, 2 or 1 where the reading is at or above 105, 95 or 85 degrees,
is held where it has fallen less than 3 degrees below the entry of the level it had, and is 0 otherwise; HBM does not change. A stack
without training takes no reading. A REP_CTRL write with bit 0 and its enable asks the arbiter for a class 2 operation on the stack, or
waits for a primary Masthead where there is none; without the bit, it changes nothing. A running repair of a stack that is not cool only
shows DEFERRED. Cool, with no pending entry left, it ends with RESULT 1 and BUSY 0. With sections in flight in a partition granted the
channel it has quiesced, it waits; with none, the channel's entries show REPAIRING. (spec/12_hbm_health.md R289, spec/12_hbm_health.md
R290, spec/12_hbm_health.md Table 12.3, spec/12_hbm_health.md R294, spec/17_power_and_mastheads.md R419) -/
def Obligations.StackHeatAndRepair : Prop :=
  (∀ (s : State) (dt : Nat) (h : Stack) (t : BitVec 16), let u := s.tick dt; u.live = true →
      (u.flag (pgPhy h.val + 0x100) 63 = false → exec (.hbmTempSample dt h t) s = .next u) ∧
      (u.flag (pgPhy h.val + 0x100) 63 = true → Answers (exec (.hbmTempSample dt h t) s) fun v =>
        let a := pgTherm h.val
        let old := s.fld (a + 0x108) 1 0
        v.fld (a + 0x100) 15 0 = t.toNat ∧ v.hbm = s.hbm ∧ v.chans = s.chans ∧
        v.flag (a + 0x108) 2 = decide (1360 < t.toInt) ∧
        (1680 ≤ t.toInt → v.fld (a + 0x108) 1 0 = 3) ∧
        (t.toInt < 1312 → v.fld (a + 0x108) 1 0 = 0) ∧
        (1520 ≤ t.toInt → t.toInt < 1632 → v.fld (a + 0x108) 1 0 = 2) ∧
        (1632 ≤ t.toInt → t.toInt < 1680 → v.fld (a + 0x108) 1 0 = if old = 3 then 3 else 2) ∧
        (1472 ≤ t.toInt → t.toInt < 1520 → v.fld (a + 0x108) 1 0 = if 2 ≤ old then 2 else 1) ∧
        (1360 ≤ t.toInt → t.toInt < 1472 → v.fld (a + 0x108) 1 0 = 1) ∧
        (1312 ≤ t.toInt → t.toInt < 1360 → v.fld (a + 0x108) 1 0 = if old = 0 then 0 else 1))) ∧
  ((∀ (s : State) (acc : Acc) (h : Stack) (w : W64), s.Open acc (pgRep h.val + 0x108) →
      (acts w.toNat 0 = true → s.primary.isSome = true → exec (.repair acc h w) s = .next (s.maintAsk ⟨2, h.val, acc.port.code, 0, none⟩)) ∧
      (acts w.toNat 0 = true → s.primary = none →
        exec (.repair acc h w) s = .next { s with maintWait := s.maintWait ++ [⟨2, h.val, acc.port.code, 0, none⟩] }) ∧
      (acts w.toNat 0 = false → exec (.repair acc h w) s = .next s)) ∧
    (∀ (s : State) (dt : Nat) (h : Stack) (m : MaintOp), let u := s.tick dt; let a := pgRep h.val + 0x110
      u.live = true → s.maintRun = [m] → m.cls = 2 → m.target = h.val →
      (0 < u.fld (pgTherm h.val + 0x108) 1 0 → exec (.rowRepairRun dt h) s = .next (u.setFlag a 62 true)) ∧
      (u.fld (pgTherm h.val + 0x108) 1 0 = 0 → m.phase = 0 → (∀ c, c / 32 = h.val → u.fencesIn c 0 = [] ∧ u.fencesIn c 2 = []) → s.maintQueue = [] →
        Answers (exec (.rowRepairRun dt h) s) fun t => t.maintRun = [] ∧ t.flag a 63 = false ∧ t.flag a 62 = false ∧
          t.reg (pgArb + 0x148) = 2 * 2 ^ 60 + 2 ^ 58 + h.val ∧ t.hbm = s.hbm) ∧
      (u.fld (pgTherm h.val + 0x108) 1 0 = 0 → 0 < m.phase → u.noSectionsAt (32 * h.val + m.phase - 1) = false →
        exec (.rowRepairRun dt h) s = .next (u.setFlag a 62 false)) ∧
      (let c := 32 * h.val + m.phase - 1
       u.fld (pgTherm h.val + 0x108) 1 0 = 0 → 0 < m.phase → u.noSectionsAt c = true → u.fencesIn c 2 = [] → exec (.rowRepairRun dt h) s =
        .next ((u.fencesIn c 0).foldl (fun (t : State) e => t.setFld (fenceReg h.val e 0) 62 61 2) (u.setFlag a 62 false)))))

/-- A running context at a legal word of ADD, SUB, AND, OR, XOR, SLL, SRL, SRA, SLT, SLTU, MUL, MULHU, MULH, DIVU, REMU, DIV or REM retires
it: gd (word bits [10:6]; g0 stays 0) takes the 64-bit result of gs1 (bits [15:11]) and gs2 (bits [20:16]), PC moves by 4, INSTRET and the
page's counter count it, and nothing else differs. Results are stated over 64-bit words: wrapping sum, difference and product, the high
product words, shifts by gs2[5:0], signed and unsigned comparison, division toward zero with the results of a zero divisor.
(spec/07_yard_core.md R167, spec/07_yard_core.md R169, spec/07_yard_core.md Table 7.3) -/
def Obligations.YardCoreIntegerRegister : Prop :=
  ∀ (s : State) (y : Yard) (r : YcReads) (j : Nat) (c : YcCtx) (w : Nat),
    let a : W64 := c.word64 (bits w 15 11)
    let b : W64 := c.word64 (bits w 20 16)
    let gives := fun (v : W64) => Host.Outcome.next (s.retiring y j (c.put (bits w 10 6) v.toNat).next)
    (s.AtInstr y r j c w (ycNum 0x01 0x000) → exec (.ycAdd y r) s = gives (a + b)) ∧
    (s.AtInstr y r j c w (ycNum 0x01 0x001) → exec (.ycSub y r) s = gives (a - b)) ∧
    (s.AtInstr y r j c w (ycNum 0x01 0x002) → exec (.ycAnd y r) s = gives (a &&& b)) ∧
    (s.AtInstr y r j c w (ycNum 0x01 0x003) → exec (.ycOr y r) s = gives (a ||| b)) ∧
    (s.AtInstr y r j c w (ycNum 0x01 0x004) → exec (.ycXor y r) s = gives (a ^^^ b)) ∧
    (s.AtInstr y r j c w (ycNum 0x01 0x005) → exec (.ycSll y r) s = gives (a <<< (b.toNat % 64))) ∧
    (s.AtInstr y r j c w (ycNum 0x01 0x006) → exec (.ycSrl y r) s = gives (a >>> (b.toNat % 64))) ∧
    (s.AtInstr y r j c w (ycNum 0x01 0x007) → exec (.ycSra y r) s = gives (a.sshiftRight (b.toNat % 64))) ∧
    (s.AtInstr y r j c w (ycNum 0x01 0x008) → exec (.ycSlt y r) s = gives (if a.slt b then 1 else 0)) ∧
    (s.AtInstr y r j c w (ycNum 0x01 0x009) → exec (.ycSltu y r) s = gives (if a.ult b then 1 else 0)) ∧
    (s.AtInstr y r j c w (ycNum 0x01 0x010) → exec (.ycMul y r) s = gives (a * b)) ∧
    (s.AtInstr y r j c w (ycNum 0x01 0x011) → exec (.ycMulhu y r) s = gives (BitVec.ofNat 64 (a.toNat * b.toNat / 2 ^ 64))) ∧
    (s.AtInstr y r j c w (ycNum 0x01 0x012) → exec (.ycMulh y r) s = gives (BitVec.ofInt 64 (a.toInt * b.toInt / 2 ^ 64))) ∧
    (s.AtInstr y r j c w (ycNum 0x01 0x018) → exec (.ycDivu y r) s = gives (if b = 0 then BitVec.allOnes 64 else a.udiv b)) ∧
    (s.AtInstr y r j c w (ycNum 0x01 0x019) → exec (.ycRemu y r) s = gives (if b = 0 then a else a.umod b)) ∧
    (s.AtInstr y r j c w (ycNum 0x01 0x01A) → exec (.ycDiv y r) s = gives (if b = 0 then BitVec.allOnes 64 else a.sdiv b)) ∧
    (s.AtInstr y r j c w (ycNum 0x01 0x01B) → exec (.ycRem y r) s = gives (if b = 0 then a else a.srem b))

/-- A running context at a legal word of ADDI, ANDI, ORI, XORI, SLLI, SRLI, SRAI or LSH16 retires it with gd = the result of gs1 and imm16
(sign-extended for ADDI, zero-extended for the logical ones and LSH16, bits [5:0] for the shifts), PC moved by 4, the instruction counted,
and nothing else different. (spec/07_yard_core.md R167, spec/07_yard_core.md R169, spec/07_yard_core.md Table 7.3) -/
def Obligations.YardCoreIntegerImmediate : Prop :=
  ∀ (s : State) (y : Yard) (r : YcReads) (j : Nat) (c : YcCtx) (w : Nat),
    let a : W64 := c.word64 (bits w 15 11)
    let i : BitVec 16 := BitVec.ofNat 16 (bits w 31 16)
    let gives := fun (v : W64) => Host.Outcome.next (s.retiring y j (c.put (bits w 10 6) v.toNat).next)
    (s.AtInstr y r j c w (ycNum 0x02 0) → exec (.ycAddi y r) s = gives (a + i.signExtend 64)) ∧
    (s.AtInstr y r j c w (ycNum 0x03 0) → exec (.ycAndi y r) s = gives (a &&& i.zeroExtend 64)) ∧
    (s.AtInstr y r j c w (ycNum 0x04 0) → exec (.ycOri y r) s = gives (a ||| i.zeroExtend 64)) ∧
    (s.AtInstr y r j c w (ycNum 0x05 0) → exec (.ycXori y r) s = gives (a ^^^ i.zeroExtend 64)) ∧
    (s.AtInstr y r j c w (ycNum 0x06 0) → exec (.ycSlli y r) s = gives (a <<< (i.toNat % 64))) ∧
    (s.AtInstr y r j c w (ycNum 0x06 1) → exec (.ycSrli y r) s = gives (a >>> (i.toNat % 64))) ∧
    (s.AtInstr y r j c w (ycNum 0x06 2) → exec (.ycSrai y r) s = gives (a.sshiftRight (i.toNat % 64))) ∧
    (s.AtInstr y r j c w (ycNum 0x07 0) → exec (.ycLsh16 y r) s = gives ((a <<< 16) ||| i.zeroExtend 64))

/-- A running context at a legal word of FADD, FSUB, FMUL, FDIV, FMIN, FMAX, FSQRT, FLT, FLE, FEQ, FCVT.L or FCVT.F retires it: an operand is
the high half of its register where its half bit (word bit 26 for gs1, 27 for gs2) is 1, else the low half; the result of the model's FP32
operation stands zero-extended in gd; FLE is true where the first is less or equal; FCVT.F converts the whole signed gs1 with one
rounding; PC moves by 4, the instruction is counted, nothing else differs. (spec/07_yard_core.md Table 7.3, spec/07_yard_core.md R168) -/
def Obligations.YardCoreFloat : Prop :=
  ∀ (s : State) (y : Yard) (r : YcReads) (j : Nat) (c : YcCtx) (w : Nat),
    let half := fun (i k : Nat) => if w.testBit k then (c.word64 i).extractLsb' 32 32 else (c.word64 i).extractLsb' 0 32
    let a : BitVec 32 := half (bits w 15 11) 26
    let b : BitVec 32 := half (bits w 20 16) 27
    let gives := fun (v : Nat) => Host.Outcome.next (s.retiring y j (c.put (bits w 10 6) v).next)
    (s.AtInstr y r j c w (ycNum 0x08 0) → exec (.ycFadd y r) s = gives (f32Add a b).toNat) ∧
    (s.AtInstr y r j c w (ycNum 0x08 1) → exec (.ycFsub y r) s = gives (f32Sub a b).toNat) ∧
    (s.AtInstr y r j c w (ycNum 0x08 2) → exec (.ycFmul y r) s = gives (f32Mul a b).toNat) ∧
    (s.AtInstr y r j c w (ycNum 0x08 3) → exec (.ycFdiv y r) s = gives (f32Div a b).toNat) ∧
    (s.AtInstr y r j c w (ycNum 0x08 4) → exec (.ycFmin y r) s = gives (f32Min a b).toNat) ∧
    (s.AtInstr y r j c w (ycNum 0x08 5) → exec (.ycFmax y r) s = gives (f32Max a b).toNat) ∧
    (s.AtInstr y r j c w (ycNum 0x08 6) → exec (.ycFsqrt y r) s = gives (f32Sqrt a).toNat) ∧
    (s.AtInstr y r j c w (ycNum 0x08 7) → exec (.ycFlt y r) s = gives (if f32Lt a b then 1 else 0)) ∧
    (s.AtInstr y r j c w (ycNum 0x08 8) → exec (.ycFle y r) s = gives (if f32Lt a b ∨ f32Eq a b then 1 else 0)) ∧
    (s.AtInstr y r j c w (ycNum 0x08 9) → exec (.ycFeq y r) s = gives (if f32Eq a b then 1 else 0)) ∧
    (s.AtInstr y r j c w (ycNum 0x08 0xA) → exec (.ycFcvtL y r) s = gives (BitVec.ofInt 64 (toInt64 (f32 a))).toNat) ∧
    (s.AtInstr y r j c w (ycNum 0x08 0xB) → exec (.ycFcvtF y r) s =
      gives (toF32 (.fin (c.word64 (bits w 15 11)).msb (c.word64 (bits w 15 11)).toInt.natAbs 0)).toNat)

/-- LD, LW, LWS and LB at a naturally aligned address inside the job's extents, read without an error, retire with gd = the little-endian
bytes (LWS sign-extended, LW and LB zero-extended), local memory unchanged. A misaligned address is exception cause 2, one outside the
extents cause 3, each with the address as its value. (spec/07_yard_core.md R165, spec/07_yard_core.md R166, spec/07_yard_core.md R168,
spec/07_yard_core.md R171, spec/07_yard_core.md Table 7.3) -/
def Obligations.YardCoreLoads : Prop :=
  ∀ (s : State) (y : Yard) (r : YcReads) (j : Nat) (c : YcCtx) (w : Nat),
    let a := (c.word64 (bits w 15 11) + (BitVec.ofNat 16 (bits w 31 16)).signExtend 64).toNat
    let fits := fun (n : Nat) => a % n = 0 ∧ s.ycOk y.val j a n = true ∧ r.data = .ok
    let gives := fun (v : Nat) => Host.Outcome.next (s.retiring y j (c.put (bits w 10 6) v).next)
    let m := fun (n : Nat) => (s.local_ y.val).readNat a n
    (s.AtInstr y r j c w (ycNum 0x10 0) → fits 8 → exec (.ycLd y r) s = gives (m 8)) ∧
    (s.AtInstr y r j c w (ycNum 0x11 0) → fits 4 → exec (.ycLw y r) s = gives (m 4)) ∧
    (s.AtInstr y r j c w (ycNum 0x12 0) → fits 4 → exec (.ycLws y r) s = gives ((BitVec.ofNat 32 (m 4)).signExtend 64).toNat) ∧
    (s.AtInstr y r j c w (ycNum 0x13 0) → fits 1 → exec (.ycLb y r) s = gives (m 1)) ∧
    (s.AtInstr y r j c w (ycNum 0x10 0) → a % 8 ≠ 0 → exec (.ycLd y r) s = .next (s.ycException y.val j c 2 a)) ∧
    (s.AtInstr y r j c w (ycNum 0x11 0) → a % 4 = 0 → s.ycOk y.val j a 4 = false → exec (.ycLw y r) s = .next (s.ycException y.val j c 3 a))

/-- SD, SW and SB at a naturally aligned address inside the job's extents retire: the 8, 4 or 1 low bytes of the register at word bits [10:6]
stand at that address of local memory, every other byte of it reads as before, no register of the context changes, PC moves by 4, and the
only other change is the instruction count. (spec/07_yard_core.md R165, spec/07_yard_core.md R168, spec/07_yard_core.md Table 7.3) -/
def Obligations.YardCoreStores : Prop :=
  ∀ (s : State) (y : Yard) (r : YcReads) (j : Nat) (c : YcCtx) (w : Nat),
    let a := (c.word64 (bits w 15 11) + (BitVec.ofNat 16 (bits w 31 16)).signExtend 64).toNat
    let fits := fun (n : Nat) => a % n = 0 ∧ s.ycOk y.val j a n = true
    let stores := fun (i : Instr) (n : Nat) => Answers (exec i s) fun t =>
      (t.local_ y.val).read a n = leBytes n (c.get (bits w 10 6)) ∧
      (∀ b, b < a ∨ a + n ≤ b → (t.local_ y.val).get b = (s.local_ y.val).get b) ∧
      t = (s.setLocal y.val ((s.local_ y.val).writeNat a n (c.get (bits w 10 6)))).retiring y j c.next
    (s.AtInstr y r j c w (ycNum 0x14 0) → fits 8 → stores (.ycSd y r) 8) ∧
    (s.AtInstr y r j c w (ycNum 0x15 0) → fits 4 → stores (.ycSw y r) 4) ∧
    (s.AtInstr y r j c w (ycNum 0x16 0) → fits 1 → stores (.ycSb y r) 1)

/-- BEQ, BNE, BLT, BGE, BLTU and BGEU compare the register at word bits [10:6] with the one at [15:11] and move PC by 4 × off16 where the
comparison holds, else by 4; JAL writes PC + 4 to g31 and moves PC by 4 × off26; JALR writes PC + 4 to gd and sets PC to gs1 + imm16 with
bits [1:0] cleared. PC stays 18 bits wide, the instruction is counted, nothing else differs. (spec/07_yard_core.md R167,
spec/07_yard_core.md Table 7.3) -/
def Obligations.YardCoreBranches : Prop :=
  ∀ (s : State) (y : Yard) (r : YcReads) (j : Nat) (c : YcCtx) (w : Nat),
    let a : W64 := c.word64 (bits w 10 6)
    let b : W64 := c.word64 (bits w 15 11)
    let goes := fun (x : YcCtx) (d : Int) => { x with pc := (((c.pc : Int) + 4 * d) % 2 ^ 18).toNat }
    let gives := fun (x : YcCtx) => Host.Outcome.next (s.retiring y j x)
    let off : Int := (BitVec.ofNat 16 (bits w 31 16)).toInt
    let branch := fun (p : Prop) [Decidable p] => gives (if p then goes c off else goes c 1)
    (s.AtInstr y r j c w (ycNum 0x18 0) → exec (.ycBeq y r) s = branch (a = b)) ∧
    (s.AtInstr y r j c w (ycNum 0x19 0) → exec (.ycBne y r) s = branch (a ≠ b)) ∧
    (s.AtInstr y r j c w (ycNum 0x1A 0) → exec (.ycBlt y r) s = branch (a.toInt < b.toInt)) ∧
    (s.AtInstr y r j c w (ycNum 0x1B 0) → exec (.ycBge y r) s = branch (b.toInt ≤ a.toInt)) ∧
    (s.AtInstr y r j c w (ycNum 0x1C 0) → exec (.ycBltu y r) s = branch (a.toNat < b.toNat)) ∧
    (s.AtInstr y r j c w (ycNum 0x1D 0) → exec (.ycBgeu y r) s = branch (b.toNat ≤ a.toNat)) ∧
    (s.AtInstr y r j c w (ycNum 0x1E 0) → exec (.ycJal y r) s =
      gives (goes (c.put 31 ((c.pc + 4) % 2 ^ 18)) (BitVec.ofNat 26 (bits w 31 6)).toInt)) ∧
    (s.AtInstr y r j c w (ycNum 0x1F 0) → exec (.ycJalr y r) s =
      gives { c.put (bits w 10 6) ((c.pc + 4) % 2 ^ 18) with
        pc := (b + (BitVec.ofNat 16 (bits w 31 16)).signExtend 64).toNat % 2 ^ 18 / 4 * 4 })

/-- CSRR puts the CSR's value in gd; CSRW stores gs1 in it; CSRSET and CSRCLR put the old value in gd and set or clear the bits of gs1. Stated
of CSRW for STATUS (two bits), TRAP_VEC and SCRATCH and of the other two for SCRATCH; for a read-only CSR and for a number the table does
not define the context keeps its CSRs, and an undefined number reads 0. The instruction is counted and nothing else differs.
(spec/07_yard_core.md R170, spec/07_yard_core.md Table 7.4) -/
def Obligations.YardCoreCsrs : Prop :=
  ∀ (s : State) (y : Yard) (r : YcReads) (j : Nat) (c : YcCtx) (w : Nat),
    let n := bits w 27 16
    let a := c.get (bits w 15 11)
    let old := csrRead s y.val j c n
    let gd := bits w 10 6
    let fixed := [0x008, 0x009, 0x00A, 0x00D, 0x012, 0x013].contains n = false
    let gives := fun (x : YcCtx) => Host.Outcome.next (s.retiring y j x.next)
    (s.AtInstr y r j c w (ycNum 0x20 0) → exec (.ycCsrr y r) s = gives (c.put gd old)) ∧
    (s.AtInstr y r j c w (ycNum 0x21 0) → n = 0x008 → exec (.ycCsrw y r) s = gives { c with status := a % 4 }) ∧
    (s.AtInstr y r j c w (ycNum 0x21 0) → n = 0x009 → exec (.ycCsrw y r) s = gives { c with trapVec := a }) ∧
    (s.AtInstr y r j c w (ycNum 0x21 0) → n = 0x00D → exec (.ycCsrw y r) s = gives { c with scratch := a }) ∧
    (s.AtInstr y r j c w (ycNum 0x22 0) → n = 0x00D → c.scratch < 2 ^ 64 →
      exec (.ycCsrset y r) s = gives ({ c with scratch := (toW c.scratch ||| toW a).toNat }.put gd c.scratch)) ∧
    (s.AtInstr y r j c w (ycNum 0x23 0) → n = 0x00D → c.scratch < 2 ^ 64 →
      exec (.ycCsrclr y r) s = gives ({ c with scratch := (toW c.scratch &&& ~~~(toW a)).toNat }.put gd c.scratch)) ∧
    (s.AtInstr y r j c w (ycNum 0x21 0) → fixed → exec (.ycCsrw y r) s = gives c) ∧
    (s.AtInstr y r j c w (ycNum 0x22 0) → fixed → exec (.ycCsrset y r) s = gives (c.put gd old)) ∧
    (s.AtInstr y r j c w (ycNum 0x23 0) → fixed → exec (.ycCsrclr y r) s = gives (c.put gd old)) ∧
    ((0x004 ≤ n ∧ n ≤ 0x007) ∨ n = 0x00E ∨ n = 0x00F ∨ 0x014 ≤ n → old = 0)

/-- RECV of channel gs1[7:0] on network gs1[8] removes the oldest matching entry, puts its payload in gd and its header in IN_HDR with VALID;
with none it waits, or with bit 21 retires with VALID 0. WAIT gives 1 where the queue holds an entry, 0 where GLB_TIME has reached gs1,
else waits. A halyard SEND of a CTRL token with an opcode a Yard core may send puts the token at the end of the switch's port-4 halyard
queue where that holds fewer than 16, else waits. HALT frees the core and leaves the context HALTED. (spec/07_yard_core.md R164,
spec/07_yard_core.md R174, spec/07_yard_core.md R175, spec/07_yard_core.md Table 7.3) -/
def Obligations.YardCoreMessages : Prop :=
  ∀ (s : State) (y : Yard) (r : YcReads) (j : Nat) (c : YcCtx) (w : Nat),
    let v := c.get (bits w 15 11)
    let q := s.inboundOf y.val j
    let gd := bits w 10 6
    let mine := fun (e : InTok) => e.net = v / 2 ^ 8 % 2 ∧ e.tok.chan = v % 2 ^ 8
    (s.AtInstr y r j c w (ycNum 0x29 0) → ∀ pre e post, q = pre ++ e :: post → (∀ x ∈ pre, ¬mine x) → mine e →
      exec (.ycRecv y r) s = .next ((s.setInbound y.val j (pre ++ post)).retiring y j
        { (c.put gd (recvPayload e.tok)).next with inValid := true, inHdr := e.tok.hdr.toNat })) ∧
    (s.AtInstr y r j c w (ycNum 0x29 0) → (∀ x ∈ q, ¬mine x) → w / 2 ^ 21 % 2 = 0 → exec (.ycRecv y r) s = .next (s.blockedAt y j c w)) ∧
    (s.AtInstr y r j c w (ycNum 0x29 0) → (∀ x ∈ q, ¬mine x) → w / 2 ^ 21 % 2 = 1 →
      exec (.ycRecv y r) s = .next (s.retiring y j { c.next with inValid := false })) ∧
    (s.AtInstr y r j c w (ycNum 0x2B 0) → q ≠ [] → exec (.ycWait y r) s = .next (s.retiring y j (c.put gd 1).next)) ∧
    (s.AtInstr y r j c w (ycNum 0x2B 0) → q = [] → v ≤ s.now → exec (.ycWait y r) s = .next (s.retiring y j (c.put gd 0).next)) ∧
    (s.AtInstr y r j c w (ycNum 0x2B 0) → q = [] → s.now < v → exec (.ycWait y r) s = .next (s.blockedAt y j c w)) ∧
    (s.AtInstr y r j c w (ycNum 0x28 0) → w / 2 ^ 21 % 4 = 1 → v / 2 ^ 28 % 4 = 1 →
      let t : Token := { hdr := mkHdr j (v / 2 ^ 4 % 2 ^ 16) (v / 2 ^ 20 % 2 ^ 8) 1 (bit v 30), payload := c.get (bits w 20 16) % 2 ^ 56 }
      sendOpcode t.opcode = true →
        ((s.inQueue y.val 4 9).length < 16 →
          exec (.ycSend y r) s = .next (((s.setInQueue y.val 4 9 (s.inQueue y.val 4 9 ++ [t])).progressY y.val).retiring y j c.next)) ∧
        (16 ≤ (s.inQueue y.val 4 9).length → exec (.ycSend y r) s = .next (s.blockedAt y j c w))) ∧
    (s.AtInstr y r j c w (ycNum 0x38 0) → Answers (exec (.ycHalt y r) s) fun t =>
      (t.core y.val).cur = none ∧ ∃ x, t.ctx y.val j = some x ∧ x.st = .halted ∧ x.pc = (c.pc + 4) % 2 ^ 18)

/-- GETSUM of a whole burst of four DATA tokens at the head of the queue loads four registers from gd; ISSUE hands the 80-byte record at gs1
to the tracker of the core's partition; REEFSEND of a record for its own Yard queues one streamed record; XFER of 16 to 65,536 bytes in
reach, with fewer than four in flight, adds one in the direction of its form and asks HBM for its lines; FENCE retires where none is in
flight; TAKE and COMMIT of an allowed counter queue a request to the counter block and the context waits; TRET outside a held trap returns
to TRAP_PC and clears IN_TRAP. (spec/07_yard_core.md R171, spec/07_yard_core.md R174, spec/07_yard_core.md R176, spec/07_yard_core.md
R177, spec/07_yard_core.md R179, spec/07_yard_core.md R182, spec/07_yard_core.md R183, spec/07_yard_core.md Table 7.3) -/
def Obligations.YardCoreReach : Prop :=
  ∀ (s : State) (y : Yard) (r : YcReads) (j : Nat) (c : YcCtx) (w : Nat),
    let v1 := c.get (bits w 15 11)
    let v2 := c.get (bits w 20 16)
    let gd := bits w 10 6
    let part := (s.partOfYard y.val).getD 0
    (s.AtInstr y r j c w (ycNum 0x2A 0) → ∀ t0 t1 t2 t3 : Token, s.inboundOf y.val j = [t0, t1, t2, t3].map (fun t => { net := 0, tok := t, notice := false }) →
      (∀ t ∈ [t0, t1, t2, t3], t.chan = v1 % 256 ∧ t.tag = t0.tag ∧ t.kind = 0) → t0.last = false → t1.last = false → t2.last = false → t3.last = true →
      Answers (exec (.ycGetsum y r) s) fun t => t.inboundOf y.val j = [] ∧ ∃ x, t.ctx y.val j = some x ∧
        (gd ≠ 0 → x.get gd = t0.payload % 2 ^ 64) ∧ x.get (gd + 1) = t1.payload % 2 ^ 64 ∧ x.get (gd + 2) = t2.payload % 2 ^ 64 ∧
        x.get (gd + 3) = t3.payload % 2 ^ 64 ∧ x.inValid = true ∧ x.inHdr = t3.hdr.toNat ∧ x.pc = (c.pc + 4) % 2 ^ 18) ∧
    (s.AtInstr y r j c w (ycNum 0x2D 0) → s.ycOk y.val j v1 80 = true → r.data = .ok → exec (.ycIssue y r) s =
      .next ((s.handRecord part (parseStart j (.core y.val) ((s.local_ y.val).read v1 80))).retiring y j c.next)) ∧
    (s.AtInstr y r j c w (ycNum 0x2C 0) → s.ycOk y.val j v1 16 = true → s.ycOk y.val j v1 (16 + (s.local_ y.val).readNat (v1 + 12) 2) = true →
      r.data = .ok → fieldOf ((s.local_ y.val).read v1 (16 + (s.local_ y.val).readNat (v1 + 12) 2)) 0 1 = y.val →
      fieldOf ((s.local_ y.val).read v1 (16 + (s.local_ y.val).readNat (v1 + 12) 2)) 1 1 ≤ 37 → (s.core y.val).streamer.length < 4 →
      Answers (exec (.ycReefsend y r) s) fun t => (t.core y.val).streamer.length = (s.core y.val).streamer.length + 1 ∧
        (∀ x ∈ (s.core y.val).streamer, x ∈ (t.core y.val).streamer) ∧ (∃ x, t.ctx y.val j = some x ∧ x.pc = (c.pc + 4) % 2 ^ 18) ∧
        t.local_ y.val = s.local_ y.val) ∧
    (16 ≤ c.get gd → c.get gd ≤ 65536 → c.get gd % 16 = 0 → s.reach part v2 (c.get gd) = true →
      s.ycOk y.val j v1 (c.get gd) = true → c.xfers.length < 4 →
      let begun := fun (out : Bool) =>
        let (x, t) := s.startXfer y.val j { loc := v1, hbm := v2, left := c.get gd, toHbm := out }
        t.retiring y j { c.next with xfers := c.xfers ++ [x] }
      (s.AtInstr y r j c w (ycNum 0x2E 0) → exec (.ycXferToLocal y r) s = .next (begun false)) ∧
      (s.AtInstr y r j c w (ycNum 0x2E 1) → exec (.ycXferToHbm y r) s = .next (begun true))) ∧
    (∀ x : Xfer, let z := s.startXfer y.val j x
      z.1.loc = x.loc ∧ z.1.hbm = x.hbm ∧ z.1.left = x.left ∧ z.1.toHbm = x.toHbm ∧ z.2.regs = s.regs ∧ z.2.hbm = s.hbm ∧ z.2.cores = s.cores ∧
        Tab.find? z.2.askers (askKey (.xfer z.1.id)) = some (z.1.id, (joinLines (cutLines x.hbm x.left)).length)) ∧
    (s.AtInstr y r j c w (ycNum 0x2F 0) → c.xfers = [] → exec (.ycFence y r) s = .next (s.retiring y j c.next)) ∧
    (s.AtInstr y r j c w (ycNum 0x30 0) → s.wcAllowed y.val j (v1 % 1024) = true → Answers (exec (.ycTake y r) s) fun t =>
      t.wcQ = s.wcQ ++ [{ y := y.val, job := j, commit := false, counter := v1 % 1024, handle := v1 % 2 ^ 28, gd := gd, pc := c.pc }] ∧
      ∃ x, t.ctx y.val j = some x ∧ x.st = .blocked ∧ x.asked = true) ∧
    (s.AtInstr y r j c w (ycNum 0x31 0) → s.wcAllowed y.val j (v2 % 1024) = true → Answers (exec (.ycCommit y r) s) fun t =>
      t.wcQ = s.wcQ ++ [{ y := y.val, job := j, commit := true, counter := v2 % 1024, handle := v1 % 2 ^ 28, gd := gd, pc := c.pc }] ∧
      ∃ x, t.ctx y.val j = some x ∧ x.st = .blocked ∧ x.asked = true) ∧
    (s.AtInstr y r j c w (ycNum 0x39 0) → c.held10 = none → exec (.ycTret y r) s =
      .next (s.retiring y j { c with pc := c.trapPc % 2 ^ 18, status := setBit c.status 0 false }))

/-- Port 4 takes an undamaged scalar or halyard token its switch offers into the inbound queue of its job while fewer than 120 fabric entries
stand there; a streamed record sends its next token to its unit where the switch offers it none; an XFER whose lines HBM has answered
copies its bytes in its direction and frees its slot, or faults with cause 8 where the local memory it reads has a double-bit error; a
TAKE of an unleased counter with work left returns NEXT and moves it by CHUNK or what is left; a held lease older than its TIMEOUT_US
becomes REISSUE, no other entry changes; a write of WC_DATA selecting LIMIT/NEXT of a counter of the writer's partition stores the word
and frees its leases; a context blocked in WAIT with an entry queued wakes with gd = 1. (spec/07_yard_core.md R173, spec/07_yard_core.md
R176, spec/07_yard_core.md R179, spec/07_yard_core.md R182, spec/07_yard_core.md R184, spec/07_yard_core.md R185, spec/07_yard_core.md
R164) -/
def Obligations.YardCoreBlock : Prop :=
  ∀ (s : State) (y : Yard), s.live = true →
    (∀ (lane : Lane) (t : Token), s.offer y.val 4 (laneCode lane) = some t → laneNet (laneCode lane) ≠ 0 → destError (laneNet (laneCode lane)) t = none →
      ((s.inboundOf y.val t.job).filter fun e => !e.notice).length < 120 → (s.inboundOf y.val t.job).length < 128 →
      exec (.ycInboundToken y lane 0) s =
        .next (((s.takeOffer y.val 4 (laneCode lane)).enqueueIn y.val t.job { net := laneNet (laneCode lane) - 1, tok := t, notice := false }).progressY y.val)) ∧
    (∀ (q : StreamRec) (rest : List StreamRec) (t : Token) (ts : List Token), (s.core y.val).streamer = q :: rest → q.toks = t :: ts →
      s.offer y.val (8 + q.unit) 9 = none → Answers (exec (.reefStreamerSend y) s) fun u =>
        u.offer y.val (8 + q.unit) 9 = some t ∧
        (u.core y.val).streamer = if ts = [] then rest else { q with toks := ts } :: rest) ∧
    (∀ (j : JobId) (i : Fin 4) (c : YcCtx) (x : Xfer), s.ctx y.val j.val = some c → c.inFrame = false →
      c.xfers[i.val]? = some x → s.served (askKey (.xfer x.id)) = true →
      let free := { c with xfers := dropAt c.xfers i.val }
      (x.toHbm = true → exec (.xferComplete y j (i, .ok)) s = .next
        (({ s with hbm := s.hbm.write x.hbm ((s.local_ y.val).read x.loc x.left) } : State).dropAsk (askKey (.xfer x.id)) |>.setCtx y.val j.val free)) ∧
      (∀ e, x.toHbm = false → exec (.xferComplete y j (i, e)) s = .next
        ((s.setLocal y.val ((s.local_ y.val).write x.loc (s.hbm.read x.hbm x.left))).dropAsk (askKey (.xfer x.id)) |>.setCtx y.val j.val free)) ∧
      (x.toHbm = true → c.st ≠ .faulted → exec (.xferComplete y j (i, .bad)) s = .next (s.ycFault y.val j.val c 8 x.loc))) ∧
    (∀ (q : WcReq) (rest : List WcReq) (c : YcCtx), s.wcQ = q :: rest → q.commit = false → s.ctx q.y q.job = some c → c.asked = true →
      bit (s.wcWord q.counter 1) 62 = false → bits (s.wcWord q.counter 0) 31 0 < bits (s.wcWord q.counter 0) 63 32 →
      exec .workCounterServe s = .next ((({ s with wcQ := rest } : State).advanceWc q.counter).retire q.y q.job
        { (c.put q.gd (bits (s.wcWord q.counter 0) 31 0)).next with asked := false })) ∧
    (∀ (dt : Nat), Answers (exec (.leaseTimeout dt) s) fun u =>
      u.leases.length = s.leases.length ∧
      ∀ (k : Nat) (e : Nat × Lease), (s.leases : List (Nat × Lease))[k]? = some e → (u.leases : List (Nat × Lease))[k]? = some (
        let late := bits ((s.tick dt).wcWord e.2.counter 1) 31 0
        if e.2.st = .held ∧ late ≠ 0 ∧ e.2.t + late * 1000 < (s.tick dt).now then (e.1, { e.2 with st := .reissue }) else e)) ∧
    (∀ (acc : Acc) (w : W64), s.Open acc (pgCore y.val + 0x208) → acc.size = 8 → s.wcQ = [] → s.fld (pgCore y.val + 0x200) 17 16 = 0 →
      s.partOfYard y.val = some (bits (s.wcWord (s.fld (pgCore y.val + 0x200) 9 0) 1) 61 59) →
      exec (.wcDataWrite acc y w) s = .next ((s.setWcWord (s.fld (pgCore y.val + 0x200) 9 0) 0
        (mergeBits (s.wcWord (s.fld (pgCore y.val + 0x200) 9 0) 0) w.toNat (2 ^ 64 - 1))).freeLeases (s.fld (pgCore y.val + 0x200) 9 0))) ∧
    (∀ (r : YcReads) (j : Nat) (c : YcCtx), (s.core y.val).cur = some j → s.ctx y.val j = some c → c.st = .blocked → c.asked = false → bits c.word 5 0 = 0x2B →
      s.inboundOf y.val j ≠ [] → c.due10 = none → Answers (exec (.ycWake 0 y r) s) fun u =>
        ∃ x, u.ctx y.val j = some x ∧ x.st = .running ∧ (bits c.word 10 6 ≠ 0 → x.get (bits c.word 10 6) = 1) ∧ x.pc = (c.pc + 4) % 2 ^ 18)

/-- STOP of a READY context leaves it STOPPED at its PC, of a RUNNING or BLOCKED one saves it and frees the core; START of a STOPPED or HALTED
one leaves it READY. With the save area usable and the core free, SCHED_DECIDE, and SCHED_QUANTUM once the quantum is over, put the best
runnable context on the core, RUNNING; a context of a job with higher PRIO takes the core from the one on it, which is saved and
PREEMPTED; with a context on the core that no other outranks nothing changes. (spec/07_yard_core.md R189,
spec/15_partitions_jobs_preemption.md R361, spec/07_yard_core.md R186, spec/07_yard_core.md R188) -/
def Obligations.YardCoreScheduler : Prop :=
  ∀ (s : State) (y : Yard),
    (∀ (acc : Acc) (w : W64) (e : Ecc) (c : YcCtx) (j : Nat), s.Open acc (pgCore y.val + 0x108) → acts w.toNat 0 = true → acts w.toNat 1 = false →
      j = (s.storeReg (pgCore y.val + 0x108) w.toNat (accMask acc)).fld (pgCore y.val + 0x108) 7 4 → s.ctx y.val j = some c → c.st = .ready →
      exec (.stop acc y (w, e)) s = .next ((s.storeReg (pgCore y.val + 0x108) w.toNat (accMask acc)).setCtx y.val j { c with st := .stopped, shownPc := c.pc })) ∧
    (∀ (acc : Acc) (w : W64) (c : YcCtx) (j : Nat), s.Open acc (pgCore y.val + 0x108) → acts w.toNat 0 = false → acts w.toNat 1 = true →
      j = (s.storeReg (pgCore y.val + 0x108) w.toNat (accMask acc)).fld (pgCore y.val + 0x108) 7 4 → s.ctx y.val j = some c → (c.st = .stopped ∨ c.st = .halted) →
      exec (.start acc y w) s = .next ((s.storeReg (pgCore y.val + 0x108) w.toNat (accMask acc)).setCtx y.val j { c with st := .ready })) ∧
    (∀ (e : Ecc) (p b : Nat) (c : YcCtx), s.live = true → s.partOfYard y.val = some p → s.saveOk p = true → s.bestCtx p y.val = some b → (s.core y.val).cur = none →
      s.ctx y.val b = some c → c.inFrame = false → c.due10 = none → Answers (exec (.schedDecide (y, e)) s) fun t =>
        (t.core y.val).cur = some b ∧ t.ctx y.val b = some { c with st := .running } ∧ (t.core y.val).lastPlaced = b ∧ t.regs = s.regs ∧ t.hbm = s.hbm) ∧
    (∀ (e : Ecc) (dt p b : Nat) (c : YcCtx), (s.tick dt).live = true → (s.tick dt).partOfYard y.val = some p → (s.tick dt).saveOk p = true →
      (s.tick dt).bestCtx p y.val = some b → (s.core y.val).cur = none → (s.tick dt).quantumOver p y.val = true →
      s.ctx y.val b = some c → c.inFrame = false → c.due10 = none → Answers (exec (.schedQuantum dt (y, e)) s) fun t =>
        (t.core y.val).cur = some b ∧ t.ctx y.val b = some { c with st := .running } ∧ t.regs = (s.tick dt).regs ∧ t.hbm = s.hbm) ∧
    (∀ (e : Ecc) (p b j : Nat), s.live = true → s.partOfYard y.val = some p → s.saveOk p = true → s.bestCtx p y.val = some b → (s.core y.val).cur = some j →
      (s.prio p b < s.prio p j → exec (.schedDecide (y, e)) s = .next s) ∧
      (∀ c d, s.prio p j < s.prio p b → s.flag (jobCfg p j) 62 = false → s.wcQ = [] → s.ctx y.val j = some d → s.ctx y.val b = some c → c.inFrame = false →
        c.due10 = none → (d.dataLen = 0 ∨ e = .ok) → Answers (exec (.schedDecide (y, e)) s) fun t =>
          (t.core y.val).cur = some b ∧ t.ctx y.val b = some { c with st := .running } ∧
          ∃ x, t.ctx y.val j = some x ∧ x.st = .preempted ∧ x.pc = d.pc ∧ x.inFrame = true)) ∧
    (∀ (acc : Acc) (w : W64) (e : Ecc) (c : YcCtx) (p j : Nat), s.Open acc (pgCore y.val + 0x108) → acts w.toNat 0 = true → acts w.toNat 1 = false →
      j = (s.storeReg (pgCore y.val + 0x108) w.toNat (accMask acc)).fld (pgCore y.val + 0x108) 7 4 → s.ctx y.val j = some c →
      (c.st = .running ∨ c.st = .blocked) → s.partOfYard y.val = some p → s.saveOk p = true → s.wcQ = [] → (s.core y.val).cur = some j →
      (c.dataLen = 0 ∨ e = .ok) → Answers (exec (.stop acc y (w, e)) s) fun t =>
        (t.core y.val).cur = none ∧ ∃ x, t.ctx y.val j = some x ∧ x.st = .stopped ∧ x.shownPc = c.pc ∧ x.inFrame = true)

/-- For a job of the partition: RESYNC in HELD leads to IDLE and touches only the two status registers of the job, in another state it changes
nothing; a write to PT_STEP_PLAN or PT_STEP_CFG is ignored while a step runs, and stored in IDLE or HELD, where clearing EN leads to IDLE.
With no gate result within twice its deadline the step closes as skipped: HELD, SKIPPED, STEP one more, SKIP_CAUSE 3 or, where STEP_NF
counted, 1; before that only the clock moves. (spec/08_fused_training_step.md R203, spec/08_fused_training_step.md R204,
spec/08_fused_training_step.md R211, spec/08_fused_training_step.md Table 8.2, spec/08_fused_training_step.md Table 8.7,
spec/08_fused_training_step.md Table 8.9) -/
def Obligations.StepPlanRegisters : Prop :=
  (∀ (s : State) (acc : Acc) (p : Part) (j : JobId) (w : W64), s.Open acc (stepReg p.val j.val 0x28) → j.val ∈ s.jobsOf p.val →
    (acts w.toNat 0 = true → s.seqState p.val j.val = 7 → Answers (exec (.resync acc p j w) s) fun t =>
      t.seqState p.val j.val = 0 ∧ t.stepHeld = s.stepHeld ∧ OnlyRegsOf s t fun a => a = stepReg p.val j.val 0x10 ∨ a = phReg p.val j.val 0x10) ∧
    ((acts w.toNat 0 = false ∨ s.seqState p.val j.val ≠ 7) → exec (.resync acc p j w) s = .next s)) ∧
  (∀ (s : State) (acc : Acc) (p : Part) (j : JobId) (cfg : Bool) (w : W64), let a := stepReg p.val j.val (if cfg then 8 else 0)
    s.Open acc a → j.val ∈ s.jobsOf p.val →
    (1 ≤ s.seqState p.val j.val → s.seqState p.val j.val ≤ 6 → exec (.stepPlanWrite acc p j cfg w) s = .next s) ∧
    (s.seqState p.val j.val = 0 ∨ s.seqState p.val j.val = 7 → Answers (exec (.stepPlanWrite acc p j cfg w) s) fun t =>
      t.reg a = (s.storeReg a w.toNat (accMask acc)).reg a ∧ (cfg = false → t.planOn p.val j.val = false → t.seqState p.val j.val = 0) ∧
      (cfg = true → t.seqState p.val j.val = s.seqState p.val j.val) ∧ t.hbm = s.hbm)) ∧
  (∀ (s : State) (dt : Nat) (p : Part) (j : JobId), let u := s.tick dt; u.live = true →
    let g := s.fld (stepReg p.val j.val 8) 47 40
    let due := Tab.get 0 s.pipeEnd j.val + 2 * (s.fld (stepReg p.val j.val 8) 63 48 * 1000) < u.now
    ((s.seqState p.val j.val ≠ 2 ∨ g = 0xFF ∨ ¬due) → exec (.gateNoResult dt p j) s = .next u) ∧
    (s.seqState p.val j.val = 2 → g ≠ 0xFF → due → Answers (exec (.gateNoResult dt p j) s) fun t =>
      t.seqState p.val j.val = 7 ∧ t.flag (stepReg p.val j.val 0x10) 60 = true ∧
      t.fld (stepReg p.val j.val 0x10) 31 0 = (s.fld (stepReg p.val j.val 0x10) 31 0 + 1) % 2 ^ 32 ∧
      t.fld (stepReg p.val j.val 0x10) 55 54 = (if s.count (stepReg p.val j.val 0x18) = 0 then 3 else 1) ∧ t.hbm = s.hbm))

/-- In DRAINING, a section of another phase in flight keeps the state; without one, a job that alternates alone settles on TARGET, its held
records go on to R96, and one with a group whose children have not sent PHASE begins to exchange with the next epoch. An exchange past its
deadline is STUCK; before that only the clock moves. In STUCK, RETRY exchanges again from now, and FORCE settles on TARGET; in another
state both change nothing. PT_PHASE_CFG is stored only while SETTLED with nothing held. CUR is stored only while the sequencer is IDLE or
HELD and no section of the job or a follower is in flight. (spec/09_rollout_and_phase_alternation.md R221,
spec/09_rollout_and_phase_alternation.md R223, spec/09_rollout_and_phase_alternation.md R225, spec/09_rollout_and_phase_alternation.md
R227, spec/13_stay_links.md R324, spec/09_rollout_and_phase_alternation.md Table 9.7) -/
def Obligations.PhaseAlternation : Prop :=
  (∀ (s : State) (p : Part) (j : JobId), s.live = true →
    let other := (s.sectionsOf j.val).any fun c => c.phase != 0 && c.phase != s.phTarget p.val j.val
    (s.phState p.val j.val ≠ 1 ∨ other = true → exec (.phaseDrained p j) s = .next s) ∧
    (s.phState p.val j.val = 1 → other = false → s.phaseGroup p.val j.val = 0xFF → s.heldFrames = [] → Tab.get [] s.waiting p.val = [] →
      (Tab.get [] s.phaseHeld j.val = [] → Answers (exec (.phaseDrained p j) s) fun t =>
        t.phState p.val j.val = 0 ∧ t.phaseOf p.val j.val = s.phTarget p.val j.val ∧ t.hbm = s.hbm ∧ t.sections = s.sections) ∧
      (∀ r, Tab.get [] s.phaseHeld j.val = [r] → r.job = j.val → s.roleOf p.val j.val r.rig r.section_ = 0 →
        s.phaseOfRig p.val j.val r.rig = s.phTarget p.val j.val → s.r96Holds p.val j.val = true → Answers (exec (.phaseDrained p j) s) fun t =>
          t.phState p.val j.val = 0 ∧ Tab.get [] t.phaseHeld j.val = [] ∧ Tab.get [] t.waiting p.val = [r] ∧ t.hbm = s.hbm)) ∧
    (s.phState p.val j.val = 1 → other = false → s.phaseGroup p.val j.val ≠ 0xFF → Tab.get [] s.phaseHeard j.val = [] →
      s.children (s.phaseGroup p.val j.val) ≠ [] → Answers (exec (.phaseDrained p j) s) fun t =>
      t.phState p.val j.val = 2 ∧ t.epoch j.val = (s.epoch j.val + 1) % 65536 ∧ t.hbm = s.hbm)) ∧
  (∀ (s : State) (dt : Nat) (p : Part) (j : JobId), let u := s.tick dt; u.live = true →
    let due := Tab.get 0 s.phaseT0 j.val + s.fld (phReg p.val j.val 8) 31 16 * 1000 < u.now
    ((s.phState p.val j.val ≠ 2 ∨ ¬due) → exec (.phaseSwitchDeadline dt p j) s = .next u) ∧
    (s.phState p.val j.val = 2 → due → Answers (exec (.phaseSwitchDeadline dt p j) s) fun t =>
      t.phState p.val j.val = 3 ∧ t.phTarget p.val j.val = s.phTarget p.val j.val ∧ t.hbm = s.hbm)) ∧
  (∀ (s : State) (acc : Acc) (p : Part) (j : JobId) (w : W64), s.Open acc (phReg p.val j.val 0x18) → j.val ∈ s.jobsOf p.val →
    (s.phState p.val j.val ≠ 3 → exec (.retry acc p j w) s = .next s ∧ exec (.force acc p j w) s = .next s) ∧
    (s.phState p.val j.val = 3 → acts w.toNat 0 = true → Tab.get [] s.phaseHeard j.val = [] → s.children (s.phaseGroup p.val j.val) ≠ [] →
      Answers (exec (.retry acc p j w) s) fun t => t.phState p.val j.val = 2 ∧ Tab.get 0 t.phaseT0 j.val = s.now ∧ t.epochs = s.epochs) ∧
    (s.phState p.val j.val = 3 → acts w.toNat 0 = false → acts w.toNat 1 = true → s.heldFrames = [] →
      Tab.get [] s.waiting p.val = [] → Tab.get [] s.phaseHeld j.val = [] → Answers (exec (.force acc p j w) s) fun t =>
      t.phState p.val j.val = 0 ∧ t.phaseOf p.val j.val = s.phTarget p.val j.val ∧ t.hbm = s.hbm)) ∧
  (∀ (s : State) (acc : Acc) (p : Part) (j : JobId) (w : W64), s.Open acc (phReg p.val j.val 8) → j.val ∈ s.jobsOf p.val →
    let t := s.storeReg (phReg p.val j.val 8) w.toNat (accMask acc)
    ((s.phState p.val j.val ≠ 0 ∨ s.fld (phReg p.val j.val 0x10) 56 54 ≠ 0) → exec (.phaseCfgWrite acc p j w) s = .next s) ∧
    (s.phState p.val j.val = 0 → s.fld (phReg p.val j.val 0x10) 56 54 = 0 → (t.phaseOn p.val j.val = false ∨ s.phaseOn p.val j.val = true) →
      exec (.phaseCfgWrite acc p j w) s = .next t)) ∧
  (∀ (s : State) (acc : Acc) (p : Part) (j : JobId) (w : W64), s.Open acc (phReg p.val j.val 0) → acc.size = 8 → j.val ∈ s.jobsOf p.val →
    let quiet := (s.seqState p.val j.val = 0 ∨ s.seqState p.val j.val = 7) ∧ s.jobIdle j.val = true ∧ ∀ k ∈ s.followers p.val j.val, s.jobIdle k = true
    (quiet → Answers (exec (.wverWrite acc p j w) s) fun t => t.curVer p.val j.val = w.toNat % 2 ^ 32 ∧ t.hbm = s.hbm) ∧
    (¬quiet → Answers (exec (.wverWrite acc p j w) s) fun t => t.curVer p.val j.val = s.curVer p.val j.val ∧
      t.flag (phReg p.val j.val 0) 63 = bit w.toNat 63 ∧ t.hbm = s.hbm))

/-- A write to an entry that is in use by a job with a step or a section under way changes nothing; else it is stored. PT_LSCALE is stored
only between steps, GOOD then 0. SPIKE_RESET clears MEAN, VAR and SAMPLES of its job and nothing else. ROLL between steps counts one more
good step and leaves every enabled entry of the job with its collected words at 0; during a step it changes nothing. (spec/10_numerics.md
R238, spec/10_numerics.md R243, spec/10_numerics.md R248, spec/10_numerics.md R253, spec/10_numerics.md R256, spec/10_numerics.md Table
10.13) -/
def Obligations.NumericsRegisters : Prop :=
  (∀ (s : State) (acc : Acc) (e : Fin 16384) (k : Fin 8) (w : W64), let a := lntAddr e.val + 8 * k.val; s.Open acc a →
    (∀ p, s.lntEn e.val = true → s.partOfJob (s.lntJob e.val) = some p → (s.seqQuiet p (s.lntJob e.val) = false ∨ s.jobIdle (s.lntJob e.val) = false) →
      exec (.lntWrite acc e k w) s = .next s) ∧
    ((s.lntEn e.val = false ∨ s.partOfJob (s.lntJob e.val) = none) → (k.val ≠ 1 ∨ bit w.toNat 63 = false) →
      exec (.lntWrite acc e k w) s = .next (s.storeReg a w.toNat (accMask acc)))) ∧
  (∀ (s : State) (acc : Acc) (p : Part) (j : JobId) (w : W64), let a := numReg p.val j.val 0; s.Open acc a → acc.size = 8 → j.val ∈ s.jobsOf p.val →
    (s.seqQuiet p.val j.val = false → exec (.lscaleWrite acc p j w) s = .next s) ∧
    (s.seqQuiet p.val j.val = true → Answers (exec (.lscaleWrite acc p j w) s) fun t => t.fld a 7 0 = w.toNat % 256 ∧ t.fld a 47 32 = 0 ∧ t.hbm = s.hbm)) ∧
  (∀ (s : State) (acc : Acc) (p : Part) (j : JobId) (w : W64), s.Open acc (numReg p.val j.val 0x28) → j.val ∈ s.jobsOf p.val →
    (acts w.toNat 1 = true → acts w.toNat 0 = false → Answers (exec (.spikeReset acc p j w) s) fun t =>
      t.reg (numReg p.val j.val 0x18) = 0 ∧ t.fld (numReg p.val j.val 0x20) 63 48 = 0 ∧
        OnlyRegsOf s t fun r => r = numReg p.val j.val 0x18 ∨ r = numReg p.val j.val 0x20) ∧
    (acts w.toNat 0 = true → acts w.toNat 1 = false → s.seqQuiet p.val j.val = false → exec (.numRoll acc p j w) s = .next s) ∧
    (acts w.toNat 0 = true → acts w.toNat 1 = false → s.seqQuiet p.val j.val = true → Answers (exec (.numRoll acc p j w) s) fun t =>
      t.fld (numReg p.val j.val 0) 47 32 = min 0xFFFF (s.fld (numReg p.val j.val 0) 47 32 + 1) ∧ t.hbm = s.hbm ∧
      ∀ e, e < 16384 → s.lntEn e = true → s.lntJob e = j.val → t.reg (lntAddr e + 24) = 0 ∧ t.reg (lntAddr e + 32) = 0 ∧ t.reg (lntAddr e + 40) = 0))

/-- Training that ends with all eight lanes leads from TRAIN to IDENT at full width; with no whole half, to DOWN with cause 2; in another
state nothing but the clock moves. A DOWN port trains again where ENABLE is 1, its die is there, the stage is 5 to 7 and 10 ms have
passed. A port in IDENT whose identity was last sent 1 ms ago sends it again and notes when. In direct mode, with its own identity sent
and nothing waiting to be sent, the partner's identity brings the port UP and names the peer; while UP it renames the peer; a mismatch
takes the port DOWN with cause 3 in both states. The first bad lane of a full-width port in IDENT or UP leaves it there on the other half;
both ends choosing different halves, or a bad lane of the half in use, take it DOWN with cause 8; PORT_LOSS takes it DOWN with its cause.
A port below IDENT ignores identities and lanes. (spec/13_stay_links.md R304, spec/13_stay_links.md R305, spec/13_stay_links.md R307,
spec/13_stay_links.md R308, spec/20_connectors_and_mechanics.md R460, spec/13_stay_links.md Table 13.2, spec/13_stay_links.md Table 13.8) -/
def Obligations.PortLifecycle : Prop :=
  let down := fun (t : State) (q cause : Nat) => t.portState q = 0 ∧ t.fld (pgPort q + 0x108) 58 55 = cause
  (∀ (s : State) (dt : Nat) (p : PortId) (lanes : BitVec 8), let u := s.tick dt; let q := p.val
    (s.portState q ≠ 1 → exec (.portTrainDone dt p lanes) s = .next u) ∧
    (s.portState q = 1 → lanes = 0xFF → s.cagesOff.contains q = false → s.flag (pgGlobal + 0x930) 15 = false →
      Answers (exec (.portTrainDone dt p lanes) s) fun t => t.portState q = 2 ∧ t.fld (pgPort q + 0x108) 60 59 = 3 ∧ t.fld (pgPort q + 0x108) 7 0 = 0xFF) ∧
    (s.portState q = 1 → lanes.toNat % 16 ≠ 0xF → lanes.toNat / 16 ≠ 0xF → s.port q = {} → Answers (exec (.portTrainDone dt p lanes) s) fun t => down t q 2)) ∧
  (∀ (s : State) (dt : Nat) (p : PortId), let u := s.tick dt; let q := p.val
    let may := s.portState q = 0 ∧ s.flag (pgPort q + 0x100) 0 = true ∧ bit s.stayAbsent (q / 4) = false ∧ s.oscOut.contains 1 = false ∧
      5 ≤ s.stage ∧ s.stage ≤ 7 ∧
      (s.port q).downAt + 10000000 ≤ u.now
    (may → Answers (exec (.portRetryTimer dt p) s) fun t => t.portState q = 1 ∧ OnlyRegsOf u t fun a => a = pgPort q + 0x108) ∧
    (¬may → exec (.portRetryTimer dt p) s = .next u)) ∧
  (∀ (s : State) (dt : Nat) (p : PortId), let u := s.tick dt; let q := p.val
    (s.portState q ≠ 2 → exec (.identRetry dt p) s = .next u) ∧
    (s.portState q = 2 → s.ethernet q = false → s.flag (pgGlobal + 0x930) 15 = true → (s.port q).partner = none → (s.port q).identSent ≤ u.now + 1 - 1000000 →
      Answers (exec (.identRetry dt p) s) fun t => t.portState q = 2 ∧ (t.port q).identSent = u.now + 1 ∧
        ∃ f, t.out = u.out ++ [.frame q 0 f])) ∧
  (∀ (s : State) (p : PortId) (x : IdentInfo), let q := p.val
    let named := fun (t : State) => t.portState q = 3 ∧ t.fld (pgPort q + 0x108) 54 40 = x.dev.toNat ∧ t.fld (pgPort q + 0x108) 39 35 = x.port.val
    (2 ≤ s.portState q → s.ethernet q = false → (s.port q).replay = [] → (s.port q).queues = [] →
      (s.identBad q x = true → Answers (exec (.ident p x) s) fun t => down t q 3) ∧
      (s.portState q = 2 → (s.port q).identSent ≠ 0 → s.identBad q x = false → Answers (exec (.ident p x) s) named)) ∧
    (s.portState q = 3 → s.ethernet q = false → s.identBad q x = false → Answers (exec (.ident p x) s) fun t => named t ∧
      (s.count (pgPort q + 0x118) + 1 < 2 ^ 48 - 1 → s.count (pgPort q + 0x128) + 32 < 2 ^ 48 - 1 →
        OnlyRegsOf s t fun a => a = pgPort q + 0x108 ∨ a = pgPort q + 0x118 ∨ a = pgPort q + 0x128)) ∧
    (s.portState q < 2 → exec (.ident p x) s = .next s)) ∧
  (∀ (s : State) (p : PortId) (l : Fin 8) (lock clash : Bool), let q := p.val
    (s.portState q < 2 → exec (.laneBad p l lock clash) s = .next s) ∧
    (2 ≤ s.portState q → s.fld (pgPort q + 0x108) 60 59 = 3 → s.fld (pgPort q + 0x108) 7 0 = 0xFF → clash = false → (s.port q).replay = [] → (s.port q).queues = [] →
      Answers (exec (.laneBad p l lock clash) s) fun t => t.portState q = s.portState q ∧ t.fld (pgPort q + 0x108) 60 59 = (if l.val < 4 then 2 else 1) ∧
        t.flag (pgPort q + 0x108) l.val = false) ∧
    (2 ≤ s.portState q → s.port q = {} → (s.fld (pgPort q + 0x108) 60 59 = 3 ∧ clash = true) ∨ (s.fld (pgPort q + 0x108) 60 59 = 1 ∧ l.val < 4) ∨
      (s.fld (pgPort q + 0x108) 60 59 = 2 ∧ 4 ≤ l.val) → Answers (exec (.laneBad p l lock clash) s) fun t => down t q 8)) ∧
  (∀ (s : State) (p : PortId) (c : Fin 9), let q := p.val
    (s.portState q = 0 ∨ c.val = 0 → exec (.portLoss p c) s = .next s) ∧
    (s.portState q ≠ 0 → c.val ≠ 0 → s.port q = {} → Answers (exec (.portLoss p c) s) fun t => down t q c.val ∧ t.hbm = s.hbm))

/-- ST_CFG is stored; in a running device whose link oscillators run, with an empty port, clearing ENABLE takes it DOWN with cause 6 and
setting it starts training; leaving ENABLE and MODE as they were does nothing more. GLB_DEV is stored, and with no port UP nothing else
changes. A Group Table write to an entry whose job has a section in flight or a phase exchange under way sets REFUSED and stores nothing;
one that leaves EN 0 is stored with REFUSED 0; one that would leave a bad enabled entry is refused. (spec/13_stay_links.md R304,
spec/13_stay_links.md R305, spec/13_stay_links.md R321, spec/15_partitions_jobs_preemption.md R354, spec/13_stay_links.md Table 13.5,
spec/13_stay_links.md Table 13.6) -/
def Obligations.LinkConfiguration : Prop :=
  (∀ (s : State) (acc : Acc) (p : PortId) (w : W64), let q := p.val; let a := pgPort q + 0x100; s.Open acc a →
    let t := s.storeReg a w.toNat (accMask acc)
    (s.live = false ∨ s.oscOut.contains 1 = true → exec (.stCfgWrite acc p w) s = .next t) ∧
    (t.flag a 0 = s.flag a 0 → t.ethernet q = s.ethernet q → exec (.stCfgWrite acc p w) s = .next t) ∧
    (s.live = true → s.oscOut.contains 1 = false → s.flag a 0 = true → t.flag a 0 = false → s.port q = {} → Answers (exec (.stCfgWrite acc p w) s) fun z =>
      z.portState q = 0 ∧ z.fld (pgPort q + 0x108) 58 55 = 6 ∧ z.hbm = s.hbm) ∧
    (s.live = true → s.oscOut.contains 1 = false → s.flag a 0 = false → t.flag a 0 = true → s.port q = {} →
      Answers (exec (.stCfgWrite acc p w) s) fun z => z.portState q = 1 ∧ z.hbm = s.hbm)) ∧
  (∀ (s : State) (acc : Acc) (w : W64), s.Open acc (pgGlobal + 0x930) → let t := s.storeReg (pgGlobal + 0x930) w.toNat (accMask acc)
    ((∀ q, q < 32 → s.portUp q = false) → exec (.glbDevWrite acc w) s = .next t) ∧
    Answers (exec (.glbDevWrite acc w) s) fun z => z.reg (pgGlobal + 0x930) = t.reg (pgGlobal + 0x930) ∧ z.hbm = s.hbm) ∧
  (∀ (s : State) (acc : Acc) (g : Fin 255) (k : Fin 9) (w : W64), let b := pgGroup g.val; let a := b + 8 * k.val; s.Open acc a →
    let t := (s.storeReg a w.toNat (accMask acc)).setFlag b 3 false
    (s.flag b 63 = true → (s.jobIdle (s.fld b 59 56) = false ∨ ∃ pt, s.partOfJob (s.fld b 59 56) = some pt ∧ s.phState pt (s.fld b 59 56) ≠ 0) →
      exec (.groupTableWrite acc g k w) s = .next (s.setFlag b 3 true)) ∧
    (s.flag b 63 = false → t.flag b 63 = false → exec (.groupTableWrite acc g k w) s = .next t) ∧
    (s.flag b 63 = false → t.flag b 63 = true → t.groupBad ((List.range 9).map fun i => t.reg (b + 8 * i)) = true →
      exec (.groupTableWrite acc g k w) s = .next (s.setFlag b 3 true)))

/-- In direct mode, with nothing held that it must wait for: a TOKEN frame of one token and a MARK frame, mapped to a side of the die with an
enabled Yard and room, put their token into the switch queue at that edge and plane; a COLL frame going up for a running tree descriptor,
from a present child that had not delivered it, is kept as that child's chunk; a LINK frame adds the credits it returns, up to 255; a
PHASE frame of a child is remembered with its target and epoch; a PHASE_CONF of the parent settles the exchange. A frame on a port that is
not UP changes nothing. The acknowledgement timer of an UP port whose VC0 is not paused leaves nothing of its VC unacknowledged. A frame
past REPLAY_US is sent again, where its VC may send, and waits for that where it may not; one sent eight times takes the port DOWN with
cause 4. A pause is kept in Ethernet mode only. (spec/13_stay_links.md R306, spec/13_stay_links.md R312, spec/13_stay_links.md R313,
spec/13_stay_links.md R315, spec/13_stay_links.md R316, spec/13_stay_links.md R317, spec/13_stay_links.md R323, spec/13_stay_links.md
R324, spec/14_collectives_and_resharding.md R336, spec/14_collectives_and_resharding.md R338, spec/13_stay_links.md Table 13.3) -/
def Obligations.LinkFrames : Prop :=
  (∀ (s : State) (p : PortId) (f : Frame), s.portUp p.val = false → exec (.token p f) s = .next s ∧ exec (.mark p f) s = .next s ∧
    exec (.coll p f) s = .next s ∧ exec (.link p f) s = .next s ∧ exec (.phase p f) s = .next s ∧ exec (.phaseConf p f) s = .next s) ∧
  (∀ (s : State) (p : PortId) (f : Frame) (y : Nat), s.phaseMeets f = .take → s.inject = [] →
    let d := p.val / 4
    let c := fTarget f % 256
    let e := s.reg (pgPort (4 * d) + 0x800 + 8 * c)
    let site := staySite d (bits e 30 30)
    let plane := bits e 29 27
    bit e 31 = true → s.logicalOf site.1 = some y → (s.inQueue y site.2 plane).length < 16 →
    (s.Takes p.val f 1 → f.payload.length = 64 → Answers (exec (.token p f) s) fun t =>
      t.inQueue y site.2 plane = s.inQueue y site.2 plane ++ [dataTok (fJob f) (fTag f) c (fLast f) (leNat f.payload)] ∧ t.hbm = s.hbm) ∧
    (s.Takes p.val f 2 → Answers (exec (.mark p f) s) fun t =>
      t.inQueue y site.2 plane = s.inQueue y site.2 plane ++ [⟨mkHdr (fJob f) (fTag f) c 2 (fLast f), 0⟩] ∧ t.hbm = s.hbm)) ∧
  (∀ (s : State) (p : PortId) (f : Frame) (r : CollRun) (i : Nat), s.Takes p.val f 3 → s.phaseMeets f = .take →
    let k := bits (fTarget f) 36 17
    s.runFor (p.val / 4) f = some r → dRing r.body = false → bit (fTarget f) 16 = false → s.slotFrom (dGroup r.body) (fSrc f) = some i →
    i ∈ s.children (dGroup r.body) → i ∉ r.missing → (i, k) ∉ r.taken → Answers (exec (.coll p f) s) fun t =>
      t.runFor (p.val / 4) f = some { r with chunks := r.chunks ++ [⟨i, false, k, bits (fTarget f) 63 48, f.payload⟩], taken := r.taken ++ [(i, k)] } ∧
      t.hbm = s.hbm) ∧
  (∀ (s : State) (p : PortId) (f : Frame), let q := p.val; let v := fld13 f 238 236
    s.portUp q = true → s.ethernet q = false → f.payload.length = fLen f → frameError f = none → fType f = 4 → fDst f = s.devId →
    fld13 f 239 239 = 1 → fld13 f 227 227 = 0 → (s.port q).queues = [] → (∀ e ∈ (s.port q).replay, e.due = false) → Answers (exec (.link p f) s) fun t =>
      t.credits q v = min 255 (s.credits q v + (fld13 f 235 228 + 256 - Tab.get 0 (s.port q).seenCum v) % 256) ∧ t.hbm = s.hbm) ∧
  (∀ (s : State) (p : PortId) (f : Frame) (pt i : Nat), let j := fJob f
    s.partOfJob j = some pt → fGroup f = s.phaseGroup pt j → s.slotFrom (s.phaseGroup pt j) (fSrc f) = some i →
    (s.Takes p.val f 5 → s.phaseOn pt j = true → s.phState pt j < 2 → fTag f = (s.epoch j + 1) % 65536 → i ∈ s.children (s.phaseGroup pt j) →
      Answers (exec (.phase p f) s) fun t => Tab.get [] t.phaseHeard j =
        ((Tab.get [] s.phaseHeard j).filter fun h => !(h.slot == i)) ++ [⟨i, fTarget f % 4, fTag f⟩] ∧ t.hbm = s.hbm) ∧
    (s.Takes p.val f 6 → 2 ≤ s.phState pt j → s.parent (s.phaseGroup pt j) = some i → fTag f = s.epoch j → fTarget f % 4 = s.phTarget pt j →
      s.heldFrames = [] → Tab.get [] s.waiting pt = [] → Tab.get [] s.phaseHeld j = [] →
      Answers (exec (.phaseConf p f) s) fun t => t.phState pt j = 0 ∧ t.phaseOf pt j = s.phTarget pt j ∧ t.hbm = s.hbm)) ∧
  (∀ (s : State) (p : PortId) (vc : Fin 8), let q := p.val
    ((∀ e ∈ (s.port q).unacked, e.1 / 32768 ≠ vc.val ∨ e.2 = 0) → exec (.acknowledgeTimer p vc) s = .next s) ∧
    (s.portUp q = true → s.paused q 0 = false →
      Answers (exec (.acknowledgeTimer p vc) s) fun t => (∀ dev, dev < 32768 → Tab.get 0 (t.port q).unacked (pairKey vc.val dev) = 0) ∧
      (t.port q).replay = (s.port q).replay ∧ t.hbm = s.hbm)) ∧
  (∀ (s : State) (dt : Nat) (p : PortId), let u := s.tick dt; let q := p.val; let late := fun (e : Sent) => e.at_ + s.fld (pgPort q + 0x100) 63 48 * 1000 < u.now
    ((∀ e ∈ (s.port q).replay, ¬late e) → exec (.replayTimeout dt p) s = .next u) ∧
    (∀ e, s.portUp q = true → (s.port q).replay = [e] → (s.port q).queues = [] → late e → e.sends < 8 → e.frame.vc < 8 →
      let may := if s.ethernet q then s.paused q e.frame.vc = false else s.credits q e.frame.vc ≠ 0
      (may → Answers (exec (.replayTimeout dt p) s) fun t =>
        (t.port q).replay = [{ e with at_ := u.now, sends := e.sends + 1, due := false }] ∧ t.portUp q = true ∧ t.out.length = u.out.length + 1) ∧
      (¬may → Answers (exec (.replayTimeout dt p) s) fun t => (t.port q).replay = [{ e with due := true }] ∧ t.portUp q = true ∧ t.regs = u.regs)) ∧
    ((∃ e ∈ (s.port q).replay, late e ∧ 8 ≤ e.sends) → s.portUp q = true → (s.port q).queues = [] → (∀ e ∈ (s.port q).replay, s.otherPort q e.frame = none) →
      Answers (exec (.replayTimeout dt p) s) fun t =>
      t.portState q = 0 ∧ t.fld (pgPort q + 0x108) 58 55 = 4)) ∧
  (∀ (s : State) (p : PortId) (vc : Fin 8) (x : Bool), let q := p.val; let t := s.setFlag (pgPort q + 0x180 + 8 * vc.val) 47 x
    (s.portUp q = false ∨ s.ethernet q = false → exec (.pfcPause p vc x) s = .next s) ∧
    (s.portUp q = true → s.ethernet q = true → exec (.pfcPause p vc x) s = .next (if x then t else t.pump q)))

/-- No token in a crossing FIFO, or a stopped port behind it, nothing changes. A token of a channel that is not mapped out, or of another job,
leaves the FIFO and counts as dropped. The first DATA token of a burst on a mapped channel, not its last, begins a frame; the next of the
same job and tag joins it; the tokens behind it stay in order. A frame whose last token came 100 ns ago is sent as it stands and is packed
no more; a younger one stays. When the bridge counts as stopped is the model's choice (log entry 163). (spec/02_clockless_timing.md R43,
spec/13_stay_links.md R314, spec/13_stay_links.md R316, spec/13_stay_links.md Table 13.9) -/
def Obligations.TokenBridge : Prop :=
  (∀ (s : State) (d : Die) (side : Fin 2) (i : Fin 8), let k := 32 * d.val + 16 * side.val + i.val
    (Tab.get [] s.bridgeTok k = [] → exec (.bridgeTokenOut d side i) s = .next s) ∧
    (∀ tok rest, Tab.get [] s.bridgeTok k = tok :: rest →
      let e := s.chanMap d.val tok.chan
      let key := 256 * d.val + tok.chan
      (s.bridgeFull d.val tok = true → exec (.bridgeTokenOut d side i) s = .next s) ∧
      (s.bridgeFull d.val tok = false → (bit e 63 = false ∨ tok.job ≠ bits e 42 39) →
        exec (.bridgeTokenOut d side i) s = .next (({ s with bridgeTok := Tab.set [] s.bridgeTok k rest } : State).stDrop (4 * d.val))) ∧
      (s.bridgeFull d.val tok = false → bit e 63 = true → tok.job = bits e 42 39 → tok.kind = 0 → tok.last = false →
        (Tab.find? s.packs key = none → Answers (exec (.bridgeTokenOut d side i) s) fun t =>
          Tab.find? t.packs key = some ⟨tok.job, tok.tag, [tok.payload], s.now⟩ ∧ Tab.get [] t.bridgeTok k = rest ∧ t.regs = s.regs ∧ t.ports = s.ports) ∧
        (∀ x, Tab.find? s.packs key = some x → x.job = tok.job → x.tag = tok.tag → x.toks.length < 63 →
          Answers (exec (.bridgeTokenOut d side i) s) fun t =>
            Tab.find? t.packs key = some ⟨tok.job, tok.tag, x.toks ++ [tok.payload], s.now⟩ ∧ Tab.get [] t.bridgeTok k = rest ∧ t.regs = s.regs ∧
              t.ports = s.ports)))) ∧
  (∀ (s : State) (dt : Nat) (d : Die) (c : Fin 256), let u := s.tick dt; let key := 256 * d.val + c.val
    (Tab.find? s.packs key = none → exec (.bridgeFlushTimer dt d c) s = .next u) ∧
    (∀ x, Tab.find? s.packs key = some x →
      (u.now < x.at_ + 100 → exec (.bridgeFlushTimer dt d c) s = .next u) ∧
      (x.at_ + 100 ≤ u.now → Answers (exec (.bridgeFlushTimer dt d c) s) fun t => Tab.find? t.packs key = none ∧ t.hbm = s.hbm)))

/-- An engine with four descriptors in flight, or none waiting, starts none; else the next in turn runs from now, with no frame held, and
leaves the queue. A chunk whose present child has not delivered waits; else the node asks memory for its own chunk, waits for all answers,
and with them, at the root of a tree without children, a SUM of FP32 into FP32 writes each chunk of its source to its destination element
by element, a NaN as the canonical one, and moves to the next chunk. A deadline that has passed makes the children without a chunk 0
MISSING, once, and before that only the clock moves. A descriptor that has its whole result leaves the engine; one that has not, stays.
(spec/10_numerics.md R229, spec/14_collectives_and_resharding.md R329, spec/14_collectives_and_resharding.md R331,
spec/14_collectives_and_resharding.md R333, spec/14_collectives_and_resharding.md R337, spec/14_collectives_and_resharding.md R338,
spec/14_collectives_and_resharding.md R342, spec/14_collectives_and_resharding.md R350, spec/14_collectives_and_resharding.md Table 14.6) -/
def Obligations.CollectiveDescriptors : Prop :=
  (∀ (s : State) (d : Die), s.live = true → let x := s.engine d.val
    (4 ≤ x.running.length ∨ x.nextWait = none → exec (.collDescStart d) s = .next s) ∧
    (∀ w b, x.running.length < 4 → x.nextWait = some w → s.waitBody d.val w = some b → s.heldFrames = [] → Answers (exec (.collDescStart d) s) fun t =>
      (t.engine d.val).waiting = x.waiting.erase w ∧ (t.engine d.val).lastJob = w.job ∧
        ∃ r, (t.engine d.val).running = x.running ++ [r] ∧ r.wait = w ∧ r.body = b ∧ r.t0 = s.now ∧ r.upK = 0 ∧ r.missing = [])) ∧
  (∀ (s : State) (d : Die) (x : Fin 510) (k : Nat), s.live = true →
    (s.runAt d.val x.val = none → exec (.collChunkReady d x k) s = .next s) ∧
    (∀ r, s.runAt d.val x.val = some r → dRing r.body = false → dFlag r.body 4 = false → r.upK = k → k < dChunks r.body →
      let key := askKey (.run d.val x.val)
      (∀ i, dOp r.body ≠ 4 → i ∈ s.children (dGroup r.body) → i ∉ r.missing → r.chunkFrom i k = none → exec (.collChunkReady d x k) s = .next s) ∧
      (dOp r.body = 1 → s.children (dGroup r.body) = [] →
        (Tab.find? s.askers key = none → Answers (exec (.collChunkReady d x k) s) fun t =>
          (∃ e, Tab.find? t.askers key = some e ∧ e.2 ≠ 0) ∧ t.runAt d.val x.val = some r ∧ t.hbm = s.hbm) ∧
        (s.served key = false → exec (.collChunkReady d x k) s = .next s) ∧
        (Tab.find? s.askers key ≠ none → s.served key = true → dFlag r.body 1 = false → dInFmt r.body = 9 → dOutFmt r.body = 9 →
          s.parent (dGroup r.body) = none → Answers (exec (.collChunkReady d x k) s) fun t =>
          t.hbm.read (chunkAddr (dDst r.body) (dStripe r.body) k) 4096 =
            writeElems 0x9 (readElems 0x9 (s.hbm.read (chunkAddr r.src (dStripe r.body) k) 4096)) ∧
          (∃ r', t.runAt d.val x.val = some r' ∧ r'.upK = k + 1 ∧ r'.body = r.body) ∧ Tab.find? t.askers key = none ∧
          ∀ a, a < chunkAddr (dDst r.body) (dStripe r.body) k ∨ chunkAddr (dDst r.body) (dStripe r.body) k + 4096 ≤ a → t.hbm.get a = s.hbm.get a)))) ∧
  (∀ (s : State) (d : Die) (x : Fin 510), s.live = true →
    (s.runAt d.val x.val = none → exec (.collDescComplete d x) s = .next s) ∧
    (∀ r, s.runAt d.val x.val = some r → (s.runDone d.val r = false → exec (.collDescComplete d x) s = .next s) ∧
      (s.runDone d.val r = true → Answers (exec (.collDescComplete d x) s) fun t => (∀ r' ∈ (t.engine d.val).running, r'.wait ≠ r.wait) ∧
        Tab.find? (t.engine d.val).doneTag (doneKey (dGroup r.body) r.wait.index r.wait.job) = some r.wait.tag ∧ t.hbm = s.hbm))) ∧
  (∀ (s : State) (dt : Nat) (d : Die) (x : Fin 510) (r : CollRun), let u := s.tick dt; u.live = true → s.runAt d.val x.val = some r →
    let due := r.t0 + dDeadline r.body * (dLevel r.body + 1) * 1000 < u.now
    let late := (r.present (s.children (dGroup r.body))).filter fun i => !(r.taken.contains (i, 0))
    ((¬due ∨ dDeadline r.body = 0 ∨ dRing r.body = true ∨ dOp r.body = 4 ∨ late = []) → exec (.collDeadline dt d x) s = .next u) ∧
    (due → dDeadline r.body ≠ 0 → dRing r.body = false → dOp r.body ≠ 4 → dFlag r.body 4 = false → late ≠ [] → Answers (exec (.collDeadline dt d x) s) fun t =>
      t.runAt d.val x.val = some { r with missing := r.missing ++ late, chunks := r.chunks.filter fun c => c.down || !(late.contains c.slot) } ∧ t.hbm = s.hbm))

/-- In direct mode, of a gate this device has not contributed to: the first AGREE_UP of a child joins the contributions heard, and the
AGREE_DOWN of the parent is kept as the result until it contributes. At its deadline an agreement to which this device has contributed
goes up once; one that has gone up, or is still in time with a child missing, does not. A NORM_UP of a present child of a running
descriptor is kept; the parent's NORM_DOWN ends the norms with its total. ABORT from a child makes it MISSING. No such frame stores into
HBM. (spec/14_collectives_and_resharding.md R336, spec/14_collectives_and_resharding.md R340, spec/14_collectives_and_resharding.md R343,
spec/14_collectives_and_resharding.md R345, spec/14_collectives_and_resharding.md R347, spec/14_collectives_and_resharding.md Table 14.4) -/
def Obligations.CollectiveAgreements : Prop :=
  (∀ (s : State) (p : PortId) (f : Frame) (i : Nat), s.Takes p.val f 7 → fDesc f = 0x1FF →
    let g := fGroup f
    let a := s.agreeAt false (fJob f) g (fTag f)
    let v := fTarget f
    s.slotFrom g (fSrc f) = some i → s.agreeLate false (fJob f) g (fTag f) = false → a.own = none →
    (fCode f = 1 → i ∈ s.children g → a.sent = false → (a.heard.any fun h => h.1 == i) = false → Answers (exec (.agreeUp p f) s) fun t =>
      t.agreeAt false (fJob f) g (fTag f) = { a with heard := a.heard ++ [(i, bit v 8, bit v 9, bit v 10)] } ∧ t.hbm = s.hbm ∧ t.sections = s.sections) ∧
    (fCode f = 2 → s.parent g = some i → Answers (exec (.agreeDown p f) s) fun t =>
      t.agreeAt false (fJob f) g (fTag f) = { a with down := some (bit v 8, bit v 10, bit v 9) } ∧ t.hbm = s.hbm ∧ t.sections = s.sections)) ∧
  (∀ (s : State) (dt : Nat) (perm : Bool) (j : JobId), let u := s.tick dt; u.live = true →
    let mine := fun (a : Agree) => a.perm == perm && a.job == j.val && a.own.isSome
    (s.agrees.find? mine = none → exec (.agreeDeadline dt perm j) s = .next u) ∧
    (∀ a, s.agrees.find? mine = some a → a.down = none →
      let missing := ∃ i ∈ s.children a.group, (a.heard.any fun h => h.1 == i) = false
      ((a.sent = true ∨ (missing ∧ u.now ≤ a.t0 + s.agreeTime a)) → exec (.agreeDeadline dt perm j) s = .next u) ∧
      (∀ i, a.sent = false → a.t0 + s.agreeTime a < u.now → s.parent a.group = some i → Answers (exec (.agreeDeadline dt perm j) s) fun t =>
        t.agrees.find? mine = some { a with sent := true } ∧ t.hbm = s.hbm))) ∧
  (∀ (s : State) (p : PortId) (f : Frame) (r : CollRun) (i : Nat), s.Takes p.val f 7 → s.runFor (p.val / 4) f = some r →
    s.slotFrom (dGroup r.body) (fSrc f) = some i →
    (fCode f = 3 → i ∈ s.children (dGroup r.body) → i ∉ r.missing → (r.normUps.any fun n => n.1 == i) = false → s.upDone r = false →
      Answers (exec (.normUp p f) s) fun t => t.hbm = s.hbm ∧ t.runFor (p.val / 4) f =
        some { r with normUps := r.normUps ++ [(i, leNat (f.payload.take 8), bits (fTarget f) 63 48)] }) ∧
    (fCode f = 4 → s.parent (dGroup r.body) = some i → Answers (exec (.normDown p f) s) fun t => t.hbm = s.hbm ∧ t.runFor (p.val / 4) f =
        some { r with normTotal := leNat (f.payload.take 8), normCnt := bits (fTarget f) 63 48, normDone := true, normUp := true }) ∧
    (fCode f = 5 → fDesc f ≠ 0x1FE → i ∈ s.children (dGroup r.body) → i ∉ r.missing → dFlag r.body 4 = false →
      Answers (exec (.abort p f) s) fun t => t.hbm = s.hbm ∧ t.runFor (p.val / 4) f =
        some { r with missing := r.missing ++ [i], chunks := r.chunks.filter fun c => c.down || !(c.slot == i) }))

/-- PERM_CTRL with START asks the arbiter for a class 6 operation on its job where none is BUSY, at once where a Masthead is primary, else
when one is (log entry 183); otherwise it changes nothing. WAIT ends only with no flip pending, the job idle and its sequencer quiet; with
nothing staged and a region offset, MOVE begins with nothing expected and HBM as it was. MOVE that still expects a block on ports that are
UP goes on; with nothing expected or unsent, at a node with a parent and no children, this device contributes and the phase is AGREE.
Twice DEADLINE_MS after it contributed the permute ends with RESULT 2 and cause 5; earlier only the clock moves.
(spec/14_collectives_and_resharding.md R346, spec/14_collectives_and_resharding.md R347, spec/14_collectives_and_resharding.md R348,
spec/17_power_and_mastheads.md R414, spec/16_host_ports_and_register_pages.md Table 16.18) -/
def Obligations.PermuteCommands : Prop :=
  (∀ (s : State) (acc : Acc) (w : W64), s.Open acc (pgGlobal + 0x950) →
    (acts w.toNat 0 = true → s.flag (pgGlobal + 0x958) 63 = false → s.live = true →
      let m : MaintOp := ⟨6, s.fld (pgGlobal + 0x940) 63 60, acc.port.code, 0, none⟩
      (s.primary ≠ none → exec (.permuteRequest acc w) s = .next (s.maintAsk m)) ∧
      (s.primary = none → exec (.permuteRequest acc w) s = .next { s with maintWait := s.maintWait ++ [m] })) ∧
    (acts w.toNat 0 = false ∨ s.flag (pgGlobal + 0x958) 63 = true → exec (.permuteRequest acc w) s = .next s)) ∧
  (∀ (s : State), s.live = true → s.permute = none → exec .permuteWaitDone s = .next s ∧ exec .permuteMoveDone s = .next s) ∧
  (∀ (s : State) (r : PermRun), s.live = true → s.permute = some r →
    let j := s.fld (pgGlobal + 0x940) 63 60
    let waits := s.permPhase ≠ 1 ∨ s.seqQuiet (s.partOf j) j = false ∨ s.jobIdle j = false ∨ s.flag (pgGlobal + 0x928) 63 = true
    (waits → exec .permuteWaitDone s = .next s) ∧
    (¬waits → r.lost = false → s.staged = [] → s.fld (pgGlobal + 0x948) 63 44 ≠ 0 → s.heldFrames = [] → Answers (exec .permuteWaitDone s) fun t =>
      t.permPhase = 3 ∧ t.permute = some { r with expect := [] } ∧ t.hbm = s.hbm) ∧
    (s.permPhase ≠ 3 → exec .permuteMoveDone s = .next s) ∧
    (s.permPhase = 3 → r.lost = false → r.expect ≠ [] → (∀ q, q < 32 → s.portUp q = true) → exec .permuteMoveDone s = .next s) ∧
    (∀ i, s.permPhase = 3 → r.lost = false → r.expect = [] → s.permUnsent = ([], false) → s.agrees = [] → s.children (s.fld (pgGlobal + 0x940) 59 52) = [] →
      s.parent (s.fld (pgGlobal + 0x940) 59 52) = some i → Answers (exec .permuteMoveDone s) fun t =>
        t.permPhase = 4 ∧ t.permute = some { r with contributed := s.now + 1 } ∧ t.hbm = s.hbm)) ∧
  (∀ (s : State) (dt : Nat), let u := s.tick dt; u.live = true →
    (s.permute = none → exec (.permuteNoResult dt) s = .next u) ∧
    (∀ r, s.permute = some r → let due := r.contributed ≠ 0 ∧ r.contributed + 2 * (s.fld (pgGlobal + 0x948) 15 0 * 1000000) < u.now + 1
      (¬due → exec (.permuteNoResult dt) s = .next u) ∧
      (due → s.maintQueue = [] → Answers (exec (.permuteNoResult dt) s) fun t => t.permute = none ∧ t.flag (pgGlobal + 0x958) 63 = false ∧
        t.fld (pgGlobal + 0x958) 59 57 = 2 ∧ t.fld (pgGlobal + 0x958) 56 53 = 5 ∧ t.hbm = s.hbm)))

/-- A write of PT_CFG or PT_YARDS with no image loaded stores the setting and clears REFUSED where the partition then clashes with no enabled
one, else changes REFUSED to 1 and nothing more; with an image loaded PT_YARDS and PT_CHAN do not change. PT_CHAN of a disabled partition,
where no partition has a Yard, stores the bits. A save area in one LIVE granted channel is stored, any other only sets REFUSED. Setting EN
of a job that no other partition runs makes its STATE 1; one that another partition runs is refused with JOB_LIMIT; clearing EN of a job
with no image and no ring makes STATE 0; REFUSED of PT_JOB_CFG and of PT_CFG follow these writes of EN, and a write that does not reach EN
only stores. (spec/15_partitions_jobs_preemption.md R353, spec/15_partitions_jobs_preemption.md R354,
spec/15_partitions_jobs_preemption.md R355, spec/15_partitions_jobs_preemption.md R356) -/
def Obligations.PartitionSettings : Prop :=
  ∀ (s : State) (acc : Acc) (p : Part) (w : W64),
    let cfg := pgPart p.val + 0x100
    let yards := pgPart p.val + 0x108
    let save := pgPart p.val + 0x110
    let put := fun (a : Nat) => s.storeReg a w.toNat (accMask acc)
    (s.Open acc cfg → s.loadedIn p.val = false → ¬(s.partOn p.val = true ∧ (put cfg).partOn p.val = false ∧ s.jobsOf p.val ≠ []) →
      ((put cfg).partOn p.val = true ∧ (put cfg).clashes p.val = true → exec (.ptCfgWrite acc p .cfg w) s = .next (s.setFlag cfg 62 true)) ∧
      (¬((put cfg).partOn p.val = true ∧ (put cfg).clashes p.val = true) → exec (.ptCfgWrite acc p .cfg w) s = .next ((put cfg).setFlag cfg 62 false))) ∧
    (s.Open acc yards → s.loadedIn p.val = false →
      ((put yards).partOn p.val = true ∧ (put yards).clashes p.val = true → exec (.ptCfgWrite acc p .yards w) s = .next (s.setFlag cfg 62 true)) ∧
      (¬((put yards).partOn p.val = true ∧ (put yards).clashes p.val = true) → exec (.ptCfgWrite acc p .yards w) s = .next ((put yards).setFlag cfg 62 false))) ∧
    (s.Open acc yards → s.loadedIn p.val = true → exec (.ptCfgWrite acc p .yards w) s = .next s) ∧
    (∀ i : Fin 16, s.Open acc (pgPart p.val + 0x300 + 8 * i.val) → s.loadedIn p.val = true → exec (.ptCfgWrite acc p (.chan i) w) s = .next s) ∧
    (∀ i : Fin 16, s.Open acc (pgPart p.val + 0x300 + 8 * i.val) → s.loadedIn p.val = false → s.partOn p.val = false →
      (∀ q, q < 8 → s.reg (pgPart q + 0x108) = 0) →
      exec (.ptCfgWrite acc p (.chan i) w) s = .next ((put (pgPart p.val + 0x300 + 8 * i.val)).setFlag cfg 62 false)) ∧
    (s.Open acc save → ((put save).saveOk p.val = true → exec (.ptSaveWrite acc p w) s = .next ((put save).setFlag cfg 62 false)) ∧
      ((put save).saveOk p.val = false → exec (.ptSaveWrite acc p w) s = .next (s.setFlag cfg 62 true))) ∧
    (∀ j : JobId, let a := jobCfg p.val j.val
      s.Open acc a →
      (s.flag a 63 = false → (put a).flag a 63 = true → s.jobElsewhere p.val j.val = none → s.partOn p.val = true →
        exec (.jobCfgWrite acc p j w) s = .next ((((put a).setFlag a 59 false).setFlag cfg 62 false).setFld (jobSt p.val j.val) 63 62 1)) ∧
      (∀ q, s.flag a 63 = false → (put a).flag a 63 = true → s.jobElsewhere p.val j.val = some q →
        exec (.jobCfgWrite acc p j w) s = .next (((s.setFlag a 59 true).setFlag cfg 62 true).partFault p.val 0x0804 (fieldAt 56 j.val + q))) ∧
      (s.flag a 63 = true → (put a).flag a 63 = false → (∀ i ∈ s.images, ¬(i.part = p.val ∧ i.job = j.val)) → s.ringOn j.val = false →
        exec (.jobCfgWrite acc p j w) s = .next ((((put a).setFlag a 59 false).setFlag cfg 62 false).setFld (jobSt p.val j.val) 63 62 0)) ∧
      (s.flag a 63 = (put a).flag a 63 → bit (accMask acc) 63 = false → exec (.jobCfgWrite acc p j w) s = .next (put a)))

/-- YIELD of a job in RUN makes STATE 2 and notes the time; once the job is idle and the save area usable, YIELD_DRAINED makes STATE 3; RESUME
of a job in STATE 2 or 3 makes it RUN. A PREEMPT_WARN that has run out while STATE is 2 is reported once for its cause; one already
reported changes only the clock. (spec/15_partitions_jobs_preemption.md R363, spec/15_partitions_jobs_preemption.md R365,
spec/15_partitions_jobs_preemption.md R366) -/
def Obligations.YieldAndResume : Prop :=
  ∀ (s : State) (p : Part),
    (∀ (acc : Acc) (w : W64) (j : Nat), s.Open acc (pgPart p.val + 0x190) →
      j = (s.storeReg (pgPart p.val + 0x190) w.toNat (accMask acc)).fld (pgPart p.val + 0x190) 7 4 →
      (acts w.toNat 0 = true → acts w.toNat 1 = false → s.jobState p.val j = 1 →
        Answers (exec (.yield_ acc p w) s) fun t => t.jobState p.val j = 2 ∧ Tab.get 0 t.yieldAt j = s.now ∧ t.hbm = s.hbm ∧ t.cores = s.cores) ∧
      (acts w.toNat 0 = false → acts w.toNat 1 = true → (s.jobState p.val j = 2 ∨ s.jobState p.val j = 3) →
        Answers (exec (.resume acc p w) s) fun t => t.jobState p.val j = 1 ∧ t.hbm = s.hbm ∧ t.cores = s.cores)) ∧
    (∀ (j : JobId) (es : List (Yard × Ecc)), s.live = true → s.jobState p.val j.val = 2 → s.jobIdle j.val = true → s.saveOk p.val = true →
      Answers (exec (.yieldDrained p (j, es)) s) fun t => t.jobState p.val j.val = 3) ∧
    (∀ (j : JobId) (dt : Nat), (s.tick dt).live = true → (s.tick dt).jobState p.val j.val = 2 → (s.tick dt).fld (jobCfg p.val j.val) 31 0 ≠ 0 →
      Tab.get 0 s.yieldAt j.val + (s.tick dt).fld (jobCfg p.val j.val) 31 0 * 1000 ≤ (s.tick dt).now →
      (s.yieldWarned.contains j.val = false → Answers (exec (.preemptWait dt p j) s) fun t => t.yieldWarned = s.yieldWarned ++ [j.val] ∧ t.hbm = s.hbm) ∧
      (s.yieldWarned.contains j.val = true → exec (.preemptWait dt p j) s = .next (s.tick dt)))

/-- A doorbell value inside the ring is stored and one outside it changes nothing. Setting EN of a ring whose entries lie in a channel granted
to the job's partition enables it and clears REFUSED; of a job that runs in no partition it leaves EN 0 and sets REFUSED; a write of EN =
0 to a disabled ring clears REFUSED. While EN is 1, a write that keeps it changes nothing. GO in HALTED leaves HALTED with HEAD as it is,
SKIP moves HEAD past one entry first; outside HALTED neither changes anything. (spec/15_partitions_jobs_preemption.md R367,
spec/15_partitions_jobs_preemption.md R371, spec/15_partitions_jobs_preemption.md R372) -/
def Obligations.RingRegisters : Prop :=
  ∀ (s : State) (acc : Acc) (j : JobId) (w : W64),
    let door := pgDoor j.val
    let put := fun (a : Nat) => s.storeReg a w.toNat (accMask acc)
    (s.Open acc door → ((put door).fld door 15 0 < s.ringSize j.val → exec (.ringTailWrite acc j w) s = .next (put door)) ∧
      (s.ringSize j.val ≤ (put door).fld door 15 0 → exec (.ringTailWrite acc j w) s = .next s)) ∧
    (s.Open acc (door + 0x10) →
      (∀ p, s.ringOn j.val = false → (put (door + 0x10)).ringOn j.val = true → (put (door + 0x10)).partOfJob j.val = some p →
        rangeOk ((put (door + 0x10)).ringBase j.val) (128 * (put (door + 0x10)).ringSize j.val) = true →
        (put (door + 0x10)).granted p (adChan ((put (door + 0x10)).ringBase j.val)) = true →
        exec (.ringCfgWrite acc j w) s = .next (((put (door + 0x10)).setFlag (ringSt j.val) 61 false).refreshRing j.val)) ∧
      (s.ringOn j.val = false → (put (door + 0x10)).ringOn j.val = true → (put (door + 0x10)).partOfJob j.val = none →
        exec (.ringCfgWrite acc j w) s = .next (((put (door + 0x10)).setFlag (door + 0x10) 63 false).setFlag (ringSt j.val) 61 true)) ∧
      (s.ringOn j.val = false → (put (door + 0x10)).ringOn j.val = false → bit (accMask acc) 63 = true →
        exec (.ringCfgWrite acc j w) s = .next ((put (door + 0x10)).setFlag (ringSt j.val) 61 false)) ∧
      (s.ringOn j.val = true → (put (door + 0x10)).ringOn j.val = true → exec (.ringCfgWrite acc j w) s = .next s)) ∧
    (s.Open acc (door + 0x20) →
      (s.fld (ringSt j.val) 63 62 = 3 → acts w.toNat 0 = true → acts w.toNat 1 = false → exec (.go acc j w) s =
        .next ((s.setFld (ringSt j.val) 63 62 1).advanceRing j.val)) ∧
      (s.fld (ringSt j.val) 63 62 = 3 → acts w.toNat 1 = true → s.ringHead j.val ≠ s.fld door 15 0 → exec (.skip acc j w) s =
        .next (((s.setFld (ringSt j.val) 15 0 ((s.ringHead j.val + 1) % s.ringSize j.val)).setFld (ringSt j.val) 63 62 1).advanceRing j.val)) ∧
      (s.fld (ringSt j.val) 63 62 ≠ 3 → exec (.go acc j w) s = .next s ∧ exec (.skip acc j w) s = .next s))

/-- A RUNning ring with an entry at HEAD, fewer than eight fetched ones waiting and no ring before it in turn asks memory for it; once all
answers have come it takes a well-formed entry and moves HEAD by one, and halts with cause 1 on a malformed one; a channel that is not
LIVE halts it with cause 4. The oldest entry not yet acted on then acts: NOP and, with every earlier entry complete, WAIT complete at
once; START hands its record to the tracker; LOAD starts a load where no load is busy; SIGNAL writes its eight bytes to ARG of a LIVE
channel and completes, and waits while that is not LIVE; an UNLOAD that is carried out completes. (spec/15_partitions_jobs_preemption.md
R357, spec/15_partitions_jobs_preemption.md R368, spec/15_partitions_jobs_preemption.md R369, spec/15_partitions_jobs_preemption.md R371) -/
def Obligations.RingEntries : Prop :=
  ∀ (s : State) (j : JobId) (p : Nat), s.live = true → s.partOfJob j.val = some p →
    let h := s.ringHead j.val
    let a := s.ringBase j.val + 128 * h
    let bs := s.hbm.read a 128
    let key := askKey (.ring j.val)
    let s1 := s.dropAsk key
    (s.mayFetch j.val = true → s.fetchLater p j.val = false →
      (s.chLive (adChan a) = false → exec (.ringFetch j) s = .next (s.haltRing j.val 4 0)) ∧
      (s.chLive (adChan a) = true → Tab.find? s.askers key = none → Answers (exec (.ringFetch j) s) fun t =>
        (∃ e, Tab.find? t.askers key = some e ∧ e.2 ≠ 0) ∧ t.regs = s.regs ∧ t.rings = s.rings ∧ t.hbm = s.hbm) ∧
      (s.chLive (adChan a) = true → s.served key = false → exec (.ringFetch j) s = .next s) ∧
      (s.chLive (adChan a) = true → Tab.find? s.askers key ≠ none → s.served key = true →
        (s1.entryBad p bs = true → exec (.ringFetch j) s =
          .next ((s1.partFault p 0x0B01 (jobInfo j.val 1 h (fieldOf bs 0 1))).haltRing j.val 1 0x0B01)) ∧
        (s1.entryBad p bs = false → exec (.ringFetch j) s = .next (((s1.setRing j.val (s1.ringOf j.val ++
          [{ index := h, op := fieldOf bs 0 1, irq := bit (fieldOf bs 1 1) 0, arg := fieldOf bs 8 8, body := (bs.drop 0x10).take 80 }])).setFld
            (ringSt j.val) 15 0 ((h + 1) % s1.ringSize j.val)).refreshRing j.val)))) ∧
    (s.mayFetch j.val = false → exec (.ringFetch j) s = .next s) ∧
    (∀ e, s.nextEntry j.val 0 false = some e → exec (.nop j) s = .next ((s.actOn j.val e).ringDone j.val e.index)) ∧
    (∀ e, s.nextEntry j.val 1 false = some e → exec (.ringStart j) s =
      .next ((s.actOn j.val e).handRecord p (parseStart j.val (.ring j.val e.index) e.body))) ∧
    (∀ e, s.nextEntry j.val 2 true = some e → s.rigBusy p = false → exec (.ringLoad j) s =
      .next ((s.actOn j.val e).startLoad p j.val e.arg (fieldOf e.body 0 1) (some e.index))) ∧
    (∀ e i, s.nextEntry j.val 3 true = some e → s.rigBusy p = false → (s.actOn j.val e).imageAt p (e.arg % 16) = some i →
      (s.actOn j.val e).imageUsed i = false → (s.actOn j.val e).imageActive i = false → exec (.ringUnload j) s =
      .next ((((s.actOn j.val e).dropImage i).rigResult p 3 (e.arg % 16) j.val 0).ringDone j.val e.index)) ∧
    (∀ e, s.nextEntry j.val 4 true = some e → exec (.ringWait j) s = .next ((s.actOn j.val e).ringDone j.val e.index)) ∧
    (∀ e, s.nextEntry j.val 5 true = some e →
      (s.chLive (adChan e.arg) = false → exec (.signal j) s = .next s) ∧
      (s.chLive (adChan e.arg) = true → exec (.signal j) s =
        .next (((s.actOn j.val e).hbmWrite { part := p, cls := 0, job := j.val } e.arg (e.body.take 8)).ringDone j.val e.index)))

/-- With a host oscillator there, an 8-byte read of a free semaphore returns 0 and makes the reader its owner from now; of one the other port
owns returns bit 63 and that port's code and changes nothing; of one's own returns bit 63 and the reader's code and restarts its time. An
8-byte write of 0 by the owner frees it; a write of 0 by another port and a write of any other value only count in HP_DROPPED of the
writer, and no fault is recorded. Nothing else changes. (R394) -/
def Obligations.SemaphoreAcquireRelease : Prop :=
  ∀ (s : State) (port : HostPort) (i : Fin 32) (w : W64),
    let acc : Acc := ⟨port, 8, 0, false⟩
    let a := 0x200 + 8 * i.val
    let owner := s.reg a % 4
    (s.oscOut.contains 0 = false → owner = 0 → exec (.semAcquire acc i) s = .next
      (({ s.setReg a port.code with semSince := Tab.put s.semSince i.val s.now } : State).emit (.readData port 0))) ∧
    (s.oscOut.contains 0 = false → owner ≠ 0 → owner ≠ port.code → exec (.semAcquire acc i) s = .next (s.emit (.readData port (2 ^ 63 + owner)))) ∧
    (s.oscOut.contains 0 = false → owner = port.code → exec (.semAcquire acc i) s = .next
      (({ s.setReg a port.code with semSince := Tab.put s.semSince i.val s.now } : State).emit (.readData port (2 ^ 63 + port.code)))) ∧
    (s.Open acc a → w = 0 → owner = port.code → exec (.semRelease acc i w) s = .next { s.setReg a 0 with semSince := Tab.del s.semSince i.val }) ∧
    (s.Open acc a → ¬(w = 0 ∧ owner = port.code) → exec (.semRelease acc i w) s = .next (s.bump (pgHost port.isB + 0x138) 1))

/-- A BAR2 write inside the window to a LIVE channel stores its bytes at APERTURE + offset and no other byte. A read there asks memory and
changes no byte; with the answer to its last request it returns the bytes of that moment. Where HBM does not serve, a read aborts and a
write is dropped, each counted in HP_ABORTS, and memory does not change. An access outside the window changes nothing.
(spec/16_host_ports_and_register_pages.md R382, spec/16_host_ports_and_register_pages.md R383, spec/12_hbm_health.md R288) -/
def Obligations.HostWindowAccess : Prop :=
  (∀ (s : State) (p : HostPort) (off : Nat),
    let a := s.reg (pgHost p.isB + 0x108) + off
    (∀ bytes : List Byte, s.barHit p.isB off bytes.length = true → s.barServed p.isB off bytes.length = true →
      Answers (exec (.bar2Write p off bytes) s) fun t =>
        t.hbm.read a bytes.length = bytes ∧ (∀ b, b < a ∨ a + bytes.length ≤ b → t.hbm.get b = s.hbm.get b) ∧ t.cores = s.cores ∧ t.units = s.units) ∧
    (∀ len, s.barHit p.isB off len = true → s.barServed p.isB off len = true → len ≠ 0 →
      Answers (exec (.bar2Read p off len) s) fun t => t.hbm = s.hbm ∧ t.out = s.out ∧
        ∃ key e, Tab.find? t.barReads key = some ⟨p, a, len⟩ ∧ Tab.find? t.askers key = some e ∧ e.2 ≠ 0) ∧
    (∀ len, s.barHit p.isB off len = false → exec (.bar2Read p off len) s = .next s) ∧
    (∀ bytes : List Byte, s.barHit p.isB off bytes.length = false → exec (.bar2Write p off bytes) s = .next s) ∧
    (∀ len, s.barHit p.isB off len = true → s.barServed p.isB off len = false →
      exec (.bar2Read p off len) s = .next ((s.bump (pgHost p.isB + 0x130) 1).emit (.abort p))) ∧
    (∀ bytes : List Byte, s.barHit p.isB off bytes.length = true → s.barServed p.isB off bytes.length = false →
      exec (.bar2Write p off bytes) s = .next (s.bump (pgHost p.isB + 0x130) 1))) ∧
  ∀ (s : State) (r : MemReq) (x : BarRead), r.y = 64 → Tab.find? s.barReads r.u = some x → Tab.find? s.askers r.u = some (r.epoch, 1) →
    (s.memAnswer r).out = s.out ++ [.readData x.port (leNat (s.hbm.read x.addr x.len))] ∧ (s.memAnswer r).hbm = s.hbm

/-- For a page with a header, by 8-byte writes that reach it: OWNER takes the port's own code while it is 0 and 0 from the owner, the owner's
own code again changes nothing, and while it is 0 any other code, 0 too, only counts and raises BAD_ACCESS; writing 1 to EVT_PEND bits
clears them there and in EVT_STATUS and then sends the message if the condition still holds; EVT_ENABLE and PG_CTRL are stored and then
the same; EVT_SET of one event of the page is an occurrence of it; bit 63 of ERR_CODE clears the error record, without it nothing changes.
(spec/16_host_ports_and_register_pages.md R387, spec/16_host_ports_and_register_pages.md R389, spec/16_host_ports_and_register_pages.md
R390, spec/16_host_ports_and_register_pages.md R391, spec/16_host_ports_and_register_pages.md R392) -/
def Obligations.PageHeaderWrites : Prop :=
  ∀ (s : State) (port : HostPort) (n : Nat) (w : W64), inPage (n * 0x1000) = true →
    let acc : Acc := ⟨port, 8, 0, false⟩
    let pg := n * 0x1000
    let own := s.reg (pg + 0x48) % 4
    (s.Open acc (pg + 0x48) → own = 0 → w.toNat % 4 = port.code → exec (.pgOwnerWrite acc n w) s = .next (s.setReg (pg + 0x48) port.code)) ∧
    (s.Open acc (pg + 0x48) → own = port.code → w.toNat % 4 = 0 → exec (.pgOwnerWrite acc n w) s = .next (s.setReg (pg + 0x48) 0)) ∧
    (s.Open acc (pg + 0x48) → own = port.code → w.toNat % 4 = own → exec (.pgOwnerWrite acc n w) s = .next s) ∧
    (s.Open acc (pg + 0x48) → own = 0 → w.toNat % 4 ≠ port.code → exec (.pgOwnerWrite acc n w) s = .next (s.badAccess acc)) ∧
    (s.Open acc (pg + 0x28) → exec (.evtPendClear acc n w) s = .next
      (((s.setReg (pg + 0x18) (s.reg (pg + 0x18) - Nat.land (s.reg (pg + 0x18)) (w.toNat % 2 ^ 32))).setReg (pg + 0x28)
        (s.reg (pg + 0x28) - Nat.land (s.reg (pg + 0x28)) (w.toNat % 2 ^ 32))).irqAfterWrite pg)) ∧
    (s.Open acc (pg + 0x20) → exec (.evtEnableWrite acc n w) s = .next ((s.storeReg (pg + 0x20) w.toNat (2 ^ 64 - 1)).irqAfterWrite pg)) ∧
    (s.Open acc (pg + 0x08) → exec (.pgCtrlWrite acc n w) s = .next ((s.storeReg (pg + 0x08) w.toNat (2 ^ 64 - 1)).irqAfterWrite pg)) ∧
    (∀ i, s.Open acc (pg + 0x30) → i < eventCount n → w = BitVec.ofNat 64 (2 ^ i) → exec (.evtSet acc n w) s = .next (s.event pg i)) ∧
    (s.Open acc (pg + 0x38) → w.toNat.testBit 63 = true → exec (.clr acc n w) s = .next ((s.setReg (pg + 0x38) 0).setReg (pg + 0x40) 0)) ∧
    (s.Open acc (pg + 0x38) → w.toNat.testBit 63 = false → exec (.clr acc n w) s = .next s)

/-- A write that reaches a register of the power, arbiter, monitor, HBM, slice or Yard pages that has no row of its own stores what its kind
allows and changes nothing else, but that PEAK of WC_LEASES is never less than IN_USE. A write of SAT = 1 to a counter outside the
partition pages makes it 0, one without changes nothing. A write before READY to a page that takes none is only counted; PERM_CFG while a
permute is BUSY keeps its value. A write or an acquire that ties with the other port's access acts as one alone where its port's turn has
come, and the other port then goes first at that page; else, and with both host oscillators lost, it changes nothing yet (log entry 128).
(spec/16_host_ports_and_register_pages.md R384, spec/16_host_ports_and_register_pages.md R388, spec/16_host_ports_and_register_pages.md
R396, spec/19_monitors_faults_integrity.md R443, spec/14_collectives_and_resharding.md R346, spec/07_yard_core.md Table 7.12) -/
def Obligations.PlainRegisterWrites : Prop :=
  (∀ (s : State) (acc : Acc) (a : Nat) (w : W64) (r : RegRow), regRow a = some r →
    (s.Open acc a → r.own = false → (0x1_0000 ≤ a ∧ a < 0x2_0000) ∨ (0x3_0000 ≤ a ∧ a < 0x200_0000) → windowKind a ≠ 4 → windowKind a ≠ 5 →
      let t := s.storeReg a w.toNat (accMask acc)
      ((∀ y, y < 64 → a ≠ pgCore y + 0x210) → exec (.registerWrite acc a w) s = .next t) ∧
      (∀ y, y < 64 → a = pgCore y + 0x210 → exec (.registerWrite acc a w) s = .next (t.peakAt y))) ∧
    (s.Open acc a → r.kind = .counter → a < 0x2_0000 ∨ (0x2_8000 ≤ a ∧ a < 0x202_0000) →
      (bit (maskAnd w.toNat (accMask acc)) 63 = true → exec (.counterSatClear acc a w) s = .next (s.setReg a 0)) ∧
      (bit (maskAnd w.toNat (accMask acc)) 63 = false → exec (.counterSatClear acc a w) s = .next s)) ∧
    (s.gate acc a = .drop → s.oscOut.contains 0 = false → acc.tie = false → r.own = false → a < 0x201_0000 → windowKind a ≠ 4 → windowKind a ≠ 5 →
      exec (.registerWrite acc a w) s = .next (s.bump (pgHost acc.port.isB + 0x138) 1)) ∧
    (s.Open acc 0x940 → s.flag 0x958 63 = true → exec (.registerWrite acc 0x940 w) s = .next s)) ∧
  ∀ (s : State) (acc : Acc) (w : W64), acc.tie = true →
    let alone : Acc := { acc with tie := false }
    let turn := fun (a : Nat) => s.oscOut.contains 0 = false ∧ s.tieB.contains (a / 0x1000) = acc.port.isB
    let after := fun (a : Nat) (u : State) => u.tieB.contains (a / 0x1000) = !acc.port.isB
    (∀ a, a < 0x201_0000 →
      (turn a → windowKind a ≠ 4 → windowKind a ≠ 5 →
        after a (s.tieSettled acc a) ∧ exec (.registerWrite acc a w) s = exec (.registerWrite alone a w) (s.tieSettled acc a)) ∧
      (¬turn a → exec (.registerWrite acc a w) s = .next s)) ∧
    (∀ i : Fin 32, let a := 0x200 + 8 * i.val
      (turn a → exec (.semAcquire acc i) s = exec (.semAcquire alone i) (s.tieSettled acc a)) ∧
      (¬turn a → exec (.semAcquire acc i) s = .next s))

/-- HOST_PORT_RESET frees every semaphore and page the port owned and no semaphore of the other port; all but a Function Level Reset leave the
link down. Once housekeeping has ended, with a host oscillator there, HOST_LINK_UP at a rate and a width of Table 16.1 sets UP with them;
else it changes nothing. RESIZABLE_BAR_WRITE of an exponent from 30 to 36 on a port that is up sets LOG2_SIZE and clears the bits of BASE
below the window; any other exponent changes nothing. After SEMAPHORE_TIMEOUT every owned semaphore with its EN bit set whose owner has
held it at least TMO_MS (not 0) ms is free and reads owner 0; every other semaphore has the owner it had, and HBM is unchanged.
(spec/16_host_ports_and_register_pages.md R380, spec/16_host_ports_and_register_pages.md R382, spec/16_host_ports_and_register_pages.md
R398, spec/16_host_ports_and_register_pages.md R395, spec/16_host_ports_and_register_pages.md Table 16.17) -/
def Obligations.HostPortLinks : Prop :=
  (∀ (s : State) (p : HostPort),
      (∀ k : PortReset, Answers (exec (.hostPortReset p k) s) fun t =>
        (∀ i, i < 32 → s.semOwner i = p.code → t.semOwner i = 0) ∧ (∀ i, i < 32 → s.semOwner i ≠ p.code → t.semOwner i = s.semOwner i) ∧
        (∀ n, inPage (n * 0x1000) = true → t.fld (n * 0x1000 + 0x48) 1 0 ≠ p.code) ∧
        (k = .flr → t.linkUp p.isB = s.linkUp p.isB) ∧ (k ≠ .flr → t.linkUp p.isB = false) ∧ t.hbm = s.hbm) ∧
      (∀ (speed : Fin 7) (width : Fin 17) (flit rec_ msix : Bool),
        let may := s.timeOn = true ∧ s.oscOut.contains 0 = false ∧ speed.val ≠ 0 ∧ width.val ∈ [1, 2, 4, 8, 16]
        (may → Answers (exec (.hostLinkUp p speed width flit rec_ msix) s) fun t =>
          t.fld (pgHost p.isB + 0x100) 63 54 = 512 + 64 * speed.val + 2 * width.val + (if flit then 1 else 0) ∧ t.linkUp p.isB = true ∧ t.hbm = s.hbm) ∧
        (¬may → exec (.hostLinkUp p speed width flit rec_ msix) s = .next s)) ∧
      (∀ n, s.linkUp p.isB = true → 30 ≤ n → n ≤ 36 → Answers (exec (.resizableBarWrite p n) s) fun t =>
        t.fld (pgHost p.isB + 0x110) 5 0 = n ∧ t.reg (pgHost p.isB + 0x108) = s.reg (pgHost p.isB + 0x108) / 2 ^ n * 2 ^ n ∧
        OnlyRegsOf s t fun a => a = pgHost p.isB + 0x110 ∨ a = pgHost p.isB + 0x108) ∧
      (∀ n, n < 30 ∨ 36 < n → exec (.resizableBarWrite p n) s = .next s)) ∧
  (∀ (s : State) (dt : Nat), Answers (exec (.semaphoreTimeout dt) s) fun t => t.hbm = s.hbm ∧ ∀ i, i < 32 →
      let tmo := s.fld 0x300 31 0
      let past := s.semOwner i ≠ 0 ∧ tmo ≠ 0 ∧ s.flag 0x308 i = true ∧ tmo * 1000000 ≤ (s.tick dt).now - Tab.get 0 s.semSince i
      (past → t.semOwner i = 0) ∧ (¬past → t.semOwner i = s.semOwner i))

/-- On a module that is on: below 48.0 V the input is shown and the event LOW_INPUT raised; below 46.0 V or above 60.0 V, unless already
stopped, STAGE 8 with FAULT_N, PWR_OK low and the power-loss record, in a stopped device the fault alone, and over voltage also turns the
GaN stage off. 48.0 V to 58.0 V cold-starts a module that is off; a device its input stopped takes a warm reset after READY where
AUTO_WARM is 1, stays stopped where it is 0, and cold-starts before READY; after a junction trip it stays stopped. A 6 V bus below 5.4 V
is off, with HBM lost and THERMTRIP_N held. A current over 1.05 x ILIMIT reads as that limit with the bus as measured. Inside its
threshold, or on a module that is off, each input command changes nothing. (spec/17_power_and_mastheads.md R401,
spec/17_power_and_mastheads.md R402, spec/17_power_and_mastheads.md R403, spec/17_power_and_mastheads.md R407,
spec/17_power_and_mastheads.md R408, spec/17_power_and_mastheads.md Table 17.2, spec/18_startup_and_reset.md R433,
spec/18_startup_and_reset.md R438) -/
def Obligations.PowerInput : Prop :=
  ∀ (s : State) (v : BitVec 16),
    let off := s.stage = 0
    let seen := s.setFld (pgPower 0 + 0x108) 63 48 v.toNat
    let out : State := { seen with inputOut := true }
    let back : State := { seen with inputOut := false, ganOff := false }
    let stopped := fun (t : State) => t.stage = 8 ∧ t.flag (pgBare + 0x100) 62 = true ∧ t.pwrOk = false ∧ t.powerLoss = true ∧ t.inputOut = true ∧
      t.fld (pgPower 0 + 0x108) 63 48 = v.toNat
    (¬off → v.toNat < 4800 → exec (.inputLow v) s = .next (seen.event (pgPower 0) 2)) ∧
    (off ∨ 4800 ≤ v.toNat → exec (.inputLow v) s = .next s) ∧
    (¬off → v.toNat < 4600 →
      (s.stage ≠ 8 → Answers (exec (.inputUndervolt v) s) stopped) ∧
      (s.stage = 8 → exec (.inputUndervolt v) s = .next (out.faultEv (pgPower 0) 0x0901 v.toNat 0))) ∧
    (off ∨ 4600 ≤ v.toNat → exec (.inputUndervolt v) s = .next s) ∧
    (¬off → 6000 < v.toNat →
      (s.stage ≠ 8 → Answers (exec (.inputOvervolt v) s) fun t => stopped t ∧ t.ganOff = true) ∧
      (s.stage = 8 → exec (.inputOvervolt v) s = .next { out.faultEv (pgPower 0) 0x0902 v.toNat 1 with ganOff := true })) ∧
    (off ∨ v.toNat ≤ 6000 → exec (.inputOvervolt v) s = .next s) ∧
    (4800 ≤ v.toNat → v.toNat ≤ 5800 →
      (off → Answers (exec (.inputRecovered v) s) fun t => t.stage = 1 ∧ t.resetType = 1) ∧
      (s.stage = 8 → s.inputOut = true → s.thermtrip = false →
        (s.isReady = true → s.flag (pgPower 0 + 0x100) 0 = true → Answers (exec (.inputRecovered v) s) fun t =>
          t.stage = 2 ∧ t.resetType = 3 ∧ t.pwrOk = true) ∧
        (s.isReady = true → s.flag (pgPower 0 + 0x100) 0 = false → exec (.inputRecovered v) s = .next back) ∧
        (s.isReady = false → Answers (exec (.inputRecovered v) s) fun t => t.stage = 1 ∧ t.resetType = 1)) ∧
      (s.stage = 8 → s.thermtrip = true → exec (.inputRecovered v) s = .next back)) ∧
    (v.toNat < 4800 ∨ 5800 < v.toNat → exec (.inputRecovered v) s = .next s) ∧
    (¬off → v.toNat < 5400 → Answers (exec (.busCollapse v) s) fun t =>
      t.stage = 0 ∧ t.hbm = Mem.undefinedBy (s.freeCtr + 1) ∧ t.thermtrip = s.thermtrip ∧ t.retiredA = s.retiredA ∧ t.retiredB = s.retiredB) ∧
    (off ∨ 5400 ≤ v.toNat → exec (.busCollapse v) s = .next s) ∧
    ∀ iin : BitVec 16, let lim := s.fld (pgPower 0 + 0x100) 39 30 * 21 / 2
      (¬off → lim < iin.toNat → exec (.currentLimit iin v) s =
        .next ((s.setFld (pgPower 0 + 0x108) 47 32 lim).setFld (pgPower 0 + 0x108) 15 0 v.toNat)) ∧
      (off ∨ iin.toNat ≤ lim → exec (.currentLimit iin v) s = .next s)

/-- On a module that is on, CAP_LOOP shows what the power stage measured; while the device is READY with a primary Masthead it then runs one
period, else it changes only the measurements. The loop lowers WT in proportion to the greater excess where one exists, and raises it by 8
(stopping at 0xFFFF) where both lie more than 2 % below. A junction of a die that is there at 120 °C or more, not tripped since it last
cooled, asserts THERMTRIP_N, records JUNCTION_HOT and makes a safe stop; at 90 °C or more the die counts as warm, below as cool; of a die
that is not there, or on a module that is off, nothing changes. (spec/17_power_and_mastheads.md R404, spec/17_power_and_mastheads.md R406,
spec/17_power_and_mastheads.md R408, spec/17_power_and_mastheads.md R414, spec/17_power_and_mastheads.md Table 17.5) -/
def Obligations.CapLoopAndJunctions : Prop :=
  (∀ (s : State) (dt : Nat) (x : CapSample), let u := s.tick dt; let m := u.measure dt x
    u.stage ≠ 0 →
    (m.live = true → m.primary ≠ none → exec (.capLoop dt x) s = .next (m.capLoop x)) ∧
    (m.live = false ∨ m.primary = none → Answers (exec (.capLoop dt x) s) fun t => t = m ∧
      t.reg (pgPower 0 + 0x108) = 2 ^ 48 * x.vin.toNat + 2 ^ 32 * x.iin.toNat + 2 ^ 16 * x.pin.toNat + x.busMv.toNat ∧
      (u.count (pgPower 0 + 0x128) + (u.energyRem + x.pin.toNat * 10 * dt) / 1000000000 < 2 ^ 48 - 1 →
        OnlyRegsOf u t fun a => a = pgPower 0 + 0x108 ∨ a = pgPower 0 + 0x118 ∨ a = pgPower 0 + 0x128))) ∧
  (∀ (wt lim p cap : Nat), 0 < cap → cap < p → p ≤ 2 * cap → (capStep wt lim ((p : Int) - cap, cap) (-1, 1)) = (wt * (2 * cap - p) / cap, 1)) ∧
  (∀ (wt lim p cap : Nat), 50 * p < 49 * cap → (capStep wt lim ((p : Int) - cap, cap) (-1, 1)) = (min 0xFFFF (wt + 8), 0)) ∧
  (∀ (s : State) (d : HotDie) (t : BitVec 16), let k := hotKey d; let rest := s.warmDies.filter fun x => !(x == k)
    (s.stage = 0 ∨ s.dieThere d = false → exec (.junctionHot d t) s = .next s) ∧
    (s.stage ≠ 0 → s.dieThere d = true →
      (t.toInt < 90 * 16 → exec (.junctionHot d t) s = .next { s with hotYards := s.hotYards.filter fun x => !(x == k), warmDies := rest }) ∧
      (90 * 16 ≤ t.toInt → t.toInt < 120 * 16 ∨ s.hotYards.contains k = true → exec (.junctionHot d t) s = .next { s with warmDies := rest ++ [k] }) ∧
      (120 * 16 ≤ t.toInt → s.hotYards.contains k = false → s.stage ≠ 8 → Answers (exec (.junctionHot d t) s) fun u =>
        u.stage = 8 ∧ u.pwrOk = false ∧ u.thermtrip = true ∧
        u = (({ s with thermtrip := true, hotYards := s.hotYards ++ [k], warmDies := rest ++ [k] } : State).faultEv (pgPower 0) 0x0904
          (hotInfo d + t.toNat) 4).safeStop 0x0904) ∧
      (120 * 16 ≤ t.toInt → s.hotYards.contains k = false → s.stage = 8 → exec (.junctionHot d t) s =
        .next (({ s with thermtrip := true, hotYards := s.hotYards ++ [k], warmDies := rest ++ [k] } : State).faultEv (pgPower 0) 0x0904
          (hotInfo d + t.toNat) 4))))

/-- A heartbeat of the primary refreshes the latch and counts in its SEQ; where a standby hears it on a pair, the standby counts it too and
its gap is measured; one whose latch has expired is primary no more and boots. A standby that has heard nothing for 1,000 us claims the
latch: refreshed within 1 ms it stays, the first such claim raising SHROUD_LOST; expired, the standby becomes primary (ROLE 3), the other
boots (ROLE 1), and the latch names it. A claim that failed is retried likewise. A booting Masthead that does not hold the latch becomes
standby. Unclaimed 3,000 us after its refresh in stages 3 to 8, the latch is lost: safe stop and no primary.
(spec/17_power_and_mastheads.md R410, spec/17_power_and_mastheads.md R411, spec/17_power_and_mastheads.md R412,
spec/17_power_and_mastheads.md R413, spec/17_power_and_mastheads.md R415, spec/17_power_and_mastheads.md R423) -/
def Obligations.Mastheads : Prop :=
  ∀ (s : State) (dt : Nat) (m : Fin 2), let u := s.tick dt; let b := otherMast m
    (u.latch = some m → u.role (mastOf m) = 3 → 1000000 ≤ u.latchNs → ∀ p q, exec (.heartbeat dt p q) s = .next (u.setFld (pgMast (mastOf m) + 0x100) 63 61 1)) ∧
    (u.latch = some m → u.role (mastOf m) = 3 → u.latchNs < 1000000 → exec (.heartbeat dt false false) s =
      .next (({ u with latchNs := 0 } : State).setFld (pgMast (mastOf m) + 0x110) 31 0 (u.fld (pgMast (mastOf m) + 0x110) 31 0 + 1))) ∧
    (u.latch = some m → u.role (mastOf m) = 3 → u.latchNs < 1000000 → u.role (mastOf b) = 2 → Answers (exec (.heartbeat dt true false) s) fun t =>
      t.latchNs = 0 ∧ t.beatNs = 0 ∧ t.fld (pgMast (mastOf m) + 0x110) 31 0 = (u.fld (pgMast (mastOf m) + 0x110) 31 0 + 1) % 2 ^ 32 ∧
      t.fld (pgMast (mastOf b) + 0x110) 31 0 = (u.fld (pgMast (mastOf b) + 0x110) 31 0 + 1) % 2 ^ 32 ∧ t.latch = some m ∧ t.hbm = s.hbm) ∧
    (u.latch = some m → u.role (mastOf b) = 2 → 1000000 ≤ u.beatNs → 1000000 ≤ u.latchNs → u.maintRun = [] → u.maintQueue = [] → u.maintWait = [] →
      Answers (exec (.mastheadTakeover dt) s) fun t =>
        t.latch = some b ∧ t.role (mastOf b) = 3 ∧ t.role (mastOf m) = 1 ∧ t.latchNs = 0 ∧ t.hbm = s.hbm ∧ t.images = s.images) ∧
    (u.latch = some m → u.role (mastOf b) = 2 → 1000000 ≤ u.beatNs → u.latchNs < 1000000 → u.shroudLost = false →
      exec (.mastheadTakeover dt) s = .next (({ u with shroudLost := true } : State).event (pgMast (mastOf b)) 1)) ∧
    (u.latch = some m → u.role (mastOf b) = 2 → u.shroudLost = true → 1000000 ≤ u.latchNs → u.maintRun = [] → u.maintQueue = [] → u.maintWait = [] →
      Answers (exec (.shroudClaimRetry dt) s) fun t => t.latch = some b ∧ t.role (mastOf b) = 3 ∧ t.role (mastOf m) = 1) ∧
    (u.latch ≠ none → 3 ≤ u.stage → u.stage ≤ 8 → 3000000 ≤ u.latchNs → exec (.mastheadBothLost dt) s = .next u.losesBoth) ∧
    (s.latch = some m → s.role (mastOf b) = 1 → 3 ≤ s.stage → s.stage ≤ 8 → Answers (exec (.standbyReady b) s) fun t =>
      t.role (mastOf b) = 2 ∧ t.role (mastOf m) = s.role (mastOf m) ∧ t.latch = some m ∧ t.hbm = s.hbm)

/-- A write of MA_REQ with REQ and class 4, 5 or 7 reaches the arbiter with the writer as its source; with the latch unheld or expired it is
kept until a primary is there. MA_CTRL is stored, and where WINDOW becomes 1 the queued requests are looked at. A due request of the
policy, with WINDOW 1 and a primary, reaches the arbiter; otherwise the policy asks nothing. A lane retrain that was running ends with
RESULT 1 or 2; a firmware update that failed ends with RESULT 2 and leaves both banks; one that passed, with a standby and nothing else
waiting, changes both banks and makes the standby primary. (spec/17_power_and_mastheads.md R414, spec/17_power_and_mastheads.md R417,
spec/17_power_and_mastheads.md R419, spec/17_power_and_mastheads.md R421, spec/17_power_and_mastheads.md Table 17.11) -/
def Obligations.MaintenanceRequests : Prop :=
  (∀ (s : State) (acc : Acc) (w : W64), s.Open acc (pgArb + 0x108) → bit (maskAnd w.toNat (accMask acc)) 59 = true →
    let t := s.storeReg (pgArb + 0x108) w.toNat (accMask acc)
    let held := t.latch ≠ none ∧ t.latchNs < 1000000
    let op := fun (c : Nat) => ({ cls := c, target := if c = 7 then 0 else t.fld (pgArb + 0x108) 31 0, src := acc.port.code } : MaintOp)
    let kept := fun (c : Nat) => ({ t with maintWait := t.maintWait ++ [op c] } : State)
    let cls := t.fld (pgArb + 0x108) 63 60
    (cls = 4 → exec (.laneRetrain acc w) s = .next (if held then t.maintAsk (op 4) else kept 4)) ∧
    (cls = 5 → exec (.yardRetire acc w) s = .next (if held then t.maintAsk (op 5) else kept 5)) ∧
    (cls = 7 → exec (.firmwareUpdate acc w) s = .next (if held then t.maintAsk (op 7) else kept 7))) ∧
  (∀ (s : State) (acc : Acc) (w : W64), s.Open acc (pgArb + 0x100) →
    let t := s.storeReg (pgArb + 0x100) w.toNat (accMask acc)
    (s.flag (pgArb + 0x100) 0 = true ∨ t.flag (pgArb + 0x100) 0 = false → exec (.maCtrlWrite acc w) s = .next t) ∧
    (s.flag (pgArb + 0x100) 0 = false → t.flag (pgArb + 0x100) 0 = true → exec (.maCtrlWrite acc w) s = .next (t.examineQueue [] t.maintQueue))) ∧
  (∀ (s : State) (cls : Fin 8) (g : BitVec 32),
    let may := s.primary ≠ none ∧ s.flag (pgArb + 0x100) 0 = true ∧ s.policyDue cls.val g.toNat = true
    (s.live = true → may → cls.val ≠ 1 → exec (.maintRequest cls g) s = .next (s.maintAsk { cls := cls.val, target := g.toNat, src := 0 })) ∧
    (s.live = true → may → cls.val = 1 → exec (.maintRequest cls g) s = .next (s.askMapOut g.toNat 0)) ∧
    (s.live = false ∨ ¬may → exec (.maintRequest cls g) s = .next s)) ∧
  (∀ (s : State) (dt : Nat) (g : BitVec 32) (good : Bool), let u := s.tick dt
    u.live = true → (u.maintRun.any fun m => m.cls == 4 && m.target == g.toNat) = true →
    exec (.maintOpEnd dt 4 g good) s = .next (u.endMaint 4 g.toNat (if good then 1 else 2))) ∧
  (∀ (s : State) (dt : Nat) (g : BitVec 32), let u := s.tick dt
    u.live = true → (u.maintRun.any fun m => m.cls == 7 && m.target == g.toNat) = true →
    exec (.maintOpEnd dt 7 g false) s = .next (u.endMaint 7 g.toNat 2) ∧
    (∀ m, g.toNat = 0 → u.standby = some m → u.maintQueue = [] → Answers (exec (.maintOpEnd dt 7 g true) s) fun t =>
      t.latch = some m ∧ t.role (mastOf m) = 3 ∧ t.bankA = !u.bankA ∧ t.bankB = !u.bankB ∧ t.hbm = s.hbm))

/-- Where a retirement of Yard y runs alone, with no other operation waiting, and its spare passes its test, the physical Yard behind y is on
both retired lists after it and y is backed by the spare, with REMAPPED; where the spare fails and no other is left, both are retired and
y is vacant. HITS are cleared where GLB_TIME passes a multiple of WINDOW_H hours, and only the clock moves where it passes none.
(spec/19_monitors_faults_integrity.md R455, spec/19_monitors_faults_integrity.md R456, spec/01_module_anatomy.md R27) -/
def Obligations.YardRetirement : Prop :=
  (∀ (s : State) (dt : Nat) (y : Yard) (m : MaintOp) (p old : Nat), let u := s.tick dt
    u.live = true → s.maintRun = [m] → m.cls = 5 → m.target = y.val → m.spare = some p → s.maintQueue = [] → u.physOf y.val = some old → p < 72 → old < 72 →
    Answers (exec (.retireTestDone dt y true) s) fun t =>
      t.Retired old ∧ t.physOf y.val = some p ∧ t.flag (pgGlobal + 0x400 + 8 * y.val) 30 = true ∧ ∀ q, s.Retired q → t.Retired q) ∧
  (∀ (s : State) (dt : Nat) (y : Yard) (m : MaintOp) (p old : Nat), let u := s.tick dt
    u.live = true → s.maintRun = [m] → m.cls = 5 → m.target = y.val → m.spare = some p → s.maintQueue = [] → u.physOf y.val = some old → p < 72 → old < 72 →
    ((u.retirePhys p).setMapGen (u.reg (pgGlobal + 0x3F8) + 1)).chooseSpare old = none →
    Answers (exec (.retireTestDone dt y false) s) fun t =>
      t.Retired old ∧ t.Retired p ∧ t.physOf y.val = none ∧ ∀ q, s.Retired q → t.Retired q) ∧
  (∀ (s : State) (dt : Nat), let u := s.tick dt; let w := s.fld (pgMon + 0x180) 47 32 * 3600000000000
    (s.now / w < u.now / w → Answers (exec (.hitsWindowClear dt) s) fun t => (∀ y, y < 64 → t.reg (pgMon + 0x400 + 8 * y) = (regReset (pgMon + 0x400 + 8 * y)).toNat) ∧
      (∀ a, a < pgMon + 0x400 ∨ pgMon + 0x600 ≤ a → t.reg a = u.reg a) ∧ t.hbm = s.hbm) ∧
    (¬(s.now / w < u.now / w) → exec (.hitsWindowClear dt) s = .next u))

/-- While EN is 1, FREEZE 0 and a source selected, a sample of a source other than TEMP counts one in N and its value in SUM, with MIN and MAX
kept; disabled, frozen or without a source the sample is discarded. A write of MON_CFG that keeps SOURCE and BASE at an allowed source and
has no CLR is stored; with CLR the slots return to reset. A corrected error counts in MN_CFG_CE for configuration, in the Shard
Directory's or the numerics table's own counter else; a scrub that found nothing changes nothing; an uncorrectable error in a word of
Shard Directory entry b leaves the entry not VALID with its ECC flag set, and an uncorrectable one in configuration that holds no image
only counts and raises its event. (spec/19_monitors_faults_integrity.md R447, spec/19_monitors_faults_integrity.md R448,
spec/19_monitors_faults_integrity.md R449, spec/19_monitors_faults_integrity.md R441, spec/11_stowage_and_weight_streaming.md R281,
spec/10_numerics.md R239) -/
def Obligations.MonitorsAndScrub : Prop :=
  (∀ (s : State) (n : Nat), let pg := n * 0x1000
      (∀ v : Nat, v < 2 ^ 32 → inPage pg = true → s.absent pg = false → s.stage ≠ 0 → s.flag (pg + 0x50) 31 = true → s.flag (pg + 0x50) 30 = false →
        s.monSource pg ≠ 0 → s.monSource pg ≠ 0x08 → Answers (exec (.monitorSample n v) s) fun t =>
          t.fld (pg + 0x60) 31 0 = min v (s.fld (pg + 0x60) 31 0) ∧ t.fld (pg + 0x60) 63 32 = max v (s.fld (pg + 0x60) 63 32) ∧
          (s.count (pg + 0x68) + 1 < 2 ^ 48 - 1 → s.flag (pg + 0x68) 63 = false → t.count (pg + 0x68) = s.count (pg + 0x68) + 1) ∧ t.hbm = s.hbm) ∧
      (∀ v : Int, s.flag (pg + 0x50) 31 = false ∨ s.flag (pg + 0x50) 30 = true ∨ s.monSource pg = 0 → exec (.monitorSample n v) s = .next s) ∧
      (∀ (acc : Acc) (w : W64), inPage pg = true → s.Open acc (pg + 0x50) →
        let t := s.storeReg (pg + 0x50) w.toNat (accMask acc)
        sourceOk (pg / 0x1000) (t.monSource pg) = true →
        (acts w.toNat 29 = false → t.monSource pg = s.monSource pg → t.fld (pg + 0x50) 13 8 = s.fld (pg + 0x50) 13 8 →
          exec (.monCfgWrite acc n w) s = .next t) ∧
        (acts w.toNat 29 = true → exec (.monCfgWrite acc n w) s = .next (t.clearMon pg)))) ∧
  (∀ (s : State), s.live = true →
      exec (.configScrub []) s = .next s ∧
      exec (.configScrub [(.empty, .corrected)]) s = .next (s.bump (pgMon + 0x138) 1) ∧
      exec (.configScrub [(.empty, .bad)]) s = .next ((s.bump (pgMon + 0x140) 1).event pgMon 1) ∧
      (∀ b k, exec (.configScrub [(.sd b k, .corrected)]) s = .next (s.bump (pgMon + 0x148) 1)) ∧
      (∀ e k, exec (.configScrub [(.lnt e k, .corrected)]) s = .next (s.bump (pgMon + 0x150) 1)) ∧
      (∀ b k, s.partOfJob (s.sdJob b.val) = none → Answers (exec (.configScrub [(.sd b k, .bad)]) s) fun t =>
        t.flag (sdAddr b.val) 63 = false ∧ t.flag (sdAddr b.val) 60 = true ∧ t.hbm = s.hbm))

/-- A cage that draws too much is switched off, and its port, if not DOWN, goes down with cause 1; a cage that is off, or a module that is,
changes nothing. A module inserted while off cold-starts, one that is on goes on. A FRU read returns its byte. While the register target
serves, command 0x01 with a good PEC sets the offset, 0x02 returns the register there, 0 beyond BAR0, and changes no register, and 0x03
with a good PEC stores into a plain register of the Bare page; a bad PEC, another page, or a target that does not serve changes nothing.
Outside stages 0, 8 and 9 EXTEST, INTEST and debug act as BYPASS; every other instruction is taken. (spec/20_connectors_and_mechanics.md
R460, spec/20_connectors_and_mechanics.md R461, spec/20_connectors_and_mechanics.md R464, spec/20_connectors_and_mechanics.md R465) -/
def Obligations.ConnectorsAndManagement : Prop :=
  ∀ s : State,
    (∀ p : PortId, let off : State := { s with cagesOff := s.cagesOff ++ [p.val] }
      (s.stage = 0 ∨ s.cagesOff.contains p.val = true → exec (.cageOverpower p) s = .next s) ∧
      (s.stage ≠ 0 → s.cagesOff.contains p.val = false →
        (s.portState p.val = 0 → exec (.cageOverpower p) s = .next off) ∧
        (s.portState p.val ≠ 0 → exec (.cageOverpower p) s = .next (off.portLost p.val 1)) ∧
        (s.portState p.val ≠ 0 → s.port p.val = {} → Answers (exec (.cageOverpower p) s) fun t =>
          t.portState p.val = 0 ∧ t.fld (pgPort p.val + 0x108) 58 55 = 1 ∧ t.cagesOff.contains p.val = true))) ∧
    (s.stage = 0 → Answers (exec .moduleInsert s) fun t => t.stage = 1 ∧ t.resetType = 1 ∧ t.retiredA = s.retiredA ∧ t.retiredB = s.retiredB) ∧
    (s.stage ≠ 0 → exec .moduleInsert s = .next s) ∧
    (∀ o : Fin 256, exec (.fruRead o) s = .next (s.emit (.smbus (Config.fruByte o).toNat))) ∧
    (∀ o : BitVec 32, s.smbServes = true → exec (.smbSetOffset o true) s = .next { s with smbOffset := o.toNat }) ∧
    (∀ (o : BitVec 32) (pec : Bool), s.smbServes = false ∨ pec = false → exec (.smbSetOffset o pec) s = .next s) ∧
    (s.smbServes = true → exec .smbRead s = .next (s.emit (.smbus (if s.smbOffset < 0x200_0000 then readReg s s.smbOffset else 0)))) ∧
    (s.smbServes = false → exec .smbRead s = .next s) ∧
    (∀ (o : BitVec 32) (w : W64), s.smbServes = true → o.toNat / 0x1000 = 3 →
      (o.toNat % 0x1000 ∉ [0x008, 0x020, 0x028, 0x030, 0x038, 0x048, 0x050, 0x108, 0x190] →
        exec (.smbWrite o w true) s = .next (s.storeReg o.toNat w.toNat (2 ^ 64 - 1))) ∧
      exec (.smbWrite o w true) s = .next (s.smbStore o.toNat w.toNat)) ∧
    (∀ (o : BitVec 32) (w : W64) (pec : Bool), s.smbServes = false ∨ pec = false ∨ o.toNat / 0x1000 ≠ 3 → exec (.smbWrite o w pec) s = .next s) ∧
    (∀ i : JtagOp, exec (.jtagInstruction i) s = .next { s with jtagIr :=
      if (i = .extest ∨ i = .intest ∨ i = .debug) ∧ s.stage ≠ 0 ∧ s.stage ≠ 8 ∧ s.stage ≠ 9 then .bypass else i })
end

