-- ==== Sys2Proof/Laws/Elementary.lean ====
section
/-! SUPPORT. What a free stage result can be: a value within the bound of 2 ulp, or the nearest FP32 value. -/
namespace Sys2Proof.Machine

/-- A bounded result lies within the bound or is the nearest value. -/
theorem twoUlp_cases (w : BitVec 32) (v : FVal) : (nearTwoUlp w v = true ∧ twoUlp w v = w) ∨ twoUlp w v = toF32 v := by
  unfold twoUlp
  split
  · exact .inl ⟨‹_›, rfl⟩
  · exact .inr rfl

/-- A stage function of a finite operand at which it has the value `v` gives a result bounded by `v`. -/
theorem stageFree_bounded {o : Nat} {a : BitVec 32} {v : FVal} (h : nonFinite a = false) (hv : stageReal o a = some v) :
    stageFree o a = twoUlp (Config.stageFn o a) v := by
  simp [stageFree, isNan, h, hv]

end Sys2Proof.Machine
end

