-- ==== Sys2Proof/Laws/State.lean ====
section
/-! SUPPORT. One lemma per field for each basic update of a state: what the update leaves as it was. -/
namespace Sys2Proof.Machine

@[simp] theorem State.setReg_pending (s : State) (a v : Nat) : (s.setReg a v).pending = s.pending := rfl
@[simp] theorem State.setReg_hbm (s : State) (a v : Nat) : (s.setReg a v).hbm = s.hbm := rfl
@[simp] theorem State.setReg_freeCtr (s : State) (a v : Nat) : (s.setReg a v).freeCtr = s.freeCtr := rfl
@[simp] theorem State.setReg_out (s : State) (a v : Nat) : (s.setReg a v).out = s.out := rfl
@[simp] theorem State.setReg_stageNs (s : State) (a v : Nat) : (s.setReg a v).stageNs = s.stageNs := rfl
@[simp] theorem State.setReg_timeOn (s : State) (a v : Nat) : (s.setReg a v).timeOn = s.timeOn := rfl
@[simp] theorem State.setReg_pwrOk (s : State) (a v : Nat) : (s.setReg a v).pwrOk = s.pwrOk := rfl
@[simp] theorem State.setReg_thermtrip (s : State) (a v : Nat) : (s.setReg a v).thermtrip = s.thermtrip := rfl
@[simp] theorem State.setReg_ganOff (s : State) (a v : Nat) : (s.setReg a v).ganOff = s.ganOff := rfl
@[simp] theorem State.setReg_inputOut (s : State) (a v : Nat) : (s.setReg a v).inputOut = s.inputOut := rfl
@[simp] theorem State.setReg_startReset (s : State) (a v : Nat) : (s.setReg a v).startReset = s.startReset := rfl
@[simp] theorem State.setReg_resetNs (s : State) (a v : Nat) : (s.setReg a v).resetNs = s.resetNs := rfl
@[simp] theorem State.setReg_hostMsixA (s : State) (a v : Nat) : (s.setReg a v).hostMsixA = s.hostMsixA := rfl
@[simp] theorem State.setReg_hostMsixB (s : State) (a v : Nat) : (s.setReg a v).hostMsixB = s.hostMsixB := rfl
@[simp] theorem State.setReg_semSince (s : State) (a v : Nat) : (s.setReg a v).semSince = s.semSince := rfl
@[simp] theorem State.setReg_latch (s : State) (a v : Nat) : (s.setReg a v).latch = s.latch := rfl
@[simp] theorem State.setReg_lastLatch (s : State) (a v : Nat) : (s.setReg a v).lastLatch = s.lastLatch := rfl
@[simp] theorem State.setReg_latchNs (s : State) (a v : Nat) : (s.setReg a v).latchNs = s.latchNs := rfl
@[simp] theorem State.setReg_beatNs (s : State) (a v : Nat) : (s.setReg a v).beatNs = s.beatNs := rfl
@[simp] theorem State.setReg_shroudLost (s : State) (a v : Nat) : (s.setReg a v).shroudLost = s.shroudLost := rfl
@[simp] theorem State.setReg_bankA (s : State) (a v : Nat) : (s.setReg a v).bankA = s.bankA := rfl
@[simp] theorem State.setReg_bankB (s : State) (a v : Nat) : (s.setReg a v).bankB = s.bankB := rfl
@[simp] theorem State.setReg_fwVer (s : State) (a v : Nat) : (s.setReg a v).fwVer = s.fwVer := rfl
@[simp] theorem State.setReg_retiredA (s : State) (a v : Nat) : (s.setReg a v).retiredA = s.retiredA := rfl
@[simp] theorem State.setReg_retiredB (s : State) (a v : Nat) : (s.setReg a v).retiredB = s.retiredB := rfl
@[simp] theorem State.setReg_powerLoss (s : State) (a v : Nat) : (s.setReg a v).powerLoss = s.powerLoss := rfl
@[simp] theorem State.setReg_maintRun (s : State) (a v : Nat) : (s.setReg a v).maintRun = s.maintRun := rfl
@[simp] theorem State.setReg_maintQueue (s : State) (a v : Nat) : (s.setReg a v).maintQueue = s.maintQueue := rfl
@[simp] theorem State.setReg_maintWait (s : State) (a v : Nat) : (s.setReg a v).maintWait = s.maintWait := rfl
@[simp] theorem State.setReg_energyRem (s : State) (a v : Nat) : (s.setReg a v).energyRem = s.energyRem := rfl
@[simp] theorem State.setReg_limQuietNs (s : State) (a v : Nat) : (s.setReg a v).limQuietNs = s.limQuietNs := rfl
@[simp] theorem State.setReg_limReported (s : State) (a v : Nat) : (s.setReg a v).limReported = s.limReported := rfl
@[simp] theorem State.setReg_hotYards (s : State) (a v : Nat) : (s.setReg a v).hotYards = s.hotYards := rfl
@[simp] theorem State.setReg_tieB (s : State) (a v : Nat) : (s.setReg a v).tieB = s.tieB := rfl
@[simp] theorem State.setReg_hostCfgA (s : State) (a v : Nat) : (s.setReg a v).hostCfgA = s.hostCfgA := rfl
@[simp] theorem State.setReg_hostCfgB (s : State) (a v : Nat) : (s.setReg a v).hostCfgB = s.hostCfgB := rfl
@[simp] theorem State.setReg_warmDies (s : State) (a v : Nat) : (s.setReg a v).warmDies = s.warmDies := rfl
@[simp] theorem State.setReg_tsyncGood (s : State) (a v : Nat) : (s.setReg a v).tsyncGood = s.tsyncGood := rfl
@[simp] theorem State.setReg_tsyncNs (s : State) (a v : Nat) : (s.setReg a v).tsyncNs = s.tsyncNs := rfl
@[simp] theorem State.setReg_slewLeft (s : State) (a v : Nat) : (s.setReg a v).slewLeft = s.slewLeft := rfl
@[simp] theorem State.setReg_smbOffset (s : State) (a v : Nat) : (s.setReg a v).smbOffset = s.smbOffset := rfl
@[simp] theorem State.setReg_jtagIr (s : State) (a v : Nat) : (s.setReg a v).jtagIr = s.jtagIr := rfl
@[simp] theorem State.setReg_cagesOff (s : State) (a v : Nat) : (s.setReg a v).cagesOff = s.cagesOff := rfl
@[simp] theorem State.setReg_relock (s : State) (a v : Nat) : (s.setReg a v).relock = s.relock := rfl
@[simp] theorem State.setReg_oscOut (s : State) (a v : Nat) : (s.setReg a v).oscOut = s.oscOut := rfl
@[simp] theorem State.setReg_switches (s : State) (a v : Nat) : (s.setReg a v).switches = s.switches := rfl
@[simp] theorem State.setReg_links (s : State) (a v : Nat) : (s.setReg a v).links = s.links := rfl
@[simp] theorem State.setReg_crossTok (s : State) (a v : Nat) : (s.setReg a v).crossTok = s.crossTok := rfl
@[simp] theorem State.setReg_crossRail (s : State) (a v : Nat) : (s.setReg a v).crossRail = s.crossRail := rfl
@[simp] theorem State.setReg_units (s : State) (a v : Nat) : (s.setReg a v).units = s.units := rfl
@[simp] theorem State.setReg_moved (s : State) (a v : Nat) : (s.setReg a v).moved = s.moved := rfl
@[simp] theorem State.setReg_sramEpoch (s : State) (a v : Nat) : (s.setReg a v).sramEpoch = s.sramEpoch := rfl
@[simp] theorem State.setReg_opBuf (s : State) (a v : Nat) : (s.setReg a v).opBuf = s.opBuf := rfl
@[simp] theorem State.setReg_accMem (s : State) (a v : Nat) : (s.setReg a v).accMem = s.accMem := rfl
@[simp] theorem State.setReg_tileRegs (s : State) (a v : Nat) : (s.setReg a v).tileRegs = s.tileRegs := rfl
@[simp] theorem State.setReg_yardStore (s : State) (a v : Nat) : (s.setReg a v).yardStore = s.yardStore := rfl
@[simp] theorem State.setReg_ycMem (s : State) (a v : Nat) : (s.setReg a v).ycMem = s.ycMem := rfl
@[simp] theorem State.setReg_sections (s : State) (a v : Nat) : (s.setReg a v).sections = s.sections := rfl
@[simp] theorem State.setReg_nextUid (s : State) (a v : Nat) : (s.setReg a v).nextUid = s.nextUid := rfl
@[simp] theorem State.setReg_issueQ (s : State) (a v : Nat) : (s.setReg a v).issueQ = s.issueQ := rfl
@[simp] theorem State.setReg_waiting (s : State) (a v : Nat) : (s.setReg a v).waiting = s.waiting := rfl
@[simp] theorem State.setReg_images (s : State) (a v : Nat) : (s.setReg a v).images = s.images := rfl
@[simp] theorem State.setReg_crossOwner (s : State) (a v : Nat) : (s.setReg a v).crossOwner = s.crossOwner := rfl
@[simp] theorem State.setReg_loads (s : State) (a v : Nat) : (s.setReg a v).loads = s.loads := rfl
@[simp] theorem State.setReg_stayAbsent (s : State) (a v : Nat) : (s.setReg a v).stayAbsent = s.stayAbsent := rfl
@[simp] theorem State.setReg_bothLost (s : State) (a v : Nat) : (s.setReg a v).bothLost = s.bothLost := rfl
@[simp] theorem State.setReg_cores (s : State) (a v : Nat) : (s.setReg a v).cores = s.cores := rfl
@[simp] theorem State.setReg_wc (s : State) (a v : Nat) : (s.setReg a v).wc = s.wc := rfl
@[simp] theorem State.setReg_leases (s : State) (a v : Nat) : (s.setReg a v).leases = s.leases := rfl
@[simp] theorem State.setReg_wcQ (s : State) (a v : Nat) : (s.setReg a v).wcQ = s.wcQ := rfl
@[simp] theorem State.setReg_slices (s : State) (a v : Nat) : (s.setReg a v).slices = s.slices := rfl
@[simp] theorem State.setReg_chans (s : State) (a v : Nat) : (s.setReg a v).chans = s.chans := rfl
@[simp] theorem State.setReg_askers (s : State) (a v : Nat) : (s.setReg a v).askers = s.askers := rfl
@[simp] theorem State.setReg_barReads (s : State) (a v : Nat) : (s.setReg a v).barReads = s.barReads := rfl
@[simp] theorem State.setReg_rowCe (s : State) (a v : Nat) : (s.setReg a v).rowCe = s.rowCe := rfl
@[simp] theorem State.setReg_recRepaired (s : State) (a v : Nat) : (s.setReg a v).recRepaired = s.recRepaired := rfl
@[simp] theorem State.setReg_recPermanent (s : State) (a v : Nat) : (s.setReg a v).recPermanent = s.recPermanent := rfl
@[simp] theorem State.setReg_recPending (s : State) (a v : Nat) : (s.setReg a v).recPending = s.recPending := rfl
@[simp] theorem State.setReg_recMapped (s : State) (a v : Nat) : (s.setReg a v).recMapped = s.recMapped := rfl
@[simp] theorem State.setReg_spareUsed (s : State) (a v : Nat) : (s.setReg a v).spareUsed = s.spareUsed := rfl
@[simp] theorem State.setReg_thermSince (s : State) (a v : Nat) : (s.setReg a v).thermSince = s.thermSince := rfl
@[simp] theorem State.setReg_stepHeld (s : State) (a v : Nat) : (s.setReg a v).stepHeld = s.stepHeld := rfl
@[simp] theorem State.setReg_phaseHeld (s : State) (a v : Nat) : (s.setReg a v).phaseHeld = s.phaseHeld := rfl
@[simp] theorem State.setReg_pipeTag (s : State) (a v : Nat) : (s.setReg a v).pipeTag = s.pipeTag := rfl
@[simp] theorem State.setReg_pipeEnd (s : State) (a v : Nat) : (s.setReg a v).pipeEnd = s.pipeEnd := rfl
@[simp] theorem State.setReg_spikeX (s : State) (a v : Nat) : (s.setReg a v).spikeX = s.spikeX := rfl
@[simp] theorem State.setReg_heldOnClose (s : State) (a v : Nat) : (s.setReg a v).heldOnClose = s.heldOnClose := rfl
@[simp] theorem State.setReg_phaseFrom (s : State) (a v : Nat) : (s.setReg a v).phaseFrom = s.phaseFrom := rfl
@[simp] theorem State.setReg_phaseT0 (s : State) (a v : Nat) : (s.setReg a v).phaseT0 = s.phaseT0 := rfl
@[simp] theorem State.setReg_epochs (s : State) (a v : Nat) : (s.setReg a v).epochs = s.epochs := rfl
@[simp] theorem State.setReg_phaseHeard (s : State) (a v : Nat) : (s.setReg a v).phaseHeard = s.phaseHeard := rfl
@[simp] theorem State.setReg_agrees (s : State) (a v : Nat) : (s.setReg a v).agrees = s.agrees := rfl
@[simp] theorem State.setReg_agreeDone (s : State) (a v : Nat) : (s.setReg a v).agreeDone = s.agreeDone := rfl
@[simp] theorem State.setReg_yieldAt (s : State) (a v : Nat) : (s.setReg a v).yieldAt = s.yieldAt := rfl
@[simp] theorem State.setReg_yieldWarned (s : State) (a v : Nat) : (s.setReg a v).yieldWarned = s.yieldWarned := rfl
@[simp] theorem State.setReg_buckets (s : State) (a v : Nat) : (s.setReg a v).buckets = s.buckets := rfl
@[simp] theorem State.setReg_regLive (s : State) (a v : Nat) : (s.setReg a v).regLive = s.regLive := rfl
@[simp] theorem State.setReg_regHeldAt (s : State) (a v : Nat) : (s.setReg a v).regHeldAt = s.regHeldAt := rfl
@[simp] theorem State.setReg_rings (s : State) (a v : Nat) : (s.setReg a v).rings = s.rings := rfl
@[simp] theorem State.setReg_ports (s : State) (a v : Nat) : (s.setReg a v).ports = s.ports := rfl
@[simp] theorem State.setReg_bridgeTok (s : State) (a v : Nat) : (s.setReg a v).bridgeTok = s.bridgeTok := rfl
@[simp] theorem State.setReg_packs (s : State) (a v : Nat) : (s.setReg a v).packs = s.packs := rfl
@[simp] theorem State.setReg_burstPort (s : State) (a v : Nat) : (s.setReg a v).burstPort = s.burstPort := rfl
@[simp] theorem State.setReg_inject (s : State) (a v : Nat) : (s.setReg a v).inject = s.inject := rfl
@[simp] theorem State.setReg_heldFrames (s : State) (a v : Nat) : (s.setReg a v).heldFrames = s.heldFrames := rfl
@[simp] theorem State.setReg_engines (s : State) (a v : Nat) : (s.setReg a v).engines = s.engines := rfl
@[simp] theorem State.setReg_norms (s : State) (a v : Nat) : (s.setReg a v).norms = s.norms := rfl
@[simp] theorem State.setReg_permute (s : State) (a v : Nat) : (s.setReg a v).permute = s.permute := rfl

@[simp] theorem State.setFld_pending (s : State) (a hi lo v : Nat) : (s.setFld a hi lo v).pending = s.pending := rfl
@[simp] theorem State.setFld_hbm (s : State) (a hi lo v : Nat) : (s.setFld a hi lo v).hbm = s.hbm := rfl
@[simp] theorem State.setFld_freeCtr (s : State) (a hi lo v : Nat) : (s.setFld a hi lo v).freeCtr = s.freeCtr := rfl
@[simp] theorem State.setFld_out (s : State) (a hi lo v : Nat) : (s.setFld a hi lo v).out = s.out := rfl
@[simp] theorem State.setFld_stageNs (s : State) (a hi lo v : Nat) : (s.setFld a hi lo v).stageNs = s.stageNs := rfl
@[simp] theorem State.setFld_timeOn (s : State) (a hi lo v : Nat) : (s.setFld a hi lo v).timeOn = s.timeOn := rfl
@[simp] theorem State.setFld_pwrOk (s : State) (a hi lo v : Nat) : (s.setFld a hi lo v).pwrOk = s.pwrOk := rfl
@[simp] theorem State.setFld_thermtrip (s : State) (a hi lo v : Nat) : (s.setFld a hi lo v).thermtrip = s.thermtrip := rfl
@[simp] theorem State.setFld_ganOff (s : State) (a hi lo v : Nat) : (s.setFld a hi lo v).ganOff = s.ganOff := rfl
@[simp] theorem State.setFld_inputOut (s : State) (a hi lo v : Nat) : (s.setFld a hi lo v).inputOut = s.inputOut := rfl
@[simp] theorem State.setFld_startReset (s : State) (a hi lo v : Nat) : (s.setFld a hi lo v).startReset = s.startReset := rfl
@[simp] theorem State.setFld_resetNs (s : State) (a hi lo v : Nat) : (s.setFld a hi lo v).resetNs = s.resetNs := rfl
@[simp] theorem State.setFld_hostMsixA (s : State) (a hi lo v : Nat) : (s.setFld a hi lo v).hostMsixA = s.hostMsixA := rfl
@[simp] theorem State.setFld_hostMsixB (s : State) (a hi lo v : Nat) : (s.setFld a hi lo v).hostMsixB = s.hostMsixB := rfl
@[simp] theorem State.setFld_semSince (s : State) (a hi lo v : Nat) : (s.setFld a hi lo v).semSince = s.semSince := rfl
@[simp] theorem State.setFld_latch (s : State) (a hi lo v : Nat) : (s.setFld a hi lo v).latch = s.latch := rfl
@[simp] theorem State.setFld_lastLatch (s : State) (a hi lo v : Nat) : (s.setFld a hi lo v).lastLatch = s.lastLatch := rfl
@[simp] theorem State.setFld_latchNs (s : State) (a hi lo v : Nat) : (s.setFld a hi lo v).latchNs = s.latchNs := rfl
@[simp] theorem State.setFld_beatNs (s : State) (a hi lo v : Nat) : (s.setFld a hi lo v).beatNs = s.beatNs := rfl
@[simp] theorem State.setFld_shroudLost (s : State) (a hi lo v : Nat) : (s.setFld a hi lo v).shroudLost = s.shroudLost := rfl
@[simp] theorem State.setFld_bankA (s : State) (a hi lo v : Nat) : (s.setFld a hi lo v).bankA = s.bankA := rfl
@[simp] theorem State.setFld_bankB (s : State) (a hi lo v : Nat) : (s.setFld a hi lo v).bankB = s.bankB := rfl
@[simp] theorem State.setFld_fwVer (s : State) (a hi lo v : Nat) : (s.setFld a hi lo v).fwVer = s.fwVer := rfl
@[simp] theorem State.setFld_retiredA (s : State) (a hi lo v : Nat) : (s.setFld a hi lo v).retiredA = s.retiredA := rfl
@[simp] theorem State.setFld_retiredB (s : State) (a hi lo v : Nat) : (s.setFld a hi lo v).retiredB = s.retiredB := rfl
@[simp] theorem State.setFld_powerLoss (s : State) (a hi lo v : Nat) : (s.setFld a hi lo v).powerLoss = s.powerLoss := rfl
@[simp] theorem State.setFld_maintRun (s : State) (a hi lo v : Nat) : (s.setFld a hi lo v).maintRun = s.maintRun := rfl
@[simp] theorem State.setFld_maintQueue (s : State) (a hi lo v : Nat) : (s.setFld a hi lo v).maintQueue = s.maintQueue := rfl
@[simp] theorem State.setFld_maintWait (s : State) (a hi lo v : Nat) : (s.setFld a hi lo v).maintWait = s.maintWait := rfl
@[simp] theorem State.setFld_energyRem (s : State) (a hi lo v : Nat) : (s.setFld a hi lo v).energyRem = s.energyRem := rfl
@[simp] theorem State.setFld_limQuietNs (s : State) (a hi lo v : Nat) : (s.setFld a hi lo v).limQuietNs = s.limQuietNs := rfl
@[simp] theorem State.setFld_limReported (s : State) (a hi lo v : Nat) : (s.setFld a hi lo v).limReported = s.limReported := rfl
@[simp] theorem State.setFld_hotYards (s : State) (a hi lo v : Nat) : (s.setFld a hi lo v).hotYards = s.hotYards := rfl
@[simp] theorem State.setFld_tieB (s : State) (a hi lo v : Nat) : (s.setFld a hi lo v).tieB = s.tieB := rfl
@[simp] theorem State.setFld_hostCfgA (s : State) (a hi lo v : Nat) : (s.setFld a hi lo v).hostCfgA = s.hostCfgA := rfl
@[simp] theorem State.setFld_hostCfgB (s : State) (a hi lo v : Nat) : (s.setFld a hi lo v).hostCfgB = s.hostCfgB := rfl
@[simp] theorem State.setFld_warmDies (s : State) (a hi lo v : Nat) : (s.setFld a hi lo v).warmDies = s.warmDies := rfl
@[simp] theorem State.setFld_tsyncGood (s : State) (a hi lo v : Nat) : (s.setFld a hi lo v).tsyncGood = s.tsyncGood := rfl
@[simp] theorem State.setFld_tsyncNs (s : State) (a hi lo v : Nat) : (s.setFld a hi lo v).tsyncNs = s.tsyncNs := rfl
@[simp] theorem State.setFld_slewLeft (s : State) (a hi lo v : Nat) : (s.setFld a hi lo v).slewLeft = s.slewLeft := rfl
@[simp] theorem State.setFld_smbOffset (s : State) (a hi lo v : Nat) : (s.setFld a hi lo v).smbOffset = s.smbOffset := rfl
@[simp] theorem State.setFld_jtagIr (s : State) (a hi lo v : Nat) : (s.setFld a hi lo v).jtagIr = s.jtagIr := rfl
@[simp] theorem State.setFld_cagesOff (s : State) (a hi lo v : Nat) : (s.setFld a hi lo v).cagesOff = s.cagesOff := rfl
@[simp] theorem State.setFld_relock (s : State) (a hi lo v : Nat) : (s.setFld a hi lo v).relock = s.relock := rfl
@[simp] theorem State.setFld_oscOut (s : State) (a hi lo v : Nat) : (s.setFld a hi lo v).oscOut = s.oscOut := rfl
@[simp] theorem State.setFld_switches (s : State) (a hi lo v : Nat) : (s.setFld a hi lo v).switches = s.switches := rfl
@[simp] theorem State.setFld_links (s : State) (a hi lo v : Nat) : (s.setFld a hi lo v).links = s.links := rfl
@[simp] theorem State.setFld_crossTok (s : State) (a hi lo v : Nat) : (s.setFld a hi lo v).crossTok = s.crossTok := rfl
@[simp] theorem State.setFld_crossRail (s : State) (a hi lo v : Nat) : (s.setFld a hi lo v).crossRail = s.crossRail := rfl
@[simp] theorem State.setFld_units (s : State) (a hi lo v : Nat) : (s.setFld a hi lo v).units = s.units := rfl
@[simp] theorem State.setFld_moved (s : State) (a hi lo v : Nat) : (s.setFld a hi lo v).moved = s.moved := rfl
@[simp] theorem State.setFld_sramEpoch (s : State) (a hi lo v : Nat) : (s.setFld a hi lo v).sramEpoch = s.sramEpoch := rfl
@[simp] theorem State.setFld_opBuf (s : State) (a hi lo v : Nat) : (s.setFld a hi lo v).opBuf = s.opBuf := rfl
@[simp] theorem State.setFld_accMem (s : State) (a hi lo v : Nat) : (s.setFld a hi lo v).accMem = s.accMem := rfl
@[simp] theorem State.setFld_tileRegs (s : State) (a hi lo v : Nat) : (s.setFld a hi lo v).tileRegs = s.tileRegs := rfl
@[simp] theorem State.setFld_yardStore (s : State) (a hi lo v : Nat) : (s.setFld a hi lo v).yardStore = s.yardStore := rfl
@[simp] theorem State.setFld_ycMem (s : State) (a hi lo v : Nat) : (s.setFld a hi lo v).ycMem = s.ycMem := rfl
@[simp] theorem State.setFld_sections (s : State) (a hi lo v : Nat) : (s.setFld a hi lo v).sections = s.sections := rfl
@[simp] theorem State.setFld_nextUid (s : State) (a hi lo v : Nat) : (s.setFld a hi lo v).nextUid = s.nextUid := rfl
@[simp] theorem State.setFld_issueQ (s : State) (a hi lo v : Nat) : (s.setFld a hi lo v).issueQ = s.issueQ := rfl
@[simp] theorem State.setFld_waiting (s : State) (a hi lo v : Nat) : (s.setFld a hi lo v).waiting = s.waiting := rfl
@[simp] theorem State.setFld_images (s : State) (a hi lo v : Nat) : (s.setFld a hi lo v).images = s.images := rfl
@[simp] theorem State.setFld_crossOwner (s : State) (a hi lo v : Nat) : (s.setFld a hi lo v).crossOwner = s.crossOwner := rfl
@[simp] theorem State.setFld_loads (s : State) (a hi lo v : Nat) : (s.setFld a hi lo v).loads = s.loads := rfl
@[simp] theorem State.setFld_stayAbsent (s : State) (a hi lo v : Nat) : (s.setFld a hi lo v).stayAbsent = s.stayAbsent := rfl
@[simp] theorem State.setFld_bothLost (s : State) (a hi lo v : Nat) : (s.setFld a hi lo v).bothLost = s.bothLost := rfl
@[simp] theorem State.setFld_cores (s : State) (a hi lo v : Nat) : (s.setFld a hi lo v).cores = s.cores := rfl
@[simp] theorem State.setFld_wc (s : State) (a hi lo v : Nat) : (s.setFld a hi lo v).wc = s.wc := rfl
@[simp] theorem State.setFld_leases (s : State) (a hi lo v : Nat) : (s.setFld a hi lo v).leases = s.leases := rfl
@[simp] theorem State.setFld_wcQ (s : State) (a hi lo v : Nat) : (s.setFld a hi lo v).wcQ = s.wcQ := rfl
@[simp] theorem State.setFld_slices (s : State) (a hi lo v : Nat) : (s.setFld a hi lo v).slices = s.slices := rfl
@[simp] theorem State.setFld_chans (s : State) (a hi lo v : Nat) : (s.setFld a hi lo v).chans = s.chans := rfl
@[simp] theorem State.setFld_askers (s : State) (a hi lo v : Nat) : (s.setFld a hi lo v).askers = s.askers := rfl
@[simp] theorem State.setFld_barReads (s : State) (a hi lo v : Nat) : (s.setFld a hi lo v).barReads = s.barReads := rfl
@[simp] theorem State.setFld_rowCe (s : State) (a hi lo v : Nat) : (s.setFld a hi lo v).rowCe = s.rowCe := rfl
@[simp] theorem State.setFld_recRepaired (s : State) (a hi lo v : Nat) : (s.setFld a hi lo v).recRepaired = s.recRepaired := rfl
@[simp] theorem State.setFld_recPermanent (s : State) (a hi lo v : Nat) : (s.setFld a hi lo v).recPermanent = s.recPermanent := rfl
@[simp] theorem State.setFld_recPending (s : State) (a hi lo v : Nat) : (s.setFld a hi lo v).recPending = s.recPending := rfl
@[simp] theorem State.setFld_recMapped (s : State) (a hi lo v : Nat) : (s.setFld a hi lo v).recMapped = s.recMapped := rfl
@[simp] theorem State.setFld_spareUsed (s : State) (a hi lo v : Nat) : (s.setFld a hi lo v).spareUsed = s.spareUsed := rfl
@[simp] theorem State.setFld_thermSince (s : State) (a hi lo v : Nat) : (s.setFld a hi lo v).thermSince = s.thermSince := rfl
@[simp] theorem State.setFld_stepHeld (s : State) (a hi lo v : Nat) : (s.setFld a hi lo v).stepHeld = s.stepHeld := rfl
@[simp] theorem State.setFld_phaseHeld (s : State) (a hi lo v : Nat) : (s.setFld a hi lo v).phaseHeld = s.phaseHeld := rfl
@[simp] theorem State.setFld_pipeTag (s : State) (a hi lo v : Nat) : (s.setFld a hi lo v).pipeTag = s.pipeTag := rfl
@[simp] theorem State.setFld_pipeEnd (s : State) (a hi lo v : Nat) : (s.setFld a hi lo v).pipeEnd = s.pipeEnd := rfl
@[simp] theorem State.setFld_spikeX (s : State) (a hi lo v : Nat) : (s.setFld a hi lo v).spikeX = s.spikeX := rfl
@[simp] theorem State.setFld_heldOnClose (s : State) (a hi lo v : Nat) : (s.setFld a hi lo v).heldOnClose = s.heldOnClose := rfl
@[simp] theorem State.setFld_phaseFrom (s : State) (a hi lo v : Nat) : (s.setFld a hi lo v).phaseFrom = s.phaseFrom := rfl
@[simp] theorem State.setFld_phaseT0 (s : State) (a hi lo v : Nat) : (s.setFld a hi lo v).phaseT0 = s.phaseT0 := rfl
@[simp] theorem State.setFld_epochs (s : State) (a hi lo v : Nat) : (s.setFld a hi lo v).epochs = s.epochs := rfl
@[simp] theorem State.setFld_phaseHeard (s : State) (a hi lo v : Nat) : (s.setFld a hi lo v).phaseHeard = s.phaseHeard := rfl
@[simp] theorem State.setFld_agrees (s : State) (a hi lo v : Nat) : (s.setFld a hi lo v).agrees = s.agrees := rfl
@[simp] theorem State.setFld_agreeDone (s : State) (a hi lo v : Nat) : (s.setFld a hi lo v).agreeDone = s.agreeDone := rfl
@[simp] theorem State.setFld_yieldAt (s : State) (a hi lo v : Nat) : (s.setFld a hi lo v).yieldAt = s.yieldAt := rfl
@[simp] theorem State.setFld_yieldWarned (s : State) (a hi lo v : Nat) : (s.setFld a hi lo v).yieldWarned = s.yieldWarned := rfl
@[simp] theorem State.setFld_buckets (s : State) (a hi lo v : Nat) : (s.setFld a hi lo v).buckets = s.buckets := rfl
@[simp] theorem State.setFld_regLive (s : State) (a hi lo v : Nat) : (s.setFld a hi lo v).regLive = s.regLive := rfl
@[simp] theorem State.setFld_regHeldAt (s : State) (a hi lo v : Nat) : (s.setFld a hi lo v).regHeldAt = s.regHeldAt := rfl
@[simp] theorem State.setFld_rings (s : State) (a hi lo v : Nat) : (s.setFld a hi lo v).rings = s.rings := rfl
@[simp] theorem State.setFld_ports (s : State) (a hi lo v : Nat) : (s.setFld a hi lo v).ports = s.ports := rfl
@[simp] theorem State.setFld_bridgeTok (s : State) (a hi lo v : Nat) : (s.setFld a hi lo v).bridgeTok = s.bridgeTok := rfl
@[simp] theorem State.setFld_packs (s : State) (a hi lo v : Nat) : (s.setFld a hi lo v).packs = s.packs := rfl
@[simp] theorem State.setFld_burstPort (s : State) (a hi lo v : Nat) : (s.setFld a hi lo v).burstPort = s.burstPort := rfl
@[simp] theorem State.setFld_inject (s : State) (a hi lo v : Nat) : (s.setFld a hi lo v).inject = s.inject := rfl
@[simp] theorem State.setFld_heldFrames (s : State) (a hi lo v : Nat) : (s.setFld a hi lo v).heldFrames = s.heldFrames := rfl
@[simp] theorem State.setFld_engines (s : State) (a hi lo v : Nat) : (s.setFld a hi lo v).engines = s.engines := rfl
@[simp] theorem State.setFld_norms (s : State) (a hi lo v : Nat) : (s.setFld a hi lo v).norms = s.norms := rfl
@[simp] theorem State.setFld_permute (s : State) (a hi lo v : Nat) : (s.setFld a hi lo v).permute = s.permute := rfl

@[simp] theorem State.setFlag_pending (s : State) (a i : Nat) (b : Bool) : (s.setFlag a i b).pending = s.pending := rfl
@[simp] theorem State.setFlag_hbm (s : State) (a i : Nat) (b : Bool) : (s.setFlag a i b).hbm = s.hbm := rfl
@[simp] theorem State.setFlag_freeCtr (s : State) (a i : Nat) (b : Bool) : (s.setFlag a i b).freeCtr = s.freeCtr := rfl
@[simp] theorem State.setFlag_out (s : State) (a i : Nat) (b : Bool) : (s.setFlag a i b).out = s.out := rfl
@[simp] theorem State.setFlag_stageNs (s : State) (a i : Nat) (b : Bool) : (s.setFlag a i b).stageNs = s.stageNs := rfl
@[simp] theorem State.setFlag_timeOn (s : State) (a i : Nat) (b : Bool) : (s.setFlag a i b).timeOn = s.timeOn := rfl
@[simp] theorem State.setFlag_pwrOk (s : State) (a i : Nat) (b : Bool) : (s.setFlag a i b).pwrOk = s.pwrOk := rfl
@[simp] theorem State.setFlag_thermtrip (s : State) (a i : Nat) (b : Bool) : (s.setFlag a i b).thermtrip = s.thermtrip := rfl
@[simp] theorem State.setFlag_ganOff (s : State) (a i : Nat) (b : Bool) : (s.setFlag a i b).ganOff = s.ganOff := rfl
@[simp] theorem State.setFlag_inputOut (s : State) (a i : Nat) (b : Bool) : (s.setFlag a i b).inputOut = s.inputOut := rfl
@[simp] theorem State.setFlag_startReset (s : State) (a i : Nat) (b : Bool) : (s.setFlag a i b).startReset = s.startReset := rfl
@[simp] theorem State.setFlag_resetNs (s : State) (a i : Nat) (b : Bool) : (s.setFlag a i b).resetNs = s.resetNs := rfl
@[simp] theorem State.setFlag_hostMsixA (s : State) (a i : Nat) (b : Bool) : (s.setFlag a i b).hostMsixA = s.hostMsixA := rfl
@[simp] theorem State.setFlag_hostMsixB (s : State) (a i : Nat) (b : Bool) : (s.setFlag a i b).hostMsixB = s.hostMsixB := rfl
@[simp] theorem State.setFlag_semSince (s : State) (a i : Nat) (b : Bool) : (s.setFlag a i b).semSince = s.semSince := rfl
@[simp] theorem State.setFlag_latch (s : State) (a i : Nat) (b : Bool) : (s.setFlag a i b).latch = s.latch := rfl
@[simp] theorem State.setFlag_lastLatch (s : State) (a i : Nat) (b : Bool) : (s.setFlag a i b).lastLatch = s.lastLatch := rfl
@[simp] theorem State.setFlag_latchNs (s : State) (a i : Nat) (b : Bool) : (s.setFlag a i b).latchNs = s.latchNs := rfl
@[simp] theorem State.setFlag_beatNs (s : State) (a i : Nat) (b : Bool) : (s.setFlag a i b).beatNs = s.beatNs := rfl
@[simp] theorem State.setFlag_shroudLost (s : State) (a i : Nat) (b : Bool) : (s.setFlag a i b).shroudLost = s.shroudLost := rfl
@[simp] theorem State.setFlag_bankA (s : State) (a i : Nat) (b : Bool) : (s.setFlag a i b).bankA = s.bankA := rfl
@[simp] theorem State.setFlag_bankB (s : State) (a i : Nat) (b : Bool) : (s.setFlag a i b).bankB = s.bankB := rfl
@[simp] theorem State.setFlag_fwVer (s : State) (a i : Nat) (b : Bool) : (s.setFlag a i b).fwVer = s.fwVer := rfl
@[simp] theorem State.setFlag_retiredA (s : State) (a i : Nat) (b : Bool) : (s.setFlag a i b).retiredA = s.retiredA := rfl
@[simp] theorem State.setFlag_retiredB (s : State) (a i : Nat) (b : Bool) : (s.setFlag a i b).retiredB = s.retiredB := rfl
@[simp] theorem State.setFlag_powerLoss (s : State) (a i : Nat) (b : Bool) : (s.setFlag a i b).powerLoss = s.powerLoss := rfl
@[simp] theorem State.setFlag_maintRun (s : State) (a i : Nat) (b : Bool) : (s.setFlag a i b).maintRun = s.maintRun := rfl
@[simp] theorem State.setFlag_maintQueue (s : State) (a i : Nat) (b : Bool) : (s.setFlag a i b).maintQueue = s.maintQueue := rfl
@[simp] theorem State.setFlag_maintWait (s : State) (a i : Nat) (b : Bool) : (s.setFlag a i b).maintWait = s.maintWait := rfl
@[simp] theorem State.setFlag_energyRem (s : State) (a i : Nat) (b : Bool) : (s.setFlag a i b).energyRem = s.energyRem := rfl
@[simp] theorem State.setFlag_limQuietNs (s : State) (a i : Nat) (b : Bool) : (s.setFlag a i b).limQuietNs = s.limQuietNs := rfl
@[simp] theorem State.setFlag_limReported (s : State) (a i : Nat) (b : Bool) : (s.setFlag a i b).limReported = s.limReported := rfl
@[simp] theorem State.setFlag_hotYards (s : State) (a i : Nat) (b : Bool) : (s.setFlag a i b).hotYards = s.hotYards := rfl
@[simp] theorem State.setFlag_tieB (s : State) (a i : Nat) (b : Bool) : (s.setFlag a i b).tieB = s.tieB := rfl
@[simp] theorem State.setFlag_hostCfgA (s : State) (a i : Nat) (b : Bool) : (s.setFlag a i b).hostCfgA = s.hostCfgA := rfl
@[simp] theorem State.setFlag_hostCfgB (s : State) (a i : Nat) (b : Bool) : (s.setFlag a i b).hostCfgB = s.hostCfgB := rfl
@[simp] theorem State.setFlag_warmDies (s : State) (a i : Nat) (b : Bool) : (s.setFlag a i b).warmDies = s.warmDies := rfl
@[simp] theorem State.setFlag_tsyncGood (s : State) (a i : Nat) (b : Bool) : (s.setFlag a i b).tsyncGood = s.tsyncGood := rfl
@[simp] theorem State.setFlag_tsyncNs (s : State) (a i : Nat) (b : Bool) : (s.setFlag a i b).tsyncNs = s.tsyncNs := rfl
@[simp] theorem State.setFlag_slewLeft (s : State) (a i : Nat) (b : Bool) : (s.setFlag a i b).slewLeft = s.slewLeft := rfl
@[simp] theorem State.setFlag_smbOffset (s : State) (a i : Nat) (b : Bool) : (s.setFlag a i b).smbOffset = s.smbOffset := rfl
@[simp] theorem State.setFlag_jtagIr (s : State) (a i : Nat) (b : Bool) : (s.setFlag a i b).jtagIr = s.jtagIr := rfl
@[simp] theorem State.setFlag_cagesOff (s : State) (a i : Nat) (b : Bool) : (s.setFlag a i b).cagesOff = s.cagesOff := rfl
@[simp] theorem State.setFlag_relock (s : State) (a i : Nat) (b : Bool) : (s.setFlag a i b).relock = s.relock := rfl
@[simp] theorem State.setFlag_oscOut (s : State) (a i : Nat) (b : Bool) : (s.setFlag a i b).oscOut = s.oscOut := rfl
@[simp] theorem State.setFlag_switches (s : State) (a i : Nat) (b : Bool) : (s.setFlag a i b).switches = s.switches := rfl
@[simp] theorem State.setFlag_links (s : State) (a i : Nat) (b : Bool) : (s.setFlag a i b).links = s.links := rfl
@[simp] theorem State.setFlag_crossTok (s : State) (a i : Nat) (b : Bool) : (s.setFlag a i b).crossTok = s.crossTok := rfl
@[simp] theorem State.setFlag_crossRail (s : State) (a i : Nat) (b : Bool) : (s.setFlag a i b).crossRail = s.crossRail := rfl
@[simp] theorem State.setFlag_units (s : State) (a i : Nat) (b : Bool) : (s.setFlag a i b).units = s.units := rfl
@[simp] theorem State.setFlag_moved (s : State) (a i : Nat) (b : Bool) : (s.setFlag a i b).moved = s.moved := rfl
@[simp] theorem State.setFlag_sramEpoch (s : State) (a i : Nat) (b : Bool) : (s.setFlag a i b).sramEpoch = s.sramEpoch := rfl
@[simp] theorem State.setFlag_opBuf (s : State) (a i : Nat) (b : Bool) : (s.setFlag a i b).opBuf = s.opBuf := rfl
@[simp] theorem State.setFlag_accMem (s : State) (a i : Nat) (b : Bool) : (s.setFlag a i b).accMem = s.accMem := rfl
@[simp] theorem State.setFlag_tileRegs (s : State) (a i : Nat) (b : Bool) : (s.setFlag a i b).tileRegs = s.tileRegs := rfl
@[simp] theorem State.setFlag_yardStore (s : State) (a i : Nat) (b : Bool) : (s.setFlag a i b).yardStore = s.yardStore := rfl
@[simp] theorem State.setFlag_ycMem (s : State) (a i : Nat) (b : Bool) : (s.setFlag a i b).ycMem = s.ycMem := rfl
@[simp] theorem State.setFlag_sections (s : State) (a i : Nat) (b : Bool) : (s.setFlag a i b).sections = s.sections := rfl
@[simp] theorem State.setFlag_nextUid (s : State) (a i : Nat) (b : Bool) : (s.setFlag a i b).nextUid = s.nextUid := rfl
@[simp] theorem State.setFlag_issueQ (s : State) (a i : Nat) (b : Bool) : (s.setFlag a i b).issueQ = s.issueQ := rfl
@[simp] theorem State.setFlag_waiting (s : State) (a i : Nat) (b : Bool) : (s.setFlag a i b).waiting = s.waiting := rfl
@[simp] theorem State.setFlag_images (s : State) (a i : Nat) (b : Bool) : (s.setFlag a i b).images = s.images := rfl
@[simp] theorem State.setFlag_crossOwner (s : State) (a i : Nat) (b : Bool) : (s.setFlag a i b).crossOwner = s.crossOwner := rfl
@[simp] theorem State.setFlag_loads (s : State) (a i : Nat) (b : Bool) : (s.setFlag a i b).loads = s.loads := rfl
@[simp] theorem State.setFlag_stayAbsent (s : State) (a i : Nat) (b : Bool) : (s.setFlag a i b).stayAbsent = s.stayAbsent := rfl
@[simp] theorem State.setFlag_bothLost (s : State) (a i : Nat) (b : Bool) : (s.setFlag a i b).bothLost = s.bothLost := rfl
@[simp] theorem State.setFlag_cores (s : State) (a i : Nat) (b : Bool) : (s.setFlag a i b).cores = s.cores := rfl
@[simp] theorem State.setFlag_wc (s : State) (a i : Nat) (b : Bool) : (s.setFlag a i b).wc = s.wc := rfl
@[simp] theorem State.setFlag_leases (s : State) (a i : Nat) (b : Bool) : (s.setFlag a i b).leases = s.leases := rfl
@[simp] theorem State.setFlag_wcQ (s : State) (a i : Nat) (b : Bool) : (s.setFlag a i b).wcQ = s.wcQ := rfl
@[simp] theorem State.setFlag_slices (s : State) (a i : Nat) (b : Bool) : (s.setFlag a i b).slices = s.slices := rfl
@[simp] theorem State.setFlag_chans (s : State) (a i : Nat) (b : Bool) : (s.setFlag a i b).chans = s.chans := rfl
@[simp] theorem State.setFlag_askers (s : State) (a i : Nat) (b : Bool) : (s.setFlag a i b).askers = s.askers := rfl
@[simp] theorem State.setFlag_barReads (s : State) (a i : Nat) (b : Bool) : (s.setFlag a i b).barReads = s.barReads := rfl
@[simp] theorem State.setFlag_rowCe (s : State) (a i : Nat) (b : Bool) : (s.setFlag a i b).rowCe = s.rowCe := rfl
@[simp] theorem State.setFlag_recRepaired (s : State) (a i : Nat) (b : Bool) : (s.setFlag a i b).recRepaired = s.recRepaired := rfl
@[simp] theorem State.setFlag_recPermanent (s : State) (a i : Nat) (b : Bool) : (s.setFlag a i b).recPermanent = s.recPermanent := rfl
@[simp] theorem State.setFlag_recPending (s : State) (a i : Nat) (b : Bool) : (s.setFlag a i b).recPending = s.recPending := rfl
@[simp] theorem State.setFlag_recMapped (s : State) (a i : Nat) (b : Bool) : (s.setFlag a i b).recMapped = s.recMapped := rfl
@[simp] theorem State.setFlag_spareUsed (s : State) (a i : Nat) (b : Bool) : (s.setFlag a i b).spareUsed = s.spareUsed := rfl
@[simp] theorem State.setFlag_thermSince (s : State) (a i : Nat) (b : Bool) : (s.setFlag a i b).thermSince = s.thermSince := rfl
@[simp] theorem State.setFlag_stepHeld (s : State) (a i : Nat) (b : Bool) : (s.setFlag a i b).stepHeld = s.stepHeld := rfl
@[simp] theorem State.setFlag_phaseHeld (s : State) (a i : Nat) (b : Bool) : (s.setFlag a i b).phaseHeld = s.phaseHeld := rfl
@[simp] theorem State.setFlag_pipeTag (s : State) (a i : Nat) (b : Bool) : (s.setFlag a i b).pipeTag = s.pipeTag := rfl
@[simp] theorem State.setFlag_pipeEnd (s : State) (a i : Nat) (b : Bool) : (s.setFlag a i b).pipeEnd = s.pipeEnd := rfl
@[simp] theorem State.setFlag_spikeX (s : State) (a i : Nat) (b : Bool) : (s.setFlag a i b).spikeX = s.spikeX := rfl
@[simp] theorem State.setFlag_heldOnClose (s : State) (a i : Nat) (b : Bool) : (s.setFlag a i b).heldOnClose = s.heldOnClose := rfl
@[simp] theorem State.setFlag_phaseFrom (s : State) (a i : Nat) (b : Bool) : (s.setFlag a i b).phaseFrom = s.phaseFrom := rfl
@[simp] theorem State.setFlag_phaseT0 (s : State) (a i : Nat) (b : Bool) : (s.setFlag a i b).phaseT0 = s.phaseT0 := rfl
@[simp] theorem State.setFlag_epochs (s : State) (a i : Nat) (b : Bool) : (s.setFlag a i b).epochs = s.epochs := rfl
@[simp] theorem State.setFlag_phaseHeard (s : State) (a i : Nat) (b : Bool) : (s.setFlag a i b).phaseHeard = s.phaseHeard := rfl
@[simp] theorem State.setFlag_agrees (s : State) (a i : Nat) (b : Bool) : (s.setFlag a i b).agrees = s.agrees := rfl
@[simp] theorem State.setFlag_agreeDone (s : State) (a i : Nat) (b : Bool) : (s.setFlag a i b).agreeDone = s.agreeDone := rfl
@[simp] theorem State.setFlag_yieldAt (s : State) (a i : Nat) (b : Bool) : (s.setFlag a i b).yieldAt = s.yieldAt := rfl
@[simp] theorem State.setFlag_yieldWarned (s : State) (a i : Nat) (b : Bool) : (s.setFlag a i b).yieldWarned = s.yieldWarned := rfl
@[simp] theorem State.setFlag_buckets (s : State) (a i : Nat) (b : Bool) : (s.setFlag a i b).buckets = s.buckets := rfl
@[simp] theorem State.setFlag_regLive (s : State) (a i : Nat) (b : Bool) : (s.setFlag a i b).regLive = s.regLive := rfl
@[simp] theorem State.setFlag_regHeldAt (s : State) (a i : Nat) (b : Bool) : (s.setFlag a i b).regHeldAt = s.regHeldAt := rfl
@[simp] theorem State.setFlag_rings (s : State) (a i : Nat) (b : Bool) : (s.setFlag a i b).rings = s.rings := rfl
@[simp] theorem State.setFlag_ports (s : State) (a i : Nat) (b : Bool) : (s.setFlag a i b).ports = s.ports := rfl
@[simp] theorem State.setFlag_bridgeTok (s : State) (a i : Nat) (b : Bool) : (s.setFlag a i b).bridgeTok = s.bridgeTok := rfl
@[simp] theorem State.setFlag_packs (s : State) (a i : Nat) (b : Bool) : (s.setFlag a i b).packs = s.packs := rfl
@[simp] theorem State.setFlag_burstPort (s : State) (a i : Nat) (b : Bool) : (s.setFlag a i b).burstPort = s.burstPort := rfl
@[simp] theorem State.setFlag_inject (s : State) (a i : Nat) (b : Bool) : (s.setFlag a i b).inject = s.inject := rfl
@[simp] theorem State.setFlag_heldFrames (s : State) (a i : Nat) (b : Bool) : (s.setFlag a i b).heldFrames = s.heldFrames := rfl
@[simp] theorem State.setFlag_engines (s : State) (a i : Nat) (b : Bool) : (s.setFlag a i b).engines = s.engines := rfl
@[simp] theorem State.setFlag_norms (s : State) (a i : Nat) (b : Bool) : (s.setFlag a i b).norms = s.norms := rfl
@[simp] theorem State.setFlag_permute (s : State) (a i : Nat) (b : Bool) : (s.setFlag a i b).permute = s.permute := rfl

@[simp] theorem State.resetRegs_pending (s : State) (lo hi : Nat) : (s.resetRegs lo hi).pending = s.pending := rfl
@[simp] theorem State.resetRegs_hbm (s : State) (lo hi : Nat) : (s.resetRegs lo hi).hbm = s.hbm := rfl
@[simp] theorem State.resetRegs_freeCtr (s : State) (lo hi : Nat) : (s.resetRegs lo hi).freeCtr = s.freeCtr := rfl
@[simp] theorem State.resetRegs_out (s : State) (lo hi : Nat) : (s.resetRegs lo hi).out = s.out := rfl
@[simp] theorem State.resetRegs_stageNs (s : State) (lo hi : Nat) : (s.resetRegs lo hi).stageNs = s.stageNs := rfl
@[simp] theorem State.resetRegs_timeOn (s : State) (lo hi : Nat) : (s.resetRegs lo hi).timeOn = s.timeOn := rfl
@[simp] theorem State.resetRegs_pwrOk (s : State) (lo hi : Nat) : (s.resetRegs lo hi).pwrOk = s.pwrOk := rfl
@[simp] theorem State.resetRegs_thermtrip (s : State) (lo hi : Nat) : (s.resetRegs lo hi).thermtrip = s.thermtrip := rfl
@[simp] theorem State.resetRegs_ganOff (s : State) (lo hi : Nat) : (s.resetRegs lo hi).ganOff = s.ganOff := rfl
@[simp] theorem State.resetRegs_inputOut (s : State) (lo hi : Nat) : (s.resetRegs lo hi).inputOut = s.inputOut := rfl
@[simp] theorem State.resetRegs_startReset (s : State) (lo hi : Nat) : (s.resetRegs lo hi).startReset = s.startReset := rfl
@[simp] theorem State.resetRegs_resetNs (s : State) (lo hi : Nat) : (s.resetRegs lo hi).resetNs = s.resetNs := rfl
@[simp] theorem State.resetRegs_hostMsixA (s : State) (lo hi : Nat) : (s.resetRegs lo hi).hostMsixA = s.hostMsixA := rfl
@[simp] theorem State.resetRegs_hostMsixB (s : State) (lo hi : Nat) : (s.resetRegs lo hi).hostMsixB = s.hostMsixB := rfl
@[simp] theorem State.resetRegs_semSince (s : State) (lo hi : Nat) : (s.resetRegs lo hi).semSince = s.semSince := rfl
@[simp] theorem State.resetRegs_latch (s : State) (lo hi : Nat) : (s.resetRegs lo hi).latch = s.latch := rfl
@[simp] theorem State.resetRegs_lastLatch (s : State) (lo hi : Nat) : (s.resetRegs lo hi).lastLatch = s.lastLatch := rfl
@[simp] theorem State.resetRegs_latchNs (s : State) (lo hi : Nat) : (s.resetRegs lo hi).latchNs = s.latchNs := rfl
@[simp] theorem State.resetRegs_beatNs (s : State) (lo hi : Nat) : (s.resetRegs lo hi).beatNs = s.beatNs := rfl
@[simp] theorem State.resetRegs_shroudLost (s : State) (lo hi : Nat) : (s.resetRegs lo hi).shroudLost = s.shroudLost := rfl
@[simp] theorem State.resetRegs_bankA (s : State) (lo hi : Nat) : (s.resetRegs lo hi).bankA = s.bankA := rfl
@[simp] theorem State.resetRegs_bankB (s : State) (lo hi : Nat) : (s.resetRegs lo hi).bankB = s.bankB := rfl
@[simp] theorem State.resetRegs_fwVer (s : State) (lo hi : Nat) : (s.resetRegs lo hi).fwVer = s.fwVer := rfl
@[simp] theorem State.resetRegs_retiredA (s : State) (lo hi : Nat) : (s.resetRegs lo hi).retiredA = s.retiredA := rfl
@[simp] theorem State.resetRegs_retiredB (s : State) (lo hi : Nat) : (s.resetRegs lo hi).retiredB = s.retiredB := rfl
@[simp] theorem State.resetRegs_powerLoss (s : State) (lo hi : Nat) : (s.resetRegs lo hi).powerLoss = s.powerLoss := rfl
@[simp] theorem State.resetRegs_maintRun (s : State) (lo hi : Nat) : (s.resetRegs lo hi).maintRun = s.maintRun := rfl
@[simp] theorem State.resetRegs_maintQueue (s : State) (lo hi : Nat) : (s.resetRegs lo hi).maintQueue = s.maintQueue := rfl
@[simp] theorem State.resetRegs_maintWait (s : State) (lo hi : Nat) : (s.resetRegs lo hi).maintWait = s.maintWait := rfl
@[simp] theorem State.resetRegs_energyRem (s : State) (lo hi : Nat) : (s.resetRegs lo hi).energyRem = s.energyRem := rfl
@[simp] theorem State.resetRegs_limQuietNs (s : State) (lo hi : Nat) : (s.resetRegs lo hi).limQuietNs = s.limQuietNs := rfl
@[simp] theorem State.resetRegs_limReported (s : State) (lo hi : Nat) : (s.resetRegs lo hi).limReported = s.limReported := rfl
@[simp] theorem State.resetRegs_hotYards (s : State) (lo hi : Nat) : (s.resetRegs lo hi).hotYards = s.hotYards := rfl
@[simp] theorem State.resetRegs_tieB (s : State) (lo hi : Nat) : (s.resetRegs lo hi).tieB = s.tieB := rfl
@[simp] theorem State.resetRegs_hostCfgA (s : State) (lo hi : Nat) : (s.resetRegs lo hi).hostCfgA = s.hostCfgA := rfl
@[simp] theorem State.resetRegs_hostCfgB (s : State) (lo hi : Nat) : (s.resetRegs lo hi).hostCfgB = s.hostCfgB := rfl
@[simp] theorem State.resetRegs_warmDies (s : State) (lo hi : Nat) : (s.resetRegs lo hi).warmDies = s.warmDies := rfl
@[simp] theorem State.resetRegs_tsyncGood (s : State) (lo hi : Nat) : (s.resetRegs lo hi).tsyncGood = s.tsyncGood := rfl
@[simp] theorem State.resetRegs_tsyncNs (s : State) (lo hi : Nat) : (s.resetRegs lo hi).tsyncNs = s.tsyncNs := rfl
@[simp] theorem State.resetRegs_slewLeft (s : State) (lo hi : Nat) : (s.resetRegs lo hi).slewLeft = s.slewLeft := rfl
@[simp] theorem State.resetRegs_smbOffset (s : State) (lo hi : Nat) : (s.resetRegs lo hi).smbOffset = s.smbOffset := rfl
@[simp] theorem State.resetRegs_jtagIr (s : State) (lo hi : Nat) : (s.resetRegs lo hi).jtagIr = s.jtagIr := rfl
@[simp] theorem State.resetRegs_cagesOff (s : State) (lo hi : Nat) : (s.resetRegs lo hi).cagesOff = s.cagesOff := rfl
@[simp] theorem State.resetRegs_relock (s : State) (lo hi : Nat) : (s.resetRegs lo hi).relock = s.relock := rfl
@[simp] theorem State.resetRegs_oscOut (s : State) (lo hi : Nat) : (s.resetRegs lo hi).oscOut = s.oscOut := rfl
@[simp] theorem State.resetRegs_switches (s : State) (lo hi : Nat) : (s.resetRegs lo hi).switches = s.switches := rfl
@[simp] theorem State.resetRegs_links (s : State) (lo hi : Nat) : (s.resetRegs lo hi).links = s.links := rfl
@[simp] theorem State.resetRegs_crossTok (s : State) (lo hi : Nat) : (s.resetRegs lo hi).crossTok = s.crossTok := rfl
@[simp] theorem State.resetRegs_crossRail (s : State) (lo hi : Nat) : (s.resetRegs lo hi).crossRail = s.crossRail := rfl
@[simp] theorem State.resetRegs_units (s : State) (lo hi : Nat) : (s.resetRegs lo hi).units = s.units := rfl
@[simp] theorem State.resetRegs_moved (s : State) (lo hi : Nat) : (s.resetRegs lo hi).moved = s.moved := rfl
@[simp] theorem State.resetRegs_sramEpoch (s : State) (lo hi : Nat) : (s.resetRegs lo hi).sramEpoch = s.sramEpoch := rfl
@[simp] theorem State.resetRegs_opBuf (s : State) (lo hi : Nat) : (s.resetRegs lo hi).opBuf = s.opBuf := rfl
@[simp] theorem State.resetRegs_accMem (s : State) (lo hi : Nat) : (s.resetRegs lo hi).accMem = s.accMem := rfl
@[simp] theorem State.resetRegs_tileRegs (s : State) (lo hi : Nat) : (s.resetRegs lo hi).tileRegs = s.tileRegs := rfl
@[simp] theorem State.resetRegs_yardStore (s : State) (lo hi : Nat) : (s.resetRegs lo hi).yardStore = s.yardStore := rfl
@[simp] theorem State.resetRegs_ycMem (s : State) (lo hi : Nat) : (s.resetRegs lo hi).ycMem = s.ycMem := rfl
@[simp] theorem State.resetRegs_sections (s : State) (lo hi : Nat) : (s.resetRegs lo hi).sections = s.sections := rfl
@[simp] theorem State.resetRegs_nextUid (s : State) (lo hi : Nat) : (s.resetRegs lo hi).nextUid = s.nextUid := rfl
@[simp] theorem State.resetRegs_issueQ (s : State) (lo hi : Nat) : (s.resetRegs lo hi).issueQ = s.issueQ := rfl
@[simp] theorem State.resetRegs_waiting (s : State) (lo hi : Nat) : (s.resetRegs lo hi).waiting = s.waiting := rfl
@[simp] theorem State.resetRegs_images (s : State) (lo hi : Nat) : (s.resetRegs lo hi).images = s.images := rfl
@[simp] theorem State.resetRegs_crossOwner (s : State) (lo hi : Nat) : (s.resetRegs lo hi).crossOwner = s.crossOwner := rfl
@[simp] theorem State.resetRegs_loads (s : State) (lo hi : Nat) : (s.resetRegs lo hi).loads = s.loads := rfl
@[simp] theorem State.resetRegs_stayAbsent (s : State) (lo hi : Nat) : (s.resetRegs lo hi).stayAbsent = s.stayAbsent := rfl
@[simp] theorem State.resetRegs_bothLost (s : State) (lo hi : Nat) : (s.resetRegs lo hi).bothLost = s.bothLost := rfl
@[simp] theorem State.resetRegs_cores (s : State) (lo hi : Nat) : (s.resetRegs lo hi).cores = s.cores := rfl
@[simp] theorem State.resetRegs_wc (s : State) (lo hi : Nat) : (s.resetRegs lo hi).wc = s.wc := rfl
@[simp] theorem State.resetRegs_leases (s : State) (lo hi : Nat) : (s.resetRegs lo hi).leases = s.leases := rfl
@[simp] theorem State.resetRegs_wcQ (s : State) (lo hi : Nat) : (s.resetRegs lo hi).wcQ = s.wcQ := rfl
@[simp] theorem State.resetRegs_slices (s : State) (lo hi : Nat) : (s.resetRegs lo hi).slices = s.slices := rfl
@[simp] theorem State.resetRegs_chans (s : State) (lo hi : Nat) : (s.resetRegs lo hi).chans = s.chans := rfl
@[simp] theorem State.resetRegs_askers (s : State) (lo hi : Nat) : (s.resetRegs lo hi).askers = s.askers := rfl
@[simp] theorem State.resetRegs_barReads (s : State) (lo hi : Nat) : (s.resetRegs lo hi).barReads = s.barReads := rfl
@[simp] theorem State.resetRegs_rowCe (s : State) (lo hi : Nat) : (s.resetRegs lo hi).rowCe = s.rowCe := rfl
@[simp] theorem State.resetRegs_recRepaired (s : State) (lo hi : Nat) : (s.resetRegs lo hi).recRepaired = s.recRepaired := rfl
@[simp] theorem State.resetRegs_recPermanent (s : State) (lo hi : Nat) : (s.resetRegs lo hi).recPermanent = s.recPermanent := rfl
@[simp] theorem State.resetRegs_recPending (s : State) (lo hi : Nat) : (s.resetRegs lo hi).recPending = s.recPending := rfl
@[simp] theorem State.resetRegs_recMapped (s : State) (lo hi : Nat) : (s.resetRegs lo hi).recMapped = s.recMapped := rfl
@[simp] theorem State.resetRegs_spareUsed (s : State) (lo hi : Nat) : (s.resetRegs lo hi).spareUsed = s.spareUsed := rfl
@[simp] theorem State.resetRegs_thermSince (s : State) (lo hi : Nat) : (s.resetRegs lo hi).thermSince = s.thermSince := rfl
@[simp] theorem State.resetRegs_stepHeld (s : State) (lo hi : Nat) : (s.resetRegs lo hi).stepHeld = s.stepHeld := rfl
@[simp] theorem State.resetRegs_phaseHeld (s : State) (lo hi : Nat) : (s.resetRegs lo hi).phaseHeld = s.phaseHeld := rfl
@[simp] theorem State.resetRegs_pipeTag (s : State) (lo hi : Nat) : (s.resetRegs lo hi).pipeTag = s.pipeTag := rfl
@[simp] theorem State.resetRegs_pipeEnd (s : State) (lo hi : Nat) : (s.resetRegs lo hi).pipeEnd = s.pipeEnd := rfl
@[simp] theorem State.resetRegs_spikeX (s : State) (lo hi : Nat) : (s.resetRegs lo hi).spikeX = s.spikeX := rfl
@[simp] theorem State.resetRegs_heldOnClose (s : State) (lo hi : Nat) : (s.resetRegs lo hi).heldOnClose = s.heldOnClose := rfl
@[simp] theorem State.resetRegs_phaseFrom (s : State) (lo hi : Nat) : (s.resetRegs lo hi).phaseFrom = s.phaseFrom := rfl
@[simp] theorem State.resetRegs_phaseT0 (s : State) (lo hi : Nat) : (s.resetRegs lo hi).phaseT0 = s.phaseT0 := rfl
@[simp] theorem State.resetRegs_epochs (s : State) (lo hi : Nat) : (s.resetRegs lo hi).epochs = s.epochs := rfl
@[simp] theorem State.resetRegs_phaseHeard (s : State) (lo hi : Nat) : (s.resetRegs lo hi).phaseHeard = s.phaseHeard := rfl
@[simp] theorem State.resetRegs_agrees (s : State) (lo hi : Nat) : (s.resetRegs lo hi).agrees = s.agrees := rfl
@[simp] theorem State.resetRegs_agreeDone (s : State) (lo hi : Nat) : (s.resetRegs lo hi).agreeDone = s.agreeDone := rfl
@[simp] theorem State.resetRegs_yieldAt (s : State) (lo hi : Nat) : (s.resetRegs lo hi).yieldAt = s.yieldAt := rfl
@[simp] theorem State.resetRegs_yieldWarned (s : State) (lo hi : Nat) : (s.resetRegs lo hi).yieldWarned = s.yieldWarned := rfl
@[simp] theorem State.resetRegs_buckets (s : State) (lo hi : Nat) : (s.resetRegs lo hi).buckets = s.buckets := rfl
@[simp] theorem State.resetRegs_regLive (s : State) (lo hi : Nat) : (s.resetRegs lo hi).regLive = s.regLive := rfl
@[simp] theorem State.resetRegs_regHeldAt (s : State) (lo hi : Nat) : (s.resetRegs lo hi).regHeldAt = s.regHeldAt := rfl
@[simp] theorem State.resetRegs_rings (s : State) (lo hi : Nat) : (s.resetRegs lo hi).rings = s.rings := rfl
@[simp] theorem State.resetRegs_ports (s : State) (lo hi : Nat) : (s.resetRegs lo hi).ports = s.ports := rfl
@[simp] theorem State.resetRegs_bridgeTok (s : State) (lo hi : Nat) : (s.resetRegs lo hi).bridgeTok = s.bridgeTok := rfl
@[simp] theorem State.resetRegs_packs (s : State) (lo hi : Nat) : (s.resetRegs lo hi).packs = s.packs := rfl
@[simp] theorem State.resetRegs_burstPort (s : State) (lo hi : Nat) : (s.resetRegs lo hi).burstPort = s.burstPort := rfl
@[simp] theorem State.resetRegs_inject (s : State) (lo hi : Nat) : (s.resetRegs lo hi).inject = s.inject := rfl
@[simp] theorem State.resetRegs_heldFrames (s : State) (lo hi : Nat) : (s.resetRegs lo hi).heldFrames = s.heldFrames := rfl
@[simp] theorem State.resetRegs_engines (s : State) (lo hi : Nat) : (s.resetRegs lo hi).engines = s.engines := rfl
@[simp] theorem State.resetRegs_norms (s : State) (lo hi : Nat) : (s.resetRegs lo hi).norms = s.norms := rfl
@[simp] theorem State.resetRegs_permute (s : State) (lo hi : Nat) : (s.resetRegs lo hi).permute = s.permute := rfl

@[simp] theorem State.emit_pending (s : State) (o : Out) : (s.emit o).pending = s.pending := rfl
@[simp] theorem State.emit_regs (s : State) (o : Out) : (s.emit o).regs = s.regs := rfl
@[simp] theorem State.emit_hbm (s : State) (o : Out) : (s.emit o).hbm = s.hbm := rfl
@[simp] theorem State.emit_freeCtr (s : State) (o : Out) : (s.emit o).freeCtr = s.freeCtr := rfl
@[simp] theorem State.emit_stageNs (s : State) (o : Out) : (s.emit o).stageNs = s.stageNs := rfl
@[simp] theorem State.emit_timeOn (s : State) (o : Out) : (s.emit o).timeOn = s.timeOn := rfl
@[simp] theorem State.emit_pwrOk (s : State) (o : Out) : (s.emit o).pwrOk = s.pwrOk := rfl
@[simp] theorem State.emit_thermtrip (s : State) (o : Out) : (s.emit o).thermtrip = s.thermtrip := rfl
@[simp] theorem State.emit_ganOff (s : State) (o : Out) : (s.emit o).ganOff = s.ganOff := rfl
@[simp] theorem State.emit_inputOut (s : State) (o : Out) : (s.emit o).inputOut = s.inputOut := rfl
@[simp] theorem State.emit_startReset (s : State) (o : Out) : (s.emit o).startReset = s.startReset := rfl
@[simp] theorem State.emit_resetNs (s : State) (o : Out) : (s.emit o).resetNs = s.resetNs := rfl
@[simp] theorem State.emit_hostMsixA (s : State) (o : Out) : (s.emit o).hostMsixA = s.hostMsixA := rfl
@[simp] theorem State.emit_hostMsixB (s : State) (o : Out) : (s.emit o).hostMsixB = s.hostMsixB := rfl
@[simp] theorem State.emit_semSince (s : State) (o : Out) : (s.emit o).semSince = s.semSince := rfl
@[simp] theorem State.emit_latch (s : State) (o : Out) : (s.emit o).latch = s.latch := rfl
@[simp] theorem State.emit_lastLatch (s : State) (o : Out) : (s.emit o).lastLatch = s.lastLatch := rfl
@[simp] theorem State.emit_latchNs (s : State) (o : Out) : (s.emit o).latchNs = s.latchNs := rfl
@[simp] theorem State.emit_beatNs (s : State) (o : Out) : (s.emit o).beatNs = s.beatNs := rfl
@[simp] theorem State.emit_shroudLost (s : State) (o : Out) : (s.emit o).shroudLost = s.shroudLost := rfl
@[simp] theorem State.emit_bankA (s : State) (o : Out) : (s.emit o).bankA = s.bankA := rfl
@[simp] theorem State.emit_bankB (s : State) (o : Out) : (s.emit o).bankB = s.bankB := rfl
@[simp] theorem State.emit_fwVer (s : State) (o : Out) : (s.emit o).fwVer = s.fwVer := rfl
@[simp] theorem State.emit_retiredA (s : State) (o : Out) : (s.emit o).retiredA = s.retiredA := rfl
@[simp] theorem State.emit_retiredB (s : State) (o : Out) : (s.emit o).retiredB = s.retiredB := rfl
@[simp] theorem State.emit_powerLoss (s : State) (o : Out) : (s.emit o).powerLoss = s.powerLoss := rfl
@[simp] theorem State.emit_maintRun (s : State) (o : Out) : (s.emit o).maintRun = s.maintRun := rfl
@[simp] theorem State.emit_maintQueue (s : State) (o : Out) : (s.emit o).maintQueue = s.maintQueue := rfl
@[simp] theorem State.emit_maintWait (s : State) (o : Out) : (s.emit o).maintWait = s.maintWait := rfl
@[simp] theorem State.emit_energyRem (s : State) (o : Out) : (s.emit o).energyRem = s.energyRem := rfl
@[simp] theorem State.emit_limQuietNs (s : State) (o : Out) : (s.emit o).limQuietNs = s.limQuietNs := rfl
@[simp] theorem State.emit_limReported (s : State) (o : Out) : (s.emit o).limReported = s.limReported := rfl
@[simp] theorem State.emit_hotYards (s : State) (o : Out) : (s.emit o).hotYards = s.hotYards := rfl
@[simp] theorem State.emit_tieB (s : State) (o : Out) : (s.emit o).tieB = s.tieB := rfl
@[simp] theorem State.emit_hostCfgA (s : State) (o : Out) : (s.emit o).hostCfgA = s.hostCfgA := rfl
@[simp] theorem State.emit_hostCfgB (s : State) (o : Out) : (s.emit o).hostCfgB = s.hostCfgB := rfl
@[simp] theorem State.emit_warmDies (s : State) (o : Out) : (s.emit o).warmDies = s.warmDies := rfl
@[simp] theorem State.emit_tsyncGood (s : State) (o : Out) : (s.emit o).tsyncGood = s.tsyncGood := rfl
@[simp] theorem State.emit_tsyncNs (s : State) (o : Out) : (s.emit o).tsyncNs = s.tsyncNs := rfl
@[simp] theorem State.emit_slewLeft (s : State) (o : Out) : (s.emit o).slewLeft = s.slewLeft := rfl
@[simp] theorem State.emit_smbOffset (s : State) (o : Out) : (s.emit o).smbOffset = s.smbOffset := rfl
@[simp] theorem State.emit_jtagIr (s : State) (o : Out) : (s.emit o).jtagIr = s.jtagIr := rfl
@[simp] theorem State.emit_cagesOff (s : State) (o : Out) : (s.emit o).cagesOff = s.cagesOff := rfl
@[simp] theorem State.emit_relock (s : State) (o : Out) : (s.emit o).relock = s.relock := rfl
@[simp] theorem State.emit_oscOut (s : State) (o : Out) : (s.emit o).oscOut = s.oscOut := rfl
@[simp] theorem State.emit_switches (s : State) (o : Out) : (s.emit o).switches = s.switches := rfl
@[simp] theorem State.emit_links (s : State) (o : Out) : (s.emit o).links = s.links := rfl
@[simp] theorem State.emit_crossTok (s : State) (o : Out) : (s.emit o).crossTok = s.crossTok := rfl
@[simp] theorem State.emit_crossRail (s : State) (o : Out) : (s.emit o).crossRail = s.crossRail := rfl
@[simp] theorem State.emit_units (s : State) (o : Out) : (s.emit o).units = s.units := rfl
@[simp] theorem State.emit_moved (s : State) (o : Out) : (s.emit o).moved = s.moved := rfl
@[simp] theorem State.emit_sramEpoch (s : State) (o : Out) : (s.emit o).sramEpoch = s.sramEpoch := rfl
@[simp] theorem State.emit_opBuf (s : State) (o : Out) : (s.emit o).opBuf = s.opBuf := rfl
@[simp] theorem State.emit_accMem (s : State) (o : Out) : (s.emit o).accMem = s.accMem := rfl
@[simp] theorem State.emit_tileRegs (s : State) (o : Out) : (s.emit o).tileRegs = s.tileRegs := rfl
@[simp] theorem State.emit_yardStore (s : State) (o : Out) : (s.emit o).yardStore = s.yardStore := rfl
@[simp] theorem State.emit_ycMem (s : State) (o : Out) : (s.emit o).ycMem = s.ycMem := rfl
@[simp] theorem State.emit_sections (s : State) (o : Out) : (s.emit o).sections = s.sections := rfl
@[simp] theorem State.emit_nextUid (s : State) (o : Out) : (s.emit o).nextUid = s.nextUid := rfl
@[simp] theorem State.emit_issueQ (s : State) (o : Out) : (s.emit o).issueQ = s.issueQ := rfl
@[simp] theorem State.emit_waiting (s : State) (o : Out) : (s.emit o).waiting = s.waiting := rfl
@[simp] theorem State.emit_images (s : State) (o : Out) : (s.emit o).images = s.images := rfl
@[simp] theorem State.emit_crossOwner (s : State) (o : Out) : (s.emit o).crossOwner = s.crossOwner := rfl
@[simp] theorem State.emit_loads (s : State) (o : Out) : (s.emit o).loads = s.loads := rfl
@[simp] theorem State.emit_stayAbsent (s : State) (o : Out) : (s.emit o).stayAbsent = s.stayAbsent := rfl
@[simp] theorem State.emit_bothLost (s : State) (o : Out) : (s.emit o).bothLost = s.bothLost := rfl
@[simp] theorem State.emit_cores (s : State) (o : Out) : (s.emit o).cores = s.cores := rfl
@[simp] theorem State.emit_wc (s : State) (o : Out) : (s.emit o).wc = s.wc := rfl
@[simp] theorem State.emit_leases (s : State) (o : Out) : (s.emit o).leases = s.leases := rfl
@[simp] theorem State.emit_wcQ (s : State) (o : Out) : (s.emit o).wcQ = s.wcQ := rfl
@[simp] theorem State.emit_slices (s : State) (o : Out) : (s.emit o).slices = s.slices := rfl
@[simp] theorem State.emit_chans (s : State) (o : Out) : (s.emit o).chans = s.chans := rfl
@[simp] theorem State.emit_askers (s : State) (o : Out) : (s.emit o).askers = s.askers := rfl
@[simp] theorem State.emit_barReads (s : State) (o : Out) : (s.emit o).barReads = s.barReads := rfl
@[simp] theorem State.emit_rowCe (s : State) (o : Out) : (s.emit o).rowCe = s.rowCe := rfl
@[simp] theorem State.emit_recRepaired (s : State) (o : Out) : (s.emit o).recRepaired = s.recRepaired := rfl
@[simp] theorem State.emit_recPermanent (s : State) (o : Out) : (s.emit o).recPermanent = s.recPermanent := rfl
@[simp] theorem State.emit_recPending (s : State) (o : Out) : (s.emit o).recPending = s.recPending := rfl
@[simp] theorem State.emit_recMapped (s : State) (o : Out) : (s.emit o).recMapped = s.recMapped := rfl
@[simp] theorem State.emit_spareUsed (s : State) (o : Out) : (s.emit o).spareUsed = s.spareUsed := rfl
@[simp] theorem State.emit_thermSince (s : State) (o : Out) : (s.emit o).thermSince = s.thermSince := rfl
@[simp] theorem State.emit_stepHeld (s : State) (o : Out) : (s.emit o).stepHeld = s.stepHeld := rfl
@[simp] theorem State.emit_phaseHeld (s : State) (o : Out) : (s.emit o).phaseHeld = s.phaseHeld := rfl
@[simp] theorem State.emit_pipeTag (s : State) (o : Out) : (s.emit o).pipeTag = s.pipeTag := rfl
@[simp] theorem State.emit_pipeEnd (s : State) (o : Out) : (s.emit o).pipeEnd = s.pipeEnd := rfl
@[simp] theorem State.emit_spikeX (s : State) (o : Out) : (s.emit o).spikeX = s.spikeX := rfl
@[simp] theorem State.emit_heldOnClose (s : State) (o : Out) : (s.emit o).heldOnClose = s.heldOnClose := rfl
@[simp] theorem State.emit_phaseFrom (s : State) (o : Out) : (s.emit o).phaseFrom = s.phaseFrom := rfl
@[simp] theorem State.emit_phaseT0 (s : State) (o : Out) : (s.emit o).phaseT0 = s.phaseT0 := rfl
@[simp] theorem State.emit_epochs (s : State) (o : Out) : (s.emit o).epochs = s.epochs := rfl
@[simp] theorem State.emit_phaseHeard (s : State) (o : Out) : (s.emit o).phaseHeard = s.phaseHeard := rfl
@[simp] theorem State.emit_agrees (s : State) (o : Out) : (s.emit o).agrees = s.agrees := rfl
@[simp] theorem State.emit_agreeDone (s : State) (o : Out) : (s.emit o).agreeDone = s.agreeDone := rfl
@[simp] theorem State.emit_yieldAt (s : State) (o : Out) : (s.emit o).yieldAt = s.yieldAt := rfl
@[simp] theorem State.emit_yieldWarned (s : State) (o : Out) : (s.emit o).yieldWarned = s.yieldWarned := rfl
@[simp] theorem State.emit_buckets (s : State) (o : Out) : (s.emit o).buckets = s.buckets := rfl
@[simp] theorem State.emit_regLive (s : State) (o : Out) : (s.emit o).regLive = s.regLive := rfl
@[simp] theorem State.emit_regHeldAt (s : State) (o : Out) : (s.emit o).regHeldAt = s.regHeldAt := rfl
@[simp] theorem State.emit_rings (s : State) (o : Out) : (s.emit o).rings = s.rings := rfl
@[simp] theorem State.emit_ports (s : State) (o : Out) : (s.emit o).ports = s.ports := rfl
@[simp] theorem State.emit_bridgeTok (s : State) (o : Out) : (s.emit o).bridgeTok = s.bridgeTok := rfl
@[simp] theorem State.emit_packs (s : State) (o : Out) : (s.emit o).packs = s.packs := rfl
@[simp] theorem State.emit_burstPort (s : State) (o : Out) : (s.emit o).burstPort = s.burstPort := rfl
@[simp] theorem State.emit_inject (s : State) (o : Out) : (s.emit o).inject = s.inject := rfl
@[simp] theorem State.emit_heldFrames (s : State) (o : Out) : (s.emit o).heldFrames = s.heldFrames := rfl
@[simp] theorem State.emit_engines (s : State) (o : Out) : (s.emit o).engines = s.engines := rfl
@[simp] theorem State.emit_norms (s : State) (o : Out) : (s.emit o).norms = s.norms := rfl
@[simp] theorem State.emit_permute (s : State) (o : Out) : (s.emit o).permute = s.permute := rfl

@[simp] theorem State.setUnit_pending (s : State) (y u : Nat) (x : UnitState) : (s.setUnit y u x).pending = s.pending := rfl
@[simp] theorem State.setUnit_regs (s : State) (y u : Nat) (x : UnitState) : (s.setUnit y u x).regs = s.regs := rfl
@[simp] theorem State.setUnit_hbm (s : State) (y u : Nat) (x : UnitState) : (s.setUnit y u x).hbm = s.hbm := rfl
@[simp] theorem State.setUnit_freeCtr (s : State) (y u : Nat) (x : UnitState) : (s.setUnit y u x).freeCtr = s.freeCtr := rfl
@[simp] theorem State.setUnit_out (s : State) (y u : Nat) (x : UnitState) : (s.setUnit y u x).out = s.out := rfl
@[simp] theorem State.setUnit_stageNs (s : State) (y u : Nat) (x : UnitState) : (s.setUnit y u x).stageNs = s.stageNs := rfl
@[simp] theorem State.setUnit_timeOn (s : State) (y u : Nat) (x : UnitState) : (s.setUnit y u x).timeOn = s.timeOn := rfl
@[simp] theorem State.setUnit_pwrOk (s : State) (y u : Nat) (x : UnitState) : (s.setUnit y u x).pwrOk = s.pwrOk := rfl
@[simp] theorem State.setUnit_thermtrip (s : State) (y u : Nat) (x : UnitState) : (s.setUnit y u x).thermtrip = s.thermtrip := rfl
@[simp] theorem State.setUnit_ganOff (s : State) (y u : Nat) (x : UnitState) : (s.setUnit y u x).ganOff = s.ganOff := rfl
@[simp] theorem State.setUnit_inputOut (s : State) (y u : Nat) (x : UnitState) : (s.setUnit y u x).inputOut = s.inputOut := rfl
@[simp] theorem State.setUnit_startReset (s : State) (y u : Nat) (x : UnitState) : (s.setUnit y u x).startReset = s.startReset := rfl
@[simp] theorem State.setUnit_resetNs (s : State) (y u : Nat) (x : UnitState) : (s.setUnit y u x).resetNs = s.resetNs := rfl
@[simp] theorem State.setUnit_hostMsixA (s : State) (y u : Nat) (x : UnitState) : (s.setUnit y u x).hostMsixA = s.hostMsixA := rfl
@[simp] theorem State.setUnit_hostMsixB (s : State) (y u : Nat) (x : UnitState) : (s.setUnit y u x).hostMsixB = s.hostMsixB := rfl
@[simp] theorem State.setUnit_semSince (s : State) (y u : Nat) (x : UnitState) : (s.setUnit y u x).semSince = s.semSince := rfl
@[simp] theorem State.setUnit_latch (s : State) (y u : Nat) (x : UnitState) : (s.setUnit y u x).latch = s.latch := rfl
@[simp] theorem State.setUnit_lastLatch (s : State) (y u : Nat) (x : UnitState) : (s.setUnit y u x).lastLatch = s.lastLatch := rfl
@[simp] theorem State.setUnit_latchNs (s : State) (y u : Nat) (x : UnitState) : (s.setUnit y u x).latchNs = s.latchNs := rfl
@[simp] theorem State.setUnit_beatNs (s : State) (y u : Nat) (x : UnitState) : (s.setUnit y u x).beatNs = s.beatNs := rfl
@[simp] theorem State.setUnit_shroudLost (s : State) (y u : Nat) (x : UnitState) : (s.setUnit y u x).shroudLost = s.shroudLost := rfl
@[simp] theorem State.setUnit_bankA (s : State) (y u : Nat) (x : UnitState) : (s.setUnit y u x).bankA = s.bankA := rfl
@[simp] theorem State.setUnit_bankB (s : State) (y u : Nat) (x : UnitState) : (s.setUnit y u x).bankB = s.bankB := rfl
@[simp] theorem State.setUnit_fwVer (s : State) (y u : Nat) (x : UnitState) : (s.setUnit y u x).fwVer = s.fwVer := rfl
@[simp] theorem State.setUnit_retiredA (s : State) (y u : Nat) (x : UnitState) : (s.setUnit y u x).retiredA = s.retiredA := rfl
@[simp] theorem State.setUnit_retiredB (s : State) (y u : Nat) (x : UnitState) : (s.setUnit y u x).retiredB = s.retiredB := rfl
@[simp] theorem State.setUnit_powerLoss (s : State) (y u : Nat) (x : UnitState) : (s.setUnit y u x).powerLoss = s.powerLoss := rfl
@[simp] theorem State.setUnit_maintRun (s : State) (y u : Nat) (x : UnitState) : (s.setUnit y u x).maintRun = s.maintRun := rfl
@[simp] theorem State.setUnit_maintQueue (s : State) (y u : Nat) (x : UnitState) : (s.setUnit y u x).maintQueue = s.maintQueue := rfl
@[simp] theorem State.setUnit_maintWait (s : State) (y u : Nat) (x : UnitState) : (s.setUnit y u x).maintWait = s.maintWait := rfl
@[simp] theorem State.setUnit_energyRem (s : State) (y u : Nat) (x : UnitState) : (s.setUnit y u x).energyRem = s.energyRem := rfl
@[simp] theorem State.setUnit_limQuietNs (s : State) (y u : Nat) (x : UnitState) : (s.setUnit y u x).limQuietNs = s.limQuietNs := rfl
@[simp] theorem State.setUnit_limReported (s : State) (y u : Nat) (x : UnitState) : (s.setUnit y u x).limReported = s.limReported := rfl
@[simp] theorem State.setUnit_hotYards (s : State) (y u : Nat) (x : UnitState) : (s.setUnit y u x).hotYards = s.hotYards := rfl
@[simp] theorem State.setUnit_tieB (s : State) (y u : Nat) (x : UnitState) : (s.setUnit y u x).tieB = s.tieB := rfl
@[simp] theorem State.setUnit_hostCfgA (s : State) (y u : Nat) (x : UnitState) : (s.setUnit y u x).hostCfgA = s.hostCfgA := rfl
@[simp] theorem State.setUnit_hostCfgB (s : State) (y u : Nat) (x : UnitState) : (s.setUnit y u x).hostCfgB = s.hostCfgB := rfl
@[simp] theorem State.setUnit_warmDies (s : State) (y u : Nat) (x : UnitState) : (s.setUnit y u x).warmDies = s.warmDies := rfl
@[simp] theorem State.setUnit_tsyncGood (s : State) (y u : Nat) (x : UnitState) : (s.setUnit y u x).tsyncGood = s.tsyncGood := rfl
@[simp] theorem State.setUnit_tsyncNs (s : State) (y u : Nat) (x : UnitState) : (s.setUnit y u x).tsyncNs = s.tsyncNs := rfl
@[simp] theorem State.setUnit_slewLeft (s : State) (y u : Nat) (x : UnitState) : (s.setUnit y u x).slewLeft = s.slewLeft := rfl
@[simp] theorem State.setUnit_smbOffset (s : State) (y u : Nat) (x : UnitState) : (s.setUnit y u x).smbOffset = s.smbOffset := rfl
@[simp] theorem State.setUnit_jtagIr (s : State) (y u : Nat) (x : UnitState) : (s.setUnit y u x).jtagIr = s.jtagIr := rfl
@[simp] theorem State.setUnit_cagesOff (s : State) (y u : Nat) (x : UnitState) : (s.setUnit y u x).cagesOff = s.cagesOff := rfl
@[simp] theorem State.setUnit_relock (s : State) (y u : Nat) (x : UnitState) : (s.setUnit y u x).relock = s.relock := rfl
@[simp] theorem State.setUnit_oscOut (s : State) (y u : Nat) (x : UnitState) : (s.setUnit y u x).oscOut = s.oscOut := rfl
@[simp] theorem State.setUnit_switches (s : State) (y u : Nat) (x : UnitState) : (s.setUnit y u x).switches = s.switches := rfl
@[simp] theorem State.setUnit_links (s : State) (y u : Nat) (x : UnitState) : (s.setUnit y u x).links = s.links := rfl
@[simp] theorem State.setUnit_crossTok (s : State) (y u : Nat) (x : UnitState) : (s.setUnit y u x).crossTok = s.crossTok := rfl
@[simp] theorem State.setUnit_crossRail (s : State) (y u : Nat) (x : UnitState) : (s.setUnit y u x).crossRail = s.crossRail := rfl
@[simp] theorem State.setUnit_moved (s : State) (y u : Nat) (x : UnitState) : (s.setUnit y u x).moved = s.moved := rfl
@[simp] theorem State.setUnit_sramEpoch (s : State) (y u : Nat) (x : UnitState) : (s.setUnit y u x).sramEpoch = s.sramEpoch := rfl
@[simp] theorem State.setUnit_opBuf (s : State) (y u : Nat) (x : UnitState) : (s.setUnit y u x).opBuf = s.opBuf := rfl
@[simp] theorem State.setUnit_accMem (s : State) (y u : Nat) (x : UnitState) : (s.setUnit y u x).accMem = s.accMem := rfl
@[simp] theorem State.setUnit_tileRegs (s : State) (y u : Nat) (x : UnitState) : (s.setUnit y u x).tileRegs = s.tileRegs := rfl
@[simp] theorem State.setUnit_yardStore (s : State) (y u : Nat) (x : UnitState) : (s.setUnit y u x).yardStore = s.yardStore := rfl
@[simp] theorem State.setUnit_ycMem (s : State) (y u : Nat) (x : UnitState) : (s.setUnit y u x).ycMem = s.ycMem := rfl
@[simp] theorem State.setUnit_sections (s : State) (y u : Nat) (x : UnitState) : (s.setUnit y u x).sections = s.sections := rfl
@[simp] theorem State.setUnit_nextUid (s : State) (y u : Nat) (x : UnitState) : (s.setUnit y u x).nextUid = s.nextUid := rfl
@[simp] theorem State.setUnit_issueQ (s : State) (y u : Nat) (x : UnitState) : (s.setUnit y u x).issueQ = s.issueQ := rfl
@[simp] theorem State.setUnit_waiting (s : State) (y u : Nat) (x : UnitState) : (s.setUnit y u x).waiting = s.waiting := rfl
@[simp] theorem State.setUnit_images (s : State) (y u : Nat) (x : UnitState) : (s.setUnit y u x).images = s.images := rfl
@[simp] theorem State.setUnit_crossOwner (s : State) (y u : Nat) (x : UnitState) : (s.setUnit y u x).crossOwner = s.crossOwner := rfl
@[simp] theorem State.setUnit_loads (s : State) (y u : Nat) (x : UnitState) : (s.setUnit y u x).loads = s.loads := rfl
@[simp] theorem State.setUnit_stayAbsent (s : State) (y u : Nat) (x : UnitState) : (s.setUnit y u x).stayAbsent = s.stayAbsent := rfl
@[simp] theorem State.setUnit_bothLost (s : State) (y u : Nat) (x : UnitState) : (s.setUnit y u x).bothLost = s.bothLost := rfl
@[simp] theorem State.setUnit_cores (s : State) (y u : Nat) (x : UnitState) : (s.setUnit y u x).cores = s.cores := rfl
@[simp] theorem State.setUnit_wc (s : State) (y u : Nat) (x : UnitState) : (s.setUnit y u x).wc = s.wc := rfl
@[simp] theorem State.setUnit_leases (s : State) (y u : Nat) (x : UnitState) : (s.setUnit y u x).leases = s.leases := rfl
@[simp] theorem State.setUnit_wcQ (s : State) (y u : Nat) (x : UnitState) : (s.setUnit y u x).wcQ = s.wcQ := rfl
@[simp] theorem State.setUnit_slices (s : State) (y u : Nat) (x : UnitState) : (s.setUnit y u x).slices = s.slices := rfl
@[simp] theorem State.setUnit_chans (s : State) (y u : Nat) (x : UnitState) : (s.setUnit y u x).chans = s.chans := rfl
@[simp] theorem State.setUnit_askers (s : State) (y u : Nat) (x : UnitState) : (s.setUnit y u x).askers = s.askers := rfl
@[simp] theorem State.setUnit_barReads (s : State) (y u : Nat) (x : UnitState) : (s.setUnit y u x).barReads = s.barReads := rfl
@[simp] theorem State.setUnit_rowCe (s : State) (y u : Nat) (x : UnitState) : (s.setUnit y u x).rowCe = s.rowCe := rfl
@[simp] theorem State.setUnit_recRepaired (s : State) (y u : Nat) (x : UnitState) : (s.setUnit y u x).recRepaired = s.recRepaired := rfl
@[simp] theorem State.setUnit_recPermanent (s : State) (y u : Nat) (x : UnitState) : (s.setUnit y u x).recPermanent = s.recPermanent := rfl
@[simp] theorem State.setUnit_recPending (s : State) (y u : Nat) (x : UnitState) : (s.setUnit y u x).recPending = s.recPending := rfl
@[simp] theorem State.setUnit_recMapped (s : State) (y u : Nat) (x : UnitState) : (s.setUnit y u x).recMapped = s.recMapped := rfl
@[simp] theorem State.setUnit_spareUsed (s : State) (y u : Nat) (x : UnitState) : (s.setUnit y u x).spareUsed = s.spareUsed := rfl
@[simp] theorem State.setUnit_thermSince (s : State) (y u : Nat) (x : UnitState) : (s.setUnit y u x).thermSince = s.thermSince := rfl
@[simp] theorem State.setUnit_stepHeld (s : State) (y u : Nat) (x : UnitState) : (s.setUnit y u x).stepHeld = s.stepHeld := rfl
@[simp] theorem State.setUnit_phaseHeld (s : State) (y u : Nat) (x : UnitState) : (s.setUnit y u x).phaseHeld = s.phaseHeld := rfl
@[simp] theorem State.setUnit_pipeTag (s : State) (y u : Nat) (x : UnitState) : (s.setUnit y u x).pipeTag = s.pipeTag := rfl
@[simp] theorem State.setUnit_pipeEnd (s : State) (y u : Nat) (x : UnitState) : (s.setUnit y u x).pipeEnd = s.pipeEnd := rfl
@[simp] theorem State.setUnit_spikeX (s : State) (y u : Nat) (x : UnitState) : (s.setUnit y u x).spikeX = s.spikeX := rfl
@[simp] theorem State.setUnit_heldOnClose (s : State) (y u : Nat) (x : UnitState) : (s.setUnit y u x).heldOnClose = s.heldOnClose := rfl
@[simp] theorem State.setUnit_phaseFrom (s : State) (y u : Nat) (x : UnitState) : (s.setUnit y u x).phaseFrom = s.phaseFrom := rfl
@[simp] theorem State.setUnit_phaseT0 (s : State) (y u : Nat) (x : UnitState) : (s.setUnit y u x).phaseT0 = s.phaseT0 := rfl
@[simp] theorem State.setUnit_epochs (s : State) (y u : Nat) (x : UnitState) : (s.setUnit y u x).epochs = s.epochs := rfl
@[simp] theorem State.setUnit_phaseHeard (s : State) (y u : Nat) (x : UnitState) : (s.setUnit y u x).phaseHeard = s.phaseHeard := rfl
@[simp] theorem State.setUnit_agrees (s : State) (y u : Nat) (x : UnitState) : (s.setUnit y u x).agrees = s.agrees := rfl
@[simp] theorem State.setUnit_agreeDone (s : State) (y u : Nat) (x : UnitState) : (s.setUnit y u x).agreeDone = s.agreeDone := rfl
@[simp] theorem State.setUnit_yieldAt (s : State) (y u : Nat) (x : UnitState) : (s.setUnit y u x).yieldAt = s.yieldAt := rfl
@[simp] theorem State.setUnit_yieldWarned (s : State) (y u : Nat) (x : UnitState) : (s.setUnit y u x).yieldWarned = s.yieldWarned := rfl
@[simp] theorem State.setUnit_buckets (s : State) (y u : Nat) (x : UnitState) : (s.setUnit y u x).buckets = s.buckets := rfl
@[simp] theorem State.setUnit_regLive (s : State) (y u : Nat) (x : UnitState) : (s.setUnit y u x).regLive = s.regLive := rfl
@[simp] theorem State.setUnit_regHeldAt (s : State) (y u : Nat) (x : UnitState) : (s.setUnit y u x).regHeldAt = s.regHeldAt := rfl
@[simp] theorem State.setUnit_rings (s : State) (y u : Nat) (x : UnitState) : (s.setUnit y u x).rings = s.rings := rfl
@[simp] theorem State.setUnit_ports (s : State) (y u : Nat) (x : UnitState) : (s.setUnit y u x).ports = s.ports := rfl
@[simp] theorem State.setUnit_bridgeTok (s : State) (y u : Nat) (x : UnitState) : (s.setUnit y u x).bridgeTok = s.bridgeTok := rfl
@[simp] theorem State.setUnit_packs (s : State) (y u : Nat) (x : UnitState) : (s.setUnit y u x).packs = s.packs := rfl
@[simp] theorem State.setUnit_burstPort (s : State) (y u : Nat) (x : UnitState) : (s.setUnit y u x).burstPort = s.burstPort := rfl
@[simp] theorem State.setUnit_inject (s : State) (y u : Nat) (x : UnitState) : (s.setUnit y u x).inject = s.inject := rfl
@[simp] theorem State.setUnit_heldFrames (s : State) (y u : Nat) (x : UnitState) : (s.setUnit y u x).heldFrames = s.heldFrames := rfl
@[simp] theorem State.setUnit_engines (s : State) (y u : Nat) (x : UnitState) : (s.setUnit y u x).engines = s.engines := rfl
@[simp] theorem State.setUnit_norms (s : State) (y u : Nat) (x : UnitState) : (s.setUnit y u x).norms = s.norms := rfl
@[simp] theorem State.setUnit_permute (s : State) (y u : Nat) (x : UnitState) : (s.setUnit y u x).permute = s.permute := rfl

@[simp] theorem State.setSwitch_pending (s : State) (y : Nat) (x : SwitchState) : (s.setSwitch y x).pending = s.pending := rfl
@[simp] theorem State.setSwitch_regs (s : State) (y : Nat) (x : SwitchState) : (s.setSwitch y x).regs = s.regs := rfl
@[simp] theorem State.setSwitch_hbm (s : State) (y : Nat) (x : SwitchState) : (s.setSwitch y x).hbm = s.hbm := rfl
@[simp] theorem State.setSwitch_freeCtr (s : State) (y : Nat) (x : SwitchState) : (s.setSwitch y x).freeCtr = s.freeCtr := rfl
@[simp] theorem State.setSwitch_out (s : State) (y : Nat) (x : SwitchState) : (s.setSwitch y x).out = s.out := rfl
@[simp] theorem State.setSwitch_stageNs (s : State) (y : Nat) (x : SwitchState) : (s.setSwitch y x).stageNs = s.stageNs := rfl
@[simp] theorem State.setSwitch_timeOn (s : State) (y : Nat) (x : SwitchState) : (s.setSwitch y x).timeOn = s.timeOn := rfl
@[simp] theorem State.setSwitch_pwrOk (s : State) (y : Nat) (x : SwitchState) : (s.setSwitch y x).pwrOk = s.pwrOk := rfl
@[simp] theorem State.setSwitch_thermtrip (s : State) (y : Nat) (x : SwitchState) : (s.setSwitch y x).thermtrip = s.thermtrip := rfl
@[simp] theorem State.setSwitch_ganOff (s : State) (y : Nat) (x : SwitchState) : (s.setSwitch y x).ganOff = s.ganOff := rfl
@[simp] theorem State.setSwitch_inputOut (s : State) (y : Nat) (x : SwitchState) : (s.setSwitch y x).inputOut = s.inputOut := rfl
@[simp] theorem State.setSwitch_startReset (s : State) (y : Nat) (x : SwitchState) : (s.setSwitch y x).startReset = s.startReset := rfl
@[simp] theorem State.setSwitch_resetNs (s : State) (y : Nat) (x : SwitchState) : (s.setSwitch y x).resetNs = s.resetNs := rfl
@[simp] theorem State.setSwitch_hostMsixA (s : State) (y : Nat) (x : SwitchState) : (s.setSwitch y x).hostMsixA = s.hostMsixA := rfl
@[simp] theorem State.setSwitch_hostMsixB (s : State) (y : Nat) (x : SwitchState) : (s.setSwitch y x).hostMsixB = s.hostMsixB := rfl
@[simp] theorem State.setSwitch_semSince (s : State) (y : Nat) (x : SwitchState) : (s.setSwitch y x).semSince = s.semSince := rfl
@[simp] theorem State.setSwitch_latch (s : State) (y : Nat) (x : SwitchState) : (s.setSwitch y x).latch = s.latch := rfl
@[simp] theorem State.setSwitch_lastLatch (s : State) (y : Nat) (x : SwitchState) : (s.setSwitch y x).lastLatch = s.lastLatch := rfl
@[simp] theorem State.setSwitch_latchNs (s : State) (y : Nat) (x : SwitchState) : (s.setSwitch y x).latchNs = s.latchNs := rfl
@[simp] theorem State.setSwitch_beatNs (s : State) (y : Nat) (x : SwitchState) : (s.setSwitch y x).beatNs = s.beatNs := rfl
@[simp] theorem State.setSwitch_shroudLost (s : State) (y : Nat) (x : SwitchState) : (s.setSwitch y x).shroudLost = s.shroudLost := rfl
@[simp] theorem State.setSwitch_bankA (s : State) (y : Nat) (x : SwitchState) : (s.setSwitch y x).bankA = s.bankA := rfl
@[simp] theorem State.setSwitch_bankB (s : State) (y : Nat) (x : SwitchState) : (s.setSwitch y x).bankB = s.bankB := rfl
@[simp] theorem State.setSwitch_fwVer (s : State) (y : Nat) (x : SwitchState) : (s.setSwitch y x).fwVer = s.fwVer := rfl
@[simp] theorem State.setSwitch_retiredA (s : State) (y : Nat) (x : SwitchState) : (s.setSwitch y x).retiredA = s.retiredA := rfl
@[simp] theorem State.setSwitch_retiredB (s : State) (y : Nat) (x : SwitchState) : (s.setSwitch y x).retiredB = s.retiredB := rfl
@[simp] theorem State.setSwitch_powerLoss (s : State) (y : Nat) (x : SwitchState) : (s.setSwitch y x).powerLoss = s.powerLoss := rfl
@[simp] theorem State.setSwitch_maintRun (s : State) (y : Nat) (x : SwitchState) : (s.setSwitch y x).maintRun = s.maintRun := rfl
@[simp] theorem State.setSwitch_maintQueue (s : State) (y : Nat) (x : SwitchState) : (s.setSwitch y x).maintQueue = s.maintQueue := rfl
@[simp] theorem State.setSwitch_maintWait (s : State) (y : Nat) (x : SwitchState) : (s.setSwitch y x).maintWait = s.maintWait := rfl
@[simp] theorem State.setSwitch_energyRem (s : State) (y : Nat) (x : SwitchState) : (s.setSwitch y x).energyRem = s.energyRem := rfl
@[simp] theorem State.setSwitch_limQuietNs (s : State) (y : Nat) (x : SwitchState) : (s.setSwitch y x).limQuietNs = s.limQuietNs := rfl
@[simp] theorem State.setSwitch_limReported (s : State) (y : Nat) (x : SwitchState) : (s.setSwitch y x).limReported = s.limReported := rfl
@[simp] theorem State.setSwitch_hotYards (s : State) (y : Nat) (x : SwitchState) : (s.setSwitch y x).hotYards = s.hotYards := rfl
@[simp] theorem State.setSwitch_tieB (s : State) (y : Nat) (x : SwitchState) : (s.setSwitch y x).tieB = s.tieB := rfl
@[simp] theorem State.setSwitch_hostCfgA (s : State) (y : Nat) (x : SwitchState) : (s.setSwitch y x).hostCfgA = s.hostCfgA := rfl
@[simp] theorem State.setSwitch_hostCfgB (s : State) (y : Nat) (x : SwitchState) : (s.setSwitch y x).hostCfgB = s.hostCfgB := rfl
@[simp] theorem State.setSwitch_warmDies (s : State) (y : Nat) (x : SwitchState) : (s.setSwitch y x).warmDies = s.warmDies := rfl
@[simp] theorem State.setSwitch_tsyncGood (s : State) (y : Nat) (x : SwitchState) : (s.setSwitch y x).tsyncGood = s.tsyncGood := rfl
@[simp] theorem State.setSwitch_tsyncNs (s : State) (y : Nat) (x : SwitchState) : (s.setSwitch y x).tsyncNs = s.tsyncNs := rfl
@[simp] theorem State.setSwitch_slewLeft (s : State) (y : Nat) (x : SwitchState) : (s.setSwitch y x).slewLeft = s.slewLeft := rfl
@[simp] theorem State.setSwitch_smbOffset (s : State) (y : Nat) (x : SwitchState) : (s.setSwitch y x).smbOffset = s.smbOffset := rfl
@[simp] theorem State.setSwitch_jtagIr (s : State) (y : Nat) (x : SwitchState) : (s.setSwitch y x).jtagIr = s.jtagIr := rfl
@[simp] theorem State.setSwitch_cagesOff (s : State) (y : Nat) (x : SwitchState) : (s.setSwitch y x).cagesOff = s.cagesOff := rfl
@[simp] theorem State.setSwitch_relock (s : State) (y : Nat) (x : SwitchState) : (s.setSwitch y x).relock = s.relock := rfl
@[simp] theorem State.setSwitch_oscOut (s : State) (y : Nat) (x : SwitchState) : (s.setSwitch y x).oscOut = s.oscOut := rfl
@[simp] theorem State.setSwitch_links (s : State) (y : Nat) (x : SwitchState) : (s.setSwitch y x).links = s.links := rfl
@[simp] theorem State.setSwitch_crossTok (s : State) (y : Nat) (x : SwitchState) : (s.setSwitch y x).crossTok = s.crossTok := rfl
@[simp] theorem State.setSwitch_crossRail (s : State) (y : Nat) (x : SwitchState) : (s.setSwitch y x).crossRail = s.crossRail := rfl
@[simp] theorem State.setSwitch_units (s : State) (y : Nat) (x : SwitchState) : (s.setSwitch y x).units = s.units := rfl
@[simp] theorem State.setSwitch_moved (s : State) (y : Nat) (x : SwitchState) : (s.setSwitch y x).moved = s.moved := rfl
@[simp] theorem State.setSwitch_sramEpoch (s : State) (y : Nat) (x : SwitchState) : (s.setSwitch y x).sramEpoch = s.sramEpoch := rfl
@[simp] theorem State.setSwitch_opBuf (s : State) (y : Nat) (x : SwitchState) : (s.setSwitch y x).opBuf = s.opBuf := rfl
@[simp] theorem State.setSwitch_accMem (s : State) (y : Nat) (x : SwitchState) : (s.setSwitch y x).accMem = s.accMem := rfl
@[simp] theorem State.setSwitch_tileRegs (s : State) (y : Nat) (x : SwitchState) : (s.setSwitch y x).tileRegs = s.tileRegs := rfl
@[simp] theorem State.setSwitch_yardStore (s : State) (y : Nat) (x : SwitchState) : (s.setSwitch y x).yardStore = s.yardStore := rfl
@[simp] theorem State.setSwitch_ycMem (s : State) (y : Nat) (x : SwitchState) : (s.setSwitch y x).ycMem = s.ycMem := rfl
@[simp] theorem State.setSwitch_sections (s : State) (y : Nat) (x : SwitchState) : (s.setSwitch y x).sections = s.sections := rfl
@[simp] theorem State.setSwitch_nextUid (s : State) (y : Nat) (x : SwitchState) : (s.setSwitch y x).nextUid = s.nextUid := rfl
@[simp] theorem State.setSwitch_issueQ (s : State) (y : Nat) (x : SwitchState) : (s.setSwitch y x).issueQ = s.issueQ := rfl
@[simp] theorem State.setSwitch_waiting (s : State) (y : Nat) (x : SwitchState) : (s.setSwitch y x).waiting = s.waiting := rfl
@[simp] theorem State.setSwitch_images (s : State) (y : Nat) (x : SwitchState) : (s.setSwitch y x).images = s.images := rfl
@[simp] theorem State.setSwitch_crossOwner (s : State) (y : Nat) (x : SwitchState) : (s.setSwitch y x).crossOwner = s.crossOwner := rfl
@[simp] theorem State.setSwitch_loads (s : State) (y : Nat) (x : SwitchState) : (s.setSwitch y x).loads = s.loads := rfl
@[simp] theorem State.setSwitch_stayAbsent (s : State) (y : Nat) (x : SwitchState) : (s.setSwitch y x).stayAbsent = s.stayAbsent := rfl
@[simp] theorem State.setSwitch_bothLost (s : State) (y : Nat) (x : SwitchState) : (s.setSwitch y x).bothLost = s.bothLost := rfl
@[simp] theorem State.setSwitch_cores (s : State) (y : Nat) (x : SwitchState) : (s.setSwitch y x).cores = s.cores := rfl
@[simp] theorem State.setSwitch_wc (s : State) (y : Nat) (x : SwitchState) : (s.setSwitch y x).wc = s.wc := rfl
@[simp] theorem State.setSwitch_leases (s : State) (y : Nat) (x : SwitchState) : (s.setSwitch y x).leases = s.leases := rfl
@[simp] theorem State.setSwitch_wcQ (s : State) (y : Nat) (x : SwitchState) : (s.setSwitch y x).wcQ = s.wcQ := rfl
@[simp] theorem State.setSwitch_slices (s : State) (y : Nat) (x : SwitchState) : (s.setSwitch y x).slices = s.slices := rfl
@[simp] theorem State.setSwitch_chans (s : State) (y : Nat) (x : SwitchState) : (s.setSwitch y x).chans = s.chans := rfl
@[simp] theorem State.setSwitch_askers (s : State) (y : Nat) (x : SwitchState) : (s.setSwitch y x).askers = s.askers := rfl
@[simp] theorem State.setSwitch_barReads (s : State) (y : Nat) (x : SwitchState) : (s.setSwitch y x).barReads = s.barReads := rfl
@[simp] theorem State.setSwitch_rowCe (s : State) (y : Nat) (x : SwitchState) : (s.setSwitch y x).rowCe = s.rowCe := rfl
@[simp] theorem State.setSwitch_recRepaired (s : State) (y : Nat) (x : SwitchState) : (s.setSwitch y x).recRepaired = s.recRepaired := rfl
@[simp] theorem State.setSwitch_recPermanent (s : State) (y : Nat) (x : SwitchState) : (s.setSwitch y x).recPermanent = s.recPermanent := rfl
@[simp] theorem State.setSwitch_recPending (s : State) (y : Nat) (x : SwitchState) : (s.setSwitch y x).recPending = s.recPending := rfl
@[simp] theorem State.setSwitch_recMapped (s : State) (y : Nat) (x : SwitchState) : (s.setSwitch y x).recMapped = s.recMapped := rfl
@[simp] theorem State.setSwitch_spareUsed (s : State) (y : Nat) (x : SwitchState) : (s.setSwitch y x).spareUsed = s.spareUsed := rfl
@[simp] theorem State.setSwitch_thermSince (s : State) (y : Nat) (x : SwitchState) : (s.setSwitch y x).thermSince = s.thermSince := rfl
@[simp] theorem State.setSwitch_stepHeld (s : State) (y : Nat) (x : SwitchState) : (s.setSwitch y x).stepHeld = s.stepHeld := rfl
@[simp] theorem State.setSwitch_phaseHeld (s : State) (y : Nat) (x : SwitchState) : (s.setSwitch y x).phaseHeld = s.phaseHeld := rfl
@[simp] theorem State.setSwitch_pipeTag (s : State) (y : Nat) (x : SwitchState) : (s.setSwitch y x).pipeTag = s.pipeTag := rfl
@[simp] theorem State.setSwitch_pipeEnd (s : State) (y : Nat) (x : SwitchState) : (s.setSwitch y x).pipeEnd = s.pipeEnd := rfl
@[simp] theorem State.setSwitch_spikeX (s : State) (y : Nat) (x : SwitchState) : (s.setSwitch y x).spikeX = s.spikeX := rfl
@[simp] theorem State.setSwitch_heldOnClose (s : State) (y : Nat) (x : SwitchState) : (s.setSwitch y x).heldOnClose = s.heldOnClose := rfl
@[simp] theorem State.setSwitch_phaseFrom (s : State) (y : Nat) (x : SwitchState) : (s.setSwitch y x).phaseFrom = s.phaseFrom := rfl
@[simp] theorem State.setSwitch_phaseT0 (s : State) (y : Nat) (x : SwitchState) : (s.setSwitch y x).phaseT0 = s.phaseT0 := rfl
@[simp] theorem State.setSwitch_epochs (s : State) (y : Nat) (x : SwitchState) : (s.setSwitch y x).epochs = s.epochs := rfl
@[simp] theorem State.setSwitch_phaseHeard (s : State) (y : Nat) (x : SwitchState) : (s.setSwitch y x).phaseHeard = s.phaseHeard := rfl
@[simp] theorem State.setSwitch_agrees (s : State) (y : Nat) (x : SwitchState) : (s.setSwitch y x).agrees = s.agrees := rfl
@[simp] theorem State.setSwitch_agreeDone (s : State) (y : Nat) (x : SwitchState) : (s.setSwitch y x).agreeDone = s.agreeDone := rfl
@[simp] theorem State.setSwitch_yieldAt (s : State) (y : Nat) (x : SwitchState) : (s.setSwitch y x).yieldAt = s.yieldAt := rfl
@[simp] theorem State.setSwitch_yieldWarned (s : State) (y : Nat) (x : SwitchState) : (s.setSwitch y x).yieldWarned = s.yieldWarned := rfl
@[simp] theorem State.setSwitch_buckets (s : State) (y : Nat) (x : SwitchState) : (s.setSwitch y x).buckets = s.buckets := rfl
@[simp] theorem State.setSwitch_regLive (s : State) (y : Nat) (x : SwitchState) : (s.setSwitch y x).regLive = s.regLive := rfl
@[simp] theorem State.setSwitch_regHeldAt (s : State) (y : Nat) (x : SwitchState) : (s.setSwitch y x).regHeldAt = s.regHeldAt := rfl
@[simp] theorem State.setSwitch_rings (s : State) (y : Nat) (x : SwitchState) : (s.setSwitch y x).rings = s.rings := rfl
@[simp] theorem State.setSwitch_ports (s : State) (y : Nat) (x : SwitchState) : (s.setSwitch y x).ports = s.ports := rfl
@[simp] theorem State.setSwitch_bridgeTok (s : State) (y : Nat) (x : SwitchState) : (s.setSwitch y x).bridgeTok = s.bridgeTok := rfl
@[simp] theorem State.setSwitch_packs (s : State) (y : Nat) (x : SwitchState) : (s.setSwitch y x).packs = s.packs := rfl
@[simp] theorem State.setSwitch_burstPort (s : State) (y : Nat) (x : SwitchState) : (s.setSwitch y x).burstPort = s.burstPort := rfl
@[simp] theorem State.setSwitch_inject (s : State) (y : Nat) (x : SwitchState) : (s.setSwitch y x).inject = s.inject := rfl
@[simp] theorem State.setSwitch_heldFrames (s : State) (y : Nat) (x : SwitchState) : (s.setSwitch y x).heldFrames = s.heldFrames := rfl
@[simp] theorem State.setSwitch_engines (s : State) (y : Nat) (x : SwitchState) : (s.setSwitch y x).engines = s.engines := rfl
@[simp] theorem State.setSwitch_norms (s : State) (y : Nat) (x : SwitchState) : (s.setSwitch y x).norms = s.norms := rfl
@[simp] theorem State.setSwitch_permute (s : State) (y : Nat) (x : SwitchState) : (s.setSwitch y x).permute = s.permute := rfl

@[simp] theorem State.setLink_pending (s : State) (y e : Nat) (l : HalLink) : (s.setLink y e l).pending = s.pending := rfl
@[simp] theorem State.setLink_regs (s : State) (y e : Nat) (l : HalLink) : (s.setLink y e l).regs = s.regs := rfl
@[simp] theorem State.setLink_hbm (s : State) (y e : Nat) (l : HalLink) : (s.setLink y e l).hbm = s.hbm := rfl
@[simp] theorem State.setLink_freeCtr (s : State) (y e : Nat) (l : HalLink) : (s.setLink y e l).freeCtr = s.freeCtr := rfl
@[simp] theorem State.setLink_out (s : State) (y e : Nat) (l : HalLink) : (s.setLink y e l).out = s.out := rfl
@[simp] theorem State.setLink_stageNs (s : State) (y e : Nat) (l : HalLink) : (s.setLink y e l).stageNs = s.stageNs := rfl
@[simp] theorem State.setLink_timeOn (s : State) (y e : Nat) (l : HalLink) : (s.setLink y e l).timeOn = s.timeOn := rfl
@[simp] theorem State.setLink_pwrOk (s : State) (y e : Nat) (l : HalLink) : (s.setLink y e l).pwrOk = s.pwrOk := rfl
@[simp] theorem State.setLink_thermtrip (s : State) (y e : Nat) (l : HalLink) : (s.setLink y e l).thermtrip = s.thermtrip := rfl
@[simp] theorem State.setLink_ganOff (s : State) (y e : Nat) (l : HalLink) : (s.setLink y e l).ganOff = s.ganOff := rfl
@[simp] theorem State.setLink_inputOut (s : State) (y e : Nat) (l : HalLink) : (s.setLink y e l).inputOut = s.inputOut := rfl
@[simp] theorem State.setLink_startReset (s : State) (y e : Nat) (l : HalLink) : (s.setLink y e l).startReset = s.startReset := rfl
@[simp] theorem State.setLink_resetNs (s : State) (y e : Nat) (l : HalLink) : (s.setLink y e l).resetNs = s.resetNs := rfl
@[simp] theorem State.setLink_hostMsixA (s : State) (y e : Nat) (l : HalLink) : (s.setLink y e l).hostMsixA = s.hostMsixA := rfl
@[simp] theorem State.setLink_hostMsixB (s : State) (y e : Nat) (l : HalLink) : (s.setLink y e l).hostMsixB = s.hostMsixB := rfl
@[simp] theorem State.setLink_semSince (s : State) (y e : Nat) (l : HalLink) : (s.setLink y e l).semSince = s.semSince := rfl
@[simp] theorem State.setLink_latch (s : State) (y e : Nat) (l : HalLink) : (s.setLink y e l).latch = s.latch := rfl
@[simp] theorem State.setLink_lastLatch (s : State) (y e : Nat) (l : HalLink) : (s.setLink y e l).lastLatch = s.lastLatch := rfl
@[simp] theorem State.setLink_latchNs (s : State) (y e : Nat) (l : HalLink) : (s.setLink y e l).latchNs = s.latchNs := rfl
@[simp] theorem State.setLink_beatNs (s : State) (y e : Nat) (l : HalLink) : (s.setLink y e l).beatNs = s.beatNs := rfl
@[simp] theorem State.setLink_shroudLost (s : State) (y e : Nat) (l : HalLink) : (s.setLink y e l).shroudLost = s.shroudLost := rfl
@[simp] theorem State.setLink_bankA (s : State) (y e : Nat) (l : HalLink) : (s.setLink y e l).bankA = s.bankA := rfl
@[simp] theorem State.setLink_bankB (s : State) (y e : Nat) (l : HalLink) : (s.setLink y e l).bankB = s.bankB := rfl
@[simp] theorem State.setLink_fwVer (s : State) (y e : Nat) (l : HalLink) : (s.setLink y e l).fwVer = s.fwVer := rfl
@[simp] theorem State.setLink_retiredA (s : State) (y e : Nat) (l : HalLink) : (s.setLink y e l).retiredA = s.retiredA := rfl
@[simp] theorem State.setLink_retiredB (s : State) (y e : Nat) (l : HalLink) : (s.setLink y e l).retiredB = s.retiredB := rfl
@[simp] theorem State.setLink_powerLoss (s : State) (y e : Nat) (l : HalLink) : (s.setLink y e l).powerLoss = s.powerLoss := rfl
@[simp] theorem State.setLink_maintRun (s : State) (y e : Nat) (l : HalLink) : (s.setLink y e l).maintRun = s.maintRun := rfl
@[simp] theorem State.setLink_maintQueue (s : State) (y e : Nat) (l : HalLink) : (s.setLink y e l).maintQueue = s.maintQueue := rfl
@[simp] theorem State.setLink_maintWait (s : State) (y e : Nat) (l : HalLink) : (s.setLink y e l).maintWait = s.maintWait := rfl
@[simp] theorem State.setLink_energyRem (s : State) (y e : Nat) (l : HalLink) : (s.setLink y e l).energyRem = s.energyRem := rfl
@[simp] theorem State.setLink_limQuietNs (s : State) (y e : Nat) (l : HalLink) : (s.setLink y e l).limQuietNs = s.limQuietNs := rfl
@[simp] theorem State.setLink_limReported (s : State) (y e : Nat) (l : HalLink) : (s.setLink y e l).limReported = s.limReported := rfl
@[simp] theorem State.setLink_hotYards (s : State) (y e : Nat) (l : HalLink) : (s.setLink y e l).hotYards = s.hotYards := rfl
@[simp] theorem State.setLink_tieB (s : State) (y e : Nat) (l : HalLink) : (s.setLink y e l).tieB = s.tieB := rfl
@[simp] theorem State.setLink_hostCfgA (s : State) (y e : Nat) (l : HalLink) : (s.setLink y e l).hostCfgA = s.hostCfgA := rfl
@[simp] theorem State.setLink_hostCfgB (s : State) (y e : Nat) (l : HalLink) : (s.setLink y e l).hostCfgB = s.hostCfgB := rfl
@[simp] theorem State.setLink_warmDies (s : State) (y e : Nat) (l : HalLink) : (s.setLink y e l).warmDies = s.warmDies := rfl
@[simp] theorem State.setLink_tsyncGood (s : State) (y e : Nat) (l : HalLink) : (s.setLink y e l).tsyncGood = s.tsyncGood := rfl
@[simp] theorem State.setLink_tsyncNs (s : State) (y e : Nat) (l : HalLink) : (s.setLink y e l).tsyncNs = s.tsyncNs := rfl
@[simp] theorem State.setLink_slewLeft (s : State) (y e : Nat) (l : HalLink) : (s.setLink y e l).slewLeft = s.slewLeft := rfl
@[simp] theorem State.setLink_smbOffset (s : State) (y e : Nat) (l : HalLink) : (s.setLink y e l).smbOffset = s.smbOffset := rfl
@[simp] theorem State.setLink_jtagIr (s : State) (y e : Nat) (l : HalLink) : (s.setLink y e l).jtagIr = s.jtagIr := rfl
@[simp] theorem State.setLink_cagesOff (s : State) (y e : Nat) (l : HalLink) : (s.setLink y e l).cagesOff = s.cagesOff := rfl
@[simp] theorem State.setLink_relock (s : State) (y e : Nat) (l : HalLink) : (s.setLink y e l).relock = s.relock := rfl
@[simp] theorem State.setLink_oscOut (s : State) (y e : Nat) (l : HalLink) : (s.setLink y e l).oscOut = s.oscOut := rfl
@[simp] theorem State.setLink_switches (s : State) (y e : Nat) (l : HalLink) : (s.setLink y e l).switches = s.switches := rfl
@[simp] theorem State.setLink_crossTok (s : State) (y e : Nat) (l : HalLink) : (s.setLink y e l).crossTok = s.crossTok := rfl
@[simp] theorem State.setLink_crossRail (s : State) (y e : Nat) (l : HalLink) : (s.setLink y e l).crossRail = s.crossRail := rfl
@[simp] theorem State.setLink_units (s : State) (y e : Nat) (l : HalLink) : (s.setLink y e l).units = s.units := rfl
@[simp] theorem State.setLink_moved (s : State) (y e : Nat) (l : HalLink) : (s.setLink y e l).moved = s.moved := rfl
@[simp] theorem State.setLink_sramEpoch (s : State) (y e : Nat) (l : HalLink) : (s.setLink y e l).sramEpoch = s.sramEpoch := rfl
@[simp] theorem State.setLink_opBuf (s : State) (y e : Nat) (l : HalLink) : (s.setLink y e l).opBuf = s.opBuf := rfl
@[simp] theorem State.setLink_accMem (s : State) (y e : Nat) (l : HalLink) : (s.setLink y e l).accMem = s.accMem := rfl
@[simp] theorem State.setLink_tileRegs (s : State) (y e : Nat) (l : HalLink) : (s.setLink y e l).tileRegs = s.tileRegs := rfl
@[simp] theorem State.setLink_yardStore (s : State) (y e : Nat) (l : HalLink) : (s.setLink y e l).yardStore = s.yardStore := rfl
@[simp] theorem State.setLink_ycMem (s : State) (y e : Nat) (l : HalLink) : (s.setLink y e l).ycMem = s.ycMem := rfl
@[simp] theorem State.setLink_sections (s : State) (y e : Nat) (l : HalLink) : (s.setLink y e l).sections = s.sections := rfl
@[simp] theorem State.setLink_nextUid (s : State) (y e : Nat) (l : HalLink) : (s.setLink y e l).nextUid = s.nextUid := rfl
@[simp] theorem State.setLink_issueQ (s : State) (y e : Nat) (l : HalLink) : (s.setLink y e l).issueQ = s.issueQ := rfl
@[simp] theorem State.setLink_waiting (s : State) (y e : Nat) (l : HalLink) : (s.setLink y e l).waiting = s.waiting := rfl
@[simp] theorem State.setLink_images (s : State) (y e : Nat) (l : HalLink) : (s.setLink y e l).images = s.images := rfl
@[simp] theorem State.setLink_crossOwner (s : State) (y e : Nat) (l : HalLink) : (s.setLink y e l).crossOwner = s.crossOwner := rfl
@[simp] theorem State.setLink_loads (s : State) (y e : Nat) (l : HalLink) : (s.setLink y e l).loads = s.loads := rfl
@[simp] theorem State.setLink_stayAbsent (s : State) (y e : Nat) (l : HalLink) : (s.setLink y e l).stayAbsent = s.stayAbsent := rfl
@[simp] theorem State.setLink_bothLost (s : State) (y e : Nat) (l : HalLink) : (s.setLink y e l).bothLost = s.bothLost := rfl
@[simp] theorem State.setLink_cores (s : State) (y e : Nat) (l : HalLink) : (s.setLink y e l).cores = s.cores := rfl
@[simp] theorem State.setLink_wc (s : State) (y e : Nat) (l : HalLink) : (s.setLink y e l).wc = s.wc := rfl
@[simp] theorem State.setLink_leases (s : State) (y e : Nat) (l : HalLink) : (s.setLink y e l).leases = s.leases := rfl
@[simp] theorem State.setLink_wcQ (s : State) (y e : Nat) (l : HalLink) : (s.setLink y e l).wcQ = s.wcQ := rfl
@[simp] theorem State.setLink_slices (s : State) (y e : Nat) (l : HalLink) : (s.setLink y e l).slices = s.slices := rfl
@[simp] theorem State.setLink_chans (s : State) (y e : Nat) (l : HalLink) : (s.setLink y e l).chans = s.chans := rfl
@[simp] theorem State.setLink_askers (s : State) (y e : Nat) (l : HalLink) : (s.setLink y e l).askers = s.askers := rfl
@[simp] theorem State.setLink_barReads (s : State) (y e : Nat) (l : HalLink) : (s.setLink y e l).barReads = s.barReads := rfl
@[simp] theorem State.setLink_rowCe (s : State) (y e : Nat) (l : HalLink) : (s.setLink y e l).rowCe = s.rowCe := rfl
@[simp] theorem State.setLink_recRepaired (s : State) (y e : Nat) (l : HalLink) : (s.setLink y e l).recRepaired = s.recRepaired := rfl
@[simp] theorem State.setLink_recPermanent (s : State) (y e : Nat) (l : HalLink) : (s.setLink y e l).recPermanent = s.recPermanent := rfl
@[simp] theorem State.setLink_recPending (s : State) (y e : Nat) (l : HalLink) : (s.setLink y e l).recPending = s.recPending := rfl
@[simp] theorem State.setLink_recMapped (s : State) (y e : Nat) (l : HalLink) : (s.setLink y e l).recMapped = s.recMapped := rfl
@[simp] theorem State.setLink_spareUsed (s : State) (y e : Nat) (l : HalLink) : (s.setLink y e l).spareUsed = s.spareUsed := rfl
@[simp] theorem State.setLink_thermSince (s : State) (y e : Nat) (l : HalLink) : (s.setLink y e l).thermSince = s.thermSince := rfl
@[simp] theorem State.setLink_stepHeld (s : State) (y e : Nat) (l : HalLink) : (s.setLink y e l).stepHeld = s.stepHeld := rfl
@[simp] theorem State.setLink_phaseHeld (s : State) (y e : Nat) (l : HalLink) : (s.setLink y e l).phaseHeld = s.phaseHeld := rfl
@[simp] theorem State.setLink_pipeTag (s : State) (y e : Nat) (l : HalLink) : (s.setLink y e l).pipeTag = s.pipeTag := rfl
@[simp] theorem State.setLink_pipeEnd (s : State) (y e : Nat) (l : HalLink) : (s.setLink y e l).pipeEnd = s.pipeEnd := rfl
@[simp] theorem State.setLink_spikeX (s : State) (y e : Nat) (l : HalLink) : (s.setLink y e l).spikeX = s.spikeX := rfl
@[simp] theorem State.setLink_heldOnClose (s : State) (y e : Nat) (l : HalLink) : (s.setLink y e l).heldOnClose = s.heldOnClose := rfl
@[simp] theorem State.setLink_phaseFrom (s : State) (y e : Nat) (l : HalLink) : (s.setLink y e l).phaseFrom = s.phaseFrom := rfl
@[simp] theorem State.setLink_phaseT0 (s : State) (y e : Nat) (l : HalLink) : (s.setLink y e l).phaseT0 = s.phaseT0 := rfl
@[simp] theorem State.setLink_epochs (s : State) (y e : Nat) (l : HalLink) : (s.setLink y e l).epochs = s.epochs := rfl
@[simp] theorem State.setLink_phaseHeard (s : State) (y e : Nat) (l : HalLink) : (s.setLink y e l).phaseHeard = s.phaseHeard := rfl
@[simp] theorem State.setLink_agrees (s : State) (y e : Nat) (l : HalLink) : (s.setLink y e l).agrees = s.agrees := rfl
@[simp] theorem State.setLink_agreeDone (s : State) (y e : Nat) (l : HalLink) : (s.setLink y e l).agreeDone = s.agreeDone := rfl
@[simp] theorem State.setLink_yieldAt (s : State) (y e : Nat) (l : HalLink) : (s.setLink y e l).yieldAt = s.yieldAt := rfl
@[simp] theorem State.setLink_yieldWarned (s : State) (y e : Nat) (l : HalLink) : (s.setLink y e l).yieldWarned = s.yieldWarned := rfl
@[simp] theorem State.setLink_buckets (s : State) (y e : Nat) (l : HalLink) : (s.setLink y e l).buckets = s.buckets := rfl
@[simp] theorem State.setLink_regLive (s : State) (y e : Nat) (l : HalLink) : (s.setLink y e l).regLive = s.regLive := rfl
@[simp] theorem State.setLink_regHeldAt (s : State) (y e : Nat) (l : HalLink) : (s.setLink y e l).regHeldAt = s.regHeldAt := rfl
@[simp] theorem State.setLink_rings (s : State) (y e : Nat) (l : HalLink) : (s.setLink y e l).rings = s.rings := rfl
@[simp] theorem State.setLink_ports (s : State) (y e : Nat) (l : HalLink) : (s.setLink y e l).ports = s.ports := rfl
@[simp] theorem State.setLink_bridgeTok (s : State) (y e : Nat) (l : HalLink) : (s.setLink y e l).bridgeTok = s.bridgeTok := rfl
@[simp] theorem State.setLink_packs (s : State) (y e : Nat) (l : HalLink) : (s.setLink y e l).packs = s.packs := rfl
@[simp] theorem State.setLink_burstPort (s : State) (y e : Nat) (l : HalLink) : (s.setLink y e l).burstPort = s.burstPort := rfl
@[simp] theorem State.setLink_inject (s : State) (y e : Nat) (l : HalLink) : (s.setLink y e l).inject = s.inject := rfl
@[simp] theorem State.setLink_heldFrames (s : State) (y e : Nat) (l : HalLink) : (s.setLink y e l).heldFrames = s.heldFrames := rfl
@[simp] theorem State.setLink_engines (s : State) (y e : Nat) (l : HalLink) : (s.setLink y e l).engines = s.engines := rfl
@[simp] theorem State.setLink_norms (s : State) (y e : Nat) (l : HalLink) : (s.setLink y e l).norms = s.norms := rfl
@[simp] theorem State.setLink_permute (s : State) (y e : Nat) (l : HalLink) : (s.setLink y e l).permute = s.permute := rfl

@[simp] theorem State.setPort_pending (s : State) (q : Nat) (x : PortState) : (s.setPort q x).pending = s.pending := rfl
@[simp] theorem State.setPort_regs (s : State) (q : Nat) (x : PortState) : (s.setPort q x).regs = s.regs := rfl
@[simp] theorem State.setPort_hbm (s : State) (q : Nat) (x : PortState) : (s.setPort q x).hbm = s.hbm := rfl
@[simp] theorem State.setPort_freeCtr (s : State) (q : Nat) (x : PortState) : (s.setPort q x).freeCtr = s.freeCtr := rfl
@[simp] theorem State.setPort_out (s : State) (q : Nat) (x : PortState) : (s.setPort q x).out = s.out := rfl
@[simp] theorem State.setPort_stageNs (s : State) (q : Nat) (x : PortState) : (s.setPort q x).stageNs = s.stageNs := rfl
@[simp] theorem State.setPort_timeOn (s : State) (q : Nat) (x : PortState) : (s.setPort q x).timeOn = s.timeOn := rfl
@[simp] theorem State.setPort_pwrOk (s : State) (q : Nat) (x : PortState) : (s.setPort q x).pwrOk = s.pwrOk := rfl
@[simp] theorem State.setPort_thermtrip (s : State) (q : Nat) (x : PortState) : (s.setPort q x).thermtrip = s.thermtrip := rfl
@[simp] theorem State.setPort_ganOff (s : State) (q : Nat) (x : PortState) : (s.setPort q x).ganOff = s.ganOff := rfl
@[simp] theorem State.setPort_inputOut (s : State) (q : Nat) (x : PortState) : (s.setPort q x).inputOut = s.inputOut := rfl
@[simp] theorem State.setPort_startReset (s : State) (q : Nat) (x : PortState) : (s.setPort q x).startReset = s.startReset := rfl
@[simp] theorem State.setPort_resetNs (s : State) (q : Nat) (x : PortState) : (s.setPort q x).resetNs = s.resetNs := rfl
@[simp] theorem State.setPort_hostMsixA (s : State) (q : Nat) (x : PortState) : (s.setPort q x).hostMsixA = s.hostMsixA := rfl
@[simp] theorem State.setPort_hostMsixB (s : State) (q : Nat) (x : PortState) : (s.setPort q x).hostMsixB = s.hostMsixB := rfl
@[simp] theorem State.setPort_semSince (s : State) (q : Nat) (x : PortState) : (s.setPort q x).semSince = s.semSince := rfl
@[simp] theorem State.setPort_latch (s : State) (q : Nat) (x : PortState) : (s.setPort q x).latch = s.latch := rfl
@[simp] theorem State.setPort_lastLatch (s : State) (q : Nat) (x : PortState) : (s.setPort q x).lastLatch = s.lastLatch := rfl
@[simp] theorem State.setPort_latchNs (s : State) (q : Nat) (x : PortState) : (s.setPort q x).latchNs = s.latchNs := rfl
@[simp] theorem State.setPort_beatNs (s : State) (q : Nat) (x : PortState) : (s.setPort q x).beatNs = s.beatNs := rfl
@[simp] theorem State.setPort_shroudLost (s : State) (q : Nat) (x : PortState) : (s.setPort q x).shroudLost = s.shroudLost := rfl
@[simp] theorem State.setPort_bankA (s : State) (q : Nat) (x : PortState) : (s.setPort q x).bankA = s.bankA := rfl
@[simp] theorem State.setPort_bankB (s : State) (q : Nat) (x : PortState) : (s.setPort q x).bankB = s.bankB := rfl
@[simp] theorem State.setPort_fwVer (s : State) (q : Nat) (x : PortState) : (s.setPort q x).fwVer = s.fwVer := rfl
@[simp] theorem State.setPort_retiredA (s : State) (q : Nat) (x : PortState) : (s.setPort q x).retiredA = s.retiredA := rfl
@[simp] theorem State.setPort_retiredB (s : State) (q : Nat) (x : PortState) : (s.setPort q x).retiredB = s.retiredB := rfl
@[simp] theorem State.setPort_powerLoss (s : State) (q : Nat) (x : PortState) : (s.setPort q x).powerLoss = s.powerLoss := rfl
@[simp] theorem State.setPort_maintRun (s : State) (q : Nat) (x : PortState) : (s.setPort q x).maintRun = s.maintRun := rfl
@[simp] theorem State.setPort_maintQueue (s : State) (q : Nat) (x : PortState) : (s.setPort q x).maintQueue = s.maintQueue := rfl
@[simp] theorem State.setPort_maintWait (s : State) (q : Nat) (x : PortState) : (s.setPort q x).maintWait = s.maintWait := rfl
@[simp] theorem State.setPort_energyRem (s : State) (q : Nat) (x : PortState) : (s.setPort q x).energyRem = s.energyRem := rfl
@[simp] theorem State.setPort_limQuietNs (s : State) (q : Nat) (x : PortState) : (s.setPort q x).limQuietNs = s.limQuietNs := rfl
@[simp] theorem State.setPort_limReported (s : State) (q : Nat) (x : PortState) : (s.setPort q x).limReported = s.limReported := rfl
@[simp] theorem State.setPort_hotYards (s : State) (q : Nat) (x : PortState) : (s.setPort q x).hotYards = s.hotYards := rfl
@[simp] theorem State.setPort_tieB (s : State) (q : Nat) (x : PortState) : (s.setPort q x).tieB = s.tieB := rfl
@[simp] theorem State.setPort_hostCfgA (s : State) (q : Nat) (x : PortState) : (s.setPort q x).hostCfgA = s.hostCfgA := rfl
@[simp] theorem State.setPort_hostCfgB (s : State) (q : Nat) (x : PortState) : (s.setPort q x).hostCfgB = s.hostCfgB := rfl
@[simp] theorem State.setPort_warmDies (s : State) (q : Nat) (x : PortState) : (s.setPort q x).warmDies = s.warmDies := rfl
@[simp] theorem State.setPort_tsyncGood (s : State) (q : Nat) (x : PortState) : (s.setPort q x).tsyncGood = s.tsyncGood := rfl
@[simp] theorem State.setPort_tsyncNs (s : State) (q : Nat) (x : PortState) : (s.setPort q x).tsyncNs = s.tsyncNs := rfl
@[simp] theorem State.setPort_slewLeft (s : State) (q : Nat) (x : PortState) : (s.setPort q x).slewLeft = s.slewLeft := rfl
@[simp] theorem State.setPort_smbOffset (s : State) (q : Nat) (x : PortState) : (s.setPort q x).smbOffset = s.smbOffset := rfl
@[simp] theorem State.setPort_jtagIr (s : State) (q : Nat) (x : PortState) : (s.setPort q x).jtagIr = s.jtagIr := rfl
@[simp] theorem State.setPort_cagesOff (s : State) (q : Nat) (x : PortState) : (s.setPort q x).cagesOff = s.cagesOff := rfl
@[simp] theorem State.setPort_relock (s : State) (q : Nat) (x : PortState) : (s.setPort q x).relock = s.relock := rfl
@[simp] theorem State.setPort_oscOut (s : State) (q : Nat) (x : PortState) : (s.setPort q x).oscOut = s.oscOut := rfl
@[simp] theorem State.setPort_switches (s : State) (q : Nat) (x : PortState) : (s.setPort q x).switches = s.switches := rfl
@[simp] theorem State.setPort_links (s : State) (q : Nat) (x : PortState) : (s.setPort q x).links = s.links := rfl
@[simp] theorem State.setPort_crossTok (s : State) (q : Nat) (x : PortState) : (s.setPort q x).crossTok = s.crossTok := rfl
@[simp] theorem State.setPort_crossRail (s : State) (q : Nat) (x : PortState) : (s.setPort q x).crossRail = s.crossRail := rfl
@[simp] theorem State.setPort_units (s : State) (q : Nat) (x : PortState) : (s.setPort q x).units = s.units := rfl
@[simp] theorem State.setPort_moved (s : State) (q : Nat) (x : PortState) : (s.setPort q x).moved = s.moved := rfl
@[simp] theorem State.setPort_sramEpoch (s : State) (q : Nat) (x : PortState) : (s.setPort q x).sramEpoch = s.sramEpoch := rfl
@[simp] theorem State.setPort_opBuf (s : State) (q : Nat) (x : PortState) : (s.setPort q x).opBuf = s.opBuf := rfl
@[simp] theorem State.setPort_accMem (s : State) (q : Nat) (x : PortState) : (s.setPort q x).accMem = s.accMem := rfl
@[simp] theorem State.setPort_tileRegs (s : State) (q : Nat) (x : PortState) : (s.setPort q x).tileRegs = s.tileRegs := rfl
@[simp] theorem State.setPort_yardStore (s : State) (q : Nat) (x : PortState) : (s.setPort q x).yardStore = s.yardStore := rfl
@[simp] theorem State.setPort_ycMem (s : State) (q : Nat) (x : PortState) : (s.setPort q x).ycMem = s.ycMem := rfl
@[simp] theorem State.setPort_sections (s : State) (q : Nat) (x : PortState) : (s.setPort q x).sections = s.sections := rfl
@[simp] theorem State.setPort_nextUid (s : State) (q : Nat) (x : PortState) : (s.setPort q x).nextUid = s.nextUid := rfl
@[simp] theorem State.setPort_issueQ (s : State) (q : Nat) (x : PortState) : (s.setPort q x).issueQ = s.issueQ := rfl
@[simp] theorem State.setPort_waiting (s : State) (q : Nat) (x : PortState) : (s.setPort q x).waiting = s.waiting := rfl
@[simp] theorem State.setPort_images (s : State) (q : Nat) (x : PortState) : (s.setPort q x).images = s.images := rfl
@[simp] theorem State.setPort_crossOwner (s : State) (q : Nat) (x : PortState) : (s.setPort q x).crossOwner = s.crossOwner := rfl
@[simp] theorem State.setPort_loads (s : State) (q : Nat) (x : PortState) : (s.setPort q x).loads = s.loads := rfl
@[simp] theorem State.setPort_stayAbsent (s : State) (q : Nat) (x : PortState) : (s.setPort q x).stayAbsent = s.stayAbsent := rfl
@[simp] theorem State.setPort_bothLost (s : State) (q : Nat) (x : PortState) : (s.setPort q x).bothLost = s.bothLost := rfl
@[simp] theorem State.setPort_cores (s : State) (q : Nat) (x : PortState) : (s.setPort q x).cores = s.cores := rfl
@[simp] theorem State.setPort_wc (s : State) (q : Nat) (x : PortState) : (s.setPort q x).wc = s.wc := rfl
@[simp] theorem State.setPort_leases (s : State) (q : Nat) (x : PortState) : (s.setPort q x).leases = s.leases := rfl
@[simp] theorem State.setPort_wcQ (s : State) (q : Nat) (x : PortState) : (s.setPort q x).wcQ = s.wcQ := rfl
@[simp] theorem State.setPort_slices (s : State) (q : Nat) (x : PortState) : (s.setPort q x).slices = s.slices := rfl
@[simp] theorem State.setPort_chans (s : State) (q : Nat) (x : PortState) : (s.setPort q x).chans = s.chans := rfl
@[simp] theorem State.setPort_askers (s : State) (q : Nat) (x : PortState) : (s.setPort q x).askers = s.askers := rfl
@[simp] theorem State.setPort_barReads (s : State) (q : Nat) (x : PortState) : (s.setPort q x).barReads = s.barReads := rfl
@[simp] theorem State.setPort_rowCe (s : State) (q : Nat) (x : PortState) : (s.setPort q x).rowCe = s.rowCe := rfl
@[simp] theorem State.setPort_recRepaired (s : State) (q : Nat) (x : PortState) : (s.setPort q x).recRepaired = s.recRepaired := rfl
@[simp] theorem State.setPort_recPermanent (s : State) (q : Nat) (x : PortState) : (s.setPort q x).recPermanent = s.recPermanent := rfl
@[simp] theorem State.setPort_recPending (s : State) (q : Nat) (x : PortState) : (s.setPort q x).recPending = s.recPending := rfl
@[simp] theorem State.setPort_recMapped (s : State) (q : Nat) (x : PortState) : (s.setPort q x).recMapped = s.recMapped := rfl
@[simp] theorem State.setPort_spareUsed (s : State) (q : Nat) (x : PortState) : (s.setPort q x).spareUsed = s.spareUsed := rfl
@[simp] theorem State.setPort_thermSince (s : State) (q : Nat) (x : PortState) : (s.setPort q x).thermSince = s.thermSince := rfl
@[simp] theorem State.setPort_stepHeld (s : State) (q : Nat) (x : PortState) : (s.setPort q x).stepHeld = s.stepHeld := rfl
@[simp] theorem State.setPort_phaseHeld (s : State) (q : Nat) (x : PortState) : (s.setPort q x).phaseHeld = s.phaseHeld := rfl
@[simp] theorem State.setPort_pipeTag (s : State) (q : Nat) (x : PortState) : (s.setPort q x).pipeTag = s.pipeTag := rfl
@[simp] theorem State.setPort_pipeEnd (s : State) (q : Nat) (x : PortState) : (s.setPort q x).pipeEnd = s.pipeEnd := rfl
@[simp] theorem State.setPort_spikeX (s : State) (q : Nat) (x : PortState) : (s.setPort q x).spikeX = s.spikeX := rfl
@[simp] theorem State.setPort_heldOnClose (s : State) (q : Nat) (x : PortState) : (s.setPort q x).heldOnClose = s.heldOnClose := rfl
@[simp] theorem State.setPort_phaseFrom (s : State) (q : Nat) (x : PortState) : (s.setPort q x).phaseFrom = s.phaseFrom := rfl
@[simp] theorem State.setPort_phaseT0 (s : State) (q : Nat) (x : PortState) : (s.setPort q x).phaseT0 = s.phaseT0 := rfl
@[simp] theorem State.setPort_epochs (s : State) (q : Nat) (x : PortState) : (s.setPort q x).epochs = s.epochs := rfl
@[simp] theorem State.setPort_phaseHeard (s : State) (q : Nat) (x : PortState) : (s.setPort q x).phaseHeard = s.phaseHeard := rfl
@[simp] theorem State.setPort_agrees (s : State) (q : Nat) (x : PortState) : (s.setPort q x).agrees = s.agrees := rfl
@[simp] theorem State.setPort_agreeDone (s : State) (q : Nat) (x : PortState) : (s.setPort q x).agreeDone = s.agreeDone := rfl
@[simp] theorem State.setPort_yieldAt (s : State) (q : Nat) (x : PortState) : (s.setPort q x).yieldAt = s.yieldAt := rfl
@[simp] theorem State.setPort_yieldWarned (s : State) (q : Nat) (x : PortState) : (s.setPort q x).yieldWarned = s.yieldWarned := rfl
@[simp] theorem State.setPort_buckets (s : State) (q : Nat) (x : PortState) : (s.setPort q x).buckets = s.buckets := rfl
@[simp] theorem State.setPort_regLive (s : State) (q : Nat) (x : PortState) : (s.setPort q x).regLive = s.regLive := rfl
@[simp] theorem State.setPort_regHeldAt (s : State) (q : Nat) (x : PortState) : (s.setPort q x).regHeldAt = s.regHeldAt := rfl
@[simp] theorem State.setPort_rings (s : State) (q : Nat) (x : PortState) : (s.setPort q x).rings = s.rings := rfl
@[simp] theorem State.setPort_bridgeTok (s : State) (q : Nat) (x : PortState) : (s.setPort q x).bridgeTok = s.bridgeTok := rfl
@[simp] theorem State.setPort_packs (s : State) (q : Nat) (x : PortState) : (s.setPort q x).packs = s.packs := rfl
@[simp] theorem State.setPort_burstPort (s : State) (q : Nat) (x : PortState) : (s.setPort q x).burstPort = s.burstPort := rfl
@[simp] theorem State.setPort_inject (s : State) (q : Nat) (x : PortState) : (s.setPort q x).inject = s.inject := rfl
@[simp] theorem State.setPort_heldFrames (s : State) (q : Nat) (x : PortState) : (s.setPort q x).heldFrames = s.heldFrames := rfl
@[simp] theorem State.setPort_engines (s : State) (q : Nat) (x : PortState) : (s.setPort q x).engines = s.engines := rfl
@[simp] theorem State.setPort_norms (s : State) (q : Nat) (x : PortState) : (s.setPort q x).norms = s.norms := rfl
@[simp] theorem State.setPort_permute (s : State) (q : Nat) (x : PortState) : (s.setPort q x).permute = s.permute := rfl

@[simp] theorem State.setSlice_pending (s : State) (h : Nat) (x : SliceState) : (s.setSlice h x).pending = s.pending := rfl
@[simp] theorem State.setSlice_regs (s : State) (h : Nat) (x : SliceState) : (s.setSlice h x).regs = s.regs := rfl
@[simp] theorem State.setSlice_hbm (s : State) (h : Nat) (x : SliceState) : (s.setSlice h x).hbm = s.hbm := rfl
@[simp] theorem State.setSlice_freeCtr (s : State) (h : Nat) (x : SliceState) : (s.setSlice h x).freeCtr = s.freeCtr := rfl
@[simp] theorem State.setSlice_out (s : State) (h : Nat) (x : SliceState) : (s.setSlice h x).out = s.out := rfl
@[simp] theorem State.setSlice_stageNs (s : State) (h : Nat) (x : SliceState) : (s.setSlice h x).stageNs = s.stageNs := rfl
@[simp] theorem State.setSlice_timeOn (s : State) (h : Nat) (x : SliceState) : (s.setSlice h x).timeOn = s.timeOn := rfl
@[simp] theorem State.setSlice_pwrOk (s : State) (h : Nat) (x : SliceState) : (s.setSlice h x).pwrOk = s.pwrOk := rfl
@[simp] theorem State.setSlice_thermtrip (s : State) (h : Nat) (x : SliceState) : (s.setSlice h x).thermtrip = s.thermtrip := rfl
@[simp] theorem State.setSlice_ganOff (s : State) (h : Nat) (x : SliceState) : (s.setSlice h x).ganOff = s.ganOff := rfl
@[simp] theorem State.setSlice_inputOut (s : State) (h : Nat) (x : SliceState) : (s.setSlice h x).inputOut = s.inputOut := rfl
@[simp] theorem State.setSlice_startReset (s : State) (h : Nat) (x : SliceState) : (s.setSlice h x).startReset = s.startReset := rfl
@[simp] theorem State.setSlice_resetNs (s : State) (h : Nat) (x : SliceState) : (s.setSlice h x).resetNs = s.resetNs := rfl
@[simp] theorem State.setSlice_hostMsixA (s : State) (h : Nat) (x : SliceState) : (s.setSlice h x).hostMsixA = s.hostMsixA := rfl
@[simp] theorem State.setSlice_hostMsixB (s : State) (h : Nat) (x : SliceState) : (s.setSlice h x).hostMsixB = s.hostMsixB := rfl
@[simp] theorem State.setSlice_semSince (s : State) (h : Nat) (x : SliceState) : (s.setSlice h x).semSince = s.semSince := rfl
@[simp] theorem State.setSlice_latch (s : State) (h : Nat) (x : SliceState) : (s.setSlice h x).latch = s.latch := rfl
@[simp] theorem State.setSlice_lastLatch (s : State) (h : Nat) (x : SliceState) : (s.setSlice h x).lastLatch = s.lastLatch := rfl
@[simp] theorem State.setSlice_latchNs (s : State) (h : Nat) (x : SliceState) : (s.setSlice h x).latchNs = s.latchNs := rfl
@[simp] theorem State.setSlice_beatNs (s : State) (h : Nat) (x : SliceState) : (s.setSlice h x).beatNs = s.beatNs := rfl
@[simp] theorem State.setSlice_shroudLost (s : State) (h : Nat) (x : SliceState) : (s.setSlice h x).shroudLost = s.shroudLost := rfl
@[simp] theorem State.setSlice_bankA (s : State) (h : Nat) (x : SliceState) : (s.setSlice h x).bankA = s.bankA := rfl
@[simp] theorem State.setSlice_bankB (s : State) (h : Nat) (x : SliceState) : (s.setSlice h x).bankB = s.bankB := rfl
@[simp] theorem State.setSlice_fwVer (s : State) (h : Nat) (x : SliceState) : (s.setSlice h x).fwVer = s.fwVer := rfl
@[simp] theorem State.setSlice_retiredA (s : State) (h : Nat) (x : SliceState) : (s.setSlice h x).retiredA = s.retiredA := rfl
@[simp] theorem State.setSlice_retiredB (s : State) (h : Nat) (x : SliceState) : (s.setSlice h x).retiredB = s.retiredB := rfl
@[simp] theorem State.setSlice_powerLoss (s : State) (h : Nat) (x : SliceState) : (s.setSlice h x).powerLoss = s.powerLoss := rfl
@[simp] theorem State.setSlice_maintRun (s : State) (h : Nat) (x : SliceState) : (s.setSlice h x).maintRun = s.maintRun := rfl
@[simp] theorem State.setSlice_maintQueue (s : State) (h : Nat) (x : SliceState) : (s.setSlice h x).maintQueue = s.maintQueue := rfl
@[simp] theorem State.setSlice_maintWait (s : State) (h : Nat) (x : SliceState) : (s.setSlice h x).maintWait = s.maintWait := rfl
@[simp] theorem State.setSlice_energyRem (s : State) (h : Nat) (x : SliceState) : (s.setSlice h x).energyRem = s.energyRem := rfl
@[simp] theorem State.setSlice_limQuietNs (s : State) (h : Nat) (x : SliceState) : (s.setSlice h x).limQuietNs = s.limQuietNs := rfl
@[simp] theorem State.setSlice_limReported (s : State) (h : Nat) (x : SliceState) : (s.setSlice h x).limReported = s.limReported := rfl
@[simp] theorem State.setSlice_hotYards (s : State) (h : Nat) (x : SliceState) : (s.setSlice h x).hotYards = s.hotYards := rfl
@[simp] theorem State.setSlice_tieB (s : State) (h : Nat) (x : SliceState) : (s.setSlice h x).tieB = s.tieB := rfl
@[simp] theorem State.setSlice_hostCfgA (s : State) (h : Nat) (x : SliceState) : (s.setSlice h x).hostCfgA = s.hostCfgA := rfl
@[simp] theorem State.setSlice_hostCfgB (s : State) (h : Nat) (x : SliceState) : (s.setSlice h x).hostCfgB = s.hostCfgB := rfl
@[simp] theorem State.setSlice_warmDies (s : State) (h : Nat) (x : SliceState) : (s.setSlice h x).warmDies = s.warmDies := rfl
@[simp] theorem State.setSlice_tsyncGood (s : State) (h : Nat) (x : SliceState) : (s.setSlice h x).tsyncGood = s.tsyncGood := rfl
@[simp] theorem State.setSlice_tsyncNs (s : State) (h : Nat) (x : SliceState) : (s.setSlice h x).tsyncNs = s.tsyncNs := rfl
@[simp] theorem State.setSlice_slewLeft (s : State) (h : Nat) (x : SliceState) : (s.setSlice h x).slewLeft = s.slewLeft := rfl
@[simp] theorem State.setSlice_smbOffset (s : State) (h : Nat) (x : SliceState) : (s.setSlice h x).smbOffset = s.smbOffset := rfl
@[simp] theorem State.setSlice_jtagIr (s : State) (h : Nat) (x : SliceState) : (s.setSlice h x).jtagIr = s.jtagIr := rfl
@[simp] theorem State.setSlice_cagesOff (s : State) (h : Nat) (x : SliceState) : (s.setSlice h x).cagesOff = s.cagesOff := rfl
@[simp] theorem State.setSlice_relock (s : State) (h : Nat) (x : SliceState) : (s.setSlice h x).relock = s.relock := rfl
@[simp] theorem State.setSlice_oscOut (s : State) (h : Nat) (x : SliceState) : (s.setSlice h x).oscOut = s.oscOut := rfl
@[simp] theorem State.setSlice_switches (s : State) (h : Nat) (x : SliceState) : (s.setSlice h x).switches = s.switches := rfl
@[simp] theorem State.setSlice_links (s : State) (h : Nat) (x : SliceState) : (s.setSlice h x).links = s.links := rfl
@[simp] theorem State.setSlice_crossTok (s : State) (h : Nat) (x : SliceState) : (s.setSlice h x).crossTok = s.crossTok := rfl
@[simp] theorem State.setSlice_crossRail (s : State) (h : Nat) (x : SliceState) : (s.setSlice h x).crossRail = s.crossRail := rfl
@[simp] theorem State.setSlice_units (s : State) (h : Nat) (x : SliceState) : (s.setSlice h x).units = s.units := rfl
@[simp] theorem State.setSlice_moved (s : State) (h : Nat) (x : SliceState) : (s.setSlice h x).moved = s.moved := rfl
@[simp] theorem State.setSlice_sramEpoch (s : State) (h : Nat) (x : SliceState) : (s.setSlice h x).sramEpoch = s.sramEpoch := rfl
@[simp] theorem State.setSlice_opBuf (s : State) (h : Nat) (x : SliceState) : (s.setSlice h x).opBuf = s.opBuf := rfl
@[simp] theorem State.setSlice_accMem (s : State) (h : Nat) (x : SliceState) : (s.setSlice h x).accMem = s.accMem := rfl
@[simp] theorem State.setSlice_tileRegs (s : State) (h : Nat) (x : SliceState) : (s.setSlice h x).tileRegs = s.tileRegs := rfl
@[simp] theorem State.setSlice_yardStore (s : State) (h : Nat) (x : SliceState) : (s.setSlice h x).yardStore = s.yardStore := rfl
@[simp] theorem State.setSlice_ycMem (s : State) (h : Nat) (x : SliceState) : (s.setSlice h x).ycMem = s.ycMem := rfl
@[simp] theorem State.setSlice_sections (s : State) (h : Nat) (x : SliceState) : (s.setSlice h x).sections = s.sections := rfl
@[simp] theorem State.setSlice_nextUid (s : State) (h : Nat) (x : SliceState) : (s.setSlice h x).nextUid = s.nextUid := rfl
@[simp] theorem State.setSlice_issueQ (s : State) (h : Nat) (x : SliceState) : (s.setSlice h x).issueQ = s.issueQ := rfl
@[simp] theorem State.setSlice_waiting (s : State) (h : Nat) (x : SliceState) : (s.setSlice h x).waiting = s.waiting := rfl
@[simp] theorem State.setSlice_images (s : State) (h : Nat) (x : SliceState) : (s.setSlice h x).images = s.images := rfl
@[simp] theorem State.setSlice_crossOwner (s : State) (h : Nat) (x : SliceState) : (s.setSlice h x).crossOwner = s.crossOwner := rfl
@[simp] theorem State.setSlice_loads (s : State) (h : Nat) (x : SliceState) : (s.setSlice h x).loads = s.loads := rfl
@[simp] theorem State.setSlice_stayAbsent (s : State) (h : Nat) (x : SliceState) : (s.setSlice h x).stayAbsent = s.stayAbsent := rfl
@[simp] theorem State.setSlice_bothLost (s : State) (h : Nat) (x : SliceState) : (s.setSlice h x).bothLost = s.bothLost := rfl
@[simp] theorem State.setSlice_cores (s : State) (h : Nat) (x : SliceState) : (s.setSlice h x).cores = s.cores := rfl
@[simp] theorem State.setSlice_wc (s : State) (h : Nat) (x : SliceState) : (s.setSlice h x).wc = s.wc := rfl
@[simp] theorem State.setSlice_leases (s : State) (h : Nat) (x : SliceState) : (s.setSlice h x).leases = s.leases := rfl
@[simp] theorem State.setSlice_wcQ (s : State) (h : Nat) (x : SliceState) : (s.setSlice h x).wcQ = s.wcQ := rfl
@[simp] theorem State.setSlice_chans (s : State) (h : Nat) (x : SliceState) : (s.setSlice h x).chans = s.chans := rfl
@[simp] theorem State.setSlice_askers (s : State) (h : Nat) (x : SliceState) : (s.setSlice h x).askers = s.askers := rfl
@[simp] theorem State.setSlice_barReads (s : State) (h : Nat) (x : SliceState) : (s.setSlice h x).barReads = s.barReads := rfl
@[simp] theorem State.setSlice_rowCe (s : State) (h : Nat) (x : SliceState) : (s.setSlice h x).rowCe = s.rowCe := rfl
@[simp] theorem State.setSlice_recRepaired (s : State) (h : Nat) (x : SliceState) : (s.setSlice h x).recRepaired = s.recRepaired := rfl
@[simp] theorem State.setSlice_recPermanent (s : State) (h : Nat) (x : SliceState) : (s.setSlice h x).recPermanent = s.recPermanent := rfl
@[simp] theorem State.setSlice_recPending (s : State) (h : Nat) (x : SliceState) : (s.setSlice h x).recPending = s.recPending := rfl
@[simp] theorem State.setSlice_recMapped (s : State) (h : Nat) (x : SliceState) : (s.setSlice h x).recMapped = s.recMapped := rfl
@[simp] theorem State.setSlice_spareUsed (s : State) (h : Nat) (x : SliceState) : (s.setSlice h x).spareUsed = s.spareUsed := rfl
@[simp] theorem State.setSlice_thermSince (s : State) (h : Nat) (x : SliceState) : (s.setSlice h x).thermSince = s.thermSince := rfl
@[simp] theorem State.setSlice_stepHeld (s : State) (h : Nat) (x : SliceState) : (s.setSlice h x).stepHeld = s.stepHeld := rfl
@[simp] theorem State.setSlice_phaseHeld (s : State) (h : Nat) (x : SliceState) : (s.setSlice h x).phaseHeld = s.phaseHeld := rfl
@[simp] theorem State.setSlice_pipeTag (s : State) (h : Nat) (x : SliceState) : (s.setSlice h x).pipeTag = s.pipeTag := rfl
@[simp] theorem State.setSlice_pipeEnd (s : State) (h : Nat) (x : SliceState) : (s.setSlice h x).pipeEnd = s.pipeEnd := rfl
@[simp] theorem State.setSlice_spikeX (s : State) (h : Nat) (x : SliceState) : (s.setSlice h x).spikeX = s.spikeX := rfl
@[simp] theorem State.setSlice_heldOnClose (s : State) (h : Nat) (x : SliceState) : (s.setSlice h x).heldOnClose = s.heldOnClose := rfl
@[simp] theorem State.setSlice_phaseFrom (s : State) (h : Nat) (x : SliceState) : (s.setSlice h x).phaseFrom = s.phaseFrom := rfl
@[simp] theorem State.setSlice_phaseT0 (s : State) (h : Nat) (x : SliceState) : (s.setSlice h x).phaseT0 = s.phaseT0 := rfl
@[simp] theorem State.setSlice_epochs (s : State) (h : Nat) (x : SliceState) : (s.setSlice h x).epochs = s.epochs := rfl
@[simp] theorem State.setSlice_phaseHeard (s : State) (h : Nat) (x : SliceState) : (s.setSlice h x).phaseHeard = s.phaseHeard := rfl
@[simp] theorem State.setSlice_agrees (s : State) (h : Nat) (x : SliceState) : (s.setSlice h x).agrees = s.agrees := rfl
@[simp] theorem State.setSlice_agreeDone (s : State) (h : Nat) (x : SliceState) : (s.setSlice h x).agreeDone = s.agreeDone := rfl
@[simp] theorem State.setSlice_yieldAt (s : State) (h : Nat) (x : SliceState) : (s.setSlice h x).yieldAt = s.yieldAt := rfl
@[simp] theorem State.setSlice_yieldWarned (s : State) (h : Nat) (x : SliceState) : (s.setSlice h x).yieldWarned = s.yieldWarned := rfl
@[simp] theorem State.setSlice_buckets (s : State) (h : Nat) (x : SliceState) : (s.setSlice h x).buckets = s.buckets := rfl
@[simp] theorem State.setSlice_regLive (s : State) (h : Nat) (x : SliceState) : (s.setSlice h x).regLive = s.regLive := rfl
@[simp] theorem State.setSlice_regHeldAt (s : State) (h : Nat) (x : SliceState) : (s.setSlice h x).regHeldAt = s.regHeldAt := rfl
@[simp] theorem State.setSlice_rings (s : State) (h : Nat) (x : SliceState) : (s.setSlice h x).rings = s.rings := rfl
@[simp] theorem State.setSlice_ports (s : State) (h : Nat) (x : SliceState) : (s.setSlice h x).ports = s.ports := rfl
@[simp] theorem State.setSlice_bridgeTok (s : State) (h : Nat) (x : SliceState) : (s.setSlice h x).bridgeTok = s.bridgeTok := rfl
@[simp] theorem State.setSlice_packs (s : State) (h : Nat) (x : SliceState) : (s.setSlice h x).packs = s.packs := rfl
@[simp] theorem State.setSlice_burstPort (s : State) (h : Nat) (x : SliceState) : (s.setSlice h x).burstPort = s.burstPort := rfl
@[simp] theorem State.setSlice_inject (s : State) (h : Nat) (x : SliceState) : (s.setSlice h x).inject = s.inject := rfl
@[simp] theorem State.setSlice_heldFrames (s : State) (h : Nat) (x : SliceState) : (s.setSlice h x).heldFrames = s.heldFrames := rfl
@[simp] theorem State.setSlice_engines (s : State) (h : Nat) (x : SliceState) : (s.setSlice h x).engines = s.engines := rfl
@[simp] theorem State.setSlice_norms (s : State) (h : Nat) (x : SliceState) : (s.setSlice h x).norms = s.norms := rfl
@[simp] theorem State.setSlice_permute (s : State) (h : Nat) (x : SliceState) : (s.setSlice h x).permute = s.permute := rfl

@[simp] theorem State.setChan_pending (s : State) (c : Nat) (x : ChanState) : (s.setChan c x).pending = s.pending := rfl
@[simp] theorem State.setChan_regs (s : State) (c : Nat) (x : ChanState) : (s.setChan c x).regs = s.regs := rfl
@[simp] theorem State.setChan_hbm (s : State) (c : Nat) (x : ChanState) : (s.setChan c x).hbm = s.hbm := rfl
@[simp] theorem State.setChan_freeCtr (s : State) (c : Nat) (x : ChanState) : (s.setChan c x).freeCtr = s.freeCtr := rfl
@[simp] theorem State.setChan_out (s : State) (c : Nat) (x : ChanState) : (s.setChan c x).out = s.out := rfl
@[simp] theorem State.setChan_stageNs (s : State) (c : Nat) (x : ChanState) : (s.setChan c x).stageNs = s.stageNs := rfl
@[simp] theorem State.setChan_timeOn (s : State) (c : Nat) (x : ChanState) : (s.setChan c x).timeOn = s.timeOn := rfl
@[simp] theorem State.setChan_pwrOk (s : State) (c : Nat) (x : ChanState) : (s.setChan c x).pwrOk = s.pwrOk := rfl
@[simp] theorem State.setChan_thermtrip (s : State) (c : Nat) (x : ChanState) : (s.setChan c x).thermtrip = s.thermtrip := rfl
@[simp] theorem State.setChan_ganOff (s : State) (c : Nat) (x : ChanState) : (s.setChan c x).ganOff = s.ganOff := rfl
@[simp] theorem State.setChan_inputOut (s : State) (c : Nat) (x : ChanState) : (s.setChan c x).inputOut = s.inputOut := rfl
@[simp] theorem State.setChan_startReset (s : State) (c : Nat) (x : ChanState) : (s.setChan c x).startReset = s.startReset := rfl
@[simp] theorem State.setChan_resetNs (s : State) (c : Nat) (x : ChanState) : (s.setChan c x).resetNs = s.resetNs := rfl
@[simp] theorem State.setChan_hostMsixA (s : State) (c : Nat) (x : ChanState) : (s.setChan c x).hostMsixA = s.hostMsixA := rfl
@[simp] theorem State.setChan_hostMsixB (s : State) (c : Nat) (x : ChanState) : (s.setChan c x).hostMsixB = s.hostMsixB := rfl
@[simp] theorem State.setChan_semSince (s : State) (c : Nat) (x : ChanState) : (s.setChan c x).semSince = s.semSince := rfl
@[simp] theorem State.setChan_latch (s : State) (c : Nat) (x : ChanState) : (s.setChan c x).latch = s.latch := rfl
@[simp] theorem State.setChan_lastLatch (s : State) (c : Nat) (x : ChanState) : (s.setChan c x).lastLatch = s.lastLatch := rfl
@[simp] theorem State.setChan_latchNs (s : State) (c : Nat) (x : ChanState) : (s.setChan c x).latchNs = s.latchNs := rfl
@[simp] theorem State.setChan_beatNs (s : State) (c : Nat) (x : ChanState) : (s.setChan c x).beatNs = s.beatNs := rfl
@[simp] theorem State.setChan_shroudLost (s : State) (c : Nat) (x : ChanState) : (s.setChan c x).shroudLost = s.shroudLost := rfl
@[simp] theorem State.setChan_bankA (s : State) (c : Nat) (x : ChanState) : (s.setChan c x).bankA = s.bankA := rfl
@[simp] theorem State.setChan_bankB (s : State) (c : Nat) (x : ChanState) : (s.setChan c x).bankB = s.bankB := rfl
@[simp] theorem State.setChan_fwVer (s : State) (c : Nat) (x : ChanState) : (s.setChan c x).fwVer = s.fwVer := rfl
@[simp] theorem State.setChan_retiredA (s : State) (c : Nat) (x : ChanState) : (s.setChan c x).retiredA = s.retiredA := rfl
@[simp] theorem State.setChan_retiredB (s : State) (c : Nat) (x : ChanState) : (s.setChan c x).retiredB = s.retiredB := rfl
@[simp] theorem State.setChan_powerLoss (s : State) (c : Nat) (x : ChanState) : (s.setChan c x).powerLoss = s.powerLoss := rfl
@[simp] theorem State.setChan_maintRun (s : State) (c : Nat) (x : ChanState) : (s.setChan c x).maintRun = s.maintRun := rfl
@[simp] theorem State.setChan_maintQueue (s : State) (c : Nat) (x : ChanState) : (s.setChan c x).maintQueue = s.maintQueue := rfl
@[simp] theorem State.setChan_maintWait (s : State) (c : Nat) (x : ChanState) : (s.setChan c x).maintWait = s.maintWait := rfl
@[simp] theorem State.setChan_energyRem (s : State) (c : Nat) (x : ChanState) : (s.setChan c x).energyRem = s.energyRem := rfl
@[simp] theorem State.setChan_limQuietNs (s : State) (c : Nat) (x : ChanState) : (s.setChan c x).limQuietNs = s.limQuietNs := rfl
@[simp] theorem State.setChan_limReported (s : State) (c : Nat) (x : ChanState) : (s.setChan c x).limReported = s.limReported := rfl
@[simp] theorem State.setChan_hotYards (s : State) (c : Nat) (x : ChanState) : (s.setChan c x).hotYards = s.hotYards := rfl
@[simp] theorem State.setChan_tieB (s : State) (c : Nat) (x : ChanState) : (s.setChan c x).tieB = s.tieB := rfl
@[simp] theorem State.setChan_hostCfgA (s : State) (c : Nat) (x : ChanState) : (s.setChan c x).hostCfgA = s.hostCfgA := rfl
@[simp] theorem State.setChan_hostCfgB (s : State) (c : Nat) (x : ChanState) : (s.setChan c x).hostCfgB = s.hostCfgB := rfl
@[simp] theorem State.setChan_warmDies (s : State) (c : Nat) (x : ChanState) : (s.setChan c x).warmDies = s.warmDies := rfl
@[simp] theorem State.setChan_tsyncGood (s : State) (c : Nat) (x : ChanState) : (s.setChan c x).tsyncGood = s.tsyncGood := rfl
@[simp] theorem State.setChan_tsyncNs (s : State) (c : Nat) (x : ChanState) : (s.setChan c x).tsyncNs = s.tsyncNs := rfl
@[simp] theorem State.setChan_slewLeft (s : State) (c : Nat) (x : ChanState) : (s.setChan c x).slewLeft = s.slewLeft := rfl
@[simp] theorem State.setChan_smbOffset (s : State) (c : Nat) (x : ChanState) : (s.setChan c x).smbOffset = s.smbOffset := rfl
@[simp] theorem State.setChan_jtagIr (s : State) (c : Nat) (x : ChanState) : (s.setChan c x).jtagIr = s.jtagIr := rfl
@[simp] theorem State.setChan_cagesOff (s : State) (c : Nat) (x : ChanState) : (s.setChan c x).cagesOff = s.cagesOff := rfl
@[simp] theorem State.setChan_relock (s : State) (c : Nat) (x : ChanState) : (s.setChan c x).relock = s.relock := rfl
@[simp] theorem State.setChan_oscOut (s : State) (c : Nat) (x : ChanState) : (s.setChan c x).oscOut = s.oscOut := rfl
@[simp] theorem State.setChan_switches (s : State) (c : Nat) (x : ChanState) : (s.setChan c x).switches = s.switches := rfl
@[simp] theorem State.setChan_links (s : State) (c : Nat) (x : ChanState) : (s.setChan c x).links = s.links := rfl
@[simp] theorem State.setChan_crossTok (s : State) (c : Nat) (x : ChanState) : (s.setChan c x).crossTok = s.crossTok := rfl
@[simp] theorem State.setChan_crossRail (s : State) (c : Nat) (x : ChanState) : (s.setChan c x).crossRail = s.crossRail := rfl
@[simp] theorem State.setChan_units (s : State) (c : Nat) (x : ChanState) : (s.setChan c x).units = s.units := rfl
@[simp] theorem State.setChan_moved (s : State) (c : Nat) (x : ChanState) : (s.setChan c x).moved = s.moved := rfl
@[simp] theorem State.setChan_sramEpoch (s : State) (c : Nat) (x : ChanState) : (s.setChan c x).sramEpoch = s.sramEpoch := rfl
@[simp] theorem State.setChan_opBuf (s : State) (c : Nat) (x : ChanState) : (s.setChan c x).opBuf = s.opBuf := rfl
@[simp] theorem State.setChan_accMem (s : State) (c : Nat) (x : ChanState) : (s.setChan c x).accMem = s.accMem := rfl
@[simp] theorem State.setChan_tileRegs (s : State) (c : Nat) (x : ChanState) : (s.setChan c x).tileRegs = s.tileRegs := rfl
@[simp] theorem State.setChan_yardStore (s : State) (c : Nat) (x : ChanState) : (s.setChan c x).yardStore = s.yardStore := rfl
@[simp] theorem State.setChan_ycMem (s : State) (c : Nat) (x : ChanState) : (s.setChan c x).ycMem = s.ycMem := rfl
@[simp] theorem State.setChan_sections (s : State) (c : Nat) (x : ChanState) : (s.setChan c x).sections = s.sections := rfl
@[simp] theorem State.setChan_nextUid (s : State) (c : Nat) (x : ChanState) : (s.setChan c x).nextUid = s.nextUid := rfl
@[simp] theorem State.setChan_issueQ (s : State) (c : Nat) (x : ChanState) : (s.setChan c x).issueQ = s.issueQ := rfl
@[simp] theorem State.setChan_waiting (s : State) (c : Nat) (x : ChanState) : (s.setChan c x).waiting = s.waiting := rfl
@[simp] theorem State.setChan_images (s : State) (c : Nat) (x : ChanState) : (s.setChan c x).images = s.images := rfl
@[simp] theorem State.setChan_crossOwner (s : State) (c : Nat) (x : ChanState) : (s.setChan c x).crossOwner = s.crossOwner := rfl
@[simp] theorem State.setChan_loads (s : State) (c : Nat) (x : ChanState) : (s.setChan c x).loads = s.loads := rfl
@[simp] theorem State.setChan_stayAbsent (s : State) (c : Nat) (x : ChanState) : (s.setChan c x).stayAbsent = s.stayAbsent := rfl
@[simp] theorem State.setChan_bothLost (s : State) (c : Nat) (x : ChanState) : (s.setChan c x).bothLost = s.bothLost := rfl
@[simp] theorem State.setChan_cores (s : State) (c : Nat) (x : ChanState) : (s.setChan c x).cores = s.cores := rfl
@[simp] theorem State.setChan_wc (s : State) (c : Nat) (x : ChanState) : (s.setChan c x).wc = s.wc := rfl
@[simp] theorem State.setChan_leases (s : State) (c : Nat) (x : ChanState) : (s.setChan c x).leases = s.leases := rfl
@[simp] theorem State.setChan_wcQ (s : State) (c : Nat) (x : ChanState) : (s.setChan c x).wcQ = s.wcQ := rfl
@[simp] theorem State.setChan_slices (s : State) (c : Nat) (x : ChanState) : (s.setChan c x).slices = s.slices := rfl
@[simp] theorem State.setChan_askers (s : State) (c : Nat) (x : ChanState) : (s.setChan c x).askers = s.askers := rfl
@[simp] theorem State.setChan_barReads (s : State) (c : Nat) (x : ChanState) : (s.setChan c x).barReads = s.barReads := rfl
@[simp] theorem State.setChan_rowCe (s : State) (c : Nat) (x : ChanState) : (s.setChan c x).rowCe = s.rowCe := rfl
@[simp] theorem State.setChan_recRepaired (s : State) (c : Nat) (x : ChanState) : (s.setChan c x).recRepaired = s.recRepaired := rfl
@[simp] theorem State.setChan_recPermanent (s : State) (c : Nat) (x : ChanState) : (s.setChan c x).recPermanent = s.recPermanent := rfl
@[simp] theorem State.setChan_recPending (s : State) (c : Nat) (x : ChanState) : (s.setChan c x).recPending = s.recPending := rfl
@[simp] theorem State.setChan_recMapped (s : State) (c : Nat) (x : ChanState) : (s.setChan c x).recMapped = s.recMapped := rfl
@[simp] theorem State.setChan_spareUsed (s : State) (c : Nat) (x : ChanState) : (s.setChan c x).spareUsed = s.spareUsed := rfl
@[simp] theorem State.setChan_thermSince (s : State) (c : Nat) (x : ChanState) : (s.setChan c x).thermSince = s.thermSince := rfl
@[simp] theorem State.setChan_stepHeld (s : State) (c : Nat) (x : ChanState) : (s.setChan c x).stepHeld = s.stepHeld := rfl
@[simp] theorem State.setChan_phaseHeld (s : State) (c : Nat) (x : ChanState) : (s.setChan c x).phaseHeld = s.phaseHeld := rfl
@[simp] theorem State.setChan_pipeTag (s : State) (c : Nat) (x : ChanState) : (s.setChan c x).pipeTag = s.pipeTag := rfl
@[simp] theorem State.setChan_pipeEnd (s : State) (c : Nat) (x : ChanState) : (s.setChan c x).pipeEnd = s.pipeEnd := rfl
@[simp] theorem State.setChan_spikeX (s : State) (c : Nat) (x : ChanState) : (s.setChan c x).spikeX = s.spikeX := rfl
@[simp] theorem State.setChan_heldOnClose (s : State) (c : Nat) (x : ChanState) : (s.setChan c x).heldOnClose = s.heldOnClose := rfl
@[simp] theorem State.setChan_phaseFrom (s : State) (c : Nat) (x : ChanState) : (s.setChan c x).phaseFrom = s.phaseFrom := rfl
@[simp] theorem State.setChan_phaseT0 (s : State) (c : Nat) (x : ChanState) : (s.setChan c x).phaseT0 = s.phaseT0 := rfl
@[simp] theorem State.setChan_epochs (s : State) (c : Nat) (x : ChanState) : (s.setChan c x).epochs = s.epochs := rfl
@[simp] theorem State.setChan_phaseHeard (s : State) (c : Nat) (x : ChanState) : (s.setChan c x).phaseHeard = s.phaseHeard := rfl
@[simp] theorem State.setChan_agrees (s : State) (c : Nat) (x : ChanState) : (s.setChan c x).agrees = s.agrees := rfl
@[simp] theorem State.setChan_agreeDone (s : State) (c : Nat) (x : ChanState) : (s.setChan c x).agreeDone = s.agreeDone := rfl
@[simp] theorem State.setChan_yieldAt (s : State) (c : Nat) (x : ChanState) : (s.setChan c x).yieldAt = s.yieldAt := rfl
@[simp] theorem State.setChan_yieldWarned (s : State) (c : Nat) (x : ChanState) : (s.setChan c x).yieldWarned = s.yieldWarned := rfl
@[simp] theorem State.setChan_buckets (s : State) (c : Nat) (x : ChanState) : (s.setChan c x).buckets = s.buckets := rfl
@[simp] theorem State.setChan_regLive (s : State) (c : Nat) (x : ChanState) : (s.setChan c x).regLive = s.regLive := rfl
@[simp] theorem State.setChan_regHeldAt (s : State) (c : Nat) (x : ChanState) : (s.setChan c x).regHeldAt = s.regHeldAt := rfl
@[simp] theorem State.setChan_rings (s : State) (c : Nat) (x : ChanState) : (s.setChan c x).rings = s.rings := rfl
@[simp] theorem State.setChan_ports (s : State) (c : Nat) (x : ChanState) : (s.setChan c x).ports = s.ports := rfl
@[simp] theorem State.setChan_bridgeTok (s : State) (c : Nat) (x : ChanState) : (s.setChan c x).bridgeTok = s.bridgeTok := rfl
@[simp] theorem State.setChan_packs (s : State) (c : Nat) (x : ChanState) : (s.setChan c x).packs = s.packs := rfl
@[simp] theorem State.setChan_burstPort (s : State) (c : Nat) (x : ChanState) : (s.setChan c x).burstPort = s.burstPort := rfl
@[simp] theorem State.setChan_inject (s : State) (c : Nat) (x : ChanState) : (s.setChan c x).inject = s.inject := rfl
@[simp] theorem State.setChan_heldFrames (s : State) (c : Nat) (x : ChanState) : (s.setChan c x).heldFrames = s.heldFrames := rfl
@[simp] theorem State.setChan_engines (s : State) (c : Nat) (x : ChanState) : (s.setChan c x).engines = s.engines := rfl
@[simp] theorem State.setChan_norms (s : State) (c : Nat) (x : ChanState) : (s.setChan c x).norms = s.norms := rfl
@[simp] theorem State.setChan_permute (s : State) (c : Nat) (x : ChanState) : (s.setChan c x).permute = s.permute := rfl

@[simp] theorem State.setCore_pending (s : State) (y : Nat) (x : YcCore) : (s.setCore y x).pending = s.pending := rfl
@[simp] theorem State.setCore_regs (s : State) (y : Nat) (x : YcCore) : (s.setCore y x).regs = s.regs := rfl
@[simp] theorem State.setCore_hbm (s : State) (y : Nat) (x : YcCore) : (s.setCore y x).hbm = s.hbm := rfl
@[simp] theorem State.setCore_freeCtr (s : State) (y : Nat) (x : YcCore) : (s.setCore y x).freeCtr = s.freeCtr := rfl
@[simp] theorem State.setCore_out (s : State) (y : Nat) (x : YcCore) : (s.setCore y x).out = s.out := rfl
@[simp] theorem State.setCore_stageNs (s : State) (y : Nat) (x : YcCore) : (s.setCore y x).stageNs = s.stageNs := rfl
@[simp] theorem State.setCore_timeOn (s : State) (y : Nat) (x : YcCore) : (s.setCore y x).timeOn = s.timeOn := rfl
@[simp] theorem State.setCore_pwrOk (s : State) (y : Nat) (x : YcCore) : (s.setCore y x).pwrOk = s.pwrOk := rfl
@[simp] theorem State.setCore_thermtrip (s : State) (y : Nat) (x : YcCore) : (s.setCore y x).thermtrip = s.thermtrip := rfl
@[simp] theorem State.setCore_ganOff (s : State) (y : Nat) (x : YcCore) : (s.setCore y x).ganOff = s.ganOff := rfl
@[simp] theorem State.setCore_inputOut (s : State) (y : Nat) (x : YcCore) : (s.setCore y x).inputOut = s.inputOut := rfl
@[simp] theorem State.setCore_startReset (s : State) (y : Nat) (x : YcCore) : (s.setCore y x).startReset = s.startReset := rfl
@[simp] theorem State.setCore_resetNs (s : State) (y : Nat) (x : YcCore) : (s.setCore y x).resetNs = s.resetNs := rfl
@[simp] theorem State.setCore_hostMsixA (s : State) (y : Nat) (x : YcCore) : (s.setCore y x).hostMsixA = s.hostMsixA := rfl
@[simp] theorem State.setCore_hostMsixB (s : State) (y : Nat) (x : YcCore) : (s.setCore y x).hostMsixB = s.hostMsixB := rfl
@[simp] theorem State.setCore_semSince (s : State) (y : Nat) (x : YcCore) : (s.setCore y x).semSince = s.semSince := rfl
@[simp] theorem State.setCore_latch (s : State) (y : Nat) (x : YcCore) : (s.setCore y x).latch = s.latch := rfl
@[simp] theorem State.setCore_lastLatch (s : State) (y : Nat) (x : YcCore) : (s.setCore y x).lastLatch = s.lastLatch := rfl
@[simp] theorem State.setCore_latchNs (s : State) (y : Nat) (x : YcCore) : (s.setCore y x).latchNs = s.latchNs := rfl
@[simp] theorem State.setCore_beatNs (s : State) (y : Nat) (x : YcCore) : (s.setCore y x).beatNs = s.beatNs := rfl
@[simp] theorem State.setCore_shroudLost (s : State) (y : Nat) (x : YcCore) : (s.setCore y x).shroudLost = s.shroudLost := rfl
@[simp] theorem State.setCore_bankA (s : State) (y : Nat) (x : YcCore) : (s.setCore y x).bankA = s.bankA := rfl
@[simp] theorem State.setCore_bankB (s : State) (y : Nat) (x : YcCore) : (s.setCore y x).bankB = s.bankB := rfl
@[simp] theorem State.setCore_fwVer (s : State) (y : Nat) (x : YcCore) : (s.setCore y x).fwVer = s.fwVer := rfl
@[simp] theorem State.setCore_retiredA (s : State) (y : Nat) (x : YcCore) : (s.setCore y x).retiredA = s.retiredA := rfl
@[simp] theorem State.setCore_retiredB (s : State) (y : Nat) (x : YcCore) : (s.setCore y x).retiredB = s.retiredB := rfl
@[simp] theorem State.setCore_powerLoss (s : State) (y : Nat) (x : YcCore) : (s.setCore y x).powerLoss = s.powerLoss := rfl
@[simp] theorem State.setCore_maintRun (s : State) (y : Nat) (x : YcCore) : (s.setCore y x).maintRun = s.maintRun := rfl
@[simp] theorem State.setCore_maintQueue (s : State) (y : Nat) (x : YcCore) : (s.setCore y x).maintQueue = s.maintQueue := rfl
@[simp] theorem State.setCore_maintWait (s : State) (y : Nat) (x : YcCore) : (s.setCore y x).maintWait = s.maintWait := rfl
@[simp] theorem State.setCore_energyRem (s : State) (y : Nat) (x : YcCore) : (s.setCore y x).energyRem = s.energyRem := rfl
@[simp] theorem State.setCore_limQuietNs (s : State) (y : Nat) (x : YcCore) : (s.setCore y x).limQuietNs = s.limQuietNs := rfl
@[simp] theorem State.setCore_limReported (s : State) (y : Nat) (x : YcCore) : (s.setCore y x).limReported = s.limReported := rfl
@[simp] theorem State.setCore_hotYards (s : State) (y : Nat) (x : YcCore) : (s.setCore y x).hotYards = s.hotYards := rfl
@[simp] theorem State.setCore_tieB (s : State) (y : Nat) (x : YcCore) : (s.setCore y x).tieB = s.tieB := rfl
@[simp] theorem State.setCore_hostCfgA (s : State) (y : Nat) (x : YcCore) : (s.setCore y x).hostCfgA = s.hostCfgA := rfl
@[simp] theorem State.setCore_hostCfgB (s : State) (y : Nat) (x : YcCore) : (s.setCore y x).hostCfgB = s.hostCfgB := rfl
@[simp] theorem State.setCore_warmDies (s : State) (y : Nat) (x : YcCore) : (s.setCore y x).warmDies = s.warmDies := rfl
@[simp] theorem State.setCore_tsyncGood (s : State) (y : Nat) (x : YcCore) : (s.setCore y x).tsyncGood = s.tsyncGood := rfl
@[simp] theorem State.setCore_tsyncNs (s : State) (y : Nat) (x : YcCore) : (s.setCore y x).tsyncNs = s.tsyncNs := rfl
@[simp] theorem State.setCore_slewLeft (s : State) (y : Nat) (x : YcCore) : (s.setCore y x).slewLeft = s.slewLeft := rfl
@[simp] theorem State.setCore_smbOffset (s : State) (y : Nat) (x : YcCore) : (s.setCore y x).smbOffset = s.smbOffset := rfl
@[simp] theorem State.setCore_jtagIr (s : State) (y : Nat) (x : YcCore) : (s.setCore y x).jtagIr = s.jtagIr := rfl
@[simp] theorem State.setCore_cagesOff (s : State) (y : Nat) (x : YcCore) : (s.setCore y x).cagesOff = s.cagesOff := rfl
@[simp] theorem State.setCore_relock (s : State) (y : Nat) (x : YcCore) : (s.setCore y x).relock = s.relock := rfl
@[simp] theorem State.setCore_oscOut (s : State) (y : Nat) (x : YcCore) : (s.setCore y x).oscOut = s.oscOut := rfl
@[simp] theorem State.setCore_switches (s : State) (y : Nat) (x : YcCore) : (s.setCore y x).switches = s.switches := rfl
@[simp] theorem State.setCore_links (s : State) (y : Nat) (x : YcCore) : (s.setCore y x).links = s.links := rfl
@[simp] theorem State.setCore_crossTok (s : State) (y : Nat) (x : YcCore) : (s.setCore y x).crossTok = s.crossTok := rfl
@[simp] theorem State.setCore_crossRail (s : State) (y : Nat) (x : YcCore) : (s.setCore y x).crossRail = s.crossRail := rfl
@[simp] theorem State.setCore_units (s : State) (y : Nat) (x : YcCore) : (s.setCore y x).units = s.units := rfl
@[simp] theorem State.setCore_moved (s : State) (y : Nat) (x : YcCore) : (s.setCore y x).moved = s.moved := rfl
@[simp] theorem State.setCore_sramEpoch (s : State) (y : Nat) (x : YcCore) : (s.setCore y x).sramEpoch = s.sramEpoch := rfl
@[simp] theorem State.setCore_opBuf (s : State) (y : Nat) (x : YcCore) : (s.setCore y x).opBuf = s.opBuf := rfl
@[simp] theorem State.setCore_accMem (s : State) (y : Nat) (x : YcCore) : (s.setCore y x).accMem = s.accMem := rfl
@[simp] theorem State.setCore_tileRegs (s : State) (y : Nat) (x : YcCore) : (s.setCore y x).tileRegs = s.tileRegs := rfl
@[simp] theorem State.setCore_yardStore (s : State) (y : Nat) (x : YcCore) : (s.setCore y x).yardStore = s.yardStore := rfl
@[simp] theorem State.setCore_ycMem (s : State) (y : Nat) (x : YcCore) : (s.setCore y x).ycMem = s.ycMem := rfl
@[simp] theorem State.setCore_sections (s : State) (y : Nat) (x : YcCore) : (s.setCore y x).sections = s.sections := rfl
@[simp] theorem State.setCore_nextUid (s : State) (y : Nat) (x : YcCore) : (s.setCore y x).nextUid = s.nextUid := rfl
@[simp] theorem State.setCore_issueQ (s : State) (y : Nat) (x : YcCore) : (s.setCore y x).issueQ = s.issueQ := rfl
@[simp] theorem State.setCore_waiting (s : State) (y : Nat) (x : YcCore) : (s.setCore y x).waiting = s.waiting := rfl
@[simp] theorem State.setCore_images (s : State) (y : Nat) (x : YcCore) : (s.setCore y x).images = s.images := rfl
@[simp] theorem State.setCore_crossOwner (s : State) (y : Nat) (x : YcCore) : (s.setCore y x).crossOwner = s.crossOwner := rfl
@[simp] theorem State.setCore_loads (s : State) (y : Nat) (x : YcCore) : (s.setCore y x).loads = s.loads := rfl
@[simp] theorem State.setCore_stayAbsent (s : State) (y : Nat) (x : YcCore) : (s.setCore y x).stayAbsent = s.stayAbsent := rfl
@[simp] theorem State.setCore_bothLost (s : State) (y : Nat) (x : YcCore) : (s.setCore y x).bothLost = s.bothLost := rfl
@[simp] theorem State.setCore_wc (s : State) (y : Nat) (x : YcCore) : (s.setCore y x).wc = s.wc := rfl
@[simp] theorem State.setCore_leases (s : State) (y : Nat) (x : YcCore) : (s.setCore y x).leases = s.leases := rfl
@[simp] theorem State.setCore_wcQ (s : State) (y : Nat) (x : YcCore) : (s.setCore y x).wcQ = s.wcQ := rfl
@[simp] theorem State.setCore_slices (s : State) (y : Nat) (x : YcCore) : (s.setCore y x).slices = s.slices := rfl
@[simp] theorem State.setCore_chans (s : State) (y : Nat) (x : YcCore) : (s.setCore y x).chans = s.chans := rfl
@[simp] theorem State.setCore_askers (s : State) (y : Nat) (x : YcCore) : (s.setCore y x).askers = s.askers := rfl
@[simp] theorem State.setCore_barReads (s : State) (y : Nat) (x : YcCore) : (s.setCore y x).barReads = s.barReads := rfl
@[simp] theorem State.setCore_rowCe (s : State) (y : Nat) (x : YcCore) : (s.setCore y x).rowCe = s.rowCe := rfl
@[simp] theorem State.setCore_recRepaired (s : State) (y : Nat) (x : YcCore) : (s.setCore y x).recRepaired = s.recRepaired := rfl
@[simp] theorem State.setCore_recPermanent (s : State) (y : Nat) (x : YcCore) : (s.setCore y x).recPermanent = s.recPermanent := rfl
@[simp] theorem State.setCore_recPending (s : State) (y : Nat) (x : YcCore) : (s.setCore y x).recPending = s.recPending := rfl
@[simp] theorem State.setCore_recMapped (s : State) (y : Nat) (x : YcCore) : (s.setCore y x).recMapped = s.recMapped := rfl
@[simp] theorem State.setCore_spareUsed (s : State) (y : Nat) (x : YcCore) : (s.setCore y x).spareUsed = s.spareUsed := rfl
@[simp] theorem State.setCore_thermSince (s : State) (y : Nat) (x : YcCore) : (s.setCore y x).thermSince = s.thermSince := rfl
@[simp] theorem State.setCore_stepHeld (s : State) (y : Nat) (x : YcCore) : (s.setCore y x).stepHeld = s.stepHeld := rfl
@[simp] theorem State.setCore_phaseHeld (s : State) (y : Nat) (x : YcCore) : (s.setCore y x).phaseHeld = s.phaseHeld := rfl
@[simp] theorem State.setCore_pipeTag (s : State) (y : Nat) (x : YcCore) : (s.setCore y x).pipeTag = s.pipeTag := rfl
@[simp] theorem State.setCore_pipeEnd (s : State) (y : Nat) (x : YcCore) : (s.setCore y x).pipeEnd = s.pipeEnd := rfl
@[simp] theorem State.setCore_spikeX (s : State) (y : Nat) (x : YcCore) : (s.setCore y x).spikeX = s.spikeX := rfl
@[simp] theorem State.setCore_heldOnClose (s : State) (y : Nat) (x : YcCore) : (s.setCore y x).heldOnClose = s.heldOnClose := rfl
@[simp] theorem State.setCore_phaseFrom (s : State) (y : Nat) (x : YcCore) : (s.setCore y x).phaseFrom = s.phaseFrom := rfl
@[simp] theorem State.setCore_phaseT0 (s : State) (y : Nat) (x : YcCore) : (s.setCore y x).phaseT0 = s.phaseT0 := rfl
@[simp] theorem State.setCore_epochs (s : State) (y : Nat) (x : YcCore) : (s.setCore y x).epochs = s.epochs := rfl
@[simp] theorem State.setCore_phaseHeard (s : State) (y : Nat) (x : YcCore) : (s.setCore y x).phaseHeard = s.phaseHeard := rfl
@[simp] theorem State.setCore_agrees (s : State) (y : Nat) (x : YcCore) : (s.setCore y x).agrees = s.agrees := rfl
@[simp] theorem State.setCore_agreeDone (s : State) (y : Nat) (x : YcCore) : (s.setCore y x).agreeDone = s.agreeDone := rfl
@[simp] theorem State.setCore_yieldAt (s : State) (y : Nat) (x : YcCore) : (s.setCore y x).yieldAt = s.yieldAt := rfl
@[simp] theorem State.setCore_yieldWarned (s : State) (y : Nat) (x : YcCore) : (s.setCore y x).yieldWarned = s.yieldWarned := rfl
@[simp] theorem State.setCore_buckets (s : State) (y : Nat) (x : YcCore) : (s.setCore y x).buckets = s.buckets := rfl
@[simp] theorem State.setCore_regLive (s : State) (y : Nat) (x : YcCore) : (s.setCore y x).regLive = s.regLive := rfl
@[simp] theorem State.setCore_regHeldAt (s : State) (y : Nat) (x : YcCore) : (s.setCore y x).regHeldAt = s.regHeldAt := rfl
@[simp] theorem State.setCore_rings (s : State) (y : Nat) (x : YcCore) : (s.setCore y x).rings = s.rings := rfl
@[simp] theorem State.setCore_ports (s : State) (y : Nat) (x : YcCore) : (s.setCore y x).ports = s.ports := rfl
@[simp] theorem State.setCore_bridgeTok (s : State) (y : Nat) (x : YcCore) : (s.setCore y x).bridgeTok = s.bridgeTok := rfl
@[simp] theorem State.setCore_packs (s : State) (y : Nat) (x : YcCore) : (s.setCore y x).packs = s.packs := rfl
@[simp] theorem State.setCore_burstPort (s : State) (y : Nat) (x : YcCore) : (s.setCore y x).burstPort = s.burstPort := rfl
@[simp] theorem State.setCore_inject (s : State) (y : Nat) (x : YcCore) : (s.setCore y x).inject = s.inject := rfl
@[simp] theorem State.setCore_heldFrames (s : State) (y : Nat) (x : YcCore) : (s.setCore y x).heldFrames = s.heldFrames := rfl
@[simp] theorem State.setCore_engines (s : State) (y : Nat) (x : YcCore) : (s.setCore y x).engines = s.engines := rfl
@[simp] theorem State.setCore_norms (s : State) (y : Nat) (x : YcCore) : (s.setCore y x).norms = s.norms := rfl
@[simp] theorem State.setCore_permute (s : State) (y : Nat) (x : YcCore) : (s.setCore y x).permute = s.permute := rfl

@[simp] theorem State.setLocal_pending (s : State) (y : Nat) (m : Mem) : (s.setLocal y m).pending = s.pending := rfl
@[simp] theorem State.setLocal_regs (s : State) (y : Nat) (m : Mem) : (s.setLocal y m).regs = s.regs := rfl
@[simp] theorem State.setLocal_hbm (s : State) (y : Nat) (m : Mem) : (s.setLocal y m).hbm = s.hbm := rfl
@[simp] theorem State.setLocal_freeCtr (s : State) (y : Nat) (m : Mem) : (s.setLocal y m).freeCtr = s.freeCtr := rfl
@[simp] theorem State.setLocal_out (s : State) (y : Nat) (m : Mem) : (s.setLocal y m).out = s.out := rfl
@[simp] theorem State.setLocal_stageNs (s : State) (y : Nat) (m : Mem) : (s.setLocal y m).stageNs = s.stageNs := rfl
@[simp] theorem State.setLocal_timeOn (s : State) (y : Nat) (m : Mem) : (s.setLocal y m).timeOn = s.timeOn := rfl
@[simp] theorem State.setLocal_pwrOk (s : State) (y : Nat) (m : Mem) : (s.setLocal y m).pwrOk = s.pwrOk := rfl
@[simp] theorem State.setLocal_thermtrip (s : State) (y : Nat) (m : Mem) : (s.setLocal y m).thermtrip = s.thermtrip := rfl
@[simp] theorem State.setLocal_ganOff (s : State) (y : Nat) (m : Mem) : (s.setLocal y m).ganOff = s.ganOff := rfl
@[simp] theorem State.setLocal_inputOut (s : State) (y : Nat) (m : Mem) : (s.setLocal y m).inputOut = s.inputOut := rfl
@[simp] theorem State.setLocal_startReset (s : State) (y : Nat) (m : Mem) : (s.setLocal y m).startReset = s.startReset := rfl
@[simp] theorem State.setLocal_resetNs (s : State) (y : Nat) (m : Mem) : (s.setLocal y m).resetNs = s.resetNs := rfl
@[simp] theorem State.setLocal_hostMsixA (s : State) (y : Nat) (m : Mem) : (s.setLocal y m).hostMsixA = s.hostMsixA := rfl
@[simp] theorem State.setLocal_hostMsixB (s : State) (y : Nat) (m : Mem) : (s.setLocal y m).hostMsixB = s.hostMsixB := rfl
@[simp] theorem State.setLocal_semSince (s : State) (y : Nat) (m : Mem) : (s.setLocal y m).semSince = s.semSince := rfl
@[simp] theorem State.setLocal_latch (s : State) (y : Nat) (m : Mem) : (s.setLocal y m).latch = s.latch := rfl
@[simp] theorem State.setLocal_lastLatch (s : State) (y : Nat) (m : Mem) : (s.setLocal y m).lastLatch = s.lastLatch := rfl
@[simp] theorem State.setLocal_latchNs (s : State) (y : Nat) (m : Mem) : (s.setLocal y m).latchNs = s.latchNs := rfl
@[simp] theorem State.setLocal_beatNs (s : State) (y : Nat) (m : Mem) : (s.setLocal y m).beatNs = s.beatNs := rfl
@[simp] theorem State.setLocal_shroudLost (s : State) (y : Nat) (m : Mem) : (s.setLocal y m).shroudLost = s.shroudLost := rfl
@[simp] theorem State.setLocal_bankA (s : State) (y : Nat) (m : Mem) : (s.setLocal y m).bankA = s.bankA := rfl
@[simp] theorem State.setLocal_bankB (s : State) (y : Nat) (m : Mem) : (s.setLocal y m).bankB = s.bankB := rfl
@[simp] theorem State.setLocal_fwVer (s : State) (y : Nat) (m : Mem) : (s.setLocal y m).fwVer = s.fwVer := rfl
@[simp] theorem State.setLocal_retiredA (s : State) (y : Nat) (m : Mem) : (s.setLocal y m).retiredA = s.retiredA := rfl
@[simp] theorem State.setLocal_retiredB (s : State) (y : Nat) (m : Mem) : (s.setLocal y m).retiredB = s.retiredB := rfl
@[simp] theorem State.setLocal_powerLoss (s : State) (y : Nat) (m : Mem) : (s.setLocal y m).powerLoss = s.powerLoss := rfl
@[simp] theorem State.setLocal_maintRun (s : State) (y : Nat) (m : Mem) : (s.setLocal y m).maintRun = s.maintRun := rfl
@[simp] theorem State.setLocal_maintQueue (s : State) (y : Nat) (m : Mem) : (s.setLocal y m).maintQueue = s.maintQueue := rfl
@[simp] theorem State.setLocal_maintWait (s : State) (y : Nat) (m : Mem) : (s.setLocal y m).maintWait = s.maintWait := rfl
@[simp] theorem State.setLocal_energyRem (s : State) (y : Nat) (m : Mem) : (s.setLocal y m).energyRem = s.energyRem := rfl
@[simp] theorem State.setLocal_limQuietNs (s : State) (y : Nat) (m : Mem) : (s.setLocal y m).limQuietNs = s.limQuietNs := rfl
@[simp] theorem State.setLocal_limReported (s : State) (y : Nat) (m : Mem) : (s.setLocal y m).limReported = s.limReported := rfl
@[simp] theorem State.setLocal_hotYards (s : State) (y : Nat) (m : Mem) : (s.setLocal y m).hotYards = s.hotYards := rfl
@[simp] theorem State.setLocal_tieB (s : State) (y : Nat) (m : Mem) : (s.setLocal y m).tieB = s.tieB := rfl
@[simp] theorem State.setLocal_hostCfgA (s : State) (y : Nat) (m : Mem) : (s.setLocal y m).hostCfgA = s.hostCfgA := rfl
@[simp] theorem State.setLocal_hostCfgB (s : State) (y : Nat) (m : Mem) : (s.setLocal y m).hostCfgB = s.hostCfgB := rfl
@[simp] theorem State.setLocal_warmDies (s : State) (y : Nat) (m : Mem) : (s.setLocal y m).warmDies = s.warmDies := rfl
@[simp] theorem State.setLocal_tsyncGood (s : State) (y : Nat) (m : Mem) : (s.setLocal y m).tsyncGood = s.tsyncGood := rfl
@[simp] theorem State.setLocal_tsyncNs (s : State) (y : Nat) (m : Mem) : (s.setLocal y m).tsyncNs = s.tsyncNs := rfl
@[simp] theorem State.setLocal_slewLeft (s : State) (y : Nat) (m : Mem) : (s.setLocal y m).slewLeft = s.slewLeft := rfl
@[simp] theorem State.setLocal_smbOffset (s : State) (y : Nat) (m : Mem) : (s.setLocal y m).smbOffset = s.smbOffset := rfl
@[simp] theorem State.setLocal_jtagIr (s : State) (y : Nat) (m : Mem) : (s.setLocal y m).jtagIr = s.jtagIr := rfl
@[simp] theorem State.setLocal_cagesOff (s : State) (y : Nat) (m : Mem) : (s.setLocal y m).cagesOff = s.cagesOff := rfl
@[simp] theorem State.setLocal_relock (s : State) (y : Nat) (m : Mem) : (s.setLocal y m).relock = s.relock := rfl
@[simp] theorem State.setLocal_oscOut (s : State) (y : Nat) (m : Mem) : (s.setLocal y m).oscOut = s.oscOut := rfl
@[simp] theorem State.setLocal_switches (s : State) (y : Nat) (m : Mem) : (s.setLocal y m).switches = s.switches := rfl
@[simp] theorem State.setLocal_links (s : State) (y : Nat) (m : Mem) : (s.setLocal y m).links = s.links := rfl
@[simp] theorem State.setLocal_crossTok (s : State) (y : Nat) (m : Mem) : (s.setLocal y m).crossTok = s.crossTok := rfl
@[simp] theorem State.setLocal_crossRail (s : State) (y : Nat) (m : Mem) : (s.setLocal y m).crossRail = s.crossRail := rfl
@[simp] theorem State.setLocal_units (s : State) (y : Nat) (m : Mem) : (s.setLocal y m).units = s.units := rfl
@[simp] theorem State.setLocal_moved (s : State) (y : Nat) (m : Mem) : (s.setLocal y m).moved = s.moved := rfl
@[simp] theorem State.setLocal_sramEpoch (s : State) (y : Nat) (m : Mem) : (s.setLocal y m).sramEpoch = s.sramEpoch := rfl
@[simp] theorem State.setLocal_opBuf (s : State) (y : Nat) (m : Mem) : (s.setLocal y m).opBuf = s.opBuf := rfl
@[simp] theorem State.setLocal_accMem (s : State) (y : Nat) (m : Mem) : (s.setLocal y m).accMem = s.accMem := rfl
@[simp] theorem State.setLocal_tileRegs (s : State) (y : Nat) (m : Mem) : (s.setLocal y m).tileRegs = s.tileRegs := rfl
@[simp] theorem State.setLocal_yardStore (s : State) (y : Nat) (m : Mem) : (s.setLocal y m).yardStore = s.yardStore := rfl
@[simp] theorem State.setLocal_sections (s : State) (y : Nat) (m : Mem) : (s.setLocal y m).sections = s.sections := rfl
@[simp] theorem State.setLocal_nextUid (s : State) (y : Nat) (m : Mem) : (s.setLocal y m).nextUid = s.nextUid := rfl
@[simp] theorem State.setLocal_issueQ (s : State) (y : Nat) (m : Mem) : (s.setLocal y m).issueQ = s.issueQ := rfl
@[simp] theorem State.setLocal_waiting (s : State) (y : Nat) (m : Mem) : (s.setLocal y m).waiting = s.waiting := rfl
@[simp] theorem State.setLocal_images (s : State) (y : Nat) (m : Mem) : (s.setLocal y m).images = s.images := rfl
@[simp] theorem State.setLocal_crossOwner (s : State) (y : Nat) (m : Mem) : (s.setLocal y m).crossOwner = s.crossOwner := rfl
@[simp] theorem State.setLocal_loads (s : State) (y : Nat) (m : Mem) : (s.setLocal y m).loads = s.loads := rfl
@[simp] theorem State.setLocal_stayAbsent (s : State) (y : Nat) (m : Mem) : (s.setLocal y m).stayAbsent = s.stayAbsent := rfl
@[simp] theorem State.setLocal_bothLost (s : State) (y : Nat) (m : Mem) : (s.setLocal y m).bothLost = s.bothLost := rfl
@[simp] theorem State.setLocal_cores (s : State) (y : Nat) (m : Mem) : (s.setLocal y m).cores = s.cores := rfl
@[simp] theorem State.setLocal_wc (s : State) (y : Nat) (m : Mem) : (s.setLocal y m).wc = s.wc := rfl
@[simp] theorem State.setLocal_leases (s : State) (y : Nat) (m : Mem) : (s.setLocal y m).leases = s.leases := rfl
@[simp] theorem State.setLocal_wcQ (s : State) (y : Nat) (m : Mem) : (s.setLocal y m).wcQ = s.wcQ := rfl
@[simp] theorem State.setLocal_slices (s : State) (y : Nat) (m : Mem) : (s.setLocal y m).slices = s.slices := rfl
@[simp] theorem State.setLocal_chans (s : State) (y : Nat) (m : Mem) : (s.setLocal y m).chans = s.chans := rfl
@[simp] theorem State.setLocal_askers (s : State) (y : Nat) (m : Mem) : (s.setLocal y m).askers = s.askers := rfl
@[simp] theorem State.setLocal_barReads (s : State) (y : Nat) (m : Mem) : (s.setLocal y m).barReads = s.barReads := rfl
@[simp] theorem State.setLocal_rowCe (s : State) (y : Nat) (m : Mem) : (s.setLocal y m).rowCe = s.rowCe := rfl
@[simp] theorem State.setLocal_recRepaired (s : State) (y : Nat) (m : Mem) : (s.setLocal y m).recRepaired = s.recRepaired := rfl
@[simp] theorem State.setLocal_recPermanent (s : State) (y : Nat) (m : Mem) : (s.setLocal y m).recPermanent = s.recPermanent := rfl
@[simp] theorem State.setLocal_recPending (s : State) (y : Nat) (m : Mem) : (s.setLocal y m).recPending = s.recPending := rfl
@[simp] theorem State.setLocal_recMapped (s : State) (y : Nat) (m : Mem) : (s.setLocal y m).recMapped = s.recMapped := rfl
@[simp] theorem State.setLocal_spareUsed (s : State) (y : Nat) (m : Mem) : (s.setLocal y m).spareUsed = s.spareUsed := rfl
@[simp] theorem State.setLocal_thermSince (s : State) (y : Nat) (m : Mem) : (s.setLocal y m).thermSince = s.thermSince := rfl
@[simp] theorem State.setLocal_stepHeld (s : State) (y : Nat) (m : Mem) : (s.setLocal y m).stepHeld = s.stepHeld := rfl
@[simp] theorem State.setLocal_phaseHeld (s : State) (y : Nat) (m : Mem) : (s.setLocal y m).phaseHeld = s.phaseHeld := rfl
@[simp] theorem State.setLocal_pipeTag (s : State) (y : Nat) (m : Mem) : (s.setLocal y m).pipeTag = s.pipeTag := rfl
@[simp] theorem State.setLocal_pipeEnd (s : State) (y : Nat) (m : Mem) : (s.setLocal y m).pipeEnd = s.pipeEnd := rfl
@[simp] theorem State.setLocal_spikeX (s : State) (y : Nat) (m : Mem) : (s.setLocal y m).spikeX = s.spikeX := rfl
@[simp] theorem State.setLocal_heldOnClose (s : State) (y : Nat) (m : Mem) : (s.setLocal y m).heldOnClose = s.heldOnClose := rfl
@[simp] theorem State.setLocal_phaseFrom (s : State) (y : Nat) (m : Mem) : (s.setLocal y m).phaseFrom = s.phaseFrom := rfl
@[simp] theorem State.setLocal_phaseT0 (s : State) (y : Nat) (m : Mem) : (s.setLocal y m).phaseT0 = s.phaseT0 := rfl
@[simp] theorem State.setLocal_epochs (s : State) (y : Nat) (m : Mem) : (s.setLocal y m).epochs = s.epochs := rfl
@[simp] theorem State.setLocal_phaseHeard (s : State) (y : Nat) (m : Mem) : (s.setLocal y m).phaseHeard = s.phaseHeard := rfl
@[simp] theorem State.setLocal_agrees (s : State) (y : Nat) (m : Mem) : (s.setLocal y m).agrees = s.agrees := rfl
@[simp] theorem State.setLocal_agreeDone (s : State) (y : Nat) (m : Mem) : (s.setLocal y m).agreeDone = s.agreeDone := rfl
@[simp] theorem State.setLocal_yieldAt (s : State) (y : Nat) (m : Mem) : (s.setLocal y m).yieldAt = s.yieldAt := rfl
@[simp] theorem State.setLocal_yieldWarned (s : State) (y : Nat) (m : Mem) : (s.setLocal y m).yieldWarned = s.yieldWarned := rfl
@[simp] theorem State.setLocal_buckets (s : State) (y : Nat) (m : Mem) : (s.setLocal y m).buckets = s.buckets := rfl
@[simp] theorem State.setLocal_regLive (s : State) (y : Nat) (m : Mem) : (s.setLocal y m).regLive = s.regLive := rfl
@[simp] theorem State.setLocal_regHeldAt (s : State) (y : Nat) (m : Mem) : (s.setLocal y m).regHeldAt = s.regHeldAt := rfl
@[simp] theorem State.setLocal_rings (s : State) (y : Nat) (m : Mem) : (s.setLocal y m).rings = s.rings := rfl
@[simp] theorem State.setLocal_ports (s : State) (y : Nat) (m : Mem) : (s.setLocal y m).ports = s.ports := rfl
@[simp] theorem State.setLocal_bridgeTok (s : State) (y : Nat) (m : Mem) : (s.setLocal y m).bridgeTok = s.bridgeTok := rfl
@[simp] theorem State.setLocal_packs (s : State) (y : Nat) (m : Mem) : (s.setLocal y m).packs = s.packs := rfl
@[simp] theorem State.setLocal_burstPort (s : State) (y : Nat) (m : Mem) : (s.setLocal y m).burstPort = s.burstPort := rfl
@[simp] theorem State.setLocal_inject (s : State) (y : Nat) (m : Mem) : (s.setLocal y m).inject = s.inject := rfl
@[simp] theorem State.setLocal_heldFrames (s : State) (y : Nat) (m : Mem) : (s.setLocal y m).heldFrames = s.heldFrames := rfl
@[simp] theorem State.setLocal_engines (s : State) (y : Nat) (m : Mem) : (s.setLocal y m).engines = s.engines := rfl
@[simp] theorem State.setLocal_norms (s : State) (y : Nat) (m : Mem) : (s.setLocal y m).norms = s.norms := rfl
@[simp] theorem State.setLocal_permute (s : State) (y : Nat) (m : Mem) : (s.setLocal y m).permute = s.permute := rfl

@[simp] theorem State.setEngine_pending (s : State) (d : Nat) (x : EngineState) : (s.setEngine d x).pending = s.pending := rfl
@[simp] theorem State.setEngine_regs (s : State) (d : Nat) (x : EngineState) : (s.setEngine d x).regs = s.regs := rfl
@[simp] theorem State.setEngine_hbm (s : State) (d : Nat) (x : EngineState) : (s.setEngine d x).hbm = s.hbm := rfl
@[simp] theorem State.setEngine_freeCtr (s : State) (d : Nat) (x : EngineState) : (s.setEngine d x).freeCtr = s.freeCtr := rfl
@[simp] theorem State.setEngine_out (s : State) (d : Nat) (x : EngineState) : (s.setEngine d x).out = s.out := rfl
@[simp] theorem State.setEngine_stageNs (s : State) (d : Nat) (x : EngineState) : (s.setEngine d x).stageNs = s.stageNs := rfl
@[simp] theorem State.setEngine_timeOn (s : State) (d : Nat) (x : EngineState) : (s.setEngine d x).timeOn = s.timeOn := rfl
@[simp] theorem State.setEngine_pwrOk (s : State) (d : Nat) (x : EngineState) : (s.setEngine d x).pwrOk = s.pwrOk := rfl
@[simp] theorem State.setEngine_thermtrip (s : State) (d : Nat) (x : EngineState) : (s.setEngine d x).thermtrip = s.thermtrip := rfl
@[simp] theorem State.setEngine_ganOff (s : State) (d : Nat) (x : EngineState) : (s.setEngine d x).ganOff = s.ganOff := rfl
@[simp] theorem State.setEngine_inputOut (s : State) (d : Nat) (x : EngineState) : (s.setEngine d x).inputOut = s.inputOut := rfl
@[simp] theorem State.setEngine_startReset (s : State) (d : Nat) (x : EngineState) : (s.setEngine d x).startReset = s.startReset := rfl
@[simp] theorem State.setEngine_resetNs (s : State) (d : Nat) (x : EngineState) : (s.setEngine d x).resetNs = s.resetNs := rfl
@[simp] theorem State.setEngine_hostMsixA (s : State) (d : Nat) (x : EngineState) : (s.setEngine d x).hostMsixA = s.hostMsixA := rfl
@[simp] theorem State.setEngine_hostMsixB (s : State) (d : Nat) (x : EngineState) : (s.setEngine d x).hostMsixB = s.hostMsixB := rfl
@[simp] theorem State.setEngine_semSince (s : State) (d : Nat) (x : EngineState) : (s.setEngine d x).semSince = s.semSince := rfl
@[simp] theorem State.setEngine_latch (s : State) (d : Nat) (x : EngineState) : (s.setEngine d x).latch = s.latch := rfl
@[simp] theorem State.setEngine_lastLatch (s : State) (d : Nat) (x : EngineState) : (s.setEngine d x).lastLatch = s.lastLatch := rfl
@[simp] theorem State.setEngine_latchNs (s : State) (d : Nat) (x : EngineState) : (s.setEngine d x).latchNs = s.latchNs := rfl
@[simp] theorem State.setEngine_beatNs (s : State) (d : Nat) (x : EngineState) : (s.setEngine d x).beatNs = s.beatNs := rfl
@[simp] theorem State.setEngine_shroudLost (s : State) (d : Nat) (x : EngineState) : (s.setEngine d x).shroudLost = s.shroudLost := rfl
@[simp] theorem State.setEngine_bankA (s : State) (d : Nat) (x : EngineState) : (s.setEngine d x).bankA = s.bankA := rfl
@[simp] theorem State.setEngine_bankB (s : State) (d : Nat) (x : EngineState) : (s.setEngine d x).bankB = s.bankB := rfl
@[simp] theorem State.setEngine_fwVer (s : State) (d : Nat) (x : EngineState) : (s.setEngine d x).fwVer = s.fwVer := rfl
@[simp] theorem State.setEngine_retiredA (s : State) (d : Nat) (x : EngineState) : (s.setEngine d x).retiredA = s.retiredA := rfl
@[simp] theorem State.setEngine_retiredB (s : State) (d : Nat) (x : EngineState) : (s.setEngine d x).retiredB = s.retiredB := rfl
@[simp] theorem State.setEngine_powerLoss (s : State) (d : Nat) (x : EngineState) : (s.setEngine d x).powerLoss = s.powerLoss := rfl
@[simp] theorem State.setEngine_maintRun (s : State) (d : Nat) (x : EngineState) : (s.setEngine d x).maintRun = s.maintRun := rfl
@[simp] theorem State.setEngine_maintQueue (s : State) (d : Nat) (x : EngineState) : (s.setEngine d x).maintQueue = s.maintQueue := rfl
@[simp] theorem State.setEngine_maintWait (s : State) (d : Nat) (x : EngineState) : (s.setEngine d x).maintWait = s.maintWait := rfl
@[simp] theorem State.setEngine_energyRem (s : State) (d : Nat) (x : EngineState) : (s.setEngine d x).energyRem = s.energyRem := rfl
@[simp] theorem State.setEngine_limQuietNs (s : State) (d : Nat) (x : EngineState) : (s.setEngine d x).limQuietNs = s.limQuietNs := rfl
@[simp] theorem State.setEngine_limReported (s : State) (d : Nat) (x : EngineState) : (s.setEngine d x).limReported = s.limReported := rfl
@[simp] theorem State.setEngine_hotYards (s : State) (d : Nat) (x : EngineState) : (s.setEngine d x).hotYards = s.hotYards := rfl
@[simp] theorem State.setEngine_tieB (s : State) (d : Nat) (x : EngineState) : (s.setEngine d x).tieB = s.tieB := rfl
@[simp] theorem State.setEngine_hostCfgA (s : State) (d : Nat) (x : EngineState) : (s.setEngine d x).hostCfgA = s.hostCfgA := rfl
@[simp] theorem State.setEngine_hostCfgB (s : State) (d : Nat) (x : EngineState) : (s.setEngine d x).hostCfgB = s.hostCfgB := rfl
@[simp] theorem State.setEngine_warmDies (s : State) (d : Nat) (x : EngineState) : (s.setEngine d x).warmDies = s.warmDies := rfl
@[simp] theorem State.setEngine_tsyncGood (s : State) (d : Nat) (x : EngineState) : (s.setEngine d x).tsyncGood = s.tsyncGood := rfl
@[simp] theorem State.setEngine_tsyncNs (s : State) (d : Nat) (x : EngineState) : (s.setEngine d x).tsyncNs = s.tsyncNs := rfl
@[simp] theorem State.setEngine_slewLeft (s : State) (d : Nat) (x : EngineState) : (s.setEngine d x).slewLeft = s.slewLeft := rfl
@[simp] theorem State.setEngine_smbOffset (s : State) (d : Nat) (x : EngineState) : (s.setEngine d x).smbOffset = s.smbOffset := rfl
@[simp] theorem State.setEngine_jtagIr (s : State) (d : Nat) (x : EngineState) : (s.setEngine d x).jtagIr = s.jtagIr := rfl
@[simp] theorem State.setEngine_cagesOff (s : State) (d : Nat) (x : EngineState) : (s.setEngine d x).cagesOff = s.cagesOff := rfl
@[simp] theorem State.setEngine_relock (s : State) (d : Nat) (x : EngineState) : (s.setEngine d x).relock = s.relock := rfl
@[simp] theorem State.setEngine_oscOut (s : State) (d : Nat) (x : EngineState) : (s.setEngine d x).oscOut = s.oscOut := rfl
@[simp] theorem State.setEngine_switches (s : State) (d : Nat) (x : EngineState) : (s.setEngine d x).switches = s.switches := rfl
@[simp] theorem State.setEngine_links (s : State) (d : Nat) (x : EngineState) : (s.setEngine d x).links = s.links := rfl
@[simp] theorem State.setEngine_crossTok (s : State) (d : Nat) (x : EngineState) : (s.setEngine d x).crossTok = s.crossTok := rfl
@[simp] theorem State.setEngine_crossRail (s : State) (d : Nat) (x : EngineState) : (s.setEngine d x).crossRail = s.crossRail := rfl
@[simp] theorem State.setEngine_units (s : State) (d : Nat) (x : EngineState) : (s.setEngine d x).units = s.units := rfl
@[simp] theorem State.setEngine_moved (s : State) (d : Nat) (x : EngineState) : (s.setEngine d x).moved = s.moved := rfl
@[simp] theorem State.setEngine_sramEpoch (s : State) (d : Nat) (x : EngineState) : (s.setEngine d x).sramEpoch = s.sramEpoch := rfl
@[simp] theorem State.setEngine_opBuf (s : State) (d : Nat) (x : EngineState) : (s.setEngine d x).opBuf = s.opBuf := rfl
@[simp] theorem State.setEngine_accMem (s : State) (d : Nat) (x : EngineState) : (s.setEngine d x).accMem = s.accMem := rfl
@[simp] theorem State.setEngine_tileRegs (s : State) (d : Nat) (x : EngineState) : (s.setEngine d x).tileRegs = s.tileRegs := rfl
@[simp] theorem State.setEngine_yardStore (s : State) (d : Nat) (x : EngineState) : (s.setEngine d x).yardStore = s.yardStore := rfl
@[simp] theorem State.setEngine_ycMem (s : State) (d : Nat) (x : EngineState) : (s.setEngine d x).ycMem = s.ycMem := rfl
@[simp] theorem State.setEngine_sections (s : State) (d : Nat) (x : EngineState) : (s.setEngine d x).sections = s.sections := rfl
@[simp] theorem State.setEngine_nextUid (s : State) (d : Nat) (x : EngineState) : (s.setEngine d x).nextUid = s.nextUid := rfl
@[simp] theorem State.setEngine_issueQ (s : State) (d : Nat) (x : EngineState) : (s.setEngine d x).issueQ = s.issueQ := rfl
@[simp] theorem State.setEngine_waiting (s : State) (d : Nat) (x : EngineState) : (s.setEngine d x).waiting = s.waiting := rfl
@[simp] theorem State.setEngine_images (s : State) (d : Nat) (x : EngineState) : (s.setEngine d x).images = s.images := rfl
@[simp] theorem State.setEngine_crossOwner (s : State) (d : Nat) (x : EngineState) : (s.setEngine d x).crossOwner = s.crossOwner := rfl
@[simp] theorem State.setEngine_loads (s : State) (d : Nat) (x : EngineState) : (s.setEngine d x).loads = s.loads := rfl
@[simp] theorem State.setEngine_stayAbsent (s : State) (d : Nat) (x : EngineState) : (s.setEngine d x).stayAbsent = s.stayAbsent := rfl
@[simp] theorem State.setEngine_bothLost (s : State) (d : Nat) (x : EngineState) : (s.setEngine d x).bothLost = s.bothLost := rfl
@[simp] theorem State.setEngine_cores (s : State) (d : Nat) (x : EngineState) : (s.setEngine d x).cores = s.cores := rfl
@[simp] theorem State.setEngine_wc (s : State) (d : Nat) (x : EngineState) : (s.setEngine d x).wc = s.wc := rfl
@[simp] theorem State.setEngine_leases (s : State) (d : Nat) (x : EngineState) : (s.setEngine d x).leases = s.leases := rfl
@[simp] theorem State.setEngine_wcQ (s : State) (d : Nat) (x : EngineState) : (s.setEngine d x).wcQ = s.wcQ := rfl
@[simp] theorem State.setEngine_slices (s : State) (d : Nat) (x : EngineState) : (s.setEngine d x).slices = s.slices := rfl
@[simp] theorem State.setEngine_chans (s : State) (d : Nat) (x : EngineState) : (s.setEngine d x).chans = s.chans := rfl
@[simp] theorem State.setEngine_askers (s : State) (d : Nat) (x : EngineState) : (s.setEngine d x).askers = s.askers := rfl
@[simp] theorem State.setEngine_barReads (s : State) (d : Nat) (x : EngineState) : (s.setEngine d x).barReads = s.barReads := rfl
@[simp] theorem State.setEngine_rowCe (s : State) (d : Nat) (x : EngineState) : (s.setEngine d x).rowCe = s.rowCe := rfl
@[simp] theorem State.setEngine_recRepaired (s : State) (d : Nat) (x : EngineState) : (s.setEngine d x).recRepaired = s.recRepaired := rfl
@[simp] theorem State.setEngine_recPermanent (s : State) (d : Nat) (x : EngineState) : (s.setEngine d x).recPermanent = s.recPermanent := rfl
@[simp] theorem State.setEngine_recPending (s : State) (d : Nat) (x : EngineState) : (s.setEngine d x).recPending = s.recPending := rfl
@[simp] theorem State.setEngine_recMapped (s : State) (d : Nat) (x : EngineState) : (s.setEngine d x).recMapped = s.recMapped := rfl
@[simp] theorem State.setEngine_spareUsed (s : State) (d : Nat) (x : EngineState) : (s.setEngine d x).spareUsed = s.spareUsed := rfl
@[simp] theorem State.setEngine_thermSince (s : State) (d : Nat) (x : EngineState) : (s.setEngine d x).thermSince = s.thermSince := rfl
@[simp] theorem State.setEngine_stepHeld (s : State) (d : Nat) (x : EngineState) : (s.setEngine d x).stepHeld = s.stepHeld := rfl
@[simp] theorem State.setEngine_phaseHeld (s : State) (d : Nat) (x : EngineState) : (s.setEngine d x).phaseHeld = s.phaseHeld := rfl
@[simp] theorem State.setEngine_pipeTag (s : State) (d : Nat) (x : EngineState) : (s.setEngine d x).pipeTag = s.pipeTag := rfl
@[simp] theorem State.setEngine_pipeEnd (s : State) (d : Nat) (x : EngineState) : (s.setEngine d x).pipeEnd = s.pipeEnd := rfl
@[simp] theorem State.setEngine_spikeX (s : State) (d : Nat) (x : EngineState) : (s.setEngine d x).spikeX = s.spikeX := rfl
@[simp] theorem State.setEngine_heldOnClose (s : State) (d : Nat) (x : EngineState) : (s.setEngine d x).heldOnClose = s.heldOnClose := rfl
@[simp] theorem State.setEngine_phaseFrom (s : State) (d : Nat) (x : EngineState) : (s.setEngine d x).phaseFrom = s.phaseFrom := rfl
@[simp] theorem State.setEngine_phaseT0 (s : State) (d : Nat) (x : EngineState) : (s.setEngine d x).phaseT0 = s.phaseT0 := rfl
@[simp] theorem State.setEngine_epochs (s : State) (d : Nat) (x : EngineState) : (s.setEngine d x).epochs = s.epochs := rfl
@[simp] theorem State.setEngine_phaseHeard (s : State) (d : Nat) (x : EngineState) : (s.setEngine d x).phaseHeard = s.phaseHeard := rfl
@[simp] theorem State.setEngine_agrees (s : State) (d : Nat) (x : EngineState) : (s.setEngine d x).agrees = s.agrees := rfl
@[simp] theorem State.setEngine_agreeDone (s : State) (d : Nat) (x : EngineState) : (s.setEngine d x).agreeDone = s.agreeDone := rfl
@[simp] theorem State.setEngine_yieldAt (s : State) (d : Nat) (x : EngineState) : (s.setEngine d x).yieldAt = s.yieldAt := rfl
@[simp] theorem State.setEngine_yieldWarned (s : State) (d : Nat) (x : EngineState) : (s.setEngine d x).yieldWarned = s.yieldWarned := rfl
@[simp] theorem State.setEngine_buckets (s : State) (d : Nat) (x : EngineState) : (s.setEngine d x).buckets = s.buckets := rfl
@[simp] theorem State.setEngine_regLive (s : State) (d : Nat) (x : EngineState) : (s.setEngine d x).regLive = s.regLive := rfl
@[simp] theorem State.setEngine_regHeldAt (s : State) (d : Nat) (x : EngineState) : (s.setEngine d x).regHeldAt = s.regHeldAt := rfl
@[simp] theorem State.setEngine_rings (s : State) (d : Nat) (x : EngineState) : (s.setEngine d x).rings = s.rings := rfl
@[simp] theorem State.setEngine_ports (s : State) (d : Nat) (x : EngineState) : (s.setEngine d x).ports = s.ports := rfl
@[simp] theorem State.setEngine_bridgeTok (s : State) (d : Nat) (x : EngineState) : (s.setEngine d x).bridgeTok = s.bridgeTok := rfl
@[simp] theorem State.setEngine_packs (s : State) (d : Nat) (x : EngineState) : (s.setEngine d x).packs = s.packs := rfl
@[simp] theorem State.setEngine_burstPort (s : State) (d : Nat) (x : EngineState) : (s.setEngine d x).burstPort = s.burstPort := rfl
@[simp] theorem State.setEngine_inject (s : State) (d : Nat) (x : EngineState) : (s.setEngine d x).inject = s.inject := rfl
@[simp] theorem State.setEngine_heldFrames (s : State) (d : Nat) (x : EngineState) : (s.setEngine d x).heldFrames = s.heldFrames := rfl
@[simp] theorem State.setEngine_norms (s : State) (d : Nat) (x : EngineState) : (s.setEngine d x).norms = s.norms := rfl
@[simp] theorem State.setEngine_permute (s : State) (d : Nat) (x : EngineState) : (s.setEngine d x).permute = s.permute := rfl

@[simp] theorem State.setRing_pending (s : State) (j : Nat) (q : List RingEntry) : (s.setRing j q).pending = s.pending := rfl
@[simp] theorem State.setRing_regs (s : State) (j : Nat) (q : List RingEntry) : (s.setRing j q).regs = s.regs := rfl
@[simp] theorem State.setRing_hbm (s : State) (j : Nat) (q : List RingEntry) : (s.setRing j q).hbm = s.hbm := rfl
@[simp] theorem State.setRing_freeCtr (s : State) (j : Nat) (q : List RingEntry) : (s.setRing j q).freeCtr = s.freeCtr := rfl
@[simp] theorem State.setRing_out (s : State) (j : Nat) (q : List RingEntry) : (s.setRing j q).out = s.out := rfl
@[simp] theorem State.setRing_stageNs (s : State) (j : Nat) (q : List RingEntry) : (s.setRing j q).stageNs = s.stageNs := rfl
@[simp] theorem State.setRing_timeOn (s : State) (j : Nat) (q : List RingEntry) : (s.setRing j q).timeOn = s.timeOn := rfl
@[simp] theorem State.setRing_pwrOk (s : State) (j : Nat) (q : List RingEntry) : (s.setRing j q).pwrOk = s.pwrOk := rfl
@[simp] theorem State.setRing_thermtrip (s : State) (j : Nat) (q : List RingEntry) : (s.setRing j q).thermtrip = s.thermtrip := rfl
@[simp] theorem State.setRing_ganOff (s : State) (j : Nat) (q : List RingEntry) : (s.setRing j q).ganOff = s.ganOff := rfl
@[simp] theorem State.setRing_inputOut (s : State) (j : Nat) (q : List RingEntry) : (s.setRing j q).inputOut = s.inputOut := rfl
@[simp] theorem State.setRing_startReset (s : State) (j : Nat) (q : List RingEntry) : (s.setRing j q).startReset = s.startReset := rfl
@[simp] theorem State.setRing_resetNs (s : State) (j : Nat) (q : List RingEntry) : (s.setRing j q).resetNs = s.resetNs := rfl
@[simp] theorem State.setRing_hostMsixA (s : State) (j : Nat) (q : List RingEntry) : (s.setRing j q).hostMsixA = s.hostMsixA := rfl
@[simp] theorem State.setRing_hostMsixB (s : State) (j : Nat) (q : List RingEntry) : (s.setRing j q).hostMsixB = s.hostMsixB := rfl
@[simp] theorem State.setRing_semSince (s : State) (j : Nat) (q : List RingEntry) : (s.setRing j q).semSince = s.semSince := rfl
@[simp] theorem State.setRing_latch (s : State) (j : Nat) (q : List RingEntry) : (s.setRing j q).latch = s.latch := rfl
@[simp] theorem State.setRing_lastLatch (s : State) (j : Nat) (q : List RingEntry) : (s.setRing j q).lastLatch = s.lastLatch := rfl
@[simp] theorem State.setRing_latchNs (s : State) (j : Nat) (q : List RingEntry) : (s.setRing j q).latchNs = s.latchNs := rfl
@[simp] theorem State.setRing_beatNs (s : State) (j : Nat) (q : List RingEntry) : (s.setRing j q).beatNs = s.beatNs := rfl
@[simp] theorem State.setRing_shroudLost (s : State) (j : Nat) (q : List RingEntry) : (s.setRing j q).shroudLost = s.shroudLost := rfl
@[simp] theorem State.setRing_bankA (s : State) (j : Nat) (q : List RingEntry) : (s.setRing j q).bankA = s.bankA := rfl
@[simp] theorem State.setRing_bankB (s : State) (j : Nat) (q : List RingEntry) : (s.setRing j q).bankB = s.bankB := rfl
@[simp] theorem State.setRing_fwVer (s : State) (j : Nat) (q : List RingEntry) : (s.setRing j q).fwVer = s.fwVer := rfl
@[simp] theorem State.setRing_retiredA (s : State) (j : Nat) (q : List RingEntry) : (s.setRing j q).retiredA = s.retiredA := rfl
@[simp] theorem State.setRing_retiredB (s : State) (j : Nat) (q : List RingEntry) : (s.setRing j q).retiredB = s.retiredB := rfl
@[simp] theorem State.setRing_powerLoss (s : State) (j : Nat) (q : List RingEntry) : (s.setRing j q).powerLoss = s.powerLoss := rfl
@[simp] theorem State.setRing_maintRun (s : State) (j : Nat) (q : List RingEntry) : (s.setRing j q).maintRun = s.maintRun := rfl
@[simp] theorem State.setRing_maintQueue (s : State) (j : Nat) (q : List RingEntry) : (s.setRing j q).maintQueue = s.maintQueue := rfl
@[simp] theorem State.setRing_maintWait (s : State) (j : Nat) (q : List RingEntry) : (s.setRing j q).maintWait = s.maintWait := rfl
@[simp] theorem State.setRing_energyRem (s : State) (j : Nat) (q : List RingEntry) : (s.setRing j q).energyRem = s.energyRem := rfl
@[simp] theorem State.setRing_limQuietNs (s : State) (j : Nat) (q : List RingEntry) : (s.setRing j q).limQuietNs = s.limQuietNs := rfl
@[simp] theorem State.setRing_limReported (s : State) (j : Nat) (q : List RingEntry) : (s.setRing j q).limReported = s.limReported := rfl
@[simp] theorem State.setRing_hotYards (s : State) (j : Nat) (q : List RingEntry) : (s.setRing j q).hotYards = s.hotYards := rfl
@[simp] theorem State.setRing_tieB (s : State) (j : Nat) (q : List RingEntry) : (s.setRing j q).tieB = s.tieB := rfl
@[simp] theorem State.setRing_hostCfgA (s : State) (j : Nat) (q : List RingEntry) : (s.setRing j q).hostCfgA = s.hostCfgA := rfl
@[simp] theorem State.setRing_hostCfgB (s : State) (j : Nat) (q : List RingEntry) : (s.setRing j q).hostCfgB = s.hostCfgB := rfl
@[simp] theorem State.setRing_warmDies (s : State) (j : Nat) (q : List RingEntry) : (s.setRing j q).warmDies = s.warmDies := rfl
@[simp] theorem State.setRing_tsyncGood (s : State) (j : Nat) (q : List RingEntry) : (s.setRing j q).tsyncGood = s.tsyncGood := rfl
@[simp] theorem State.setRing_tsyncNs (s : State) (j : Nat) (q : List RingEntry) : (s.setRing j q).tsyncNs = s.tsyncNs := rfl
@[simp] theorem State.setRing_slewLeft (s : State) (j : Nat) (q : List RingEntry) : (s.setRing j q).slewLeft = s.slewLeft := rfl
@[simp] theorem State.setRing_smbOffset (s : State) (j : Nat) (q : List RingEntry) : (s.setRing j q).smbOffset = s.smbOffset := rfl
@[simp] theorem State.setRing_jtagIr (s : State) (j : Nat) (q : List RingEntry) : (s.setRing j q).jtagIr = s.jtagIr := rfl
@[simp] theorem State.setRing_cagesOff (s : State) (j : Nat) (q : List RingEntry) : (s.setRing j q).cagesOff = s.cagesOff := rfl
@[simp] theorem State.setRing_relock (s : State) (j : Nat) (q : List RingEntry) : (s.setRing j q).relock = s.relock := rfl
@[simp] theorem State.setRing_oscOut (s : State) (j : Nat) (q : List RingEntry) : (s.setRing j q).oscOut = s.oscOut := rfl
@[simp] theorem State.setRing_switches (s : State) (j : Nat) (q : List RingEntry) : (s.setRing j q).switches = s.switches := rfl
@[simp] theorem State.setRing_links (s : State) (j : Nat) (q : List RingEntry) : (s.setRing j q).links = s.links := rfl
@[simp] theorem State.setRing_crossTok (s : State) (j : Nat) (q : List RingEntry) : (s.setRing j q).crossTok = s.crossTok := rfl
@[simp] theorem State.setRing_crossRail (s : State) (j : Nat) (q : List RingEntry) : (s.setRing j q).crossRail = s.crossRail := rfl
@[simp] theorem State.setRing_units (s : State) (j : Nat) (q : List RingEntry) : (s.setRing j q).units = s.units := rfl
@[simp] theorem State.setRing_moved (s : State) (j : Nat) (q : List RingEntry) : (s.setRing j q).moved = s.moved := rfl
@[simp] theorem State.setRing_sramEpoch (s : State) (j : Nat) (q : List RingEntry) : (s.setRing j q).sramEpoch = s.sramEpoch := rfl
@[simp] theorem State.setRing_opBuf (s : State) (j : Nat) (q : List RingEntry) : (s.setRing j q).opBuf = s.opBuf := rfl
@[simp] theorem State.setRing_accMem (s : State) (j : Nat) (q : List RingEntry) : (s.setRing j q).accMem = s.accMem := rfl
@[simp] theorem State.setRing_tileRegs (s : State) (j : Nat) (q : List RingEntry) : (s.setRing j q).tileRegs = s.tileRegs := rfl
@[simp] theorem State.setRing_yardStore (s : State) (j : Nat) (q : List RingEntry) : (s.setRing j q).yardStore = s.yardStore := rfl
@[simp] theorem State.setRing_ycMem (s : State) (j : Nat) (q : List RingEntry) : (s.setRing j q).ycMem = s.ycMem := rfl
@[simp] theorem State.setRing_sections (s : State) (j : Nat) (q : List RingEntry) : (s.setRing j q).sections = s.sections := rfl
@[simp] theorem State.setRing_nextUid (s : State) (j : Nat) (q : List RingEntry) : (s.setRing j q).nextUid = s.nextUid := rfl
@[simp] theorem State.setRing_issueQ (s : State) (j : Nat) (q : List RingEntry) : (s.setRing j q).issueQ = s.issueQ := rfl
@[simp] theorem State.setRing_waiting (s : State) (j : Nat) (q : List RingEntry) : (s.setRing j q).waiting = s.waiting := rfl
@[simp] theorem State.setRing_images (s : State) (j : Nat) (q : List RingEntry) : (s.setRing j q).images = s.images := rfl
@[simp] theorem State.setRing_crossOwner (s : State) (j : Nat) (q : List RingEntry) : (s.setRing j q).crossOwner = s.crossOwner := rfl
@[simp] theorem State.setRing_loads (s : State) (j : Nat) (q : List RingEntry) : (s.setRing j q).loads = s.loads := rfl
@[simp] theorem State.setRing_stayAbsent (s : State) (j : Nat) (q : List RingEntry) : (s.setRing j q).stayAbsent = s.stayAbsent := rfl
@[simp] theorem State.setRing_bothLost (s : State) (j : Nat) (q : List RingEntry) : (s.setRing j q).bothLost = s.bothLost := rfl
@[simp] theorem State.setRing_cores (s : State) (j : Nat) (q : List RingEntry) : (s.setRing j q).cores = s.cores := rfl
@[simp] theorem State.setRing_wc (s : State) (j : Nat) (q : List RingEntry) : (s.setRing j q).wc = s.wc := rfl
@[simp] theorem State.setRing_leases (s : State) (j : Nat) (q : List RingEntry) : (s.setRing j q).leases = s.leases := rfl
@[simp] theorem State.setRing_wcQ (s : State) (j : Nat) (q : List RingEntry) : (s.setRing j q).wcQ = s.wcQ := rfl
@[simp] theorem State.setRing_slices (s : State) (j : Nat) (q : List RingEntry) : (s.setRing j q).slices = s.slices := rfl
@[simp] theorem State.setRing_chans (s : State) (j : Nat) (q : List RingEntry) : (s.setRing j q).chans = s.chans := rfl
@[simp] theorem State.setRing_askers (s : State) (j : Nat) (q : List RingEntry) : (s.setRing j q).askers = s.askers := rfl
@[simp] theorem State.setRing_barReads (s : State) (j : Nat) (q : List RingEntry) : (s.setRing j q).barReads = s.barReads := rfl
@[simp] theorem State.setRing_rowCe (s : State) (j : Nat) (q : List RingEntry) : (s.setRing j q).rowCe = s.rowCe := rfl
@[simp] theorem State.setRing_recRepaired (s : State) (j : Nat) (q : List RingEntry) : (s.setRing j q).recRepaired = s.recRepaired := rfl
@[simp] theorem State.setRing_recPermanent (s : State) (j : Nat) (q : List RingEntry) : (s.setRing j q).recPermanent = s.recPermanent := rfl
@[simp] theorem State.setRing_recPending (s : State) (j : Nat) (q : List RingEntry) : (s.setRing j q).recPending = s.recPending := rfl
@[simp] theorem State.setRing_recMapped (s : State) (j : Nat) (q : List RingEntry) : (s.setRing j q).recMapped = s.recMapped := rfl
@[simp] theorem State.setRing_spareUsed (s : State) (j : Nat) (q : List RingEntry) : (s.setRing j q).spareUsed = s.spareUsed := rfl
@[simp] theorem State.setRing_thermSince (s : State) (j : Nat) (q : List RingEntry) : (s.setRing j q).thermSince = s.thermSince := rfl
@[simp] theorem State.setRing_stepHeld (s : State) (j : Nat) (q : List RingEntry) : (s.setRing j q).stepHeld = s.stepHeld := rfl
@[simp] theorem State.setRing_phaseHeld (s : State) (j : Nat) (q : List RingEntry) : (s.setRing j q).phaseHeld = s.phaseHeld := rfl
@[simp] theorem State.setRing_pipeTag (s : State) (j : Nat) (q : List RingEntry) : (s.setRing j q).pipeTag = s.pipeTag := rfl
@[simp] theorem State.setRing_pipeEnd (s : State) (j : Nat) (q : List RingEntry) : (s.setRing j q).pipeEnd = s.pipeEnd := rfl
@[simp] theorem State.setRing_spikeX (s : State) (j : Nat) (q : List RingEntry) : (s.setRing j q).spikeX = s.spikeX := rfl
@[simp] theorem State.setRing_heldOnClose (s : State) (j : Nat) (q : List RingEntry) : (s.setRing j q).heldOnClose = s.heldOnClose := rfl
@[simp] theorem State.setRing_phaseFrom (s : State) (j : Nat) (q : List RingEntry) : (s.setRing j q).phaseFrom = s.phaseFrom := rfl
@[simp] theorem State.setRing_phaseT0 (s : State) (j : Nat) (q : List RingEntry) : (s.setRing j q).phaseT0 = s.phaseT0 := rfl
@[simp] theorem State.setRing_epochs (s : State) (j : Nat) (q : List RingEntry) : (s.setRing j q).epochs = s.epochs := rfl
@[simp] theorem State.setRing_phaseHeard (s : State) (j : Nat) (q : List RingEntry) : (s.setRing j q).phaseHeard = s.phaseHeard := rfl
@[simp] theorem State.setRing_agrees (s : State) (j : Nat) (q : List RingEntry) : (s.setRing j q).agrees = s.agrees := rfl
@[simp] theorem State.setRing_agreeDone (s : State) (j : Nat) (q : List RingEntry) : (s.setRing j q).agreeDone = s.agreeDone := rfl
@[simp] theorem State.setRing_yieldAt (s : State) (j : Nat) (q : List RingEntry) : (s.setRing j q).yieldAt = s.yieldAt := rfl
@[simp] theorem State.setRing_yieldWarned (s : State) (j : Nat) (q : List RingEntry) : (s.setRing j q).yieldWarned = s.yieldWarned := rfl
@[simp] theorem State.setRing_buckets (s : State) (j : Nat) (q : List RingEntry) : (s.setRing j q).buckets = s.buckets := rfl
@[simp] theorem State.setRing_regLive (s : State) (j : Nat) (q : List RingEntry) : (s.setRing j q).regLive = s.regLive := rfl
@[simp] theorem State.setRing_regHeldAt (s : State) (j : Nat) (q : List RingEntry) : (s.setRing j q).regHeldAt = s.regHeldAt := rfl
@[simp] theorem State.setRing_ports (s : State) (j : Nat) (q : List RingEntry) : (s.setRing j q).ports = s.ports := rfl
@[simp] theorem State.setRing_bridgeTok (s : State) (j : Nat) (q : List RingEntry) : (s.setRing j q).bridgeTok = s.bridgeTok := rfl
@[simp] theorem State.setRing_packs (s : State) (j : Nat) (q : List RingEntry) : (s.setRing j q).packs = s.packs := rfl
@[simp] theorem State.setRing_burstPort (s : State) (j : Nat) (q : List RingEntry) : (s.setRing j q).burstPort = s.burstPort := rfl
@[simp] theorem State.setRing_inject (s : State) (j : Nat) (q : List RingEntry) : (s.setRing j q).inject = s.inject := rfl
@[simp] theorem State.setRing_heldFrames (s : State) (j : Nat) (q : List RingEntry) : (s.setRing j q).heldFrames = s.heldFrames := rfl
@[simp] theorem State.setRing_engines (s : State) (j : Nat) (q : List RingEntry) : (s.setRing j q).engines = s.engines := rfl
@[simp] theorem State.setRing_norms (s : State) (j : Nat) (q : List RingEntry) : (s.setRing j q).norms = s.norms := rfl
@[simp] theorem State.setRing_permute (s : State) (j : Nat) (q : List RingEntry) : (s.setRing j q).permute = s.permute := rfl

@[simp] theorem State.setLease_pending (s : State) (i : Nat) (e : Lease) : (s.setLease i e).pending = s.pending := rfl
@[simp] theorem State.setLease_regs (s : State) (i : Nat) (e : Lease) : (s.setLease i e).regs = s.regs := rfl
@[simp] theorem State.setLease_hbm (s : State) (i : Nat) (e : Lease) : (s.setLease i e).hbm = s.hbm := rfl
@[simp] theorem State.setLease_freeCtr (s : State) (i : Nat) (e : Lease) : (s.setLease i e).freeCtr = s.freeCtr := rfl
@[simp] theorem State.setLease_out (s : State) (i : Nat) (e : Lease) : (s.setLease i e).out = s.out := rfl
@[simp] theorem State.setLease_stageNs (s : State) (i : Nat) (e : Lease) : (s.setLease i e).stageNs = s.stageNs := rfl
@[simp] theorem State.setLease_timeOn (s : State) (i : Nat) (e : Lease) : (s.setLease i e).timeOn = s.timeOn := rfl
@[simp] theorem State.setLease_pwrOk (s : State) (i : Nat) (e : Lease) : (s.setLease i e).pwrOk = s.pwrOk := rfl
@[simp] theorem State.setLease_thermtrip (s : State) (i : Nat) (e : Lease) : (s.setLease i e).thermtrip = s.thermtrip := rfl
@[simp] theorem State.setLease_ganOff (s : State) (i : Nat) (e : Lease) : (s.setLease i e).ganOff = s.ganOff := rfl
@[simp] theorem State.setLease_inputOut (s : State) (i : Nat) (e : Lease) : (s.setLease i e).inputOut = s.inputOut := rfl
@[simp] theorem State.setLease_startReset (s : State) (i : Nat) (e : Lease) : (s.setLease i e).startReset = s.startReset := rfl
@[simp] theorem State.setLease_resetNs (s : State) (i : Nat) (e : Lease) : (s.setLease i e).resetNs = s.resetNs := rfl
@[simp] theorem State.setLease_hostMsixA (s : State) (i : Nat) (e : Lease) : (s.setLease i e).hostMsixA = s.hostMsixA := rfl
@[simp] theorem State.setLease_hostMsixB (s : State) (i : Nat) (e : Lease) : (s.setLease i e).hostMsixB = s.hostMsixB := rfl
@[simp] theorem State.setLease_semSince (s : State) (i : Nat) (e : Lease) : (s.setLease i e).semSince = s.semSince := rfl
@[simp] theorem State.setLease_latch (s : State) (i : Nat) (e : Lease) : (s.setLease i e).latch = s.latch := rfl
@[simp] theorem State.setLease_lastLatch (s : State) (i : Nat) (e : Lease) : (s.setLease i e).lastLatch = s.lastLatch := rfl
@[simp] theorem State.setLease_latchNs (s : State) (i : Nat) (e : Lease) : (s.setLease i e).latchNs = s.latchNs := rfl
@[simp] theorem State.setLease_beatNs (s : State) (i : Nat) (e : Lease) : (s.setLease i e).beatNs = s.beatNs := rfl
@[simp] theorem State.setLease_shroudLost (s : State) (i : Nat) (e : Lease) : (s.setLease i e).shroudLost = s.shroudLost := rfl
@[simp] theorem State.setLease_bankA (s : State) (i : Nat) (e : Lease) : (s.setLease i e).bankA = s.bankA := rfl
@[simp] theorem State.setLease_bankB (s : State) (i : Nat) (e : Lease) : (s.setLease i e).bankB = s.bankB := rfl
@[simp] theorem State.setLease_fwVer (s : State) (i : Nat) (e : Lease) : (s.setLease i e).fwVer = s.fwVer := rfl
@[simp] theorem State.setLease_retiredA (s : State) (i : Nat) (e : Lease) : (s.setLease i e).retiredA = s.retiredA := rfl
@[simp] theorem State.setLease_retiredB (s : State) (i : Nat) (e : Lease) : (s.setLease i e).retiredB = s.retiredB := rfl
@[simp] theorem State.setLease_powerLoss (s : State) (i : Nat) (e : Lease) : (s.setLease i e).powerLoss = s.powerLoss := rfl
@[simp] theorem State.setLease_maintRun (s : State) (i : Nat) (e : Lease) : (s.setLease i e).maintRun = s.maintRun := rfl
@[simp] theorem State.setLease_maintQueue (s : State) (i : Nat) (e : Lease) : (s.setLease i e).maintQueue = s.maintQueue := rfl
@[simp] theorem State.setLease_maintWait (s : State) (i : Nat) (e : Lease) : (s.setLease i e).maintWait = s.maintWait := rfl
@[simp] theorem State.setLease_energyRem (s : State) (i : Nat) (e : Lease) : (s.setLease i e).energyRem = s.energyRem := rfl
@[simp] theorem State.setLease_limQuietNs (s : State) (i : Nat) (e : Lease) : (s.setLease i e).limQuietNs = s.limQuietNs := rfl
@[simp] theorem State.setLease_limReported (s : State) (i : Nat) (e : Lease) : (s.setLease i e).limReported = s.limReported := rfl
@[simp] theorem State.setLease_hotYards (s : State) (i : Nat) (e : Lease) : (s.setLease i e).hotYards = s.hotYards := rfl
@[simp] theorem State.setLease_tieB (s : State) (i : Nat) (e : Lease) : (s.setLease i e).tieB = s.tieB := rfl
@[simp] theorem State.setLease_hostCfgA (s : State) (i : Nat) (e : Lease) : (s.setLease i e).hostCfgA = s.hostCfgA := rfl
@[simp] theorem State.setLease_hostCfgB (s : State) (i : Nat) (e : Lease) : (s.setLease i e).hostCfgB = s.hostCfgB := rfl
@[simp] theorem State.setLease_warmDies (s : State) (i : Nat) (e : Lease) : (s.setLease i e).warmDies = s.warmDies := rfl
@[simp] theorem State.setLease_tsyncGood (s : State) (i : Nat) (e : Lease) : (s.setLease i e).tsyncGood = s.tsyncGood := rfl
@[simp] theorem State.setLease_tsyncNs (s : State) (i : Nat) (e : Lease) : (s.setLease i e).tsyncNs = s.tsyncNs := rfl
@[simp] theorem State.setLease_slewLeft (s : State) (i : Nat) (e : Lease) : (s.setLease i e).slewLeft = s.slewLeft := rfl
@[simp] theorem State.setLease_smbOffset (s : State) (i : Nat) (e : Lease) : (s.setLease i e).smbOffset = s.smbOffset := rfl
@[simp] theorem State.setLease_jtagIr (s : State) (i : Nat) (e : Lease) : (s.setLease i e).jtagIr = s.jtagIr := rfl
@[simp] theorem State.setLease_cagesOff (s : State) (i : Nat) (e : Lease) : (s.setLease i e).cagesOff = s.cagesOff := rfl
@[simp] theorem State.setLease_relock (s : State) (i : Nat) (e : Lease) : (s.setLease i e).relock = s.relock := rfl
@[simp] theorem State.setLease_oscOut (s : State) (i : Nat) (e : Lease) : (s.setLease i e).oscOut = s.oscOut := rfl
@[simp] theorem State.setLease_switches (s : State) (i : Nat) (e : Lease) : (s.setLease i e).switches = s.switches := rfl
@[simp] theorem State.setLease_links (s : State) (i : Nat) (e : Lease) : (s.setLease i e).links = s.links := rfl
@[simp] theorem State.setLease_crossTok (s : State) (i : Nat) (e : Lease) : (s.setLease i e).crossTok = s.crossTok := rfl
@[simp] theorem State.setLease_crossRail (s : State) (i : Nat) (e : Lease) : (s.setLease i e).crossRail = s.crossRail := rfl
@[simp] theorem State.setLease_units (s : State) (i : Nat) (e : Lease) : (s.setLease i e).units = s.units := rfl
@[simp] theorem State.setLease_moved (s : State) (i : Nat) (e : Lease) : (s.setLease i e).moved = s.moved := rfl
@[simp] theorem State.setLease_sramEpoch (s : State) (i : Nat) (e : Lease) : (s.setLease i e).sramEpoch = s.sramEpoch := rfl
@[simp] theorem State.setLease_opBuf (s : State) (i : Nat) (e : Lease) : (s.setLease i e).opBuf = s.opBuf := rfl
@[simp] theorem State.setLease_accMem (s : State) (i : Nat) (e : Lease) : (s.setLease i e).accMem = s.accMem := rfl
@[simp] theorem State.setLease_tileRegs (s : State) (i : Nat) (e : Lease) : (s.setLease i e).tileRegs = s.tileRegs := rfl
@[simp] theorem State.setLease_yardStore (s : State) (i : Nat) (e : Lease) : (s.setLease i e).yardStore = s.yardStore := rfl
@[simp] theorem State.setLease_ycMem (s : State) (i : Nat) (e : Lease) : (s.setLease i e).ycMem = s.ycMem := rfl
@[simp] theorem State.setLease_sections (s : State) (i : Nat) (e : Lease) : (s.setLease i e).sections = s.sections := rfl
@[simp] theorem State.setLease_nextUid (s : State) (i : Nat) (e : Lease) : (s.setLease i e).nextUid = s.nextUid := rfl
@[simp] theorem State.setLease_issueQ (s : State) (i : Nat) (e : Lease) : (s.setLease i e).issueQ = s.issueQ := rfl
@[simp] theorem State.setLease_waiting (s : State) (i : Nat) (e : Lease) : (s.setLease i e).waiting = s.waiting := rfl
@[simp] theorem State.setLease_images (s : State) (i : Nat) (e : Lease) : (s.setLease i e).images = s.images := rfl
@[simp] theorem State.setLease_crossOwner (s : State) (i : Nat) (e : Lease) : (s.setLease i e).crossOwner = s.crossOwner := rfl
@[simp] theorem State.setLease_loads (s : State) (i : Nat) (e : Lease) : (s.setLease i e).loads = s.loads := rfl
@[simp] theorem State.setLease_stayAbsent (s : State) (i : Nat) (e : Lease) : (s.setLease i e).stayAbsent = s.stayAbsent := rfl
@[simp] theorem State.setLease_bothLost (s : State) (i : Nat) (e : Lease) : (s.setLease i e).bothLost = s.bothLost := rfl
@[simp] theorem State.setLease_cores (s : State) (i : Nat) (e : Lease) : (s.setLease i e).cores = s.cores := rfl
@[simp] theorem State.setLease_wc (s : State) (i : Nat) (e : Lease) : (s.setLease i e).wc = s.wc := rfl
@[simp] theorem State.setLease_wcQ (s : State) (i : Nat) (e : Lease) : (s.setLease i e).wcQ = s.wcQ := rfl
@[simp] theorem State.setLease_slices (s : State) (i : Nat) (e : Lease) : (s.setLease i e).slices = s.slices := rfl
@[simp] theorem State.setLease_chans (s : State) (i : Nat) (e : Lease) : (s.setLease i e).chans = s.chans := rfl
@[simp] theorem State.setLease_askers (s : State) (i : Nat) (e : Lease) : (s.setLease i e).askers = s.askers := rfl
@[simp] theorem State.setLease_barReads (s : State) (i : Nat) (e : Lease) : (s.setLease i e).barReads = s.barReads := rfl
@[simp] theorem State.setLease_rowCe (s : State) (i : Nat) (e : Lease) : (s.setLease i e).rowCe = s.rowCe := rfl
@[simp] theorem State.setLease_recRepaired (s : State) (i : Nat) (e : Lease) : (s.setLease i e).recRepaired = s.recRepaired := rfl
@[simp] theorem State.setLease_recPermanent (s : State) (i : Nat) (e : Lease) : (s.setLease i e).recPermanent = s.recPermanent := rfl
@[simp] theorem State.setLease_recPending (s : State) (i : Nat) (e : Lease) : (s.setLease i e).recPending = s.recPending := rfl
@[simp] theorem State.setLease_recMapped (s : State) (i : Nat) (e : Lease) : (s.setLease i e).recMapped = s.recMapped := rfl
@[simp] theorem State.setLease_spareUsed (s : State) (i : Nat) (e : Lease) : (s.setLease i e).spareUsed = s.spareUsed := rfl
@[simp] theorem State.setLease_thermSince (s : State) (i : Nat) (e : Lease) : (s.setLease i e).thermSince = s.thermSince := rfl
@[simp] theorem State.setLease_stepHeld (s : State) (i : Nat) (e : Lease) : (s.setLease i e).stepHeld = s.stepHeld := rfl
@[simp] theorem State.setLease_phaseHeld (s : State) (i : Nat) (e : Lease) : (s.setLease i e).phaseHeld = s.phaseHeld := rfl
@[simp] theorem State.setLease_pipeTag (s : State) (i : Nat) (e : Lease) : (s.setLease i e).pipeTag = s.pipeTag := rfl
@[simp] theorem State.setLease_pipeEnd (s : State) (i : Nat) (e : Lease) : (s.setLease i e).pipeEnd = s.pipeEnd := rfl
@[simp] theorem State.setLease_spikeX (s : State) (i : Nat) (e : Lease) : (s.setLease i e).spikeX = s.spikeX := rfl
@[simp] theorem State.setLease_heldOnClose (s : State) (i : Nat) (e : Lease) : (s.setLease i e).heldOnClose = s.heldOnClose := rfl
@[simp] theorem State.setLease_phaseFrom (s : State) (i : Nat) (e : Lease) : (s.setLease i e).phaseFrom = s.phaseFrom := rfl
@[simp] theorem State.setLease_phaseT0 (s : State) (i : Nat) (e : Lease) : (s.setLease i e).phaseT0 = s.phaseT0 := rfl
@[simp] theorem State.setLease_epochs (s : State) (i : Nat) (e : Lease) : (s.setLease i e).epochs = s.epochs := rfl
@[simp] theorem State.setLease_phaseHeard (s : State) (i : Nat) (e : Lease) : (s.setLease i e).phaseHeard = s.phaseHeard := rfl
@[simp] theorem State.setLease_agrees (s : State) (i : Nat) (e : Lease) : (s.setLease i e).agrees = s.agrees := rfl
@[simp] theorem State.setLease_agreeDone (s : State) (i : Nat) (e : Lease) : (s.setLease i e).agreeDone = s.agreeDone := rfl
@[simp] theorem State.setLease_yieldAt (s : State) (i : Nat) (e : Lease) : (s.setLease i e).yieldAt = s.yieldAt := rfl
@[simp] theorem State.setLease_yieldWarned (s : State) (i : Nat) (e : Lease) : (s.setLease i e).yieldWarned = s.yieldWarned := rfl
@[simp] theorem State.setLease_buckets (s : State) (i : Nat) (e : Lease) : (s.setLease i e).buckets = s.buckets := rfl
@[simp] theorem State.setLease_regLive (s : State) (i : Nat) (e : Lease) : (s.setLease i e).regLive = s.regLive := rfl
@[simp] theorem State.setLease_regHeldAt (s : State) (i : Nat) (e : Lease) : (s.setLease i e).regHeldAt = s.regHeldAt := rfl
@[simp] theorem State.setLease_rings (s : State) (i : Nat) (e : Lease) : (s.setLease i e).rings = s.rings := rfl
@[simp] theorem State.setLease_ports (s : State) (i : Nat) (e : Lease) : (s.setLease i e).ports = s.ports := rfl
@[simp] theorem State.setLease_bridgeTok (s : State) (i : Nat) (e : Lease) : (s.setLease i e).bridgeTok = s.bridgeTok := rfl
@[simp] theorem State.setLease_packs (s : State) (i : Nat) (e : Lease) : (s.setLease i e).packs = s.packs := rfl
@[simp] theorem State.setLease_burstPort (s : State) (i : Nat) (e : Lease) : (s.setLease i e).burstPort = s.burstPort := rfl
@[simp] theorem State.setLease_inject (s : State) (i : Nat) (e : Lease) : (s.setLease i e).inject = s.inject := rfl
@[simp] theorem State.setLease_heldFrames (s : State) (i : Nat) (e : Lease) : (s.setLease i e).heldFrames = s.heldFrames := rfl
@[simp] theorem State.setLease_engines (s : State) (i : Nat) (e : Lease) : (s.setLease i e).engines = s.engines := rfl
@[simp] theorem State.setLease_norms (s : State) (i : Nat) (e : Lease) : (s.setLease i e).norms = s.norms := rfl
@[simp] theorem State.setLease_permute (s : State) (i : Nat) (e : Lease) : (s.setLease i e).permute = s.permute := rfl

end Sys2Proof.Machine
end

