-- ==== Sys2Proof/Laws/Tab.lean ====
section
/-! SUPPORT. Sparse tables and memories: reading back what was written, leaving every other key alone, and keeping the canonical form. -/
namespace Sys2Proof.Machine

namespace Tab

variable {α : Type}

theorem find?_put_self (t : Tab α) (k : Nat) (v : α) : find? (put t k v) k = some v := by
  induction t with
  | nil => simp [put, find?]
  | cons e t ih =>
    obtain ⟨j, w⟩ := e
    unfold put
    split
    · simp [find?]
    · split
      · simp [find?]
      · rename_i h1 h2; simp [find?, Ne.symm h2, ih]

theorem find?_put_ne (t : Tab α) {k j : Nat} (v : α) (h : j ≠ k) : find? (put t k v) j = find? t j := by
  induction t with
  | nil => simp [put, find?, Ne.symm h]
  | cons e t ih =>
    obtain ⟨i, w⟩ := e
    unfold put
    split
    · simp [find?, Ne.symm h]
    · split
      · rename_i h2; subst h2; simp [find?, Ne.symm h]
      · simp [find?, ih]

theorem find?_filter (p : Nat → Bool) (t : Tab α) (k : Nat) :
    find? (List.filter (fun e => p e.1) t) k = if p k then find? t k else none := by
  induction t with
  | nil => simp [find?]
  | cons e t ih =>
    obtain ⟨j, w⟩ := e
    rw [List.filter_cons]
    split
    · rename_i h
      by_cases e : j = k
      · subst e; simp_all [find?]
      · simp [find?, e, ih]
    · rename_i h
      by_cases e : j = k
      · subst e; simp_all
      · simp [find?, e, ih]

theorem find?_del (t : Tab α) (k j : Nat) : find? (del t k) j = if j = k then none else find? t j := by
  have h := find?_filter (fun i => !(i == k)) t j
  unfold del
  rw [h]; by_cases e : j = k <;> simp [e]

theorem find?_clear (p : Nat → Bool) (t : Tab α) (k : Nat) : find? (clear p t) k = if p k then none else find? t k := by
  have h := find?_filter (fun i => !(p i)) t k
  unfold clear
  rw [h]; by_cases e : p k = true <;> simp [e]

@[simp] theorem get_set_self [DecidableEq α] (d : α) (t : Tab α) (k : Nat) (v : α) : get d (set d t k v) k = v := by
  unfold get set
  split
  · rename_i h; rw [find?_del]; simp [h]
  · rw [find?_put_self]; rfl

theorem get_set_ne [DecidableEq α] (d d' : α) (t : Tab α) {k j : Nat} (v : α) (h : j ≠ k) : get d (set d' t k v) j = get d t j := by
  unfold get set
  split
  · rw [find?_del, if_neg h]
  · rw [find?_put_ne t v h]

theorem get_clear (d : α) (p : Nat → Bool) (t : Tab α) (k : Nat) : get d (clear p t) k = if p k then d else get d t k := by
  unfold get
  rw [find?_clear]; split <;> rfl

/-! ### The canonical form -/

/-- The key of an entry lies below every key of a table. -/
def below (j : Nat) (t : Tab α) : Prop := ∀ e ∈ t, j < e.1

theorem wf_cons [DecidableEq α] (d : Nat → α) (j : Nat) (v : α) (t : Tab α) :
    wf d ((j, v) :: t) = true ↔ v ≠ d j ∧ below j t ∧ wf d t = true := by
  induction t generalizing j v with
  | nil => simp [wf, below]
  | cons e t ih =>
    obtain ⟨k, w⟩ := e
    rw [show wf d ((j, v) :: (k, w) :: t) = (!(v == d j) && decide (j < k) && wf d ((k, w) :: t)) from rfl]
    simp only [Bool.and_eq_true, Bool.not_eq_true', beq_eq_false_iff_ne, decide_eq_true_eq, ih k w, below, List.mem_cons, forall_eq_or_imp]
    constructor
    · rintro ⟨⟨h1, h2⟩, h3, h4, h5⟩
      exact ⟨h1, ⟨h2, fun x hx => Nat.lt_trans h2 (h4 x hx)⟩, h3, h4, h5⟩
    · rintro ⟨h1, ⟨h2, -⟩, h3, h4, h5⟩
      exact ⟨⟨h1, h2⟩, h3, h4, h5⟩

theorem wf_filter [DecidableEq α] (d : Nat → α) (p : Nat × α → Bool) (t : Tab α) (h : wf d t = true) : wf d (List.filter p t) = true := by
  induction t with
  | nil => exact h
  | cons e t ih =>
    obtain ⟨j, v⟩ := e
    obtain ⟨h1, h2, h3⟩ := (wf_cons d j v t).1 h
    rw [List.filter_cons]
    split
    · exact (wf_cons d j v _).2 ⟨h1, fun e he => h2 e (List.mem_filter.1 he).1, ih h3⟩
    · exact ih h3

theorem wf_del [DecidableEq α] (d : Nat → α) (t : Tab α) (k : Nat) (h : wf d t = true) : wf d (del t k) = true := wf_filter d _ t h

theorem wf_clear [DecidableEq α] (d : Nat → α) (p : Nat → Bool) (t : Tab α) (h : wf d t = true) : wf d (clear p t) = true := wf_filter d _ t h

theorem below_put {j k : Nat} (t : Tab α) (v : α) (h : below j t) (hk : j < k) : below j (put t k v) := by
  induction t with
  | nil => intro e he; simp [put] at he; subst he; exact hk
  | cons x t ih =>
    obtain ⟨i, w⟩ := x
    have hi : j < i := h (i, w) List.mem_cons_self
    have ht : below j t := fun e he => h e (List.mem_cons_of_mem _ he)
    unfold put
    intro e he
    split at he
    · rcases List.mem_cons.1 he with rfl | he
      · exact hk
      · exact h e he
    · split at he
      · rcases List.mem_cons.1 he with rfl | he
        · exact hk
        · exact ht e he
      · rcases List.mem_cons.1 he with rfl | he
        · exact hi
        · exact ih ht e he

theorem wf_put [DecidableEq α] (d : Nat → α) (t : Tab α) (k : Nat) (v : α) (h : wf d t = true) (hv : v ≠ d k) : wf d (put t k v) = true := by
  induction t with
  | nil => simp [put, wf, hv]
  | cons x t ih =>
    obtain ⟨i, w⟩ := x
    obtain ⟨h1, h2, h3⟩ := (wf_cons d i w t).1 h
    unfold put
    split
    · rename_i hk
      refine (wf_cons d k v _).2 ⟨hv, fun e he => ?_, h⟩
      rcases List.mem_cons.1 he with rfl | he
      · exact hk
      · exact Nat.lt_trans hk (h2 e he)
    · split
      · rename_i hk; subst hk
        exact (wf_cons d k v t).2 ⟨hv, h2, h3⟩
      · rename_i ha hb
        exact (wf_cons d i w _).2 ⟨h1, below_put t v h2 (by omega), ih h3⟩

theorem wf_set [DecidableEq α] (d : Nat → α) (t : Tab α) (k : Nat) (v : α) (h : wf d t = true) : wf d (set (d k) t k v) = true := by
  unfold set
  split
  · exact wf_del d t k h
  · exact wf_put d t k v h ‹_›

theorem wf_congr [DecidableEq α] (d d' : Nat → α) (t : Tab α) (h : wf d t = true) (hd : ∀ e ∈ t, d e.1 = d' e.1) : wf d' t = true := by
  induction t with
  | nil => rfl
  | cons x t ih =>
    obtain ⟨i, w⟩ := x
    obtain ⟨h1, h2, h3⟩ := (wf_cons d i w t).1 h
    exact (wf_cons d' i w t).2 ⟨by rw [← hd (i, w) List.mem_cons_self]; exact h1, h2, ih h3 fun e he => hd e (List.mem_cons_of_mem _ he)⟩

end Tab

namespace Mem

@[simp] theorem unlisted_set (m : Mem) (a : Nat) (v : Byte) (b : Nat) : (m.set a v).unlisted b = m.unlisted b := rfl

@[simp] theorem get_set_self (m : Mem) (a : Nat) (v : Byte) : (m.set a v).get a = v := by
  unfold Mem.get
  rw [unlisted_set]; exact Tab.get_set_self _ _ _ _

theorem get_set_ne (m : Mem) {a b : Nat} (v : Byte) (h : b ≠ a) : (m.set a v).get b = m.get b := by
  unfold Mem.get
  rw [unlisted_set]; exact Tab.get_set_ne _ _ _ _ h

theorem get_write_outside (m : Mem) (a : Nat) (bs : List Byte) {b : Nat} (h : b < a ∨ a + bs.length ≤ b) : (m.write a bs).get b = m.get b := by
  induction bs generalizing m a with
  | nil => rfl
  | cons x bs ih =>
    simp only [List.length_cons] at h
    unfold Mem.write
    rw [ih _ _ (by omega), get_set_ne _ _ (by omega)]

theorem read_write_self (m : Mem) (a : Nat) (bs : List Byte) : (m.write a bs).read a bs.length = bs := by
  induction bs generalizing m a with
  | nil => rfl
  | cons x bs ih =>
    unfold Mem.write
    rw [List.length_cons]
    unfold Mem.read
    rw [get_write_outside _ _ _ (by omega), get_set_self, ih]

theorem read_write_outside (m : Mem) (a : Nat) (bs : List Byte) (b n : Nat) (h : b + n ≤ a ∨ a + bs.length ≤ b) :
    (m.write a bs).read b n = m.read b n := by
  induction n generalizing b with
  | zero => rfl
  | succ n ih =>
    unfold Mem.read
    rw [get_write_outside _ _ _ (by omega), ih (b + 1) (by omega)]

theorem length_read (m : Mem) (a n : Nat) : (m.read a n).length = n := by
  induction n generalizing a with
  | zero => rfl
  | succ n ih => unfold Mem.read; rw [List.length_cons, ih]

/-- Writing one byte keeps the canonical form. -/
theorem wf_set (m : Mem) (a : Nat) (v : Byte) (h : m.wf = true) : (m.set a v).wf = true := Tab.wf_set m.unlisted m.cells a v h

/-- Writing a byte list keeps the canonical form. -/
theorem wf_write (m : Mem) (a : Nat) (bs : List Byte) (h : m.wf = true) : (m.write a bs).wf = true := by
  induction bs generalizing m a with
  | nil => exact h
  | cons x bs ih => exact ih _ _ (wf_set m a x h)

theorem wf_writeNat (m : Mem) (a n v : Nat) (h : m.wf = true) : (m.writeNat a n v).wf = true := wf_write m a _ h

/-- A memory whose contents a reset left undefined is canonical. -/
theorem wf_undefinedBy (e : Nat) : (undefinedBy e).wf = true := rfl

/-- Bytes left undefined keep the canonical form. -/
theorem wf_scramble (m : Mem) (e lo hi : Nat) (h : m.wf = true) : (m.scramble e lo hi).wf = true := by
  have h1 : Tab.wf m.unlisted (Tab.clearRange lo hi m.cells) = true := Tab.wf_clear _ _ _ h
  refine Tab.wf_congr _ _ _ h1 fun x hx => ?_
  have h2 : ¬(lo ≤ x.1 ∧ x.1 < hi) := by
    have := (List.mem_filter.1 hx).2
    simp only [Bool.not_eq_true', decide_eq_false_iff_not] at this
    exact this
  simp only [Mem.unlisted, Mem.scramble, List.find?_cons, h2, decide_false]

end Mem

end Sys2Proof.Machine
end

