-- ==== Sys2Proof/Laws/Regs.lean ====
section
/-! SUPPORT. Registers and their fields: reading back what an update wrote, and what it leaves alone. -/
namespace Sys2Proof

theorem toNat_toW (n : Nat) : (toW n).toNat = n % 2 ^ 64 := BitVec.toNat_ofNat n 64

theorem bits_lt (w hi lo : Nat) : bits w hi lo < 2 ^ (hi + 1 - lo) := Nat.mod_lt _ (Nat.two_pow_pos _)

theorem bits_zero (hi lo : Nat) : bits 0 hi lo = 0 := by simp [bits]

/-- A word as the part above a field, the field, and the part below it. -/
theorem split_bits (w hi lo : Nat) :
    w = w / 2 ^ lo / 2 ^ (hi + 1 - lo) * 2 ^ (hi + 1 - lo) * 2 ^ lo + bits w hi lo * 2 ^ lo + w % 2 ^ lo := by
  have h1 := Nat.div_add_mod w (2 ^ lo)
  have h2 := Nat.div_add_mod (w / 2 ^ lo) (2 ^ (hi + 1 - lo))
  unfold bits
  calc w = 2 ^ lo * (w / 2 ^ lo) + w % 2 ^ lo := h1.symm
    _ = (w / 2 ^ lo) * 2 ^ lo + w % 2 ^ lo := by rw [Nat.mul_comm]
    _ = (2 ^ (hi + 1 - lo) * (w / 2 ^ lo / 2 ^ (hi + 1 - lo)) + w / 2 ^ lo % 2 ^ (hi + 1 - lo)) * 2 ^ lo + w % 2 ^ lo := by rw [h2]
    _ = _ := by rw [Nat.add_mul, Nat.mul_comm (2 ^ (hi + 1 - lo))]

theorem setBits_eq (w hi lo v : Nat) :
    setBits w hi lo v = w / 2 ^ lo / 2 ^ (hi + 1 - lo) * 2 ^ (hi + 1 - lo) * 2 ^ lo + v % 2 ^ (hi + 1 - lo) * 2 ^ lo + w % 2 ^ lo := by
  have h := split_bits w hi lo
  unfold setBits
  generalize bits w hi lo * 2 ^ lo = b at h
  generalize w / 2 ^ lo / 2 ^ (hi + 1 - lo) * 2 ^ (hi + 1 - lo) * 2 ^ lo = c at h ⊢
  generalize v % 2 ^ (hi + 1 - lo) * 2 ^ lo = d
  omega

/-- A field reads back as what was put there. -/
theorem bits_setBits_self (w hi lo v : Nat) : bits (setBits w hi lo v) hi lo = v % 2 ^ (hi + 1 - lo) := by
  rw [setBits_eq]
  unfold bits
  have hl : w % 2 ^ lo < 2 ^ lo := Nat.mod_lt _ (Nat.two_pow_pos _)
  rw [← Nat.add_mul, Nat.add_comm, Nat.add_mul_div_right _ _ (Nat.two_pow_pos _), Nat.div_eq_of_lt hl, Nat.zero_add, Nat.mul_add_mod_self_right,
    Nat.mod_mod]

/-- A field below another reads as before. -/
theorem bits_setBits_below (w hi lo v hi' lo' : Nat) (h : hi' < lo) (hl : lo' ≤ hi') : bits (setBits w hi lo v) hi' lo' = bits w hi' lo' := by
  have e : ∀ x : Nat, bits x hi' lo' = bits (x % 2 ^ lo) hi' lo' := by
    intro x
    unfold bits
    have : lo = lo' + (lo - lo') := by omega
    rw [this, Nat.pow_add, Nat.mod_mul_right_div_self, Nat.mod_mod_of_dvd]
    exact Nat.pow_dvd_pow 2 (by omega)
  rw [e, e w]
  congr 1
  rw [setBits_eq, ← Nat.add_mul, Nat.mul_add_mod_self_right, Nat.mod_mod]

/-- A field above another reads as before. -/
theorem bits_setBits_above (w hi lo v hi' lo' : Nat) (h : hi < lo') (hl : lo ≤ hi) : bits (setBits w hi lo v) hi' lo' = bits w hi' lo' := by
  have e : ∀ x : Nat, bits x hi' lo' = x / 2 ^ lo / 2 ^ (hi + 1 - lo) / 2 ^ (lo' - (hi + 1)) % 2 ^ (hi' + 1 - lo') := by
    intro x
    unfold bits
    rw [Nat.div_div_eq_div_mul, Nat.div_div_eq_div_mul, ← Nat.pow_add, ← Nat.pow_add]
    congr 3
    omega
  rw [e, e w]
  congr 2
  have h1 := bits_setBits_self w hi lo v
  rw [setBits_eq]
  have hl : w % 2 ^ lo < 2 ^ lo := Nat.mod_lt _ (Nat.two_pow_pos _)
  rw [← Nat.add_mul, Nat.add_comm, Nat.add_mul_div_right _ _ (Nat.two_pow_pos _), Nat.div_eq_of_lt hl, Nat.zero_add, Nat.add_comm,
    Nat.add_mul_div_right _ _ (Nat.two_pow_pos _), Nat.div_eq_of_lt (Nat.mod_lt _ (Nat.two_pow_pos _)), Nat.zero_add]

theorem bit_eq_bits (w i : Nat) : bit w i = (bits w i i == 1) := by
  unfold bit bits
  have : i + 1 - i = 1 := by omega
  rw [this, Nat.pow_one]

theorem setBits_lt (w hi lo v : Nat) (hw : w < 2 ^ 64) (h : hi < 64) (hl : lo ≤ hi) : setBits w hi lo v < 2 ^ 64 := by
  rw [setBits_eq]
  have e : (2 : Nat) ^ 64 = 2 ^ (63 - hi) * 2 ^ (hi + 1 - lo) * 2 ^ lo := by
    rw [← Nat.pow_add, ← Nat.pow_add]; congr 1; omega
  have h1 : w / 2 ^ lo / 2 ^ (hi + 1 - lo) < 2 ^ (63 - hi) := by
    rw [Nat.div_div_eq_div_mul]
    apply Nat.div_lt_of_lt_mul
    rw [e] at hw
    rw [Nat.mul_comm (2 ^ lo), Nat.mul_comm]
    rw [Nat.mul_assoc] at hw; exact hw
  have h2 : v % 2 ^ (hi + 1 - lo) < 2 ^ (hi + 1 - lo) := Nat.mod_lt _ (Nat.two_pow_pos _)
  have h3 : w % 2 ^ lo < 2 ^ lo := Nat.mod_lt _ (Nat.two_pow_pos _)
  rw [e]
  generalize w / 2 ^ lo / 2 ^ (hi + 1 - lo) = a at h1 ⊢
  generalize v % 2 ^ (hi + 1 - lo) = b at h2 ⊢
  generalize w % 2 ^ lo = c at h3 ⊢
  have q1 : a * 2 ^ (hi + 1 - lo) + b < 2 ^ (63 - hi) * 2 ^ (hi + 1 - lo) := by
    calc a * 2 ^ (hi + 1 - lo) + b < a * 2 ^ (hi + 1 - lo) + 2 ^ (hi + 1 - lo) := Nat.add_lt_add_left h2 _
      _ = (a + 1) * 2 ^ (hi + 1 - lo) := (Nat.succ_mul ..).symm
      _ ≤ _ := Nat.mul_le_mul_right _ h1
  calc _ = (a * 2 ^ (hi + 1 - lo) + b) * 2 ^ lo + c := by rw [Nat.add_mul]
    _ < (a * 2 ^ (hi + 1 - lo) + b) * 2 ^ lo + 2 ^ lo := Nat.add_lt_add_left h3 _
    _ = (a * 2 ^ (hi + 1 - lo) + b + 1) * 2 ^ lo := (Nat.succ_mul ..).symm
    _ ≤ _ := Nat.mul_le_mul_right _ q1

namespace Machine

theorem State.reg_lt (s : State) (a : Nat) : s.reg a < 2 ^ 64 := (Tab.get (regReset a) s.regs a).isLt

@[simp] theorem State.reg_setReg_self (s : State) (a v : Nat) : (s.setReg a v).reg a = v % 2 ^ 64 := by
  unfold State.reg State.setReg
  rw [Tab.get_set_self, toNat_toW]

theorem State.reg_setReg_ne (s : State) {a b : Nat} (v : Nat) (h : b ≠ a) : (s.setReg a v).reg b = s.reg b := by
  unfold State.reg State.setReg
  rw [Tab.get_set_ne _ _ _ _ h]

theorem State.reg_setFld_ne (s : State) {a b : Nat} (hi lo v : Nat) (h : b ≠ a) : (s.setFld a hi lo v).reg b = s.reg b :=
  s.reg_setReg_ne _ h

theorem State.reg_setFlag_ne (s : State) {a b : Nat} (i : Nat) (x : Bool) (h : b ≠ a) : (s.setFlag a i x).reg b = s.reg b :=
  s.reg_setReg_ne _ h

theorem State.reg_setFld_self (s : State) (a hi lo v : Nat) (h : hi < 64) (hl : lo ≤ hi) :
    (s.setFld a hi lo v).reg a = setBits (s.reg a) hi lo v := by
  unfold State.setFld
  rw [State.reg_setReg_self, Nat.mod_eq_of_lt (setBits_lt _ _ _ _ (s.reg_lt a) h hl)]

theorem State.fld_setFld_self (s : State) (a hi lo v : Nat) (h : hi < 64) (hl : lo ≤ hi) :
    (s.setFld a hi lo v).fld a hi lo = v % 2 ^ (hi + 1 - lo) := by
  unfold State.fld
  rw [State.reg_setFld_self _ _ _ _ _ h hl, bits_setBits_self]

theorem State.fld_setFld_below (s : State) (a hi lo v hi' lo' : Nat) (h : hi < 64) (hl : lo ≤ hi) (hb : hi' < lo) (hl' : lo' ≤ hi') :
    (s.setFld a hi lo v).fld a hi' lo' = s.fld a hi' lo' := by
  unfold State.fld
  rw [State.reg_setFld_self _ _ _ _ _ h hl, bits_setBits_below _ _ _ _ _ _ hb hl']

theorem State.fld_setFld_above (s : State) (a hi lo v hi' lo' : Nat) (h : hi < 64) (hl : lo ≤ hi) (hb : hi < lo') :
    (s.setFld a hi lo v).fld a hi' lo' = s.fld a hi' lo' := by
  unfold State.fld
  rw [State.reg_setFld_self _ _ _ _ _ h hl, bits_setBits_above _ _ _ _ _ _ hb hl]

theorem State.flag_setFlag_self (s : State) (a i : Nat) (b : Bool) (h : i < 64) : (s.setFlag a i b).flag a i = b := by
  unfold State.flag State.setFlag
  rw [bit_eq_bits]
  have := s.fld_setFld_self a i i (b2n b) h (Nat.le_refl i)
  unfold State.fld at this
  rw [this]
  have e : i + 1 - i = 1 := by omega
  rw [e]
  cases b <;> rfl

theorem State.reg_resetRegs (s : State) (lo hi a : Nat) :
    (s.resetRegs lo hi).reg a = if lo ≤ a ∧ a < hi then (regReset a).toNat else s.reg a := by
  unfold State.reg State.resetRegs Tab.clearRange
  simp only
  rw [Tab.get_clear]
  simp only [decide_eq_true_eq]
  split <;> rfl

/-- Every register update keeps the canonical form of the register file. -/
theorem State.wf_setReg (s : State) (a v : Nat) (h : Tab.wf regReset s.regs = true) : Tab.wf regReset (s.setReg a v).regs = true :=
  Tab.wf_set regReset s.regs a (toW v) h

theorem State.wf_resetRegs (s : State) (lo hi : Nat) (h : Tab.wf regReset s.regs = true) : Tab.wf regReset (s.resetRegs lo hi).regs = true :=
  Tab.wf_clear regReset (fun k => decide (lo ≤ k ∧ k < hi)) s.regs h

/-- The state after reset is canonical. -/
theorem reset_canonical : State.reset.Canonical := ⟨rfl, rfl⟩

end Machine
end Sys2Proof
end

