-- ==== Sys2Proof/Laws/Events.lean ====
section
/-! SUPPORT. What an event, a counter, a recorded fault and the passing of time can change: registers named here and messages sent, nothing
else. -/
namespace Sys2Proof.Machine

/-- Only registers and what left the module differ. -/
def OnlyRegs (s t : State) : Prop := ∃ r o, t = { s with regs := r, out := o }

theorem OnlyRegs.refl (s : State) : OnlyRegs s s := ⟨s.regs, s.out, (rfl)⟩

theorem OnlyRegs.trans {s t u : State} (h : OnlyRegs s t) (k : OnlyRegs t u) : OnlyRegs s u := by
  obtain ⟨r, o, rfl⟩ := h
  obtain ⟨r', o', rfl⟩ := k
  exact ⟨r', o', (rfl)⟩

theorem onlyRegs_setReg (s : State) (a v : Nat) : OnlyRegs s (s.setReg a v) := ⟨_, s.out, (rfl)⟩

theorem onlyRegs_setFld (s : State) (a hi lo v : Nat) : OnlyRegs s (s.setFld a hi lo v) := onlyRegs_setReg _ _ _

theorem onlyRegs_setFlag (s : State) (a i : Nat) (b : Bool) : OnlyRegs s (s.setFlag a i b) := onlyRegs_setReg _ _ _

theorem onlyRegs_emit (s : State) (x : Out) : OnlyRegs s (s.emit x) := ⟨s.regs, _, (rfl)⟩

theorem onlyRegs_ite {s t u : State} (c : Prop) [Decidable c] (h : OnlyRegs s t) (k : OnlyRegs s u) : OnlyRegs s (if c then t else u) := by
  split
  · exact h
  · exact k

theorem onlyRegs_msixTo (s : State) (p : HostPort) (v : Nat) : OnlyRegs s (s.msixTo p v) := by
  unfold State.msixTo
  extract_lets b
  exact onlyRegs_ite _ (onlyRegs_ite _ (onlyRegs_setFlag ..) (onlyRegs_emit ..)) (.refl s)

theorem onlyRegs_sendIrq (s : State) (pg : Nat) : OnlyRegs s (s.sendIrq pg) := by
  unfold State.sendIrq
  extract_lets c s1
  have h : OnlyRegs s s1 := onlyRegs_ite _ (onlyRegs_msixTo ..) (.refl s)
  exact onlyRegs_ite _ (h.trans (onlyRegs_msixTo ..)) h

theorem onlyRegs_event (s : State) (pg i : Nat) : OnlyRegs s (s.event pg i) := by
  unfold State.event
  extract_lets was s1 s2
  have h : OnlyRegs s s2 := onlyRegs_ite _ ((onlyRegs_setFlag ..).trans (onlyRegs_setFlag ..)) (onlyRegs_setFlag ..)
  exact onlyRegs_ite _ (h.trans (onlyRegs_sendIrq ..)) h

theorem onlyRegs_bump (s : State) (a n : Nat) : OnlyRegs s (s.bump a n) := by
  unfold State.bump
  dsimp only
  split
  · exact .refl s
  · split
    · exact onlyRegs_setReg ..
    · split
      · exact (onlyRegs_setReg ..).trans (onlyRegs_event ..)
      · exact onlyRegs_setReg ..

theorem onlyRegs_bumpFld (s : State) (a hi lo n : Nat) : OnlyRegs s (s.bumpFld a hi lo n) := onlyRegs_setFld ..

theorem onlyRegs_yardHit (s : State) (y : Nat) : OnlyRegs s (s.yardHit y) := by
  unfold State.yardHit
  dsimp only
  split
  · exact (onlyRegs_bumpFld ..).trans (onlyRegs_event ..)
  · exact onlyRegs_bumpFld ..

theorem onlyRegs_logFault (s : State) (pg code info sev : Nat) (first : Bool) : OnlyRegs s (s.logFault pg code info sev first) := by
  unfold State.logFault
  exact ((((onlyRegs_setReg ..).trans (onlyRegs_setReg ..)).trans (onlyRegs_setReg ..)).trans (onlyRegs_setReg ..)).trans (onlyRegs_setFld ..)

theorem onlyRegs_fault (s : State) (pg code info : Nat) : OnlyRegs s (s.fault pg code info) := by
  unfold State.fault
  extract_lets first s1 sev s2 s3 s4
  have h1 : OnlyRegs s s1 := onlyRegs_ite _ ((onlyRegs_setReg ..).trans (onlyRegs_setReg ..)) (onlyRegs_bumpFld ..)
  have h2 : OnlyRegs s s2 := h1.trans (onlyRegs_bump ..)
  have h3 : OnlyRegs s s3 := h2.trans (onlyRegs_ite _ (onlyRegs_logFault ..) (.refl _))
  have h4 : OnlyRegs s s4 := by
    refine h3.trans ?_
    show OnlyRegs s3 (match hitYard pg code info with
      | some y => s3.yardHit y
      | none => s3)
    cases hitYard pg code info with
    | some y => exact onlyRegs_yardHit ..
    | none => exact .refl _
  exact onlyRegs_ite _ (h4.trans (onlyRegs_setFlag ..)) h4

theorem onlyRegs_faultEv (s : State) (pg code info ev : Nat) : OnlyRegs s (s.faultEv pg code info ev) :=
  (onlyRegs_fault ..).trans (onlyRegs_event ..)

theorem OnlyRegs.hbm {s t : State} (h : OnlyRegs s t) : t.hbm = s.hbm := by
  obtain ⟨r, o, rfl⟩ := h; rfl

/-! ### Which registers -/

/-- The registers that the MSI-X messages of any event may touch. -/
def msixReg (a : Nat) : Prop := 0x201_0000 ≤ a

theorem pgMsix_ge (b : Bool) : 0x201_0000 ≤ pgMsix b := by cases b <;> decide

theorem reg_ite (c : Prop) [Decidable c] {s t u : State} {a : Nat} (h : t.reg a = s.reg a) (k : u.reg a = s.reg a) :
    (if c then t else u).reg a = s.reg a := by
  split
  · exact h
  · exact k

theorem State.msixTo_reg (s : State) (p : HostPort) (v : Nat) {a : Nat} (h : a < 0x201_0000) : (s.msixTo p v).reg a = s.reg a := by
  have k := pgMsix_ge p.isB
  unfold State.msixTo
  extract_lets b
  have k : 0x201_0000 ≤ pgMsix b := k
  exact reg_ite _ (reg_ite _ (s.reg_setFlag_ne _ _ (by omega)) rfl) rfl

theorem State.sendIrq_reg (s : State) (pg : Nat) {a : Nat} (h : a < 0x201_0000) : (s.sendIrq pg).reg a = s.reg a := by
  unfold State.sendIrq
  extract_lets c s1
  have k : s1.reg a = s.reg a := reg_ite _ (s.msixTo_reg _ _ h) rfl
  exact reg_ite _ ((s1.msixTo_reg _ _ h).trans k) k

/-- An event changes EVT_STATUS and EVT_PEND of its page, and MSI-X pending bits. -/
theorem State.event_reg (s : State) (pg i : Nat) {a : Nat} (h1 : a ≠ pg + 0x18) (h2 : a ≠ pg + 0x28) (h : a < 0x201_0000) :
    (s.event pg i).reg a = s.reg a := by
  unfold State.event
  extract_lets was s1 s2
  have e1 : s1.reg a = s.reg a := s.reg_setFlag_ne _ _ h1
  have k : s2.reg a = s.reg a := reg_ite _ ((s1.reg_setFlag_ne _ _ h2).trans e1) e1
  exact reg_ite _ ((s2.sendIrq_reg _ h).trans k) k

/-- The event is set in EVT_STATUS. -/
theorem State.event_flag (s : State) (pg i : Nat) (hi : i < 64) (h : pg + 0x28 < 0x201_0000) : (s.event pg i).flag (pg + 0x18) i = true := by
  have e1 : (s.setFlag (pg + 0x18) i true).flag (pg + 0x18) i = true := s.flag_setFlag_self _ _ _ hi
  unfold State.flag at e1 ⊢
  unfold State.event
  extract_lets was s1 s2
  have k : s2.reg (pg + 0x18) = s1.reg (pg + 0x18) := reg_ite _ (s1.reg_setFlag_ne _ _ (by omega)) rfl
  rw [show (if (s2.irq pg && !was) = true then s2.sendIrq pg else s2).reg (pg + 0x18) = s1.reg (pg + 0x18) from
    reg_ite _ ((s2.sendIrq_reg _ (by omega)).trans k) k]
  exact e1

/-- A counter changes itself, and where it stops at its maximum what its page's event changes. -/
theorem State.bump_reg (s : State) (c n : Nat) {a : Nat} (h0 : a ≠ c) (h1 : a ≠ pageBase c + 0x18) (h2 : a ≠ pageBase c + 0x28)
    (h : a < 0x201_0000) : (s.bump c n).reg a = s.reg a := by
  unfold State.bump
  extract_lets v k s1
  have e1 : s1.reg a = s.reg a := s.reg_setReg_ne _ h0
  refine reg_ite _ rfl (reg_ite _ (s.reg_setReg_ne _ h0) ?_)
  split
  · exact (s1.event_reg _ _ h1 h2 h).trans e1
  · exact e1

theorem State.bumpFld_reg (s : State) (c hi lo n : Nat) {a : Nat} (h0 : a ≠ c) : (s.bumpFld c hi lo n).reg a = s.reg a :=
  s.reg_setFld_ne _ _ _ h0

/-- A recorded fault changes ERR_CODE and ERR_INFO of its page, the Monitors page and the log, and FAULT_N. -/
theorem State.fault_reg (s : State) (pg code info : Nat) {a : Nat} (h1 : a ≠ pg + 0x38) (h2 : a ≠ pg + 0x40)
    (h3 : a < 0x4_0000 ∨ 0x5_0000 ≤ a) (h4 : a ≠ pgBare + 0x100) (h : a < 0x201_0000) (h5 : pg < 0x200_0000) : (s.fault pg code info).reg a = s.reg a := by
  have sev5 : (faultSev code).code < 5 := by cases faultSev code <;> decide
  unfold State.fault
  extract_lets first s1 sev s2 s3 s4
  have e1 : s1.reg a = s.reg a := by
    show (if first = true then (s.setReg (pg + 0x38) code).setReg (pg + 0x40) info else s.bumpFld (pg + 0x38) 31 16 1).reg a = _
    split
    · rw [State.reg_setReg_ne _ _ h2, State.reg_setReg_ne _ _ h1]
    · rw [State.bumpFld_reg _ _ _ _ _ h1]
  have pm : pgMon = 0x4_0000 := rfl
  have e2 : s2.reg a = s.reg a := by
    have pb : pageBase (pgMon + 0x110 + 8 * sev) = 0x4_0000 := by
      unfold pageBase; rw [pm]
      have : sev < 5 := sev5
      omega
    show (s1.bump (pgMon + 0x110 + 8 * sev) 1).reg a = _
    rw [State.bump_reg _ _ _ (by have : sev < 5 := sev5; rw [pm]; omega) (by rw [pb]; omega) (by rw [pb]; omega) h, e1]
  have e3 : s3.reg a = s.reg a := by
    show (if bit (s2.reg (pgMon + 0x100)) sev then s2.logFault pg code info sev first else s2).reg a = _
    split
    · have la : ∀ n, 0x4_1000 ≤ logAddr (n % 256) ∧ logAddr (n % 256) < 0x4_1000 + 256 * 32 := by
        intro n; unfold logAddr; omega
      unfold State.logFault
      dsimp only
      have q := la (s2.fld (pgMon + 0x108) 31 0)
      rw [State.reg_setFld_ne _ _ _ _ (by rw [pm]; omega), State.reg_setReg_ne _ _ (by omega), State.reg_setReg_ne _ _ (by omega),
        State.reg_setReg_ne _ _ (by omega), State.reg_setReg_ne _ _ (by omega), e2]
    · exact e2
  have e4 : s4.reg a = s.reg a := by
    show (match hitYard pg code info with
      | some y => s3.yardHit y
      | none => s3).reg a = _
    cases hy : hitYard pg code info with
    | none => exact e3
    | some y =>
      have yl : 0x100_0000 ≤ pg ∧ y = (pg - 0x100_0000) / 0x4_0000 := by
        unfold hitYard at hy
        split at hy
        · cases hy
        · split at hy
          · rename_i q _; injection hy with hy; exact ⟨by omega, hy.symm⟩
          · cases hy
      show (s3.yardHit y).reg a = _
      unfold State.yardHit
      extract_lets u
      have e : u.reg a = s3.reg a := s3.bumpFld_reg _ _ _ _ (by rw [pm]; omega)
      exact (reg_ite _ ((u.event_reg _ _ (by rw [pm]; omega) (by rw [pm]; omega) h).trans e) e).trans e3
  exact reg_ite _ ((s4.reg_setFlag_ne _ _ h4).trans e4) e4

theorem State.faultEv_reg (s : State) (pg code info ev : Nat) {a : Nat} (h1 : a ≠ pg + 0x38) (h2 : a ≠ pg + 0x40) (h6 : a ≠ pg + 0x18)
    (h7 : a ≠ pg + 0x28) (h3 : a < 0x4_0000 ∨ 0x5_0000 ≤ a) (h4 : a ≠ pgBare + 0x100) (h : a < 0x201_0000) (h5 : pg < 0x200_0000) :
    (s.faultEv pg code info ev).reg a = s.reg a := by
  unfold State.faultEv
  rw [State.event_reg _ _ _ h6 h7 h, State.fault_reg _ _ _ _ h1 h2 h3 h4 h h5]

/-- PT_REG_WAIT grows with its kind's events; every other register of a page, and every other page, keeps its value. -/
theorem State.regWaits_reg (s : State) (dt : Nat) {a : Nat} (h : a < 0x201_0000)
    (hp : 0x2_0000 ≤ a → a < 0x2_8000 → a % 0x1000 ∉ [0x18, 0x28, 0x158, 0x160, 0x168]) : (s.regWaits dt).reg a = s.reg a := by
  have key : ∀ k ∈ s.regsHolding, k < 24 := by
    intro k hk
    simp only [State.regsHolding, List.mem_eraseDups, List.mem_map, List.mem_filter, Bool.and_eq_true, decide_eq_true_eq] at hk
    obtain ⟨e, ⟨_, he, _⟩, rfl⟩ := hk
    omega
  unfold State.regWaits
  generalize s.regsHolding = ks at key
  induction ks generalizing s with
  | nil => rfl
  | cons k ks ih =>
    rw [List.foldl_cons, ih _ fun x hx => key x (List.mem_cons_of_mem _ hx)]
    have hk := key k List.mem_cons_self
    simp only [List.mem_cons, List.not_mem_nil, or_false, not_or] at hp
    have e : (pgPart (k % 8) + 0x158 + 8 * (k / 8)) / 0x1000 = 0x20 + k % 8 := by simp only [pgPart]; omega
    have inside : ∀ o, o < 0x1000 → a = 0x2_0000 + k % 8 * 0x1000 + o → 0x2_0000 ≤ a ∧ a < 0x2_8000 ∧ a % 0x1000 = o := by omega
    have out : ∀ o, o < 0x1000 → (o = 0x18 ∨ o = 0x28 ∨ o = 0x158 ∨ o = 0x160 ∨ o = 0x168) → a ≠ 0x2_0000 + k % 8 * 0x1000 + o := by
      intro o ho hs he
      obtain ⟨h1, h2, h3⟩ := inside o ho he
      have := hp h1 h2
      omega
    refine State.bump_reg _ _ _ ?_ ?_ ?_ h
    · have := out (0x158 + 8 * (k / 8)) (by omega) (by omega)
      simp only [pgPart]; omega
    · have := out 0x18 (by omega) (by omega)
      simp only [pageBase, e]; omega
    · have := out 0x28 (by omega) (by omega)
      simp only [pageBase, e]; omega

/-- PWR_LIMIT_NS grows with its event; every other register keeps its value. -/
theorem State.limitTime_reg (s : State) (dt : Nat) {a : Nat} (h : a < 0x201_0000) (hp : a ∉ [0x1_0018, 0x1_0028, 0x1_0120]) :
    (s.limitTime dt).reg a = s.reg a := by
  unfold State.limitTime
  extract_lets lim
  simp only [List.mem_cons, List.not_mem_nil, or_false, not_or] at hp
  refine reg_ite _ (State.bump_reg _ _ _ ?_ ?_ ?_ h) rfl <;> simp only [pageBase, pgPower] <;> omega

/-- Time passing changes GLB_TIME, PWR_LIMIT_NS and PT_REG_WAIT, and with the latter two the events of their pages. -/
theorem State.tick_reg (s : State) (dt : Nat) {a : Nat} (h : a ≠ pgGlobal + 0x108) (h1 : a < 0x201_0000)
    (h2 : a ∉ [0x1_0018, 0x1_0028, 0x1_0120]) (h3 : 0x2_0000 ≤ a → a < 0x2_8000 → a % 0x1000 ∉ [0x18, 0x28, 0x158, 0x160, 0x168]) :
    (s.tick dt).reg a = s.reg a := by
  have e : ((s.regWaits dt).limitTime dt).reg a = s.reg a := (State.limitTime_reg _ _ h1 h2).trans (State.regWaits_reg _ _ h1 h3)
  unfold State.tick State.regHeldNow
  show (((s.regWaits dt).limitTime dt).clocks dt).reg a = _
  rw [← e]
  unfold State.clocks
  extract_lets s1 lim corr
  split
  · exact (s1.reg_setReg_ne _ h)
  · rfl

/-- STAGE after a change of stage. -/
theorem State.setStage_stage (s : State) (n : Nat) (h : n < 16) : (s.setStage n).stage = n := by
  unfold State.setStage
  split
  · assumption
  · unfold State.stage State.fld
    rw [State.event_reg _ _ _ (by decide) (by decide) (by decide)]
    have := State.fld_setFld_self { s with stageNs := 0 } (pgBare + 0x100) 60 57 n (by decide) (by decide)
    unfold State.fld at this
    rw [this]; exact Nat.mod_eq_of_lt h

end Sys2Proof.Machine
end

