-- ==== Sys2Proof/Laws/Keep.lean ====
section
/-! SUPPORT. The part of a state that no ordinary command touches (the queue and the two retired lists), and the rules by which the frame lemmas
of the other files are put together. -/
namespace Sys2Proof.Machine

/-- The queue of waiting commands and the retired lists of the two flash devices. -/
structure Outside where
  pending : List Instr
  retiredA : List Nat
  retiredB : List Nat

/-- That part of a state. -/
def State.outside (s : State) : Outside := ⟨s.pending, s.retiredA, s.retiredB⟩

/-- The queue is the same, and neither retired list lost an entry. -/
def Keeps (r o : Outside) : Prop :=
  o.pending = r.pending ∧ (∀ p ∈ r.retiredA, p ∈ o.retiredA) ∧ (∀ p ∈ r.retiredB, p ∈ o.retiredB)

/-- A command that completes, with the queue as it was and no retirement undone. -/
def Good (r : Outside) (x : Result) : Prop := ∃ t, x = .next t ∧ Keeps r t.outside

theorem Keeps.refl (r : Outside) : Keeps r r := ⟨rfl, fun _ h => h, fun _ h => h⟩

theorem Keeps.trans {a b c : Outside} (h : Keeps a b) (k : Keeps b c) : Keeps a c :=
  ⟨k.1.trans h.1, fun p q => k.2.1 p (h.2.1 p q), fun p q => k.2.2 p (h.2.2 p q)⟩

theorem keeps_of_eq {r o : Outside} (h : o = r) : Keeps r o := h ▸ Keeps.refl _

theorem keeps_eq {r o o' : Outside} (h : o = o') (k : Keeps r o') : Keeps r o := h ▸ k

theorem good_next {r : Outside} {t : State} (h : Keeps r t.outside) : Good r (.next t) := ⟨t, rfl, h⟩

@[simp] theorem outside_mk {x0 x1 x2 x3 x4 x5 x6 x7 x8 x9 x10 x11 x12 x13 x14 x15 x16 x17 x18 x19 x20 x21 x22 x23 x24 x25 x26 x27 x28 x29
      x30 x31 x32 x33 x34 x35 x36 x37 x38 x39 x40 x41 x42 x43 x44 x45 x46 x47 x48 x49 x50 x51 x52 x53 x54 x55 x56 x57 x58 x59
      x60 x61 x62 x63 x64 x65 x66 x67 x68 x69 x70 x71 x72 x73 x74 x75 x76 x77 x78 x79 x80 x81 x82 x83 x84 x85 x86 x87 x88 x89
      x90 x91 x92 x93 x94 x95 x96 x97 x98 x99 x100 x101 x102 x103 x104 x105 x106 x107 x108} :
    (State.mk x0 x1 x2 x3 x4 x5 x6 x7 x8 x9 x10 x11 x12 x13 x14 x15 x16 x17 x18 x19 x20 x21 x22 x23 x24 x25 x26 x27 x28 x29
      x30 x31 x32 x33 x34 x35 x36 x37 x38 x39 x40 x41 x42 x43 x44 x45 x46 x47 x48 x49 x50 x51 x52 x53 x54 x55 x56 x57 x58 x59
      x60 x61 x62 x63 x64 x65 x66 x67 x68 x69 x70 x71 x72 x73 x74 x75 x76 x77 x78 x79 x80 x81 x82 x83 x84 x85 x86 x87 x88 x89
      x90 x91 x92 x93 x94 x95 x96 x97 x98 x99 x100 x101 x102 x103 x104 x105 x106 x107 x108).outside =
      ⟨x0, x24, x25⟩ := (rfl)

@[simp] theorem outside_fold (s : State) : (⟨s.pending, s.retiredA, s.retiredB⟩ : Outside) = s.outside := (rfl)

@[simp ↓] theorem outside_ite (c : Prop) [Decidable c] (a b : State) : (if c then a else b).outside = if c then a.outside else b.outside := by
  split <;> rfl

theorem outside_foldl {α : Type} (f : State → α → State) (h : ∀ t x, (f t x).outside = t.outside) (l : List α) (s : State) :
    (l.foldl f s).outside = s.outside := by
  induction l generalizing s with
  | nil => rfl
  | cons x l ih => rw [List.foldl_cons, ih, h]

theorem outside_foldl' {α : Type} (f : State → α → State) (l : List α) (s : State) {r : Outside} (h : ∀ t x, (f t x).outside = t.outside)
    (h0 : s.outside = r) : (l.foldl f s).outside = r := by rw [outside_foldl f h, h0]

theorem outside_foldl_fst {α β : Type} (f : State × β → α → State × β) (l : List α) (p : State × β) {r : Outside}
    (h : ∀ a x, (f a x).1.outside = a.1.outside) (h0 : p.1.outside = r) : (l.foldl f p).1.outside = r := by
  induction l generalizing p with
  | nil => exact h0
  | cons x l ih => exact ih _ ((h p x).trans h0)

theorem outside_fst_ite {β : Type} (c : Prop) [Decidable c] (a b : State × β) :
    (if c then a else b).1.outside = if c then a.1.outside else b.1.outside := by
  split <;> rfl

theorem keeps_iter (f : State → State) (n : Nat) (s : State) {r : Outside} (h : ∀ t, Keeps r t.outside → Keeps r (f t).outside)
    (h0 : Keeps r s.outside) : Keeps r (iter f n s).outside := by
  induction n generalizing s with
  | zero => exact h0
  | succ n ih => exact ih _ (h _ h0)

theorem outside_iter (f : State → State) (n : Nat) (s : State) {r : Outside} (h : ∀ t, (f t).outside = t.outside) (h0 : s.outside = r) :
    (iter f n s).outside = r := by
  induction n generalizing s with
  | zero => exact h0
  | succ n ih => exact ih _ ((h s).trans h0)

theorem keeps_foldl {α : Type} (f : State → α → State) (l : List α) (s : State) {r : Outside}
    (h : ∀ t x, Keeps r t.outside → Keeps r (f t x).outside) (h0 : Keeps r s.outside) : Keeps r (l.foldl f s).outside := by
  induction l generalizing s with
  | nil => exact h0
  | cons x l ih => exact ih _ (h _ _ h0)

end Sys2Proof.Machine
end

