-- ==== Sys2Proof/Laws/KeepOps.lean ====
section
/-! SUPPORT. Machine/Ops.lean: what its operations leave alone. -/
set_option linter.unusedSimpArgs false
namespace Sys2Proof.Machine

@[simp ↓] theorem State.setReg_outside (s : State) (a v : Nat) : (State.setReg s a v).outside = s.outside := by
  unfold State.setReg
  repeat' (first | simp only [↓outside_fst_ite, ↓outside_mk, ↓outside_fold, ↓outside_ite, ite_self, implies_true] | split | dsimp only | (with_reducible apply outside_foldl'; intro _ _) | (with_reducible apply outside_foldl_fst; intro _ _) | (with_reducible apply outside_iter; intro _))

@[simp ↓] theorem State.setFld_outside (s : State) (a hi lo v : Nat) : (State.setFld s a hi lo v).outside = s.outside := by
  unfold State.setFld
  repeat' (first | simp only [↓outside_fst_ite, ↓outside_mk, ↓outside_fold, ↓outside_ite, ite_self, implies_true, ↓State.setReg_outside] | split | dsimp only | (with_reducible apply outside_foldl'; intro _ _) | (with_reducible apply outside_foldl_fst; intro _ _) | (with_reducible apply outside_iter; intro _))

@[simp ↓] theorem State.setFlag_outside (s : State) (a i : Nat) (b : Bool) : (State.setFlag s a i b).outside = s.outside := by
  unfold State.setFlag
  repeat' (first | simp only [↓outside_fst_ite, ↓outside_mk, ↓outside_fold, ↓outside_ite, ite_self, implies_true, ↓State.setFld_outside] | split | dsimp only | (with_reducible apply outside_foldl'; intro _ _) | (with_reducible apply outside_foldl_fst; intro _ _) | (with_reducible apply outside_iter; intro _))

@[simp ↓] theorem State.resetRegs_outside (s : State) (lo hi : Nat) : (State.resetRegs s lo hi).outside = s.outside := by
  unfold State.resetRegs
  repeat' (first | simp only [↓outside_fst_ite, ↓outside_mk, ↓outside_fold, ↓outside_ite, ite_self, implies_true] | split | dsimp only | (with_reducible apply outside_foldl'; intro _ _) | (with_reducible apply outside_foldl_fst; intro _ _) | (with_reducible apply outside_iter; intro _))

@[simp ↓] theorem State.fresh_outside (s : State) : (State.fresh s).2.outside = s.outside := by
  unfold State.fresh
  repeat' (first | simp only [↓outside_fst_ite, ↓outside_mk, ↓outside_fold, ↓outside_ite, ite_self, implies_true] | split | dsimp only | rfl | (with_reducible apply outside_foldl'; intro _ _) | (with_reducible apply outside_foldl_fst; intro _ _))

theorem State.fresh_pair {s : State} {b1 : Nat} {t1 : State} (e : State.fresh s = (b1, t1)) : t1.outside = s.outside := by
  have k := State.fresh_outside s
  rw [e] at k; exact k

@[simp ↓] theorem State.emit_outside (s : State) (o : Out) : (State.emit s o).outside = s.outside := by
  unfold State.emit
  repeat' (first | simp only [↓outside_fst_ite, ↓outside_mk, ↓outside_fold, ↓outside_ite, ite_self, implies_true] | split | dsimp only | (with_reducible apply outside_foldl'; intro _ _) | (with_reducible apply outside_foldl_fst; intro _ _) | (with_reducible apply outside_iter; intro _))

@[simp ↓] theorem State.msixTo_outside (s : State) (p : HostPort) (v : Nat) : (State.msixTo s p v).outside = s.outside := by
  unfold State.msixTo
  repeat' (first | simp only [↓outside_fst_ite, ↓outside_mk, ↓outside_fold, ↓outside_ite, ite_self, implies_true, ↓State.setFlag_outside, ↓State.emit_outside] | split | dsimp only | (with_reducible apply outside_foldl'; intro _ _) | (with_reducible apply outside_foldl_fst; intro _ _) | (with_reducible apply outside_iter; intro _))

@[simp ↓] theorem State.sendIrq_outside (s : State) (pg : Nat) : (State.sendIrq s pg).outside = s.outside := by
  unfold State.sendIrq
  repeat' (first | simp only [↓outside_fst_ite, ↓outside_mk, ↓outside_fold, ↓outside_ite, ite_self, implies_true, ↓State.msixTo_outside] | split | dsimp only | (with_reducible apply outside_foldl'; intro _ _) | (with_reducible apply outside_foldl_fst; intro _ _) | (with_reducible apply outside_iter; intro _))

@[simp ↓] theorem State.event_outside (s : State) (pg i : Nat) : (State.event s pg i).outside = s.outside := by
  unfold State.event
  repeat' (first | simp only [↓outside_fst_ite, ↓outside_mk, ↓outside_fold, ↓outside_ite, ite_self, implies_true, ↓State.setFlag_outside, ↓State.sendIrq_outside] | split | dsimp only | (with_reducible apply outside_foldl'; intro _ _) | (with_reducible apply outside_foldl_fst; intro _ _) | (with_reducible apply outside_iter; intro _))

@[simp ↓] theorem State.irqAfterWrite_outside (s : State) (pg : Nat) : (State.irqAfterWrite s pg).outside = s.outside := by
  unfold State.irqAfterWrite
  repeat' (first | simp only [↓outside_fst_ite, ↓outside_mk, ↓outside_fold, ↓outside_ite, ite_self, implies_true, ↓State.sendIrq_outside] | split | dsimp only | (with_reducible apply outside_foldl'; intro _ _) | (with_reducible apply outside_foldl_fst; intro _ _) | (with_reducible apply outside_iter; intro _))

@[simp ↓] theorem State.bump_outside (s : State) (a n : Nat) : (State.bump s a n).outside = s.outside := by
  unfold State.bump
  repeat' (first | simp only [↓outside_fst_ite, ↓outside_mk, ↓outside_fold, ↓outside_ite, ite_self, implies_true, ↓State.setReg_outside, ↓State.event_outside] | split | dsimp only | (with_reducible apply outside_foldl'; intro _ _) | (with_reducible apply outside_foldl_fst; intro _ _) | (with_reducible apply outside_iter; intro _))

@[simp ↓] theorem State.waitNs_outside (s : State) (a : Nat) : (State.waitNs s a).outside = s.outside := by
  unfold State.waitNs
  repeat' (first | simp only [↓outside_fst_ite, ↓outside_mk, ↓outside_fold, ↓outside_ite, ite_self, implies_true, ↓State.fresh_outside, ↓State.bump_outside] | split | dsimp only | (with_reducible apply outside_foldl'; intro _ _) | (with_reducible apply outside_foldl_fst; intro _ _) | (with_reducible apply outside_iter; intro _) | refine (State.fresh_pair (by assumption)).trans ?_)

@[simp ↓] theorem State.bumpFld_outside (s : State) (a hi lo n : Nat) : (State.bumpFld s a hi lo n).outside = s.outside := by
  unfold State.bumpFld
  repeat' (first | simp only [↓outside_fst_ite, ↓outside_mk, ↓outside_fold, ↓outside_ite, ite_self, implies_true, ↓State.setFld_outside] | split | dsimp only | (with_reducible apply outside_foldl'; intro _ _) | (with_reducible apply outside_foldl_fst; intro _ _) | (with_reducible apply outside_iter; intro _))

@[simp ↓] theorem State.logFault_outside (s : State) (pg code info sev : Nat) (first : Bool) : (State.logFault s pg code info sev first).outside = s.outside := by
  unfold State.logFault
  repeat' (first | simp only [↓outside_fst_ite, ↓outside_mk, ↓outside_fold, ↓outside_ite, ite_self, implies_true, ↓State.setReg_outside, ↓State.setFld_outside] | split | dsimp only | (with_reducible apply outside_foldl'; intro _ _) | (with_reducible apply outside_foldl_fst; intro _ _) | (with_reducible apply outside_iter; intro _))

@[simp ↓] theorem State.yardHit_outside (s : State) (y : Nat) : (State.yardHit s y).outside = s.outside := by
  unfold State.yardHit
  repeat' (first | simp only [↓outside_fst_ite, ↓outside_mk, ↓outside_fold, ↓outside_ite, ite_self, implies_true, ↓State.bumpFld_outside, ↓State.event_outside] | split | dsimp only | (with_reducible apply outside_foldl'; intro _ _) | (with_reducible apply outside_foldl_fst; intro _ _) | (with_reducible apply outside_iter; intro _))

@[simp ↓] theorem State.fault_outside (s : State) (pg code info : Nat) : (State.fault s pg code info).outside = s.outside := by
  unfold State.fault
  repeat' (first | simp only [↓outside_fst_ite, ↓outside_mk, ↓outside_fold, ↓outside_ite, ite_self, implies_true, ↓State.setReg_outside, ↓State.bumpFld_outside, ↓State.bump_outside, ↓State.logFault_outside, ↓State.yardHit_outside, ↓State.setFlag_outside] | split | dsimp only | (with_reducible apply outside_foldl'; intro _ _) | (with_reducible apply outside_foldl_fst; intro _ _) | (with_reducible apply outside_iter; intro _))

@[simp ↓] theorem State.faultEv_outside (s : State) (pg code info ev : Nat) : (State.faultEv s pg code info ev).outside = s.outside := by
  unfold State.faultEv
  repeat' (first | simp only [↓outside_fst_ite, ↓outside_mk, ↓outside_fold, ↓outside_ite, ite_self, implies_true, ↓State.fault_outside, ↓State.event_outside] | split | dsimp only | (with_reducible apply outside_foldl'; intro _ _) | (with_reducible apply outside_foldl_fst; intro _ _) | (with_reducible apply outside_iter; intro _))

@[simp ↓] theorem State.regWaits_outside (s : State) (dt : Nat) : (State.regWaits s dt).outside = s.outside := by
  unfold State.regWaits
  repeat' (first | simp only [↓outside_fst_ite, ↓outside_mk, ↓outside_fold, ↓outside_ite, ite_self, implies_true, ↓State.bump_outside] | split | dsimp only | (with_reducible apply outside_foldl'; intro _ _) | (with_reducible apply outside_foldl_fst; intro _ _) | (with_reducible apply outside_iter; intro _))

@[simp ↓] theorem State.regHeldNow_outside (s : State) : (State.regHeldNow s).outside = s.outside := by
  unfold State.regHeldNow
  repeat' (first | simp only [↓outside_fst_ite, ↓outside_mk, ↓outside_fold, ↓outside_ite, ite_self, implies_true] | split | dsimp only | (with_reducible apply outside_foldl'; intro _ _) | (with_reducible apply outside_foldl_fst; intro _ _) | (with_reducible apply outside_iter; intro _))

@[simp ↓] theorem State.limitTime_outside (s : State) (dt : Nat) : (State.limitTime s dt).outside = s.outside := by
  unfold State.limitTime
  repeat' (first | simp only [↓outside_fst_ite, ↓outside_mk, ↓outside_fold, ↓outside_ite, ite_self, implies_true, ↓State.bump_outside] | split | dsimp only | (with_reducible apply outside_foldl'; intro _ _) | (with_reducible apply outside_foldl_fst; intro _ _) | (with_reducible apply outside_iter; intro _))

@[simp ↓] theorem State.clocks_outside (s : State) (dt : Nat) : (State.clocks s dt).outside = s.outside := by
  unfold State.clocks
  repeat' (first | simp only [↓outside_fst_ite, ↓outside_mk, ↓outside_fold, ↓outside_ite, ite_self, implies_true, ↓State.setReg_outside] | split | dsimp only | (with_reducible apply outside_foldl'; intro _ _) | (with_reducible apply outside_foldl_fst; intro _ _) | (with_reducible apply outside_iter; intro _))

@[simp ↓] theorem State.tick_outside (s : State) (dt : Nat) : (State.tick s dt).outside = s.outside := by
  unfold State.tick
  repeat' (first | simp only [↓outside_fst_ite, ↓outside_mk, ↓outside_fold, ↓outside_ite, ite_self, implies_true, ↓State.regWaits_outside, ↓State.limitTime_outside, ↓State.clocks_outside, ↓State.regHeldNow_outside] | split | dsimp only | (with_reducible apply outside_foldl'; intro _ _) | (with_reducible apply outside_foldl_fst; intro _ _) | (with_reducible apply outside_iter; intro _))

@[simp ↓] theorem State.setStage_outside (s : State) (n : Nat) : (State.setStage s n).outside = s.outside := by
  unfold State.setStage
  repeat' (first | simp only [↓outside_fst_ite, ↓outside_mk, ↓outside_fold, ↓outside_ite, ite_self, implies_true, ↓State.setFld_outside, ↓State.event_outside] | split | dsimp only | (with_reducible apply outside_foldl'; intro _ _) | (with_reducible apply outside_foldl_fst; intro _ _) | (with_reducible apply outside_iter; intro _))

@[simp ↓] theorem State.setUnit_outside (s : State) (y u : Nat) (x : UnitState) : (State.setUnit s y u x).outside = s.outside := by
  unfold State.setUnit
  repeat' (first | simp only [↓outside_fst_ite, ↓outside_mk, ↓outside_fold, ↓outside_ite, ite_self, implies_true] | split | dsimp only | (with_reducible apply outside_foldl'; intro _ _) | (with_reducible apply outside_foldl_fst; intro _ _) | (with_reducible apply outside_iter; intro _))

@[simp ↓] theorem State.setSwitch_outside (s : State) (y : Nat) (x : SwitchState) : (State.setSwitch s y x).outside = s.outside := by
  unfold State.setSwitch
  repeat' (first | simp only [↓outside_fst_ite, ↓outside_mk, ↓outside_fold, ↓outside_ite, ite_self, implies_true] | split | dsimp only | (with_reducible apply outside_foldl'; intro _ _) | (with_reducible apply outside_foldl_fst; intro _ _) | (with_reducible apply outside_iter; intro _))

@[simp ↓] theorem State.scrambleSram_outside (s : State) : (State.scrambleSram s).outside = s.outside := by
  unfold State.scrambleSram
  repeat' (first | simp only [↓outside_fst_ite, ↓outside_mk, ↓outside_fold, ↓outside_ite, ite_self, implies_true, ↓State.fresh_outside] | split | dsimp only | (with_reducible apply outside_foldl'; intro _ _) | (with_reducible apply outside_foldl_fst; intro _ _) | (with_reducible apply outside_iter; intro _) | refine (State.fresh_pair (by assumption)).trans ?_)

@[simp ↓] theorem State.scrambleYard_outside (s : State) (y : Nat) : (State.scrambleYard s y).outside = s.outside := by
  unfold State.scrambleYard
  repeat' (first | simp only [↓outside_fst_ite, ↓outside_mk, ↓outside_fold, ↓outside_ite, ite_self, implies_true, ↓State.fresh_outside] | split | dsimp only | (with_reducible apply outside_foldl'; intro _ _) | (with_reducible apply outside_foldl_fst; intro _ _) | (with_reducible apply outside_iter; intro _) | refine (State.fresh_pair (by assumption)).trans ?_)

@[simp ↓] theorem State.progress_outside (s : State) (p : Nat) : (State.progress s p).outside = s.outside := by
  unfold State.progress
  repeat' (first | simp only [↓outside_fst_ite, ↓outside_mk, ↓outside_fold, ↓outside_ite, ite_self, implies_true] | split | dsimp only | (with_reducible apply outside_foldl'; intro _ _) | (with_reducible apply outside_foldl_fst; intro _ _) | (with_reducible apply outside_iter; intro _))

@[simp ↓] theorem State.progressY_outside (s : State) (y : Nat) : (State.progressY s y).outside = s.outside := by
  unfold State.progressY
  repeat' (first | simp only [↓outside_fst_ite, ↓outside_mk, ↓outside_fold, ↓outside_ite, ite_self, implies_true, ↓State.progress_outside] | split | dsimp only | (with_reducible apply outside_foldl'; intro _ _) | (with_reducible apply outside_foldl_fst; intro _ _) | (with_reducible apply outside_iter; intro _))

end Sys2Proof.Machine
end

