-- ==== Sys2Proof/Laws/KeepOperands.lean ====
section
/-! SUPPORT. Machine/Operands.lean: what its operations leave alone. -/
set_option linter.unusedSimpArgs false
namespace Sys2Proof.Machine

@[simp ↓] theorem State.dropped_outside (s : State) (acc : Acc) : (State.dropped s acc).outside = s.outside := by
  unfold State.dropped
  repeat' (first | simp only [↓outside_fst_ite, ↓outside_mk, ↓outside_fold, ↓outside_ite, ite_self, implies_true, ↓State.bump_outside] | split | dsimp only | (with_reducible apply outside_foldl'; intro _ _) | (with_reducible apply outside_foldl_fst; intro _ _) | (with_reducible apply outside_iter; intro _))

@[simp ↓] theorem State.badAccess_outside (s : State) (acc : Acc) : (State.badAccess s acc).outside = s.outside := by
  unfold State.badAccess
  repeat' (first | simp only [↓outside_fst_ite, ↓outside_mk, ↓outside_fold, ↓outside_ite, ite_self, implies_true, ↓State.dropped_outside, ↓State.event_outside] | split | dsimp only | (with_reducible apply outside_foldl'; intro _ _) | (with_reducible apply outside_foldl_fst; intro _ _) | (with_reducible apply outside_iter; intro _))

@[simp ↓] theorem State.pageLocked_outside (s : State) (acc : Acc) (a : Nat) : (State.pageLocked s acc a).outside = s.outside := by
  unfold State.pageLocked
  repeat' (first | simp only [↓outside_fst_ite, ↓outside_mk, ↓outside_fold, ↓outside_ite, ite_self, implies_true, ↓State.dropped_outside, ↓State.fault_outside, ↓State.event_outside] | split | dsimp only | (with_reducible apply outside_foldl'; intro _ _) | (with_reducible apply outside_foldl_fst; intro _ _) | (with_reducible apply outside_iter; intro _))

@[simp ↓] theorem State.tieSettled_outside (s : State) (acc : Acc) (a : Nat) : (State.tieSettled s acc a).outside = s.outside := by
  unfold State.tieSettled
  repeat' (first | simp only [↓outside_fst_ite, ↓outside_mk, ↓outside_fold, ↓outside_ite, ite_self, implies_true] | split | dsimp only | (with_reducible apply outside_foldl'; intro _ _) | (with_reducible apply outside_foldl_fst; intro _ _) | (with_reducible apply outside_iter; intro _))

theorem State.inTurn_keeps (s : State) (acc : Acc) (a : Nat) (f : State → State) {ro : Outside}
    (h : ∀ t, Keeps ro t.outside → Keeps ro (f t ).outside) (h0 : Keeps ro s.outside) : Keeps ro (State.inTurn s acc a f).outside := by
  unfold State.inTurn
  repeat' (first | with_reducible assumption | simp only [↓outside_fst_ite, ↓outside_mk, ↓outside_fold, ↓outside_ite, ite_self, implies_true, ↓State.tieSettled_outside] | split | dsimp only | apply h)

theorem State.inTurn_outside (s : State) (acc : Acc) (a : Nat) (f : State → State) {ro : Outside}
    (h : ∀ t, (f t ).outside = t.outside) (h0 : s.outside = ro) : (State.inTurn s acc a f).outside = ro := by
  unfold State.inTurn
  repeat' (first | exact h0 | simp only [↓outside_fst_ite, ↓outside_mk, ↓outside_fold, ↓outside_ite, ite_self, implies_true, ↓State.tieSettled_outside] | split | dsimp only | refine (h ..).trans ?_)

theorem State.hostWrite_keeps (s0 : State) (acc : Acc) (a : Nat) (f : State → State) {ro : Outside}
    (h : ∀ t, Keeps ro t.outside → Keeps ro (f t ).outside) (h0 : Keeps ro s0.outside) : Keeps ro (State.hostWrite s0 acc a f).outside := by
  unfold State.hostWrite
  repeat' (first | with_reducible assumption | simp only [↓outside_fst_ite, ↓outside_mk, ↓outside_fold, ↓outside_ite, ite_self, implies_true, ↓State.dropped_outside, ↓State.badAccess_outside, ↓State.pageLocked_outside] | split | dsimp only | apply h | (with_reducible apply State.inTurn_keeps; intro _ _))

theorem State.hostWrite_outside (s0 : State) (acc : Acc) (a : Nat) (f : State → State) {ro : Outside}
    (h : ∀ t, (f t ).outside = t.outside) (h0 : s0.outside = ro) : (State.hostWrite s0 acc a f).outside = ro := by
  unfold State.hostWrite
  repeat' (first | exact h0 | simp only [↓outside_fst_ite, ↓outside_mk, ↓outside_fold, ↓outside_ite, ite_self, implies_true, ↓State.dropped_outside, ↓State.badAccess_outside, ↓State.pageLocked_outside] | split | dsimp only | refine (h ..).trans ?_ | (with_reducible apply State.inTurn_outside; intro _))

@[simp ↓] theorem State.readAbort_outside (s : State) (acc : Acc) : (State.readAbort s acc).outside = s.outside := by
  unfold State.readAbort
  repeat' (first | simp only [↓outside_fst_ite, ↓outside_mk, ↓outside_fold, ↓outside_ite, ite_self, implies_true, ↓State.bump_outside, ↓State.event_outside, ↓State.emit_outside] | split | dsimp only | (with_reducible apply outside_foldl'; intro _ _) | (with_reducible apply outside_foldl_fst; intro _ _) | (with_reducible apply outside_iter; intro _))

@[simp ↓] theorem State.storeReg_outside (s : State) (a w m : Nat) : (State.storeReg s a w m).outside = s.outside := by
  unfold State.storeReg
  repeat' (first | simp only [↓outside_fst_ite, ↓outside_mk, ↓outside_fold, ↓outside_ite, ite_self, implies_true, ↓State.setReg_outside] | split | dsimp only | (with_reducible apply outside_foldl'; intro _ _) | (with_reducible apply outside_foldl_fst; intro _ _) | (with_reducible apply outside_iter; intro _))

end Sys2Proof.Machine
end

