-- ==== Sys2Proof/Laws/KeepNet.lean ====
section
/-! SUPPORT. Machine/Net.lean: what its operations leave alone. -/
set_option linter.unusedSimpArgs false
namespace Sys2Proof.Machine

@[simp ↓] theorem State.setInQueue_outside (s : State) (y p l : Nat) (q : List Token) : (State.setInQueue s y p l q).outside = s.outside := by
  unfold State.setInQueue
  repeat' (first | simp only [↓outside_fst_ite, ↓outside_mk, ↓outside_fold, ↓outside_ite, ite_self, implies_true, ↓State.setSwitch_outside] | split | dsimp only | (with_reducible apply outside_foldl'; intro _ _) | (with_reducible apply outside_foldl_fst; intro _ _) | (with_reducible apply outside_iter; intro _))

@[simp ↓] theorem State.takeOffer_outside (s : State) (y p l : Nat) : (State.takeOffer s y p l).outside = s.outside := by
  unfold State.takeOffer
  repeat' (first | simp only [↓outside_fst_ite, ↓outside_mk, ↓outside_fold, ↓outside_ite, ite_self, implies_true, ↓State.setSwitch_outside] | split | dsimp only | (with_reducible apply outside_foldl'; intro _ _) | (with_reducible apply outside_foldl_fst; intro _ _) | (with_reducible apply outside_iter; intro _))

@[simp ↓] theorem State.setOffer_outside (s : State) (y p l : Nat) (t : Token) : (State.setOffer s y p l t).outside = s.outside := by
  unfold State.setOffer
  repeat' (first | simp only [↓outside_fst_ite, ↓outside_mk, ↓outside_fold, ↓outside_ite, ite_self, implies_true, ↓State.setSwitch_outside] | split | dsimp only | (with_reducible apply outside_foldl'; intro _ _) | (with_reducible apply outside_foldl_fst; intro _ _) | (with_reducible apply outside_iter; intro _))

@[simp ↓] theorem State.setLink_outside (s : State) (y e : Nat) (l : HalLink) : (State.setLink s y e l).outside = s.outside := by
  unfold State.setLink
  repeat' (first | simp only [↓outside_fst_ite, ↓outside_mk, ↓outside_fold, ↓outside_ite, ite_self, implies_true] | split | dsimp only | (with_reducible apply outside_foldl'; intro _ _) | (with_reducible apply outside_foldl_fst; intro _ _) | (with_reducible apply outside_iter; intro _))

@[simp ↓] theorem State.onWire_outside (s : State) (y e : Nat) (r : Rail) (c : BitVec 96) : (State.onWire s y e r c).outside = s.outside := by
  unfold State.onWire
  repeat' (first | simp only [↓outside_fst_ite, ↓outside_mk, ↓outside_fold, ↓outside_ite, ite_self, implies_true, ↓State.setLink_outside] | split | dsimp only | (with_reducible apply outside_foldl'; intro _ _) | (with_reducible apply outside_foldl_fst; intro _ _) | (with_reducible apply outside_iter; intro _))

@[simp ↓] theorem State.gainRails_outside (s t : State) (y e : Nat) : (State.gainRails s t y e).outside = t.outside := by
  unfold State.gainRails
  repeat' (first | simp only [↓outside_fst_ite, ↓outside_mk, ↓outside_fold, ↓outside_ite, ite_self, implies_true, ↓State.setLink_outside] | split | dsimp only | (with_reducible apply outside_foldl'; intro _ _) | (with_reducible apply outside_foldl_fst; intro _ _) | (with_reducible apply outside_iter; intro _))

@[simp ↓] theorem State.putOut_outside (s : State) (y p o l : Nat) (t : Token) : (State.putOut s y p o l t).outside = s.outside := by
  unfold State.putOut
  repeat' (first | simp only [↓outside_fst_ite, ↓outside_mk, ↓outside_fold, ↓outside_ite, ite_self, implies_true, ↓State.setOffer_outside, ↓State.onWire_outside, ↓State.setInQueue_outside] | split | dsimp only | (with_reducible apply outside_foldl'; intro _ _) | (with_reducible apply outside_foldl_fst; intro _ _) | (with_reducible apply outside_iter; intro _))

@[simp ↓] theorem State.stray_outside (s : State) (y : Nat) : (State.stray s y).outside = s.outside := by
  unfold State.stray
  repeat' (first | simp only [↓outside_fst_ite, ↓outside_mk, ↓outside_fold, ↓outside_ite, ite_self, implies_true, ↓State.bump_outside, ↓State.event_outside] | split | dsimp only | (with_reducible apply outside_foldl'; intro _ _) | (with_reducible apply outside_foldl_fst; intro _ _) | (with_reducible apply outside_iter; intro _))

@[simp ↓] theorem State.jobEvent_outside (s : State) (p j i : Nat) : (State.jobEvent s p j i).outside = s.outside := by
  unfold State.jobEvent
  repeat' (first | simp only [↓outside_fst_ite, ↓outside_mk, ↓outside_fold, ↓outside_ite, ite_self, implies_true, ↓State.setFlag_outside, ↓State.event_outside] | split | dsimp only | (with_reducible apply outside_foldl'; intro _ _) | (with_reducible apply outside_foldl_fst; intro _ _) | (with_reducible apply outside_iter; intro _))

@[simp ↓] theorem State.partFault_outside (s : State) (p code info : Nat) : (State.partFault s p code info).outside = s.outside := by
  unfold State.partFault
  repeat' (first | simp only [↓outside_fst_ite, ↓outside_mk, ↓outside_fold, ↓outside_ite, ite_self, implies_true, ↓State.fault_outside, ↓State.event_outside] | split | dsimp only | (with_reducible apply outside_foldl'; intro _ _) | (with_reducible apply outside_foldl_fst; intro _ _) | (with_reducible apply outside_iter; intro _))

end Sys2Proof.Machine
end

