-- ==== Sys2Proof/Laws/KeepLinkOps.lean ====
section
/-! SUPPORT. Machine/LinkOps.lean: what its operations leave alone. -/
set_option linter.unusedSimpArgs false
namespace Sys2Proof.Machine

@[simp ↓] theorem State.setBucket_outside (s : State) (kind p i : Nat) (b : Bucket) : (State.setBucket s kind p i b).outside = s.outside := by
  unfold State.setBucket
  repeat' (first | simp only [↓outside_fst_ite, ↓outside_mk, ↓outside_fold, ↓outside_ite, ite_self, implies_true] | split | dsimp only | (with_reducible apply outside_foldl'; intro _ _) | (with_reducible apply outside_foldl_fst; intro _ _) | (with_reducible apply outside_iter; intro _))

@[simp ↓] theorem State.beginHold_outside (s : State) (kind p i job : Nat) : (State.beginHold s kind p i job).outside = s.outside := by
  unfold State.beginHold
  repeat' (first | simp only [↓outside_fst_ite, ↓outside_mk, ↓outside_fold, ↓outside_ite, ite_self, implies_true, ↓State.partFault_outside, ↓State.event_outside] | split | dsimp only | (with_reducible apply outside_foldl'; intro _ _) | (with_reducible apply outside_foldl_fst; intro _ _) | (with_reducible apply outside_iter; intro _))

@[simp ↓] theorem State.letIn_outside (s : State) (kind p i job cls bytes : Nat) (h : Held) : (State.letIn s kind p i job cls bytes h).2.outside = s.outside := by
  unfold State.letIn
  repeat' (first | simp only [↓outside_fst_ite, ↓outside_mk, ↓outside_fold, ↓outside_ite, ite_self, implies_true, ↓State.beginHold_outside, ↓State.setBucket_outside] | split | dsimp only | rfl | (with_reducible apply outside_foldl'; intro _ _) | (with_reducible apply outside_foldl_fst; intro _ _))

theorem State.letIn_pair {s : State} {kind p i job cls bytes : Nat} {h : Held} {b1 : Bool} {t1 : State} (e : State.letIn s kind p i job cls bytes h = (b1, t1)) : t1.outside = s.outside := by
  have k := State.letIn_outside s kind p i job cls bytes h
  rw [e] at k; exact k

@[simp ↓] theorem State.setPort_outside (s : State) (q : Nat) (x : PortState) : (State.setPort s q x).outside = s.outside := by
  unfold State.setPort
  repeat' (first | simp only [↓outside_fst_ite, ↓outside_mk, ↓outside_fold, ↓outside_ite, ite_self, implies_true] | split | dsimp only | (with_reducible apply outside_foldl'; intro _ _) | (with_reducible apply outside_foldl_fst; intro _ _) | (with_reducible apply outside_iter; intro _))

@[simp ↓] theorem State.stDrop_outside (s : State) (q : Nat) : (State.stDrop s q).outside = s.outside := by
  unfold State.stDrop
  repeat' (first | simp only [↓outside_fst_ite, ↓outside_mk, ↓outside_fold, ↓outside_ite, ite_self, implies_true, ↓State.bump_outside, ↓State.event_outside] | split | dsimp only | (with_reducible apply outside_foldl'; intro _ _) | (with_reducible apply outside_foldl_fst; intro _ _) | (with_reducible apply outside_iter; intro _))

@[simp ↓] theorem State.freeSlot_outside (s : State) (q vc : Nat) : (State.freeSlot s q vc).outside = s.outside := by
  unfold State.freeSlot
  repeat' (first | simp only [↓outside_fst_ite, ↓outside_mk, ↓outside_fold, ↓outside_ite, ite_self, implies_true, ↓State.emit_outside, ↓State.setPort_outside] | split | dsimp only | (with_reducible apply outside_foldl'; intro _ _) | (with_reducible apply outside_foldl_fst; intro _ _) | (with_reducible apply outside_iter; intro _))

@[simp ↓] theorem State.tookSlot_outside (s : State) (q vc : Nat) : (State.tookSlot s q vc).outside = s.outside := by
  unfold State.tookSlot
  repeat' (first | simp only [↓outside_fst_ite, ↓outside_mk, ↓outside_fold, ↓outside_ite, ite_self, implies_true, ↓State.setPort_outside, ↓State.emit_outside] | split | dsimp only | (with_reducible apply outside_foldl'; intro _ _) | (with_reducible apply outside_foldl_fst; intro _ _) | (with_reducible apply outside_iter; intro _))

@[simp ↓] theorem State.holdFrame_outside (s : State) (q : Nat) (f : Frame) : (State.holdFrame s q f).outside = s.outside := by
  unfold State.holdFrame
  repeat' (first | simp only [↓outside_fst_ite, ↓outside_mk, ↓outside_fold, ↓outside_ite, ite_self, implies_true, ↓State.tookSlot_outside] | split | dsimp only | (with_reducible apply outside_foldl'; intro _ _) | (with_reducible apply outside_foldl_fst; intro _ _) | (with_reducible apply outside_iter; intro _))

@[simp ↓] theorem State.dropHeld_outside (s : State) (g : Frame → Bool) : (s.dropHeld g).outside = s.outside := by
  unfold State.dropHeld
  apply outside_foldl'
  · intro t e; simp only [↓State.freeSlot_outside]
  · rfl

@[simp ↓] theorem State.emitFrame_outside (s : State) (q vc : Nat) (f : Frame) : (State.emitFrame s q vc f).outside = s.outside := by
  unfold State.emitFrame
  repeat' (first | simp only [↓outside_fst_ite, ↓outside_mk, ↓outside_fold, ↓outside_ite, ite_self, implies_true, ↓State.fresh_outside, ↓State.emit_outside] | split | dsimp only | (with_reducible apply outside_foldl'; intro _ _) | (with_reducible apply outside_foldl_fst; intro _ _) | (with_reducible apply outside_iter; intro _) | refine (State.fresh_pair (by assumption)).trans ?_)

@[simp ↓] theorem State.sendLink_outside (s : State) (q vc dev : Nat) (nak : Bool) : (State.sendLink s q vc dev nak).outside = s.outside := by
  unfold State.sendLink
  repeat' (first | simp only [↓outside_fst_ite, ↓outside_mk, ↓outside_fold, ↓outside_ite, ite_self, implies_true, ↓State.setPort_outside, ↓State.bump_outside, ↓State.emitFrame_outside] | split | dsimp only | (with_reducible apply outside_foldl'; intro _ _) | (with_reducible apply outside_foldl_fst; intro _ _) | (with_reducible apply outside_iter; intro _))

@[simp ↓] theorem State.putFrame_outside (s : State) (q : Nat) (f : TxFrame) (seq : Nat) : (State.putFrame s q f seq).outside = s.outside := by
  unfold State.putFrame
  repeat' (first | simp only [↓outside_fst_ite, ↓outside_mk, ↓outside_fold, ↓outside_ite, ite_self, implies_true, ↓State.setFld_outside, ↓State.setPort_outside, ↓State.bump_outside, ↓State.emitFrame_outside] | split | dsimp only | (with_reducible apply outside_foldl'; intro _ _) | (with_reducible apply outside_foldl_fst; intro _ _) | (with_reducible apply outside_iter; intro _))

@[simp ↓] theorem State.resend_outside (s : State) (q : Nat) (e : Sent) : (State.resend s q e).outside = s.outside := by
  unfold State.resend
  repeat' (first | simp only [↓outside_fst_ite, ↓outside_mk, ↓outside_fold, ↓outside_ite, ite_self, implies_true, ↓State.setPort_outside, ↓State.bump_outside, ↓State.putFrame_outside] | split | dsimp only | (with_reducible apply outside_foldl'; intro _ _) | (with_reducible apply outside_foldl_fst; intro _ _) | (with_reducible apply outside_iter; intro _))

@[simp ↓] theorem State.sendHead_outside (s : State) (q vc : Nat) : (State.sendHead s q vc).outside = s.outside := by
  unfold State.sendHead
  repeat' (first | simp only [↓outside_fst_ite, ↓outside_mk, ↓outside_fold, ↓outside_ite, ite_self, implies_true, ↓State.resend_outside, ↓State.setPort_outside, ↓State.putFrame_outside] | split | dsimp only | (with_reducible apply outside_foldl'; intro _ _) | (with_reducible apply outside_foldl_fst; intro _ _) | (with_reducible apply outside_iter; intro _))

@[simp ↓] theorem State.pumpPort_outside (s : State) (q n : Nat) : (s.pumpPort q n).outside = s.outside := by
  induction n generalizing s with
  | zero => rfl
  | succ n ih =>
    unfold State.pumpPort
    split
    · rfl
    · rw [ih]; simp only [↓State.sendHead_outside]

@[simp ↓] theorem State.pump_outside (s : State) (q : Nat) : (State.pump s q).outside = s.outside := by
  unfold State.pump
  repeat' (first | simp only [↓outside_fst_ite, ↓outside_mk, ↓outside_fold, ↓outside_ite, ite_self, implies_true, ↓State.pumpPort_outside] | split | dsimp only | (with_reducible apply outside_foldl'; intro _ _) | (with_reducible apply outside_foldl_fst; intro _ _) | (with_reducible apply outside_iter; intro _))

@[simp ↓] theorem State.pushFrame_outside (s : State) (q : Nat) (f : TxFrame) : (State.pushFrame s q f).outside = s.outside := by
  unfold State.pushFrame
  repeat' (first | simp only [↓outside_fst_ite, ↓outside_mk, ↓outside_fold, ↓outside_ite, ite_self, implies_true, ↓State.setPort_outside, ↓State.pump_outside] | split | dsimp only | (with_reducible apply outside_foldl'; intro _ _) | (with_reducible apply outside_foldl_fst; intro _ _) | (with_reducible apply outside_iter; intro _))

@[simp ↓] theorem State.enqueue_outside (s : State) (q : Nat) (f : TxFrame) : (State.enqueue s q f).outside = s.outside := by
  unfold State.enqueue
  repeat' (first | simp only [↓outside_fst_ite, ↓outside_mk, ↓outside_fold, ↓outside_ite, ite_self, implies_true, ↓State.pushFrame_outside, ↓State.letIn_outside] | split | dsimp only | (with_reducible apply outside_foldl'; intro _ _) | (with_reducible apply outside_foldl_fst; intro _ _) | (with_reducible apply outside_iter; intro _) | refine (State.letIn_pair (by assumption)).trans ?_)

@[simp ↓] theorem State.moveFrames_outside (s : State) (q : Nat) : (State.moveFrames s q).outside = s.outside := by
  unfold State.moveFrames
  repeat' (first | simp only [↓outside_fst_ite, ↓outside_mk, ↓outside_fold, ↓outside_ite, ite_self, implies_true, ↓State.pushFrame_outside, ↓State.setPort_outside] | split | dsimp only | (with_reducible apply outside_foldl'; intro _ _) | (with_reducible apply outside_foldl_fst; intro _ _) | (with_reducible apply outside_iter; intro _))

@[simp ↓] theorem State.burstAt_outside (s : State) (k q job : Nat) (last : Bool) : (State.burstAt s k q job last).outside = s.outside := by
  unfold State.burstAt
  repeat' (first | simp only [↓outside_fst_ite, ↓outside_mk, ↓outside_fold, ↓outside_ite, ite_self, implies_true, ↓State.moveFrames_outside] | split | dsimp only | (with_reducible apply outside_foldl'; intro _ _) | (with_reducible apply outside_foldl_fst; intro _ _) | (with_reducible apply outside_iter; intro _))

@[simp ↓] theorem State.sendPeer_outside (s : State) (i : Nat) (f : TxFrame) (chan : Option Nat) (dir : Bool) : (State.sendPeer s i f chan dir).outside = s.outside := by
  unfold State.sendPeer
  repeat' (first | simp only [↓outside_fst_ite, ↓outside_mk, ↓outside_fold, ↓outside_ite, ite_self, implies_true, ↓State.stDrop_outside, ↓State.enqueue_outside, ↓State.burstAt_outside] | split | dsimp only | (with_reducible apply outside_foldl'; intro _ _) | (with_reducible apply outside_foldl_fst; intro _ _) | (with_reducible apply outside_iter; intro _))

@[simp ↓] theorem State.sendCtrl_outside (s : State) (i : Nat) (f : TxFrame) : (State.sendCtrl s i f).outside = s.outside := by
  unfold State.sendCtrl
  repeat' (first | simp only [↓outside_fst_ite, ↓outside_mk, ↓outside_fold, ↓outside_ite, ite_self, implies_true, ↓State.sendPeer_outside] | split | dsimp only | (with_reducible apply outside_foldl'; intro _ _) | (with_reducible apply outside_foldl_fst; intro _ _) | (with_reducible apply outside_iter; intro _))

@[simp ↓] theorem State.sendPhase_outside (s : State) (type g i job target epoch : Nat) : (State.sendPhase s type g i job target epoch).outside = s.outside := by
  unfold State.sendPhase
  repeat' (first | simp only [↓outside_fst_ite, ↓outside_mk, ↓outside_fold, ↓outside_ite, ite_self, implies_true, ↓State.sendPeer_outside] | split | dsimp only | (with_reducible apply outside_foldl'; intro _ _) | (with_reducible apply outside_foldl_fst; intro _ _) | (with_reducible apply outside_iter; intro _))

end Sys2Proof.Machine
end

