-- ==== Sys2Proof/Laws/KeepMemOps.lean ====
section
/-! SUPPORT. Machine/MemOps.lean: what its operations leave alone. -/
set_option linter.unusedSimpArgs false
namespace Sys2Proof.Machine

@[simp ↓] theorem State.setSlice_outside (s : State) (h : Nat) (x : SliceState) : (State.setSlice s h x).outside = s.outside := by
  unfold State.setSlice
  repeat' (first | simp only [↓outside_fst_ite, ↓outside_mk, ↓outside_fold, ↓outside_ite, ite_self, implies_true] | split | dsimp only | (with_reducible apply outside_foldl'; intro _ _) | (with_reducible apply outside_foldl_fst; intro _ _) | (with_reducible apply outside_iter; intro _))

@[simp ↓] theorem State.setChan_outside (s : State) (c : Nat) (x : ChanState) : (State.setChan s c x).outside = s.outside := by
  unfold State.setChan
  repeat' (first | simp only [↓outside_fst_ite, ↓outside_mk, ↓outside_fold, ↓outside_ite, ite_self, implies_true] | split | dsimp only | (with_reducible apply outside_foldl'; intro _ _) | (with_reducible apply outside_foldl_fst; intro _ _) | (with_reducible apply outside_iter; intro _))

@[simp ↓] theorem State.toSlice_outside (s : State) (r : MemReq) : (State.toSlice s r).outside = s.outside := by
  unfold State.toSlice
  repeat' (first | simp only [↓outside_fst_ite, ↓outside_mk, ↓outside_fold, ↓outside_ite, ite_self, implies_true, ↓State.setSlice_outside] | split | dsimp only | (with_reducible apply outside_foldl'; intro _ _) | (with_reducible apply outside_foldl_fst; intro _ _) | (with_reducible apply outside_iter; intro _))

@[simp ↓] theorem State.post_outside (s : State) (w : HbmUser) (write : Bool) (rs : List (Nat × Nat)) : (State.post s w write rs).outside = s.outside := by
  unfold State.post
  repeat' (first | simp only [↓outside_fst_ite, ↓outside_mk, ↓outside_fold, ↓outside_ite, ite_self, implies_true, ↓State.toSlice_outside] | split | dsimp only | (with_reducible apply outside_foldl'; intro _ _) | (with_reducible apply outside_foldl_fst; intro _ _) | (with_reducible apply outside_iter; intro _))

@[simp ↓] theorem State.ask_outside (s : State) (key : Nat) (w : HbmUser) (rs : List (Nat × Nat)) : (State.ask s key w rs).outside = s.outside := by
  unfold State.ask
  repeat' (first | simp only [↓outside_fst_ite, ↓outside_mk, ↓outside_fold, ↓outside_ite, ite_self, implies_true, ↓State.fresh_outside, ↓State.toSlice_outside] | split | dsimp only | (with_reducible apply outside_foldl'; intro _ _) | (with_reducible apply outside_foldl_fst; intro _ _) | (with_reducible apply outside_iter; intro _) | refine (State.fresh_pair (by assumption)).trans ?_)

@[simp ↓] theorem State.dropAsk_outside (s : State) (key : Nat) : (State.dropAsk s key).outside = s.outside := by
  unfold State.dropAsk
  repeat' (first | simp only [↓outside_fst_ite, ↓outside_mk, ↓outside_fold, ↓outside_ite, ite_self, implies_true] | split | dsimp only | (with_reducible apply outside_foldl'; intro _ _) | (with_reducible apply outside_foldl_fst; intro _ _) | (with_reducible apply outside_iter; intro _))

@[simp ↓] theorem State.readNow_outside (s : State) (key : Nat) (w : HbmUser) (rs : List (Nat × Nat)) : (State.readNow s key w rs).2.outside = s.outside := by
  unfold State.readNow
  repeat' (first | simp only [↓outside_fst_ite, ↓outside_mk, ↓outside_fold, ↓outside_ite, ite_self, implies_true, ↓State.ask_outside, ↓State.dropAsk_outside] | split | dsimp only | rfl | (with_reducible apply outside_foldl'; intro _ _) | (with_reducible apply outside_foldl_fst; intro _ _))

theorem State.readNow_pair {s : State} {key : Nat} {w : HbmUser} {rs : List (Nat × Nat)} {b1 : Bool} {t1 : State} (e : State.readNow s key w rs = (b1, t1)) : t1.outside = s.outside := by
  have k := State.readNow_outside s key w rs
  rw [e] at k; exact k

@[simp ↓] theorem State.barDone_outside (s : State) (key : Nat) : (State.barDone s key).outside = s.outside := by
  unfold State.barDone
  repeat' (first | simp only [↓outside_fst_ite, ↓outside_mk, ↓outside_fold, ↓outside_ite, ite_self, implies_true, ↓State.dropAsk_outside, ↓State.emit_outside] | split | dsimp only | (with_reducible apply outside_foldl'; intro _ _) | (with_reducible apply outside_foldl_fst; intro _ _) | (with_reducible apply outside_iter; intro _))

@[simp ↓] theorem State.hbmRead_outside (s : State) (w : HbmUser) (a len : Nat) : (State.hbmRead s w a len).2.outside = s.outside := by
  unfold State.hbmRead
  repeat' (first | simp only [↓outside_fst_ite, ↓outside_mk, ↓outside_fold, ↓outside_ite, ite_self, implies_true, ↓State.post_outside] | split | dsimp only | rfl | (with_reducible apply outside_foldl'; intro _ _) | (with_reducible apply outside_foldl_fst; intro _ _))

theorem State.hbmRead_pair {s : State} {w : HbmUser} {a len : Nat} {b1 : List Byte} {t1 : State} (e : State.hbmRead s w a len = (b1, t1)) : t1.outside = s.outside := by
  have k := State.hbmRead_outside s w a len
  rw [e] at k; exact k

@[simp ↓] theorem State.hbmWrite_outside (s : State) (w : HbmUser) (a : Nat) (bs : List Byte) : (State.hbmWrite s w a bs).outside = s.outside := by
  unfold State.hbmWrite
  repeat' (first | simp only [↓outside_fst_ite, ↓outside_mk, ↓outside_fold, ↓outside_ite, ite_self, implies_true, ↓State.post_outside] | split | dsimp only | (with_reducible apply outside_foldl'; intro _ _) | (with_reducible apply outside_foldl_fst; intro _ _) | (with_reducible apply outside_iter; intro _))

@[simp ↓] theorem State.readLine_outside (s : State) (l : Nat) : (State.readLine s l).outside = s.outside := by
  unfold State.readLine
  repeat' (first | simp only [↓outside_fst_ite, ↓outside_mk, ↓outside_fold, ↓outside_ite, ite_self, implies_true, ↓State.setSlice_outside, ↓State.bump_outside] | split | dsimp only | (with_reducible apply outside_foldl'; intro _ _) | (with_reducible apply outside_foldl_fst; intro _ _) | (with_reducible apply outside_iter; intro _))

@[simp ↓] theorem State.writeLine_outside (s : State) (l : Nat) : (State.writeLine s l).outside = s.outside := by
  unfold State.writeLine
  repeat' (first | simp only [↓outside_fst_ite, ↓outside_mk, ↓outside_fold, ↓outside_ite, ite_self, implies_true, ↓State.bump_outside] | split | dsimp only | (with_reducible apply outside_foldl'; intro _ _) | (with_reducible apply outside_foldl_fst; intro _ _) | (with_reducible apply outside_iter; intro _))

@[simp ↓] theorem State.dropLines_outside (s : State) (c : Nat) : (State.dropLines s c).outside = s.outside := by
  unfold State.dropLines
  repeat' (first | simp only [↓outside_fst_ite, ↓outside_mk, ↓outside_fold, ↓outside_ite, ite_self, implies_true, ↓State.setSlice_outside] | split | dsimp only | (with_reducible apply outside_foldl'; intro _ _) | (with_reducible apply outside_foldl_fst; intro _ _) | (with_reducible apply outside_iter; intro _))

end Sys2Proof.Machine
end

