-- ==== Sys2Proof/Laws/KeepYcOps.lean ====
section
/-! SUPPORT. Machine/YcOps.lean: what its operations leave alone. -/
set_option linter.unusedSimpArgs false
namespace Sys2Proof.Machine

@[simp ↓] theorem State.setCore_outside (s : State) (y : Nat) (x : YcCore) : (State.setCore s y x).outside = s.outside := by
  unfold State.setCore
  repeat' (first | simp only [↓outside_fst_ite, ↓outside_mk, ↓outside_fold, ↓outside_ite, ite_self, implies_true] | split | dsimp only | (with_reducible apply outside_foldl'; intro _ _) | (with_reducible apply outside_foldl_fst; intro _ _) | (with_reducible apply outside_iter; intro _))

@[simp ↓] theorem State.setCtx_outside (s : State) (y j : Nat) (c : YcCtx) : (State.setCtx s y j c).outside = s.outside := by
  unfold State.setCtx
  repeat' (first | simp only [↓outside_fst_ite, ↓outside_mk, ↓outside_fold, ↓outside_ite, ite_self, implies_true, ↓State.setCore_outside] | split | dsimp only | (with_reducible apply outside_foldl'; intro _ _) | (with_reducible apply outside_foldl_fst; intro _ _) | (with_reducible apply outside_iter; intro _))

@[simp ↓] theorem State.setLocal_outside (s : State) (y : Nat) (m : Mem) : (State.setLocal s y m).outside = s.outside := by
  unfold State.setLocal
  repeat' (first | simp only [↓outside_fst_ite, ↓outside_mk, ↓outside_fold, ↓outside_ite, ite_self, implies_true] | split | dsimp only | (with_reducible apply outside_foldl'; intro _ _) | (with_reducible apply outside_foldl_fst; intro _ _) | (with_reducible apply outside_iter; intro _))

@[simp ↓] theorem State.enqueueIn_outside (s : State) (y j : Nat) (t : InTok) : (State.enqueueIn s y j t).outside = s.outside := by
  unfold State.enqueueIn
  repeat' (first | simp only [↓outside_fst_ite, ↓outside_mk, ↓outside_fold, ↓outside_ite, ite_self, implies_true, ↓State.setCore_outside] | split | dsimp only | (with_reducible apply outside_foldl'; intro _ _) | (with_reducible apply outside_foldl_fst; intro _ _) | (with_reducible apply outside_iter; intro _))

@[simp ↓] theorem State.notifyCore_outside (s : State) (y j tag opc operand : Nat) : (State.notifyCore s y j tag opc operand).outside = s.outside := by
  unfold State.notifyCore
  repeat' (first | simp only [↓outside_fst_ite, ↓outside_mk, ↓outside_fold, ↓outside_ite, ite_self, implies_true, ↓State.enqueueIn_outside] | split | dsimp only | (with_reducible apply outside_foldl'; intro _ _) | (with_reducible apply outside_foldl_fst; intro _ _) | (with_reducible apply outside_iter; intro _))

@[simp ↓] theorem State.issueResult_outside (s : State) (r : StartRec) (code : Nat) : (State.issueResult s r code).outside = s.outside := by
  unfold State.issueResult
  repeat' (first | simp only [↓outside_fst_ite, ↓outside_mk, ↓outside_fold, ↓outside_ite, ite_self, implies_true, ↓State.notifyCore_outside] | split | dsimp only | (with_reducible apply outside_foldl'; intro _ _) | (with_reducible apply outside_foldl_fst; intro _ _) | (with_reducible apply outside_iter; intro _))

@[simp ↓] theorem State.xferBytes_outside (s : State) (y : Nat) (x : Xfer) (n : Nat) : (State.xferBytes s y x n).outside = s.outside := by
  unfold State.xferBytes
  repeat' (first | simp only [↓outside_fst_ite, ↓outside_mk, ↓outside_fold, ↓outside_ite, ite_self, implies_true, ↓State.setLocal_outside] | split | dsimp only | (with_reducible apply outside_foldl'; intro _ _) | (with_reducible apply outside_foldl_fst; intro _ _) | (with_reducible apply outside_iter; intro _))

@[simp ↓] theorem State.startXfer_outside (s : State) (y j : Nat) (x : Xfer) : (State.startXfer s y j x).2.outside = s.outside := by
  unfold State.startXfer
  repeat' (first | simp only [↓outside_fst_ite, ↓outside_mk, ↓outside_fold, ↓outside_ite, ite_self, implies_true, ↓State.fresh_outside, ↓State.toSlice_outside] | split | dsimp only | rfl | refine (State.fresh_pair (by assumption)).trans ?_ | (with_reducible apply outside_foldl'; intro _ _) | (with_reducible apply outside_foldl_fst; intro _ _))

theorem State.startXfer_pair {s : State} {y j : Nat} {x : Xfer} {b1 : Xfer} {t1 : State} (e : State.startXfer s y j x = (b1, t1)) : t1.outside = s.outside := by
  have k := State.startXfer_outside s y j x
  rw [e] at k; exact k

@[simp ↓] theorem State.startXfers_outside (s : State) (y j : Nat) (l : List Xfer) : (s.startXfers y j l).2.outside = s.outside := by
  induction l generalizing s with
  | nil => rfl
  | cons x l ih => unfold State.startXfers; dsimp only; rw [ih]; simp only [↓State.startXfer_outside]

theorem State.startXfers_pair {s : State} {y j : Nat} {l : List Xfer} {b : List Xfer} {t : State} (e : s.startXfers y j l = (b, t)) : t.outside = s.outside := by
  have k := State.startXfers_outside s y j l
  rw [e] at k; exact k

@[simp ↓] theorem State.stopXfers_outside (s : State) (y : Nat) (l : List Xfer) : (s.stopXfers y l).2.outside = s.outside := by
  induction l generalizing s with
  | nil => rfl
  | cons x l ih => unfold State.stopXfers; dsimp only; rw [ih]; simp only [↓State.dropAsk_outside, ↓State.xferBytes_outside, ↓State.fresh_outside]

theorem State.stopXfers_pair {s : State} {y : Nat} {l : List Xfer} {b : List Xfer} {t : State} (e : s.stopXfers y l = (b, t)) : t.outside = s.outside := by
  have k := State.stopXfers_outside s y l
  rw [e] at k; exact k

@[simp ↓] theorem State.saveCtx_outside (s : State) (y j : Nat) (c : YcCtx) (reason : Nat) : (State.saveCtx s y j c reason).2.outside = s.outside := by
  unfold State.saveCtx
  repeat' (first | simp only [↓outside_fst_ite, ↓outside_mk, ↓outside_fold, ↓outside_ite, ite_self, implies_true, ↓State.stopXfers_outside, ↓State.hbmWrite_outside, ↓State.bump_outside] | split | dsimp only | rfl | (with_reducible apply outside_foldl'; intro _ _) | (with_reducible apply outside_foldl_fst; intro _ _))

theorem State.saveCtx_pair {s : State} {y j : Nat} {c : YcCtx} {reason : Nat} {b1 : YcCtx} {t1 : State} (e : State.saveCtx s y j c reason = (b1, t1)) : t1.outside = s.outside := by
  have k := State.saveCtx_outside s y j c reason
  rw [e] at k; exact k

@[simp ↓] theorem State.loadCtx_outside (s : State) (y j : Nat) (c : YcCtx) : (State.loadCtx s y j c).2.outside = s.outside := by
  unfold State.loadCtx
  repeat' (first | simp only [↓outside_fst_ite, ↓outside_mk, ↓outside_fold, ↓outside_ite, ite_self, implies_true, ↓State.ask_outside, ↓State.startXfers_outside, ↓State.setLocal_outside] | split | dsimp only | rfl | (with_reducible apply outside_foldl'; intro _ _) | (with_reducible apply outside_foldl_fst; intro _ _))

theorem State.loadCtx_pair {s : State} {y j : Nat} {c : YcCtx} {b1 : YcCtx} {t1 : State} (e : State.loadCtx s y j c = (b1, t1)) : t1.outside = s.outside := by
  have k := State.loadCtx_outside s y j c
  rw [e] at k; exact k

@[simp ↓] theorem State.clearCur_outside (s : State) (y : Nat) : (State.clearCur s y).outside = s.outside := by
  unfold State.clearCur
  repeat' (first | simp only [↓outside_fst_ite, ↓outside_mk, ↓outside_fold, ↓outside_ite, ite_self, implies_true, ↓State.setCore_outside] | split | dsimp only | (with_reducible apply outside_foldl'; intro _ _) | (with_reducible apply outside_foldl_fst; intro _ _) | (with_reducible apply outside_iter; intro _))

@[simp ↓] theorem State.preempt_outside (s : State) (y j reason : Nat) (next : CtxSt) : (State.preempt s y j reason next).outside = s.outside := by
  unfold State.preempt
  repeat' (first | simp only [↓outside_fst_ite, ↓outside_mk, ↓outside_fold, ↓outside_ite, ite_self, implies_true, ↓State.saveCtx_outside, ↓State.setCtx_outside, ↓State.clearCur_outside] | split | dsimp only | (with_reducible apply outside_foldl'; intro _ _) | (with_reducible apply outside_foldl_fst; intro _ _) | (with_reducible apply outside_iter; intro _) | refine (State.saveCtx_pair (by assumption)).trans ?_)

@[simp ↓] theorem State.endCtx_outside (s : State) (y j : Nat) : (State.endCtx s y j).outside = s.outside := by
  unfold State.endCtx
  repeat' (first | simp only [↓outside_fst_ite, ↓outside_mk, ↓outside_fold, ↓outside_ite, ite_self, implies_true, ↓State.setCore_outside] | split | dsimp only | (with_reducible apply outside_foldl'; intro _ _) | (with_reducible apply outside_foldl_fst; intro _ _) | (with_reducible apply outside_iter; intro _))

end Sys2Proof.Machine
end

