-- ==== Sys2Proof/Laws/KeepReset.lean ====
section
/-! SUPPORT. Machine/Reset.lean: what its operations leave alone. -/
set_option linter.unusedSimpArgs false
namespace Sys2Proof.Machine

@[simp ↓] theorem State.setEngine_outside (s : State) (d : Nat) (x : EngineState) : (State.setEngine s d x).outside = s.outside := by
  unfold State.setEngine
  repeat' (first | simp only [↓outside_fst_ite, ↓outside_mk, ↓outside_fold, ↓outside_ite, ite_self, implies_true] | split | dsimp only | (with_reducible apply outside_foldl'; intro _ _) | (with_reducible apply outside_foldl_fst; intro _ _) | (with_reducible apply outside_iter; intro _))

@[simp ↓] theorem State.stopRun_outside (s : State) (d : Nat) (r : CollRun) (slots : List Nat) : (State.stopRun s d r slots).outside = s.outside := by
  unfold State.stopRun
  repeat' (first | simp only [↓outside_fst_ite, ↓outside_mk, ↓outside_fold, ↓outside_ite, ite_self, implies_true, ↓State.setEngine_outside, ↓State.dropHeld_outside, ↓State.sendCtrl_outside, ↓State.event_outside] | split | dsimp only | (with_reducible apply outside_foldl'; intro _ _) | (with_reducible apply outside_foldl_fst; intro _ _) | (with_reducible apply outside_iter; intro _))

@[simp ↓] theorem State.haltRing_outside (s : State) (j cause code : Nat) : (State.haltRing s j cause code).outside = s.outside := by
  unfold State.haltRing
  repeat' (first | simp only [↓outside_fst_ite, ↓outside_mk, ↓outside_fold, ↓outside_ite, ite_self, implies_true, ↓State.setFld_outside, ↓State.jobEvent_outside] | split | dsimp only | (with_reducible apply outside_foldl'; intro _ _) | (with_reducible apply outside_foldl_fst; intro _ _) | (with_reducible apply outside_iter; intro _))

@[simp ↓] theorem State.setRing_outside (s : State) (j : Nat) (q : List RingEntry) : (State.setRing s j q).outside = s.outside := by
  unfold State.setRing
  repeat' (first | simp only [↓outside_fst_ite, ↓outside_mk, ↓outside_fold, ↓outside_ite, ite_self, implies_true] | split | dsimp only | (with_reducible apply outside_foldl'; intro _ _) | (with_reducible apply outside_foldl_fst; intro _ _) | (with_reducible apply outside_iter; intro _))

@[simp ↓] theorem State.refreshRing_outside (s : State) (j : Nat) : (State.refreshRing s j).outside = s.outside := by
  unfold State.refreshRing
  repeat' (first | simp only [↓outside_fst_ite, ↓outside_mk, ↓outside_fold, ↓outside_ite, ite_self, implies_true, ↓State.setFld_outside] | split | dsimp only | (with_reducible apply outside_foldl'; intro _ _) | (with_reducible apply outside_foldl_fst; intro _ _) | (with_reducible apply outside_iter; intro _))

@[simp ↓] theorem State.restartRing_outside (s : State) (j code : Nat) : (State.restartRing s j code).outside = s.outside := by
  unfold State.restartRing
  repeat' (first | simp only [↓outside_fst_ite, ↓outside_mk, ↓outside_fold, ↓outside_ite, ite_self, implies_true, ↓State.setFld_outside, ↓State.setRing_outside, ↓State.dropAsk_outside, ↓State.refreshRing_outside, ↓State.haltRing_outside] | split | dsimp only | (with_reducible apply outside_foldl'; intro _ _) | (with_reducible apply outside_foldl_fst; intro _ _) | (with_reducible apply outside_iter; intro _))

@[simp ↓] theorem State.spoilPins_outside (s : State) (ys : List Nat) : (State.spoilPins s ys).outside = s.outside := by
  unfold State.spoilPins
  repeat' (first | simp only [↓outside_fst_ite, ↓outside_mk, ↓outside_fold, ↓outside_ite, ite_self, implies_true, ↓State.fresh_outside] | split | dsimp only | (with_reducible apply outside_foldl'; intro _ _) | (with_reducible apply outside_foldl_fst; intro _ _) | (with_reducible apply outside_iter; intro _) | refine (State.fresh_pair (by assumption)).trans ?_)

@[simp ↓] theorem State.clearFabric_outside (s : State) (ys js : List Nat) : (State.clearFabric s ys js).outside = s.outside := by simp only [State.clearFabric, State.outside]

@[simp ↓] theorem State.clearBridge_outside (s : State) (js : List Nat) : (State.clearBridge s js).outside = s.outside := by
  unfold State.clearBridge
  repeat' (first | simp only [↓outside_fst_ite, ↓outside_mk, ↓outside_fold, ↓outside_ite, ite_self, implies_true, ↓State.dropHeld_outside, ↓State.freeSlot_outside, ↓State.setPort_outside] | split | dsimp only | (with_reducible apply outside_foldl'; intro _ _) | (with_reducible apply outside_foldl_fst; intro _ _) | (with_reducible apply outside_iter; intro _))

@[simp ↓] theorem State.resetStep_outside (s : State) (p j : Nat) : (State.resetStep s p j).outside = s.outside := by
  unfold State.resetStep
  repeat' (first | simp only [↓outside_fst_ite, ↓outside_mk, ↓outside_fold, ↓outside_ite, ite_self, implies_true, ↓State.setFld_outside, ↓State.setFlag_outside] | split | dsimp only | (with_reducible apply outside_foldl'; intro _ _) | (with_reducible apply outside_foldl_fst; intro _ _) | (with_reducible apply outside_iter; intro _))

@[simp ↓] theorem State.fabricReset_outside (s : State) (p code : Nat) : (State.fabricReset s p code).outside = s.outside := by
  unfold State.fabricReset
  repeat' (first | simp only [↓outside_fst_ite, ↓outside_mk, ↓outside_fold, ↓outside_ite, ite_self, implies_true, ↓State.spoilPins_outside, ↓State.clearFabric_outside, ↓State.clearBridge_outside, ↓State.resetStep_outside, ↓State.setEngine_outside, ↓State.stopRun_outside, ↓State.fresh_outside, ↓State.setCore_outside, ↓State.restartRing_outside, ↓State.event_outside, ↓State.progress_outside] | split | dsimp only | (with_reducible apply outside_foldl'; intro _ _) | (with_reducible apply outside_foldl_fst; intro _ _) | (with_reducible apply outside_iter; intro _) | refine (State.fresh_pair (by assumption)).trans ?_)

@[simp ↓] theorem State.fabricFault_outside (s : State) (y pg code info ev : Nat) : (State.fabricFault s y pg code info ev).outside = s.outside := by
  unfold State.fabricFault
  repeat' (first | simp only [↓outside_fst_ite, ↓outside_mk, ↓outside_fold, ↓outside_ite, ite_self, implies_true, ↓State.faultEv_outside, ↓State.fabricReset_outside] | split | dsimp only | (with_reducible apply outside_foldl'; intro _ _) | (with_reducible apply outside_foldl_fst; intro _ _) | (with_reducible apply outside_iter; intro _))

@[simp ↓] theorem State.ctrlError_outside (s : State) (y u cause h : Nat) : (State.ctrlError s y u cause h).outside = s.outside := by
  unfold State.ctrlError
  repeat' (first | simp only [↓outside_fst_ite, ↓outside_mk, ↓outside_fold, ↓outside_ite, ite_self, implies_true, ↓State.event_outside, ↓State.fabricFault_outside] | split | dsimp only | (with_reducible apply outside_foldl'; intro _ _) | (with_reducible apply outside_foldl_fst; intro _ _) | (with_reducible apply outside_iter; intro _))

@[simp ↓] theorem State.tagOverflow_outside (s : State) (y u h : Nat) : (State.tagOverflow s y u h).outside = s.outside := by
  unfold State.tagOverflow
  repeat' (first | simp only [↓outside_fst_ite, ↓outside_mk, ↓outside_fold, ↓outside_ite, ite_self, implies_true, ↓State.fabricFault_outside] | split | dsimp only | (with_reducible apply outside_foldl'; intro _ _) | (with_reducible apply outside_foldl_fst; intro _ _) | (with_reducible apply outside_iter; intro _))

@[simp ↓] theorem State.freeSlots_outside (s : State) (i : Image) : (State.freeSlots s i).outside = s.outside := by
  unfold State.freeSlots
  repeat' (first | simp only [↓outside_fst_ite, ↓outside_mk, ↓outside_fold, ↓outside_ite, ite_self, implies_true, ↓State.setUnit_outside] | split | dsimp only | (with_reducible apply outside_foldl'; intro _ _) | (with_reducible apply outside_foldl_fst; intro _ _) | (with_reducible apply outside_iter; intro _))

@[simp ↓] theorem State.dropImage_outside (s : State) (i : Image) : (State.dropImage s i).outside = s.outside := by
  unfold State.dropImage
  repeat' (first | simp only [↓outside_fst_ite, ↓outside_mk, ↓outside_fold, ↓outside_ite, ite_self, implies_true, ↓State.freeSlots_outside, ↓State.setFlag_outside, ↓State.endCtx_outside] | split | dsimp only | (with_reducible apply outside_foldl'; intro _ _) | (with_reducible apply outside_foldl_fst; intro _ _) | (with_reducible apply outside_iter; intro _))

@[simp ↓] theorem State.clearCounter_outside (s : State) (c : Nat) : (State.clearCounter s c).outside = s.outside := by
  unfold State.clearCounter
  repeat' (first | simp only [↓outside_fst_ite, ↓outside_mk, ↓outside_fold, ↓outside_ite, ite_self, implies_true] | split | dsimp only | (with_reducible apply outside_foldl'; intro _ _) | (with_reducible apply outside_foldl_fst; intro _ _) | (with_reducible apply outside_iter; intro _))

@[simp ↓] theorem State.setWcWord_outside (s : State) (c w v : Nat) : (State.setWcWord s c w v).outside = s.outside := by
  unfold State.setWcWord
  repeat' (first | simp only [↓outside_fst_ite, ↓outside_mk, ↓outside_fold, ↓outside_ite, ite_self, implies_true] | split | dsimp only | (with_reducible apply outside_foldl'; intro _ _) | (with_reducible apply outside_foldl_fst; intro _ _) | (with_reducible apply outside_iter; intro _))

@[simp ↓] theorem State.restoreRails_outside (s : State) (y : Nat) : (State.restoreRails s y).outside = s.outside := by
  unfold State.restoreRails
  repeat' (first | simp only [↓outside_fst_ite, ↓outside_mk, ↓outside_fold, ↓outside_ite, ite_self, implies_true, ↓State.gainRails_outside, ↓State.setFlag_outside] | split | dsimp only | (with_reducible apply outside_foldl'; intro _ _) | (with_reducible apply outside_foldl_fst; intro _ _) | (with_reducible apply outside_iter; intro _))

@[simp ↓] theorem State.yardReset_outside (s : State) (y : Nat) : (State.yardReset s y).outside = s.outside := by
  unfold State.yardReset
  repeat' (first | simp only [↓outside_fst_ite, ↓outside_mk, ↓outside_fold, ↓outside_ite, ite_self, implies_true, ↓State.restoreRails_outside, ↓State.resetRegs_outside, ↓State.scrambleYard_outside] | split | dsimp only | (with_reducible apply outside_foldl'; intro _ _) | (with_reducible apply outside_foldl_fst; intro _ _) | (with_reducible apply outside_iter; intro _))

end Sys2Proof.Machine
end

