-- ==== Sys2Proof/Laws/KeepHealthOps.lean ====
section
/-! SUPPORT. Machine/HealthOps.lean: what its operations leave alone. -/
set_option linter.unusedSimpArgs false
namespace Sys2Proof.Machine

@[simp ↓] theorem State.countFence_outside (s : State) (h : Nat) : (State.countFence s h).outside = s.outside := by
  unfold State.countFence
  repeat' (first | simp only [↓outside_fst_ite, ↓outside_mk, ↓outside_fold, ↓outside_ite, ite_self, implies_true, ↓State.setFld_outside] | split | dsimp only | (with_reducible apply outside_foldl'; intro _ _) | (with_reducible apply outside_foldl_fst; intro _ _) | (with_reducible apply outside_iter; intro _))

@[simp ↓] theorem State.putFence_outside (s : State) (c row e : Nat) : (State.putFence s c row e).outside = s.outside := by
  unfold State.putFence
  repeat' (first | simp only [↓outside_fst_ite, ↓outside_mk, ↓outside_fold, ↓outside_ite, ite_self, implies_true, ↓State.setReg_outside, ↓State.countFence_outside] | split | dsimp only | (with_reducible apply outside_foldl'; intro _ _) | (with_reducible apply outside_foldl_fst; intro _ _) | (with_reducible apply outside_iter; intro _))

@[simp ↓] theorem State.freeFence_outside (s : State) (h e : Nat) : (State.freeFence s h e).outside = s.outside := by
  unfold State.freeFence
  repeat' (first | simp only [↓outside_fst_ite, ↓outside_mk, ↓outside_fold, ↓outside_ite, ite_self, implies_true, ↓State.setReg_outside, ↓State.countFence_outside] | split | dsimp only | (with_reducible apply outside_foldl'; intro _ _) | (with_reducible apply outside_foldl_fst; intro _ _) | (with_reducible apply outside_iter; intro _))

@[simp ↓] theorem State.escape_outside (s : State) (c row cause : Nat) : (State.escape s c row cause).outside = s.outside := by
  unfold State.escape
  repeat' (first | simp only [↓outside_fst_ite, ↓outside_mk, ↓outside_fold, ↓outside_ite, ite_self, implies_true, ↓State.bumpFld_outside, ↓State.setFlag_outside, ↓State.faultEv_outside] | split | dsimp only | (with_reducible apply outside_foldl'; intro _ _) | (with_reducible apply outside_foldl_fst; intro _ _) | (with_reducible apply outside_iter; intro _))

@[simp ↓] theorem State.fenceRowNow_outside (s : State) (c row : Nat) : (State.fenceRowNow s c row).outside = s.outside := by
  unfold State.fenceRowNow
  repeat' (first | simp only [↓outside_fst_ite, ↓outside_mk, ↓outside_fold, ↓outside_ite, ite_self, implies_true, ↓State.escape_outside, ↓State.putFence_outside, ↓State.event_outside] | split | dsimp only | (with_reducible apply outside_foldl'; intro _ _) | (with_reducible apply outside_foldl_fst; intro _ _) | (with_reducible apply outside_iter; intro _))

@[simp ↓] theorem State.rowRead_outside (s : State) (c row : Nat) (sev : Ecc) : (State.rowRead s c row sev).outside = s.outside := by
  unfold State.rowRead
  repeat' (first | simp only [↓outside_fst_ite, ↓outside_mk, ↓outside_fold, ↓outside_ite, ite_self, implies_true, ↓State.bumpFld_outside, ↓State.bump_outside, ↓State.fenceRowNow_outside, ↓State.faultEv_outside] | split | dsimp only | (with_reducible apply outside_foldl'; intro _ _) | (with_reducible apply outside_foldl_fst; intro _ _) | (with_reducible apply outside_iter; intro _))

@[simp ↓] theorem State.rebuildFence_outside (s : State) : (State.rebuildFence s).outside = s.outside := by
  unfold State.rebuildFence
  repeat' (first | simp only [↓outside_fst_ite, ↓outside_mk, ↓outside_fold, ↓outside_ite, ite_self, implies_true, ↓State.putFence_outside] | split | dsimp only | (with_reducible apply outside_foldl'; intro _ _) | (with_reducible apply outside_foldl_fst; intro _ _) | (with_reducible apply outside_iter; intro _))

@[simp ↓] theorem State.sdMark_outside (s : State) (b : Nat) : (State.sdMark s b).outside = s.outside := by
  unfold State.sdMark
  repeat' (first | simp only [↓outside_fst_ite, ↓outside_mk, ↓outside_fold, ↓outside_ite, ite_self, implies_true, ↓State.setFlag_outside, ↓State.faultEv_outside] | split | dsimp only | (with_reducible apply outside_foldl'; intro _ _) | (with_reducible apply outside_foldl_fst; intro _ _) | (with_reducible apply outside_iter; intro _))

@[simp ↓] theorem State.sdLost_outside (s : State) (b : Nat) : (State.sdLost s b).outside = s.outside := by
  unfold State.sdLost
  repeat' (first | simp only [↓outside_fst_ite, ↓outside_mk, ↓outside_fold, ↓outside_ite, ite_self, implies_true, ↓State.sdMark_outside, ↓State.fabricReset_outside] | split | dsimp only | (with_reducible apply outside_foldl'; intro _ _) | (with_reducible apply outside_foldl_fst; intro _ _) | (with_reducible apply outside_iter; intro _))

end Sys2Proof.Machine
end

