-- ==== Sys2Proof/Laws/KeepStartOps.lean ====
section
/-! SUPPORT. Machine/StartOps.lean: what its operations leave alone. -/
set_option linter.unusedSimpArgs false
namespace Sys2Proof.Machine

@[simp ↓] theorem State.endStage_outside (s : State) (k next : Nat) : (State.endStage s k next).outside = s.outside := by
  unfold State.endStage
  repeat' (first | simp only [↓outside_fst_ite, ↓outside_mk, ↓outside_fold, ↓outside_ite, ite_self, implies_true, ↓State.setReg_outside, ↓State.setStage_outside] | split | dsimp only | (with_reducible apply outside_foldl'; intro _ _) | (with_reducible apply outside_foldl_fst; intro _ _) | (with_reducible apply outside_iter; intro _))

@[simp ↓] theorem State.failStart_outside (s : State) (c : Nat) : (State.failStart s c).outside = s.outside := by
  unfold State.failStart
  repeat' (first | simp only [↓outside_fst_ite, ↓outside_mk, ↓outside_fold, ↓outside_ite, ite_self, implies_true, ↓State.setFld_outside, ↓State.setStage_outside] | split | dsimp only | (with_reducible apply outside_foldl'; intro _ _) | (with_reducible apply outside_foldl_fst; intro _ _) | (with_reducible apply outside_iter; intro _))

@[simp ↓] theorem State.setRole_outside (s : State) (m : Bool) (r : Nat) : (State.setRole s m r).outside = s.outside := by
  unfold State.setRole
  repeat' (first | simp only [↓outside_fst_ite, ↓outside_mk, ↓outside_fold, ↓outside_ite, ite_self, implies_true, ↓State.setFld_outside, ↓State.event_outside] | split | dsimp only | (with_reducible apply outside_foldl'; intro _ _) | (with_reducible apply outside_foldl_fst; intro _ _) | (with_reducible apply outside_iter; intro _))

@[simp ↓] theorem State.useBank_outside (s : State) (m bank : Bool) : (State.useBank s m bank).outside = s.outside := by
  unfold State.useBank
  repeat' (first | simp only [↓outside_fst_ite, ↓outside_mk, ↓outside_fold, ↓outside_ite, ite_self, implies_true, ↓State.setFlag_outside, ↓State.setFld_outside, ↓State.setReg_outside] | split | dsimp only | (with_reducible apply outside_foldl'; intro _ _) | (with_reducible apply outside_foldl_fst; intro _ _) | (with_reducible apply outside_iter; intro _))

@[simp ↓] theorem State.setMapGen_outside (s : State) (g : Nat) : (State.setMapGen s g).outside = s.outside := by
  unfold State.setMapGen
  repeat' (first | simp only [↓outside_fst_ite, ↓outside_mk, ↓outside_fold, ↓outside_ite, ite_self, implies_true, ↓State.setReg_outside, ↓State.event_outside] | split | dsimp only | (with_reducible apply outside_foldl'; intro _ _) | (with_reducible apply outside_foldl_fst; intro _ _) | (with_reducible apply outside_iter; intro _))

@[simp ↓] theorem State.buildMap_outside (s : State) (t : SelfTest) : (State.buildMap s t).outside = s.outside := by
  unfold State.buildMap
  repeat' (first | simp only [↓outside_fst_ite, ↓outside_mk, ↓outside_fold, ↓outside_ite, ite_self, implies_true, ↓State.setReg_outside, ↓State.setMapGen_outside] | split | dsimp only | (with_reducible apply outside_foldl'; intro _ _) | (with_reducible apply outside_foldl_fst; intro _ _) | (with_reducible apply outside_iter; intro _))

@[simp ↓] theorem State.yardRetired_outside (s : State) (y old new cause parts : Nat) : (State.yardRetired s y old new cause parts).outside = s.outside := by
  unfold State.yardRetired
  repeat' (first | simp only [↓outside_fst_ite, ↓outside_mk, ↓outside_fold, ↓outside_ite, ite_self, implies_true, ↓State.faultEv_outside] | split | dsimp only | (with_reducible apply outside_foldl'; intro _ _) | (with_reducible apply outside_foldl_fst; intro _ _) | (with_reducible apply outside_iter; intro _))

@[simp ↓] theorem State.outer_outside (s : State) (regs : Tab W64) (hbm : Mem) (freeCtr : Nat) : (State.outer s regs hbm freeCtr).outside = s.outside := by
  unfold State.outer
  repeat' (first | simp only [↓outside_fst_ite, ↓outside_mk, ↓outside_fold, ↓outside_ite, ite_self, implies_true] | split | dsimp only | (with_reducible apply outside_foldl'; intro _ _) | (with_reducible apply outside_foldl_fst; intro _ _) | (with_reducible apply outside_iter; intro _))

@[simp ↓] theorem State.coldReset_outside (s : State) (type source : Nat) : (State.coldReset s type source).outside = s.outside := by
  unfold State.coldReset
  repeat' (first | simp only [↓outside_fst_ite, ↓outside_mk, ↓outside_fold, ↓outside_ite, ite_self, implies_true, ↓State.outer_outside, ↓State.setReg_outside] | split | dsimp only | (with_reducible apply outside_foldl'; intro _ _) | (with_reducible apply outside_foldl_fst; intro _ _) | (with_reducible apply outside_iter; intro _))

@[simp ↓] theorem State.endMapOut_outside (s : State) (c : Nat) : (State.endMapOut s c).outside = s.outside := by
  unfold State.endMapOut
  repeat' (first | simp only [↓outside_fst_ite, ↓outside_mk, ↓outside_fold, ↓outside_ite, ite_self, implies_true, ↓State.setFld_outside, ↓State.setFlag_outside, ↓State.fresh_outside] | split | dsimp only | (with_reducible apply outside_foldl'; intro _ _) | (with_reducible apply outside_foldl_fst; intro _ _) | (with_reducible apply outside_iter; intro _) | refine (State.fresh_pair (by assumption)).trans ?_)

@[simp ↓] theorem State.warmReset_outside (s : State) (source : Nat) : (State.warmReset s source).outside = s.outside := by
  unfold State.warmReset
  repeat' (first | simp only [↓outside_fst_ite, ↓outside_mk, ↓outside_fold, ↓outside_ite, ite_self, implies_true, ↓State.endMapOut_outside, ↓State.outer_outside, ↓State.setReg_outside, ↓State.setStage_outside, ↓State.setFld_outside] | split | dsimp only | (with_reducible apply outside_foldl'; intro _ _) | (with_reducible apply outside_foldl_fst; intro _ _) | (with_reducible apply outside_iter; intro _))

@[simp ↓] theorem State.portDown_outside (s : State) (q cause : Nat) : (State.portDown s q cause).outside = s.outside := by
  unfold State.portDown
  repeat' (first | simp only [↓outside_fst_ite, ↓outside_mk, ↓outside_fold, ↓outside_ite, ite_self, implies_true, ↓State.setFld_outside, ↓State.setPort_outside, ↓State.fault_outside, ↓State.event_outside] | split | dsimp only | (with_reducible apply outside_foldl'; intro _ _) | (with_reducible apply outside_foldl_fst; intro _ _) | (with_reducible apply outside_iter; intro _))

@[simp ↓] theorem State.safeStop_outside (s : State) (code : Nat) : (State.safeStop s code).outside = s.outside := by
  unfold State.safeStop
  repeat' (first | simp only [↓outside_fst_ite, ↓outside_mk, ↓outside_fold, ↓outside_ite, ite_self, implies_true, ↓State.fabricReset_outside, ↓State.portDown_outside, ↓State.setFlag_outside, ↓State.setFld_outside, ↓State.setStage_outside] | split | dsimp only | (with_reducible apply outside_foldl'; intro _ _) | (with_reducible apply outside_foldl_fst; intro _ _) | (with_reducible apply outside_iter; intro _))

@[simp ↓] theorem State.resetDone_outside (s : State) (type source target ms t0 : Nat) : (State.resetDone s type source target ms t0).outside = s.outside := by
  unfold State.resetDone
  repeat' (first | simp only [↓outside_fst_ite, ↓outside_mk, ↓outside_fold, ↓outside_ite, ite_self, implies_true, ↓State.setReg_outside, ↓State.setFlag_outside, ↓State.tick_outside, ↓State.event_outside] | split | dsimp only | (with_reducible apply outside_foldl'; intro _ _) | (with_reducible apply outside_foldl_fst; intro _ _) | (with_reducible apply outside_iter; intro _))

@[simp ↓] theorem State.refuseReset_outside (s : State) : (State.refuseReset s).outside = s.outside := by
  unfold State.refuseReset
  repeat' (first | simp only [↓outside_fst_ite, ↓outside_mk, ↓outside_fold, ↓outside_ite, ite_self, implies_true, ↓State.setFlag_outside] | split | dsimp only | (with_reducible apply outside_foldl'; intro _ _) | (with_reducible apply outside_foldl_fst; intro _ _) | (with_reducible apply outside_iter; intro _))

end Sys2Proof.Machine
end

