-- ==== Sys2Proof/Laws/KeepMaintOps.lean ====
section
/-! SUPPORT. Machine/MaintOps.lean: what its operations leave alone. -/
set_option linter.unusedSimpArgs false
namespace Sys2Proof.Machine

@[simp ↓] theorem State.portLost_outside (s : State) (q cause : Nat) : (State.portLost s q cause).outside = s.outside := by
  unfold State.portLost
  repeat' (first | simp only [↓outside_fst_ite, ↓outside_mk, ↓outside_fold, ↓outside_ite, ite_self, implies_true, ↓State.portDown_outside, ↓State.moveFrames_outside] | split | dsimp only | (with_reducible apply outside_foldl'; intro _ _) | (with_reducible apply outside_foldl_fst; intro _ _) | (with_reducible apply outside_iter; intro _))

@[simp ↓] theorem State.retrain_outside (s : State) (q cause : Nat) : (State.retrain s q cause).outside = s.outside := by
  unfold State.retrain
  repeat' (first | simp only [↓outside_fst_ite, ↓outside_mk, ↓outside_fold, ↓outside_ite, ite_self, implies_true, ↓State.portLost_outside, ↓State.setFld_outside] | split | dsimp only | (with_reducible apply outside_foldl'; intro _ _) | (with_reducible apply outside_foldl_fst; intro _ _) | (with_reducible apply outside_iter; intro _))

theorem retired_keeps (s : State) (p : Nat) : Keeps s.outside
    ({ s with retiredA := s.retiredA.filter (fun q => !(q == p)) ++ [p], retiredB := s.retiredB.filter (fun q => !(q == p)) ++ [p] } : State).outside := by
  have k : ∀ (l : List Nat) (q : Nat), q ∈ l → q ∈ l.filter (fun q => !(q == p)) ++ [p] := by
    intro l q hq
    by_cases x : q = p
    · exact List.mem_append.2 (.inr (List.mem_singleton.2 x))
    · exact List.mem_append.2 (.inl (List.mem_filter.2 ⟨hq, by simp [x]⟩))
  rw [outside_mk]
  exact ⟨rfl, fun q hq => k _ q hq, fun q hq => k _ q hq⟩

theorem State.retirePhys_keeps (s : State) (p : Nat) {ro : Outside} (h : Keeps ro s.outside) : Keeps ro (s.retirePhys p).outside := by
  unfold State.retirePhys
  refine Keeps.trans ?_ (retired_keeps _ p)
  simpa only [↓State.setFlag_outside, ↓State.setFld_outside] using h

@[simp ↓] theorem State.stopImage_outside (s : State) (i : Image) : (State.stopImage s i).outside = s.outside := by
  unfold State.stopImage
  repeat' (first | simp only [↓outside_fst_ite, ↓outside_mk, ↓outside_fold, ↓outside_ite, ite_self, implies_true, ↓State.dropImage_outside, ↓State.setFld_outside, ↓State.jobEvent_outside] | split | dsimp only | (with_reducible apply outside_foldl'; intro _ _) | (with_reducible apply outside_foldl_fst; intro _ _) | (with_reducible apply outside_iter; intro _))

@[simp ↓] theorem State.reissue_outside (s : State) (y : Nat) : (State.reissue s y).outside = s.outside := by
  unfold State.reissue
  repeat' (first | simp only [↓outside_fst_ite, ↓outside_mk, ↓outside_fold, ↓outside_ite, ite_self, implies_true] | split | dsimp only | (with_reducible apply outside_foldl'; intro _ _) | (with_reducible apply outside_foldl_fst; intro _ _) | (with_reducible apply outside_iter; intro _))

theorem State.switchYard_keeps (s : State) (y old : Nat) (spare : Option Nat) {ro : Outside} (hk : Keeps ro s.outside) : Keeps ro (State.switchYard s y old spare).outside := by
  unfold State.switchYard
  repeat' (first | with_reducible assumption | with_reducible exact Keeps.refl _ | simp only [↓outside_fst_ite, ↓outside_mk, ↓outside_fold, ↓outside_ite, ite_self, implies_true, ↓State.reissue_outside, ↓State.setReg_outside, ↓State.setMapGen_outside, ↓State.yardReset_outside] | split | dsimp only | (with_reducible apply keeps_foldl; intro _ _ _) | (with_reducible apply keeps_iter; intro _ _) | with_reducible apply State.retirePhys_keeps | intro _)

theorem State.retireYard_keeps (s : State) (y cause : Nat) (spare : Option Nat) {ro : Outside} (hk : Keeps ro s.outside) : Keeps ro (State.retireYard s y cause spare).outside := by
  unfold State.retireYard
  repeat' (first | with_reducible assumption | with_reducible exact Keeps.refl _ | simp only [↓outside_fst_ite, ↓outside_mk, ↓outside_fold, ↓outside_ite, ite_self, implies_true, ↓State.stopImage_outside, ↓State.fabricReset_outside, ↓State.yardRetired_outside, ↓State.setFld_outside] | split | dsimp only | (with_reducible apply keeps_foldl; intro _ _ _) | (with_reducible apply keeps_iter; intro _ _) | with_reducible apply State.switchYard_keeps | intro _)

@[simp ↓] theorem State.maintResult_outside (s : State) (m : MaintOp) (r : Nat) : (State.maintResult s m r).outside = s.outside := by
  unfold State.maintResult
  repeat' (first | simp only [↓outside_fst_ite, ↓outside_mk, ↓outside_fold, ↓outside_ite, ite_self, implies_true, ↓State.setReg_outside, ↓State.event_outside] | split | dsimp only | (with_reducible apply outside_foldl'; intro _ _) | (with_reducible apply outside_foldl_fst; intro _ _) | (with_reducible apply outside_iter; intro _))

@[simp ↓] theorem State.moShow_outside (s : State) (c r : Nat) (busy : Bool) : (State.moShow s c r busy).outside = s.outside := by
  unfold State.moShow
  repeat' (first | simp only [↓outside_fst_ite, ↓outside_mk, ↓outside_fold, ↓outside_ite, ite_self, implies_true, ↓State.setFld_outside, ↓State.setReg_outside] | split | dsimp only | (with_reducible apply outside_foldl'; intro _ _) | (with_reducible apply outside_foldl_fst; intro _ _) | (with_reducible apply outside_iter; intro _))

theorem State.beginOp_keeps (s : State) (m : MaintOp) {r : Outside} (h : Keeps r s.outside) : Keeps r (s.beginOp m).2.outside := by
  unfold State.beginOp
  repeat' (first | with_reducible assumption | simp only [↓outside_mk, ↓outside_fold, ↓State.setReg_outside, ↓State.setFlag_outside, ↓State.retrain_outside] | split | apply State.retireYard_keeps)

theorem State.beginOp_pair {s : State} {m : MaintOp} {a : MaintOp ⊕ Nat} {t : State} (e : s.beginOp m = (a, t)) {r : Outside}
    (h : Keeps r s.outside) : Keeps r t.outside := by
  have k := s.beginOp_keeps m h
  rw [e] at k; exact k

theorem State.startOp_keeps (s : State) (m : MaintOp) {r : Outside} (h : Keeps r s.outside) : Keeps r (s.startOp m).outside := by
  unfold State.startOp
  split
  · rename_i e; exact State.beginOp_pair e (by simpa only [↓State.event_outside] using h)
  · rename_i e; simp only [↓State.maintResult_outside]; exact State.beginOp_pair e (by simpa only [↓State.event_outside] using h)

theorem State.examineQueue_keeps (s : State) (kept q : List MaintOp) {r : Outside} (h : Keeps r s.outside) :
    Keeps r (s.examineQueue kept q).outside := by
  induction q generalizing s kept with
  | nil => exact h
  | cons m q ih =>
    unfold State.examineQueue
    split
    · exact ih _ _ (s.startOp_keeps m h)
    · exact ih _ _ h

theorem State.endMaint_keeps (s : State) (cls target r : Nat) {ro : Outside} (hk : Keeps ro s.outside) : Keeps ro (State.endMaint s cls target r).outside := by
  unfold State.endMaint
  repeat' (first | with_reducible assumption | with_reducible exact Keeps.refl _ | simp only [↓outside_fst_ite, ↓outside_mk, ↓outside_fold, ↓outside_ite, ite_self, implies_true, ↓State.maintResult_outside] | split | dsimp only | (with_reducible apply keeps_foldl; intro _ _ _) | (with_reducible apply keeps_iter; intro _ _) | with_reducible apply State.examineQueue_keeps | intro _)

@[simp ↓] theorem State.deferred_outside (s : State) (m : MaintOp) (cause blocker : Nat) : (State.deferred s m cause blocker).outside = s.outside := by
  unfold State.deferred
  repeat' (first | simp only [↓outside_fst_ite, ↓outside_mk, ↓outside_fold, ↓outside_ite, ite_self, implies_true, ↓State.faultEv_outside] | split | dsimp only | (with_reducible apply outside_foldl'; intro _ _) | (with_reducible apply outside_foldl_fst; intro _ _) | (with_reducible apply outside_iter; intro _))

@[simp ↓] theorem State.showDeferred_outside (s : State) (m : MaintOp) (busy : Bool) : (State.showDeferred s m busy).outside = s.outside := by
  unfold State.showDeferred
  repeat' (first | simp only [↓outside_fst_ite, ↓outside_mk, ↓outside_fold, ↓outside_ite, ite_self, implies_true, ↓State.moShow_outside, ↓State.setReg_outside] | split | dsimp only | (with_reducible apply outside_foldl'; intro _ _) | (with_reducible apply outside_foldl_fst; intro _ _) | (with_reducible apply outside_iter; intro _))

theorem State.maintAsk_keeps (s : State) (m : MaintOp) {ro : Outside} (hk : Keeps ro s.outside) : Keeps ro (State.maintAsk s m).outside := by
  unfold State.maintAsk
  repeat' (first | with_reducible assumption | with_reducible exact Keeps.refl _ | simp only [↓outside_fst_ite, ↓outside_mk, ↓outside_fold, ↓outside_ite, ite_self, implies_true, ↓State.deferred_outside, ↓State.showDeferred_outside] | split | dsimp only | (with_reducible apply keeps_foldl; intro _ _ _) | (with_reducible apply keeps_iter; intro _ _) | with_reducible apply State.startOp_keeps | intro _)

end Sys2Proof.Machine
end

