-- ==== Sys2Proof/Laws/KeepPartReset.lean ====
section
/-! SUPPORT. Machine/PartReset.lean: what its operations leave alone. -/
set_option linter.unusedSimpArgs false
namespace Sys2Proof.Machine

theorem State.permAbort_keeps (s : State) (cause : Nat) {ro : Outside} (hk : Keeps ro s.outside) : Keeps ro (State.permAbort s cause).outside := by
  unfold State.permAbort
  repeat' (first | with_reducible assumption | with_reducible exact Keeps.refl _ | simp only [↓outside_fst_ite, ↓outside_mk, ↓outside_fold, ↓outside_ite, ite_self, implies_true, ↓State.setFlag_outside, ↓State.setFld_outside, ↓State.fault_outside, ↓State.event_outside] | split | dsimp only | (with_reducible apply keeps_foldl; intro _ _ _) | (with_reducible apply keeps_iter; intro _ _) | with_reducible apply State.endMaint_keeps | intro _)

@[simp ↓] theorem State.clearJob_outside (s : State) (j : Nat) : (State.clearJob s j).outside = s.outside := by
  unfold State.clearJob
  repeat' (first | simp only [↓outside_fst_ite, ↓outside_mk, ↓outside_fold, ↓outside_ite, ite_self, implies_true, ↓State.resetRegs_outside, ↓State.setFlag_outside] | split | dsimp only | (with_reducible apply outside_foldl'; intro _ _) | (with_reducible apply outside_foldl_fst; intro _ _) | (with_reducible apply outside_iter; intro _))

theorem State.partitionReset_keeps (s : State) (p : Nat) {ro : Outside} (hk : Keeps ro s.outside) : Keeps ro (State.partitionReset s p).outside := by
  unfold State.partitionReset
  repeat' (first | with_reducible assumption | with_reducible exact Keeps.refl _ | simp only [↓outside_fst_ite, ↓outside_mk, ↓outside_fold, ↓outside_ite, ite_self, implies_true, ↓State.fabricReset_outside, ↓State.setFlag_outside, ↓State.setFld_outside, ↓State.jobEvent_outside, ↓State.dropImage_outside, ↓State.yardReset_outside, ↓State.clearJob_outside, ↓State.clearCounter_outside, ↓State.resetRegs_outside] | split | dsimp only | (with_reducible apply keeps_foldl; intro _ _ _) | (with_reducible apply keeps_iter; intro _ _) | with_reducible apply State.permAbort_keeps | intro _)

@[simp ↓] theorem State.coolDie_outside (s : State) (k : Nat) : (State.coolDie s k).outside = s.outside := by
  unfold State.coolDie
  repeat' (first | simp only [↓outside_fst_ite, ↓outside_mk, ↓outside_fold, ↓outside_ite, ite_self, implies_true] | split | dsimp only | (with_reducible apply outside_foldl'; intro _ _) | (with_reducible apply outside_foldl_fst; intro _ _) | (with_reducible apply outside_iter; intro _))

@[simp ↓] theorem State.warmDie_outside (s : State) (k : Nat) : (State.warmDie s k).outside = s.outside := by
  unfold State.warmDie
  repeat' (first | simp only [↓outside_fst_ite, ↓outside_mk, ↓outside_fold, ↓outside_ite, ite_self, implies_true] | split | dsimp only | (with_reducible apply outside_foldl'; intro _ _) | (with_reducible apply outside_foldl_fst; intro _ _) | (with_reducible apply outside_iter; intro _))

theorem State.brReset_keeps (s : State) (w source ms : Nat) {ro : Outside} (hk : Keeps ro s.outside) : Keeps ro (State.brReset s w source ms).outside := by
  unfold State.brReset
  repeat' (first | with_reducible assumption | with_reducible exact Keeps.refl _ | simp only [↓outside_fst_ite, ↓outside_mk, ↓outside_fold, ↓outside_ite, ite_self, implies_true, ↓State.storeReg_outside, ↓State.refuseReset_outside, ↓State.coldReset_outside, ↓State.warmReset_outside, ↓State.resetDone_outside, ↓State.yardReset_outside] | split | dsimp only | (with_reducible apply keeps_foldl; intro _ _ _) | (with_reducible apply keeps_iter; intro _ _) | with_reducible apply State.partitionReset_keeps | intro _)

end Sys2Proof.Machine
end

