-- ==== Sys2Proof/Laws/KeepStartup.lean ====
section
/-! SUPPORT. Machine/Startup.lean: what its operations leave alone. -/
set_option linter.unusedSimpArgs false
namespace Sys2Proof.Machine

theorem execPowerOn_good (s : State) : Good s.outside (execPowerOn s) := by
  unfold execPowerOn
  repeat' (first | with_reducible exact Keeps.refl _ | with_reducible assumption | with_reducible apply good_next | simp only [↓outside_fst_ite, ↓outside_mk, ↓outside_fold, ↓outside_ite, ite_self, implies_true, ↓State.coldReset_outside] | split | dsimp only | (with_reducible apply keeps_foldl; intro _ _ _) | (with_reducible apply keeps_iter; intro _ _) | intro _)

theorem execHousekeepingDone_good (dt : Nat) (good : Bool) (s : State) : Good s.outside (execHousekeepingDone dt good s) := by
  unfold execHousekeepingDone
  repeat' (first | with_reducible exact Keeps.refl _ | with_reducible assumption | with_reducible apply good_next | simp only [↓outside_fst_ite, ↓outside_mk, ↓outside_fold, ↓outside_ite, ite_self, implies_true, ↓State.tick_outside, ↓State.failStart_outside, ↓State.setFld_outside, ↓State.setRole_outside, ↓State.endStage_outside, ↓State.setReg_outside] | split | dsimp only | (with_reducible apply keeps_foldl; intro _ _ _) | (with_reducible apply keeps_iter; intro _ _) | intro _)

@[simp ↓] theorem State.bootMast_outside (s : State) (m : Bool) (o : BootOutcome) : (State.bootMast s m o).outside = s.outside := by
  unfold State.bootMast
  repeat' (first | simp only [↓outside_fst_ite, ↓outside_mk, ↓outside_fold, ↓outside_ite, ite_self, implies_true, ↓State.useBank_outside, ↓State.setRole_outside] | split | dsimp only | (with_reducible apply outside_foldl'; intro _ _) | (with_reducible apply outside_foldl_fst; intro _ _) | (with_reducible apply outside_iter; intro _))

theorem union_keeps (s : State) : Keeps s.outside
    ⟨s.pending, s.retiredA ++ s.retiredB.filter (fun p => !(s.retiredA.contains p)), s.retiredA ++ s.retiredB.filter (fun p => !(s.retiredA.contains p))⟩ := by
  refine ⟨rfl, fun q hq => List.mem_append.2 (.inl hq), fun q hq => List.mem_append.2 ?_⟩
  by_cases h : q ∈ s.retiredA
  · exact .inl h
  · exact .inr (List.mem_filter.2 ⟨hq, by simpa using h⟩)

theorem union_state (s u : State) (e : u.outside = s.outside) (l : Option (Fin 2)) (ll : Fin 2) (ln bn : Nat) (sl : Bool) : Keeps s.outside
    ({ u with latch := l, lastLatch := ll, latchNs := ln, beatNs := bn, shroudLost := sl,
              retiredA := s.retiredA ++ s.retiredB.filter fun p => !(s.retiredA.contains p),
              retiredB := s.retiredA ++ s.retiredB.filter fun p => !(s.retiredA.contains p) } : State).outside := by
  rw [outside_mk, show u.pending = s.pending from congrArg Outside.pending e]
  exact union_keeps s

theorem execBootDone_good (dt : Nat) (a b : BootOutcome) (s : State) : Good s.outside (execBootDone dt a b s) := by
  unfold execBootDone
  split
  · exact good_next (Keeps.refl _)
  · dsimp only
    split
    · apply good_next
      simp only [↓State.setFlag_outside, ↓State.failStart_outside, ↓State.bootMast_outside, ↓State.tick_outside]
      exact Keeps.refl _
    · apply good_next
      refine Keeps.trans (b := State.outside _) ?_ (union_state _ _ ?_ _ _ _ _ _)
      · apply keeps_of_eq
        repeat' (first | rfl | simp only [↓outside_ite, ↓State.setRole_outside, ↓State.bootMast_outside, ↓State.tick_outside, ite_self] | split)
      · rw [State.endStage_outside, outside_ite, outside_foldl _ (fun t c => by simp only [↓State.setFld_outside]), ite_self]

@[simp ↓] theorem State.setChannels_outside (s : State) (h st : Nat) : (State.setChannels s h st).outside = s.outside := by
  unfold State.setChannels
  repeat' (first | simp only [↓outside_fst_ite, ↓outside_mk, ↓outside_fold, ↓outside_ite, ite_self, implies_true, ↓State.setFld_outside] | split | dsimp only | (with_reducible apply outside_foldl'; intro _ _) | (with_reducible apply outside_foldl_fst; intro _ _) | (with_reducible apply outside_iter; intro _))

theorem execSelftestDone_good (dt : Nat) (r : SelfTest) (s : State) : Good s.outside (execSelftestDone dt r s) := by
  unfold execSelftestDone
  repeat' (first | with_reducible exact Keeps.refl _ | with_reducible assumption | with_reducible apply good_next | simp only [↓outside_fst_ite, ↓outside_mk, ↓outside_fold, ↓outside_ite, ite_self, implies_true, ↓State.tick_outside, ↓State.failStart_outside, ↓State.scrambleSram_outside, ↓State.buildMap_outside, ↓State.setChannels_outside, ↓State.endStage_outside] | split | dsimp only | (with_reducible apply keeps_foldl; intro _ _ _) | (with_reducible apply keeps_iter; intro _ _) | intro _)

@[simp ↓] theorem State.trainStack_outside (s : State) (bad : List StackTest) (h : Nat) : (State.trainStack s bad h).outside = s.outside := by
  unfold State.trainStack
  repeat' (first | simp only [↓outside_fst_ite, ↓outside_mk, ↓outside_fold, ↓outside_ite, ite_self, implies_true, ↓State.setChannels_outside, ↓State.setReg_outside, ↓State.setFld_outside] | split | dsimp only | (with_reducible apply outside_foldl'; intro _ _) | (with_reducible apply outside_foldl_fst; intro _ _) | (with_reducible apply outside_iter; intro _))

theorem execHbmTrainDone_good (dt : Nat) (bad : List StackTest) (s : State) : Good s.outside (execHbmTrainDone dt bad s) := by
  unfold execHbmTrainDone
  repeat' (first | with_reducible exact Keeps.refl _ | with_reducible assumption | with_reducible apply good_next | simp only [↓outside_fst_ite, ↓outside_mk, ↓outside_fold, ↓outside_ite, ite_self, implies_true, ↓State.trainStack_outside, ↓State.tick_outside, ↓State.fresh_outside, ↓State.setFld_outside, ↓State.faultEv_outside, ↓State.endStage_outside] | split | dsimp only | (with_reducible apply keeps_foldl; intro _ _ _) | (with_reducible apply keeps_iter; intro _ _) | refine keeps_eq (State.fresh_pair (by assumption)) ?_ | intro _)

theorem execLinksDone_good (dt : Nat) (s : State) : Good s.outside (execLinksDone dt s) := by
  unfold execLinksDone
  repeat' (first | with_reducible exact Keeps.refl _ | with_reducible assumption | with_reducible apply good_next | simp only [↓outside_fst_ite, ↓outside_mk, ↓outside_fold, ↓outside_ite, ite_self, implies_true, ↓State.tick_outside, ↓State.endStage_outside] | split | dsimp only | (with_reducible apply keeps_foldl; intro _ _ _) | (with_reducible apply keeps_iter; intro _ _) | intro _)

theorem execReady_good (dt : Nat) (s : State) : Good s.outside (execReady dt s) := by
  unfold execReady
  repeat' (first | with_reducible exact Keeps.refl _ | with_reducible assumption | with_reducible apply good_next | simp only [↓outside_fst_ite, ↓outside_mk, ↓outside_fold, ↓outside_ite, ite_self, implies_true, ↓State.tick_outside, ↓State.rebuildFence_outside, ↓State.yardRetired_outside, ↓State.endStage_outside, ↓State.setFld_outside, ↓State.setFlag_outside, ↓State.event_outside] | split | dsimp only | (with_reducible apply keeps_foldl; intro _ _ _) | (with_reducible apply keeps_iter; intro _ _) | intro _)

theorem execCold_good (acc : Acc) (w : W64) (s : State) : Good s.outside (execCold acc w s) := by
  unfold execCold
  repeat' (first | with_reducible exact Keeps.refl _ | with_reducible assumption | with_reducible apply good_next | simp only [↓outside_fst_ite, ↓outside_mk, ↓outside_fold, ↓outside_ite, ite_self, implies_true] | split | dsimp only | (with_reducible apply keeps_foldl; intro _ _ _) | (with_reducible apply keeps_iter; intro _ _) | with_reducible apply State.brReset_keeps | (with_reducible apply State.hostWrite_keeps; intro _ _) | intro _)

theorem execWarm_good (acc : Acc) (w : W64) (s : State) : Good s.outside (execWarm acc w s) := by
  unfold execWarm
  repeat' (first | with_reducible exact Keeps.refl _ | with_reducible assumption | with_reducible apply good_next | simp only [↓outside_fst_ite, ↓outside_mk, ↓outside_fold, ↓outside_ite, ite_self, implies_true] | split | dsimp only | (with_reducible apply keeps_foldl; intro _ _ _) | (with_reducible apply keeps_iter; intro _ _) | with_reducible apply State.brReset_keeps | (with_reducible apply State.hostWrite_keeps; intro _ _) | intro _)

theorem execPartRst_good (acc : Acc) (w : W64) (ms : Nat) (s : State) : Good s.outside (execPartRst acc w ms s) := by
  unfold execPartRst
  repeat' (first | with_reducible exact Keeps.refl _ | with_reducible assumption | with_reducible apply good_next | simp only [↓outside_fst_ite, ↓outside_mk, ↓outside_fold, ↓outside_ite, ite_self, implies_true] | split | dsimp only | (with_reducible apply keeps_foldl; intro _ _ _) | (with_reducible apply keeps_iter; intro _ _) | with_reducible apply State.brReset_keeps | (with_reducible apply State.hostWrite_keeps; intro _ _) | intro _)

theorem execYardRst_good (acc : Acc) (w : W64) (ms : Nat) (s : State) : Good s.outside (execYardRst acc w ms s) := by
  unfold execYardRst
  repeat' (first | with_reducible exact Keeps.refl _ | with_reducible assumption | with_reducible apply good_next | simp only [↓outside_fst_ite, ↓outside_mk, ↓outside_fold, ↓outside_ite, ite_self, implies_true] | split | dsimp only | (with_reducible apply keeps_foldl; intro _ _ _) | (with_reducible apply keeps_iter; intro _ _) | with_reducible apply State.brReset_keeps | (with_reducible apply State.hostWrite_keeps; intro _ _) | intro _)

@[simp ↓] theorem State.hostPortGone_outside (s : State) (b : Bool) : (State.hostPortGone s b).outside = s.outside := by
  unfold State.hostPortGone
  repeat' (first | simp only [↓outside_fst_ite, ↓outside_mk, ↓outside_fold, ↓outside_ite, ite_self, implies_true, ↓State.setReg_outside] | split | dsimp only | (with_reducible apply outside_foldl'; intro _ _) | (with_reducible apply outside_foldl_fst; intro _ _) | (with_reducible apply outside_iter; intro _))

@[simp ↓] theorem State.hostLinkDown_outside (s : State) (b : Bool) : (State.hostLinkDown s b).outside = s.outside := by
  unfold State.hostLinkDown
  repeat' (first | simp only [↓outside_fst_ite, ↓outside_mk, ↓outside_fold, ↓outside_ite, ite_self, implies_true, ↓State.hostPortGone_outside, ↓State.setFld_outside, ↓State.event_outside] | split | dsimp only | (with_reducible apply outside_foldl'; intro _ _) | (with_reducible apply outside_foldl_fst; intro _ _) | (with_reducible apply outside_iter; intro _))

@[simp ↓] theorem State.loseOne_outside (s : State) (i : Nat) : (State.loseOne s i).outside = s.outside := by
  unfold State.loseOne
  repeat' (first | simp only [↓outside_fst_ite, ↓outside_mk, ↓outside_fold, ↓outside_ite, ite_self, implies_true, ↓State.bump_outside, ↓State.retrain_outside, ↓State.setFlag_outside] | split | dsimp only | (with_reducible apply outside_foldl'; intro _ _) | (with_reducible apply outside_foldl_fst; intro _ _) | (with_reducible apply outside_iter; intro _))

@[simp ↓] theorem State.losesBoth_outside (s : State) : (State.losesBoth s).outside = s.outside := by
  unfold State.losesBoth
  repeat' (first | simp only [↓outside_fst_ite, ↓outside_mk, ↓outside_fold, ↓outside_ite, ite_self, implies_true, ↓State.faultEv_outside, ↓State.safeStop_outside, ↓State.setRole_outside] | split | dsimp only | (with_reducible apply outside_foldl'; intro _ _) | (with_reducible apply outside_foldl_fst; intro _ _) | (with_reducible apply outside_iter; intro _))

@[simp ↓] theorem State.loseBoth_outside (s0 : State) (i : Nat) : (State.loseBoth s0 i).outside = s0.outside := by
  unfold State.loseBoth
  repeat' (first | simp only [↓outside_fst_ite, ↓outside_mk, ↓outside_fold, ↓outside_ite, ite_self, implies_true, ↓State.hostLinkDown_outside, ↓State.portLost_outside, ↓State.fresh_outside, ↓State.losesBoth_outside] | split | dsimp only | (with_reducible apply outside_foldl'; intro _ _) | (with_reducible apply outside_foldl_fst; intro _ _) | (with_reducible apply outside_iter; intro _) | refine (State.fresh_pair (by assumption)).trans ?_)

theorem execRefclkLost_good (i : Fin 8) (s : State) : Good s.outside (execRefclkLost i s) := by
  unfold execRefclkLost
  repeat' (first | with_reducible exact Keeps.refl _ | with_reducible assumption | with_reducible apply good_next | simp only [↓outside_fst_ite, ↓outside_mk, ↓outside_fold, ↓outside_ite, ite_self, implies_true, ↓State.setFlag_outside, ↓State.event_outside, ↓State.loseBoth_outside, ↓State.loseOne_outside] | split | dsimp only | (with_reducible apply keeps_foldl; intro _ _ _) | (with_reducible apply keeps_iter; intro _ _) | intro _)

theorem execRefclkRecovered_good (i : Fin 8) (s : State) : Good s.outside (execRefclkRecovered i s) := by
  unfold execRefclkRecovered
  repeat' (first | with_reducible exact Keeps.refl _ | with_reducible assumption | with_reducible apply good_next | simp only [↓outside_fst_ite, ↓outside_mk, ↓outside_fold, ↓outside_ite, ite_self, implies_true, ↓State.setFlag_outside] | split | dsimp only | (with_reducible apply keeps_foldl; intro _ _ _) | (with_reducible apply keeps_iter; intro _ _) | intro _)

theorem execPhyRelockDone_good (east : Fin 2) (s : State) : Good s.outside (execPhyRelockDone east s) := by
  unfold execPhyRelockDone
  repeat' (first | with_reducible exact Keeps.refl _ | with_reducible assumption | with_reducible apply good_next | simp only [↓outside_fst_ite, ↓outside_mk, ↓outside_fold, ↓outside_ite, ite_self, implies_true, ↓State.setFlag_outside] | split | dsimp only | (with_reducible apply keeps_foldl; intro _ _ _) | (with_reducible apply keeps_iter; intro _ _) | intro _)

@[simp ↓] theorem State.setSlow_outside (s : State) : (State.setSlow s).outside = s.outside := by
  unfold State.setSlow
  repeat' (first | simp only [↓outside_fst_ite, ↓outside_mk, ↓outside_fold, ↓outside_ite, ite_self, implies_true, ↓State.setReg_outside] | split | dsimp only | (with_reducible apply outside_foldl'; intro _ _) | (with_reducible apply outside_foldl_fst; intro _ _) | (with_reducible apply outside_iter; intro _))

theorem execYdSenseUpdate_good (dt : Nat) (xs : List YardSense) (s : State) : Good s.outside (execYdSenseUpdate dt xs s) := by
  unfold execYdSenseUpdate
  repeat' (first | with_reducible exact Keeps.refl _ | with_reducible assumption | with_reducible apply good_next | simp only [↓outside_fst_ite, ↓outside_mk, ↓outside_fold, ↓outside_ite, ite_self, implies_true, ↓State.setReg_outside, ↓State.setFld_outside, ↓State.coolDie_outside, ↓State.warmDie_outside, ↓State.tick_outside, ↓State.setSlow_outside] | split | dsimp only | (with_reducible apply keeps_foldl; intro _ _ _) | (with_reducible apply keeps_iter; intro _ _) | intro _)

theorem execTsyncEdge_good (dt : Nat) (s : State) : Good s.outside (execTsyncEdge dt s) := by
  unfold execTsyncEdge
  repeat' (first | with_reducible exact Keeps.refl _ | with_reducible assumption | with_reducible apply good_next | simp only [↓outside_fst_ite, ↓outside_mk, ↓outside_fold, ↓outside_ite, ite_self, implies_true, ↓State.tick_outside, ↓State.setFld_outside, ↓State.setReg_outside, ↓State.setFlag_outside, ↓State.event_outside] | split | dsimp only | (with_reducible apply keeps_foldl; intro _ _ _) | (with_reducible apply keeps_iter; intro _ _) | intro _)

theorem execTsyncTimeout_good (dt : Nat) (s : State) : Good s.outside (execTsyncTimeout dt s) := by
  unfold execTsyncTimeout
  repeat' (first | with_reducible exact Keeps.refl _ | with_reducible assumption | with_reducible apply good_next | simp only [↓outside_fst_ite, ↓outside_mk, ↓outside_fold, ↓outside_ite, ite_self, implies_true, ↓State.tick_outside, ↓State.setFlag_outside, ↓State.event_outside] | split | dsimp only | (with_reducible apply keeps_foldl; intro _ _ _) | (with_reducible apply keeps_iter; intro _ _) | intro _)

theorem execTsyncPulse_good (dt : Nat) (s : State) : Good s.outside (execTsyncPulse dt s) := by
  unfold execTsyncPulse
  repeat' (first | with_reducible exact Keeps.refl _ | with_reducible assumption | with_reducible apply good_next | simp only [↓outside_fst_ite, ↓outside_mk, ↓outside_fold, ↓outside_ite, ite_self, implies_true, ↓State.tick_outside, ↓State.emit_outside] | split | dsimp only | (with_reducible apply keeps_foldl; intro _ _ _) | (with_reducible apply keeps_iter; intro _ _) | intro _)

theorem execArm_good (acc : Acc) (w : W64) (s : State) : Good s.outside (execArm acc w s) := by
  unfold execArm
  repeat' (first | with_reducible exact Keeps.refl _ | with_reducible assumption | with_reducible apply good_next | simp only [↓outside_fst_ite, ↓outside_mk, ↓outside_fold, ↓outside_ite, ite_self, implies_true, ↓State.setFlag_outside] | split | dsimp only | (with_reducible apply keeps_foldl; intro _ _ _) | (with_reducible apply keeps_iter; intro _ _) | (with_reducible apply State.hostWrite_keeps; intro _ _) | intro _)

end Sys2Proof.Machine
end

