-- ==== Sys2Proof/Laws/KeepFlags.lean ====
section
/-! SUPPORT. Machine/Flags.lean: what its operations leave alone. -/
set_option linter.unusedSimpArgs false
namespace Sys2Proof.Machine

@[simp ↓] theorem State.peakAt_outside (s : State) (y : Nat) : (State.peakAt s y).outside = s.outside := by
  unfold State.peakAt
  repeat' (first | simp only [↓outside_fst_ite, ↓outside_mk, ↓outside_fold, ↓outside_ite, ite_self, implies_true, ↓State.setFld_outside] | split | dsimp only | (with_reducible apply outside_foldl'; intro _ _) | (with_reducible apply outside_foldl_fst; intro _ _) | (with_reducible apply outside_iter; intro _))

end Sys2Proof.Machine
end

