-- ==== Sys2Proof/Laws/KeepFabric.lean ====
section
/-! SUPPORT. Machine/Fabric.lean: what its operations leave alone. -/
set_option linter.unusedSimpArgs false
namespace Sys2Proof.Machine

theorem State.whenLive_keeps (s : State) (f : State → State) {ro : Outside}
    (h : ∀ t, Keeps ro t.outside → Keeps ro (f t ).outside) (h0 : Keeps ro s.outside) : Keeps ro (State.whenLive s f).outside := by
  unfold State.whenLive
  repeat' (first | with_reducible assumption | simp only [↓outside_fst_ite, ↓outside_mk, ↓outside_fold, ↓outside_ite, ite_self, implies_true] | split | dsimp only | apply h)

theorem State.whenLive_outside (s : State) (f : State → State) {ro : Outside}
    (h : ∀ t, (f t ).outside = t.outside) (h0 : s.outside = ro) : (State.whenLive s f).outside = ro := by
  unfold State.whenLive
  repeat' (first | exact h0 | simp only [↓outside_fst_ite, ↓outside_mk, ↓outside_fold, ↓outside_ite, ite_self, implies_true] | split | dsimp only | refine (h ..).trans ?_)

@[simp ↓] theorem State.pumpUnit_outside (s : State) (y u : Nat) : (State.pumpUnit s y u).outside = s.outside := by
  unfold State.pumpUnit
  repeat' (first | simp only [↓outside_fst_ite, ↓outside_mk, ↓outside_fold, ↓outside_ite, ite_self, implies_true, ↓State.setInQueue_outside, ↓State.setUnit_outside] | split | dsimp only | (with_reducible apply outside_foldl'; intro _ _) | (with_reducible apply outside_foldl_fst; intro _ _) | (with_reducible apply outside_iter; intro _))

@[simp ↓] theorem State.pumpOut_outside (s : State) (y u : Nat) : (State.pumpOut s y u).outside = s.outside := by
  unfold State.pumpOut
  repeat' (first | simp only [↓outside_fst_ite, ↓outside_mk, ↓outside_fold, ↓outside_ite, ite_self, implies_true, ↓State.pumpUnit_outside, ↓State.setUnit_outside] | split | dsimp only | (with_reducible apply outside_foldl'; intro _ _) | (with_reducible apply outside_foldl_fst; intro _ _) | (with_reducible apply outside_iter; intro _))

@[simp ↓] theorem State.slotGone_outside (s : State) (x : InjTok) : (State.slotGone s x).outside = s.outside := by
  unfold State.slotGone
  repeat' (first | simp only [↓outside_fst_ite, ↓outside_mk, ↓outside_fold, ↓outside_ite, ite_self, implies_true, ↓State.freeSlot_outside, ↓State.sendLink_outside] | split | dsimp only | (with_reducible apply outside_foldl'; intro _ _) | (with_reducible apply outside_foldl_fst; intro _ _) | (with_reducible apply outside_iter; intro _))

@[simp ↓] theorem State.pumpInject_outside (s : State) : (State.pumpInject s).outside = s.outside := by
  unfold State.pumpInject
  repeat' (first | simp only [↓outside_fst_ite, ↓outside_mk, ↓outside_fold, ↓outside_ite, ite_self, implies_true, ↓State.setInQueue_outside, ↓State.slotGone_outside] | split | dsimp only | (with_reducible apply outside_foldl'; intro _ _) | (with_reducible apply outside_foldl_fst; intro _ _) | (with_reducible apply outside_iter; intro _))

@[simp ↓] theorem State.copyTo_outside (s : State) (y p k : Nat) (t : Token) (o : Nat × Nat) : (State.copyTo s y p k t o).outside = s.outside := by
  unfold State.copyTo
  repeat' (first | simp only [↓outside_fst_ite, ↓outside_mk, ↓outside_fold, ↓outside_ite, ite_self, implies_true, ↓State.setSwitch_outside, ↓State.putOut_outside, ↓State.progressY_outside] | split | dsimp only | (with_reducible apply outside_foldl'; intro _ _) | (with_reducible apply outside_foldl_fst; intro _ _) | (with_reducible apply outside_iter; intro _))

@[simp ↓] theorem State.popHead_outside (s : State) (y k : Nat) : (State.popHead s y k).outside = s.outside := by
  unfold State.popHead
  repeat' (first | simp only [↓outside_fst_ite, ↓outside_mk, ↓outside_fold, ↓outside_ite, ite_self, implies_true, ↓State.setSwitch_outside, ↓State.pumpOut_outside, ↓State.pumpInject_outside] | split | dsimp only | (with_reducible apply outside_foldl'; intro _ _) | (with_reducible apply outside_foldl_fst; intro _ _) | (with_reducible apply outside_iter; intro _))

@[simp ↓] theorem State.routeHead_outside (s : State) (y p k : Nat) (flip : BitVec 32) : (State.routeHead s y p k flip).outside = s.outside := by
  unfold State.routeHead
  repeat' (first | simp only [↓outside_fst_ite, ↓outside_mk, ↓outside_fold, ↓outside_ite, ite_self, implies_true, ↓State.fresh_outside, ↓State.setSwitch_outside, ↓State.ctrlError_outside, ↓State.popHead_outside, ↓State.stray_outside, ↓State.copyTo_outside] | split | dsimp only | (with_reducible apply outside_foldl'; intro _ _) | (with_reducible apply outside_foldl_fst; intro _ _) | (with_reducible apply outside_iter; intro _) | refine (State.fresh_pair (by assumption)).trans ?_)

theorem execTokenRoute_good (y : Yard) (src : SwPort) (lane : Lane) (flip : BitVec 32) (s : State) : Good s.outside (execTokenRoute y src lane flip s) := by
  unfold execTokenRoute
  repeat' (first | with_reducible exact Keeps.refl _ | with_reducible assumption | with_reducible apply good_next | simp only [↓outside_fst_ite, ↓outside_mk, ↓outside_fold, ↓outside_ite, ite_self, implies_true, ↓State.routeHead_outside] | split | dsimp only | (with_reducible apply keeps_foldl; intro _ _ _) | (with_reducible apply keeps_iter; intro _ _) | (with_reducible apply State.whenLive_keeps; intro _ _) | intro _)

@[simp ↓] theorem State.putRail_outside (s : State) (p o : Nat) (r : Rail) (c : BitVec 96) : (State.putRail s p o r c).outside = s.outside := by
  unfold State.putRail
  repeat' (first | simp only [↓outside_fst_ite, ↓outside_mk, ↓outside_fold, ↓outside_ite, ite_self, implies_true, ↓State.onWire_outside] | split | dsimp only | (with_reducible apply outside_foldl'; intro _ _) | (with_reducible apply outside_foldl_fst; intro _ _) | (with_reducible apply outside_iter; intro _))

theorem execCrossingPass_good (p : PhysYard) (dir : Edge) (lane : XLane) (flip : BitVec 32) (s : State) : Good s.outside (execCrossingPass p dir lane flip s) := by
  unfold execCrossingPass
  repeat' (first | with_reducible exact Keeps.refl _ | with_reducible assumption | with_reducible apply good_next | simp only [↓outside_fst_ite, ↓outside_mk, ↓outside_fold, ↓outside_ite, ite_self, implies_true, ↓State.putRail_outside, ↓State.putOut_outside, ↓State.pumpInject_outside] | split | dsimp only | (with_reducible apply keeps_foldl; intro _ _ _) | (with_reducible apply keeps_iter; intro _ _) | (with_reducible apply State.whenLive_keeps; intro _ _) | intro _)

@[simp ↓] theorem State.deliver_outside (s : State) (y e : Nat) (c : BitVec 96) : (State.deliver s y e c).outside = s.outside := by
  unfold State.deliver
  repeat' (first | simp only [↓outside_fst_ite, ↓outside_mk, ↓outside_fold, ↓outside_ite, ite_self, implies_true, ↓State.setInQueue_outside, ↓State.progressY_outside] | split | dsimp only | (with_reducible apply outside_foldl'; intro _ _) | (with_reducible apply outside_foldl_fst; intro _ _) | (with_reducible apply outside_iter; intro _))

@[simp ↓] theorem State.passFirsts_outside (s : State) (y e : Nat) : (State.passFirsts s y e).outside = s.outside := by
  unfold State.passFirsts
  repeat' (first | simp only [↓outside_fst_ite, ↓outside_mk, ↓outside_fold, ↓outside_ite, ite_self, implies_true, ↓State.deliver_outside, ↓State.setLink_outside] | split | dsimp only | (with_reducible apply outside_foldl'; intro _ _) | (with_reducible apply outside_foldl_fst; intro _ _) | (with_reducible apply outside_iter; intro _))

@[simp ↓] theorem State.loseRail_outside (s : State) (y e : Nat) (r : Rail) (otherOut : Bool) : (State.loseRail s y e r otherOut).outside = s.outside := by
  unfold State.loseRail
  repeat' (first | simp only [↓outside_fst_ite, ↓outside_mk, ↓outside_fold, ↓outside_ite, ite_self, implies_true, ↓State.setLink_outside, ↓State.ctrlError_outside] | split | dsimp only | (with_reducible apply outside_foldl'; intro _ _) | (with_reducible apply outside_foldl_fst; intro _ _) | (with_reducible apply outside_iter; intro _))

@[simp ↓] theorem State.railDown_outside (s : State) (y e : Nat) (r : Rail) : (State.railDown s y e r).outside = s.outside := by
  unfold State.railDown
  repeat' (first | simp only [↓outside_fst_ite, ↓outside_mk, ↓outside_fold, ↓outside_ite, ite_self, implies_true, ↓State.setFlag_outside, ↓State.event_outside, ↓State.yardHit_outside, ↓State.loseRail_outside] | split | dsimp only | (with_reducible apply outside_foldl'; intro _ _) | (with_reducible apply outside_foldl_fst; intro _ _) | (with_reducible apply outside_iter; intro _))

@[simp ↓] theorem State.changeRails_outside (s t : State) (y : Nat) : (State.changeRails s t y).outside = t.outside := by
  unfold State.changeRails
  repeat' (first | simp only [↓outside_fst_ite, ↓outside_mk, ↓outside_fold, ↓outside_ite, ite_self, implies_true, ↓State.gainRails_outside, ↓State.loseRail_outside] | split | dsimp only | (with_reducible apply outside_foldl'; intro _ _) | (with_reducible apply outside_foldl_fst; intro _ _) | (with_reducible apply outside_iter; intro _))

@[simp ↓] theorem State.second_outside (s : State) (y e : Nat) (f : RailCopy) (rest : List RailCopy) (c : BitVec 96) (good : Bool) : (State.second s y e f rest c good).outside = s.outside := by
  unfold State.second
  repeat' (first | simp only [↓outside_fst_ite, ↓outside_mk, ↓outside_fold, ↓outside_ite, ite_self, implies_true, ↓State.setLink_outside, ↓State.deliver_outside, ↓State.passFirsts_outside, ↓State.ctrlError_outside] | split | dsimp only | (with_reducible apply outside_foldl'; intro _ _) | (with_reducible apply outside_foldl_fst; intro _ _) | (with_reducible apply outside_iter; intro _))

@[simp ↓] theorem State.takeCopy_outside (s : State) (y e : Nat) (r : Rail) (c : BitVec 96) : (State.takeCopy s y e r c).outside = s.outside := by
  unfold State.takeCopy
  repeat' (first | simp only [↓outside_fst_ite, ↓outside_mk, ↓outside_fold, ↓outside_ite, ite_self, implies_true, ↓State.setLink_outside, ↓State.bump_outside, ↓State.event_outside, ↓State.passFirsts_outside, ↓State.railDown_outside, ↓State.second_outside, ↓State.deliver_outside, ↓State.ctrlError_outside] | split | dsimp only | (with_reducible apply outside_foldl'; intro _ _) | (with_reducible apply outside_foldl_fst; intro _ _) | (with_reducible apply outside_iter; intro _))

theorem execHalyardCopyReceive_good (y : Yard) (e : Edge) (rail : Rail) (flip : BitVec 96) (s : State) : Good s.outside (execHalyardCopyReceive y e rail flip s) := by
  unfold execHalyardCopyReceive
  repeat' (first | with_reducible exact Keeps.refl _ | with_reducible assumption | with_reducible apply good_next | simp only [↓outside_fst_ite, ↓outside_mk, ↓outside_fold, ↓outside_ite, ite_self, implies_true, ↓State.setLink_outside, ↓State.ctrlError_outside, ↓State.takeCopy_outside] | split | dsimp only | (with_reducible apply keeps_foldl; intro _ _ _) | (with_reducible apply keeps_iter; intro _ _) | (with_reducible apply State.whenLive_keeps; intro _ _) | intro _)

theorem execRailRetry_good (acc : Acc) (y : Yard) (w : W64) (s : State) : Good s.outside (execRailRetry acc y w s) := by
  unfold execRailRetry
  repeat' (first | with_reducible exact Keeps.refl _ | with_reducible assumption | with_reducible apply good_next | simp only [↓outside_fst_ite, ↓outside_mk, ↓outside_fold, ↓outside_ite, ite_self, implies_true, ↓State.storeReg_outside, ↓State.setFld_outside, ↓State.changeRails_outside] | split | dsimp only | (with_reducible apply keeps_foldl; intro _ _ _) | (with_reducible apply keeps_iter; intro _ _) | (with_reducible apply State.hostWrite_keeps; intro _ _) | intro _)

end Sys2Proof.Machine
end

