-- ==== Sys2Proof/Laws/KeepUnitOps.lean ====
section
/-! SUPPORT. Machine/UnitOps.lean: what its operations leave alone. -/
set_option linter.unusedSimpArgs false
namespace Sys2Proof.Machine

@[simp ↓] theorem State.tsPeak_outside (s : State) (y n : Nat) : (State.tsPeak s y n).outside = s.outside := by
  unfold State.tsPeak
  repeat' (first | simp only [↓outside_fst_ite, ↓outside_mk, ↓outside_fold, ↓outside_ite, ite_self, implies_true, ↓State.setFld_outside] | split | dsimp only | (with_reducible apply outside_foldl'; intro _ _) | (with_reducible apply outside_foldl_fst; intro _ _) | (with_reducible apply outside_iter; intro _))

@[simp ↓] theorem State.parkAt_outside (s : State) (y u p : Nat) : (State.parkAt s y u p).outside = s.outside := by
  unfold State.parkAt
  repeat' (first | simp only [↓outside_fst_ite, ↓outside_mk, ↓outside_fold, ↓outside_ite, ite_self, implies_true, ↓State.setUnit_outside, ↓State.tsPeak_outside, ↓State.progressY_outside, ↓State.tagOverflow_outside] | split | dsimp only | (with_reducible apply outside_foldl'; intro _ _) | (with_reducible apply outside_foldl_fst; intro _ _) | (with_reducible apply outside_iter; intro _))

@[simp ↓] theorem State.parkForeign_outside (s : State) (y u : Nat) : (State.parkForeign s y u).outside = s.outside := by
  unfold State.parkForeign
  repeat' (first | simp only [↓outside_fst_ite, ↓outside_mk, ↓outside_fold, ↓outside_ite, ite_self, implies_true, ↓State.parkAt_outside] | split | dsimp only | (with_reducible apply outside_foldl'; intro _ _) | (with_reducible apply outside_foldl_fst; intro _ _) | (with_reducible apply outside_iter; intro _))

end Sys2Proof.Machine
end

