-- ==== Sys2Proof/Laws/KeepFireOps.lean ====
section
/-! SUPPORT. Machine/FireOps.lean: what its operations leave alone. -/
set_option linter.unusedSimpArgs false
namespace Sys2Proof.Machine

@[simp ↓] theorem State.mismatch_outside (s : State) (y u o : Nat) : (State.mismatch s y u o).outside = s.outside := by
  unfold State.mismatch
  repeat' (first | simp only [↓outside_fst_ite, ↓outside_mk, ↓outside_fold, ↓outside_ite, ite_self, implies_true, ↓State.bump_outside, ↓State.event_outside] | split | dsimp only | (with_reducible apply outside_foldl'; intro _ _) | (with_reducible apply outside_foldl_fst; intro _ _) | (with_reducible apply outside_iter; intro _))

@[simp ↓] theorem State.stepNf_outside (s : State) (x : UnitState) (r : CfgRec) (n : Nat) : (State.stepNf s x r n).outside = s.outside := by
  unfold State.stepNf
  repeat' (first | simp only [↓outside_fst_ite, ↓outside_mk, ↓outside_fold, ↓outside_ite, ite_self, implies_true, ↓State.bump_outside] | split | dsimp only | (with_reducible apply outside_foldl'; intro _ _) | (with_reducible apply outside_foldl_fst; intro _ _) | (with_reducible apply outside_iter; intro _))

@[simp ↓] theorem State.countNf_outside (s : State) (y u : Nat) (x : UnitState) (r : CfgRec) (n : Nat) : (State.countNf s y u x r n).outside = s.outside := by
  unfold State.countNf
  repeat' (first | simp only [↓outside_fst_ite, ↓outside_mk, ↓outside_fold, ↓outside_ite, ite_self, implies_true, ↓State.bump_outside, ↓State.event_outside, ↓State.stepNf_outside] | split | dsimp only | (with_reducible apply outside_foldl'; intro _ _) | (with_reducible apply outside_foldl_fst; intro _ _) | (with_reducible apply outside_iter; intro _))

@[simp ↓] theorem State.markMu_outside (s : State) (y u : Nat) (x : UnitState) (f : Firing) (r : CfgRec) (bad : Bool) : (State.markMu s y u x f r bad).outside = s.outside := by
  unfold State.markMu
  repeat' (first | simp only [↓outside_fst_ite, ↓outside_mk, ↓outside_fold, ↓outside_ite, ite_self, implies_true, ↓State.setUnit_outside, ↓State.bump_outside, ↓State.mismatch_outside, ↓State.pumpOut_outside] | split | dsimp only | (with_reducible apply outside_foldl'; intro _ _) | (with_reducible apply outside_foldl_fst; intro _ _) | (with_reducible apply outside_iter; intro _))

@[simp ↓] theorem State.muBuffer_outside (s : State) (k : Nat) (q : MuPlan) (o : MuOps) : (State.muBuffer s k q o).outside = s.outside := by
  unfold State.muBuffer
  repeat' (first | simp only [↓outside_fst_ite, ↓outside_mk, ↓outside_fold, ↓outside_ite, ite_self, implies_true, ↓State.fresh_outside] | split | dsimp only | (with_reducible apply outside_foldl'; intro _ _) | (with_reducible apply outside_foldl_fst; intro _ _) | (with_reducible apply outside_iter; intro _) | refine (State.fresh_pair (by assumption)).trans ?_)

@[simp ↓] theorem State.formMu_outside (s : State) (y u : Nat) (x : UnitState) (f : Firing) (r : CfgRec) : (State.formMu s y u x f r).outside = s.outside := by
  unfold State.formMu
  repeat' (first | simp only [↓outside_fst_ite, ↓outside_mk, ↓outside_fold, ↓outside_ite, ite_self, implies_true, ↓State.markMu_outside, ↓State.emit_outside, ↓State.muBuffer_outside, ↓State.setUnit_outside, ↓State.waitNs_outside, ↓State.bump_outside, ↓State.countNf_outside, ↓State.mismatch_outside, ↓State.pumpOut_outside] | split | dsimp only | (with_reducible apply outside_foldl'; intro _ _) | (with_reducible apply outside_foldl_fst; intro _ _) | (with_reducible apply outside_iter; intro _))

@[simp ↓] theorem State.foldAmax_outside (s : State) (e : Nat) (a : AmaxRec) : (State.foldAmax s e a).outside = s.outside := by
  unfold State.foldAmax
  repeat' (first | simp only [↓outside_fst_ite, ↓outside_mk, ↓outside_fold, ↓outside_ite, ite_self, implies_true, ↓State.setFld_outside, ↓State.bumpFld_outside] | split | dsimp only | (with_reducible apply outside_foldl'; intro _ _) | (with_reducible apply outside_foldl_fst; intro _ _) | (with_reducible apply outside_iter; intro _))

@[simp ↓] theorem State.releaseTiles_outside (s : State) (y m : Nat) (es : List Nat) : (State.releaseTiles s y m es).outside = s.outside := by
  unfold State.releaseTiles
  repeat' (first | simp only [↓outside_fst_ite, ↓outside_mk, ↓outside_fold, ↓outside_ite, ite_self, implies_true, ↓State.setUnit_outside] | split | dsimp only | (with_reducible apply outside_foldl'; intro _ _) | (with_reducible apply outside_foldl_fst; intro _ _) | (with_reducible apply outside_iter; intro _))

@[simp ↓] theorem State.vuRegs_outside (s : State) (y u : Nat) (x : UnitState) (q : VuPlan) : (State.vuRegs s y u x q).2.outside = s.outside := by
  unfold State.vuRegs
  repeat' (first | simp only [↓outside_fst_ite, ↓outside_mk, ↓outside_fold, ↓outside_ite, ite_self, implies_true, ↓State.fresh_outside] | split | dsimp only | rfl | refine (State.fresh_pair (by assumption)).trans ?_ | (with_reducible apply outside_foldl'; intro _ _) | (with_reducible apply outside_foldl_fst; intro _ _))

theorem State.vuRegs_pair {s : State} {y u : Nat} {x : UnitState} {q : VuPlan} {b1 : Option Mem} {t1 : State} (e : State.vuRegs s y u x q = (b1, t1)) : t1.outside = s.outside := by
  have k := State.vuRegs_outside s y u x q
  rw [e] at k; exact k

@[simp ↓] theorem State.formVu_outside (s : State) (y u : Nat) (x : UnitState) (f : Firing) (r : CfgRec) : (State.formVu s y u x f r).outside = s.outside := by
  unfold State.formVu
  repeat' (first | simp only [↓outside_fst_ite, ↓outside_mk, ↓outside_fold, ↓outside_ite, ite_self, implies_true, ↓State.setUnit_outside, ↓State.bump_outside, ↓State.mismatch_outside, ↓State.pumpOut_outside, ↓State.vuRegs_outside, ↓State.waitNs_outside, ↓State.countNf_outside, ↓State.foldAmax_outside, ↓State.releaseTiles_outside] | split | dsimp only | (with_reducible apply outside_foldl'; intro _ _) | (with_reducible apply outside_foldl_fst; intro _ _) | (with_reducible apply outside_iter; intro _) | refine (State.vuRegs_pair (by assumption)).trans ?_)

@[simp ↓] theorem State.suWrite_outside (s : State) (y : Nat) (pl : SuPlace) (bs : List Byte) : (State.suWrite s y pl bs).outside = s.outside := by
  unfold State.suWrite
  repeat' (first | simp only [↓outside_fst_ite, ↓outside_mk, ↓outside_fold, ↓outside_ite, ite_self, implies_true] | split | dsimp only | (with_reducible apply outside_foldl'; intro _ _) | (with_reducible apply outside_foldl_fst; intro _ _) | (with_reducible apply outside_iter; intro _))

@[simp ↓] theorem State.suAsk_outside (s : State) (y u p : Nat) (q : SuPlan) (write emit : Bool) (rs : List (Nat × Nat)) : (State.suAsk s y u p q write emit rs).outside = s.outside := by
  unfold State.suAsk
  repeat' (first | simp only [↓outside_fst_ite, ↓outside_mk, ↓outside_fold, ↓outside_ite, ite_self, implies_true, ↓State.setUnit_outside, ↓State.emit_outside, ↓State.toSlice_outside] | split | dsimp only | (with_reducible apply outside_foldl'; intro _ _) | (with_reducible apply outside_foldl_fst; intro _ _) | (with_reducible apply outside_iter; intro _))

@[simp ↓] theorem State.suFault_outside (s : State) (y u : Nat) (x : UnitState) (write : Bool) (code cause addr : Nat) : (State.suFault s y u x write code cause addr).outside = s.outside := by
  unfold State.suFault
  repeat' (first | simp only [↓outside_fst_ite, ↓outside_mk, ↓outside_fold, ↓outside_ite, ite_self, implies_true, ↓State.fabricFault_outside] | split | dsimp only | (with_reducible apply outside_foldl'; intro _ _) | (with_reducible apply outside_foldl_fst; intro _ _) | (with_reducible apply outside_iter; intro _))

@[simp ↓] theorem State.blockLost_outside (s : State) (y u : Nat) (x : UnitState) (write : Bool) (id : Nat) : (State.blockLost s y u x write id).outside = s.outside := by
  unfold State.blockLost
  repeat' (first | simp only [↓outside_fst_ite, ↓outside_mk, ↓outside_fold, ↓outside_ite, ite_self, implies_true, ↓State.event_outside, ↓State.faultEv_outside, ↓State.sdLost_outside, ↓State.suFault_outside] | split | dsimp only | (with_reducible apply outside_foldl'; intro _ _) | (with_reducible apply outside_foldl_fst; intro _ _) | (with_reducible apply outside_iter; intro _))

@[simp ↓] theorem SuRun.ask_outside (z : SuRun) (y u p : Nat) (q : SuPlan) (w e : Bool) : (z.ask y u p q w e).outside = z.s.outside := by
  simp only [SuRun.ask, ↓State.suAsk_outside]

@[simp ↓] theorem State.suDone_outside (s : State) (y u : Nat) (f : Firing) (toks : List OutTok) (mark bad : Bool) (rd wr : Nat) : (State.suDone s y u f toks mark bad rd wr).outside = s.outside := by
  unfold State.suDone
  repeat' (first | simp only [↓outside_fst_ite, ↓outside_mk, ↓outside_fold, ↓outside_ite, ite_self, implies_true, ↓State.setUnit_outside, ↓State.waitNs_outside, ↓State.bump_outside, ↓State.mismatch_outside, ↓State.pumpOut_outside] | split | dsimp only | (with_reducible apply outside_foldl'; intro _ _) | (with_reducible apply outside_foldl_fst; intro _ _) | (with_reducible apply outside_iter; intro _))

theorem outside_foldl_run {α : Type} (f : SuRun → α → SuRun) (l : List α) (z : SuRun) {ro : Outside}
    (h : ∀ a x, (f a x).s.outside = a.s.outside) (h0 : z.s.outside = ro) : (l.foldl f z).s.outside = ro := by
  induction l generalizing z with
  | nil => exact h0
  | cons x l ih => exact ih _ ((h z x).trans h0)

theorem outside_foldl_runs {α β : Type} (f : SuRun × β → α → SuRun × β) (l : List α) (z : SuRun × β) {ro : Outside}
    (h : ∀ a x, (f a x).1.s.outside = a.1.s.outside) (h0 : z.1.s.outside = ro) : (l.foldl f z).1.s.outside = ro := by
  induction l generalizing z with
  | nil => exact h0
  | cons x l ih => exact ih _ ((h z x).trans h0)

@[simp ↓] theorem SuRun.touch_outside (z : SuRun) (t : State) (pl : SuPlace) (n : Nat) : (z.touch t pl n).s.outside = t.outside := rfl

theorem SuRun.stop_outside (z : SuRun) (y u p : Nat) (q : SuPlan) (w : Bool) (fail : State → State) (h : ∀ t, (fail t).outside = t.outside) :
    (z.stop y u p q w fail).s.outside = z.s.outside := (h _).trans (SuRun.ask_outside ..)

@[simp ↓] theorem SuRun.read_outside (z : SuRun) (y u p : Nat) (x : UnitState) (r : ResRec) (q : SuPlan) (a : Nat × Nat) :
    (z.read y u p x r q a).s.outside = z.s.outside := by
  unfold SuRun.read
  repeat' (first | rfl | simp only [↓State.suFault_outside, ↓SuRun.touch_outside] | (refine SuRun.stop_outside _ _ _ _ _ _ _ ?_; intro _) | split)

@[simp ↓] theorem SuRun.write_outside (z : SuRun) (y u p : Nat) (x : UnitState) (r : ResRec) (q : SuPlan) (a : Nat × Nat) (bs : List Byte) :
    (z.write y u p x r q a bs).s.outside = z.s.outside := by
  unfold SuRun.write
  repeat' (first | rfl | simp only [↓State.suFault_outside, ↓SuRun.touch_outside, ↓State.suWrite_outside] | (refine SuRun.stop_outside _ _ _ _ _ _ _ ?_; intro _) | split)

@[simp ↓] theorem SuRun.block_outside (z : SuRun) (y u p : Nat) (x : UnitState) (q : SuPlan) (w : Bool) (j v id : Nat) (ecc : Ecc) :
    (z.block y u p x q w j v id ecc).1.s.outside = z.s.outside := by
  unfold SuRun.block
  repeat' (first | rfl | simp only [↓State.suFault_outside, ↓State.blockLost_outside, ↓outside_ite, ↓State.bump_outside, ite_self] |
    (refine (SuRun.stop_outside _ _ _ _ _ _ _ ?_).trans ?_; (intro _)) | split | dsimp only)

theorem SuRun.block_pair {z : SuRun} {y u p : Nat} {x : UnitState} {q : SuPlan} {w : Bool} {j v id : Nat} {ecc : Ecc} {b1 : SuRun}
    {o : Option (Nat × Nat)} (e : z.block y u p x q w j v id ecc = (b1, o)) : b1.s.outside = z.s.outside := by
  have k := z.block_outside y u p x q w j v id ecc
  rw [e] at k; exact k

@[simp ↓] theorem State.formRead_outside (s : State) (y u : Nat) (x : UnitState) (f : Firing) (r : CfgRec) (q : SuPlan) (p v : Nat) (res : ResRec)
    (sd : Ecc) : (State.formRead s y u x f r q p v res sd).outside = s.outside := by
  unfold State.formRead
  repeat' (first | rfl | simp only [↓State.suDone_outside, ↓SuRun.ask_outside, ↓SuRun.touch_outside, ↓SuRun.read_outside] | exact SuRun.block_pair (by assumption) | split | (apply outside_foldl_run; intro _ _) | (apply outside_foldl_runs; intro _ _) | dsimp only)

@[simp ↓] theorem State.suNotice_outside (s : State) (r : CfgRec) (f : Firing) (mark : Bool) : (State.suNotice s r f mark).2.outside = s.outside := by
  unfold State.suNotice
  repeat' (first | simp only [↓outside_fst_ite, ↓outside_mk, ↓outside_fold, ↓outside_ite, ite_self, implies_true, ↓State.fresh_outside] | split | dsimp only | rfl | refine (State.fresh_pair (by assumption)).trans ?_ | (with_reducible apply outside_foldl'; intro _ _) | (with_reducible apply outside_foldl_fst; intro _ _))

theorem State.suNotice_pair {s : State} {r : CfgRec} {f : Firing} {mark : Bool} {b1 : List OutTok} {t1 : State} (e : State.suNotice s r f mark = (b1, t1)) : t1.outside = s.outside := by
  have k := State.suNotice_outside s r f mark
  rw [e] at k; exact k

/-- What ends a write: the requests, the notice and the end of the firing, unless it faulted. -/
theorem su_fin_outside (z : SuRun) (y u p : Nat) (q : SuPlan) (r : CfgRec) (f : Firing) (mark bad : Bool) :
    (if z.stopped then z.s else (match (z.ask y u p q true false).suNotice r f mark with
      | (ts, s1) => s1.suDone y u f ts mark bad 0 z.bytes)).outside = z.s.outside := by
  repeat' (first | rfl | simp only [↓State.suNotice_outside, ↓State.suDone_outside, ↓SuRun.ask_outside] | split | refine (State.suNotice_pair (by assumption)).trans ?_)

@[simp ↓] theorem State.formWrite_outside (s : State) (y u : Nat) (x : UnitState) (f : Firing) (r : CfgRec) (q : SuPlan) (p v : Nat) (res : ResRec)
    (sd : Ecc) : (State.formWrite s y u x f r q p v res sd).outside = s.outside := by
  unfold State.formWrite
  repeat' (first | rfl | simp only [↓su_fin_outside, ↓State.suNotice_outside, ↓State.suDone_outside, ↓State.suWrite_outside, ↓SuRun.write_outside, ↓SuRun.touch_outside] | exact SuRun.block_pair (by assumption) | split | refine (SuRun.ask_outside ..).trans ?_ | exact (State.suWrite_outside ..).trans (SuRun.block_pair (by assumption)) | (apply outside_foldl_run; intro _ _) | (apply outside_foldl_runs; intro _ _) | dsimp only)

@[simp ↓] theorem State.formDelay_outside (s : State) (y u : Nat) (x : UnitState) (f : Firing) (r : CfgRec) (q : SuPlan) (p : Nat) (res : ResRec) :
    (State.formDelay s y u x f r q p res).outside = s.outside := by
  unfold State.formDelay
  repeat' (first | rfl | simp only [↓State.suDone_outside, ↓State.suFault_outside, ↓State.setUnit_outside, ↓SuRun.ask_outside, ↓SuRun.write_outside] | (refine (SuRun.stop_outside _ _ _ _ _ _ _ ?_).trans ?_; (intro _)) | split | (apply outside_foldl_run; intro _ _) | dsimp only)

@[simp ↓] theorem State.formSu_outside (s : State) (y u : Nat) (x : UnitState) (f : Firing) (r : CfgRec) (sd : Ecc) : (State.formSu s y u x f r sd).outside = s.outside := by
  unfold State.formSu
  repeat' (first | simp only [↓outside_fst_ite, ↓outside_mk, ↓outside_fold, ↓outside_ite, ite_self, implies_true, ↓State.formRead_outside, ↓State.formDelay_outside, ↓State.formWrite_outside] | split | dsimp only | (with_reducible apply outside_foldl'; intro _ _) | (with_reducible apply outside_foldl_fst; intro _ _) | (with_reducible apply outside_iter; intro _))

@[simp ↓] theorem State.tryForm_outside (s : State) (y u : Nat) (sd : Ecc) : (State.tryForm s y u sd).outside = s.outside := by
  unfold State.tryForm
  repeat' (first | simp only [↓outside_fst_ite, ↓outside_mk, ↓outside_fold, ↓outside_ite, ite_self, implies_true, ↓State.formMu_outside, ↓State.formVu_outside, ↓State.formSu_outside] | split | dsimp only | (with_reducible apply outside_foldl'; intro _ _) | (with_reducible apply outside_foldl_fst; intro _ _) | (with_reducible apply outside_iter; intro _))

@[simp ↓] theorem State.beginFire_outside (s : State) (y u j t : Nat) (uses : List Nat) (body : Nat) (sd : Ecc) : (State.beginFire s y u j t uses body sd).outside = s.outside := by
  unfold State.beginFire
  repeat' (first | simp only [↓outside_fst_ite, ↓outside_mk, ↓outside_fold, ↓outside_ite, ite_self, implies_true, ↓State.setUnit_outside, ↓State.tryForm_outside, ↓State.progressY_outside] | split | dsimp only | (with_reducible apply outside_foldl'; intro _ _) | (with_reducible apply outside_foldl_fst; intro _ _) | (with_reducible apply outside_iter; intro _))

@[simp ↓] theorem State.decideFiring_outside (s : State) (y u : Nat) (sd : Ecc) : (State.decideFiring s y u sd).outside = s.outside := by
  unfold State.decideFiring
  repeat' (first | simp only [↓outside_fst_ite, ↓outside_mk, ↓outside_fold, ↓outside_ite, ite_self, implies_true, ↓State.parkForeign_outside, ↓State.setUnit_outside, ↓State.tryForm_outside, ↓State.beginFire_outside, ↓State.parkAt_outside] | split | dsimp only | (with_reducible apply outside_foldl'; intro _ _) | (with_reducible apply outside_foldl_fst; intro _ _) | (with_reducible apply outside_iter; intro _))

@[simp ↓] theorem State.endFiring_outside (s : State) (y u : Nat) : (State.endFiring s y u).outside = s.outside := by
  unfold State.endFiring
  repeat' (first | simp only [↓outside_fst_ite, ↓outside_mk, ↓outside_fold, ↓outside_ite, ite_self, implies_true, ↓State.setUnit_outside, ↓State.pumpOut_outside, ↓State.progressY_outside] | split | dsimp only | (with_reducible apply outside_foldl'; intro _ _) | (with_reducible apply outside_foldl_fst; intro _ _) | (with_reducible apply outside_iter; intro _))

end Sys2Proof.Machine
end

