-- ==== Sys2Proof/Laws/KeepFiring.lean ====
section
/-! SUPPORT. Machine/Firing.lean: what its operations leave alone. -/
set_option linter.unusedSimpArgs false
namespace Sys2Proof.Machine

theorem execUnitTokenArrive_good (y : Yard) (u : UnitId) (lane : Lane) (flip : BitVec 32) (s : State) : Good s.outside (execUnitTokenArrive y u lane flip s) := by
  unfold execUnitTokenArrive
  repeat' (first | with_reducible exact Keeps.refl _ | with_reducible assumption | with_reducible apply good_next | simp only [↓outside_fst_ite, ↓outside_mk, ↓outside_fold, ↓outside_ite, ite_self, implies_true, ↓State.takeOffer_outside, ↓State.ctrlError_outside, ↓State.stray_outside, ↓State.setUnit_outside, ↓State.tryForm_outside, ↓State.progressY_outside] | split | dsimp only | (with_reducible apply keeps_foldl; intro _ _ _) | (with_reducible apply keeps_iter; intro _ _) | (with_reducible apply State.whenLive_keeps; intro _ _) | intro _)

theorem execFiringDecision_good (y : Yard) (u : UnitId × Ecc) (s : State) : Good s.outside (execFiringDecision y u s) := by
  unfold execFiringDecision
  repeat' (first | with_reducible exact Keeps.refl _ | with_reducible assumption | with_reducible apply good_next | simp only [↓outside_fst_ite, ↓outside_mk, ↓outside_fold, ↓outside_ite, ite_self, implies_true, ↓State.decideFiring_outside] | split | dsimp only | (with_reducible apply keeps_foldl; intro _ _ _) | (with_reducible apply keeps_iter; intro _ _) | (with_reducible apply State.whenLive_keeps; intro _ _) | intro _)

theorem execFiringEnd_good (y : Yard) (u : UnitId) (s : State) : Good s.outside (execFiringEnd y u s) := by
  unfold execFiringEnd
  repeat' (first | with_reducible exact Keeps.refl _ | with_reducible assumption | with_reducible apply good_next | simp only [↓outside_fst_ite, ↓outside_mk, ↓outside_fold, ↓outside_ite, ite_self, implies_true, ↓State.endFiring_outside] | split | dsimp only | (with_reducible apply keeps_foldl; intro _ _ _) | (with_reducible apply keeps_iter; intro _ _) | (with_reducible apply State.whenLive_keeps; intro _ _) | intro _)

@[simp ↓] theorem State.steerOne_outside (s : State) (y u : Nat) : (State.steerOne s y u).outside = s.outside := by
  unfold State.steerOne
  repeat' (first | simp only [↓outside_fst_ite, ↓outside_mk, ↓outside_fold, ↓outside_ite, ite_self, implies_true, ↓State.setInQueue_outside, ↓State.setUnit_outside, ↓State.progressY_outside] | split | dsimp only | (with_reducible apply outside_foldl'; intro _ _) | (with_reducible apply outside_foldl_fst; intro _ _) | (with_reducible apply outside_iter; intro _))

@[simp ↓] theorem State.passSteered_outside (s : State) (y u : Nat) : (State.passSteered s y u).outside = s.outside := by
  unfold State.passSteered
  repeat' (first | simp only [↓outside_fst_ite, ↓outside_mk, ↓outside_fold, ↓outside_ite, ite_self, implies_true, ↓State.steerOne_outside] | split | dsimp only | (with_reducible apply outside_foldl'; intro _ _) | (with_reducible apply outside_foldl_fst; intro _ _) | (with_reducible apply outside_iter; intro _))

theorem execSteeringPass_good (y : Yard) (st : Fin 16) (s : State) : Good s.outside (execSteeringPass y st s) := by
  unfold execSteeringPass
  repeat' (first | with_reducible exact Keeps.refl _ | with_reducible assumption | with_reducible apply good_next | simp only [↓outside_fst_ite, ↓outside_mk, ↓outside_fold, ↓outside_ite, ite_self, implies_true, ↓State.passSteered_outside] | split | dsimp only | (with_reducible apply keeps_foldl; intro _ _ _) | (with_reducible apply keeps_iter; intro _ _) | (with_reducible apply State.whenLive_keeps; intro _ _) | intro _)

@[simp ↓] theorem State.countOne_outside (s : State) (y u : Nat) : (State.countOne s y u).outside = s.outside := by
  unfold State.countOne
  repeat' (first | simp only [↓outside_fst_ite, ↓outside_mk, ↓outside_fold, ↓outside_ite, ite_self, implies_true, ↓State.parkForeign_outside, ↓State.tick_outside, ↓State.tagOverflow_outside, ↓State.setUnit_outside, ↓State.tsPeak_outside, ↓State.pumpOut_outside, ↓State.progressY_outside] | split | dsimp only | (with_reducible apply outside_foldl'; intro _ _) | (with_reducible apply outside_foldl_fst; intro _ _) | (with_reducible apply outside_iter; intro _))

theorem execCountTick_good (y : Yard) (st : Fin 16) (s : State) : Good s.outside (execCountTick y st s) := by
  unfold execCountTick
  repeat' (first | with_reducible exact Keeps.refl _ | with_reducible assumption | with_reducible apply good_next | simp only [↓outside_fst_ite, ↓outside_mk, ↓outside_fold, ↓outside_ite, ite_self, implies_true, ↓State.countOne_outside] | split | dsimp only | (with_reducible apply keeps_foldl; intro _ _ _) | (with_reducible apply keeps_iter; intro _ _) | (with_reducible apply State.whenLive_keeps; intro _ _) | intro _)

@[simp ↓] theorem State.takeUnitCtrl_outside (s : State) (y u : Nat) : (State.takeUnitCtrl s y u).outside = s.outside := by
  unfold State.takeUnitCtrl
  repeat' (first | simp only [↓outside_fst_ite, ↓outside_mk, ↓outside_fold, ↓outside_ite, ite_self, implies_true, ↓State.takeOffer_outside, ↓State.progressY_outside] | split | dsimp only | (with_reducible apply outside_foldl'; intro _ _) | (with_reducible apply outside_foldl_fst; intro _ _) | (with_reducible apply outside_iter; intro _))

@[simp ↓] theorem State.reefOpened_outside (s : State) (y u : Nat) : (State.reefOpened s y u).outside = s.outside := by
  unfold State.reefOpened
  repeat' (first | simp only [↓outside_fst_ite, ↓outside_mk, ↓outside_fold, ↓outside_ite, ite_self, implies_true, ↓State.takeUnitCtrl_outside, ↓State.setUnit_outside, ↓State.ctrlError_outside] | split | dsimp only | (with_reducible apply outside_foldl'; intro _ _) | (with_reducible apply outside_foldl_fst; intro _ _) | (with_reducible apply outside_iter; intro _))

theorem execReefOpen_good (y : Yard) (u : UnitId) (s : State) : Good s.outside (execReefOpen y u s) := by
  unfold execReefOpen
  repeat' (first | with_reducible exact Keeps.refl _ | with_reducible assumption | with_reducible apply good_next | simp only [↓outside_fst_ite, ↓outside_mk, ↓outside_fold, ↓outside_ite, ite_self, implies_true, ↓State.reefOpened_outside] | split | dsimp only | (with_reducible apply keeps_foldl; intro _ _ _) | (with_reducible apply keeps_iter; intro _ _) | (with_reducible apply State.whenLive_keeps; intro _ _) | intro _)

theorem execReefData_good (y : Yard) (u : UnitId) (s : State) : Good s.outside (execReefData y u s) := by
  unfold execReefData
  repeat' (first | with_reducible exact Keeps.refl _ | with_reducible assumption | with_reducible apply good_next | simp only [↓outside_fst_ite, ↓outside_mk, ↓outside_fold, ↓outside_ite, ite_self, implies_true, ↓State.takeUnitCtrl_outside, ↓State.setUnit_outside] | split | dsimp only | (with_reducible apply keeps_foldl; intro _ _ _) | (with_reducible apply keeps_iter; intro _ _) | (with_reducible apply State.whenLive_keeps; intro _ _) | intro _)

@[simp ↓] theorem State.reefClosed_outside (s : State) (y u : Nat) : (State.reefClosed s y u).outside = s.outside := by
  unfold State.reefClosed
  repeat' (first | simp only [↓outside_fst_ite, ↓outside_mk, ↓outside_fold, ↓outside_ite, ite_self, implies_true, ↓State.takeUnitCtrl_outside, ↓State.setUnit_outside, ↓State.pumpOut_outside, ↓State.ctrlError_outside] | split | dsimp only | (with_reducible apply outside_foldl'; intro _ _) | (with_reducible apply outside_foldl_fst; intro _ _) | (with_reducible apply outside_iter; intro _))

theorem execReefClose_good (y : Yard) (u : UnitId) (s : State) : Good s.outside (execReefClose y u s) := by
  unfold execReefClose
  repeat' (first | with_reducible exact Keeps.refl _ | with_reducible assumption | with_reducible apply good_next | simp only [↓outside_fst_ite, ↓outside_mk, ↓outside_fold, ↓outside_ite, ite_self, implies_true, ↓State.reefClosed_outside] | split | dsimp only | (with_reducible apply keeps_foldl; intro _ _ _) | (with_reducible apply keeps_iter; intro _ _) | (with_reducible apply State.whenLive_keeps; intro _ _) | intro _)

@[simp ↓] theorem State.sectionStarted_outside (s : State) (y u : Nat) : (State.sectionStarted s y u).outside = s.outside := by
  unfold State.sectionStarted
  repeat' (first | simp only [↓outside_fst_ite, ↓outside_mk, ↓outside_fold, ↓outside_ite, ite_self, implies_true, ↓State.takeUnitCtrl_outside, ↓State.setUnit_outside, ↓State.pumpOut_outside] | split | dsimp only | (with_reducible apply outside_foldl'; intro _ _) | (with_reducible apply outside_foldl_fst; intro _ _) | (with_reducible apply outside_iter; intro _))

theorem execSectionStart_good (y : Yard) (u : UnitId) (s : State) : Good s.outside (execSectionStart y u s) := by
  unfold execSectionStart
  repeat' (first | with_reducible exact Keeps.refl _ | with_reducible assumption | with_reducible apply good_next | simp only [↓outside_fst_ite, ↓outside_mk, ↓outside_fold, ↓outside_ite, ite_self, implies_true, ↓State.sectionStarted_outside] | split | dsimp only | (with_reducible apply keeps_foldl; intro _ _ _) | (with_reducible apply keeps_iter; intro _ _) | (with_reducible apply State.whenLive_keeps; intro _ _) | intro _)

@[simp ↓] theorem State.sectionEnded_outside (s : State) (y u : Nat) : (State.sectionEnded s y u).outside = s.outside := by
  unfold State.sectionEnded
  repeat' (first | simp only [↓outside_fst_ite, ↓outside_mk, ↓outside_fold, ↓outside_ite, ite_self, implies_true, ↓State.takeUnitCtrl_outside, ↓State.setUnit_outside, ↓State.pumpOut_outside] | split | dsimp only | (with_reducible apply outside_foldl'; intro _ _) | (with_reducible apply outside_foldl_fst; intro _ _) | (with_reducible apply outside_iter; intro _))

theorem execSectionEnd_good (y : Yard) (u : UnitId) (s : State) : Good s.outside (execSectionEnd y u s) := by
  unfold execSectionEnd
  repeat' (first | with_reducible exact Keeps.refl _ | with_reducible assumption | with_reducible apply good_next | simp only [↓outside_fst_ite, ↓outside_mk, ↓outside_fold, ↓outside_ite, ite_self, implies_true, ↓State.sectionEnded_outside] | split | dsimp only | (with_reducible apply keeps_foldl; intro _ _ _) | (with_reducible apply keeps_iter; intro _ _) | (with_reducible apply State.whenLive_keeps; intro _ _) | intro _)

theorem execMuPendingWaitEnd_good (y : Yard) (m : Fin 16) (s : State) : Good s.outside (execMuPendingWaitEnd y m s) := by
  unfold execMuPendingWaitEnd
  repeat' (first | with_reducible exact Keeps.refl _ | with_reducible assumption | with_reducible apply good_next | simp only [↓outside_fst_ite, ↓outside_mk, ↓outside_fold, ↓outside_ite, ite_self, implies_true, ↓State.tryForm_outside] | split | dsimp only | (with_reducible apply keeps_foldl; intro _ _ _) | (with_reducible apply keeps_iter; intro _ _) | (with_reducible apply State.whenLive_keeps; intro _ _) | intro _)

@[simp ↓] theorem State.delayEmit_outside (s : State) (y u : Nat) : (State.delayEmit s y u).outside = s.outside := by
  unfold State.delayEmit
  repeat' (first | rfl | simp only [↓State.progressY_outside, ↓State.pumpOut_outside, ↓State.bump_outside, ↓State.setUnit_outside, ↓SuRun.ask_outside, ↓SuRun.read_outside] | split | dsimp only)

theorem execSuDelayEmit_good (y : Yard) (k : Fin 2) (s : State) : Good s.outside (execSuDelayEmit y k s) := by
  unfold execSuDelayEmit
  repeat' (first | with_reducible exact Keeps.refl _ | with_reducible assumption | with_reducible apply good_next | simp only [↓outside_fst_ite, ↓outside_mk, ↓outside_fold, ↓outside_ite, ite_self, implies_true, ↓State.delayEmit_outside] | split | dsimp only | (with_reducible apply keeps_foldl; intro _ _ _) | (with_reducible apply keeps_iter; intro _ _) | (with_reducible apply State.whenLive_keeps; intro _ _) | intro _)

end Sys2Proof.Machine
end

