-- ==== Sys2Proof/Laws/KeepNumOps.lean ====
section
/-! SUPPORT. Machine/NumOps.lean: what its operations leave alone. -/
set_option linter.unusedSimpArgs false
namespace Sys2Proof.Machine

@[simp ↓] theorem State.numFault_outside (s : State) (p j code entry cause value : Nat) : (State.numFault s p j code entry cause value).outside = s.outside := by
  unfold State.numFault
  repeat' (first | simp only [↓outside_fst_ite, ↓outside_mk, ↓outside_fold, ↓outside_ite, ite_self, implies_true, ↓State.partFault_outside, ↓State.jobEvent_outside] | split | dsimp only | (with_reducible apply outside_foldl'; intro _ _) | (with_reducible apply outside_foldl_fst; intro _ _) | (with_reducible apply outside_iter; intro _))

@[simp ↓] theorem State.setLnt_outside (s : State) (e w hi lo v : Nat) : (State.setLnt s e w hi lo v).outside = s.outside := by
  unfold State.setLnt
  repeat' (first | simp only [↓outside_fst_ite, ↓outside_mk, ↓outside_fold, ↓outside_ite, ite_self, implies_true, ↓State.setFld_outside] | split | dsimp only | (with_reducible apply outside_foldl'; intro _ _) | (with_reducible apply outside_foldl_fst; intro _ _) | (with_reducible apply outside_iter; intro _))

@[simp ↓] theorem State.lossScale_outside (s : State) (p j : Nat) (skipped upd : Bool) : (State.lossScale s p j skipped upd).outside = s.outside := by
  unfold State.lossScale
  repeat' (first | simp only [↓outside_fst_ite, ↓outside_mk, ↓outside_fold, ↓outside_ite, ite_self, implies_true, ↓State.setFld_outside, ↓State.numFault_outside, ↓State.setFlag_outside] | split | dsimp only | (with_reducible apply outside_foldl'; intro _ _) | (with_reducible apply outside_foldl_fst; intro _ _) | (with_reducible apply outside_iter; intro _))

@[simp ↓] theorem State.pushHist_outside (s : State) (e v : Nat) : (State.pushHist s e v).outside = s.outside := by
  unfold State.pushHist
  repeat' (first | simp only [↓outside_fst_ite, ↓outside_mk, ↓outside_fold, ↓outside_ite, ite_self, implies_true, ↓State.setReg_outside] | split | dsimp only | (with_reducible apply outside_foldl'; intro _ _) | (with_reducible apply outside_foldl_fst; intro _ _) | (with_reducible apply outside_iter; intro _))

@[simp ↓] theorem State.selectFormat_outside (s : State) (e : Nat) : (State.selectFormat s e).outside = s.outside := by
  unfold State.selectFormat
  repeat' (first | simp only [↓outside_fst_ite, ↓outside_mk, ↓outside_fold, ↓outside_ite, ite_self, implies_true, ↓State.setLnt_outside] | split | dsimp only | (with_reducible apply outside_foldl'; intro _ _) | (with_reducible apply outside_foldl_fst; intro _ _) | (with_reducible apply outside_iter; intro _))

@[simp ↓] theorem State.streakStep_outside (s : State) (p j e : Nat) : (State.streakStep s p j e).outside = s.outside := by
  unfold State.streakStep
  repeat' (first | simp only [↓outside_fst_ite, ↓outside_mk, ↓outside_fold, ↓outside_ite, ite_self, implies_true, ↓State.setLnt_outside, ↓State.numFault_outside] | split | dsimp only | (with_reducible apply outside_foldl'; intro _ _) | (with_reducible apply outside_foldl_fst; intro _ _) | (with_reducible apply outside_iter; intro _))

@[simp ↓] theorem State.rollEntry_outside (s : State) (p j : Nat) (skipped : Bool) (e : Nat) : (State.rollEntry s p j skipped e).outside = s.outside := by
  unfold State.rollEntry
  repeat' (first | simp only [↓outside_fst_ite, ↓outside_mk, ↓outside_fold, ↓outside_ite, ite_self, implies_true, ↓State.bumpFld_outside, ↓State.pushHist_outside, ↓State.selectFormat_outside, ↓State.streakStep_outside, ↓State.setLnt_outside, ↓State.setReg_outside] | split | dsimp only | (with_reducible apply outside_foldl'; intro _ _) | (with_reducible apply outside_foldl_fst; intro _ _) | (with_reducible apply outside_iter; intro _))

@[simp ↓] theorem State.rollLinks_outside (s : State) (e : Nat) : (State.rollLinks s e).outside = s.outside := by
  unfold State.rollLinks
  repeat' (first | simp only [↓outside_fst_ite, ↓outside_mk, ↓outside_fold, ↓outside_ite, ite_self, implies_true, ↓State.setLnt_outside] | split | dsimp only | (with_reducible apply outside_foldl'; intro _ _) | (with_reducible apply outside_foldl_fst; intro _ _) | (with_reducible apply outside_iter; intro _))

@[simp ↓] theorem State.countStarved_outside (s : State) (p j : Nat) : (State.countStarved s p j).outside = s.outside := by
  unfold State.countStarved
  repeat' (first | simp only [↓outside_fst_ite, ↓outside_mk, ↓outside_fold, ↓outside_ite, ite_self, implies_true, ↓State.setFld_outside] | split | dsimp only | (with_reducible apply outside_foldl'; intro _ _) | (with_reducible apply outside_foldl_fst; intro _ _) | (with_reducible apply outside_iter; intro _))

@[simp ↓] theorem State.rollEntries_outside (s : State) (p j : Nat) (skipped : Bool) : (State.rollEntries s p j skipped).outside = s.outside := by
  unfold State.rollEntries
  repeat' (first | simp only [↓outside_fst_ite, ↓outside_mk, ↓outside_fold, ↓outside_ite, ite_self, implies_true, ↓State.rollEntry_outside, ↓State.rollLinks_outside, ↓State.countStarved_outside] | split | dsimp only | (with_reducible apply outside_foldl'; intro _ _) | (with_reducible apply outside_foldl_fst; intro _ _) | (with_reducible apply outside_iter; intro _))

@[simp ↓] theorem State.spikeAtPipeEnd_outside (s0 : State) (p j : Nat) : (State.spikeAtPipeEnd s0 p j).outside = s0.outside := by
  unfold State.spikeAtPipeEnd
  repeat' (first | simp only [↓outside_fst_ite, ↓outside_mk, ↓outside_fold, ↓outside_ite, ite_self, implies_true, ↓State.setFlag_outside, ↓State.numFault_outside, ↓State.bump_outside] | split | dsimp only | (with_reducible apply outside_foldl'; intro _ _) | (with_reducible apply outside_foldl_fst; intro _ _) | (with_reducible apply outside_iter; intro _))

@[simp ↓] theorem State.spikeAtBoundary_outside (s : State) (p j : Nat) (skipped : Bool) : (State.spikeAtBoundary s p j skipped).outside = s.outside := by
  unfold State.spikeAtBoundary
  repeat' (first | simp only [↓outside_fst_ite, ↓outside_mk, ↓outside_fold, ↓outside_ite, ite_self, implies_true, ↓State.setReg_outside, ↓State.setFld_outside] | split | dsimp only | (with_reducible apply outside_foldl'; intro _ _) | (with_reducible apply outside_foldl_fst; intro _ _) | (with_reducible apply outside_iter; intro _))

@[simp ↓] theorem State.numMonitors_outside (s : State) (p j : Nat) : (State.numMonitors s p j).outside = s.outside := by
  unfold State.numMonitors
  repeat' (first | simp only [↓outside_fst_ite, ↓outside_mk, ↓outside_fold, ↓outside_ite, ite_self, implies_true, ↓State.setFld_outside, ↓State.numFault_outside] | split | dsimp only | (with_reducible apply outside_foldl'; intro _ _) | (with_reducible apply outside_foldl_fst; intro _ _) | (with_reducible apply outside_iter; intro _))

end Sys2Proof.Machine
end

