-- ==== Sys2Proof/Laws/KeepCollOps.lean ====
section
/-! SUPPORT. Machine/CollOps.lean: what its operations leave alone. -/
set_option linter.unusedSimpArgs false
namespace Sys2Proof.Machine

@[simp ↓] theorem State.redStatus_outside (s : State) (r : CollRun) : (State.redStatus s r).outside = s.outside := by
  unfold State.redStatus
  repeat' (first | simp only [↓outside_fst_ite, ↓outside_mk, ↓outside_fold, ↓outside_ite, ite_self, implies_true, ↓State.setFld_outside] | split | dsimp only | (with_reducible apply outside_foldl'; intro _ _) | (with_reducible apply outside_foldl_fst; intro _ _) | (with_reducible apply outside_iter; intro _))

@[simp ↓] theorem State.setRun_outside (s : State) (d : Nat) (r : CollRun) : (State.setRun s d r).outside = s.outside := by
  unfold State.setRun
  repeat' (first | simp only [↓outside_fst_ite, ↓outside_mk, ↓outside_fold, ↓outside_ite, ite_self, implies_true, ↓State.setEngine_outside, ↓State.redStatus_outside] | split | dsimp only | (with_reducible apply outside_foldl'; intro _ _) | (with_reducible apply outside_foldl_fst; intro _ _) | (with_reducible apply outside_iter; intro _))

@[simp ↓] theorem State.ownChunk_outside (s : State) (d : Nat) (r : CollRun) (k : Nat) : (State.ownChunk s d r k).2.outside = s.outside := by
  unfold State.ownChunk
  repeat' (first | simp only [↓outside_fst_ite, ↓outside_mk, ↓outside_fold, ↓outside_ite, ite_self, implies_true, ↓State.readNow_outside] | split | dsimp only | rfl | refine (State.readNow_pair (by assumption)).trans ?_ | (with_reducible apply outside_foldl'; intro _ _) | (with_reducible apply outside_foldl_fst; intro _ _))

theorem State.ownChunk_pair {s : State} {d : Nat} {r : CollRun} {k : Nat} {b1 : Option (List (BitVec 32))} {t1 : State} (e : State.ownChunk s d r k = (b1, t1)) : t1.outside = s.outside := by
  have k := State.ownChunk_outside s d r k
  rw [e] at k; exact k

@[simp ↓] theorem State.sendChunk_outside (s : State) (d i : Nat) (r : CollRun) (down : Bool) (k cnt : Nat) (bs : List Byte) : (State.sendChunk s d i r down k cnt bs).outside = s.outside := by
  unfold State.sendChunk
  repeat' (first | simp only [↓outside_fst_ite, ↓outside_mk, ↓outside_fold, ↓outside_ite, ite_self, implies_true, ↓State.sendPeer_outside, ↓State.bump_outside] | split | dsimp only | (with_reducible apply outside_foldl'; intro _ _) | (with_reducible apply outside_foldl_fst; intro _ _) | (with_reducible apply outside_iter; intro _))

@[simp ↓] theorem State.putOutFrame_outside (s : State) (r : CollRun) (k : Nat) (bs : List Byte) : (State.putOutFrame s r k bs).outside = s.outside := by
  unfold State.putOutFrame
  repeat' (first | simp only [↓outside_fst_ite, ↓outside_mk, ↓outside_fold, ↓outside_ite, ite_self, implies_true, ↓State.hbmWrite_outside] | split | dsimp only | (with_reducible apply outside_foldl'; intro _ _) | (with_reducible apply outside_foldl_fst; intro _ _) | (with_reducible apply outside_iter; intro _))

@[simp ↓] theorem State.sendDown_outside (s : State) (d : Nat) (r : CollRun) (k cnt : Nat) (bs : List Byte) : (State.sendDown s d r k cnt bs).outside = s.outside := by
  unfold State.sendDown
  repeat' (first | simp only [↓outside_fst_ite, ↓outside_mk, ↓outside_fold, ↓outside_ite, ite_self, implies_true, ↓State.sendChunk_outside] | split | dsimp only | (with_reducible apply outside_foldl'; intro _ _) | (with_reducible apply outside_foldl_fst; intro _ _) | (with_reducible apply outside_iter; intro _))

@[simp ↓] theorem State.finalChunk_outside (s : State) (d : Nat) (r : CollRun) (k cnt : Nat) (xs : List (BitVec 32)) : (State.finalChunk s d r k cnt xs).outside = s.outside := by
  unfold State.finalChunk
  repeat' (first | simp only [↓outside_fst_ite, ↓outside_mk, ↓outside_fold, ↓outside_ite, ite_self, implies_true, ↓State.putOutFrame_outside, ↓State.sendDown_outside] | split | dsimp only | (with_reducible apply outside_foldl'; intro _ _) | (with_reducible apply outside_foldl_fst; intro _ _) | (with_reducible apply outside_iter; intro _))

@[simp ↓] theorem State.treeUp_outside (s : State) (d : Nat) (r : CollRun) : (State.treeUp s d r).outside = s.outside := by
  unfold State.treeUp
  repeat' (first | simp only [↓outside_fst_ite, ↓outside_mk, ↓outside_fold, ↓outside_ite, ite_self, implies_true, ↓State.ownChunk_outside, ↓State.setRun_outside, ↓State.finalChunk_outside, ↓State.sendChunk_outside] | split | dsimp only | (with_reducible apply outside_foldl'; intro _ _) | (with_reducible apply outside_foldl_fst; intro _ _) | (with_reducible apply outside_iter; intro _) | refine (State.ownChunk_pair (by assumption)).trans ?_)

@[simp ↓] theorem State.ownShard_outside (s : State) (d : Nat) (r : CollRun) (k size : Nat) (xs : List (BitVec 32)) : (State.ownShard s d r k size xs).outside = s.outside := by
  unfold State.ownShard
  repeat' (first | simp only [↓outside_fst_ite, ↓outside_mk, ↓outside_fold, ↓outside_ite, ite_self, implies_true, ↓State.putOutFrame_outside, ↓State.sendChunk_outside] | split | dsimp only | (with_reducible apply outside_foldl'; intro _ _) | (with_reducible apply outside_foldl_fst; intro _ _) | (with_reducible apply outside_iter; intro _))

@[simp ↓] theorem State.ringReduce_outside (s : State) (d : Nat) (r : CollRun) (t c : Nat) : (State.ringReduce s d r t c).outside = s.outside := by
  unfold State.ringReduce
  repeat' (first | simp only [↓outside_fst_ite, ↓outside_mk, ↓outside_fold, ↓outside_ite, ite_self, implies_true, ↓State.ownChunk_outside, ↓State.setRun_outside, ↓State.sendChunk_outside, ↓State.ownShard_outside] | split | dsimp only | (with_reducible apply outside_foldl'; intro _ _) | (with_reducible apply outside_foldl_fst; intro _ _) | (with_reducible apply outside_iter; intro _) | refine (State.ownChunk_pair (by assumption)).trans ?_)

@[simp ↓] theorem State.ringGather_outside (s : State) (d : Nat) (r : CollRun) (t c : Nat) : (State.ringGather s d r t c).outside = s.outside := by
  unfold State.ringGather
  repeat' (first | simp only [↓outside_fst_ite, ↓outside_mk, ↓outside_fold, ↓outside_ite, ite_self, implies_true, ↓State.setRun_outside, ↓State.putOutFrame_outside, ↓State.sendChunk_outside] | split | dsimp only | (with_reducible apply outside_foldl'; intro _ _) | (with_reducible apply outside_foldl_fst; intro _ _) | (with_reducible apply outside_iter; intro _))

@[simp ↓] theorem State.ringStep_outside (s : State) (d : Nat) (r : CollRun) : (State.ringStep s d r).outside = s.outside := by
  unfold State.ringStep
  repeat' (first | simp only [↓outside_fst_ite, ↓outside_mk, ↓outside_fold, ↓outside_ite, ite_self, implies_true, ↓State.ownChunk_outside, ↓State.setRun_outside, ↓State.ownShard_outside, ↓State.ringGather_outside, ↓State.ringReduce_outside] | split | dsimp only | (with_reducible apply outside_foldl'; intro _ _) | (with_reducible apply outside_foldl_fst; intro _ _) | (with_reducible apply outside_iter; intro _) | refine (State.ownChunk_pair (by assumption)).trans ?_)

@[simp ↓] theorem State.sendNorm_outside (s : State) (d i code : Nat) (r : CollRun) (v cnt : Nat) : (State.sendNorm s d i code r v cnt).outside = s.outside := by
  unfold State.sendNorm
  repeat' (first | simp only [↓outside_fst_ite, ↓outside_mk, ↓outside_fold, ↓outside_ite, ite_self, implies_true, ↓State.sendCtrl_outside, ↓State.bump_outside] | split | dsimp only | (with_reducible apply outside_foldl'; intro _ _) | (with_reducible apply outside_foldl_fst; intro _ _) | (with_reducible apply outside_iter; intro _))

@[simp ↓] theorem State.normTotal_outside (s : State) (d : Nat) (r : CollRun) (v cnt : Nat) : (State.normTotal s d r v cnt).outside = s.outside := by
  unfold State.normTotal
  repeat' (first | simp only [↓outside_fst_ite, ↓outside_mk, ↓outside_fold, ↓outside_ite, ite_self, implies_true, ↓State.setRun_outside, ↓State.sendNorm_outside] | split | dsimp only | (with_reducible apply outside_foldl'; intro _ _) | (with_reducible apply outside_foldl_fst; intro _ _) | (with_reducible apply outside_iter; intro _))

@[simp ↓] theorem State.tryNorm_outside (s : State) (d : Nat) (r : CollRun) : (State.tryNorm s d r).outside = s.outside := by
  unfold State.tryNorm
  repeat' (first | simp only [↓outside_fst_ite, ↓outside_mk, ↓outside_fold, ↓outside_ite, ite_self, implies_true, ↓State.normTotal_outside, ↓State.setRun_outside, ↓State.sendNorm_outside] | split | dsimp only | (with_reducible apply outside_foldl'; intro _ _) | (with_reducible apply outside_foldl_fst; intro _ _) | (with_reducible apply outside_iter; intro _))

@[simp ↓] theorem State.injectStay_outside (s : State) (d side lane : Nat) (t : Token) : (State.injectStay s d side lane t).outside = s.outside := by
  unfold State.injectStay
  repeat' (first | simp only [↓outside_fst_ite, ↓outside_mk, ↓outside_fold, ↓outside_ite, ite_self, implies_true, ↓State.pumpInject_outside] | split | dsimp only | (with_reducible apply outside_foldl'; intro _ _) | (with_reducible apply outside_foldl_fst; intro _ _) | (with_reducible apply outside_iter; intro _))

@[simp ↓] theorem State.doneToken_outside (s : State) (d : Nat) (r : CollRun) : (State.doneToken s d r).outside = s.outside := by
  unfold State.doneToken
  repeat' (first | simp only [↓outside_fst_ite, ↓outside_mk, ↓outside_fold, ↓outside_ite, ite_self, implies_true, ↓State.injectStay_outside] | split | dsimp only | (with_reducible apply outside_foldl'; intro _ _) | (with_reducible apply outside_foldl_fst; intro _ _) | (with_reducible apply outside_iter; intro _))

@[simp ↓] theorem State.completeRun_outside (s : State) (d : Nat) (r : CollRun) : (State.completeRun s d r).outside = s.outside := by
  unfold State.completeRun
  repeat' (first | simp only [↓outside_fst_ite, ↓outside_mk, ↓outside_fold, ↓outside_ite, ite_self, implies_true, ↓State.setEngine_outside, ↓State.normTotal_outside, ↓State.waitNs_outside, ↓State.bump_outside, ↓State.doneToken_outside] | split | dsimp only | (with_reducible apply outside_foldl'; intro _ _) | (with_reducible apply outside_foldl_fst; intro _ _) | (with_reducible apply outside_iter; intro _))

@[simp ↓] theorem State.foldNorms_outside (s : State) (p j w : Nat) : (State.foldNorms s p j w).outside = s.outside := by
  unfold State.foldNorms
  repeat' (first | simp only [↓outside_fst_ite, ↓outside_mk, ↓outside_fold, ↓outside_ite, ite_self, implies_true, ↓State.setReg_outside] | split | dsimp only | (with_reducible apply outside_foldl'; intro _ _) | (with_reducible apply outside_foldl_fst; intro _ _) | (with_reducible apply outside_iter; intro _))

@[simp ↓] theorem State.engineFault_outside (s : State) (d j section_ : Nat) (x : Nat × Nat × Nat) : (State.engineFault s d j section_ x).outside = s.outside := by
  unfold State.engineFault
  repeat' (first | simp only [↓outside_fst_ite, ↓outside_mk, ↓outside_fold, ↓outside_ite, ite_self, implies_true, ↓State.faultEv_outside] | split | dsimp only | (with_reducible apply outside_foldl'; intro _ _) | (with_reducible apply outside_foldl_fst; intro _ _) | (with_reducible apply outside_iter; intro _))

@[simp ↓] theorem State.addWindow_outside (s : State) (j : Nat) (c : DescRec) (w : Nat) : (State.addWindow s j c w).outside = s.outside := by
  unfold State.addWindow
  repeat' (first | simp only [↓outside_fst_ite, ↓outside_mk, ↓outside_fold, ↓outside_ite, ite_self, implies_true, ↓State.hbmRead_outside, ↓State.hbmWrite_outside] | split | dsimp only | (with_reducible apply outside_foldl'; intro _ _) | (with_reducible apply outside_foldl_fst; intro _ _) | (with_reducible apply outside_iter; intro _) | refine (State.hbmRead_pair (by assumption)).trans ?_)

@[simp ↓] theorem State.windowPass_outside (s : State) (p j : Nat) : (State.windowPass s p j).outside = s.outside := by
  unfold State.windowPass
  repeat' (first | simp only [↓outside_fst_ite, ↓outside_mk, ↓outside_fold, ↓outside_ite, ite_self, implies_true, ↓State.bumpFld_outside, ↓State.partFault_outside, ↓State.engineFault_outside, ↓State.setFld_outside, ↓State.addWindow_outside] | split | dsimp only | (with_reducible apply outside_foldl'; intro _ _) | (with_reducible apply outside_foldl_fst; intro _ _) | (with_reducible apply outside_iter; intro _))

end Sys2Proof.Machine
end

