-- ==== Sys2Proof/Laws/KeepStepOps.lean ====
section
/-! SUPPORT. Machine/StepOps.lean: what its operations leave alone. -/
set_option linter.unusedSimpArgs false
namespace Sys2Proof.Machine

@[simp ↓] theorem State.advanceRing_outside (s : State) (j : Nat) : (State.advanceRing s j).outside = s.outside := by
  unfold State.advanceRing
  repeat' (first | simp only [↓outside_fst_ite, ↓outside_mk, ↓outside_fold, ↓outside_ite, ite_self, implies_true, ↓State.setRing_outside, ↓State.setFld_outside, ↓State.refreshRing_outside] | split | dsimp only | (with_reducible apply outside_foldl'; intro _ _) | (with_reducible apply outside_foldl_fst; intro _ _) | (with_reducible apply outside_iter; intro _))

@[simp ↓] theorem State.ringDone_outside (s : State) (j i : Nat) : (State.ringDone s j i).outside = s.outside := by
  unfold State.ringDone
  repeat' (first | simp only [↓outside_fst_ite, ↓outside_mk, ↓outside_fold, ↓outside_ite, ite_self, implies_true, ↓State.setRing_outside, ↓State.jobEvent_outside, ↓State.advanceRing_outside] | split | dsimp only | (with_reducible apply outside_foldl'; intro _ _) | (with_reducible apply outside_foldl_fst; intro _ _) | (with_reducible apply outside_iter; intro _))

@[simp ↓] theorem State.sourceDone_outside (s : State) (src : RecSource) : (State.sourceDone s src).outside = s.outside := by
  unfold State.sourceDone
  repeat' (first | simp only [↓outside_fst_ite, ↓outside_mk, ↓outside_fold, ↓outside_ite, ite_self, implies_true, ↓State.ringDone_outside] | split | dsimp only | (with_reducible apply outside_foldl'; intro _ _) | (with_reducible apply outside_foldl_fst; intro _ _) | (with_reducible apply outside_iter; intro _))

@[simp ↓] theorem State.consume_outside (s : State) (r : StartRec) (code : Nat) : (State.consume s r code).outside = s.outside := by
  unfold State.consume
  repeat' (first | simp only [↓outside_fst_ite, ↓outside_mk, ↓outside_fold, ↓outside_ite, ite_self, implies_true, ↓State.issueResult_outside, ↓State.sourceDone_outside] | split | dsimp only | (with_reducible apply outside_foldl'; intro _ _) | (with_reducible apply outside_foldl_fst; intro _ _) | (with_reducible apply outside_iter; intro _))

@[simp ↓] theorem State.reject_outside (s : State) (p : Nat) (r : StartRec) (code dim ext : Nat) : (State.reject s p r code dim ext).outside = s.outside := by
  unfold State.reject
  repeat' (first | simp only [↓outside_fst_ite, ↓outside_mk, ↓outside_fold, ↓outside_ite, ite_self, implies_true, ↓State.partFault_outside, ↓State.consume_outside] | split | dsimp only | (with_reducible apply outside_foldl'; intro _ _) | (with_reducible apply outside_foldl_fst; intro _ _) | (with_reducible apply outside_iter; intro _))

@[simp ↓] theorem State.setSeq_outside (s : State) (p j st : Nat) : (State.setSeq s p j st).outside = s.outside := by
  unfold State.setSeq
  repeat' (first | simp only [↓outside_fst_ite, ↓outside_mk, ↓outside_fold, ↓outside_ite, ite_self, implies_true, ↓State.setFld_outside] | split | dsimp only | (with_reducible apply outside_foldl'; intro _ _) | (with_reducible apply outside_foldl_fst; intro _ _) | (with_reducible apply outside_iter; intro _))

@[simp ↓] theorem State.refreshHeld_outside (s : State) (p j : Nat) : (State.refreshHeld s p j).outside = s.outside := by
  unfold State.refreshHeld
  repeat' (first | simp only [↓outside_fst_ite, ↓outside_mk, ↓outside_fold, ↓outside_ite, ite_self, implies_true, ↓State.setFld_outside, ↓State.setFlag_outside] | split | dsimp only | (with_reducible apply outside_foldl'; intro _ _) | (with_reducible apply outside_foldl_fst; intro _ _) | (with_reducible apply outside_iter; intro _))

@[simp ↓] theorem State.planDone_outside (s : State) (j : Nat) : (State.planDone s j).outside = s.outside := by
  unfold State.planDone
  repeat' (first | simp only [↓outside_fst_ite, ↓outside_mk, ↓outside_fold, ↓outside_ite, ite_self, implies_true, ↓State.ringDone_outside] | split | dsimp only | (with_reducible apply outside_foldl'; intro _ _) | (with_reducible apply outside_foldl_fst; intro _ _) | (with_reducible apply outside_iter; intro _))

@[simp ↓] theorem State.boundary_outside (s : State) (p j : Nat) (skipped accum upd hold : Bool) : (State.boundary s p j skipped accum upd hold).outside = s.outside := by
  unfold State.boundary
  repeat' (first | simp only [↓outside_fst_ite, ↓outside_mk, ↓outside_fold, ↓outside_ite, ite_self, implies_true, ↓State.lossScale_outside, ↓State.spikeAtBoundary_outside, ↓State.rollEntries_outside, ↓State.setFld_outside, ↓State.setFlag_outside, ↓State.setReg_outside, ↓State.setSeq_outside, ↓State.jobEvent_outside, ↓State.planDone_outside, ↓State.refreshHeld_outside, ↓State.progress_outside] | split | dsimp only | (with_reducible apply outside_foldl'; intro _ _) | (with_reducible apply outside_foldl_fst; intro _ _) | (with_reducible apply outside_iter; intro _))

@[simp ↓] theorem State.gateResult_outside (s : State) (p j : Nat) (pass : Bool) (cause : Nat) (hold : Bool) : (State.gateResult s p j pass cause hold).outside = s.outside := by
  unfold State.gateResult
  repeat' (first | simp only [↓outside_fst_ite, ↓outside_mk, ↓outside_fold, ↓outside_ite, ite_self, implies_true, ↓State.windowPass_outside, ↓State.setSeq_outside, ↓State.refreshHeld_outside, ↓State.setFld_outside, ↓State.consume_outside, ↓State.bump_outside, ↓State.jobEvent_outside, ↓State.numFault_outside, ↓State.boundary_outside] | split | dsimp only | (with_reducible apply outside_foldl'; intro _ _) | (with_reducible apply outside_foldl_fst; intro _ _) | (with_reducible apply outside_iter; intro _))

@[simp ↓] theorem State.flipEntry_outside (s : State) (b : Nat) : (State.flipEntry s b).outside = s.outside := by
  unfold State.flipEntry
  repeat' (first | simp only [↓outside_fst_ite, ↓outside_mk, ↓outside_fold, ↓outside_ite, ite_self, implies_true, ↓State.setFlag_outside, ↓State.setFld_outside] | split | dsimp only | (with_reducible apply outside_foldl'; intro _ _) | (with_reducible apply outside_foldl_fst; intro _ _) | (with_reducible apply outside_iter; intro _))

@[simp ↓] theorem State.flipJob_outside (s : State) (j : Nat) : (State.flipJob s j).outside = s.outside := by
  unfold State.flipJob
  repeat' (first | simp only [↓outside_fst_ite, ↓outside_mk, ↓outside_fold, ↓outside_ite, ite_self, implies_true, ↓State.flipEntry_outside] | split | dsimp only | (with_reducible apply outside_foldl'; intro _ _) | (with_reducible apply outside_foldl_fst; intro _ _) | (with_reducible apply outside_iter; intro _))

@[simp ↓] theorem State.countFlip_outside (s : State) (j : Nat) : (State.countFlip s j).outside = s.outside := by
  unfold State.countFlip
  repeat' (first | simp only [↓outside_fst_ite, ↓outside_mk, ↓outside_fold, ↓outside_ite, ite_self, implies_true, ↓State.setFlag_outside, ↓State.setFld_outside, ↓State.event_outside] | split | dsimp only | (with_reducible apply outside_foldl'; intro _ _) | (with_reducible apply outside_foldl_fst; intro _ _) | (with_reducible apply outside_iter; intro _))

@[simp ↓] theorem State.flipJobs_outside (s : State) (js : List Nat) : (State.flipJobs s js).outside = s.outside := by
  unfold State.flipJobs
  repeat' (first | simp only [↓outside_fst_ite, ↓outside_mk, ↓outside_fold, ↓outside_ite, ite_self, implies_true, ↓State.flipJob_outside, ↓State.countFlip_outside, ↓State.setFlag_outside, ↓State.setFld_outside] | split | dsimp only | (with_reducible apply outside_foldl'; intro _ _) | (with_reducible apply outside_foldl_fst; intro _ _) | (with_reducible apply outside_iter; intro _))

end Sys2Proof.Machine
end

