-- ==== Sys2Proof/Laws/KeepRxOps.lean ====
section
/-! SUPPORT. Machine/RxOps.lean: what its operations leave alone. -/
set_option linter.unusedSimpArgs false
namespace Sys2Proof.Machine

@[simp ↓] theorem State.ceLate_outside (s : State) (d : Nat) : (State.ceLate s d).outside = s.outside := by
  unfold State.ceLate
  repeat' (first | simp only [↓outside_fst_ite, ↓outside_mk, ↓outside_fold, ↓outside_ite, ite_self, implies_true, ↓State.bump_outside] | split | dsimp only | (with_reducible apply outside_foldl'; intro _ _) | (with_reducible apply outside_foldl_fst; intro _ _) | (with_reducible apply outside_iter; intro _))

@[simp ↓] theorem State.resendAll_outside (s : State) (q : Nat) (es : List Sent) : (State.resendAll s q es).outside = s.outside := by
  unfold State.resendAll
  repeat' (first | simp only [↓outside_fst_ite, ↓outside_mk, ↓outside_fold, ↓outside_ite, ite_self, implies_true, ↓State.portLost_outside, ↓State.setPort_outside, ↓State.pump_outside] | split | dsimp only | (with_reducible apply outside_foldl'; intro _ _) | (with_reducible apply outside_foldl_fst; intro _ _) | (with_reducible apply outside_iter; intro _))

@[simp ↓] theorem State.takeCredits_outside (s : State) (q : Nat) (f : Frame) : (State.takeCredits s q f).outside = s.outside := by
  unfold State.takeCredits
  repeat' (first | simp only [↓outside_fst_ite, ↓outside_mk, ↓outside_fold, ↓outside_ite, ite_self, implies_true, ↓State.setPort_outside, ↓State.setFld_outside] | split | dsimp only | (with_reducible apply outside_foldl'; intro _ _) | (with_reducible apply outside_foldl_fst; intro _ _) | (with_reducible apply outside_iter; intro _))

@[simp ↓] theorem State.takeAck_outside (s : State) (q : Nat) (f : Frame) : (State.takeAck s q f).outside = s.outside := by
  unfold State.takeAck
  repeat' (first | simp only [↓outside_fst_ite, ↓outside_mk, ↓outside_fold, ↓outside_ite, ite_self, implies_true, ↓State.setPort_outside, ↓State.resendAll_outside] | split | dsimp only | (with_reducible apply outside_foldl'; intro _ _) | (with_reducible apply outside_foldl_fst; intro _ _) | (with_reducible apply outside_iter; intro _))

theorem State.pairRoom_pair {s : State} {q k : Nat} {t : State} (e : State.pairRoom s q k = some t) : t.outside = s.outside := by
  unfold State.pairRoom at e
  repeat' (first | (cases e; done) | (injection e with e; subst e) | rfl | simp only [↓outside_fst_ite, ↓outside_mk, ↓outside_fold, ↓outside_ite, ite_self, implies_true, ↓State.setPort_outside] | simp only [] at e | split at e)

theorem State.accept_keeps (s : State) (q : Nat) (f : Frame) (go : State → State) {ro : Outside}
    (h : ∀ t, Keeps ro t.outside → Keeps ro (go t ).outside) (h0 : Keeps ro s.outside) : Keeps ro (State.accept s q f go).outside := by
  unfold State.accept
  repeat' (first | with_reducible assumption | simp only [↓outside_fst_ite, ↓outside_mk, ↓outside_fold, ↓outside_ite, ite_self, implies_true, ↓State.setPort_outside, ↓State.bump_outside, ↓State.sendLink_outside] | split | dsimp only | apply h)

theorem State.accept_outside (s : State) (q : Nat) (f : Frame) (go : State → State) {ro : Outside}
    (h : ∀ t, (go t ).outside = t.outside) (h0 : s.outside = ro) : (State.accept s q f go).outside = ro := by
  unfold State.accept
  repeat' (first | exact h0 | simp only [↓outside_fst_ite, ↓outside_mk, ↓outside_fold, ↓outside_ite, ite_self, implies_true, ↓State.setPort_outside, ↓State.bump_outside, ↓State.sendLink_outside] | split | dsimp only | refine (h ..).trans ?_)

theorem State.inOrder_keeps (s : State) (q : Nat) (f : Frame) (go : State → State) {ro : Outside}
    (h : ∀ t, Keeps ro t.outside → Keeps ro (go t ).outside) (h0 : Keeps ro s.outside) : Keeps ro (State.inOrder s q f go).outside := by
  unfold State.inOrder
  repeat' (first | with_reducible assumption | simp only [↓outside_fst_ite, ↓outside_mk, ↓outside_fold, ↓outside_ite, ite_self, implies_true, ↓State.freeSlot_outside, ↓State.setPort_outside, ↓State.sendLink_outside] | split | dsimp only | apply h | refine keeps_eq (State.pairRoom_pair (by assumption)) ?_ | (with_reducible apply State.accept_keeps; intro _ _))

theorem State.inOrder_outside (s : State) (q : Nat) (f : Frame) (go : State → State) {ro : Outside}
    (h : ∀ t, (go t ).outside = t.outside) (h0 : s.outside = ro) : (State.inOrder s q f go).outside = ro := by
  unfold State.inOrder
  repeat' (first | exact h0 | simp only [↓outside_fst_ite, ↓outside_mk, ↓outside_fold, ↓outside_ite, ite_self, implies_true, ↓State.freeSlot_outside, ↓State.setPort_outside, ↓State.sendLink_outside] | split | dsimp only | refine (h ..).trans ?_ | refine (State.pairRoom_pair (by assumption)).trans ?_ | (with_reducible apply State.accept_outside; intro _))

theorem State.receive_keeps (s : State) (q : Nat) (f : Frame) (want : Frame → Bool) (go : State → State) {ro : Outside}
    (h : ∀ t, Keeps ro t.outside → Keeps ro (go t ).outside) (h0 : Keeps ro s.outside) : Keeps ro (State.receive s q f want go).outside := by
  unfold State.receive
  repeat' (first | with_reducible assumption | simp only [↓outside_fst_ite, ↓outside_mk, ↓outside_fold, ↓outside_ite, ite_self, implies_true, ↓State.bump_outside, ↓State.faultEv_outside, ↓State.stDrop_outside, ↓State.freeSlot_outside, ↓State.takeCredits_outside, ↓State.takeAck_outside, ↓State.pump_outside] | split | dsimp only | apply h | (with_reducible apply State.inOrder_keeps; intro _ _))

theorem State.receive_outside (s : State) (q : Nat) (f : Frame) (want : Frame → Bool) (go : State → State) {ro : Outside}
    (h : ∀ t, (go t ).outside = t.outside) (h0 : s.outside = ro) : (State.receive s q f want go).outside = ro := by
  unfold State.receive
  repeat' (first | exact h0 | simp only [↓outside_fst_ite, ↓outside_mk, ↓outside_fold, ↓outside_ite, ite_self, implies_true, ↓State.bump_outside, ↓State.faultEv_outside, ↓State.stDrop_outside, ↓State.freeSlot_outside, ↓State.takeCredits_outside, ↓State.takeAck_outside, ↓State.pump_outside] | split | dsimp only | refine (h ..).trans ?_ | (with_reducible apply State.inOrder_outside; intro _))

@[simp ↓] theorem State.takeTokens_outside (s : State) (q : Nat) (f : Frame) : (State.takeTokens s q f).outside = s.outside := by
  unfold State.takeTokens
  repeat' (first | simp only [↓outside_fst_ite, ↓outside_mk, ↓outside_fold, ↓outside_ite, ite_self, implies_true, ↓State.stDrop_outside, ↓State.freeSlot_outside, ↓State.injectStay_outside, ↓State.tookSlot_outside] | split | dsimp only | (with_reducible apply outside_foldl'; intro _ _) | (with_reducible apply outside_foldl_fst; intro _ _) | (with_reducible apply outside_iter; intro _))

@[simp ↓] theorem State.backupUsed_outside (s : State) (d : Nat) (r : CollRun) (child : Nat) : (State.backupUsed s d r child).outside = s.outside := by
  unfold State.backupUsed
  repeat' (first | simp only [↓outside_fst_ite, ↓outside_mk, ↓outside_fold, ↓outside_ite, ite_self, implies_true, ↓State.faultEv_outside] | split | dsimp only | (with_reducible apply outside_foldl'; intro _ _) | (with_reducible apply outside_foldl_fst; intro _ _) | (with_reducible apply outside_iter; intro _))

@[simp ↓] theorem State.takeUp_outside (s : State) (d : Nat) (r : CollRun) (f : Frame) (slot : Option Nat) : (State.takeUp s d r f slot).outside = s.outside := by
  unfold State.takeUp
  repeat' (first | simp only [↓outside_fst_ite, ↓outside_mk, ↓outside_fold, ↓outside_ite, ite_self, implies_true, ↓State.ceLate_outside, ↓State.bump_outside, ↓State.setRun_outside, ↓State.backupUsed_outside] | split | dsimp only | (with_reducible apply outside_foldl'; intro _ _) | (with_reducible apply outside_foldl_fst; intro _ _) | (with_reducible apply outside_iter; intro _))

@[simp ↓] theorem State.takeDown_outside (s : State) (d : Nat) (r : CollRun) (f : Frame) : (State.takeDown s d r f).outside = s.outside := by
  unfold State.takeDown
  repeat' (first | simp only [↓outside_fst_ite, ↓outside_mk, ↓outside_fold, ↓outside_ite, ite_self, implies_true, ↓State.setRun_outside, ↓State.bump_outside, ↓State.putOutFrame_outside, ↓State.sendDown_outside] | split | dsimp only | (with_reducible apply outside_foldl'; intro _ _) | (with_reducible apply outside_foldl_fst; intro _ _) | (with_reducible apply outside_iter; intro _))

@[simp ↓] theorem State.takeColl_outside (s : State) (d : Nat) (r : CollRun) (f : Frame) : (State.takeColl s d r f).outside = s.outside := by
  unfold State.takeColl
  repeat' (first | simp only [↓outside_fst_ite, ↓outside_mk, ↓outside_fold, ↓outside_ite, ite_self, implies_true, ↓State.setRun_outside, ↓State.bump_outside, ↓State.ceLate_outside, ↓State.takeDown_outside, ↓State.takeUp_outside] | split | dsimp only | (with_reducible apply outside_foldl'; intro _ _) | (with_reducible apply outside_foldl_fst; intro _ _) | (with_reducible apply outside_iter; intro _))

@[simp ↓] theorem State.takeAbort_outside (s : State) (d : Nat) (r : CollRun) (slot : Option Nat) : (State.takeAbort s d r slot).outside = s.outside := by
  unfold State.takeAbort
  repeat' (first | simp only [↓outside_fst_ite, ↓outside_mk, ↓outside_fold, ↓outside_ite, ite_self, implies_true, ↓State.ceLate_outside, ↓State.setRun_outside, ↓State.tryNorm_outside, ↓State.stopRun_outside] | split | dsimp only | (with_reducible apply outside_foldl'; intro _ _) | (with_reducible apply outside_foldl_fst; intro _ _) | (with_reducible apply outside_iter; intro _))

@[simp ↓] theorem State.takeCtrl_outside (s : State) (d : Nat) (r : CollRun) (f : Frame) : (State.takeCtrl s d r f).outside = s.outside := by
  unfold State.takeCtrl
  repeat' (first | simp only [↓outside_fst_ite, ↓outside_mk, ↓outside_fold, ↓outside_ite, ite_self, implies_true, ↓State.ceLate_outside, ↓State.bump_outside, ↓State.setRun_outside, ↓State.tryNorm_outside, ↓State.normTotal_outside, ↓State.takeAbort_outside] | split | dsimp only | (with_reducible apply outside_foldl'; intro _ _) | (with_reducible apply outside_foldl_fst; intro _ _) | (with_reducible apply outside_iter; intro _))

@[simp ↓] theorem State.takeBlock_outside (s : State) (d : Nat) (f : Frame) : (State.takeBlock s d f).outside = s.outside := by
  unfold State.takeBlock
  repeat' (first | simp only [↓outside_fst_ite, ↓outside_mk, ↓outside_fold, ↓outside_ite, ite_self, implies_true, ↓State.bump_outside, ↓State.hbmWrite_outside, ↓State.setFld_outside] | split | dsimp only | (with_reducible apply outside_foldl'; intro _ _) | (with_reducible apply outside_foldl_fst; intro _ _) | (with_reducible apply outside_iter; intro _))

@[simp ↓] theorem State.takeFrame_outside (s : State) (q : Nat) (f : Frame) : (State.takeFrame s q f).outside = s.outside := by
  unfold State.takeFrame
  repeat' (first | simp only [↓outside_fst_ite, ↓outside_mk, ↓outside_fold, ↓outside_ite, ite_self, implies_true, ↓State.takeTokens_outside, ↓State.takeBlock_outside, ↓State.takeColl_outside, ↓State.takeCtrl_outside] | split | dsimp only | (with_reducible apply outside_foldl'; intro _ _) | (with_reducible apply outside_foldl_fst; intro _ _) | (with_reducible apply outside_iter; intro _))

@[simp ↓] theorem State.settleFrame_outside (s : State) (q : Nat) (f : Frame) (m : Meets) : (s.settleFrame q f m).outside = s.outside := by
  cases m <;> simp only [State.settleFrame, ↓State.takeFrame_outside, ↓State.stDrop_outside, ↓State.ceLate_outside]

@[simp ↓] theorem State.endFrame_outside (s : State) (q : Nat) (f : Frame) (m : Meets) : (State.endFrame s q f m).outside = s.outside := by
  unfold State.endFrame
  repeat' (first | simp only [↓outside_fst_ite, ↓outside_mk, ↓outside_fold, ↓outside_ite, ite_self, implies_true, ↓State.settleFrame_outside, ↓State.freeSlot_outside] | split | dsimp only | (with_reducible apply outside_foldl'; intro _ _) | (with_reducible apply outside_foldl_fst; intro _ _) | (with_reducible apply outside_iter; intro _))

@[simp ↓] theorem State.deliverFrame_outside (s : State) (q : Nat) (f : Frame) : (State.deliverFrame s q f).outside = s.outside := by
  unfold State.deliverFrame
  repeat' (first | simp only [↓outside_fst_ite, ↓outside_mk, ↓outside_fold, ↓outside_ite, ite_self, implies_true, ↓State.holdFrame_outside, ↓State.endFrame_outside] | split | dsimp only | (with_reducible apply outside_foldl'; intro _ _) | (with_reducible apply outside_foldl_fst; intro _ _) | (with_reducible apply outside_iter; intro _))

@[simp ↓] theorem State.releaseHeld_outside (s : State) (g : Frame → Bool) : (s.releaseHeld g).outside = s.outside := by
  unfold State.releaseHeld
  apply outside_foldl'
  · intro t e
    repeat' (first | simp only [↓outside_mk, ↓outside_fold, ↓State.sendLink_outside, ↓State.freeSlot_outside, ↓State.settleFrame_outside, ↓State.endFrame_outside] | split)
  · rfl

end Sys2Proof.Machine
end

