-- ==== Sys2Proof/Laws/KeepAgreeOps.lean ====
section
/-! SUPPORT. Machine/AgreeOps.lean: what its operations leave alone. -/
set_option linter.unusedSimpArgs false
namespace Sys2Proof.Machine

@[simp ↓] theorem State.fallback_outside (s : State) (d info : Nat) : (State.fallback s d info).outside = s.outside := by
  unfold State.fallback
  repeat' (first | simp only [↓outside_fst_ite, ↓outside_mk, ↓outside_fold, ↓outside_ite, ite_self, implies_true, ↓State.faultEv_outside, ↓State.setReg_outside] | split | dsimp only | (with_reducible apply outside_foldl'; intro _ _) | (with_reducible apply outside_foldl_fst; intro _ _) | (with_reducible apply outside_iter; intro _))

theorem State.permResult_keeps (s : State) (v z : Bool) {ro : Outside} (hk : Keeps ro s.outside) : Keeps ro (State.permResult s v z).outside := by
  unfold State.permResult
  repeat' (first | with_reducible assumption | with_reducible exact Keeps.refl _ | simp only [↓outside_fst_ite, ↓outside_mk, ↓outside_fold, ↓outside_ite, ite_self, implies_true, ↓State.flipJobs_outside, ↓State.setFlag_outside, ↓State.setFld_outside, ↓State.event_outside] | split | dsimp only | (with_reducible apply keeps_foldl; intro _ _ _) | (with_reducible apply keeps_iter; intro _ _) | with_reducible apply State.endMaint_keeps | with_reducible apply State.permAbort_keeps | intro _)

@[simp ↓] theorem State.putAgree_outside (s : State) (a : Agree) : (State.putAgree s a).outside = s.outside := by
  unfold State.putAgree
  repeat' (first | simp only [↓outside_fst_ite, ↓outside_mk, ↓outside_fold, ↓outside_ite, ite_self, implies_true] | split | dsimp only | (with_reducible apply outside_foldl'; intro _ _) | (with_reducible apply outside_foldl_fst; intro _ _) | (with_reducible apply outside_iter; intro _))

theorem State.agreeResult_keeps (s : State) (a : Agree) (v z m : Bool) {ro : Outside} (hk : Keeps ro s.outside) : Keeps ro (State.agreeResult s a v z m).outside := by
  unfold State.agreeResult
  repeat' (first | with_reducible assumption | with_reducible exact Keeps.refl _ | simp only [↓outside_fst_ite, ↓outside_mk, ↓outside_fold, ↓outside_ite, ite_self, implies_true, ↓State.sendCtrl_outside, ↓State.gateResult_outside] | split | dsimp only | (with_reducible apply keeps_foldl; intro _ _ _) | (with_reducible apply keeps_iter; intro _ _) | with_reducible apply State.permResult_keeps | intro _)

theorem State.tryAgree_keeps (s : State) (a : Agree) {ro : Outside} (hk : Keeps ro s.outside) : Keeps ro (State.tryAgree s a).outside := by
  unfold State.tryAgree
  repeat' (first | with_reducible assumption | with_reducible exact Keeps.refl _ | simp only [↓outside_fst_ite, ↓outside_mk, ↓outside_fold, ↓outside_ite, ite_self, implies_true, ↓State.putAgree_outside, ↓State.sendCtrl_outside] | split | dsimp only | (with_reducible apply keeps_foldl; intro _ _ _) | (with_reducible apply keeps_iter; intro _ _) | with_reducible apply State.agreeResult_keeps | intro _)

theorem State.contribute_keeps (s : State) (perm : Bool) (j g tag : Nat) (own : Bool) {ro : Outside} (hk : Keeps ro s.outside) : Keeps ro (State.contribute s perm j g tag own).outside := by
  unfold State.contribute
  repeat' (first | with_reducible assumption | with_reducible exact Keeps.refl _ | simp only [↓outside_fst_ite, ↓outside_mk, ↓outside_fold, ↓outside_ite, ite_self, implies_true, ↓State.putAgree_outside] | split | dsimp only | (with_reducible apply keeps_foldl; intro _ _ _) | (with_reducible apply keeps_iter; intro _ _) | with_reducible apply State.tryAgree_keeps | intro _)

end Sys2Proof.Machine
end

