-- ==== Sys2Proof/Laws/KeepSecOps.lean ====
section
/-! SUPPORT. Machine/SecOps.lean: what its operations leave alone. -/
set_option linter.unusedSimpArgs false
namespace Sys2Proof.Machine

@[simp ↓] theorem State.issueFault_outside (s : State) (p : Nat) (r : StartRec) (f : IssueFail) : (State.issueFault s p r f).outside = s.outside := by
  unfold State.issueFault
  repeat' (first | simp only [↓outside_fst_ite, ↓outside_mk, ↓outside_fold, ↓outside_ite, ite_self, implies_true, ↓State.partFault_outside, ↓State.faultEv_outside, ↓State.consume_outside, ↓State.engineFault_outside] | split | dsimp only | (with_reducible apply outside_foldl'; intro _ _) | (with_reducible apply outside_foldl_fst; intro _ _) | (with_reducible apply outside_iter; intro _))

@[simp ↓] theorem State.writeKshift_outside (s : State) (p j : Nat) (es : List Nat) : (State.writeKshift s p j es).outside = s.outside := by
  unfold State.writeKshift
  repeat' (first | simp only [↓outside_fst_ite, ↓outside_mk, ↓outside_fold, ↓outside_ite, ite_self, implies_true, ↓State.setLnt_outside] | split | dsimp only | (with_reducible apply outside_foldl'; intro _ _) | (with_reducible apply outside_foldl_fst; intro _ _) | (with_reducible apply outside_iter; intro _))

@[simp ↓] theorem State.queueColls_outside (s : State) (i : Image) (num j uid tag : Nat) : (State.queueColls s i num j uid tag).outside = s.outside := by
  unfold State.queueColls
  repeat' (first | simp only [↓outside_fst_ite, ↓outside_mk, ↓outside_fold, ↓outside_ite, ite_self, implies_true, ↓State.setEngine_outside] | split | dsimp only | (with_reducible apply outside_foldl'; intro _ _) | (with_reducible apply outside_foldl_fst; intro _ _) | (with_reducible apply outside_iter; intro _))

@[simp ↓] theorem State.seqStart_outside (s : State) (p j role tag : Nat) : (State.seqStart s p j role tag).outside = s.outside := by
  unfold State.seqStart
  repeat' (first | simp only [↓outside_fst_ite, ↓outside_mk, ↓outside_fold, ↓outside_ite, ite_self, implies_true, ↓State.setReg_outside, ↓State.setSeq_outside, ↓State.setFld_outside] | split | dsimp only | (with_reducible apply outside_foldl'; intro _ _) | (with_reducible apply outside_foldl_fst; intro _ _) | (with_reducible apply outside_iter; intro _))

@[simp ↓] theorem State.startSection_outside (s : State) (p : Nat) (i : Image) (c : SecRec) (r : StartRec) : (State.startSection s p i c r).outside = s.outside := by
  unfold State.startSection
  repeat' (first | simp only [↓outside_fst_ite, ↓outside_mk, ↓outside_fold, ↓outside_ite, ite_self, implies_true, ↓State.writeKshift_outside, ↓State.pumpInject_outside, ↓State.queueColls_outside, ↓State.setFld_outside, ↓State.setRing_outside, ↓State.issueResult_outside, ↓State.refreshHeld_outside, ↓State.progress_outside] | split | dsimp only | (with_reducible apply outside_foldl'; intro _ _) | (with_reducible apply outside_foldl_fst; intro _ _) | (with_reducible apply outside_iter; intro _))

@[simp ↓] theorem State.setStepHeld_outside (s : State) (p j : Nat) (q : List StartRec) : (State.setStepHeld s p j q).outside = s.outside := by
  unfold State.setStepHeld
  repeat' (first | simp only [↓outside_fst_ite, ↓outside_mk, ↓outside_fold, ↓outside_ite, ite_self, implies_true, ↓State.refreshHeld_outside] | split | dsimp only | (with_reducible apply outside_foldl'; intro _ _) | (with_reducible apply outside_foldl_fst; intro _ _) | (with_reducible apply outside_iter; intro _))

@[simp ↓] theorem State.setPhaseHeld_outside (s : State) (p j : Nat) (q : List StartRec) : (State.setPhaseHeld s p j q).outside = s.outside := by
  unfold State.setPhaseHeld
  repeat' (first | simp only [↓outside_fst_ite, ↓outside_mk, ↓outside_fold, ↓outside_ite, ite_self, implies_true, ↓State.refreshHeld_outside] | split | dsimp only | (with_reducible apply outside_foldl'; intro _ _) | (with_reducible apply outside_foldl_fst; intro _ _) | (with_reducible apply outside_iter; intro _))

@[simp ↓] theorem State.holdStep_outside (s : State) (p : Nat) (r : StartRec) (again : Bool) : (State.holdStep s p r again).outside = s.outside := by
  unfold State.holdStep
  repeat' (first | simp only [↓outside_fst_ite, ↓outside_mk, ↓outside_fold, ↓outside_ite, ite_self, implies_true, ↓State.setStepHeld_outside, ↓State.reject_outside] | split | dsimp only | (with_reducible apply outside_foldl'; intro _ _) | (with_reducible apply outside_foldl_fst; intro _ _) | (with_reducible apply outside_iter; intro _))

@[simp ↓] theorem State.holdPhase_outside (s : State) (p : Nat) (r : StartRec) : (State.holdPhase s p r).outside = s.outside := by
  unfold State.holdPhase
  repeat' (first | simp only [↓outside_fst_ite, ↓outside_mk, ↓outside_fold, ↓outside_ite, ite_self, implies_true, ↓State.reject_outside, ↓State.setPhaseHeld_outside] | split | dsimp only | (with_reducible apply outside_foldl'; intro _ _) | (with_reducible apply outside_foldl_fst; intro _ _) | (with_reducible apply outside_iter; intro _))

@[simp ↓] theorem State.beginSwitch_outside (s : State) (p j target : Nat) : (State.beginSwitch s p j target).outside = s.outside := by
  unfold State.beginSwitch
  repeat' (first | simp only [↓outside_fst_ite, ↓outside_mk, ↓outside_fold, ↓outside_ite, ite_self, implies_true, ↓State.setFld_outside] | split | dsimp only | (with_reducible apply outside_foldl'; intro _ _) | (with_reducible apply outside_foldl_fst; intro _ _) | (with_reducible apply outside_iter; intro _))

@[simp ↓] theorem State.reach96_outside (s : State) (p : Nat) (r : StartRec) (accum : Bool) : (State.reach96 s p r accum).outside = s.outside := by
  unfold State.reach96
  repeat' (first | simp only [↓outside_fst_ite, ↓outside_mk, ↓outside_fold, ↓outside_ite, ite_self, implies_true, ↓State.boundary_outside, ↓State.holdStep_outside, ↓State.seqStart_outside, ↓State.refreshHeld_outside] | split | dsimp only | (with_reducible apply outside_foldl'; intro _ _) | (with_reducible apply outside_foldl_fst; intro _ _) | (with_reducible apply outside_iter; intro _))

@[simp ↓] theorem State.passPhase_outside (s : State) (p : Nat) (r : StartRec) (accum : Bool) : (State.passPhase s p r accum).outside = s.outside := by
  unfold State.passPhase
  repeat' (first | simp only [↓outside_fst_ite, ↓outside_mk, ↓outside_fold, ↓outside_ite, ite_self, implies_true, ↓State.reach96_outside, ↓State.holdPhase_outside, ↓State.beginSwitch_outside] | split | dsimp only | (with_reducible apply outside_foldl'; intro _ _) | (with_reducible apply outside_foldl_fst; intro _ _) | (with_reducible apply outside_iter; intro _))

@[simp ↓] theorem State.sequence_outside (s : State) (p : Nat) (r : StartRec) (again : Bool) : (State.sequence s p r again).outside = s.outside := by
  unfold State.sequence
  repeat' (first | simp only [↓outside_fst_ite, ↓outside_mk, ↓outside_fold, ↓outside_ite, ite_self, implies_true, ↓State.holdStep_outside, ↓State.consume_outside, ↓State.reject_outside, ↓State.refreshHeld_outside, ↓State.passPhase_outside] | split | dsimp only | (with_reducible apply outside_foldl'; intro _ _) | (with_reducible apply outside_foldl_fst; intro _ _) | (with_reducible apply outside_iter; intro _))

@[simp ↓] theorem State.examine_outside (s : State) (p : Nat) (r : StartRec) : (State.examine s p r).outside = s.outside := by
  unfold State.examine
  repeat' (first | simp only [↓outside_fst_ite, ↓outside_mk, ↓outside_fold, ↓outside_ite, ite_self, implies_true, ↓State.passPhase_outside, ↓State.reject_outside, ↓State.holdStep_outside, ↓State.sequence_outside] | split | dsimp only | (with_reducible apply outside_foldl'; intro _ _) | (with_reducible apply outside_foldl_fst; intro _ _) | (with_reducible apply outside_iter; intro _))

@[simp ↓] theorem State.leave96_outside (s : State) (p : Nat) (r : StartRec) : (State.leave96 s p r).outside = s.outside := by
  unfold State.leave96
  repeat' (first | simp only [↓outside_fst_ite, ↓outside_mk, ↓outside_fold, ↓outside_ite, ite_self, implies_true, ↓State.issueFault_outside, ↓State.setSeq_outside, ↓State.refreshHeld_outside, ↓State.startSection_outside] | split | dsimp only | (with_reducible apply outside_foldl'; intro _ _) | (with_reducible apply outside_foldl_fst; intro _ _) | (with_reducible apply outside_iter; intro _))

@[simp ↓] theorem State.passWaiting_outside (s : State) (p n : Nat) : (s.passWaiting p n).outside = s.outside := by
  induction n generalizing s with
  | zero => rfl
  | succ n ih =>
    unfold State.passWaiting
    split
    · rfl
    · rw [ih]; simp only [↓State.leave96_outside, ↓outside_mk, ↓outside_fold]

@[simp ↓] theorem State.passAllWaiting_outside (s : State) (p : Nat) : (State.passAllWaiting s p).outside = s.outside := by
  unfold State.passAllWaiting
  repeat' (first | simp only [↓outside_fst_ite, ↓outside_mk, ↓outside_fold, ↓outside_ite, ite_self, implies_true, ↓State.passWaiting_outside] | split | dsimp only | (with_reducible apply outside_foldl'; intro _ _) | (with_reducible apply outside_foldl_fst; intro _ _) | (with_reducible apply outside_iter; intro _))

@[simp ↓] theorem State.issueOne_outside (s : State) (p : Nat) : (State.issueOne s p).outside = s.outside := by
  unfold State.issueOne
  repeat' (first | simp only [↓outside_fst_ite, ↓outside_mk, ↓outside_fold, ↓outside_ite, ite_self, implies_true, ↓State.reject_outside, ↓State.examine_outside, ↓State.passAllWaiting_outside] | split | dsimp only | (with_reducible apply outside_foldl'; intro _ _) | (with_reducible apply outside_foldl_fst; intro _ _) | (with_reducible apply outside_iter; intro _))

@[simp ↓] theorem State.releaseStep_outside (s : State) (p j : Nat) : (State.releaseStep s p j).outside = s.outside := by
  unfold State.releaseStep
  repeat' (first | simp only [↓outside_fst_ite, ↓outside_mk, ↓outside_fold, ↓outside_ite, ite_self, implies_true, ↓State.setStepHeld_outside, ↓State.sequence_outside, ↓State.passAllWaiting_outside] | split | dsimp only | (with_reducible apply outside_foldl'; intro _ _) | (with_reducible apply outside_foldl_fst; intro _ _) | (with_reducible apply outside_iter; intro _))

@[simp ↓] theorem State.releasePhase_outside (s : State) (p j : Nat) : (State.releasePhase s p j).outside = s.outside := by
  unfold State.releasePhase
  repeat' (first | simp only [↓outside_fst_ite, ↓outside_mk, ↓outside_fold, ↓outside_ite, ite_self, implies_true, ↓State.examine_outside, ↓State.setPhaseHeld_outside, ↓State.passAllWaiting_outside] | split | dsimp only | (with_reducible apply outside_foldl'; intro _ _) | (with_reducible apply outside_foldl_fst; intro _ _) | (with_reducible apply outside_iter; intro _))

@[simp ↓] theorem State.settle_outside (s : State) (p j : Nat) : (State.settle s p j).outside = s.outside := by
  unfold State.settle
  repeat' (first | simp only [↓outside_fst_ite, ↓outside_mk, ↓outside_fold, ↓outside_ite, ite_self, implies_true, ↓State.setFld_outside, ↓State.jobEvent_outside, ↓State.releaseHeld_outside, ↓State.releasePhase_outside] | split | dsimp only | (with_reducible apply outside_foldl'; intro _ _) | (with_reducible apply outside_foldl_fst; intro _ _) | (with_reducible apply outside_iter; intro _))

@[simp ↓] theorem State.confirmPhase_outside (s : State) (p j : Nat) : (State.confirmPhase s p j).outside = s.outside := by
  unfold State.confirmPhase
  repeat' (first | simp only [↓outside_fst_ite, ↓outside_mk, ↓outside_fold, ↓outside_ite, ite_self, implies_true, ↓State.sendPhase_outside, ↓State.settle_outside] | split | dsimp only | (with_reducible apply outside_foldl'; intro _ _) | (with_reducible apply outside_foldl_fst; intro _ _) | (with_reducible apply outside_iter; intro _))

@[simp ↓] theorem State.tryPhase_outside (s : State) (p j : Nat) : (State.tryPhase s p j).outside = s.outside := by
  unfold State.tryPhase
  repeat' (first | simp only [↓outside_fst_ite, ↓outside_mk, ↓outside_fold, ↓outside_ite, ite_self, implies_true, ↓State.confirmPhase_outside, ↓State.sendPhase_outside] | split | dsimp only | (with_reducible apply outside_foldl'; intro _ _) | (with_reducible apply outside_foldl_fst; intro _ _) | (with_reducible apply outside_iter; intro _))

theorem State.seqEnd_keeps (s : State) (c : Section) {ro : Outside} (hk : Keeps ro s.outside) : Keeps ro (State.seqEnd s c).outside := by
  unfold State.seqEnd
  repeat' (first | with_reducible assumption | with_reducible exact Keeps.refl _ | simp only [↓outside_fst_ite, ↓outside_mk, ↓outside_fold, ↓outside_ite, ite_self, implies_true, ↓State.numMonitors_outside, ↓State.spikeAtPipeEnd_outside, ↓State.setSeq_outside, ↓State.gateResult_outside, ↓State.foldNorms_outside, ↓State.setFld_outside, ↓State.refreshHeld_outside, ↓State.boundary_outside] | split | dsimp only | (with_reducible apply keeps_foldl; intro _ _ _) | (with_reducible apply keeps_iter; intro _ _) | with_reducible apply State.contribute_keeps | intro _)

@[simp ↓] theorem State.refreshAll_outside (s : State) (p : Nat) : (State.refreshAll s p).outside = s.outside := by
  unfold State.refreshAll
  repeat' (first | simp only [↓outside_fst_ite, ↓outside_mk, ↓outside_fold, ↓outside_ite, ite_self, implies_true, ↓State.refreshHeld_outside] | split | dsimp only | (with_reducible apply outside_foldl'; intro _ _) | (with_reducible apply outside_foldl_fst; intro _ _) | (with_reducible apply outside_iter; intro _))

theorem State.endOf_keeps (s : State) (c : Section) {ro : Outside} (hk : Keeps ro s.outside) : Keeps ro (State.endOf s c).outside := by
  unfold State.endOf
  repeat' (first | with_reducible assumption | with_reducible exact Keeps.refl _ | simp only [↓outside_fst_ite, ↓outside_mk, ↓outside_fold, ↓outside_ite, ite_self, implies_true, ↓State.pumpInject_outside, ↓State.notifyCore_outside, ↓State.sourceDone_outside, ↓State.refreshAll_outside, ↓State.progress_outside] | split | dsimp only | (with_reducible apply keeps_foldl; intro _ _ _) | (with_reducible apply keeps_iter; intro _ _) | with_reducible apply State.seqEnd_keeps | intro _)

theorem State.slotDone_keeps (s : State) (p j num : Nat) {ro : Outside} (hk : Keeps ro s.outside) : Keeps ro (State.slotDone s p j num).outside := by
  unfold State.slotDone
  repeat' (first | with_reducible assumption | with_reducible exact Keeps.refl _ | simp only [↓outside_fst_ite, ↓outside_mk, ↓outside_fold, ↓outside_ite, ite_self, implies_true] | split | dsimp only | (with_reducible apply keeps_foldl; intro _ _ _) | (with_reducible apply keeps_iter; intro _ _) | with_reducible apply State.endOf_keeps | intro _)

end Sys2Proof.Machine
end

