-- ==== Sys2Proof/Laws/KeepSections.lean ====
section
/-! SUPPORT. Machine/Sections.lean: what its operations leave alone. -/
set_option linter.unusedSimpArgs false
namespace Sys2Proof.Machine

@[simp ↓] theorem State.takeTracker_outside (s : State) (y l : Nat) : (State.takeTracker s y l).outside = s.outside := by
  unfold State.takeTracker
  repeat' (first | simp only [↓outside_fst_ite, ↓outside_mk, ↓outside_fold, ↓outside_ite, ite_self, implies_true, ↓State.takeOffer_outside, ↓State.progressY_outside] | split | dsimp only | (with_reducible apply outside_foldl'; intro _ _) | (with_reducible apply outside_foldl_fst; intro _ _) | (with_reducible apply outside_iter; intro _))

theorem execSlotDone_good (y : Yard) (s : State) : Good s.outside (execSlotDone y s) := by
  unfold execSlotDone
  repeat' (first | with_reducible exact Keeps.refl _ | with_reducible assumption | with_reducible apply good_next | simp only [↓outside_fst_ite, ↓outside_mk, ↓outside_fold, ↓outside_ite, ite_self, implies_true, ↓State.takeTracker_outside] | split | dsimp only | (with_reducible apply keeps_foldl; intro _ _ _) | (with_reducible apply keeps_iter; intro _ _) | with_reducible apply State.slotDone_keeps | (with_reducible apply State.whenLive_keeps; intro _ _) | intro _)

theorem execTrackerPortToken_good (y : Yard) (lane : Lane) (s : State) : Good s.outside (execTrackerPortToken y lane s) := by
  unfold execTrackerPortToken
  repeat' (first | with_reducible exact Keeps.refl _ | with_reducible assumption | with_reducible apply good_next | simp only [↓outside_fst_ite, ↓outside_mk, ↓outside_fold, ↓outside_ite, ite_self, implies_true, ↓State.takeTracker_outside, ↓State.ctrlError_outside, ↓State.stray_outside] | split | dsimp only | (with_reducible apply keeps_foldl; intro _ _ _) | (with_reducible apply keeps_iter; intro _ _) | (with_reducible apply State.whenLive_keeps; intro _ _) | intro _)

theorem execStepVeto_good (y : Yard) (s : State) : Good s.outside (execStepVeto y s) := by
  unfold execStepVeto
  repeat' (first | with_reducible exact Keeps.refl _ | with_reducible assumption | with_reducible apply good_next | simp only [↓outside_fst_ite, ↓outside_mk, ↓outside_fold, ↓outside_ite, ite_self, implies_true, ↓State.takeTracker_outside, ↓State.bump_outside] | split | dsimp only | (with_reducible apply keeps_foldl; intro _ _ _) | (with_reducible apply keeps_iter; intro _ _) | (with_reducible apply State.whenLive_keeps; intro _ _) | intro _)

theorem execSectionIssue_good (p : Part) (s : State) : Good s.outside (execSectionIssue p s) := by
  unfold execSectionIssue
  repeat' (first | with_reducible exact Keeps.refl _ | with_reducible assumption | with_reducible apply good_next | simp only [↓outside_fst_ite, ↓outside_mk, ↓outside_fold, ↓outside_ite, ite_self, implies_true, ↓State.issueOne_outside] | split | dsimp only | (with_reducible apply keeps_foldl; intro _ _ _) | (with_reducible apply keeps_iter; intro _ _) | (with_reducible apply State.whenLive_keeps; intro _ _) | intro _)

theorem execTrackerReleaseWaiting_good (p : Part) (s : State) : Good s.outside (execTrackerReleaseWaiting p s) := by
  unfold execTrackerReleaseWaiting
  repeat' (first | with_reducible exact Keeps.refl _ | with_reducible assumption | with_reducible apply good_next | simp only [↓outside_fst_ite, ↓outside_mk, ↓outside_fold, ↓outside_ite, ite_self, implies_true, ↓State.passAllWaiting_outside] | split | dsimp only | (with_reducible apply keeps_foldl; intro _ _ _) | (with_reducible apply keeps_iter; intro _ _) | (with_reducible apply State.whenLive_keeps; intro _ _) | intro _)

theorem execStepSeqRelease_good (p : Part) (j : JobId) (s : State) : Good s.outside (execStepSeqRelease p j s) := by
  unfold execStepSeqRelease
  repeat' (first | with_reducible exact Keeps.refl _ | with_reducible assumption | with_reducible apply good_next | simp only [↓outside_fst_ite, ↓outside_mk, ↓outside_fold, ↓outside_ite, ite_self, implies_true, ↓State.releaseStep_outside] | split | dsimp only | (with_reducible apply keeps_foldl; intro _ _ _) | (with_reducible apply keeps_iter; intro _ _) | (with_reducible apply State.whenLive_keeps; intro _ _) | intro _)

@[simp ↓] theorem State.stallFault_outside (s : State) (p y : Nat) : (State.stallFault s p y).outside = s.outside := by
  unfold State.stallFault
  repeat' (first | simp only [↓outside_fst_ite, ↓outside_mk, ↓outside_fold, ↓outside_ite, ite_self, implies_true, ↓State.partFault_outside, ↓State.fabricReset_outside] | split | dsimp only | (with_reducible apply outside_foldl'; intro _ _) | (with_reducible apply outside_foldl_fst; intro _ _) | (with_reducible apply outside_iter; intro _))

@[simp ↓] theorem State.stallSample_outside (s : State) (p : Nat) : (State.stallSample s p).outside = s.outside := by
  unfold State.stallSample
  repeat' (first | simp only [↓outside_fst_ite, ↓outside_mk, ↓outside_fold, ↓outside_ite, ite_self, implies_true, ↓State.stallFault_outside, ↓State.progress_outside] | split | dsimp only | (with_reducible apply outside_foldl'; intro _ _) | (with_reducible apply outside_foldl_fst; intro _ _) | (with_reducible apply outside_iter; intro _))

@[simp ↓] theorem State.budgetSample_outside (s : State) (p : Nat) : (State.budgetSample s p).outside = s.outside := by
  unfold State.budgetSample
  repeat' (first | simp only [↓outside_fst_ite, ↓outside_mk, ↓outside_fold, ↓outside_ite, ite_self, implies_true, ↓State.stallFault_outside, ↓State.partFault_outside, ↓State.fabricReset_outside] | split | dsimp only | (with_reducible apply outside_foldl'; intro _ _) | (with_reducible apply outside_foldl_fst; intro _ _) | (with_reducible apply outside_iter; intro _))

theorem execBudgetSample_good (dt : Nat) (p : Part) (s : State) : Good s.outside (execBudgetSample dt p s) := by
  unfold execBudgetSample
  repeat' (first | with_reducible exact Keeps.refl _ | with_reducible assumption | with_reducible apply good_next | simp only [↓outside_fst_ite, ↓outside_mk, ↓outside_fold, ↓outside_ite, ite_self, implies_true, ↓State.tick_outside, ↓State.budgetSample_outside] | split | dsimp only | (with_reducible apply keeps_foldl; intro _ _ _) | (with_reducible apply keeps_iter; intro _ _) | (with_reducible apply State.whenLive_keeps; intro _ _) | intro _)

theorem execStallSample_good (dt : Nat) (p : Part) (s : State) : Good s.outside (execStallSample dt p s) := by
  unfold execStallSample
  repeat' (first | with_reducible exact Keeps.refl _ | with_reducible assumption | with_reducible apply good_next | simp only [↓outside_fst_ite, ↓outside_mk, ↓outside_fold, ↓outside_ite, ite_self, implies_true, ↓State.tick_outside, ↓State.stallSample_outside] | split | dsimp only | (with_reducible apply keeps_foldl; intro _ _ _) | (with_reducible apply keeps_iter; intro _ _) | (with_reducible apply State.whenLive_keeps; intro _ _) | intro _)

theorem execFabricReset_good (p : Part) (s : State) : Good s.outside (execFabricReset p s) := by
  unfold execFabricReset
  repeat' (first | with_reducible exact Keeps.refl _ | with_reducible assumption | with_reducible apply good_next | simp only [↓outside_fst_ite, ↓outside_mk, ↓outside_fold, ↓outside_ite, ite_self, implies_true, ↓State.fabricReset_outside] | split | dsimp only | (with_reducible apply keeps_foldl; intro _ _ _) | (with_reducible apply keeps_iter; intro _ _) | (with_reducible apply State.whenLive_keeps; intro _ _) | intro _)

end Sys2Proof.Machine
end

