-- ==== Sys2Proof/Laws/KeepLoading.lean ====
section
/-! SUPPORT. Machine/Loading.lean: what its operations leave alone. -/
set_option linter.unusedSimpArgs false
namespace Sys2Proof.Machine

@[simp ↓] theorem State.rigResult_outside (s : State) (p res rig j code : Nat) : (State.rigResult s p res rig j code).outside = s.outside := by
  unfold State.rigResult
  repeat' (first | simp only [↓outside_fst_ite, ↓outside_mk, ↓outside_fold, ↓outside_ite, ite_self, implies_true, ↓State.setReg_outside, ↓State.jobEvent_outside] | split | dsimp only | (with_reducible apply outside_foldl'; intro _ _) | (with_reducible apply outside_foldl_fst; intro _ _) | (with_reducible apply outside_iter; intro _))

@[simp ↓] theorem State.tellRing_outside (s : State) (j : Nat) (src : Option Nat) (code : Option Nat) : (State.tellRing s j src code).outside = s.outside := by
  unfold State.tellRing
  repeat' (first | simp only [↓outside_fst_ite, ↓outside_mk, ↓outside_fold, ↓outside_ite, ite_self, implies_true, ↓State.ringDone_outside, ↓State.haltRing_outside] | split | dsimp only | (with_reducible apply outside_foldl'; intro _ _) | (with_reducible apply outside_foldl_fst; intro _ _) | (with_reducible apply outside_iter; intro _))

@[simp ↓] theorem State.rejectLoad_outside (s : State) (p j code info : Nat) (src : Option Nat) : (State.rejectLoad s p j code info src).outside = s.outside := by
  unfold State.rejectLoad
  repeat' (first | simp only [↓outside_fst_ite, ↓outside_mk, ↓outside_fold, ↓outside_ite, ite_self, implies_true, ↓State.partFault_outside, ↓State.rigResult_outside, ↓State.tellRing_outside] | split | dsimp only | (with_reducible apply outside_foldl'; intro _ _) | (with_reducible apply outside_foldl_fst; intro _ _) | (with_reducible apply outside_iter; intro _))

@[simp ↓] theorem State.startLoad_outside (s : State) (p j a want : Nat) (src : Option Nat) : (State.startLoad s p j a want src).outside = s.outside := by
  unfold State.startLoad
  repeat' (first | simp only [↓outside_fst_ite, ↓outside_mk, ↓outside_fold, ↓outside_ite, ite_self, implies_true, ↓State.rejectLoad_outside, ↓State.post_outside, ↓State.setReg_outside, ↓State.ask_outside, ↓SuRun.ask_outside] | split | dsimp only | (with_reducible apply outside_foldl'; intro _ _) | (with_reducible apply outside_foldl_fst; intro _ _) | (with_reducible apply outside_iter; intro _))

@[simp ↓] theorem State.takeSlot_outside (s : State) (j : Nat) (c : CfgRec) : (State.takeSlot s j c).outside = s.outside := by
  unfold State.takeSlot
  repeat' (first | simp only [↓outside_fst_ite, ↓outside_mk, ↓outside_fold, ↓outside_ite, ite_self, implies_true, ↓State.setUnit_outside] | split | dsimp only | (with_reducible apply outside_foldl'; intro _ _) | (with_reducible apply outside_foldl_fst; intro _ _) | (with_reducible apply outside_iter; intro _))

@[simp ↓] theorem State.takeCode_outside (s : State) (j : Nat) (c : CodeRec) : (State.takeCode s j c).outside = s.outside := by
  unfold State.takeCode
  repeat' (first | simp only [↓outside_fst_ite, ↓outside_mk, ↓outside_fold, ↓outside_ite, ite_self, implies_true, ↓State.setLocal_outside, ↓State.setCtx_outside] | split | dsimp only | (with_reducible apply outside_foldl'; intro _ _) | (with_reducible apply outside_foldl_fst; intro _ _) | (with_reducible apply outside_iter; intro _))

@[simp ↓] theorem State.commitImage_outside (s : State) (l : PendingLoad) (rig : Nat) (res : List ResRec) : (State.commitImage s l rig res).outside = s.outside := by
  unfold State.commitImage
  repeat' (first | simp only [↓outside_fst_ite, ↓outside_mk, ↓outside_fold, ↓outside_ite, ite_self, implies_true, ↓State.takeSlot_outside, ↓State.takeCode_outside, ↓State.setFlag_outside] | split | dsimp only | (with_reducible apply outside_foldl'; intro _ _) | (with_reducible apply outside_foldl_fst; intro _ _) | (with_reducible apply outside_iter; intro _))

@[simp ↓] theorem State.commit_outside (s : State) (l : PendingLoad) : (State.commit s l).outside = s.outside := by
  unfold State.commit
  repeat' (first | simp only [↓outside_fst_ite, ↓outside_mk, ↓outside_fold, ↓outside_ite, ite_self, implies_true, ↓State.dropAsk_outside, ↓State.commitImage_outside, ↓State.rigResult_outside, ↓State.tellRing_outside, ↓State.rejectLoad_outside] | split | dsimp only | (with_reducible apply outside_foldl'; intro _ _) | (with_reducible apply outside_foldl_fst; intro _ _) | (with_reducible apply outside_iter; intro _))

theorem execLoadCommit_good (p : Part) (s : State) : Good s.outside (execLoadCommit p s) := by
  unfold execLoadCommit
  repeat' (first | with_reducible exact Keeps.refl _ | with_reducible assumption | with_reducible apply good_next | simp only [↓outside_fst_ite, ↓outside_mk, ↓outside_fold, ↓outside_ite, ite_self, implies_true, ↓State.commit_outside] | split | dsimp only | (with_reducible apply keeps_foldl; intro _ _ _) | (with_reducible apply keeps_iter; intro _ _) | (with_reducible apply State.whenLive_keeps; intro _ _) | intro _)

@[simp ↓] theorem State.unload_outside (s : State) (p j rig : Nat) : (State.unload s p j rig).2.outside = s.outside := by
  unfold State.unload
  repeat' (first | simp only [↓outside_fst_ite, ↓outside_mk, ↓outside_fold, ↓outside_ite, ite_self, implies_true, ↓State.rigResult_outside, ↓State.dropImage_outside] | split | dsimp only | rfl | (with_reducible apply outside_foldl'; intro _ _) | (with_reducible apply outside_foldl_fst; intro _ _))

theorem State.unload_pair {s : State} {p j rig : Nat} {b1 : Bool} {t1 : State} (e : State.unload s p j rig = (b1, t1)) : t1.outside = s.outside := by
  have k := State.unload_outside s p j rig
  rw [e] at k; exact k

@[simp ↓] theorem State.rigCtrl_outside (s : State) (acc : Acc) (p : Nat) (w : Nat) : (State.rigCtrl s acc p w).outside = s.outside := by
  unfold State.rigCtrl
  repeat' (first | simp only [↓outside_fst_ite, ↓outside_mk, ↓outside_fold, ↓outside_ite, ite_self, implies_true, ↓State.storeReg_outside, ↓State.unload_outside, ↓State.startLoad_outside, ↓State.fabricReset_outside] | split | dsimp only | (with_reducible apply outside_foldl'; intro _ _) | (with_reducible apply outside_foldl_fst; intro _ _) | (with_reducible apply outside_iter; intro _) | (with_reducible apply State.hostWrite_outside; intro _) | refine (State.unload_pair (by assumption)).trans ?_)

theorem execRigLoad_good (acc : Acc) (p : Part) (w : W64) (s : State) : Good s.outside (execRigLoad acc p w s) := by
  unfold execRigLoad
  repeat' (first | with_reducible exact Keeps.refl _ | with_reducible assumption | with_reducible apply good_next | simp only [↓outside_fst_ite, ↓outside_mk, ↓outside_fold, ↓outside_ite, ite_self, implies_true, ↓State.rigCtrl_outside] | split | dsimp only | (with_reducible apply keeps_foldl; intro _ _ _) | (with_reducible apply keeps_iter; intro _ _) | intro _)

theorem execUnload_good (acc : Acc) (p : Part) (w : W64) (s : State) : Good s.outside (execUnload acc p w s) := by
  unfold execUnload
  repeat' (first | with_reducible exact Keeps.refl _ | with_reducible assumption | with_reducible apply good_next | simp only [↓outside_fst_ite, ↓outside_mk, ↓outside_fold, ↓outside_ite, ite_self, implies_true, ↓State.rigCtrl_outside] | split | dsimp only | (with_reducible apply keeps_foldl; intro _ _ _) | (with_reducible apply keeps_iter; intro _ _) | intro _)

theorem execAbandon_good (acc : Acc) (p : Part) (w : W64) (s : State) : Good s.outside (execAbandon acc p w s) := by
  unfold execAbandon
  repeat' (first | with_reducible exact Keeps.refl _ | with_reducible assumption | with_reducible apply good_next | simp only [↓outside_fst_ite, ↓outside_mk, ↓outside_fold, ↓outside_ite, ite_self, implies_true, ↓State.rigCtrl_outside] | split | dsimp only | (with_reducible apply keeps_foldl; intro _ _ _) | (with_reducible apply keeps_iter; intro _ _) | intro _)

end Sys2Proof.Machine
end

