-- ==== Sys2Proof/Laws/KeepMemory.lean ====
section
/-! SUPPORT. Machine/Memory.lean: what its operations leave alone. -/
set_option linter.unusedSimpArgs false
namespace Sys2Proof.Machine

@[simp ↓] theorem State.askAnswer_outside (s : State) (r : MemReq) : (State.askAnswer s r).outside = s.outside := by
  unfold State.askAnswer
  repeat' (first | simp only [↓outside_fst_ite, ↓outside_mk, ↓outside_fold, ↓outside_ite, ite_self, implies_true, ↓State.barDone_outside] | split | dsimp only | (with_reducible apply outside_foldl'; intro _ _) | (with_reducible apply outside_foldl_fst; intro _ _) | (with_reducible apply outside_iter; intro _))

@[simp ↓] theorem State.unitAnswer_outside (s : State) (r : MemReq) : (State.unitAnswer s r).outside = s.outside := by
  unfold State.unitAnswer
  repeat' (first | simp only [↓outside_fst_ite, ↓outside_mk, ↓outside_fold, ↓outside_ite, ite_self, implies_true, ↓State.emit_outside, ↓State.setUnit_outside, ↓State.pumpOut_outside, ↓State.progress_outside] | split | dsimp only | (with_reducible apply outside_foldl'; intro _ _) | (with_reducible apply outside_foldl_fst; intro _ _) | (with_reducible apply outside_iter; intro _))

@[simp ↓] theorem State.memAnswer_outside (s : State) (r : MemReq) : (State.memAnswer s r).outside = s.outside := by
  unfold State.memAnswer
  repeat' (first | simp only [↓outside_fst_ite, ↓outside_mk, ↓outside_fold, ↓outside_ite, ite_self, implies_true, ↓State.unitAnswer_outside, ↓State.askAnswer_outside] | split | dsimp only | (with_reducible apply outside_foldl'; intro _ _) | (with_reducible apply outside_foldl_fst; intro _ _) | (with_reducible apply outside_iter; intro _))

@[simp ↓] theorem State.cameBack_outside (s : State) (r : MemReq) : (State.cameBack s r).outside = s.outside := by
  unfold State.cameBack
  repeat' (first | simp only [↓outside_fst_ite, ↓outside_mk, ↓outside_fold, ↓outside_ite, ite_self, implies_true, ↓State.memAnswer_outside, ↓State.setSlice_outside] | split | dsimp only | (with_reducible apply outside_foldl'; intro _ _) | (with_reducible apply outside_foldl_fst; intro _ _) | (with_reducible apply outside_iter; intro _))

@[simp ↓] theorem State.chanPut_outside (s : State) (r : MemReq) : (State.chanPut s r).outside = s.outside := by
  unfold State.chanPut
  repeat' (first | simp only [↓outside_fst_ite, ↓outside_mk, ↓outside_fold, ↓outside_ite, ite_self, implies_true, ↓State.memAnswer_outside, ↓State.cameBack_outside, ↓State.setChan_outside] | split | dsimp only | (with_reducible apply outside_foldl'; intro _ _) | (with_reducible apply outside_foldl_fst; intro _ _) | (with_reducible apply outside_iter; intro _))

@[simp ↓] theorem State.serveHit_outside (s : State) (r : MemReq) : (State.serveHit s r).outside = s.outside := by
  unfold State.serveHit
  repeat' (first | simp only [↓outside_fst_ite, ↓outside_mk, ↓outside_fold, ↓outside_ite, ite_self, implies_true, ↓State.setSlice_outside, ↓State.memAnswer_outside] | split | dsimp only | (with_reducible apply outside_foldl'; intro _ _) | (with_reducible apply outside_foldl_fst; intro _ _) | (with_reducible apply outside_iter; intro _))

@[simp ↓] theorem State.letGo_outside (s : State) (kind : Nat) (h : Held) : (State.letGo s kind h).outside = s.outside := by
  unfold State.letGo
  repeat' (first | simp only [↓outside_fst_ite, ↓outside_mk, ↓outside_fold, ↓outside_ite, ite_self, implies_true, ↓State.serveHit_outside, ↓State.chanPut_outside, ↓State.pushFrame_outside] | split | dsimp only | (with_reducible apply outside_foldl'; intro _ _) | (with_reducible apply outside_foldl_fst; intro _ _) | (with_reducible apply outside_iter; intro _))

@[simp ↓] theorem State.cacheHit_outside (s : State) (r : MemReq) : (State.cacheHit s r).outside = s.outside := by
  unfold State.cacheHit
  repeat' (first | simp only [↓outside_fst_ite, ↓outside_mk, ↓outside_fold, ↓outside_ite, ite_self, implies_true, ↓State.bump_outside] | split | dsimp only | (with_reducible apply outside_foldl'; intro _ _) | (with_reducible apply outside_foldl_fst; intro _ _) | (with_reducible apply outside_iter; intro _))

@[simp ↓] theorem State.goOn_outside (s : State) (h kind : Nat) (r : MemReq) : (State.goOn s h kind r).outside = s.outside := by
  unfold State.goOn
  repeat' (first | simp only [↓outside_fst_ite, ↓outside_mk, ↓outside_fold, ↓outside_ite, ite_self, implies_true, ↓State.letGo_outside, ↓State.letIn_outside] | split | dsimp only | (with_reducible apply outside_foldl'; intro _ _) | (with_reducible apply outside_foldl_fst; intro _ _) | (with_reducible apply outside_iter; intro _) | refine (State.letIn_pair (by assumption)).trans ?_)

@[simp ↓] theorem State.slAccess_outside (s : State) (h : Nat) : (State.slAccess s h).outside = s.outside := by
  unfold State.slAccess
  repeat' (first | simp only [↓outside_fst_ite, ↓outside_mk, ↓outside_fold, ↓outside_ite, ite_self, implies_true, ↓State.setSlice_outside, ↓State.bump_outside, ↓State.goOn_outside, ↓State.cacheHit_outside] | split | dsimp only | (with_reducible apply outside_foldl'; intro _ _) | (with_reducible apply outside_foldl_fst; intro _ _) | (with_reducible apply outside_iter; intro _))

theorem execScAccess_good (h : Stack) (s : State) : Good s.outside (execScAccess h s) := by
  unfold execScAccess
  repeat' (first | with_reducible exact Keeps.refl _ | with_reducible assumption | with_reducible apply good_next | simp only [↓outside_fst_ite, ↓outside_mk, ↓outside_fold, ↓outside_ite, ite_self, implies_true, ↓State.slAccess_outside] | split | dsimp only | (with_reducible apply keeps_foldl; intro _ _ _) | (with_reducible apply keeps_iter; intro _ _) | (with_reducible apply State.whenLive_keeps; intro _ _) | intro _)

@[simp ↓] theorem State.putLine_outside (s : State) (h p line : Nat) : (State.putLine s h p line).outside = s.outside := by
  unfold State.putLine
  repeat' (first | simp only [↓outside_fst_ite, ↓outside_mk, ↓outside_fold, ↓outside_ite, ite_self, implies_true, ↓State.setSlice_outside] | split | dsimp only | (with_reducible apply outside_foldl'; intro _ _) | (with_reducible apply outside_foldl_fst; intro _ _) | (with_reducible apply outside_iter; intro _))

@[simp ↓] theorem State.fillDone_outside (s : State) (h : Nat) : (State.fillDone s h).outside = s.outside := by
  unfold State.fillDone
  repeat' (first | simp only [↓outside_fst_ite, ↓outside_mk, ↓outside_fold, ↓outside_ite, ite_self, implies_true, ↓State.setSlice_outside, ↓State.putLine_outside, ↓State.memAnswer_outside] | split | dsimp only | (with_reducible apply outside_foldl'; intro _ _) | (with_reducible apply outside_foldl_fst; intro _ _) | (with_reducible apply outside_iter; intro _))

theorem execScFillComplete_good (h : Stack) (s : State) : Good s.outside (execScFillComplete h s) := by
  unfold execScFillComplete
  repeat' (first | with_reducible exact Keeps.refl _ | with_reducible assumption | with_reducible apply good_next | simp only [↓outside_fst_ite, ↓outside_mk, ↓outside_fold, ↓outside_ite, ite_self, implies_true, ↓State.fillDone_outside] | split | dsimp only | (with_reducible apply keeps_foldl; intro _ _ _) | (with_reducible apply keeps_iter; intro _ _) | (with_reducible apply State.whenLive_keeps; intro _ _) | intro _)

@[simp ↓] theorem State.grantSlot_outside (s : State) (c again : Nat) : (State.grantSlot s c again).outside = s.outside := by
  unfold State.grantSlot
  repeat' (first | simp only [↓outside_fst_ite, ↓outside_mk, ↓outside_fold, ↓outside_ite, ite_self, implies_true, ↓State.setChan_outside, ↓State.bump_outside] | split | dsimp only | (with_reducible apply outside_foldl'; intro _ _) | (with_reducible apply outside_foldl_fst; intro _ _) | (with_reducible apply outside_iter; intro _))

theorem execHbmGrant_good (c : Chan × Nat) (s : State) : Good s.outside (execHbmGrant c s) := by
  unfold execHbmGrant
  repeat' (first | with_reducible exact Keeps.refl _ | with_reducible assumption | with_reducible apply good_next | simp only [↓outside_fst_ite, ↓outside_mk, ↓outside_fold, ↓outside_ite, ite_self, implies_true, ↓State.grantSlot_outside] | split | dsimp only | (with_reducible apply keeps_foldl; intro _ _ _) | (with_reducible apply keeps_iter; intro _ _) | (with_reducible apply State.whenLive_keeps; intro _ _) | intro _)

@[simp ↓] theorem State.readBack_outside (s : State) (c row : Nat) (sev : Ecc) : (State.readBack s c row sev).outside = s.outside := by
  unfold State.readBack
  repeat' (first | simp only [↓outside_fst_ite, ↓outside_mk, ↓outside_fold, ↓outside_ite, ite_self, implies_true, ↓State.setChan_outside, ↓State.rowRead_outside, ↓State.cameBack_outside] | split | dsimp only | (with_reducible apply outside_foldl'; intro _ _) | (with_reducible apply outside_foldl_fst; intro _ _) | (with_reducible apply outside_iter; intro _))

theorem execHbmReadComplete_good (c : Chan) (row : BitVec 22) (sev : Ecc) (s : State) : Good s.outside (execHbmReadComplete c row sev s) := by
  unfold execHbmReadComplete
  repeat' (first | with_reducible exact Keeps.refl _ | with_reducible assumption | with_reducible apply good_next | simp only [↓outside_fst_ite, ↓outside_mk, ↓outside_fold, ↓outside_ite, ite_self, implies_true, ↓State.readBack_outside] | split | dsimp only | (with_reducible apply keeps_foldl; intro _ _ _) | (with_reducible apply keeps_iter; intro _ _) | (with_reducible apply State.whenLive_keeps; intro _ _) | intro _)

@[simp ↓] theorem State.scrubRow_outside (s : State) (c row : Nat) (sev : Ecc) : (State.scrubRow s c row sev).outside = s.outside := by
  unfold State.scrubRow
  repeat' (first | simp only [↓outside_fst_ite, ↓outside_mk, ↓outside_fold, ↓outside_ite, ite_self, implies_true, ↓State.readLine_outside, ↓State.rowRead_outside] | split | dsimp only | (with_reducible apply outside_foldl'; intro _ _) | (with_reducible apply outside_foldl_fst; intro _ _) | (with_reducible apply outside_iter; intro _))

theorem execPatrolScrub_good (c : Chan) (row : BitVec 22) (sev : Ecc) (s : State) : Good s.outside (execPatrolScrub c row sev s) := by
  unfold execPatrolScrub
  repeat' (first | with_reducible exact Keeps.refl _ | with_reducible assumption | with_reducible apply good_next | simp only [↓outside_fst_ite, ↓outside_mk, ↓outside_fold, ↓outside_ite, ite_self, implies_true, ↓State.scrubRow_outside] | split | dsimp only | (with_reducible apply keeps_foldl; intro _ _ _) | (with_reducible apply keeps_iter; intro _ _) | (with_reducible apply State.whenLive_keeps; intro _ _) | intro _)

@[simp ↓] theorem State.refillOne_outside (s : State) (kind p i : Nat) : (State.refillOne s kind p i).outside = s.outside := by
  unfold State.refillOne
  repeat' (first | simp only [↓outside_fst_ite, ↓outside_mk, ↓outside_fold, ↓outside_ite, ite_self, implies_true, ↓State.letGo_outside, ↓State.setBucket_outside] | split | dsimp only | (with_reducible apply outside_foldl'; intro _ _) | (with_reducible apply outside_foldl_fst; intro _ _) | (with_reducible apply outside_iter; intro _))

@[simp ↓] theorem State.refillKind_outside (s0 : State) (p kind : Nat) : (State.refillKind s0 p kind).outside = s0.outside := by
  unfold State.refillKind
  repeat' (first | simp only [↓outside_fst_ite, ↓outside_mk, ↓outside_fold, ↓outside_ite, ite_self, implies_true, ↓State.refillOne_outside] | split | dsimp only | (with_reducible apply outside_foldl'; intro _ _) | (with_reducible apply outside_foldl_fst; intro _ _) | (with_reducible apply outside_iter; intro _))

theorem execRegulatorRefill_good (dt : Nat) (p : Part) (s : State) : Good s.outside (execRegulatorRefill dt p s) := by
  unfold execRegulatorRefill
  repeat' (first | with_reducible exact Keeps.refl _ | with_reducible assumption | with_reducible apply good_next | simp only [↓outside_fst_ite, ↓outside_mk, ↓outside_fold, ↓outside_ite, ite_self, implies_true, ↓State.tick_outside, ↓State.refillKind_outside] | split | dsimp only | (with_reducible apply keeps_foldl; intro _ _ _) | (with_reducible apply keeps_iter; intro _ _) | (with_reducible apply State.whenLive_keeps; intro _ _) | intro _)

@[simp ↓] theorem State.readTemp_outside (s : State) (h t : Nat) : (State.readTemp s h t).outside = s.outside := by
  unfold State.readTemp
  repeat' (first | simp only [↓outside_fst_ite, ↓outside_mk, ↓outside_fold, ↓outside_ite, ite_self, implies_true, ↓State.setFld_outside, ↓State.bump_outside, ↓State.setFlag_outside, ↓State.faultEv_outside] | split | dsimp only | (with_reducible apply outside_foldl'; intro _ _) | (with_reducible apply outside_foldl_fst; intro _ _) | (with_reducible apply outside_iter; intro _))

theorem execHbmTempSample_good (dt : Nat) (h : Stack) (t : BitVec 16) (s : State) : Good s.outside (execHbmTempSample dt h t s) := by
  unfold execHbmTempSample
  repeat' (first | with_reducible exact Keeps.refl _ | with_reducible assumption | with_reducible apply good_next | simp only [↓outside_fst_ite, ↓outside_mk, ↓outside_fold, ↓outside_ite, ite_self, implies_true, ↓State.tick_outside, ↓State.readTemp_outside] | split | dsimp only | (with_reducible apply keeps_foldl; intro _ _ _) | (with_reducible apply keeps_iter; intro _ _) | (with_reducible apply State.whenLive_keeps; intro _ _) | intro _)

@[simp ↓] theorem State.repairEntry_outside (s : State) (h e : Nat) : (State.repairEntry s h e).outside = s.outside := by
  unfold State.repairEntry
  repeat' (first | simp only [↓outside_fst_ite, ↓outside_mk, ↓outside_fold, ↓outside_ite, ite_self, implies_true, ↓State.freeFence_outside, ↓State.bumpFld_outside, ↓State.setFld_outside] | split | dsimp only | (with_reducible apply outside_foldl'; intro _ _) | (with_reducible apply outside_foldl_fst; intro _ _) | (with_reducible apply outside_iter; intro _))

theorem State.repairStep_keeps (s : State) (h : Nat) {ro : Outside} (hk : Keeps ro s.outside) : Keeps ro (State.repairStep s h).outside := by
  unfold State.repairStep
  repeat' (first | with_reducible assumption | with_reducible exact Keeps.refl _ | simp only [↓outside_fst_ite, ↓outside_mk, ↓outside_fold, ↓outside_ite, ite_self, implies_true, ↓State.setFlag_outside, ↓State.setFld_outside, ↓State.repairEntry_outside] | split | dsimp only | (with_reducible apply keeps_foldl; intro _ _ _) | (with_reducible apply keeps_iter; intro _ _) | with_reducible apply State.endMaint_keeps | intro _)

theorem execRowRepairRun_good (dt : Nat) (h : Stack) (s : State) : Good s.outside (execRowRepairRun dt h s) := by
  unfold execRowRepairRun
  repeat' (first | with_reducible exact Keeps.refl _ | with_reducible assumption | with_reducible apply good_next | simp only [↓outside_fst_ite, ↓outside_mk, ↓outside_fold, ↓outside_ite, ite_self, implies_true, ↓State.tick_outside] | split | dsimp only | (with_reducible apply keeps_foldl; intro _ _ _) | (with_reducible apply keeps_iter; intro _ _) | with_reducible apply State.repairStep_keeps | (with_reducible apply State.whenLive_keeps; intro _ _) | intro _)

theorem State.askMapOut_keeps (s : State) (c src : Nat) {ro : Outside} (hk : Keeps ro s.outside) : Keeps ro (State.askMapOut s c src).outside := by
  unfold State.askMapOut
  repeat' (first | with_reducible assumption | with_reducible exact Keeps.refl _ | simp only [↓outside_fst_ite, ↓outside_mk, ↓outside_fold, ↓outside_ite, ite_self, implies_true, ↓State.moShow_outside, ↓State.event_outside] | split | dsimp only | (with_reducible apply keeps_foldl; intro _ _ _) | (with_reducible apply keeps_iter; intro _ _) | with_reducible apply State.maintAsk_keeps | intro _)

theorem State.arbiter_keeps (s : State) (m : MaintOp) {ro : Outside} (hk : Keeps ro s.outside) : Keeps ro (State.arbiter s m).outside := by
  unfold State.arbiter
  repeat' (first | with_reducible assumption | with_reducible exact Keeps.refl _ | simp only [↓outside_fst_ite, ↓outside_mk, ↓outside_fold, ↓outside_ite, ite_self, implies_true] | split | dsimp only | (with_reducible apply keeps_foldl; intro _ _ _) | (with_reducible apply keeps_iter; intro _ _) | with_reducible apply State.askMapOut_keeps | with_reducible apply State.maintAsk_keeps | intro _)

theorem State.request_keeps (s : State) (m : MaintOp) {ro : Outside} (hk : Keeps ro s.outside) : Keeps ro (State.request s m).outside := by
  unfold State.request
  repeat' (first | with_reducible assumption | with_reducible exact Keeps.refl _ | simp only [↓outside_fst_ite, ↓outside_mk, ↓outside_fold, ↓outside_ite, ite_self, implies_true] | split | dsimp only | (with_reducible apply keeps_foldl; intro _ _ _) | (with_reducible apply keeps_iter; intro _ _) | with_reducible apply State.arbiter_keeps | intro _)

theorem State.actOnWaiting_keeps (s : State) {ro : Outside} (hk : Keeps ro s.outside) : Keeps ro (State.actOnWaiting s).outside := by
  unfold State.actOnWaiting
  repeat' (first | with_reducible assumption | with_reducible exact Keeps.refl _ | simp only [↓outside_fst_ite, ↓outside_mk, ↓outside_fold, ↓outside_ite, ite_self, implies_true] | split | dsimp only | (with_reducible apply keeps_foldl; intro _ _ _) | (with_reducible apply keeps_iter; intro _ _) | with_reducible apply State.examineQueue_keeps | with_reducible apply State.arbiter_keeps | intro _)

theorem execMapOutRequest_good (acc : Acc) (h : Stack) (w : W64) (s : State) : Good s.outside (execMapOutRequest acc h w s) := by
  unfold execMapOutRequest
  repeat' (first | with_reducible exact Keeps.refl _ | with_reducible assumption | with_reducible apply good_next | simp only [↓outside_fst_ite, ↓outside_mk, ↓outside_fold, ↓outside_ite, ite_self, implies_true, ↓State.storeReg_outside] | split | dsimp only | (with_reducible apply keeps_foldl; intro _ _ _) | (with_reducible apply keeps_iter; intro _ _) | with_reducible apply State.request_keeps | (with_reducible apply State.hostWrite_keeps; intro _ _) | intro _)

theorem execRepair_good (acc : Acc) (h : Stack) (w : W64) (s : State) : Good s.outside (execRepair acc h w s) := by
  unfold execRepair
  repeat' (first | with_reducible exact Keeps.refl _ | with_reducible assumption | with_reducible apply good_next | simp only [↓outside_fst_ite, ↓outside_mk, ↓outside_fold, ↓outside_ite, ite_self, implies_true] | split | dsimp only | (with_reducible apply keeps_foldl; intro _ _ _) | (with_reducible apply keeps_iter; intro _ _) | with_reducible apply State.request_keeps | (with_reducible apply State.hostWrite_keeps; intro _ _) | intro _)

theorem execMapOutQuiesced_good (dt : Nat) (c : Chan) (s : State) : Good s.outside (execMapOutQuiesced dt c s) := by
  unfold execMapOutQuiesced
  repeat' (first | with_reducible exact Keeps.refl _ | with_reducible assumption | with_reducible apply good_next | simp only [↓outside_fst_ite, ↓outside_mk, ↓outside_fold, ↓outside_ite, ite_self, implies_true, ↓State.tick_outside, ↓State.setFld_outside] | split | dsimp only | (with_reducible apply keeps_foldl; intro _ _ _) | (with_reducible apply keeps_iter; intro _ _) | (with_reducible apply State.whenLive_keeps; intro _ _) | intro _)

@[simp ↓] theorem State.copyErrs_outside (s : State) (read : Nat → Bool) (errs : List (Chan × BitVec 22 × Ecc)) :
    (s.copyErrs read errs).outside = s.outside := by
  unfold State.copyErrs
  apply outside_foldl'
  · intro t x; repeat' (first | rfl | simp only [↓State.rowRead_outside] | split)
  · rfl

@[simp ↓] theorem State.copyHbm_outside (s : State) (a b n : Nat) : (State.copyHbm s a b n).outside = s.outside := by
  unfold State.copyHbm
  repeat' (first | simp only [↓outside_fst_ite, ↓outside_mk, ↓outside_fold, ↓outside_ite, ite_self, implies_true, ↓State.writeLine_outside, ↓State.readLine_outside] | split | dsimp only | (with_reducible apply outside_foldl'; intro _ _) | (with_reducible apply outside_foldl_fst; intro _ _) | (with_reducible apply outside_iter; intro _))

@[simp ↓] theorem State.setPlace_outside (s : State) (b k a : Nat) : (State.setPlace s b k a).outside = s.outside := by
  unfold State.setPlace
  repeat' (first | simp only [↓outside_fst_ite, ↓outside_mk, ↓outside_fold, ↓outside_ite, ite_self, implies_true, ↓State.setReg_outside] | split | dsimp only | (with_reducible apply outside_foldl'; intro _ _) | (with_reducible apply outside_foldl_fst; intro _ _) | (with_reducible apply outside_iter; intro _))

@[simp ↓] theorem State.migrate_outside (s : State) (b d off : Nat) : (State.migrate s b d off).outside = s.outside := by
  unfold State.migrate
  repeat' (first | simp only [↓outside_fst_ite, ↓outside_mk, ↓outside_fold, ↓outside_ite, ite_self, implies_true, ↓State.copyHbm_outside, ↓State.setPlace_outside, ↓State.setFlag_outside] | split | dsimp only | (with_reducible apply outside_foldl'; intro _ _) | (with_reducible apply outside_foldl_fst; intro _ _) | (with_reducible apply outside_iter; intro _))

@[simp ↓] theorem State.migrateAll_outside (s : State) (off : Nat) (bs : List Nat) (d n : Nat) :
    (s.migrateAll off bs d n).1.outside = s.outside := by
  induction bs generalizing s d n with
  | nil => rfl
  | cons b bs ih => unfold State.migrateAll; rw [ih]; simp only [↓State.migrate_outside]

@[simp ↓] theorem State.moveShards_outside (s0 : State) (c : Nat) (errs : List (Chan × BitVec 22 × Ecc)) : (State.moveShards s0 c errs).outside = s0.outside := by
  unfold State.moveShards
  repeat' (first | simp only [↓outside_fst_ite, ↓outside_mk, ↓outside_fold, ↓outside_ite, ite_self, implies_true, ↓State.copyErrs_outside, ↓State.setFlag_outside, ↓State.migrateAll_outside, ↓State.flipJobs_outside, ↓State.setFld_outside] | split | dsimp only | (with_reducible apply outside_foldl'; intro _ _) | (with_reducible apply outside_foldl_fst; intro _ _) | (with_reducible apply outside_iter; intro _))

theorem execMapOutShardsDone_good (dt : Nat) (c : Chan × List (Chan × BitVec 22 × Ecc)) (s : State) : Good s.outside (execMapOutShardsDone dt c s) := by
  unfold execMapOutShardsDone
  repeat' (first | with_reducible exact Keeps.refl _ | with_reducible assumption | with_reducible apply good_next | simp only [↓outside_fst_ite, ↓outside_mk, ↓outside_fold, ↓outside_ite, ite_self, implies_true, ↓State.tick_outside, ↓State.moveShards_outside] | split | dsimp only | (with_reducible apply keeps_foldl; intro _ _ _) | (with_reducible apply keeps_iter; intro _ _) | (with_reducible apply State.whenLive_keeps; intro _ _) | intro _)

@[simp ↓] theorem State.restripe_outside (s : State) (y : Nat) (old new : List Nat) (errs : List (Chan × BitVec 22 × Ecc)) : (State.restripe s y old new errs).outside = s.outside := by
  unfold State.restripe
  repeat' (first | simp only [↓outside_fst_ite, ↓outside_mk, ↓outside_fold, ↓outside_ite, ite_self, implies_true, ↓State.copyErrs_outside, ↓State.readLine_outside, ↓State.writeLine_outside] | split | dsimp only | (with_reducible apply outside_foldl'; intro _ _) | (with_reducible apply outside_foldl_fst; intro _ _) | (with_reducible apply outside_iter; intro _))

theorem State.mapOutDone_keeps (s : State) (c : Nat) (errs : List (Chan × BitVec 22 × Ecc)) {ro : Outside} (hk : Keeps ro s.outside) : Keeps ro (State.mapOutDone s c errs).outside := by
  unfold State.mapOutDone
  repeat' (first | with_reducible assumption | with_reducible exact Keeps.refl _ | simp only [↓outside_fst_ite, ↓outside_mk, ↓outside_fold, ↓outside_ite, ite_self, implies_true, ↓State.restripe_outside, ↓State.setFld_outside, ↓State.setFlag_outside, ↓State.dropLines_outside, ↓State.freeFence_outside, ↓State.fault_outside, ↓State.event_outside] | split | dsimp only | (with_reducible apply keeps_foldl; intro _ _ _) | (with_reducible apply keeps_iter; intro _ _) | with_reducible apply State.endMaint_keeps | intro _)

theorem execMapOutRestripeDone_good (dt : Nat) (c : Chan × List (Chan × BitVec 22 × Ecc)) (s : State) : Good s.outside (execMapOutRestripeDone dt c s) := by
  unfold execMapOutRestripeDone
  repeat' (first | with_reducible exact Keeps.refl _ | with_reducible assumption | with_reducible apply good_next | simp only [↓outside_fst_ite, ↓outside_mk, ↓outside_fold, ↓outside_ite, ite_self, implies_true, ↓State.tick_outside] | split | dsimp only | (with_reducible apply keeps_foldl; intro _ _ _) | (with_reducible apply keeps_iter; intro _ _) | with_reducible apply State.mapOutDone_keeps | (with_reducible apply State.whenLive_keeps; intro _ _) | intro _)

@[simp ↓] theorem State.sdWrite_outside (s : State) (b k w m : Nat) : (State.sdWrite s b k w m).outside = s.outside := by
  unfold State.sdWrite
  repeat' (first | simp only [↓outside_fst_ite, ↓outside_mk, ↓outside_fold, ↓outside_ite, ite_self, implies_true, ↓State.storeReg_outside, ↓State.setFlag_outside] | split | dsimp only | (with_reducible apply outside_foldl'; intro _ _) | (with_reducible apply outside_foldl_fst; intro _ _) | (with_reducible apply outside_iter; intro _))

theorem execSdEntryWrite_good (acc : Acc) (b : Fin 131072) (word : Fin 4) (w : W64) (s : State) : Good s.outside (execSdEntryWrite acc b word w s) := by
  unfold execSdEntryWrite
  repeat' (first | with_reducible exact Keeps.refl _ | with_reducible assumption | with_reducible apply good_next | simp only [↓outside_fst_ite, ↓outside_mk, ↓outside_fold, ↓outside_ite, ite_self, implies_true, ↓State.sdWrite_outside] | split | dsimp only | (with_reducible apply keeps_foldl; intro _ _ _) | (with_reducible apply keeps_iter; intro _ _) | (with_reducible apply State.hostWrite_keeps; intro _ _) | intro _)

theorem execFlip_good (acc : Acc) (w : W64) (s : State) : Good s.outside (execFlip acc w s) := by
  unfold execFlip
  repeat' (first | with_reducible exact Keeps.refl _ | with_reducible assumption | with_reducible apply good_next | simp only [↓outside_fst_ite, ↓outside_mk, ↓outside_fold, ↓outside_ite, ite_self, implies_true, ↓State.storeReg_outside, ↓State.setFlag_outside, ↓State.setFld_outside] | split | dsimp only | (with_reducible apply keeps_foldl; intro _ _ _) | (with_reducible apply keeps_iter; intro _ _) | (with_reducible apply State.hostWrite_keeps; intro _ _) | intro _)

@[simp ↓] theorem State.moHold_outside (s : State) : (State.moHold s).outside = s.outside := by
  unfold State.moHold
  repeat' (first | simp only [↓outside_fst_ite, ↓outside_mk, ↓outside_fold, ↓outside_ite, ite_self, implies_true] | split | dsimp only | (with_reducible apply outside_foldl'; intro _ _) | (with_reducible apply outside_foldl_fst; intro _ _) | (with_reducible apply outside_iter; intro _))

@[simp ↓] theorem State.doFlip_outside (s : State) : (State.doFlip s).outside = s.outside := by
  unfold State.doFlip
  repeat' (first | simp only [↓outside_fst_ite, ↓outside_mk, ↓outside_fold, ↓outside_ite, ite_self, implies_true, ↓State.flipJob_outside, ↓State.countFlip_outside, ↓State.moHold_outside] | split | dsimp only | (with_reducible apply outside_foldl'; intro _ _) | (with_reducible apply outside_foldl_fst; intro _ _) | (with_reducible apply outside_iter; intro _))

theorem execSdFlip_good (s : State) : Good s.outside (execSdFlip s) := by
  unfold execSdFlip
  repeat' (first | with_reducible exact Keeps.refl _ | with_reducible assumption | with_reducible apply good_next | simp only [↓outside_fst_ite, ↓outside_mk, ↓outside_fold, ↓outside_ite, ite_self, implies_true, ↓State.doFlip_outside] | split | dsimp only | (with_reducible apply keeps_foldl; intro _ _ _) | (with_reducible apply keeps_iter; intro _ _) | (with_reducible apply State.whenLive_keeps; intro _ _) | intro _)

theorem execStowBaseWrite_good (acc : Acc) (y : Yard) (w : W64) (s : State) : Good s.outside (execStowBaseWrite acc y w s) := by
  unfold execStowBaseWrite
  repeat' (first | with_reducible exact Keeps.refl _ | with_reducible assumption | with_reducible apply good_next | simp only [↓outside_fst_ite, ↓outside_mk, ↓outside_fold, ↓outside_ite, ite_self, implies_true, ↓State.storeReg_outside] | split | dsimp only | (with_reducible apply keeps_foldl; intro _ _ _) | (with_reducible apply keeps_iter; intro _ _) | (with_reducible apply State.hostWrite_keeps; intro _ _) | intro _)

end Sys2Proof.Machine
end

