-- ==== Sys2Proof/Laws/KeepYcExec.lean ====
section
/-! SUPPORT. Machine/YcExec.lean: what its operations leave alone. -/
set_option linter.unusedSimpArgs false
namespace Sys2Proof.Machine

theorem State.eccRead_pair {s : State} {y : Nat} {e : Ecc} {t : State} (e : State.eccRead s y e = some t) : t.outside = s.outside := by
  unfold State.eccRead at e
  repeat' (first | (cases e; done) | (injection e with e; subst e) | rfl | simp only [↓outside_fst_ite, ↓outside_mk, ↓outside_fold, ↓outside_ite, ite_self, implies_true, ↓State.bump_outside, ↓State.event_outside] | simp only [] at e | split at e)

@[simp ↓] theorem State.retire_outside (s : State) (y j : Nat) (c : YcCtx) : (State.retire s y j c).outside = s.outside := by
  unfold State.retire
  repeat' (first | simp only [↓outside_fst_ite, ↓outside_mk, ↓outside_fold, ↓outside_ite, ite_self, implies_true, ↓State.bump_outside, ↓State.setCtx_outside, ↓State.clearCur_outside, ↓State.event_outside] | split | dsimp only | (with_reducible apply outside_foldl'; intro _ _) | (with_reducible apply outside_foldl_fst; intro _ _) | (with_reducible apply outside_iter; intro _))

@[simp ↓] theorem State.ycFault_outside (s : State) (y j : Nat) (c : YcCtx) (cause val : Nat) : (State.ycFault s y j c cause val).outside = s.outside := by
  unfold State.ycFault
  repeat' (first | simp only [↓outside_fst_ite, ↓outside_mk, ↓outside_fold, ↓outside_ite, ite_self, implies_true, ↓State.saveCtx_outside, ↓State.setCtx_outside, ↓State.clearCur_outside, ↓State.fabricFault_outside] | split | dsimp only | (with_reducible apply outside_foldl'; intro _ _) | (with_reducible apply outside_foldl_fst; intro _ _) | (with_reducible apply outside_iter; intro _) | refine (State.saveCtx_pair (by assumption)).trans ?_)

@[simp ↓] theorem State.ycException_outside (s : State) (y j : Nat) (c : YcCtx) (cause val : Nat) : (State.ycException s y j c cause val).outside = s.outside := by
  unfold State.ycException
  repeat' (first | simp only [↓outside_fst_ite, ↓outside_mk, ↓outside_fold, ↓outside_ite, ite_self, implies_true, ↓State.ycFault_outside, ↓State.setCtx_outside] | split | dsimp only | (with_reducible apply outside_foldl'; intro _ _) | (with_reducible apply outside_foldl_fst; intro _ _) | (with_reducible apply outside_iter; intro _))

/-- The state a `YcRes` carries. -/
def YcRes.state : YcRes → State
  | .done _ s => s
  | .wait _ s => s
  | .exc _ _ s => s

theorem ycRes_done (c : YcCtx) (s : State) : (YcRes.done c s).state = s := rfl
theorem ycRes_wait (c : YcCtx) (s : State) : (YcRes.wait c s).state = s := rfl
theorem ycRes_exc (a b : Nat) (s : State) : (YcRes.exc a b s).state = s := rfl
theorem ycRes_ite (p : Prop) [Decidable p] (a b : YcRes) : (if p then a else b).state = if p then a.state else b.state := by
  split <;> rfl

@[simp ↓] theorem YcRes.settle_outside (r : YcRes) (y j : Nat) (c : YcCtx) (w : Nat) : (r.settle y j c w).outside = r.state.outside := by
  cases r <;> simp only [YcRes.settle, YcRes.state, ↓State.retire_outside, ↓State.setCtx_outside, ↓State.ycException_outside]

/-- An instruction's function leaves the queue and the retired lists alone. -/
def YcFn.Still (f : YcFn) : Prop := ∀ s y j c w e, (f s y j c w e).state.outside = s.outside

theorem State.ycRun_outside' (s : State) (y : Nat) (r : YcReads) (code : Nat) (f : YcFn) (h : YcFn.Still f) : (s.ycRun y r code f).outside = s.outside := by
  unfold State.ycRun
  repeat' (first | simp only [↓State.ycException_outside, ↓YcRes.settle_outside, h _ _ _ _ _ _] | refine (State.eccRead_pair (by assumption)).trans ?_ | split | rfl)

theorem State.ycRun_keeps (s : State) (y : Nat) (r : YcReads) (code : Nat) (f : YcFn) {ro : Outside} (h : YcFn.Still f) (h0 : Keeps ro s.outside) :
    Keeps ro (s.ycRun y r code f).outside := keeps_eq (s.ycRun_outside' y r code f h) h0

theorem ycReg_still (f : Nat → Nat → Nat) : YcFn.Still (ycReg f) := by
  intro s y j c w e
  unfold ycReg
  repeat' (first | rfl | simp only [↓ycRes_ite, ↓ycRes_done, ↓ycRes_wait, ↓ycRes_exc, ↓outside_fst_ite, ↓outside_mk, ↓outside_fold, ↓outside_ite, ite_self, implies_true] | split | dsimp only)

theorem ycImm_still (f : Nat → Nat → Nat) : YcFn.Still (ycImm f) := by
  intro s y j c w e
  unfold ycImm
  repeat' (first | rfl | simp only [↓ycRes_ite, ↓ycRes_done, ↓ycRes_wait, ↓ycRes_exc, ↓outside_fst_ite, ↓outside_mk, ↓outside_fold, ↓outside_ite, ite_self, implies_true] | split | dsimp only)

theorem ycFp_still (f : BitVec 32 → BitVec 32 → BitVec 32) : YcFn.Still (ycFp f) := by
  intro s y j c w e
  unfold ycFp
  repeat' (first | rfl | simp only [↓ycRes_ite, ↓ycRes_done, ↓ycRes_wait, ↓ycRes_exc, ↓outside_fst_ite, ↓outside_mk, ↓outside_fold, ↓outside_ite, ite_self, implies_true] | split | dsimp only)

theorem ycCmp_still (f : BitVec 32 → BitVec 32 → Bool) : YcFn.Still (ycCmp f) := by
  intro s y j c w e
  unfold ycCmp
  repeat' (first | rfl | simp only [↓ycRes_ite, ↓ycRes_done, ↓ycRes_wait, ↓ycRes_exc, ↓outside_fst_ite, ↓outside_mk, ↓outside_fold, ↓outside_ite, ite_self, implies_true] | split | dsimp only)

theorem ycLoad_still (n : Nat) (ext : Nat → Nat) : YcFn.Still (ycLoad n ext) := by
  intro s y j c w e
  unfold ycLoad
  repeat' (first | rfl | simp only [↓ycRes_ite, ↓ycRes_done, ↓ycRes_wait, ↓ycRes_exc, ↓outside_fst_ite, ↓outside_mk, ↓outside_fold, ↓outside_ite, ite_self, implies_true] | split | dsimp only | refine (State.eccRead_pair (by assumption)).trans ?_)

theorem ycStore_still (n : Nat) : YcFn.Still (ycStore n) := by
  intro s y j c w e
  unfold ycStore
  repeat' (first | rfl | simp only [↓ycRes_ite, ↓ycRes_done, ↓ycRes_wait, ↓ycRes_exc, ↓outside_fst_ite, ↓outside_mk, ↓outside_fold, ↓outside_ite, ite_self, implies_true, ↓State.setLocal_outside] | split | dsimp only)

theorem ycBranch_still (p : Nat → Nat → Bool) : YcFn.Still (ycBranch p) := by
  intro s y j c w e
  unfold ycBranch
  repeat' (first | rfl | simp only [↓ycRes_ite, ↓ycRes_done, ↓ycRes_wait, ↓ycRes_exc, ↓outside_fst_ite, ↓outside_mk, ↓outside_fold, ↓outside_ite, ite_self, implies_true] | split | dsimp only)

theorem ycCsr_still (rd : Bool) (wr : Nat → Nat → Option Nat) : YcFn.Still (ycCsr rd wr) := by
  intro s y j c w e
  unfold ycCsr
  repeat' (first | rfl | simp only [↓ycRes_ite, ↓ycRes_done, ↓ycRes_wait, ↓ycRes_exc, ↓outside_fst_ite, ↓outside_mk, ↓outside_fold, ↓outside_ite, ite_self, implies_true] | split | dsimp only)

@[simp ↓] theorem State.setInbound_outside (s : State) (y j : Nat) (q : List InTok) : (State.setInbound s y j q).outside = s.outside := by
  unfold State.setInbound
  repeat' (first | simp only [↓outside_fst_ite, ↓outside_mk, ↓outside_fold, ↓outside_ite, ite_self, implies_true, ↓State.setCore_outside] | split | dsimp only | (with_reducible apply outside_foldl'; intro _ _) | (with_reducible apply outside_foldl_fst; intro _ _) | (with_reducible apply outside_iter; intro _))

@[simp ↓] theorem State.bumpWc_outside (s : State) (c w : Nat) : (State.bumpWc s c w).outside = s.outside := by
  unfold State.bumpWc
  repeat' (first | simp only [↓outside_fst_ite, ↓outside_mk, ↓outside_fold, ↓outside_ite, ite_self, implies_true, ↓State.setWcWord_outside] | split | dsimp only | (with_reducible apply outside_foldl'; intro _ _) | (with_reducible apply outside_foldl_fst; intro _ _) | (with_reducible apply outside_iter; intro _))

@[simp ↓] theorem State.setLease_outside (s : State) (i : Nat) (e : Lease) : (State.setLease s i e).outside = s.outside := by
  unfold State.setLease
  repeat' (first | simp only [↓outside_fst_ite, ↓outside_mk, ↓outside_fold, ↓outside_ite, ite_self, implies_true] | split | dsimp only | (with_reducible apply outside_foldl'; intro _ _) | (with_reducible apply outside_foldl_fst; intro _ _) | (with_reducible apply outside_iter; intro _))

@[simp ↓] theorem State.peakLeases_outside (s : State) : (State.peakLeases s).outside = s.outside := by
  unfold State.peakLeases
  repeat' (first | simp only [↓outside_fst_ite, ↓outside_mk, ↓outside_fold, ↓outside_ite, ite_self, implies_true, ↓State.peakAt_outside] | split | dsimp only | (with_reducible apply outside_foldl'; intro _ _) | (with_reducible apply outside_foldl_fst; intro _ _) | (with_reducible apply outside_iter; intro _))

@[simp ↓] theorem State.advanceWc_outside (s : State) (c : Nat) : (State.advanceWc s c).outside = s.outside := by
  unfold State.advanceWc
  repeat' (first | simp only [↓outside_fst_ite, ↓outside_mk, ↓outside_fold, ↓outside_ite, ite_self, implies_true, ↓State.setWcWord_outside] | split | dsimp only | (with_reducible apply outside_foldl'; intro _ _) | (with_reducible apply outside_foldl_fst; intro _ _) | (with_reducible apply outside_iter; intro _))

@[simp ↓] theorem State.wcTake_outside (s : State) (y c : Nat) : (State.wcTake s y c).2.outside = s.outside := by
  unfold State.wcTake
  repeat' (first | simp only [↓outside_fst_ite, ↓outside_mk, ↓outside_fold, ↓outside_ite, ite_self, implies_true, ↓State.setLease_outside, ↓State.advanceWc_outside, ↓State.bumpWc_outside, ↓State.fresh_outside, ↓State.peakLeases_outside] | split | dsimp only | rfl | refine (State.fresh_pair (by assumption)).trans ?_ | (with_reducible apply outside_foldl'; intro _ _) | (with_reducible apply outside_foldl_fst; intro _ _))

theorem State.wcTake_pair {s : State} {y c : Nat} {b1 : Nat} {t1 : State} (e : State.wcTake s y c = (b1, t1)) : t1.outside = s.outside := by
  have k := State.wcTake_outside s y c
  rw [e] at k; exact k

@[simp ↓] theorem State.wcCommit_outside (s : State) (r : WcReq) : (State.wcCommit s r).2.outside = s.outside := by
  unfold State.wcCommit
  repeat' (first | simp only [↓outside_fst_ite, ↓outside_mk, ↓outside_fold, ↓outside_ite, ite_self, implies_true, ↓State.setLease_outside, ↓State.bumpWc_outside, ↓State.bump_outside, ↓State.faultEv_outside] | split | dsimp only | rfl | (with_reducible apply outside_foldl'; intro _ _) | (with_reducible apply outside_foldl_fst; intro _ _))

theorem State.wcCommit_pair {s : State} {r : WcReq} {b1 : Nat} {t1 : State} (e : State.wcCommit s r = (b1, t1)) : t1.outside = s.outside := by
  have k := State.wcCommit_outside s r
  rw [e] at k; exact k

@[simp ↓] theorem State.wcServe_outside (s : State) : (State.wcServe s).outside = s.outside := by
  unfold State.wcServe
  repeat' (first | simp only [↓outside_fst_ite, ↓outside_mk, ↓outside_fold, ↓outside_ite, ite_self, implies_true, ↓State.commit_outside, ↓State.wcCommit_outside, ↓State.wcTake_outside, ↓State.retire_outside] | split | dsimp only | (with_reducible apply outside_foldl'; intro _ _) | (with_reducible apply outside_foldl_fst; intro _ _) | (with_reducible apply outside_iter; intro _) | refine (State.wcCommit_pair (by assumption)).trans ?_ | refine (State.wcTake_pair (by assumption)).trans ?_)

@[simp ↓] theorem State.wcServeFor_outside (s : State) (y j n : Nat) : (s.wcServeFor y j n).outside = s.outside := by
  induction n generalizing s with
  | zero => rfl
  | succ n ih =>
    unfold State.wcServeFor
    split
    · split
      · rw [ih]; simp only [↓State.wcServe_outside]
      · rfl
    · rfl

@[simp ↓] theorem State.preemptNow_outside (s : State) (y j reason : Nat) (next : CtxSt) (e : Ecc) : (State.preemptNow s y j reason next e).outside = s.outside := by
  unfold State.preemptNow
  dsimp only
  split
  · simp only [↓State.wcServeFor_outside]
  · split
    · rename_i e
      rw [State.preempt_outside]
      split at e
      · cases e; simp only [↓State.wcServeFor_outside]
      · rw [State.eccRead_pair e, State.wcServeFor_outside]
    · simp only [↓State.ycFault_outside, ↓State.wcServeFor_outside]

@[simp ↓] theorem State.placeCtx_outside (s : State) (y j : Nat) : (State.placeCtx s y j).outside = s.outside := by
  unfold State.placeCtx
  repeat' (first | simp only [↓outside_fst_ite, ↓outside_mk, ↓outside_fold, ↓outside_ite, ite_self, implies_true, ↓State.loadCtx_outside, ↓State.setCtx_outside, ↓State.setCore_outside] | split | dsimp only | (with_reducible apply outside_foldl'; intro _ _) | (with_reducible apply outside_foldl_fst; intro _ _) | (with_reducible apply outside_iter; intro _) | refine (State.loadCtx_pair (by assumption)).trans ?_)

@[simp ↓] theorem State.schedule_outside (s : State) (y : Nat) (e : Ecc) : (State.schedule s y e).outside = s.outside := by
  unfold State.schedule
  repeat' (first | simp only [↓outside_fst_ite, ↓outside_mk, ↓outside_fold, ↓outside_ite, ite_self, implies_true, ↓State.placeCtx_outside, ↓State.preemptNow_outside] | split | dsimp only | (with_reducible apply outside_foldl'; intro _ _) | (with_reducible apply outside_foldl_fst; intro _ _) | (with_reducible apply outside_iter; intro _))

end Sys2Proof.Machine
end

