-- ==== Sys2Proof/Laws/KeepYcInstr.lean ====
section
/-! SUPPORT. Machine/YcInstr.lean: what its operations leave alone. -/
set_option linter.unusedSimpArgs false
namespace Sys2Proof.Machine

theorem execYcAdd_good (y : Yard) (r : YcReads) (s : State) : Good s.outside (execYcAdd y r s) := by
  unfold execYcAdd
  repeat' (first | with_reducible exact Keeps.refl _ | with_reducible assumption | with_reducible apply good_next | simp only [↓outside_fst_ite, ↓outside_mk, ↓outside_fold, ↓outside_ite, ite_self, implies_true] | split | dsimp only | (with_reducible apply keeps_foldl; intro _ _ _) | (with_reducible apply keeps_iter; intro _ _) | (with_reducible apply State.whenLive_keeps; intro _ _) | with_reducible apply State.ycRun_keeps | with_reducible apply ycReg_still | intro _)

theorem execYcSub_good (y : Yard) (r : YcReads) (s : State) : Good s.outside (execYcSub y r s) := by
  unfold execYcSub
  repeat' (first | with_reducible exact Keeps.refl _ | with_reducible assumption | with_reducible apply good_next | simp only [↓outside_fst_ite, ↓outside_mk, ↓outside_fold, ↓outside_ite, ite_self, implies_true] | split | dsimp only | (with_reducible apply keeps_foldl; intro _ _ _) | (with_reducible apply keeps_iter; intro _ _) | (with_reducible apply State.whenLive_keeps; intro _ _) | with_reducible apply State.ycRun_keeps | with_reducible apply ycReg_still | intro _)

theorem execYcAnd_good (y : Yard) (r : YcReads) (s : State) : Good s.outside (execYcAnd y r s) := by
  unfold execYcAnd
  repeat' (first | with_reducible exact Keeps.refl _ | with_reducible assumption | with_reducible apply good_next | simp only [↓outside_fst_ite, ↓outside_mk, ↓outside_fold, ↓outside_ite, ite_self, implies_true] | split | dsimp only | (with_reducible apply keeps_foldl; intro _ _ _) | (with_reducible apply keeps_iter; intro _ _) | (with_reducible apply State.whenLive_keeps; intro _ _) | with_reducible apply State.ycRun_keeps | with_reducible apply ycReg_still | intro _)

theorem execYcOr_good (y : Yard) (r : YcReads) (s : State) : Good s.outside (execYcOr y r s) := by
  unfold execYcOr
  repeat' (first | with_reducible exact Keeps.refl _ | with_reducible assumption | with_reducible apply good_next | simp only [↓outside_fst_ite, ↓outside_mk, ↓outside_fold, ↓outside_ite, ite_self, implies_true] | split | dsimp only | (with_reducible apply keeps_foldl; intro _ _ _) | (with_reducible apply keeps_iter; intro _ _) | (with_reducible apply State.whenLive_keeps; intro _ _) | with_reducible apply State.ycRun_keeps | with_reducible apply ycReg_still | intro _)

theorem execYcXor_good (y : Yard) (r : YcReads) (s : State) : Good s.outside (execYcXor y r s) := by
  unfold execYcXor
  repeat' (first | with_reducible exact Keeps.refl _ | with_reducible assumption | with_reducible apply good_next | simp only [↓outside_fst_ite, ↓outside_mk, ↓outside_fold, ↓outside_ite, ite_self, implies_true] | split | dsimp only | (with_reducible apply keeps_foldl; intro _ _ _) | (with_reducible apply keeps_iter; intro _ _) | (with_reducible apply State.whenLive_keeps; intro _ _) | with_reducible apply State.ycRun_keeps | with_reducible apply ycReg_still | intro _)

theorem execYcSll_good (y : Yard) (r : YcReads) (s : State) : Good s.outside (execYcSll y r s) := by
  unfold execYcSll
  repeat' (first | with_reducible exact Keeps.refl _ | with_reducible assumption | with_reducible apply good_next | simp only [↓outside_fst_ite, ↓outside_mk, ↓outside_fold, ↓outside_ite, ite_self, implies_true] | split | dsimp only | (with_reducible apply keeps_foldl; intro _ _ _) | (with_reducible apply keeps_iter; intro _ _) | (with_reducible apply State.whenLive_keeps; intro _ _) | with_reducible apply State.ycRun_keeps | with_reducible apply ycReg_still | intro _)

theorem execYcSrl_good (y : Yard) (r : YcReads) (s : State) : Good s.outside (execYcSrl y r s) := by
  unfold execYcSrl
  repeat' (first | with_reducible exact Keeps.refl _ | with_reducible assumption | with_reducible apply good_next | simp only [↓outside_fst_ite, ↓outside_mk, ↓outside_fold, ↓outside_ite, ite_self, implies_true] | split | dsimp only | (with_reducible apply keeps_foldl; intro _ _ _) | (with_reducible apply keeps_iter; intro _ _) | (with_reducible apply State.whenLive_keeps; intro _ _) | with_reducible apply State.ycRun_keeps | with_reducible apply ycReg_still | intro _)

theorem execYcSra_good (y : Yard) (r : YcReads) (s : State) : Good s.outside (execYcSra y r s) := by
  unfold execYcSra
  repeat' (first | with_reducible exact Keeps.refl _ | with_reducible assumption | with_reducible apply good_next | simp only [↓outside_fst_ite, ↓outside_mk, ↓outside_fold, ↓outside_ite, ite_self, implies_true] | split | dsimp only | (with_reducible apply keeps_foldl; intro _ _ _) | (with_reducible apply keeps_iter; intro _ _) | (with_reducible apply State.whenLive_keeps; intro _ _) | with_reducible apply State.ycRun_keeps | with_reducible apply ycReg_still | intro _)

theorem execYcSlt_good (y : Yard) (r : YcReads) (s : State) : Good s.outside (execYcSlt y r s) := by
  unfold execYcSlt
  repeat' (first | with_reducible exact Keeps.refl _ | with_reducible assumption | with_reducible apply good_next | simp only [↓outside_fst_ite, ↓outside_mk, ↓outside_fold, ↓outside_ite, ite_self, implies_true] | split | dsimp only | (with_reducible apply keeps_foldl; intro _ _ _) | (with_reducible apply keeps_iter; intro _ _) | (with_reducible apply State.whenLive_keeps; intro _ _) | with_reducible apply State.ycRun_keeps | with_reducible apply ycReg_still | intro _)

theorem execYcSltu_good (y : Yard) (r : YcReads) (s : State) : Good s.outside (execYcSltu y r s) := by
  unfold execYcSltu
  repeat' (first | with_reducible exact Keeps.refl _ | with_reducible assumption | with_reducible apply good_next | simp only [↓outside_fst_ite, ↓outside_mk, ↓outside_fold, ↓outside_ite, ite_self, implies_true] | split | dsimp only | (with_reducible apply keeps_foldl; intro _ _ _) | (with_reducible apply keeps_iter; intro _ _) | (with_reducible apply State.whenLive_keeps; intro _ _) | with_reducible apply State.ycRun_keeps | with_reducible apply ycReg_still | intro _)

theorem execYcMul_good (y : Yard) (r : YcReads) (s : State) : Good s.outside (execYcMul y r s) := by
  unfold execYcMul
  repeat' (first | with_reducible exact Keeps.refl _ | with_reducible assumption | with_reducible apply good_next | simp only [↓outside_fst_ite, ↓outside_mk, ↓outside_fold, ↓outside_ite, ite_self, implies_true] | split | dsimp only | (with_reducible apply keeps_foldl; intro _ _ _) | (with_reducible apply keeps_iter; intro _ _) | (with_reducible apply State.whenLive_keeps; intro _ _) | with_reducible apply State.ycRun_keeps | with_reducible apply ycReg_still | intro _)

theorem execYcMulhu_good (y : Yard) (r : YcReads) (s : State) : Good s.outside (execYcMulhu y r s) := by
  unfold execYcMulhu
  repeat' (first | with_reducible exact Keeps.refl _ | with_reducible assumption | with_reducible apply good_next | simp only [↓outside_fst_ite, ↓outside_mk, ↓outside_fold, ↓outside_ite, ite_self, implies_true] | split | dsimp only | (with_reducible apply keeps_foldl; intro _ _ _) | (with_reducible apply keeps_iter; intro _ _) | (with_reducible apply State.whenLive_keeps; intro _ _) | with_reducible apply State.ycRun_keeps | with_reducible apply ycReg_still | intro _)

theorem execYcMulh_good (y : Yard) (r : YcReads) (s : State) : Good s.outside (execYcMulh y r s) := by
  unfold execYcMulh
  repeat' (first | with_reducible exact Keeps.refl _ | with_reducible assumption | with_reducible apply good_next | simp only [↓outside_fst_ite, ↓outside_mk, ↓outside_fold, ↓outside_ite, ite_self, implies_true] | split | dsimp only | (with_reducible apply keeps_foldl; intro _ _ _) | (with_reducible apply keeps_iter; intro _ _) | (with_reducible apply State.whenLive_keeps; intro _ _) | with_reducible apply State.ycRun_keeps | with_reducible apply ycReg_still | intro _)

theorem execYcDivu_good (y : Yard) (r : YcReads) (s : State) : Good s.outside (execYcDivu y r s) := by
  unfold execYcDivu
  repeat' (first | with_reducible exact Keeps.refl _ | with_reducible assumption | with_reducible apply good_next | simp only [↓outside_fst_ite, ↓outside_mk, ↓outside_fold, ↓outside_ite, ite_self, implies_true] | split | dsimp only | (with_reducible apply keeps_foldl; intro _ _ _) | (with_reducible apply keeps_iter; intro _ _) | (with_reducible apply State.whenLive_keeps; intro _ _) | with_reducible apply State.ycRun_keeps | with_reducible apply ycReg_still | intro _)

theorem execYcRemu_good (y : Yard) (r : YcReads) (s : State) : Good s.outside (execYcRemu y r s) := by
  unfold execYcRemu
  repeat' (first | with_reducible exact Keeps.refl _ | with_reducible assumption | with_reducible apply good_next | simp only [↓outside_fst_ite, ↓outside_mk, ↓outside_fold, ↓outside_ite, ite_self, implies_true] | split | dsimp only | (with_reducible apply keeps_foldl; intro _ _ _) | (with_reducible apply keeps_iter; intro _ _) | (with_reducible apply State.whenLive_keeps; intro _ _) | with_reducible apply State.ycRun_keeps | with_reducible apply ycReg_still | intro _)

theorem execYcDiv_good (y : Yard) (r : YcReads) (s : State) : Good s.outside (execYcDiv y r s) := by
  unfold execYcDiv
  repeat' (first | with_reducible exact Keeps.refl _ | with_reducible assumption | with_reducible apply good_next | simp only [↓outside_fst_ite, ↓outside_mk, ↓outside_fold, ↓outside_ite, ite_self, implies_true] | split | dsimp only | (with_reducible apply keeps_foldl; intro _ _ _) | (with_reducible apply keeps_iter; intro _ _) | (with_reducible apply State.whenLive_keeps; intro _ _) | with_reducible apply State.ycRun_keeps | with_reducible apply ycReg_still | intro _)

theorem execYcRem_good (y : Yard) (r : YcReads) (s : State) : Good s.outside (execYcRem y r s) := by
  unfold execYcRem
  repeat' (first | with_reducible exact Keeps.refl _ | with_reducible assumption | with_reducible apply good_next | simp only [↓outside_fst_ite, ↓outside_mk, ↓outside_fold, ↓outside_ite, ite_self, implies_true] | split | dsimp only | (with_reducible apply keeps_foldl; intro _ _ _) | (with_reducible apply keeps_iter; intro _ _) | (with_reducible apply State.whenLive_keeps; intro _ _) | with_reducible apply State.ycRun_keeps | with_reducible apply ycReg_still | intro _)

theorem execYcAddi_good (y : Yard) (r : YcReads) (s : State) : Good s.outside (execYcAddi y r s) := by
  unfold execYcAddi
  repeat' (first | with_reducible exact Keeps.refl _ | with_reducible assumption | with_reducible apply good_next | simp only [↓outside_fst_ite, ↓outside_mk, ↓outside_fold, ↓outside_ite, ite_self, implies_true] | split | dsimp only | (with_reducible apply keeps_foldl; intro _ _ _) | (with_reducible apply keeps_iter; intro _ _) | (with_reducible apply State.whenLive_keeps; intro _ _) | with_reducible apply State.ycRun_keeps | with_reducible apply ycImm_still | intro _)

theorem execYcAndi_good (y : Yard) (r : YcReads) (s : State) : Good s.outside (execYcAndi y r s) := by
  unfold execYcAndi
  repeat' (first | with_reducible exact Keeps.refl _ | with_reducible assumption | with_reducible apply good_next | simp only [↓outside_fst_ite, ↓outside_mk, ↓outside_fold, ↓outside_ite, ite_self, implies_true] | split | dsimp only | (with_reducible apply keeps_foldl; intro _ _ _) | (with_reducible apply keeps_iter; intro _ _) | (with_reducible apply State.whenLive_keeps; intro _ _) | with_reducible apply State.ycRun_keeps | with_reducible apply ycImm_still | intro _)

theorem execYcOri_good (y : Yard) (r : YcReads) (s : State) : Good s.outside (execYcOri y r s) := by
  unfold execYcOri
  repeat' (first | with_reducible exact Keeps.refl _ | with_reducible assumption | with_reducible apply good_next | simp only [↓outside_fst_ite, ↓outside_mk, ↓outside_fold, ↓outside_ite, ite_self, implies_true] | split | dsimp only | (with_reducible apply keeps_foldl; intro _ _ _) | (with_reducible apply keeps_iter; intro _ _) | (with_reducible apply State.whenLive_keeps; intro _ _) | with_reducible apply State.ycRun_keeps | with_reducible apply ycImm_still | intro _)

theorem execYcXori_good (y : Yard) (r : YcReads) (s : State) : Good s.outside (execYcXori y r s) := by
  unfold execYcXori
  repeat' (first | with_reducible exact Keeps.refl _ | with_reducible assumption | with_reducible apply good_next | simp only [↓outside_fst_ite, ↓outside_mk, ↓outside_fold, ↓outside_ite, ite_self, implies_true] | split | dsimp only | (with_reducible apply keeps_foldl; intro _ _ _) | (with_reducible apply keeps_iter; intro _ _) | (with_reducible apply State.whenLive_keeps; intro _ _) | with_reducible apply State.ycRun_keeps | with_reducible apply ycImm_still | intro _)

theorem execYcSlli_good (y : Yard) (r : YcReads) (s : State) : Good s.outside (execYcSlli y r s) := by
  unfold execYcSlli
  repeat' (first | with_reducible exact Keeps.refl _ | with_reducible assumption | with_reducible apply good_next | simp only [↓outside_fst_ite, ↓outside_mk, ↓outside_fold, ↓outside_ite, ite_self, implies_true] | split | dsimp only | (with_reducible apply keeps_foldl; intro _ _ _) | (with_reducible apply keeps_iter; intro _ _) | (with_reducible apply State.whenLive_keeps; intro _ _) | with_reducible apply State.ycRun_keeps | with_reducible apply ycImm_still | intro _)

theorem execYcSrli_good (y : Yard) (r : YcReads) (s : State) : Good s.outside (execYcSrli y r s) := by
  unfold execYcSrli
  repeat' (first | with_reducible exact Keeps.refl _ | with_reducible assumption | with_reducible apply good_next | simp only [↓outside_fst_ite, ↓outside_mk, ↓outside_fold, ↓outside_ite, ite_self, implies_true] | split | dsimp only | (with_reducible apply keeps_foldl; intro _ _ _) | (with_reducible apply keeps_iter; intro _ _) | (with_reducible apply State.whenLive_keeps; intro _ _) | with_reducible apply State.ycRun_keeps | with_reducible apply ycImm_still | intro _)

theorem execYcSrai_good (y : Yard) (r : YcReads) (s : State) : Good s.outside (execYcSrai y r s) := by
  unfold execYcSrai
  repeat' (first | with_reducible exact Keeps.refl _ | with_reducible assumption | with_reducible apply good_next | simp only [↓outside_fst_ite, ↓outside_mk, ↓outside_fold, ↓outside_ite, ite_self, implies_true] | split | dsimp only | (with_reducible apply keeps_foldl; intro _ _ _) | (with_reducible apply keeps_iter; intro _ _) | (with_reducible apply State.whenLive_keeps; intro _ _) | with_reducible apply State.ycRun_keeps | with_reducible apply ycImm_still | intro _)

theorem execYcLsh16_good (y : Yard) (r : YcReads) (s : State) : Good s.outside (execYcLsh16 y r s) := by
  unfold execYcLsh16
  repeat' (first | with_reducible exact Keeps.refl _ | with_reducible assumption | with_reducible apply good_next | simp only [↓outside_fst_ite, ↓outside_mk, ↓outside_fold, ↓outside_ite, ite_self, implies_true] | split | dsimp only | (with_reducible apply keeps_foldl; intro _ _ _) | (with_reducible apply keeps_iter; intro _ _) | (with_reducible apply State.whenLive_keeps; intro _ _) | with_reducible apply State.ycRun_keeps | with_reducible apply ycImm_still | intro _)

theorem fcvtL_still  : YcFn.Still (fcvtL ) := by
  intro s y j c w e
  unfold fcvtL
  repeat' (first | rfl | simp only [↓ycRes_ite, ↓ycRes_done, ↓ycRes_wait, ↓ycRes_exc, ↓outside_fst_ite, ↓outside_mk, ↓outside_fold, ↓outside_ite, ite_self, implies_true] | split | dsimp only)

theorem fcvtF_still  : YcFn.Still (fcvtF ) := by
  intro s y j c w e
  unfold fcvtF
  repeat' (first | rfl | simp only [↓ycRes_ite, ↓ycRes_done, ↓ycRes_wait, ↓ycRes_exc, ↓outside_fst_ite, ↓outside_mk, ↓outside_fold, ↓outside_ite, ite_self, implies_true] | split | dsimp only)

theorem execYcFadd_good (y : Yard) (r : YcReads) (s : State) : Good s.outside (execYcFadd y r s) := by
  unfold execYcFadd
  repeat' (first | with_reducible exact Keeps.refl _ | with_reducible assumption | with_reducible apply good_next | simp only [↓outside_fst_ite, ↓outside_mk, ↓outside_fold, ↓outside_ite, ite_self, implies_true] | split | dsimp only | (with_reducible apply keeps_foldl; intro _ _ _) | (with_reducible apply keeps_iter; intro _ _) | (with_reducible apply State.whenLive_keeps; intro _ _) | with_reducible apply State.ycRun_keeps | with_reducible apply ycFp_still | intro _)

theorem execYcFsub_good (y : Yard) (r : YcReads) (s : State) : Good s.outside (execYcFsub y r s) := by
  unfold execYcFsub
  repeat' (first | with_reducible exact Keeps.refl _ | with_reducible assumption | with_reducible apply good_next | simp only [↓outside_fst_ite, ↓outside_mk, ↓outside_fold, ↓outside_ite, ite_self, implies_true] | split | dsimp only | (with_reducible apply keeps_foldl; intro _ _ _) | (with_reducible apply keeps_iter; intro _ _) | (with_reducible apply State.whenLive_keeps; intro _ _) | with_reducible apply State.ycRun_keeps | with_reducible apply ycFp_still | intro _)

theorem execYcFmul_good (y : Yard) (r : YcReads) (s : State) : Good s.outside (execYcFmul y r s) := by
  unfold execYcFmul
  repeat' (first | with_reducible exact Keeps.refl _ | with_reducible assumption | with_reducible apply good_next | simp only [↓outside_fst_ite, ↓outside_mk, ↓outside_fold, ↓outside_ite, ite_self, implies_true] | split | dsimp only | (with_reducible apply keeps_foldl; intro _ _ _) | (with_reducible apply keeps_iter; intro _ _) | (with_reducible apply State.whenLive_keeps; intro _ _) | with_reducible apply State.ycRun_keeps | with_reducible apply ycFp_still | intro _)

theorem execYcFdiv_good (y : Yard) (r : YcReads) (s : State) : Good s.outside (execYcFdiv y r s) := by
  unfold execYcFdiv
  repeat' (first | with_reducible exact Keeps.refl _ | with_reducible assumption | with_reducible apply good_next | simp only [↓outside_fst_ite, ↓outside_mk, ↓outside_fold, ↓outside_ite, ite_self, implies_true] | split | dsimp only | (with_reducible apply keeps_foldl; intro _ _ _) | (with_reducible apply keeps_iter; intro _ _) | (with_reducible apply State.whenLive_keeps; intro _ _) | with_reducible apply State.ycRun_keeps | with_reducible apply ycFp_still | intro _)

theorem execYcFmin_good (y : Yard) (r : YcReads) (s : State) : Good s.outside (execYcFmin y r s) := by
  unfold execYcFmin
  repeat' (first | with_reducible exact Keeps.refl _ | with_reducible assumption | with_reducible apply good_next | simp only [↓outside_fst_ite, ↓outside_mk, ↓outside_fold, ↓outside_ite, ite_self, implies_true] | split | dsimp only | (with_reducible apply keeps_foldl; intro _ _ _) | (with_reducible apply keeps_iter; intro _ _) | (with_reducible apply State.whenLive_keeps; intro _ _) | with_reducible apply State.ycRun_keeps | with_reducible apply ycFp_still | intro _)

theorem execYcFmax_good (y : Yard) (r : YcReads) (s : State) : Good s.outside (execYcFmax y r s) := by
  unfold execYcFmax
  repeat' (first | with_reducible exact Keeps.refl _ | with_reducible assumption | with_reducible apply good_next | simp only [↓outside_fst_ite, ↓outside_mk, ↓outside_fold, ↓outside_ite, ite_self, implies_true] | split | dsimp only | (with_reducible apply keeps_foldl; intro _ _ _) | (with_reducible apply keeps_iter; intro _ _) | (with_reducible apply State.whenLive_keeps; intro _ _) | with_reducible apply State.ycRun_keeps | with_reducible apply ycFp_still | intro _)

theorem execYcFsqrt_good (y : Yard) (r : YcReads) (s : State) : Good s.outside (execYcFsqrt y r s) := by
  unfold execYcFsqrt
  repeat' (first | with_reducible exact Keeps.refl _ | with_reducible assumption | with_reducible apply good_next | simp only [↓outside_fst_ite, ↓outside_mk, ↓outside_fold, ↓outside_ite, ite_self, implies_true] | split | dsimp only | (with_reducible apply keeps_foldl; intro _ _ _) | (with_reducible apply keeps_iter; intro _ _) | (with_reducible apply State.whenLive_keeps; intro _ _) | with_reducible apply State.ycRun_keeps | with_reducible apply ycFp_still | intro _)

theorem execYcFlt_good (y : Yard) (r : YcReads) (s : State) : Good s.outside (execYcFlt y r s) := by
  unfold execYcFlt
  repeat' (first | with_reducible exact Keeps.refl _ | with_reducible assumption | with_reducible apply good_next | simp only [↓outside_fst_ite, ↓outside_mk, ↓outside_fold, ↓outside_ite, ite_self, implies_true] | split | dsimp only | (with_reducible apply keeps_foldl; intro _ _ _) | (with_reducible apply keeps_iter; intro _ _) | (with_reducible apply State.whenLive_keeps; intro _ _) | with_reducible apply State.ycRun_keeps | with_reducible apply ycCmp_still | intro _)

theorem execYcFle_good (y : Yard) (r : YcReads) (s : State) : Good s.outside (execYcFle y r s) := by
  unfold execYcFle
  repeat' (first | with_reducible exact Keeps.refl _ | with_reducible assumption | with_reducible apply good_next | simp only [↓outside_fst_ite, ↓outside_mk, ↓outside_fold, ↓outside_ite, ite_self, implies_true] | split | dsimp only | (with_reducible apply keeps_foldl; intro _ _ _) | (with_reducible apply keeps_iter; intro _ _) | (with_reducible apply State.whenLive_keeps; intro _ _) | with_reducible apply State.ycRun_keeps | with_reducible apply ycCmp_still | intro _)

theorem execYcFeq_good (y : Yard) (r : YcReads) (s : State) : Good s.outside (execYcFeq y r s) := by
  unfold execYcFeq
  repeat' (first | with_reducible exact Keeps.refl _ | with_reducible assumption | with_reducible apply good_next | simp only [↓outside_fst_ite, ↓outside_mk, ↓outside_fold, ↓outside_ite, ite_self, implies_true] | split | dsimp only | (with_reducible apply keeps_foldl; intro _ _ _) | (with_reducible apply keeps_iter; intro _ _) | (with_reducible apply State.whenLive_keeps; intro _ _) | with_reducible apply State.ycRun_keeps | with_reducible apply ycCmp_still | intro _)

theorem execYcFcvtL_good (y : Yard) (r : YcReads) (s : State) : Good s.outside (execYcFcvtL y r s) := by
  unfold execYcFcvtL
  repeat' (first | with_reducible exact Keeps.refl _ | with_reducible assumption | with_reducible apply good_next | simp only [↓outside_fst_ite, ↓outside_mk, ↓outside_fold, ↓outside_ite, ite_self, implies_true] | split | dsimp only | (with_reducible apply keeps_foldl; intro _ _ _) | (with_reducible apply keeps_iter; intro _ _) | (with_reducible apply State.whenLive_keeps; intro _ _) | with_reducible apply State.ycRun_keeps | with_reducible apply fcvtL_still | intro _)

theorem execYcFcvtF_good (y : Yard) (r : YcReads) (s : State) : Good s.outside (execYcFcvtF y r s) := by
  unfold execYcFcvtF
  repeat' (first | with_reducible exact Keeps.refl _ | with_reducible assumption | with_reducible apply good_next | simp only [↓outside_fst_ite, ↓outside_mk, ↓outside_fold, ↓outside_ite, ite_self, implies_true] | split | dsimp only | (with_reducible apply keeps_foldl; intro _ _ _) | (with_reducible apply keeps_iter; intro _ _) | (with_reducible apply State.whenLive_keeps; intro _ _) | with_reducible apply State.ycRun_keeps | with_reducible apply fcvtF_still | intro _)

theorem execYcLd_good (y : Yard) (r : YcReads) (s : State) : Good s.outside (execYcLd y r s) := by
  unfold execYcLd
  repeat' (first | with_reducible exact Keeps.refl _ | with_reducible assumption | with_reducible apply good_next | simp only [↓outside_fst_ite, ↓outside_mk, ↓outside_fold, ↓outside_ite, ite_self, implies_true] | split | dsimp only | (with_reducible apply keeps_foldl; intro _ _ _) | (with_reducible apply keeps_iter; intro _ _) | (with_reducible apply State.whenLive_keeps; intro _ _) | with_reducible apply State.ycRun_keeps | with_reducible apply ycLoad_still | intro _)

theorem execYcLw_good (y : Yard) (r : YcReads) (s : State) : Good s.outside (execYcLw y r s) := by
  unfold execYcLw
  repeat' (first | with_reducible exact Keeps.refl _ | with_reducible assumption | with_reducible apply good_next | simp only [↓outside_fst_ite, ↓outside_mk, ↓outside_fold, ↓outside_ite, ite_self, implies_true] | split | dsimp only | (with_reducible apply keeps_foldl; intro _ _ _) | (with_reducible apply keeps_iter; intro _ _) | (with_reducible apply State.whenLive_keeps; intro _ _) | with_reducible apply State.ycRun_keeps | with_reducible apply ycLoad_still | intro _)

theorem execYcLws_good (y : Yard) (r : YcReads) (s : State) : Good s.outside (execYcLws y r s) := by
  unfold execYcLws
  repeat' (first | with_reducible exact Keeps.refl _ | with_reducible assumption | with_reducible apply good_next | simp only [↓outside_fst_ite, ↓outside_mk, ↓outside_fold, ↓outside_ite, ite_self, implies_true] | split | dsimp only | (with_reducible apply keeps_foldl; intro _ _ _) | (with_reducible apply keeps_iter; intro _ _) | (with_reducible apply State.whenLive_keeps; intro _ _) | with_reducible apply State.ycRun_keeps | with_reducible apply ycLoad_still | intro _)

theorem execYcLb_good (y : Yard) (r : YcReads) (s : State) : Good s.outside (execYcLb y r s) := by
  unfold execYcLb
  repeat' (first | with_reducible exact Keeps.refl _ | with_reducible assumption | with_reducible apply good_next | simp only [↓outside_fst_ite, ↓outside_mk, ↓outside_fold, ↓outside_ite, ite_self, implies_true] | split | dsimp only | (with_reducible apply keeps_foldl; intro _ _ _) | (with_reducible apply keeps_iter; intro _ _) | (with_reducible apply State.whenLive_keeps; intro _ _) | with_reducible apply State.ycRun_keeps | with_reducible apply ycLoad_still | intro _)

theorem execYcSd_good (y : Yard) (r : YcReads) (s : State) : Good s.outside (execYcSd y r s) := by
  unfold execYcSd
  repeat' (first | with_reducible exact Keeps.refl _ | with_reducible assumption | with_reducible apply good_next | simp only [↓outside_fst_ite, ↓outside_mk, ↓outside_fold, ↓outside_ite, ite_self, implies_true] | split | dsimp only | (with_reducible apply keeps_foldl; intro _ _ _) | (with_reducible apply keeps_iter; intro _ _) | (with_reducible apply State.whenLive_keeps; intro _ _) | with_reducible apply State.ycRun_keeps | with_reducible apply ycStore_still | intro _)

theorem execYcSw_good (y : Yard) (r : YcReads) (s : State) : Good s.outside (execYcSw y r s) := by
  unfold execYcSw
  repeat' (first | with_reducible exact Keeps.refl _ | with_reducible assumption | with_reducible apply good_next | simp only [↓outside_fst_ite, ↓outside_mk, ↓outside_fold, ↓outside_ite, ite_self, implies_true] | split | dsimp only | (with_reducible apply keeps_foldl; intro _ _ _) | (with_reducible apply keeps_iter; intro _ _) | (with_reducible apply State.whenLive_keeps; intro _ _) | with_reducible apply State.ycRun_keeps | with_reducible apply ycStore_still | intro _)

theorem execYcSb_good (y : Yard) (r : YcReads) (s : State) : Good s.outside (execYcSb y r s) := by
  unfold execYcSb
  repeat' (first | with_reducible exact Keeps.refl _ | with_reducible assumption | with_reducible apply good_next | simp only [↓outside_fst_ite, ↓outside_mk, ↓outside_fold, ↓outside_ite, ite_self, implies_true] | split | dsimp only | (with_reducible apply keeps_foldl; intro _ _ _) | (with_reducible apply keeps_iter; intro _ _) | (with_reducible apply State.whenLive_keeps; intro _ _) | with_reducible apply State.ycRun_keeps | with_reducible apply ycStore_still | intro _)

theorem ycJalFn_still  : YcFn.Still (ycJalFn ) := by
  intro s y j c w e
  unfold ycJalFn
  repeat' (first | rfl | simp only [↓ycRes_ite, ↓ycRes_done, ↓ycRes_wait, ↓ycRes_exc, ↓outside_fst_ite, ↓outside_mk, ↓outside_fold, ↓outside_ite, ite_self, implies_true] | split | dsimp only)

theorem ycJalrFn_still  : YcFn.Still (ycJalrFn ) := by
  intro s y j c w e
  unfold ycJalrFn
  repeat' (first | rfl | simp only [↓ycRes_ite, ↓ycRes_done, ↓ycRes_wait, ↓ycRes_exc, ↓outside_fst_ite, ↓outside_mk, ↓outside_fold, ↓outside_ite, ite_self, implies_true] | split | dsimp only)

theorem execYcBeq_good (y : Yard) (r : YcReads) (s : State) : Good s.outside (execYcBeq y r s) := by
  unfold execYcBeq
  repeat' (first | with_reducible exact Keeps.refl _ | with_reducible assumption | with_reducible apply good_next | simp only [↓outside_fst_ite, ↓outside_mk, ↓outside_fold, ↓outside_ite, ite_self, implies_true] | split | dsimp only | (with_reducible apply keeps_foldl; intro _ _ _) | (with_reducible apply keeps_iter; intro _ _) | (with_reducible apply State.whenLive_keeps; intro _ _) | with_reducible apply State.ycRun_keeps | with_reducible apply ycBranch_still | intro _)

theorem execYcBne_good (y : Yard) (r : YcReads) (s : State) : Good s.outside (execYcBne y r s) := by
  unfold execYcBne
  repeat' (first | with_reducible exact Keeps.refl _ | with_reducible assumption | with_reducible apply good_next | simp only [↓outside_fst_ite, ↓outside_mk, ↓outside_fold, ↓outside_ite, ite_self, implies_true] | split | dsimp only | (with_reducible apply keeps_foldl; intro _ _ _) | (with_reducible apply keeps_iter; intro _ _) | (with_reducible apply State.whenLive_keeps; intro _ _) | with_reducible apply State.ycRun_keeps | with_reducible apply ycBranch_still | intro _)

theorem execYcBlt_good (y : Yard) (r : YcReads) (s : State) : Good s.outside (execYcBlt y r s) := by
  unfold execYcBlt
  repeat' (first | with_reducible exact Keeps.refl _ | with_reducible assumption | with_reducible apply good_next | simp only [↓outside_fst_ite, ↓outside_mk, ↓outside_fold, ↓outside_ite, ite_self, implies_true] | split | dsimp only | (with_reducible apply keeps_foldl; intro _ _ _) | (with_reducible apply keeps_iter; intro _ _) | (with_reducible apply State.whenLive_keeps; intro _ _) | with_reducible apply State.ycRun_keeps | with_reducible apply ycBranch_still | intro _)

theorem execYcBge_good (y : Yard) (r : YcReads) (s : State) : Good s.outside (execYcBge y r s) := by
  unfold execYcBge
  repeat' (first | with_reducible exact Keeps.refl _ | with_reducible assumption | with_reducible apply good_next | simp only [↓outside_fst_ite, ↓outside_mk, ↓outside_fold, ↓outside_ite, ite_self, implies_true] | split | dsimp only | (with_reducible apply keeps_foldl; intro _ _ _) | (with_reducible apply keeps_iter; intro _ _) | (with_reducible apply State.whenLive_keeps; intro _ _) | with_reducible apply State.ycRun_keeps | with_reducible apply ycBranch_still | intro _)

theorem execYcBltu_good (y : Yard) (r : YcReads) (s : State) : Good s.outside (execYcBltu y r s) := by
  unfold execYcBltu
  repeat' (first | with_reducible exact Keeps.refl _ | with_reducible assumption | with_reducible apply good_next | simp only [↓outside_fst_ite, ↓outside_mk, ↓outside_fold, ↓outside_ite, ite_self, implies_true] | split | dsimp only | (with_reducible apply keeps_foldl; intro _ _ _) | (with_reducible apply keeps_iter; intro _ _) | (with_reducible apply State.whenLive_keeps; intro _ _) | with_reducible apply State.ycRun_keeps | with_reducible apply ycBranch_still | intro _)

theorem execYcBgeu_good (y : Yard) (r : YcReads) (s : State) : Good s.outside (execYcBgeu y r s) := by
  unfold execYcBgeu
  repeat' (first | with_reducible exact Keeps.refl _ | with_reducible assumption | with_reducible apply good_next | simp only [↓outside_fst_ite, ↓outside_mk, ↓outside_fold, ↓outside_ite, ite_self, implies_true] | split | dsimp only | (with_reducible apply keeps_foldl; intro _ _ _) | (with_reducible apply keeps_iter; intro _ _) | (with_reducible apply State.whenLive_keeps; intro _ _) | with_reducible apply State.ycRun_keeps | with_reducible apply ycBranch_still | intro _)

theorem execYcJal_good (y : Yard) (r : YcReads) (s : State) : Good s.outside (execYcJal y r s) := by
  unfold execYcJal
  repeat' (first | with_reducible exact Keeps.refl _ | with_reducible assumption | with_reducible apply good_next | simp only [↓outside_fst_ite, ↓outside_mk, ↓outside_fold, ↓outside_ite, ite_self, implies_true] | split | dsimp only | (with_reducible apply keeps_foldl; intro _ _ _) | (with_reducible apply keeps_iter; intro _ _) | (with_reducible apply State.whenLive_keeps; intro _ _) | with_reducible apply State.ycRun_keeps | with_reducible apply ycJalFn_still | intro _)

theorem execYcJalr_good (y : Yard) (r : YcReads) (s : State) : Good s.outside (execYcJalr y r s) := by
  unfold execYcJalr
  repeat' (first | with_reducible exact Keeps.refl _ | with_reducible assumption | with_reducible apply good_next | simp only [↓outside_fst_ite, ↓outside_mk, ↓outside_fold, ↓outside_ite, ite_self, implies_true] | split | dsimp only | (with_reducible apply keeps_foldl; intro _ _ _) | (with_reducible apply keeps_iter; intro _ _) | (with_reducible apply State.whenLive_keeps; intro _ _) | with_reducible apply State.ycRun_keeps | with_reducible apply ycJalrFn_still | intro _)

theorem execYcCsrr_good (y : Yard) (r : YcReads) (s : State) : Good s.outside (execYcCsrr y r s) := by
  unfold execYcCsrr
  repeat' (first | with_reducible exact Keeps.refl _ | with_reducible assumption | with_reducible apply good_next | simp only [↓outside_fst_ite, ↓outside_mk, ↓outside_fold, ↓outside_ite, ite_self, implies_true] | split | dsimp only | (with_reducible apply keeps_foldl; intro _ _ _) | (with_reducible apply keeps_iter; intro _ _) | (with_reducible apply State.whenLive_keeps; intro _ _) | with_reducible apply State.ycRun_keeps | with_reducible apply ycCsr_still | intro _)

theorem execYcCsrw_good (y : Yard) (r : YcReads) (s : State) : Good s.outside (execYcCsrw y r s) := by
  unfold execYcCsrw
  repeat' (first | with_reducible exact Keeps.refl _ | with_reducible assumption | with_reducible apply good_next | simp only [↓outside_fst_ite, ↓outside_mk, ↓outside_fold, ↓outside_ite, ite_self, implies_true] | split | dsimp only | (with_reducible apply keeps_foldl; intro _ _ _) | (with_reducible apply keeps_iter; intro _ _) | (with_reducible apply State.whenLive_keeps; intro _ _) | with_reducible apply State.ycRun_keeps | with_reducible apply ycCsr_still | intro _)

theorem execYcCsrset_good (y : Yard) (r : YcReads) (s : State) : Good s.outside (execYcCsrset y r s) := by
  unfold execYcCsrset
  repeat' (first | with_reducible exact Keeps.refl _ | with_reducible assumption | with_reducible apply good_next | simp only [↓outside_fst_ite, ↓outside_mk, ↓outside_fold, ↓outside_ite, ite_self, implies_true] | split | dsimp only | (with_reducible apply keeps_foldl; intro _ _ _) | (with_reducible apply keeps_iter; intro _ _) | (with_reducible apply State.whenLive_keeps; intro _ _) | with_reducible apply State.ycRun_keeps | with_reducible apply ycCsr_still | intro _)

theorem execYcCsrclr_good (y : Yard) (r : YcReads) (s : State) : Good s.outside (execYcCsrclr y r s) := by
  unfold execYcCsrclr
  repeat' (first | with_reducible exact Keeps.refl _ | with_reducible assumption | with_reducible apply good_next | simp only [↓outside_fst_ite, ↓outside_mk, ↓outside_fold, ↓outside_ite, ite_self, implies_true] | split | dsimp only | (with_reducible apply keeps_foldl; intro _ _ _) | (with_reducible apply keeps_iter; intro _ _) | (with_reducible apply State.whenLive_keeps; intro _ _) | with_reducible apply State.ycRun_keeps | with_reducible apply ycCsr_still | intro _)

end Sys2Proof.Machine
end

