-- ==== Sys2Proof/Laws/KeepYardCore.lean ====
section
/-! SUPPORT. Machine/YardCore.lean: what its operations leave alone. -/
set_option linter.unusedSimpArgs false
namespace Sys2Proof.Machine

theorem execYcInboundToken_good (y : Yard) (lane : Lane) (flip : BitVec 32) (s : State) : Good s.outside (execYcInboundToken y lane flip s) := by
  unfold execYcInboundToken
  repeat' (first | with_reducible exact Keeps.refl _ | with_reducible assumption | with_reducible apply good_next | simp only [↓outside_fst_ite, ↓outside_mk, ↓outside_fold, ↓outside_ite, ite_self, implies_true, ↓State.takeOffer_outside, ↓State.ctrlError_outside, ↓State.stray_outside, ↓State.enqueueIn_outside, ↓State.progressY_outside] | split | dsimp only | (with_reducible apply keeps_foldl; intro _ _ _) | (with_reducible apply keeps_iter; intro _ _) | (with_reducible apply State.whenLive_keeps; intro _ _) | intro _)

theorem sendFn_still  : YcFn.Still (sendFn ) := by
  intro s y j c w e
  unfold sendFn
  repeat' (first | rfl | simp only [↓ycRes_ite, ↓ycRes_done, ↓ycRes_wait, ↓ycRes_exc, ↓outside_fst_ite, ↓outside_mk, ↓outside_fold, ↓outside_ite, ite_self, implies_true, ↓State.setInQueue_outside, ↓State.progressY_outside] | split | dsimp only)

theorem execYcSend_good (y : Yard) (r : YcReads) (s : State) : Good s.outside (execYcSend y r s) := by
  unfold execYcSend
  repeat' (first | with_reducible exact Keeps.refl _ | with_reducible assumption | with_reducible apply good_next | simp only [↓outside_fst_ite, ↓outside_mk, ↓outside_fold, ↓outside_ite, ite_self, implies_true] | split | dsimp only | (with_reducible apply keeps_foldl; intro _ _ _) | (with_reducible apply keeps_iter; intro _ _) | (with_reducible apply State.whenLive_keeps; intro _ _) | with_reducible apply State.ycRun_keeps | with_reducible apply sendFn_still | intro _)

theorem recvFn_still  : YcFn.Still (recvFn ) := by
  intro s y j c w e
  unfold recvFn
  repeat' (first | rfl | simp only [↓ycRes_ite, ↓ycRes_done, ↓ycRes_wait, ↓ycRes_exc, ↓outside_fst_ite, ↓outside_mk, ↓outside_fold, ↓outside_ite, ite_self, implies_true, ↓State.setInbound_outside] | split | dsimp only)

theorem execYcRecv_good (y : Yard) (r : YcReads) (s : State) : Good s.outside (execYcRecv y r s) := by
  unfold execYcRecv
  repeat' (first | with_reducible exact Keeps.refl _ | with_reducible assumption | with_reducible apply good_next | simp only [↓outside_fst_ite, ↓outside_mk, ↓outside_fold, ↓outside_ite, ite_self, implies_true] | split | dsimp only | (with_reducible apply keeps_foldl; intro _ _ _) | (with_reducible apply keeps_iter; intro _ _) | (with_reducible apply State.whenLive_keeps; intro _ _) | with_reducible apply State.ycRun_keeps | with_reducible apply recvFn_still | intro _)

theorem getsumFn_still  : YcFn.Still (getsumFn ) := by
  intro s y j c w e
  unfold getsumFn
  repeat' (first | rfl | simp only [↓ycRes_ite, ↓ycRes_done, ↓ycRes_wait, ↓ycRes_exc, ↓outside_fst_ite, ↓outside_mk, ↓outside_fold, ↓outside_ite, ite_self, implies_true, ↓State.setInbound_outside, ↓State.setCtx_outside] | split | dsimp only)

theorem execYcGetsum_good (y : Yard) (r : YcReads) (s : State) : Good s.outside (execYcGetsum y r s) := by
  unfold execYcGetsum
  repeat' (first | with_reducible exact Keeps.refl _ | with_reducible assumption | with_reducible apply good_next | simp only [↓outside_fst_ite, ↓outside_mk, ↓outside_fold, ↓outside_ite, ite_self, implies_true] | split | dsimp only | (with_reducible apply keeps_foldl; intro _ _ _) | (with_reducible apply keeps_iter; intro _ _) | (with_reducible apply State.whenLive_keeps; intro _ _) | with_reducible apply State.ycRun_keeps | with_reducible apply getsumFn_still | intro _)

theorem waitFn_still  : YcFn.Still (waitFn ) := by
  intro s y j c w e
  unfold waitFn
  repeat' (first | rfl | simp only [↓ycRes_ite, ↓ycRes_done, ↓ycRes_wait, ↓ycRes_exc, ↓outside_fst_ite, ↓outside_mk, ↓outside_fold, ↓outside_ite, ite_self, implies_true] | split | dsimp only)

theorem execYcWait_good (y : Yard) (r : YcReads) (s : State) : Good s.outside (execYcWait y r s) := by
  unfold execYcWait
  repeat' (first | with_reducible exact Keeps.refl _ | with_reducible assumption | with_reducible apply good_next | simp only [↓outside_fst_ite, ↓outside_mk, ↓outside_fold, ↓outside_ite, ite_self, implies_true] | split | dsimp only | (with_reducible apply keeps_foldl; intro _ _ _) | (with_reducible apply keeps_iter; intro _ _) | (with_reducible apply State.whenLive_keeps; intro _ _) | with_reducible apply State.ycRun_keeps | with_reducible apply waitFn_still | intro _)

theorem reefsendFn_still  : YcFn.Still (reefsendFn ) := by
  intro s y j c w e
  unfold reefsendFn
  repeat' (first | rfl | simp only [↓ycRes_ite, ↓ycRes_done, ↓ycRes_wait, ↓ycRes_exc, ↓outside_fst_ite, ↓outside_mk, ↓outside_fold, ↓outside_ite, ite_self, implies_true, ↓State.fresh_outside, ↓State.setCore_outside] | split | dsimp only | refine (State.eccRead_pair (by assumption)).trans ?_ | refine (State.fresh_pair (by assumption)).trans ?_)

theorem execYcReefsend_good (y : Yard) (r : YcReads) (s : State) : Good s.outside (execYcReefsend y r s) := by
  unfold execYcReefsend
  repeat' (first | with_reducible exact Keeps.refl _ | with_reducible assumption | with_reducible apply good_next | simp only [↓outside_fst_ite, ↓outside_mk, ↓outside_fold, ↓outside_ite, ite_self, implies_true] | split | dsimp only | (with_reducible apply keeps_foldl; intro _ _ _) | (with_reducible apply keeps_iter; intro _ _) | (with_reducible apply State.whenLive_keeps; intro _ _) | with_reducible apply State.ycRun_keeps | with_reducible apply reefsendFn_still | intro _)

theorem execReefStreamerSend_good (y : Yard) (s : State) : Good s.outside (execReefStreamerSend y s) := by
  unfold execReefStreamerSend
  repeat' (first | with_reducible exact Keeps.refl _ | with_reducible assumption | with_reducible apply good_next | simp only [↓outside_fst_ite, ↓outside_mk, ↓outside_fold, ↓outside_ite, ite_self, implies_true, ↓State.setCore_outside, ↓State.setOffer_outside, ↓State.progressY_outside] | split | dsimp only | (with_reducible apply keeps_foldl; intro _ _ _) | (with_reducible apply keeps_iter; intro _ _) | (with_reducible apply State.whenLive_keeps; intro _ _) | intro _)

@[simp ↓] theorem State.handRecord_outside (s : State) (p : Nat) (r : StartRec) : (State.handRecord s p r).outside = s.outside := by
  unfold State.handRecord
  repeat' (first | simp only [↓outside_fst_ite, ↓outside_mk, ↓outside_fold, ↓outside_ite, ite_self, implies_true] | split | dsimp only | (with_reducible apply outside_foldl'; intro _ _) | (with_reducible apply outside_foldl_fst; intro _ _) | (with_reducible apply outside_iter; intro _))

theorem issueFn_still  : YcFn.Still (issueFn ) := by
  intro s y j c w e
  unfold issueFn
  repeat' (first | rfl | simp only [↓ycRes_ite, ↓ycRes_done, ↓ycRes_wait, ↓ycRes_exc, ↓outside_fst_ite, ↓outside_mk, ↓outside_fold, ↓outside_ite, ite_self, implies_true, ↓State.handRecord_outside] | split | dsimp only | refine (State.eccRead_pair (by assumption)).trans ?_)

theorem execYcIssue_good (y : Yard) (r : YcReads) (s : State) : Good s.outside (execYcIssue y r s) := by
  unfold execYcIssue
  repeat' (first | with_reducible exact Keeps.refl _ | with_reducible assumption | with_reducible apply good_next | simp only [↓outside_fst_ite, ↓outside_mk, ↓outside_fold, ↓outside_ite, ite_self, implies_true] | split | dsimp only | (with_reducible apply keeps_foldl; intro _ _ _) | (with_reducible apply keeps_iter; intro _ _) | (with_reducible apply State.whenLive_keeps; intro _ _) | with_reducible apply State.ycRun_keeps | with_reducible apply issueFn_still | intro _)

theorem xferFn_still  : YcFn.Still (xferFn ) := by
  intro s y j c w e
  unfold xferFn
  repeat' (first | rfl | simp only [↓ycRes_ite, ↓ycRes_done, ↓ycRes_wait, ↓ycRes_exc, ↓outside_fst_ite, ↓outside_mk, ↓outside_fold, ↓outside_ite, ite_self, implies_true, ↓State.startXfer_outside] | split | dsimp only | refine (State.startXfer_pair (by assumption)).trans ?_)

theorem execYcXferToLocal_good (y : Yard) (r : YcReads) (s : State) : Good s.outside (execYcXferToLocal y r s) := by
  unfold execYcXferToLocal
  repeat' (first | with_reducible exact Keeps.refl _ | with_reducible assumption | with_reducible apply good_next | simp only [↓outside_fst_ite, ↓outside_mk, ↓outside_fold, ↓outside_ite, ite_self, implies_true] | split | dsimp only | (with_reducible apply keeps_foldl; intro _ _ _) | (with_reducible apply keeps_iter; intro _ _) | (with_reducible apply State.whenLive_keeps; intro _ _) | with_reducible apply State.ycRun_keeps | with_reducible apply xferFn_still | intro _)

theorem execYcXferToHbm_good (y : Yard) (r : YcReads) (s : State) : Good s.outside (execYcXferToHbm y r s) := by
  unfold execYcXferToHbm
  repeat' (first | with_reducible exact Keeps.refl _ | with_reducible assumption | with_reducible apply good_next | simp only [↓outside_fst_ite, ↓outside_mk, ↓outside_fold, ↓outside_ite, ite_self, implies_true] | split | dsimp only | (with_reducible apply keeps_foldl; intro _ _ _) | (with_reducible apply keeps_iter; intro _ _) | (with_reducible apply State.whenLive_keeps; intro _ _) | with_reducible apply State.ycRun_keeps | with_reducible apply xferFn_still | intro _)

@[simp ↓] theorem State.xferEnd_outside (s : State) (y j i : Nat) (c : YcCtx) (x : Xfer) (e : Ecc) : (State.xferEnd s y j i c x e).outside = s.outside := by
  unfold State.xferEnd
  dsimp only
  split
  · rename_i e
    simp only [↓State.setCtx_outside, ↓State.dropAsk_outside, ↓State.xferBytes_outside]
    split at e
    · exact State.eccRead_pair e
    · cases e; rfl
  · split <;> simp only [↓State.setCtx_outside, ↓State.dropAsk_outside, ↓State.ycFault_outside]

theorem execXferComplete_good (y : Yard) (j : JobId) (i : Fin 4 × Ecc) (s : State) : Good s.outside (execXferComplete y j i s) := by
  unfold execXferComplete
  repeat' (first | with_reducible exact Keeps.refl _ | with_reducible assumption | with_reducible apply good_next | simp only [↓outside_fst_ite, ↓outside_mk, ↓outside_fold, ↓outside_ite, ite_self, implies_true, ↓State.xferEnd_outside] | split | dsimp only | (with_reducible apply keeps_foldl; intro _ _ _) | (with_reducible apply keeps_iter; intro _ _) | (with_reducible apply State.whenLive_keeps; intro _ _) | intro _)

theorem fenceFn_still  : YcFn.Still (fenceFn ) := by
  intro s y j c w e
  unfold fenceFn
  repeat' (first | rfl | simp only [↓ycRes_ite, ↓ycRes_done, ↓ycRes_wait, ↓ycRes_exc, ↓outside_fst_ite, ↓outside_mk, ↓outside_fold, ↓outside_ite, ite_self, implies_true] | split | dsimp only)

theorem execYcFence_good (y : Yard) (r : YcReads) (s : State) : Good s.outside (execYcFence y r s) := by
  unfold execYcFence
  repeat' (first | with_reducible exact Keeps.refl _ | with_reducible assumption | with_reducible apply good_next | simp only [↓outside_fst_ite, ↓outside_mk, ↓outside_fold, ↓outside_ite, ite_self, implies_true] | split | dsimp only | (with_reducible apply keeps_foldl; intro _ _ _) | (with_reducible apply keeps_iter; intro _ _) | (with_reducible apply State.whenLive_keeps; intro _ _) | with_reducible apply State.ycRun_keeps | with_reducible apply fenceFn_still | intro _)

theorem askFn_still (commit : Bool) : YcFn.Still (askFn commit) := by
  intro s y j c w e
  unfold askFn
  repeat' (first | rfl | simp only [↓ycRes_ite, ↓ycRes_done, ↓ycRes_wait, ↓ycRes_exc, ↓outside_fst_ite, ↓outside_mk, ↓outside_fold, ↓outside_ite, ite_self, implies_true, ↓State.commit_outside] | split | dsimp only)

theorem execYcTake_good (y : Yard) (r : YcReads) (s : State) : Good s.outside (execYcTake y r s) := by
  unfold execYcTake
  repeat' (first | with_reducible exact Keeps.refl _ | with_reducible assumption | with_reducible apply good_next | simp only [↓outside_fst_ite, ↓outside_mk, ↓outside_fold, ↓outside_ite, ite_self, implies_true] | split | dsimp only | (with_reducible apply keeps_foldl; intro _ _ _) | (with_reducible apply keeps_iter; intro _ _) | (with_reducible apply State.whenLive_keeps; intro _ _) | with_reducible apply State.ycRun_keeps | with_reducible apply askFn_still | intro _)

theorem execYcCommit_good (y : Yard) (r : YcReads) (s : State) : Good s.outside (execYcCommit y r s) := by
  unfold execYcCommit
  repeat' (first | with_reducible exact Keeps.refl _ | with_reducible assumption | with_reducible apply good_next | simp only [↓outside_fst_ite, ↓outside_mk, ↓outside_fold, ↓outside_ite, ite_self, implies_true] | split | dsimp only | (with_reducible apply keeps_foldl; intro _ _ _) | (with_reducible apply keeps_iter; intro _ _) | (with_reducible apply State.whenLive_keeps; intro _ _) | with_reducible apply State.ycRun_keeps | with_reducible apply askFn_still | intro _)

theorem execWorkCounterServe_good (s : State) : Good s.outside (execWorkCounterServe s) := by
  unfold execWorkCounterServe
  repeat' (first | with_reducible exact Keeps.refl _ | with_reducible assumption | with_reducible apply good_next | simp only [↓outside_fst_ite, ↓outside_mk, ↓outside_fold, ↓outside_ite, ite_self, implies_true, ↓State.wcServe_outside] | split | dsimp only | (with_reducible apply keeps_foldl; intro _ _ _) | (with_reducible apply keeps_iter; intro _ _) | (with_reducible apply State.whenLive_keeps; intro _ _) | intro _)

theorem execLeaseTimeout_good (dt : Nat) (s : State) : Good s.outside (execLeaseTimeout dt s) := by
  unfold execLeaseTimeout
  repeat' (first | with_reducible exact Keeps.refl _ | with_reducible assumption | with_reducible apply good_next | simp only [↓outside_fst_ite, ↓outside_mk, ↓outside_fold, ↓outside_ite, ite_self, implies_true, ↓State.tick_outside, ↓State.reissue_outside] | split | dsimp only | (with_reducible apply keeps_foldl; intro _ _ _) | (with_reducible apply keeps_iter; intro _ _) | (with_reducible apply State.whenLive_keeps; intro _ _) | intro _)

@[simp ↓] theorem State.freeLeases_outside (s : State) (c : Nat) : (State.freeLeases s c).outside = s.outside := by
  unfold State.freeLeases
  repeat' (first | simp only [↓outside_fst_ite, ↓outside_mk, ↓outside_fold, ↓outside_ite, ite_self, implies_true] | split | dsimp only | (with_reducible apply outside_foldl'; intro _ _) | (with_reducible apply outside_foldl_fst; intro _ _) | (with_reducible apply outside_iter; intro _))

@[simp ↓] theorem State.wcWrite_outside (s : State) (y w m : Nat) : (State.wcWrite s y w m).outside = s.outside := by
  unfold State.wcWrite
  repeat' (first | simp only [↓outside_fst_ite, ↓outside_mk, ↓outside_fold, ↓outside_ite, ite_self, implies_true, ↓State.setWcWord_outside, ↓State.freeLeases_outside] | split | dsimp only | (with_reducible apply outside_foldl'; intro _ _) | (with_reducible apply outside_foldl_fst; intro _ _) | (with_reducible apply outside_iter; intro _))

theorem execWcDataWrite_good (acc : Acc) (y : Yard) (w : W64) (s : State) : Good s.outside (execWcDataWrite acc y w s) := by
  unfold execWcDataWrite
  repeat' (first | with_reducible exact Keeps.refl _ | with_reducible assumption | with_reducible apply good_next | simp only [↓outside_fst_ite, ↓outside_mk, ↓outside_fold, ↓outside_ite, ite_self, implies_true, ↓State.wcServe_outside, ↓State.wcWrite_outside] | split | dsimp only | (with_reducible apply keeps_foldl; intro _ _ _) | (with_reducible apply keeps_iter; intro _ _) | (with_reducible apply State.hostWrite_keeps; intro _ _) | intro _)

theorem haltFn_still  : YcFn.Still (haltFn ) := by
  intro s y j c w e
  unfold haltFn
  repeat' (first | rfl | simp only [↓ycRes_ite, ↓ycRes_done, ↓ycRes_wait, ↓ycRes_exc, ↓outside_fst_ite, ↓outside_mk, ↓outside_fold, ↓outside_ite, ite_self, implies_true] | split | dsimp only)

theorem execYcHalt_good (y : Yard) (r : YcReads) (s : State) : Good s.outside (execYcHalt y r s) := by
  unfold execYcHalt
  repeat' (first | with_reducible exact Keeps.refl _ | with_reducible assumption | with_reducible apply good_next | simp only [↓outside_fst_ite, ↓outside_mk, ↓outside_fold, ↓outside_ite, ite_self, implies_true] | split | dsimp only | (with_reducible apply keeps_foldl; intro _ _ _) | (with_reducible apply keeps_iter; intro _ _) | (with_reducible apply State.whenLive_keeps; intro _ _) | with_reducible apply State.ycRun_keeps | with_reducible apply haltFn_still | intro _)

theorem tretFn_still  : YcFn.Still (tretFn ) := by
  intro s y j c w e
  unfold tretFn
  repeat' (first | rfl | simp only [↓ycRes_ite, ↓ycRes_done, ↓ycRes_wait, ↓ycRes_exc, ↓outside_fst_ite, ↓outside_mk, ↓outside_fold, ↓outside_ite, ite_self, implies_true] | split | dsimp only)

theorem execYcTret_good (y : Yard) (r : YcReads) (s : State) : Good s.outside (execYcTret y r s) := by
  unfold execYcTret
  repeat' (first | with_reducible exact Keeps.refl _ | with_reducible assumption | with_reducible apply good_next | simp only [↓outside_fst_ite, ↓outside_mk, ↓outside_fold, ↓outside_ite, ite_self, implies_true] | split | dsimp only | (with_reducible apply keeps_foldl; intro _ _ _) | (with_reducible apply keeps_iter; intro _ _) | (with_reducible apply State.whenLive_keeps; intro _ _) | with_reducible apply State.ycRun_keeps | with_reducible apply tretFn_still | intro _)

theorem waitingFn_still (w : Nat) : YcFn.Still (waitingFn w) := by
  unfold waitingFn
  split
  · exact sendFn_still
  · exact recvFn_still
  · exact getsumFn_still
  · exact waitFn_still
  · exact reefsendFn_still
  · exact xferFn_still
  · exact fenceFn_still
  · intro s y j c w e; rfl

theorem execYcWake_good (dt : Nat) (y : Yard) (r : YcReads) (s : State) : Good s.outside (execYcWake dt y r s) := by
  unfold execYcWake
  apply good_next
  apply State.whenLive_keeps
  · intro t h
    split
    · exact h
    · split
      · exact h
      · split
        · rw [YcRes.settle_outside, waitingFn_still]; exact h
        · exact h
  · simp only [↓State.tick_outside]; exact Keeps.refl _

@[simp ↓] theorem State.stopCtx_outside (s : State) (y j : Nat) (e : Ecc) : (State.stopCtx s y j e).outside = s.outside := by
  unfold State.stopCtx
  repeat' (first | simp only [↓outside_fst_ite, ↓outside_mk, ↓outside_fold, ↓outside_ite, ite_self, implies_true, ↓State.preemptNow_outside, ↓State.setCtx_outside] | split | dsimp only | (with_reducible apply outside_foldl'; intro _ _) | (with_reducible apply outside_foldl_fst; intro _ _) | (with_reducible apply outside_iter; intro _))

@[simp ↓] theorem State.startCtx_outside (s : State) (y j : Nat) : (State.startCtx s y j).outside = s.outside := by
  unfold State.startCtx
  repeat' (first | simp only [↓outside_fst_ite, ↓outside_mk, ↓outside_fold, ↓outside_ite, ite_self, implies_true, ↓State.setCtx_outside] | split | dsimp only | (with_reducible apply outside_foldl'; intro _ _) | (with_reducible apply outside_foldl_fst; intro _ _) | (with_reducible apply outside_iter; intro _))

@[simp ↓] theorem State.ycCtrl_outside (s : State) (acc : Acc) (y : Nat) (w : W64) (e : Ecc) : (State.ycCtrl s acc y w e).outside = s.outside := by
  unfold State.ycCtrl
  repeat' (first | simp only [↓outside_fst_ite, ↓outside_mk, ↓outside_fold, ↓outside_ite, ite_self, implies_true, ↓State.storeReg_outside, ↓State.stopCtx_outside, ↓State.startCtx_outside] | split | dsimp only | (with_reducible apply outside_foldl'; intro _ _) | (with_reducible apply outside_foldl_fst; intro _ _) | (with_reducible apply outside_iter; intro _) | (with_reducible apply State.hostWrite_outside; intro _))

theorem execStop_good (acc : Acc) (y : Yard) (w : W64 × Ecc) (s : State) : Good s.outside (execStop acc y w s) := by
  unfold execStop
  repeat' (first | with_reducible exact Keeps.refl _ | with_reducible assumption | with_reducible apply good_next | simp only [↓outside_fst_ite, ↓outside_mk, ↓outside_fold, ↓outside_ite, ite_self, implies_true, ↓State.ycCtrl_outside] | split | dsimp only | (with_reducible apply keeps_foldl; intro _ _ _) | (with_reducible apply keeps_iter; intro _ _) | intro _)

theorem execStart_good (acc : Acc) (y : Yard) (w : W64) (s : State) : Good s.outside (execStart acc y w s) := by
  unfold execStart
  repeat' (first | with_reducible exact Keeps.refl _ | with_reducible assumption | with_reducible apply good_next | simp only [↓outside_fst_ite, ↓outside_mk, ↓outside_fold, ↓outside_ite, ite_self, implies_true, ↓State.ycCtrl_outside] | split | dsimp only | (with_reducible apply keeps_foldl; intro _ _ _) | (with_reducible apply keeps_iter; intro _ _) | intro _)

theorem execSchedDecide_good (y : Yard × Ecc) (s : State) : Good s.outside (execSchedDecide y s) := by
  unfold execSchedDecide
  repeat' (first | with_reducible exact Keeps.refl _ | with_reducible assumption | with_reducible apply good_next | simp only [↓outside_fst_ite, ↓outside_mk, ↓outside_fold, ↓outside_ite, ite_self, implies_true, ↓State.schedule_outside] | split | dsimp only | (with_reducible apply keeps_foldl; intro _ _ _) | (with_reducible apply keeps_iter; intro _ _) | (with_reducible apply State.whenLive_keeps; intro _ _) | intro _)

theorem execSchedQuantum_good (dt : Nat) (y : Yard × Ecc) (s : State) : Good s.outside (execSchedQuantum dt y s) := by
  unfold execSchedQuantum
  repeat' (first | with_reducible exact Keeps.refl _ | with_reducible assumption | with_reducible apply good_next | simp only [↓outside_fst_ite, ↓outside_mk, ↓outside_fold, ↓outside_ite, ite_self, implies_true, ↓State.tick_outside, ↓State.schedule_outside] | split | dsimp only | (with_reducible apply keeps_foldl; intro _ _ _) | (with_reducible apply keeps_iter; intro _ _) | (with_reducible apply State.whenLive_keeps; intro _ _) | intro _)

end Sys2Proof.Machine
end

