-- ==== Sys2Proof/Laws/KeepTrainStep.lean ====
section
/-! SUPPORT. Machine/TrainStep.lean: what its operations leave alone. -/
set_option linter.unusedSimpArgs false
namespace Sys2Proof.Machine

theorem State.jobWrite_keeps (s : State) (acc : Acc) (p j a : Nat) (f : State → State) {ro : Outside}
    (h : ∀ t, Keeps ro t.outside → Keeps ro (f t ).outside) (h0 : Keeps ro s.outside) : Keeps ro (State.jobWrite s acc p j a f).outside := by
  unfold State.jobWrite
  repeat' (first | with_reducible assumption | simp only [↓outside_fst_ite, ↓outside_mk, ↓outside_fold, ↓outside_ite, ite_self, implies_true] | split | dsimp only | apply h | (with_reducible apply State.hostWrite_keeps; intro _ _))

theorem State.jobWrite_outside (s : State) (acc : Acc) (p j a : Nat) (f : State → State) {ro : Outside}
    (h : ∀ t, (f t ).outside = t.outside) (h0 : s.outside = ro) : (State.jobWrite s acc p j a f).outside = ro := by
  unfold State.jobWrite
  repeat' (first | exact h0 | simp only [↓outside_fst_ite, ↓outside_mk, ↓outside_fold, ↓outside_ite, ite_self, implies_true] | split | dsimp only | refine (h ..).trans ?_ | (with_reducible apply State.hostWrite_outside; intro _))

@[simp ↓] theorem State.gateNoResult_outside (s : State) (p j : Nat) : (State.gateNoResult s p j).outside = s.outside := by
  unfold State.gateNoResult
  repeat' (first | simp only [↓outside_fst_ite, ↓outside_mk, ↓outside_fold, ↓outside_ite, ite_self, implies_true, ↓State.fallback_outside, ↓State.gateResult_outside] | split | dsimp only | (with_reducible apply outside_foldl'; intro _ _) | (with_reducible apply outside_foldl_fst; intro _ _) | (with_reducible apply outside_iter; intro _))

theorem execGateNoResult_good (dt : Nat) (p : Part) (j : JobId) (s : State) : Good s.outside (execGateNoResult dt p j s) := by
  unfold execGateNoResult
  repeat' (first | with_reducible exact Keeps.refl _ | with_reducible assumption | with_reducible apply good_next | simp only [↓outside_fst_ite, ↓outside_mk, ↓outside_fold, ↓outside_ite, ite_self, implies_true, ↓State.tick_outside, ↓State.gateNoResult_outside] | split | dsimp only | (with_reducible apply keeps_foldl; intro _ _ _) | (with_reducible apply keeps_iter; intro _ _) | (with_reducible apply State.whenLive_keeps; intro _ _) | intro _)

theorem execResync_good (acc : Acc) (p : Part) (j : JobId) (w : W64) (s : State) : Good s.outside (execResync acc p j w s) := by
  unfold execResync
  repeat' (first | with_reducible exact Keeps.refl _ | with_reducible assumption | with_reducible apply good_next | simp only [↓outside_fst_ite, ↓outside_mk, ↓outside_fold, ↓outside_ite, ite_self, implies_true, ↓State.setSeq_outside, ↓State.refreshHeld_outside] | split | dsimp only | (with_reducible apply keeps_foldl; intro _ _ _) | (with_reducible apply keeps_iter; intro _ _) | (with_reducible apply State.jobWrite_keeps; intro _ _) | intro _)

theorem execStepPlanWrite_good (acc : Acc) (p : Part) (j : JobId) (cfg : Bool) (w : W64) (s : State) : Good s.outside (execStepPlanWrite acc p j cfg w s) := by
  unfold execStepPlanWrite
  repeat' (first | with_reducible exact Keeps.refl _ | with_reducible assumption | with_reducible apply good_next | simp only [↓outside_fst_ite, ↓outside_mk, ↓outside_fold, ↓outside_ite, ite_self, implies_true, ↓State.storeReg_outside, ↓State.setSeq_outside, ↓State.setFld_outside, ↓State.refreshHeld_outside] | split | dsimp only | (with_reducible apply keeps_foldl; intro _ _ _) | (with_reducible apply keeps_iter; intro _ _) | (with_reducible apply State.jobWrite_keeps; intro _ _) | intro _)

@[simp ↓] theorem State.phaseDrained_outside (s : State) (p j : Nat) : (State.phaseDrained s p j).outside = s.outside := by
  unfold State.phaseDrained
  repeat' (first | simp only [↓outside_fst_ite, ↓outside_mk, ↓outside_fold, ↓outside_ite, ite_self, implies_true, ↓State.settle_outside, ↓YcRes.settle_outside, ↓State.setFld_outside, ↓State.tryPhase_outside] | split | dsimp only | (with_reducible apply outside_foldl'; intro _ _) | (with_reducible apply outside_foldl_fst; intro _ _) | (with_reducible apply outside_iter; intro _))

theorem execPhaseDrained_good (p : Part) (j : JobId) (s : State) : Good s.outside (execPhaseDrained p j s) := by
  unfold execPhaseDrained
  repeat' (first | with_reducible exact Keeps.refl _ | with_reducible assumption | with_reducible apply good_next | simp only [↓outside_fst_ite, ↓outside_mk, ↓outside_fold, ↓outside_ite, ite_self, implies_true, ↓State.phaseDrained_outside] | split | dsimp only | (with_reducible apply keeps_foldl; intro _ _ _) | (with_reducible apply keeps_iter; intro _ _) | (with_reducible apply State.whenLive_keeps; intro _ _) | intro _)

@[simp ↓] theorem State.phaseDeadline_outside (s : State) (p j : Nat) : (State.phaseDeadline s p j).outside = s.outside := by
  unfold State.phaseDeadline
  repeat' (first | simp only [↓outside_fst_ite, ↓outside_mk, ↓outside_fold, ↓outside_ite, ite_self, implies_true, ↓State.fresh_outside, ↓State.fallback_outside, ↓State.setFld_outside] | split | dsimp only | (with_reducible apply outside_foldl'; intro _ _) | (with_reducible apply outside_foldl_fst; intro _ _) | (with_reducible apply outside_iter; intro _) | refine (State.fresh_pair (by assumption)).trans ?_)

theorem execPhaseSwitchDeadline_good (dt : Nat) (p : Part) (j : JobId) (s : State) : Good s.outside (execPhaseSwitchDeadline dt p j s) := by
  unfold execPhaseSwitchDeadline
  repeat' (first | with_reducible exact Keeps.refl _ | with_reducible assumption | with_reducible apply good_next | simp only [↓outside_fst_ite, ↓outside_mk, ↓outside_fold, ↓outside_ite, ite_self, implies_true, ↓State.tick_outside, ↓State.phaseDeadline_outside] | split | dsimp only | (with_reducible apply keeps_foldl; intro _ _ _) | (with_reducible apply keeps_iter; intro _ _) | (with_reducible apply State.whenLive_keeps; intro _ _) | intro _)

@[simp ↓] theorem State.phaseCtrl_outside (s : State) (acc : Acc) (p j : Nat) (w : W64) : (State.phaseCtrl s acc p j w).outside = s.outside := by
  unfold State.phaseCtrl
  repeat' (first | simp only [↓outside_fst_ite, ↓outside_mk, ↓outside_fold, ↓outside_ite, ite_self, implies_true, ↓State.setFld_outside, ↓State.tryPhase_outside, ↓State.settle_outside, ↓YcRes.settle_outside] | split | dsimp only | (with_reducible apply outside_foldl'; intro _ _) | (with_reducible apply outside_foldl_fst; intro _ _) | (with_reducible apply outside_iter; intro _) | (with_reducible apply State.jobWrite_outside; intro _))

theorem execRetry_good (acc : Acc) (p : Part) (j : JobId) (w : W64) (s : State) : Good s.outside (execRetry acc p j w s) := by
  unfold execRetry
  repeat' (first | with_reducible exact Keeps.refl _ | with_reducible assumption | with_reducible apply good_next | simp only [↓outside_fst_ite, ↓outside_mk, ↓outside_fold, ↓outside_ite, ite_self, implies_true, ↓State.phaseCtrl_outside] | split | dsimp only | (with_reducible apply keeps_foldl; intro _ _ _) | (with_reducible apply keeps_iter; intro _ _) | intro _)

theorem execForce_good (acc : Acc) (p : Part) (j : JobId) (w : W64) (s : State) : Good s.outside (execForce acc p j w s) := by
  unfold execForce
  repeat' (first | with_reducible exact Keeps.refl _ | with_reducible assumption | with_reducible apply good_next | simp only [↓outside_fst_ite, ↓outside_mk, ↓outside_fold, ↓outside_ite, ite_self, implies_true, ↓State.phaseCtrl_outside] | split | dsimp only | (with_reducible apply keeps_foldl; intro _ _ _) | (with_reducible apply keeps_iter; intro _ _) | intro _)

theorem execPhaseCfgWrite_good (acc : Acc) (p : Part) (j : JobId) (w : W64) (s : State) : Good s.outside (execPhaseCfgWrite acc p j w s) := by
  unfold execPhaseCfgWrite
  repeat' (first | with_reducible exact Keeps.refl _ | with_reducible assumption | with_reducible apply good_next | simp only [↓outside_fst_ite, ↓outside_mk, ↓outside_fold, ↓outside_ite, ite_self, implies_true, ↓State.storeReg_outside, ↓State.setFld_outside] | split | dsimp only | (with_reducible apply keeps_foldl; intro _ _ _) | (with_reducible apply keeps_iter; intro _ _) | (with_reducible apply State.jobWrite_keeps; intro _ _) | intro _)

theorem execWverWrite_good (acc : Acc) (p : Part) (j : JobId) (w : W64) (s : State) : Good s.outside (execWverWrite acc p j w s) := by
  unfold execWverWrite
  repeat' (first | with_reducible exact Keeps.refl _ | with_reducible assumption | with_reducible apply good_next | simp only [↓outside_fst_ite, ↓outside_mk, ↓outside_fold, ↓outside_ite, ite_self, implies_true, ↓State.storeReg_outside, ↓State.refreshAll_outside] | split | dsimp only | (with_reducible apply keeps_foldl; intro _ _ _) | (with_reducible apply keeps_iter; intro _ _) | (with_reducible apply State.jobWrite_keeps; intro _ _) | intro _)

theorem execLntWrite_good (acc : Acc) (e : Fin 16384) (word : Fin 8) (w : W64) (s : State) : Good s.outside (execLntWrite acc e word w s) := by
  unfold execLntWrite
  repeat' (first | with_reducible exact Keeps.refl _ | with_reducible assumption | with_reducible apply good_next | simp only [↓outside_fst_ite, ↓outside_mk, ↓outside_fold, ↓outside_ite, ite_self, implies_true, ↓State.storeReg_outside, ↓State.setFlag_outside] | split | dsimp only | (with_reducible apply keeps_foldl; intro _ _ _) | (with_reducible apply keeps_iter; intro _ _) | (with_reducible apply State.hostWrite_keeps; intro _ _) | intro _)

theorem execLscaleWrite_good (acc : Acc) (p : Part) (j : JobId) (w : W64) (s : State) : Good s.outside (execLscaleWrite acc p j w s) := by
  unfold execLscaleWrite
  repeat' (first | with_reducible exact Keeps.refl _ | with_reducible assumption | with_reducible apply good_next | simp only [↓outside_fst_ite, ↓outside_mk, ↓outside_fold, ↓outside_ite, ite_self, implies_true, ↓State.storeReg_outside, ↓State.setLnt_outside, ↓State.setFld_outside] | split | dsimp only | (with_reducible apply keeps_foldl; intro _ _ _) | (with_reducible apply keeps_iter; intro _ _) | (with_reducible apply State.jobWrite_keeps; intro _ _) | intro _)

@[simp ↓] theorem State.numCtrl_outside (s : State) (acc : Acc) (p j : Nat) (w : W64) : (State.numCtrl s acc p j w).outside = s.outside := by
  unfold State.numCtrl
  repeat' (first | simp only [↓outside_fst_ite, ↓outside_mk, ↓outside_fold, ↓outside_ite, ite_self, implies_true, ↓State.setReg_outside, ↓State.setFld_outside, ↓State.lossScale_outside, ↓State.rollEntries_outside] | split | dsimp only | (with_reducible apply outside_foldl'; intro _ _) | (with_reducible apply outside_foldl_fst; intro _ _) | (with_reducible apply outside_iter; intro _) | (with_reducible apply State.jobWrite_outside; intro _))

theorem execNumRoll_good (acc : Acc) (p : Part) (j : JobId) (w : W64) (s : State) : Good s.outside (execNumRoll acc p j w s) := by
  unfold execNumRoll
  repeat' (first | with_reducible exact Keeps.refl _ | with_reducible assumption | with_reducible apply good_next | simp only [↓outside_fst_ite, ↓outside_mk, ↓outside_fold, ↓outside_ite, ite_self, implies_true, ↓State.numCtrl_outside] | split | dsimp only | (with_reducible apply keeps_foldl; intro _ _ _) | (with_reducible apply keeps_iter; intro _ _) | intro _)

theorem execSpikeReset_good (acc : Acc) (p : Part) (j : JobId) (w : W64) (s : State) : Good s.outside (execSpikeReset acc p j w s) := by
  unfold execSpikeReset
  repeat' (first | with_reducible exact Keeps.refl _ | with_reducible assumption | with_reducible apply good_next | simp only [↓outside_fst_ite, ↓outside_mk, ↓outside_fold, ↓outside_ite, ite_self, implies_true, ↓State.numCtrl_outside] | split | dsimp only | (with_reducible apply keeps_foldl; intro _ _ _) | (with_reducible apply keeps_iter; intro _ _) | intro _)

end Sys2Proof.Machine
end

