-- ==== Sys2Proof/Laws/KeepLinkRows.lean ====
section
/-! SUPPORT. Machine/LinkRows.lean: what its operations leave alone. -/
set_option linter.unusedSimpArgs false
namespace Sys2Proof.Machine

@[simp ↓] theorem State.sendIdent_outside (s : State) (q : Nat) : (State.sendIdent s q).outside = s.outside := by
  unfold State.sendIdent
  repeat' (first | simp only [↓outside_fst_ite, ↓outside_mk, ↓outside_fold, ↓outside_ite, ite_self, implies_true, ↓State.fresh_outside, ↓State.setPort_outside, ↓State.bump_outside, ↓State.emitFrame_outside] | split | dsimp only | (with_reducible apply outside_foldl'; intro _ _) | (with_reducible apply outside_foldl_fst; intro _ _) | (with_reducible apply outside_iter; intro _) | refine (State.fresh_pair (by assumption)).trans ?_)

@[simp ↓] theorem State.setPeer_outside (s : State) (q : Nat) (x : IdentInfo) : (State.setPeer s q x).outside = s.outside := by
  unfold State.setPeer
  repeat' (first | simp only [↓outside_fst_ite, ↓outside_mk, ↓outside_fold, ↓outside_ite, ite_self, implies_true, ↓State.setFld_outside] | split | dsimp only | (with_reducible apply outside_foldl'; intro _ _) | (with_reducible apply outside_foldl_fst; intro _ _) | (with_reducible apply outside_iter; intro _))

@[simp ↓] theorem State.portUpNow_outside (s : State) (q : Nat) : (State.portUpNow s q).outside = s.outside := by
  unfold State.portUpNow
  repeat' (first | simp only [↓outside_fst_ite, ↓outside_mk, ↓outside_fold, ↓outside_ite, ite_self, implies_true, ↓State.setReg_outside, ↓State.setPort_outside, ↓State.setFld_outside, ↓State.event_outside, ↓State.resendAll_outside, ↓State.pump_outside, ↓State.moveFrames_outside] | split | dsimp only | (with_reducible apply outside_foldl'; intro _ _) | (with_reducible apply outside_foldl_fst; intro _ _) | (with_reducible apply outside_iter; intro _))

@[simp ↓] theorem State.tryUp_outside (s : State) (q : Nat) : (State.tryUp s q).outside = s.outside := by
  unfold State.tryUp
  repeat' (first | simp only [↓outside_fst_ite, ↓outside_mk, ↓outside_fold, ↓outside_ite, ite_self, implies_true, ↓State.setFld_outside, ↓State.portUpNow_outside, ↓State.portLost_outside, ↓State.setPeer_outside] | split | dsimp only | (with_reducible apply outside_foldl'; intro _ _) | (with_reducible apply outside_foldl_fst; intro _ _) | (with_reducible apply outside_iter; intro _))

@[simp ↓] theorem State.offerIdent_outside (s : State) (q : Nat) : (State.offerIdent s q).outside = s.outside := by
  unfold State.offerIdent
  repeat' (first | simp only [↓outside_fst_ite, ↓outside_mk, ↓outside_fold, ↓outside_ite, ite_self, implies_true, ↓State.sendIdent_outside, ↓State.tryUp_outside, ↓State.setPort_outside] | split | dsimp only | (with_reducible apply outside_foldl'; intro _ _) | (with_reducible apply outside_foldl_fst; intro _ _) | (with_reducible apply outside_iter; intro _))

@[simp ↓] theorem State.degraded_outside (s : State) (q cause lanes : Nat) : (State.degraded s q cause lanes).outside = s.outside := by
  unfold State.degraded
  repeat' (first | simp only [↓outside_fst_ite, ↓outside_mk, ↓outside_fold, ↓outside_ite, ite_self, implies_true, ↓State.faultEv_outside] | split | dsimp only | (with_reducible apply outside_foldl'; intro _ _) | (with_reducible apply outside_foldl_fst; intro _ _) | (with_reducible apply outside_iter; intro _))

@[simp ↓] theorem State.trained_outside (s : State) (q lanes : Nat) : (State.trained s q lanes).outside = s.outside := by
  unfold State.trained
  repeat' (first | simp only [↓outside_fst_ite, ↓outside_mk, ↓outside_fold, ↓outside_ite, ite_self, implies_true, ↓State.portLost_outside, ↓State.setFld_outside, ↓State.setPort_outside, ↓State.degraded_outside, ↓State.offerIdent_outside] | split | dsimp only | (with_reducible apply outside_foldl'; intro _ _) | (with_reducible apply outside_foldl_fst; intro _ _) | (with_reducible apply outside_iter; intro _))

theorem execPortTrainDone_good (dt : Nat) (p : PortId) (lanes : BitVec 8) (s : State) : Good s.outside (execPortTrainDone dt p lanes s) := by
  unfold execPortTrainDone
  repeat' (first | with_reducible exact Keeps.refl _ | with_reducible assumption | with_reducible apply good_next | simp only [↓outside_fst_ite, ↓outside_mk, ↓outside_fold, ↓outside_ite, ite_self, implies_true, ↓State.tick_outside, ↓State.trained_outside] | split | dsimp only | (with_reducible apply keeps_foldl; intro _ _ _) | (with_reducible apply keeps_iter; intro _ _) | intro _)

theorem execPortRetryTimer_good (dt : Nat) (p : PortId) (s : State) : Good s.outside (execPortRetryTimer dt p s) := by
  unfold execPortRetryTimer
  repeat' (first | with_reducible exact Keeps.refl _ | with_reducible assumption | with_reducible apply good_next | simp only [↓outside_fst_ite, ↓outside_mk, ↓outside_fold, ↓outside_ite, ite_self, implies_true, ↓State.tick_outside, ↓State.setFld_outside] | split | dsimp only | (with_reducible apply keeps_foldl; intro _ _ _) | (with_reducible apply keeps_iter; intro _ _) | intro _)

theorem execIdentRetry_good (dt : Nat) (p : PortId) (s : State) : Good s.outside (execIdentRetry dt p s) := by
  unfold execIdentRetry
  repeat' (first | with_reducible exact Keeps.refl _ | with_reducible assumption | with_reducible apply good_next | simp only [↓outside_fst_ite, ↓outside_mk, ↓outside_fold, ↓outside_ite, ite_self, implies_true, ↓State.tick_outside, ↓State.offerIdent_outside] | split | dsimp only | (with_reducible apply keeps_foldl; intro _ _ _) | (with_reducible apply keeps_iter; intro _ _) | intro _)

theorem execIdent_good (p : PortId) (x : IdentInfo) (s : State) : Good s.outside (execIdent p x s) := by
  unfold execIdent
  repeat' (first | with_reducible exact Keeps.refl _ | with_reducible assumption | with_reducible apply good_next | simp only [↓outside_fst_ite, ↓outside_mk, ↓outside_fold, ↓outside_ite, ite_self, implies_true, ↓State.bump_outside, ↓State.setPort_outside, ↓State.portLost_outside, ↓State.tryUp_outside, ↓State.setPeer_outside] | split | dsimp only | (with_reducible apply keeps_foldl; intro _ _ _) | (with_reducible apply keeps_iter; intro _ _) | intro _)

@[simp ↓] theorem State.laneBad_outside (s : State) (q l : Nat) (lock clash : Bool) : (State.laneBad s q l lock clash).outside = s.outside := by
  unfold State.laneBad
  repeat' (first | simp only [↓outside_fst_ite, ↓outside_mk, ↓outside_fold, ↓outside_ite, ite_self, implies_true, ↓State.setFlag_outside, ↓State.portLost_outside, ↓State.setFld_outside, ↓State.degraded_outside, ↓State.resendAll_outside] | split | dsimp only | (with_reducible apply outside_foldl'; intro _ _) | (with_reducible apply outside_foldl_fst; intro _ _) | (with_reducible apply outside_iter; intro _))

theorem execLaneBad_good (p : PortId) (lane : Fin 8) (lock clash : Bool) (s : State) : Good s.outside (execLaneBad p lane lock clash s) := by
  unfold execLaneBad
  repeat' (first | with_reducible exact Keeps.refl _ | with_reducible assumption | with_reducible apply good_next | simp only [↓outside_fst_ite, ↓outside_mk, ↓outside_fold, ↓outside_ite, ite_self, implies_true, ↓State.laneBad_outside] | split | dsimp only | (with_reducible apply keeps_foldl; intro _ _ _) | (with_reducible apply keeps_iter; intro _ _) | intro _)

theorem execPortLoss_good (p : PortId) (cause : Fin 9) (s : State) : Good s.outside (execPortLoss p cause s) := by
  unfold execPortLoss
  repeat' (first | with_reducible exact Keeps.refl _ | with_reducible assumption | with_reducible apply good_next | simp only [↓outside_fst_ite, ↓outside_mk, ↓outside_fold, ↓outside_ite, ite_self, implies_true, ↓State.portLost_outside] | split | dsimp only | (with_reducible apply keeps_foldl; intro _ _ _) | (with_reducible apply keeps_iter; intro _ _) | intro _)

theorem execToken_good (p : PortId) (f : Frame) (s : State) : Good s.outside (execToken p f s) := by
  unfold execToken
  repeat' (first | with_reducible exact Keeps.refl _ | with_reducible assumption | with_reducible apply good_next | simp only [↓outside_fst_ite, ↓outside_mk, ↓outside_fold, ↓outside_ite, ite_self, implies_true, ↓State.deliverFrame_outside] | split | dsimp only | (with_reducible apply keeps_foldl; intro _ _ _) | (with_reducible apply keeps_iter; intro _ _) | (with_reducible apply State.receive_keeps; intro _ _) | intro _)

theorem execMark_good (p : PortId) (f : Frame) (s : State) : Good s.outside (execMark p f s) := by
  unfold execMark
  repeat' (first | with_reducible exact Keeps.refl _ | with_reducible assumption | with_reducible apply good_next | simp only [↓outside_fst_ite, ↓outside_mk, ↓outside_fold, ↓outside_ite, ite_self, implies_true, ↓State.deliverFrame_outside] | split | dsimp only | (with_reducible apply keeps_foldl; intro _ _ _) | (with_reducible apply keeps_iter; intro _ _) | (with_reducible apply State.receive_keeps; intro _ _) | intro _)

theorem execColl_good (p : PortId) (f : Frame) (s : State) : Good s.outside (execColl p f s) := by
  unfold execColl
  repeat' (first | with_reducible exact Keeps.refl _ | with_reducible assumption | with_reducible apply good_next | simp only [↓outside_fst_ite, ↓outside_mk, ↓outside_fold, ↓outside_ite, ite_self, implies_true, ↓State.deliverFrame_outside] | split | dsimp only | (with_reducible apply keeps_foldl; intro _ _ _) | (with_reducible apply keeps_iter; intro _ _) | (with_reducible apply State.receive_keeps; intro _ _) | intro _)

theorem execLink_good (p : PortId) (f : Frame) (s : State) : Good s.outside (execLink p f s) := by
  unfold execLink
  repeat' (first | with_reducible exact Keeps.refl _ | with_reducible assumption | with_reducible apply good_next | simp only [↓outside_fst_ite, ↓outside_mk, ↓outside_fold, ↓outside_ite, ite_self, implies_true] | split | dsimp only | (with_reducible apply keeps_foldl; intro _ _ _) | (with_reducible apply keeps_iter; intro _ _) | (with_reducible apply State.receive_keeps; intro _ _) | intro _)

@[simp ↓] theorem State.heardPhase_outside (s : State) (f : Frame) : (State.heardPhase s f).outside = s.outside := by
  unfold State.heardPhase
  repeat' (first | simp only [↓outside_fst_ite, ↓outside_mk, ↓outside_fold, ↓outside_ite, ite_self, implies_true, ↓State.tryPhase_outside] | split | dsimp only | (with_reducible apply outside_foldl'; intro _ _) | (with_reducible apply outside_foldl_fst; intro _ _) | (with_reducible apply outside_iter; intro _))

theorem execPhase_good (p : PortId) (f : Frame) (s : State) : Good s.outside (execPhase p f s) := by
  unfold execPhase
  repeat' (first | with_reducible exact Keeps.refl _ | with_reducible assumption | with_reducible apply good_next | simp only [↓outside_fst_ite, ↓outside_mk, ↓outside_fold, ↓outside_ite, ite_self, implies_true, ↓State.heardPhase_outside, ↓State.freeSlot_outside] | split | dsimp only | (with_reducible apply keeps_foldl; intro _ _ _) | (with_reducible apply keeps_iter; intro _ _) | (with_reducible apply State.receive_keeps; intro _ _) | intro _)

@[simp ↓] theorem State.heardConf_outside (s : State) (f : Frame) : (State.heardConf s f).outside = s.outside := by
  unfold State.heardConf
  repeat' (first | simp only [↓outside_fst_ite, ↓outside_mk, ↓outside_fold, ↓outside_ite, ite_self, implies_true, ↓State.confirmPhase_outside] | split | dsimp only | (with_reducible apply outside_foldl'; intro _ _) | (with_reducible apply outside_foldl_fst; intro _ _) | (with_reducible apply outside_iter; intro _))

theorem execPhaseConf_good (p : PortId) (f : Frame) (s : State) : Good s.outside (execPhaseConf p f s) := by
  unfold execPhaseConf
  repeat' (first | with_reducible exact Keeps.refl _ | with_reducible assumption | with_reducible apply good_next | simp only [↓outside_fst_ite, ↓outside_mk, ↓outside_fold, ↓outside_ite, ite_self, implies_true, ↓State.heardConf_outside, ↓State.freeSlot_outside] | split | dsimp only | (with_reducible apply keeps_foldl; intro _ _ _) | (with_reducible apply keeps_iter; intro _ _) | (with_reducible apply State.receive_keeps; intro _ _) | intro _)

theorem execReplayTimeout_good (dt : Nat) (p : PortId) (s : State) : Good s.outside (execReplayTimeout dt p s) := by
  unfold execReplayTimeout
  repeat' (first | with_reducible exact Keeps.refl _ | with_reducible assumption | with_reducible apply good_next | simp only [↓outside_fst_ite, ↓outside_mk, ↓outside_fold, ↓outside_ite, ite_self, implies_true, ↓State.tick_outside, ↓State.resendAll_outside] | split | dsimp only | (with_reducible apply keeps_foldl; intro _ _ _) | (with_reducible apply keeps_iter; intro _ _) | intro _)

theorem execAcknowledgeTimer_good (p : PortId) (vc : Fin 8) (s : State) : Good s.outside (execAcknowledgeTimer p vc s) := by
  unfold execAcknowledgeTimer
  repeat' (first | with_reducible exact Keeps.refl _ | with_reducible assumption | with_reducible apply good_next | simp only [↓outside_fst_ite, ↓outside_mk, ↓outside_fold, ↓outside_ite, ite_self, implies_true, ↓State.sendLink_outside] | split | dsimp only | (with_reducible apply keeps_foldl; intro _ _ _) | (with_reducible apply keeps_iter; intro _ _) | intro _)

theorem execPfcPause_good (p : PortId) (vc : Fin 8) (xoff : Bool) (s : State) : Good s.outside (execPfcPause p vc xoff s) := by
  unfold execPfcPause
  repeat' (first | with_reducible exact Keeps.refl _ | with_reducible assumption | with_reducible apply good_next | simp only [↓outside_fst_ite, ↓outside_mk, ↓outside_fold, ↓outside_ite, ite_self, implies_true, ↓State.setFlag_outside, ↓State.pump_outside] | split | dsimp only | (with_reducible apply keeps_foldl; intro _ _ _) | (with_reducible apply keeps_iter; intro _ _) | intro _)

@[simp ↓] theorem State.sendTokens_outside (s : State) (d c type job tag : Nat) (last : Bool) (ps : List Nat) : (State.sendTokens s d c type job tag last ps).outside = s.outside := by
  unfold State.sendTokens
  repeat' (first | simp only [↓outside_fst_ite, ↓outside_mk, ↓outside_fold, ↓outside_ite, ite_self, implies_true, ↓State.sendPeer_outside] | split | dsimp only | (with_reducible apply outside_foldl'; intro _ _) | (with_reducible apply outside_foldl_fst; intro _ _) | (with_reducible apply outside_iter; intro _))

@[simp ↓] theorem State.flushPack_outside (s : State) (d c : Nat) (last : Bool) : (State.flushPack s d c last).outside = s.outside := by
  unfold State.flushPack
  repeat' (first | simp only [↓outside_fst_ite, ↓outside_mk, ↓outside_fold, ↓outside_ite, ite_self, implies_true, ↓State.sendTokens_outside] | split | dsimp only | (with_reducible apply outside_foldl'; intro _ _) | (with_reducible apply outside_foldl_fst; intro _ _) | (with_reducible apply outside_iter; intro _))

@[simp ↓] theorem State.bridgeOut_outside (s : State) (d : Nat) (t : Token) : (State.bridgeOut s d t).outside = s.outside := by
  unfold State.bridgeOut
  repeat' (first | simp only [↓outside_fst_ite, ↓outside_mk, ↓outside_fold, ↓outside_ite, ite_self, implies_true, ↓State.stDrop_outside, ↓State.flushPack_outside, ↓State.sendTokens_outside] | split | dsimp only | (with_reducible apply outside_foldl'; intro _ _) | (with_reducible apply outside_foldl_fst; intro _ _) | (with_reducible apply outside_iter; intro _))

theorem execBridgeTokenOut_good (d : Die) (side : Fin 2) (plane : Fin 8) (s : State) : Good s.outside (execBridgeTokenOut d side plane s) := by
  unfold execBridgeTokenOut
  repeat' (first | with_reducible exact Keeps.refl _ | with_reducible assumption | with_reducible apply good_next | simp only [↓outside_fst_ite, ↓outside_mk, ↓outside_fold, ↓outside_ite, ite_self, implies_true, ↓State.bridgeOut_outside] | split | dsimp only | (with_reducible apply keeps_foldl; intro _ _ _) | (with_reducible apply keeps_iter; intro _ _) | intro _)

theorem execBridgeFlushTimer_good (dt : Nat) (d : Die) (c : Fin 256) (s : State) : Good s.outside (execBridgeFlushTimer dt d c s) := by
  unfold execBridgeFlushTimer
  repeat' (first | with_reducible exact Keeps.refl _ | with_reducible assumption | with_reducible apply good_next | simp only [↓outside_fst_ite, ↓outside_mk, ↓outside_fold, ↓outside_ite, ite_self, implies_true, ↓State.tick_outside, ↓State.flushPack_outside] | split | dsimp only | (with_reducible apply keeps_foldl; intro _ _ _) | (with_reducible apply keeps_iter; intro _ _) | intro _)

theorem execGroupTableWrite_good (acc : Acc) (g : Fin 255) (word : Fin 9) (w : W64) (s : State) : Good s.outside (execGroupTableWrite acc g word w s) := by
  unfold execGroupTableWrite
  repeat' (first | with_reducible exact Keeps.refl _ | with_reducible assumption | with_reducible apply good_next | simp only [↓outside_fst_ite, ↓outside_mk, ↓outside_fold, ↓outside_ite, ite_self, implies_true, ↓State.storeReg_outside, ↓State.setFlag_outside] | split | dsimp only | (with_reducible apply keeps_foldl; intro _ _ _) | (with_reducible apply keeps_iter; intro _ _) | (with_reducible apply State.hostWrite_keeps; intro _ _) | intro _)

theorem execGlbDevWrite_good (acc : Acc) (w : W64) (s : State) : Good s.outside (execGlbDevWrite acc w s) := by
  unfold execGlbDevWrite
  repeat' (first | with_reducible exact Keeps.refl _ | with_reducible assumption | with_reducible apply good_next | simp only [↓outside_fst_ite, ↓outside_mk, ↓outside_fold, ↓outside_ite, ite_self, implies_true, ↓State.storeReg_outside, ↓State.sendIdent_outside] | split | dsimp only | (with_reducible apply keeps_foldl; intro _ _ _) | (with_reducible apply keeps_iter; intro _ _) | (with_reducible apply State.hostWrite_keeps; intro _ _) | intro _)

theorem execStCfgWrite_good (acc : Acc) (p : PortId) (w : W64) (s : State) : Good s.outside (execStCfgWrite acc p w s) := by
  unfold execStCfgWrite
  repeat' (first | with_reducible exact Keeps.refl _ | with_reducible assumption | with_reducible apply good_next | simp only [↓outside_fst_ite, ↓outside_mk, ↓outside_fold, ↓outside_ite, ite_self, implies_true, ↓State.storeReg_outside, ↓State.portLost_outside, ↓State.retrain_outside] | split | dsimp only | (with_reducible apply keeps_foldl; intro _ _ _) | (with_reducible apply keeps_iter; intro _ _) | (with_reducible apply State.hostWrite_keeps; intro _ _) | intro _)

end Sys2Proof.Machine
end

