-- ==== Sys2Proof/Laws/KeepCollRows.lean ====
section
/-! SUPPORT. Machine/CollRows.lean: what its operations leave alone. -/
set_option linter.unusedSimpArgs false
namespace Sys2Proof.Machine

@[simp ↓] theorem State.startRun_outside (s : State) (d : Nat) (w : CollWait) (body : Nat) : (State.startRun s d w body).outside = s.outside := by
  unfold State.startRun
  repeat' (first | simp only [↓outside_fst_ite, ↓outside_mk, ↓outside_fold, ↓outside_ite, ite_self, implies_true, ↓State.dropAsk_outside, ↓State.setEngine_outside, ↓State.releaseHeld_outside] | split | dsimp only | (with_reducible apply outside_foldl'; intro _ _) | (with_reducible apply outside_foldl_fst; intro _ _) | (with_reducible apply outside_iter; intro _))

@[simp ↓] theorem State.descStart_outside (s : State) (d : Nat) : (State.descStart s d).outside = s.outside := by
  unfold State.descStart
  repeat' (first | simp only [↓outside_fst_ite, ↓outside_mk, ↓outside_fold, ↓outside_ite, ite_self, implies_true, ↓State.setEngine_outside, ↓State.startRun_outside] | split | dsimp only | (with_reducible apply outside_foldl'; intro _ _) | (with_reducible apply outside_foldl_fst; intro _ _) | (with_reducible apply outside_iter; intro _))

theorem execCollDescStart_good (d : Die) (s : State) : Good s.outside (execCollDescStart d s) := by
  unfold execCollDescStart
  repeat' (first | with_reducible exact Keeps.refl _ | with_reducible assumption | with_reducible apply good_next | simp only [↓outside_fst_ite, ↓outside_mk, ↓outside_fold, ↓outside_ite, ite_self, implies_true, ↓State.descStart_outside] | split | dsimp only | (with_reducible apply keeps_foldl; intro _ _ _) | (with_reducible apply keeps_iter; intro _ _) | (with_reducible apply State.whenLive_keeps; intro _ _) | intro _)

@[simp ↓] theorem State.pushNorm_outside (s : State) (d x : Nat) : (State.pushNorm s d x).outside = s.outside := by
  unfold State.pushNorm
  repeat' (first | simp only [↓outside_fst_ite, ↓outside_mk, ↓outside_fold, ↓outside_ite, ite_self, implies_true, ↓State.tryNorm_outside] | split | dsimp only | (with_reducible apply outside_foldl'; intro _ _) | (with_reducible apply outside_foldl_fst; intro _ _) | (with_reducible apply outside_iter; intro _))

@[simp ↓] theorem State.chunkReady_outside (s : State) (d x k : Nat) : (State.chunkReady s d x k).outside = s.outside := by
  unfold State.chunkReady
  repeat' (first | simp only [↓outside_fst_ite, ↓outside_mk, ↓outside_fold, ↓outside_ite, ite_self, implies_true, ↓State.pushNorm_outside, ↓State.ringStep_outside, ↓State.treeUp_outside] | split | dsimp only | (with_reducible apply outside_foldl'; intro _ _) | (with_reducible apply outside_foldl_fst; intro _ _) | (with_reducible apply outside_iter; intro _))

theorem execCollChunkReady_good (d : Die) (x : Fin 510) (k : Nat) (s : State) : Good s.outside (execCollChunkReady d x k s) := by
  unfold execCollChunkReady
  repeat' (first | with_reducible exact Keeps.refl _ | with_reducible assumption | with_reducible apply good_next | simp only [↓outside_fst_ite, ↓outside_mk, ↓outside_fold, ↓outside_ite, ite_self, implies_true, ↓State.chunkReady_outside] | split | dsimp only | (with_reducible apply keeps_foldl; intro _ _ _) | (with_reducible apply keeps_iter; intro _ _) | (with_reducible apply State.whenLive_keeps; intro _ _) | intro _)

theorem execCollDescComplete_good (d : Die) (x : Fin 510) (s : State) : Good s.outside (execCollDescComplete d x s) := by
  unfold execCollDescComplete
  repeat' (first | with_reducible exact Keeps.refl _ | with_reducible assumption | with_reducible apply good_next | simp only [↓outside_fst_ite, ↓outside_mk, ↓outside_fold, ↓outside_ite, ite_self, implies_true, ↓State.completeRun_outside] | split | dsimp only | (with_reducible apply keeps_foldl; intro _ _ _) | (with_reducible apply keeps_iter; intro _ _) | (with_reducible apply State.whenLive_keeps; intro _ _) | intro _)

@[simp ↓] theorem State.collDeadline_outside (s : State) (d x : Nat) : (State.collDeadline s d x).outside = s.outside := by
  unfold State.collDeadline
  repeat' (first | simp only [↓outside_fst_ite, ↓outside_mk, ↓outside_fold, ↓outside_ite, ite_self, implies_true, ↓State.setRun_outside, ↓State.fallback_outside, ↓State.tryNorm_outside] | split | dsimp only | (with_reducible apply outside_foldl'; intro _ _) | (with_reducible apply outside_foldl_fst; intro _ _) | (with_reducible apply outside_iter; intro _))

theorem execCollDeadline_good (dt : Nat) (d : Die) (x : Fin 510) (s : State) : Good s.outside (execCollDeadline dt d x s) := by
  unfold execCollDeadline
  repeat' (first | with_reducible exact Keeps.refl _ | with_reducible assumption | with_reducible apply good_next | simp only [↓outside_fst_ite, ↓outside_mk, ↓outside_fold, ↓outside_ite, ite_self, implies_true, ↓State.tick_outside, ↓State.collDeadline_outside] | split | dsimp only | (with_reducible apply keeps_foldl; intro _ _ _) | (with_reducible apply keeps_iter; intro _ _) | (with_reducible apply State.whenLive_keeps; intro _ _) | intro _)

theorem State.agreeUp_keeps (s : State) (q : Nat) (f : Frame) {ro : Outside} (hk : Keeps ro s.outside) : Keeps ro (State.agreeUp s q f).outside := by
  unfold State.agreeUp
  repeat' (first | with_reducible assumption | with_reducible exact Keeps.refl _ | simp only [↓outside_fst_ite, ↓outside_mk, ↓outside_fold, ↓outside_ite, ite_self, implies_true, ↓State.ceLate_outside, ↓State.putAgree_outside] | split | dsimp only | (with_reducible apply keeps_foldl; intro _ _ _) | (with_reducible apply keeps_iter; intro _ _) | with_reducible apply State.tryAgree_keeps | intro _)

theorem execAgreeUp_good (p : PortId) (f : Frame) (s : State) : Good s.outside (execAgreeUp p f s) := by
  unfold execAgreeUp
  repeat' (first | with_reducible exact Keeps.refl _ | with_reducible assumption | with_reducible apply good_next | simp only [↓outside_fst_ite, ↓outside_mk, ↓outside_fold, ↓outside_ite, ite_self, implies_true, ↓State.freeSlot_outside] | split | dsimp only | (with_reducible apply keeps_foldl; intro _ _ _) | (with_reducible apply keeps_iter; intro _ _) | with_reducible apply State.agreeUp_keeps | (with_reducible apply State.receive_keeps; intro _ _) | intro _)

theorem State.agreeDown_keeps (s : State) (q : Nat) (f : Frame) {ro : Outside} (hk : Keeps ro s.outside) : Keeps ro (State.agreeDown s q f).outside := by
  unfold State.agreeDown
  repeat' (first | with_reducible assumption | with_reducible exact Keeps.refl _ | simp only [↓outside_fst_ite, ↓outside_mk, ↓outside_fold, ↓outside_ite, ite_self, implies_true, ↓State.ceLate_outside, ↓State.putAgree_outside] | split | dsimp only | (with_reducible apply keeps_foldl; intro _ _ _) | (with_reducible apply keeps_iter; intro _ _) | with_reducible apply State.tryAgree_keeps | intro _)

theorem execAgreeDown_good (p : PortId) (f : Frame) (s : State) : Good s.outside (execAgreeDown p f s) := by
  unfold execAgreeDown
  repeat' (first | with_reducible exact Keeps.refl _ | with_reducible assumption | with_reducible apply good_next | simp only [↓outside_fst_ite, ↓outside_mk, ↓outside_fold, ↓outside_ite, ite_self, implies_true, ↓State.freeSlot_outside] | split | dsimp only | (with_reducible apply keeps_foldl; intro _ _ _) | (with_reducible apply keeps_iter; intro _ _) | with_reducible apply State.agreeDown_keeps | (with_reducible apply State.receive_keeps; intro _ _) | intro _)

theorem execAgreeDeadline_good (dt : Nat) (perm : Bool) (j : JobId) (s : State) : Good s.outside (execAgreeDeadline dt perm j s) := by
  unfold execAgreeDeadline
  repeat' (first | with_reducible exact Keeps.refl _ | with_reducible assumption | with_reducible apply good_next | simp only [↓outside_fst_ite, ↓outside_mk, ↓outside_fold, ↓outside_ite, ite_self, implies_true, ↓State.tick_outside] | split | dsimp only | (with_reducible apply keeps_foldl; intro _ _ _) | (with_reducible apply keeps_iter; intro _ _) | with_reducible apply State.tryAgree_keeps | (with_reducible apply State.whenLive_keeps; intro _ _) | intro _)

theorem execNormUp_good (p : PortId) (f : Frame) (s : State) : Good s.outside (execNormUp p f s) := by
  unfold execNormUp
  repeat' (first | with_reducible exact Keeps.refl _ | with_reducible assumption | with_reducible apply good_next | simp only [↓outside_fst_ite, ↓outside_mk, ↓outside_fold, ↓outside_ite, ite_self, implies_true, ↓State.deliverFrame_outside] | split | dsimp only | (with_reducible apply keeps_foldl; intro _ _ _) | (with_reducible apply keeps_iter; intro _ _) | (with_reducible apply State.receive_keeps; intro _ _) | intro _)

theorem execNormDown_good (p : PortId) (f : Frame) (s : State) : Good s.outside (execNormDown p f s) := by
  unfold execNormDown
  repeat' (first | with_reducible exact Keeps.refl _ | with_reducible assumption | with_reducible apply good_next | simp only [↓outside_fst_ite, ↓outside_mk, ↓outside_fold, ↓outside_ite, ite_self, implies_true, ↓State.deliverFrame_outside] | split | dsimp only | (with_reducible apply keeps_foldl; intro _ _ _) | (with_reducible apply keeps_iter; intro _ _) | (with_reducible apply State.receive_keeps; intro _ _) | intro _)

@[simp ↓] theorem State.setPermPhase_outside (s : State) (n : Nat) : (State.setPermPhase s n).outside = s.outside := by
  unfold State.setPermPhase
  repeat' (first | simp only [↓outside_fst_ite, ↓outside_mk, ↓outside_fold, ↓outside_ite, ite_self, implies_true, ↓State.setFld_outside] | split | dsimp only | (with_reducible apply outside_foldl'; intro _ _) | (with_reducible apply outside_foldl_fst; intro _ _) | (with_reducible apply outside_iter; intro _))

theorem State.permContribute_keeps (s : State) (r : PermRun) (own : Bool) {ro : Outside} (hk : Keeps ro s.outside) : Keeps ro (State.permContribute s r own).outside := by
  unfold State.permContribute
  repeat' (first | with_reducible assumption | with_reducible exact Keeps.refl _ | simp only [↓outside_fst_ite, ↓outside_mk, ↓outside_fold, ↓outside_ite, ite_self, implies_true, ↓State.setPermPhase_outside] | split | dsimp only | (with_reducible apply keeps_foldl; intro _ _ _) | (with_reducible apply keeps_iter; intro _ _) | with_reducible apply State.contribute_keeps | intro _)

theorem State.permPeerAbort_keeps (s : State) (f : Frame) {ro : Outside} (hk : Keeps ro s.outside) : Keeps ro (State.permPeerAbort s f).outside := by
  unfold State.permPeerAbort
  repeat' (first | with_reducible assumption | with_reducible exact Keeps.refl _ | simp only [↓outside_fst_ite, ↓outside_mk, ↓outside_fold, ↓outside_ite, ite_self, implies_true] | split | dsimp only | (with_reducible apply keeps_foldl; intro _ _ _) | (with_reducible apply keeps_iter; intro _ _) | with_reducible apply State.permContribute_keeps | intro _)

theorem execAbort_good (p : PortId) (f : Frame) (s : State) : Good s.outside (execAbort p f s) := by
  unfold execAbort
  repeat' (first | with_reducible exact Keeps.refl _ | with_reducible assumption | with_reducible apply good_next | simp only [↓outside_fst_ite, ↓outside_mk, ↓outside_fold, ↓outside_ite, ite_self, implies_true, ↓State.freeSlot_outside, ↓State.deliverFrame_outside] | split | dsimp only | (with_reducible apply keeps_foldl; intro _ _ _) | (with_reducible apply keeps_iter; intro _ _) | with_reducible apply State.permPeerAbort_keeps | (with_reducible apply State.receive_keeps; intro _ _) | intro _)

theorem execPermuteRequest_good (acc : Acc) (w : W64) (s : State) : Good s.outside (execPermuteRequest acc w s) := by
  unfold execPermuteRequest
  repeat' (first | with_reducible exact Keeps.refl _ | with_reducible assumption | with_reducible apply good_next | simp only [↓outside_fst_ite, ↓outside_mk, ↓outside_fold, ↓outside_ite, ite_self, implies_true] | split | dsimp only | (with_reducible apply keeps_foldl; intro _ _ _) | (with_reducible apply keeps_iter; intro _ _) | with_reducible apply State.request_keeps | (with_reducible apply State.hostWrite_keeps; intro _ _) | intro _)

@[simp ↓] theorem State.blockChunk_outside (s : State) (a n k : Nat) : (State.blockChunk s a n k).2.outside = s.outside := by
  unfold State.blockChunk
  repeat' (first | simp only [↓outside_fst_ite, ↓outside_mk, ↓outside_fold, ↓outside_ite, ite_self, implies_true, ↓State.hbmRead_outside] | split | dsimp only | rfl | refine (State.hbmRead_pair (by assumption)).trans ?_ | (with_reducible apply outside_foldl'; intro _ _) | (with_reducible apply outside_foldl_fst; intro _ _))

theorem State.blockChunk_pair {s : State} {a n k : Nat} {b1 : List Byte} {t1 : State} (e : State.blockChunk s a n k = (b1, t1)) : t1.outside = s.outside := by
  have k := State.blockChunk_outside s a n k
  rw [e] at k; exact k

@[simp ↓] theorem State.sendRegion_outside (s : State) (b i region : Nat) : (State.sendRegion s b i region).outside = s.outside := by
  unfold State.sendRegion
  repeat' (first | simp only [↓outside_fst_ite, ↓outside_mk, ↓outside_fold, ↓outside_ite, ite_self, implies_true, ↓State.blockChunk_outside, ↓State.sendPeer_outside, ↓State.bump_outside] | split | dsimp only | (with_reducible apply outside_foldl'; intro _ _) | (with_reducible apply outside_foldl_fst; intro _ _) | (with_reducible apply outside_iter; intro _) | refine (State.blockChunk_pair (by assumption)).trans ?_)

@[simp ↓] theorem State.copyRegion_outside (s : State) (b region : Nat) : (State.copyRegion s b region).outside = s.outside := by
  unfold State.copyRegion
  repeat' (first | simp only [↓outside_fst_ite, ↓outside_mk, ↓outside_fold, ↓outside_ite, ite_self, implies_true, ↓State.hbmRead_outside, ↓State.hbmWrite_outside] | split | dsimp only | (with_reducible apply outside_foldl'; intro _ _) | (with_reducible apply outside_foldl_fst; intro _ _) | (with_reducible apply outside_iter; intro _) | refine (State.hbmRead_pair (by assumption)).trans ?_)

@[simp ↓] theorem State.moveBlock_outside (s : State) (b : Nat) : (State.moveBlock s b).outside = s.outside := by
  unfold State.moveBlock
  repeat' (first | simp only [↓outside_fst_ite, ↓outside_mk, ↓outside_fold, ↓outside_ite, ite_self, implies_true, ↓State.copyRegion_outside, ↓State.sendRegion_outside, ↓State.setFld_outside] | split | dsimp only | (with_reducible apply outside_foldl'; intro _ _) | (with_reducible apply outside_foldl_fst; intro _ _) | (with_reducible apply outside_iter; intro _))

theorem State.permStart_keeps (s : State) (r : PermRun) {ro : Outside} (hk : Keeps ro s.outside) : Keeps ro (State.permStart s r).outside := by
  unfold State.permStart
  repeat' (first | with_reducible assumption | with_reducible exact Keeps.refl _ | simp only [↓outside_fst_ite, ↓outside_mk, ↓outside_fold, ↓outside_ite, ite_self, implies_true, ↓State.setPermPhase_outside, ↓State.moveBlock_outside, ↓State.releaseHeld_outside] | split | dsimp only | (with_reducible apply keeps_foldl; intro _ _ _) | (with_reducible apply keeps_iter; intro _ _) | with_reducible apply State.permContribute_keeps | intro _)

theorem execPermuteWaitDone_good (s : State) : Good s.outside (execPermuteWaitDone s) := by
  unfold execPermuteWaitDone
  repeat' (first | with_reducible exact Keeps.refl _ | with_reducible assumption | with_reducible apply good_next | simp only [↓outside_fst_ite, ↓outside_mk, ↓outside_fold, ↓outside_ite, ite_self, implies_true] | split | dsimp only | (with_reducible apply keeps_foldl; intro _ _ _) | (with_reducible apply keeps_iter; intro _ _) | with_reducible apply State.permStart_keeps | (with_reducible apply State.whenLive_keeps; intro _ _) | intro _)

theorem State.permMoved_keeps (s : State) (r : PermRun) {ro : Outside} (hk : Keeps ro s.outside) : Keeps ro (State.permMoved s r).outside := by
  unfold State.permMoved
  repeat' (first | with_reducible assumption | with_reducible exact Keeps.refl _ | simp only [↓outside_fst_ite, ↓outside_mk, ↓outside_fold, ↓outside_ite, ite_self, implies_true] | split | dsimp only | (with_reducible apply keeps_foldl; intro _ _ _) | (with_reducible apply keeps_iter; intro _ _) | with_reducible apply State.permContribute_keeps | intro _)

theorem execPermuteMoveDone_good (s : State) : Good s.outside (execPermuteMoveDone s) := by
  unfold execPermuteMoveDone
  repeat' (first | with_reducible exact Keeps.refl _ | with_reducible assumption | with_reducible apply good_next | simp only [↓outside_fst_ite, ↓outside_mk, ↓outside_fold, ↓outside_ite, ite_self, implies_true] | split | dsimp only | (with_reducible apply keeps_foldl; intro _ _ _) | (with_reducible apply keeps_iter; intro _ _) | with_reducible apply State.permMoved_keeps | (with_reducible apply State.whenLive_keeps; intro _ _) | intro _)

theorem State.permNoResult_keeps (s : State) (r : PermRun) {ro : Outside} (hk : Keeps ro s.outside) : Keeps ro (State.permNoResult s r).outside := by
  unfold State.permNoResult
  repeat' (first | with_reducible assumption | with_reducible exact Keeps.refl _ | simp only [↓outside_fst_ite, ↓outside_mk, ↓outside_fold, ↓outside_ite, ite_self, implies_true, ↓State.setSeq_outside, ↓State.refreshHeld_outside] | split | dsimp only | (with_reducible apply keeps_foldl; intro _ _ _) | (with_reducible apply keeps_iter; intro _ _) | with_reducible apply State.permAbort_keeps | intro _)

theorem execPermuteNoResult_good (dt : Nat) (s : State) : Good s.outside (execPermuteNoResult dt s) := by
  unfold execPermuteNoResult
  repeat' (first | with_reducible exact Keeps.refl _ | with_reducible assumption | with_reducible apply good_next | simp only [↓outside_fst_ite, ↓outside_mk, ↓outside_fold, ↓outside_ite, ite_self, implies_true, ↓State.tick_outside] | split | dsimp only | (with_reducible apply keeps_foldl; intro _ _ _) | (with_reducible apply keeps_iter; intro _ _) | with_reducible apply State.permNoResult_keeps | (with_reducible apply State.whenLive_keeps; intro _ _) | intro _)

end Sys2Proof.Machine
end

