-- ==== Sys2Proof/Laws/KeepJobRows.lean ====
section
/-! SUPPORT. Machine/JobRows.lean: what its operations leave alone. -/
set_option linter.unusedSimpArgs false
namespace Sys2Proof.Machine

@[simp ↓] theorem State.setPtRefused_outside (s : State) (p : Nat) (b : Bool) : (State.setPtRefused s p b).outside = s.outside := by
  unfold State.setPtRefused
  repeat' (first | simp only [↓outside_fst_ite, ↓outside_mk, ↓outside_fold, ↓outside_ite, ite_self, implies_true, ↓State.setFlag_outside] | split | dsimp only | (with_reducible apply outside_foldl'; intro _ _) | (with_reducible apply outside_foldl_fst; intro _ _) | (with_reducible apply outside_iter; intro _))

theorem State.takeSetting_keeps (s : State) (p : Nat) (t : State) {ro : Outside} (h : Keeps ro s.outside) (k : Keeps ro t.outside) :
    Keeps ro (s.takeSetting p t).outside := by
  unfold State.takeSetting
  split <;> simpa only [↓State.setPtRefused_outside]

theorem State.writePtCfg_keeps (s : State) (p w m : Nat) {ro : Outside} (hk : Keeps ro s.outside) : Keeps ro (State.writePtCfg s p w m).outside := by
  unfold State.writePtCfg
  repeat' (first | with_reducible assumption | with_reducible exact Keeps.refl _ | simp only [↓outside_fst_ite, ↓outside_mk, ↓outside_fold, ↓outside_ite, ite_self, implies_true, ↓State.storeReg_outside, ↓State.setFld_outside, ↓State.setFlag_outside] | split | dsimp only | (with_reducible apply keeps_foldl; intro _ _ _) | (with_reducible apply keeps_iter; intro _ _) | with_reducible apply State.takeSetting_keeps | intro _)

theorem State.writePtChan_keeps (s : State) (p i w m : Nat) {ro : Outside} (hk : Keeps ro s.outside) : Keeps ro (State.writePtChan s p i w m).outside := by
  unfold State.writePtChan
  repeat' (first | with_reducible assumption | with_reducible exact Keeps.refl _ | simp only [↓outside_fst_ite, ↓outside_mk, ↓outside_fold, ↓outside_ite, ite_self, implies_true, ↓State.storeReg_outside, ↓State.setPtRefused_outside] | split | dsimp only | (with_reducible apply keeps_foldl; intro _ _ _) | (with_reducible apply keeps_iter; intro _ _) | with_reducible apply State.takeSetting_keeps | intro _)

theorem execPtCfgWrite_good (acc : Acc) (p : Part) (r : PtReg) (w : W64) (s : State) : Good s.outside (execPtCfgWrite acc p r w s) := by
  unfold execPtCfgWrite
  repeat' (first | with_reducible exact Keeps.refl _ | with_reducible assumption | with_reducible apply good_next | simp only [↓outside_fst_ite, ↓outside_mk, ↓outside_fold, ↓outside_ite, ite_self, implies_true, ↓State.storeReg_outside] | split | dsimp only | (with_reducible apply keeps_foldl; intro _ _ _) | (with_reducible apply keeps_iter; intro _ _) | with_reducible apply State.writePtCfg_keeps | with_reducible apply State.takeSetting_keeps | with_reducible apply State.writePtChan_keeps | (with_reducible apply State.hostWrite_keeps; intro _ _) | intro _)

theorem execPtSaveWrite_good (acc : Acc) (p : Part) (w : W64) (s : State) : Good s.outside (execPtSaveWrite acc p w s) := by
  unfold execPtSaveWrite
  repeat' (first | with_reducible exact Keeps.refl _ | with_reducible assumption | with_reducible apply good_next | simp only [↓outside_fst_ite, ↓outside_mk, ↓outside_fold, ↓outside_ite, ite_self, implies_true, ↓State.storeReg_outside, ↓State.setPtRefused_outside] | split | dsimp only | (with_reducible apply keeps_foldl; intro _ _ _) | (with_reducible apply keeps_iter; intro _ _) | (with_reducible apply State.hostWrite_keeps; intro _ _) | intro _)

@[simp ↓] theorem State.writeJobCfg_outside (s : State) (p j w m : Nat) : (State.writeJobCfg s p j w m).outside = s.outside := by
  unfold State.writeJobCfg
  repeat' (first | simp only [↓outside_fst_ite, ↓outside_mk, ↓outside_fold, ↓outside_ite, ite_self, implies_true, ↓State.storeReg_outside, ↓State.setFlag_outside, ↓State.setPtRefused_outside, ↓State.partFault_outside, ↓State.setFld_outside] | split | dsimp only | (with_reducible apply outside_foldl'; intro _ _) | (with_reducible apply outside_foldl_fst; intro _ _) | (with_reducible apply outside_iter; intro _))

theorem execJobCfgWrite_good (acc : Acc) (p : Part) (j : JobId) (w : W64) (s : State) : Good s.outside (execJobCfgWrite acc p j w s) := by
  unfold execJobCfgWrite
  repeat' (first | with_reducible exact Keeps.refl _ | with_reducible assumption | with_reducible apply good_next | simp only [↓outside_fst_ite, ↓outside_mk, ↓outside_fold, ↓outside_ite, ite_self, implies_true, ↓State.writeJobCfg_outside] | split | dsimp only | (with_reducible apply keeps_foldl; intro _ _ _) | (with_reducible apply keeps_iter; intro _ _) | (with_reducible apply State.hostWrite_keeps; intro _ _) | intro _)

@[simp ↓] theorem State.jobCtrl_outside (s : State) (acc : Acc) (p w : Nat) : (State.jobCtrl s acc p w).outside = s.outside := by
  unfold State.jobCtrl
  repeat' (first | simp only [↓outside_fst_ite, ↓outside_mk, ↓outside_fold, ↓outside_ite, ite_self, implies_true, ↓State.storeReg_outside, ↓State.setFld_outside, ↓State.refreshRing_outside] | split | dsimp only | (with_reducible apply outside_foldl'; intro _ _) | (with_reducible apply outside_foldl_fst; intro _ _) | (with_reducible apply outside_iter; intro _) | (with_reducible apply State.hostWrite_outside; intro _))

theorem execYield__good (acc : Acc) (p : Part) (w : W64) (s : State) : Good s.outside (execYield_ acc p w s) := by
  unfold execYield_
  repeat' (first | with_reducible exact Keeps.refl _ | with_reducible assumption | with_reducible apply good_next | simp only [↓outside_fst_ite, ↓outside_mk, ↓outside_fold, ↓outside_ite, ite_self, implies_true, ↓State.jobCtrl_outside] | split | dsimp only | (with_reducible apply keeps_foldl; intro _ _ _) | (with_reducible apply keeps_iter; intro _ _) | intro _)

theorem execResume_good (acc : Acc) (p : Part) (w : W64) (s : State) : Good s.outside (execResume acc p w s) := by
  unfold execResume
  repeat' (first | with_reducible exact Keeps.refl _ | with_reducible assumption | with_reducible apply good_next | simp only [↓outside_fst_ite, ↓outside_mk, ↓outside_fold, ↓outside_ite, ite_self, implies_true, ↓State.jobCtrl_outside] | split | dsimp only | (with_reducible apply keeps_foldl; intro _ _ _) | (with_reducible apply keeps_iter; intro _ _) | intro _)

@[simp ↓] theorem State.preemptWait_outside (s : State) (p j cause : Nat) : (State.preemptWait s p j cause).outside = s.outside := by
  unfold State.preemptWait
  repeat' (first | simp only [↓outside_fst_ite, ↓outside_mk, ↓outside_fold, ↓outside_ite, ite_self, implies_true, ↓State.partFault_outside, ↓State.jobEvent_outside] | split | dsimp only | (with_reducible apply outside_foldl'; intro _ _) | (with_reducible apply outside_foldl_fst; intro _ _) | (with_reducible apply outside_iter; intro _))

@[simp ↓] theorem State.yieldCtx_outside (s : State) (y j : Nat) (e : Ecc) : (State.yieldCtx s y j e).outside = s.outside := by
  unfold State.yieldCtx
  repeat' (first | simp only [↓outside_fst_ite, ↓outside_mk, ↓outside_fold, ↓outside_ite, ite_self, implies_true, ↓State.preemptNow_outside] | split | dsimp only | (with_reducible apply outside_foldl'; intro _ _) | (with_reducible apply outside_foldl_fst; intro _ _) | (with_reducible apply outside_iter; intro _))

@[simp ↓] theorem State.drain_outside (s : State) (p j : Nat) (es : List (Yard × Ecc)) : (State.drain s p j es).outside = s.outside := by
  unfold State.drain
  repeat' (first | simp only [↓outside_fst_ite, ↓outside_mk, ↓outside_fold, ↓outside_ite, ite_self, implies_true, ↓State.preemptWait_outside, ↓State.yieldCtx_outside, ↓State.setFld_outside, ↓State.jobEvent_outside, ↓State.refreshRing_outside] | split | dsimp only | (with_reducible apply outside_foldl'; intro _ _) | (with_reducible apply outside_foldl_fst; intro _ _) | (with_reducible apply outside_iter; intro _))

theorem execYieldDrained_good (p : Part) (j : JobId × List (Yard × Ecc)) (s : State) : Good s.outside (execYieldDrained p j s) := by
  unfold execYieldDrained
  repeat' (first | with_reducible exact Keeps.refl _ | with_reducible assumption | with_reducible apply good_next | simp only [↓outside_fst_ite, ↓outside_mk, ↓outside_fold, ↓outside_ite, ite_self, implies_true, ↓State.drain_outside] | split | dsimp only | (with_reducible apply keeps_foldl; intro _ _ _) | (with_reducible apply keeps_iter; intro _ _) | (with_reducible apply State.whenLive_keeps; intro _ _) | intro _)

theorem execPreemptWait_good (dt : Nat) (p : Part) (j : JobId) (s : State) : Good s.outside (execPreemptWait dt p j s) := by
  unfold execPreemptWait
  repeat' (first | with_reducible exact Keeps.refl _ | with_reducible assumption | with_reducible apply good_next | simp only [↓outside_fst_ite, ↓outside_mk, ↓outside_fold, ↓outside_ite, ite_self, implies_true, ↓State.tick_outside, ↓State.preemptWait_outside] | split | dsimp only | (with_reducible apply keeps_foldl; intro _ _ _) | (with_reducible apply keeps_iter; intro _ _) | (with_reducible apply State.whenLive_keeps; intro _ _) | intro _)

theorem execRingTailWrite_good (acc : Acc) (j : JobId) (w : W64) (s : State) : Good s.outside (execRingTailWrite acc j w s) := by
  unfold execRingTailWrite
  repeat' (first | with_reducible exact Keeps.refl _ | with_reducible assumption | with_reducible apply good_next | simp only [↓outside_fst_ite, ↓outside_mk, ↓outside_fold, ↓outside_ite, ite_self, implies_true, ↓State.storeReg_outside] | split | dsimp only | (with_reducible apply keeps_foldl; intro _ _ _) | (with_reducible apply keeps_iter; intro _ _) | (with_reducible apply State.hostWrite_keeps; intro _ _) | intro _)

@[simp ↓] theorem State.writeRingCfg_outside (s : State) (j w m : Nat) : (State.writeRingCfg s j w m).outside = s.outside := by
  unfold State.writeRingCfg
  repeat' (first | simp only [↓outside_fst_ite, ↓outside_mk, ↓outside_fold, ↓outside_ite, ite_self, implies_true, ↓State.storeReg_outside, ↓State.setFlag_outside, ↓State.setReg_outside, ↓State.setFld_outside, ↓State.setRing_outside, ↓State.dropAsk_outside, ↓State.refreshRing_outside] | split | dsimp only | (with_reducible apply outside_foldl'; intro _ _) | (with_reducible apply outside_foldl_fst; intro _ _) | (with_reducible apply outside_iter; intro _))

theorem execRingCfgWrite_good (acc : Acc) (j : JobId) (w : W64) (s : State) : Good s.outside (execRingCfgWrite acc j w s) := by
  unfold execRingCfgWrite
  repeat' (first | with_reducible exact Keeps.refl _ | with_reducible assumption | with_reducible apply good_next | simp only [↓outside_fst_ite, ↓outside_mk, ↓outside_fold, ↓outside_ite, ite_self, implies_true, ↓State.writeRingCfg_outside] | split | dsimp only | (with_reducible apply keeps_foldl; intro _ _ _) | (with_reducible apply keeps_iter; intro _ _) | (with_reducible apply State.hostWrite_keeps; intro _ _) | intro _)

@[simp ↓] theorem State.ringCtrl_outside (s : State) (acc : Acc) (j w : Nat) : (State.ringCtrl s acc j w).outside = s.outside := by
  unfold State.ringCtrl
  repeat' (first | simp only [↓outside_fst_ite, ↓outside_mk, ↓outside_fold, ↓outside_ite, ite_self, implies_true, ↓State.setFld_outside, ↓State.advanceRing_outside] | split | dsimp only | (with_reducible apply outside_foldl'; intro _ _) | (with_reducible apply outside_foldl_fst; intro _ _) | (with_reducible apply outside_iter; intro _) | (with_reducible apply State.hostWrite_outside; intro _))

theorem execGo_good (acc : Acc) (j : JobId) (w : W64) (s : State) : Good s.outside (execGo acc j w s) := by
  unfold execGo
  repeat' (first | with_reducible exact Keeps.refl _ | with_reducible assumption | with_reducible apply good_next | simp only [↓outside_fst_ite, ↓outside_mk, ↓outside_fold, ↓outside_ite, ite_self, implies_true, ↓State.ringCtrl_outside] | split | dsimp only | (with_reducible apply keeps_foldl; intro _ _ _) | (with_reducible apply keeps_iter; intro _ _) | intro _)

theorem execSkip_good (acc : Acc) (j : JobId) (w : W64) (s : State) : Good s.outside (execSkip acc j w s) := by
  unfold execSkip
  repeat' (first | with_reducible exact Keeps.refl _ | with_reducible assumption | with_reducible apply good_next | simp only [↓outside_fst_ite, ↓outside_mk, ↓outside_fold, ↓outside_ite, ite_self, implies_true, ↓State.ringCtrl_outside] | split | dsimp only | (with_reducible apply keeps_foldl; intro _ _ _) | (with_reducible apply keeps_iter; intro _ _) | intro _)

@[simp ↓] theorem State.ringFetch_outside (s : State) (j : Nat) : (State.ringFetch s j).outside = s.outside := by
  unfold State.ringFetch
  repeat' (first | simp only [↓outside_fst_ite, ↓outside_mk, ↓outside_fold, ↓outside_ite, ite_self, implies_true, ↓State.haltRing_outside, ↓State.readNow_outside, ↓State.partFault_outside, ↓State.setRing_outside, ↓State.setFld_outside, ↓State.refreshRing_outside] | split | dsimp only | (with_reducible apply outside_foldl'; intro _ _) | (with_reducible apply outside_foldl_fst; intro _ _) | (with_reducible apply outside_iter; intro _) | refine (State.readNow_pair (by assumption)).trans ?_)

theorem execRingFetch_good (j : JobId) (s : State) : Good s.outside (execRingFetch j s) := by
  unfold execRingFetch
  repeat' (first | with_reducible exact Keeps.refl _ | with_reducible assumption | with_reducible apply good_next | simp only [↓outside_fst_ite, ↓outside_mk, ↓outside_fold, ↓outside_ite, ite_self, implies_true, ↓State.ringFetch_outside] | split | dsimp only | (with_reducible apply keeps_foldl; intro _ _ _) | (with_reducible apply keeps_iter; intro _ _) | (with_reducible apply State.whenLive_keeps; intro _ _) | intro _)

@[simp ↓] theorem State.actOn_outside (s : State) (j : Nat) (e : RingEntry) : (State.actOn s j e).outside = s.outside := by
  unfold State.actOn
  repeat' (first | simp only [↓outside_fst_ite, ↓outside_mk, ↓outside_fold, ↓outside_ite, ite_self, implies_true, ↓State.setRing_outside] | split | dsimp only | (with_reducible apply outside_foldl'; intro _ _) | (with_reducible apply outside_foldl_fst; intro _ _) | (with_reducible apply outside_iter; intro _))

theorem State.ringAct_keeps (s : State) (j op : Nat) (alone : Bool) (f : State → Nat → RingEntry → State) {ro : Outside}
    (h : ∀ t x0 x1, Keeps ro t.outside → Keeps ro (f t x0 x1).outside) (h0 : Keeps ro s.outside) : Keeps ro (State.ringAct s j op alone f).outside := by
  unfold State.ringAct
  repeat' (first | with_reducible assumption | simp only [↓outside_fst_ite, ↓outside_mk, ↓outside_fold, ↓outside_ite, ite_self, implies_true] | split | dsimp only | apply h)

theorem State.ringAct_outside (s : State) (j op : Nat) (alone : Bool) (f : State → Nat → RingEntry → State) {ro : Outside}
    (h : ∀ t x0 x1, (f t x0 x1).outside = t.outside) (h0 : s.outside = ro) : (State.ringAct s j op alone f).outside = ro := by
  unfold State.ringAct
  repeat' (first | exact h0 | simp only [↓outside_fst_ite, ↓outside_mk, ↓outside_fold, ↓outside_ite, ite_self, implies_true] | split | dsimp only | refine (h ..).trans ?_)

theorem execNop_good (j : JobId) (s : State) : Good s.outside (execNop j s) := by
  unfold execNop
  repeat' (first | with_reducible exact Keeps.refl _ | with_reducible assumption | with_reducible apply good_next | simp only [↓outside_fst_ite, ↓outside_mk, ↓outside_fold, ↓outside_ite, ite_self, implies_true, ↓State.actOn_outside, ↓State.ringDone_outside] | split | dsimp only | (with_reducible apply keeps_foldl; intro _ _ _) | (with_reducible apply keeps_iter; intro _ _) | (with_reducible apply State.whenLive_keeps; intro _ _) | (with_reducible apply State.ringAct_keeps; intro _ _) | intro _)

theorem execRingStart_good (j : JobId) (s : State) : Good s.outside (execRingStart j s) := by
  unfold execRingStart
  repeat' (first | with_reducible exact Keeps.refl _ | with_reducible assumption | with_reducible apply good_next | simp only [↓outside_fst_ite, ↓outside_mk, ↓outside_fold, ↓outside_ite, ite_self, implies_true, ↓State.actOn_outside, ↓State.handRecord_outside] | split | dsimp only | (with_reducible apply keeps_foldl; intro _ _ _) | (with_reducible apply keeps_iter; intro _ _) | (with_reducible apply State.whenLive_keeps; intro _ _) | (with_reducible apply State.ringAct_keeps; intro _ _) | intro _)

theorem execRingLoad_good (j : JobId) (s : State) : Good s.outside (execRingLoad j s) := by
  unfold execRingLoad
  repeat' (first | with_reducible exact Keeps.refl _ | with_reducible assumption | with_reducible apply good_next | simp only [↓outside_fst_ite, ↓outside_mk, ↓outside_fold, ↓outside_ite, ite_self, implies_true, ↓State.actOn_outside, ↓State.startLoad_outside] | split | dsimp only | (with_reducible apply keeps_foldl; intro _ _ _) | (with_reducible apply keeps_iter; intro _ _) | (with_reducible apply State.whenLive_keeps; intro _ _) | (with_reducible apply State.ringAct_keeps; intro _ _) | intro _)

theorem execRingUnload_good (j : JobId) (s : State) : Good s.outside (execRingUnload j s) := by
  unfold execRingUnload
  repeat' (first | with_reducible exact Keeps.refl _ | with_reducible assumption | with_reducible apply good_next | simp only [↓outside_fst_ite, ↓outside_mk, ↓outside_fold, ↓outside_ite, ite_self, implies_true, ↓State.actOn_outside, ↓State.unload_outside, ↓State.ringDone_outside, ↓State.haltRing_outside] | split | dsimp only | (with_reducible apply keeps_foldl; intro _ _ _) | (with_reducible apply keeps_iter; intro _ _) | (with_reducible apply State.whenLive_keeps; intro _ _) | (with_reducible apply State.ringAct_keeps; intro _ _) | refine keeps_eq (State.unload_pair (by assumption)) ?_ | intro _)

theorem execRingWait_good (j : JobId) (s : State) : Good s.outside (execRingWait j s) := by
  unfold execRingWait
  repeat' (first | with_reducible exact Keeps.refl _ | with_reducible assumption | with_reducible apply good_next | simp only [↓outside_fst_ite, ↓outside_mk, ↓outside_fold, ↓outside_ite, ite_self, implies_true, ↓State.actOn_outside, ↓State.ringDone_outside] | split | dsimp only | (with_reducible apply keeps_foldl; intro _ _ _) | (with_reducible apply keeps_iter; intro _ _) | (with_reducible apply State.whenLive_keeps; intro _ _) | (with_reducible apply State.ringAct_keeps; intro _ _) | intro _)

theorem execSignal_good (j : JobId) (s : State) : Good s.outside (execSignal j s) := by
  unfold execSignal
  repeat' (first | with_reducible exact Keeps.refl _ | with_reducible assumption | with_reducible apply good_next | simp only [↓outside_fst_ite, ↓outside_mk, ↓outside_fold, ↓outside_ite, ite_self, implies_true, ↓State.actOn_outside, ↓State.hbmWrite_outside, ↓State.ringDone_outside] | split | dsimp only | (with_reducible apply keeps_foldl; intro _ _ _) | (with_reducible apply keeps_iter; intro _ _) | (with_reducible apply State.whenLive_keeps; intro _ _) | (with_reducible apply State.ringAct_keeps; intro _ _) | intro _)

end Sys2Proof.Machine
end

