-- ==== Sys2Proof/Laws/KeepHostRows.lean ====
section
/-! SUPPORT. Machine/HostRows.lean: what its operations leave alone. -/
set_option linter.unusedSimpArgs false
namespace Sys2Proof.Machine

theorem execHostPortReset_good (p : HostPort) (k : PortReset) (s : State) : Good s.outside (execHostPortReset p k s) := by
  unfold execHostPortReset
  repeat' (first | with_reducible exact Keeps.refl _ | with_reducible assumption | with_reducible apply good_next | simp only [↓outside_fst_ite, ↓outside_mk, ↓outside_fold, ↓outside_ite, ite_self, implies_true, ↓State.hostPortGone_outside, ↓State.hostLinkDown_outside] | split | dsimp only | (with_reducible apply keeps_foldl; intro _ _ _) | (with_reducible apply keeps_iter; intro _ _) | intro _)

theorem execHostLinkUp_good (p : HostPort) (speed : Fin 7) (width : Fin 17) (flit recovery msix : Bool) (s : State) : Good s.outside (execHostLinkUp p speed width flit recovery msix s) := by
  unfold execHostLinkUp
  repeat' (first | with_reducible exact Keeps.refl _ | with_reducible assumption | with_reducible apply good_next | simp only [↓outside_fst_ite, ↓outside_mk, ↓outside_fold, ↓outside_ite, ite_self, implies_true, ↓State.setFld_outside, ↓State.bump_outside, ↓State.event_outside] | split | dsimp only | (with_reducible apply keeps_foldl; intro _ _ _) | (with_reducible apply keeps_iter; intro _ _) | intro _)

theorem execResizableBarWrite_good (p : HostPort) (log2 : Nat) (s : State) : Good s.outside (execResizableBarWrite p log2 s) := by
  unfold execResizableBarWrite
  repeat' (first | with_reducible exact Keeps.refl _ | with_reducible assumption | with_reducible apply good_next | simp only [↓outside_fst_ite, ↓outside_mk, ↓outside_fold, ↓outside_ite, ite_self, implies_true, ↓State.setFld_outside, ↓State.setReg_outside] | split | dsimp only | (with_reducible apply keeps_foldl; intro _ _ _) | (with_reducible apply keeps_iter; intro _ _) | intro _)

theorem execBar2Read_good (p : HostPort) (off len : Nat) (s : State) : Good s.outside (execBar2Read p off len s) := by
  unfold execBar2Read
  repeat' (first | with_reducible exact Keeps.refl _ | with_reducible assumption | with_reducible apply good_next | simp only [↓outside_fst_ite, ↓outside_mk, ↓outside_fold, ↓outside_ite, ite_self, implies_true, ↓State.bump_outside, ↓State.emit_outside, ↓State.fresh_outside, ↓State.ask_outside, ↓SuRun.ask_outside, ↓State.barDone_outside] | split | dsimp only | (with_reducible apply keeps_foldl; intro _ _ _) | (with_reducible apply keeps_iter; intro _ _) | refine keeps_eq (State.fresh_pair (by assumption)) ?_ | intro _)

theorem execBar2Write_good (p : HostPort) (off : Nat) (bytes : List Byte) (s : State) : Good s.outside (execBar2Write p off bytes s) := by
  unfold execBar2Write
  repeat' (first | with_reducible exact Keeps.refl _ | with_reducible assumption | with_reducible apply good_next | simp only [↓outside_fst_ite, ↓outside_mk, ↓outside_fold, ↓outside_ite, ite_self, implies_true, ↓State.bump_outside, ↓State.hbmWrite_outside] | split | dsimp only | (with_reducible apply keeps_foldl; intro _ _ _) | (with_reducible apply keeps_iter; intro _ _) | intro _)

@[simp ↓] theorem State.unmask_outside (s : State) (p : HostPort) (v : Nat) : (State.unmask s p v).outside = s.outside := by
  unfold State.unmask
  repeat' (first | simp only [↓outside_fst_ite, ↓outside_mk, ↓outside_fold, ↓outside_ite, ite_self, implies_true, ↓State.setFlag_outside, ↓State.msixTo_outside] | split | dsimp only | (with_reducible apply outside_foldl'; intro _ _) | (with_reducible apply outside_foldl_fst; intro _ _) | (with_reducible apply outside_iter; intro _))

@[simp ↓] theorem State.plainWrite_outside (s : State) (p : HostPort) (a w m : Nat) : (State.plainWrite s p a w m).outside = s.outside := by
  unfold State.plainWrite
  repeat' (first | simp only [↓outside_fst_ite, ↓outside_mk, ↓outside_fold, ↓outside_ite, ite_self, implies_true, ↓State.storeReg_outside, ↓State.setReg_outside, ↓State.unmask_outside, ↓State.peakAt_outside] | split | dsimp only | (with_reducible apply outside_foldl'; intro _ _) | (with_reducible apply outside_foldl_fst; intro _ _) | (with_reducible apply outside_iter; intro _))

theorem execRegisterWrite_good (acc : Acc) (addr : Nat) (w : W64) (s : State) : Good s.outside (execRegisterWrite acc addr w s) := by
  unfold execRegisterWrite
  repeat' (first | with_reducible exact Keeps.refl _ | with_reducible assumption | with_reducible apply good_next | simp only [↓outside_fst_ite, ↓outside_mk, ↓outside_fold, ↓outside_ite, ite_self, implies_true, ↓State.plainWrite_outside] | split | dsimp only | (with_reducible apply keeps_foldl; intro _ _ _) | (with_reducible apply keeps_iter; intro _ _) | (with_reducible apply State.hostWrite_keeps; intro _ _) | intro _)

theorem State.hdrWrite_keeps (s : State) (acc : Acc) (page off : Nat) (f : State → Nat → State) {ro : Outside}
    (h : ∀ t x0, Keeps ro t.outside → Keeps ro (f t x0).outside) (h0 : Keeps ro s.outside) : Keeps ro (State.hdrWrite s acc page off f).outside := by
  unfold State.hdrWrite
  repeat' (first | with_reducible assumption | simp only [↓outside_fst_ite, ↓outside_mk, ↓outside_fold, ↓outside_ite, ite_self, implies_true] | split | dsimp only | apply h | (with_reducible apply State.hostWrite_keeps; intro _ _))

theorem State.hdrWrite_outside (s : State) (acc : Acc) (page off : Nat) (f : State → Nat → State) {ro : Outside}
    (h : ∀ t x0, (f t x0).outside = t.outside) (h0 : s.outside = ro) : (State.hdrWrite s acc page off f).outside = ro := by
  unfold State.hdrWrite
  repeat' (first | exact h0 | simp only [↓outside_fst_ite, ↓outside_mk, ↓outside_fold, ↓outside_ite, ite_self, implies_true] | split | dsimp only | refine (h ..).trans ?_ | (with_reducible apply State.hostWrite_outside; intro _))

theorem execPgOwnerWrite_good (acc : Acc) (page : Nat) (w : W64) (s : State) : Good s.outside (execPgOwnerWrite acc page w s) := by
  unfold execPgOwnerWrite
  repeat' (first | with_reducible exact Keeps.refl _ | with_reducible assumption | with_reducible apply good_next | simp only [↓outside_fst_ite, ↓outside_mk, ↓outside_fold, ↓outside_ite, ite_self, implies_true, ↓State.setReg_outside, ↓State.badAccess_outside] | split | dsimp only | (with_reducible apply keeps_foldl; intro _ _ _) | (with_reducible apply keeps_iter; intro _ _) | (with_reducible apply State.hdrWrite_keeps; intro _ _) | intro _)

theorem execEvtPendClear_good (acc : Acc) (page : Nat) (w : W64) (s : State) : Good s.outside (execEvtPendClear acc page w s) := by
  unfold execEvtPendClear
  repeat' (first | with_reducible exact Keeps.refl _ | with_reducible assumption | with_reducible apply good_next | simp only [↓outside_fst_ite, ↓outside_mk, ↓outside_fold, ↓outside_ite, ite_self, implies_true, ↓State.setReg_outside, ↓State.irqAfterWrite_outside] | split | dsimp only | (with_reducible apply keeps_foldl; intro _ _ _) | (with_reducible apply keeps_iter; intro _ _) | (with_reducible apply State.hdrWrite_keeps; intro _ _) | intro _)

theorem execEvtEnableWrite_good (acc : Acc) (page : Nat) (w : W64) (s : State) : Good s.outside (execEvtEnableWrite acc page w s) := by
  unfold execEvtEnableWrite
  repeat' (first | with_reducible exact Keeps.refl _ | with_reducible assumption | with_reducible apply good_next | simp only [↓outside_fst_ite, ↓outside_mk, ↓outside_fold, ↓outside_ite, ite_self, implies_true, ↓State.storeReg_outside, ↓State.irqAfterWrite_outside] | split | dsimp only | (with_reducible apply keeps_foldl; intro _ _ _) | (with_reducible apply keeps_iter; intro _ _) | (with_reducible apply State.hdrWrite_keeps; intro _ _) | intro _)

theorem execEvtSet_good (acc : Acc) (page : Nat) (w : W64) (s : State) : Good s.outside (execEvtSet acc page w s) := by
  unfold execEvtSet
  repeat' (first | with_reducible exact Keeps.refl _ | with_reducible assumption | with_reducible apply good_next | simp only [↓outside_fst_ite, ↓outside_mk, ↓outside_fold, ↓outside_ite, ite_self, implies_true, ↓State.event_outside] | split | dsimp only | (with_reducible apply keeps_foldl; intro _ _ _) | (with_reducible apply keeps_iter; intro _ _) | (with_reducible apply State.hdrWrite_keeps; intro _ _) | intro _)

theorem execPgCtrlWrite_good (acc : Acc) (page : Nat) (w : W64) (s : State) : Good s.outside (execPgCtrlWrite acc page w s) := by
  unfold execPgCtrlWrite
  repeat' (first | with_reducible exact Keeps.refl _ | with_reducible assumption | with_reducible apply good_next | simp only [↓outside_fst_ite, ↓outside_mk, ↓outside_fold, ↓outside_ite, ite_self, implies_true, ↓State.storeReg_outside, ↓State.irqAfterWrite_outside] | split | dsimp only | (with_reducible apply keeps_foldl; intro _ _ _) | (with_reducible apply keeps_iter; intro _ _) | (with_reducible apply State.hdrWrite_keeps; intro _ _) | intro _)

theorem execClr_good (acc : Acc) (page : Nat) (w : W64) (s : State) : Good s.outside (execClr acc page w s) := by
  unfold execClr
  repeat' (first | with_reducible exact Keeps.refl _ | with_reducible assumption | with_reducible apply good_next | simp only [↓outside_fst_ite, ↓outside_mk, ↓outside_fold, ↓outside_ite, ite_self, implies_true, ↓State.setReg_outside] | split | dsimp only | (with_reducible apply keeps_foldl; intro _ _ _) | (with_reducible apply keeps_iter; intro _ _) | (with_reducible apply State.hdrWrite_keeps; intro _ _) | intro _)

theorem execCounterSatClear_good (acc : Acc) (addr : Nat) (w : W64) (s : State) : Good s.outside (execCounterSatClear acc addr w s) := by
  unfold execCounterSatClear
  repeat' (first | with_reducible exact Keeps.refl _ | with_reducible assumption | with_reducible apply good_next | simp only [↓outside_fst_ite, ↓outside_mk, ↓outside_fold, ↓outside_ite, ite_self, implies_true, ↓State.storeReg_outside] | split | dsimp only | (with_reducible apply keeps_foldl; intro _ _ _) | (with_reducible apply keeps_iter; intro _ _) | (with_reducible apply State.hostWrite_keeps; intro _ _) | intro _)

@[simp ↓] theorem State.takeSem_outside (s : State) (i code : Nat) : (State.takeSem s i code).outside = s.outside := by
  unfold State.takeSem
  repeat' (first | simp only [↓outside_fst_ite, ↓outside_mk, ↓outside_fold, ↓outside_ite, ite_self, implies_true, ↓State.setReg_outside] | split | dsimp only | (with_reducible apply outside_foldl'; intro _ _) | (with_reducible apply outside_foldl_fst; intro _ _) | (with_reducible apply outside_iter; intro _))

@[simp ↓] theorem State.freeSem_outside (s : State) (i : Nat) : (State.freeSem s i).outside = s.outside := by
  unfold State.freeSem
  repeat' (first | simp only [↓outside_fst_ite, ↓outside_mk, ↓outside_fold, ↓outside_ite, ite_self, implies_true, ↓State.setReg_outside] | split | dsimp only | (with_reducible apply outside_foldl'; intro _ _) | (with_reducible apply outside_foldl_fst; intro _ _) | (with_reducible apply outside_iter; intro _))

@[simp ↓] theorem State.semAcquire_outside (s : State) (port : HostPort) (i : Nat) : (State.semAcquire s port i).outside = s.outside := by
  unfold State.semAcquire
  repeat' (first | simp only [↓outside_fst_ite, ↓outside_mk, ↓outside_fold, ↓outside_ite, ite_self, implies_true, ↓State.takeSem_outside, ↓State.emit_outside] | split | dsimp only | (with_reducible apply outside_foldl'; intro _ _) | (with_reducible apply outside_foldl_fst; intro _ _) | (with_reducible apply outside_iter; intro _))

@[simp ↓] theorem State.hostRead_outside (s0 : State) (acc : Acc) (a : Nat) : (State.hostRead s0 acc a).outside = s0.outside := by
  unfold State.hostRead
  repeat' (first | simp only [↓outside_fst_ite, ↓outside_mk, ↓outside_fold, ↓outside_ite, ite_self, implies_true, ↓State.readAbort_outside, ↓State.semAcquire_outside, ↓State.emit_outside] | split | dsimp only | (with_reducible apply outside_foldl'; intro _ _) | (with_reducible apply outside_foldl_fst; intro _ _) | (with_reducible apply outside_iter; intro _) | (with_reducible apply State.inTurn_outside; intro _))

theorem execSemAcquire_good (acc : Acc) (i : Fin 32) (s : State) : Good s.outside (execSemAcquire acc i s) := by
  unfold execSemAcquire
  repeat' (first | with_reducible exact Keeps.refl _ | with_reducible assumption | with_reducible apply good_next | simp only [↓outside_fst_ite, ↓outside_mk, ↓outside_fold, ↓outside_ite, ite_self, implies_true, ↓State.hostRead_outside] | split | dsimp only | (with_reducible apply keeps_foldl; intro _ _ _) | (with_reducible apply keeps_iter; intro _ _) | intro _)

theorem execSemRelease_good (acc : Acc) (i : Fin 32) (w : W64) (s : State) : Good s.outside (execSemRelease acc i w s) := by
  unfold execSemRelease
  repeat' (first | with_reducible exact Keeps.refl _ | with_reducible assumption | with_reducible apply good_next | simp only [↓outside_fst_ite, ↓outside_mk, ↓outside_fold, ↓outside_ite, ite_self, implies_true, ↓State.badAccess_outside, ↓State.freeSem_outside, ↓State.dropped_outside] | split | dsimp only | (with_reducible apply keeps_foldl; intro _ _ _) | (with_reducible apply keeps_iter; intro _ _) | (with_reducible apply State.inTurn_keeps; intro _ _) | (with_reducible apply State.hostWrite_keeps; intro _ _) | intro _)

@[simp ↓] theorem State.semTimeout_outside (s : State) (i : Nat) : (State.semTimeout s i).outside = s.outside := by
  unfold State.semTimeout
  repeat' (first | simp only [↓outside_fst_ite, ↓outside_mk, ↓outside_fold, ↓outside_ite, ite_self, implies_true, ↓State.freeSem_outside, ↓State.bump_outside, ↓State.faultEv_outside, ↓State.event_outside] | split | dsimp only | (with_reducible apply outside_foldl'; intro _ _) | (with_reducible apply outside_foldl_fst; intro _ _) | (with_reducible apply outside_iter; intro _))

theorem execSemaphoreTimeout_good (dt : Nat) (s : State) : Good s.outside (execSemaphoreTimeout dt s) := by
  unfold execSemaphoreTimeout
  repeat' (first | with_reducible exact Keeps.refl _ | with_reducible assumption | with_reducible apply good_next | simp only [↓outside_fst_ite, ↓outside_mk, ↓outside_fold, ↓outside_ite, ite_self, implies_true, ↓State.semTimeout_outside, ↓State.tick_outside] | split | dsimp only | (with_reducible apply keeps_foldl; intro _ _ _) | (with_reducible apply keeps_iter; intro _ _) | intro _)

end Sys2Proof.Machine
end

