-- ==== Sys2Proof/Laws/KeepPowerRows.lean ====
section
/-! SUPPORT. Machine/PowerRows.lean: what its operations leave alone. -/
set_option linter.unusedSimpArgs false
namespace Sys2Proof.Machine

@[simp ↓] theorem State.seeVin_outside (s : State) (v : Nat) : (State.seeVin s v).outside = s.outside := by
  unfold State.seeVin
  repeat' (first | simp only [↓outside_fst_ite, ↓outside_mk, ↓outside_fold, ↓outside_ite, ite_self, implies_true, ↓State.setFld_outside] | split | dsimp only | (with_reducible apply outside_foldl'; intro _ _) | (with_reducible apply outside_foldl_fst; intro _ _) | (with_reducible apply outside_iter; intro _))

theorem execInputLow_good (vin : BitVec 16) (s : State) : Good s.outside (execInputLow vin s) := by
  unfold execInputLow
  repeat' (first | with_reducible exact Keeps.refl _ | with_reducible assumption | with_reducible apply good_next | simp only [↓outside_fst_ite, ↓outside_mk, ↓outside_fold, ↓outside_ite, ite_self, implies_true, ↓State.seeVin_outside, ↓State.event_outside] | split | dsimp only | (with_reducible apply keeps_foldl; intro _ _ _) | (with_reducible apply keeps_iter; intro _ _) | intro _)

@[simp ↓] theorem State.loseInput_outside (s : State) (vin code ev : Nat) : (State.loseInput s vin code ev).outside = s.outside := by
  unfold State.loseInput
  repeat' (first | simp only [↓outside_fst_ite, ↓outside_mk, ↓outside_fold, ↓outside_ite, ite_self, implies_true, ↓State.seeVin_outside, ↓State.faultEv_outside, ↓State.bump_outside, ↓State.safeStop_outside] | split | dsimp only | (with_reducible apply outside_foldl'; intro _ _) | (with_reducible apply outside_foldl_fst; intro _ _) | (with_reducible apply outside_iter; intro _))

theorem execInputUndervolt_good (vin : BitVec 16) (s : State) : Good s.outside (execInputUndervolt vin s) := by
  unfold execInputUndervolt
  repeat' (first | with_reducible exact Keeps.refl _ | with_reducible assumption | with_reducible apply good_next | simp only [↓outside_fst_ite, ↓outside_mk, ↓outside_fold, ↓outside_ite, ite_self, implies_true, ↓State.loseInput_outside] | split | dsimp only | (with_reducible apply keeps_foldl; intro _ _ _) | (with_reducible apply keeps_iter; intro _ _) | intro _)

theorem execInputOvervolt_good (vin : BitVec 16) (s : State) : Good s.outside (execInputOvervolt vin s) := by
  unfold execInputOvervolt
  repeat' (first | with_reducible exact Keeps.refl _ | with_reducible assumption | with_reducible apply good_next | simp only [↓outside_fst_ite, ↓outside_mk, ↓outside_fold, ↓outside_ite, ite_self, implies_true, ↓State.loseInput_outside] | split | dsimp only | (with_reducible apply keeps_foldl; intro _ _ _) | (with_reducible apply keeps_iter; intro _ _) | intro _)

theorem execInputRecovered_good (vin : BitVec 16) (s : State) : Good s.outside (execInputRecovered vin s) := by
  unfold execInputRecovered
  repeat' (first | with_reducible exact Keeps.refl _ | with_reducible assumption | with_reducible apply good_next | simp only [↓outside_fst_ite, ↓outside_mk, ↓outside_fold, ↓outside_ite, ite_self, implies_true, ↓State.coldReset_outside, ↓State.seeVin_outside, ↓State.warmReset_outside] | split | dsimp only | (with_reducible apply keeps_foldl; intro _ _ _) | (with_reducible apply keeps_iter; intro _ _) | intro _)

@[simp ↓] theorem State.powerOff_outside (s : State) : (State.powerOff s).outside = s.outside := by
  unfold State.powerOff
  repeat' (first | simp only [↓outside_fst_ite, ↓outside_mk, ↓outside_fold, ↓outside_ite, ite_self, implies_true, ↓State.outer_outside, ↓State.setFld_outside] | split | dsimp only | (with_reducible apply outside_foldl'; intro _ _) | (with_reducible apply outside_foldl_fst; intro _ _) | (with_reducible apply outside_iter; intro _))

theorem execBusCollapse_good (busMv : BitVec 16) (s : State) : Good s.outside (execBusCollapse busMv s) := by
  unfold execBusCollapse
  repeat' (first | with_reducible exact Keeps.refl _ | with_reducible assumption | with_reducible apply good_next | simp only [↓outside_fst_ite, ↓outside_mk, ↓outside_fold, ↓outside_ite, ite_self, implies_true, ↓State.powerOff_outside] | split | dsimp only | (with_reducible apply keeps_foldl; intro _ _ _) | (with_reducible apply keeps_iter; intro _ _) | intro _)

theorem execCurrentLimit_good (iin busMv : BitVec 16) (s : State) : Good s.outside (execCurrentLimit iin busMv s) := by
  unfold execCurrentLimit
  repeat' (first | with_reducible exact Keeps.refl _ | with_reducible assumption | with_reducible apply good_next | simp only [↓outside_fst_ite, ↓outside_mk, ↓outside_fold, ↓outside_ite, ite_self, implies_true, ↓State.setFld_outside] | split | dsimp only | (with_reducible apply keeps_foldl; intro _ _ _) | (with_reducible apply keeps_iter; intro _ _) | intro _)

@[simp ↓] theorem State.ceilings_outside (s : State) : (State.ceilings s).outside = s.outside := by
  unfold State.ceilings
  repeat' (first | simp only [↓outside_fst_ite, ↓outside_mk, ↓outside_fold, ↓outside_ite, ite_self, implies_true, ↓State.setFld_outside] | split | dsimp only | (with_reducible apply outside_foldl'; intro _ _) | (with_reducible apply outside_foldl_fst; intro _ _) | (with_reducible apply outside_iter; intro _))

@[simp ↓] theorem State.equalise_outside (s : State) (wt : Nat) (free : Nat) (y : Nat) : (State.equalise s wt free y).outside = s.outside := by
  unfold State.equalise
  repeat' (first | simp only [↓outside_fst_ite, ↓outside_mk, ↓outside_fold, ↓outside_ite, ite_self, implies_true, ↓State.setFld_outside] | split | dsimp only | (with_reducible apply outside_foldl'; intro _ _) | (with_reducible apply outside_foldl_fst; intro _ _) | (with_reducible apply outside_iter; intro _))

@[simp ↓] theorem State.capReport_outside (s : State) (old lim yard pin : Nat) : (State.capReport s old lim yard pin).outside = s.outside := by
  unfold State.capReport
  repeat' (first | simp only [↓outside_fst_ite, ↓outside_mk, ↓outside_fold, ↓outside_ite, ite_self, implies_true, ↓State.faultEv_outside] | split | dsimp only | (with_reducible apply outside_foldl'; intro _ _) | (with_reducible apply outside_foldl_fst; intro _ _) | (with_reducible apply outside_iter; intro _))

@[simp ↓] theorem State.capLoop_outside (s : State) (x : CapSample) : (State.capLoop s x).outside = s.outside := by
  unfold State.capLoop
  repeat' (first | simp only [↓outside_fst_ite, ↓outside_mk, ↓outside_fold, ↓outside_ite, ite_self, implies_true, ↓State.ceilings_outside, ↓State.equalise_outside, ↓State.setReg_outside, ↓State.capReport_outside] | split | dsimp only | (with_reducible apply outside_foldl'; intro _ _) | (with_reducible apply outside_foldl_fst; intro _ _) | (with_reducible apply outside_iter; intro _))

@[simp ↓] theorem State.measure_outside (s : State) (dt : Nat) (x : CapSample) : (State.measure s dt x).outside = s.outside := by
  unfold State.measure
  repeat' (first | simp only [↓outside_fst_ite, ↓outside_mk, ↓outside_fold, ↓outside_ite, ite_self, implies_true, ↓State.setReg_outside, ↓State.bump_outside] | split | dsimp only | (with_reducible apply outside_foldl'; intro _ _) | (with_reducible apply outside_foldl_fst; intro _ _) | (with_reducible apply outside_iter; intro _))

theorem execCapLoop_good (dt : Nat) (x : CapSample) (s : State) : Good s.outside (execCapLoop dt x s) := by
  unfold execCapLoop
  repeat' (first | with_reducible exact Keeps.refl _ | with_reducible assumption | with_reducible apply good_next | simp only [↓outside_fst_ite, ↓outside_mk, ↓outside_fold, ↓outside_ite, ite_self, implies_true, ↓State.tick_outside, ↓State.measure_outside, ↓State.capLoop_outside] | split | dsimp only | (with_reducible apply keeps_foldl; intro _ _ _) | (with_reducible apply keeps_iter; intro _ _) | intro _)

theorem execJunctionHot_good (d : HotDie) (t : BitVec 16) (s : State) : Good s.outside (execJunctionHot d t s) := by
  unfold execJunctionHot
  repeat' (first | with_reducible exact Keeps.refl _ | with_reducible assumption | with_reducible apply good_next | simp only [↓outside_fst_ite, ↓outside_mk, ↓outside_fold, ↓outside_ite, ite_self, implies_true, ↓State.coolDie_outside, ↓State.warmDie_outside, ↓State.faultEv_outside, ↓State.safeStop_outside] | split | dsimp only | (with_reducible apply keeps_foldl; intro _ _ _) | (with_reducible apply keeps_iter; intro _ _) | intro _)

end Sys2Proof.Machine
end

