-- ==== Sys2Proof/Laws/KeepMastRows.lean ====
section
/-! SUPPORT. Machine/MastRows.lean: what its operations leave alone. -/
set_option linter.unusedSimpArgs false
namespace Sys2Proof.Machine

@[simp ↓] theorem State.countBeat_outside (s : State) (m : Fin 2) : (State.countBeat s m).outside = s.outside := by
  unfold State.countBeat
  repeat' (first | simp only [↓outside_fst_ite, ↓outside_mk, ↓outside_fold, ↓outside_ite, ite_self, implies_true, ↓State.setFld_outside] | split | dsimp only | (with_reducible apply outside_foldl'; intro _ _) | (with_reducible apply outside_foldl_fst; intro _ _) | (with_reducible apply outside_iter; intro _))

theorem execHeartbeat_good (dt : Nat) (pair0 pair1 : Bool) (s : State) : Good s.outside (execHeartbeat dt pair0 pair1 s) := by
  unfold execHeartbeat
  repeat' (first | with_reducible exact Keeps.refl _ | with_reducible assumption | with_reducible apply good_next | simp only [↓outside_fst_ite, ↓outside_mk, ↓outside_fold, ↓outside_ite, ite_self, implies_true, ↓State.tick_outside, ↓State.setRole_outside, ↓State.countBeat_outside, ↓State.setFld_outside] | split | dsimp only | (with_reducible apply keeps_foldl; intro _ _ _) | (with_reducible apply keeps_iter; intro _ _) | intro _)

theorem State.dropUpdate_keeps (s : State) {ro : Outside} (hk : Keeps ro s.outside) : Keeps ro (State.dropUpdate s).outside := by
  unfold State.dropUpdate
  repeat' (first | with_reducible assumption | with_reducible exact Keeps.refl _ | simp only [↓outside_fst_ite, ↓outside_mk, ↓outside_fold, ↓outside_ite, ite_self, implies_true] | split | dsimp only | (with_reducible apply keeps_foldl; intro _ _ _) | (with_reducible apply keeps_iter; intro _ _) | with_reducible apply State.endMaint_keeps | intro _)

@[simp ↓] theorem State.becomePrimary_outside (s : State) (m : Fin 2) (c : Nat) : (State.becomePrimary s m c).outside = s.outside := by
  unfold State.becomePrimary
  repeat' (first | simp only [↓outside_fst_ite, ↓outside_mk, ↓outside_fold, ↓outside_ite, ite_self, implies_true, ↓State.setRole_outside, ↓State.bump_outside, ↓State.event_outside, ↓State.fault_outside] | split | dsimp only | (with_reducible apply outside_foldl'; intro _ _) | (with_reducible apply outside_foldl_fst; intro _ _) | (with_reducible apply outside_iter; intro _))

theorem State.claim_keeps (s : State) (m : Fin 2) {ro : Outside} (hk : Keeps ro s.outside) : Keeps ro (State.claim s m).outside := by
  unfold State.claim
  repeat' (first | with_reducible assumption | with_reducible exact Keeps.refl _ | simp only [↓outside_fst_ite, ↓outside_mk, ↓outside_fold, ↓outside_ite, ite_self, implies_true, ↓State.becomePrimary_outside, ↓State.event_outside] | split | dsimp only | (with_reducible apply keeps_foldl; intro _ _ _) | (with_reducible apply keeps_iter; intro _ _) | with_reducible apply State.dropUpdate_keeps | with_reducible apply State.actOnWaiting_keeps | intro _)

theorem execMastheadTakeover_good (dt : Nat) (s : State) : Good s.outside (execMastheadTakeover dt s) := by
  unfold execMastheadTakeover
  repeat' (first | with_reducible exact Keeps.refl _ | with_reducible assumption | with_reducible apply good_next | simp only [↓outside_fst_ite, ↓outside_mk, ↓outside_fold, ↓outside_ite, ite_self, implies_true, ↓State.tick_outside] | split | dsimp only | (with_reducible apply keeps_foldl; intro _ _ _) | (with_reducible apply keeps_iter; intro _ _) | with_reducible apply State.claim_keeps | intro _)

theorem execShroudClaimRetry_good (dt : Nat) (s : State) : Good s.outside (execShroudClaimRetry dt s) := by
  unfold execShroudClaimRetry
  repeat' (first | with_reducible exact Keeps.refl _ | with_reducible assumption | with_reducible apply good_next | simp only [↓outside_fst_ite, ↓outside_mk, ↓outside_fold, ↓outside_ite, ite_self, implies_true, ↓State.tick_outside] | split | dsimp only | (with_reducible apply keeps_foldl; intro _ _ _) | (with_reducible apply keeps_iter; intro _ _) | with_reducible apply State.claim_keeps | intro _)

theorem execMastheadBothLost_good (dt : Nat) (s : State) : Good s.outside (execMastheadBothLost dt s) := by
  unfold execMastheadBothLost
  repeat' (first | with_reducible exact Keeps.refl _ | with_reducible assumption | with_reducible apply good_next | simp only [↓outside_fst_ite, ↓outside_mk, ↓outside_fold, ↓outside_ite, ite_self, implies_true, ↓State.tick_outside, ↓State.losesBoth_outside] | split | dsimp only | (with_reducible apply keeps_foldl; intro _ _ _) | (with_reducible apply keeps_iter; intro _ _) | intro _)

theorem execStandbyReady_good (m : Fin 2) (s : State) : Good s.outside (execStandbyReady m s) := by
  unfold execStandbyReady
  repeat' (first | with_reducible exact Keeps.refl _ | with_reducible assumption | with_reducible apply good_next | simp only [↓outside_fst_ite, ↓outside_mk, ↓outside_fold, ↓outside_ite, ite_self, implies_true, ↓State.useBank_outside, ↓State.setRole_outside] | split | dsimp only | (with_reducible apply keeps_foldl; intro _ _ _) | (with_reducible apply keeps_iter; intro _ _) | intro _)

end Sys2Proof.Machine
end

