-- ==== Sys2Proof/Laws/KeepMaintRows.lean ====
section
/-! SUPPORT. Machine/MaintRows.lean: what its operations leave alone. -/
set_option linter.unusedSimpArgs false
namespace Sys2Proof.Machine

theorem execMaintRequest_good (cls : Fin 8) (target : BitVec 32) (s : State) : Good s.outside (execMaintRequest cls target s) := by
  unfold execMaintRequest
  repeat' (first | with_reducible exact Keeps.refl _ | with_reducible assumption | with_reducible apply good_next | simp only [↓outside_fst_ite, ↓outside_mk, ↓outside_fold, ↓outside_ite, ite_self, implies_true] | split | dsimp only | (with_reducible apply keeps_foldl; intro _ _ _) | (with_reducible apply keeps_iter; intro _ _) | with_reducible apply State.arbiter_keeps | (with_reducible apply State.whenLive_keeps; intro _ _) | intro _)

theorem State.maReq_keeps (s : State) (acc : Acc) (w : Nat) {ro : Outside} (hk : Keeps ro s.outside) : Keeps ro (State.maReq s acc w).outside := by
  unfold State.maReq
  repeat' (first | with_reducible assumption | with_reducible exact Keeps.refl _ | simp only [↓outside_fst_ite, ↓outside_mk, ↓outside_fold, ↓outside_ite, ite_self, implies_true, ↓State.storeReg_outside] | split | dsimp only | (with_reducible apply keeps_foldl; intro _ _ _) | (with_reducible apply keeps_iter; intro _ _) | with_reducible apply State.request_keeps | (with_reducible apply State.hostWrite_keeps; intro _ _) | intro _)

theorem execLaneRetrain_good (acc : Acc) (w : W64) (s : State) : Good s.outside (execLaneRetrain acc w s) := by
  unfold execLaneRetrain
  repeat' (first | with_reducible exact Keeps.refl _ | with_reducible assumption | with_reducible apply good_next | simp only [↓outside_fst_ite, ↓outside_mk, ↓outside_fold, ↓outside_ite, ite_self, implies_true] | split | dsimp only | (with_reducible apply keeps_foldl; intro _ _ _) | (with_reducible apply keeps_iter; intro _ _) | with_reducible apply State.maReq_keeps | intro _)

theorem execYardRetire_good (acc : Acc) (w : W64) (s : State) : Good s.outside (execYardRetire acc w s) := by
  unfold execYardRetire
  repeat' (first | with_reducible exact Keeps.refl _ | with_reducible assumption | with_reducible apply good_next | simp only [↓outside_fst_ite, ↓outside_mk, ↓outside_fold, ↓outside_ite, ite_self, implies_true] | split | dsimp only | (with_reducible apply keeps_foldl; intro _ _ _) | (with_reducible apply keeps_iter; intro _ _) | with_reducible apply State.maReq_keeps | intro _)

theorem execFirmwareUpdate_good (acc : Acc) (w : W64) (s : State) : Good s.outside (execFirmwareUpdate acc w s) := by
  unfold execFirmwareUpdate
  repeat' (first | with_reducible exact Keeps.refl _ | with_reducible assumption | with_reducible apply good_next | simp only [↓outside_fst_ite, ↓outside_mk, ↓outside_fold, ↓outside_ite, ite_self, implies_true] | split | dsimp only | (with_reducible apply keeps_foldl; intro _ _ _) | (with_reducible apply keeps_iter; intro _ _) | with_reducible apply State.maReq_keeps | intro _)

theorem execMaCtrlWrite_good (acc : Acc) (w : W64) (s : State) : Good s.outside (execMaCtrlWrite acc w s) := by
  unfold execMaCtrlWrite
  repeat' (first | with_reducible exact Keeps.refl _ | with_reducible assumption | with_reducible apply good_next | simp only [↓outside_fst_ite, ↓outside_mk, ↓outside_fold, ↓outside_ite, ite_self, implies_true, ↓State.storeReg_outside] | split | dsimp only | (with_reducible apply keeps_foldl; intro _ _ _) | (with_reducible apply keeps_iter; intro _ _) | with_reducible apply State.examineQueue_keeps | (with_reducible apply State.hostWrite_keeps; intro _ _) | intro _)

theorem State.updateDone_keeps (s : State) (m : Fin 2) {ro : Outside} (hk : Keeps ro s.outside) : Keeps ro (State.updateDone s m).outside := by
  unfold State.updateDone
  repeat' (first | with_reducible assumption | with_reducible exact Keeps.refl _ | simp only [↓outside_fst_ite, ↓outside_mk, ↓outside_fold, ↓outside_ite, ite_self, implies_true, ↓State.fresh_outside, ↓State.useBank_outside, ↓State.becomePrimary_outside] | split | dsimp only | (with_reducible apply keeps_foldl; intro _ _ _) | (with_reducible apply keeps_iter; intro _ _) | with_reducible apply State.endMaint_keeps | refine keeps_eq (State.fresh_pair (by assumption)) ?_ | intro _)

theorem execMaintOpEnd_good (dt : Nat) (cls : Fin 8) (target : BitVec 32) (good : Bool) (s : State) : Good s.outside (execMaintOpEnd dt cls target good s) := by
  unfold execMaintOpEnd
  repeat' (first | with_reducible exact Keeps.refl _ | with_reducible assumption | with_reducible apply good_next | simp only [↓outside_fst_ite, ↓outside_mk, ↓outside_fold, ↓outside_ite, ite_self, implies_true, ↓State.tick_outside] | split | dsimp only | (with_reducible apply keeps_foldl; intro _ _ _) | (with_reducible apply keeps_iter; intro _ _) | with_reducible apply State.endMaint_keeps | with_reducible apply State.updateDone_keeps | (with_reducible apply State.whenLive_keeps; intro _ _) | intro _)

theorem State.retireTested_keeps (s : State) (y : Nat) (pass : Bool) {ro : Outside} (hk : Keeps ro s.outside) : Keeps ro (State.retireTested s y pass).outside := by
  unfold State.retireTested
  repeat' (first | with_reducible assumption | with_reducible exact Keeps.refl _ | simp only [↓outside_fst_ite, ↓outside_mk, ↓outside_fold, ↓outside_ite, ite_self, implies_true, ↓State.setMapGen_outside] | split | dsimp only | (with_reducible apply keeps_foldl; intro _ _ _) | (with_reducible apply keeps_iter; intro _ _) | with_reducible apply State.retireYard_keeps | with_reducible apply State.endMaint_keeps | with_reducible apply State.retirePhys_keeps | intro _)

theorem execRetireTestDone_good (dt : Nat) (y : Yard) (pass : Bool) (s : State) : Good s.outside (execRetireTestDone dt y pass s) := by
  unfold execRetireTestDone
  repeat' (first | with_reducible exact Keeps.refl _ | with_reducible assumption | with_reducible apply good_next | simp only [↓outside_fst_ite, ↓outside_mk, ↓outside_fold, ↓outside_ite, ite_self, implies_true, ↓State.tick_outside] | split | dsimp only | (with_reducible apply keeps_foldl; intro _ _ _) | (with_reducible apply keeps_iter; intro _ _) | with_reducible apply State.retireTested_keeps | (with_reducible apply State.whenLive_keeps; intro _ _) | intro _)

theorem execHitsWindowClear_good (dt : Nat) (s : State) : Good s.outside (execHitsWindowClear dt s) := by
  unfold execHitsWindowClear
  repeat' (first | with_reducible exact Keeps.refl _ | with_reducible assumption | with_reducible apply good_next | simp only [↓outside_fst_ite, ↓outside_mk, ↓outside_fold, ↓outside_ite, ite_self, implies_true, ↓State.tick_outside, ↓State.resetRegs_outside] | split | dsimp only | (with_reducible apply keeps_foldl; intro _ _ _) | (with_reducible apply keeps_iter; intro _ _) | intro _)

@[simp ↓] theorem State.cfgUe_outside (s : State) : (State.cfgUe s).outside = s.outside := by
  unfold State.cfgUe
  repeat' (first | simp only [↓outside_fst_ite, ↓outside_mk, ↓outside_fold, ↓outside_ite, ite_self, implies_true, ↓State.bump_outside, ↓State.event_outside] | split | dsimp only | (with_reducible apply outside_foldl'; intro _ _) | (with_reducible apply outside_foldl_fst; intro _ _) | (with_reducible apply outside_iter; intro _))

@[simp ↓] theorem State.cfgLost_outside (s : State) (y u : Nat) (i : Image) : (State.cfgLost s y u i).outside = s.outside := by
  unfold State.cfgLost
  repeat' (first | simp only [↓outside_fst_ite, ↓outside_mk, ↓outside_fold, ↓outside_ite, ite_self, implies_true, ↓State.cfgUe_outside, ↓State.faultEv_outside, ↓State.fabricReset_outside, ↓State.stopImage_outside] | split | dsimp only | (with_reducible apply outside_foldl'; intro _ _) | (with_reducible apply outside_foldl_fst; intro _ _) | (with_reducible apply outside_iter; intro _))

@[simp ↓] theorem State.lntWipe_outside (s : State) (e : Nat) : (State.lntWipe s e).outside = s.outside := by
  unfold State.lntWipe
  repeat' (first | simp only [↓outside_fst_ite, ↓outside_mk, ↓outside_fold, ↓outside_ite, ite_self, implies_true, ↓State.setFld_outside, ↓State.setReg_outside] | split | dsimp only | (with_reducible apply outside_foldl'; intro _ _) | (with_reducible apply outside_foldl_fst; intro _ _) | (with_reducible apply outside_iter; intro _))

@[simp ↓] theorem State.lntMark_outside (s : State) (e k : Nat) : (State.lntMark s e k).outside = s.outside := by
  unfold State.lntMark
  repeat' (first | simp only [↓outside_fst_ite, ↓outside_mk, ↓outside_fold, ↓outside_ite, ite_self, implies_true, ↓State.setFlag_outside, ↓State.lntWipe_outside] | split | dsimp only | (with_reducible apply outside_foldl'; intro _ _) | (with_reducible apply outside_foldl_fst; intro _ _) | (with_reducible apply outside_iter; intro _))

@[simp ↓] theorem State.lntLost_outside (s : State) (e k : Nat) : (State.lntLost s e k).outside = s.outside := by
  unfold State.lntLost
  repeat' (first | simp only [↓outside_fst_ite, ↓outside_mk, ↓outside_fold, ↓outside_ite, ite_self, implies_true, ↓State.lntMark_outside, ↓State.numFault_outside, ↓State.bump_outside] | split | dsimp only | (with_reducible apply outside_foldl'; intro _ _) | (with_reducible apply outside_foldl_fst; intro _ _) | (with_reducible apply outside_iter; intro _))

@[simp ↓] theorem State.scrubOne_outside (s : State) (x : ScrubSite × Ecc) : (State.scrubOne s x).outside = s.outside := by
  unfold State.scrubOne
  repeat' (first | simp only [↓outside_fst_ite, ↓outside_mk, ↓outside_fold, ↓outside_ite, ite_self, implies_true, ↓State.bump_outside, ↓State.cfgLost_outside, ↓State.cfgUe_outside, ↓State.sdLost_outside, ↓State.lntLost_outside] | split | dsimp only | (with_reducible apply outside_foldl'; intro _ _) | (with_reducible apply outside_foldl_fst; intro _ _) | (with_reducible apply outside_iter; intro _))

theorem execConfigScrub_good (found : List (ScrubSite × Ecc)) (s : State) : Good s.outside (execConfigScrub found s) := by
  unfold execConfigScrub
  repeat' (first | with_reducible exact Keeps.refl _ | with_reducible assumption | with_reducible apply good_next | simp only [↓outside_fst_ite, ↓outside_mk, ↓outside_fold, ↓outside_ite, ite_self, implies_true, ↓State.scrubOne_outside] | split | dsimp only | (with_reducible apply keeps_foldl; intro _ _ _) | (with_reducible apply keeps_iter; intro _ _) | (with_reducible apply State.whenLive_keeps; intro _ _) | intro _)

end Sys2Proof.Machine
end

