-- ==== Sys2Proof/Laws/KeepMonRows.lean ====
section
/-! SUPPORT. Machine/MonRows.lean: what its operations leave alone. -/
set_option linter.unusedSimpArgs false
namespace Sys2Proof.Machine

@[simp ↓] theorem State.clearMon_outside (s : State) (pg : Nat) : (State.clearMon s pg).outside = s.outside := by
  unfold State.clearMon
  repeat' (first | simp only [↓outside_fst_ite, ↓outside_mk, ↓outside_fold, ↓outside_ite, ite_self, implies_true, ↓State.resetRegs_outside, ↓State.setReg_outside] | split | dsimp only | (with_reducible apply outside_foldl'; intro _ _) | (with_reducible apply outside_foldl_fst; intro _ _) | (with_reducible apply outside_iter; intro _))

@[simp ↓] theorem State.writeMonCfg_outside (s : State) (pg w m : Nat) : (State.writeMonCfg s pg w m).outside = s.outside := by
  unfold State.writeMonCfg
  repeat' (first | simp only [↓outside_fst_ite, ↓outside_mk, ↓outside_fold, ↓outside_ite, ite_self, implies_true, ↓State.storeReg_outside, ↓State.setFld_outside, ↓State.clearMon_outside] | split | dsimp only | (with_reducible apply outside_foldl'; intro _ _) | (with_reducible apply outside_foldl_fst; intro _ _) | (with_reducible apply outside_iter; intro _))

theorem execMonCfgWrite_good (acc : Acc) (page : Nat) (w : W64) (s : State) : Good s.outside (execMonCfgWrite acc page w s) := by
  unfold execMonCfgWrite
  repeat' (first | with_reducible exact Keeps.refl _ | with_reducible assumption | with_reducible apply good_next | simp only [↓outside_fst_ite, ↓outside_mk, ↓outside_fold, ↓outside_ite, ite_self, implies_true, ↓State.writeMonCfg_outside] | split | dsimp only | (with_reducible apply keeps_foldl; intro _ _ _) | (with_reducible apply keeps_iter; intro _ _) | (with_reducible apply State.hdrWrite_keeps; intro _ _) | intro _)

@[simp ↓] theorem State.monSample_outside (s : State) (pg : Nat) (v0 : Int) : (State.monSample s pg v0).outside = s.outside := by
  unfold State.monSample
  repeat' (first | simp only [↓outside_fst_ite, ↓outside_mk, ↓outside_fold, ↓outside_ite, ite_self, implies_true, ↓State.setFld_outside, ↓State.bump_outside, ↓State.bumpFld_outside, ↓State.setFlag_outside] | split | dsimp only | (with_reducible apply outside_foldl'; intro _ _) | (with_reducible apply outside_foldl_fst; intro _ _) | (with_reducible apply outside_iter; intro _))

theorem execMonitorSample_good (page : Nat) (v : Int) (s : State) : Good s.outside (execMonitorSample page v s) := by
  unfold execMonitorSample
  repeat' (first | with_reducible exact Keeps.refl _ | with_reducible assumption | with_reducible apply good_next | simp only [↓outside_fst_ite, ↓outside_mk, ↓outside_fold, ↓outside_ite, ite_self, implies_true, ↓State.monSample_outside] | split | dsimp only | (with_reducible apply keeps_foldl; intro _ _ _) | (with_reducible apply keeps_iter; intro _ _) | intro _)

end Sys2Proof.Machine
end

