-- ==== Sys2Proof/Laws/KeepConnRows.lean ====
section
/-! SUPPORT. Machine/ConnRows.lean: what its operations leave alone. -/
set_option linter.unusedSimpArgs false
namespace Sys2Proof.Machine

theorem execCageOverpower_good (p : PortId) (s : State) : Good s.outside (execCageOverpower p s) := by
  unfold execCageOverpower
  repeat' (first | with_reducible exact Keeps.refl _ | with_reducible assumption | with_reducible apply good_next | simp only [↓outside_fst_ite, ↓outside_mk, ↓outside_fold, ↓outside_ite, ite_self, implies_true, ↓State.portLost_outside] | split | dsimp only | (with_reducible apply keeps_foldl; intro _ _ _) | (with_reducible apply keeps_iter; intro _ _) | intro _)

theorem execModuleInsert_good (s : State) : Good s.outside (execModuleInsert s) := by
  unfold execModuleInsert
  repeat' (first | with_reducible exact Keeps.refl _ | with_reducible assumption | with_reducible apply good_next | simp only [↓outside_fst_ite, ↓outside_mk, ↓outside_fold, ↓outside_ite, ite_self, implies_true, ↓State.coldReset_outside] | split | dsimp only | (with_reducible apply keeps_foldl; intro _ _ _) | (with_reducible apply keeps_iter; intro _ _) | intro _)

theorem execFruRead_good (off : Fin 256) (s : State) : Good s.outside (execFruRead off s) := by
  unfold execFruRead
  repeat' (first | with_reducible exact Keeps.refl _ | with_reducible assumption | with_reducible apply good_next | simp only [↓outside_fst_ite, ↓outside_mk, ↓outside_fold, ↓outside_ite, ite_self, implies_true, ↓State.emit_outside] | split | dsimp only | (with_reducible apply keeps_foldl; intro _ _ _) | (with_reducible apply keeps_iter; intro _ _) | intro _)

theorem execSmbSetOffset_good (off : BitVec 32) (pec : Bool) (s : State) : Good s.outside (execSmbSetOffset off pec s) := by
  unfold execSmbSetOffset
  repeat' (first | with_reducible exact Keeps.refl _ | with_reducible assumption | with_reducible apply good_next | simp only [↓outside_fst_ite, ↓outside_mk, ↓outside_fold, ↓outside_ite, ite_self, implies_true] | split | dsimp only | (with_reducible apply keeps_foldl; intro _ _ _) | (with_reducible apply keeps_iter; intro _ _) | intro _)

theorem execSmbRead_good (s : State) : Good s.outside (execSmbRead s) := by
  unfold execSmbRead
  repeat' (first | with_reducible exact Keeps.refl _ | with_reducible assumption | with_reducible apply good_next | simp only [↓outside_fst_ite, ↓outside_mk, ↓outside_fold, ↓outside_ite, ite_self, implies_true, ↓State.emit_outside] | split | dsimp only | (with_reducible apply keeps_foldl; intro _ _ _) | (with_reducible apply keeps_iter; intro _ _) | intro _)

theorem State.smbStore_keeps (s : State) (a w : Nat) {ro : Outside} (hk : Keeps ro s.outside) : Keeps ro (State.smbStore s a w).outside := by
  unfold State.smbStore
  repeat' (first | with_reducible assumption | with_reducible exact Keeps.refl _ | simp only [↓outside_fst_ite, ↓outside_mk, ↓outside_fold, ↓outside_ite, ite_self, implies_true, ↓State.fresh_outside, ↓State.setFlag_outside, ↓State.storeReg_outside, ↓State.irqAfterWrite_outside, ↓State.setReg_outside, ↓State.event_outside, ↓State.writeMonCfg_outside] | split | dsimp only | (with_reducible apply keeps_foldl; intro _ _ _) | (with_reducible apply keeps_iter; intro _ _) | with_reducible apply State.brReset_keeps | refine keeps_eq (State.fresh_pair (by assumption)) ?_ | intro _)

theorem execSmbWrite_good (off : BitVec 32) (w : W64) (pec : Bool) (s : State) : Good s.outside (execSmbWrite off w pec s) := by
  unfold execSmbWrite
  repeat' (first | with_reducible exact Keeps.refl _ | with_reducible assumption | with_reducible apply good_next | simp only [↓outside_fst_ite, ↓outside_mk, ↓outside_fold, ↓outside_ite, ite_self, implies_true] | split | dsimp only | (with_reducible apply keeps_foldl; intro _ _ _) | (with_reducible apply keeps_iter; intro _ _) | with_reducible apply State.smbStore_keeps | intro _)

theorem execJtagInstruction_good (i : JtagOp) (s : State) : Good s.outside (execJtagInstruction i s) := by
  unfold execJtagInstruction
  repeat' (first | with_reducible exact Keeps.refl _ | with_reducible assumption | with_reducible apply good_next | simp only [↓outside_fst_ite, ↓outside_mk, ↓outside_fold, ↓outside_ite, ite_self, implies_true] | split | dsimp only | (with_reducible apply keeps_foldl; intro _ _ _) | (with_reducible apply keeps_iter; intro _ _) | intro _)

end Sys2Proof.Machine
end

