-- ==== Sys2Proof/Laws/YardCore.lean ====
section
/-! SUPPORT. How a Yard core's instruction runs: what the running context does with its word, said once for every instruction. -/
namespace Sys2Proof.Machine

/-- The running context does what its instruction's function says. -/
theorem State.AtInstr.run {s : State} {y : Yard} {r : YcReads} {j : Nat} {c : YcCtx} {w code : Nat} (h : s.AtInstr y r j c w code) (f : YcFn) :
    (s.whenLive fun s => s.ycRun y.val r code f) = (f s y.val j c w r.data).settle y.val j c w := by
  obtain ⟨h1, hs, h2, h3, h4, h5, h6, h7, h8, h9⟩ := h
  unfold State.whenLive
  rw [if_pos h1]
  show s.ycRun y.val r code f = _
  unfold State.ycRun
  rw [h2]
  dsimp only
  rw [h3]
  dsimp only
  rw [if_neg (by simp [h4, hs]), if_neg (by simp [h5]), if_neg (by simp [h6]), h7]
  simp only [State.eccRead, h8, h9, if_true]

/-- A running context that completes retires. -/
theorem State.retire_running (s : State) (y : Yard) (j : Nat) (c : YcCtx) (h : c.st = .running) : s.retire y.val j c = s.retiring y j c := by
  unfold State.retire State.retiring
  simp [h]

theorem settle_done (s : State) (y : Yard) (j w : Nat) (c0 c : YcCtx) (h : c.st = .running) :
    (YcRes.done c s).settle y.val j c0 w = s.retiring y j c := s.retire_running y j c h

theorem settle_wait (s : State) (y : Yard) (j w : Nat) (c0 c : YcCtx) : (YcRes.wait c s).settle y.val j c0 w = s.blockedAt y j c w := rfl

@[simp] theorem YcCtx.put_st (c : YcCtx) (i v : Nat) : (c.put i v).st = c.st := by
  unfold YcCtx.put; split <;> rfl

@[simp] theorem YcCtx.put_pc (c : YcCtx) (i v : Nat) : (c.put i v).pc = c.pc := by
  unfold YcCtx.put; split <;> rfl

@[simp] theorem YcCtx.put_instret (c : YcCtx) (i v : Nat) : (c.put i v).instret = c.instret := by
  unfold YcCtx.put; split <;> rfl

@[simp] theorem YcCtx.next_st (c : YcCtx) : c.next.st = c.st := rfl

@[simp] theorem YcCtx.branch_st (c : YcCtx) (d : Int) : (c.branch d).st = c.st := rfl

theorem YcCtx.get_lt (c : YcCtx) (i : Nat) : c.get i < 2 ^ 64 := by
  unfold YcCtx.get
  split
  · decide
  · exact BitVec.isLt _

theorem YcCtx.get_put_self (c : YcCtx) (i v : Nat) (h : i ≠ 0) : (c.put i v).get i = v % 2 ^ 64 := by
  unfold YcCtx.get YcCtx.put
  simp only [h, if_false]
  rw [Tab.get_set_self, toNat_toW, Nat.mod_mod]

theorem YcCtx.get_put_ne (c : YcCtx) (i v k : Nat) (h : k ≠ i) : (c.put i v).get k = c.get k := by
  unfold YcCtx.get YcCtx.put
  split
  · rfl
  · split
    · rfl
    · simp only
      rw [Tab.get_set_ne _ _ _ _ h]

/-- g0 reads 0 whatever was written. -/
@[simp] theorem YcCtx.get_zero (c : YcCtx) : c.get 0 = 0 := rfl

/-- A write takes a value modulo 2^64. -/
theorem YcCtx.put_mod (c : YcCtx) (i v : Nat) : c.put i (v % 2 ^ 64) = c.put i v := by
  unfold YcCtx.put
  rw [Nat.mod_mod]

end Sys2Proof.Machine
end

