-- ==== Sys2Proof/WellFormed.lean ====
section
/-! DEFINITION. Which commands are well formed: what a host, a bus master or the physics of the module can send at all. A command that is
not well formed still has a meaning; the machine gives every command an effect. -/
namespace Sys2Proof

/-- An access of 1 to 8 bytes within one register's 8 bytes (R384 takes those of 4 and 8, naturally aligned). -/
def Acc.wf (a : Acc) : Bool := decide (0 < a.size ∧ a.size ≤ 8 ∧ a.sub + a.size ≤ 8)

/-- A frame carries at most 4,096 payload bytes (Table 13.2). -/
def Frame.wf (f : Frame) : Bool := decide (f.payload.length ≤ 4096)

/-- A list that names nothing twice. -/
def onceEach (xs : List Nat) : Bool := decide xs.Nodup

/-- A register address: 8-byte aligned, in BAR0 (32 MB) or, above it, BAR4 (128 KB). -/
def addrWf (a : Nat) : Bool := decide (a < 0x202_0000 ∧ a % 8 = 0)

/-- The number of a 4 KB page of BAR0. -/
def pageWf (n : Nat) : Bool := decide (n < 0x2000)

/-- A time step fits GLB_TIME. -/
def timeWf (dt : Nat) : Bool := decide (dt < 2 ^ 64)

/-- Whether a command is well formed. -/
def wellFormed (i : Instr) : Bool :=
  match i with
  | .powerOn => true
  | .housekeepingDone dt _ => timeWf dt
  | .bootDone dt _ _ => timeWf dt
  | .selftestDone dt r => timeWf dt && onceEach (r.yards.map (·.1.val))
  | .hbmTrainDone dt bad => timeWf dt && onceEach (bad.map (·.h.val))
  | .linksDone dt => timeWf dt
  | .ready dt => timeWf dt
  | .cold acc _ => acc.wf
  | .warm acc _ => acc.wf
  | .partRst acc _ ms => acc.wf && decide (ms < 2 ^ 32)
  | .yardRst acc _ ms => acc.wf && decide (ms < 2 ^ 32)
  | .refclkLost _ => true
  | .ydSenseUpdate dt xs => timeWf dt && onceEach (xs.map (·.y.val))
  | .tokenRoute _ _ _ _ => true
  | .crossingPass _ _ _ _ => true
  | .halyardCopyReceive _ _ _ _ => true
  | .railRetry acc _ _ => acc.wf
  | .unitTokenArrive _ _ _ _ => true
  | .firingDecision _ _ => true
  | .firingEnd _ _ => true
  | .steeringPass _ _ => true
  | .countTick _ _ => true
  | .stallSample dt _ => timeWf dt
  | .fabricReset _ => true
  | .abandon acc _ _ => acc.wf
  | .reefOpen _ _ => true
  | .reefData _ _ => true
  | .reefClose _ _ => true
  | .sectionStart _ _ => true
  | .sectionEnd _ _ => true
  | .slotDone _ => true
  | .trackerPortToken _ _ => true
  | .sectionIssue _ => true
  | .trackerReleaseWaiting _ => true
  | .stepSeqRelease _ _ => true
  | .budgetSample dt _ => timeWf dt
  | .rigLoad acc _ _ => acc.wf
  | .loadCommit _ => true
  | .unload acc _ _ => acc.wf
  | .muPendingWaitEnd _ _ => true
  | .suDelayEmit _ _ => true
  | .hbmGrant _ => true
  | .hbmReadComplete _ _ _ => true
  | .scAccess _ => true
  | .scFillComplete _ => true
  | .hbmTempSample dt _ _ => timeWf dt
  | .patrolScrub _ _ _ => true
  | .repair acc _ _ => acc.wf
  | .rowRepairRun dt _ => timeWf dt
  | .mapOutRequest acc _ _ => acc.wf
  | .mapOutQuiesced dt _ => timeWf dt
  | .mapOutShardsDone dt _ => timeWf dt
  | .mapOutRestripeDone dt _ => timeWf dt
  | .sdEntryWrite acc _ _ _ => acc.wf
  | .flip acc _ => acc.wf
  | .sdFlip => true
  | .stowBaseWrite acc _ _ => acc.wf
  | .ycInboundToken _ _ _ => true
  | .ycWake dt _ _ => timeWf dt
  | .ycAdd _ _ => true
  | .ycSub _ _ => true
  | .ycAnd _ _ => true
  | .ycOr _ _ => true
  | .ycXor _ _ => true
  | .ycSll _ _ => true
  | .ycSrl _ _ => true
  | .ycSra _ _ => true
  | .ycSlt _ _ => true
  | .ycSltu _ _ => true
  | .ycMul _ _ => true
  | .ycMulhu _ _ => true
  | .ycMulh _ _ => true
  | .ycDivu _ _ => true
  | .ycRemu _ _ => true
  | .ycDiv _ _ => true
  | .ycRem _ _ => true
  | .ycAddi _ _ => true
  | .ycAndi _ _ => true
  | .ycOri _ _ => true
  | .ycXori _ _ => true
  | .ycSlli _ _ => true
  | .ycSrli _ _ => true
  | .ycSrai _ _ => true
  | .ycLsh16 _ _ => true
  | .ycFadd _ _ => true
  | .ycFsub _ _ => true
  | .ycFmul _ _ => true
  | .ycFdiv _ _ => true
  | .ycFmin _ _ => true
  | .ycFmax _ _ => true
  | .ycFsqrt _ _ => true
  | .ycFlt _ _ => true
  | .ycFle _ _ => true
  | .ycFeq _ _ => true
  | .ycFcvtL _ _ => true
  | .ycFcvtF _ _ => true
  | .ycLd _ _ => true
  | .ycLw _ _ => true
  | .ycLws _ _ => true
  | .ycLb _ _ => true
  | .ycSd _ _ => true
  | .ycSw _ _ => true
  | .ycSb _ _ => true
  | .ycBeq _ _ => true
  | .ycBne _ _ => true
  | .ycBlt _ _ => true
  | .ycBge _ _ => true
  | .ycBltu _ _ => true
  | .ycBgeu _ _ => true
  | .ycJal _ _ => true
  | .ycJalr _ _ => true
  | .ycCsrr _ _ => true
  | .ycCsrw _ _ => true
  | .ycCsrset _ _ => true
  | .ycCsrclr _ _ => true
  | .ycSend _ _ => true
  | .ycRecv _ _ => true
  | .ycGetsum _ _ => true
  | .ycWait _ _ => true
  | .ycReefsend _ _ => true
  | .ycIssue _ _ => true
  | .ycXferToLocal _ _ => true
  | .ycXferToHbm _ _ => true
  | .xferComplete _ _ _ => true
  | .ycFence _ _ => true
  | .ycTake _ _ => true
  | .ycCommit _ _ => true
  | .ycHalt _ _ => true
  | .ycTret _ _ => true
  | .workCounterServe => true
  | .leaseTimeout dt => timeWf dt
  | .wcDataWrite acc _ _ => acc.wf
  | .reefStreamerSend _ => true
  | .stop acc _ _ => acc.wf
  | .start acc _ _ => acc.wf
  | .schedDecide _ => true
  | .schedQuantum dt _ => timeWf dt
  | .stepVeto _ => true
  | .gateNoResult dt _ _ => timeWf dt
  | .resync acc _ _ _ => acc.wf
  | .stepPlanWrite acc _ _ _ _ => acc.wf
  | .phaseDrained _ _ => true
  | .phaseSwitchDeadline dt _ _ => timeWf dt
  | .retry acc _ _ _ => acc.wf
  | .force acc _ _ _ => acc.wf
  | .phaseCfgWrite acc _ _ _ => acc.wf
  | .wverWrite acc _ _ _ => acc.wf
  | .lntWrite acc _ _ _ => acc.wf
  | .lscaleWrite acc _ _ _ => acc.wf
  | .numRoll acc _ _ _ => acc.wf
  | .spikeReset acc _ _ _ => acc.wf
  | .portTrainDone dt _ _ => timeWf dt
  | .portRetryTimer dt _ => timeWf dt
  | .identRetry dt _ => timeWf dt
  | .ident _ x => decide (x.credits ≤ 255)
  | .laneBad _ _ _ _ => true
  | .portLoss _ _ => true
  | .token _ f => f.wf
  | .mark _ f => f.wf
  | .coll _ f => f.wf
  | .link _ f => f.wf
  | .phase _ f => f.wf
  | .phaseConf _ f => f.wf
  | .replayTimeout dt _ => timeWf dt
  | .pfcPause _ _ _ => true
  | .bridgeTokenOut _ _ _ => true
  | .bridgeFlushTimer dt _ _ => timeWf dt
  | .groupTableWrite acc _ _ _ => acc.wf
  | .glbDevWrite acc _ => acc.wf
  | .stCfgWrite acc _ _ => acc.wf
  | .collDescStart _ => true
  | .collChunkReady _ _ _ => true
  | .collDescComplete _ _ => true
  | .collDeadline dt _ _ => timeWf dt
  | .agreeUp _ f => f.wf
  | .agreeDown _ f => f.wf
  | .agreeDeadline dt _ _ => timeWf dt
  | .normUp _ f => f.wf
  | .normDown _ f => f.wf
  | .abort _ f => f.wf
  | .permuteRequest acc _ => acc.wf
  | .permuteWaitDone => true
  | .permuteMoveDone => true
  | .permuteNoResult dt => timeWf dt
  | .ptCfgWrite acc _ _ _ => acc.wf
  | .ptSaveWrite acc _ _ => acc.wf
  | .jobCfgWrite acc _ _ _ => acc.wf
  | .regulatorRefill dt _ => timeWf dt
  | .yield_ acc _ _ => acc.wf
  | .yieldDrained _ _ => true
  | .resume acc _ _ => acc.wf
  | .preemptWait dt _ _ => timeWf dt
  | .ringTailWrite acc _ _ => acc.wf
  | .ringCfgWrite acc _ _ => acc.wf
  | .ringFetch _ => true
  | .nop _ => true
  | .ringStart _ => true
  | .ringLoad _ => true
  | .ringUnload _ => true
  | .ringWait _ => true
  | .signal _ => true
  | .go acc _ _ => acc.wf
  | .skip acc _ _ => acc.wf
  | .hostPortReset _ _ => true
  | .bar2Read _ _ len => decide (0 < len ∧ len ≤ 4096)
  | .bar2Write _ _ bytes => decide (0 < bytes.length ∧ bytes.length ≤ 512)
  | .registerWrite acc addr _ => acc.wf && addrWf addr
  | .pgOwnerWrite acc page _ => acc.wf && pageWf page
  | .evtPendClear acc page _ => acc.wf && pageWf page
  | .evtEnableWrite acc page _ => acc.wf && pageWf page
  | .evtSet acc page _ => acc.wf && pageWf page
  | .pgCtrlWrite acc page _ => acc.wf && pageWf page
  | .clr acc page _ => acc.wf && pageWf page
  | .counterSatClear acc addr _ => acc.wf && addrWf addr
  | .semAcquire acc _ => acc.wf
  | .semRelease acc _ _ => acc.wf
  | .semaphoreTimeout dt => timeWf dt
  | .inputLow _ => true
  | .inputUndervolt _ => true
  | .inputOvervolt _ => true
  | .inputRecovered _ => true
  | .busCollapse _ => true
  | .capLoop dt x => timeWf dt && onceEach (x.ungated.map (·.1.val))
  | .currentLimit _ _ => true
  | .junctionHot _ _ => true
  | .heartbeat dt _ _ => timeWf dt
  | .mastheadTakeover dt => timeWf dt
  | .mastheadBothLost dt => timeWf dt
  | .maintRequest _ _ => true
  | .laneRetrain acc _ => acc.wf
  | .yardRetire acc _ => acc.wf
  | .firmwareUpdate acc _ => acc.wf
  | .maintOpEnd dt _ _ _ => timeWf dt
  | .maCtrlWrite acc _ => acc.wf
  | .retireTestDone dt _ _ => timeWf dt
  | .hitsWindowClear dt => timeWf dt
  | .configScrub _ => true
  | .monitorSample page _ => pageWf page
  | .monCfgWrite acc page _ => acc.wf && pageWf page
  | .tsyncEdge dt => timeWf dt
  | .tsyncTimeout dt => timeWf dt
  | .tsyncPulse dt => timeWf dt
  | .arm acc _ => acc.wf
  | .cageOverpower _ => true
  | .moduleInsert => true
  | .fruRead _ => true
  | .smbSetOffset _ _ => true
  | .smbRead => true
  | .smbWrite _ _ _ => true
  | .jtagInstruction _ => true
  | .refclkRecovered _ => true
  | .phyRelockDone _ => true
  | .hostLinkUp _ speed width _ _ _ => decide (0 < speed.val) && [1, 2, 4, 8, 16].contains width.val
  | .standbyReady _ => true
  | .shroudClaimRetry dt => timeWf dt
  | .acknowledgeTimer _ _ => true
  | .resizableBarWrite _ log2 => decide (30 ≤ log2 ∧ log2 ≤ 36)

end Sys2Proof
end

