-- ==== Sys2Proof/Tests/Slice0.lean ====
section
/-! SUPPORT. Tests: an ill-formed command for each check of `wellFormed`, the spec's worked examples, and for every obligation with hypotheses
a theorem that shows, clause by clause, a state and operands that meet the clause's hypotheses together. -/
namespace Sys2Proof.Tests
open Sys2Proof Sys2Proof.Machine

set_option maxRecDepth 40000

/-! ### Small states -/

/-- A READY device at GLB_TIME 5 ms: logical Yards 0 and 1 on physical Yards 0 and 1, both in partition 0 with jobs 0 and 1, and stack H0 trained. -/
def dev : State :=
  { regs := [(0x108, 5000000#64), (0x400, 0x8000_0000#64), (0x408, 0x8000_0001#64), (0x608, 0x100_0000#64), (0x3100, 0x8E00_0000_0000_0000#64),
      (0x2_0100, 0x8000_0000_0040_0000#64), (0x2_0108, 3#64), (0x2_0200, 0x8000_0000_0000_03E8#64), (0x2_0210, 0x8000_0000_0000_03E8#64),
      (0x20_1100, 0x8000_0000_0000_0000#64)]
    timeOn := true, pwrOk := true, stageNs := 5000000 }

/-- Port A writes 8 bytes. -/
def accA : Acc := { port := .a, size := 8, sub := 0 }
/-- Port B writes 8 bytes. -/
def accB : Acc := { port := .b, size := 8, sub := 0 }
/-- A masked write that sets bit `i`. -/
def setW (i : Nat) : W64 := BitVec.ofNat 64 (2 ^ i + 2 ^ (32 + i))

def y0 : Yard := 0
def y1 : Yard := 1
def u0 : UnitId := 0
def st0 : UnitId := 22

/-- A DATA token of job 1, tag 3, channel 5, the last of its burst. -/
def tokD : Token := dataTok 1 3 5 true 7
/-- A CTRL token of the same. -/
def tokC : Token := ctrlTok 1 3 5 1 0

/-- An image of job 1 in partition 0: its section 2, and two routes of Yard 0: channel 5 of the vector network from the west edge to MU0 and,
from the north edge, out by the east edge. -/
def img : Image :=
  { part := 0, rig := 4, job := 1, maxExt := [], secs := [⟨2, 0, 0xFF, 0⟩], cfgs := [], codes := [], streams := [], colls := [], res := [], joins := [], cross := []
    routes := [⟨0, 0, 0, 3, 5, [8], 2⟩, ⟨0, 0, 0, 0, 5, [1], 2⟩] }

/-- A record of MU0 of Yard 0, an ENTRY of section 2: position 0 takes channel 5 of the vector network. -/
def recA : CfgRec := { yard := 0, unit := 0, slot := 0, next := 0, section_ := 2, flags := 1, quota := 0, bodyLen := 80, body := 0x8005 }
/-- A unit whose slot 0 runs a record for job 1. -/
def unitA (r : CfgRec) : UnitState := { slots := [(0, { job := 1, record := some r, live := true })], active := some 0 }
/-- The device with a unit of Yard 0 so. -/
def withU (u : Nat) (x : UnitState) : State := dev.setUnit 0 u x
/-- A firing of job 1, tag 3 with its burst. -/
def fData : Firing := { job := 1, tag := 3, uses := [0], got := [(0, [tokD])], formed := false }
def secC : Section := { uid := 1, part := 0, job := 1, rig := 4, num := 2, n := 1, tagBase := 0, ext := [], lead := 0, start := 0, budgetUs := 0, need := 2, got := 0, latched := [], version := 0, src := .core 0, pinLoad := false }
def withSec (c : Section) : State := { dev with sections := [c] }
def recR : StartRec := ⟨1, 4, 2, 7, [], .core 0⟩
def p0 : Part := 0
def devI : State := { dev with images := [img] }
def p3 : Part := 3
def h0 : Stack := 0
def c0 : Chan := 0

/-- A Yard core instruction of format R, and one of format I or B (Table 7.2). -/
def ycR (op fn gd g1 g2 : Nat) : Nat := op + 64 * gd + 2048 * g1 + 65536 * g2 + 2 ^ 21 * fn
def ycI (op gd g1 imm : Nat) : Nat := op + 64 * gd + 2048 * g1 + 65536 * imm
/-- A context of job 1 at 0x8000. -/
def ctxOf (a b : W64) : YcCtx := { st := .running, pc := 0x8000, g := [(1, a), (2, b)] }
def ctxA : YcCtx := ctxOf 0xFFFF_FFFF_FFFF_FFF0#64 7#64
/-- Yard 0's core running that context, with `w` at 0x8000, and job 1's image owning 0x8000 to 0x8FFF of its local memory. -/
def ycD (c : YcCtx) (w : Nat) : State :=
  ({ dev with images := [{ img with res := [⟨0, 0x8000, 0x1000, 0, 0, 0, 0⟩] }], cores := [(0, { cur := some 1, ctxs := [(1, c)] })] } : State).setLocal 0
    ((Mem.writeNat {} 0x8000 4 w).writeNat 0x8100 8 0x8877_6655_4433_2211)
def rdOk : YcReads := ⟨.ok, .ok⟩

def devQ (p : Nat) (t : Token) : State := ({ dev with images := [img] } : State).setInQueue 0 p 2 [t]
def fullE : State := (devQ 0 tokD).setInQueue 1 3 2 (List.replicate 16 tokD)
/-- The same with a route of the halyard from the north edge out by the east edge, and a CTRL token on it. -/
def devH (l : HalLink) : State := (({ dev with images := [{ img with routes := [⟨0, 0, 2, 0, 5, [1], 0⟩] }] } : State).setInQueue 0 0 9 [tokC]).setLink 1 3 l
def wireFull : List (BitVec 96) := List.replicate 16 (toCopy tokC)
def rtE : Route := ⟨0, 0, 0, 0, 5, [1], 2⟩
def rtU : Route := ⟨0, 0, 0, 3, 5, [8], 2⟩
def rtH : Route := ⟨0, 0, 2, 0, 5, [1], 0⟩
def devX (q : List Token) : State := ({ dev with crossTok := [((4 * 2 + 3) * 16 + 2, tokD)] } : State).setInQueue 1 1 2 q
def cp : BitVec 96 := toCopy tokC
def cpBad : BitVec 96 := cp ^^^ 1#96
def devL (l : HalLink) : State := dev.setLink 0 3 l
def outL (n : Nat) : State := (devL { wireA := [cp] }).setReg (pgSwitch 0 + 0x100) n
def recB : CfgRec := { recA with body := 0x8006_8005 }
def recM : CfgRec := { recA with body := 0x8005 + 2 ^ 192 + 2 ^ 224 + 2 ^ 256 + 2 ^ 384 }
/-- A DELAY's record: it stores at HBM address 0x4000. -/
def recD : CfgRec := { recA with unit := 20, body := 0x8005 + 0x20 * 2 ^ 128 + 0x4000 * 2 ^ 192 }
def tokN : Token := dataTok 1 3 5 false 7
def tok6 : Token := dataTok 1 4 6 true 7
def fMark : Firing := { job := 1, tag := 3, uses := [0], got := [(0, [markTok 1 3 5])], formed := false }
def fNew : Firing := { fData with got := [(0, [tokN])] }
def uNew : State := withU 0 ((unitA recA).setQueue 0 [tokN])
def uTwo : State := withU 0 (((unitA recB).setQueue 0 [tokD]).setQueue 1 [tok6])
def uFiring (r : CfgRec) (f : Firing) : State := withU 0 { unitA r with firing := some f, pendingTiles := [0] }
def uFree : State := withU 0 { unitA recM with firing := some fData }
def fDone : Firing := { fData with formed := true }
def itemD (sent : Bool) : RingItem := ⟨0, 1, 3, [(1, true)], sent⟩
def uDelay (sent : Bool) : State := withU 20 { unitA recD with ring := [itemD sent] }
def ecOk : Ecc := .ok
def recS (k : Nat) : CfgRec := { recA with unit := 22, body := 0x8005 + k * 2 ^ 128 + 4 * 2 ^ 160 }
/-- A record with an output: its kind, and channel 9 of the scalar network at OUT0. -/
def recO (k : Nat) : CfgRec := { recS k with body := (recS k).body + (0x8000 + 0x2000 + 9) * 2 ^ 64 }
/-- A unit that has matched its SELECT, with queue `q` at position 0. -/
def uSteer (r : CfgRec) (sel : Nat) (q : List Token) : State :=
  withU 22 ({ unitA r with firing := some { fData with got := [] }, heldSelect := some (ctrlTok 1 3 5 1 sel) }.setQueue 0 q)
def fSel : Firing := { fData with got := [] }
def selC (v : Nat) : Token := ctrlTok 1 3 5 1 v
def xGone (r : CfgRec) (sel : Nat) : UnitState := { unitA r with firing := some fSel, heldSelect := some (selC sel) }
def fullO (s : State) : State := s.setInQueue 0 30 8 (List.replicate 16 tokD)
def uCount : State := withU 22 (unitA (recO 3))
def cntE (k : Nat) : TagEntry := { count := true, slot := 0, pos := 0, tok := tokD, k := k, limit := 4 }
def xTick (es : List TagEntry) : UnitState := { unitA (recO 3) with tags := es }
def uTick (es : List TagEntry) : State := withU 22 ((xTick es).setQueue 0 [tokD])
def ctl (opc operand : Nat) : State := dev.setOffer 0 8 9 (ctrlTok 1 3 0xFF opc operand)
def ctlU (x : UnitState) (opc operand : Nat) : State := (withU 0 x).setOffer 0 8 9 (ctrlTok 1 3 0xFF opc operand)
def slotFree : UnitState := { slots := [(1, { job := 1, reserved := true })] }
def reefIn (left : Nat) (bs : List Byte) (bad : Bool) : UnitState := { slotFree with reef := some { slot := 1, job := 1, left := left, bytes := bs, discard := bad } }
def recBytes : List Byte := [0, 0, 1, 0xFF, 2, 0, 1, 0, 0, 0, 0, 0, 2, 0, 0, 0, 5, 0x80]
def closeD (w : Nat) : State := ctlU (reefIn 0 recBytes false) 0x12 w
def secU (act : Option Nat) : UnitState := { slots := [(0, { job := 1, record := some recA }), (2, { job := 0, record := some recA, live := true })], active := act }
def recLast : CfgRec := { recA with next := 0xFF }
def liveU : UnitState := { secU none with slots := [(0, { job := 1, record := some recLast, live := true, sec := secKey 1 2 })] }
def endT : Token := ctrlTok 1 3 0xFF 0x14 0x2_0000_0000
def tokDone : Token := ctrlTok 1 3 0xFF 0x15 0x2_0000_0000
def tokVeto : Token := ctrlTok 1 3 0xFF 0x20 9
def trk (s : State) (t : Token) : State := s.setOffer 0 5 9 t
def issue (s : State) : State := { s with issueQ := [(0, [recR])] }
def busyI : State := { devI with sections := [secC, { secC with uid := 2, num := 5 }] }
def waitI : State := { (devI.setReg (jobCfg 0 0) 0) with waiting := [(0, [recR])] }
def j1 : JobId := 1
def imgX : Image := { img with colls := [⟨0, 0, 0, 80, 2 * 2 ^ 32⟩] }
def waitX : State := { waitI with images := [imgX] }
def heldI (seq : Nat) (skip : Nat) : State := { (((devI.setReg (stepReg 0 1 0) (2 ^ 63 + 4 * 2 ^ 52 + 3 * 2 ^ 32 + 2 * 2 ^ 16 + 1)).setSeq 0 1 seq).setFld (stepReg 0 1 0x10) 60 60 skip) with stepHeld := [(1, [recR])] }
def stalled : State := (dev.setInQueue 0 0 2 [tokD])
/-- The bytes of a rig image: one section, no crossings, one BRANCH unit of Yard 0 (Tables 4.5 to 4.12). -/
def imgBytes : List Byte :=
  let z := fun (n : Nat) => List.replicate n (0 : Byte)
  let part := fun (t c o l crc : Nat) => leBytes 2 t ++ z 2 ++ leBytes 4 c ++ leBytes 4 o ++ leBytes 4 l ++ leBytes 4 crc ++ z 4
  leBytes 4 0x47525A4B ++ leBytes 4 0x1_0000 ++ leBytes 4 1961837483 ++ leBytes 4 200 ++ leBytes 4 368 ++ leBytes 2 3 ++ leBytes 2 1 ++ z 104 ++
    part 1 1 208 32 1044216476 ++ part 2 1 240 80 2100637646 ++ part 4 1 320 48 983378023 ++ z 8 ++
    ([2, 0, 0, 0xFF] ++ z 28) ++ ([0] ++ List.replicate 63 (0xFF : Byte) ++ z 16) ++
    ([0, 22, 3, 0xFF, 2, 0, 3, 0, 1, 0, 0, 0, 24, 0, 0, 0, 5, 0x80, 6, 0xC0, 0, 0, 0, 0, 7, 0x80, 8, 0x80] ++ z 20)
/-- What those bytes hold. -/
def img2 : Image :=
  { part := 0, rig := 255, job := 1, maxExt := List.replicate 16 0, secs := [⟨2, 0, 255, 0⟩], routes := [], codes := [], streams := [], colls := [], res := [],
    joins := [], cross := []
    cfgs := [{ yard := 0, unit := 22, slot := 3, next := 255, section_ := 2, flags := 3, quota := 1, bodyLen := 24, body := 39624357255726101663945490437 }] }
def devB : State := { dev with hbm := dev.hbm.write 0 imgBytes }
def usedI : State := { devI with sections := [secC] }
def rigW (act job rig : Nat) : W64 := BitVec.ofNat 64 (2 ^ act + 256 * job + 4096 * rig + 2 ^ 32 * (0xFF00 + 2 ^ act))
def rigW2 : W64 := BitVec.ofNat 64 (3 + 256 + 2 ^ 32 * 0xFF03)
def busyD : State := dev.setReg (pgPart 0 + 0x1D0) (2 ^ 63)
def ld (p j : Nat) : PendingLoad := ⟨p, j, 0, img2, 0, none, 0⟩
def loading (p j : Nat) : State := { dev with loads := [ld p j] }
def loadGone (s : State) : State := ({ s with loads := [] } : State).dropAsk (askKey (.load 0))
def rq : MemReq := { y := 0, u := 20, part := 0, cls := 0, line := 0, len := 4096, write := false, cache := true, epoch := 0 }
def rqW : MemReq := { rq with write := true, epoch := 7 }
def chanD (x : ChanState) : State := dev.setChan 0 x
def hot : State := dev.setReg (pgTherm 0 + 0x108) 3
def rqN : MemReq := { rq with cache := false }
def svc : State := (chanD { service := [rqN] }).setUnit 0 20 { memWait := 2 }
def fenceD : State := (dev.setReg (fenceReg 0 0 0) (2 ^ 63)).setReg (fenceReg 0 0 1) 8
def sliceD (x : SliceState) : State := dev.setSlice 0 x
def line0 : CacheLine := ⟨0, lineSet 0, 3, 0⟩
def rqOld : MemReq := { rq with epoch := 7 }
def rB (c ln : Nat) : MemReq := { y := 64, u := 0, part := 8, cls := c, line := ln, len := 64, write := false, cache := false, epoch := 7 }
def rF : MemReq := { rB 1 2 with y := 0, u := 20, hi := 1024 }
def fencedS : State := (List.range 4).foldl (fun s i => (s.setReg (fenceReg 0 i 0) (2 ^ 63)).setReg (fenceReg 0 i 1) (i + 8)) (sliceD { acc := [rF] })
def fillD (ways : Nat) : State := (sliceD { fills := [⟨rqOld, [], true⟩] }).setFld (pgPart 0 + 0x100) 47 32 ways
def moDev (ph : Nat) : State := { dev.setReg (pgHc 0 + 0x310) (2 ^ 63 + ph * 2 ^ 60) with maintRun := [{ cls := 1, target := 0, src := 1, phase := 1 }] }
def moBusy : State := { moDev 1 with sections := [secC] }
def noPrim : State := { dev with latch := none }
def b5 : Fin 131072 := 5
/-- Shard Directory entry 5 of job 1, VALID, its active word word 1 (ACT 0), or word 2 (ACT 1). -/
def sdD (act : Nat) : State := dev.setReg (sdAddr 5) (2 ^ 63 + act * 2 ^ 61 + 1 * 2 ^ 56)
def sdBusy (act : Nat) : State := { sdD act with sections := [secC] }
def flipD : State := (((dev.setReg (sdAddr 5) (2 ^ 63 + 2 ^ 60 + 1 * 2 ^ 56)).setReg (sdAddr 6) (2 ^ 63 + 1 * 2 ^ 56)).setReg (pgGlobal + 0x928) (2 ^ 63 + 1 * 2 ^ 56))
def flipBusy : State := { flipD with sections := [secC] }
def stowD : State := { dev with images := [{ img with res := [⟨0, 0, 0, 0, 0, 4096, 0⟩] }] }
def h1 : Stack := 1
def heat (old : Nat) : State := dev.setReg (pgTherm 0 + 0x108) old
def repM (ph : Nat) : MaintOp := { cls := 2, target := 0, src := 1, phase := ph }
def repD (s : State) (ph : Nat) : State := { s with maintRun := [repM ph] }
def repBusy : State := { repD dev 1 with sections := [secC] }
def ctxF : YcCtx := ctxOf 0x4049_0FDB_3FC0_0000#64 0xC000_0000_3E80_0000#64
def ctxM : YcCtx := ctxOf 0x8000#64 0xFEDC_BA98_7654_3210#64
def ctxV : YcCtx := ctxOf 0x0050_0030#64 0x1_0000_0000_0003#64
def inQ (s : State) (q : List InTok) : State := s.setInbound 0 1 q
def sTok (pay : Nat) (last : Bool) : InTok := ⟨0, dataTok 1 3 5 last pay, false⟩
def other : InTok := ⟨0, dataTok 1 3 9 true 1, false⟩
def wRecv : Nat := ycR 0x29 0 3 1 0
/-- gs1 = 5: network 0, channel 5. -/
def ctx5 : YcCtx := ctxOf 5 (BitVec.ofNat 64 (0x20 * 2 ^ 48 + 9))
def ctxLate : YcCtx := ctxOf 0x1000_0000#64 (BitVec.ofNat 64 (0x20 * 2 ^ 48 + 9))
def wSum : Nat := ycR 0x2A 0 4 1 0
def sumT (pay : Nat) (last : Bool) : Token := dataTok 1 3 5 last pay
def ctxR : YcCtx := ctxOf 0x8100#64 0x100#64
/-- A record at 0x8100 for MU0 of Yard 0 with a body of 16 bytes. -/
def reefD (s : State) : State := s.setLocal 0 (((s.local_ 0).writeNat 0x8100 8 0x2_FF01_0000).writeNat 0x8108 8 0x10_0000_0000)
def ctxX : YcCtx := { ctxR with g := [(1, 0x8100#64), (2, 0x100#64), (3, 64#64)] }
/-- Work counter 5 belongs to job 1 of partition 0. -/
def wcOn (s : State) : State := { s with wc := [(4 * 5 + 1, BitVec.ofNat 64 (2 ^ 63 + 2 ^ 55))] }
def ctxC : YcCtx := ctxOf 5 5
def ctxT : YcCtx := { ctxC with status := 1, trapPc := 0x8010 }
def strD (q : StreamRec) : State := dev.setCore 0 { streamer := [q] }
def xf : Xfer := { loc := 0x8100, hbm := 0x200, left := 16, toHbm := true, id := 0 }
def xfIn : Xfer := { xf with toHbm := false }
def ctxIn : YcCtx := { ctxOf 1 2 with xfers := [xfIn] }
def ctxXf : YcCtx := { ctxOf 1 2 with xfers := [xf] }
def asked (s : State) : State := { s with askers := [(askKey (.xfer 0), (0, 0))] }
def ctxAsk : YcCtx := { ctxOf 1 2 with st := .blocked, asked := true }
def req5 : WcReq := ⟨0, 1, false, 5, 0, 3, 0x8000⟩
def wcD : State := { ycD ctxAsk 2 with wcQ := [req5], wc := [(20, BitVec.ofNat 64 (10 * 2 ^ 32 + 4)), (21, BitVec.ofNat 64 (2 ^ 63 + 2 ^ 55 + 50))] }
def leaseD : State := { wcD with leases := [(0, ⟨5, 3, 0, .held, 100, 0⟩), (1, ⟨5, 4, 0, .held, 4999990, 0⟩)] }
def wcSel : State := { leaseD.setReg (pgCore 0 + 0x200) 5 with wcQ := [] }
def ctxW : YcCtx := { ctxOf 1 2 with st := .blocked, word := ycR 0x2B 0 3 1 0 }
def idleCtx (st : CtxSt) : YcCtx := { ctxOf 1 2 with st := st }
def schD (st : CtxSt) : State := { ycD (idleCtx st) 2 with cores := [(0, { ctxs := [(1, idleCtx st)] })] }
def twoD (pr : Nat) : State := { ((schD .ready).setFld (jobCfg 0 pr) 61 60 3) with cores := [(0, { cur := some 0, ctxs := [(0, idleCtx .running), (1, idleCtx .ready)] })] }
def seqD (st : Nat) : State := (dev.setReg (stepReg 0 1 0) (2 ^ 63 + 4 * 2 ^ 52 + 3 * 2 ^ 32 + 2 * 2 ^ 16 + 1)).setSeq 0 1 st
def gateD (g : Nat) : State := ((seqD 2).setReg (stepReg 0 1 8) (g * 2 ^ 40 + 1 * 2 ^ 48)).setReg (stepReg 0 1 0x18) 0
/-- Job 1 with phases on, group g, in switch state st toward LEARN. -/
def phD (st g : Nat) : State := ((dev.setReg (phReg 0 1 8) (2 ^ 63 + g * 2 ^ 40 + 1 * 2 ^ 16)).setReg (phReg 0 1 0x10) (st * 2 ^ 58 + 1 * 2 ^ 60)).setReg (pgGroup 3) 0x30
def phBusy : State := { phD 1 0xFF with sections := [{ secC with phase := 2 }] }
/-- Job 1 draining toward phase 3, whose rig is 4, with a record of that rig held and two of its sections in flight. -/
def phHeld : State := { (dev.setReg (phReg 0 1 8) (2 ^ 63 + 2 ^ 62 + 4 * 2 ^ 56 + 0xFF * 2 ^ 40 + 1 * 2 ^ 16)).setReg (phReg 0 1 0x10) (1 * 2 ^ 58 + 3 * 2 ^ 60) with
  phaseHeld := [(1, [recR])], sections := [secC, { secC with uid := 2, num := 5 }] }
def phSkip : State := (phD 0 3).setFld (phReg 0 1 0x10) 56 54 1
def e7 : Fin 16384 := 7
def lntD : State := dev.setReg (lntAddr 7) (2 ^ 63 + 1 * 2 ^ 56 + 128)
def lntBusy : State := { lntD with sections := [secC] }
def q9 : PortId := 9
/-- Port 9 in state st on all lanes (3), the low half (2) or the high half (1). -/
def portW (st width : Nat) : State := dev.setReg (pgPort 9 + 0x108) (st * 2 ^ 61 + width * 2 ^ 59 + (if width = 3 then 0xFF else if width = 2 then 0xF0 else 0x0F))
def portD (st : Nat) : State := portW st 3
def idOk (s : State) : State := s.setReg (pgGlobal + 0x930) (0x0200_0000_88B5_8000 + 4)
def sentId (s : State) : State := s.setPort 9 { identSent := 1 }
def infoOf (d : BitVec 15) : IdentInfo := ⟨d, 3, false, 4⟩
def off9 : State := (portD 0).setReg (pgPort 9 + 0x100) (4 * 2 ^ 48 + 4 * 2 ^ 28 + 4)
def cfg5 : W64 := BitVec.ofNat 64 (5 * 2 ^ 48 + 4 * 2 ^ 28 + 5)
def cfg4 : W64 := BitVec.ofNat 64 (5 * 2 ^ 48 + 4 * 2 ^ 28 + 4)
def early : State := dev.setReg (pgBare + 0x100) (2 ^ 63 + 8 * 2 ^ 57)
def g3 : Fin 255 := 3
def grpD : State := dev.setReg (pgGroup 3) (2 ^ 63 + 1 * 2 ^ 56 + 0xF000)
def grpBusy : State := { grpD with sections := [secC] }
/-- Port 9 UP; logical Yard 2 on physical Yard 17, at side 0 of Stay die 2; channel 8 mapped in to that side, plane 0, and out to group 3; group 3 has device 7 as the child at slot 0, and no parent. -/
def upD : State := (((((portD 3).setReg 0x410 (2 ^ 31 + 17)).setReg (0x600 + 8 * 17) (2 * 2 ^ 24)).setReg (pgPort 8 + 0x800 + 8 * 8) (2 ^ 31)).setReg (pgGroup 3) (2 ^ 63 + 2 ^ 56 + 0xF010)).setReg (pgGroup 3 + 8) (2 ^ 63 + 7 * 2 ^ 48)
/-- The same with device 7 as the parent. -/
def upP : State := (upD.setReg (pgGroup 3) (2 ^ 63 + 2 ^ 56 + 0x0000))
/-- A frame of device 7 to this device: type, tag, target and payload, of job 1, group 3. -/
def frameOf (ty tag target : Nat) (pay : List Byte) (cr : Nat := 0) : Frame :=
  ⟨frameHdr ⟨ty, true, 0, 0, 1, 0, 1, 3, tag, target, pay, none⟩ 7 0 cr false, pay, true, 0, 0⟩
def pay64 : List Byte := (List.range 64).map fun i => BitVec.ofNat 8 i
/-- A SUM of FP32 of `len` bytes in group 3, DEADLINE 1 ms, with its flags. -/
def descOf (op fl : Nat) : Nat := op + 256 * fl + 3 * 2 ^ 16 + 2 * 2 ^ 32 + 9 * 2 ^ 64 + 9 * 2 ^ 68 + 0x1000 * 2 ^ 128 + 0x2000 * 2 ^ 192 + 4096 * (2 ^ 160 * 2 ^ 160) + 1000 * (2 ^ 176 * 2 ^ 176)
def runOf (b : Nat) : CollRun := { wait := ⟨0, 4, 2, 0, 1, 1, 5⟩, body := b, t0 := 0, w := 0 }
def withRun (s : State) (r : CollRun) : State := { s with engines := [(2, { running := [r] })] }
def phL (st : Nat) (s : State) : State := (s.setReg (pgPart 0 + 0x828) (2 ^ 63 + 3 * 2 ^ 40)).setReg (pgPart 0 + 0x830) (1 * 2 ^ 62 + 2 * 2 ^ 60 + st * 2 ^ 58)
def v1 : Fin 8 := 1
def unackD : State := upD.setPort 9 { unacked := [(pairKey 1 7, 3)] }
def txOf : TxFrame := ⟨1, true, 0, 0, 1, 7, 1, 3, 5, 8, pay64, none⟩
def sent (n : Nat) : Sent := ⟨txOf, 0, 0, n, false⟩
def sentD (n : Nat) : State := upD.setPort 9 { replay := [sent n] }
def crD : State := (sentD 1).setReg (pgPort 9 + 0x188) (3 * 2 ^ 56)
def ethD : State := (upD.setReg (pgPort 9 + 0x100) (5 * 2 ^ 48 + 4 * 2 ^ 28 + 7))
def d2 : Die := 2
def side0 : Fin 2 := 0
def e0 : Fin 8 := 0
def chan8 : Fin 256 := 8
/-- Channel 8 of die 2 mapped out to group 3 for job 1, and a token at the edge. -/
def brD (t : Token) : State := { upD.setReg (pgPort 8 + 0x800 + 8 * 8) (2 ^ 63 + 3 * 2 ^ 55 + 1 * 2 ^ 39 + 2 ^ 31) with bridgeTok := [(64, [t])] }
def tk (j k : Nat) (l : Bool) : Token := ⟨mkHdr j 3 8 k l, 77⟩
def packD (t : Token) (at_ : Nat) : State := { brD t with packs := [(256 * 2 + 8, ⟨1, 3, [5], at_⟩)] }
def fullBr : State := ((brD (tk 1 0 false)).setReg (pgGroup 3 + 8) (2 ^ 63 + 7 * 2 ^ 48 + 0x89)).setPort 9 { queues := [(0, [txOf])] }
def x2 : Fin 510 := 2
def k0 : Nat := 0
def wait5 : CollWait := ⟨0, 4, 2, 0, 1, 1, 5⟩
/-- An image with that descriptor, and engine 2 with it waiting. -/
def collD : State := { upD with images := [{ img with colls := [{ target := 2, index := 2, sub := 0, len := 0, body := descOf 1 0 }] }], engines := [(2, { waiting := [wait5] })] }
def fullD : State := { upD with engines := [(2, { waiting := [wait5], running := [runOf 1, runOf 2, runOf 3, runOf 4] })] }
/-- Group 3 with neither parent nor children. -/
def loneD (s : State) : State := s.setReg (pgGroup 3) (2 ^ 63 + 2 ^ 56 + 0xF000)
def red1 : CollRun := runOf (descOf 1 0)
def askRun (left : Nat) (s : State) : State := { s with askers := [(askKey (.run 2 2), (0, left))] }
def redDone : CollRun := { red1 with upK := 1 }
def agreeA : Agree := { perm := false, job := 1, group := 3, tag := 5, own := some true, t0 := 5000000, contributed := 5000000, heard := [], sent := false }
def agD (a : Agree) (s : State) : State := { (s.setReg (stepReg 0 1 8) (1 * 2 ^ 48)) with agrees := [a] }
def ctlF (code : Nat) : Frame := frameOf 7 5 (code + 2 * 2 ^ 16 + 3 * 2 ^ 48) (if code = 5 then [] else leBytes 16 0x4010_0000_0000_0000)
def normR : CollRun := runOf (descOf 1 16)
/-- A permute of job 1 in group 3, TAG 5, DEADLINE 1 ms, in phase `ph`. -/
def permD (ph : Nat) (r : PermRun) : State :=
  { ((upP.setReg (pgGlobal + 0x940) (1 * 2 ^ 60 + 3 * 2 ^ 52)).setReg (pgGlobal + 0x948) (2 ^ 44 + 5 * 2 ^ 16 + 1)).setReg (pgGlobal + 0x958) (2 ^ 63 + ph * 2 ^ 60) with permute := some r }
def allUp : State := (List.range 32).foldl (fun t q => t.setReg (pgPort q + 0x108) (3 * 2 ^ 61 + 3 * 2 ^ 59 + 0xFF)) (permD 3 { expect := [(1, 2)] })
/-- Partition 1 enabled with Yard 1, which partition 0 has. -/
def twoP : State := (dev.setReg (pgPart 1 + 0x100) (2 ^ 63)).setReg (pgPart 1 + 0x108) 0
def p1 : Part := 1
def readyD : State := { dev with regs := [(0x108, 5000000#64), (0x3100, 0x8E00_0000_0000_0000#64)] }
def chan15 : Fin 16 := 15
def j0 : JobId := 0
def j5 : JobId := 5
def wOn : W64 := 0x8000_0000_0000_0010#64
def onlyP : State := readyD.setReg (pgPart 1 + 0x100) (2 ^ 63)
def accL : Acc := { port := .a, size := 4, sub := 0 }
def jobD (st : Nat) : State := (dev.setReg (jobSt 0 1) (st * 2 ^ 62))
def yldW (i : Nat) : W64 := setW i ||| 0x0000_00F0_0000_0010#64
def warnedD : State := { jobD 2 with yieldWarned := [1] }
/-- Job 1's ring of 16 entries at 0x1000, in state `st`, with HEAD `h` and the doorbell at `t`. -/
def ringD (st h t : Nat) (q : List RingEntry) : State :=
  (((((dev.setReg (pgDoor 1 + 0x10) (2 ^ 63 + 4)).setReg (pgDoor 1 + 8) 0x1000).setReg (ringSt 1) (st * 2 ^ 62 + h)).setReg (pgDoor 1) t)).setRing 1 q
def ringOff : State := (dev.setReg (pgDoor 1 + 8) 0x1000)
def ent (op arg : Nat) (body : List Byte) : RingEntry := { index := 0, op := op, irq := false, arg := arg, body := body }
def ringE (e : RingEntry) : State := ringD 1 1 1 [e]
def ringF : State := ringD 1 0 1 []
def askRing (left : Nat) (s : State) : State := { s with askers := [(askKey (.ring 1), (0, left))] }
def rg1 : State := ringF.setReg (chReg (adChan 0x1000)) (2 ^ 62)
def rg2 : State := askRing 5 ringF
def rg3 : State := { askRing 0 ringF with hbm := dev.hbm.write 0x1000 [9] }
def rg4 : State := askRing 0 ringF
def rg5 : State := ringD 1 0 0 []
def rg6 : State := ringE (ent 0 0 [])
def rg7 : State := ringE (ent 1 0 (leBytes 80 4))
def rg8 : State := ringE (ent 2 0x2000 (leBytes 80 4))
def eUn : RingEntry := ent 3 4 []
def eSig : RingEntry := ent 5 0x3000 (leBytes 80 7)
def ringI : State := { ringE (ent 3 4 []) with images := [img] }
def rg9 : State := ringE (ent 4 0 [])
def rg10 : State := (ringE (ent 5 0x3000 (leBytes 80 7))).setReg (chReg (adChan 0x3000)) (2 ^ 62)
def rg11 : State := ringE (ent 5 0x3000 (leBytes 80 7))
def sem31 : Fin 32 := 31
def pA : HostPort := .a
def pB : HostPort := .b
def semD (o : Nat) : State := dev.setReg 0x2F8 o
/-- Port A's link up, its window of 2^34 bytes at 0. -/
def barD : State := dev.setReg (pgHost false + 0x100) (2 ^ 63)
def relockD : State := dev.setReg (pgHc 0 + 0x1000 + 0x100) 0
def rd64 : MemReq := { y := 64, u := 40, part := 8, cls := 0, line := 0, len := 3, write := false, cache := false, epoch := 7 }
def barAsk : State := { barD with barReads := [(40, ⟨.a, 0x123, 3⟩)], askers := [(40, (7, 1))] }
def ownD (o : Nat) : State := dev.setReg 0x3_0048 o
def evD : State := (dev.setReg 0x3_0018 5).setReg 0x3_0028 7
def n30 : Nat := 0x30
def rArb : RegRow := { off := 0x118, rw := 0xFFFF_FFFF }
def rPerm : RegRow := (regRow 0x940).getD rArb
def busyPerm : State := dev.setReg 0x958 (2 ^ 63)
def rLease : RegRow := (regRow (pgCore 0 + 0x210)).getD rArb
def coldD : State := { dev with regs := [] }
def accT : Acc := { port := .b, size := 8, sub := 0, tie := true }
def sp6 : Fin 7 := 6
def w3 : Fin 17 := 3
def w16 : Fin 17 := 16
def heldD : State := (((dev.setReg 0x200 1).setReg 0x208 2).setReg 0x3_0048 1).setReg 0x300 1
def watchD : State := heldD.setReg 0x308 1
/-- A safe stop that the input made, with AUTO_WARM 1, after READY. -/
def stopD : State := { dev.setReg (pgBare + 0x100) (2 ^ 63 + 2 ^ 62 + 8 * 2 ^ 57) with inputOut := true, pwrOk := false }
def offS : State := dev.setReg (pgBare + 0x100) 0
def st8 : State := { dev.setReg (pgBare + 0x100) (2 ^ 63 + 8 * 2 ^ 57) with pwrOk := false }
def noWarm : State := stopD.setReg (pgPower 0 + 0x100) 0
def unready : State := { stopD.setReg (pgBare + 0x100) (2 ^ 62 + 8 * 2 ^ 57) with inputOut := true }
def tripped : State := { stopD with thermtrip := true }
def cap1 : CapSample := ⟨5400, 900, 700, 6000, 300, 400, []⟩
def hotY : HotDie := .yard 1
def hotD : State := { dev with hotYards := [hotKey hotY] }
def m0 : Fin 2 := 0
def m1 : Fin 2 := 1
/-- Masthead A primary (ROLE 3), B in role `r`. -/
def mastD (r : Nat) : State := ((dev.setReg (pgMast false + 0x100) (3 * 2 ^ 61)).setReg (pgMast true + 0x100) (r * 2 ^ 61))
def lateD : State := { mastD 2 with latchNs := 1000000, beatNs := 1000000 }
def freshD : State := { mastD 2 with beatNs := 1000000 }
def claimD : State := { lateD with shroudLost := true }
def noLatch : State := { dev with latch := none }
def reqW (c : Nat) : W64 := BitVec.ofNat 64 (c * 2 ^ 60 + 2 ^ 59 + 9)
def windowD : State := (dev.setReg (pgArb + 0x100) 1).setReg (pgPort 9 + 0x108) (3 * 2 ^ 61 + 1 * 2 ^ 59 + 0xF)
def cls4 : Fin 8 := 4
def runM (c t : Nat) (sp : Option Nat) : State := { mastD 2 with maintRun := [⟨c, t, 1, 0, sp⟩] }
def reqQ : State := { windowD with maintQueue := [⟨4, 9, 0, 0, none⟩] }
def cls1 : Fin 8 := 1
def errD : State := windowD.setReg (chReg 0) (2 ^ 59)
def hourD : State := ((dev.setReg (pgMon + 0x180) (2 ^ 63 + 24 * 2 ^ 32 + 3)).setReg (pgMon + 0x408) 2).setReg 0x108 86399999999000
/-- The switch page of Yard 0 with its monitor on source 1. -/
def monD (v : Nat) : State := (dev.setReg (pgSwitch 0 + 0x50) v)
def nSw : Nat := 0x1001
def sd7 : Fin 131072 := 7
def word2 : Fin 4 := 2
def lnt9 : Fin 16384 := 9
def word7 : Fin 8 := 7
def sdAD : State := dev.setReg (sdAddr 7) (9 * 2 ^ 56)
def offD : State := { dev.setReg (pgBare + 0x100) 0 with timeOn := false }
def up9 : State := portD 3
def lightsOff : State := offD.setReg (pgBare + 0x100) 0
def cut9 : State := { dev with cagesOff := [9] }
def stageD (n : Nat) : State := dev.setReg (pgBare + 0x100) (n * 2 ^ 57)
def goodTest : SelfTest := ⟨false, [], 0, 0⟩
def badTest : SelfTest := ⟨true, [], 0, 0⟩
def trainD : State := (stageD 6).setFld (pgPort 3 + 0x108) 63 61 1
/-- A masked write of BR_RESET bit `i` with the key, PART 0 and YARD 5. -/
def rstW (i : Nat) : W64 := BitVec.ofNat 64 (2 ^ i + 5 * 2 ^ 10 + 0xA5 * 2 ^ 16 + 2 ^ 32 * 0xFF_FFFF)
def tripD : State := { dev with thermtrip := true, hotYards := [3], warmDies := [3] }
def osc3 : Fin 8 := 3
def oscD (v : Nat) : State := dev.setReg (pgGlobal + 0x900) v
def east1 : Fin 2 := 1
def relD : State := { oscD 0x3F with relock := [1] }
def ys1 : YardSense := ⟨1, 1200, 740, 750, 900⟩
def tsD (mode arm : Nat) : State := (dev.setReg (pgBare + 0x180) (mode * 2 ^ 62 + 7 * 2 ^ 32)).setReg (pgBare + 0x198) (arm * 2 ^ 62 + 2 ^ 63)
def tsOk : State := { dev.setReg (pgBare + 0x180) (2 * 2 ^ 62 + 1000 * 2 ^ 32) with tsyncGood := 7 }
def lostD : State := { oscD 0x3F with oscOut := [2] }
def coldPair : State := { oscD 0xF3 with oscOut := [1] }
def quietD : State := dev
def busyQ : State := { dev with pending := [.nop 1] }
def retD : State := { dev with retiredA := [7], retiredB := [7], pending := [.powerOn] }
def retE : State := { retD with pending := [] }

/-! ### Ill-formed commands, refused by each check of `wellFormed` -/

theorem test_wf_acc_empty : wellFormed (.registerWrite { port := .a, size := 0, sub := 0 } 0x3_0118 0) = false := by decide
theorem test_wf_acc_long : wellFormed (.registerWrite { port := .a, size := 8, sub := 1 } 0x3_0118 0) = false := by decide
theorem test_wf_addr_unaligned : wellFormed (.registerWrite accA 0x3_011C 0) = false := by decide
theorem test_wf_addr_outside : wellFormed (.counterSatClear accA 0x202_0000 0) = false := by decide
theorem test_wf_page : wellFormed (.pgOwnerWrite accA 0x2000 0) = false := by decide
theorem test_wf_time : wellFormed (.ready (2 ^ 64)) = false := by decide
theorem test_wf_reset_ms : wellFormed (.partRst accA 0 (2 ^ 32)) = false := by decide
theorem test_wf_yards_twice : wellFormed (.ydSenseUpdate 0 [⟨1, 0, 0, 0, 0⟩, ⟨1, 5, 0, 0, 0⟩]) = false := by decide
theorem test_wf_selftest_twice : wellFormed (.selftestDone 0 ⟨false, [(3, 0), (3, 1)], 0, 0⟩) = false := by decide
theorem test_wf_stacks_twice : wellFormed (.hbmTrainDone 0 [⟨3, false, 0, 0⟩, ⟨3, true, 0, 0⟩]) = false := by decide
theorem test_wf_caploop_twice : wellFormed (.capLoop 0 ⟨0, 0, 0, 0, 0, 0, [(1, 0), (1, 2)]⟩) = false := by decide
theorem test_wf_frame_long : wellFormed (.token 9 ⟨0, List.replicate 4097 0, true, 0, 0⟩) = false := by decide
theorem test_wf_credits : wellFormed (.ident 9 ⟨5, 24, false, 256⟩) = false := by decide
theorem test_wf_bar2_len : wellFormed (.bar2Read .a 0 4097) = false := by decide
theorem test_wf_bar2_bytes : wellFormed (.bar2Write .a 0 []) = false := by decide
theorem test_wf_link_speed : wellFormed (.hostLinkUp .a 0 16 false false false) = false := by decide
theorem test_wf_link_width : wellFormed (.hostLinkUp .a 6 3 false false false) = false := by decide
theorem test_wf_bar_size : wellFormed (.resizableBarWrite .a 37) = false := by decide
theorem test_wf_accepts : wellFormed (.registerWrite { port := .b, size := 4, sub := 4 } 0x2_1190 5) = true := by decide

/-! ### The spec's worked examples -/

/-- What a field or value of the answered state is; none where there is no next state. -/
def after (r : Result) (f : State → Nat) : Option Nat :=
  match r with
  | .next t => some (f t)
  | _ => none

/-- "Stay Links", its example: lane L5 of P9, peer 5. -/
def linkEx : State := (portD 3).setFld (pgPort 9 + 0x108) 54 40 5
theorem test_lane_degraded_info : after (exec (.laneBad 9 5 false false) linkEx) (fun t => t.reg (pgPort 9 + 0x40)) = some 0x4890_0005_0000_0000 := by decide
theorem test_lane_degraded_width : after (exec (.laneBad 9 5 false false) linkEx) (fun t => 256 * t.fld (pgPort 9 + 0x108) 60 59 + t.fld (pgPort 9 + 0x108) 7 0) =
    some (256 * 1 + 0xDF) := by decide

/-- "Partitions, Jobs and Pre-emption", its example: job 6 of partition 2 yields with PREEMPT_WARN_US 1,000. -/
def yieldEx : State :=
  { (((dev.setReg (pgPart 2 + 0x100) (2 ^ 63)).setReg (jobCfg 2 6) (2 ^ 63 + 1000)).setReg (jobSt 2 6) (2 * 2 ^ 62)) with yieldAt := [(6, 5000000)] }
theorem test_preempt_wait_info : after (exec (.preemptWait 1000000 2 6) yieldEx) (fun t => t.reg (pgPart 2 + 0x40)) = some 0x0601_0000_0000_03E8 := by decide
theorem test_preempt_wait_early : after (exec (.preemptWait 999999 2 6) yieldEx) (fun t => t.yieldWarned.length) = some 0 := by decide

/-- "Host Ports and Register Pages", its example: port B holds GLB_SEM[3] and owns partition page 1. -/
def hostEx : State := ((dev.setReg 0x218 2).setReg (pgPart 1 + 0x48) 2).setReg 0x300 50
theorem test_sem_second_reader : after (exec (.semAcquire accA 3) hostEx) (fun t => match t.out.getLast? with | some (.readData .a v) => v | _ => 0) =
    some 0x8000_0000_0000_0002 := by decide
theorem test_page_locked_info : after (exec (.yield_ accA 1 (setW 0)) hostEx) (fun t => t.reg (pgHost false + 0x40)) = some 0x8000_0000_0002_1190 := by decide
/-- GLB_SEM[3], held by port A for 50 ms. -/
def semEx : State := { (hostEx.setReg 0x218 1).setReg 0x308 8 with semSince := [(3, 5000000)] }
theorem test_sem_timeout_info : after (exec (.semaphoreTimeout 50000000) semEx) (fun t => t.reg 0x40) = some 0x4300_0000_0000_0032 := by decide
theorem test_sem_timeout_frees : after (exec (.semaphoreTimeout 50000000) semEx) (fun t => t.semOwner 3) = some 0 := by decide
theorem test_evt_enable_masked : after (exec (.evtEnableWrite accB 0x21 0x0000_0002_0000_0002#64) hostEx) (fun t => t.reg (pgPart 1 + 0x20)) = some 2 := by decide

/-- "Module Anatomy", its example: physical Yard 21 fails with Sail s1 dead. -/
def mapEx : State := dev.buildMap ⟨false, [(21, 0b1101)], 0, 0⟩
theorem test_map_row2 : (List.range 8).map (fun i => mapEx.physOf (16 + i)) =
    [some 18, some 19, some 20, some 22, some 23, some 24, some 25, some 26] := by decide
theorem test_map_row3 : (List.range 8).map (fun i => mapEx.physOf (24 + i)) =
    [some 27, some 28, some 29, some 30, some 31, some 32, some 33, some 34] := by decide

/-- "Power and Mastheads", its example: the ceiling of Yard 37 at 95.0, 95.2 and 94.6 °C. -/
theorem test_vmax_hot : nextVmax (95 * 16) 1520 750 620 = 615 := by decide
theorem test_vmax_holds : nextVmax (95 * 16) 1514 610 610 = 610 := by decide

/-- "Collectives and Re-sharding", its example: the DEADLINE_FALLBACK of rank 2. -/
theorem test_fallback_info : collInfo 20 (slotBits [2]) 5 0 1 2 0x0300 = 0x1404_0281_0002_0300 := by decide

/-- "Matrix Units", its example: the waves of the folded firing, and without the fold. -/
def foldEx (mode s : Nat) : MuPlan :=
  { fa := 0, fb := 0, m := 512, n := 512, k := 128, p := 4, mode := mode, s := s, acc := 1, alt := false, emit := 2, bMode := 0, aBlk := false, aT := false, bBlk := true
    bT := true, sa := 127, sb := 127, accBase := 0, aBase := 0, bBase := 0, bLen := 0 }
theorem test_fold_waves : (foldEx 2 2).waves = 2112 := by decide
theorem test_no_fold_waves : (foldEx 2 1).waves = 4160 := by decide

/-- "Numerics", its example: the exponents of the two AMAX values. -/
theorem test_expo_119 : expoOf 0x3BAA_1066 = 119 := by decide
theorem test_expo_122 : expoOf 0x3D20_2752 = 122 := by decide
/-- Its update example: LR_EXP −17 and LR_OFF −1 give IMM3 = −2^−18, and LS 143 gives IMM2 = 2^−16. -/
theorem test_imm3 : f32Neg (f32Pow2 (-18)) = 0xB680_0000#32 := by decide
theorem test_imm2 : f32Pow2 (127 - 143) = 0x3780_0000#32 := by decide

/-- "Sections, Reefs and Loading", its example: PT_RIG_STATUS after images A and B. -/
theorem test_rig_status_ok : (dev.rigResult 1 1 0 3 0).reg (rigSt 1) = 0x1030_0000_0000_0000 := by decide
theorem test_rig_status_reef : (dev.rigResult 1 2 0 4 0x0104).reg (rigSt 1) = 0x2040_0000_0000_0104 := by decide

/-- "Startup and Reset", its example: the input falls below 46 V. -/
theorem test_undervolt_stage : after (exec (.inputUndervolt 4599) dev) (fun t => t.stage) = some 8 := by decide
theorem test_undervolt_recovers : after (exec (.inputRecovered 4800) stopD) (fun t => t.stage) = some 2 := by decide

/-- R145: a result of EXP(0) = 1 may lie 2 ulp away and no farther; ln 2 to FP32. -/
theorem test_exp_within : twoUlp 0x3F80_0002 (expReal (fxOf 0)) = 0x3F80_0002 := by decide
theorem test_exp_beyond : twoUlp 0x3F80_0003 (expReal (fxOf 0)) = 0x3F80_0000 := by decide
theorem test_ln_two : (stageReal 0x13 0x4000_0000).map toF32 = some 0x3F31_7218 := by decide

/-! ### Every hypothesis is met somewhere -/

/-- The heads of four input queues satisfy what `g` says, where a check of the four finds it so. -/
theorem heads_ok (f : Nat → List Token) (g : Token → Nat → Bool)
    (h : ((List.range 4).all fun p => match f p with | [] => true | t :: _ => g t p) = true) :
    ∀ (p : Nat) (t : Token) (rest : List Token), p < 4 → f p = t :: rest → g t p = true := by
  intro p t rest hp hq
  have := List.all_eq_true.mp h p (List.mem_range.mpr hp)
  simpa [hq] using this

/-- Stack H0 of that state has no row to repair. -/
theorem repD_pending (c : Nat) (h : c / 32 = 0) : ((repD dev 0).tick 1000).fencesIn c 0 = [] ∧ ((repD dev 0).tick 1000).fencesIn c 2 = [] := by
  have v : ((List.range 64).all fun e => !(((repD dev 0).tick 1000).fenceValid 0 e)) = true := by decide
  have none : ∀ e ∈ List.range 64, ((repD dev 0).tick 1000).fenceValid 0 e = false := fun e he => by
    simpa using List.all_eq_true.mp v e he
  constructor <;>
  · unfold State.fencesIn
    rw [h]
    exact List.filter_eq_nil_iff.mpr fun e he => by simp [none e he]

theorem witness_StepRunsFrontCommand :
    quietD.pending = [] := by decide

theorem witness_ResetState :
    7 < 8 := by decide

theorem witness_RetiredYardsStayRetired :
    step retD = Host.Outcome.next retE ∧
    retD.Retired 7 := ⟨rfl, And.intro (by decide) (by decide)⟩

theorem witness_EventSummary :
    ((280 = pgGlobal + 280 ∨ 280 = pgGlobal + 288) ∧
     dev.Open accA 280) ∧
    ((288 = pgGlobal + 280 ∨ 288 = pgGlobal + 288) ∧
     dev.Open accA 288) ∧
    (7 < 8) ∧
    (31 < 32) ∧
    (63 < 64) := by
  refine ⟨?_, ?_, ?_, ?_, ?_⟩ <;> decide

theorem witness_StartUpStages :
    (offD.stage = 0) ∧
    ((stageD 1).stage = 1) ∧
    ((stageD 2).stage = 2 ∧
     (¬(BootOutcome.failed = BootOutcome.failed ∧ BootOutcome.active = BootOutcome.failed))) ∧
    ((stageD 2).stage = 2 ∧
     (¬(BootOutcome.active = BootOutcome.failed ∧ BootOutcome.failed = BootOutcome.failed))) ∧
    ((stageD 2).stage = 2 ∧
     BootOutcome.failed = BootOutcome.failed ∧
     BootOutcome.failed = BootOutcome.failed) ∧
    ((stageD 3).stage = 3 ∧
     badTest.wafer = true) ∧
    ((stageD 3).stage = 3 ∧
     goodTest.wafer = false ∧
     ((List.range 64).any fun y => (({ ((stageD 3).tick 1000).scrambleSram with stayAbsent := goodTest.stays.toNat } : State).buildMap goodTest).enabled y) = true) ∧
    ((stageD 4).stage = 4) ∧
    ((stageD 5).stage = 5 ∧
     (∀ (q : Nat), q < 32 → (stageD 5).portState q ≠ 1)) ∧
    ((stageD 6).stage = 6 ∧
     (stageD 6).latch ≠ none ∧
     (∀ (q : Nat), q < 32 → (stageD 6).portState q ≠ 1)) ∧
    (trainD.stage = 6 ∧
     (∃ q, q < 32 ∧ trainD.portState q = 1)) := by
  refine ⟨?_, ?_, ?_, ?_, ?_, ?_, ?_, ?_, ?_, ?_, ?_⟩ <;> decide

theorem witness_Resets :
    (dev.Open accA (pgBare + 264) ∧
     bits (maskAnd (BitVec.toNat (rstW 0)) (maskedBits (BitVec.toNat (rstW 0)))) 23 16 = 165 ∧
     acts (BitVec.toNat (rstW 0)) 0 = true ∧
     dev.coldRuns = false ∧
     dev.tripHolds = false) ∧
    (tripD.Open accA (pgBare + 264) ∧
     bits (maskAnd (BitVec.toNat (rstW 0)) (maskedBits (BitVec.toNat (rstW 0)))) 23 16 = 165 ∧
     acts (BitVec.toNat (rstW 0)) 0 = true ∧
     tripD.tripHolds = true) ∧
    (dev.Open accA (pgBare + 264) ∧
     bits (maskAnd (BitVec.toNat (rstW 1)) (maskedBits (BitVec.toNat (rstW 1)))) 23 16 = 165 ∧
     acts (BitVec.toNat (rstW 1)) 0 = false ∧
     acts (BitVec.toNat (rstW 1)) 1 = true ∧
     dev.isReady = true ∧
     dev.tripHolds = false ∧
     dev.maintRun = []) ∧
    ((stageD 4).Open accA (pgBare + 264) ∧
     bits (maskAnd (BitVec.toNat (rstW 1)) (maskedBits (BitVec.toNat (rstW 1)))) 23 16 = 165 ∧
     acts (BitVec.toNat (rstW 1)) 0 = false ∧
     acts (BitVec.toNat (rstW 1)) 1 = true ∧
     (stageD 4).isReady = false) ∧
    (dev.Open accA (pgBare + 264) ∧
     bits (maskAnd (BitVec.toNat (rstW 2)) (maskedBits (BitVec.toNat (rstW 2)))) 23 16 = 165 ∧
     acts (BitVec.toNat (rstW 2)) 0 = false ∧
     acts (BitVec.toNat (rstW 2)) 1 = false ∧
     acts (BitVec.toNat (rstW 2)) 2 = true ∧
     dev.isReady = true ∧
     dev.stage ≠ 8) ∧
    (dev.Open accA (pgBare + 264) ∧
     bits (maskAnd (BitVec.toNat (rstW 3)) (maskedBits (BitVec.toNat (rstW 3)))) 23 16 = 165 ∧
     acts (BitVec.toNat (rstW 3)) 0 = false ∧
     acts (BitVec.toNat (rstW 3)) 1 = false ∧
     acts (BitVec.toNat (rstW 3)) 2 = false ∧
     acts (BitVec.toNat (rstW 3)) 3 = true ∧
     dev.isReady = true ∧
     dev.stage ≠ 8 ∧
     (dev.storeReg (pgBare + 264) (BitVec.toNat (rstW 3)) (2 ^ 64 - 1)).yardUsed ((dev.storeReg (pgBare + 264) (BitVec.toNat (rstW 3)) (2 ^ 64 - 1)).fld (pgBare + 264) 15 10) = false) ∧
    (dev.Open accA (pgBare + 264) ∧
     bits (maskAnd (4294967297#64).toNat (maskedBits (4294967297#64).toNat)) 23 16 ≠ 165) := by
  refine ⟨?_, ?_, ?_, ?_, ?_, ?_, ?_⟩ <;> decide

theorem witness_OscillatorsSensorsTime :
    ((oscD 255).flag (pgGlobal + 2304) 3 = true ∧
     (oscD 255).flag (pgGlobal + 2304) (16 + 3) = false ∧
     (oscD 255).flag (pgGlobal + 2304) (16 + partner 3) = false ∧
     (oscD 255).flag (pgGlobal + 2304) (partner 3) = true) ∧
    ((oscD 262399).flag (pgGlobal + 2304) 3 = true ∧
     (oscD 262399).flag (pgGlobal + 2304) (16 + partner 3) = true) ∧
    ((oscD 524543).flag (pgGlobal + 2304) 3 = true ∧
     (oscD 524543).flag (pgGlobal + 2304) (16 + partner 3) = false ∧
     (oscD 524543).flag (pgGlobal + 2304) (16 + 3) = true) ∧
    ((oscD 251).flag (pgGlobal + 2304) 3 = true ∧
     (oscD 251).flag (pgGlobal + 2304) (16 + 3) = false ∧
     (oscD 251).flag (pgGlobal + 2304) (16 + partner 3) = false ∧
     (oscD 251).flag (pgGlobal + 2304) (partner 3) = false) ∧
    ((oscD 247).flag (pgGlobal + 2304) 3 = false) ∧
    ((4 ≤ 3 ∨ (oscD 525559).flag (pgGlobal + 2304) (16 + 3) = true)) ∧
    (3 < 4 ∧
     coldPair.flag (pgGlobal + 2304) (16 + 3) = false) ∧
    (relD.relock.contains 1 = true ∧
     relD.oscOut.contains 2 = false) ∧
    ((List.map (fun x => x.y) [ys1]).Nodup) ∧
    (((tsD 2 1).tick 1000).tsyncMode = 2 ∧
     ((tsD 2 1).tick 1000).flag (pgBare + 408) 62 = true) ∧
    ((tsOk.tick 1000).tsyncMode = 2 ∧
     (tsOk.tick 1000).flag (pgBare + 408) 62 = false ∧
     tsyncErr (tsOk.tick 1000).now ((tsOk.tick 1000).fld (pgBare + 384) 47 32) ≤ 50 ∧
     -50 ≤ tsyncErr (tsOk.tick 1000).now ((tsOk.tick 1000).fld (pgBare + 384) 47 32)) ∧
    (((tsD 2 0).tick 2000000).tsyncMode = 2 ∧
     2000000 ≤ (tsD 2 0).tsyncNs + 2000000) ∧
    ((((tsD 1 0).tick 1000000).tsyncMode = 1 ∨ ((tsD 1 0).tick 1000000).tsyncMode = 2) ∧
     (tsD 1 0).now / 1000000 < ((tsD 1 0).tick 1000000).now / 1000000) ∧
    (dev.Open accA (pgBare + 400) ∧
     acts (BitVec.toNat (setW 0)) 0 = true) := by
  refine ⟨?_, ?_, ?_, ?_, ?_, ?_, ?_, ?_, ?_, ?_, ?_, ?_, ?_, ?_⟩ <;> decide

theorem witness_TokenRouting :
    (dev.live = true ∧
     dev.physOf 0 = some 0 ∧
     dev.inQueue 0 (portCode (SwPort.edge 3)) (laneCode (Lane.plane 2)) = []) ∧
    ((devQ 3 tokC).live = true ∧
     (devQ 3 tokC).physOf 0 = some 0 ∧
     (devQ 3 tokC).inQueue 0 (portCode (SwPort.edge 3)) (laneCode (Lane.plane 2)) = [tokC] ∧
     Tab.get [] ((devQ 3 tokC).switch 0).copied (inKey (portCode (SwPort.edge 3)) (laneCode (Lane.plane 2))) = [] ∧
     tokenError (laneNet (laneCode (Lane.plane 2))) tokC = some 4) ∧
    ((devQ 2 tokD).live = true ∧
     (devQ 2 tokD).physOf 0 = some 0 ∧
     (devQ 2 tokD).inQueue 0 (portCode (SwPort.edge 2)) (laneCode (Lane.plane 2)) = [tokD] ∧
     Tab.get [] ((devQ 2 tokD).switch 0).copied (inKey (portCode (SwPort.edge 2)) (laneCode (Lane.plane 2))) = [] ∧
     tokenError (laneNet (laneCode (Lane.plane 2))) tokD = none ∧
     (devQ 2 tokD).routeFor 0 (portCode (SwPort.edge 2)) (laneNet (laneCode (Lane.plane 2))) tokD = none) ∧
    (fullE.live = true ∧
     fullE.physOf 0 = some 0 ∧
     fullE.inQueue 0 (portCode (SwPort.edge 0)) (laneCode (Lane.plane 2)) = [tokD] ∧
     Tab.get [] (fullE.switch 0).copied (inKey (portCode (SwPort.edge 0)) (laneCode (Lane.plane 2))) = [] ∧
     tokenError (laneNet (laneCode (Lane.plane 2))) tokD = none ∧
     fullE.routeFor 0 (portCode (SwPort.edge 0)) (laneNet (laneCode (Lane.plane 2))) tokD = some rtE ∧
     rtE.outs = [1] ∧
     ((if rtE.net = 0 then rtE.plane else laneCode (Lane.plane 2)) ≠ 9 ∨ 4 ≤ 1) ∧
     (fullE.hasRoom 0 0 1 (if rtE.net = 0 then rtE.plane else laneCode (Lane.plane 2)) = false)) ∧
    ((devH { wireA := wireFull, wireB := wireFull : HalLink }).live = true ∧
     (devH { wireA := wireFull, wireB := wireFull : HalLink }).physOf 0 = some 0 ∧
     (devH { wireA := wireFull, wireB := wireFull : HalLink }).inQueue 0 (portCode (SwPort.edge 0)) (laneCode Lane.halyard) = [tokC] ∧
     Tab.get [] ((devH { wireA := wireFull, wireB := wireFull : HalLink }).switch 0).copied (inKey (portCode (SwPort.edge 0)) (laneCode Lane.halyard)) = [] ∧
     tokenError (laneNet (laneCode Lane.halyard)) tokC = none ∧
     (devH { wireA := wireFull, wireB := wireFull : HalLink }).routeFor 0 (portCode (SwPort.edge 0)) (laneNet (laneCode Lane.halyard)) tokC = some rtH ∧
     rtH.outs = [1] ∧
     rtH.net = 2 ∧
     1 < 4 ∧
     (devH { wireA := wireFull, wireB := wireFull : HalLink }).way 0 1 = Way.switch 1 3 ∧
     (devH { wireA := wireFull, wireB := wireFull : HalLink }).railOut 1 3 Rail.a = false ∧
     (devH { wireA := wireFull, wireB := wireFull : HalLink }).railOut 1 3 Rail.b = false ∧
     16 ≤ (devH { wireA := wireFull, wireB := wireFull : HalLink }).railHeld 1 3 Rail.a ∧
     16 ≤ (devH { wireA := wireFull, wireB := wireFull : HalLink }).railHeld 1 3 Rail.b) ∧
    ((devH { : HalLink }).live = true ∧
     (devH { : HalLink }).physOf 0 = some 0 ∧
     (devH { : HalLink }).inQueue 0 (portCode (SwPort.edge 0)) (laneCode Lane.halyard) = [tokC] ∧
     Tab.get [] ((devH { : HalLink }).switch 0).copied (inKey (portCode (SwPort.edge 0)) (laneCode Lane.halyard)) = [] ∧
     tokenError (laneNet (laneCode Lane.halyard)) tokC = none ∧
     (devH { : HalLink }).routeFor 0 (portCode (SwPort.edge 0)) (laneNet (laneCode Lane.halyard)) tokC = some rtH ∧
     rtH.outs = [1] ∧
     rtH.net = 2 ∧
     1 < 4 ∧
     (devH { : HalLink }).way 0 1 = Way.switch 1 3 ∧
     (devH { : HalLink }).railOut 1 3 Rail.a = false ∧
     (devH { : HalLink }).railOut 1 3 Rail.b = false ∧
     1 ≠ 0 ∧
     portCode (SwPort.edge 0) < 8 ∧
     (devH { : HalLink }).inject = [] ∧
     ((devH { : HalLink }).switch 0).inQ = [(inKey (portCode (SwPort.edge 0)) (laneCode Lane.halyard), [tokC])] ∧
     (devH { : HalLink }).railHeld 1 3 Rail.a < 16 ∧
     (devH { : HalLink }).railHeld 1 3 Rail.b < 16) ∧
    ((devQ 3 tokD).live = true ∧
     (devQ 3 tokD).physOf 0 = some 0 ∧
     (devQ 3 tokD).inQueue 0 (portCode (SwPort.edge 3)) (laneCode (Lane.plane 2)) = [tokD] ∧
     Tab.get [] ((devQ 3 tokD).switch 0).copied (inKey (portCode (SwPort.edge 3)) (laneCode (Lane.plane 2))) = [] ∧
     tokenError (laneNet (laneCode (Lane.plane 2))) tokD = none ∧
     (devQ 3 tokD).routeFor 0 (portCode (SwPort.edge 3)) (laneNet (laneCode (Lane.plane 2))) tokD = some rtU ∧
     rtU.outs = [8] ∧
     portCode (SwPort.edge 3) < 8 ∧
     (devQ 3 tokD).inject = [] ∧
     ((devQ 3 tokD).hasRoom 0 0 8 (if rtU.net = 0 then rtU.plane else laneCode (Lane.plane 2)) = true) ∧
     ((devQ 3 tokD).turnOf 0 8 (if rtU.net = 0 then rtU.plane else laneCode (Lane.plane 2)) = some (inKey (portCode (SwPort.edge 3)) (laneCode (Lane.plane 2)))) ∧
     4 ≤ 8) ∧
    ((devQ 0 tokD).live = true ∧
     (devQ 0 tokD).physOf 0 = some 0 ∧
     (devQ 0 tokD).inQueue 0 (portCode (SwPort.edge 0)) (laneCode (Lane.plane 2)) = [tokD] ∧
     Tab.get [] ((devQ 0 tokD).switch 0).copied (inKey (portCode (SwPort.edge 0)) (laneCode (Lane.plane 2))) = [] ∧
     tokenError (laneNet (laneCode (Lane.plane 2))) tokD = none ∧
     (devQ 0 tokD).routeFor 0 (portCode (SwPort.edge 0)) (laneNet (laneCode (Lane.plane 2))) tokD = some rtE ∧
     rtE.outs = [1] ∧
     portCode (SwPort.edge 0) < 8 ∧
     (devQ 0 tokD).inject = [] ∧
     ((devQ 0 tokD).hasRoom 0 0 1 (if rtE.net = 0 then rtE.plane else laneCode (Lane.plane 2)) = true) ∧
     ((devQ 0 tokD).turnOf 0 1 (if rtE.net = 0 then rtE.plane else laneCode (Lane.plane 2)) = some (inKey (portCode (SwPort.edge 0)) (laneCode (Lane.plane 2)))) ∧
     1 < 4 ∧
     (devQ 0 tokD).way 0 1 = Way.switch 1 3 ∧
     1 ≠ 0 ∧
     ((if rtE.net = 0 then rtE.plane else laneCode (Lane.plane 2)) < 9)) ∧
    (dev.live = true ∧
     dev.crossTok.find? ((4 * 2 + 3) * 16 + 2) = none) ∧
    ((devX (List.replicate 16 tokD)).live = true ∧
     (devX (List.replicate 16 tokD)).crossTok.find? ((4 * 2 + 3) * 16 + 2) = some tokD ∧
     (devX (List.replicate 16 tokD)).hasRoom 0 2 3 2 = false) ∧
    ((devX [tokD]).live = true ∧
     (devX [tokD]).crossTok.find? ((4 * 2 + 3) * 16 + 2) = some tokD ∧
     (devX [tokD]).inject = [] ∧
     (devX [tokD]).way 2 3 = Way.switch 1 1 ∧
     ((devX [tokD]).inQueue 1 1 2).length < 16) := by
  refine ⟨?_, ?_, ?_, ?_, ?_, ?_, ?_, ?_, ?_, ?_, ?_⟩ <;> decide

theorem witness_HalyardReceivers :
    ((devL { wireA := [cp] : HalLink }).live = true ∧
     (∀ (rail : Rail), (devL { wireA := [cp] : HalLink }).railOut 0 3 rail = false) ∧
     ((devL { wireA := [cp] : HalLink }).link 0 3).firsts = [] ∧
     copyOk cp = true ∧
     ((devL { wireA := [cp] : HalLink }).link 0 3).wireA = [cp]) ∧
    ((devL { wireB := [cp] : HalLink }).live = true ∧
     (∀ (rail : Rail), (devL { wireB := [cp] : HalLink }).railOut 0 3 rail = false) ∧
     ((devL { wireB := [cp] : HalLink }).link 0 3).firsts = [] ∧
     copyOk cp = true ∧
     ((devL { wireB := [cp] : HalLink }).link 0 3).wireB = [cp]) ∧
    ((devL { wireB := [cp], firsts := [{ copy := cp, good := true, passed := true : RailCopy }] : HalLink }).live = true ∧
     (∀ (rail : Rail), (devL { wireB := [cp], firsts := [{ copy := cp, good := true, passed := true : RailCopy }] : HalLink }).railOut 0 3 rail = false) ∧
     ((devL { wireB := [cp], firsts := [{ copy := cp, good := true, passed := true : RailCopy }] : HalLink }).link 0 3).firsts = [{ copy := cp, good := true, passed := true : RailCopy }] ∧
     ((devL { wireB := [cp], firsts := [{ copy := cp, good := true, passed := true : RailCopy }] : HalLink }).link 0 3).ahead = Rail.a ∧
     ((devL { wireB := [cp], firsts := [{ copy := cp, good := true, passed := true : RailCopy }] : HalLink }).link 0 3).wireB = [cp] ∧
     cp = cp ∧
     copyOk cp = true) ∧
    ((devL { wireB := [cpBad], firsts := [{ copy := cp, good := true, passed := true : RailCopy }] : HalLink }).live = true ∧
     (∀ (rail : Rail), (devL { wireB := [cpBad], firsts := [{ copy := cp, good := true, passed := true : RailCopy }] : HalLink }).railOut 0 3 rail = false) ∧
     ((devL { wireB := [cpBad], firsts := [{ copy := cp, good := true, passed := true : RailCopy }] : HalLink }).link 0 3).firsts = [{ copy := cp, good := true, passed := true : RailCopy }] ∧
     ((devL { wireB := [cpBad], firsts := [{ copy := cp, good := true, passed := true : RailCopy }] : HalLink }).link 0 3).ahead = Rail.a ∧
     ((devL { wireB := [cpBad], firsts := [{ copy := cp, good := true, passed := true : RailCopy }] : HalLink }).link 0 3).wireB = [cpBad] ∧
     copyOk cpBad = false ∧
     ((devL { wireB := [cpBad], firsts := [{ copy := cp, good := true, passed := true : RailCopy }] : HalLink }).link 0 3).badB < 15) ∧
    (dev.live = true ∧
     (dev.link 0 3).wireA = []) ∧
    ((outL 1).live = true ∧
     ((outL 1).link 0 3).wireA = [cp] ∧
     (outL 1).railOut 0 3 Rail.a = true ∧
     (outL 1).railOut 0 3 Rail.b = false) ∧
    ((outL 3).live = true ∧
     ((outL 3).link 0 3).wireA = [cp] ∧
     (outL 3).railOut 0 3 Rail.a = true ∧
     (outL 3).railOut 0 3 Rail.b = true) ∧
    (dev.Open accA (pgSwitch 0 + 256) ∧
     acts (12884901888#64).toNat 2 = false ∧
     (∀ (e : Edge) (rail : Rail), (dev.storeReg (pgSwitch 0 + 256) (12884901888#64).toNat (accMask accA)).railOut 0 e.val rail = dev.railOut 0 e.val rail)) ∧
    (dev.Open accA (pgSwitch 0 + 256) ∧
     acts (BitVec.toNat (setW 2)) 2 = true ∧
     (dev.storeReg (pgSwitch 0 + 256) (BitVec.toNat (setW 2)) (accMask accA)).fld (pgSwitch 0 + 256) 1 0 = 0) := 
  ⟨⟨by decide, by intro r; cases r <;> decide, by decide, by decide, by decide⟩,
   ⟨by decide, by intro r; cases r <;> decide, by decide, by decide, by decide⟩,
   ⟨by decide, by intro r; cases r <;> decide, by decide, by decide, by decide, by decide, by decide⟩,
   ⟨by decide, by intro r; cases r <;> decide, by decide, by decide, by decide, by decide, by decide⟩,
   by decide,
   by decide,
   by decide,
   ⟨by decide, by decide, by intro e r; cases r <;> revert e <;> decide⟩,
   by decide⟩

theorem witness_UnitFirings :
    (dev.live = true ∧
     dev.offer 0 (8 + 0) (laneCode (Lane.plane 2)) = none) ∧
    ((dev.setOffer 0 8 2 tokC).live = true ∧
     (dev.setOffer 0 8 2 tokC).offer 0 (8 + 0) (laneCode (Lane.plane 2)) = some tokC ∧
     destError (laneNet (laneCode (Lane.plane 2))) tokC = some 4) ∧
    ((dev.setOffer 0 8 2 tokD).live = true ∧
     (dev.setOffer 0 8 2 tokD).offer 0 (8 + 0) (laneCode (Lane.plane 2)) = some tokD ∧
     destError (laneNet (laneCode (Lane.plane 2))) tokD = none ∧
     (laneNet (laneCode (Lane.plane 2)) ≠ 2 ∨ tokD.chan ≠ 255) ∧
     ((dev.setOffer 0 8 2 tokD).unit 0 0).placeOf tokD.job (laneNet (laneCode (Lane.plane 2))) tokD.chan = none) ∧
    (((withU 0 ((unitA recA).setQueue 0 (List.replicate 16 tokD))).setOffer 0 8 2 tokD).live = true ∧
     ((withU 0 ((unitA recA).setQueue 0 (List.replicate 16 tokD))).setOffer 0 8 2 tokD).offer 0 (8 + 0) (laneCode (Lane.plane 2)) = some tokD ∧
     destError (laneNet (laneCode (Lane.plane 2))) tokD = none ∧
     (laneNet (laneCode (Lane.plane 2)) ≠ 2 ∨ tokD.chan ≠ 255) ∧
     (((withU 0 ((unitA recA).setQueue 0 (List.replicate 16 tokD))).setOffer 0 8 2 tokD).unit 0 0).placeOf tokD.job (laneNet (laneCode (Lane.plane 2))) tokD.chan = some (0, 0) ∧
     16 ≤ ((((withU 0 ((unitA recA).setQueue 0 (List.replicate 16 tokD))).setOffer 0 8 2 tokD).unit 0 0).queue 0).length) ∧
    (((withU 0 (unitA recA)).setOffer 0 8 2 tokD).live = true ∧
     ((withU 0 (unitA recA)).setOffer 0 8 2 tokD).offer 0 (8 + 0) (laneCode (Lane.plane 2)) = some tokD ∧
     destError (laneNet (laneCode (Lane.plane 2))) tokD = none ∧
     (laneNet (laneCode (Lane.plane 2)) ≠ 2 ∨ tokD.chan ≠ 255) ∧
     (((withU 0 (unitA recA)).setOffer 0 8 2 tokD).unit 0 0).placeOf tokD.job (laneNet (laneCode (Lane.plane 2))) tokD.chan = some (0, 0) ∧
     ((((withU 0 (unitA recA)).setOffer 0 8 2 tokD).unit 0 0).queue 0).length < 16 ∧
     (((withU 0 (unitA recA)).setOffer 0 8 2 tokD).unit 0 0).firing = none) ∧
    (uNew.live = true ∧
     0 < 20 ∧
     (uNew.unit 0 0).active = some 0 ∧
     (uNew.unit 0 0).activeRec = some recA ∧
     (uNew.unit 0 0).leaving = false ∧
     (uNew.unit 0 0).firing = none ∧
     (∀ (p : Nat) (h : Token) (rest : List Token), p < 4 → (uNew.unit 0 0).queue p = h :: rest → (uNew.unit 0 0).activePos h p = true) ∧
     (uNew.unit 0 0).choose false = some (1, 3, [0]) ∧
     ((uNew.unit 0 0).fire 0 1 3 [0]).firing = some fNew ∧
     fNew.whole = false) ∧
    ((withU 0 (unitA recA)).live = true ∧
     0 < 20 ∧
     ((withU 0 (unitA recA)).unit 0 0).active = some 0 ∧
     ((withU 0 (unitA recA)).unit 0 0).activeRec = some recA ∧
     ((withU 0 (unitA recA)).unit 0 0).leaving = false ∧
     ((withU 0 (unitA recA)).unit 0 0).firing = none ∧
     (∀ (p : Nat) (h : Token) (rest : List Token), p < 4 → ((withU 0 (unitA recA)).unit 0 0).queue p = h :: rest → ((withU 0 (unitA recA)).unit 0 0).activePos h p = true) ∧
     ((withU 0 (unitA recA)).unit 0 0).choose false = none ∧
     0 ∈ ((withU 0 (unitA recA)).unit 0 0).positions ∧
     ((withU 0 (unitA recA)).unit 0 0).queue 0 = []) ∧
    (uTwo.live = true ∧
     0 < 20 ∧
     (uTwo.unit 0 0).active = some 0 ∧
     (uTwo.unit 0 0).activeRec = some recB ∧
     (uTwo.unit 0 0).leaving = false ∧
     (uTwo.unit 0 0).firing = none ∧
     (∀ (p : Nat) (h : Token) (rest : List Token), p < 4 → (uTwo.unit 0 0).queue p = h :: rest → (uTwo.unit 0 0).activePos h p = true) ∧
     (uTwo.unit 0 0).choose false = none ∧
     (∀ (q : Nat), q ∈ (uTwo.unit 0 0).positions → (uTwo.unit 0 0).queue q ≠ []) ∧
     (uTwo.unit 0 0).latest = some 1 ∧
     (uTwo.unit 0 0).queue 1 = [tok6] ∧
     (uTwo.unit 0 0).tags.length < 64) ∧
    (dev.live = true ∧
     (dev.unit 0 0).firing = none) ∧
    ((uFiring recA fData).live = true ∧
     ((uFiring recA fData).unit 0 0).firing = some fData ∧
     fData.formed = false) ∧
    ((uFiring recA fDone).live = true ∧
     ((uFiring recA fDone).unit 0 0).firing = some fDone ∧
     fDone.formed = true ∧
     ((uFiring recA fDone).unit 0 0).outbox = [] ∧
     ((uFiring recA fDone).unit 0 0).memWait = 0 ∧
     ((uFiring recA fDone).unit 0 0).endWait = none ∧
     ((uFiring recA fDone).unit 0 0).active = some 0 ∧
     (((uFiring recA fDone).unit 0 0).slot 0).record = some recA ∧
     ((uFiring recA fDone).unit 0 0).leaving = false ∧
     (recA.quota = 0 ∨ recA.perIter = false ∧ (((uFiring recA fDone).unit 0 0).slot 0).fired + 1 ≠ recA.quota * ((uFiring recA fDone).unit 0 0).iters 0)) ∧
    ((uFiring recA fMark).live = true ∧
     ((uFiring recA fMark).unit 0 0).firing = some fMark ∧
     fMark.formed = false ∧
     fMark.whole = true ∧
     ((uFiring recA fMark).unit 0 0).activeRec = some recA ∧
     fMark.isMark = true) ∧
    ((uFiring recM fData).live = true ∧
     ((uFiring recM fData).unit 0 0).firing = some fData ∧
     fData.formed = false ∧
     fData.whole = true ∧
     ((uFiring recM fData).unit 0 0).activeRec = some recM ∧
     fData.isMark = false ∧
     (muPlan recM.body (((uFiring recM fData).unit 0 0).activeSet_ 0 recM).fst (((uFiring recM fData).unit 0 0).activeSet_ 0 recM).snd).empty = false ∧
     (∃ e, e ∈ ((uFiring recM fData).unit 0 0).pendingTiles ∧ e < ((muPlan recM.body (((uFiring recM fData).unit 0 0).activeSet_ 0 recM).fst (((uFiring recM fData).unit 0 0).activeSet_ 0 recM).snd).accBase + if ((muPlan recM.body (((uFiring recM fData).unit 0 0).activeSet_ 0 recM).fst (((uFiring recM fData).unit 0 0).activeSet_ 0 recM).snd).alt && ((uFiring recM fData).unit 0 0).altSecond) = true then (muPlan recM.body (((uFiring recM fData).unit 0 0).activeSet_ 0 recM).fst (((uFiring recM fData).unit 0 0).activeSet_ 0 recM).snd).region else 0) + (muPlan recM.body (((uFiring recM fData).unit 0 0).activeSet_ 0 recM).fst (((uFiring recM fData).unit 0 0).activeSet_ 0 recM).snd).region ∧ ((muPlan recM.body (((uFiring recM fData).unit 0 0).activeSet_ 0 recM).fst (((uFiring recM fData).unit 0 0).activeSet_ 0 recM).snd).accBase + if ((muPlan recM.body (((uFiring recM fData).unit 0 0).activeSet_ 0 recM).fst (((uFiring recM fData).unit 0 0).activeSet_ 0 recM).snd).alt && ((uFiring recM fData).unit 0 0).altSecond) = true then (muPlan recM.body (((uFiring recM fData).unit 0 0).activeSet_ 0 recM).fst (((uFiring recM fData).unit 0 0).activeSet_ 0 recM).snd).region else 0) < e + 1024)) ∧
    (uFree.live = true ∧
     (uFree.unit 0 0).firing = some fData ∧
     fData.formed = false ∧
     fData.whole = true ∧
     (uFree.unit 0 0).activeRec = some recM ∧
     fData.isMark = false ∧
     (muPlan recM.body ((uFree.unit 0 0).activeSet_ 0 recM).fst ((uFree.unit 0 0).activeSet_ 0 recM).snd).empty = false ∧
     (∀ (e : Nat), e ∈ (uFree.unit 0 0).pendingTiles → ((muPlan recM.body ((uFree.unit 0 0).activeSet_ 0 recM).fst ((uFree.unit 0 0).activeSet_ 0 recM).snd).accBase + if ((muPlan recM.body ((uFree.unit 0 0).activeSet_ 0 recM).fst ((uFree.unit 0 0).activeSet_ 0 recM).snd).alt && (uFree.unit 0 0).altSecond) = true then (muPlan recM.body ((uFree.unit 0 0).activeSet_ 0 recM).fst ((uFree.unit 0 0).activeSet_ 0 recM).snd).region else 0) + (muPlan recM.body ((uFree.unit 0 0).activeSet_ 0 recM).fst ((uFree.unit 0 0).activeSet_ 0 recM).snd).region ≤ e ∨ e + 1024 ≤ (muPlan recM.body ((uFree.unit 0 0).activeSet_ 0 recM).fst ((uFree.unit 0 0).activeSet_ 0 recM).snd).accBase + if ((muPlan recM.body ((uFree.unit 0 0).activeSet_ 0 recM).fst ((uFree.unit 0 0).activeSet_ 0 recM).snd).alt && (uFree.unit 0 0).altSecond) = true then (muPlan recM.body ((uFree.unit 0 0).activeSet_ 0 recM).fst ((uFree.unit 0 0).activeSet_ 0 recM).snd).region else 0)) ∧
    (dev.live = true ∧
     (dev.unit 0 (20 + 0)).ring = []) ∧
    ((uDelay true).live = true ∧
     ((uDelay true).unit 0 (20 + 0)).ring = [itemD true] ∧
     (itemD true).sent = true) ∧
    ((uDelay false).live = true ∧
     ((uDelay false).unit 0 (20 + 0)).ring = [itemD false] ∧
     (itemD false).sent = false ∧
     ((uDelay false).unit 0 (20 + 0)).activeRec = some recD ∧
     (uDelay false).partOfYard 0 = some 0 ∧
     0 < sumNat (List.map (fun x => x.fst) (itemD false).bursts) ∧
     (uDelay false).suPlace 0 0 ((uDelay false).activeRes 0 (20 + 0) ((uDelay false).unit 0 (20 + 0))) (suPlan recD.body (((uDelay false).unit 0 (20 + 0)).activeSet_ (20 + 0) recD).fst (((uDelay false).unit 0 (20 + 0)).activeSet_ (20 + 0) recD).snd).space ((suPlan recD.body (((uDelay false).unit 0 (20 + 0)).activeSet_ (20 + 0) recD).fst (((uDelay false).unit 0 (20 + 0)).activeSet_ (20 + 0) recD).snd).base + (itemD false).pos * (suPlan recD.body (((uDelay false).unit 0 (20 + 0)).activeSet_ (20 + 0) recD).fst (((uDelay false).unit 0 (20 + 0)).activeSet_ (20 + 0) recD).snd).burstStride) (64 * sumNat (List.map (fun x => x.fst) (itemD false).bursts)) = SuPlace.hbm [(16384, 64)] ∧
     [(16384, 64)] ≠ []) := 
  ⟨by decide,
   by decide,
   by decide,
   by decide,
   by decide,
   ⟨by decide, by decide, by decide, by decide, by decide, by decide, heads_ok _ _ (by decide), by decide, by decide, by decide⟩,
   ⟨by decide, by decide, by decide, by decide, by decide, by decide, heads_ok _ _ (by decide), by decide, by decide, by decide⟩,
   ⟨by decide, by decide, by decide, by decide, by decide, by decide, heads_ok _ _ (by decide), by decide, by decide, by decide, by decide, by decide⟩,
   by decide,
   by decide,
   by decide,
   by decide,
   by decide,
   by decide,
   by decide,
   by decide,
   by decide⟩

theorem witness_SteeringUnits :
    ((uSteer (recS 0) 0 []).live = true ∧
     ((uSteer (recS 0) 0 []).unit 0 (22 + 0)).firing = some fSel ∧
     ((uSteer (recS 0) 0 []).unit 0 (22 + 0)).activeRec = some (recS 0) ∧
     ((uSteer (recS 0) 0 []).unit 0 (22 + 0)).heldSelect = some (selC 0) ∧
     fSel.formed = false ∧
     stKind (recS 0).body ≠ 3 ∧
     (((uSteer (recS 0) 0 []).unit 0 (22 + 0)).pull fSel.job fSel.tag (if stKind (recS 0).body = 1 then selectV (selC 0) else 0) = none)) ∧
    ((uSteer (recO 0) 0 [tokD]).live = true ∧
     ((uSteer (recO 0) 0 [tokD]).unit 0 (22 + 0)).firing = some fSel ∧
     ((uSteer (recO 0) 0 [tokD]).unit 0 (22 + 0)).activeRec = some (recO 0) ∧
     ((uSteer (recO 0) 0 [tokD]).unit 0 (22 + 0)).heldSelect = some (selC 0) ∧
     fSel.formed = false ∧
     stKind (recO 0).body ≠ 3 ∧
     (((uSteer (recO 0) 0 [tokD]).unit 0 (22 + 0)).pull fSel.job fSel.tag (if stKind (recO 0).body = 1 then selectV (selC 0) else 0) = some (tokD, xGone (recO 0) 0)) ∧
     (tokD.last = true ∨ (xGone (recO 0) 0).pull fSel.job fSel.tag (if stKind (recO 0).body = 1 then selectV (selC 0) else 0) = none) ∧
     (stKind (recO 0).body ≠ 2 ∨ selectV (selC 0) = 1) ∧
     (bindValid (bindOut (recO 0).body (if stKind (recO 0).body = 0 then selectV (selC 0) else 0)) = true) ∧
     (((uSteer (recO 0) 0 [tokD]).inQueue 0 (8 + (22 + 0)) (outLane (bindNet (bindOut (recO 0).body (if stKind (recO 0).body = 0 then selectV (selC 0) else 0))) (if stKind (recO 0).body = 0 then selectV (selC 0) else 0))).length < 16) ∧
     (∀ (k : OutTok), k ∈ ((uSteer (recO 0) 0 [tokD]).unit 0 (22 + 0)).outbox → laneCode k.lane ≠ outLane (bindNet (bindOut (recO 0).body (if stKind (recO 0).body = 0 then selectV (selC 0) else 0))) (if stKind (recO 0).body = 0 then selectV (selC 0) else 0))) ∧
    ((fullO (uSteer (recO 0) 0 [tokD])).live = true ∧
     ((fullO (uSteer (recO 0) 0 [tokD])).unit 0 (22 + 0)).firing = some fSel ∧
     ((fullO (uSteer (recO 0) 0 [tokD])).unit 0 (22 + 0)).activeRec = some (recO 0) ∧
     ((fullO (uSteer (recO 0) 0 [tokD])).unit 0 (22 + 0)).heldSelect = some (selC 0) ∧
     fSel.formed = false ∧
     stKind (recO 0).body ≠ 3 ∧
     (((fullO (uSteer (recO 0) 0 [tokD])).unit 0 (22 + 0)).pull fSel.job fSel.tag (if stKind (recO 0).body = 1 then selectV (selC 0) else 0) = some (tokD, xGone (recO 0) 0)) ∧
     (tokD.last = true ∨ (xGone (recO 0) 0).pull fSel.job fSel.tag (if stKind (recO 0).body = 1 then selectV (selC 0) else 0) = none) ∧
     (stKind (recO 0).body ≠ 2 ∨ selectV (selC 0) = 1) ∧
     (16 ≤ ((fullO (uSteer (recO 0) 0 [tokD])).inQueue 0 (8 + (22 + 0)) (outLane (bindNet (bindOut (recO 0).body (if stKind (recO 0).body = 0 then selectV (selC 0) else 0))) (if stKind (recO 0).body = 0 then selectV (selC 0) else 0))).length)) ∧
    ((uSteer (recO 2) 0 [tokD]).live = true ∧
     ((uSteer (recO 2) 0 [tokD]).unit 0 (22 + 0)).firing = some fSel ∧
     ((uSteer (recO 2) 0 [tokD]).unit 0 (22 + 0)).activeRec = some (recO 2) ∧
     ((uSteer (recO 2) 0 [tokD]).unit 0 (22 + 0)).heldSelect = some (selC 0) ∧
     fSel.formed = false ∧
     stKind (recO 2).body ≠ 3 ∧
     (((uSteer (recO 2) 0 [tokD]).unit 0 (22 + 0)).pull fSel.job fSel.tag (if stKind (recO 2).body = 1 then selectV (selC 0) else 0) = some (tokD, xGone (recO 2) 0)) ∧
     (tokD.last = true ∨ (xGone (recO 2) 0).pull fSel.job fSel.tag (if stKind (recO 2).body = 1 then selectV (selC 0) else 0) = none) ∧
     stKind (recO 2).body = 2 ∧
     selectV (selC 0) = 0) ∧
    (dev.live = true ∧
     (dev.unit 0 (22 + 0)).firing = none) ∧
    (uCount.live = true ∧
     (uCount.unit 0 (22 + 0)).firing = none ∧
     (uCount.unit 0 (22 + 0)).active = some 0 ∧
     (uCount.unit 0 (22 + 0)).activeRec = some (recO 3) ∧
     stKind (recO 3).body = 3 ∧
     (uCount.unit 0 (22 + 0)).leaving = false ∧
     (∀ (p : Nat) (h : Token) (rest : List Token), p < 4 → (uCount.unit 0 (22 + 0)).queue p = h :: rest → (uCount.unit 0 (22 + 0)).activePos h p = true) ∧
     (uCount.unit 0 (22 + 0)).choose true = none) ∧
    ((uTick [cntE 1]).live = true ∧
     ((uTick [cntE 1]).unit 0 (22 + 0)).firing = none ∧
     ((uTick [cntE 1]).unit 0 (22 + 0)).active = some 0 ∧
     ((uTick [cntE 1]).unit 0 (22 + 0)).activeRec = some (recO 3) ∧
     stKind (recO 3).body = 3 ∧
     ((uTick [cntE 1]).unit 0 (22 + 0)).leaving = false ∧
     (∀ (p : Nat) (h : Token) (rest : List Token), p < 4 → ((uTick [cntE 1]).unit 0 (22 + 0)).queue p = h :: rest → ((uTick [cntE 1]).unit 0 (22 + 0)).activePos h p = true) ∧
     ((uTick [cntE 1]).unit 0 (22 + 0)).choose true = some (1, 3, [0]) ∧
     ((uTick [cntE 1]).unit 0 (22 + 0)).pull 1 3 0 = some (tokD, xTick [cntE 1]) ∧
     [0].contains 1 = false ∧
     ((List.find? (fun e => e.count && e.tok.job == 1 && e.tok.tag == 3) (xTick [cntE 1]).tags).isSome = true ∨ ((uTick [cntE 1]).unit 0 (22 + 0)).tags.length < 64) ∧
     (xTick [cntE 1]).outbox = [] ∧
     bindValid (bindOut (recO 3).body 0) = true ∧
     ((uTick [cntE 1]).inQueue 0 (8 + (22 + 0)) (outLane (bindNet (bindOut (recO 3).body 0)) 0)).length < 16) ∧
    ((uTick [cntE 4]).live = true ∧
     ((uTick [cntE 4]).unit 0 (22 + 0)).firing = none ∧
     ((uTick [cntE 4]).unit 0 (22 + 0)).active = some 0 ∧
     ((uTick [cntE 4]).unit 0 (22 + 0)).activeRec = some (recO 3) ∧
     stKind (recO 3).body = 3 ∧
     ((uTick [cntE 4]).unit 0 (22 + 0)).leaving = false ∧
     (∀ (p : Nat) (h : Token) (rest : List Token), p < 4 → ((uTick [cntE 4]).unit 0 (22 + 0)).queue p = h :: rest → ((uTick [cntE 4]).unit 0 (22 + 0)).activePos h p = true) ∧
     ((uTick [cntE 4]).unit 0 (22 + 0)).choose true = some (1, 3, [0]) ∧
     ((uTick [cntE 4]).unit 0 (22 + 0)).pull 1 3 0 = some (tokD, xTick [cntE 4]) ∧
     [0].contains 1 = false ∧
     ((List.find? (fun e => e.count && e.tok.job == 1 && e.tok.tag == 3) (xTick [cntE 4]).tags).isSome = true ∨ ((uTick [cntE 4]).unit 0 (22 + 0)).tags.length < 64) ∧
     (if stMode (recO 3).body = 2 then tokD.last = true else (Option.map (fun x => x.limit) (List.find? (fun e => e.count && e.tok.job == 1 && e.tok.tag == 3) (xTick [cntE 4]).tags)).getD (stLimit (recO 3).body) ≤ (Option.map (fun x => x.k) (List.find? (fun e => e.count && e.tok.job == 1 && e.tok.tag == 3) (xTick [cntE 4]).tags)).getD 0)) ∧
    ((uTick [cntE 1]).live = true ∧
     ((uTick [cntE 1]).unit 0 (22 + 0)).firing = none ∧
     ((uTick [cntE 1]).unit 0 (22 + 0)).active = some 0 ∧
     ((uTick [cntE 1]).unit 0 (22 + 0)).activeRec = some (recO 3) ∧
     stKind (recO 3).body = 3 ∧
     ((uTick [cntE 1]).unit 0 (22 + 0)).leaving = false ∧
     (∀ (p : Nat) (h : Token) (rest : List Token), p < 4 → ((uTick [cntE 1]).unit 0 (22 + 0)).queue p = h :: rest → ((uTick [cntE 1]).unit 0 (22 + 0)).activePos h p = true) ∧
     ((uTick [cntE 1]).unit 0 (22 + 0)).choose true = some (1, 3, [0]) ∧
     ((uTick [cntE 1]).unit 0 (22 + 0)).pull 1 3 0 = some (tokD, xTick [cntE 1]) ∧
     [0].contains 1 = false ∧
     ((List.find? (fun e => e.count && e.tok.job == 1 && e.tok.tag == 3) (xTick [cntE 1]).tags).isSome = true ∨ ((uTick [cntE 1]).unit 0 (22 + 0)).tags.length < 64) ∧
     (¬if stMode (recO 3).body = 2 then tokD.last = true else (Option.map (fun x => x.limit) (List.find? (fun e => e.count && e.tok.job == 1 && e.tok.tag == 3) (xTick [cntE 1]).tags)).getD (stLimit (recO 3).body) ≤ (Option.map (fun x => x.k) (List.find? (fun e => e.count && e.tok.job == 1 && e.tok.tag == 3) (xTick [cntE 1]).tags)).getD 0) ∧
     List.find? (fun e => e.count && e.tok.job == 1 && e.tok.tag == 3) (xTick [cntE 1]).tags = some (cntE 1)) ∧
    ((uTick []).live = true ∧
     ((uTick []).unit 0 (22 + 0)).firing = none ∧
     ((uTick []).unit 0 (22 + 0)).active = some 0 ∧
     ((uTick []).unit 0 (22 + 0)).activeRec = some (recO 3) ∧
     stKind (recO 3).body = 3 ∧
     ((uTick []).unit 0 (22 + 0)).leaving = false ∧
     (∀ (p : Nat) (h : Token) (rest : List Token), p < 4 → ((uTick []).unit 0 (22 + 0)).queue p = h :: rest → ((uTick []).unit 0 (22 + 0)).activePos h p = true) ∧
     ((uTick []).unit 0 (22 + 0)).choose true = some (1, 3, [0]) ∧
     ((uTick []).unit 0 (22 + 0)).pull 1 3 0 = some (tokD, xTick []) ∧
     [0].contains 1 = false ∧
     ((List.find? (fun e => e.count && e.tok.job == 1 && e.tok.tag == 3) (xTick []).tags).isSome = true ∨ ((uTick []).unit 0 (22 + 0)).tags.length < 64) ∧
     (¬if stMode (recO 3).body = 2 then tokD.last = true else (Option.map (fun x => x.limit) (List.find? (fun e => e.count && e.tok.job == 1 && e.tok.tag == 3) (xTick []).tags)).getD (stLimit (recO 3).body) ≤ (Option.map (fun x => x.k) (List.find? (fun e => e.count && e.tok.job == 1 && e.tok.tag == 3) (xTick []).tags)).getD 0) ∧
     List.find? (fun e => e.count && e.tok.job == 1 && e.tok.tag == 3) (xTick []).tags = none) := 
  ⟨by decide,
   by decide,
   by decide,
   by decide,
   by decide,
   ⟨by decide, by decide, by decide, by decide, by decide, by decide, heads_ok _ _ (by decide), by decide⟩,
   ⟨by decide, by decide, by decide, by decide, by decide, by decide, heads_ok _ _ (by decide), by decide, by decide, by decide, by decide, by decide, by decide, by decide⟩,
   ⟨by decide, by decide, by decide, by decide, by decide, by decide, heads_ok _ _ (by decide), by decide, by decide, by decide, by decide, by decide⟩,
   ⟨by decide, by decide, by decide, by decide, by decide, by decide, heads_ok _ _ (by decide), by decide, by decide, by decide, by decide, by decide, by decide⟩,
   ⟨by decide, by decide, by decide, by decide, by decide, by decide, heads_ok _ _ (by decide), by decide, by decide, by decide, by decide, by decide, by decide⟩⟩

theorem witness_StreamedRecords :
    (dev.live = true ∧
     dev.ctrlOffer 0 0 16 = none) ∧
    (dev.live = true ∧
     dev.ctrlOffer 0 0 17 = none) ∧
    (dev.live = true ∧
     dev.ctrlOffer 0 0 18 = none) ∧
    ((ctlU (unitA recA) 16 196608).live = true ∧
     (ctlU (unitA recA) 16 196608).ctrlOffer 0 0 16 = some (ctrlTok 1 3 255 16 196608) ∧
     ((ctlU (unitA recA) 16 196608).unit 0 0).reef = none ∧
     (((ctlU (unitA recA) 16 196608).unit 0 0).slot ((ctrlTok 1 3 255 16 196608).operand % 8)).ownedBy (ctrlTok 1 3 255 16 196608).job = true ∧
     ((((ctlU (unitA recA) 16 196608).unit 0 0).slot ((ctrlTok 1 3 255 16 196608).operand % 8)).live = true ∨ ((ctlU (unitA recA) 16 196608).unit 0 0).active = some ((ctrlTok 1 3 255 16 196608).operand % 8))) ∧
    ((ctlU slotFree 16 196609).live = true ∧
     (ctlU slotFree 16 196609).ctrlOffer 0 0 16 = some (ctrlTok 1 3 255 16 196609) ∧
     ((ctlU slotFree 16 196609).unit 0 0).reef = none ∧
     (((ctlU slotFree 16 196609).unit 0 0).slot ((ctrlTok 1 3 255 16 196609).operand % 8)).ownedBy (ctrlTok 1 3 255 16 196609).job = true ∧
     (((ctlU slotFree 16 196609).unit 0 0).slot ((ctrlTok 1 3 255 16 196609).operand % 8)).live = false ∧
     ((ctlU slotFree 16 196609).unit 0 0).active ≠ some ((ctrlTok 1 3 255 16 196609).operand % 8)) ∧
    ((ctlU (reefIn 1 [] false) 17 258).live = true ∧
     (ctlU (reefIn 1 [] false) 17 258).ctrlOffer 0 0 17 = some (ctrlTok 1 3 255 17 258) ∧
     ((ctlU (reefIn 1 [] false) 17 258).unit 0 0).reef = some { slot := 1, job := 1, left := 1, bytes := [], discard := false : ReefIn } ∧
     0 < { slot := 1, job := 1, left := 1, bytes := [], discard := false : ReefIn }.left) ∧
    ((ctlU (reefIn 1 [] true) 18 0).live = true ∧
     (ctlU (reefIn 1 [] true) 18 0).ctrlOffer 0 0 18 = some (ctrlTok 1 3 255 18 0) ∧
     ((ctlU (reefIn 1 [] true) 18 0).unit 0 0).reef = some { slot := 1, job := 1, left := 1, bytes := [], discard := true : ReefIn } ∧
     { slot := 1, job := 1, left := 1, bytes := [], discard := true : ReefIn }.discard = true) ∧
    ((closeD (crc32c recBytes)).live = true ∧
     (closeD (crc32c recBytes)).ctrlOffer 0 0 18 = some (ctrlTok 1 3 255 18 (crc32c recBytes)) ∧
     ((closeD (crc32c recBytes)).unit 0 0).reef = some { slot := 1, job := 1, left := 0, bytes := recBytes, discard := false : ReefIn } ∧
     { slot := 1, job := 1, left := 0, bytes := recBytes, discard := false : ReefIn }.discard = false ∧
     { slot := 1, job := 1, left := 0, bytes := recBytes, discard := false : ReefIn }.left = 0 ∧
     ((closeD (crc32c recBytes)).unit 0 0).activating = none ∧
     ((closeD (crc32c recBytes)).unit 0 0).leaving = false ∧
     crc32c (List.take (16 + (parseCfg { slot := 1, job := 1, left := 0, bytes := recBytes, discard := false : ReefIn }.bytes).bodyLen) { slot := 1, job := 1, left := 0, bytes := recBytes, discard := false : ReefIn }.bytes) = (ctrlTok 1 3 255 18 (crc32c recBytes)).operand % 2 ^ 32) ∧
    ((closeD 0).live = true ∧
     (closeD 0).ctrlOffer 0 0 18 = some (ctrlTok 1 3 255 18 0) ∧
     ((closeD 0).unit 0 0).reef = some { slot := 1, job := 1, left := 0, bytes := recBytes, discard := false : ReefIn } ∧
     { slot := 1, job := 1, left := 0, bytes := recBytes, discard := false : ReefIn }.discard = false ∧
     { slot := 1, job := 1, left := 0, bytes := recBytes, discard := false : ReefIn }.left = 0 ∧
     ((closeD 0).unit 0 0).activating = none ∧
     ((closeD 0).unit 0 0).leaving = false ∧
     crc32c (List.take (16 + (parseCfg { slot := 1, job := 1, left := 0, bytes := recBytes, discard := false : ReefIn }.bytes).bodyLen) { slot := 1, job := 1, left := 0, bytes := recBytes, discard := false : ReefIn }.bytes) ≠ (ctrlTok 1 3 255 18 0).operand % 2 ^ 32) := by
  refine ⟨?_, ?_, ?_, ?_, ?_, ?_, ?_, ?_, ?_⟩ <;> decide

theorem witness_SectionControlTokens :
    (dev.live = true ∧
     dev.ctrlOffer 0 0 19 = none) ∧
    (dev.live = true ∧
     dev.ctrlOffer 0 0 20 = none) ∧
    ((ctl 19 8589934593).live = true ∧
     (ctl 19 8589934593).ctrlOffer 0 0 19 = some (ctrlTok 1 3 255 19 8589934593) ∧
     (∀ (k : Nat), k < 8 → (ctl 19 8589934593).slotServes 0 0 k (ctrlTok 1 3 255 19 8589934593).job (bits (ctrlTok 1 3 255 19 8589934593).operand 47 32) = none)) ∧
    ((ctlU (secU none) 19 8589934593).live = true ∧
     (ctlU (secU none) 19 8589934593).ctrlOffer 0 0 19 = some (ctrlTok 1 3 255 19 8589934593) ∧
     0 < 8 ∧
     (ctlU (secU none) 19 8589934593).slotServes 0 0 0 (ctrlTok 1 3 255 19 8589934593).job (bits (ctrlTok 1 3 255 19 8589934593).operand 47 32) = some recA ∧
     (∀ (k : Nat), k < 8 → k ≠ 0 → (ctlU (secU none) 19 8589934593).slotServes 0 0 k (ctrlTok 1 3 255 19 8589934593).job (bits (ctrlTok 1 3 255 19 8589934593).operand 47 32) = none) ∧
     (((ctlU (secU none) 19 8589934593).unit 0 0).slot 0).record = some recA ∧
     recA.entry = true ∧
     recA.quota = 0 ∧
     ((ctlU (secU none) 19 8589934593).unit 0 0).pend = none ∧
     ((ctlU (secU none) 19 8589934593).unit 0 0).leaving = false ∧
     ((ctlU (secU none) 19 8589934593).unit 0 0).active = none ∧
     ((ctlU (secU none) 19 8589934593).unit 0 0).activating = none) ∧
    ((ctlU (secU (some 2)) 19 8589934593).live = true ∧
     (ctlU (secU (some 2)) 19 8589934593).ctrlOffer 0 0 19 = some (ctrlTok 1 3 255 19 8589934593) ∧
     0 < 8 ∧
     (ctlU (secU (some 2)) 19 8589934593).slotServes 0 0 0 (ctrlTok 1 3 255 19 8589934593).job (bits (ctrlTok 1 3 255 19 8589934593).operand 47 32) = some recA ∧
     (∀ (k : Nat), k < 8 → k ≠ 0 → (ctlU (secU (some 2)) 19 8589934593).slotServes 0 0 k (ctrlTok 1 3 255 19 8589934593).job (bits (ctrlTok 1 3 255 19 8589934593).operand 47 32) = none) ∧
     (((ctlU (secU (some 2)) 19 8589934593).unit 0 0).slot 0).record = some recA ∧
     recA.entry = true ∧
     recA.quota = 0 ∧
     ((ctlU (secU (some 2)) 19 8589934593).unit 0 0).pend = none ∧
     ((ctlU (secU (some 2)) 19 8589934593).unit 0 0).leaving = false ∧
     ((ctlU (secU (some 2)) 19 8589934593).unit 0 0).active = some 2) ∧
    ((ctlU liveU 20 8589934592).live = true ∧
     (ctlU liveU 20 8589934592).ctrlOffer 0 0 20 = some endT ∧
     ((ctlU liveU 20 8589934592).unit 0 0).firing = none ∧
     ((ctlU liveU 20 8589934592).unit 0 0).active = none ∧
     ((ctlU liveU 20 8589934592).unit 0 0).activating = none) ∧
    ((ctlU { slots := liveU.slots, active := some 0, pend := liveU.pend, activating := liveU.activating, secs := liveU.secs, queues := liveU.queues, tags := liveU.tags, firing := liveU.firing, outbox := liveU.outbox, endWait := liveU.endWait, reef := liveU.reef, lastTag := liveU.lastTag, drops := liveU.drops, altSecond := liveU.altSecond, pendingTiles := liveU.pendingTiles, ring := liveU.ring, ringNext := liveU.ringNext, ringWait := liveU.ringWait, memWait := liveU.memWait, epoch := liveU.epoch, heldSelect := liveU.heldSelect, leaving := liveU.leaving : UnitState } 20 8589934592).live = true ∧
     (ctlU { slots := liveU.slots, active := some 0, pend := liveU.pend, activating := liveU.activating, secs := liveU.secs, queues := liveU.queues, tags := liveU.tags, firing := liveU.firing, outbox := liveU.outbox, endWait := liveU.endWait, reef := liveU.reef, lastTag := liveU.lastTag, drops := liveU.drops, altSecond := liveU.altSecond, pendingTiles := liveU.pendingTiles, ring := liveU.ring, ringNext := liveU.ringNext, ringWait := liveU.ringWait, memWait := liveU.memWait, epoch := liveU.epoch, heldSelect := liveU.heldSelect, leaving := liveU.leaving : UnitState } 20 8589934592).ctrlOffer 0 0 20 = some endT ∧
     ((ctlU { slots := liveU.slots, active := some 0, pend := liveU.pend, activating := liveU.activating, secs := liveU.secs, queues := liveU.queues, tags := liveU.tags, firing := liveU.firing, outbox := liveU.outbox, endWait := liveU.endWait, reef := liveU.reef, lastTag := liveU.lastTag, drops := liveU.drops, altSecond := liveU.altSecond, pendingTiles := liveU.pendingTiles, ring := liveU.ring, ringNext := liveU.ringNext, ringWait := liveU.ringWait, memWait := liveU.memWait, epoch := liveU.epoch, heldSelect := liveU.heldSelect, leaving := liveU.leaving : UnitState } 20 8589934592).unit 0 0).active = some 0 ∧
     (((ctlU { slots := liveU.slots, active := some 0, pend := liveU.pend, activating := liveU.activating, secs := liveU.secs, queues := liveU.queues, tags := liveU.tags, firing := liveU.firing, outbox := liveU.outbox, endWait := liveU.endWait, reef := liveU.reef, lastTag := liveU.lastTag, drops := liveU.drops, altSecond := liveU.altSecond, pendingTiles := liveU.pendingTiles, ring := liveU.ring, ringNext := liveU.ringNext, ringWait := liveU.ringWait, memWait := liveU.memWait, epoch := liveU.epoch, heldSelect := liveU.heldSelect, leaving := liveU.leaving : UnitState } 20 8589934592).unit 0 0).slot 0).record = some recLast ∧
     (((ctlU { slots := liveU.slots, active := some 0, pend := liveU.pend, activating := liveU.activating, secs := liveU.secs, queues := liveU.queues, tags := liveU.tags, firing := liveU.firing, outbox := liveU.outbox, endWait := liveU.endWait, reef := liveU.reef, lastTag := liveU.lastTag, drops := liveU.drops, altSecond := liveU.altSecond, pendingTiles := liveU.pendingTiles, ring := liveU.ring, ringNext := liveU.ringNext, ringWait := liveU.ringWait, memWait := liveU.memWait, epoch := liveU.epoch, heldSelect := liveU.heldSelect, leaving := liveU.leaving : UnitState } 20 8589934592).unit 0 0).slot 0).sec = secKey endT.job (bits endT.operand 47 32) ∧
     ((ctlU { slots := liveU.slots, active := some 0, pend := liveU.pend, activating := liveU.activating, secs := liveU.secs, queues := liveU.queues, tags := liveU.tags, firing := liveU.firing, outbox := liveU.outbox, endWait := liveU.endWait, reef := liveU.reef, lastTag := liveU.lastTag, drops := liveU.drops, altSecond := liveU.altSecond, pendingTiles := liveU.pendingTiles, ring := liveU.ring, ringNext := liveU.ringNext, ringWait := liveU.ringWait, memWait := liveU.memWait, epoch := liveU.epoch, heldSelect := liveU.heldSelect, leaving := liveU.leaving : UnitState } 20 8589934592).unit 0 0).firing = none ∧
     ((ctlU { slots := liveU.slots, active := some 0, pend := liveU.pend, activating := liveU.activating, secs := liveU.secs, queues := liveU.queues, tags := liveU.tags, firing := liveU.firing, outbox := liveU.outbox, endWait := liveU.endWait, reef := liveU.reef, lastTag := liveU.lastTag, drops := liveU.drops, altSecond := liveU.altSecond, pendingTiles := liveU.pendingTiles, ring := liveU.ring, ringNext := liveU.ringNext, ringWait := liveU.ringWait, memWait := liveU.memWait, epoch := liveU.epoch, heldSelect := liveU.heldSelect, leaving := liveU.leaving : UnitState } 20 8589934592).unit 0 0).ring = [] ∧
     ((ctlU { slots := liveU.slots, active := some 0, pend := liveU.pend, activating := liveU.activating, secs := liveU.secs, queues := liveU.queues, tags := liveU.tags, firing := liveU.firing, outbox := liveU.outbox, endWait := liveU.endWait, reef := liveU.reef, lastTag := liveU.lastTag, drops := liveU.drops, altSecond := liveU.altSecond, pendingTiles := liveU.pendingTiles, ring := liveU.ring, ringNext := liveU.ringNext, ringWait := liveU.ringWait, memWait := liveU.memWait, epoch := liveU.epoch, heldSelect := liveU.heldSelect, leaving := liveU.leaving : UnitState } 20 8589934592).unit 0 0).pend = none ∧
     ((ctlU { slots := liveU.slots, active := some 0, pend := liveU.pend, activating := liveU.activating, secs := liveU.secs, queues := liveU.queues, tags := liveU.tags, firing := liveU.firing, outbox := liveU.outbox, endWait := liveU.endWait, reef := liveU.reef, lastTag := liveU.lastTag, drops := liveU.drops, altSecond := liveU.altSecond, pendingTiles := liveU.pendingTiles, ring := liveU.ring, ringNext := liveU.ringNext, ringWait := liveU.ringWait, memWait := liveU.memWait, epoch := liveU.epoch, heldSelect := liveU.heldSelect, leaving := liveU.leaving : UnitState } 20 8589934592).unit 0 0).activating = none ∧
     recLast.next = 255) ∧
    ((ctlU { slots := liveU.slots, active := some 0, pend := liveU.pend, activating := liveU.activating, secs := liveU.secs, queues := liveU.queues, tags := liveU.tags, firing := some fData, outbox := liveU.outbox, endWait := liveU.endWait, reef := liveU.reef, lastTag := liveU.lastTag, drops := liveU.drops, altSecond := liveU.altSecond, pendingTiles := liveU.pendingTiles, ring := liveU.ring, ringNext := liveU.ringNext, ringWait := liveU.ringWait, memWait := liveU.memWait, epoch := liveU.epoch, heldSelect := liveU.heldSelect, leaving := liveU.leaving : UnitState } 20 8589934592).live = true ∧
     (ctlU { slots := liveU.slots, active := some 0, pend := liveU.pend, activating := liveU.activating, secs := liveU.secs, queues := liveU.queues, tags := liveU.tags, firing := some fData, outbox := liveU.outbox, endWait := liveU.endWait, reef := liveU.reef, lastTag := liveU.lastTag, drops := liveU.drops, altSecond := liveU.altSecond, pendingTiles := liveU.pendingTiles, ring := liveU.ring, ringNext := liveU.ringNext, ringWait := liveU.ringWait, memWait := liveU.memWait, epoch := liveU.epoch, heldSelect := liveU.heldSelect, leaving := liveU.leaving : UnitState } 20 8589934592).ctrlOffer 0 0 20 = some endT ∧
     ((ctlU { slots := liveU.slots, active := some 0, pend := liveU.pend, activating := liveU.activating, secs := liveU.secs, queues := liveU.queues, tags := liveU.tags, firing := some fData, outbox := liveU.outbox, endWait := liveU.endWait, reef := liveU.reef, lastTag := liveU.lastTag, drops := liveU.drops, altSecond := liveU.altSecond, pendingTiles := liveU.pendingTiles, ring := liveU.ring, ringNext := liveU.ringNext, ringWait := liveU.ringWait, memWait := liveU.memWait, epoch := liveU.epoch, heldSelect := liveU.heldSelect, leaving := liveU.leaving : UnitState } 20 8589934592).unit 0 0).active = some 0 ∧
     (((ctlU { slots := liveU.slots, active := some 0, pend := liveU.pend, activating := liveU.activating, secs := liveU.secs, queues := liveU.queues, tags := liveU.tags, firing := some fData, outbox := liveU.outbox, endWait := liveU.endWait, reef := liveU.reef, lastTag := liveU.lastTag, drops := liveU.drops, altSecond := liveU.altSecond, pendingTiles := liveU.pendingTiles, ring := liveU.ring, ringNext := liveU.ringNext, ringWait := liveU.ringWait, memWait := liveU.memWait, epoch := liveU.epoch, heldSelect := liveU.heldSelect, leaving := liveU.leaving : UnitState } 20 8589934592).unit 0 0).slot 0).record = some recLast ∧
     (((ctlU { slots := liveU.slots, active := some 0, pend := liveU.pend, activating := liveU.activating, secs := liveU.secs, queues := liveU.queues, tags := liveU.tags, firing := some fData, outbox := liveU.outbox, endWait := liveU.endWait, reef := liveU.reef, lastTag := liveU.lastTag, drops := liveU.drops, altSecond := liveU.altSecond, pendingTiles := liveU.pendingTiles, ring := liveU.ring, ringNext := liveU.ringNext, ringWait := liveU.ringWait, memWait := liveU.memWait, epoch := liveU.epoch, heldSelect := liveU.heldSelect, leaving := liveU.leaving : UnitState } 20 8589934592).unit 0 0).slot 0).sec = secKey endT.job (bits endT.operand 47 32) ∧
     ((ctlU { slots := liveU.slots, active := some 0, pend := liveU.pend, activating := liveU.activating, secs := liveU.secs, queues := liveU.queues, tags := liveU.tags, firing := some fData, outbox := liveU.outbox, endWait := liveU.endWait, reef := liveU.reef, lastTag := liveU.lastTag, drops := liveU.drops, altSecond := liveU.altSecond, pendingTiles := liveU.pendingTiles, ring := liveU.ring, ringNext := liveU.ringNext, ringWait := liveU.ringWait, memWait := liveU.memWait, epoch := liveU.epoch, heldSelect := liveU.heldSelect, leaving := liveU.leaving : UnitState } 20 8589934592).unit 0 0).firing.isSome = true ∧
     ((ctlU { slots := liveU.slots, active := some 0, pend := liveU.pend, activating := liveU.activating, secs := liveU.secs, queues := liveU.queues, tags := liveU.tags, firing := some fData, outbox := liveU.outbox, endWait := liveU.endWait, reef := liveU.reef, lastTag := liveU.lastTag, drops := liveU.drops, altSecond := liveU.altSecond, pendingTiles := liveU.pendingTiles, ring := liveU.ring, ringNext := liveU.ringNext, ringWait := liveU.ringWait, memWait := liveU.memWait, epoch := liveU.epoch, heldSelect := liveU.heldSelect, leaving := liveU.leaving : UnitState } 20 8589934592).unit 0 0).endWait = none ∧
     ((ctlU { slots := liveU.slots, active := some 0, pend := liveU.pend, activating := liveU.activating, secs := liveU.secs, queues := liveU.queues, tags := liveU.tags, firing := some fData, outbox := liveU.outbox, endWait := liveU.endWait, reef := liveU.reef, lastTag := liveU.lastTag, drops := liveU.drops, altSecond := liveU.altSecond, pendingTiles := liveU.pendingTiles, ring := liveU.ring, ringNext := liveU.ringNext, ringWait := liveU.ringWait, memWait := liveU.memWait, epoch := liveU.epoch, heldSelect := liveU.heldSelect, leaving := liveU.leaving : UnitState } 20 8589934592).unit 0 0).leaving = false) := by
  refine ⟨?_, ?_, ?_, ?_, ?_, ?_, ?_, ?_⟩ <;> decide

theorem witness_TrackerPort :
    (dev.live = true ∧
     dev.trackerOffer 0 21 = none) ∧
    (dev.live = true ∧
     dev.trackerOffer 0 32 = none) ∧
    ((trk dev tokDone).live = true ∧
     (trk dev tokDone).trackerOffer 0 21 = some tokDone ∧
     (trk dev tokDone).partOfYard 0 = some 0 ∧
     List.find? (fun c => c.part == 0 && c.job == tokDone.job && c.num == bits tokDone.payload 47 32) (trk dev tokDone).sections = none) ∧
    ((trk (withSec secC) tokDone).live = true ∧
     (trk (withSec secC) tokDone).trackerOffer 0 21 = some tokDone ∧
     (trk (withSec secC) tokDone).partOfYard 0 = some 0 ∧
     List.find? (fun c => c.part == 0 && c.job == tokDone.job && c.num == bits tokDone.payload 47 32) (trk (withSec secC) tokDone).sections = some secC ∧
     secC.got + 1 ≠ secC.need) ∧
    ((trk (withSec { uid := secC.uid, part := secC.part, job := secC.job, rig := secC.rig, num := secC.num, n := secC.n, tagBase := secC.tagBase, ext := secC.ext, lead := secC.lead, start := secC.start, budgetUs := secC.budgetUs, need := 1, got := secC.got, latched := secC.latched, version := secC.version, src := secC.src, pinLoad := secC.pinLoad, role := secC.role, phase := secC.phase, step := secC.step : Section }) tokDone).live = true ∧
     (trk (withSec { uid := secC.uid, part := secC.part, job := secC.job, rig := secC.rig, num := secC.num, n := secC.n, tagBase := secC.tagBase, ext := secC.ext, lead := secC.lead, start := secC.start, budgetUs := secC.budgetUs, need := 1, got := secC.got, latched := secC.latched, version := secC.version, src := secC.src, pinLoad := secC.pinLoad, role := secC.role, phase := secC.phase, step := secC.step : Section }) tokDone).trackerOffer 0 21 = some tokDone ∧
     (trk (withSec { uid := secC.uid, part := secC.part, job := secC.job, rig := secC.rig, num := secC.num, n := secC.n, tagBase := secC.tagBase, ext := secC.ext, lead := secC.lead, start := secC.start, budgetUs := secC.budgetUs, need := 1, got := secC.got, latched := secC.latched, version := secC.version, src := secC.src, pinLoad := secC.pinLoad, role := secC.role, phase := secC.phase, step := secC.step : Section }) tokDone).partOfYard 0 = some 0 ∧
     List.find? (fun c => c.part == 0 && c.job == tokDone.job && c.num == bits tokDone.payload 47 32) (trk (withSec { uid := secC.uid, part := secC.part, job := secC.job, rig := secC.rig, num := secC.num, n := secC.n, tagBase := secC.tagBase, ext := secC.ext, lead := secC.lead, start := secC.start, budgetUs := secC.budgetUs, need := 1, got := secC.got, latched := secC.latched, version := secC.version, src := secC.src, pinLoad := secC.pinLoad, role := secC.role, phase := secC.phase, step := secC.step : Section }) tokDone).sections = some { uid := secC.uid, part := secC.part, job := secC.job, rig := secC.rig, num := secC.num, n := secC.n, tagBase := secC.tagBase, ext := secC.ext, lead := secC.lead, start := secC.start, budgetUs := secC.budgetUs, need := 1, got := secC.got, latched := secC.latched, version := secC.version, src := secC.src, pinLoad := secC.pinLoad, role := secC.role, phase := secC.phase, step := secC.step : Section } ∧
     { uid := secC.uid, part := secC.part, job := secC.job, rig := secC.rig, num := secC.num, n := secC.n, tagBase := secC.tagBase, ext := secC.ext, lead := secC.lead, start := secC.start, budgetUs := secC.budgetUs, need := 1, got := secC.got, latched := secC.latched, version := secC.version, src := secC.src, pinLoad := secC.pinLoad, role := secC.role, phase := secC.phase, step := secC.step : Section }.got + 1 = { uid := secC.uid, part := secC.part, job := secC.job, rig := secC.rig, num := secC.num, n := secC.n, tagBase := secC.tagBase, ext := secC.ext, lead := secC.lead, start := secC.start, budgetUs := secC.budgetUs, need := 1, got := secC.got, latched := secC.latched, version := secC.version, src := secC.src, pinLoad := secC.pinLoad, role := secC.role, phase := secC.phase, step := secC.step : Section }.need ∧
     { uid := secC.uid, part := secC.part, job := secC.job, rig := secC.rig, num := secC.num, n := secC.n, tagBase := secC.tagBase, ext := secC.ext, lead := secC.lead, start := secC.start, budgetUs := secC.budgetUs, need := 1, got := secC.got, latched := secC.latched, version := secC.version, src := secC.src, pinLoad := secC.pinLoad, role := secC.role, phase := secC.phase, step := secC.step : Section }.role = 0) ∧
    ((trk (dev.setSeq 0 1 1) tokVeto).live = true ∧
     (trk (dev.setSeq 0 1 1) tokVeto).trackerOffer 0 32 = some tokVeto ∧
     (trk (dev.setSeq 0 1 1) tokVeto).partOfYard 0 = some 0 ∧
     (trk (dev.setSeq 0 1 1) tokVeto).seqState 0 tokVeto.job = 1) ∧
    ((trk dev tokVeto).live = true ∧
     (trk dev tokVeto).trackerOffer 0 32 = some tokVeto ∧
     (trk dev tokVeto).partOfYard 0 = some 0 ∧
     (trk dev tokVeto).seqState 0 tokVeto.job ≠ 1) ∧
    (dev.live = true ∧
     dev.offer 0 5 (laneCode Lane.scalar) = none) ∧
    ((trk dev tokD).live = true ∧
     (trk dev tokD).offer 0 5 (laneCode Lane.halyard) = some tokD ∧
     tokenError (laneNet (laneCode Lane.halyard)) tokD = some 4) ∧
    ((dev.setOffer 0 5 2 tokD).live = true ∧
     (dev.setOffer 0 5 2 tokD).offer 0 5 (laneCode (Lane.plane 2)) = some tokD ∧
     tokenError (laneNet (laneCode (Lane.plane 2))) tokD = none ∧
     Lane.plane 2 ≠ Lane.halyard) ∧
    ((trk dev tokC).live = true ∧
     (trk dev tokC).offer 0 5 (laneCode Lane.halyard) = some tokC ∧
     tokenError (laneNet (laneCode Lane.halyard)) tokC = none ∧
     Lane.halyard = Lane.halyard ∧
     tokC.opcode ≠ 21 ∧
     tokC.opcode ≠ 32) ∧
    ((trk dev tokVeto).live = true ∧
     (trk dev tokVeto).offer 0 5 (laneCode Lane.halyard) = some tokVeto ∧
     tokenError (laneNet (laneCode Lane.halyard)) tokVeto = none ∧
     Lane.halyard = Lane.halyard ∧
     (tokVeto.opcode = 21 ∨ tokVeto.opcode = 32)) := by
  refine ⟨?_, ?_, ?_, ?_, ?_, ?_, ?_, ?_, ?_, ?_, ?_, ?_⟩ <;> decide

theorem witness_SectionTracker :
    (dev.live = true ∧
     Tab.get [] dev.issueQ 0 = []) ∧
    ((issue dev).live = true ∧
     Tab.get [] (issue dev).issueQ 0 = [recR] ∧
     (issue dev).imageAt 0 recR.rig = none) ∧
    ((issue busyI).live = true ∧
     Tab.get [] (issue busyI).issueQ 0 = [recR] ∧
     (issue busyI).imageAt 0 recR.rig = some img ∧
     List.find? (fun x => x.num == recR.section_) img.secs = some { num := 2, lead := 0, iterDim := 255, budgetUs := 0 : SecRec } ∧
     (issue busyI).firstChecks 0 recR = none ∧
     recR.job ∈ (issue busyI).jobsOf 0 ∧
     (issue busyI).phaseOfRig 0 recR.job recR.rig = 0 ∧
     ((issue busyI).roleOf 0 recR.job recR.rig recR.section_ ≠ 0 → (issue busyI).flag (phReg 0 recR.job 0) 63 = false ∧ Tab.get [] (issue busyI).stepHeld recR.job = [] ∧ (issue busyI).seqAct 0 recR.job ((issue busyI).roleOf 0 recR.job recR.rig recR.section_) = SeqAct.start false) ∧
     (issue busyI).r96Holds 0 recR.job = true ∧
     (∀ (x : StartRec), x ∈ Tab.get [] (issue busyI).waiting 0 → (issue busyI).r96Holds 0 x.job = true)) ∧
    ((issue devI).live = true ∧
     Tab.get [] (issue devI).issueQ 0 = [recR] ∧
     (issue devI).imageAt 0 recR.rig = some img ∧
     List.find? (fun x => x.num == recR.section_) img.secs = some { num := 2, lead := 0, iterDim := 255, budgetUs := 0 : SecRec } ∧
     (issue devI).firstChecks 0 recR = none ∧
     recR.job ∈ (issue devI).jobsOf 0 ∧
     (issue devI).phaseOfRig 0 recR.job recR.rig = 0 ∧
     ((issue devI).roleOf 0 recR.job recR.rig recR.section_ ≠ 0 → (issue devI).flag (phReg 0 recR.job 0) 63 = false ∧ Tab.get [] (issue devI).stepHeld recR.job = [] ∧ (issue devI).seqAct 0 recR.job ((issue devI).roleOf 0 recR.job recR.rig recR.section_) = SeqAct.start false) ∧
     (issue devI).r96Holds 0 recR.job = false ∧
     Tab.get [] (issue devI).waiting 0 = [] ∧
     (issue devI).issueFail 0 img recR = none) ∧
    (dev.live = true ∧
     (∀ (x : StartRec), x ∈ Tab.get [] dev.waiting 0 → dev.r96Holds 0 x.job = true)) ∧
    (waitI.live = true ∧
     Tab.get [] waitI.waiting 0 = [recR] ∧
     recR.job ∈ waitI.jobsOf 0 ∧
     waitI.r96Holds 0 recR.job = false ∧
     waitI.imageAt 0 recR.rig = some img ∧
     List.find? (fun x => x.num == recR.section_) img.secs = some { num := 2, lead := 0, iterDim := 255, budgetUs := 0 : SecRec } ∧
     waitI.issueFail 0 img recR = none) ∧
    (waitX.live = true ∧
     Tab.get [] waitX.waiting 0 = [recR] ∧
     recR.job ∈ waitX.jobsOf 0 ∧
     waitX.r96Holds 0 recR.job = false ∧
     waitX.imageAt 0 recR.rig = some imgX ∧
     List.find? (fun x => x.num == recR.section_) imgX.secs = some { num := 2, lead := 0, iterDim := 255, budgetUs := 0 : SecRec } ∧
     waitX.roleOf 0 recR.job recR.rig recR.section_ = 0 ∧
     waitX.issueFail 0 imgX recR = some (IssueFail.coll 0 (515, 1, 0))) ∧
    (dev.live = true ∧
     Tab.get [] dev.stepHeld 1 = []) ∧
    ((heldI 2 0).live = true ∧
     Tab.get [] (heldI 2 0).stepHeld 1 = [recR] ∧
     recR.job = 1 ∧
     (heldI 2 0).imageAt 0 recR.rig = some img ∧
     List.find? (fun x => x.num == recR.section_) img.secs = some { num := 2, lead := 0, iterDim := 255, budgetUs := 0 : SecRec } ∧
     Tab.get [] (heldI 2 0).waiting 0 = [] ∧
     (heldI 2 0).roleOf 0 1 recR.rig recR.section_ ≠ 0 ∧
     (heldI 2 0).seqAct 0 1 ((heldI 2 0).roleOf 0 1 recR.rig recR.section_) = SeqAct.hold) ∧
    ((heldI 0 1).live = true ∧
     Tab.get [] (heldI 0 1).stepHeld 1 = [recR] ∧
     recR.job = 1 ∧
     (heldI 0 1).imageAt 0 recR.rig = some img ∧
     List.find? (fun x => x.num == recR.section_) img.secs = some { num := 2, lead := 0, iterDim := 255, budgetUs := 0 : SecRec } ∧
     Tab.get [] (heldI 0 1).waiting 0 = [] ∧
     (heldI 0 1).roleOf 0 1 recR.rig recR.section_ ≠ 0 ∧
     (heldI 0 1).seqAct 0 1 ((heldI 0 1).roleOf 0 1 recR.rig recR.section_) = SeqAct.consume 1284) ∧
    ((heldI 3 0).live = true ∧
     Tab.get [] (heldI 3 0).stepHeld 1 = [recR] ∧
     recR.job = 1 ∧
     (heldI 3 0).imageAt 0 recR.rig = some img ∧
     List.find? (fun x => x.num == recR.section_) img.secs = some { num := 2, lead := 0, iterDim := 255, budgetUs := 0 : SecRec } ∧
     Tab.get [] (heldI 3 0).waiting 0 = [] ∧
     (heldI 3 0).roleOf 0 1 recR.rig recR.section_ ≠ 0 ∧
     (heldI 3 0).seqAct 0 1 ((heldI 3 0).roleOf 0 1 recR.rig recR.section_) = SeqAct.start false ∧
     (heldI 3 0).phaseOfRig 0 1 recR.rig = 0 ∧
     1 ∈ (heldI 3 0).jobsOf 0 ∧
     (heldI 3 0).r96Holds 0 1 = false ∧
     (heldI 3 0).issueFail 0 img recR = none) := by
  refine ⟨?_, ?_, ?_, ?_, ?_, ?_, ?_, ?_, ?_, ?_, ?_⟩ <;> decide

theorem witness_FabricResets :
    (dev.live = true ∧
     dev.partOn 3 = false) ∧
    ((issue (withSec secC)).live = true ∧
     (issue (withSec secC)).partOn 0 = true) ∧
    ((withSec secC).Open accA (pgPart 0 + 456) ∧
     acts (BitVec.toNat (setW 2)) 0 = false ∧
     acts (BitVec.toNat (setW 2)) 1 = false ∧
     acts (BitVec.toNat (setW 2)) 2 = true) ∧
    (dev.Open accA (pgPart 0 + 456) ∧
     acts (34084860461312#64).toNat 0 = false ∧
     acts (34084860461312#64).toNat 1 = false ∧
     acts (34084860461312#64).toNat 2 = false) ∧
    ((dev.tick 1000).live = true ∧
     (dev.tick 1000).partOn 3 = false) ∧
    ((stalled.tick 1000).live = true ∧
     (stalled.tick 1000).partOn 0 = true ∧
     (stalled.tick 1000).stallDue 0 = some 0) ∧
    ((dev.tick 1000).live = true ∧
     (∀ (c : Section), c ∈ dev.sections → ¬(c.part = 0 ∧ c.start + (dev.tick 1000).budgetNs c < (dev.tick 1000).now))) ∧
    (((withSec secC).tick 1000).live = true ∧
     (∃ c, c ∈ (withSec secC).sections ∧ c.part = 0 ∧ c.start + ((withSec secC).tick 1000).budgetNs c < ((withSec secC).tick 1000).now)) := by
  refine ⟨?_, ?_, ?_, ?_, ?_, ?_, ?_, ?_⟩ <;> decide

theorem witness_LoadingImages :
    (busyD.Open accA (pgPart 0 + 456) ∧
     acts (BitVec.toNat (rigW 0 1 0)) 2 = false ∧
     acts (BitVec.toNat (rigW 0 1 0)) 0 = true ∧
     busyD.rigBusy 0 = true) ∧
    (dev.Open accA (pgPart 0 + 456) ∧
     acts (BitVec.toNat rigW2) 2 = false ∧
     acts (BitVec.toNat rigW2) 0 = true ∧
     acts (BitVec.toNat rigW2) 1 = true) ∧
    (dev.Open accA (pgPart 0 + 456) ∧
     acts (BitVec.toNat (rigW 0 5 0)) 2 = false ∧
     acts (BitVec.toNat (rigW 0 5 0)) 0 = true ∧
     acts (BitVec.toNat (rigW 0 5 0)) 1 = false ∧
     dev.rigBusy 0 = false ∧
     dev.partOfJob ((dev.storeReg (pgPart 0 + 456) (BitVec.toNat (rigW 0 5 0)) (accMask accA)).fld (pgPart 0 + 456) 11 8) = none) ∧
    (dev.Open accA (pgPart 0 + 456) ∧
     acts (BitVec.toNat (rigW 0 1 0)) 2 = false ∧
     acts (BitVec.toNat (rigW 0 1 0)) 0 = true ∧
     acts (BitVec.toNat (rigW 0 1 0)) 1 = false ∧
     dev.rigBusy 0 = false ∧
     dev.partOfJob ((dev.storeReg (pgPart 0 + 456) (BitVec.toNat (rigW 0 1 0)) (accMask accA)).fld (pgPart 0 + 456) 11 8) = some 0 ∧
     (dev.storeReg (pgPart 0 + 456) (BitVec.toNat (rigW 0 1 0)) (accMask accA)).loadChecks 0 ((dev.storeReg (pgPart 0 + 456) (BitVec.toNat (rigW 0 1 0)) (accMask accA)).fld (pgPart 0 + 456) 11 8) ((dev.storeReg (pgPart 0 + 456) (BitVec.toNat (rigW 0 1 0)) (accMask accA)).reg (pgPart 0 + 448)) 255 = Sum.inl { code := 261, cause := 1, off := 0 : LoadFail }) ∧
    (devB.Open accA (pgPart 0 + 456) ∧
     acts (BitVec.toNat (rigW 0 1 0)) 2 = false ∧
     acts (BitVec.toNat (rigW 0 1 0)) 0 = true ∧
     acts (BitVec.toNat (rigW 0 1 0)) 1 = false ∧
     devB.rigBusy 0 = false ∧
     devB.partOfJob ((devB.storeReg (pgPart 0 + 456) (BitVec.toNat (rigW 0 1 0)) (accMask accA)).fld (pgPart 0 + 456) 11 8) = some 0 ∧
     (devB.storeReg (pgPart 0 + 456) (BitVec.toNat (rigW 0 1 0)) (accMask accA)).loadChecks 0 ((devB.storeReg (pgPart 0 + 456) (BitVec.toNat (rigW 0 1 0)) (accMask accA)).fld (pgPart 0 + 456) 11 8) ((devB.storeReg (pgPart 0 + 456) (BitVec.toNat (rigW 0 1 0)) (accMask accA)).reg (pgPart 0 + 448)) 255 = Sum.inr img2) ∧
    (dev.Open accA (pgPart 0 + 456) ∧
     acts (BitVec.toNat (rigW 1 1 4)) 2 = false ∧
     acts (BitVec.toNat (rigW 1 1 4)) 0 = false ∧
     acts (BitVec.toNat (rigW 1 1 4)) 1 = true ∧
     dev.rigBusy 0 = false ∧
     dev.imageAt 0 ((dev.storeReg (pgPart 0 + 456) (BitVec.toNat (rigW 1 1 4)) (accMask accA)).fld (pgPart 0 + 456) 15 12) = none) ∧
    (usedI.Open accA (pgPart 0 + 456) ∧
     acts (BitVec.toNat (rigW 1 1 4)) 2 = false ∧
     acts (BitVec.toNat (rigW 1 1 4)) 0 = false ∧
     acts (BitVec.toNat (rigW 1 1 4)) 1 = true ∧
     usedI.rigBusy 0 = false ∧
     usedI.imageAt 0 ((usedI.storeReg (pgPart 0 + 456) (BitVec.toNat (rigW 1 1 4)) (accMask accA)).fld (pgPart 0 + 456) 15 12) = some img ∧
     usedI.imageUsed img = true) ∧
    (devI.Open accA (pgPart 0 + 456) ∧
     acts (BitVec.toNat (rigW 1 1 4)) 2 = false ∧
     acts (BitVec.toNat (rigW 1 1 4)) 0 = false ∧
     acts (BitVec.toNat (rigW 1 1 4)) 1 = true ∧
     devI.rigBusy 0 = false ∧
     devI.imageAt 0 ((devI.storeReg (pgPart 0 + 456) (BitVec.toNat (rigW 1 1 4)) (accMask accA)).fld (pgPart 0 + 456) 15 12) = some img ∧
     devI.imageUsed img = false ∧
     devI.imageActive img = false) ∧
    (dev.live = true ∧
     dev.nextCommit = none) ∧
    ((loading 3 1).live = true ∧
     (loading 3 1).nextCommit = some (ld 3 1) ∧
     (ld 3 1).part ≠ 0) ∧
    (((loading 0 1).setReg (pgGlobal + 1016) 1).live = true ∧
     ((loading 0 1).setReg (pgGlobal + 1016) 1).nextCommit = some (ld 0 1) ∧
     (ld 0 1).part = 0 ∧
     (loadGone ((loading 0 1).setReg (pgGlobal + 0x3F8) 1)).commitFail (ld 0 1) = some ⟨0x0102, 0, 63, 6, 0, 0⟩) ∧
    ((loading 0 1).live = true ∧
     (loading 0 1).nextCommit = some (ld 0 1) ∧
     (ld 0 1).part = 0 ∧
     (loadGone (loading 0 1)).commitFail (ld 0 1) = none ∧
     (loading 0 1).rigFor 0 (ld 0 1).image.rig = some 0 ∧
     (loading 0 1).placeStow (ld 0 1).image.res = some [] ∧
     (ld 0 1).fromRing = none ∧
     0 < 16) := by
  refine ⟨?_, ?_, ?_, ?_, ?_, ?_, ?_, ?_, ?_, ?_, ?_, ?_⟩ <;> decide

theorem witness_HbmChannels :
    ((chanD { q0 := [rq] : ChanState }).live = true ∧
     (chanD { q0 := [rq] : ChanState }).chLive 0 = true ∧
     (chanD { q0 := [rq] : ChanState }).relock.contains (0 / 512) = false ∧
     ((chanD { q0 := [rq] : ChanState }).fld (pgTherm (0 / 32) + 264) 1 0 = 0 ∨ (chanD { q0 := [rq] : ChanState }).fld (pgTherm (0 / 32) + 264) 1 0 = 1 ∧ ((chanD { q0 := [rq] : ChanState }).chan 0).slots % 4 ≠ 3 ∨ (chanD { q0 := [rq] : ChanState }).fld (pgTherm (0 / 32) + 264) 1 0 = 2 ∧ ((chanD { q0 := [rq] : ChanState }).chan 0).slots % 4 = 0) ∧
     ((chanD { q0 := [rq] : ChanState }).chan 0).q0 = [rq]) ∧
    ((chanD { q1 := [rq], slots := 2 : ChanState }).live = true ∧
     (chanD { q1 := [rq], slots := 2 : ChanState }).chLive 0 = true ∧
     (chanD { q1 := [rq], slots := 2 : ChanState }).relock.contains (0 / 512) = false ∧
     ((chanD { q1 := [rq], slots := 2 : ChanState }).fld (pgTherm (0 / 32) + 264) 1 0 = 0 ∨ (chanD { q1 := [rq], slots := 2 : ChanState }).fld (pgTherm (0 / 32) + 264) 1 0 = 1 ∧ ((chanD { q1 := [rq], slots := 2 : ChanState }).chan 0).slots % 4 ≠ 3 ∨ (chanD { q1 := [rq], slots := 2 : ChanState }).fld (pgTherm (0 / 32) + 264) 1 0 = 2 ∧ ((chanD { q1 := [rq], slots := 2 : ChanState }).chan 0).slots % 4 = 0) ∧
     ((chanD { q1 := [rq], slots := 2 : ChanState }).chan 0).q0 = [] ∧
     ((chanD { q1 := [rq], slots := 2 : ChanState }).chan 0).q1 = [rq] ∧
     ((chanD { q1 := [rq], slots := 2 : ChanState }).chan 0).q2 = [] ∧
     ((chanD { q1 := [rq], slots := 2 : ChanState }).chan 0).q3 = []) ∧
    ((chanD { q2 := [rq] : ChanState }).live = true ∧
     (chanD { q2 := [rq] : ChanState }).chLive 0 = true ∧
     (chanD { q2 := [rq] : ChanState }).relock.contains (0 / 512) = false ∧
     ((chanD { q2 := [rq] : ChanState }).fld (pgTherm (0 / 32) + 264) 1 0 = 0 ∨ (chanD { q2 := [rq] : ChanState }).fld (pgTherm (0 / 32) + 264) 1 0 = 1 ∧ ((chanD { q2 := [rq] : ChanState }).chan 0).slots % 4 ≠ 3 ∨ (chanD { q2 := [rq] : ChanState }).fld (pgTherm (0 / 32) + 264) 1 0 = 2 ∧ ((chanD { q2 := [rq] : ChanState }).chan 0).slots % 4 = 0) ∧
     ((chanD { q2 := [rq] : ChanState }).chan 0).q0 = [] ∧
     ((chanD { q2 := [rq] : ChanState }).chan 0).q1 = [] ∧
     ((chanD { q2 := [rq] : ChanState }).chan 0).q2 = [rq] ∧
     ((chanD { q2 := [rq] : ChanState }).chan 0).q3 = []) ∧
    ((chanD { q3 := [rqW] : ChanState }).live = true ∧
     (chanD { q3 := [rqW] : ChanState }).chLive 0 = true ∧
     (chanD { q3 := [rqW] : ChanState }).relock.contains (0 / 512) = false ∧
     ((chanD { q3 := [rqW] : ChanState }).fld (pgTherm (0 / 32) + 264) 1 0 = 0 ∨ (chanD { q3 := [rqW] : ChanState }).fld (pgTherm (0 / 32) + 264) 1 0 = 1 ∧ ((chanD { q3 := [rqW] : ChanState }).chan 0).slots % 4 ≠ 3 ∨ (chanD { q3 := [rqW] : ChanState }).fld (pgTherm (0 / 32) + 264) 1 0 = 2 ∧ ((chanD { q3 := [rqW] : ChanState }).chan 0).slots % 4 = 0) ∧
     ((chanD { q3 := [rqW] : ChanState }).chan 0).q0 = [] ∧
     ((chanD { q3 := [rqW] : ChanState }).chan 0).q1 = [] ∧
     ((chanD { q3 := [rqW] : ChanState }).chan 0).q2 = [] ∧
     ((chanD { q3 := [rqW] : ChanState }).chan 0).q3 = [rqW]) ∧
    (hot.live = true ∧
     hot.chLive 0 = true ∧
     hot.relock.contains (0 / 512) = false ∧
     (¬(hot.fld (pgTherm (0 / 32) + 264) 1 0 = 0 ∨ hot.fld (pgTherm (0 / 32) + 264) 1 0 = 1 ∧ (hot.chan 0).slots % 4 ≠ 3 ∨ hot.fld (pgTherm (0 / 32) + 264) 1 0 = 2 ∧ (hot.chan 0).slots % 4 = 0))) ∧
    (svc.live = true ∧
     (svc.chan 0).service = [rqN] ∧
     adOff (rqN.line * 4096) / 4096 = (3#22).toNat / 4 ∧
     rqN.cache = false ∧
     rqN.emit = false ∧
     rqN.y < 64 ∧
     (svc.unit rqN.y rqN.u).epoch = rqN.epoch ∧
     1 < (svc.unit rqN.y rqN.u).memWait) ∧
    (dev.live = true ∧
     dev.flag (pgArb + 256) 1 = true ∧
     dev.chLive 0 = true ∧
     (8#22).toNat < 2621440 ∧
     dev.maintRun = [] ∧
     dev.fld (pgTherm (0 / 32) + 264) 1 0 ≠ 3 ∧
     dev.relock.contains (0 / 512) = false ∧
     (dev.chan 0).q0 = [] ∧
     (dev.slice (lineStack ((0 * 2 ^ 32 + (8#22).toNat * 1024) / 4096))).holds ((0 * 2 ^ 32 + (8#22).toNat * 1024) / 4096) = false ∧
     ((dev.slice (lineStack ((0 * 2 ^ 32 + (8#22).toNat * 1024) / 4096))).fills.any fun f => f.req.line == (0 * 2 ^ 32 + (8#22).toNat * 1024) / 4096) = false ∧
     dev.fenceOf 0 (8#22).toNat = none ∧
     dev.recRepaired.contains (rowKey 0 (8#22).toNat) = false ∧
     Tab.get 0 dev.rowCe (rowKey 0 (8#22).toNat) + 1 < dev.fld (pgRep (0 / 32) + 256) 15 0) ∧
    (dev.live = true ∧
     dev.flag (pgArb + 256) 1 = true ∧
     dev.chLive 0 = true ∧
     (8#22).toNat < 2621440 ∧
     dev.maintRun = [] ∧
     dev.fld (pgTherm (0 / 32) + 264) 1 0 ≠ 3 ∧
     dev.relock.contains (0 / 512) = false ∧
     (dev.chan 0).q0 = []) ∧
    (dev.live = true ∧
     dev.flag (pgArb + 256) 1 = true ∧
     dev.chLive 0 = true ∧
     (8#22).toNat < 2621440 ∧
     dev.maintRun = [] ∧
     dev.fld (pgTherm (0 / 32) + 264) 1 0 ≠ 3 ∧
     dev.relock.contains (0 / 512) = false ∧
     (dev.chan 0).q0 = [] ∧
     (dev.slice (lineStack ((0 * 2 ^ 32 + (8#22).toNat * 1024) / 4096))).holds ((0 * 2 ^ 32 + (8#22).toNat * 1024) / 4096) = false ∧
     ((dev.slice (lineStack ((0 * 2 ^ 32 + (8#22).toNat * 1024) / 4096))).fills.any fun f => f.req.line == (0 * 2 ^ 32 + (8#22).toNat * 1024) / 4096) = false ∧
     dev.fenceOf 0 (8#22).toNat = none) ∧
    (fenceD.live = true ∧
     fenceD.flag (pgArb + 256) 1 = true ∧
     fenceD.chLive 0 = true ∧
     (8#22).toNat < 2621440 ∧
     fenceD.maintRun = [] ∧
     fenceD.fld (pgTherm (0 / 32) + 264) 1 0 ≠ 3 ∧
     fenceD.relock.contains (0 / 512) = false ∧
     (fenceD.chan 0).q0 = [] ∧
     ((fenceD.slice (lineStack ((0 * 2 ^ 32 + (8#22).toNat * 1024) / 4096))).holds ((0 * 2 ^ 32 + (8#22).toNat * 1024) / 4096) = true ∨ (fenceD.fenceOf 0 (8#22).toNat).isSome = true)) := by
  refine ⟨?_, ?_, ?_, ?_, ?_, ?_, ?_, ?_, ?_, ?_⟩ <;> decide

theorem witness_StreamCacheSlices :
    ((sliceD { acc := [rqOld], lines := [line0] : SliceState }).live = true ∧
     ((sliceD { acc := [rqOld], lines := [line0] : SliceState }).slice 0).acc = [rqOld] ∧
     lineStack rqOld.line = 0 ∧
     rqOld.part < 8 ∧
     rqOld.cls < 4 ∧
     rqOld.y < 64 ∧
     20 ≤ rqOld.u ∧
     rqOld.u < 22 ∧
     (∀ (k : Nat), k < 3 → bits ((sliceD { acc := [rqOld], lines := [line0] : SliceState }).regInForce k rqOld.part) 63 52 = 0) ∧
     (sliceD { acc := [rqOld], lines := [line0] : SliceState }).allFenced rqOld = false ∧
     rqOld.write = false ∧
     ((sliceD { acc := [rqOld], lines := [line0] : SliceState }).slice 0).holds rqOld.line = true ∧
     ((sliceD { acc := [rqOld], lines := [line0] : SliceState }).unit rqOld.y rqOld.u).epoch ≠ rqOld.epoch) ∧
    ((sliceD { acc := [rq] : SliceState }).live = true ∧
     ((sliceD { acc := [rq] : SliceState }).slice 0).acc = [rq] ∧
     lineStack rq.line = 0 ∧
     rq.part < 8 ∧
     rq.cls < 4 ∧
     rq.y < 64 ∧
     20 ≤ rq.u ∧
     rq.u < 22 ∧
     (∀ (k : Nat), k < 3 → bits ((sliceD { acc := [rq] : SliceState }).regInForce k rq.part) 63 52 = 0) ∧
     (sliceD { acc := [rq] : SliceState }).allFenced rq = false ∧
     rq.write = false ∧
     ((sliceD { acc := [rq] : SliceState }).slice 0).holds rq.line = false ∧
     (((sliceD { acc := [rq] : SliceState }).slice 0).fills.any fun f => f.req.line == rq.line) = false ∧
     (∀ (e : MemReq), e ∈ [] → rq.cls ≤ e.cls)) ∧
    ((sliceD { acc := [rq], fills := [{ req := rqOld, merged := [], back := false : Fill }] : SliceState }).live = true ∧
     ((sliceD { acc := [rq], fills := [{ req := rqOld, merged := [], back := false : Fill }] : SliceState }).slice 0).acc = [rq] ∧
     lineStack rq.line = 0 ∧
     rq.part < 8 ∧
     rq.cls < 4 ∧
     rq.y < 64 ∧
     20 ≤ rq.u ∧
     rq.u < 22 ∧
     (∀ (k : Nat), k < 3 → bits ((sliceD { acc := [rq], fills := [{ req := rqOld, merged := [], back := false : Fill }] : SliceState }).regInForce k rq.part) 63 52 = 0) ∧
     (sliceD { acc := [rq], fills := [{ req := rqOld, merged := [], back := false : Fill }] : SliceState }).allFenced rq = false ∧
     rq.write = false ∧
     ((sliceD { acc := [rq], fills := [{ req := rqOld, merged := [], back := false : Fill }] : SliceState }).slice 0).holds rq.line = false ∧
     (((sliceD { acc := [rq], fills := [{ req := rqOld, merged := [], back := false : Fill }] : SliceState }).slice 0).fills.any fun f => f.req.line == rq.line) = true) ∧
    ((sliceD { acc := [rqW] : SliceState }).live = true ∧
     ((sliceD { acc := [rqW] : SliceState }).slice 0).acc = [rqW] ∧
     lineStack rqW.line = 0 ∧
     rqW.part < 8 ∧
     rqW.cls < 4 ∧
     rqW.y < 64 ∧
     20 ≤ rqW.u ∧
     rqW.u < 22 ∧
     (∀ (k : Nat), k < 3 → bits ((sliceD { acc := [rqW] : SliceState }).regInForce k rqW.part) 63 52 = 0) ∧
     (sliceD { acc := [rqW] : SliceState }).allFenced rqW = false ∧
     rqW.write = true ∧
     ((sliceD { acc := [rqW] : SliceState }).slice 0).holds rqW.line = false ∧
     ((sliceD { acc := [rqW] : SliceState }).unit rqW.y rqW.u).epoch ≠ rqW.epoch) ∧
    ((sliceD { acc := [rB 2 0, rB 1 32] : SliceState }).live = true ∧
     ((sliceD { acc := [rB 2 0, rB 1 32] : SliceState }).slice 0).acc = [rB 2 0, rB 1 32] ∧
     lineStack (rB 1 32).line = 0 ∧
     ((sliceD { acc := [rB 2 0, rB 1 32] : SliceState }).slice 0).misses (rB 2 0) = true ∧
     ((sliceD { acc := [rB 2 0, rB 1 32] : SliceState }).slice 0).misses (rB 1 32) = true ∧
     (rB 1 32).cls < (rB 2 0).cls ∧
     (∀ (e : MemReq), e ∈ [] → (rB 1 32).cls ≤ e.cls) ∧
     (rB 1 32).part = 8 ∧
     (rB 1 32).cache = false ∧
     (sliceD { acc := [rB 2 0, rB 1 32] : SliceState }).allFenced (rB 1 32) = false) ∧
    (fencedS.live = true ∧
     (fencedS.slice 0).acc = [rF] ∧
     lineStack rF.line = 0 ∧
     (fencedS.slice 0).misses rF = true ∧
     (∀ (e : MemReq), e ∈ [] → rF.cls ≤ e.cls) ∧
     rF.part = 8 ∧
     rF.cache = false ∧
     rF.y < 64 ∧
     (fencedS.unit rF.y rF.u).epoch ≠ rF.epoch ∧
     fencedS.allFenced rF = true) ∧
    ((fillD 8).live = true ∧
     ((fillD 8).slice 0).fills = [{ req := rqOld, merged := [], back := true : Fill }] ∧
     { req := rqOld, merged := [], back := true : Fill }.back = true ∧
     { req := rqOld, merged := [], back := true : Fill }.merged = [] ∧
     { req := rqOld, merged := [], back := true : Fill }.req.y < 64 ∧
     ((fillD 8).unit { req := rqOld, merged := [], back := true : Fill }.req.y { req := rqOld, merged := [], back := true : Fill }.req.u).epoch ≠ { req := rqOld, merged := [], back := true : Fill }.req.epoch ∧
     (fillD 8).wayFor 0 { req := rqOld, merged := [], back := true : Fill }.req.part { req := rqOld, merged := [], back := true : Fill }.req.line = some 3) ∧
    ((fillD 0).live = true ∧
     ((fillD 0).slice 0).fills = [{ req := rqOld, merged := [], back := true : Fill }] ∧
     { req := rqOld, merged := [], back := true : Fill }.back = true ∧
     { req := rqOld, merged := [], back := true : Fill }.merged = [] ∧
     { req := rqOld, merged := [], back := true : Fill }.req.y < 64 ∧
     ((fillD 0).unit { req := rqOld, merged := [], back := true : Fill }.req.y { req := rqOld, merged := [], back := true : Fill }.req.u).epoch ≠ { req := rqOld, merged := [], back := true : Fill }.req.epoch ∧
     (fillD 0).wayFor 0 { req := rqOld, merged := [], back := true : Fill }.req.part { req := rqOld, merged := [], back := true : Fill }.req.line = none) ∧
    ((dev.tick 1000).live = true ∧
     (dev.tick 1000).partOn 3 = false) ∧
    (((dev.setReg (pgPart 0 + 320) (5 * 2 ^ 52 + 1 * 2 ^ 40)).tick 1000).live = true ∧
     ((dev.setReg (pgPart 0 + 320) (5 * 2 ^ 52 + 1 * 2 ^ 40)).tick 1000).partOn 0 = true ∧
     (∀ (k i : Nat), k < 3 → i < 32 → ((dev.setReg (pgPart 0 + 320) (5 * 2 ^ 52 + 1 * 2 ^ 40)).bucket k 0 i).held = [])) := 
  ⟨by decide,
   by decide,
   by decide,
   by decide,
   by decide,
   by decide,
   by decide,
   by decide,
   by decide,
   ⟨by decide, by decide, fun _ _ _ _ => rfl⟩⟩

theorem witness_MapOut :
    (dev.Open accA (pgHc 0 + 768) ∧
     acts (BitVec.toNat (setW 8)) 8 = true ∧
     dev.primary.isSome = true) ∧
    (noPrim.Open accA (pgHc 0 + 768) ∧
     acts (BitVec.toNat (setW 8)) 8 = true ∧
     noPrim.primary = none) ∧
    (dev.Open accA (pgHc 0 + 768) ∧
     acts (133143986179#64).toNat 8 = false) ∧
    (((moDev 1).tick 1000).live = true ∧
     ((moDev 1).tick 1000).mapOutAt 0 1 = true ∧
     ((moDev 1).tick 1000).noSectionsAt 0 = true) ∧
    ((moBusy.tick 1000).live = true ∧
     (moBusy.tick 1000).mapOutAt 0 1 = true ∧
     (moBusy.tick 1000).noSectionsAt 0 = false) ∧
    (((moDev 2).tick 1000).live = true ∧
     ((moDev 2).tick 1000).mapOutAt 0 2 = true ∧
     (∀ (b : Nat), b ∈ ((moDev 2).tick 1000).sdListed → ((moDev 2).tick 1000).placedIn (((moDev 2).tick 1000).sdPlace b true) 0 = false ∧ ((moDev 2).tick 1000).placedIn (((moDev 2).tick 1000).sdPlace b false) 0 = false)) ∧
    (((moDev 4).tick 1000).live = true ∧
     ((moDev 4).tick 1000).mapOutAt 0 4 = true ∧
     (∀ (y : Nat), homeYard 0 = some y → ((moDev 4).tick 1000).stowExtents y = []) ∧
     (moDev 4).maintQueue = []) := by
  refine ⟨?_, ?_, ?_, ?_, ?_, ?_, ?_⟩ <;> decide

theorem witness_ShardDirectory :
    ((sdD 0).Open accA (sdAddr 5 + 8 * 1) ∧
     accA.size = 8 ∧
     (¬((sdD 0).sdValid 5 = true ∧ (sdD 0).jobIdle ((sdD 0).sdJob 5) = false)) ∧
     (0 < 1 ∨ bit (4660#64).toNat 60 = false)) ∧
    ((sdBusy 0).Open accA (sdAddr 5 + 8 * 0) ∧
     accA.size = 8 ∧
     ((sdBusy 0).sdValid 5 = true ∧ (sdBusy 0).jobIdle ((sdBusy 0).sdJob 5) = false) ∧
     0 = 0) ∧
    ((sdBusy 0).Open accA (sdAddr 5 + 8 * 2) ∧
     accA.size = 8 ∧
     ((sdBusy 0).sdValid 5 = true ∧ (sdBusy 0).jobIdle ((sdBusy 0).sdJob 5) = false) ∧
     2 = 2 - (sdBusy 0).sdAct 5) ∧
    ((sdBusy 1).Open accA (sdAddr 5 + 8 * 1) ∧
     accA.size = 8 ∧
     ((sdBusy 1).sdValid 5 = true ∧ (sdBusy 1).jobIdle ((sdBusy 1).sdJob 5) = false) ∧
     1 = 2 - (sdBusy 1).sdAct 5) ∧
    ((sdBusy 0).Open accA (sdAddr 5 + 8 * 1) ∧
     accA.size = 8 ∧
     ((sdBusy 0).sdValid 5 = true ∧ (sdBusy 0).jobIdle ((sdBusy 0).sdJob 5) = false) ∧
     (1 = (sdBusy 0).sdAct 5 + 1 ∨ 1 = 3)) ∧
    ((sdBusy 0).Open accA (sdAddr 5 + 8 * 3) ∧
     accA.size = 8 ∧
     ((sdBusy 0).sdValid 5 = true ∧ (sdBusy 0).jobIdle ((sdBusy 0).sdJob 5) = false) ∧
     (3 = (sdBusy 0).sdAct 5 + 1 ∨ 3 = 3)) ∧
    (dev.Open accA (pgGlobal + 2336) ∧
     acts (1035087118353#64).toNat 0 = true) ∧
    (flipD.Open accA (pgGlobal + 2336) ∧
     acts (1035087118353#64).toNat 0 = true) ∧
    (flipBusy.live = true ∧
     flipBusy.flag (pgGlobal + 2344) 63 = true ∧
     flipBusy.jobIdle (flipBusy.fld (pgGlobal + 2344) 59 56) = false) ∧
    (flipD.live = true ∧
     flipD.flag (pgGlobal + 2344) 63 = true ∧
     flipD.jobIdle (flipD.fld (pgGlobal + 2344) 59 56) = true) ∧
    (dev.Open accA (pgYard 0 + 392) ∧
     dev.stowExtents 0 = []) ∧
    (stowD.Open accA (pgYard 0 + 392) ∧
     stowD.stowExtents 0 ≠ []) := by
  refine ⟨?_, ?_, ?_, ?_, ?_, ?_, ?_, ?_, ?_, ?_, ?_, ?_⟩ <;> decide

theorem witness_StackHeatAndRepair :
    ((dev.tick 1000).live = true ∧
     (dev.tick 1000).flag (pgPhy 1 + 256) 63 = false) ∧
    (((heat 0).tick 1000).live = true ∧
     ((heat 0).tick 1000).flag (pgPhy 0 + 256) 63 = true) ∧
    (((heat 3).tick 1000).live = true ∧
     ((heat 3).tick 1000).flag (pgPhy 0 + 256) 63 = true) ∧
    (((heat 1).tick 1000).live = true ∧
     ((heat 1).tick 1000).flag (pgPhy 0 + 256) 63 = true) ∧
    (((heat 2).tick 1000).live = true ∧
     ((heat 2).tick 1000).flag (pgPhy 0 + 256) 63 = true) ∧
    (dev.Open accA (pgRep 0 + 264) ∧
     acts (BitVec.toNat (setW 0)) 0 = true ∧
     dev.primary.isSome = true) ∧
    (noPrim.Open accA (pgRep 0 + 264) ∧
     acts (BitVec.toNat (setW 0)) 0 = true ∧
     noPrim.primary = none) ∧
    (dev.Open accA (pgRep 0 + 264) ∧
     acts (1#64).toNat 0 = false) ∧
    (((repD (heat 1) 0).tick 1000).live = true ∧
     (repD (heat 1) 0).maintRun = [repM 0] ∧
     (repM 0).cls = 2 ∧
     (repM 0).target = 0 ∧
     0 < ((repD (heat 1) 0).tick 1000).fld (pgTherm 0 + 264) 1 0) ∧
    (((repD dev 0).tick 1000).live = true ∧
     (repD dev 0).maintRun = [repM 0] ∧
     (repM 0).cls = 2 ∧
     (repM 0).target = 0 ∧
     ((repD dev 0).tick 1000).fld (pgTherm 0 + 264) 1 0 = 0 ∧
     (repM 0).phase = 0 ∧
     (∀ (c : Nat), c / 32 = 0 → ((repD dev 0).tick 1000).fencesIn c 0 = [] ∧ ((repD dev 0).tick 1000).fencesIn c 2 = []) ∧
     (repD dev 0).maintQueue = []) ∧
    ((repBusy.tick 1000).live = true ∧
     repBusy.maintRun = [repM 1] ∧
     (repM 1).cls = 2 ∧
     (repM 1).target = 0 ∧
     (repBusy.tick 1000).fld (pgTherm 0 + 264) 1 0 = 0 ∧
     0 < (repM 1).phase ∧
     (repBusy.tick 1000).noSectionsAt (32 * 0 + (repM 1).phase - 1) = false) ∧
    (((repD dev 1).tick 1000).live = true ∧
     (repD dev 1).maintRun = [repM 1] ∧
     (repM 1).cls = 2 ∧
     (repM 1).target = 0 ∧
     ((repD dev 1).tick 1000).fld (pgTherm 0 + 264) 1 0 = 0 ∧
     0 < (repM 1).phase ∧
     ((repD dev 1).tick 1000).noSectionsAt (32 * 0 + (repM 1).phase - 1) = true ∧
     ((repD dev 1).tick 1000).fencesIn (32 * 0 + (repM 1).phase - 1) 2 = []) := 
  ⟨by decide,
   by decide,
   by decide,
   by decide,
   by decide,
   by decide,
   by decide,
   by decide,
   by decide,
   ⟨by decide, by decide, by decide, by decide, by decide, by decide, repD_pending, by decide⟩,
   by decide,
   by decide⟩

theorem witness_YardCoreIntegerRegister :
    ((ycD ctxA (ycR 1 0 3 1 2)).AtInstr y0 rdOk 1 ctxA (ycR 1 0 3 1 2) (ycNum 1 0)) ∧
    ((ycD ctxA (ycR 1 1 3 1 2)).AtInstr y0 rdOk 1 ctxA (ycR 1 1 3 1 2) (ycNum 1 1)) ∧
    ((ycD ctxA (ycR 1 2 3 1 2)).AtInstr y0 rdOk 1 ctxA (ycR 1 2 3 1 2) (ycNum 1 2)) ∧
    ((ycD ctxA (ycR 1 3 3 1 2)).AtInstr y0 rdOk 1 ctxA (ycR 1 3 3 1 2) (ycNum 1 3)) ∧
    ((ycD ctxA (ycR 1 4 3 1 2)).AtInstr y0 rdOk 1 ctxA (ycR 1 4 3 1 2) (ycNum 1 4)) ∧
    ((ycD ctxA (ycR 1 5 3 1 2)).AtInstr y0 rdOk 1 ctxA (ycR 1 5 3 1 2) (ycNum 1 5)) ∧
    ((ycD ctxA (ycR 1 6 3 1 2)).AtInstr y0 rdOk 1 ctxA (ycR 1 6 3 1 2) (ycNum 1 6)) ∧
    ((ycD ctxA (ycR 1 7 3 1 2)).AtInstr y0 rdOk 1 ctxA (ycR 1 7 3 1 2) (ycNum 1 7)) ∧
    ((ycD ctxA (ycR 1 8 3 1 2)).AtInstr y0 rdOk 1 ctxA (ycR 1 8 3 1 2) (ycNum 1 8)) ∧
    ((ycD ctxA (ycR 1 9 3 1 2)).AtInstr y0 rdOk 1 ctxA (ycR 1 9 3 1 2) (ycNum 1 9)) ∧
    ((ycD ctxA (ycR 1 16 3 1 2)).AtInstr y0 rdOk 1 ctxA (ycR 1 16 3 1 2) (ycNum 1 16)) ∧
    ((ycD ctxA (ycR 1 17 3 1 2)).AtInstr y0 rdOk 1 ctxA (ycR 1 17 3 1 2) (ycNum 1 17)) ∧
    ((ycD ctxA (ycR 1 18 3 1 2)).AtInstr y0 rdOk 1 ctxA (ycR 1 18 3 1 2) (ycNum 1 18)) ∧
    ((ycD ctxA (ycR 1 24 3 1 2)).AtInstr y0 rdOk 1 ctxA (ycR 1 24 3 1 2) (ycNum 1 24)) ∧
    ((ycD ctxA (ycR 1 25 3 1 2)).AtInstr y0 rdOk 1 ctxA (ycR 1 25 3 1 2) (ycNum 1 25)) ∧
    ((ycD ctxA (ycR 1 26 3 1 2)).AtInstr y0 rdOk 1 ctxA (ycR 1 26 3 1 2) (ycNum 1 26)) ∧
    ((ycD ctxA (ycR 1 27 3 1 2)).AtInstr y0 rdOk 1 ctxA (ycR 1 27 3 1 2) (ycNum 1 27)) ∧
    ((ycD (ctxOf 9 0) (ycR 1 24 3 1 2)).AtInstr y0 rdOk 1 (ctxOf 9 0) (ycR 1 24 3 1 2) (ycNum 1 24)) ∧
    ((ycD (ctxOf 9 0) (ycR 1 25 3 1 2)).AtInstr y0 rdOk 1 (ctxOf 9 0) (ycR 1 25 3 1 2) (ycNum 1 25)) ∧
    ((ycD (ctxOf 9 0) (ycR 1 26 3 1 2)).AtInstr y0 rdOk 1 (ctxOf 9 0) (ycR 1 26 3 1 2) (ycNum 1 26)) ∧
    ((ycD (ctxOf 9 0) (ycR 1 27 3 1 2)).AtInstr y0 rdOk 1 (ctxOf 9 0) (ycR 1 27 3 1 2) (ycNum 1 27)) ∧
    ((ycD (ctxOf 9223372036854775808 18446744073709551615) (ycR 1 26 3 1 2)).AtInstr y0 rdOk 1 (ctxOf 9223372036854775808 18446744073709551615) (ycR 1 26 3 1 2) (ycNum 1 26)) ∧
    ((ycD (ctxOf 9223372036854775808 18446744073709551615) (ycR 1 27 3 1 2)).AtInstr y0 rdOk 1 (ctxOf 9223372036854775808 18446744073709551615) (ycR 1 27 3 1 2) (ycNum 1 27)) ∧
    ((ycD (ctxOf 9223372036854775808 18446744073709551615) (ycR 1 7 0 1 2)).AtInstr y0 rdOk 1 (ctxOf 9223372036854775808 18446744073709551615) (ycR 1 7 0 1 2) (ycNum 1 7)) := by
  refine ⟨?_, ?_, ?_, ?_, ?_, ?_, ?_, ?_, ?_, ?_, ?_, ?_, ?_, ?_, ?_, ?_, ?_, ?_, ?_, ?_, ?_, ?_, ?_, ?_⟩ <;> decide

theorem witness_YardCoreIntegerImmediate :
    ((ycD ctxA (ycI 2 3 1 65520)).AtInstr y0 rdOk 1 ctxA (ycI 2 3 1 65520) (ycNum 2 0)) ∧
    ((ycD ctxA (ycI 3 3 1 65520)).AtInstr y0 rdOk 1 ctxA (ycI 3 3 1 65520) (ycNum 3 0)) ∧
    ((ycD ctxA (ycI 4 3 1 65520)).AtInstr y0 rdOk 1 ctxA (ycI 4 3 1 65520) (ycNum 4 0)) ∧
    ((ycD ctxA (ycI 5 3 1 65520)).AtInstr y0 rdOk 1 ctxA (ycI 5 3 1 65520) (ycNum 5 0)) ∧
    ((ycD ctxA (ycI 6 3 1 5)).AtInstr y0 rdOk 1 ctxA (ycI 6 3 1 5) (ycNum 6 0)) ∧
    ((ycD ctxA (ycI 6 3 1 69)).AtInstr y0 rdOk 1 ctxA (ycI 6 3 1 69) (ycNum 6 1)) ∧
    ((ycD ctxA (ycI 6 3 1 133)).AtInstr y0 rdOk 1 ctxA (ycI 6 3 1 133) (ycNum 6 2)) ∧
    ((ycD ctxA (ycI 7 3 1 43981)).AtInstr y0 rdOk 1 ctxA (ycI 7 3 1 43981) (ycNum 7 0)) := by
  refine ⟨?_, ?_, ?_, ?_, ?_, ?_, ?_, ?_⟩ <;> decide

theorem witness_YardCoreFloat :
    ((ycD ctxF (ycR 8 0 3 1 2)).AtInstr y0 rdOk 1 ctxF (ycR 8 0 3 1 2) (ycNum 8 0)) ∧
    ((ycD ctxF (ycR 8 1 3 1 2)).AtInstr y0 rdOk 1 ctxF (ycR 8 1 3 1 2) (ycNum 8 1)) ∧
    ((ycD ctxF (ycR 8 2 3 1 2)).AtInstr y0 rdOk 1 ctxF (ycR 8 2 3 1 2) (ycNum 8 2)) ∧
    ((ycD ctxF (ycR 8 3 3 1 2)).AtInstr y0 rdOk 1 ctxF (ycR 8 3 3 1 2) (ycNum 8 3)) ∧
    ((ycD ctxF (ycR 8 4 3 1 2)).AtInstr y0 rdOk 1 ctxF (ycR 8 4 3 1 2) (ycNum 8 4)) ∧
    ((ycD ctxF (ycR 8 5 3 1 2)).AtInstr y0 rdOk 1 ctxF (ycR 8 5 3 1 2) (ycNum 8 5)) ∧
    ((ycD ctxF (ycR 8 6 3 1 2)).AtInstr y0 rdOk 1 ctxF (ycR 8 6 3 1 2) (ycNum 8 6)) ∧
    ((ycD ctxF (ycR 8 7 3 1 2)).AtInstr y0 rdOk 1 ctxF (ycR 8 7 3 1 2) (ycNum 8 7)) ∧
    ((ycD ctxF (ycR 8 8 3 1 2)).AtInstr y0 rdOk 1 ctxF (ycR 8 8 3 1 2) (ycNum 8 8)) ∧
    ((ycD ctxF (ycR 8 9 3 1 2)).AtInstr y0 rdOk 1 ctxF (ycR 8 9 3 1 2) (ycNum 8 9)) ∧
    ((ycD ctxF (ycR 8 10 3 1 2)).AtInstr y0 rdOk 1 ctxF (ycR 8 10 3 1 2) (ycNum 8 10)) ∧
    ((ycD ctxF (ycR 8 11 3 1 2)).AtInstr y0 rdOk 1 ctxF (ycR 8 11 3 1 2) (ycNum 8 11)) ∧
    ((ycD ctxF (ycR 8 96 3 1 2)).AtInstr y0 rdOk 1 ctxF (ycR 8 96 3 1 2) (ycNum 8 0)) ∧
    ((ycD ctxF (ycR 8 97 3 1 2)).AtInstr y0 rdOk 1 ctxF (ycR 8 97 3 1 2) (ycNum 8 1)) ∧
    ((ycD ctxF (ycR 8 98 3 1 2)).AtInstr y0 rdOk 1 ctxF (ycR 8 98 3 1 2) (ycNum 8 2)) ∧
    ((ycD ctxF (ycR 8 99 3 1 2)).AtInstr y0 rdOk 1 ctxF (ycR 8 99 3 1 2) (ycNum 8 3)) ∧
    ((ycD ctxF (ycR 8 100 3 1 2)).AtInstr y0 rdOk 1 ctxF (ycR 8 100 3 1 2) (ycNum 8 4)) ∧
    ((ycD ctxF (ycR 8 101 3 1 2)).AtInstr y0 rdOk 1 ctxF (ycR 8 101 3 1 2) (ycNum 8 5)) ∧
    ((ycD ctxF (ycR 8 102 3 1 2)).AtInstr y0 rdOk 1 ctxF (ycR 8 102 3 1 2) (ycNum 8 6)) ∧
    ((ycD ctxF (ycR 8 103 3 1 2)).AtInstr y0 rdOk 1 ctxF (ycR 8 103 3 1 2) (ycNum 8 7)) ∧
    ((ycD ctxF (ycR 8 104 3 1 2)).AtInstr y0 rdOk 1 ctxF (ycR 8 104 3 1 2) (ycNum 8 8)) ∧
    ((ycD ctxF (ycR 8 105 3 1 2)).AtInstr y0 rdOk 1 ctxF (ycR 8 105 3 1 2) (ycNum 8 9)) ∧
    ((ycD ctxF (ycR 8 106 3 1 2)).AtInstr y0 rdOk 1 ctxF (ycR 8 106 3 1 2) (ycNum 8 10)) ∧
    ((ycD ctxF (ycR 8 107 3 1 2)).AtInstr y0 rdOk 1 ctxF (ycR 8 107 3 1 2) (ycNum 8 11)) := by
  refine ⟨?_, ?_, ?_, ?_, ?_, ?_, ?_, ?_, ?_, ?_, ?_, ?_, ?_, ?_, ?_, ?_, ?_, ?_, ?_, ?_, ?_, ?_, ?_, ?_⟩ <;> decide

theorem witness_YardCoreLoads :
    ((ycD ctxM (ycI 16 3 1 256)).AtInstr y0 rdOk 1 ctxM (ycI 16 3 1 256) (ycNum 16 0) ∧
     (BitVec.toNat (ctxM.word64 (bits (ycI 16 3 1 256) 15 11) + BitVec.signExtend 64 (BitVec.ofNat 16 (bits (ycI 16 3 1 256) 31 16))) % 8 = 0 ∧ (ycD ctxM (ycI 16 3 1 256)).ycOk 0 1 (BitVec.toNat (ctxM.word64 (bits (ycI 16 3 1 256) 15 11) + BitVec.signExtend 64 (BitVec.ofNat 16 (bits (ycI 16 3 1 256) 31 16)))) 8 = true ∧ rdOk.data = Ecc.ok)) ∧
    ((ycD ctxM (ycI 17 3 1 260)).AtInstr y0 rdOk 1 ctxM (ycI 17 3 1 260) (ycNum 17 0) ∧
     (BitVec.toNat (ctxM.word64 (bits (ycI 17 3 1 260) 15 11) + BitVec.signExtend 64 (BitVec.ofNat 16 (bits (ycI 17 3 1 260) 31 16))) % 4 = 0 ∧ (ycD ctxM (ycI 17 3 1 260)).ycOk 0 1 (BitVec.toNat (ctxM.word64 (bits (ycI 17 3 1 260) 15 11) + BitVec.signExtend 64 (BitVec.ofNat 16 (bits (ycI 17 3 1 260) 31 16)))) 4 = true ∧ rdOk.data = Ecc.ok)) ∧
    ((ycD ctxM (ycI 18 3 1 260)).AtInstr y0 rdOk 1 ctxM (ycI 18 3 1 260) (ycNum 18 0) ∧
     (BitVec.toNat (ctxM.word64 (bits (ycI 18 3 1 260) 15 11) + BitVec.signExtend 64 (BitVec.ofNat 16 (bits (ycI 18 3 1 260) 31 16))) % 4 = 0 ∧ (ycD ctxM (ycI 18 3 1 260)).ycOk 0 1 (BitVec.toNat (ctxM.word64 (bits (ycI 18 3 1 260) 15 11) + BitVec.signExtend 64 (BitVec.ofNat 16 (bits (ycI 18 3 1 260) 31 16)))) 4 = true ∧ rdOk.data = Ecc.ok)) ∧
    ((ycD ctxM (ycI 19 3 1 263)).AtInstr y0 rdOk 1 ctxM (ycI 19 3 1 263) (ycNum 19 0) ∧
     (BitVec.toNat (ctxM.word64 (bits (ycI 19 3 1 263) 15 11) + BitVec.signExtend 64 (BitVec.ofNat 16 (bits (ycI 19 3 1 263) 31 16))) % 1 = 0 ∧ (ycD ctxM (ycI 19 3 1 263)).ycOk 0 1 (BitVec.toNat (ctxM.word64 (bits (ycI 19 3 1 263) 15 11) + BitVec.signExtend 64 (BitVec.ofNat 16 (bits (ycI 19 3 1 263) 31 16)))) 1 = true ∧ rdOk.data = Ecc.ok)) ∧
    ((ycD ctxM (ycI 16 3 1 260)).AtInstr y0 rdOk 1 ctxM (ycI 16 3 1 260) (ycNum 16 0) ∧
     BitVec.toNat (ctxM.word64 (bits (ycI 16 3 1 260) 15 11) + BitVec.signExtend 64 (BitVec.ofNat 16 (bits (ycI 16 3 1 260) 31 16))) % 8 ≠ 0) ∧
    ((ycD ctxM (ycI 17 3 1 61440)).AtInstr y0 rdOk 1 ctxM (ycI 17 3 1 61440) (ycNum 17 0) ∧
     BitVec.toNat (ctxM.word64 (bits (ycI 17 3 1 61440) 15 11) + BitVec.signExtend 64 (BitVec.ofNat 16 (bits (ycI 17 3 1 61440) 31 16))) % 4 = 0 ∧
     (ycD ctxM (ycI 17 3 1 61440)).ycOk 0 1 (BitVec.toNat (ctxM.word64 (bits (ycI 17 3 1 61440) 15 11) + BitVec.signExtend 64 (BitVec.ofNat 16 (bits (ycI 17 3 1 61440) 31 16)))) 4 = false) := by
  refine ⟨?_, ?_, ?_, ?_, ?_, ?_⟩ <;> decide

theorem witness_YardCoreStores :
    ((ycD ctxM (ycI 20 2 1 256)).AtInstr y0 rdOk 1 ctxM (ycI 20 2 1 256) (ycNum 20 0) ∧
     (BitVec.toNat (ctxM.word64 (bits (ycI 20 2 1 256) 15 11) + BitVec.signExtend 64 (BitVec.ofNat 16 (bits (ycI 20 2 1 256) 31 16))) % 8 = 0 ∧ (ycD ctxM (ycI 20 2 1 256)).ycOk 0 1 (BitVec.toNat (ctxM.word64 (bits (ycI 20 2 1 256) 15 11) + BitVec.signExtend 64 (BitVec.ofNat 16 (bits (ycI 20 2 1 256) 31 16)))) 8 = true)) ∧
    ((ycD ctxM (ycI 21 2 1 260)).AtInstr y0 rdOk 1 ctxM (ycI 21 2 1 260) (ycNum 21 0) ∧
     (BitVec.toNat (ctxM.word64 (bits (ycI 21 2 1 260) 15 11) + BitVec.signExtend 64 (BitVec.ofNat 16 (bits (ycI 21 2 1 260) 31 16))) % 4 = 0 ∧ (ycD ctxM (ycI 21 2 1 260)).ycOk 0 1 (BitVec.toNat (ctxM.word64 (bits (ycI 21 2 1 260) 15 11) + BitVec.signExtend 64 (BitVec.ofNat 16 (bits (ycI 21 2 1 260) 31 16)))) 4 = true)) ∧
    ((ycD ctxM (ycI 22 2 1 263)).AtInstr y0 rdOk 1 ctxM (ycI 22 2 1 263) (ycNum 22 0) ∧
     (BitVec.toNat (ctxM.word64 (bits (ycI 22 2 1 263) 15 11) + BitVec.signExtend 64 (BitVec.ofNat 16 (bits (ycI 22 2 1 263) 31 16))) % 1 = 0 ∧ (ycD ctxM (ycI 22 2 1 263)).ycOk 0 1 (BitVec.toNat (ctxM.word64 (bits (ycI 22 2 1 263) 15 11) + BitVec.signExtend 64 (BitVec.ofNat 16 (bits (ycI 22 2 1 263) 31 16)))) 1 = true)) := by
  refine ⟨?_, ?_, ?_⟩ <;> decide

theorem witness_YardCoreBranches :
    ((ycD ctxA (ycI 24 1 2 65534)).AtInstr y0 rdOk 1 ctxA (ycI 24 1 2 65534) (ycNum 24 0)) ∧
    ((ycD (ctxOf 5 5) (ycI 24 1 2 3)).AtInstr y0 rdOk 1 (ctxOf 5 5) (ycI 24 1 2 3) (ycNum 24 0)) ∧
    ((ycD ctxA (ycI 25 1 2 65534)).AtInstr y0 rdOk 1 ctxA (ycI 25 1 2 65534) (ycNum 25 0)) ∧
    ((ycD (ctxOf 5 5) (ycI 25 1 2 3)).AtInstr y0 rdOk 1 (ctxOf 5 5) (ycI 25 1 2 3) (ycNum 25 0)) ∧
    ((ycD ctxA (ycI 26 1 2 65534)).AtInstr y0 rdOk 1 ctxA (ycI 26 1 2 65534) (ycNum 26 0)) ∧
    ((ycD (ctxOf 5 5) (ycI 26 1 2 3)).AtInstr y0 rdOk 1 (ctxOf 5 5) (ycI 26 1 2 3) (ycNum 26 0)) ∧
    ((ycD ctxA (ycI 27 1 2 65534)).AtInstr y0 rdOk 1 ctxA (ycI 27 1 2 65534) (ycNum 27 0)) ∧
    ((ycD (ctxOf 5 5) (ycI 27 1 2 3)).AtInstr y0 rdOk 1 (ctxOf 5 5) (ycI 27 1 2 3) (ycNum 27 0)) ∧
    ((ycD ctxA (ycI 28 1 2 65534)).AtInstr y0 rdOk 1 ctxA (ycI 28 1 2 65534) (ycNum 28 0)) ∧
    ((ycD (ctxOf 5 5) (ycI 28 1 2 3)).AtInstr y0 rdOk 1 (ctxOf 5 5) (ycI 28 1 2 3) (ycNum 28 0)) ∧
    ((ycD ctxA (ycI 29 1 2 65534)).AtInstr y0 rdOk 1 ctxA (ycI 29 1 2 65534) (ycNum 29 0)) ∧
    ((ycD (ctxOf 5 5) (ycI 29 1 2 3)).AtInstr y0 rdOk 1 (ctxOf 5 5) (ycI 29 1 2 3) (ycNum 29 0)) ∧
    ((ycD ctxA (30 + 64 * 67108863)).AtInstr y0 rdOk 1 ctxA (30 + 64 * 67108863) (ycNum 30 0)) ∧
    ((ycD ctxM (ycI 31 5 1 65527)).AtInstr y0 rdOk 1 ctxM (ycI 31 5 1 65527) (ycNum 31 0)) := by
  refine ⟨?_, ?_, ?_, ?_, ?_, ?_, ?_, ?_, ?_, ?_, ?_, ?_, ?_, ?_⟩ <;> decide

theorem witness_YardCoreCsrs :
    ((ycD ctxA (ycI 32 3 1 13)).AtInstr y0 rdOk 1 ctxA (ycI 32 3 1 13) (ycNum 32 0)) ∧
    ((ycD ctxA (ycI 33 3 1 8)).AtInstr y0 rdOk 1 ctxA (ycI 33 3 1 8) (ycNum 33 0) ∧
     bits (ycI 33 3 1 8) 27 16 = 8) ∧
    ((ycD ctxA (ycI 33 3 1 9)).AtInstr y0 rdOk 1 ctxA (ycI 33 3 1 9) (ycNum 33 0) ∧
     bits (ycI 33 3 1 9) 27 16 = 9) ∧
    ((ycD ctxA (ycI 33 3 1 13)).AtInstr y0 rdOk 1 ctxA (ycI 33 3 1 13) (ycNum 33 0) ∧
     bits (ycI 33 3 1 13) 27 16 = 13) ∧
    ((ycD ctxA (ycI 34 3 1 13)).AtInstr y0 rdOk 1 ctxA (ycI 34 3 1 13) (ycNum 34 0) ∧
     bits (ycI 34 3 1 13) 27 16 = 13 ∧
     ctxA.scratch < 2 ^ 64) ∧
    ((ycD ctxA (ycI 35 3 1 13)).AtInstr y0 rdOk 1 ctxA (ycI 35 3 1 13) (ycNum 35 0) ∧
     bits (ycI 35 3 1 13) 27 16 = 13 ∧
     ctxA.scratch < 2 ^ 64) ∧
    ((ycD ctxA (ycI 33 3 1 2)).AtInstr y0 rdOk 1 ctxA (ycI 33 3 1 2) (ycNum 33 0) ∧
     [8, 9, 10, 13, 18, 19].contains (bits (ycI 33 3 1 2) 27 16) = false) ∧
    ((ycD ctxA (ycI 34 3 1 11)).AtInstr y0 rdOk 1 ctxA (ycI 34 3 1 11) (ycNum 34 0) ∧
     [8, 9, 10, 13, 18, 19].contains (bits (ycI 34 3 1 11) 27 16) = false) ∧
    ((ycD ctxA (ycI 35 3 1 1)).AtInstr y0 rdOk 1 ctxA (ycI 35 3 1 1) (ycNum 35 0) ∧
     [8, 9, 10, 13, 18, 19].contains (bits (ycI 35 3 1 1) 27 16) = false) ∧
    ((4 ≤ bits (ycI 32 3 1 20) 27 16 ∧ bits (ycI 32 3 1 20) 27 16 ≤ 7 ∨ bits (ycI 32 3 1 20) 27 16 = 14 ∨ bits (ycI 32 3 1 20) 27 16 = 15 ∨ 20 ≤ bits (ycI 32 3 1 20) 27 16)) := by
  refine ⟨?_, ?_, ?_, ?_, ?_, ?_, ?_, ?_, ?_, ?_⟩ <;> decide

theorem witness_YardCoreMessages :
    ((inQ (ycD ctx5 wRecv) [other, sTok 77 true, other]).AtInstr y0 rdOk 1 ctx5 wRecv (ycNum 41 0) ∧
     (inQ (ycD ctx5 wRecv) [other, sTok 77 true, other]).inboundOf 0 1 = [other] ++ [sTok 77 true, other] ∧
     (∀ (x : InTok), x ∈ [other] → ¬(x.net = ctx5.get (bits wRecv 15 11) / 2 ^ 8 % 2 ∧ x.tok.chan = ctx5.get (bits wRecv 15 11) % 2 ^ 8)) ∧
     ((sTok 77 true).net = ctx5.get (bits wRecv 15 11) / 2 ^ 8 % 2 ∧ (sTok 77 true).tok.chan = ctx5.get (bits wRecv 15 11) % 2 ^ 8)) ∧
    ((inQ (ycD ctx5 wRecv) [other]).AtInstr y0 rdOk 1 ctx5 wRecv (ycNum 41 0) ∧
     (∀ (x : InTok), x ∈ (inQ (ycD ctx5 wRecv) [other]).inboundOf 0 1 → ¬(x.net = ctx5.get (bits wRecv 15 11) / 2 ^ 8 % 2 ∧ x.tok.chan = ctx5.get (bits wRecv 15 11) % 2 ^ 8)) ∧
     wRecv / 2 ^ 21 % 2 = 0) ∧
    ((inQ (ycD ctx5 (ycR 41 1 3 1 0)) [other]).AtInstr y0 rdOk 1 ctx5 (ycR 41 1 3 1 0) (ycNum 41 0) ∧
     (∀ (x : InTok), x ∈ (inQ (ycD ctx5 (ycR 41 1 3 1 0)) [other]).inboundOf 0 1 → ¬(x.net = ctx5.get (bits (ycR 41 1 3 1 0) 15 11) / 2 ^ 8 % 2 ∧ x.tok.chan = ctx5.get (bits (ycR 41 1 3 1 0) 15 11) % 2 ^ 8)) ∧
     ycR 41 1 3 1 0 / 2 ^ 21 % 2 = 1) ∧
    ((inQ (ycD ctx5 (ycR 43 0 3 1 0)) [other]).AtInstr y0 rdOk 1 ctx5 (ycR 43 0 3 1 0) (ycNum 43 0) ∧
     (inQ (ycD ctx5 (ycR 43 0 3 1 0)) [other]).inboundOf 0 1 ≠ []) ∧
    ((ycD ctx5 (ycR 43 0 3 1 0)).AtInstr y0 rdOk 1 ctx5 (ycR 43 0 3 1 0) (ycNum 43 0) ∧
     (ycD ctx5 (ycR 43 0 3 1 0)).inboundOf 0 1 = [] ∧
     ctx5.get (bits (ycR 43 0 3 1 0) 15 11) ≤ (ycD ctx5 (ycR 43 0 3 1 0)).now) ∧
    ((ycD ctxLate (ycR 43 0 3 1 0)).AtInstr y0 rdOk 1 ctxLate (ycR 43 0 3 1 0) (ycNum 43 0) ∧
     (ycD ctxLate (ycR 43 0 3 1 0)).inboundOf 0 1 = [] ∧
     (ycD ctxLate (ycR 43 0 3 1 0)).now < ctxLate.get (bits (ycR 43 0 3 1 0) 15 11)) ∧
    ((ycD ctxLate (ycR 40 1 0 1 2)).AtInstr y0 rdOk 1 ctxLate (ycR 40 1 0 1 2) (ycNum 40 0) ∧
     ycR 40 1 0 1 2 / 2 ^ 21 % 4 = 1 ∧
     ctxLate.get (bits (ycR 40 1 0 1 2) 15 11) / 2 ^ 28 % 4 = 1 ∧
     sendOpcode { hdr := mkHdr 1 (ctxLate.get (bits (ycR 40 1 0 1 2) 15 11) / 2 ^ 4 % 2 ^ 16) (ctxLate.get (bits (ycR 40 1 0 1 2) 15 11) / 2 ^ 20 % 2 ^ 8) 1 (bit (ctxLate.get (bits (ycR 40 1 0 1 2) 15 11)) 30), payload := ctxLate.get (bits (ycR 40 1 0 1 2) 20 16) % 2 ^ 56 : Token }.opcode = true ∧
     ((ycD ctxLate (ycR 40 1 0 1 2)).inQueue 0 4 9).length < 16) ∧
    (((ycD ctxLate (ycR 40 1 0 1 2)).setInQueue 0 4 9 (List.replicate 16 tokC)).AtInstr y0 rdOk 1 ctxLate (ycR 40 1 0 1 2) (ycNum 40 0) ∧
     ycR 40 1 0 1 2 / 2 ^ 21 % 4 = 1 ∧
     ctxLate.get (bits (ycR 40 1 0 1 2) 15 11) / 2 ^ 28 % 4 = 1 ∧
     sendOpcode { hdr := mkHdr 1 (ctxLate.get (bits (ycR 40 1 0 1 2) 15 11) / 2 ^ 4 % 2 ^ 16) (ctxLate.get (bits (ycR 40 1 0 1 2) 15 11) / 2 ^ 20 % 2 ^ 8) 1 (bit (ctxLate.get (bits (ycR 40 1 0 1 2) 15 11)) 30), payload := ctxLate.get (bits (ycR 40 1 0 1 2) 20 16) % 2 ^ 56 : Token }.opcode = true ∧
     16 ≤ (((ycD ctxLate (ycR 40 1 0 1 2)).setInQueue 0 4 9 (List.replicate 16 tokC)).inQueue 0 4 9).length) ∧
    ((ycD ctx5 (ycR 56 0 0 0 0)).AtInstr y0 rdOk 1 ctx5 (ycR 56 0 0 0 0) (ycNum 56 0)) := by
  refine ⟨?_, ?_, ?_, ?_, ?_, ?_, ?_, ?_, ?_⟩ <;> decide

theorem witness_YardCoreReach :
    ((inQ (ycD ctx5 wSum) [sTok 1 false, sTok 2 false, sTok 3 false, sTok 4 true]).AtInstr y0 rdOk 1 ctx5 wSum (ycNum 42 0) ∧
     (inQ (ycD ctx5 wSum) [sTok 1 false, sTok 2 false, sTok 3 false, sTok 4 true]).inboundOf 0 1 = List.map (fun t => { net := 0, tok := t, notice := false : InTok }) [sumT 1 false, sumT 2 false, sumT 3 false, sumT 4 true] ∧
     (∀ (t : Token), t ∈ [sumT 1 false, sumT 2 false, sumT 3 false, sumT 4 true] → t.chan = ctx5.get (bits wSum 15 11) % 256 ∧ t.tag = (sumT 1 false).tag ∧ t.kind = 0) ∧
     (sumT 1 false).last = false ∧
     (sumT 2 false).last = false ∧
     (sumT 3 false).last = false ∧
     (sumT 4 true).last = true) ∧
    ((ycD ctxR (ycR 45 0 0 1 0)).AtInstr y0 rdOk 1 ctxR (ycR 45 0 0 1 0) (ycNum 45 0) ∧
     (ycD ctxR (ycR 45 0 0 1 0)).ycOk 0 1 (ctxR.get (bits (ycR 45 0 0 1 0) 15 11)) 80 = true ∧
     rdOk.data = Ecc.ok) ∧
    ((reefD (ycD ctxR (ycR 44 0 0 1 0))).AtInstr y0 rdOk 1 ctxR (ycR 44 0 0 1 0) (ycNum 44 0) ∧
     (reefD (ycD ctxR (ycR 44 0 0 1 0))).ycOk 0 1 (ctxR.get (bits (ycR 44 0 0 1 0) 15 11)) 16 = true ∧
     (reefD (ycD ctxR (ycR 44 0 0 1 0))).ycOk 0 1 (ctxR.get (bits (ycR 44 0 0 1 0) 15 11)) (16 + ((reefD (ycD ctxR (ycR 44 0 0 1 0))).local_ 0).readNat (ctxR.get (bits (ycR 44 0 0 1 0) 15 11) + 12) 2) = true ∧
     rdOk.data = Ecc.ok ∧
     fieldOf (((reefD (ycD ctxR (ycR 44 0 0 1 0))).local_ 0).read (ctxR.get (bits (ycR 44 0 0 1 0) 15 11)) (16 + ((reefD (ycD ctxR (ycR 44 0 0 1 0))).local_ 0).readNat (ctxR.get (bits (ycR 44 0 0 1 0) 15 11) + 12) 2)) 0 1 = 0 ∧
     fieldOf (((reefD (ycD ctxR (ycR 44 0 0 1 0))).local_ 0).read (ctxR.get (bits (ycR 44 0 0 1 0) 15 11)) (16 + ((reefD (ycD ctxR (ycR 44 0 0 1 0))).local_ 0).readNat (ctxR.get (bits (ycR 44 0 0 1 0) 15 11) + 12) 2)) 1 1 ≤ 37 ∧
     ((reefD (ycD ctxR (ycR 44 0 0 1 0))).core 0).streamer.length < 4) ∧
    (16 ≤ ctxX.get (bits (ycR 46 0 3 1 2) 10 6) ∧
     ctxX.get (bits (ycR 46 0 3 1 2) 10 6) ≤ 65536 ∧
     ctxX.get (bits (ycR 46 0 3 1 2) 10 6) % 16 = 0 ∧
     (ycD ctxX (ycR 46 0 3 1 2)).reach (((ycD ctxX (ycR 46 0 3 1 2)).partOfYard 0).getD 0) (ctxX.get (bits (ycR 46 0 3 1 2) 20 16)) (ctxX.get (bits (ycR 46 0 3 1 2) 10 6)) = true ∧
     (ycD ctxX (ycR 46 0 3 1 2)).ycOk 0 1 (ctxX.get (bits (ycR 46 0 3 1 2) 15 11)) (ctxX.get (bits (ycR 46 0 3 1 2) 10 6)) = true ∧
     ctxX.xfers.length < 4 ∧
     (ycD ctxX (ycR 46 0 3 1 2)).AtInstr y0 rdOk 1 ctxX (ycR 46 0 3 1 2) (ycNum 46 0)) ∧
    (16 ≤ ctxX.get (bits (ycR 46 1 3 1 2) 10 6) ∧
     ctxX.get (bits (ycR 46 1 3 1 2) 10 6) ≤ 65536 ∧
     ctxX.get (bits (ycR 46 1 3 1 2) 10 6) % 16 = 0 ∧
     (ycD ctxX (ycR 46 1 3 1 2)).reach (((ycD ctxX (ycR 46 1 3 1 2)).partOfYard 0).getD 0) (ctxX.get (bits (ycR 46 1 3 1 2) 20 16)) (ctxX.get (bits (ycR 46 1 3 1 2) 10 6)) = true ∧
     (ycD ctxX (ycR 46 1 3 1 2)).ycOk 0 1 (ctxX.get (bits (ycR 46 1 3 1 2) 15 11)) (ctxX.get (bits (ycR 46 1 3 1 2) 10 6)) = true ∧
     ctxX.xfers.length < 4 ∧
     (ycD ctxX (ycR 46 1 3 1 2)).AtInstr y0 rdOk 1 ctxX (ycR 46 1 3 1 2) (ycNum 46 1)) ∧
    ((ycD ctxX (ycR 47 0 0 0 0)).AtInstr y0 rdOk 1 ctxX (ycR 47 0 0 0 0) (ycNum 47 0) ∧
     ctxX.xfers = []) ∧
    ((wcOn (ycD ctxC (ycR 48 0 3 1 0))).AtInstr y0 rdOk 1 ctxC (ycR 48 0 3 1 0) (ycNum 48 0) ∧
     (wcOn (ycD ctxC (ycR 48 0 3 1 0))).wcAllowed 0 1 (ctxC.get (bits (ycR 48 0 3 1 0) 15 11) % 1024) = true) ∧
    ((wcOn (ycD ctxC (ycR 49 0 3 1 2))).AtInstr y0 rdOk 1 ctxC (ycR 49 0 3 1 2) (ycNum 49 0) ∧
     (wcOn (ycD ctxC (ycR 49 0 3 1 2))).wcAllowed 0 1 (ctxC.get (bits (ycR 49 0 3 1 2) 20 16) % 1024) = true) ∧
    ((ycD ctxT (ycR 57 0 0 0 0)).AtInstr y0 rdOk 1 ctxT (ycR 57 0 0 0 0) (ycNum 57 0) ∧
     ctxT.held10 = none) := by
  refine ⟨?_, ?_, ?_, ?_, ?_, ?_, ?_, ?_, ?_⟩ <;> decide

theorem witness_YardCoreBlock :
    ((dev.setOffer 0 4 9 tokC).live = true ∧
     (dev.setOffer 0 4 9 tokC).offer 0 4 (laneCode Lane.halyard) = some tokC ∧
     laneNet (laneCode Lane.halyard) ≠ 0 ∧
     destError (laneNet (laneCode Lane.halyard)) tokC = none ∧
     (List.filter (fun e => !e.notice) ((dev.setOffer 0 4 9 tokC).inboundOf 0 tokC.job)).length < 120 ∧
     ((dev.setOffer 0 4 9 tokC).inboundOf 0 tokC.job).length < 128) ∧
    ((strD { job := 1, unit := 3, toks := [tokC, tokC] : StreamRec }).live = true ∧
     ((strD { job := 1, unit := 3, toks := [tokC, tokC] : StreamRec }).core 0).streamer = [{ job := 1, unit := 3, toks := [tokC, tokC] : StreamRec }] ∧
     { job := 1, unit := 3, toks := [tokC, tokC] : StreamRec }.toks = [tokC, tokC] ∧
     (strD { job := 1, unit := 3, toks := [tokC, tokC] : StreamRec }).offer 0 (8 + { job := 1, unit := 3, toks := [tokC, tokC] : StreamRec }.unit) 9 = none) ∧
    ((strD { job := 1, unit := 3, toks := [tokC] : StreamRec }).live = true ∧
     ((strD { job := 1, unit := 3, toks := [tokC] : StreamRec }).core 0).streamer = [{ job := 1, unit := 3, toks := [tokC] : StreamRec }] ∧
     { job := 1, unit := 3, toks := [tokC] : StreamRec }.toks = [tokC] ∧
     (strD { job := 1, unit := 3, toks := [tokC] : StreamRec }).offer 0 (8 + { job := 1, unit := 3, toks := [tokC] : StreamRec }.unit) 9 = none) ∧
    ((asked (ycD ctxXf 2)).live = true ∧
     (asked (ycD ctxXf 2)).ctx 0 1 = some ctxXf ∧
     ctxXf.inFrame = false ∧
     ctxXf.xfers[0]? = some xf ∧
     (asked (ycD ctxXf 2)).served (askKey (Asker.xfer xf.id)) = true ∧
     xf.toHbm = true) ∧
    ((asked (ycD ctxIn 2)).live = true ∧
     (asked (ycD ctxIn 2)).ctx 0 1 = some ctxIn ∧
     ctxIn.inFrame = false ∧
     ctxIn.xfers[0]? = some xfIn ∧
     (asked (ycD ctxIn 2)).served (askKey (Asker.xfer xfIn.id)) = true ∧
     xfIn.toHbm = false) ∧
    ((asked (ycD ctxXf 2)).live = true ∧
     (asked (ycD ctxXf 2)).ctx 0 1 = some ctxXf ∧
     ctxXf.inFrame = false ∧
     ctxXf.xfers[0]? = some xf ∧
     (asked (ycD ctxXf 2)).served (askKey (Asker.xfer xf.id)) = true ∧
     xf.toHbm = true ∧
     ctxXf.st ≠ CtxSt.faulted) ∧
    (wcD.live = true ∧
     wcD.wcQ = [req5] ∧
     req5.commit = false ∧
     wcD.ctx req5.y req5.job = some ctxAsk ∧
     ctxAsk.asked = true ∧
     bit (wcD.wcWord req5.counter 1) 62 = false ∧
     bits (wcD.wcWord req5.counter 0) 31 0 < bits (wcD.wcWord req5.counter 0) 63 32) ∧
    (leaseD.live = true) ∧
    (wcSel.live = true ∧
     wcSel.Open accA (pgCore 0 + 520) ∧
     accA.size = 8 ∧
     wcSel.wcQ = [] ∧
     wcSel.fld (pgCore 0 + 512) 17 16 = 0 ∧
     wcSel.partOfYard 0 = some (bits (wcSel.wcWord (wcSel.fld (pgCore 0 + 512) 9 0) 1) 61 59)) ∧
    ((inQ (ycD ctxW 2) [other]).live = true ∧
     ((inQ (ycD ctxW 2) [other]).core 0).cur = some 1 ∧
     (inQ (ycD ctxW 2) [other]).ctx 0 1 = some ctxW ∧
     ctxW.st = CtxSt.blocked ∧
     ctxW.asked = false ∧
     bits ctxW.word 5 0 = 43 ∧
     (inQ (ycD ctxW 2) [other]).inboundOf 0 1 ≠ [] ∧
     ctxW.due10 = none) := by
  refine ⟨?_, ?_, ?_, ?_, ?_, ?_, ?_, ?_, ?_, ?_⟩ <;> decide

theorem witness_YardCoreScheduler :
    ((schD CtxSt.ready).Open accA (pgCore 0 + 264) ∧
     acts (1035087118353#64).toNat 0 = true ∧
     acts (1035087118353#64).toNat 1 = false ∧
     1 = ((schD CtxSt.ready).storeReg (pgCore 0 + 264) (1035087118353#64).toNat (accMask accA)).fld (pgCore 0 + 264) 7 4 ∧
     (schD CtxSt.ready).ctx 0 1 = some (idleCtx CtxSt.ready) ∧
     (idleCtx CtxSt.ready).st = CtxSt.ready) ∧
    ((schD CtxSt.halted).Open accA (pgCore 0 + 264) ∧
     acts (1039382085650#64).toNat 0 = false ∧
     acts (1039382085650#64).toNat 1 = true ∧
     1 = ((schD CtxSt.halted).storeReg (pgCore 0 + 264) (1039382085650#64).toNat (accMask accA)).fld (pgCore 0 + 264) 7 4 ∧
     (schD CtxSt.halted).ctx 0 1 = some (idleCtx CtxSt.halted) ∧
     ((idleCtx CtxSt.halted).st = CtxSt.stopped ∨ (idleCtx CtxSt.halted).st = CtxSt.halted)) ∧
    ((schD CtxSt.stopped).Open accA (pgCore 0 + 264) ∧
     acts (1039382085650#64).toNat 0 = false ∧
     acts (1039382085650#64).toNat 1 = true ∧
     1 = ((schD CtxSt.stopped).storeReg (pgCore 0 + 264) (1039382085650#64).toNat (accMask accA)).fld (pgCore 0 + 264) 7 4 ∧
     (schD CtxSt.stopped).ctx 0 1 = some (idleCtx CtxSt.stopped) ∧
     ((idleCtx CtxSt.stopped).st = CtxSt.stopped ∨ (idleCtx CtxSt.stopped).st = CtxSt.halted)) ∧
    ((schD CtxSt.ready).live = true ∧
     (schD CtxSt.ready).partOfYard 0 = some 0 ∧
     (schD CtxSt.ready).saveOk 0 = true ∧
     (schD CtxSt.ready).bestCtx 0 0 = some 1 ∧
     ((schD CtxSt.ready).core 0).cur = none ∧
     (schD CtxSt.ready).ctx 0 1 = some (idleCtx CtxSt.ready) ∧
     (idleCtx CtxSt.ready).inFrame = false ∧
     (idleCtx CtxSt.ready).due10 = none) ∧
    (((schD CtxSt.ready).tick 2000).live = true ∧
     ((schD CtxSt.ready).tick 2000).partOfYard 0 = some 0 ∧
     ((schD CtxSt.ready).tick 2000).saveOk 0 = true ∧
     ((schD CtxSt.ready).tick 2000).bestCtx 0 0 = some 1 ∧
     ((schD CtxSt.ready).core 0).cur = none ∧
     ((schD CtxSt.ready).tick 2000).quantumOver 0 0 = true ∧
     (schD CtxSt.ready).ctx 0 1 = some (idleCtx CtxSt.ready) ∧
     (idleCtx CtxSt.ready).inFrame = false ∧
     (idleCtx CtxSt.ready).due10 = none) ∧
    ((twoD 0).live = true ∧
     (twoD 0).partOfYard 0 = some 0 ∧
     (twoD 0).saveOk 0 = true ∧
     (twoD 0).bestCtx 0 0 = some 1 ∧
     ((twoD 0).core 0).cur = some 0 ∧
     (twoD 0).prio 0 1 < (twoD 0).prio 0 0) ∧
    ((twoD 1).live = true ∧
     (twoD 1).partOfYard 0 = some 0 ∧
     (twoD 1).saveOk 0 = true ∧
     (twoD 1).bestCtx 0 0 = some 1 ∧
     ((twoD 1).core 0).cur = some 0 ∧
     (twoD 1).prio 0 0 < (twoD 1).prio 0 1 ∧
     (twoD 1).flag (jobCfg 0 0) 62 = false ∧
     (twoD 1).wcQ = [] ∧
     (twoD 1).ctx 0 0 = some (idleCtx CtxSt.running) ∧
     (twoD 1).ctx 0 1 = some (idleCtx CtxSt.ready) ∧
     (idleCtx CtxSt.ready).inFrame = false ∧
     (idleCtx CtxSt.ready).due10 = none ∧
     ((idleCtx CtxSt.running).dataLen = 0 ∨ Ecc.ok = Ecc.ok)) ∧
    ((ycD (idleCtx CtxSt.blocked) 2).Open accA (pgCore 0 + 264) ∧
     acts (1035087118353#64).toNat 0 = true ∧
     acts (1035087118353#64).toNat 1 = false ∧
     1 = ((ycD (idleCtx CtxSt.blocked) 2).storeReg (pgCore 0 + 264) (1035087118353#64).toNat (accMask accA)).fld (pgCore 0 + 264) 7 4 ∧
     (ycD (idleCtx CtxSt.blocked) 2).ctx 0 1 = some (idleCtx CtxSt.blocked) ∧
     ((idleCtx CtxSt.blocked).st = CtxSt.running ∨ (idleCtx CtxSt.blocked).st = CtxSt.blocked) ∧
     (ycD (idleCtx CtxSt.blocked) 2).partOfYard 0 = some 0 ∧
     (ycD (idleCtx CtxSt.blocked) 2).saveOk 0 = true ∧
     (ycD (idleCtx CtxSt.blocked) 2).wcQ = [] ∧
     ((ycD (idleCtx CtxSt.blocked) 2).core 0).cur = some 1 ∧
     ((idleCtx CtxSt.blocked).dataLen = 0 ∨ Ecc.ok = Ecc.ok)) := by
  refine ⟨?_, ?_, ?_, ?_, ?_, ?_, ?_, ?_⟩ <;> decide

theorem witness_StepPlanRegisters :
    ((seqD 7).Open accA (stepReg 0 1 40) ∧
     1 ∈ (seqD 7).jobsOf 0 ∧
     acts (BitVec.toNat (setW 0)) 0 = true ∧
     (seqD 7).seqState 0 1 = 7) ∧
    ((seqD 2).Open accA (stepReg 0 1 40) ∧
     1 ∈ (seqD 2).jobsOf 0 ∧
     (acts (BitVec.toNat (setW 0)) 0 = false ∨ (seqD 2).seqState 0 1 ≠ 7)) ∧
    (((seqD 3).Open accA (stepReg 0 1 (if false = true then 8 else 0))) ∧
     1 ∈ (seqD 3).jobsOf 0 ∧
     1 ≤ (seqD 3).seqState 0 1 ∧
     (seqD 3).seqState 0 1 ≤ 6) ∧
    (((seqD 7).Open accA (stepReg 0 1 (if false = true then 8 else 0))) ∧
     1 ∈ (seqD 7).jobsOf 0 ∧
     ((seqD 7).seqState 0 1 = 0 ∨ (seqD 7).seqState 0 1 = 7)) ∧
    (((seqD 7).Open accA (stepReg 0 1 (if true = true then 8 else 0))) ∧
     1 ∈ (seqD 7).jobsOf 0 ∧
     ((seqD 7).seqState 0 1 = 0 ∨ (seqD 7).seqState 0 1 = 7)) ∧
    (((gateD 255).tick 1000).live = true ∧
     ((gateD 255).seqState 0 1 ≠ 2 ∨ (gateD 255).fld (stepReg 0 1 8) 47 40 = 255 ∨ ¬Tab.get 0 (gateD 255).pipeEnd 1 + 2 * ((gateD 255).fld (stepReg 0 1 8) 63 48 * 1000) < ((gateD 255).tick 1000).now)) ∧
    (((gateD 3).tick 1000).live = true ∧
     (gateD 3).seqState 0 1 = 2 ∧
     (gateD 3).fld (stepReg 0 1 8) 47 40 ≠ 255 ∧
     Tab.get 0 (gateD 3).pipeEnd 1 + 2 * ((gateD 3).fld (stepReg 0 1 8) 63 48 * 1000) < ((gateD 3).tick 1000).now) := by
  refine ⟨?_, ?_, ?_, ?_, ?_, ?_, ?_⟩ <;> decide

theorem witness_PhaseAlternation :
    ((phD 0 255).live = true ∧
     ((phD 0 255).phState 0 1 ≠ 1 ∨ (((phD 0 255).sectionsOf 1).any fun c => c.phase != 0 && c.phase != (phD 0 255).phTarget 0 1) = true)) ∧
    (phBusy.live = true ∧
     (phBusy.phState 0 1 ≠ 1 ∨ ((phBusy.sectionsOf 1).any fun c => c.phase != 0 && c.phase != phBusy.phTarget 0 1) = true)) ∧
    ((phD 1 255).live = true ∧
     (phD 1 255).phState 0 1 = 1 ∧
     (((phD 1 255).sectionsOf 1).any fun c => c.phase != 0 && c.phase != (phD 1 255).phTarget 0 1) = false ∧
     (phD 1 255).phaseGroup 0 1 = 255 ∧
     (phD 1 255).heldFrames = [] ∧
     Tab.get [] (phD 1 255).waiting 0 = [] ∧
     Tab.get [] (phD 1 255).phaseHeld 1 = []) ∧
    (phHeld.live = true ∧
     phHeld.phState 0 1 = 1 ∧
     ((phHeld.sectionsOf 1).any fun c => c.phase != 0 && c.phase != phHeld.phTarget 0 1) = false ∧
     phHeld.phaseGroup 0 1 = 255 ∧
     phHeld.heldFrames = [] ∧
     Tab.get [] phHeld.waiting 0 = [] ∧
     Tab.get [] phHeld.phaseHeld 1 = [recR] ∧
     recR.job = 1 ∧
     phHeld.roleOf 0 1 recR.rig recR.section_ = 0 ∧
     phHeld.phaseOfRig 0 1 recR.rig = phHeld.phTarget 0 1 ∧
     phHeld.r96Holds 0 1 = true) ∧
    ((phD 1 3).live = true ∧
     (phD 1 3).phState 0 1 = 1 ∧
     (((phD 1 3).sectionsOf 1).any fun c => c.phase != 0 && c.phase != (phD 1 3).phTarget 0 1) = false ∧
     (phD 1 3).phaseGroup 0 1 ≠ 255 ∧
     Tab.get [] (phD 1 3).phaseHeard 1 = [] ∧
     (phD 1 3).children ((phD 1 3).phaseGroup 0 1) ≠ []) ∧
    (((phD 1 3).tick 1000).live = true ∧
     ((phD 1 3).phState 0 1 ≠ 2 ∨ ¬Tab.get 0 (phD 1 3).phaseT0 1 + (phD 1 3).fld (phReg 0 1 8) 31 16 * 1000 < ((phD 1 3).tick 1000).now)) ∧
    (((phD 2 3).tick 1000).live = true ∧
     (phD 2 3).phState 0 1 = 2 ∧
     Tab.get 0 (phD 2 3).phaseT0 1 + (phD 2 3).fld (phReg 0 1 8) 31 16 * 1000 < ((phD 2 3).tick 1000).now) ∧
    ((phD 1 3).Open accA (phReg 0 1 24) ∧
     1 ∈ (phD 1 3).jobsOf 0 ∧
     (phD 1 3).phState 0 1 ≠ 3) ∧
    ((phD 3 3).Open accA (phReg 0 1 24) ∧
     1 ∈ (phD 3 3).jobsOf 0 ∧
     (phD 3 3).phState 0 1 = 3 ∧
     acts (BitVec.toNat (setW 0)) 0 = true ∧
     Tab.get [] (phD 3 3).phaseHeard 1 = [] ∧
     (phD 3 3).children ((phD 3 3).phaseGroup 0 1) ≠ []) ∧
    ((phD 3 3).Open accA (phReg 0 1 24) ∧
     1 ∈ (phD 3 3).jobsOf 0 ∧
     (phD 3 3).phState 0 1 = 3 ∧
     acts (BitVec.toNat (setW 1)) 0 = false ∧
     acts (BitVec.toNat (setW 1)) 1 = true ∧
     (phD 3 3).heldFrames = [] ∧
     Tab.get [] (phD 3 3).waiting 0 = [] ∧
     Tab.get [] (phD 3 3).phaseHeld 1 = []) ∧
    ((phD 1 3).Open accA (phReg 0 1 8) ∧
     1 ∈ (phD 1 3).jobsOf 0 ∧
     ((phD 1 3).phState 0 1 ≠ 0 ∨ (phD 1 3).fld (phReg 0 1 16) 56 54 ≠ 0)) ∧
    (phSkip.Open accA (phReg 0 1 8) ∧
     1 ∈ phSkip.jobsOf 0 ∧
     (phSkip.phState 0 1 ≠ 0 ∨ phSkip.fld (phReg 0 1 16) 56 54 ≠ 0)) ∧
    ((phD 0 3).Open accA (phReg 0 1 8) ∧
     1 ∈ (phD 0 3).jobsOf 0 ∧
     (phD 0 3).phState 0 1 = 0 ∧
     (phD 0 3).fld (phReg 0 1 16) 56 54 = 0 ∧
     (((phD 0 3).storeReg (phReg 0 1 8) (5#64).toNat (accMask accA)).phaseOn 0 1 = false ∨ (phD 0 3).phaseOn 0 1 = true)) ∧
    (dev.Open accA (phReg 0 1 0) ∧
     accA.size = 8 ∧
     1 ∈ dev.jobsOf 0 ∧
     ((dev.seqState 0 1 = 0 ∨ dev.seqState 0 1 = 7) ∧ dev.jobIdle 1 = true ∧ ∀ (k : Nat), k ∈ dev.followers 0 1 → dev.jobIdle k = true)) ∧
    ((withSec secC).Open accA (phReg 0 1 0) ∧
     accA.size = 8 ∧
     1 ∈ (withSec secC).jobsOf 0 ∧
     (¬(((withSec secC).seqState 0 1 = 0 ∨ (withSec secC).seqState 0 1 = 7) ∧ (withSec secC).jobIdle 1 = true ∧ ∀ (k : Nat), k ∈ (withSec secC).followers 0 1 → (withSec secC).jobIdle k = true))) := by
  refine ⟨?_, ?_, ?_, ?_, ?_, ?_, ?_, ?_, ?_, ?_, ?_, ?_, ?_, ?_, ?_⟩ <;> decide

theorem witness_NumericsRegisters :
    (lntBusy.Open accA (lntAddr 7 + 8 * 2) ∧
     lntBusy.lntEn 7 = true ∧
     lntBusy.partOfJob (lntBusy.lntJob 7) = some 0 ∧
     (lntBusy.seqQuiet 0 (lntBusy.lntJob 7) = false ∨ lntBusy.jobIdle (lntBusy.lntJob 7) = false)) ∧
    (dev.Open accA (lntAddr 7 + 8 * 2) ∧
     (dev.lntEn 7 = false ∨ dev.partOfJob (dev.lntJob 7) = none) ∧
     (2 ≠ 1 ∨ bit (5#64).toNat 63 = false)) ∧
    ((seqD 1).Open accA (numReg 0 1 0) ∧
     accA.size = 8 ∧
     1 ∈ (seqD 1).jobsOf 0 ∧
     (seqD 1).seqQuiet 0 1 = false) ∧
    ((seqD 7).Open accA (numReg 0 1 0) ∧
     accA.size = 8 ∧
     1 ∈ (seqD 7).jobsOf 0 ∧
     (seqD 7).seqQuiet 0 1 = true) ∧
    ((seqD 7).Open accA (numReg 0 1 40) ∧
     1 ∈ (seqD 7).jobsOf 0 ∧
     acts (BitVec.toNat (setW 1)) 1 = true ∧
     acts (BitVec.toNat (setW 1)) 0 = false) ∧
    ((seqD 2).Open accA (numReg 0 1 40) ∧
     1 ∈ (seqD 2).jobsOf 0 ∧
     acts (BitVec.toNat (setW 0)) 0 = true ∧
     acts (BitVec.toNat (setW 0)) 1 = false ∧
     (seqD 2).seqQuiet 0 1 = false) ∧
    (lntD.Open accA (numReg 0 1 40) ∧
     1 ∈ lntD.jobsOf 0 ∧
     acts (BitVec.toNat (setW 0)) 0 = true ∧
     acts (BitVec.toNat (setW 0)) 1 = false ∧
     lntD.seqQuiet 0 1 = true) := by
  refine ⟨?_, ?_, ?_, ?_, ?_, ?_, ?_⟩ <;> decide

theorem witness_PortLifecycle :
    (dev.portState 9 ≠ 1) ∧
    ((portD 1).portState 9 = 1 ∧
     255 = 255 ∧
     (portD 1).cagesOff.contains 9 = false ∧
     (portD 1).flag (pgGlobal + 2352) 15 = false) ∧
    ((portD 1).portState 9 = 1 ∧
     (119#8).toNat % 16 ≠ 15 ∧
     (119#8).toNat / 16 ≠ 15 ∧
     (portD 1).port 9 = { : PortState }) ∧
    ((dev.portState 9 = 0 ∧ dev.flag (pgPort 9 + 256) 0 = true ∧ bit dev.stayAbsent (9 / 4) = false ∧ dev.oscOut.contains 1 = false ∧ 5 ≤ dev.stage ∧ dev.stage ≤ 7 ∧ (dev.port 9).downAt + 10000000 ≤ (dev.tick 6000000).now)) ∧
    ((¬(dev.portState 9 = 0 ∧ dev.flag (pgPort 9 + 256) 0 = true ∧ bit dev.stayAbsent (9 / 4) = false ∧ dev.oscOut.contains 1 = false ∧ 5 ≤ dev.stage ∧ dev.stage ≤ 7 ∧ (dev.port 9).downAt + 10000000 ≤ (dev.tick 1000).now))) ∧
    (dev.portState 9 ≠ 2) ∧
    ((idOk (sentId (portD 2))).portState 9 = 2 ∧
     (idOk (sentId (portD 2))).ethernet 9 = false ∧
     (idOk (sentId (portD 2))).flag (pgGlobal + 2352) 15 = true ∧
     ((idOk (sentId (portD 2))).port 9).partner = none ∧
     ((idOk (sentId (portD 2))).port 9).identSent ≤ ((idOk (sentId (portD 2))).tick 1000).now + 1 - 1000000) ∧
    (2 ≤ (idOk (sentId (portD 2))).portState 9 ∧
     (idOk (sentId (portD 2))).ethernet 9 = false ∧
     ((idOk (sentId (portD 2))).port 9).replay = [] ∧
     ((idOk (sentId (portD 2))).port 9).queues = [] ∧
     (idOk (sentId (portD 2))).identBad 9 (infoOf 4) = true) ∧
    (2 ≤ (idOk (sentId (portD 2))).portState 9 ∧
     (idOk (sentId (portD 2))).ethernet 9 = false ∧
     ((idOk (sentId (portD 2))).port 9).replay = [] ∧
     ((idOk (sentId (portD 2))).port 9).queues = [] ∧
     (idOk (sentId (portD 2))).portState 9 = 2 ∧
     ((idOk (sentId (portD 2))).port 9).identSent ≠ 0 ∧
     (idOk (sentId (portD 2))).identBad 9 (infoOf 5) = false) ∧
    ((idOk (portD 3)).portState 9 = 3 ∧
     (idOk (portD 3)).ethernet 9 = false ∧
     (idOk (portD 3)).identBad 9 (infoOf 5) = false) ∧
    ((portD 1).portState 9 < 2) ∧
    (2 ≤ (portD 3).portState 9 ∧
     (portD 3).fld (pgPort 9 + 264) 60 59 = 3 ∧
     (portD 3).fld (pgPort 9 + 264) 7 0 = 255 ∧
     false = false ∧
     ((portD 3).port 9).replay = [] ∧
     ((portD 3).port 9).queues = []) ∧
    (2 ≤ (portD 3).portState 9 ∧
     (portD 3).port 9 = { : PortState } ∧
     ((portD 3).fld (pgPort 9 + 264) 60 59 = 3 ∧ true = true ∨ (portD 3).fld (pgPort 9 + 264) 60 59 = 1 ∧ 5 < 4 ∨ (portD 3).fld (pgPort 9 + 264) 60 59 = 2 ∧ 4 ≤ 5)) ∧
    (2 ≤ (portW 3 1).portState 9 ∧
     (portW 3 1).port 9 = { : PortState } ∧
     ((portW 3 1).fld (pgPort 9 + 264) 60 59 = 3 ∧ false = true ∨ (portW 3 1).fld (pgPort 9 + 264) 60 59 = 1 ∧ 3 < 4 ∨ (portW 3 1).fld (pgPort 9 + 264) 60 59 = 2 ∧ 4 ≤ 3)) ∧
    (2 ≤ (portW 3 2).portState 9 ∧
     (portW 3 2).port 9 = { : PortState } ∧
     ((portW 3 2).fld (pgPort 9 + 264) 60 59 = 3 ∧ false = true ∨ (portW 3 2).fld (pgPort 9 + 264) 60 59 = 1 ∧ 4 < 4 ∨ (portW 3 2).fld (pgPort 9 + 264) 60 59 = 2 ∧ 4 ≤ 4)) ∧
    ((dev.portState 9 = 0 ∨ 4 = 0)) ∧
    (((portD 3).portState 9 = 0 ∨ 0 = 0)) ∧
    ((portD 3).portState 9 ≠ 0 ∧
     4 ≠ 0 ∧
     (portD 3).port 9 = { : PortState }) := by
  refine ⟨?_, ?_, ?_, ?_, ?_, ?_, ?_, ?_, ?_, ?_, ?_, ?_, ?_, ?_, ?_, ?_, ?_, ?_⟩ <;> decide

theorem witness_LinkConfiguration :
    (early.Open accA (pgPort 9 + 256) ∧
     (early.live = false ∨ early.oscOut.contains 1 = true)) ∧
    ((portD 3).Open accA (pgPort 9 + 256) ∧
     ((portD 3).storeReg (pgPort 9 + 256) (BitVec.toNat cfg5) (accMask accA)).flag (pgPort 9 + 256) 0 = (portD 3).flag (pgPort 9 + 256) 0 ∧
     ((portD 3).storeReg (pgPort 9 + 256) (BitVec.toNat cfg5) (accMask accA)).ethernet 9 = (portD 3).ethernet 9) ∧
    ((portD 3).Open accA (pgPort 9 + 256) ∧
     (portD 3).live = true ∧
     (portD 3).oscOut.contains 1 = false ∧
     (portD 3).flag (pgPort 9 + 256) 0 = true ∧
     ((portD 3).storeReg (pgPort 9 + 256) (BitVec.toNat cfg4) (accMask accA)).flag (pgPort 9 + 256) 0 = false ∧
     (portD 3).port 9 = { : PortState }) ∧
    (off9.Open accA (pgPort 9 + 256) ∧
     off9.live = true ∧
     off9.oscOut.contains 1 = false ∧
     off9.flag (pgPort 9 + 256) 0 = false ∧
     (off9.storeReg (pgPort 9 + 256) (BitVec.toNat cfg5) (accMask accA)).flag (pgPort 9 + 256) 0 = true ∧
     off9.port 9 = { : PortState }) ∧
    (dev.Open accA (pgGlobal + 2352) ∧
     (∀ (q : Nat), q < 32 → dev.portUp q = false)) ∧
    ((portD 3).Open accA (pgGlobal + 2352)) ∧
    (grpBusy.Open accA (pgGroup 3 + 8 * 0) ∧
     grpBusy.flag (pgGroup 3) 63 = true ∧
     (grpBusy.jobIdle (grpBusy.fld (pgGroup 3) 59 56) = false ∨ ∃ pt, grpBusy.partOfJob (grpBusy.fld (pgGroup 3) 59 56) = some pt ∧ grpBusy.phState pt (grpBusy.fld (pgGroup 3) 59 56) ≠ 0)) ∧
    (dev.Open accA (pgGroup 3 + 8 * 2) ∧
     dev.flag (pgGroup 3) 63 = false ∧
     ((dev.storeReg (pgGroup 3 + 8 * 2) (9224779411738329217#64).toNat (accMask accA)).setFlag (pgGroup 3) 3 false).flag (pgGroup 3) 63 = false) ∧
    (dev.Open accA (pgGroup 3 + 8 * 0) ∧
     dev.flag (pgGroup 3) 63 = false ∧
     ((dev.storeReg (pgGroup 3 + 8 * 0) (9295429630892703792#64).toNat (accMask accA)).setFlag (pgGroup 3) 3 false).flag (pgGroup 3) 63 = true ∧
     ((dev.storeReg (pgGroup 3 + 8 * 0) (9295429630892703792#64).toNat (accMask accA)).setFlag (pgGroup 3) 3 false).groupBad (List.map (fun i => ((dev.storeReg (pgGroup 3 + 8 * 0) (9295429630892703792#64).toNat (accMask accA)).setFlag (pgGroup 3) 3 false).reg (pgGroup 3 + 8 * i)) (List.range 9)) = true) := by
  refine ⟨?_, ?_, ?_, ?_, ?_, ?_, ?_, ?_, ?_⟩ <;> decide

theorem witness_LinkFrames :
    (dev.portUp 9 = false) ∧
    (upD.phaseMeets (frameOf 1 5 8 pay64) = Meets.take ∧
     upD.inject = [] ∧
     bit (upD.reg (pgPort (4 * (9 / 4)) + 2048 + 8 * (fTarget (frameOf 1 5 8 pay64) % 256))) 31 = true ∧
     upD.logicalOf (staySite (9 / 4) (bits (upD.reg (pgPort (4 * (9 / 4)) + 2048 + 8 * (fTarget (frameOf 1 5 8 pay64) % 256))) 30 30)).fst = some 2 ∧
     (upD.inQueue 2 (staySite (9 / 4) (bits (upD.reg (pgPort (4 * (9 / 4)) + 2048 + 8 * (fTarget (frameOf 1 5 8 pay64) % 256))) 30 30)).snd (bits (upD.reg (pgPort (4 * (9 / 4)) + 2048 + 8 * (fTarget (frameOf 1 5 8 pay64) % 256))) 29 27)).length < 16 ∧
     upD.Takes 9 (frameOf 1 5 8 pay64) 1 ∧
     (frameOf 1 5 8 pay64).payload.length = 64) ∧
    (upD.phaseMeets (frameOf 2 5 8 []) = Meets.take ∧
     upD.inject = [] ∧
     bit (upD.reg (pgPort (4 * (9 / 4)) + 2048 + 8 * (fTarget (frameOf 2 5 8 []) % 256))) 31 = true ∧
     upD.logicalOf (staySite (9 / 4) (bits (upD.reg (pgPort (4 * (9 / 4)) + 2048 + 8 * (fTarget (frameOf 2 5 8 []) % 256))) 30 30)).fst = some 2 ∧
     (upD.inQueue 2 (staySite (9 / 4) (bits (upD.reg (pgPort (4 * (9 / 4)) + 2048 + 8 * (fTarget (frameOf 2 5 8 []) % 256))) 30 30)).snd (bits (upD.reg (pgPort (4 * (9 / 4)) + 2048 + 8 * (fTarget (frameOf 2 5 8 []) % 256))) 29 27)).length < 16 ∧
     upD.Takes 9 (frameOf 2 5 8 []) 2) ∧
    ((withRun upD (runOf (descOf 1 0))).Takes 9 (frameOf 3 5 (2 + 2 ^ 48) pay64) 3 ∧
     (withRun upD (runOf (descOf 1 0))).phaseMeets (frameOf 3 5 (2 + 2 ^ 48) pay64) = Meets.take ∧
     (withRun upD (runOf (descOf 1 0))).runFor (9 / 4) (frameOf 3 5 (2 + 2 ^ 48) pay64) = some (runOf (descOf 1 0)) ∧
     dRing (runOf (descOf 1 0)).body = false ∧
     bit (fTarget (frameOf 3 5 (2 + 2 ^ 48) pay64)) 16 = false ∧
     (withRun upD (runOf (descOf 1 0))).slotFrom (dGroup (runOf (descOf 1 0)).body) (fSrc (frameOf 3 5 (2 + 2 ^ 48) pay64)) = some 0 ∧
     0 ∈ (withRun upD (runOf (descOf 1 0))).children (dGroup (runOf (descOf 1 0)).body) ∧
     (¬0 ∈ (runOf (descOf 1 0)).missing) ∧
     (¬(0, bits (fTarget (frameOf 3 5 (2 + 2 ^ 48) pay64)) 36 17) ∈ (runOf (descOf 1 0)).taken)) ∧
    (upD.portUp 9 = true ∧
     upD.ethernet 9 = false ∧
     (frameOf 4 0 0 [] (2 ^ 47 + 2 * 2 ^ 44 + 5 * 2 ^ 36)).payload.length = fLen (frameOf 4 0 0 [] (2 ^ 47 + 2 * 2 ^ 44 + 5 * 2 ^ 36)) ∧
     frameError (frameOf 4 0 0 [] (2 ^ 47 + 2 * 2 ^ 44 + 5 * 2 ^ 36)) = none ∧
     fType (frameOf 4 0 0 [] (2 ^ 47 + 2 * 2 ^ 44 + 5 * 2 ^ 36)) = 4 ∧
     fDst (frameOf 4 0 0 [] (2 ^ 47 + 2 * 2 ^ 44 + 5 * 2 ^ 36)) = upD.devId ∧
     fld13 (frameOf 4 0 0 [] (2 ^ 47 + 2 * 2 ^ 44 + 5 * 2 ^ 36)) 239 239 = 1 ∧
     fld13 (frameOf 4 0 0 [] (2 ^ 47 + 2 * 2 ^ 44 + 5 * 2 ^ 36)) 227 227 = 0 ∧
     (upD.port 9).queues = [] ∧
     (∀ (e : Sent), e ∈ (upD.port 9).replay → e.due = false)) ∧
    ((phL 1 upD).partOfJob (fJob (frameOf 5 1 2 [])) = some 0 ∧
     fGroup (frameOf 5 1 2 []) = (phL 1 upD).phaseGroup 0 (fJob (frameOf 5 1 2 [])) ∧
     (phL 1 upD).slotFrom ((phL 1 upD).phaseGroup 0 (fJob (frameOf 5 1 2 []))) (fSrc (frameOf 5 1 2 [])) = some 0 ∧
     (phL 1 upD).Takes 9 (frameOf 5 1 2 []) 5 ∧
     (phL 1 upD).phaseOn 0 (fJob (frameOf 5 1 2 [])) = true ∧
     (phL 1 upD).phState 0 (fJob (frameOf 5 1 2 [])) < 2 ∧
     fTag (frameOf 5 1 2 []) = ((phL 1 upD).epoch (fJob (frameOf 5 1 2 [])) + 1) % 65536 ∧
     0 ∈ (phL 1 upD).children ((phL 1 upD).phaseGroup 0 (fJob (frameOf 5 1 2 [])))) ∧
    ((phL 2 upP).partOfJob (fJob (frameOf 6 0 2 [])) = some 0 ∧
     fGroup (frameOf 6 0 2 []) = (phL 2 upP).phaseGroup 0 (fJob (frameOf 6 0 2 [])) ∧
     (phL 2 upP).slotFrom ((phL 2 upP).phaseGroup 0 (fJob (frameOf 6 0 2 []))) (fSrc (frameOf 6 0 2 [])) = some 0 ∧
     (phL 2 upP).Takes 9 (frameOf 6 0 2 []) 6 ∧
     2 ≤ (phL 2 upP).phState 0 (fJob (frameOf 6 0 2 [])) ∧
     (phL 2 upP).parent ((phL 2 upP).phaseGroup 0 (fJob (frameOf 6 0 2 []))) = some 0 ∧
     fTag (frameOf 6 0 2 []) = (phL 2 upP).epoch (fJob (frameOf 6 0 2 [])) ∧
     fTarget (frameOf 6 0 2 []) % 4 = (phL 2 upP).phTarget 0 (fJob (frameOf 6 0 2 [])) ∧
     (phL 2 upP).heldFrames = [] ∧
     Tab.get [] (phL 2 upP).waiting 0 = [] ∧
     Tab.get [] (phL 2 upP).phaseHeld (fJob (frameOf 6 0 2 [])) = []) ∧
    ((∀ (e : Nat × Nat), e ∈ (upD.port 9).unacked → e.fst / 32768 ≠ 1 ∨ e.snd = 0)) ∧
    (unackD.portUp 9 = true ∧
     unackD.paused 9 0 = false) ∧
    ((∀ (e : Sent), e ∈ (upD.port 9).replay → ¬e.at_ + upD.fld (pgPort 9 + 256) 63 48 * 1000 < (upD.tick 1000).now)) ∧
    (crD.portUp 9 = true ∧
     (crD.port 9).replay = [sent 1] ∧
     (crD.port 9).queues = [] ∧
     (sent 1).at_ + crD.fld (pgPort 9 + 256) 63 48 * 1000 < (crD.tick 1000).now ∧
     (sent 1).sends < 8 ∧
     (sent 1).frame.vc < 8 ∧
     (if crD.ethernet 9 = true then crD.paused 9 (sent 1).frame.vc = false else crD.credits 9 (sent 1).frame.vc ≠ 0)) ∧
    ((sentD 1).portUp 9 = true ∧
     ((sentD 1).port 9).replay = [sent 1] ∧
     ((sentD 1).port 9).queues = [] ∧
     (sent 1).at_ + (sentD 1).fld (pgPort 9 + 256) 63 48 * 1000 < ((sentD 1).tick 1000).now ∧
     (sent 1).sends < 8 ∧
     (sent 1).frame.vc < 8 ∧
     (¬if (sentD 1).ethernet 9 = true then (sentD 1).paused 9 (sent 1).frame.vc = false else (sentD 1).credits 9 (sent 1).frame.vc ≠ 0)) ∧
    ((∃ e, e ∈ ((sentD 8).port 9).replay ∧ e.at_ + (sentD 8).fld (pgPort 9 + 256) 63 48 * 1000 < ((sentD 8).tick 1000).now ∧ 8 ≤ e.sends) ∧
     (sentD 8).portUp 9 = true ∧
     ((sentD 8).port 9).queues = [] ∧
     (∀ (e : Sent), e ∈ ((sentD 8).port 9).replay → (sentD 8).otherPort 9 e.frame = none)) ∧
    ((upD.portUp 9 = false ∨ upD.ethernet 9 = false)) ∧
    (ethD.portUp 9 = true ∧
     ethD.ethernet 9 = true) := by
  refine ⟨?_, ?_, ?_, ?_, ?_, ?_, ?_, ?_, ?_, ?_, ?_, ?_, ?_, ?_, ?_⟩ <;> decide

theorem witness_TokenBridge :
    (Tab.get [] upD.bridgeTok (32 * 2 + 16 * 0 + 0) = []) ∧
    (Tab.get [] (brD (tk 2 0 false)).bridgeTok (32 * 2 + 16 * 0 + 0) = [tk 2 0 false] ∧
     (brD (tk 2 0 false)).bridgeFull 2 (tk 2 0 false) = false ∧
     (bit ((brD (tk 2 0 false)).chanMap 2 (tk 2 0 false).chan) 63 = false ∨ (tk 2 0 false).job ≠ bits ((brD (tk 2 0 false)).chanMap 2 (tk 2 0 false).chan) 42 39)) ∧
    (Tab.get [] (brD (tk 1 0 false)).bridgeTok (32 * 2 + 16 * 0 + 0) = [tk 1 0 false] ∧
     (brD (tk 1 0 false)).bridgeFull 2 (tk 1 0 false) = false ∧
     bit ((brD (tk 1 0 false)).chanMap 2 (tk 1 0 false).chan) 63 = true ∧
     (tk 1 0 false).job = bits ((brD (tk 1 0 false)).chanMap 2 (tk 1 0 false).chan) 42 39 ∧
     (tk 1 0 false).kind = 0 ∧
     (tk 1 0 false).last = false ∧
     (brD (tk 1 0 false)).packs.find? (256 * 2 + (tk 1 0 false).chan) = none) ∧
    (Tab.get [] (packD (tk 1 0 false) 5000000).bridgeTok (32 * 2 + 16 * 0 + 0) = [tk 1 0 false] ∧
     (packD (tk 1 0 false) 5000000).bridgeFull 2 (tk 1 0 false) = false ∧
     bit ((packD (tk 1 0 false) 5000000).chanMap 2 (tk 1 0 false).chan) 63 = true ∧
     (tk 1 0 false).job = bits ((packD (tk 1 0 false) 5000000).chanMap 2 (tk 1 0 false).chan) 42 39 ∧
     (tk 1 0 false).kind = 0 ∧
     (tk 1 0 false).last = false ∧
     (packD (tk 1 0 false) 5000000).packs.find? (256 * 2 + (tk 1 0 false).chan) = some { job := 1, tag := 3, toks := [5], at_ := 5000000 : Pack } ∧
     { job := 1, tag := 3, toks := [5], at_ := 5000000 : Pack }.job = (tk 1 0 false).job ∧
     { job := 1, tag := 3, toks := [5], at_ := 5000000 : Pack }.tag = (tk 1 0 false).tag ∧
     { job := 1, tag := 3, toks := [5], at_ := 5000000 : Pack }.toks.length < 63) ∧
    (Tab.get [] fullBr.bridgeTok (32 * 2 + 16 * 0 + 0) = [tk 1 0 false] ∧
     fullBr.bridgeFull 2 (tk 1 0 false) = true) ∧
    (upD.packs.find? (256 * 2 + 8) = none) ∧
    ((packD (tk 1 0 false) 5000000).packs.find? (256 * 2 + 8) = some { job := 1, tag := 3, toks := [5], at_ := 5000000 : Pack } ∧
     ((packD (tk 1 0 false) 5000000).tick 50).now < { job := 1, tag := 3, toks := [5], at_ := 5000000 : Pack }.at_ + 100) ∧
    ((packD (tk 1 0 false) 5000000).packs.find? (256 * 2 + 8) = some { job := 1, tag := 3, toks := [5], at_ := 5000000 : Pack } ∧
     { job := 1, tag := 3, toks := [5], at_ := 5000000 : Pack }.at_ + 100 ≤ ((packD (tk 1 0 false) 5000000).tick 100).now) := by
  refine ⟨?_, ?_, ?_, ?_, ?_, ?_, ?_, ?_⟩ <;> decide

theorem witness_CollectiveDescriptors :
    (fullD.live = true ∧
     (4 ≤ (fullD.engine 2).running.length ∨ (fullD.engine 2).nextWait = none)) ∧
    (collD.live = true ∧
     (collD.engine 2).running.length < 4 ∧
     (collD.engine 2).nextWait = some wait5 ∧
     collD.waitBody 2 wait5 = some (descOf 1 0) ∧
     collD.heldFrames = []) ∧
    (upD.live = true ∧
     upD.runAt 2 2 = none) ∧
    ((withRun upD red1).live = true ∧
     (withRun upD red1).runAt 2 2 = some red1 ∧
     dRing red1.body = false ∧
     dFlag red1.body 4 = false ∧
     red1.upK = k0 ∧
     k0 < dChunks red1.body ∧
     dOp red1.body ≠ 4 ∧
     0 ∈ (withRun upD red1).children (dGroup red1.body) ∧
     (¬0 ∈ red1.missing) ∧
     red1.chunkFrom 0 k0 = none) ∧
    ((withRun (loneD upD) red1).live = true ∧
     (withRun (loneD upD) red1).runAt 2 2 = some red1 ∧
     dRing red1.body = false ∧
     dFlag red1.body 4 = false ∧
     red1.upK = k0 ∧
     k0 < dChunks red1.body ∧
     dOp red1.body = 1 ∧
     (withRun (loneD upD) red1).children (dGroup red1.body) = [] ∧
     (withRun (loneD upD) red1).askers.find? (askKey (Asker.run 2 2)) = none) ∧
    ((askRun 5 (withRun (loneD upD) red1)).live = true ∧
     (askRun 5 (withRun (loneD upD) red1)).runAt 2 2 = some red1 ∧
     dRing red1.body = false ∧
     dFlag red1.body 4 = false ∧
     red1.upK = k0 ∧
     k0 < dChunks red1.body ∧
     dOp red1.body = 1 ∧
     (askRun 5 (withRun (loneD upD) red1)).children (dGroup red1.body) = [] ∧
     (askRun 5 (withRun (loneD upD) red1)).served (askKey (Asker.run 2 2)) = false) ∧
    ((askRun 0 (withRun (loneD upD) red1)).live = true ∧
     (askRun 0 (withRun (loneD upD) red1)).runAt 2 2 = some red1 ∧
     dRing red1.body = false ∧
     dFlag red1.body 4 = false ∧
     red1.upK = k0 ∧
     k0 < dChunks red1.body ∧
     dOp red1.body = 1 ∧
     (askRun 0 (withRun (loneD upD) red1)).children (dGroup red1.body) = [] ∧
     (askRun 0 (withRun (loneD upD) red1)).askers.find? (askKey (Asker.run 2 2)) ≠ none ∧
     (askRun 0 (withRun (loneD upD) red1)).served (askKey (Asker.run 2 2)) = true ∧
     dFlag red1.body 1 = false ∧
     dInFmt red1.body = 9 ∧
     dOutFmt red1.body = 9 ∧
     (askRun 0 (withRun (loneD upD) red1)).parent (dGroup red1.body) = none) ∧
    ((withRun upD red1).live = true ∧
     (withRun upD red1).runAt 2 2 = some red1 ∧
     (withRun upD red1).runDone 2 red1 = false) ∧
    ((withRun (loneD upD) redDone).live = true ∧
     (withRun (loneD upD) redDone).runAt 2 2 = some redDone ∧
     (withRun (loneD upD) redDone).runDone 2 redDone = true) ∧
    (((withRun (loneD upD) red1).tick 1000).live = true ∧
     (withRun (loneD upD) red1).runAt 2 2 = some red1 ∧
     (¬red1.t0 + dDeadline red1.body * (dLevel red1.body + 1) * 1000 < ((withRun (loneD upD) red1).tick 1000).now ∨ dDeadline red1.body = 0 ∨ dRing red1.body = true ∨ dOp red1.body = 4 ∨ List.filter (fun i => !red1.taken.contains (i, 0)) (red1.present ((withRun (loneD upD) red1).children (dGroup red1.body))) = [])) ∧
    (((withRun upD red1).tick 1000).live = true ∧
     (withRun upD red1).runAt 2 2 = some red1 ∧
     red1.t0 + dDeadline red1.body * (dLevel red1.body + 1) * 1000 < ((withRun upD red1).tick 1000).now ∧
     dDeadline red1.body ≠ 0 ∧
     dRing red1.body = false ∧
     dOp red1.body ≠ 4 ∧
     dFlag red1.body 4 = false ∧
     List.filter (fun i => !red1.taken.contains (i, 0)) (red1.present ((withRun upD red1).children (dGroup red1.body))) ≠ []) := by
  refine ⟨?_, ?_, ?_, ?_, ?_, ?_, ?_, ?_, ?_, ?_, ?_⟩ <;> decide

theorem witness_CollectiveAgreements :
    (upD.Takes 9 (frameOf 7 5 (1 + 2 ^ 8 + 511 * 2 ^ 16) []) 7 ∧
     fDesc (frameOf 7 5 (1 + 2 ^ 8 + 511 * 2 ^ 16) []) = 511 ∧
     upD.slotFrom (fGroup (frameOf 7 5 (1 + 2 ^ 8 + 511 * 2 ^ 16) [])) (fSrc (frameOf 7 5 (1 + 2 ^ 8 + 511 * 2 ^ 16) [])) = some 0 ∧
     upD.agreeLate false (fJob (frameOf 7 5 (1 + 2 ^ 8 + 511 * 2 ^ 16) [])) (fGroup (frameOf 7 5 (1 + 2 ^ 8 + 511 * 2 ^ 16) [])) (fTag (frameOf 7 5 (1 + 2 ^ 8 + 511 * 2 ^ 16) [])) = false ∧
     (upD.agreeAt false (fJob (frameOf 7 5 (1 + 2 ^ 8 + 511 * 2 ^ 16) [])) (fGroup (frameOf 7 5 (1 + 2 ^ 8 + 511 * 2 ^ 16) [])) (fTag (frameOf 7 5 (1 + 2 ^ 8 + 511 * 2 ^ 16) []))).own = none ∧
     fCode (frameOf 7 5 (1 + 2 ^ 8 + 511 * 2 ^ 16) []) = 1 ∧
     0 ∈ upD.children (fGroup (frameOf 7 5 (1 + 2 ^ 8 + 511 * 2 ^ 16) [])) ∧
     (upD.agreeAt false (fJob (frameOf 7 5 (1 + 2 ^ 8 + 511 * 2 ^ 16) [])) (fGroup (frameOf 7 5 (1 + 2 ^ 8 + 511 * 2 ^ 16) [])) (fTag (frameOf 7 5 (1 + 2 ^ 8 + 511 * 2 ^ 16) []))).sent = false ∧
     ((upD.agreeAt false (fJob (frameOf 7 5 (1 + 2 ^ 8 + 511 * 2 ^ 16) [])) (fGroup (frameOf 7 5 (1 + 2 ^ 8 + 511 * 2 ^ 16) [])) (fTag (frameOf 7 5 (1 + 2 ^ 8 + 511 * 2 ^ 16) []))).heard.any fun h => h.fst == 0) = false) ∧
    (upP.Takes 9 (frameOf 7 5 (2 + 2 ^ 8 + 511 * 2 ^ 16) []) 7 ∧
     fDesc (frameOf 7 5 (2 + 2 ^ 8 + 511 * 2 ^ 16) []) = 511 ∧
     upP.slotFrom (fGroup (frameOf 7 5 (2 + 2 ^ 8 + 511 * 2 ^ 16) [])) (fSrc (frameOf 7 5 (2 + 2 ^ 8 + 511 * 2 ^ 16) [])) = some 0 ∧
     upP.agreeLate false (fJob (frameOf 7 5 (2 + 2 ^ 8 + 511 * 2 ^ 16) [])) (fGroup (frameOf 7 5 (2 + 2 ^ 8 + 511 * 2 ^ 16) [])) (fTag (frameOf 7 5 (2 + 2 ^ 8 + 511 * 2 ^ 16) [])) = false ∧
     (upP.agreeAt false (fJob (frameOf 7 5 (2 + 2 ^ 8 + 511 * 2 ^ 16) [])) (fGroup (frameOf 7 5 (2 + 2 ^ 8 + 511 * 2 ^ 16) [])) (fTag (frameOf 7 5 (2 + 2 ^ 8 + 511 * 2 ^ 16) []))).own = none ∧
     fCode (frameOf 7 5 (2 + 2 ^ 8 + 511 * 2 ^ 16) []) = 2 ∧
     upP.parent (fGroup (frameOf 7 5 (2 + 2 ^ 8 + 511 * 2 ^ 16) [])) = some 0) ∧
    ((upD.tick 50).live = true ∧
     List.find? (fun a => a.perm == false && a.job == 1 && a.own.isSome) upD.agrees = none) ∧
    (((agD agreeA upD).tick 50).live = true ∧
     List.find? (fun a => a.perm == false && a.job == 1 && a.own.isSome) (agD agreeA upD).agrees = some agreeA ∧
     agreeA.down = none ∧
     (agreeA.sent = true ∨ (∃ i, i ∈ (agD agreeA upD).children agreeA.group ∧ (agreeA.heard.any fun h => h.fst == i) = false) ∧ ((agD agreeA upD).tick 50).now ≤ agreeA.t0 + (agD agreeA upD).agreeTime agreeA)) ∧
    (((agD agreeA (upD.setReg (pgGroup 3) (2 ^ 63 + 2 ^ 56))).tick 2000).live = true ∧
     List.find? (fun a => a.perm == false && a.job == 1 && a.own.isSome) (agD agreeA (upD.setReg (pgGroup 3) (2 ^ 63 + 2 ^ 56))).agrees = some agreeA ∧
     agreeA.down = none ∧
     agreeA.sent = false ∧
     agreeA.t0 + (agD agreeA (upD.setReg (pgGroup 3) (2 ^ 63 + 2 ^ 56))).agreeTime agreeA < ((agD agreeA (upD.setReg (pgGroup 3) (2 ^ 63 + 2 ^ 56))).tick 2000).now ∧
     (agD agreeA (upD.setReg (pgGroup 3) (2 ^ 63 + 2 ^ 56))).parent agreeA.group = some 0) ∧
    ((withRun upD normR).Takes 9 (ctlF 3) 7 ∧
     (withRun upD normR).runFor (9 / 4) (ctlF 3) = some normR ∧
     (withRun upD normR).slotFrom (dGroup normR.body) (fSrc (ctlF 3)) = some 0 ∧
     fCode (ctlF 3) = 3 ∧
     0 ∈ (withRun upD normR).children (dGroup normR.body) ∧
     (¬0 ∈ normR.missing) ∧
     (normR.normUps.any fun n => n.fst == 0) = false ∧
     (withRun upD normR).upDone normR = false) ∧
    ((withRun upP normR).Takes 9 (ctlF 4) 7 ∧
     (withRun upP normR).runFor (9 / 4) (ctlF 4) = some normR ∧
     (withRun upP normR).slotFrom (dGroup normR.body) (fSrc (ctlF 4)) = some 0 ∧
     fCode (ctlF 4) = 4 ∧
     (withRun upP normR).parent (dGroup normR.body) = some 0) ∧
    ((withRun upD red1).Takes 9 (ctlF 5) 7 ∧
     (withRun upD red1).runFor (9 / 4) (ctlF 5) = some red1 ∧
     (withRun upD red1).slotFrom (dGroup red1.body) (fSrc (ctlF 5)) = some 0 ∧
     fCode (ctlF 5) = 5 ∧
     fDesc (ctlF 5) ≠ 510 ∧
     0 ∈ (withRun upD red1).children (dGroup red1.body) ∧
     (¬0 ∈ red1.missing) ∧
     dFlag red1.body 4 = false) := by
  refine ⟨?_, ?_, ?_, ?_, ?_, ?_, ?_, ?_⟩ <;> decide

theorem witness_PermuteCommands :
    (upD.Open accA (pgGlobal + 2384) ∧
     acts (BitVec.toNat (setW 0)) 0 = true ∧
     upD.flag (pgGlobal + 2392) 63 = false ∧
     upD.live = true ∧
     upD.primary ≠ none) ∧
    ({ pending := upD.pending, regs := upD.regs, hbm := upD.hbm, freeCtr := upD.freeCtr, out := upD.out, stageNs := upD.stageNs, timeOn := upD.timeOn, pwrOk := upD.pwrOk, thermtrip := upD.thermtrip, ganOff := upD.ganOff, inputOut := upD.inputOut, startReset := upD.startReset, resetNs := upD.resetNs, hostMsixA := upD.hostMsixA, hostMsixB := upD.hostMsixB, semSince := upD.semSince, latch := none, lastLatch := upD.lastLatch, latchNs := upD.latchNs, beatNs := upD.beatNs, shroudLost := upD.shroudLost, bankA := upD.bankA, bankB := upD.bankB, fwVer := upD.fwVer, retiredA := upD.retiredA, retiredB := upD.retiredB, powerLoss := upD.powerLoss, maintRun := upD.maintRun, maintQueue := upD.maintQueue, maintWait := upD.maintWait, energyRem := upD.energyRem, limQuietNs := upD.limQuietNs, limReported := upD.limReported, hotYards := upD.hotYards, tieB := upD.tieB, hostCfgA := upD.hostCfgA, hostCfgB := upD.hostCfgB, warmDies := upD.warmDies, tsyncGood := upD.tsyncGood, tsyncNs := upD.tsyncNs, slewLeft := upD.slewLeft, smbOffset := upD.smbOffset, jtagIr := upD.jtagIr, cagesOff := upD.cagesOff, relock := upD.relock, oscOut := upD.oscOut, switches := upD.switches, links := upD.links, crossTok := upD.crossTok, crossRail := upD.crossRail, units := upD.units, moved := upD.moved, sramEpoch := upD.sramEpoch, opBuf := upD.opBuf, accMem := upD.accMem, tileRegs := upD.tileRegs, yardStore := upD.yardStore, ycMem := upD.ycMem, sections := upD.sections, nextUid := upD.nextUid, issueQ := upD.issueQ, waiting := upD.waiting, images := upD.images, crossOwner := upD.crossOwner, loads := upD.loads, stayAbsent := upD.stayAbsent, bothLost := upD.bothLost, cores := upD.cores, wc := upD.wc, leases := upD.leases, wcQ := upD.wcQ, slices := upD.slices, chans := upD.chans, askers := upD.askers, barReads := upD.barReads, rowCe := upD.rowCe, recRepaired := upD.recRepaired, recPermanent := upD.recPermanent, recPending := upD.recPending, recMapped := upD.recMapped, spareUsed := upD.spareUsed, thermSince := upD.thermSince, stepHeld := upD.stepHeld, phaseHeld := upD.phaseHeld, pipeTag := upD.pipeTag, pipeEnd := upD.pipeEnd, spikeX := upD.spikeX, heldOnClose := upD.heldOnClose, phaseFrom := upD.phaseFrom, phaseT0 := upD.phaseT0, epochs := upD.epochs, phaseHeard := upD.phaseHeard, agrees := upD.agrees, agreeDone := upD.agreeDone, yieldAt := upD.yieldAt, yieldWarned := upD.yieldWarned, buckets := upD.buckets, regLive := upD.regLive, regHeldAt := upD.regHeldAt, rings := upD.rings, ports := upD.ports, bridgeTok := upD.bridgeTok, packs := upD.packs, burstPort := upD.burstPort, inject := upD.inject, heldFrames := upD.heldFrames, engines := upD.engines, norms := upD.norms, permute := upD.permute : State }.Open accA (pgGlobal + 2384) ∧
     acts (BitVec.toNat (setW 0)) 0 = true ∧
     { pending := upD.pending, regs := upD.regs, hbm := upD.hbm, freeCtr := upD.freeCtr, out := upD.out, stageNs := upD.stageNs, timeOn := upD.timeOn, pwrOk := upD.pwrOk, thermtrip := upD.thermtrip, ganOff := upD.ganOff, inputOut := upD.inputOut, startReset := upD.startReset, resetNs := upD.resetNs, hostMsixA := upD.hostMsixA, hostMsixB := upD.hostMsixB, semSince := upD.semSince, latch := none, lastLatch := upD.lastLatch, latchNs := upD.latchNs, beatNs := upD.beatNs, shroudLost := upD.shroudLost, bankA := upD.bankA, bankB := upD.bankB, fwVer := upD.fwVer, retiredA := upD.retiredA, retiredB := upD.retiredB, powerLoss := upD.powerLoss, maintRun := upD.maintRun, maintQueue := upD.maintQueue, maintWait := upD.maintWait, energyRem := upD.energyRem, limQuietNs := upD.limQuietNs, limReported := upD.limReported, hotYards := upD.hotYards, tieB := upD.tieB, hostCfgA := upD.hostCfgA, hostCfgB := upD.hostCfgB, warmDies := upD.warmDies, tsyncGood := upD.tsyncGood, tsyncNs := upD.tsyncNs, slewLeft := upD.slewLeft, smbOffset := upD.smbOffset, jtagIr := upD.jtagIr, cagesOff := upD.cagesOff, relock := upD.relock, oscOut := upD.oscOut, switches := upD.switches, links := upD.links, crossTok := upD.crossTok, crossRail := upD.crossRail, units := upD.units, moved := upD.moved, sramEpoch := upD.sramEpoch, opBuf := upD.opBuf, accMem := upD.accMem, tileRegs := upD.tileRegs, yardStore := upD.yardStore, ycMem := upD.ycMem, sections := upD.sections, nextUid := upD.nextUid, issueQ := upD.issueQ, waiting := upD.waiting, images := upD.images, crossOwner := upD.crossOwner, loads := upD.loads, stayAbsent := upD.stayAbsent, bothLost := upD.bothLost, cores := upD.cores, wc := upD.wc, leases := upD.leases, wcQ := upD.wcQ, slices := upD.slices, chans := upD.chans, askers := upD.askers, barReads := upD.barReads, rowCe := upD.rowCe, recRepaired := upD.recRepaired, recPermanent := upD.recPermanent, recPending := upD.recPending, recMapped := upD.recMapped, spareUsed := upD.spareUsed, thermSince := upD.thermSince, stepHeld := upD.stepHeld, phaseHeld := upD.phaseHeld, pipeTag := upD.pipeTag, pipeEnd := upD.pipeEnd, spikeX := upD.spikeX, heldOnClose := upD.heldOnClose, phaseFrom := upD.phaseFrom, phaseT0 := upD.phaseT0, epochs := upD.epochs, phaseHeard := upD.phaseHeard, agrees := upD.agrees, agreeDone := upD.agreeDone, yieldAt := upD.yieldAt, yieldWarned := upD.yieldWarned, buckets := upD.buckets, regLive := upD.regLive, regHeldAt := upD.regHeldAt, rings := upD.rings, ports := upD.ports, bridgeTok := upD.bridgeTok, packs := upD.packs, burstPort := upD.burstPort, inject := upD.inject, heldFrames := upD.heldFrames, engines := upD.engines, norms := upD.norms, permute := upD.permute : State }.flag (pgGlobal + 2392) 63 = false ∧
     { pending := upD.pending, regs := upD.regs, hbm := upD.hbm, freeCtr := upD.freeCtr, out := upD.out, stageNs := upD.stageNs, timeOn := upD.timeOn, pwrOk := upD.pwrOk, thermtrip := upD.thermtrip, ganOff := upD.ganOff, inputOut := upD.inputOut, startReset := upD.startReset, resetNs := upD.resetNs, hostMsixA := upD.hostMsixA, hostMsixB := upD.hostMsixB, semSince := upD.semSince, latch := none, lastLatch := upD.lastLatch, latchNs := upD.latchNs, beatNs := upD.beatNs, shroudLost := upD.shroudLost, bankA := upD.bankA, bankB := upD.bankB, fwVer := upD.fwVer, retiredA := upD.retiredA, retiredB := upD.retiredB, powerLoss := upD.powerLoss, maintRun := upD.maintRun, maintQueue := upD.maintQueue, maintWait := upD.maintWait, energyRem := upD.energyRem, limQuietNs := upD.limQuietNs, limReported := upD.limReported, hotYards := upD.hotYards, tieB := upD.tieB, hostCfgA := upD.hostCfgA, hostCfgB := upD.hostCfgB, warmDies := upD.warmDies, tsyncGood := upD.tsyncGood, tsyncNs := upD.tsyncNs, slewLeft := upD.slewLeft, smbOffset := upD.smbOffset, jtagIr := upD.jtagIr, cagesOff := upD.cagesOff, relock := upD.relock, oscOut := upD.oscOut, switches := upD.switches, links := upD.links, crossTok := upD.crossTok, crossRail := upD.crossRail, units := upD.units, moved := upD.moved, sramEpoch := upD.sramEpoch, opBuf := upD.opBuf, accMem := upD.accMem, tileRegs := upD.tileRegs, yardStore := upD.yardStore, ycMem := upD.ycMem, sections := upD.sections, nextUid := upD.nextUid, issueQ := upD.issueQ, waiting := upD.waiting, images := upD.images, crossOwner := upD.crossOwner, loads := upD.loads, stayAbsent := upD.stayAbsent, bothLost := upD.bothLost, cores := upD.cores, wc := upD.wc, leases := upD.leases, wcQ := upD.wcQ, slices := upD.slices, chans := upD.chans, askers := upD.askers, barReads := upD.barReads, rowCe := upD.rowCe, recRepaired := upD.recRepaired, recPermanent := upD.recPermanent, recPending := upD.recPending, recMapped := upD.recMapped, spareUsed := upD.spareUsed, thermSince := upD.thermSince, stepHeld := upD.stepHeld, phaseHeld := upD.phaseHeld, pipeTag := upD.pipeTag, pipeEnd := upD.pipeEnd, spikeX := upD.spikeX, heldOnClose := upD.heldOnClose, phaseFrom := upD.phaseFrom, phaseT0 := upD.phaseT0, epochs := upD.epochs, phaseHeard := upD.phaseHeard, agrees := upD.agrees, agreeDone := upD.agreeDone, yieldAt := upD.yieldAt, yieldWarned := upD.yieldWarned, buckets := upD.buckets, regLive := upD.regLive, regHeldAt := upD.regHeldAt, rings := upD.rings, ports := upD.ports, bridgeTok := upD.bridgeTok, packs := upD.packs, burstPort := upD.burstPort, inject := upD.inject, heldFrames := upD.heldFrames, engines := upD.engines, norms := upD.norms, permute := upD.permute : State }.live = true ∧
     { pending := upD.pending, regs := upD.regs, hbm := upD.hbm, freeCtr := upD.freeCtr, out := upD.out, stageNs := upD.stageNs, timeOn := upD.timeOn, pwrOk := upD.pwrOk, thermtrip := upD.thermtrip, ganOff := upD.ganOff, inputOut := upD.inputOut, startReset := upD.startReset, resetNs := upD.resetNs, hostMsixA := upD.hostMsixA, hostMsixB := upD.hostMsixB, semSince := upD.semSince, latch := none, lastLatch := upD.lastLatch, latchNs := upD.latchNs, beatNs := upD.beatNs, shroudLost := upD.shroudLost, bankA := upD.bankA, bankB := upD.bankB, fwVer := upD.fwVer, retiredA := upD.retiredA, retiredB := upD.retiredB, powerLoss := upD.powerLoss, maintRun := upD.maintRun, maintQueue := upD.maintQueue, maintWait := upD.maintWait, energyRem := upD.energyRem, limQuietNs := upD.limQuietNs, limReported := upD.limReported, hotYards := upD.hotYards, tieB := upD.tieB, hostCfgA := upD.hostCfgA, hostCfgB := upD.hostCfgB, warmDies := upD.warmDies, tsyncGood := upD.tsyncGood, tsyncNs := upD.tsyncNs, slewLeft := upD.slewLeft, smbOffset := upD.smbOffset, jtagIr := upD.jtagIr, cagesOff := upD.cagesOff, relock := upD.relock, oscOut := upD.oscOut, switches := upD.switches, links := upD.links, crossTok := upD.crossTok, crossRail := upD.crossRail, units := upD.units, moved := upD.moved, sramEpoch := upD.sramEpoch, opBuf := upD.opBuf, accMem := upD.accMem, tileRegs := upD.tileRegs, yardStore := upD.yardStore, ycMem := upD.ycMem, sections := upD.sections, nextUid := upD.nextUid, issueQ := upD.issueQ, waiting := upD.waiting, images := upD.images, crossOwner := upD.crossOwner, loads := upD.loads, stayAbsent := upD.stayAbsent, bothLost := upD.bothLost, cores := upD.cores, wc := upD.wc, leases := upD.leases, wcQ := upD.wcQ, slices := upD.slices, chans := upD.chans, askers := upD.askers, barReads := upD.barReads, rowCe := upD.rowCe, recRepaired := upD.recRepaired, recPermanent := upD.recPermanent, recPending := upD.recPending, recMapped := upD.recMapped, spareUsed := upD.spareUsed, thermSince := upD.thermSince, stepHeld := upD.stepHeld, phaseHeld := upD.phaseHeld, pipeTag := upD.pipeTag, pipeEnd := upD.pipeEnd, spikeX := upD.spikeX, heldOnClose := upD.heldOnClose, phaseFrom := upD.phaseFrom, phaseT0 := upD.phaseT0, epochs := upD.epochs, phaseHeard := upD.phaseHeard, agrees := upD.agrees, agreeDone := upD.agreeDone, yieldAt := upD.yieldAt, yieldWarned := upD.yieldWarned, buckets := upD.buckets, regLive := upD.regLive, regHeldAt := upD.regHeldAt, rings := upD.rings, ports := upD.ports, bridgeTok := upD.bridgeTok, packs := upD.packs, burstPort := upD.burstPort, inject := upD.inject, heldFrames := upD.heldFrames, engines := upD.engines, norms := upD.norms, permute := upD.permute : State }.primary = none) ∧
    ((permD 3 { : PermRun }).Open accA (pgGlobal + 2384) ∧
     (acts (BitVec.toNat (setW 0)) 0 = false ∨ (permD 3 { : PermRun }).flag (pgGlobal + 2392) 63 = true)) ∧
    (upD.live = true ∧
     upD.permute = none) ∧
    ((permD 2 { : PermRun }).live = true ∧
     (permD 2 { : PermRun }).permute = some { : PermRun } ∧
     ((permD 2 { : PermRun }).permPhase ≠ 1 ∨ (permD 2 { : PermRun }).seqQuiet ((permD 2 { : PermRun }).partOf ((permD 2 { : PermRun }).fld (pgGlobal + 2368) 63 60)) ((permD 2 { : PermRun }).fld (pgGlobal + 2368) 63 60) = false ∨ (permD 2 { : PermRun }).jobIdle ((permD 2 { : PermRun }).fld (pgGlobal + 2368) 63 60) = false ∨ (permD 2 { : PermRun }).flag (pgGlobal + 2344) 63 = true)) ∧
    ((permD 1 { : PermRun }).live = true ∧
     (permD 1 { : PermRun }).permute = some { : PermRun } ∧
     (¬((permD 1 { : PermRun }).permPhase ≠ 1 ∨ (permD 1 { : PermRun }).seqQuiet ((permD 1 { : PermRun }).partOf ((permD 1 { : PermRun }).fld (pgGlobal + 2368) 63 60)) ((permD 1 { : PermRun }).fld (pgGlobal + 2368) 63 60) = false ∨ (permD 1 { : PermRun }).jobIdle ((permD 1 { : PermRun }).fld (pgGlobal + 2368) 63 60) = false ∨ (permD 1 { : PermRun }).flag (pgGlobal + 2344) 63 = true)) ∧
     { : PermRun }.lost = false ∧
     (permD 1 { : PermRun }).staged = [] ∧
     (permD 1 { : PermRun }).fld (pgGlobal + 2376) 63 44 ≠ 0 ∧
     (permD 1 { : PermRun }).heldFrames = []) ∧
    ((permD 1 { : PermRun }).live = true ∧
     (permD 1 { : PermRun }).permute = some { : PermRun } ∧
     (permD 1 { : PermRun }).permPhase ≠ 3) ∧
    (allUp.live = true ∧
     allUp.permute = some { expect := [(1, 2)] : PermRun } ∧
     allUp.permPhase = 3 ∧
     { expect := [(1, 2)] : PermRun }.lost = false ∧
     { expect := [(1, 2)] : PermRun }.expect ≠ [] ∧
     (∀ (q : Nat), q < 32 → allUp.portUp q = true)) ∧
    (((permD 3 { : PermRun }).setReg (pgGroup 3) (2 ^ 63 + 2 ^ 56)).live = true ∧
     ((permD 3 { : PermRun }).setReg (pgGroup 3) (2 ^ 63 + 2 ^ 56)).permute = some { : PermRun } ∧
     ((permD 3 { : PermRun }).setReg (pgGroup 3) (2 ^ 63 + 2 ^ 56)).permPhase = 3 ∧
     { : PermRun }.lost = false ∧
     { : PermRun }.expect = [] ∧
     ((permD 3 { : PermRun }).setReg (pgGroup 3) (2 ^ 63 + 2 ^ 56)).permUnsent = ([], false) ∧
     ((permD 3 { : PermRun }).setReg (pgGroup 3) (2 ^ 63 + 2 ^ 56)).agrees = [] ∧
     ((permD 3 { : PermRun }).setReg (pgGroup 3) (2 ^ 63 + 2 ^ 56)).children (((permD 3 { : PermRun }).setReg (pgGroup 3) (2 ^ 63 + 2 ^ 56)).fld (pgGlobal + 2368) 59 52) = [] ∧
     ((permD 3 { : PermRun }).setReg (pgGroup 3) (2 ^ 63 + 2 ^ 56)).parent (((permD 3 { : PermRun }).setReg (pgGroup 3) (2 ^ 63 + 2 ^ 56)).fld (pgGlobal + 2368) 59 52) = some 0) ∧
    ((upD.tick 50).live = true ∧
     upD.permute = none) ∧
    (((permD 4 { : PermRun }).tick 50).live = true ∧
     (permD 4 { : PermRun }).permute = some { : PermRun } ∧
     (¬({ : PermRun }.contributed ≠ 0 ∧ { : PermRun }.contributed + 2 * ((permD 4 { : PermRun }).fld (pgGlobal + 2376) 15 0 * 1000000) < ((permD 4 { : PermRun }).tick 50).now + 1))) ∧
    (((permD 4 { contributed := 1000 : PermRun }).tick 50).live = true ∧
     (permD 4 { contributed := 1000 : PermRun }).permute = some { contributed := 1000 : PermRun } ∧
     ({ contributed := 1000 : PermRun }.contributed ≠ 0 ∧ { contributed := 1000 : PermRun }.contributed + 2 * ((permD 4 { contributed := 1000 : PermRun }).fld (pgGlobal + 2376) 15 0 * 1000000) < ((permD 4 { contributed := 1000 : PermRun }).tick 50).now + 1) ∧
     (permD 4 { contributed := 1000 : PermRun }).maintQueue = []) := by
  refine ⟨?_, ?_, ?_, ?_, ?_, ?_, ?_, ?_, ?_, ?_, ?_, ?_⟩ <;> decide

theorem witness_PartitionSettings :
    (dev.Open accA (pgPart 0 + 256) ∧
     dev.loadedIn 0 = false ∧
     (¬(dev.partOn 0 = true ∧ (dev.storeReg (pgPart 0 + 256) (9223372036858970112#64).toNat (accMask accA)).partOn 0 = false ∧ dev.jobsOf 0 ≠ [])) ∧
     (¬((dev.storeReg (pgPart 0 + 256) (9223372036858970112#64).toNat (accMask accA)).partOn 0 = true ∧ (dev.storeReg (pgPart 0 + 256) (9223372036858970112#64).toNat (accMask accA)).clashes 0 = true))) ∧
    ((dev.setReg (pgPart 1 + 264) 1).Open accA (pgPart 1 + 256) ∧
     (dev.setReg (pgPart 1 + 264) 1).loadedIn 1 = false ∧
     (¬((dev.setReg (pgPart 1 + 264) 1).partOn 1 = true ∧ ((dev.setReg (pgPart 1 + 264) 1).storeReg (pgPart 1 + 256) (9223372036854775808#64).toNat (accMask accA)).partOn 1 = false ∧ (dev.setReg (pgPart 1 + 264) 1).jobsOf 1 ≠ [])) ∧
     (((dev.setReg (pgPart 1 + 264) 1).storeReg (pgPart 1 + 256) (9223372036854775808#64).toNat (accMask accA)).partOn 1 = true ∧ ((dev.setReg (pgPart 1 + 264) 1).storeReg (pgPart 1 + 256) (9223372036854775808#64).toNat (accMask accA)).clashes 1 = true)) ∧
    (twoP.Open accA (pgPart 1 + 264) ∧
     twoP.loadedIn 1 = false ∧
     ((twoP.storeReg (pgPart 1 + 264) (2#64).toNat (accMask accA)).partOn 1 = true ∧ (twoP.storeReg (pgPart 1 + 264) (2#64).toNat (accMask accA)).clashes 1 = true)) ∧
    (onlyP.Open accA (pgPart 1 + 264) ∧
     onlyP.loadedIn 1 = false ∧
     (¬((onlyP.storeReg (pgPart 1 + 264) (4#64).toNat (accMask accA)).partOn 1 = true ∧ (onlyP.storeReg (pgPart 1 + 264) (4#64).toNat (accMask accA)).clashes 1 = true))) ∧
    (devI.Open accA (pgPart 0 + 264) ∧
     devI.loadedIn 0 = true) ∧
    (devI.Open accA (pgPart 0 + 768 + 8 * 15) ∧
     devI.loadedIn 0 = true) ∧
    (readyD.Open accA (pgPart 1 + 768 + 8 * 15) ∧
     readyD.loadedIn 1 = false ∧
     readyD.partOn 1 = false ∧
     (∀ (q : Nat), q < 8 → readyD.reg (pgPart q + 264) = 0)) ∧
    (dev.Open accA (pgPart 0 + 272) ∧
     (dev.storeReg (pgPart 0 + 272) (0#64).toNat (accMask accA)).saveOk 0 = true) ∧
    (dev.Open accA (pgPart 0 + 272) ∧
     (dev.storeReg (pgPart 0 + 272) (1099511627776#64).toNat (accMask accA)).saveOk 0 = false) ∧
    (dev.Open accA (jobCfg 0 5) ∧
     dev.flag (jobCfg 0 5) 63 = false ∧
     (dev.storeReg (jobCfg 0 5) (BitVec.toNat wOn) (accMask accA)).flag (jobCfg 0 5) 63 = true ∧
     dev.jobElsewhere 0 5 = none ∧
     dev.partOn 0 = true) ∧
    (twoP.Open accA (jobCfg 1 1) ∧
     twoP.flag (jobCfg 1 1) 63 = false ∧
     (twoP.storeReg (jobCfg 1 1) (BitVec.toNat wOn) (accMask accA)).flag (jobCfg 1 1) 63 = true ∧
     twoP.jobElsewhere 1 1 = some 0) ∧
    (dev.Open accA (jobCfg 0 0) ∧
     dev.flag (jobCfg 0 0) 63 = true ∧
     (dev.storeReg (jobCfg 0 0) (0#64).toNat (accMask accA)).flag (jobCfg 0 0) 63 = false ∧
     (∀ (i : Image), i ∈ dev.images → ¬(i.part = 0 ∧ i.job = 0)) ∧
     dev.ringOn 0 = false) ∧
    (dev.Open accL (jobCfg 0 0) ∧
     dev.flag (jobCfg 0 0) 63 = (dev.storeReg (jobCfg 0 0) (9#64).toNat (accMask accL)).flag (jobCfg 0 0) 63 ∧
     bit (accMask accL) 63 = false) := by
  refine ⟨?_, ?_, ?_, ?_, ?_, ?_, ?_, ?_, ?_, ?_, ?_, ?_, ?_⟩ <;> decide

theorem witness_YieldAndResume :
    ((jobD 1).Open accA (pgPart 0 + 400) ∧
     1 = ((jobD 1).storeReg (pgPart 0 + 400) (BitVec.toNat (yldW 0)) (accMask accA)).fld (pgPart 0 + 400) 7 4 ∧
     acts (BitVec.toNat (yldW 0)) 0 = true ∧
     acts (BitVec.toNat (yldW 0)) 1 = false ∧
     (jobD 1).jobState 0 1 = 1) ∧
    ((jobD 3).Open accA (pgPart 0 + 400) ∧
     1 = ((jobD 3).storeReg (pgPart 0 + 400) (BitVec.toNat (yldW 1)) (accMask accA)).fld (pgPart 0 + 400) 7 4 ∧
     acts (BitVec.toNat (yldW 1)) 0 = false ∧
     acts (BitVec.toNat (yldW 1)) 1 = true ∧
     ((jobD 3).jobState 0 1 = 2 ∨ (jobD 3).jobState 0 1 = 3)) ∧
    ((jobD 2).live = true ∧
     (jobD 2).jobState 0 1 = 2 ∧
     (jobD 2).jobIdle 1 = true ∧
     (jobD 2).saveOk 0 = true) ∧
    (((jobD 2).tick 1000).live = true ∧
     ((jobD 2).tick 1000).jobState 0 1 = 2 ∧
     ((jobD 2).tick 1000).fld (jobCfg 0 1) 31 0 ≠ 0 ∧
     Tab.get 0 (jobD 2).yieldAt 1 + ((jobD 2).tick 1000).fld (jobCfg 0 1) 31 0 * 1000 ≤ ((jobD 2).tick 1000).now ∧
     (jobD 2).yieldWarned.contains 1 = false) ∧
    ((warnedD.tick 1000).live = true ∧
     (warnedD.tick 1000).jobState 0 1 = 2 ∧
     (warnedD.tick 1000).fld (jobCfg 0 1) 31 0 ≠ 0 ∧
     Tab.get 0 warnedD.yieldAt 1 + (warnedD.tick 1000).fld (jobCfg 0 1) 31 0 * 1000 ≤ (warnedD.tick 1000).now ∧
     warnedD.yieldWarned.contains 1 = true) := by
  refine ⟨?_, ?_, ?_, ?_, ?_⟩ <;> decide

theorem witness_RingRegisters :
    ((ringD 1 0 0 []).Open accA (pgDoor 1) ∧
     ((ringD 1 0 0 []).storeReg (pgDoor 1) (5#64).toNat (accMask accA)).fld (pgDoor 1) 15 0 < (ringD 1 0 0 []).ringSize 1) ∧
    ((ringD 1 0 0 []).Open accA (pgDoor 1) ∧
     (ringD 1 0 0 []).ringSize 1 ≤ ((ringD 1 0 0 []).storeReg (pgDoor 1) (16#64).toNat (accMask accA)).fld (pgDoor 1) 15 0) ∧
    (ringOff.Open accA (pgDoor 1 + 16) ∧
     ringOff.ringOn 1 = false ∧
     (ringOff.storeReg (pgDoor 1 + 16) (9223372036854775812#64).toNat (accMask accA)).ringOn 1 = true ∧
     (ringOff.storeReg (pgDoor 1 + 16) (9223372036854775812#64).toNat (accMask accA)).partOfJob 1 = some 0 ∧
     rangeOk ((ringOff.storeReg (pgDoor 1 + 16) (9223372036854775812#64).toNat (accMask accA)).ringBase 1) (128 * (ringOff.storeReg (pgDoor 1 + 16) (9223372036854775812#64).toNat (accMask accA)).ringSize 1) = true ∧
     (ringOff.storeReg (pgDoor 1 + 16) (9223372036854775812#64).toNat (accMask accA)).granted 0 (adChan ((ringOff.storeReg (pgDoor 1 + 16) (9223372036854775812#64).toNat (accMask accA)).ringBase 1)) = true) ∧
    (ringOff.Open accA (pgDoor 5 + 16) ∧
     ringOff.ringOn 5 = false ∧
     (ringOff.storeReg (pgDoor 5 + 16) (9223372036854775812#64).toNat (accMask accA)).ringOn 5 = true ∧
     (ringOff.storeReg (pgDoor 5 + 16) (9223372036854775812#64).toNat (accMask accA)).partOfJob 5 = none) ∧
    (ringOff.Open accA (pgDoor 1 + 16) ∧
     ringOff.ringOn 1 = false ∧
     (ringOff.storeReg (pgDoor 1 + 16) (4#64).toNat (accMask accA)).ringOn 1 = false ∧
     bit (accMask accA) 63 = true) ∧
    ((ringD 1 0 0 []).Open accA (pgDoor 1 + 16) ∧
     (ringD 1 0 0 []).ringOn 1 = true ∧
     ((ringD 1 0 0 []).storeReg (pgDoor 1 + 16) (9223372036854775812#64).toNat (accMask accA)).ringOn 1 = true) ∧
    ((ringD 3 0 1 []).Open accA (pgDoor 1 + 32) ∧
     (ringD 3 0 1 []).fld (ringSt 1) 63 62 = 3 ∧
     acts (BitVec.toNat (setW 0)) 0 = true ∧
     acts (BitVec.toNat (setW 0)) 1 = false) ∧
    ((ringD 3 15 0 []).Open accA (pgDoor 1 + 32) ∧
     (ringD 3 15 0 []).fld (ringSt 1) 63 62 = 3 ∧
     acts (BitVec.toNat (setW 1)) 1 = true ∧
     (ringD 3 15 0 []).ringHead 1 ≠ (ringD 3 15 0 []).fld (pgDoor 1) 15 0) ∧
    ((ringD 1 0 0 []).Open accA (pgDoor 1 + 32) ∧
     (ringD 1 0 0 []).fld (ringSt 1) 63 62 ≠ 3) := by
  refine ⟨?_, ?_, ?_, ?_, ?_, ?_, ?_, ?_, ?_⟩ <;> decide

theorem witness_RingEntries :
    (rg1.live = true ∧
     rg1.partOfJob 1 = some 0 ∧
     rg1.mayFetch 1 = true ∧
     rg1.fetchLater 0 1 = false ∧
     rg1.chLive (adChan (rg1.ringBase 1 + 128 * rg1.ringHead 1)) = false) ∧
    (ringF.live = true ∧
     ringF.partOfJob 1 = some 0 ∧
     ringF.mayFetch 1 = true ∧
     ringF.fetchLater 0 1 = false ∧
     ringF.chLive (adChan (ringF.ringBase 1 + 128 * ringF.ringHead 1)) = true ∧
     ringF.askers.find? (askKey (Asker.ring 1)) = none) ∧
    (rg2.live = true ∧
     rg2.partOfJob 1 = some 0 ∧
     rg2.mayFetch 1 = true ∧
     rg2.fetchLater 0 1 = false ∧
     rg2.chLive (adChan (rg2.ringBase 1 + 128 * rg2.ringHead 1)) = true ∧
     rg2.served (askKey (Asker.ring 1)) = false) ∧
    (rg3.live = true ∧
     rg3.partOfJob 1 = some 0 ∧
     rg3.mayFetch 1 = true ∧
     rg3.fetchLater 0 1 = false ∧
     rg3.chLive (adChan (rg3.ringBase 1 + 128 * rg3.ringHead 1)) = true ∧
     rg3.askers.find? (askKey (Asker.ring 1)) ≠ none ∧
     rg3.served (askKey (Asker.ring 1)) = true ∧
     (rg3.dropAsk (askKey (Asker.ring 1))).entryBad 0 (rg3.hbm.read (rg3.ringBase 1 + 128 * rg3.ringHead 1) 128) = true) ∧
    (rg4.live = true ∧
     rg4.partOfJob 1 = some 0 ∧
     rg4.mayFetch 1 = true ∧
     rg4.fetchLater 0 1 = false ∧
     rg4.chLive (adChan (rg4.ringBase 1 + 128 * rg4.ringHead 1)) = true ∧
     rg4.askers.find? (askKey (Asker.ring 1)) ≠ none ∧
     rg4.served (askKey (Asker.ring 1)) = true ∧
     (rg4.dropAsk (askKey (Asker.ring 1))).entryBad 0 (rg4.hbm.read (rg4.ringBase 1 + 128 * rg4.ringHead 1) 128) = false) ∧
    (rg5.live = true ∧
     rg5.partOfJob 1 = some 0 ∧
     rg5.mayFetch 1 = false) ∧
    (rg6.live = true ∧
     rg6.partOfJob 1 = some 0 ∧
     rg6.nextEntry 1 0 false = some (ent 0 0 [])) ∧
    (rg7.live = true ∧
     rg7.partOfJob 1 = some 0 ∧
     rg7.nextEntry 1 1 false = some (ent 1 0 (leBytes 80 4))) ∧
    (rg8.live = true ∧
     rg8.partOfJob 1 = some 0 ∧
     rg8.nextEntry 1 2 true = some (ent 2 8192 (leBytes 80 4)) ∧
     rg8.rigBusy 0 = false) ∧
    (ringI.live = true ∧
     ringI.partOfJob 1 = some 0 ∧
     ringI.nextEntry 1 3 true = some eUn ∧
     ringI.rigBusy 0 = false ∧
     (ringI.actOn 1 eUn).imageAt 0 (eUn.arg % 16) = some img ∧
     (ringI.actOn 1 eUn).imageUsed img = false ∧
     (ringI.actOn 1 eUn).imageActive img = false) ∧
    (rg9.live = true ∧
     rg9.partOfJob 1 = some 0 ∧
     rg9.nextEntry 1 4 true = some (ent 4 0 [])) ∧
    (rg10.live = true ∧
     rg10.partOfJob 1 = some 0 ∧
     rg10.nextEntry 1 5 true = some eSig ∧
     rg10.chLive (adChan eSig.arg) = false) ∧
    (rg11.live = true ∧
     rg11.partOfJob 1 = some 0 ∧
     rg11.nextEntry 1 5 true = some eSig ∧
     rg11.chLive (adChan eSig.arg) = true) := by
  refine ⟨?_, ?_, ?_, ?_, ?_, ?_, ?_, ?_, ?_, ?_, ?_, ?_, ?_⟩ <;> decide

theorem witness_SemaphoreAcquireRelease :
    ((semD 0).oscOut.contains 0 = false ∧
     (semD 0).reg (512 + 8 * 31) % 4 = 0) ∧
    ((semD 2).oscOut.contains 0 = false ∧
     (semD 2).reg (512 + 8 * 31) % 4 ≠ 0 ∧
     (semD 2).reg (512 + 8 * 31) % 4 ≠ pA.code) ∧
    ((semD 2).oscOut.contains 0 = false ∧
     (semD 2).reg (512 + 8 * 31) % 4 = pB.code) ∧
    ((semD 2).Open { port := pB, size := 8, sub := 0 : Acc } (512 + 8 * 31) ∧
     0#64 = 0 ∧
     (semD 2).reg (512 + 8 * 31) % 4 = pB.code) ∧
    ((semD 1).Open { port := pB, size := 8, sub := 0 : Acc } (512 + 8 * 31) ∧
     (¬(0#64 = 0 ∧ (semD 1).reg (512 + 8 * 31) % 4 = pB.code))) ∧
    ((semD 1).Open { port := pA, size := 8, sub := 0 : Acc } (512 + 8 * 31) ∧
     (¬(1#64 = 0 ∧ (semD 1).reg (512 + 8 * 31) % 4 = pA.code))) := by
  refine ⟨?_, ?_, ?_, ?_, ?_, ?_⟩ <;> decide

theorem witness_HostWindowAccess :
    (barD.barHit pA.isB 291 [1#8, 2#8, 3#8].length = true ∧
     barD.barServed pA.isB 291 [1#8, 2#8, 3#8].length = true) ∧
    (barD.barHit pA.isB 291 3 = true ∧
     barD.barServed pA.isB 291 3 = true ∧
     3 ≠ 0) ∧
    (dev.barHit pA.isB 291 3 = false) ∧
    (dev.barHit pA.isB 291 [1#8, 2#8, 3#8].length = false) ∧
    (barD.barHit pA.isB 2684354558 3 = true ∧
     barD.barServed pA.isB 2684354558 3 = false) ∧
    (barD.barHit pA.isB 2684354558 [1#8, 2#8, 3#8].length = true ∧
     barD.barServed pA.isB 2684354558 [1#8, 2#8, 3#8].length = false) ∧
    (rd64.y = 64 ∧
     barAsk.barReads.find? rd64.u = some { port := HostPort.a, addr := 291, len := 3 : BarRead } ∧
     barAsk.askers.find? rd64.u = some (rd64.epoch, 1)) := by
  refine ⟨?_, ?_, ?_, ?_, ?_, ?_, ?_⟩ <;> decide

theorem witness_PageHeaderWrites :
    (inPage (n30 * 4096) = true ∧
     (ownD 0).Open { port := pB, size := 8, sub := 0 : Acc } (n30 * 4096 + 72) ∧
     (ownD 0).reg (n30 * 4096 + 72) % 4 = 0 ∧
     (2#64).toNat % 4 = pB.code) ∧
    (inPage (n30 * 4096) = true ∧
     (ownD 1).Open { port := pA, size := 8, sub := 0 : Acc } (n30 * 4096 + 72) ∧
     (ownD 1).reg (n30 * 4096 + 72) % 4 = pA.code ∧
     (0#64).toNat % 4 = 0) ∧
    (inPage (n30 * 4096) = true ∧
     (ownD 1).Open { port := pA, size := 8, sub := 0 : Acc } (n30 * 4096 + 72) ∧
     (ownD 1).reg (n30 * 4096 + 72) % 4 = pA.code ∧
     (1#64).toNat % 4 = (ownD 1).reg (n30 * 4096 + 72) % 4) ∧
    (inPage (n30 * 4096) = true ∧
     (ownD 0).Open { port := pA, size := 8, sub := 0 : Acc } (n30 * 4096 + 72) ∧
     (ownD 0).reg (n30 * 4096 + 72) % 4 = 0 ∧
     (2#64).toNat % 4 ≠ pA.code) ∧
    (inPage (n30 * 4096) = true ∧
     (ownD 0).Open { port := pA, size := 8, sub := 0 : Acc } (n30 * 4096 + 72) ∧
     (ownD 0).reg (n30 * 4096 + 72) % 4 = 0 ∧
     (0#64).toNat % 4 ≠ pA.code) ∧
    (inPage (n30 * 4096) = true ∧
     evD.Open { port := pA, size := 8, sub := 0 : Acc } (n30 * 4096 + 40)) ∧
    (inPage (n30 * 4096) = true ∧
     evD.Open { port := pA, size := 8, sub := 0 : Acc } (n30 * 4096 + 32)) ∧
    (inPage (n30 * 4096) = true ∧
     evD.Open { port := pA, size := 8, sub := 0 : Acc } (n30 * 4096 + 8)) ∧
    (inPage (n30 * 4096) = true ∧
     evD.Open { port := pA, size := 8, sub := 0 : Acc } (n30 * 4096 + 48) ∧
     2 < eventCount n30 ∧
     4#64 = BitVec.ofNat 64 (2 ^ 2)) ∧
    (inPage (n30 * 4096) = true ∧
     evD.Open { port := pA, size := 8, sub := 0 : Acc } (n30 * 4096 + 56) ∧
     (9223372036854775808#64).toNat.testBit 63 = true) ∧
    (inPage (n30 * 4096) = true ∧
     evD.Open { port := pA, size := 8, sub := 0 : Acc } (n30 * 4096 + 56) ∧
     (3#64).toNat.testBit 63 = false) := by
  refine ⟨?_, ?_, ?_, ?_, ?_, ?_, ?_, ?_, ?_, ?_, ?_⟩ <;> decide

theorem witness_PlainRegisterWrites :
    (regRow 196888 = some rArb ∧
     dev.Open accA 196888 ∧
     rArb.own = false ∧
     (65536 ≤ 196888 ∧ 196888 < 131072 ∨ 196608 ≤ 196888 ∧ 196888 < 33554432) ∧
     windowKind 196888 ≠ 4 ∧
     windowKind 196888 ≠ 5 ∧
     (∀ (y : Nat), y < 64 → 196888 ≠ pgCore y + 528)) ∧
    (regRow (pgCore 0 + 528) = some rLease ∧
     dev.Open accA (pgCore 0 + 528) ∧
     rLease.own = false ∧
     (65536 ≤ pgCore 0 + 528 ∧ pgCore 0 + 528 < 131072 ∨ 196608 ≤ pgCore 0 + 528 ∧ pgCore 0 + 528 < 33554432) ∧
     windowKind (pgCore 0 + 528) ≠ 4 ∧
     windowKind (pgCore 0 + 528) ≠ 5 ∧
     0 < 64 ∧
     pgCore 0 + 528 = pgCore 0 + 528) ∧
    (regRow 16672 = some (counters 288 5) ∧
     dev.Open accA 16672 ∧
     (counters 288 5).kind = RegKind.counter ∧
     (16672 < 131072 ∨ 163840 ≤ 16672 ∧ 16672 < 33685504) ∧
     bit (maskAnd (9223372036854775808#64).toNat (accMask accA)) 63 = true) ∧
    (regRow 16704 = some (counters 288 5) ∧
     dev.Open accA 16704 ∧
     (counters 288 5).kind = RegKind.counter ∧
     (16704 < 131072 ∨ 163840 ≤ 16704 ∧ 16704 < 33685504) ∧
     bit (maskAnd (77#64).toNat (accMask accA)) 63 = false) ∧
    (regRow 196888 = some rArb ∧
     coldD.gate accA 196888 = Gate.drop ∧
     coldD.oscOut.contains 0 = false ∧
     accA.tie = false ∧
     rArb.own = false ∧
     196888 < 33619968 ∧
     windowKind 196888 ≠ 4 ∧
     windowKind 196888 ≠ 5) ∧
    (regRow 2368 = some rPerm ∧
     busyPerm.Open accA 2368 ∧
     busyPerm.flag 2392 63 = true) ∧
    (accT.tie = true ∧
     196888 < 33619968 ∧
     ({ pending := dev.pending, regs := dev.regs, hbm := dev.hbm, freeCtr := dev.freeCtr, out := dev.out, stageNs := dev.stageNs, timeOn := dev.timeOn, pwrOk := dev.pwrOk, thermtrip := dev.thermtrip, ganOff := dev.ganOff, inputOut := dev.inputOut, startReset := dev.startReset, resetNs := dev.resetNs, hostMsixA := dev.hostMsixA, hostMsixB := dev.hostMsixB, semSince := dev.semSince, latch := dev.latch, lastLatch := dev.lastLatch, latchNs := dev.latchNs, beatNs := dev.beatNs, shroudLost := dev.shroudLost, bankA := dev.bankA, bankB := dev.bankB, fwVer := dev.fwVer, retiredA := dev.retiredA, retiredB := dev.retiredB, powerLoss := dev.powerLoss, maintRun := dev.maintRun, maintQueue := dev.maintQueue, maintWait := dev.maintWait, energyRem := dev.energyRem, limQuietNs := dev.limQuietNs, limReported := dev.limReported, hotYards := dev.hotYards, tieB := [48], hostCfgA := dev.hostCfgA, hostCfgB := dev.hostCfgB, warmDies := dev.warmDies, tsyncGood := dev.tsyncGood, tsyncNs := dev.tsyncNs, slewLeft := dev.slewLeft, smbOffset := dev.smbOffset, jtagIr := dev.jtagIr, cagesOff := dev.cagesOff, relock := dev.relock, oscOut := dev.oscOut, switches := dev.switches, links := dev.links, crossTok := dev.crossTok, crossRail := dev.crossRail, units := dev.units, moved := dev.moved, sramEpoch := dev.sramEpoch, opBuf := dev.opBuf, accMem := dev.accMem, tileRegs := dev.tileRegs, yardStore := dev.yardStore, ycMem := dev.ycMem, sections := dev.sections, nextUid := dev.nextUid, issueQ := dev.issueQ, waiting := dev.waiting, images := dev.images, crossOwner := dev.crossOwner, loads := dev.loads, stayAbsent := dev.stayAbsent, bothLost := dev.bothLost, cores := dev.cores, wc := dev.wc, leases := dev.leases, wcQ := dev.wcQ, slices := dev.slices, chans := dev.chans, askers := dev.askers, barReads := dev.barReads, rowCe := dev.rowCe, recRepaired := dev.recRepaired, recPermanent := dev.recPermanent, recPending := dev.recPending, recMapped := dev.recMapped, spareUsed := dev.spareUsed, thermSince := dev.thermSince, stepHeld := dev.stepHeld, phaseHeld := dev.phaseHeld, pipeTag := dev.pipeTag, pipeEnd := dev.pipeEnd, spikeX := dev.spikeX, heldOnClose := dev.heldOnClose, phaseFrom := dev.phaseFrom, phaseT0 := dev.phaseT0, epochs := dev.epochs, phaseHeard := dev.phaseHeard, agrees := dev.agrees, agreeDone := dev.agreeDone, yieldAt := dev.yieldAt, yieldWarned := dev.yieldWarned, buckets := dev.buckets, regLive := dev.regLive, regHeldAt := dev.regHeldAt, rings := dev.rings, ports := dev.ports, bridgeTok := dev.bridgeTok, packs := dev.packs, burstPort := dev.burstPort, inject := dev.inject, heldFrames := dev.heldFrames, engines := dev.engines, norms := dev.norms, permute := dev.permute : State }.oscOut.contains 0 = false ∧ { pending := dev.pending, regs := dev.regs, hbm := dev.hbm, freeCtr := dev.freeCtr, out := dev.out, stageNs := dev.stageNs, timeOn := dev.timeOn, pwrOk := dev.pwrOk, thermtrip := dev.thermtrip, ganOff := dev.ganOff, inputOut := dev.inputOut, startReset := dev.startReset, resetNs := dev.resetNs, hostMsixA := dev.hostMsixA, hostMsixB := dev.hostMsixB, semSince := dev.semSince, latch := dev.latch, lastLatch := dev.lastLatch, latchNs := dev.latchNs, beatNs := dev.beatNs, shroudLost := dev.shroudLost, bankA := dev.bankA, bankB := dev.bankB, fwVer := dev.fwVer, retiredA := dev.retiredA, retiredB := dev.retiredB, powerLoss := dev.powerLoss, maintRun := dev.maintRun, maintQueue := dev.maintQueue, maintWait := dev.maintWait, energyRem := dev.energyRem, limQuietNs := dev.limQuietNs, limReported := dev.limReported, hotYards := dev.hotYards, tieB := [48], hostCfgA := dev.hostCfgA, hostCfgB := dev.hostCfgB, warmDies := dev.warmDies, tsyncGood := dev.tsyncGood, tsyncNs := dev.tsyncNs, slewLeft := dev.slewLeft, smbOffset := dev.smbOffset, jtagIr := dev.jtagIr, cagesOff := dev.cagesOff, relock := dev.relock, oscOut := dev.oscOut, switches := dev.switches, links := dev.links, crossTok := dev.crossTok, crossRail := dev.crossRail, units := dev.units, moved := dev.moved, sramEpoch := dev.sramEpoch, opBuf := dev.opBuf, accMem := dev.accMem, tileRegs := dev.tileRegs, yardStore := dev.yardStore, ycMem := dev.ycMem, sections := dev.sections, nextUid := dev.nextUid, issueQ := dev.issueQ, waiting := dev.waiting, images := dev.images, crossOwner := dev.crossOwner, loads := dev.loads, stayAbsent := dev.stayAbsent, bothLost := dev.bothLost, cores := dev.cores, wc := dev.wc, leases := dev.leases, wcQ := dev.wcQ, slices := dev.slices, chans := dev.chans, askers := dev.askers, barReads := dev.barReads, rowCe := dev.rowCe, recRepaired := dev.recRepaired, recPermanent := dev.recPermanent, recPending := dev.recPending, recMapped := dev.recMapped, spareUsed := dev.spareUsed, thermSince := dev.thermSince, stepHeld := dev.stepHeld, phaseHeld := dev.phaseHeld, pipeTag := dev.pipeTag, pipeEnd := dev.pipeEnd, spikeX := dev.spikeX, heldOnClose := dev.heldOnClose, phaseFrom := dev.phaseFrom, phaseT0 := dev.phaseT0, epochs := dev.epochs, phaseHeard := dev.phaseHeard, agrees := dev.agrees, agreeDone := dev.agreeDone, yieldAt := dev.yieldAt, yieldWarned := dev.yieldWarned, buckets := dev.buckets, regLive := dev.regLive, regHeldAt := dev.regHeldAt, rings := dev.rings, ports := dev.ports, bridgeTok := dev.bridgeTok, packs := dev.packs, burstPort := dev.burstPort, inject := dev.inject, heldFrames := dev.heldFrames, engines := dev.engines, norms := dev.norms, permute := dev.permute : State }.tieB.contains (196888 / 4096) = accT.port.isB) ∧
     windowKind 196888 ≠ 4 ∧
     windowKind 196888 ≠ 5) ∧
    (accT.tie = true ∧
     196888 < 33619968 ∧
     (¬(dev.oscOut.contains 0 = false ∧ dev.tieB.contains (196888 / 4096) = accT.port.isB))) ∧
    (accT.tie = true ∧
     ({ pending := dev.pending, regs := dev.regs, hbm := dev.hbm, freeCtr := dev.freeCtr, out := dev.out, stageNs := dev.stageNs, timeOn := dev.timeOn, pwrOk := dev.pwrOk, thermtrip := dev.thermtrip, ganOff := dev.ganOff, inputOut := dev.inputOut, startReset := dev.startReset, resetNs := dev.resetNs, hostMsixA := dev.hostMsixA, hostMsixB := dev.hostMsixB, semSince := dev.semSince, latch := dev.latch, lastLatch := dev.lastLatch, latchNs := dev.latchNs, beatNs := dev.beatNs, shroudLost := dev.shroudLost, bankA := dev.bankA, bankB := dev.bankB, fwVer := dev.fwVer, retiredA := dev.retiredA, retiredB := dev.retiredB, powerLoss := dev.powerLoss, maintRun := dev.maintRun, maintQueue := dev.maintQueue, maintWait := dev.maintWait, energyRem := dev.energyRem, limQuietNs := dev.limQuietNs, limReported := dev.limReported, hotYards := dev.hotYards, tieB := [0], hostCfgA := dev.hostCfgA, hostCfgB := dev.hostCfgB, warmDies := dev.warmDies, tsyncGood := dev.tsyncGood, tsyncNs := dev.tsyncNs, slewLeft := dev.slewLeft, smbOffset := dev.smbOffset, jtagIr := dev.jtagIr, cagesOff := dev.cagesOff, relock := dev.relock, oscOut := dev.oscOut, switches := dev.switches, links := dev.links, crossTok := dev.crossTok, crossRail := dev.crossRail, units := dev.units, moved := dev.moved, sramEpoch := dev.sramEpoch, opBuf := dev.opBuf, accMem := dev.accMem, tileRegs := dev.tileRegs, yardStore := dev.yardStore, ycMem := dev.ycMem, sections := dev.sections, nextUid := dev.nextUid, issueQ := dev.issueQ, waiting := dev.waiting, images := dev.images, crossOwner := dev.crossOwner, loads := dev.loads, stayAbsent := dev.stayAbsent, bothLost := dev.bothLost, cores := dev.cores, wc := dev.wc, leases := dev.leases, wcQ := dev.wcQ, slices := dev.slices, chans := dev.chans, askers := dev.askers, barReads := dev.barReads, rowCe := dev.rowCe, recRepaired := dev.recRepaired, recPermanent := dev.recPermanent, recPending := dev.recPending, recMapped := dev.recMapped, spareUsed := dev.spareUsed, thermSince := dev.thermSince, stepHeld := dev.stepHeld, phaseHeld := dev.phaseHeld, pipeTag := dev.pipeTag, pipeEnd := dev.pipeEnd, spikeX := dev.spikeX, heldOnClose := dev.heldOnClose, phaseFrom := dev.phaseFrom, phaseT0 := dev.phaseT0, epochs := dev.epochs, phaseHeard := dev.phaseHeard, agrees := dev.agrees, agreeDone := dev.agreeDone, yieldAt := dev.yieldAt, yieldWarned := dev.yieldWarned, buckets := dev.buckets, regLive := dev.regLive, regHeldAt := dev.regHeldAt, rings := dev.rings, ports := dev.ports, bridgeTok := dev.bridgeTok, packs := dev.packs, burstPort := dev.burstPort, inject := dev.inject, heldFrames := dev.heldFrames, engines := dev.engines, norms := dev.norms, permute := dev.permute : State }.oscOut.contains 0 = false ∧ { pending := dev.pending, regs := dev.regs, hbm := dev.hbm, freeCtr := dev.freeCtr, out := dev.out, stageNs := dev.stageNs, timeOn := dev.timeOn, pwrOk := dev.pwrOk, thermtrip := dev.thermtrip, ganOff := dev.ganOff, inputOut := dev.inputOut, startReset := dev.startReset, resetNs := dev.resetNs, hostMsixA := dev.hostMsixA, hostMsixB := dev.hostMsixB, semSince := dev.semSince, latch := dev.latch, lastLatch := dev.lastLatch, latchNs := dev.latchNs, beatNs := dev.beatNs, shroudLost := dev.shroudLost, bankA := dev.bankA, bankB := dev.bankB, fwVer := dev.fwVer, retiredA := dev.retiredA, retiredB := dev.retiredB, powerLoss := dev.powerLoss, maintRun := dev.maintRun, maintQueue := dev.maintQueue, maintWait := dev.maintWait, energyRem := dev.energyRem, limQuietNs := dev.limQuietNs, limReported := dev.limReported, hotYards := dev.hotYards, tieB := [0], hostCfgA := dev.hostCfgA, hostCfgB := dev.hostCfgB, warmDies := dev.warmDies, tsyncGood := dev.tsyncGood, tsyncNs := dev.tsyncNs, slewLeft := dev.slewLeft, smbOffset := dev.smbOffset, jtagIr := dev.jtagIr, cagesOff := dev.cagesOff, relock := dev.relock, oscOut := dev.oscOut, switches := dev.switches, links := dev.links, crossTok := dev.crossTok, crossRail := dev.crossRail, units := dev.units, moved := dev.moved, sramEpoch := dev.sramEpoch, opBuf := dev.opBuf, accMem := dev.accMem, tileRegs := dev.tileRegs, yardStore := dev.yardStore, ycMem := dev.ycMem, sections := dev.sections, nextUid := dev.nextUid, issueQ := dev.issueQ, waiting := dev.waiting, images := dev.images, crossOwner := dev.crossOwner, loads := dev.loads, stayAbsent := dev.stayAbsent, bothLost := dev.bothLost, cores := dev.cores, wc := dev.wc, leases := dev.leases, wcQ := dev.wcQ, slices := dev.slices, chans := dev.chans, askers := dev.askers, barReads := dev.barReads, rowCe := dev.rowCe, recRepaired := dev.recRepaired, recPermanent := dev.recPermanent, recPending := dev.recPending, recMapped := dev.recMapped, spareUsed := dev.spareUsed, thermSince := dev.thermSince, stepHeld := dev.stepHeld, phaseHeld := dev.phaseHeld, pipeTag := dev.pipeTag, pipeEnd := dev.pipeEnd, spikeX := dev.spikeX, heldOnClose := dev.heldOnClose, phaseFrom := dev.phaseFrom, phaseT0 := dev.phaseT0, epochs := dev.epochs, phaseHeard := dev.phaseHeard, agrees := dev.agrees, agreeDone := dev.agreeDone, yieldAt := dev.yieldAt, yieldWarned := dev.yieldWarned, buckets := dev.buckets, regLive := dev.regLive, regHeldAt := dev.regHeldAt, rings := dev.rings, ports := dev.ports, bridgeTok := dev.bridgeTok, packs := dev.packs, burstPort := dev.burstPort, inject := dev.inject, heldFrames := dev.heldFrames, engines := dev.engines, norms := dev.norms, permute := dev.permute : State }.tieB.contains ((512 + 8 * 31) / 4096) = accT.port.isB)) ∧
    (accT.tie = true ∧
     (¬(dev.oscOut.contains 0 = false ∧ dev.tieB.contains ((512 + 8 * 31) / 4096) = accT.port.isB))) := by
  refine ⟨?_, ?_, ?_, ?_, ?_, ?_, ?_, ?_, ?_, ?_⟩ <;> decide

theorem witness_HostPortLinks :
    ((dev.timeOn = true ∧ dev.oscOut.contains 0 = false ∧ 6 ≠ 0 ∧ 16 ∈ [1, 2, 4, 8, 16])) ∧
    ((¬(dev.timeOn = true ∧ dev.oscOut.contains 0 = false ∧ 6 ≠ 0 ∧ 3 ∈ [1, 2, 4, 8, 16]))) ∧
    (barD.linkUp pA.isB = true ∧
     30 ≤ 36 ∧
     36 ≤ 36) ∧
    (barD.linkUp pA.isB = true ∧
     30 ≤ 30 ∧
     30 ≤ 36) ∧
    ((37 < 30 ∨ 36 < 37)) ∧
    ((29 < 30 ∨ 36 < 29)) := by
  refine ⟨?_, ?_, ?_, ?_, ?_, ?_⟩ <;> decide

theorem witness_PowerInput :
    ((¬dev.stage = 0) ∧
     (4799#16).toNat < 4800) ∧
    ((offS.stage = 0 ∨ 4800 ≤ (4799#16).toNat)) ∧
    ((dev.stage = 0 ∨ 4800 ≤ (4800#16).toNat)) ∧
    ((¬dev.stage = 0) ∧
     (4599#16).toNat < 4600 ∧
     dev.stage ≠ 8) ∧
    ((¬st8.stage = 0) ∧
     (4599#16).toNat < 4600 ∧
     st8.stage = 8) ∧
    ((dev.stage = 0 ∨ 4600 ≤ (4600#16).toNat)) ∧
    ((¬dev.stage = 0) ∧
     6000 < (6001#16).toNat ∧
     dev.stage ≠ 8) ∧
    ((¬st8.stage = 0) ∧
     6000 < (6001#16).toNat ∧
     st8.stage = 8) ∧
    ((dev.stage = 0 ∨ (6000#16).toNat ≤ 6000)) ∧
    (4800 ≤ (4800#16).toNat ∧
     (4800#16).toNat ≤ 5800 ∧
     offS.stage = 0) ∧
    (4800 ≤ (5800#16).toNat ∧
     (5800#16).toNat ≤ 5800 ∧
     stopD.stage = 8 ∧
     stopD.inputOut = true ∧
     stopD.thermtrip = false ∧
     stopD.isReady = true ∧
     stopD.flag (pgPower 0 + 256) 0 = true) ∧
    (4800 ≤ (4800#16).toNat ∧
     (4800#16).toNat ≤ 5800 ∧
     noWarm.stage = 8 ∧
     noWarm.inputOut = true ∧
     noWarm.thermtrip = false ∧
     noWarm.isReady = true ∧
     noWarm.flag (pgPower 0 + 256) 0 = false) ∧
    (4800 ≤ (4800#16).toNat ∧
     (4800#16).toNat ≤ 5800 ∧
     unready.stage = 8 ∧
     unready.inputOut = true ∧
     unready.thermtrip = false ∧
     unready.isReady = false) ∧
    (4800 ≤ (4800#16).toNat ∧
     (4800#16).toNat ≤ 5800 ∧
     tripped.stage = 8 ∧
     tripped.thermtrip = true) ∧
    (((5801#16).toNat < 4800 ∨ 5800 < (5801#16).toNat)) ∧
    ((¬dev.stage = 0) ∧
     (5399#16).toNat < 5400) ∧
    ((dev.stage = 0 ∨ 5400 ≤ (5400#16).toNat)) ∧
    ((¬dev.stage = 0) ∧
     dev.fld (pgPower 0 + 256) 39 30 * 21 / 2 < (6301#16).toNat) ∧
    ((dev.stage = 0 ∨ (6300#16).toNat ≤ dev.fld (pgPower 0 + 256) 39 30 * 21 / 2)) := by
  refine ⟨?_, ?_, ?_, ?_, ?_, ?_, ?_, ?_, ?_, ?_, ?_, ?_, ?_, ?_, ?_, ?_, ?_, ?_, ?_⟩ <;> decide

theorem witness_CapLoopAndJunctions :
    ((dev.tick 1000).stage ≠ 0 ∧
     ((dev.tick 1000).measure 1000 cap1).live = true ∧
     ((dev.tick 1000).measure 1000 cap1).primary ≠ none) ∧
    ((stopD.tick 1000).stage ≠ 0 ∧
     (((stopD.tick 1000).measure 1000 cap1).live = false ∨ ((stopD.tick 1000).measure 1000 cap1).primary = none)) ∧
    (0 < 100 ∧
     100 < 101 ∧
     101 ≤ 2 * 100) ∧
    (0 < 100 ∧
     100 < 200 ∧
     200 ≤ 2 * 100) ∧
    (50 * 97 < 49 * 100) ∧
    ((dev.stage = 0 ∨ dev.dieThere (HotDie.yard 63) = false)) ∧
    (dev.stage ≠ 0 ∧
     dev.dieThere hotY = true ∧
     (1439#16).toInt < 90 * 16) ∧
    (dev.stage ≠ 0 ∧
     dev.dieThere hotY = true ∧
     90 * 16 ≤ (1919#16).toInt ∧
     ((1919#16).toInt < 120 * 16 ∨ dev.hotYards.contains (hotKey hotY) = true)) ∧
    (hotD.stage ≠ 0 ∧
     hotD.dieThere hotY = true ∧
     90 * 16 ≤ (1920#16).toInt ∧
     ((1920#16).toInt < 120 * 16 ∨ hotD.hotYards.contains (hotKey hotY) = true)) ∧
    (dev.stage ≠ 0 ∧
     dev.dieThere hotY = true ∧
     120 * 16 ≤ (1920#16).toInt ∧
     dev.hotYards.contains (hotKey hotY) = false ∧
     dev.stage ≠ 8) ∧
    (st8.stage ≠ 0 ∧
     st8.dieThere hotY = true ∧
     120 * 16 ≤ (1920#16).toInt ∧
     st8.hotYards.contains (hotKey hotY) = false ∧
     st8.stage = 8) := by
  refine ⟨?_, ?_, ?_, ?_, ?_, ?_, ?_, ?_, ?_, ?_, ?_⟩ <;> decide

theorem witness_Mastheads :
    ((lateD.tick 0).latch = some m0 ∧
     (lateD.tick 0).role (mastOf m0) = 3 ∧
     1000000 ≤ (lateD.tick 0).latchNs) ∧
    (((mastD 1).tick 1000).latch = some m0 ∧
     ((mastD 1).tick 1000).role (mastOf m0) = 3 ∧
     ((mastD 1).tick 1000).latchNs < 1000000) ∧
    (((mastD 2).tick 1000).latch = some m0 ∧
     ((mastD 2).tick 1000).role (mastOf m0) = 3 ∧
     ((mastD 2).tick 1000).latchNs < 1000000 ∧
     ((mastD 2).tick 1000).role (mastOf (otherMast m0)) = 2) ∧
    ((lateD.tick 0).latch = some m0 ∧
     (lateD.tick 0).role (mastOf (otherMast m0)) = 2 ∧
     1000000 ≤ (lateD.tick 0).beatNs ∧
     1000000 ≤ (lateD.tick 0).latchNs ∧
     (lateD.tick 0).maintRun = [] ∧
     (lateD.tick 0).maintQueue = [] ∧
     (lateD.tick 0).maintWait = []) ∧
    ((freshD.tick 0).latch = some m0 ∧
     (freshD.tick 0).role (mastOf (otherMast m0)) = 2 ∧
     1000000 ≤ (freshD.tick 0).beatNs ∧
     (freshD.tick 0).latchNs < 1000000 ∧
     (freshD.tick 0).shroudLost = false) ∧
    ((claimD.tick 0).latch = some m0 ∧
     (claimD.tick 0).role (mastOf (otherMast m0)) = 2 ∧
     (claimD.tick 0).shroudLost = true ∧
     1000000 ≤ (claimD.tick 0).latchNs ∧
     (claimD.tick 0).maintRun = [] ∧
     (claimD.tick 0).maintQueue = [] ∧
     (claimD.tick 0).maintWait = []) ∧
    ((dev.tick 3000000).latch ≠ none ∧
     3 ≤ (dev.tick 3000000).stage ∧
     (dev.tick 3000000).stage ≤ 8 ∧
     3000000 ≤ (dev.tick 3000000).latchNs) ∧
    ((mastD 1).latch = some m0 ∧
     (mastD 1).role (mastOf (otherMast m0)) = 1 ∧
     3 ≤ (mastD 1).stage ∧
     (mastD 1).stage ≤ 8) := by
  refine ⟨?_, ?_, ?_, ?_, ?_, ?_, ?_, ?_⟩ <;> decide

theorem witness_MaintenanceRequests :
    (dev.Open accA (pgArb + 264) ∧
     bit (maskAnd (BitVec.toNat (reqW 4)) (accMask accA)) 59 = true ∧
     (dev.storeReg (pgArb + 264) (BitVec.toNat (reqW 4)) (accMask accA)).fld (pgArb + 264) 63 60 = 4) ∧
    (noLatch.Open accA (pgArb + 264) ∧
     bit (maskAnd (BitVec.toNat (reqW 4)) (accMask accA)) 59 = true ∧
     (noLatch.storeReg (pgArb + 264) (BitVec.toNat (reqW 4)) (accMask accA)).fld (pgArb + 264) 63 60 = 4) ∧
    (dev.Open accA (pgArb + 264) ∧
     bit (maskAnd (BitVec.toNat (reqW 5)) (accMask accA)) 59 = true ∧
     (dev.storeReg (pgArb + 264) (BitVec.toNat (reqW 5)) (accMask accA)).fld (pgArb + 264) 63 60 = 5) ∧
    (dev.Open accA (pgArb + 264) ∧
     bit (maskAnd (BitVec.toNat (reqW 7)) (accMask accA)) 59 = true ∧
     (dev.storeReg (pgArb + 264) (BitVec.toNat (reqW 7)) (accMask accA)).fld (pgArb + 264) 63 60 = 7) ∧
    (noLatch.Open accA (pgArb + 264) ∧
     bit (maskAnd (BitVec.toNat (reqW 7)) (accMask accA)) 59 = true ∧
     (noLatch.storeReg (pgArb + 264) (BitVec.toNat (reqW 7)) (accMask accA)).fld (pgArb + 264) 63 60 = 7) ∧
    (windowD.Open accA (pgArb + 256) ∧
     (windowD.flag (pgArb + 256) 0 = true ∨ (windowD.storeReg (pgArb + 256) (0#64).toNat (accMask accA)).flag (pgArb + 256) 0 = false)) ∧
    (dev.Open accA (pgArb + 256) ∧
     dev.flag (pgArb + 256) 0 = false ∧
     (dev.storeReg (pgArb + 256) (BitVec.toNat (setW 0)) (accMask accA)).flag (pgArb + 256) 0 = true) ∧
    (windowD.live = true ∧
     (windowD.primary ≠ none ∧ windowD.flag (pgArb + 256) 0 = true ∧ windowD.policyDue 4 (9#32).toNat = true) ∧
     4 ≠ 1) ∧
    (errD.live = true ∧
     (errD.primary ≠ none ∧ errD.flag (pgArb + 256) 0 = true ∧ errD.policyDue 1 (0#32).toNat = true) ∧
     1 = 1) ∧
    ((dev.live = false ∨ ¬(dev.primary ≠ none ∧ dev.flag (pgArb + 256) 0 = true ∧ dev.policyDue 4 (9#32).toNat = true))) ∧
    (((runM 4 9 none).tick 1000).live = true ∧
     (((runM 4 9 none).tick 1000).maintRun.any fun m => m.cls == 4 && m.target == (9#32).toNat) = true) ∧
    (((runM 7 0 none).tick 1000).live = true ∧
     (((runM 7 0 none).tick 1000).maintRun.any fun m => m.cls == 7 && m.target == (0#32).toNat) = true) ∧
    (((runM 7 0 none).tick 1000).live = true ∧
     (((runM 7 0 none).tick 1000).maintRun.any fun m => m.cls == 7 && m.target == (0#32).toNat) = true ∧
     (0#32).toNat = 0 ∧
     ((runM 7 0 none).tick 1000).standby = some m1 ∧
     ((runM 7 0 none).tick 1000).maintQueue = []) := by
  refine ⟨?_, ?_, ?_, ?_, ?_, ?_, ?_, ?_, ?_, ?_, ?_, ?_, ?_⟩ <;> decide

theorem witness_YardRetirement :
    (((runM 5 1 (some 20)).tick 1000).live = true ∧
     (runM 5 1 (some 20)).maintRun = [{ cls := 5, target := 1, src := 1, spare := some 20 : MaintOp }] ∧
     { cls := 5, target := 1, src := 1, spare := some 20 : MaintOp }.cls = 5 ∧
     { cls := 5, target := 1, src := 1, spare := some 20 : MaintOp }.target = 1 ∧
     { cls := 5, target := 1, src := 1, spare := some 20 : MaintOp }.spare = some 20 ∧
     (runM 5 1 (some 20)).maintQueue = [] ∧
     ((runM 5 1 (some 20)).tick 1000).physOf 1 = some 1 ∧
     20 < 72 ∧
     1 < 72) ∧
    (((runM 5 1 (some 20)).tick 1000).live = true ∧
     (runM 5 1 (some 20)).maintRun = [{ cls := 5, target := 1, src := 1, spare := some 20 : MaintOp }] ∧
     { cls := 5, target := 1, src := 1, spare := some 20 : MaintOp }.cls = 5 ∧
     { cls := 5, target := 1, src := 1, spare := some 20 : MaintOp }.target = 1 ∧
     { cls := 5, target := 1, src := 1, spare := some 20 : MaintOp }.spare = some 20 ∧
     (runM 5 1 (some 20)).maintQueue = [] ∧
     ((runM 5 1 (some 20)).tick 1000).physOf 1 = some 1 ∧
     20 < 72 ∧
     1 < 72 ∧
     ((((runM 5 1 (some 20)).tick 1000).retirePhys 20).setMapGen (((runM 5 1 (some 20)).tick 1000).reg (pgGlobal + 1016) + 1)).chooseSpare 1 = none) ∧
    (hourD.now / (hourD.fld (pgMon + 384) 47 32 * 3600000000000) < (hourD.tick 1000).now / (hourD.fld (pgMon + 384) 47 32 * 3600000000000)) ∧
    ((¬dev.now / (dev.fld (pgMon + 384) 47 32 * 3600000000000) < (dev.tick 1000).now / (dev.fld (pgMon + 384) 47 32 * 3600000000000))) := by
  refine ⟨?_, ?_, ?_, ?_⟩ <;> decide

theorem witness_MonitorsAndScrub :
    (77 < 2 ^ 32 ∧
     inPage (nSw * 4096) = true ∧
     (monD (2 ^ 31 + 2 ^ 16)).absent (nSw * 4096) = false ∧
     (monD (2 ^ 31 + 2 ^ 16)).stage ≠ 0 ∧
     (monD (2 ^ 31 + 2 ^ 16)).flag (nSw * 4096 + 80) 31 = true ∧
     (monD (2 ^ 31 + 2 ^ 16)).flag (nSw * 4096 + 80) 30 = false ∧
     (monD (2 ^ 31 + 2 ^ 16)).monSource (nSw * 4096) ≠ 0 ∧
     (monD (2 ^ 31 + 2 ^ 16)).monSource (nSw * 4096) ≠ 8) ∧
    (((monD 0).flag (nSw * 4096 + 80) 31 = false ∨ (monD 0).flag (nSw * 4096 + 80) 30 = true ∨ (monD 0).monSource (nSw * 4096) = 0)) ∧
    (inPage (nSw * 4096) = true ∧
     (monD (2 ^ 31 + 2 ^ 16)).Open accA (nSw * 4096 + 80) ∧
     sourceOk (nSw * 4096 / 4096) (((monD (2 ^ 31 + 2 ^ 16)).storeReg (nSw * 4096 + 80) (9223372039002324992#64).toNat (accMask accA)).monSource (nSw * 4096)) = true ∧
     acts (9223372039002324992#64).toNat 29 = false ∧
     ((monD (2 ^ 31 + 2 ^ 16)).storeReg (nSw * 4096 + 80) (9223372039002324992#64).toNat (accMask accA)).monSource (nSw * 4096) = (monD (2 ^ 31 + 2 ^ 16)).monSource (nSw * 4096) ∧
     ((monD (2 ^ 31 + 2 ^ 16)).storeReg (nSw * 4096 + 80) (9223372039002324992#64).toNat (accMask accA)).fld (nSw * 4096 + 80) 13 8 = (monD (2 ^ 31 + 2 ^ 16)).fld (nSw * 4096 + 80) 13 8) ∧
    (inPage (nSw * 4096) = true ∧
     (monD (2 ^ 31 + 2 ^ 16)).Open accA (nSw * 4096 + 80) ∧
     sourceOk (nSw * 4096 / 4096) (((monD (2 ^ 31 + 2 ^ 16)).storeReg (nSw * 4096 + 80) (18446744072099004416#64).toNat (accMask accA)).monSource (nSw * 4096)) = true ∧
     acts (18446744072099004416#64).toNat 29 = true) ∧
    (dev.live = true) ∧
    (sdAD.live = true ∧
     sdAD.partOfJob (sdAD.sdJob 7) = none) := by
  refine ⟨?_, ?_, ?_, ?_, ?_, ?_⟩ <;> decide

theorem witness_ConnectorsAndManagement :
    ((cut9.stage = 0 ∨ cut9.cagesOff.contains 9 = true)) ∧
    (dev.stage ≠ 0 ∧
     dev.cagesOff.contains 9 = false ∧
     dev.portState 9 = 0) ∧
    (up9.stage ≠ 0 ∧
     up9.cagesOff.contains 9 = false ∧
     up9.portState 9 ≠ 0) ∧
    (up9.stage ≠ 0 ∧
     up9.cagesOff.contains 9 = false ∧
     up9.portState 9 ≠ 0 ∧
     up9.port 9 = { : PortState }) ∧
    (lightsOff.stage = 0) ∧
    (dev.stage ≠ 0) ∧
    (dev.smbServes = true) ∧
    ((lightsOff.smbServes = false ∨ true = false)) ∧
    (lightsOff.smbServes = false) ∧
    (dev.smbServes = true ∧
     (12672#32).toNat / 4096 = 3 ∧
     (¬(12672#32).toNat % 4096 ∈ [8, 32, 40, 48, 56, 72, 80, 264, 400])) ∧
    (dev.smbServes = true ∧
     (12552#32).toNat / 4096 = 3) ∧
    ((dev.smbServes = false ∨ true = false ∨ (131328#32).toNat / 4096 ≠ 3)) := by
  refine ⟨?_, ?_, ?_, ?_, ?_, ?_, ?_, ?_, ?_, ?_, ?_, ?_⟩ <;> decide

end Sys2Proof.Tests
end

section
/-! SUPPORT. The state after reset (R13): what its registers read and what the tables give the registers the spec names. -/
namespace Sys2Proof.Machine

/-- After reset a register reads as its table's reset value, since the register file lists nothing. -/
@[simp] theorem reset_reg (a : Nat) : State.reset.reg a = (regReset a).toNat := rfl

@[simp] theorem reset_fld (a hi lo : Nat) : State.reset.fld a hi lo = bits (regReset a).toNat hi lo := rfl

@[simp] theorem reset_flag (a i : Nat) : State.reset.flag a i = bit (regReset a).toNat i := rfl

/-- Both flash devices' retired lists are empty after reset. -/
theorem reset_not_retired (p : Nat) : ¬State.reset.Retired p := fun h => List.not_mem_nil h.1

/-- A register past the common header of a partition page stands in Table 15.3, whichever of the 8 pages it is. -/
theorem regRow_pgPart {p o : Nat} (hp : p < 8) (hlo : 0x100 ≤ o) (hhi : o < 0x1000) :
    regRow (pgPart p + o) = rowsPart.find? (·.covers o) := by
  have hpage : (pgPart p + o) / 0x1000 = 0x20 + p := by unfold pgPart; omega
  have hoff : (pgPart p + o) % 0x1000 = o := by unfold pgPart; omega
  have hwin : windowKind (pgPart p + o) = 0 := by
    unfold windowKind pgPart
    repeat rw [if_neg (by omega)]
  have htype : pageType (0x20 + p) = 0x06 := by
    unfold pageType
    repeat rw [if_neg (by omega)]
    rw [if_pos (by omega)]
  have hrows : pageRows (0x20 + p) = rowsPart := by simp only [pageRows, htype]
  simp [regRow, hwin, hpage, hoff, htype, hrows, Nat.not_lt.mpr hlo]

/-- Such a register holds, after reset, the reset value of its row of Table 15.3. -/
theorem regReset_pgPart {p o : Nat} {r : RegRow} (hp : p < 8) (hlo : 0x100 ≤ o) (hhi : o < 0x1000)
    (hrow : rowsPart.find? (·.covers o) = some r) : regReset (pgPart p + o) = toW r.reset := by
  rw [regReset, regRow_pgPart hp hlo hhi, hrow]

/-- PT_STALL and PT_BUDGET of every partition after reset (Table 15.3). -/
theorem reset_ptStall_ptBudget {p : Nat} (hp : p < 8) :
    State.reset.reg (pgPart p + 0x180) = 1000 ∧ State.reset.reg (pgPart p + 0x188) = 5000 := by
  have hstall : rowsPart.find? (·.covers 0x180) = some { off := 0x180, rw := 0xFFFF_FFFF, reset := 1000 } := by decide
  have hbudget : rowsPart.find? (·.covers 0x188) = some { off := 0x188, rw := 0xFFFF_FFFF, reset := 5000 } := by decide
  rw [reset_reg, reset_reg, regReset_pgPart hp (by decide) (by decide) hstall, regReset_pgPart hp (by decide) (by decide) hbudget]
  decide

/-- GLB_IDENT after reset (Table 16.12). -/
theorem regReset_glbIdent : regReset (pgGlobal + 0x100) = toW 0x6400_1000_0000_0000 := by decide

/-- PWR_CFG after reset (Table 17.5): 95 °C, 600 A, 26.0 kW, 900 mV, AUTO_WARM. -/
theorem regReset_pwrCfg :
    regReset (pgPower 0 + 0x100) = toW (95 * 2 ^ 40 + 600 * 2 ^ 30 + 260 * 2 ^ 21 + 900 * 2 ^ 11 + 1) := by decide

/-- BR_STATUS after reset (Table 18.4): stage 1, not READY. -/
theorem regReset_brStatus : regReset (pgBare + 0x100) = toW 0x0200_0000_0000_0000 := by decide

/-- BR_LOG after reset (Table 18.6): TYPE 1. -/
theorem regReset_brLog : regReset (pgBare + 0x110) = toW 0x2000_0000_0000_0000 := by decide

/-- MN_CFG after reset (Table 19.8): LOG_SEV 0x1F. -/
theorem regReset_mnCfg : regReset (pgMon + 0x100) = toW 0x1F := by decide

/-- Reset leaves nothing under way: no section, image, context, unit, engine, port or permute. -/
theorem reset_nothing_under_way :
    State.reset.sections = [] ∧ State.reset.images = [] ∧ State.reset.cores = [] ∧ State.reset.units = [] ∧
    State.reset.engines = [] ∧ State.reset.ports = [] ∧ State.reset.permute = none :=
  ⟨rfl, rfl, rfl, rfl, rfl, rfl, rfl⟩

/-- STAGE and READY after reset. -/
theorem reset_stage_isReady : State.reset.stage = 1 ∧ State.reset.isReady = false := by
  rw [State.stage, State.isReady, reset_fld, reset_flag, regReset_brStatus]
  decide

/-- TJ_LIMIT, ILIMIT, CAP, BASE_MV and AUTO_WARM after reset. -/
theorem reset_pwrCfg_fields :
    State.reset.fld (pgPower 0 + 0x100) 47 40 = 95 ∧ State.reset.fld (pgPower 0 + 0x100) 39 30 = 600 ∧
    State.reset.fld (pgPower 0 + 0x100) 29 21 = 260 ∧ State.reset.fld (pgPower 0 + 0x100) 20 11 = 900 ∧
    State.reset.flag (pgPower 0 + 0x100) 0 = true := by
  simp only [reset_fld, reset_flag, regReset_pwrCfg]
  decide

end Sys2Proof.Machine

namespace Sys2Proof
open Machine

/-- Settles O2: the register file lists nothing after reset, so a claim about a register is one about its row in the tables. -/
theorem resetState : Obligations.ResetState := by
  unfold Obligations.ResetState
  obtain ⟨hstage, hready⟩ := reset_stage_isReady
  obtain ⟨htj, hamps, hcap, hbase, hwarm⟩ := reset_pwrCfg_fields
  refine ⟨hstage, hready, rfl, reset_canonical, reset_not_retired, reset_reg, fun _ => reset_ptStall_ptBudget, ?ident,
    htj, hamps, hcap, hbase, hwarm, ?logType, ?logSev, reset_nothing_under_way⟩
  case ident => rw [reset_fld, regReset_glbIdent]; decide
  case logType => rw [reset_fld, regReset_brLog]; decide
  case logSev => rw [reset_reg, regReset_mnCfg]; decide

end Sys2Proof
end

section
/-! SUPPORT. What a command, and a step, can do to the retired lists: each function of a command keeps them (Laws/Keep*.lean), so `exec` does,
and so `step` does. Power-on, cold start, warm and partition reset and the end of boot are commands like the others. -/
namespace Sys2Proof.Machine

/-- Every command completes with the queue as it was and no entry of a retired list lost: `exec` hands each one to a function that does. -/
theorem exec_good (i : Instr) (s : State) : Good s.outside (exec i s) :=
  match i with
  | .powerOn => execPowerOn_good s
  | .housekeepingDone dt good => execHousekeepingDone_good dt good s
  | .bootDone dt a b => execBootDone_good dt a b s
  | .selftestDone dt r => execSelftestDone_good dt r s
  | .hbmTrainDone dt bad => execHbmTrainDone_good dt bad s
  | .linksDone dt => execLinksDone_good dt s
  | .ready dt => execReady_good dt s
  | .cold acc w => execCold_good acc w s
  | .warm acc w => execWarm_good acc w s
  | .partRst acc w ms => execPartRst_good acc w ms s
  | .yardRst acc w ms => execYardRst_good acc w ms s
  | .refclkLost i0 => execRefclkLost_good i0 s
  | .ydSenseUpdate dt xs => execYdSenseUpdate_good dt xs s
  | .tokenRoute y src lane flip => execTokenRoute_good y src lane flip s
  | .crossingPass p dir lane flip => execCrossingPass_good p dir lane flip s
  | .halyardCopyReceive y e rail flip => execHalyardCopyReceive_good y e rail flip s
  | .railRetry acc y w => execRailRetry_good acc y w s
  | .unitTokenArrive y u lane flip => execUnitTokenArrive_good y u lane flip s
  | .firingDecision y u => execFiringDecision_good y u s
  | .firingEnd y u => execFiringEnd_good y u s
  | .steeringPass y st => execSteeringPass_good y st s
  | .countTick y st => execCountTick_good y st s
  | .stallSample dt p => execStallSample_good dt p s
  | .fabricReset p => execFabricReset_good p s
  | .abandon acc p w => execAbandon_good acc p w s
  | .reefOpen y u => execReefOpen_good y u s
  | .reefData y u => execReefData_good y u s
  | .reefClose y u => execReefClose_good y u s
  | .sectionStart y u => execSectionStart_good y u s
  | .sectionEnd y u => execSectionEnd_good y u s
  | .slotDone y => execSlotDone_good y s
  | .trackerPortToken y lane => execTrackerPortToken_good y lane s
  | .sectionIssue p => execSectionIssue_good p s
  | .trackerReleaseWaiting p => execTrackerReleaseWaiting_good p s
  | .stepSeqRelease p j => execStepSeqRelease_good p j s
  | .budgetSample dt p => execBudgetSample_good dt p s
  | .rigLoad acc p w => execRigLoad_good acc p w s
  | .loadCommit p => execLoadCommit_good p s
  | .unload acc p w => execUnload_good acc p w s
  | .muPendingWaitEnd y m => execMuPendingWaitEnd_good y m s
  | .suDelayEmit y k => execSuDelayEmit_good y k s
  | .hbmGrant c => execHbmGrant_good c s
  | .hbmReadComplete c row sev => execHbmReadComplete_good c row sev s
  | .scAccess h => execScAccess_good h s
  | .scFillComplete h => execScFillComplete_good h s
  | .hbmTempSample dt h t => execHbmTempSample_good dt h t s
  | .patrolScrub c row sev => execPatrolScrub_good c row sev s
  | .repair acc h w => execRepair_good acc h w s
  | .rowRepairRun dt h => execRowRepairRun_good dt h s
  | .mapOutRequest acc h w => execMapOutRequest_good acc h w s
  | .mapOutQuiesced dt c => execMapOutQuiesced_good dt c s
  | .mapOutShardsDone dt c => execMapOutShardsDone_good dt c s
  | .mapOutRestripeDone dt c => execMapOutRestripeDone_good dt c s
  | .sdEntryWrite acc b word w => execSdEntryWrite_good acc b word w s
  | .flip acc w => execFlip_good acc w s
  | .sdFlip => execSdFlip_good s
  | .stowBaseWrite acc y w => execStowBaseWrite_good acc y w s
  | .ycInboundToken y lane flip => execYcInboundToken_good y lane flip s
  | .ycWake dt y r => execYcWake_good dt y r s
  | .ycAdd y r => execYcAdd_good y r s
  | .ycSub y r => execYcSub_good y r s
  | .ycAnd y r => execYcAnd_good y r s
  | .ycOr y r => execYcOr_good y r s
  | .ycXor y r => execYcXor_good y r s
  | .ycSll y r => execYcSll_good y r s
  | .ycSrl y r => execYcSrl_good y r s
  | .ycSra y r => execYcSra_good y r s
  | .ycSlt y r => execYcSlt_good y r s
  | .ycSltu y r => execYcSltu_good y r s
  | .ycMul y r => execYcMul_good y r s
  | .ycMulhu y r => execYcMulhu_good y r s
  | .ycMulh y r => execYcMulh_good y r s
  | .ycDivu y r => execYcDivu_good y r s
  | .ycRemu y r => execYcRemu_good y r s
  | .ycDiv y r => execYcDiv_good y r s
  | .ycRem y r => execYcRem_good y r s
  | .ycAddi y r => execYcAddi_good y r s
  | .ycAndi y r => execYcAndi_good y r s
  | .ycOri y r => execYcOri_good y r s
  | .ycXori y r => execYcXori_good y r s
  | .ycSlli y r => execYcSlli_good y r s
  | .ycSrli y r => execYcSrli_good y r s
  | .ycSrai y r => execYcSrai_good y r s
  | .ycLsh16 y r => execYcLsh16_good y r s
  | .ycFadd y r => execYcFadd_good y r s
  | .ycFsub y r => execYcFsub_good y r s
  | .ycFmul y r => execYcFmul_good y r s
  | .ycFdiv y r => execYcFdiv_good y r s
  | .ycFmin y r => execYcFmin_good y r s
  | .ycFmax y r => execYcFmax_good y r s
  | .ycFsqrt y r => execYcFsqrt_good y r s
  | .ycFlt y r => execYcFlt_good y r s
  | .ycFle y r => execYcFle_good y r s
  | .ycFeq y r => execYcFeq_good y r s
  | .ycFcvtL y r => execYcFcvtL_good y r s
  | .ycFcvtF y r => execYcFcvtF_good y r s
  | .ycLd y r => execYcLd_good y r s
  | .ycLw y r => execYcLw_good y r s
  | .ycLws y r => execYcLws_good y r s
  | .ycLb y r => execYcLb_good y r s
  | .ycSd y r => execYcSd_good y r s
  | .ycSw y r => execYcSw_good y r s
  | .ycSb y r => execYcSb_good y r s
  | .ycBeq y r => execYcBeq_good y r s
  | .ycBne y r => execYcBne_good y r s
  | .ycBlt y r => execYcBlt_good y r s
  | .ycBge y r => execYcBge_good y r s
  | .ycBltu y r => execYcBltu_good y r s
  | .ycBgeu y r => execYcBgeu_good y r s
  | .ycJal y r => execYcJal_good y r s
  | .ycJalr y r => execYcJalr_good y r s
  | .ycCsrr y r => execYcCsrr_good y r s
  | .ycCsrw y r => execYcCsrw_good y r s
  | .ycCsrset y r => execYcCsrset_good y r s
  | .ycCsrclr y r => execYcCsrclr_good y r s
  | .ycSend y r => execYcSend_good y r s
  | .ycRecv y r => execYcRecv_good y r s
  | .ycGetsum y r => execYcGetsum_good y r s
  | .ycWait y r => execYcWait_good y r s
  | .ycReefsend y r => execYcReefsend_good y r s
  | .ycIssue y r => execYcIssue_good y r s
  | .ycXferToLocal y r => execYcXferToLocal_good y r s
  | .ycXferToHbm y r => execYcXferToHbm_good y r s
  | .xferComplete y j i0 => execXferComplete_good y j i0 s
  | .ycFence y r => execYcFence_good y r s
  | .ycTake y r => execYcTake_good y r s
  | .ycCommit y r => execYcCommit_good y r s
  | .ycHalt y r => execYcHalt_good y r s
  | .ycTret y r => execYcTret_good y r s
  | .workCounterServe => execWorkCounterServe_good s
  | .leaseTimeout dt => execLeaseTimeout_good dt s
  | .wcDataWrite acc y w => execWcDataWrite_good acc y w s
  | .reefStreamerSend y => execReefStreamerSend_good y s
  | .stop acc y w => execStop_good acc y w s
  | .start acc y w => execStart_good acc y w s
  | .schedDecide y => execSchedDecide_good y s
  | .schedQuantum dt y => execSchedQuantum_good dt y s
  | .stepVeto y => execStepVeto_good y s
  | .gateNoResult dt p j => execGateNoResult_good dt p j s
  | .resync acc p j w => execResync_good acc p j w s
  | .stepPlanWrite acc p j cfg w => execStepPlanWrite_good acc p j cfg w s
  | .phaseDrained p j => execPhaseDrained_good p j s
  | .phaseSwitchDeadline dt p j => execPhaseSwitchDeadline_good dt p j s
  | .retry acc p j w => execRetry_good acc p j w s
  | .force acc p j w => execForce_good acc p j w s
  | .phaseCfgWrite acc p j w => execPhaseCfgWrite_good acc p j w s
  | .wverWrite acc p j w => execWverWrite_good acc p j w s
  | .lntWrite acc e word w => execLntWrite_good acc e word w s
  | .lscaleWrite acc p j w => execLscaleWrite_good acc p j w s
  | .numRoll acc p j w => execNumRoll_good acc p j w s
  | .spikeReset acc p j w => execSpikeReset_good acc p j w s
  | .portTrainDone dt p lanes => execPortTrainDone_good dt p lanes s
  | .portRetryTimer dt p => execPortRetryTimer_good dt p s
  | .identRetry dt p => execIdentRetry_good dt p s
  | .ident p x => execIdent_good p x s
  | .laneBad p lane lock clash => execLaneBad_good p lane lock clash s
  | .portLoss p cause => execPortLoss_good p cause s
  | .token p f => execToken_good p f s
  | .mark p f => execMark_good p f s
  | .coll p f => execColl_good p f s
  | .link p f => execLink_good p f s
  | .phase p f => execPhase_good p f s
  | .phaseConf p f => execPhaseConf_good p f s
  | .replayTimeout dt p => execReplayTimeout_good dt p s
  | .pfcPause p vc xoff => execPfcPause_good p vc xoff s
  | .bridgeTokenOut d side plane => execBridgeTokenOut_good d side plane s
  | .bridgeFlushTimer dt d c => execBridgeFlushTimer_good dt d c s
  | .groupTableWrite acc g word w => execGroupTableWrite_good acc g word w s
  | .glbDevWrite acc w => execGlbDevWrite_good acc w s
  | .stCfgWrite acc p w => execStCfgWrite_good acc p w s
  | .collDescStart d => execCollDescStart_good d s
  | .collChunkReady d x k => execCollChunkReady_good d x k s
  | .collDescComplete d x => execCollDescComplete_good d x s
  | .collDeadline dt d x => execCollDeadline_good dt d x s
  | .agreeUp p f => execAgreeUp_good p f s
  | .agreeDown p f => execAgreeDown_good p f s
  | .agreeDeadline dt perm j => execAgreeDeadline_good dt perm j s
  | .normUp p f => execNormUp_good p f s
  | .normDown p f => execNormDown_good p f s
  | .abort p f => execAbort_good p f s
  | .permuteRequest acc w => execPermuteRequest_good acc w s
  | .permuteWaitDone => execPermuteWaitDone_good s
  | .permuteMoveDone => execPermuteMoveDone_good s
  | .permuteNoResult dt => execPermuteNoResult_good dt s
  | .ptCfgWrite acc p r w => execPtCfgWrite_good acc p r w s
  | .ptSaveWrite acc p w => execPtSaveWrite_good acc p w s
  | .jobCfgWrite acc p j w => execJobCfgWrite_good acc p j w s
  | .regulatorRefill dt p => execRegulatorRefill_good dt p s
  | .yield_ acc p w => execYield__good acc p w s
  | .yieldDrained p j => execYieldDrained_good p j s
  | .resume acc p w => execResume_good acc p w s
  | .preemptWait dt p j => execPreemptWait_good dt p j s
  | .ringTailWrite acc j w => execRingTailWrite_good acc j w s
  | .ringCfgWrite acc j w => execRingCfgWrite_good acc j w s
  | .ringFetch j => execRingFetch_good j s
  | .nop j => execNop_good j s
  | .ringStart j => execRingStart_good j s
  | .ringLoad j => execRingLoad_good j s
  | .ringUnload j => execRingUnload_good j s
  | .ringWait j => execRingWait_good j s
  | .signal j => execSignal_good j s
  | .go acc j w => execGo_good acc j w s
  | .skip acc j w => execSkip_good acc j w s
  | .hostPortReset p k => execHostPortReset_good p k s
  | .bar2Read p off len => execBar2Read_good p off len s
  | .bar2Write p off bytes => execBar2Write_good p off bytes s
  | .registerWrite acc addr w => execRegisterWrite_good acc addr w s
  | .pgOwnerWrite acc page w => execPgOwnerWrite_good acc page w s
  | .evtPendClear acc page w => execEvtPendClear_good acc page w s
  | .evtEnableWrite acc page w => execEvtEnableWrite_good acc page w s
  | .evtSet acc page w => execEvtSet_good acc page w s
  | .pgCtrlWrite acc page w => execPgCtrlWrite_good acc page w s
  | .clr acc page w => execClr_good acc page w s
  | .counterSatClear acc addr w => execCounterSatClear_good acc addr w s
  | .semAcquire acc i0 => execSemAcquire_good acc i0 s
  | .semRelease acc i0 w => execSemRelease_good acc i0 w s
  | .semaphoreTimeout dt => execSemaphoreTimeout_good dt s
  | .inputLow vin => execInputLow_good vin s
  | .inputUndervolt vin => execInputUndervolt_good vin s
  | .inputOvervolt vin => execInputOvervolt_good vin s
  | .inputRecovered vin => execInputRecovered_good vin s
  | .busCollapse busMv => execBusCollapse_good busMv s
  | .capLoop dt x => execCapLoop_good dt x s
  | .currentLimit iin busMv => execCurrentLimit_good iin busMv s
  | .junctionHot d t => execJunctionHot_good d t s
  | .heartbeat dt pair0 pair1 => execHeartbeat_good dt pair0 pair1 s
  | .mastheadTakeover dt => execMastheadTakeover_good dt s
  | .mastheadBothLost dt => execMastheadBothLost_good dt s
  | .maintRequest cls target => execMaintRequest_good cls target s
  | .laneRetrain acc w => execLaneRetrain_good acc w s
  | .yardRetire acc w => execYardRetire_good acc w s
  | .firmwareUpdate acc w => execFirmwareUpdate_good acc w s
  | .maintOpEnd dt cls target good => execMaintOpEnd_good dt cls target good s
  | .maCtrlWrite acc w => execMaCtrlWrite_good acc w s
  | .retireTestDone dt y pass => execRetireTestDone_good dt y pass s
  | .hitsWindowClear dt => execHitsWindowClear_good dt s
  | .configScrub found => execConfigScrub_good found s
  | .monitorSample page v => execMonitorSample_good page v s
  | .monCfgWrite acc page w => execMonCfgWrite_good acc page w s
  | .tsyncEdge dt => execTsyncEdge_good dt s
  | .tsyncTimeout dt => execTsyncTimeout_good dt s
  | .tsyncPulse dt => execTsyncPulse_good dt s
  | .arm acc w => execArm_good acc w s
  | .cageOverpower p => execCageOverpower_good p s
  | .moduleInsert => execModuleInsert_good s
  | .fruRead off => execFruRead_good off s
  | .smbSetOffset off pec => execSmbSetOffset_good off pec s
  | .smbRead => execSmbRead_good s
  | .smbWrite off w pec => execSmbWrite_good off w pec s
  | .jtagInstruction i0 => execJtagInstruction_good i0 s
  | .refclkRecovered i0 => execRefclkRecovered_good i0 s
  | .phyRelockDone east => execPhyRelockDone_good east s
  | .hostLinkUp p speed width flit recovery msix => execHostLinkUp_good p speed width flit recovery msix s
  | .standbyReady m => execStandbyReady_good m s
  | .shroudClaimRetry dt => execShroudClaimRetry_good dt s
  | .acknowledgeTimer p vc => execAcknowledgeTimer_good p vc s
  | .resizableBarWrite p log2 => execResizableBarWrite_good p log2 s

/-- A step completes, takes the front command off the queue and no entry off a retired list. -/
theorem step_good (s : State) : Good ⟨s.pending.tail, s.retiredA, s.retiredB⟩ (step s) := by
  unfold step
  split
  next hempty =>
    exact good_next (keeps_of_eq (by rw [State.outside, hempty, List.tail_nil]))
  next i rest hfront =>
    rw [hfront, List.tail_cons]
    exact exec_good i { s with pending := rest }

/-- Where neither retired list lost an entry, a Yard on both is still on both. -/
theorem Keeps.retired {r : Outside} {t : State} {p : Nat} (h : Keeps r t.outside) (hA : p ∈ r.retiredA) (hB : p ∈ r.retiredB) :
    t.Retired p := by
  obtain ⟨-, hkeepsA, hkeepsB⟩ := h
  exact ⟨hkeepsA p hA, hkeepsB p hB⟩

end Sys2Proof.Machine

namespace Sys2Proof
open Machine

/-- Settles O4: no step, whatever its command, loses an entry of either flash device's list. -/
theorem retiredYardsStayRetired : Obligations.RetiredYardsStayRetired := by
  unfold Obligations.RetiredYardsStayRetired
  intro s t p hstep hretired
  obtain ⟨honA, honB⟩ := hretired
  obtain ⟨u, hu, hkeeps⟩ := step_good s
  obtain rfl : t = u := Host.Outcome.next.inj (hstep.symm.trans hu)
  exact hkeeps.retired honA honB

end Sys2Proof
end

section
/-! SUPPORT. That a command, and a step, completes: what it keeps outside the machine (Laws/Keep.lean) has the queue in it. -/
namespace Sys2Proof.Machine

/-- A command that completes with the queue kept answers a next state with that queue. -/
theorem Good.answers_pending {r : Outside} {x : Result} (h : Good r x) : Answers x fun t => t.pending = r.pending := by
  obtain ⟨t, hnext, hqueue, -, -⟩ := h
  exact ⟨t, hnext, hqueue⟩

end Sys2Proof.Machine

namespace Sys2Proof
open Machine

/-- Settles O3: no arm of `exec` faults or refuses, and none reaches the queue; `step` alone takes its front off. -/
theorem everyCommandCompletes : Obligations.EveryCommandCompletes := by
  unfold Obligations.EveryCommandCompletes
  exact ⟨fun c s => (exec_good c s).answers_pending, fun s => (step_good s).answers_pending⟩

end Sys2Proof
end

section
/-! SUPPORT. Oscillators, sensors and TSYNC (R44..R49, R432): what a word of flags, a host write that is let through, the passing of time and the
loss of a host link do, as far as the commands of Machine/Startup.lean rest on it. -/
namespace Sys2Proof.Machine

/-! ### Registers -/

theorem State.flag_congr {s t : State} {a : Nat} (h : t.reg a = s.reg a) (i : Nat) : t.flag a i = s.flag a i := by
  rw [State.flag, State.flag, h]

theorem State.fld_congr {s t : State} {a : Nat} (h : t.reg a = s.reg a) (hi lo : Nat) : t.fld a hi lo = s.fld a hi lo := by
  rw [State.fld, State.fld, h]

theorem State.flag_eq_fld (s : State) (a i : Nat) : s.flag a i = (s.fld a i i == 1) := bit_eq_bits _ _

/-- A write of one bit leaves the register's other bits. -/
theorem State.flag_setFlag_ne (s : State) (a : Nat) {i j : Nat} (b : Bool) (hi : i < 64) (h : j ≠ i) :
    (s.setFlag a i b).flag a j = s.flag a j := by
  rw [State.flag_eq_fld, State.flag_eq_fld, State.setFlag]
  rcases Nat.lt_or_gt_of_ne h with hbelow | habove
  · rw [State.fld_setFld_below _ _ _ _ _ _ _ hi (Nat.le_refl i) hbelow (Nat.le_refl j)]
  · rw [State.fld_setFld_above _ _ _ _ _ _ _ hi (Nat.le_refl i) habove]

/-- A bit of a field that was set to 0 is 0. -/
theorem State.flag_setFld_zero (s : State) (a hi : Nat) {lo : Nat} (h : hi < 64) (hl : lo ≤ hi) : (s.setFld a hi lo 0).flag a hi = false := by
  have hfld : (s.setFld a hi lo 0).reg a / 2 ^ lo % (2 ^ (hi - lo) * 2) = 0 := by
    have hzero := s.fld_setFld_self a hi lo 0 h hl
    rwa [Nat.zero_mod, State.fld, bits, show hi + 1 - lo = hi - lo + 1 by omega, Nat.pow_succ] at hzero
  have hbit : (s.setFld a hi lo 0).reg a / 2 ^ hi % 2 = 0 := by
    rw [show hi = lo + (hi - lo) by omega, Nat.pow_add, ← Nat.div_div_eq_div_mul, ← show hi = lo + (hi - lo) by omega,
      ← Nat.mod_mul_right_div_self, hfld, Nat.zero_div]
  rw [State.flag, bit, hbit]
  rfl

/-- Whether a logical Yard has units is read from its entry of the Yard map. -/
theorem State.enabled_congr {s t : State} {y : Nat} (h : t.reg (pgGlobal + 0x400 + 8 * y) = s.reg (pgGlobal + 0x400 + 8 * y)) :
    t.enabled y = s.enabled y := by
  rw [State.enabled, State.enabled, State.physOf, State.physOf, State.flag_congr h, State.fld_congr h]

/-- What each step of a fold keeps, the fold keeps. -/
theorem foldl_keeps_view {α β : Type} (view : State → β) (f : State → α → State) (l : List α) (s : State)
    (h : ∀ t, ∀ x ∈ l, view (f t x) = view t) : view (l.foldl f s) = view s := by
  induction l generalizing s with
  | nil => rfl
  | cons x l ih =>
    rw [List.foldl_cons, ih _ fun t y hy => h t y (List.mem_cons_of_mem x hy), h s x List.mem_cons_self]

/-- A fold of steps that only change registers and what left the module changes nothing else. -/
theorem onlyRegs_foldl {α : Type} (f : State → α → State) (h : ∀ t x, OnlyRegs t (f t x)) (l : List α) (s : State) : OnlyRegs s (l.foldl f s) := by
  induction l generalizing s with
  | nil => exact .refl s
  | cons x l ih => exact (h s x).trans (ih _)

/-- Folds whose steps agree on the members of the list agree. -/
theorem foldl_congr_mem {α β : Type} {f g : β → α → β} {l : List α} {b : β} (h : ∀ c, ∀ x ∈ l, f c x = g c x) : l.foldl f b = l.foldl g b := by
  induction l generalizing b with
  | nil => rfl
  | cons x l ih =>
    rw [List.foldl_cons, List.foldl_cons, h b x List.mem_cons_self, ih fun c y hy => h c y (List.mem_cons_of_mem x hy)]

/-- Entries of a key that a filter lets through whatever they hold are found as before. -/
theorem Tab.find?_filter_kept {α : Type} (p : Nat × α → Bool) (t : Tab α) {k : Nat} (h : ∀ v, p (k, v) = true) :
    Tab.find? (t.filter p) k = Tab.find? t k := by
  induction t with
  | nil => rfl
  | cons e t ih =>
    obtain ⟨j, w⟩ := e
    by_cases hk : j = k
    · subst hk
      rw [List.filter_cons_of_pos (h w), Tab.find?, Tab.find?, if_pos rfl, if_pos rfl]
    · rw [Tab.find?, if_neg hk, ← ih, List.filter_cons]
      split
      · rw [Tab.find?, if_neg hk]
      · rfl

/-! ### Host writes -/

/-- A host write that reaches its register is taken at once (R384, R396). -/
theorem State.hostWrite_of_open {s : State} {acc : Acc} {a : Nat} (h : s.Open acc a) (f : State → State) : s.hostWrite acc a f = f s := by
  obtain ⟨hgate, hosc, htie⟩ := h
  have hsettled : s.tieSettled acc a = s := by rw [State.tieSettled, htie]; rfl
  have hserved : s.served_ acc a = true := by rw [State.served_, hosc, htie]; rfl
  rw [State.hostWrite, State.inTurn, if_pos hserved, hsettled, hgate]

/-! ### Time -/

theorem onlyRegs_regWaits (s : State) (dt : Nat) : OnlyRegs s (s.regWaits dt) :=
  onlyRegs_foldl _ (fun _ _ => onlyRegs_bump ..) _ _

/-- The cap loop's limit counts the time in its register, or in the age of its silence. -/
theorem State.limitTime_cases (s : State) (dt : Nat) : ∃ r o lim, s.limitTime dt = { s with regs := r, out := o, limQuietNs := lim } := by
  unfold State.limitTime
  extract_lets lim
  split
  · obtain ⟨r, o, hbump⟩ := onlyRegs_bump s (pgPower 0 + 0x120) dt
    exact ⟨r, o, s.limQuietNs, hbump⟩
  · exact ⟨s.regs, s.out, s.limQuietNs + dt, rfl⟩

/-- While time passes, regulators and the cap loop count, and only the clock and the ages named here move on. -/
theorem State.tick_cases (s : State) (dt : Nat) : ∃ r o lim slew held, s.tick dt =
    { s with regs := r, out := o, limQuietNs := lim, stageNs := s.stageNs + dt, resetNs := s.resetNs + dt, tsyncNs := s.tsyncNs + dt,
             latchNs := s.latchNs + dt, beatNs := s.beatNs + dt, slewLeft := slew, regHeldAt := held } := by
  obtain ⟨r₁, o₁, hwaits⟩ := onlyRegs_regWaits s dt
  obtain ⟨r₂, o₂, lim, hlimit⟩ := State.limitTime_cases (s.regWaits dt) dt
  unfold State.tick State.regHeldNow State.clocks
  rw [hlimit, hwaits]
  dsimp only
  split
  · exact ⟨_, o₂, lim, _, _, rfl⟩
  · exact ⟨r₂, o₂, lim, s.slewLeft, _, rfl⟩

@[simp] theorem State.tick_hbm (s : State) (dt : Nat) : (s.tick dt).hbm = s.hbm := by
  obtain ⟨r, o, lim, slew, held, htick⟩ := s.tick_cases dt
  rw [htick]

@[simp] theorem State.tick_tsyncGood (s : State) (dt : Nat) : (s.tick dt).tsyncGood = s.tsyncGood := by
  obtain ⟨r, o, lim, slew, held, htick⟩ := s.tick_cases dt
  rw [htick]

@[simp] theorem State.tick_tsyncNs (s : State) (dt : Nat) : (s.tick dt).tsyncNs = s.tsyncNs + dt := by
  obtain ⟨r, o, lim, slew, held, htick⟩ := s.tick_cases dt
  rw [htick]

theorem State.tick_enabled (s : State) (dt : Nat) {y : Nat} (hy : y < 64) : (s.tick dt).enabled y = s.enabled y := by
  apply State.enabled_congr
  apply State.tick_reg <;> simp only [pgGlobal, List.mem_cons, List.not_mem_nil, or_false] <;> omega

end Sys2Proof.Machine
end

section
/-! SUPPORT. The loss of oscillators (R44, R45, Table 2.5): what each pair's loads do when both of its oscillators are lost. -/
namespace Sys2Proof.Machine

/-! ### The host links -/

/-- A host port that goes leaves the link register of either port as it is. -/
theorem State.hostPortGone_linkReg (s : State) (b c : Bool) : (s.hostPortGone b).reg (pgHost c + 0x100) = s.reg (pgHost c + 0x100) := by
  have hc : pgHost c = 0x4000 ∨ pgHost c = 0x5000 := by cases c <;> simp [pgHost]
  have hb : pgHost b = 0x4000 ∨ pgHost b = 0x5000 := by cases b <;> simp [pgHost]
  have hm := pgMsix_ge b
  unfold State.hostPortGone
  extract_lets code s1 s2 s3
  have h1 : s1.reg (pgHost c + 0x100) = s.reg (pgHost c + 0x100) := by
    refine foldl_keeps_view (fun t => t.reg (pgHost c + 0x100)) _ _ _ fun t i hi => ?_
    have hi := List.mem_range.mp hi
    exact reg_ite _ (t.reg_setReg_ne 0 (by unfold pgGlobal; omega)) rfl
  have h2 : s2.reg (pgHost c + 0x100) = s1.reg (pgHost c + 0x100) := by
    have hkept : Tab.find? s2.regs (pgHost c + 0x100) = Tab.find? s1.regs (pgHost c + 0x100) := by
      refine Tab.find?_filter_kept _ _ fun v => ?_
      simp only [Bool.and_eq_true, Bool.not_eq_true', decide_eq_false_iff_not, beq_eq_false_iff_ne, Bool.and_eq_false_iff]
      omega
    rw [State.reg, State.reg, Tab.get, Tab.get, hkept]
  have h3 : s3.reg (pgHost c + 0x100) = s.reg (pgHost c + 0x100) := h2.trans h1
  exact reg_ite _ h3 h3

theorem OnlyRegs.oscOut {s t : State} (h : OnlyRegs s t) : t.oscOut = s.oscOut := by
  obtain ⟨r, o, rfl⟩ := h; rfl

theorem State.hostPortGone_oscOut (s : State) (b : Bool) : (s.hostPortGone b).oscOut = s.oscOut := by
  unfold State.hostPortGone
  extract_lets code s1 s2 s3
  have h1 : s1.oscOut = s.oscOut := foldl_keeps_view State.oscOut _ _ _ (fun t i _ => by split <;> rfl)
  split <;> exact h1

/-- The link of a host port that falls is down. -/
theorem State.hostLinkDown_linkUp_self (s : State) (b : Bool) : (s.hostLinkDown b).linkUp b = false := by
  unfold State.hostLinkDown State.linkUp
  split
  · rw [State.flag_congr (State.event_reg _ _ _ (by cases b <;> decide) (by cases b <;> decide) (by cases b <;> decide))]
    exact State.flag_setFld_zero _ _ _ (by decide) (by decide)
  next hdown =>
    rw [State.flag_congr (s.hostPortGone_linkReg b b)]
    exact Bool.eq_false_iff.mpr hdown

/-- The fall of one host link leaves the other's state. -/
theorem State.hostLinkDown_linkUp_other (s : State) {b c : Bool} (h : c ≠ b) : (s.hostLinkDown b).linkUp c = s.linkUp c := by
  unfold State.hostLinkDown
  split
  · apply State.flag_congr
    rw [State.event_reg, State.reg_setFld_ne, State.hostPortGone_linkReg] <;> revert h <;> cases b <;> cases c <;> decide
  · exact State.flag_congr (s.hostPortGone_linkReg b c) 63

theorem State.hostLinkDown_oscOut (s : State) (b : Bool) : (s.hostLinkDown b).oscOut = s.oscOut := by
  unfold State.hostLinkDown
  split
  · exact ((onlyRegs_setFld ..).trans (onlyRegs_event ..)).oscOut.trans (s.hostPortGone_oscOut b)
  · exact s.hostPortGone_oscOut b

/-- Both host oscillators lost: the pair counts as lost, and both links fall. -/
theorem State.loseBoth_host (s : State) :
    (s.loseBoth 0).oscOut.contains 0 = true ∧ (s.loseBoth 0).linkUp false = false ∧ (s.loseBoth 0).linkUp true = false := by
  have hboth : s.loseBoth 0 = (({ s with oscOut := s.oscOut ++ [0] } : State).hostLinkDown false).hostLinkDown true := by
    simp only [State.loseBoth, Nat.reduceDiv]
  rw [hboth]
  refine ⟨?_, ?_, State.hostLinkDown_linkUp_self _ true⟩
  · rw [State.hostLinkDown_oscOut, State.hostLinkDown_oscOut]
    simp
  · rw [State.hostLinkDown_linkUp_other _ (by decide)]
    exact State.hostLinkDown_linkUp_self _ false

/-! ### The memory halves and the Mastheads -/

/-- Both memory oscillators lost: HBM is undefined and both halves relock. -/
theorem State.loseBoth_memory (s : State) :
    (s.loseBoth 4).oscOut.contains 2 = true ∧ (s.loseBoth 4).relock = [0, 1] ∧ (s.loseBoth 4).hbm = Mem.undefinedBy (s.freeCtr + 1) := by
  have hboth : s.loseBoth 4 = { s with oscOut := s.oscOut ++ [2], freeCtr := s.freeCtr + 1, hbm := Mem.undefinedBy (s.freeCtr + 1),
                                       relock := [0, 1] } := by
    simp only [State.loseBoth, State.fresh, Nat.reduceDiv]
  rw [hboth]
  refine ⟨?_, rfl, rfl⟩
  simp

/-- A Masthead's role changes registers and sends messages, no more. -/
theorem onlyRegs_setRole (s : State) (m : Bool) (r : Nat) : OnlyRegs s (s.setRole m r) := by
  unfold State.setRole
  exact onlyRegs_ite _ ((onlyRegs_setFld ..).trans (onlyRegs_event ..)) (onlyRegs_setFld ..)

theorem State.setRole_stage (s : State) (m : Bool) (r : Nat) : (s.setRole m r).stage = s.stage := by
  apply State.fld_congr
  have hfield : (s.setFld (pgMast m + 0x100) 63 61 r).reg (pgBare + 0x100) = s.reg (pgBare + 0x100) :=
    State.reg_setFld_ne _ _ _ _ (by cases m <;> decide)
  unfold State.setRole
  refine reg_ite _ ((State.event_reg _ _ _ ?_ ?_ (by decide)).trans hfield) hfield <;> cases m <;> decide

theorem State.stage_pwrOk (s : State) (b : Bool) : ({ s with pwrOk := b } : State).stage = s.stage := rfl

theorem State.stage_bothLost (s : State) (b : Bool) (l : Option (Fin 2)) : ({ s with bothLost := b, latch := l } : State).stage = s.stage := rfl

theorem State.safeStop_stage (s : State) (code : Nat) : (s.safeStop code).stage = 8 := by
  unfold State.safeStop
  extract_lets s1 s2 s3
  exact (State.stage_pwrOk _ false).trans (State.setStage_stage _ 8 (by decide))

/-- Both Mastheads' oscillators lost: no Masthead holds the latch, and the device stops (R415). -/
theorem State.loseBoth_mastheads (s : State) :
    (s.loseBoth 6).latch = none ∧ (s.loseBoth 6).bothLost = true ∧ (s.loseBoth 6).stage = 8 := by
  have hboth : s.loseBoth 6 = s.losesBoth := by
    simp only [State.loseBoth, Nat.reduceDiv]
  rw [hboth]
  unfold State.losesBoth
  extract_lets s1
  have hstop : s1.stage = 8 := State.safeStop_stage _ _
  clear_value s1
  have hroles := (onlyRegs_setRole { s1 with bothLost := true, latch := none } false 0).trans (onlyRegs_setRole _ true 0)
  refine ⟨?_, ?_, ?_⟩
  · obtain ⟨r, o, hroles⟩ := hroles
    rw [hroles]
  · obtain ⟨r, o, hroles⟩ := hroles
    rw [hroles]
  · rw [State.setRole_stage, State.setRole_stage, State.stage_bothLost, hstop]

end Sys2Proof.Machine
end

section
/-! SUPPORT. The commands of oscillators and sensors: which case of REFCLK_LOST and REFCLK_RECOVERED holds when (R44..R46), the PHYs of a half
that relock, and the readings of the Yards (R48). -/
namespace Sys2Proof.Machine

/-! ### REFCLK_LOST and REFCLK_RECOVERED -/

section
variable {s : State} {i : Fin 8}

/-- With its partner present and neither borrowed, an oscillator's loads move to its partner. -/
theorem execRefclkLost_borrowed (hhere : s.flag (pgGlobal + 0x900) i.val = true) (hown : s.flag (pgGlobal + 0x900) (16 + i.val) = false)
    (hlent : s.flag (pgGlobal + 0x900) (16 + partner i.val) = false) (hother : s.flag (pgGlobal + 0x900) (partner i.val) = true) :
    execRefclkLost i s = .next (((((s.setFlag (pgGlobal + 0x900) i.val false).setFlag (pgGlobal + 0x900) (8 + i.val) true).setFlag
      (pgGlobal + 0x900) (16 + i.val) true).event pgGlobal 0).loseOne i.val) := by
  simp [execRefclkLost, hhere, hown, hlent, hother]

/-- With its partner's loads on it, both of the pair are lost. -/
theorem execRefclkLost_lending (hhere : s.flag (pgGlobal + 0x900) i.val = true)
    (hlent : s.flag (pgGlobal + 0x900) (16 + partner i.val) = true) :
    execRefclkLost i s = .next (((((s.setFlag (pgGlobal + 0x900) i.val false).setFlag (pgGlobal + 0x900) (8 + i.val) true).setFlag
      (pgGlobal + 0x900) (8 + partner i.val) true).event pgGlobal 0).loseBoth i.val) := by
  simp [execRefclkLost, hhere, hlent]

/-- With its own loads on its partner, nothing else is lost. -/
theorem execRefclkLost_idle (hhere : s.flag (pgGlobal + 0x900) i.val = true)
    (hlent : s.flag (pgGlobal + 0x900) (16 + partner i.val) = false) (hown : s.flag (pgGlobal + 0x900) (16 + i.val) = true) :
    execRefclkLost i s =
      .next (((s.setFlag (pgGlobal + 0x900) i.val false).setFlag (pgGlobal + 0x900) (8 + i.val) true).event pgGlobal 0) := by
  simp [execRefclkLost, hhere, hown, hlent]

/-- With its partner absent, both of the pair are lost. -/
theorem execRefclkLost_alone (hhere : s.flag (pgGlobal + 0x900) i.val = true) (hown : s.flag (pgGlobal + 0x900) (16 + i.val) = false)
    (hlent : s.flag (pgGlobal + 0x900) (16 + partner i.val) = false) (hother : s.flag (pgGlobal + 0x900) (partner i.val) = false) :
    execRefclkLost i s =
      .next ((((s.setFlag (pgGlobal + 0x900) i.val false).setFlag (pgGlobal + 0x900) (8 + i.val) true).event pgGlobal 0).loseBoth i.val) := by
  simp [execRefclkLost, hhere, hown, hlent, hother]

theorem execRefclkLost_absent (hhere : s.flag (pgGlobal + 0x900) i.val = false) : execRefclkLost i s = .next s := by
  simp [execRefclkLost, hhere]

/-- The return of an oscillator whose loads stay on its partner, or of the memory pair or the Mastheads, ends no loss. -/
theorem execRefclkRecovered_only_present (h : 4 ≤ i.val ∨ s.flag (pgGlobal + 0x900) (16 + i.val) = true) :
    execRefclkRecovered i s = .next (s.setFlag (pgGlobal + 0x900) i.val true) := by
  have hcond : ¬(i.val < 4 ∧ (!(s.flag (pgGlobal + 0x900) (16 + i.val))) = true) := by
    rintro ⟨hlow, hkept⟩
    rcases h with hhigh | hborrowed
    · omega
    · rw [hborrowed] at hkept; exact Bool.false_ne_true hkept
  rw [execRefclkRecovered, if_neg hcond]

/-- The return of an oscillator of the host or the link pair that kept its own loads ends their loss. -/
theorem execRefclkRecovered_ends_loss (hlow : i.val < 4) (hkept : s.flag (pgGlobal + 0x900) (16 + i.val) = false) :
    execRefclkRecovered i s =
      .next { s.setFlag (pgGlobal + 0x900) i.val true with oscOut := s.oscOut.filter fun k => !(k == i.val / 2) } := by
  rw [execRefclkRecovered, hkept, if_pos ⟨hlow, rfl⟩]
  rfl

end

/-! ### PHY_RELOCK_DONE -/

/-- PHY `h` of a half is ready again, where it is one that trained. -/
def State.relockPhy (east : Nat) (t : State) (h : Nat) : State :=
  if t.flag (pgPhy (16 * east + h) + 0x100) 63 then t.setFlag (pgPhy (16 * east + h) + 0x100) 62 true else t

theorem execPhyRelockDone_relocks {s : State} {east : Fin 2} (hwaits : s.relock.contains east.val = true) (hpair : s.oscOut.contains 2 = false) :
    execPhyRelockDone east s = .next ((List.range 16).foldl (State.relockPhy east.val)
      { s with relock := s.relock.filter fun k => !(k == east.val) }) := by
  rw [execPhyRelockDone, hwaits, hpair]
  rfl

/-- A write of one bit leaves that of another number in every register. -/
theorem State.flag_setFlag_other_bit (s : State) (a b : Nat) {i j : Nat} (x : Bool) (hi : i < 64) (h : j ≠ i) :
    (s.setFlag a i x).flag b j = s.flag b j := by
  by_cases hb : b = a
  · rw [hb, State.flag_setFlag_ne _ _ _ hi h]
  · exact State.flag_congr (s.reg_setFlag_ne _ _ hb) j

/-- Setting a bit clears it nowhere. -/
theorem State.flag_setFlag_true (s : State) (a b : Nat) {i : Nat} (hi : i < 64) (h : s.flag b i = true) :
    (s.setFlag a i true).flag b i = true := by
  by_cases hb : b = a
  · rw [hb, State.flag_setFlag_self _ _ _ _ hi]
  · rw [State.flag_congr (s.reg_setFlag_ne _ _ hb), h]

theorem State.relockPhy_trained (east : Nat) (t : State) (h a : Nat) : (t.relockPhy east h).flag a 63 = t.flag a 63 := by
  unfold State.relockPhy
  split
  · exact t.flag_setFlag_other_bit _ _ _ (by decide) (by decide)
  · rfl

theorem State.relockPhy_ready (east : Nat) (t : State) (h a : Nat) (hready : t.flag a 62 = true) : (t.relockPhy east h).flag a 62 = true := by
  unfold State.relockPhy
  split
  · exact t.flag_setFlag_true _ _ (by decide) hready
  · exact hready

theorem State.relockPhy_ready_self (east : Nat) (t : State) (h : Nat) (htrained : t.flag (pgPhy (16 * east + h) + 0x100) 63 = true) :
    (t.relockPhy east h).flag (pgPhy (16 * east + h) + 0x100) 62 = true := by
  rw [State.relockPhy, if_pos htrained]
  exact t.flag_setFlag_self _ _ _ (by decide)

theorem State.foldl_relockPhy_ready (east : Nat) (hs : List Nat) (t : State) (a : Nat) (hready : t.flag a 62 = true) :
    (hs.foldl (State.relockPhy east) t).flag a 62 = true := by
  induction hs generalizing t with
  | nil => exact hready
  | cons h hs ih => exact ih _ (t.relockPhy_ready east h a hready)

/-- Every PHY of the list that trained is ready at the end. -/
theorem State.foldl_relockPhy_ready_mem (east : Nat) (hs : List Nat) (t : State) {h : Nat} (hmem : h ∈ hs)
    (htrained : t.flag (pgPhy (16 * east + h) + 0x100) 63 = true) :
    (hs.foldl (State.relockPhy east) t).flag (pgPhy (16 * east + h) + 0x100) 62 = true := by
  induction hs generalizing t with
  | nil => cases hmem
  | cons k hs ih =>
    rw [List.foldl_cons]
    rcases List.mem_cons.mp hmem with rfl | hrest
    · exact State.foldl_relockPhy_ready east hs _ _ (t.relockPhy_ready_self east h htrained)
    · exact ih _ hrest ((t.relockPhy_trained east k _).trans htrained)

theorem onlyRegs_relockPhy (east : Nat) (t : State) (h : Nat) : OnlyRegs t (t.relockPhy east h) := by
  unfold State.relockPhy
  exact onlyRegs_ite _ (onlyRegs_setFlag ..) (.refl t)

theorem OnlyRegs.relock {s t : State} (h : OnlyRegs s t) : t.relock = s.relock := by
  obtain ⟨r, o, rfl⟩ := h; rfl

theorem execPhyRelockDone_answers {s : State} {east : Fin 2} (hwaits : s.relock.contains east.val = true) (hpair : s.oscOut.contains 2 = false) :
    Answers (execPhyRelockDone east s) fun t => t.relock.contains east.val = false ∧ t.hbm = s.hbm ∧
      ∀ h, h < 16 → s.flag (pgPhy (16 * east.val + h) + 0x100) 63 = true → t.flag (pgPhy (16 * east.val + h) + 0x100) 62 = true := by
  refine ⟨_, execPhyRelockDone_relocks hwaits hpair, ?_⟩
  have honly := onlyRegs_foldl _ (onlyRegs_relockPhy east.val) (List.range 16) { s with relock := s.relock.filter fun k => !(k == east.val) }
  refine ⟨?_, honly.hbm, fun h hh htrained => State.foldl_relockPhy_ready_mem _ _ _ (List.mem_range.mpr hh) htrained⟩
  rw [honly.relock]
  simp

/-! ### YD_SENSE_UPDATE -/

/-- The readings of one Yard reach its YD_SENSE and RATE (Tables 2.8, 2.10). -/
def State.senseYard (t : State) (x : YardSense) : State :=
  if t.enabled x.y.val then
    (t.setReg (pgYard x.y.val + 0x100) (fieldAt 32 x.tj.toNat + fieldAt 16 x.baseMv.toNat + x.muMv.toNat)).setFld
      (pgYard x.y.val + 0x110) 15 0 x.rate.toNat
  else t

/-- Whether the junction of one Yard is below 90 °C (R408). -/
def State.heatYard (t : State) (x : YardSense) : State :=
  if !(t.enabled x.y.val) then t else if toSigned 16 x.tj.toNat < 90 * 16 then t.coolDie x.y.val else t.warmDie x.y.val

theorem execYdSenseUpdate_eq (dt : Nat) (xs : List YardSense) (s : State) :
    execYdSenseUpdate dt xs s = .next (xs.foldl State.heatYard (xs.foldl State.senseYard (s.tick dt)).setSlow) := rfl

/-- The readings of a Yard go to its own page: every register but its two is as it was. -/
theorem State.senseYard_reg_ne (t : State) (x : YardSense) {a : Nat} (hsense : a ≠ pgYard x.y.val + 0x100) (hrate : a ≠ pgYard x.y.val + 0x110) :
    (t.senseYard x).reg a = t.reg a := by
  unfold State.senseYard
  exact reg_ite _ ((State.reg_setFld_ne _ _ _ _ hrate).trans (t.reg_setReg_ne _ hsense)) rfl

theorem State.senseYard_enabled (t : State) (x : YardSense) {y : Nat} (hy : y < 64) : (t.senseYard x).enabled y = t.enabled y := by
  have hglobal : pgGlobal + 0x400 + 8 * y < pgYard x.y.val := by unfold pgGlobal pgYard; omega
  exact State.enabled_congr (t.senseYard_reg_ne x (by omega) (by omega))

/-- YD_SENSE and RATE of the Yard of `x` show what `x` says. -/
def State.Shows (t : State) (x : YardSense) : Prop :=
  t.reg (pgYard x.y.val + 0x100) = x.tj.toNat * 2 ^ 32 + x.baseMv.toNat * 2 ^ 16 + x.muMv.toNat ∧
  t.fld (pgYard x.y.val + 0x110) 15 0 = x.rate.toNat

theorem State.shows_congr {t u : State} {x : YardSense} (hsense : u.reg (pgYard x.y.val + 0x100) = t.reg (pgYard x.y.val + 0x100))
    (hrate : u.reg (pgYard x.y.val + 0x110) = t.reg (pgYard x.y.val + 0x110)) : u.Shows x ↔ t.Shows x := by
  rw [State.Shows, State.Shows, hsense, State.fld_congr hrate]

theorem State.senseYard_shows (t : State) (x : YardSense) (hon : t.enabled x.y.val = true) : (t.senseYard x).Shows x := by
  have htj := x.tj.isLt
  have hbase := x.baseMv.isLt
  have hmu := x.muMv.isLt
  rw [State.senseYard, if_pos hon]
  constructor
  · rw [State.reg_setFld_ne _ _ _ _ (by omega), State.reg_setReg_self, fieldAt, fieldAt, Nat.mod_eq_of_lt (by omega)]
  · rw [State.fld_setFld_self _ _ _ _ _ (by decide) (by decide), Nat.mod_eq_of_lt x.rate.isLt]

/-- The readings of other Yards leave those of Yard `x.y`. -/
theorem State.senseYard_shows_ne (t : State) {x z : YardSense} (hne : z.y ≠ x.y) : (t.senseYard z).Shows x ↔ t.Shows x := by
  have hval : z.y.val ≠ x.y.val := fun h => hne (Fin.ext h)
  apply State.shows_congr <;> apply State.senseYard_reg_ne <;> unfold pgYard <;> omega

theorem State.foldl_senseYard_shows_notMem (xs : List YardSense) (t : State) {x : YardSense} (hx : x.y ∉ xs.map (·.y)) :
    (xs.foldl State.senseYard t).Shows x ↔ t.Shows x := by
  induction xs generalizing t with
  | nil => rfl
  | cons z xs ih =>
    rw [List.map_cons, List.mem_cons, not_or] at hx
    obtain ⟨hhead, hrest⟩ := hx
    rw [List.foldl_cons, ih _ hrest, t.senseYard_shows_ne (Ne.symm hhead)]

/-- Where each Yard is named once, every enabled Yard named shows its readings. -/
theorem State.foldl_senseYard_shows (xs : List YardSense) (t : State) (hnodup : (xs.map (·.y)).Nodup) {x : YardSense} (hx : x ∈ xs)
    (hon : t.enabled x.y.val = true) : (xs.foldl State.senseYard t).Shows x := by
  induction xs generalizing t with
  | nil => cases hx
  | cons z xs ih =>
    rw [List.map_cons, List.nodup_cons] at hnodup
    obtain ⟨hhead, hrest⟩ := hnodup
    rw [List.foldl_cons]
    rcases List.mem_cons.mp hx with rfl | hmem
    · exact (State.foldl_senseYard_shows_notMem xs _ hhead).mpr (t.senseYard_shows x hon)
    · exact ih _ hrest hmem ((t.senseYard_enabled z x.y.isLt).trans hon)

theorem onlyRegs_senseYard (t : State) (x : YardSense) : OnlyRegs t (t.senseYard x) := by
  unfold State.senseYard
  exact onlyRegs_ite _ ((onlyRegs_setReg ..).trans (onlyRegs_setFld ..)) (.refl t)

/-- A junction's heat touches neither registers nor HBM. -/
theorem State.heatYard_frame (t : State) (x : YardSense) : (t.heatYard x).regs = t.regs ∧ (t.heatYard x).hbm = t.hbm := by
  unfold State.heatYard
  split
  · exact ⟨rfl, rfl⟩
  · split <;> exact ⟨rfl, rfl⟩

theorem State.foldl_heatYard_reg (xs : List YardSense) (t : State) (a : Nat) : (xs.foldl State.heatYard t).reg a = t.reg a := by
  have hregs := foldl_keeps_view State.regs State.heatYard xs t fun u x _ => (u.heatYard_frame x).1
  rw [State.reg, State.reg, hregs]

theorem State.foldl_heatYard_hbm (xs : List YardSense) (t : State) : (xs.foldl State.heatYard t).hbm = t.hbm :=
  foldl_keeps_view State.hbm _ _ _ fun u x _ => (u.heatYard_frame x).2

/-- The slowest Yard is found from the Yard map and the Yards' RATE, not from DEV_SLOW. -/
theorem slowest_congr {s t : State} (h : ∀ a, a ≠ pgGlobal + 0x908 → t.reg a = s.reg a) : slowest t = slowest s := by
  unfold slowest
  refine foldl_congr_mem fun best y hy => ?_
  have hy := List.mem_range.mp hy
  rw [State.fld_congr (h _ (by unfold pgGlobal pgYard; omega)), State.enabled_congr (h _ (by omega))]

theorem State.setSlow_reg_ne (s : State) {a : Nat} (h : a ≠ pgGlobal + 0x908) : s.setSlow.reg a = s.reg a := s.reg_setReg_ne _ h

/-- DEV_SLOW is a function of the slowest Yard. -/
theorem State.setSlow_devSlow_congr {s t : State} (h : slowest t = slowest s) :
    t.setSlow.reg (pgGlobal + 0x908) = s.setSlow.reg (pgGlobal + 0x908) := by
  rw [State.setSlow, State.setSlow, State.reg_setReg_self, State.reg_setReg_self, h]

theorem execYdSenseUpdate_answers (s : State) (dt : Nat) (xs : List YardSense) (hnodup : (xs.map (·.y)).Nodup) :
    Answers (execYdSenseUpdate dt xs s) fun t => t.hbm = s.hbm ∧ t.reg (pgGlobal + 0x908) = t.setSlow.reg (pgGlobal + 0x908) ∧
      ∀ x ∈ xs, s.enabled x.y.val = true → t.Shows x := by
  refine ⟨_, execYdSenseUpdate_eq dt xs s, ?_, ?_, fun x hx hon => ?_⟩
  · rw [State.foldl_heatYard_hbm, State.setSlow, State.setReg_hbm, (onlyRegs_foldl _ onlyRegs_senseYard xs _).hbm, State.tick_hbm]
  · generalize xs.foldl State.senseYard (s.tick dt) = u
    have hslowest : slowest (xs.foldl State.heatYard u.setSlow) = slowest u :=
      slowest_congr fun a ha => (State.foldl_heatYard_reg xs _ a).trans (u.setSlow_reg_ne ha)
    rw [State.setSlow_devSlow_congr hslowest, State.foldl_heatYard_reg]
  · have hyard : pgGlobal + 0x908 < pgYard x.y.val := by unfold pgGlobal pgYard; omega
    have hshown := State.foldl_senseYard_shows xs (s.tick dt) hnodup hx ((s.tick_enabled dt x.y.isLt).trans hon)
    refine (State.shows_congr ?_ ?_).mpr hshown <;> exact (State.foldl_heatYard_reg xs _ _).trans (State.setSlow_reg_ne _ (by omega))

end Sys2Proof.Machine
end

section
/-! SUPPORT. TSYNC (R432): an edge that finds the device armed, one within 50 ns, two milliseconds without one, the pulse, and the arming. -/
namespace Sys2Proof.Machine

/-- The error of GLB_TIME at an edge, as it reads at the edge. -/
def State.edgeErr (u : State) : Int := tsyncErr u.now (u.fld (pgBare + 0x180) 47 32)

/-- An edge is seen, and its error stored in BR_TSYNC_STATUS (Table 18.7). -/
def State.measureEdge (u : State) : State := ({ u with tsyncNs := 0 } : State).setFld (pgBare + 0x198) 31 0 (ofSigned 32 u.edgeErr)

theorem State.measureEdge_reg_ne (u : State) {a : Nat} (h : a ≠ pgBare + 0x198) : u.measureEdge.reg a = u.reg a :=
  State.reg_setFld_ne { u with tsyncNs := 0 } _ _ _ h

theorem State.measureEdge_err (u : State) : u.measureEdge.fld (pgBare + 0x198) 31 0 = ofSigned 32 u.edgeErr := by
  rw [State.measureEdge, State.fld_setFld_self _ _ _ _ _ (by decide) (by decide)]
  unfold ofSigned
  omega

theorem State.measureEdge_tsyncNs (u : State) : u.measureEdge.tsyncNs = 0 := State.setFld_tsyncNs ..

theorem State.reg_tsync (s : State) (g : Nat) (e : Int) (a : Nat) : ({ s with tsyncGood := g, slewLeft := e } : State).reg a = s.reg a := rfl

theorem State.tsyncNs_tsync (s : State) (g : Nat) (e : Int) : ({ s with tsyncGood := g, slewLeft := e } : State).tsyncNs = s.tsyncNs := rfl

section
variable {s : State} {dt : Nat}

theorem execTsyncEdge_eq_of_armed (hmode : (s.tick dt).tsyncMode = 2) (harmed : (s.tick dt).flag (pgBare + 0x198) 62 = true) :
    execTsyncEdge dt s = .next { (((s.tick dt).measureEdge.setReg (pgGlobal + 0x108)
        (((s.tick dt).measureEdge.reg (pgBare + 0x188) + (s.tick dt).fld (pgBare + 0x180) 47 32) % 2 ^ 64)).setFlag
        (pgBare + 0x198) 62 false).setFlag (pgBare + 0x198) 63 false with tsyncGood := 0, slewLeft := 0 } := by
  unfold execTsyncEdge
  exact (if_neg (Decidable.not_not.mpr hmode)).trans (if_pos harmed)

theorem execTsyncEdge_eq_of_close (hmode : (s.tick dt).tsyncMode = 2) (hunarmed : (s.tick dt).flag (pgBare + 0x198) 62 = false)
    (hle : (s.tick dt).edgeErr ≤ 50) (hge : -50 ≤ (s.tick dt).edgeErr) :
    execTsyncEdge dt s = .next { (s.tick dt).measureEdge.setFlag (pgBare + 0x198) 63 (min 8 (s.tsyncGood + 1) == 8) with
      tsyncGood := min 8 (s.tsyncGood + 1), slewLeft := -(s.tick dt).edgeErr } := by
  have hnear : ¬(100000 < (s.tick dt).edgeErr ∨ (s.tick dt).edgeErr < -100000) := by omega
  have hcount : (if -50 ≤ (s.tick dt).edgeErr ∧ (s.tick dt).edgeErr ≤ 50 then min 8 ((s.tick dt).tsyncGood + 1) else 0) =
      min 8 (s.tsyncGood + 1) := by
    rw [if_pos ⟨hge, hle⟩, State.tick_tsyncGood]
  unfold execTsyncEdge
  refine (if_neg (Decidable.not_not.mpr hmode)).trans ((if_neg (Bool.eq_false_iff.mp hunarmed)).trans ((if_neg hnear).trans ?_))
  rw [← hcount]
  rfl

/-- An edge that finds the device armed sets GLB_TIME to the epoch plus the delay, and disarms. -/
theorem execTsyncEdge_armed (hmode : (s.tick dt).tsyncMode = 2) (harmed : (s.tick dt).flag (pgBare + 0x198) 62 = true) :
    Answers (execTsyncEdge dt s) fun t =>
      t.now = ((s.tick dt).reg (pgBare + 0x188) + (s.tick dt).fld (pgBare + 0x180) 47 32) % 2 ^ 64 ∧ t.flag (pgBare + 0x198) 62 = false ∧
      t.flag (pgBare + 0x198) 63 = false ∧ t.tsyncNs = 0 := by
  refine ⟨_, execTsyncEdge_eq_of_armed hmode harmed, ?_, ?_, ?_, ?_⟩
  · rw [State.now, State.reg_tsync, State.reg_setFlag_ne _ _ _ (by decide), State.reg_setFlag_ne _ _ _ (by decide), State.reg_setReg_self,
      State.measureEdge_reg_ne _ (by decide), Nat.mod_mod]
  · rw [State.flag_congr (State.reg_tsync ..), State.flag_setFlag_ne _ _ _ (by decide) (by decide), State.flag_setFlag_self _ _ _ _ (by decide)]
  · rw [State.flag_congr (State.reg_tsync ..), State.flag_setFlag_self _ _ _ _ (by decide)]
  · rw [State.tsyncNs_tsync, State.setFlag_tsyncNs, State.setFlag_tsyncNs, State.setReg_tsyncNs, State.measureEdge_tsyncNs]

/-- An edge within 50 ns of a multiple of a million counts, and the eighth in a row sets LOCKED. -/
theorem execTsyncEdge_close (hmode : (s.tick dt).tsyncMode = 2) (hunarmed : (s.tick dt).flag (pgBare + 0x198) 62 = false)
    (hle : (s.tick dt).edgeErr ≤ 50) (hge : -50 ≤ (s.tick dt).edgeErr) :
    Answers (execTsyncEdge dt s) fun t => t.fld (pgBare + 0x198) 31 0 = ofSigned 32 (s.tick dt).edgeErr ∧
      t.tsyncGood = min 8 (s.tsyncGood + 1) ∧ t.flag (pgBare + 0x198) 63 = decide (7 ≤ s.tsyncGood) ∧
      t.slewLeft = -(s.tick dt).edgeErr ∧ t.tsyncNs = 0 := by
  have heighth : (min 8 (s.tsyncGood + 1) == 8) = decide (7 ≤ s.tsyncGood) := by
    rw [Bool.eq_iff_iff, beq_iff_eq, decide_eq_true_iff]
    omega
  refine ⟨_, execTsyncEdge_eq_of_close hmode hunarmed hle hge, ?_, rfl, ?_, rfl, ?_⟩
  · rw [State.fld_congr (State.reg_tsync ..), State.setFlag, State.fld_setFld_below _ _ _ _ _ _ _ (by decide) (by decide) (by decide) (by decide),
      State.measureEdge_err]
  · rw [State.flag_congr (State.reg_tsync ..), State.flag_setFlag_self _ _ _ _ (by decide), heighth]
  · rw [State.tsyncNs_tsync, State.setFlag_tsyncNs, State.measureEdge_tsyncNs]

theorem OnlyRegs.tsyncNs {s t : State} (h : OnlyRegs s t) : t.tsyncNs = s.tsyncNs := by
  obtain ⟨r, o, rfl⟩ := h; rfl

/-- Two milliseconds without an edge clear LOCKED and raise TSYNC_LOST. -/
theorem execTsyncTimeout_lost (hmode : (s.tick dt).tsyncMode = 2) (hlong : 2000000 ≤ s.tsyncNs + dt) :
    Answers (execTsyncTimeout dt s) fun t => t.flag (pgBare + 0x198) 63 = false ∧ t.flag (pgBare + 0x18) 3 = true ∧ t.tsyncNs = 0 := by
  have hdue : ¬((s.tick dt).tsyncMode ≠ 2 ∨ (s.tick dt).tsyncNs < 2000000) := by
    rw [State.tick_tsyncNs]
    omega
  rw [execTsyncTimeout, if_neg hdue]
  refine ⟨_, rfl, ?_, State.event_flag _ _ _ (by decide) (by decide), ?_⟩
  · rw [State.flag_congr (State.event_reg _ _ _ (by decide) (by decide) (by decide))]
    exact State.flag_setFlag_self (s.tick dt) _ _ _ (by decide)
  · exact (onlyRegs_event ..).tsyncNs

theorem execTsyncPulse_due (hmode : (s.tick dt).tsyncMode = 1 ∨ (s.tick dt).tsyncMode = 2)
    (hpassed : s.now / 1000000 < (s.tick dt).now / 1000000) : execTsyncPulse dt s = .next ((s.tick dt).emit .pulse) := by
  rw [execTsyncPulse, if_pos ⟨hmode, hpassed⟩]

theorem execArm_arms {acc : Acc} {w : W64} (hopen : s.Open acc (pgBare + 0x190)) (hacts : acts w.toNat 0 = true) :
    execArm acc w s = .next (s.setFlag (pgBare + 0x198) 62 true) := by
  rw [execArm, State.hostWrite_of_open hopen, if_pos hacts]

end

end Sys2Proof.Machine

namespace Sys2Proof
open Machine

/-- Settles O8: each clause is one case of a command of Machine/Startup.lean, or what the loss of a pair does. -/
theorem oscillatorsSensorsTime : Obligations.OscillatorsSensorsTime := by
  unfold Obligations.OscillatorsSensorsTime
  refine ⟨fun s i => ⟨execRefclkLost_borrowed, execRefclkLost_lending, execRefclkLost_idle, execRefclkLost_alone, execRefclkLost_absent,
      execRefclkRecovered_only_present, execRefclkRecovered_ends_loss⟩,
    ?pairs, fun _ _ => execPhyRelockDone_answers, execYdSenseUpdate_answers, fun _ _ => execTsyncEdge_armed, fun _ _ => execTsyncEdge_close,
    fun _ _ => execTsyncTimeout_lost, fun _ _ => execTsyncPulse_due, fun _ _ _ => execArm_arms⟩
  case pairs =>
    intro s
    obtain ⟨hmemory, hrelock, hhbm⟩ := s.loseBoth_memory
    obtain ⟨hhost, hlinkA, hlinkB⟩ := s.loseBoth_host
    exact ⟨hmemory, hrelock, hhbm, hhost, hlinkA, hlinkB, s.loseBoth_mastheads⟩

end Sys2Proof
end

section
/-! SUPPORT. Control tokens at a firing unit (R89..R91): what taking one, and sending what the unit has to send, leave of the unit and of the rest. -/
namespace Sys2Proof.Machine

/-- A command of the running device acts at once. -/
theorem State.whenLive_of_live {s : State} (h : s.live = true) (f : State → State) : s.whenLive f = f s := by
  rw [State.whenLive, if_pos h]

/-! ### Units and slots -/

@[simp] theorem State.unit_setUnit_self (s : State) (y u : Nat) (x : UnitState) : (s.setUnit y u x).unit y u = x := Tab.get_set_self ..

@[simp] theorem UnitState.slot_setSlot_self (x : UnitState) (k : Nat) (v : Slot) : (x.setSlot k v).slot k = v := Tab.get_set_self ..

/-! ### A control token is taken -/

/-- Progress is noted in the stall monitor alone. -/
theorem State.progressY_cases (s : State) (y : Nat) : ∃ m, s.progressY y = { s with moved := m } := by
  unfold State.progressY
  split
  · exact ⟨_, rfl⟩
  · exact ⟨s.moved, rfl⟩

/-- A control token that is taken leaves its place at the unit's port; only that switch and the stall monitor differ. -/
theorem State.takeUnitCtrl_cases (s : State) (y u : Nat) : ∃ m, s.takeUnitCtrl y u = { s.takeOffer y (8 + u) 9 with moved := m } :=
  State.progressY_cases _ y

@[simp] theorem State.takeUnitCtrl_unit (s : State) (y u a b : Nat) : (s.takeUnitCtrl y u).unit a b = s.unit a b := by
  obtain ⟨m, h⟩ := s.takeUnitCtrl_cases y u
  rw [h]
  rfl

@[simp] theorem State.takeUnitCtrl_regs (s : State) (y u : Nat) : (s.takeUnitCtrl y u).regs = s.regs := by
  obtain ⟨m, h⟩ := s.takeUnitCtrl_cases y u
  rw [h]
  rfl

@[simp] theorem State.takeUnitCtrl_hbm (s : State) (y u : Nat) : (s.takeUnitCtrl y u).hbm = s.hbm := by
  obtain ⟨m, h⟩ := s.takeUnitCtrl_cases y u
  rw [h]
  rfl

theorem State.takeOffer_offer (s : State) (y p l : Nat) : (s.takeOffer y p l).offer y p l = none := by
  rw [State.takeOffer, State.offer, State.switch, State.setSwitch, Tab.get_set_self, Tab.find?_del, if_pos rfl]

theorem State.takeUnitCtrl_offer (s : State) (y u : Nat) : (s.takeUnitCtrl y u).offer y (8 + u) 9 = none := by
  obtain ⟨m, h⟩ := s.takeUnitCtrl_cases y u
  rw [h]
  exact s.takeOffer_offer y (8 + u) 9

/-! ### What a unit sends -/

/-- Sending changes switches and units alone, and of unit `u` of Yard `y` its outbox and the ring of a DELAY. -/
structure Pumped (s t : State) (y u : Nat) : Prop where
  state : ∃ w us, t = { s with switches := w, units := us }
  unit : ∃ o r, t.unit y u = { s.unit y u with outbox := o, ring := r }

namespace Pumped

variable {s t v : State} {y u : Nat}

theorem refl (s : State) (y u : Nat) : Pumped s s y u := ⟨⟨_, _, rfl⟩, ⟨_, _, rfl⟩⟩

theorem trans (h : Pumped s t y u) (k : Pumped t v y u) : Pumped s v y u := by
  obtain ⟨⟨w, us, rfl⟩, o, r, hunit⟩ := h
  obtain ⟨⟨w', us', rfl⟩, o', r', hunit'⟩ := k
  exact ⟨⟨w', us', rfl⟩, o', r', by rw [hunit', hunit]⟩

theorem regs (h : Pumped s t y u) : t.regs = s.regs := by
  obtain ⟨⟨w, us, rfl⟩, -⟩ := h
  rfl

theorem hbm (h : Pumped s t y u) : t.hbm = s.hbm := by
  obtain ⟨⟨w, us, rfl⟩, -⟩ := h
  rfl

theorem slot (h : Pumped s t y u) (k : Nat) : (t.unit y u).slot k = (s.unit y u).slot k := by
  obtain ⟨-, o, r, hunit⟩ := h
  rw [hunit]
  rfl

theorem active (h : Pumped s t y u) : (t.unit y u).active = (s.unit y u).active := by
  obtain ⟨-, o, r, hunit⟩ := h
  rw [hunit]

theorem pend (h : Pumped s t y u) : (t.unit y u).pend = (s.unit y u).pend := by
  obtain ⟨-, o, r, hunit⟩ := h
  rw [hunit]

theorem reef (h : Pumped s t y u) : (t.unit y u).reef = (s.unit y u).reef := by
  obtain ⟨-, o, r, hunit⟩ := h
  rw [hunit]

theorem endWait (h : Pumped s t y u) : (t.unit y u).endWait = (s.unit y u).endWait := by
  obtain ⟨-, o, r, hunit⟩ := h
  rw [hunit]

theorem leaving (h : Pumped s t y u) : (t.unit y u).leaving = (s.unit y u).leaving := by
  obtain ⟨-, o, r, hunit⟩ := h
  rw [hunit]

end Pumped

theorem pumped_ite {s t v : State} {y u : Nat} (c : Prop) [Decidable c] (h : Pumped s t y u) (k : Pumped s v y u) :
    Pumped s (if c then t else v) y u := by
  split
  · exact h
  · exact k

/-- The unit replaced by one that differs in its outbox and ring. -/
theorem pumped_setUnit {s : State} {y u : Nat} {x : UnitState} (h : ∃ o r, x = { s.unit y u with outbox := o, ring := r }) :
    Pumped s (s.setUnit y u x) y u := ⟨⟨_, _, rfl⟩, by rwa [State.unit_setUnit_self]⟩

/-- Tokens that enter the input queues of a switch change the switches alone. -/
theorem State.pumpUnit_pumped (s : State) (y u : Nat) : Pumped s (s.pumpUnit y u) y u := by
  unfold State.pumpUnit
  extract_lets go r
  have hswitches : ∃ w, r.1 = { s with switches := w } := by
    refine List.foldlRecOn (motive := fun a => ∃ w, a.1 = { s with switches := w }) _ go ?none ?one
    case none => exact ⟨s.switches, rfl⟩
    case one =>
      rintro a ⟨w, ha⟩ o -
      dsimp only [go]
      split
      · exact ⟨w, ha⟩
      · exact ⟨_, by rw [ha]; rfl⟩
  obtain ⟨w, hr⟩ := hswitches
  have hqueued : Pumped s r.1 y u := ⟨⟨w, s.units, hr⟩, _, _, by rw [hr]; rfl⟩
  exact hqueued.trans (pumped_setUnit ⟨_, _, rfl⟩)

/-- A DELAY that does not wait to leave only drops what it has sent from its ring. -/
theorem UnitState.ringOut_cases {x : UnitState} (h : x.leaving = false) : ∃ r, x.ringOut = { x with ring := r } := by
  unfold UnitState.ringOut
  split
  next it rest hring =>
    split
    · dsimp only
      rw [if_neg (by simp [h])]
      exact ⟨rest, rfl⟩
    · exact ⟨x.ring, rfl⟩
  next => exact ⟨x.ring, rfl⟩

/-- A unit without an active slot is no DELAY. -/
theorem UnitState.isDelay_of_idle {x : UnitState} (h : x.active = none) (u : Nat) : x.isDelay u = false := by
  simp [UnitState.isDelay, UnitState.activeRec, h]

/-- A unit that does not wait to leave, or has no active slot, keeps its slots and what is active while it sends. -/
theorem State.pumpOut_pumped {s : State} {y u : Nat} (h : (s.unit y u).leaving = false ∨ (s.unit y u).active = none) :
    Pumped s (s.pumpOut y u) y u := by
  have hsent := s.pumpUnit_pumped y u
  unfold State.pumpOut
  extract_lets x t v
  refine pumped_ite _ (.refl s y u) ?_
  rcases h with hstays | hidle
  · obtain ⟨r, hv⟩ := UnitState.ringOut_cases (hsent.leaving.trans hstays)
    exact pumped_ite _ (pumped_ite _ hsent ((hsent.trans (pumped_setUnit ⟨_, r, hv⟩)).trans (State.pumpUnit_pumped _ y u))) hsent
  · rw [if_neg (Bool.eq_false_iff.mp (UnitState.isDelay_of_idle hidle u))]
    exact hsent

/-- What a unit sends after it took a control token and changed to `x`. -/
theorem State.takeUnitCtrl_pumpOut_pumped (s : State) (y u : Nat) {x : UnitState} (h : x.leaving = false ∨ x.active = none) :
    Pumped ((s.takeUnitCtrl y u).setUnit y u x) (((s.takeUnitCtrl y u).setUnit y u x).pumpOut y u) y u :=
  State.pumpOut_pumped (by rwa [State.unit_setUnit_self])

end Sys2Proof.Machine
end

section
/-! SUPPORT. Streamed records (R89, R90): REEF_OPEN, REEF_DATA and REEF_CLOSE of a token offered to unit `u` of Yard `y`. -/
namespace Sys2Proof.Machine

section
variable {s : State} {y : Yard} {u : UnitId} (hlive : s.live = true)
include hlive

theorem execReefOpen_none (h : s.ctrlOffer y.val u.val 0x10 = none) : execReefOpen y u s = .next s := by
  rw [execReefOpen, State.whenLive_of_live hlive, State.reefOpened, h]

theorem execReefData_none (h : s.ctrlOffer y.val u.val 0x11 = none) : execReefData y u s = .next s := by
  rw [execReefData, State.whenLive_of_live hlive, h]

theorem execReefClose_none (h : s.ctrlOffer y.val u.val 0x12 = none) : execReefClose y u s = .next s := by
  rw [execReefClose, State.whenLive_of_live hlive, State.reefClosed, h]

variable {t : Token}

section
variable (hoffer : s.ctrlOffer y.val u.val 0x10 = some t) (hclosed : (s.unit y.val u.val).reef = none)
  (howned : ((s.unit y.val u.val).slot (t.operand % 8)).ownedBy t.job = true)
include hoffer hclosed howned

/-- A REEF_OPEN for a slot in use stays offered. -/
theorem execReefOpen_busy (hbusy : ((s.unit y.val u.val).slot (t.operand % 8)).live = true ∨ (s.unit y.val u.val).active = some (t.operand % 8)) :
    execReefOpen y u s = .next s := by
  rw [execReefOpen, State.whenLive_of_live hlive, State.reefOpened, hoffer]
  dsimp only
  rw [if_neg (by simp [hclosed]), if_neg (by simp [howned]), if_pos (by simpa using hbusy)]

/-- A REEF_OPEN for a slot that is not in use empties it and opens it. -/
theorem execReefOpen_opens (hlivek : ((s.unit y.val u.val).slot (t.operand % 8)).live = false)
    (hidle : (s.unit y.val u.val).active ≠ some (t.operand % 8)) :
    execReefOpen y u s = .next ((s.takeUnitCtrl y.val u.val).setUnit y.val u.val
      { (s.unit y.val u.val).setSlot (t.operand % 8) { (s.unit y.val u.val).slot (t.operand % 8) with record := none } with
        reef := some ⟨t.operand % 8, t.job, bits t.operand 31 16, [], false⟩ }) := by
  rw [execReefOpen, State.whenLive_of_live hlive, State.reefOpened, hoffer]
  dsimp only
  rw [if_neg (by simp [hclosed]), if_neg (by simp [howned]), if_neg (by simp [hlivek, hidle])]

end

theorem execReefData_appends {f : ReefIn} (hoffer : s.ctrlOffer y.val u.val 0x11 = some t) (hopen : (s.unit y.val u.val).reef = some f)
    (hleft : 0 < f.left) :
    execReefData y u s = .next ((s.takeUnitCtrl y.val u.val).setUnit y.val u.val
      { s.unit y.val u.val with reef := some { f with left := f.left - 1, bytes := f.bytes ++ leBytes 6 t.operand } }) := by
  rw [execReefData, State.whenLive_of_live hlive, hoffer]
  dsimp only
  rw [hopen]
  dsimp only
  rw [if_neg (Nat.ne_of_gt hleft)]

section
variable {f : ReefIn} (hoffer : s.ctrlOffer y.val u.val 0x12 = some t) (hopen : (s.unit y.val u.val).reef = some f)
include hoffer hopen

theorem execReefClose_discards (hdiscard : f.discard = true) :
    execReefClose y u s = .next ((s.takeUnitCtrl y.val u.val).setUnit y.val u.val { s.unit y.val u.val with reef := none }) := by
  rw [execReefClose, State.whenLive_of_live hlive, State.reefClosed, hoffer]
  dsimp only
  rw [hopen]
  dsimp only
  rw [if_pos hdiscard]

variable (hkept : f.discard = false)
include hkept

/-- A whole record with the right CRC goes into its slot, and the unit sends what it has to send. -/
theorem execReefClose_stores (hleft : f.left = 0) (hwaits : (s.unit y.val u.val).activating = none)
    (hcrc : crc32c (f.bytes.take (16 + (parseCfg f.bytes).bodyLen)) = t.operand % 2 ^ 32) :
    execReefClose y u s = .next (((s.takeUnitCtrl y.val u.val).setUnit y.val u.val
      (({ s.unit y.val u.val with reef := none } : UnitState).setSlot f.slot
        { (s.unit y.val u.val).slot f.slot with record := some (parseCfg f.bytes) })).pumpOut y.val u.val) := by
  rw [execReefClose, State.whenLive_of_live hlive, State.reefClosed, hoffer]
  dsimp only
  rw [hopen]
  dsimp only
  rw [if_neg (by simp [hkept]), if_pos ⟨hcrc, hleft⟩, if_neg (by simp [UnitState.setSlot, hwaits])]
  rfl

theorem execReefClose_badCrc (hcrc : crc32c (f.bytes.take (16 + (parseCfg f.bytes).bodyLen)) ≠ t.operand % 2 ^ 32) :
    execReefClose y u s = .next (((s.takeUnitCtrl y.val u.val).setUnit y.val u.val { s.unit y.val u.val with reef := none }).ctrlError
      y.val u.val 7 t.hdr.toNat) := by
  rw [execReefClose, State.whenLive_of_live hlive, State.reefClosed, hoffer]
  dsimp only
  rw [hopen]
  dsimp only
  rw [if_neg (by simp [hkept]), if_neg fun hwhole => hcrc hwhole.1]

/-- What the slot and the rest show after a record has gone in. -/
theorem execReefClose_record (hleft : f.left = 0) (hwaits : (s.unit y.val u.val).activating = none) (hstays : (s.unit y.val u.val).leaving = false)
    (hcrc : crc32c (f.bytes.take (16 + (parseCfg f.bytes).bodyLen)) = t.operand % 2 ^ 32) :
    Answers (execReefClose y u s) fun z =>
      (z.unit y.val u.val).slot f.slot = { (s.unit y.val u.val).slot f.slot with record := some (parseCfg f.bytes) } ∧
      (z.unit y.val u.val).reef = none ∧ z.regs = s.regs ∧ z.hbm = s.hbm := by
  refine ⟨_, execReefClose_stores hlive hoffer hopen hkept hleft hwaits hcrc, ?_⟩
  have hpumped := s.takeUnitCtrl_pumpOut_pumped y.val u.val (x := ({ s.unit y.val u.val with reef := none } : UnitState).setSlot f.slot
    { (s.unit y.val u.val).slot f.slot with record := some (parseCfg f.bytes) }) (.inl hstays)
  refine ⟨?_, ?_, ?_, ?_⟩
  · rw [hpumped.slot, State.unit_setUnit_self, UnitState.slot_setSlot_self]
  · rw [hpumped.reef, State.unit_setUnit_self]
    rfl
  · rw [hpumped.regs, State.setUnit_regs, State.takeUnitCtrl_regs]
  · rw [hpumped.hbm, State.setUnit_hbm, State.takeUnitCtrl_hbm]

end

end

end Sys2Proof.Machine

namespace Sys2Proof
open Machine

/-- Settles O13: each clause is one outcome of the three tokens of a streamed record. -/
theorem streamedRecords : Obligations.StreamedRecords := by
  unfold Obligations.StreamedRecords
  intro s y u hlive
  refine ⟨execReefOpen_none hlive, execReefData_none hlive, execReefClose_none hlive, ?opens, ?data, ?discards, ?closes⟩
  case opens =>
    intro t hoffer hclosed k v howned
    refine ⟨execReefOpen_busy hlive hoffer hclosed howned, fun hdead hidle => ⟨_, execReefOpen_opens hlive hoffer hclosed howned hdead hidle, ?_⟩⟩
    exact ⟨State.unit_setUnit_self .., s.takeUnitCtrl_offer y.val u.val, s.takeUnitCtrl_regs .., s.takeUnitCtrl_hbm ..⟩
  case data =>
    intro t f hoffer hopen hleft
    exact ⟨_, execReefData_appends hlive hoffer hopen hleft, State.unit_setUnit_self .., s.takeUnitCtrl_regs ..⟩
  case discards =>
    intro t f hoffer hopen hdiscard
    exact ⟨_, execReefClose_discards hlive hoffer hopen hdiscard, State.unit_setUnit_self .., s.takeUnitCtrl_regs ..⟩
  case closes =>
    intro t f hoffer hopen hkept hleft hwaits hstays
    exact ⟨execReefClose_record hlive hoffer hopen hkept hleft hwaits hstays, execReefClose_badCrc hlive hoffer hopen hkept⟩

end Sys2Proof
end

section
/-! SUPPORT. SECTION_START and SECTION_END (R91): which slots serve a section, and what activating, leaving and ending do to a unit. -/
namespace Sys2Proof.Machine

/-! ### The slots that serve a section -/

/-- The slots of a unit that serve section `sec` of a job, rising, with the record of each. -/
def State.serving (s : State) (y u job sec : Nat) : List (Nat × CfgRec) :=
  (List.range 8).filterMap fun k => (s.slotServes y u k job sec).map fun r => (k, r)

theorem State.serving_nil {s : State} {y u job sec : Nat} (h : ∀ k, k < 8 → s.slotServes y u k job sec = none) : s.serving y u job sec = [] := by
  rw [State.serving, List.filterMap_eq_nil_iff]
  intro k hk
  rw [h k (List.mem_range.mp hk)]
  rfl

/-- A list of which `f` keeps only what it makes of `a`, where that stands once. -/
theorem filterMap_eq_singleton {α β : Type} {f : α → Option β} {l : List α} {a : α} {b : β} (hnodup : l.Nodup) (hmem : a ∈ l) (ha : f a = some b)
    (h : ∀ c ∈ l, c ≠ a → f c = none) : l.filterMap f = [b] := by
  obtain ⟨before, after, rfl⟩ := List.append_of_mem hmem
  obtain ⟨-, hafter, hdisjoint⟩ := List.nodup_append.mp hnodup
  have hnilBefore : before.filterMap f = [] := List.filterMap_eq_nil_iff.mpr fun c hc =>
    h c (List.mem_append_left _ hc) (hdisjoint c hc a List.mem_cons_self)
  have hnilAfter : after.filterMap f = [] := List.filterMap_eq_nil_iff.mpr fun c hc =>
    h c (List.mem_append_right _ (List.mem_cons_of_mem a hc)) fun hca => (List.nodup_cons.mp hafter).1 (hca ▸ hc)
  rw [List.filterMap_append, hnilBefore, List.filterMap_cons_some ha, hnilAfter, List.nil_append]

theorem State.serving_singleton {s : State} {y u job sec q : Nat} {r : CfgRec} (hq : q < 8) (hserves : s.slotServes y u q job sec = some r)
    (hothers : ∀ k, k < 8 → k ≠ q → s.slotServes y u k job sec = none) : s.serving y u job sec = [(q, r)] := by
  refine filterMap_eq_singleton List.nodup_range (List.mem_range.mpr hq) (by rw [hserves]; rfl) fun k hk hne => ?_
  rw [hothers k (List.mem_range.mp hk) hne]
  rfl

/-! ### Activating, leaving and ending -/

/-- A live slot whose record has no quota becomes the active one. -/
theorem UnitState.activate_without_quota {x : UnitState} {q n : Nat} {r : CfgRec} (hlive : (x.slot q).live = true)
    (hrecord : (x.slot q).record = some r) (hquota : r.quota = 0) :
    x.activate q (n + 1) = { x with active := some q, drops := 0, altSecond := false } := by
  rw [UnitState.activate, if_neg (by simp [hlive]), hrecord]
  exact if_neg fun h => h.1 hquota

/-- An active slot that nothing follows leaves the unit without an active one. -/
theorem UnitState.leave_last {x : UnitState} {r : CfgRec} (hring : x.ring = []) (hpend : x.pend = none) (hrecord : x.activeRec = some r)
    (hnext : r.next = 0xFF) : x.leave = { x with active := none, leaving := false, ringNext := 0 } := by
  rw [UnitState.leave, if_neg (by simp [hring]), hrecord]
  dsimp only
  rw [hpend]
  exact if_neg (Decidable.not_not.mpr hnext)

/-- What a unit keeps of a SECTION_START. -/
def State.startInfo (s : State) (t : Token) : SecInfo where
  sec := s.sections.find? fun c => c.job == t.job && c.num == bits t.operand 47 32 && c.tagBase == t.tag
  n := t.operand % 2 ^ 32
  tagBase := t.tag

/-- Slot `q` is live for the section of a SECTION_START, of which the unit keeps `i`. -/
def UnitState.takeStart (x : UnitState) (q key : Nat) (i : SecInfo) : UnitState :=
  { x.setSlot q { x.slot q with live := true, fired := 0, sec := key } with secs := Tab.put x.secs key i }

theorem UnitState.takeStart_slot (x : UnitState) (q key : Nat) (i : SecInfo) :
    (x.takeStart q key i).slot q = { x.slot q with live := true, fired := 0, sec := key } := x.slot_setSlot_self q _

/-- Every slot of the section is no longer live, and what the unit took in from its SECTION_START is gone. -/
def UnitState.dropSection (x : UnitState) (key : Nat) : UnitState :=
  { x with slots := x.slots.map fun e => if e.2.sec = key then (e.1, { e.2 with live := false }) else e
           secs := Tab.del x.secs key, endWait := none }

/-- A table whose values are changed key by key. -/
theorem Tab.find?_map_val {α : Type} (f : α → α) (t : Tab α) (k : Nat) : Tab.find? (t.map fun e => (e.1, f e.2)) k = (Tab.find? t k).map f := by
  induction t with
  | nil => rfl
  | cons e t ih =>
    obtain ⟨j, v⟩ := e
    rw [List.map_cons, Tab.find?, Tab.find?, ih]
    split <;> rfl

/-- A slot after the end of a section: as it was, but not live where it served that section. -/
theorem UnitState.dropSection_slot (x : UnitState) (key k : Nat) :
    (x.dropSection key).slot k = { x.slot k with live := (x.slot k).live && !((x.slot k).sec == key) } := by
  have hslots : (x.dropSection key).slots = x.slots.map fun e => (e.1, { e.2 with live := e.2.live && !(e.2.sec == key) }) := by
    refine List.map_congr_left fun e _ => ?_
    by_cases h : e.2.sec = key
    · simp [h]
    · have hother : (e.2.sec == key) = false := beq_false_of_ne h
      simp [h, hother]
  rw [UnitState.slot, UnitState.slot, hslots, Tab.get, Tab.get, Tab.find?_map_val fun v : Slot => { v with live := v.live && !(v.sec == key) }]
  cases Tab.find? x.slots k <;> rfl

theorem UnitState.dropSection_not_live {x : UnitState} {key k : Nat} (h : (x.slot k).sec = key) : ((x.dropSection key).slot k).live = false := by
  simp [UnitState.dropSection_slot, h]

/-- The end of a section on a unit where no slot is active or waits to be. -/
theorem UnitState.endSection_idle {x : UnitState} (key : Nat) (hactive : x.active = none) (hwaits : x.activating = none) :
    x.endSection key = x.dropSection key := by
  simp [UnitState.endSection, UnitState.dropSection, hactive, hwaits]

/-- The end of the section of the active slot: that slot leaves. -/
theorem UnitState.endSection_active {x : UnitState} {key a : Nat} (hactive : x.active = some a) (hsec : (x.slot a).sec = key)
    (hwaits : x.activating = none) : x.endSection key = (x.dropSection key).leave := by
  simp [UnitState.endSection, UnitState.dropSection, hactive, hsec, hwaits]

end Sys2Proof.Machine
end

section
/-! SUPPORT. What SECTION_START and SECTION_END do with a token offered to unit `u` of Yard `y`. -/
namespace Sys2Proof.Machine

section
variable {s : State} {y : Yard} {u : UnitId} (hlive : s.live = true)
include hlive

theorem execSectionStart_none (h : s.ctrlOffer y.val u.val 0x13 = none) : execSectionStart y u s = .next s := by
  rw [execSectionStart, State.whenLive_of_live hlive, State.sectionStarted, h]

theorem execSectionEnd_none (h : s.ctrlOffer y.val u.val 0x14 = none) : execSectionEnd y u s = .next s := by
  rw [execSectionEnd, State.whenLive_of_live hlive, State.sectionEnded, h]

variable {t : Token}

section
variable (hoffer : s.ctrlOffer y.val u.val 0x13 = some t)
include hoffer

theorem execSectionStart_unserved (h : ∀ k, k < 8 → s.slotServes y.val u.val k t.job (bits t.operand 47 32) = none) :
    execSectionStart y u s = .next (s.takeUnitCtrl y.val u.val) := by
  have hhits := State.serving_nil h
  rw [State.serving] at hhits
  rw [execSectionStart, State.whenLive_of_live hlive, State.sectionStarted, hoffer]
  dsimp only
  rw [hhits]
  rfl

/-- Where one slot with an ENTRY record serves the section, it is live, and is activated or waits behind the active slot. -/
theorem execSectionStart_entry {q : Nat} {r : CfgRec} (hq : q < 8)
    (hserves : s.slotServes y.val u.val q t.job (bits t.operand 47 32) = some r)
    (hothers : ∀ k, k < 8 → k ≠ q → s.slotServes y.val u.val k t.job (bits t.operand 47 32) = none)
    (hentry : r.entry = true) (hpend : (s.unit y.val u.val).pend = none) :
    let x := (s.unit y.val u.val).takeStart q (secKey t.job (bits t.operand 47 32)) (s.startInfo t)
    execSectionStart y u s = .next (((s.takeUnitCtrl y.val u.val).setUnit y.val u.val
      (if x.active.isNone ∧ x.activating.isNone then x.activate q 16 else { x with pend := some q })).pumpOut y.val u.val) := by
  have hhits := State.serving_singleton hq hserves hothers
  rw [State.serving] at hhits
  rw [execSectionStart, State.whenLive_of_live hlive, State.sectionStarted, hoffer]
  dsimp only
  rw [hhits, if_neg (by simp), if_neg (by simp [hpend]), List.find?_cons_of_pos (p := fun h : Nat × CfgRec => h.2.entry) hentry]
  rfl

end

section
variable (hoffer : s.ctrlOffer y.val u.val 0x14 = some t)
include hoffer

/-- With no firing under way the section ends at once. -/
theorem execSectionEnd_now (hfiring : (s.unit y.val u.val).firing = none) :
    execSectionEnd y u s = .next (((s.takeUnitCtrl y.val u.val).setUnit y.val u.val
      ((s.unit y.val u.val).endSection (secKey t.job (bits t.operand 47 32)))).pumpOut y.val u.val) := by
  rw [execSectionEnd, State.whenLive_of_live hlive, State.sectionEnded, hoffer]
  simp only [hfiring, Option.isSome_none, Bool.false_and, Bool.false_eq_true, false_and, if_false]

/-- With a firing of a slot of the section under way its end waits. -/
theorem execSectionEnd_waits {a : Nat} (hfiring : (s.unit y.val u.val).firing.isSome = true) (hactive : (s.unit y.val u.val).active = some a)
    (hsec : ((s.unit y.val u.val).slot a).sec = secKey t.job (bits t.operand 47 32)) (hwaits : (s.unit y.val u.val).endWait = none) :
    execSectionEnd y u s = .next (((s.takeUnitCtrl y.val u.val).setUnit y.val u.val
      { s.unit y.val u.val with endWait := some (secKey t.job (bits t.operand 47 32)) }).pumpOut y.val u.val) := by
  rw [execSectionEnd, State.whenLive_of_live hlive, State.sectionEnded, hoffer]
  simp [hfiring, hactive, hsec, hwaits]

end

end

section
variable {s : State} {y : Yard} {u : UnitId} {t : Token} (hlive : s.live = true)
include hlive

section
variable {q : Nat} {r : CfgRec} (hoffer : s.ctrlOffer y.val u.val 0x13 = some t) (hq : q < 8)
  (hserves : s.slotServes y.val u.val q t.job (bits t.operand 47 32) = some r)
  (hothers : ∀ k, k < 8 → k ≠ q → s.slotServes y.val u.val k t.job (bits t.operand 47 32) = none)
  (hentry : r.entry = true) (hpend : (s.unit y.val u.val).pend = none) (hstays : (s.unit y.val u.val).leaving = false)
include hoffer hq hserves hothers hentry hpend hstays

theorem execSectionStart_activates (hrecord : ((s.unit y.val u.val).slot q).record = some r) (hquota : r.quota = 0)
    (hactive : (s.unit y.val u.val).active = none) (hwaits : (s.unit y.val u.val).activating = none) :
    Answers (execSectionStart y u s) fun z => (z.unit y.val u.val).active = some q ∧ ((z.unit y.val u.val).slot q).live = true ∧
      ((z.unit y.val u.val).slot q).fired = 0 ∧ z.hbm = s.hbm := by
  refine ⟨_, execSectionStart_entry hlive hoffer hq hserves hothers hentry hpend, ?_⟩
  generalize hx : (s.unit y.val u.val).takeStart q (secKey t.job (bits t.operand 47 32)) (s.startInfo t) = x
  have hslot : x.slot q = { (s.unit y.val u.val).slot q with live := true, fired := 0, sec := secKey t.job (bits t.operand 47 32) } := by
    rw [← hx, UnitState.takeStart_slot]
  have hidle : x.active.isNone ∧ x.activating.isNone := by
    rw [← hx]
    exact ⟨by rw [UnitState.takeStart, UnitState.setSlot, hactive]; rfl, by rw [UnitState.takeStart, UnitState.setSlot, hwaits]; rfl⟩
  rw [if_pos hidle, UnitState.activate_without_quota (by rw [hslot]) (by rw [hslot]; exact hrecord) hquota]
  have hpumped := s.takeUnitCtrl_pumpOut_pumped y.val u.val (x := { x with active := some q, drops := 0, altSecond := false })
    (.inl (by rw [← hx]; exact hstays))
  have hslot' : ({ x with active := some q, drops := 0, altSecond := false } : UnitState).slot q = x.slot q := rfl
  refine ⟨?_, ?_, ?_, ?_⟩
  · rw [hpumped.active, State.unit_setUnit_self]
  · rw [hpumped.slot, State.unit_setUnit_self, hslot', hslot]
  · rw [hpumped.slot, State.unit_setUnit_self, hslot', hslot]
  · rw [hpumped.hbm, State.setUnit_hbm, State.takeUnitCtrl_hbm]

theorem execSectionStart_pends {a : Nat} (hactive : (s.unit y.val u.val).active = some a) :
    Answers (execSectionStart y u s) fun z => (z.unit y.val u.val).active = some a ∧ (z.unit y.val u.val).pend = some q ∧
      ((z.unit y.val u.val).slot q).live = true := by
  refine ⟨_, execSectionStart_entry hlive hoffer hq hserves hothers hentry hpend, ?_⟩
  generalize hx : (s.unit y.val u.val).takeStart q (secKey t.job (bits t.operand 47 32)) (s.startInfo t) = x
  have hactive' : x.active = some a := by rw [← hx]; exact hactive
  rw [if_neg (by simp [hactive'])]
  have hpumped := s.takeUnitCtrl_pumpOut_pumped y.val u.val (x := { x with pend := some q }) (.inl (by rw [← hx]; exact hstays))
  refine ⟨?_, ?_, ?_⟩
  · rw [hpumped.active, State.unit_setUnit_self]
    exact hactive'
  · rw [hpumped.pend, State.unit_setUnit_self]
  · rw [hpumped.slot, State.unit_setUnit_self, ← hx]
    exact congrArg Slot.live ((s.unit y.val u.val).takeStart_slot q _ (s.startInfo t))

end

section
variable (hoffer : s.ctrlOffer y.val u.val 0x14 = some t)
include hoffer

theorem execSectionEnd_idle (hfiring : (s.unit y.val u.val).firing = none) (hactive : (s.unit y.val u.val).active = none)
    (hwaits : (s.unit y.val u.val).activating = none) :
    Answers (execSectionEnd y u s) fun z => ∀ k, ((s.unit y.val u.val).slot k).sec = secKey t.job (bits t.operand 47 32) →
      ((z.unit y.val u.val).slot k).live = false := by
  have hidle : ((s.unit y.val u.val).dropSection (secKey t.job (bits t.operand 47 32))).active = none := hactive
  refine ⟨_, execSectionEnd_now hlive hoffer hfiring, fun k hsec => ?_⟩
  rw [UnitState.endSection_idle _ hactive hwaits, (s.takeUnitCtrl_pumpOut_pumped y.val u.val (.inr hidle)).slot, State.unit_setUnit_self]
  exact UnitState.dropSection_not_live hsec

variable {a : Nat} (hactive : (s.unit y.val u.val).active = some a)
  (hsec : ((s.unit y.val u.val).slot a).sec = secKey t.job (bits t.operand 47 32))
include hactive hsec

/-- The active slot of a section that ends leaves, where nothing is to follow it. -/
theorem execSectionEnd_leaves {r : CfgRec} (hrecord : ((s.unit y.val u.val).slot a).record = some r)
    (hfiring : (s.unit y.val u.val).firing = none) (hring : (s.unit y.val u.val).ring = []) (hpend : (s.unit y.val u.val).pend = none)
    (hwaits : (s.unit y.val u.val).activating = none) (hnext : r.next = 0xFF) :
    Answers (execSectionEnd y u s) fun z => (z.unit y.val u.val).active = none ∧
      (∀ k, ((s.unit y.val u.val).slot k).sec = secKey t.job (bits t.operand 47 32) → ((z.unit y.val u.val).slot k).live = false) ∧
      z.hbm = s.hbm := by
  refine ⟨_, execSectionEnd_now hlive hoffer hfiring, ?_⟩
  generalize hx : (s.unit y.val u.val).dropSection (secKey t.job (bits t.operand 47 32)) = x
  have hxrecord : x.activeRec = some r := by
    rw [← hx, UnitState.activeRec, show (UnitState.dropSection _ _).active = some a from hactive, Option.bind_some, UnitState.dropSection_slot]
    exact hrecord
  rw [UnitState.endSection_active hactive hsec hwaits, hx,
    UnitState.leave_last (by rw [← hx]; exact hring) (by rw [← hx]; exact hpend) hxrecord hnext]
  have hpumped := s.takeUnitCtrl_pumpOut_pumped y.val u.val (x := { x with active := none, leaving := false, ringNext := 0 }) (.inl rfl)
  refine ⟨?_, fun k hk => ?_, ?_⟩
  · rw [hpumped.active, State.unit_setUnit_self]
  · rw [hpumped.slot, State.unit_setUnit_self, ← hx]
    exact UnitState.dropSection_not_live hk
  · rw [hpumped.hbm, State.setUnit_hbm, State.takeUnitCtrl_hbm]

theorem execSectionEnd_endWait (hfiring : (s.unit y.val u.val).firing.isSome = true) (hwaits : (s.unit y.val u.val).endWait = none)
    (hstays : (s.unit y.val u.val).leaving = false) :
    Answers (execSectionEnd y u s) fun z => (z.unit y.val u.val).endWait = some (secKey t.job (bits t.operand 47 32)) ∧
      (z.unit y.val u.val).active = some a ∧ z.hbm = s.hbm := by
  refine ⟨_, execSectionEnd_waits hlive hoffer hfiring hactive hsec hwaits, ?_⟩
  have hpumped := s.takeUnitCtrl_pumpOut_pumped y.val u.val
    (x := { s.unit y.val u.val with endWait := some (secKey t.job (bits t.operand 47 32)) }) (.inl hstays)
  refine ⟨?_, ?_, ?_⟩
  · rw [hpumped.endWait, State.unit_setUnit_self]
  · rw [hpumped.active, State.unit_setUnit_self]
    exact hactive
  · rw [hpumped.hbm, State.setUnit_hbm, State.takeUnitCtrl_hbm]

end

end

end Sys2Proof.Machine

namespace Sys2Proof
open Machine

/-- Settles O14: each clause is one outcome of the two tokens of a section. -/
theorem sectionControlTokens : Obligations.SectionControlTokens := by
  unfold Obligations.SectionControlTokens
  intro s y u hlive
  refine ⟨execSectionStart_none hlive, execSectionEnd_none hlive, ?starts, ?endsIdle, ?endsActive⟩
  case starts =>
    intro t hoffer sec
    refine ⟨fun hunserved => ⟨_, execSectionStart_unserved hlive hoffer hunserved, ?_⟩, ?_⟩
    · exact ⟨s.takeUnitCtrl_unit .., s.takeUnitCtrl_offer .., s.takeUnitCtrl_regs ..⟩
    · intro q r hq hserves hothers hrecord hentry hquota hpend hstays
      exact ⟨execSectionStart_activates hlive hoffer hq hserves hothers hentry hpend hstays hrecord hquota,
        fun a => execSectionStart_pends hlive hoffer hq hserves hothers hentry hpend hstays⟩
  case endsIdle =>
    exact fun t hoffer => execSectionEnd_idle hlive hoffer
  case endsActive =>
    intro t a r hoffer hactive hrecord key hsec
    exact ⟨execSectionEnd_leaves hlive hoffer hactive hsec hrecord, execSectionEnd_endWait hlive hoffer hactive hsec⟩

end Sys2Proof
end

section
/-! SUPPORT. The refutation of O16: a state in which the step sequencer's own status word is read as a grant of channels. A map-out runs of
channel 2232, which no module has; whether partition 0 has it granted (R353) is then read from bit 56 of PT_STEP_STATUS of job 0, the low bit
of WAITING, which the record that arrives brings up to date on its way to R96. -/
namespace Sys2Proof.Machine

/-- A start record of job 0 for section 0 of RIG_ID 0. -/
def plainRecord : StartRec := { job := 0, rig := 0, section_ := 0, tagBase := 0, ext := [], src := .core 0 }

/-- The section it starts. -/
def plainSection : SecRec := { num := 0, lead := 0, iterDim := 0xFF, budgetUs := 0 }

/-- An image that holds this section and no record of a unit. -/
def plainImage : Image :=
  { part := 0, rig := 0, job := 0, maxExt := [], secs := [plainSection], cfgs := [], routes := [], codes := [], streams := [], colls := [],
    res := [], joins := [], cross := [] }

/-- A running device where job 0 runs in partition 0 without a step plan. Its record has been given to the tracker, the sequencer holds another
that it has not yet counted in WAITING, and a map-out of channel 2232 is past its flip. -/
def farMapOut : State :=
  { regs := [(pgBare + 0x100, toW (7 * 2 ^ 57)), (pgPart 0 + 0x200, toW (2 ^ 63))]
    images := [plainImage]
    issueQ := [(0, [plainRecord])]
    stepHeld := [(0, [plainRecord])]
    maintRun := [{ src := 0, cls := 1, target := 2232, phase := 1 }] }

/-- Nothing holds the record when it arrives, and it passes the checks of R95 and R132. -/
theorem farMapOut_passes : farMapOut.r96Holds 0 0 = false ∧ farMapOut.firstChecks 0 plainRecord = none ∧
    farMapOut.issueFail 0 plainImage plainRecord = none := by decide

/-- It is no record of a step plan, and of no phase. -/
theorem farMapOut_plain : farMapOut.roleOf 0 0 0 0 = 0 ∧ farMapOut.phaseOfRig 0 0 0 = 0 := by decide

/-- The record waits at R96 all the same: WAITING, brought up to date, reads as a grant of the channel. -/
theorem farMapOut_waits : Tab.get [] (farMapOut.whenLive fun s => s.issueOne 0).waiting 0 = [plainRecord] := by decide

end Sys2Proof.Machine

namespace Sys2Proof
open Machine

/-- Refutes O16: its record that nothing holds need not start its section. The statement ranges over every state, also one whose map-out names
a channel beyond the 1,024 of Table 0.3: there `r96Holds` reads a register that the record's own way to R96 changes. With channels below 1,024
this counterexample falls away. -/
theorem not_sectionTracker : ¬ Obligations.SectionTracker := by
  unfold Obligations.SectionTracker
  intro htracker
  obtain ⟨-, hissue, -⟩ := htracker
  obtain ⟨-, htaken⟩ := hissue farMapOut 0 plainRecord (by decide) (by decide)
  obtain ⟨hfree, hfirst, hchecks⟩ := farMapOut_passes
  obtain ⟨hrole, hphase⟩ := farMapOut_plain
  obtain ⟨-, hstarts⟩ := htaken plainImage plainSection (by decide) (by decide) hfirst (by decide) hphase fun hplan => absurd hrole hplan
  obtain ⟨t, hnext, ⟨-, hwaiting, -⟩, -⟩ := hstarts hfree (by decide) hchecks
  obtain rfl : (farMapOut.whenLive fun s => s.issueOne 0) = t := Host.Outcome.next.inj hnext
  exact absurd (farMapOut_waits.symm.trans hwaiting) (by decide)

end Sys2Proof
end

section
/-! SUPPORT. The refutation of O18: a load for a job number above 15. JOB of PT_RIG_STATUS has the bits 55 to 52 (Table 4.18), and a larger number
runs over into RIG_ID above it. -/
namespace Sys2Proof.Machine

/-- An image for partition 0 that takes RIG_ID 0 and holds no record. -/
def emptyImage : Image :=
  { part := 0, rig := 0, job := 16, maxExt := [], secs := [], cfgs := [], routes := [], codes := [], streams := [], colls := [], res := [],
    joins := [], cross := [] }

/-- Its load, for job 16, with all checks passed. -/
def wideJobLoad : PendingLoad := { part := 0, job := 16, gen := 0, image := emptyImage, geometry := 0, fromRing := none }

/-- A running device on which this load waits for its commit. -/
def wideJobLoading : State := { regs := [(pgBare + 0x100, toW (7 * 2 ^ 57))], loads := [wideJobLoad] }

/-- The state in which a load commits: it waits no more, nor do the reads of its image. -/
def State.takeLoad (s : State) (l : PendingLoad) : State := { s with loads := s.loads.erase l }.dropAsk (askKey (.load l.part))

/-- The load is the next to commit, and nothing stops it. -/
theorem wideJobLoading_commits : wideJobLoading.nextCommit = some wideJobLoad ∧ (wideJobLoading.takeLoad wideJobLoad).commitFail wideJobLoad = none ∧
    (wideJobLoading.takeLoad wideJobLoad).rigFor 0 0 = some 0 := by
  decide

/-- BUSY falls with the RESULT: PT_RIG_STATUS is the word of Table 4.18, whatever event RIG_DONE raises. -/
theorem State.rigResult_status (s : State) {p : Nat} (hp : p < 8) (res rig j code : Nat) :
    (s.rigResult p res rig j code).reg (rigSt p) = (fieldAt 60 res + fieldAt 56 rig + fieldAt 52 j + code) % 2 ^ 64 := by
  have hstatus : rigSt p = pgPart p + 0x1D0 := rfl
  have hpage : pgPart p + 0x1D0 < 0x201_0000 := by unfold pgPart; omega
  rw [State.rigResult, State.jobEvent, State.event_reg _ _ _ (by omega) (by omega) (by omega), State.reg_setFlag_ne _ _ _ (by omega),
    State.reg_setReg_self]

/-- The commit of a load that nothing stops and that no ring asked for adds the image and ends with RESULT 1. -/
theorem State.commit_of_free {s : State} {l : PendingLoad} {rig : Nat} {res : List ResRec} (hfree : (s.takeLoad l).commitFail l = none)
    (hrig : (s.takeLoad l).rigFor l.part l.image.rig = some rig) (hres : (s.takeLoad l).placeStow l.image.res = some res)
    (hring : l.fromRing = none) : s.commit l = ((s.takeLoad l).commitImage l rig res).rigResult l.part 1 rig l.job 0 := by
  rw [State.takeLoad] at hfree hrig hres
  rw [State.commit, hfree, hrig, hres, hring]
  rfl

theorem execLoadCommit_next {s : State} {p : Part} {l : PendingLoad} (hlive : s.live = true) (hnext : s.nextCommit = some l)
    (hpart : l.part = p.val) : execLoadCommit p s = .next (s.commit l) := by
  rw [execLoadCommit, State.whenLive_of_live hlive, hnext]
  exact congrArg Host.Outcome.next (if_pos hpart)

end Sys2Proof.Machine

namespace Sys2Proof
open Machine

/-- Refutes O18: a commit that nothing stops need not show its RIG_ID. The statement bounds RIG_ID below 16 and leaves the job of the load free,
which the state holds as a number of any size; with job IDs below 16 (Table 0.3) this counterexample falls away. -/
theorem not_loadingImages : ¬ Obligations.LoadingImages := by
  unfold Obligations.LoadingImages
  intro hloading
  obtain ⟨-, hcommits⟩ := hloading
  obtain ⟨hnext, hfree, hrig⟩ := wideJobLoading_commits
  have hlive : wideJobLoading.live = true := by decide
  obtain ⟨-, -, hturn⟩ := hcommits wideJobLoading 0 hlive
  obtain ⟨-, hcommit⟩ := hturn wideJobLoad hnext rfl
  obtain ⟨z, hz, -, -, -, hshown, -⟩ := hcommit 0 [] hfree hrig rfl rfl (by decide)
  obtain rfl : wideJobLoading.commit wideJobLoad = z := Host.Outcome.next.inj ((execLoadCommit_next hlive hnext rfl).symm.trans hz)
  rw [State.commit_of_free hfree hrig rfl rfl, State.fld] at hshown
  exact absurd ((congrArg (bits · 59 56) (State.rigResult_status _ (by decide) 1 0 16 0)).symm.trans hshown) (by decide)

end Sys2Proof
end

section
/-! SUPPORT. Integers of the Yard core (R167, Table 7.3): the model computes with natural numbers and `toSigned`; here they are the operations
of 64-bit words. -/
namespace Sys2Proof

@[simp] theorem toW_toNat (a : W64) : toW a.toNat = a := BitVec.ofNat_toNat ..

/-- A field as a two's complement number. -/
theorem toSigned_eq_toInt {n : Nat} (hn : 0 < n) (v : Nat) : toSigned n v = (BitVec.ofNat n v).toInt := by
  obtain ⟨m, rfl⟩ : ∃ m, n = m + 1 := ⟨n - 1, by omega⟩
  have hpow : 2 ^ (m + 1) = 2 * 2 ^ m := Nat.pow_succ'
  rw [toSigned, BitVec.toInt_eq_toNat_cond, BitVec.toNat_ofNat, Nat.add_sub_cancel]
  split <;> split <;> omega

theorem toSigned_toNat (a : W64) : toSigned 64 a.toNat = a.toInt := by
  rw [toSigned_eq_toInt (by decide), BitVec.ofNat_toNat, BitVec.setWidth_eq]

/-- A two's complement field as a word. -/
theorem ofSigned_eq_toNat (n : Nat) (i : Int) : ofSigned n i = (BitVec.ofInt n i).toNat := (BitVec.toNat_ofInt ..).symm

theorem toW_ofSigned (i : Int) : toW (ofSigned 64 i) = BitVec.ofInt 64 i := by
  rw [ofSigned_eq_toNat, toW_toNat]

theorem toW_eq {v : Nat} {a : W64} (h : v % 2 ^ 64 = a.toNat) : toW v = a := BitVec.eq_of_toNat_eq (by rw [toNat_toW, h])

theorem toW_add (a b : W64) : toW (a.toNat + b.toNat) = a + b := rfl

theorem toW_sub (a b : W64) : toW (a.toNat + 2 ^ 64 - b.toNat) = a - b :=
  toW_eq (by rw [BitVec.toNat_sub]; have := b.isLt; congr 1; omega)

theorem toW_land (a b : W64) : toW (Nat.land a.toNat b.toNat) = a &&& b := toW_eq (Nat.mod_eq_of_lt (a &&& b).isLt)

theorem toW_lor (a b : W64) : toW (Nat.lor a.toNat b.toNat) = a ||| b := toW_eq (Nat.mod_eq_of_lt (a ||| b).isLt)

theorem toW_xorN (a b : W64) : toW (xorN a.toNat b.toNat) = a ^^^ b := toW_eq (Nat.mod_eq_of_lt (a ^^^ b).isLt)

theorem toW_shiftLeft (a : W64) (k : Nat) : toW (a.toNat * 2 ^ k) = a <<< k :=
  toW_eq (by rw [BitVec.toNat_shiftLeft, Nat.shiftLeft_eq])

theorem toW_shiftRight (a : W64) (k : Nat) : toW (a.toNat / 2 ^ k) = a >>> k := by
  rw [← toW_toNat (a >>> k), BitVec.toNat_ushiftRight, Nat.shiftRight_eq_div_pow]

/-- An arithmetic shift is a division by a power of two that rounds toward minus infinity. -/
theorem toW_sshiftRight (a : W64) (k : Nat) : toW (ofSigned 64 (toSigned 64 a.toNat / (2 ^ k : Nat))) = a.sshiftRight k := by
  rw [toW_ofSigned, toSigned_toNat, BitVec.sshiftRight, Int.shiftRight_eq_div_pow]

theorem toW_b2n (b : Bool) : toW (b2n b) = if b then 1 else 0 := by cases b <;> rfl

theorem sLt_toNat (a b : W64) : Machine.sLt a.toNat b.toNat = a.slt b := by
  rw [Machine.sLt, toSigned_toNat, toSigned_toNat]
  rfl

theorem toW_mul (a b : W64) : toW (a.toNat * b.toNat) = a * b := rfl

theorem toW_mulh (a b : W64) :
    toW (ofSigned 64 (toSigned 64 a.toNat * toSigned 64 b.toNat / (2 ^ 64 : Nat))) = BitVec.ofInt 64 (a.toInt * b.toInt / 2 ^ 64) := by
  rw [toW_ofSigned, toSigned_toNat, toSigned_toNat]
  rfl

theorem word_toNat_eq_zero (b : W64) : b.toNat = 0 ↔ b = 0 := BitVec.toNat_eq (y := 0) |>.symm

theorem toW_divu (a b : W64) : toW (if b.toNat = 0 then 2 ^ 64 - 1 else a.toNat / b.toNat) = if b = 0 then BitVec.allOnes 64 else a.udiv b := by
  simp only [word_toNat_eq_zero]
  split
  · rfl
  · rw [← toW_toNat (a.udiv b)]; rfl

theorem toW_remu (a b : W64) : toW (if b.toNat = 0 then a.toNat else a.toNat % b.toNat) = if b = 0 then a else a.umod b := by
  simp only [word_toNat_eq_zero]
  split
  · exact toW_toNat a
  · rw [← toW_toNat (a.umod b)]; rfl

/-- Division toward zero; only the quotient of the least number by -1 needs its wrapping. -/
theorem toW_div (a b : W64) :
    toW (if b.toNat = 0 then 2 ^ 64 - 1 else ofSigned 64 ((toSigned 64 a.toNat).tdiv (toSigned 64 b.toNat))) =
      if b = 0 then BitVec.allOnes 64 else a.sdiv b := by
  simp only [word_toNat_eq_zero]
  split
  · rfl
  · rw [toW_ofSigned, toSigned_toNat, toSigned_toNat]
    apply BitVec.eq_of_toInt_eq
    rw [BitVec.toInt_ofInt, BitVec.toInt_sdiv]

theorem toW_rem (a b : W64) :
    toW (if b.toNat = 0 then a.toNat else ofSigned 64 ((toSigned 64 a.toNat).tmod (toSigned 64 b.toNat))) = if b = 0 then a else a.srem b := by
  simp only [word_toNat_eq_zero]
  split
  · exact toW_toNat a
  · rw [toW_ofSigned, toSigned_toNat, toSigned_toNat, ← BitVec.toInt_srem, BitVec.ofInt_toInt]

end Sys2Proof
end

section
/-! SUPPORT. What the instruction at a running context's PC comes to, by what its function answers: it retires, waits or raises an exception; and
for the forms on two registers and on an immediate. -/
namespace Sys2Proof.Machine

/-! ### Registers as words -/

@[simp] theorem YcCtx.toNat_word64 (c : YcCtx) (i : Nat) : (c.word64 i).toNat = c.get i := by
  rw [YcCtx.word64, toNat_toW, Nat.mod_eq_of_lt (c.get_lt i)]

/-- A register takes its value as a word. -/
theorem YcCtx.put_toW (c : YcCtx) (i v : Nat) : c.put i (toW v).toNat = c.put i v := by rw [toNat_toW, c.put_mod]

/-! ### At an instruction -/

section
variable {s s' : State} {y : Yard} {r : YcReads} {j : Nat} {c c' : YcCtx} {w code : Nat} {f : YcFn}

theorem State.AtInstr.running (h : s.AtInstr y r j c w code) : c.st = .running := by
  obtain ⟨-, -, -, -, hst, -⟩ := h
  exact hst

theorem State.AtInstr.ctx (h : s.AtInstr y r j c w code) : s.ctx y.val j = some c := by
  obtain ⟨-, -, -, hctx, -⟩ := h
  exact hctx

theorem State.AtInstr.encodes (h : s.AtInstr y r j c w code) : ycCode w = some code := by
  obtain ⟨-, -, -, -, -, -, -, -, -, hcode⟩ := h
  exact hcode

/-- What the core does with its instruction: the outcome of the command that runs it. -/
def State.runs (s : State) (y : Yard) (r : YcReads) (code : Nat) (f : YcFn) : Result := .next (s.whenLive fun s => s.ycRun y.val r code f)

theorem State.AtInstr.retires (h : s.AtInstr y r j c w code) (hf : f s y.val j c w r.data = .done c' s') (hst : c'.st = .running) :
    s.runs y r code f = .next (s'.retiring y j c') := by
  rw [State.runs, h.run, hf, settle_done _ _ _ _ _ _ hst]

theorem State.AtInstr.waits (h : s.AtInstr y r j c w code) (hf : f s y.val j c w r.data = .wait c' s') :
    s.runs y r code f = .next (s'.blockedAt y j c' w) := by
  rw [State.runs, h.run, hf, settle_wait]

theorem State.AtInstr.raises {cause val : Nat} (h : s.AtInstr y r j c w code) (hf : f s y.val j c w r.data = .exc cause val s) :
    s.runs y r code f = .next (s.ycException y.val j c cause val) := by
  rw [State.runs, h.run, hf, YcRes.settle, h.ctx, Option.getD_some]

/-- An instruction that computes `v` and goes on: gd takes `v`, PC moves to the next one. -/
theorem State.AtInstr.gives {v : Nat} (h : s.AtInstr y r j c w code) (hf : f s y.val j c w r.data = .done (c.put (yGd w) v).next s) :
    s.runs y r code f = .next (s.retiring y j (c.put (bits w 10 6) v).next) :=
  h.retires hf (by rw [YcCtx.next_st, YcCtx.put_st, h.running])

/-! ### Two registers, or a register and an immediate -/

theorem State.AtInstr.givesReg {g : Nat → Nat → Nat} {v : W64} (h : s.AtInstr y r j c w code)
    (hv : toW (g (c.word64 (bits w 15 11)).toNat (c.word64 (bits w 20 16)).toNat) = v) :
    s.runs y r code (ycReg g) = .next (s.retiring y j (c.put (bits w 10 6) v.toNat).next) := by
  rw [← hv, YcCtx.put_toW, YcCtx.toNat_word64, YcCtx.toNat_word64]
  exact h.gives rfl

/-- imm16 of a word. -/
theorem toNat_imm16 (w : Nat) : (BitVec.ofNat 16 (bits w 31 16)).toNat = yImm w := by
  rw [BitVec.toNat_ofNat]
  exact Nat.mod_eq_of_lt (bits_lt w 31 16)

theorem State.AtInstr.givesImm {g : Nat → Nat → Nat} {v : W64} (h : s.AtInstr y r j c w code)
    (hv : toW (g (c.word64 (bits w 15 11)).toNat (BitVec.ofNat 16 (bits w 31 16)).toNat) = v) :
    s.runs y r code (ycImm g) = .next (s.retiring y j (c.put (bits w 10 6) v.toNat).next) := by
  rw [← hv, YcCtx.put_toW, YcCtx.toNat_word64, toNat_imm16]
  exact h.gives rfl

end

/-! ### Immediates as words -/

/-- A sign-extended immediate. -/
theorem ofSigned_toSigned_imm (i : BitVec 16) : ofSigned 64 (toSigned 16 i.toNat) = (i.signExtend 64).toNat := by
  rw [ofSigned_eq_toNat, toSigned_eq_toInt (by decide), BitVec.ofNat_toNat, BitVec.setWidth_eq]
  rfl

/-- A zero-extended immediate. -/
theorem toNat_zeroExtend_imm (i : BitVec 16) : (i.zeroExtend 64).toNat = i.toNat := BitVec.toNat_setWidth_of_le (by decide)

/-- LSH16: the immediate fills the low bits that the shift leaves 0. -/
theorem toW_lsh16 (a : W64) (i : BitVec 16) : toW (a.toNat * 2 ^ 16 % 2 ^ 64 + i.toNat) = (a <<< 16) ||| i.zeroExtend 64 := by
  refine toW_eq ?_
  rw [BitVec.toNat_or, toNat_zeroExtend_imm, BitVec.toNat_shiftLeft, Nat.shiftLeft_eq]
  have hdvd : a.toNat * 2 ^ 16 % 2 ^ 64 = 2 ^ 16 * (a.toNat % 2 ^ 48) := by omega
  rw [hdvd, ← Nat.two_pow_add_eq_or_of_lt i.isLt]
  exact Nat.mod_eq_of_lt (by have := i.isLt; omega)

end Sys2Proof.Machine

namespace Sys2Proof
open Machine

/-- Settles O24: each form on two registers computes, with natural numbers, the word of Table 7.3. -/
theorem yardCoreIntegerRegister : Obligations.YardCoreIntegerRegister := by
  unfold Obligations.YardCoreIntegerRegister
  intro s y r j c w a b gives
  exact ⟨fun h => h.givesReg (toW_add a b), fun h => h.givesReg (toW_sub a b), fun h => h.givesReg (toW_land a b),
    fun h => h.givesReg (toW_lor a b), fun h => h.givesReg (toW_xorN a b), fun h => h.givesReg (toW_shiftLeft a _),
    fun h => h.givesReg (toW_shiftRight a _), fun h => h.givesReg (toW_sshiftRight a _),
    fun h => h.givesReg ((toW_b2n _).trans (by rw [sLt_toNat])), fun h => h.givesReg (toW_b2n _),
    fun h => h.givesReg (toW_mul a b), fun h => h.givesReg rfl, fun h => h.givesReg (toW_mulh a b),
    fun h => h.givesReg (toW_divu a b), fun h => h.givesReg (toW_remu a b), fun h => h.givesReg (toW_div a b),
    fun h => h.givesReg (toW_rem a b)⟩

/-- Settles O25: the immediate, sign- or zero-extended, is the second operand of the same word operations. -/
theorem yardCoreIntegerImmediate : Obligations.YardCoreIntegerImmediate := by
  unfold Obligations.YardCoreIntegerImmediate
  intro s y r j c w a i gives
  have hzero := toNat_zeroExtend_imm i
  exact ⟨fun h => h.givesImm (by rw [ofSigned_toSigned_imm, toW_add]), fun h => h.givesImm (by rw [← hzero, toW_land]),
    fun h => h.givesImm (by rw [← hzero, toW_lor]), fun h => h.givesImm (by rw [← hzero, toW_xorN]),
    fun h => h.givesImm (toW_shiftLeft a _), fun h => h.givesImm (toW_shiftRight a _), fun h => h.givesImm (toW_sshiftRight a _),
    fun h => h.givesImm (toW_lsh16 a i)⟩

end Sys2Proof
end

section
/-! SUPPORT. FP32 operands and results of the Yard core (R168, Table 7.3): the half of a register that H1 or H2 names, and what the forms on them
give. -/
namespace Sys2Proof.Machine

/-- The half of register `i` that bit `k` of the word names. -/
def YcCtx.half (c : YcCtx) (w i k : Nat) : BitVec 32 :=
  if w.testBit k then (c.word64 i).extractLsb' 32 32 else (c.word64 i).extractLsb' 0 32

theorem bit_eq_testBit (w i : Nat) : bit w i = w.testBit i := by
  rw [Nat.testBit_eq_decide_div_mod_eq]
  rfl

/-- A bit of FN is a bit of the word. -/
theorem bit_yFn (w : Nat) {i : Nat} (h : i < 11) : bit (yFn w) i = w.testBit (21 + i) := by
  rw [bit_eq_testBit, yFn, bits, Nat.testBit_mod_two_pow, Nat.testBit_div_two_pow, decide_eq_true h, Bool.true_and, Nat.add_comm i]

theorem fpHalf_eq_half (c : YcCtx) (w i : Nat) {k : Nat} (h : k < 11) : fpHalf (c.get i) (bit (yFn w) k) = c.half w i (21 + k) := by
  rw [bit_yFn w h, fpHalf, YcCtx.half, ← c.toNat_word64 i]
  apply BitVec.eq_of_toNat_eq
  split
  · rw [BitVec.extractLsb'_toNat, Nat.shiftRight_eq_div_pow, BitVec.toNat_ofNat]
  · rw [BitVec.extractLsb'_toNat, Nat.shiftRight_zero, BitVec.toNat_ofNat]

section
variable {s : State} {y : Yard} {r : YcReads} {j : Nat} {c : YcCtx} {w code : Nat}

theorem State.AtInstr.givesFp (h : s.AtInstr y r j c w code) (g : BitVec 32 → BitVec 32 → BitVec 32) :
    s.runs y r code (ycFp g) = .next (s.retiring y j
      (c.put (bits w 10 6) (g (c.half w (bits w 15 11) 26) (c.half w (bits w 20 16) 27)).toNat).next) := by
  rw [← fpHalf_eq_half c w _ (k := 5) (by decide), ← fpHalf_eq_half c w _ (k := 6) (by decide)]
  exact h.gives rfl

theorem State.AtInstr.givesCmp (h : s.AtInstr y r j c w code) (g : BitVec 32 → BitVec 32 → Bool) {v : Nat}
    (hv : b2n (g (c.half w (bits w 15 11) 26) (c.half w (bits w 20 16) 27)) = v) :
    s.runs y r code (ycCmp g) = .next (s.retiring y j (c.put (bits w 10 6) v).next) := by
  rw [← fpHalf_eq_half c w _ (k := 5) (by decide), ← fpHalf_eq_half c w _ (k := 6) (by decide)] at hv
  rw [← hv]
  exact h.gives rfl

/-- FCVT.L of the operand's half. -/
theorem State.AtInstr.givesFcvtL (h : s.AtInstr y r j c w code) : s.runs y r code fcvtL = .next (s.retiring y j
    (c.put (bits w 10 6) (BitVec.ofInt 64 (toInt64 (f32 (c.half w (bits w 15 11) 26)))).toNat).next) := by
  rw [← fpHalf_eq_half c w _ (k := 5) (by decide), ← ofSigned_eq_toNat]
  exact h.gives rfl

/-- FCVT.F of the whole register: its sign and its magnitude. -/
theorem State.AtInstr.givesFcvtF (h : s.AtInstr y r j c w code) : s.runs y r code fcvtF = .next (s.retiring y j
    (c.put (bits w 10 6) (toF32 (.fin (c.word64 (bits w 15 11)).msb (c.word64 (bits w 15 11)).toInt.natAbs 0)).toNat).next) := by
  rw [BitVec.msb_eq_toInt, ← toSigned_toNat, YcCtx.toNat_word64]
  exact h.gives rfl

end

end Sys2Proof.Machine

namespace Sys2Proof
open Machine

/-- Settles O26: the operands are the halves that FN names. -/
theorem yardCoreFloat : Obligations.YardCoreFloat := by
  unfold Obligations.YardCoreFloat
  intro s y r j c w half a b gives
  exact ⟨fun h => h.givesFp f32Add, fun h => h.givesFp f32Sub, fun h => h.givesFp f32Mul, fun h => h.givesFp f32Div,
    fun h => h.givesFp f32Min, fun h => h.givesFp f32Max, fun h => h.givesFp fun a _ => f32Sqrt a,
    fun h => h.givesCmp f32Lt rfl, fun h => h.givesCmp (fun a b => f32Lt a b || f32Eq a b) (by simp only [b2n, Bool.or_eq_true]; rfl),
    fun h => h.givesCmp f32Eq rfl, fun h => h.givesFcvtL, fun h => h.givesFcvtF⟩

end Sys2Proof
end

section
/-! SUPPORT. Loads and stores of the Yard core (R165, R166, R168): the address, and what stands in local memory after a store. -/
namespace Sys2Proof.Machine

/-- The address of a load or store as a word. -/
theorem yAddr_eq (c : YcCtx) (w : Nat) :
    yAddr c w = (c.word64 (bits w 15 11) + (BitVec.ofNat 16 (bits w 31 16)).signExtend 64).toNat := by
  rw [BitVec.toNat_add, YcCtx.toNat_word64, ← ofSigned_toSigned_imm, toNat_imm16]
  rfl

/-! ### Local memory -/

@[simp] theorem State.local_setLocal_self (s : State) (y : Nat) (m : Mem) : (s.setLocal y m).local_ y = m := Tab.get_set_self ..

/-- Local memory is neither a register nor a context. -/
theorem OnlyRegs.local_ {s t : State} (h : OnlyRegs s t) (y : Nat) : t.local_ y = s.local_ y := by
  obtain ⟨r, o, rfl⟩ := h
  rfl

@[simp] theorem State.local_retiring (s : State) (y : Yard) (j : Nat) (c : YcCtx) (k : Nat) : (s.retiring y j c).local_ k = s.local_ k :=
  (onlyRegs_bump s (pgCore y.val + 0x110) 1).local_ k

theorem length_leBytes (n v : Nat) : (leBytes n v).length = n := by
  induction n generalizing v with
  | zero => rfl
  | succ n ih => rw [leBytes, List.length_cons, ih]

theorem Mem.read_writeNat_self (m : Mem) (a n v : Nat) : (m.writeNat a n v).read a n = leBytes n v := by
  have hread := m.read_write_self a (leBytes n v)
  rwa [length_leBytes] at hread

theorem Mem.get_writeNat_outside (m : Mem) (a n v : Nat) {b : Nat} (h : b < a ∨ a + n ≤ b) : (m.writeNat a n v).get b = m.get b :=
  m.get_write_outside a _ (by rwa [length_leBytes])

/-! ### Loads and stores -/

section
variable {s : State} {y : Yard} {r : YcReads} {j : Nat} {c : YcCtx} {w code : Nat}

/-- An aligned load inside the extents, whose read finds no error. -/
theorem State.AtInstr.loads (h : s.AtInstr y r j c w code) {n a : Nat} (ext : Nat → Nat) (ha : yAddr c w = a)
    (hfits : a % n = 0 ∧ s.ycOk y.val j a n = true ∧ r.data = .ok) :
    s.runs y r code (ycLoad n ext) = .next (s.retiring y j (c.put (bits w 10 6) (ext ((s.local_ y.val).readNat a n))).next) := by
  obtain ⟨halign, hok, hdata⟩ := hfits
  subst ha
  refine h.gives ?_
  rw [ycLoad, if_neg (· halign), hok, hdata]
  rfl

theorem State.AtInstr.load_misaligned (h : s.AtInstr y r j c w code) {n a : Nat} (ext : Nat → Nat) (ha : yAddr c w = a) (halign : a % n ≠ 0) :
    s.runs y r code (ycLoad n ext) = .next (s.ycException y.val j c 2 a) := by
  subst ha
  exact h.raises (if_pos halign)

theorem State.AtInstr.load_outside (h : s.AtInstr y r j c w code) {n a : Nat} (ext : Nat → Nat) (ha : yAddr c w = a) (halign : a % n = 0)
    (hok : s.ycOk y.val j a n = false) : s.runs y r code (ycLoad n ext) = .next (s.ycException y.val j c 3 a) := by
  subst ha
  refine h.raises ?_
  rw [ycLoad, if_neg (· halign), hok]
  rfl

/-- An aligned store inside the extents. -/
theorem State.AtInstr.stores (h : s.AtInstr y r j c w code) {n a : Nat} (ha : yAddr c w = a) (hfits : a % n = 0 ∧ s.ycOk y.val j a n = true) :
    Answers (s.runs y r code (ycStore n)) fun t =>
      (t.local_ y.val).read a n = leBytes n (c.get (bits w 10 6)) ∧
      (∀ b, b < a ∨ a + n ≤ b → (t.local_ y.val).get b = (s.local_ y.val).get b) ∧
      t = (s.setLocal y.val ((s.local_ y.val).writeNat a n (c.get (bits w 10 6)))).retiring y j c.next := by
  obtain ⟨halign, hok⟩ := hfits
  subst ha
  refine ⟨_, h.retires (c' := c.next) ?_ h.running, ?_, ?_, rfl⟩
  · rw [ycStore, if_neg (· halign), hok]
    rfl
  · rw [State.local_retiring, State.local_setLocal_self, Mem.read_writeNat_self]
  · intro b hb
    rw [State.local_retiring, State.local_setLocal_self, Mem.get_writeNat_outside _ _ _ _ hb]

end

end Sys2Proof.Machine

namespace Sys2Proof
open Machine

/-- Settles O27: an address that fits is read, and one that does not is an exception with the address as its value. -/
theorem yardCoreLoads : Obligations.YardCoreLoads := by
  unfold Obligations.YardCoreLoads
  intro s y r j c w a fits gives m
  have ha : yAddr c w = a := yAddr_eq c w
  have hsigned : ofSigned 64 (toSigned 32 (m 4)) = ((BitVec.ofNat 32 (m 4)).signExtend 64).toNat := by
    rw [ofSigned_eq_toNat, toSigned_eq_toInt (by decide)]
    rfl
  refine ⟨fun h => h.loads id ha, fun h => h.loads id ha, fun h hfits => ?_, fun h => h.loads id ha,
    fun h => h.load_misaligned id ha, fun h => h.load_outside id ha⟩
  rw [← hsigned]
  exact h.loads (fun v => ofSigned 64 (toSigned 32 v)) ha hfits

/-- Settles O28: the bytes stored stand where they were written, and a write reaches no other byte. -/
theorem yardCoreStores : Obligations.YardCoreStores := by
  unfold Obligations.YardCoreStores
  intro s y r j c w a fits stores
  have ha : yAddr c w = a := yAddr_eq c w
  exact ⟨fun h => h.stores ha, fun h => h.stores ha, fun h => h.stores ha⟩

end Sys2Proof
end

section
/-! SUPPORT. Branches and jumps of the Yard core (R167, Table 7.3): where the PC goes. -/
namespace Sys2Proof.Machine

/-- The context with its PC moved by `d` instructions, modulo 2^18. -/
def YcCtx.goes (c x : YcCtx) (d : Int) : YcCtx := { x with pc := (((c.pc : Int) + 4 * d) % 2 ^ 18).toNat }

theorem YcCtx.branch_eq_goes (c : YcCtx) (d : Int) : c.branch d = c.goes c d := rfl

theorem YcCtx.next_eq_goes (c : YcCtx) : c.next = c.goes c 1 := rfl

/-- A word's offset as a two's complement number. -/
theorem toSigned_off16 (w : Nat) : toSigned 16 (yImm w) = (BitVec.ofNat 16 (bits w 31 16)).toInt := toSigned_eq_toInt (by decide) _

section
variable {s : State} {y : Yard} {r : YcReads} {j : Nat} {c : YcCtx} {w code : Nat}

theorem State.AtInstr.branches (h : s.AtInstr y r j c w code) (q : Nat → Nat → Bool) {p : Prop} [Decidable p]
    (hp : q (c.word64 (bits w 10 6)).toNat (c.word64 (bits w 15 11)).toNat = decide p) :
    s.runs y r code (ycBranch q) =
      .next (s.retiring y j (if p then c.goes c (BitVec.ofNat 16 (bits w 31 16)).toInt else c.goes c 1)) := by
  rw [YcCtx.toNat_word64, YcCtx.toNat_word64] at hp
  rw [← toSigned_off16, ← YcCtx.branch_eq_goes, ← YcCtx.next_eq_goes]
  refine h.retires ?_ (by split <;> exact h.running)
  rw [ycBranch, yGd, yGs1, hp]
  simp only [decide_eq_true_eq]

theorem State.AtInstr.jal (h : s.AtInstr y r j c w code) :
    s.runs y r code ycJalFn =
      .next (s.retiring y j (c.goes (c.put 31 ((c.pc + 4) % 2 ^ 18)) (BitVec.ofNat 26 (bits w 31 6)).toInt)) := by
  rw [← toSigned_eq_toInt (by decide)]
  refine h.retires ?_ ((c.put_st 31 ((c.pc + 4) % 2 ^ 18)).trans h.running)
  rw [ycJalFn, YcCtx.branch_eq_goes, YcCtx.goes, YcCtx.put_pc]
  rfl

theorem State.AtInstr.jalr (h : s.AtInstr y r j c w code) {a : Nat} (ha : yAddr c w = a) :
    s.runs y r code ycJalrFn =
      .next (s.retiring y j { c.put (bits w 10 6) ((c.pc + 4) % 2 ^ 18) with pc := a % 2 ^ 18 / 4 * 4 }) := by
  subst ha
  exact h.retires rfl ((c.put_st _ _).trans h.running)

end

/-- Words are equal where their numbers are. -/
theorem beq_toNat (a b : W64) : (a.toNat == b.toNat) = decide (a = b) := by
  simp only [BitVec.toNat_eq]
  rfl

end Sys2Proof.Machine

namespace Sys2Proof
open Machine

/-- Settles O29: each comparison of the two registers, as the words' order, and each target, modulo 2^18. -/
theorem yardCoreBranches : Obligations.YardCoreBranches := by
  unfold Obligations.YardCoreBranches
  intro s y r j c w a b goes gives off branch
  refine ⟨fun h => h.branches (· == ·) (beq_toNat a b), fun h => h.branches (fun a b => !(a == b)) ?_,
    fun h => h.branches sLt (sLt_toNat a b), fun h => h.branches (fun a b => !(sLt a b)) ?_,
    fun h => h.branches (fun a b => decide (a < b)) rfl, fun h => h.branches (fun a b => decide (b ≤ a)) rfl,
    fun h => h.jal, fun h => h.jalr (yAddr_eq c w)⟩
  · rw [beq_toNat, decide_not]
  · rw [sLt_toNat, BitVec.slt, ← decide_not]
    exact decide_eq_decide.2 Int.not_lt

end Sys2Proof
end

section
/-! SUPPORT. CSRs of the Yard core (R170, Table 7.4): what a write stores, which numbers it does not reach, and which read 0. -/
namespace Sys2Proof.Machine

/-- A write reaches six CSRs; of the other numbers, read-only or undefined, none is changed. -/
theorem YcCtx.csrWrite_fixed (c : YcCtx) {n : Nat} (v : Nat) (h : [0x008, 0x009, 0x00A, 0x00D, 0x012, 0x013].contains n = false) :
    c.csrWrite n v = c := by
  simp only [List.contains_cons, List.contains_nil, Bool.or_false, Bool.or_eq_false_iff, beq_eq_false_iff_ne] at h
  obtain ⟨h8, h9, hA, hD, h12, h13⟩ := h
  rw [YcCtx.csrWrite]
  all_goals assumption

/-- A number that Table 7.4 does not define reads 0. -/
theorem csrRead_undefined (s : State) (y j : Nat) (c : YcCtx) {n : Nat}
    (h : (0x004 ≤ n ∧ n ≤ 0x007) ∨ n = 0x00E ∨ n = 0x00F ∨ 0x014 ≤ n) : csrRead s y j c n = 0 := by
  rw [csrRead]
  all_goals omega

@[simp] theorem YcCtx.csrWrite_st (c : YcCtx) (n v : Nat) : (c.csrWrite n v).st = c.st := by
  unfold YcCtx.csrWrite
  split <;> rfl

theorem YcCtx.csrWrite_scratch (c : YcCtx) (v : Nat) : c.csrWrite 0x00D v = { c with scratch := (toW v).toNat } := by
  rw [toNat_toW]
  rfl

/-- Setting bits, as words. -/
theorem toNat_toW_lor {a b : Nat} (ha : a < 2 ^ 64) (hb : b < 2 ^ 64) : (toW (Nat.lor a b)).toNat = (toW a ||| toW b).toNat := by
  rw [← toW_lor, toNat_toW a, toNat_toW b, Nat.mod_eq_of_lt ha, Nat.mod_eq_of_lt hb]

/-- Taking away the bits that two words share clears them. -/
theorem sub_and_eq_and_not (a b : W64) : a - (a &&& b) = a &&& ~~~b := by
  have hdisjoint : (a &&& ~~~b) &&& (a &&& b) = 0#64 := by
    ext i hi
    simp only [BitVec.getElem_and, BitVec.getElem_not, BitVec.getElem_zero]
    cases a[i] <;> cases b[i] <;> rfl
  have hjoin : (a &&& ~~~b) ||| (a &&& b) = a := by
    ext i hi
    simp only [BitVec.getElem_or, BitVec.getElem_and, BitVec.getElem_not]
    cases a[i] <;> cases b[i] <;> rfl
  have hsum : (a &&& ~~~b) + (a &&& b) = a := by rw [BitVec.add_eq_or_of_and_eq_zero _ _ hdisjoint, hjoin]
  exact (congrArg (· - (a &&& b)) hsum.symm).trans (BitVec.add_sub_cancel _ _)

/-- Clearing bits, as words. -/
theorem toNat_toW_clear {a b : Nat} (ha : a < 2 ^ 64) (hb : b < 2 ^ 64) : (toW (a - maskAnd a b)).toNat = (toW a &&& ~~~(toW b)).toNat := by
  have hand : toW (maskAnd a b) = toW a &&& toW b := by
    rw [← toW_land, toNat_toW a, toNat_toW b, Nat.mod_eq_of_lt ha, Nat.mod_eq_of_lt hb]
    rfl
  have hle : maskAnd a b ≤ a := Nat.and_le_left
  rw [← sub_and_eq_and_not, ← hand, toW, toW, toW, BitVec.ofNat_sub_ofNat_of_le _ _ (Nat.lt_of_le_of_lt hle ha) hle]

section
variable {s : State} {y : Yard} {r : YcReads} {j : Nat} {c c' : YcCtx} {w code n old : Nat}

/-- An instruction that writes a CSR; gd takes the old value where `rd`. -/
theorem State.AtInstr.writesCsr (h : s.AtInstr y r j c w code) (rd : Bool) (g : Nat → Nat → Nat) (hn : bits w 27 16 = n)
    (hold : csrRead s y.val j c n = old) (hc : c.csrWrite n (g old (c.get (bits w 15 11))) = c') :
    s.runs y r code (ycCsr rd fun o v => some (g o v)) =
      .next (s.retiring y j (if rd then c'.put (bits w 10 6) old else c').next) := by
  subst hn hold hc
  refine h.retires rfl ?_
  cases rd
  · exact (c.csrWrite_st _ _).trans h.running
  · exact ((YcCtx.put_st ..).trans (c.csrWrite_st _ _)).trans h.running

end

end Sys2Proof.Machine

namespace Sys2Proof
open Machine

/-- Settles O30: what each CSR stores, and the numbers that a write does not reach. -/
theorem yardCoreCsrs : Obligations.YardCoreCsrs := by
  unfold Obligations.YardCoreCsrs
  intro s y r j c w n a old gd fixed gives
  have ha : a < 2 ^ 64 := c.get_lt _
  refine ⟨fun h => h.gives rfl, fun h hn => h.writesCsr false (fun _ v => v) hn rfl rfl,
    fun h hn => h.writesCsr false (fun _ v => v) hn rfl ?_, fun h hn => h.writesCsr false (fun _ v => v) hn rfl ?_,
    fun h hn hs => h.writesCsr true Nat.lor hn rfl ?_, fun h hn hs => h.writesCsr true (fun o v => o - maskAnd o v) hn rfl ?_,
    fun h hf => h.writesCsr false (fun _ v => v) rfl rfl (c.csrWrite_fixed _ hf),
    fun h hf => h.writesCsr true Nat.lor rfl rfl (c.csrWrite_fixed _ hf),
    fun h hf => h.writesCsr true (fun o v => o - maskAnd o v) rfl rfl (c.csrWrite_fixed _ hf), fun hn => csrRead_undefined s y.val j c hn⟩
  · exact congrArg (fun v => { c with trapVec := v }) (Nat.mod_eq_of_lt ha)
  · exact congrArg (fun v => { c with scratch := v }) (Nat.mod_eq_of_lt ha)
  · exact (c.csrWrite_scratch _).trans (congrArg (fun v => { c with scratch := v }) (toNat_toW_lor hs ha))
  · exact (c.csrWrite_scratch _).trans (congrArg (fun v => { c with scratch := v }) (toNat_toW_clear hs ha))

end Sys2Proof
end

section
/-! SUPPORT. Yard cores and their contexts: reading back what an update wrote, and what leaves them alone. -/
namespace Sys2Proof.Machine

@[simp] theorem State.core_setCore_self (s : State) (y : Nat) (x : YcCore) : (s.setCore y x).core y = x := Tab.get_set_self ..

@[simp] theorem State.core_setCtx_self (s : State) (y j : Nat) (c : YcCtx) :
    (s.setCtx y j c).core y = { s.core y with ctxs := Tab.put (s.core y).ctxs j c } := Tab.get_set_self ..

@[simp] theorem State.core_clearCur_self (s : State) (y : Nat) : (s.clearCur y).core y = { s.core y with cur := none } := Tab.get_set_self ..

@[simp] theorem State.ctx_setCtx_self (s : State) (y j : Nat) (c : YcCtx) : (s.setCtx y j c).ctx y j = some c := by
  rw [State.ctx, State.core_setCtx_self, Tab.find?_put_self]

@[simp] theorem State.ctx_clearCur (s : State) (y j : Nat) : (s.clearCur y).ctx y j = s.ctx y j := by
  rw [State.ctx, State.core_clearCur_self, State.ctx]

theorem State.core_congr {s t : State} (h : t.cores = s.cores) (y : Nat) : t.core y = s.core y := by rw [State.core, State.core, h]

theorem State.ctx_congr {s t : State} (h : t.cores = s.cores) (y j : Nat) : t.ctx y j = s.ctx y j := by
  rw [State.ctx, State.ctx, State.core_congr h]

theorem OnlyRegs.cores {s t : State} (h : OnlyRegs s t) : t.cores = s.cores := by
  obtain ⟨r, o, rfl⟩ := h
  rfl

@[simp] theorem State.cores_bump (s : State) (a n : Nat) : (s.bump a n).cores = s.cores := (onlyRegs_bump s a n).cores

@[simp] theorem State.cores_event (s : State) (pg i : Nat) : (s.event pg i).cores = s.cores := (onlyRegs_event s pg i).cores

@[simp] theorem State.ctx_retiring_self (s : State) (y : Yard) (j : Nat) (c : YcCtx) :
    (s.retiring y j c).ctx y.val j = some { c with instret := satInc c.instret, st := .running } := State.ctx_setCtx_self ..

/-- An instruction that retires leaves its core but for the context. -/
theorem State.core_retiring (s : State) (y : Yard) (j : Nat) (c : YcCtx) : (s.retiring y j c).core y.val =
    { s.core y.val with ctxs := Tab.put (s.core y.val).ctxs j { c with instret := satInc c.instret, st := .running } } := by
  rw [State.retiring, State.core_setCtx_self, State.core_congr (s.cores_bump _ _)]

@[simp] theorem State.inboundOf_retiring (s : State) (y : Yard) (j : Nat) (c : YcCtx) (k : Nat) :
    (s.retiring y j c).inboundOf y.val k = s.inboundOf y.val k := by
  rw [State.inboundOf, State.core_retiring, State.inboundOf]

@[simp] theorem State.inboundOf_setCtx (s : State) (y j : Nat) (c : YcCtx) (k : Nat) : (s.setCtx y j c).inboundOf y k = s.inboundOf y k := by
  rw [State.inboundOf, State.core_setCtx_self, State.inboundOf]

@[simp] theorem State.inboundOf_setInbound_self (s : State) (y j : Nat) (q : List InTok) : (s.setInbound y j q).inboundOf y j = q := by
  rw [State.inboundOf, State.setInbound, State.core_setCore_self, Tab.get_set_self]

end Sys2Proof.Machine
end

section
/-! SUPPORT. Messages of the Yard core (R164, R174, R175): the entry of its inbound queue that RECV takes, the token that SEND makes, HALT. -/
namespace Sys2Proof.Machine

/-! ### The first index -/

theorem indexWhere_of_forall_not {α : Type} {p : α → Bool} {xs : List α} (h : ∀ x ∈ xs, ¬p x) : indexWhere p xs = none := by
  induction xs with
  | nil => rfl
  | cons x xs ih =>
    rw [indexWhere, if_neg (h x List.mem_cons_self), ih fun z hz => h z (List.mem_cons_of_mem x hz), Option.map_none]

theorem indexWhere_append {α : Type} {p : α → Bool} {pre : List α} {e : α} (post : List α) (hpre : ∀ x ∈ pre, ¬p x) (he : p e) :
    indexWhere p (pre ++ e :: post) = some pre.length := by
  induction pre with
  | nil => rw [List.nil_append, indexWhere, if_pos he, List.length_nil]
  | cons x pre ih =>
    rw [List.cons_append, indexWhere, if_neg (hpre x List.mem_cons_self), ih fun z hz => hpre z (List.mem_cons_of_mem x hz), Option.map_some,
      List.length_cons]

theorem dropAt_length_append {α : Type} (pre post : List α) (e : α) : dropAt (pre ++ e :: post) pre.length = pre ++ post := by
  rw [dropAt, List.eraseIdx_append_of_length_le (Nat.le_refl _), Nat.sub_self, List.eraseIdx_zero, List.tail_cons]

/-! ### RECV -/

/-- The entries that RECV of the channel and network in `v` takes. -/
def recvMatches (v : Nat) (e : InTok) : Bool := e.net == bits v 8 8 && e.tok.chan == bits v 7 0

theorem recvMatches_iff (v : Nat) (e : InTok) : recvMatches v e ↔ e.net = v / 2 ^ 8 % 2 ∧ e.tok.chan = v % 2 ^ 8 := by
  have hnet : bits v 8 8 = v / 2 ^ 8 % 2 := rfl
  have hchan : bits v 7 0 = v % 2 ^ 8 := congrArg (· % 2 ^ 8) (Nat.div_one v)
  rw [recvMatches, Bool.and_eq_true, beq_iff_eq, beq_iff_eq, hnet, hchan]

theorem recvFn_takes (s : State) (y j : Nat) (c : YcCtx) (w : Nat) (x : Ecc) {pre post : List InTok} {e : InTok}
    (hq : s.inboundOf y j = pre ++ e :: post) (hpre : ∀ x ∈ pre, ¬recvMatches (c.get (yGs1 w)) x) (he : recvMatches (c.get (yGs1 w)) e) :
    recvFn s y j c w x = .done { (c.put (yGd w) (recvPayload e.tok)).next with inValid := true, inHdr := e.tok.hdr.toNat }
      (s.setInbound y j (pre ++ post)) := by
  have hfirst := indexWhere_append post hpre he
  unfold recvMatches at hfirst
  have hentry : (pre ++ e :: post)[pre.length]? = some e := by
    rw [List.getElem?_append_right (Nat.le_refl _), Nat.sub_self, List.getElem?_cons_zero]
  rw [recvFn, hq]
  dsimp only
  rw [hfirst]
  dsimp only
  rw [hentry, dropAt_length_append]

theorem recvFn_empty (s : State) (y j : Nat) (c : YcCtx) (w : Nat) (x : Ecc) (h : ∀ e ∈ s.inboundOf y j, ¬recvMatches (c.get (yGs1 w)) e) :
    recvFn s y j c w x = if bit (yFn w) 0 then .done { c.next with inValid := false } s else .wait c s := by
  have hnone := indexWhere_of_forall_not h
  unfold recvMatches at hnone
  rw [recvFn]
  dsimp only
  rw [hnone]

/-! ### WAIT -/

theorem waitFn_cases (s : State) (y j : Nat) (c : YcCtx) (w : Nat) (x : Ecc) :
    (s.inboundOf y j ≠ [] ∧ waitFn s y j c w x = .done (c.put (yGd w) 1).next s) ∨
    (s.inboundOf y j = [] ∧ c.get (yGs1 w) ≤ s.now ∧ waitFn s y j c w x = .done (c.put (yGd w) 0).next s) ∨
    (s.inboundOf y j = [] ∧ s.now < c.get (yGs1 w) ∧ waitFn s y j c w x = .wait c s) := by
  rw [waitFn]
  rcases hq : s.inboundOf y j with _ | ⟨e, q⟩
  · rcases Nat.lt_or_ge s.now (c.get (yGs1 w)) with hnow | hnow
    · exact .inr (.inr ⟨rfl, hnow, if_neg (Nat.not_le.2 hnow)⟩)
    · exact .inr (.inl ⟨rfl, hnow, if_pos hnow⟩)
  · exact .inl ⟨List.cons_ne_nil e q, rfl⟩

/-! ### SEND -/

/-- The CTRL token that a halyard SEND without TAGIN makes of the values of gs1 and gs2 (R175). -/
def sentToken (j v pay : Nat) : Token :=
  { hdr := mkHdr j (v / 2 ^ 4 % 2 ^ 16) (v / 2 ^ 20 % 2 ^ 8) 1 (bit v 30), payload := pay % 2 ^ 56 }

theorem sendFn_halyard (s : State) (y j : Nat) (c : YcCtx) {w : Nat} (x : Ecc) (hforms : w / 2 ^ 21 % 4 = 1)
    (hkind : c.get (yGs1 w) / 2 ^ 28 % 4 = 1)
    (hop : sendOpcode (sentToken j (c.get (yGs1 w)) (c.get (yGs2 w))).opcode = true) :
    sendFn s y j c w x = if 16 ≤ (s.inQueue y 4 9).length then .wait c s else
      .done c.next ((s.setInQueue y 4 9 (s.inQueue y 4 9 ++ [sentToken j (c.get (yGs1 w)) (c.get (yGs2 w))])).progressY y) := by
  have hhal : bit (yFn w) 0 = true := by
    rw [bit_yFn w (by decide), Nat.testBit_eq_decide_div_mod_eq, decide_eq_true_eq]
    omega
  have htagin : bit (yFn w) 1 = false := by
    rw [bit_yFn w (by decide), Nat.testBit_eq_decide_div_mod_eq, decide_eq_false_iff_not]
    omega
  have hbits : bits (c.get (yGs1 w)) 29 28 = 1 := hkind
  rw [sendFn, hhal, htagin, hbits]
  refine if_neg ?_
  rintro (hother | ⟨-, hnot⟩)
  · exact hother rfl
  · exact absurd (hnot.symm.trans (congrArg not hop)) (by decide)

/-! ### HALT -/

theorem State.retire_halted (s : State) (y j : Nat) {c : YcCtx} (h : c.st = .halted) : ((s.retire y j c).core y).cur = none ∧
    (s.retire y j c).ctx y j = some { c with instret := satInc c.instret, shownPc := c.pc } := by
  rw [State.retire, if_pos h]
  constructor
  · rw [State.core_congr (State.cores_event ..), State.core_clearCur_self]
  · rw [State.ctx_congr (State.cores_event ..), State.ctx_clearCur, State.ctx_setCtx_self]

/-- HALT keeps the context, halted, and frees its core. -/
theorem State.AtInstr.halts {s : State} {y : Yard} {r : YcReads} {j : Nat} {c : YcCtx} {w code : Nat} (h : s.AtInstr y r j c w code) :
    Answers (s.runs y r code haltFn) fun t =>
    (t.core y.val).cur = none ∧ ∃ x, t.ctx y.val j = some x ∧ x.st = .halted ∧ x.pc = (c.pc + 4) % 2 ^ 18 := by
  obtain ⟨hcur, hctx⟩ := s.retire_halted y.val j (c := { c.next with st := .halted }) rfl
  exact ⟨_, congrArg Host.Outcome.next (h.run haltFn), hcur, _, hctx, rfl, rfl⟩

end Sys2Proof.Machine

namespace Sys2Proof
open Machine

/-- Settles O31: RECV, WAIT, SEND and HALT by what stands in the inbound queue and in the switch's. -/
theorem yardCoreMessages : Obligations.YardCoreMessages := by
  unfold Obligations.YardCoreMessages
  intro s y r j c w v q gd mine
  have hmine : ∀ {l : List InTok}, (∀ x ∈ l, ¬mine x) → ∀ x ∈ l, ¬recvMatches (c.get (yGs1 w)) x :=
    fun hl x hx hx' => hl x hx ((recvMatches_iff v x).1 hx')
  have hbit21 : bit (yFn w) 0 = decide (w / 2 ^ 21 % 2 = 1) := by
    rw [bit_yFn w (by decide), Nat.testBit_eq_decide_div_mod_eq]
  have hput : ∀ v, (c.put (yGd w) v).next.st = c.st := fun v => c.put_st _ v
  refine ⟨fun h pre e post hq hpre he => ?_, fun h hq hbit => ?_, fun h hq hbit => ?_, fun h hq => ?_, fun h hq hnow => ?_, fun h hq hnow => ?_,
    fun h hforms hkind => ?_, fun h => h.halts⟩
  · exact h.retires (recvFn_takes s y.val j c w r.data hq (hmine hpre) ((recvMatches_iff v e).2 he)) ((hput _).trans h.running)
  · refine h.waits ((recvFn_empty s y.val j c w r.data (hmine hq)).trans (if_neg ?_))
    rw [hbit21, hbit]
    decide
  · refine h.retires ((recvFn_empty s y.val j c w r.data (hmine hq)).trans (if_pos ?_)) h.running
    rw [hbit21, hbit]
    rfl
  · rcases waitFn_cases s y.val j c w r.data with ⟨-, hf⟩ | ⟨hnil, -⟩ | ⟨hnil, -⟩
    · exact h.gives hf
    · exact absurd hnil hq
    · exact absurd hnil hq
  · rcases waitFn_cases s y.val j c w r.data with ⟨hne, -⟩ | ⟨-, -, hf⟩ | ⟨-, hlater, -⟩
    · exact absurd hq hne
    · exact h.gives hf
    · exact absurd hnow (Nat.not_le.2 hlater)
  · rcases waitFn_cases s y.val j c w r.data with ⟨hne, -⟩ | ⟨-, hpast, -⟩ | ⟨-, -, hf⟩
    · exact absurd hq hne
    · exact absurd hnow (Nat.not_lt.2 hpast)
    · exact h.waits hf
  · intro t hop
    have hsend := sendFn_halyard s y.val j c r.data hforms hkind hop
    exact ⟨fun hroom => h.retires (hsend.trans (if_neg (Nat.not_le.2 hroom))) h.running, fun hfull => h.waits (hsend.trans (if_pos hfull))⟩

end Sys2Proof
end

section
/-! SUPPORT. Instructions of the Yard core that reach other parts: GETSUM (R174), REEFSEND (R176), ISSUE (R177), XFER (R179), TAKE and COMMIT
(R182, R183), TRET (R171). -/
namespace Sys2Proof.Machine

/-! ### GETSUM -/

/-- A token of the scalar network in the inbound queue. -/
def scalarEntry (t : Token) : InTok := { net := 0, tok := t, notice := false }

/-- Four tokens of one burst, the last marked, are the oldest burst of their channel. -/
theorem burstIdx_four {t0 t1 t2 t3 : Token} {ch : Nat} (hburst : ∀ t ∈ [t0, t1, t2, t3], t.chan = ch ∧ t.tag = t0.tag)
    (h0 : t0.last = false) (h1 : t1.last = false) (h2 : t2.last = false) (h3 : t3.last = true) :
    burstIdx ([t0, t1, t2, t3].map scalarEntry) ch = some [0, 1, 2, 3] := by
  simp only [List.mem_cons, List.not_mem_nil, or_false, forall_eq_or_imp, forall_eq] at hburst
  obtain ⟨⟨hc0, -⟩, ⟨hc1, hg1⟩, ⟨hc2, hg2⟩, hc3, hg3⟩ := hburst
  simp [burstIdx, scalarEntry, List.range_succ, indexWhere, hc0, hc1, hc2, hc3, hg1, hg2, hg3, h0, h1, h2, h3]

/-- The context that GETSUM of the burst `t0` to `t3` leaves. -/
def YcCtx.summed (c : YcCtx) (gd : Nat) (t0 t1 t2 t3 : Token) : YcCtx :=
  { ((((c.put gd t0.payload).put (gd + 1) t1.payload).put (gd + 2) t2.payload).put (gd + 3) t3.payload).next with
    status := setBit c.status 1 false }

theorem YcCtx.summed_get (c : YcCtx) (gd : Nat) (t0 t1 t2 t3 : Token) :
    (gd ≠ 0 → (c.summed gd t0 t1 t2 t3).get gd = t0.payload % 2 ^ 64) ∧ (c.summed gd t0 t1 t2 t3).get (gd + 1) = t1.payload % 2 ^ 64 ∧
      (c.summed gd t0 t1 t2 t3).get (gd + 2) = t2.payload % 2 ^ 64 ∧ (c.summed gd t0 t1 t2 t3).get (gd + 3) = t3.payload % 2 ^ 64 := by
  have hregs : ∀ i, (c.summed gd t0 t1 t2 t3).get i =
      ((((c.put gd t0.payload).put (gd + 1) t1.payload).put (gd + 2) t2.payload).put (gd + 3) t3.payload).get i := fun i => rfl
  refine ⟨fun hgd => ?_, ?_, ?_, ?_⟩
  · rw [hregs, YcCtx.get_put_ne _ _ _ _ (by omega), YcCtx.get_put_ne _ _ _ _ (by omega), YcCtx.get_put_ne _ _ _ _ (by omega),
      YcCtx.get_put_self _ _ _ hgd]
  · rw [hregs, YcCtx.get_put_ne _ _ _ _ (by omega), YcCtx.get_put_ne _ _ _ _ (by omega), YcCtx.get_put_self _ _ _ (by omega)]
  · rw [hregs, YcCtx.get_put_ne _ _ _ _ (by omega), YcCtx.get_put_self _ _ _ (by omega)]
  · rw [hregs, YcCtx.get_put_self _ _ _ (by omega)]

@[simp] theorem YcCtx.put_inValid (c : YcCtx) (i v : Nat) : (c.put i v).inValid = c.inValid := by
  unfold YcCtx.put; split <;> rfl

@[simp] theorem YcCtx.put_inHdr (c : YcCtx) (i v : Nat) : (c.put i v).inHdr = c.inHdr := by
  unfold YcCtx.put; split <;> rfl

/-- GETSUM writes registers and PC alone, and a bit of STATUS. -/
theorem YcCtx.summed_frame (c : YcCtx) (gd : Nat) (t0 t1 t2 t3 : Token) : (c.summed gd t0 t1 t2 t3).st = c.st ∧
    (c.summed gd t0 t1 t2 t3).inValid = c.inValid ∧ (c.summed gd t0 t1 t2 t3).inHdr = c.inHdr ∧
    (c.summed gd t0 t1 t2 t3).pc = (c.pc + 4) % 2 ^ 18 := by
  simp [YcCtx.summed, YcCtx.next]

theorem getsumFn_four {s : State} {y j : Nat} {c : YcCtx} {w : Nat} (x : Ecc) {t0 t1 t2 t3 : Token}
    (hq : s.inboundOf y j = [t0, t1, t2, t3].map scalarEntry)
    (hburst : ∀ t ∈ [t0, t1, t2, t3], t.chan = c.get (yGs1 w) % 256 ∧ t.tag = t0.tag ∧ t.kind = 0)
    (h0 : t0.last = false) (h1 : t1.last = false) (h2 : t2.last = false) (h3 : t3.last = true) :
    let c1 : YcCtx := { c with inValid := true, inHdr := t3.hdr.toNat }
    getsumFn s y j c w x = .done (c1.summed (yGd w) t0 t1 t2 t3) ((s.setInbound y j []).setCtx y j c1) := by
  intro c1
  have hidx := burstIdx_four (ch := c.get (yGs1 w) % 256) (fun t ht => ⟨(hburst t ht).1, (hburst t ht).2.1⟩) h0 h1 h2 h3
  have hdata : [t0, t1, t2, t3].all (·.kind == 0) = true := by
    rw [List.all_eq_true]
    exact fun t ht => beq_iff_eq.2 (hburst t ht).2.2
  rw [getsumFn, hq]
  dsimp only
  rw [hidx]
  exact if_pos hdata

/-! ### Requests to HBM -/

/-- Requests that join the accesses of the slices change nothing else. -/
theorem foldl_toSlice_cases {α : Type} (f : α → MemReq) (l : List α) (s : State) :
    ∃ sl, l.foldl (fun (t : State) a => t.toSlice (f a)) s = { s with slices := sl } := by
  induction l generalizing s with
  | nil => exact ⟨s.slices, rfl⟩
  | cons a l ih =>
    obtain ⟨sl, h⟩ := ih (s.toSlice (f a))
    exact ⟨sl, h⟩

/-- An XFER enters flight under a fresh number, and waits for the answers to its lines. -/
theorem State.startXfer_cases (s : State) (y j : Nat) (x : Xfer) : ∃ sl, s.startXfer y j x =
    ({ x with id := s.freeCtr + 1 },
     { s with freeCtr := s.freeCtr + 1, slices := sl,
              askers := Tab.put s.askers (askKey (.xfer (s.freeCtr + 1))) (s.freeCtr + 1, (joinLines (cutLines x.hbm x.left)).length) }) := by
  obtain ⟨sl, h⟩ := foldl_toSlice_cases
    (({ part := (s.partOfYard y).getD 8, cls := 3, job := j } : HbmUser).req 64 (askKey (.xfer (s.freeCtr + 1))) (s.freeCtr + 1) x.toHbm)
    (joinLines (cutLines x.hbm x.left))
    { s with freeCtr := s.freeCtr + 1,
             askers := Tab.put s.askers (askKey (.xfer (s.freeCtr + 1))) (s.freeCtr + 1, (joinLines (cutLines x.hbm x.left)).length) }
  exact ⟨sl, congrArg _ h⟩

/-! ### Words -/

/-- The number, if there is one, is of an instruction of `op`. -/
def ShowsOp (op : Nat) (n : Option Nat) : Prop := ∀ k, n = some k → k % 64 = op

theorem showsOp_none (op : Nat) : ShowsOp op none := fun _ h => nomatch h

theorem showsOp_num {op : Nat} (h : op < 64) (sub : Nat) : ShowsOp op (some (ycNum op sub)) := by
  rintro k ⟨⟩
  unfold ycNum
  omega

theorem showsOp_ite {op : Nat} {p : Prop} [Decidable p] {a b : Option Nat} (ha : ShowsOp op a) (hb : ShowsOp op b) :
    ShowsOp op (if p then a else b) := by
  split
  · exact ha
  · exact hb

/-- Every row of Table 7.3 keeps its OP in its number. -/
theorem ycCode_showsOp (w : Nat) : ShowsOp (bits w 5 0) (ycCode w) := by
  have hnum := showsOp_num (bits_lt w 5 0)
  have honly : ∀ (ok : Bool) (sub : Nat), ShowsOp (bits w 5 0) (if ok then some (ycNum (bits w 5 0) sub) else none) :=
    fun _ sub => showsOp_ite (hnum sub) (showsOp_none _)
  unfold ycCode
  exact showsOp_ite (honly _ _) <| showsOp_ite (hnum _) <| showsOp_ite (honly _ _) <| showsOp_ite (honly _ _) <| showsOp_ite (hnum _) <|
    showsOp_ite (honly _ _) <| showsOp_ite (honly _ _) <| showsOp_ite (honly _ _) <| showsOp_ite (honly _ _) <| showsOp_ite (honly _ _) <|
    showsOp_ite (honly _ _) <| showsOp_none _

/-- FN of an XFER is its form: 0 to local memory, 1 to HBM. -/
theorem yFn_of_xfer {w k : Nat} (h : ycCode w = some (ycNum 0x2E k)) : yFn w = k := by
  have hop : bits w 5 0 = 0x2E := by
    rw [← ycCode_showsOp w _ h, ycNum]
    omega
  have hform : ycCode w = if yFn w < 2 then some (ycNum 0x2E (yFn w)) else none := by simp [ycCode, hop]
  rw [hform] at h
  split at h
  · have hnum : ycNum 0x2E (yFn w) = ycNum 0x2E k := Option.some.inj h
    unfold ycNum at hnum
    omega
  · cases h

/-! ### The instructions -/

section
variable {s : State} {y : Yard} {r : YcReads} {j : Nat} {c : YcCtx} {w code : Nat}

theorem State.AtInstr.getsum (h : s.AtInstr y r j c w code) {t0 t1 t2 t3 : Token} (hq : s.inboundOf y.val j = [t0, t1, t2, t3].map scalarEntry)
    (hburst : ∀ t ∈ [t0, t1, t2, t3], t.chan = c.get (bits w 15 11) % 256 ∧ t.tag = t0.tag ∧ t.kind = 0)
    (h0 : t0.last = false) (h1 : t1.last = false) (h2 : t2.last = false) (h3 : t3.last = true) :
    Answers (s.runs y r code getsumFn) fun t => t.inboundOf y.val j = [] ∧ ∃ x, t.ctx y.val j = some x ∧
      (bits w 10 6 ≠ 0 → x.get (bits w 10 6) = t0.payload % 2 ^ 64) ∧ x.get (bits w 10 6 + 1) = t1.payload % 2 ^ 64 ∧
      x.get (bits w 10 6 + 2) = t2.payload % 2 ^ 64 ∧ x.get (bits w 10 6 + 3) = t3.payload % 2 ^ 64 ∧ x.inValid = true ∧
      x.inHdr = t3.hdr.toNat ∧ x.pc = (c.pc + 4) % 2 ^ 18 := by
  obtain ⟨hg0, hg1, hg2, hg3⟩ := YcCtx.summed_get { c with inValid := true, inHdr := t3.hdr.toNat } (bits w 10 6) t0 t1 t2 t3
  obtain ⟨hst, hvalid, hhdr, hpc⟩ := YcCtx.summed_frame { c with inValid := true, inHdr := t3.hdr.toNat } (bits w 10 6) t0 t1 t2 t3
  refine ⟨_, h.retires (getsumFn_four r.data hq hburst h0 h1 h2 h3) (hst.trans h.running), ?_, _, State.ctx_retiring_self ..,
    hg0, hg1, hg2, hg3, hvalid, hhdr, hpc⟩
  rw [State.inboundOf_retiring, State.inboundOf_setCtx, State.inboundOf_setInbound_self]

theorem State.AtInstr.issues (h : s.AtInstr y r j c w code) (hok : s.ycOk y.val j (c.get (bits w 15 11)) 80 = true) (hdata : r.data = .ok) :
    s.runs y r code issueFn = .next ((s.handRecord ((s.partOfYard y.val).getD 0)
      (parseStart j (.core y.val) ((s.local_ y.val).read (c.get (bits w 15 11)) 80))).retiring y j c.next) := by
  refine h.retires ?_ h.running
  rw [issueFn, yGs1, hok, hdata]
  rfl

/-- The record of a REEFSEND at local address `a`, with its header. -/
def State.reefRecord (s : State) (y a : Nat) : List Byte := (s.local_ y).read a (16 + (s.local_ y).readNat (a + 12) 2)

theorem State.AtInstr.reefsends (h : s.AtInstr y r j c w code) {a : Nat} (ha : c.get (bits w 15 11) = a) (hhead : s.ycOk y.val j a 16 = true)
    (hok : s.ycOk y.val j a (16 + (s.local_ y.val).readNat (a + 12) 2) = true) (hdata : r.data = .ok)
    (hyard : fieldOf (s.reefRecord y.val a) 0 1 = y.val) (hunit : fieldOf (s.reefRecord y.val a) 1 1 ≤ 37)
    (hroom : (s.core y.val).streamer.length < 4) : ∃ x, s.runs y r code reefsendFn =
      .next (({ s with freeCtr := s.freeCtr + 1 }.setCore y.val
        { s.core y.val with streamer := (s.core y.val).streamer ++ [x] }).retiring y j c.next) := by
  subst ha
  have hrecord : ¬(fieldOf (s.reefRecord y.val (c.get (yGs1 w))) 0 1 ≠ y.val ∨ 37 < fieldOf (s.reefRecord y.val (c.get (yGs1 w))) 1 1) :=
    not_or.2 ⟨(· hyard), Nat.not_lt.2 hunit⟩
  refine ⟨{ job := j, unit := fieldOf (s.reefRecord y.val (c.get (yGs1 w))) 1 1,
            toks := reefToks j (Config.freeWord (s.freeCtr + 1)).toNat (s.reefRecord y.val (c.get (yGs1 w))) },
    h.retires (c' := c.next) ?_ h.running⟩
  unfold State.reefRecord at hrecord
  rw [reefsendFn, yGs1]
  dsimp only
  rw [hhead, hok, hdata]
  exact (if_neg hrecord).trans (if_neg (Nat.not_le.2 hroom))

/-- An XFER of a good length, within reach and the extents, with fewer than four in flight. -/
theorem State.AtInstr.xfers (h : s.AtInstr y r j c w code) {n a hbm : Nat} {out : Bool} (hn : c.get (bits w 10 6) = n)
    (ha : c.get (bits w 15 11) = a) (hhbm : c.get (bits w 20 16) = hbm) (hout : bit (yFn w) 0 = out) (hmin : 16 ≤ n) (hmax : n ≤ 65536)
    (halign : n % 16 = 0) (hreach : s.reach ((s.partOfYard y.val).getD 0) hbm n = true) (hok : s.ycOk y.val j a n = true)
    (hroom : c.xfers.length < 4) :
    let z := s.startXfer y.val j { loc := a, hbm := hbm, left := n, toHbm := out }
    s.runs y r code xferFn = .next (z.2.retiring y j { c.next with xfers := c.xfers ++ [z.1] }) := by
  intro z
  subst hn ha hhbm hout
  refine h.retires ?_ h.running
  have hgood : ¬(c.get (yGd w) < 16 ∨ 65536 < c.get (yGd w) ∨ c.get (yGd w) % 16 ≠ 0 ∨
      (!s.reach ((s.partOfYard y.val).getD 0) (c.get (yGs2 w)) (c.get (yGd w))) = true) := by
    rw [yGd, yGs2, hreach]
    simp only [not_or, Bool.not_true, Bool.false_eq_true, not_false_eq_true, and_true]
    omega
  have hinside : ¬(!s.ycOk y.val j (c.get (yGs1 w)) (c.get (yGd w))) = true := by
    rw [yGs1, yGd, hok]
    decide
  rw [xferFn]
  dsimp only
  rw [if_neg hgood, if_neg hinside, if_neg (Nat.not_le.2 hroom)]
  rfl

/-- The request of a TAKE or COMMIT of counter `n` to the counter block. -/
def YcCtx.request (c : YcCtx) (y j w : Nat) (commit : Bool) (n : Nat) : WcReq :=
  { y := y, job := j, commit := commit, counter := n, handle := c.get (bits w 15 11) % 2 ^ 28, gd := bits w 10 6, pc := c.pc }

/-- A TAKE or COMMIT of a counter the job may use asks the counter block and waits. -/
theorem State.AtInstr.asks (h : s.AtInstr y r j c w code) (commit : Bool) {n : Nat}
    (hn : c.get (if commit then bits w 20 16 else bits w 15 11) % 1024 = n) (hallowed : s.wcAllowed y.val j n = true) :
    Answers (s.runs y r code (askFn commit)) fun t => t.wcQ = s.wcQ ++ [c.request y.val j w commit n] ∧
      ∃ x, t.ctx y.val j = some x ∧ x.st = .blocked ∧ x.asked = true := by
  subst hn
  have hask : askFn commit s y.val j c w r.data = .wait { c with asked := true }
      { s with wcQ := s.wcQ ++ [c.request y.val j w commit (c.get (if commit then bits w 20 16 else bits w 15 11) % 1024)] } := by
    rw [askFn, yGs1, yGs2, hallowed]
    rfl
  exact ⟨_, h.waits hask, rfl, _, State.ctx_setCtx_self .., rfl, rfl⟩

/-- TRET with no trap held. -/
theorem State.AtInstr.trets (h : s.AtInstr y r j c w code) (hheld : c.held10 = none) :
    s.runs y r code tretFn = .next (s.retiring y j { c with pc := c.trapPc % 2 ^ 18, status := setBit c.status 0 false }) := by
  refine h.retires ?_ h.running
  rw [tretFn, YcCtx.takeHeld, hheld]

end

end Sys2Proof.Machine

namespace Sys2Proof
open Machine

/-- Settles O32: each instruction by what its function answers in a state where it can act. -/
theorem yardCoreReach : Obligations.YardCoreReach := by
  unfold Obligations.YardCoreReach
  intro s y r j c w v1 v2 gd part
  refine ⟨fun h t0 t1 t2 t3 => h.getsum, fun h => h.issues, fun h hhead hok hdata hyard hunit hroom => ?_,
    fun hmin hmax halign hreach hok hroom => ⟨fun h => ?_, fun h => ?_⟩, fun x => ?_, fun h hnone => ?_, fun h => h.asks false rfl,
    fun h => h.asks true rfl, fun h => h.trets⟩
  · obtain ⟨x, hnext⟩ := h.reefsends rfl hhead hok hdata hyard hunit hroom
    refine ⟨_, hnext, ?_, fun q hq => ?_, ⟨_, State.ctx_retiring_self .., rfl⟩, State.local_retiring ..⟩
    all_goals rw [State.core_retiring, State.core_setCore_self]
    · exact List.length_append
    · exact List.mem_append_left _ hq
  · have hform : bit (yFn w) 0 = false := by rw [yFn_of_xfer h.encodes]; rfl
    exact h.xfers rfl rfl rfl hform hmin hmax halign hreach hok hroom
  · have hform : bit (yFn w) 0 = true := by rw [yFn_of_xfer h.encodes]; rfl
    exact h.xfers rfl rfl rfl hform hmin hmax halign hreach hok hroom
  · obtain ⟨sl, hstart⟩ := s.startXfer_cases y.val j x
    intro z
    have hz : z = _ := hstart
    rw [hz]
    exact ⟨rfl, rfl, rfl, rfl, rfl, rfl, rfl, Tab.find?_put_self ..⟩
  · exact h.retires (if_pos (List.isEmpty_iff.2 hnone)) h.running

end Sys2Proof
end

section
/-! SUPPORT. The block around the Yard core: its port (R173), the reef streamer (R176), the end of an XFER (R179), the counter block (R182, R184,
R185), and the end of a wait (R164). -/
namespace Sys2Proof.Machine

/-! ### Time -/

theorem State.tick_live (s : State) (dt : Nat) : (s.tick dt).live = s.live := by
  have hreg : (s.tick dt).reg (pgBare + 0x100) = s.reg (pgBare + 0x100) :=
    s.tick_reg dt (by decide) (by decide) (by decide) (by decide)
  rw [State.live, State.live, State.stage, State.stage, State.fld_congr hreg]

@[simp] theorem State.tick_cores (s : State) (dt : Nat) : (s.tick dt).cores = s.cores := by
  obtain ⟨r, o, lim, slew, held, htick⟩ := s.tick_cases dt
  rw [htick]

@[simp] theorem State.tick_leases (s : State) (dt : Nat) : (s.tick dt).leases = s.leases := by
  obtain ⟨r, o, lim, slew, held, htick⟩ := s.tick_cases dt
  rw [htick]

/-! ### Port 4 and the streamer -/

theorem State.offer_setOffer_self (s : State) (y p l : Nat) (t : Token) : (s.setOffer y p l t).offer y p l = some t := by
  rw [State.offer, State.setOffer, State.switch, State.setSwitch, Tab.get_set_self, Tab.find?_put_self]

@[simp] theorem State.cores_setOffer (s : State) (y p l : Nat) (t : Token) : (s.setOffer y p l t).cores = s.cores := rfl

/-- Progress leaves offers and cores alone. -/
theorem State.progressY_offer (s : State) (y a p l : Nat) : (s.progressY y).offer a p l = s.offer a p l := by
  obtain ⟨m, h⟩ := s.progressY_cases y
  rw [h]
  rfl

@[simp] theorem State.cores_progressY (s : State) (y : Nat) : (s.progressY y).cores = s.cores := by
  obtain ⟨m, h⟩ := s.progressY_cases y
  rw [h]

/-- Port 4 takes a good scalar or halyard token for which its job's queue has room. -/
theorem execYcInboundToken_takes {s : State} {y : Yard} {lane : Lane} {t : Token} (hlive : s.live = true)
    (hoffer : s.offer y.val 4 (laneCode lane) = some t) (hnet : laneNet (laneCode lane) ≠ 0) (hgood : destError (laneNet (laneCode lane)) t = none)
    (hfabric : ((s.inboundOf y.val t.job).filter fun e => !e.notice).length < 120) (hroom : (s.inboundOf y.val t.job).length < 128) :
    execYcInboundToken y lane 0 s = .next (((s.takeOffer y.val 4 (laneCode lane)).enqueueIn y.val t.job
      { net := laneNet (laneCode lane) - 1, tok := t, notice := false }).progressY y.val) := by
  have hflip : ({ t with hdr := t.hdr ^^^ 0 } : Token) = t := congrArg (fun h => ({ t with hdr := h } : Token)) BitVec.xor_zero
  have hspace : ¬(120 ≤ ((s.inboundOf y.val t.job).filter fun e => !e.notice).length ∨ 128 ≤ (s.inboundOf y.val t.job).length) :=
    not_or.2 ⟨Nat.not_le.2 hfabric, Nat.not_le.2 hroom⟩
  rw [execYcInboundToken, State.whenLive_of_live hlive]
  dsimp only
  rw [hoffer]
  dsimp only
  rw [hflip, hgood]
  dsimp only
  rw [if_neg hnet, if_neg hspace]

/-- The oldest streamed record sends its next token to its unit. -/
theorem execReefStreamerSend_sends {s : State} {y : Yard} {q : StreamRec} {rest : List StreamRec} {t : Token} {ts : List Token}
    (hlive : s.live = true) (hq : (s.core y.val).streamer = q :: rest) (ht : q.toks = t :: ts) (hfree : s.offer y.val (8 + q.unit) 9 = none) :
    execReefStreamerSend y s = .next (((s.setCore y.val
      { s.core y.val with streamer := if ts = [] then rest else { q with toks := ts } :: rest }).setOffer y.val (8 + q.unit) 9 t).progressY y.val) := by
  rw [execReefStreamerSend, State.whenLive_of_live hlive]
  dsimp only
  rw [hq]
  dsimp only
  rw [ht]
  dsimp only
  rw [hfree]
  simp only [List.isEmpty_iff]
  rfl

/-! ### The end of an XFER -/

theorem execXferComplete_ends {s : State} {y : Yard} {j : JobId} {i : Fin 4} {c : YcCtx} {x : Xfer} (e : Ecc) (hlive : s.live = true)
    (hctx : s.ctx y.val j.val = some c) (hframe : c.inFrame = false) (hx : c.xfers[i.val]? = some x)
    (hserved : s.served (askKey (.xfer x.id)) = true) :
    execXferComplete y j (i, e) s = .next (s.xferEnd y.val j.val i.val c x e) := by
  rw [execXferComplete, State.whenLive_of_live hlive]
  dsimp only
  rw [hctx]
  dsimp only
  rw [hframe]
  rw [if_neg (by decide), hx]
  dsimp only
  rw [if_pos hserved]

theorem State.xferEnd_toHbm (s : State) (y j i : Nat) (c : YcCtx) {x : Xfer} (h : x.toHbm = true) : s.xferEnd y j i c x .ok =
    ((({ s with hbm := s.hbm.write x.hbm ((s.local_ y).read x.loc x.left) } : State).dropAsk (askKey (.xfer x.id))).setCtx y j
      { c with xfers := dropAt c.xfers i }) := by
  rw [State.xferEnd, h]
  dsimp only [State.eccRead]
  rw [if_pos rfl]
  dsimp only
  rw [State.xferBytes, h, if_pos rfl]

theorem State.xferEnd_toLocal (s : State) (y j i : Nat) (c : YcCtx) {x : Xfer} (e : Ecc) (h : x.toHbm = false) : s.xferEnd y j i c x e =
    (((s.setLocal y ((s.local_ y).write x.loc (s.hbm.read x.hbm x.left))).dropAsk (askKey (.xfer x.id))).setCtx y j
      { c with xfers := dropAt c.xfers i }) := by
  rw [State.xferEnd, h]
  rw [if_neg (by decide)]
  dsimp only
  rw [State.xferBytes, h, if_neg (by decide)]

theorem State.xferEnd_bad (s : State) (y j i : Nat) {c : YcCtx} {x : Xfer} (h : x.toHbm = true) (hst : c.st ≠ .faulted) :
    s.xferEnd y j i c x .bad = s.ycFault y j c 8 x.loc := by
  rw [State.xferEnd, h]
  dsimp only [State.eccRead]
  rw [if_pos rfl]
  dsimp only
  rw [if_neg hst]

/-! ### The counter block -/

/-- A TAKE of an unleased counter with work left returns NEXT and moves it. -/
theorem State.wcTake_unleased (s : State) (y : Nat) {k : Nat} (hleased : bit (s.wcWord k 1) 62 = false)
    (hwork : bits (s.wcWord k 0) 31 0 < bits (s.wcWord k 0) 63 32) : s.wcTake y k = (bits (s.wcWord k 0) 31 0, s.advanceWc k) := by
  rw [State.wcTake, hleased]
  dsimp only
  rw [if_neg (by decide)]
  dsimp only
  exact (if_neg (Nat.not_le.2 hwork)).trans (if_pos rfl)

/-- The block serves a TAKE with work left, and the instruction that waits for it retires. -/
theorem State.wcServe_take {s : State} {q : WcReq} {rest : List WcReq} {c : YcCtx} (hq : s.wcQ = q :: rest) (htake : q.commit = false)
    (hctx : s.ctx q.y q.job = some c) (hasked : c.asked = true) (hleased : bit (s.wcWord q.counter 1) 62 = false)
    (hwork : bits (s.wcWord q.counter 0) 31 0 < bits (s.wcWord q.counter 0) 63 32) :
    s.wcServe = (({ s with wcQ := rest } : State).advanceWc q.counter).retire q.y q.job
      { (c.put q.gd (bits (s.wcWord q.counter 0) 31 0)).next with asked := false } := by
  have hserved := State.wcTake_unleased { s with wcQ := rest } q.y hleased hwork
  have hkept : (({ s with wcQ := rest } : State).advanceWc q.counter).ctx q.y q.job = some c := hctx
  rw [State.wcServe, hq]
  dsimp only
  rw [htake, if_neg (by decide), hserved]
  dsimp only
  rw [hkept]
  dsimp only
  rw [if_pos hasked]
  rfl

/-- What LEASE_TIMEOUT makes of an entry of the leases. -/
def State.timedOut (s : State) (e : Nat × Lease) : Nat × Lease :=
  let late := bits (s.wcWord e.2.counter 1) 31 0
  if e.2.st = .held ∧ late ≠ 0 ∧ e.2.t + late * 1000 < s.now then (e.1, { e.2 with st := .reissue }) else e

theorem execLeaseTimeout_next {s : State} (dt : Nat) (hlive : s.live = true) :
    execLeaseTimeout dt s = .next { s.tick dt with leases := s.leases.map (s.tick dt).timedOut } := by
  rw [execLeaseTimeout, State.whenLive_of_live ((s.tick_live dt).trans hlive), State.tick_leases]
  rfl

/-- A write of LIMIT and NEXT of a counter of the writer's partition. -/
theorem State.wcWrite_limit (s : State) {y w k : Nat} (hk : s.fld (pgCore y + 0x200) 9 0 = k) (hword : s.fld (pgCore y + 0x200) 17 16 = 0)
    (hmine : s.partOfYard y = some (bits (s.wcWord k 1) 61 59)) :
    s.wcWrite y w (2 ^ 64 - 1) = (s.setWcWord k 0 (mergeBits (s.wcWord k 0) w (2 ^ 64 - 1))).freeLeases k := by
  have hown : ¬(bit (s.wcWord k 1) 63 && !(s.partOfYard y == some (bits (s.wcWord k 1) 61 59))) = true := by
    rw [hmine, beq_self_eq_true, Bool.not_true, Bool.and_false]
    decide
  rw [State.wcWrite, hk, hword]
  exact (if_neg hown).trans (if_pos (by decide))

theorem execWcDataWrite_limit {s : State} {acc : Acc} {y : Yard} (w : W64) {k : Nat}
    (hopen : s.Open acc (pgCore y.val + 0x208)) (hsize : acc.size = 8) (hidle : s.wcQ = []) (hk : s.fld (pgCore y.val + 0x200) 9 0 = k) (hword : s.fld (pgCore y.val + 0x200) 17 16 = 0)
    (hmine : s.partOfYard y.val = some (bits (s.wcWord k 1) 61 59)) :
    execWcDataWrite acc y w s = .next ((s.setWcWord k 0 (mergeBits (s.wcWord k 0) w.toNat (2 ^ 64 - 1))).freeLeases k) := by
  have hmask : accMask acc = 2 ^ 64 - 1 := if_pos hsize
  rw [execWcDataWrite, State.hostWrite_of_open hopen, hidle, hmask]
  exact congrArg Host.Outcome.next (s.wcWrite_limit hk hword hmine)

/-! ### The end of a wait -/

/-- With no trap due a context goes on as it is. -/
theorem YcCtx.takeDue_of_none {c : YcCtx} (h : c.due10 = none) : c.takeDue = c := by
  rw [YcCtx.takeDue, h]

/-- An instruction that waited retires; with no trap due its context runs on. -/
theorem State.ctx_retire_blocked (s : State) (y j : Nat) {c : YcCtx} (hst : c.st = .blocked) (hdue : c.due10 = none) :
    (s.retire y j c).ctx y j = some { c with instret := satInc c.instret, st := .running } := by
  have hgoes : ({ c with instret := satInc c.instret } : YcCtx).takeDue = { c with instret := satInc c.instret } := YcCtx.takeDue_of_none hdue
  rw [State.retire, if_neg (by rw [hst]; decide), if_pos hst, State.ctx_setCtx_self, hgoes]

@[simp] theorem YcCtx.put_due10 (c : YcCtx) (i v : Nat) : (c.put i v).due10 = c.due10 := by
  unfold YcCtx.put; split <;> rfl

theorem waitingFn_wait {w : Nat} (h : bits w 5 0 = 0x2B) : waitingFn w = waitFn := by
  rw [waitingFn, h]
  rfl

/-- A waiting instruction of the context on the core tries again. -/
theorem execYcWake_tries {s : State} (dt : Nat) {y : Yard} (r : YcReads) {j : Nat} {c : YcCtx} (hlive : s.live = true)
    (hcur : (s.core y.val).cur = some j) (hctx : s.ctx y.val j = some c) (hst : c.st = .blocked) (hasked : c.asked = false) :
    execYcWake dt y r s = .next ((waitingFn c.word (s.tick dt) y.val j c c.word r.data).settle y.val j c c.word) := by
  have hwaits : c.st = .blocked ∧ (!c.asked) = true := ⟨hst, congrArg not hasked⟩
  rw [execYcWake, State.whenLive_of_live ((s.tick_live dt).trans hlive)]
  rw [State.core_congr (s.tick_cores dt), hcur]
  dsimp only
  rw [State.ctx_congr (s.tick_cores dt), hctx]
  dsimp only
  rw [if_pos hwaits]

/-- A WAIT wakes where an entry stands in the queue. -/
theorem execYcWake_wait {s : State} (dt : Nat) {y : Yard} (r : YcReads) {j : Nat} {c : YcCtx} (hlive : s.live = true)
    (hcur : (s.core y.val).cur = some j) (hctx : s.ctx y.val j = some c) (hst : c.st = .blocked) (hasked : c.asked = false)
    (hword : bits c.word 5 0 = 0x2B) (hq : s.inboundOf y.val j ≠ []) (hdue : c.due10 = none) : Answers (execYcWake dt y r s) fun u =>
      ∃ x, u.ctx y.val j = some x ∧ x.st = .running ∧ (bits c.word 10 6 ≠ 0 → x.get (bits c.word 10 6) = 1) ∧ x.pc = (c.pc + 4) % 2 ^ 18 := by
  have hdone : waitFn (s.tick dt) y.val j c c.word r.data = .done (c.put (yGd c.word) 1).next (s.tick dt) := by
    have hqueue : (s.tick dt).inboundOf y.val j = s.inboundOf y.val j := by
      rw [State.inboundOf, State.inboundOf, State.core_congr (s.tick_cores dt)]
    rcases waitFn_cases (s.tick dt) y.val j c c.word r.data with ⟨-, hf⟩ | ⟨hnil, -⟩ | ⟨hnil, -⟩
    · exact hf
    · exact absurd (hqueue.symm.trans hnil) hq
    · exact absurd (hqueue.symm.trans hnil) hq
  refine ⟨_, execYcWake_tries dt r hlive hcur hctx hst hasked, ?_⟩
  rw [waitingFn_wait hword, hdone, YcRes.settle]
  refine ⟨_, State.ctx_retire_blocked _ _ _ ((c.put_st _ _).trans hst) ((c.put_due10 _ _).trans hdue), rfl, fun hgd => ?_, ?_⟩
  · exact (c.get_put_self _ 1 hgd).trans (Nat.mod_eq_of_lt (by decide))
  · exact congrArg (fun p => (p + 4) % 2 ^ 18) (c.put_pc _ _)

end Sys2Proof.Machine

namespace Sys2Proof
open Machine

/-- Settles O33: each command of the block by the case in which it acts. -/
theorem yardCoreBlock : Obligations.YardCoreBlock := by
  unfold Obligations.YardCoreBlock
  intro s y hlive
  refine ⟨fun lane t hoffer hnet hgood hfabric hroom => execYcInboundToken_takes hlive hoffer hnet hgood hfabric hroom,
    fun q rest t ts hq ht hfree => ?_, fun j i c x hctx hframe hx hserved => ?_, fun q rest c hq htake hctx hasked hleased hwork => ?_,
    fun dt => ?_, fun acc w hopen hsize hidle hword hmine => execWcDataWrite_limit w hopen hsize hidle rfl hword hmine,
    fun r j c hcur hctx hst hasked hword hq hdue => execYcWake_wait 0 r hlive hcur hctx hst hasked hword hq hdue⟩
  · refine ⟨_, execReefStreamerSend_sends hlive hq ht hfree, ?_, ?_⟩
    · rw [State.progressY_offer, State.offer_setOffer_self]
    · rw [State.core_congr (State.cores_progressY ..), State.core_congr (State.cores_setOffer ..), State.core_setCore_self]
  · have hend := fun e => execXferComplete_ends e hlive hctx hframe hx hserved
    intro free
    exact ⟨fun hout => (hend .ok).trans (congrArg _ (s.xferEnd_toHbm _ _ _ _ hout)),
      fun e hin => (hend e).trans (congrArg _ (s.xferEnd_toLocal _ _ _ _ e hin)),
      fun hout hfaulted => (hend .bad).trans (congrArg _ (s.xferEnd_bad _ _ _ hout hfaulted))⟩
  · have hserve := State.wcServe_take hq htake hctx hasked hleased hwork
    exact congrArg Host.Outcome.next ((State.whenLive_of_live hlive _).trans hserve)
  · refine ⟨_, execLeaseTimeout_next dt hlive, List.length_map .., fun k e he => ?_⟩
    exact (List.getElem?_map ..).trans (congrArg (Option.map _) he)

end Sys2Proof
end

section
/-! SUPPORT. The scheduler of the Yard core (R186, R188, R361) and YC_CTRL (R189): what the register written leaves of ownership and of the save
area, what saving and placing a context leave of the core. -/
namespace Sys2Proof.Machine

/-! ### A register of the Yard core page -/

theorem onlyRegs_storeReg (s : State) (a w m : Nat) : OnlyRegs s (s.storeReg a w m) := by
  unfold State.storeReg
  split
  · exact .refl s
  · dsimp only
    split
    · exact onlyRegs_setReg ..
    · exact onlyRegs_setReg ..
    · exact onlyRegs_setReg ..
    · exact onlyRegs_ite _ (onlyRegs_setReg ..) (.refl s)

theorem State.reg_storeReg_ne (s : State) {a b : Nat} (w m : Nat) (h : b ≠ a) : (s.storeReg a w m).reg b = s.reg b := by
  unfold State.storeReg
  split
  · rfl
  · dsimp only
    split
    · exact s.reg_setReg_ne _ h
    · exact s.reg_setReg_ne _ h
    · exact s.reg_setReg_ne _ h
    · exact reg_ite _ (s.reg_setReg_ne _ h) rfl

/-- Registers below the Yard pages read alike. -/
def SameBelowYards (s t : State) : Prop := ∀ a, a < 0x100_0000 → t.reg a = s.reg a

theorem sameBelowYards_storeReg (s : State) (y o w m : Nat) : SameBelowYards s (s.storeReg (pgCore y + o) w m) :=
  fun a ha => s.reg_storeReg_ne w m (by unfold pgCore pgYard; omega)

/-- Predicates that agree on a list find the same element of it. -/
theorem find?_congr_mem {α : Type} {l : List α} {p q : α → Bool} (h : ∀ x ∈ l, p x = q x) : l.find? p = l.find? q := by
  induction l with
  | nil => rfl
  | cons x l ih => rw [List.find?_cons, List.find?_cons, h x List.mem_cons_self, ih fun z hz => h z (List.mem_cons_of_mem x hz)]

theorem firstBelow_congr {n : Nat} {p q : Nat → Bool} (h : ∀ i, i < n → p i = q i) : firstBelow n p = firstBelow n q :=
  find?_congr_mem fun i hi => h i (List.mem_range.1 hi)

theorem pgPart_below {p o : Nat} (hp : p < 8) (ho : o < 0x1000) : pgPart p + o < 0x100_0000 := by
  unfold pgPart
  omega

theorem State.partOfYard_congr {s t : State} (h : SameBelowYards s t) (y : Nat) : t.partOfYard y = s.partOfYard y := by
  refine firstBelow_congr fun p hp => ?_
  rw [State.partOn, State.partOn, State.flag_congr (h _ (pgPart_below hp (by decide))), State.flag_congr (h _ (pgPart_below hp (by decide)))]

theorem State.partOfYard_lt {s : State} {y p : Nat} (h : s.partOfYard y = some p) : p < 8 := by
  unfold State.partOfYard firstBelow at h
  exact List.mem_range.1 (List.mem_of_find?_eq_some h)

theorem adChan_lt (a : Nat) : adChan a < 1024 := Nat.mod_lt _ (by decide)

theorem State.reach_congr {s t : State} (h : SameBelowYards s t) {p : Nat} (hp : p < 8) (a len : Nat) : t.reach p a len = s.reach p a len := by
  have hchan := adChan_lt a
  have hclaim : t.granted p (adChan a) = s.granted p (adChan a) := by
    rw [State.granted, State.granted, State.flag_congr (h _ (by rw [Nat.add_assoc]; exact pgPart_below hp (by omega)))]
    congr 1
    split
    · exact State.flag_congr (h _ (pgPart_below hp (by decide))) _
    · rfl
  have hlive : t.chLive (adChan a) = s.chLive (adChan a) := by
    rw [State.chLive, State.chLive, State.chState, State.chState, State.fld_congr (h _ (by unfold chReg pgHc; omega))]
  rw [State.reach, State.reach, hclaim, hlive]

theorem State.saveOk_congr {s t : State} (h : SameBelowYards s t) {p : Nat} (hp : p < 8) : t.saveOk p = s.saveOk p := by
  rw [State.saveOk, State.saveOk, State.fld_congr (h _ (pgPart_below hp (by decide))), State.reach_congr h hp]

/-! ### Saving a context -/

@[simp] theorem State.cores_xferBytes (s : State) (y : Nat) (x : Xfer) (n : Nat) : (s.xferBytes y x n).cores = s.cores := by
  unfold State.xferBytes
  split <;> rfl

theorem State.cores_stopXfers (s : State) (y : Nat) (xs : List Xfer) : (s.stopXfers y xs).2.cores = s.cores := by
  induction xs generalizing s with
  | nil => rfl
  | cons x xs ih =>
    refine (ih _).trans ?_
    exact State.cores_xferBytes ..

theorem State.cores_hbmWrite (s : State) (u : HbmUser) (a : Nat) (bs : List Byte) : (s.hbmWrite u a bs).cores = s.cores := by
  obtain ⟨sl, h⟩ := foldl_toSlice_cases (u.req 65 0 0 true) (joinLines (cutLines a bs.length)) { s with hbm := s.hbm.write a bs }
  rw [State.hbmWrite, State.post, h]

/-- A context that is saved lies in its frame, its PC shown; the cores are as they were. -/
theorem State.saveCtx_cases (s : State) (y j : Nat) (c : YcCtx) (reason : Nat) : ∃ xs n t, t.cores = s.cores ∧
    s.saveCtx y j c reason = ({ c with xfers := xs, seq := n, shownPc := c.pc, inFrame := true }, t) := by
  refine ⟨_, _, _, ?_, rfl⟩
  rw [State.cores_bump, State.cores_hbmWrite]
  exact s.cores_stopXfers y c.xfers

/-- A context that leaves the core, saved. -/
structure Saved (c x : YcCtx) (st : CtxSt) : Prop where
  st : x.st = st
  pc : x.pc = c.pc
  shownPc : x.shownPc = c.pc
  inFrame : x.inFrame = true

theorem State.preempt_cases {s : State} {y j : Nat} {c : YcCtx} (reason : Nat) (next : CtxSt) (hctx : s.ctx y j = some c)
    (hcur : (s.core y).cur = some j) : ∃ x, Saved c x next ∧
      (s.preempt y j reason next).core y = { s.core y with cur := none, ctxs := Tab.put (s.core y).ctxs j x } := by
  obtain ⟨xs, n, t, hcores, hsave⟩ := s.saveCtx_cases y j c reason
  refine ⟨{ c with xfers := xs, seq := n, shownPc := c.pc, inFrame := true, st := next }, ⟨rfl, rfl, rfl, rfl⟩, ?_⟩
  have hcore : t.core y = s.core y := State.core_congr hcores y
  rw [State.preempt, hctx]
  dsimp only
  rw [hsave]
  dsimp only
  rw [State.core_setCtx_self, hcore, if_pos hcur, State.core_clearCur_self, State.core_setCtx_self, hcore]

/-- With no request at the counter block, and DATA read without an error, a pre-emption is a save. -/
theorem State.preemptNow_idle {s : State} {y j : Nat} {c : YcCtx} (reason : Nat) (next : CtxSt) {e : Ecc} (hidle : s.wcQ = [])
    (hctx : s.ctx y j = some c) (hdata : c.dataLen = 0 ∨ e = .ok) : s.preemptNow y j reason next e = s.preempt y j reason next := by
  have hread : (if c.dataLen = 0 then some s else s.eccRead y e) = some s := by
    split
    · rfl
    · rw [hdata.resolve_left ‹_›]
      rfl
  rw [State.preemptNow, hidle]
  dsimp only [List.length_nil, State.wcServeFor]
  rw [hctx]
  dsimp only
  rw [hread]

/-! ### Placing a context -/

theorem OnlyRegs.wcQ {s t : State} (h : OnlyRegs s t) : t.wcQ = s.wcQ := by
  obtain ⟨r, o, rfl⟩ := h
  rfl


/-- The core `x` with context `b` on it, running as `c`, from time `now`. -/
def YcCore.placed (x : YcCore) (b : Nat) (c : YcCtx) (now : Nat) : YcCore :=
  { x with cur := some b, ctxs := Tab.put x.ctxs b { c with st := .running }, lastPlaced := b, placedAt := now }

/-- A context outside its frame, with no trap due, goes on the core as it is. -/
theorem State.placeCtx_next {s : State} {y b : Nat} {c : YcCtx} (hctx : s.ctx y b = some c) (hframe : c.inFrame = false) (hdue : c.due10 = none) :
    s.placeCtx y b = (s.setCtx y b { c with st := .running }).setCore y ((s.core y).placed b c s.now) := by
  have hstate : (if c.inFrame then s.loadCtx y b c else (c, s)) = (c, s) := if_neg (by rw [hframe]; decide)
  rw [State.placeCtx, hctx]
  dsimp only
  rw [hstate]
  dsimp only
  rw [YcCtx.takeDue_of_none hdue, State.core_setCtx_self]
  rfl

theorem State.core_placeCtx {s : State} {y b : Nat} {c : YcCtx} (hctx : s.ctx y b = some c) (hframe : c.inFrame = false) (hdue : c.due10 = none) :
    (s.placeCtx y b).core y = (s.core y).placed b c s.now := by
  rw [State.placeCtx_next hctx hframe hdue, State.core_setCore_self]

/-! ### Deciding -/

section
variable {s : State} {y p b j : Nat} (e : Ecc) (hpart : s.partOfYard y = some p) (hsave : s.saveOk p = true) (hbest : s.bestCtx p y = some b)
include hpart hsave hbest

theorem State.schedule_free (hfree : (s.core y).cur = none) : s.schedule y e = s.placeCtx y b := by
  rw [State.schedule, hpart]
  dsimp only
  rw [hsave, if_neg (by decide), hbest]
  dsimp only
  rw [hfree]

/-- A core on which a context runs. -/
theorem State.schedule_busy (hcur : (s.core y).cur = some j) : s.schedule y e =
    if s.flag (jobCfg p j) 62 && !(s.jobIdle j) then s
    else if s.prio p j < s.prio p b ∨ (s.prio p j = s.prio p b ∧ s.quantumOver p y) then (s.preemptNow y j 1 .preempted e).placeCtx y b
    else s := by
  rw [State.schedule, hpart]
  dsimp only
  rw [hsave, if_neg (by decide), hbest]
  dsimp only
  rw [hcur]

theorem State.schedule_keeps (hcur : (s.core y).cur = some j) (hprio : s.prio p b < s.prio p j) : s.schedule y e = s := by
  have hless : ¬(s.prio p j < s.prio p b ∨ (s.prio p j = s.prio p b ∧ s.quantumOver p y)) := by omega
  rw [State.schedule_busy e hpart hsave hbest hcur, if_neg hless, ite_self]

theorem State.schedule_preempts {c d : YcCtx} (hcur : (s.core y).cur = some j) (hprio : s.prio p j < s.prio p b)
    (hfree : s.flag (jobCfg p j) 62 = false) (hidle : s.wcQ = []) (hd : s.ctx y j = some d) (hc : s.ctx y b = some c) (hframe : c.inFrame = false)
    (hdue : c.due10 = none) (hdata : d.dataLen = 0 ∨ e = .ok) : ((s.schedule y e).core y).cur = some b ∧
      (s.schedule y e).ctx y b = some { c with st := .running } ∧ ∃ x, (s.schedule y e).ctx y j = some x ∧ Saved d x .preempted := by
  have hne : b ≠ j := fun h => absurd (h ▸ hprio) (Nat.lt_irrefl _)
  obtain ⟨x, hsaved, hcore⟩ := s.preempt_cases 1 .preempted hd hcur
  have hc' : (s.preempt y j 1 .preempted).ctx y b = some c := by
    rw [State.ctx, hcore, Tab.find?_put_ne _ _ hne]
    exact hc
  have hplaced := State.core_placeCtx hc' hframe hdue
  rw [hcore] at hplaced
  rw [State.schedule_busy e hpart hsave hbest hcur, hfree, Bool.false_and, if_neg (by decide), if_pos (.inl hprio),
    State.preemptNow_idle 1 .preempted hidle hd hdata, State.ctx, State.ctx, hplaced]
  refine ⟨rfl, Tab.find?_put_self .., x, ?_, hsaved⟩
  exact (Tab.find?_put_ne _ _ hne.symm).trans (Tab.find?_put_self ..)

end

/-! ### YC_CTRL -/

section
variable {s : State} {acc : Acc} {y : Yard} {w : W64} {j : Nat} {c : YcCtx}

/-- The state after a write to YC_CTRL has stored its JOB. -/
def State.ctrlStored (s : State) (acc : Acc) (y : Yard) (w : W64) : State := s.storeReg (pgCore y.val + 0x108) w.toNat (accMask acc)

theorem State.cores_ctrlStored (s : State) (acc : Acc) (y : Yard) (w : W64) : (s.ctrlStored acc y w).cores = s.cores :=
  (onlyRegs_storeReg s (pgCore y.val + 0x108) w.toNat (accMask acc)).cores

theorem execStop_next (e : Ecc) (hopen : s.Open acc (pgCore y.val + 0x108)) (hstop : acts w.toNat 0 = true) (hstart : acts w.toNat 1 = false)
    (hj : j = (s.ctrlStored acc y w).fld (pgCore y.val + 0x108) 7 4) : execStop acc y (w, e) s =
      .next ((s.ctrlStored acc y w).stopCtx y.val j e) := by
  subst hj
  rw [execStop, State.ycCtrl, State.hostWrite_of_open hopen]
  dsimp only
  rw [if_pos hstop, hstart, if_neg (by decide)]
  rfl

theorem execStart_next (hopen : s.Open acc (pgCore y.val + 0x108)) (hstop : acts w.toNat 0 = false) (hstart : acts w.toNat 1 = true)
    (hj : j = (s.ctrlStored acc y w).fld (pgCore y.val + 0x108) 7 4) : execStart acc y w s = .next ((s.ctrlStored acc y w).startCtx y.val j) := by
  subst hj
  rw [execStart, State.ycCtrl, State.hostWrite_of_open hopen]
  dsimp only
  rw [if_pos hstart, hstop, if_neg (by decide)]
  rfl

theorem State.stopCtx_ready {y : Nat} (e : Ecc) (hctx : s.ctx y j = some c) (hst : c.st = .ready) :
    s.stopCtx y j e = s.setCtx y j { c with st := .stopped, shownPc := c.pc } := by
  rw [State.stopCtx, hctx]
  dsimp only
  rw [hst]

theorem State.startCtx_held {y : Nat} (hctx : s.ctx y j = some c) (hst : c.st = .stopped ∨ c.st = .halted) :
    s.startCtx y j = s.setCtx y j { c with st := .ready } := by
  rw [State.startCtx, hctx]
  dsimp only
  rcases hst with hst | hst <;> rw [hst]

/-- STOP of a context on the core saves it and frees the core. -/
theorem State.stopCtx_onCore {y p : Nat} {e : Ecc} (hctx : s.ctx y j = some c) (hst : c.st = .running ∨ c.st = .blocked)
    (hpart : s.partOfYard y = some p) (hsave : s.saveOk p = true) (hidle : s.wcQ = []) (hcur : (s.core y).cur = some j)
    (hdata : c.dataLen = 0 ∨ e = .ok) :
    ((s.stopCtx y j e).core y).cur = none ∧ ∃ x, (s.stopCtx y j e).ctx y j = some x ∧ Saved c x .stopped := by
  have hstop : s.stopCtx y j e = s.preempt y j 2 .stopped := by
    rw [← State.preemptNow_idle 2 .stopped hidle hctx hdata, State.stopCtx, hctx, hpart]
    dsimp only [Option.getD_some]
    rcases hst with hst | hst <;> rw [hst] <;> exact if_pos hsave
  obtain ⟨x, hsaved, hcore⟩ := s.preempt_cases 2 .stopped hctx hcur
  rw [hstop, State.ctx, hcore]
  exact ⟨rfl, x, Tab.find?_put_self .., hsaved⟩

end

/-! ### The scheduler's commands -/

theorem execSchedDecide_next {s : State} {y : Yard} (e : Ecc) (hlive : s.live = true) : execSchedDecide (y, e) s = .next (s.schedule y.val e) :=
  congrArg Host.Outcome.next (State.whenLive_of_live hlive _)

theorem execSchedQuantum_next {s : State} {y : Yard} (e : Ecc) {dt p : Nat} (hlive : (s.tick dt).live = true)
    (hpart : (s.tick dt).partOfYard y.val = some p) (hover : (s.tick dt).quantumOver p y.val = true) :
    execSchedQuantum dt (y, e) s = .next ((s.tick dt).schedule y.val e) := by
  rw [execSchedQuantum, State.whenLive_of_live hlive, hpart]
  exact congrArg Host.Outcome.next (if_pos hover)

/-- The scheduler puts the best runnable context on a free core, and changes the core alone. -/
theorem State.schedule_places {s : State} {y p b : Nat} {c : YcCtx} (e : Ecc) (hpart : s.partOfYard y = some p) (hsave : s.saveOk p = true)
    (hbest : s.bestCtx p y = some b) (hfree : (s.core y).cur = none) (hctx : s.ctx y b = some c) (hframe : c.inFrame = false)
    (hdue : c.due10 = none) : ((s.schedule y e).core y).cur = some b ∧ (s.schedule y e).ctx y b = some { c with st := .running } ∧
      ((s.schedule y e).core y).lastPlaced = b ∧ (s.schedule y e).regs = s.regs ∧ (s.schedule y e).hbm = s.hbm := by
  rw [State.schedule_free e hpart hsave hbest hfree, State.ctx, State.core_placeCtx hctx hframe hdue]
  refine ⟨rfl, Tab.find?_put_self .., rfl, ?_⟩
  rw [State.placeCtx_next hctx hframe hdue]
  exact ⟨rfl, rfl⟩

end Sys2Proof.Machine

namespace Sys2Proof
open Machine

/-- Settles O34: STOP and START by the state of the context, the scheduler by what stands on the core. -/
theorem yardCoreScheduler : Obligations.YardCoreScheduler := by
  unfold Obligations.YardCoreScheduler
  intro s y
  have hctx : ∀ acc w j, (s.ctrlStored acc y w).ctx y.val j = s.ctx y.val j := fun acc w => State.ctx_congr (s.cores_ctrlStored acc y w) y.val
  refine ⟨fun acc w e c j hopen hstop hstart hj hc hst => ?_, fun acc w c j hopen hstop hstart hj hc hst => ?_,
    fun e p b c hlive hpart hsave hbest hfree hc hframe hdue => ?_, fun e dt p b c hlive hpart hsave hbest hfree hover hc hframe hdue => ?_,
    fun e p b j hlive hpart hsave hbest hcur => ⟨fun hprio => ?_, fun c d hprio hfree hidle hd hc hframe hdue hdata => ?_⟩,
    fun acc w e c p j hopen hstop hstart hj hc hst hpart hsave hidle hcur hdata => ?_⟩
  · exact (execStop_next e hopen hstop hstart hj).trans (congrArg _ (State.stopCtx_ready e ((hctx acc w j).trans hc) hst))
  · exact (execStart_next hopen hstop hstart hj).trans (congrArg _ (State.startCtx_held ((hctx acc w j).trans hc) hst))
  · exact ⟨_, execSchedDecide_next e hlive, State.schedule_places e hpart hsave hbest hfree hc hframe hdue⟩
  · have hcores := s.tick_cores dt
    obtain ⟨hon, hrun, -, hregs, hhbm⟩ := State.schedule_places e hpart hsave hbest
      ((congrArg YcCore.cur (State.core_congr hcores _)).trans hfree) ((State.ctx_congr hcores _ _).trans hc) hframe hdue
    exact ⟨_, execSchedQuantum_next e hlive hpart hover, hon, hrun, hregs, hhbm.trans (s.tick_hbm dt)⟩
  · exact (execSchedDecide_next e hlive).trans (congrArg _ (State.schedule_keeps e hpart hsave hbest hcur hprio))
  · obtain ⟨hon, hrun, x, hx, hsaved⟩ := State.schedule_preempts e hpart hsave hbest hcur hprio hfree hidle hd hc hframe hdue hdata
    exact ⟨_, execSchedDecide_next e hlive, hon, hrun, x, hx, hsaved.st, hsaved.pc, hsaved.inFrame⟩
  · have hsame : SameBelowYards s (s.ctrlStored acc y w) := sameBelowYards_storeReg s y.val 0x108 _ _
    obtain ⟨hfree, x, hx, hsaved⟩ := State.stopCtx_onCore (s := s.ctrlStored acc y w) (e := e) ((hctx acc w j).trans hc) hst
      ((State.partOfYard_congr hsame _).trans hpart) ((State.saveOk_congr hsame (State.partOfYard_lt hpart)).trans hsave)
      ((onlyRegs_storeReg s (pgCore y.val + 0x108) w.toNat (accMask acc)).wcQ.trans hidle)
      ((congrArg YcCore.cur (State.core_congr (s.cores_ctrlStored acc y w) _)).trans hcur) hdata
    exact ⟨_, execStop_next e hopen hstop hstart hj, hfree, x, hx, hsaved.st, hsaved.shownPc, hsaved.inFrame⟩

end Sys2Proof
end

section
/-! SUPPORT. The step registers of the partition pages (Table 8.4), HBM, and what leaves both as they were: time, events, recorded faults, ring
entries, the loss scale and the roll. -/
namespace Sys2Proof.Machine

/-- The registers at 0x400 to 0x7FF of the partition pages: the step registers of every job. -/
def StepBlock (a : Nat) : Prop := 0x2_0000 ≤ a ∧ a < 0x2_8000 ∧ 0x400 ≤ a % 0x1000 ∧ a % 0x1000 < 0x800

theorem stepReg_block {p j o : Nat} (hp : p < 8) (hj : j < 16) (ho : o < 0x40) : StepBlock (stepReg p j o) := by
  unfold StepBlock stepReg pgPart
  omega

theorem not_stepBlock_pgPart (p : Nat) {o : Nat} (h : o < 0x400 ∨ 0x800 ≤ o ∧ o < 0x1000) : ¬StepBlock (pgPart p + o) := by
  unfold StepBlock pgPart
  omega

theorem not_stepBlock_numReg (p : Nat) {j o : Nat} (hj : j < 16) (ho : o < 0x40) : ¬StepBlock (numReg p j o) := by
  unfold StepBlock numReg pgPart
  omega

theorem not_stepBlock_collReg (p : Nat) {j o : Nat} (hj : j < 16) (ho : o < 0x20) : ¬StepBlock (collReg p j o) := by
  unfold StepBlock collReg pgPart
  omega

theorem not_stepBlock_of_ge {a : Nat} (h : 0x2_8000 ≤ a) : ¬StepBlock a := fun hblock => absurd hblock.2.1 (Nat.not_lt.mpr h)

theorem not_stepBlock_lnt (e o : Nat) : ¬StepBlock (lntAddr e + o) := not_stepBlock_of_ge (by unfold lntAddr; omega)

theorem not_stepBlock_ringSt (j : Nat) : ¬StepBlock (ringSt j) := not_stepBlock_of_ge (by unfold ringSt pgDoor; omega)

theorem not_stepBlock_ceReg (d o : Nat) : ¬StepBlock (ceReg d o) := not_stepBlock_of_ge (by unfold ceReg pgEngine; omega)

theorem pgPart_aligned (p : Nat) : pgPart p % 0x1000 = 0 := by
  unfold pgPart
  omega

theorem pgEngine_aligned (d : Nat) : pgEngine d % 0x1000 = 0 := by
  unfold pgEngine
  omega

/-- Every step register reads as before, and HBM is unchanged. -/
structure KeepsSteps (s t : State) : Prop where
  reg : ∀ a, StepBlock a → t.reg a = s.reg a
  hbm : t.hbm = s.hbm

namespace KeepsSteps

variable {s t u : State}

theorem refl (s : State) : KeepsSteps s s := ⟨fun _ _ => rfl, rfl⟩

theorem trans (h : KeepsSteps s t) (k : KeepsSteps t u) : KeepsSteps s u :=
  ⟨fun a ha => (k.reg a ha).trans (h.reg a ha), k.hbm.trans h.hbm⟩

theorem ite (c : Prop) [Decidable c] (h : KeepsSteps s t) (k : KeepsSteps s u) : KeepsSteps s (if c then t else u) := by
  split
  · exact h
  · exact k

/-- A fold whose steps keep the step registers keeps them. -/
theorem foldl {α : Type} {f : State → α → State} (h : KeepsSteps s t) (l : List α) (hf : ∀ v x, KeepsSteps v (f v x)) :
    KeepsSteps s (l.foldl f t) := by
  induction l generalizing t with
  | nil => exact h
  | cons x l ih => exact ih (h.trans (hf t x))

theorem setReg {a : Nat} (h : KeepsSteps s t) (ha : ¬StepBlock a) (v : Nat) : KeepsSteps s (t.setReg a v) := by
  refine ⟨fun b hb => ?_, h.hbm⟩
  have hne : b ≠ a := fun hba => ha (hba ▸ hb)
  exact (t.reg_setReg_ne v hne).trans (h.reg b hb)

theorem setFld {a : Nat} (h : KeepsSteps s t) (ha : ¬StepBlock a) (hi lo v : Nat) : KeepsSteps s (t.setFld a hi lo v) := h.setReg ha _

theorem setFlag {a : Nat} (h : KeepsSteps s t) (ha : ¬StepBlock a) (i : Nat) (b : Bool) : KeepsSteps s (t.setFlag a i b) := h.setReg ha _

/-! ### Tables beside the registers -/

theorem setRing (h : KeepsSteps s t) (j : Nat) (q : List RingEntry) : KeepsSteps s (t.setRing j q) := h.trans ⟨fun _ _ => rfl, rfl⟩

theorem setCore (h : KeepsSteps s t) (y : Nat) (x : YcCore) : KeepsSteps s (t.setCore y x) := h.trans ⟨fun _ _ => rfl, rfl⟩

theorem stepHeld (h : KeepsSteps s t) (q : Tab (List StartRec)) : KeepsSteps s { t with stepHeld := q } := h.trans ⟨fun _ _ => rfl, rfl⟩

theorem heldOnClose (h : KeepsSteps s t) (l : List Nat) : KeepsSteps s { t with heldOnClose := l } := h.trans ⟨fun _ _ => rfl, rfl⟩

theorem agreements (h : KeepsSteps s t) (l : List Agree) (d : Tab Nat) : KeepsSteps s { t with agrees := l, agreeDone := d } :=
  h.trans ⟨fun _ _ => rfl, rfl⟩

/-! ### Events and faults -/

theorem event (h : KeepsSteps s t) {pg : Nat} (hpg : pg % 0x1000 = 0) (i : Nat) : KeepsSteps s (t.event pg i) := by
  refine h.trans ⟨fun a ha => ?_, (onlyRegs_event ..).hbm⟩
  obtain ⟨-, hhi, hlow, -⟩ := ha
  exact t.event_reg pg i (by omega) (by omega) (by omega)

theorem fault (h : KeepsSteps s t) {pg : Nat} (hpg : pg % 0x1000 = 0) (hlt : pg < 0x200_0000) (code info : Nat) :
    KeepsSteps s (t.fault pg code info) := by
  refine h.trans ⟨fun a ha => ?_, (onlyRegs_fault ..).hbm⟩
  obtain ⟨hlo, hhi, hlow, -⟩ := ha
  exact t.fault_reg pg code info (by omega) (by omega) (by omega) (by unfold pgBare; omega) (by omega) hlt

theorem jobEvent (h : KeepsSteps s t) (p j i : Nat) : KeepsSteps s (t.jobEvent p j i) :=
  (h.setFlag (not_stepBlock_pgPart p (by decide)) j true).event (pgPart_aligned p) i

/-- A numerics fault is one of the partition page, with two events there (R255, R375). -/
theorem numFault (h : KeepsSteps s t) {p : Nat} (hp : p < 8) (j code entry cause value : Nat) :
    KeepsSteps s (t.numFault p j code entry cause value) := by
  have hfault := h.fault (pgPart_aligned p) (show pgPart p < 0x200_0000 by unfold pgPart; omega) code
    (fieldAt 50 entry + fieldAt 46 j + fieldAt 44 cause + value % 2 ^ 32)
  exact (ite _ (hfault.event (pgPart_aligned p) 5) hfault).jobEvent p j 3

theorem fallback (h : KeepsSteps s t) {d : Nat} (hd : d < 8) (info : Nat) : KeepsSteps s (t.fallback d info) :=
  ((h.fault (pgEngine_aligned d) (by unfold pgEngine; omega) 0x0705 info).event (pgEngine_aligned d) 1).setReg (not_stepBlock_ceReg d _) info

end KeepsSteps

theorem State.groupDie_lt (s : State) (g : Nat) : s.groupDie g < 8 := by
  unfold State.groupDie
  extract_lets nb
  clear_value nb
  split
  · split
    · exact Nat.mod_lt _ (by decide)
    · decide
  · decide

/-- Passing time counts in other registers. -/
theorem State.tick_keepsSteps (s : State) (dt : Nat) : KeepsSteps s (s.tick dt) := by
  refine ⟨fun a ha => ?_, s.tick_hbm dt⟩
  obtain ⟨hlo, hhi, hlow, -⟩ := ha
  refine s.tick_reg dt (by unfold pgGlobal; omega) (by omega) ?_ fun _ _ => ?_ <;>
    · simp only [List.mem_cons, List.not_mem_nil, or_false]
      omega

@[simp] theorem State.tick_pipeEnd (s : State) (dt : Nat) : (s.tick dt).pipeEnd = s.pipeEnd := by
  obtain ⟨r, o, lim, slew, held, htick⟩ := s.tick_cases dt
  rw [htick]

/-! ### Ring entries and records -/

theorem State.refreshRing_keepsSteps (s : State) (j : Nat) : KeepsSteps s (s.refreshRing j) := by
  have hset : ∀ v, KeepsSteps s (s.setFld (ringSt j) 63 62 v) := fun v => (KeepsSteps.refl s).setFld (not_stepBlock_ringSt j) 63 62 v
  exact .ite _ (hset 0) (.ite _ (.refl s) (hset _))

theorem State.advanceRing_keepsSteps (s : State) (j : Nat) : KeepsSteps s (s.advanceRing j) :=
  (((KeepsSteps.refl s).setRing ..).setFld (not_stepBlock_ringSt j) 31 16 _).trans (State.refreshRing_keepsSteps _ j)

theorem State.ringDone_keepsSteps (s : State) (j i : Nat) : KeepsSteps s (s.ringDone j i) := by
  unfold State.ringDone
  split
  · exact .refl s
  next e _ =>
    extract_lets t u
    have ht : KeepsSteps s t := (KeepsSteps.refl s).setRing ..
    have hu : KeepsSteps s u := by
      unfold u
      split
      · exact ht.jobEvent ..
      · exact ht
    exact hu.trans (State.advanceRing_keepsSteps u j)

/-- A record consumed is a notice to its Yard core, or an entry of its ring that completes (R177, R370). -/
theorem State.consume_keepsSteps (s : State) (r : StartRec) (code : Nat) : KeepsSteps s (s.consume r code) := by
  have hresult : KeepsSteps s (s.issueResult r code) := by
    unfold State.issueResult
    split
    · unfold State.notifyCore State.enqueueIn
      exact .ite _ (.refl s) ((KeepsSteps.refl s).setCore ..)
    · exact .refl s
  unfold State.consume State.sourceDone
  split
  · exact hresult.trans (State.ringDone_keepsSteps ..)
  · exact hresult

theorem State.planDone_keepsSteps (s : State) (j : Nat) : KeepsSteps s (s.planDone j) :=
  (KeepsSteps.refl s).foldl _ fun t e => t.ringDone_keepsSteps j e.index

/-! ### The loss scale, the spike detector and the roll -/

theorem KeepsSteps.setLnt {s t : State} (h : KeepsSteps s t) (e w hi lo v : Nat) : KeepsSteps s (t.setLnt e w hi lo v) :=
  h.setFld (not_stepBlock_lnt e _) hi lo v

theorem State.selectFormat_keepsSteps (s : State) (e : Nat) : KeepsSteps s (s.selectFormat e) := by
  unfold State.selectFormat
  extract_lets sel fmt elems set clean win t
  have hset : ∀ v f, KeepsSteps s v → KeepsSteps s (set v f) := fun v f h => (h.setLnt ..).setLnt ..
  have ht : KeepsSteps s t := (KeepsSteps.refl s).setLnt ..
  refine .ite _ ((KeepsSteps.refl s).setLnt ..) (.ite _ (.refl s) (.ite _ ?dirty ?clean))
  case dirty => exact .ite _ (hset _ _ (.refl s)) (.ite _ (hset _ _ (.refl s)) (.refl s))
  case clean => exact .ite _ (hset _ _ ht) ht

section
variable (s : State) {p j : Nat} (hp : p < 8) (hj : j < 16)
include hp

theorem State.streakStep_keepsSteps (e : Nat) : KeepsSteps s (s.streakStep p j e) := by
  unfold State.streakStep
  extract_lets th elems k t
  have ht : KeepsSteps s t := (KeepsSteps.refl s).setLnt ..
  exact .ite _ (.refl s) (.ite _ (.ite _ (ht.numFault hp ..) ht) ((KeepsSteps.refl s).setLnt ..))

/-- The roll of one entry writes its own words, and may report its streak. -/
theorem State.rollEntry_keepsSteps (skipped : Bool) (e : Nat) : KeepsSteps s (s.rollEntry p j skipped e) := by
  unfold State.rollEntry
  extract_lets s₁ t t₁ s₂
  have h₁ : KeepsSteps s s₁ := .ite _ ((KeepsSteps.refl s).setFld (not_stepBlock_lnt e _) ..) (.refl s)
  have ht : KeepsSteps s t := (h₁.setReg (not_stepBlock_lnt e _) _).setReg (not_stepBlock_lnt e _) _
  have ht₁ : KeepsSteps s t₁ := .ite _ ((ht.trans (t.selectFormat_keepsSteps e)).trans (State.streakStep_keepsSteps _ hp e)) ht
  have h₂ : KeepsSteps s s₂ := .ite _ (ht₁.setLnt ..) (.ite _ (h₁.setLnt ..) h₁)
  exact ((h₂.setReg (not_stepBlock_lnt e _) 0).setReg (not_stepBlock_lnt e _) 0).setReg (not_stepBlock_lnt e _) 0

include hj

theorem State.rollEntries_keepsSteps (skipped : Bool) : KeepsSteps s (s.rollEntries p j skipped) := by
  have hentries := (KeepsSteps.refl s).foldl (s.lntOf j) fun t e => t.rollEntry_keepsSteps hp (j := j) skipped e
  have hlinks := hentries.foldl (f := State.rollLinks) (s.lntOf j) fun t e => (((KeepsSteps.refl t).setLnt ..).setLnt ..).setLnt ..
  exact hlinks.setFld (not_stepBlock_numReg p hj (by decide)) ..

theorem State.lossScale_keepsSteps (skipped upd : Bool) : KeepsSteps s (s.lossScale p j skipped upd) := by
  have hscale : ¬StepBlock (numReg p j 0) := not_stepBlock_numReg p hj (by decide)
  have hset : ∀ hi lo v, KeepsSteps s (s.setFld (numReg p j 0) hi lo v) := (KeepsSteps.refl s).setFld hscale
  unfold State.lossScale
  extract_lets a ls floor down s₁ s₂ good
  have h₂ : KeepsSteps s s₂ := (((hset ..).setFld hscale ..).numFault hp ..).setFlag (not_stepBlock_numReg p hj (by decide)) 46 true
  refine .ite _ (.ite _ (h₂.heldOnClose _) ((hset ..).setFld hscale ..)) (.ite _ (.ite _ ?_ (hset ..)) (hset ..))
  exact (hset ..).setFld hscale ..

omit hp

theorem State.spikeAtBoundary_keepsSteps (skipped : Bool) : KeepsSteps s (s.spikeAtBoundary p j skipped) := by
  unfold State.spikeAtBoundary
  extract_lets st nm
  split
  · exact .refl s
  · exact .ite _ (.refl s) (((KeepsSteps.refl s).setReg (not_stepBlock_numReg p hj (by decide)) _).setFld
      (not_stepBlock_numReg p hj (by decide)) ..)

end

end Sys2Proof.Machine
end

section
/-! SUPPORT. The sequencer of a step plan (R203, R204, R211, Tables 8.2, 8.9): RESYNC, the writes of its two registers, and the step that closes
as skipped. -/
namespace Sys2Proof.Machine

/-! ### Fields of one register -/

/-- A write of one field leaves the fields apart from it. -/
theorem State.fld_setFld_apart (s : State) (a v : Nat) {hi lo hi' lo' : Nat} (h : hi < 64) (hl : lo ≤ hi) (hl' : lo' ≤ hi')
    (hapart : hi' < lo ∨ hi < lo') : (s.setFld a hi lo v).fld a hi' lo' = s.fld a hi' lo' := by
  rcases hapart with hbelow | habove
  · exact s.fld_setFld_below a hi lo v hi' lo' h hl hbelow hl'
  · exact s.fld_setFld_above a hi lo v hi' lo' h hl habove

theorem State.reg_setFld_congr {s t : State} {a : Nat} (h : t.reg a = s.reg a) (hi lo v : Nat) :
    (t.setFld a hi lo v).reg a = (s.setFld a hi lo v).reg a := by
  rw [State.setFld, State.setFld, State.reg_setReg_self, State.reg_setReg_self, h]

theorem stepReg_status (p j : Nat) : stepReg p j 0x10 = pgPart p + 0x410 + 0x40 * j := by
  unfold stepReg
  omega

theorem State.seqState_eq (s : State) (p j : Nat) : s.seqState p j = s.fld (stepReg p j 0x10) 63 61 := by
  rw [stepReg_status, State.seqState]

theorem State.seqState_congr {s t : State} {p j : Nat} (h : t.reg (stepReg p j 0x10) = s.reg (stepReg p j 0x10)) :
    t.seqState p j = s.seqState p j := by
  rw [State.seqState_eq, State.seqState_eq, State.fld_congr h]

theorem State.planOn_congr {s t : State} {p j : Nat} (h : t.reg (stepReg p j 0) = s.reg (stepReg p j 0)) : t.planOn p j = s.planOn p j :=
  State.flag_congr h 63

@[simp] theorem State.seqState_setSeq (s : State) (p j st : Nat) : (s.setSeq p j st).seqState p j = st % 8 := by
  rw [State.seqState_eq]
  exact State.fld_setFld_self s _ 63 61 st (by decide) (by decide)

theorem stepReg_ne {p j o o' : Nat} (h : o ≠ o') : stepReg p j o ≠ stepReg p j o' := by
  unfold stepReg
  omega

theorem stepReg_ne_phReg (p : Nat) {j o o' : Nat} (hj : j < 16) (ho : o < 0x40) : stepReg p j o ≠ phReg p j o' := by
  unfold stepReg phReg
  omega

/-! ### What is held -/

theorem onlyRegs_refreshHeld (s : State) (p j : Nat) : OnlyRegs s (s.refreshHeld p j) :=
  ((onlyRegs_setFld ..).trans (onlyRegs_setFld ..)).trans (onlyRegs_setFlag ..)

/-- WAITING, HELD and FENCE are fields of the job's two status registers. -/
theorem State.reg_refreshHeld_ne (s : State) {p j a : Nat} (hstep : a ≠ stepReg p j 0x10) (hphase : a ≠ phReg p j 0x10) :
    (s.refreshHeld p j).reg a = s.reg a := by
  rw [State.refreshHeld, State.reg_setFlag_ne _ _ _ hphase, State.reg_setFld_ne _ _ _ _ hphase, State.reg_setFld_ne _ _ _ _ hstep]

theorem State.reg_refreshHeld_status (s : State) (p : Nat) {j : Nat} (hj : j < 16) :
    (s.refreshHeld p j).reg (stepReg p j 0x10) = (s.setFld (stepReg p j 0x10) 58 56 (Tab.get [] s.stepHeld j).length).reg (stepReg p j 0x10) := by
  have hne : stepReg p j 0x10 ≠ phReg p j 0x10 := stepReg_ne_phReg p hj (by decide)
  rw [State.refreshHeld, State.reg_setFlag_ne _ _ _ hne, State.reg_setFld_ne _ _ _ _ hne]

theorem State.seqState_refreshHeld (s : State) (p : Nat) {j : Nat} (hj : j < 16) : (s.refreshHeld p j).seqState p j = s.seqState p j := by
  rw [State.seqState_eq, State.seqState_eq, State.fld_congr (s.reg_refreshHeld_status p hj),
    State.fld_setFld_apart _ _ _ (by decide) (by decide) (by decide) (by decide)]

/-! ### Writes of the host -/

theorem State.jobWrite_of_open {s : State} {acc : Acc} {p j a : Nat} (hopen : s.Open acc a) (hjob : j ∈ s.jobsOf p) (f : State → State) :
    s.jobWrite acc p j a f = f s := by
  rw [State.jobWrite, State.hostWrite_of_open hopen, if_pos (List.contains_iff_mem.mpr hjob)]

section
variable {s : State} {acc : Acc} {p : Part} {j : JobId} {w : W64}

section
variable (hopen : s.Open acc (stepReg p.val j.val 0x28)) (hjob : j.val ∈ s.jobsOf p.val)
include hopen hjob

theorem execResync_held (hacts : acts w.toNat 0 = true) (hheld : s.seqState p.val j.val = 7) :
    execResync acc p j w s = .next ((s.setSeq p.val j.val 0).refreshHeld p.val j.val) := by
  rw [execResync, State.jobWrite_of_open hopen hjob, if_pos ⟨hacts, hheld⟩]

theorem execResync_ignored (h : acts w.toNat 0 = false ∨ s.seqState p.val j.val ≠ 7) : execResync acc p j w s = .next s := by
  rw [execResync, State.jobWrite_of_open hopen hjob, if_neg]
  rintro ⟨hacts, hheld⟩
  rcases h with hidle | hother
  · exact absurd hacts (by rw [hidle]; decide)
  · exact hother hheld

end

theorem OnlyRegs.stepHeld {s t : State} (h : OnlyRegs s t) : t.stepHeld = s.stepHeld := by
  obtain ⟨r, o, rfl⟩ := h
  rfl

theorem onlyRegs_setSeq (s : State) (p j st : Nat) : OnlyRegs s (s.setSeq p j st) := onlyRegs_setFld ..

/-- Leaving HELD for IDLE shows in the job's two status registers alone. -/
theorem State.resync_onlyRegsOf (s : State) (p j : Nat) :
    OnlyRegsOf s ((s.setSeq p j 0).refreshHeld p j) fun a => a = stepReg p j 0x10 ∨ a = phReg p j 0x10 := by
  refine ⟨fun a ha => ?_, ((onlyRegs_setSeq ..).trans (onlyRegs_refreshHeld ..)).hbm⟩
  rw [not_or] at ha
  obtain ⟨hstep, hphase⟩ := ha
  exact (State.reg_refreshHeld_ne _ hstep hphase).trans (State.reg_setFld_ne _ _ _ _ hstep)

/-- PT_STEP_CFG (`cfg`) or PT_STEP_PLAN of job `j`. -/
def planReg (p j : Nat) (cfg : Bool) : Nat := stepReg p j (if cfg then 8 else 0)

theorem planReg_ne_status (p j : Nat) (cfg : Bool) : planReg p j cfg ≠ stepReg p j 0x10 := stepReg_ne (by split <;> decide)

/-- What a write to PT_STEP_CFG (`cfg`) or PT_STEP_PLAN does in IDLE or HELD, before what is held is looked at again: the state `t` has the
register stored; EN cleared leads to IDLE, and EN newly set clears SKIP_CAUSE. -/
def State.planStored (s t : State) (p j : Nat) (cfg : Bool) : State :=
  let u := if !cfg && !(t.planOn p j) then t.setSeq p j 0 else t
  if !cfg && t.planOn p j && !(s.planOn p j) then u.setFld (stepReg p j 0x10) 55 54 0 else u

theorem State.reg_planStored_ne (s t : State) {p j a : Nat} (cfg : Bool) (h : a ≠ stepReg p j 0x10) : (s.planStored t p j cfg).reg a = t.reg a := by
  have hseq := reg_ite (!cfg && !(t.planOn p j)) (t.reg_setFld_ne 63 61 0 h) rfl
  exact reg_ite _ ((State.reg_setFld_ne _ _ _ _ h).trans hseq) hseq

theorem onlyRegs_planStored (s t : State) (p j : Nat) (cfg : Bool) : OnlyRegs t (s.planStored t p j cfg) := by
  have hseq := onlyRegs_ite (!cfg && !(t.planOn p j)) (onlyRegs_setSeq t p j 0) (.refl t)
  exact onlyRegs_ite _ (hseq.trans (onlyRegs_setFld ..)) hseq

theorem State.planStored_cfg (s t : State) (p j : Nat) : s.planStored t p j true = t := rfl

/-- A plan stored with EN = 0 leaves the sequencer in IDLE. -/
theorem State.seqState_planStored_off (s : State) {t : State} {p j : Nat} (h : t.planOn p j = false) :
    (s.planStored t p j false).seqState p j = 0 := by
  have hidle : s.planStored t p j false = t.setSeq p j 0 := by
    rw [State.planStored, h]
    rfl
  rw [hidle, State.seqState_setSeq]

section
variable {cfg : Bool} (hopen : s.Open acc (planReg p.val j.val cfg)) (hjob : j.val ∈ s.jobsOf p.val)
include hopen hjob

/-- A write to one of the two registers is ignored while a step runs, else stored (R211). -/
theorem execStepPlanWrite_eq : execStepPlanWrite acc p j cfg w s = .next (if s.seqState p.val j.val ≠ 0 ∧ s.seqState p.val j.val ≠ 7 then s else
    (s.planStored (s.storeReg (planReg p.val j.val cfg) w.toNat (accMask acc)) p.val j.val cfg).refreshHeld p.val j.val) :=
  congrArg Host.Outcome.next (State.jobWrite_of_open hopen hjob _)

theorem execStepPlanWrite_running (hlo : 1 ≤ s.seqState p.val j.val) (hhi : s.seqState p.val j.val ≤ 6) :
    execStepPlanWrite acc p j cfg w s = .next s := by
  rw [execStepPlanWrite_eq hopen hjob, if_pos (by omega)]

theorem execStepPlanWrite_quiet (hquiet : s.seqState p.val j.val = 0 ∨ s.seqState p.val j.val = 7) :
    execStepPlanWrite acc p j cfg w s =
      .next ((s.planStored (s.storeReg (planReg p.val j.val cfg) w.toNat (accMask acc)) p.val j.val cfg).refreshHeld p.val j.val) := by
  rw [execStepPlanWrite_eq hopen hjob, if_neg (by omega)]

/-- The write is stored as the register takes it; EN cleared leads to IDLE, and PT_STEP_CFG leaves STATE. -/
theorem execStepPlanWrite_answers (hquiet : s.seqState p.val j.val = 0 ∨ s.seqState p.val j.val = 7) :
    Answers (execStepPlanWrite acc p j cfg w s) fun t =>
      t.reg (planReg p.val j.val cfg) =
        (s.storeReg (planReg p.val j.val cfg) w.toNat (accMask acc)).reg (planReg p.val j.val cfg) ∧
      (cfg = false → t.planOn p.val j.val = false → t.seqState p.val j.val = 0) ∧
      (cfg = true → t.seqState p.val j.val = s.seqState p.val j.val) ∧ t.hbm = s.hbm := by
  refine ⟨_, execStepPlanWrite_quiet hopen hjob hquiet, ?_⟩
  have hregs := onlyRegs_storeReg s (planReg p.val j.val cfg) w.toNat (accMask acc)
  have hstatus := s.reg_storeReg_ne w.toNat (accMask acc) (planReg_ne_status p.val j.val cfg).symm
  generalize s.storeReg (planReg p.val j.val cfg) w.toNat (accMask acc) = t at hregs hstatus ⊢
  have hhbm := ((hregs.trans (onlyRegs_planStored s t p.val j.val cfg)).trans (onlyRegs_refreshHeld _ p.val j.val)).hbm
  have hstored : ∀ b, ((s.planStored t p.val j.val b).refreshHeld p.val j.val).reg (planReg p.val j.val b) = t.reg (planReg p.val j.val b) :=
    fun b => (State.reg_refreshHeld_ne _ (planReg_ne_status _ _ _) (stepReg_ne_phReg _ j.isLt (by split <;> decide))).trans
      (s.reg_planStored_ne t b (planReg_ne_status _ _ _))
  refine ⟨hstored cfg, fun hplan hoff => ?_, fun hcfg => ?_, hhbm⟩
  · subst hplan
    rw [State.seqState_refreshHeld _ _ j.isLt]
    exact s.seqState_planStored_off ((State.planOn_congr (hstored false)).symm.trans hoff)
  · subst hcfg
    rw [State.seqState_refreshHeld _ _ j.isLt, State.planStored_cfg]
    exact State.seqState_congr hstatus

end

end

/-! ### The boundary that closes a step -/

/-- The numerics of a boundary that ends no UPD section: the loss scale, the spike detector and the roll. -/
def State.rolled (s : State) (p j : Nat) (skipped : Bool) : State :=
  ((s.lossScale p j skipped false).spikeAtBoundary p j skipped).rollEntries p j skipped

/-- What a boundary then writes into the step registers (R194): STEP one more, LAST_SKIPPED and LAST_ACCUM, and the time. -/
def State.stepMarked (s : State) (p j : Nat) (skipped accum : Bool) : State :=
  let a := stepReg p j 0x10
  let t := s.setFld a 31 0 ((s.fld a 31 0 + 1) % 2 ^ 32)
  ((t.setFlag a 60 skipped).setFlag a 59 accum).setReg (stepReg p j 0x30) t.now

/-- STATE after a boundary: HELD where `hold` asks for it or the loss scale has reached its floor, else IDLE. -/
def State.closeState (s : State) (j : Nat) (hold : Bool) : Nat := if hold || s.heldOnClose.contains j then 7 else 0

/-- The boundary is told: its event, and the acted ring entries of the step complete. `l` are the jobs that the loss scale holds. -/
def State.stepTold (s : State) (p j : Nat) (l : List Nat) : State := ({ s with heldOnClose := l }.jobEvent p j 1).planDone j

theorem State.boundary_eq (s : State) (p j : Nat) (skipped accum hold : Bool) {t : State}
    (ht : (s.rolled p j skipped).stepMarked p j skipped accum = t) : s.boundary p j skipped accum false hold =
      (((t.setSeq p j (t.closeState j hold)).stepTold p j (t.heldOnClose.filter fun k => !(k == j))).refreshHeld p j).progress p := by
  rw [← ht]
  rfl

theorem State.rolled_keepsSteps (s : State) {p j : Nat} (hp : p < 8) (hj : j < 16) (skipped : Bool) : KeepsSteps s (s.rolled p j skipped) :=
  ((s.lossScale_keepsSteps hp hj skipped false).trans (State.spikeAtBoundary_keepsSteps _ hj skipped)).trans
    (State.rollEntries_keepsSteps _ hp hj skipped)

theorem onlyRegs_stepMarked (s : State) (p j : Nat) (skipped accum : Bool) : OnlyRegs s (s.stepMarked p j skipped accum) :=
  (((onlyRegs_setFld ..).trans (onlyRegs_setFlag ..)).trans (onlyRegs_setFlag ..)).trans (onlyRegs_setReg ..)

theorem State.stepTold_keepsSteps (s : State) (p j : Nat) (l : List Nat) : KeepsSteps s (s.stepTold p j l) :=
  (((KeepsSteps.refl s).heldOnClose l).jobEvent p j 1).trans (State.planDone_keepsSteps _ j)

theorem State.progress_keepsSteps (s : State) (p : Nat) : KeepsSteps s (s.progress p) := ⟨fun _ _ => rfl, rfl⟩

/-- What a boundary writes into PT_STEP_STATUS: STEP one more, LAST_SKIPPED and LAST_ACCUM, STATE `st`, and `held` records WAITING. -/
def State.closeStatus (s : State) (p j : Nat) (skipped accum : Bool) (st held : Nat) : State :=
  ((s.stepMarked p j skipped accum).setSeq p j st).setFld (stepReg p j 0x10) 58 56 held

/-- A boundary that ends no UPD section writes nothing into HBM; of PT_STEP_STATUS it writes what `closeStatus` says, with STATE HELD where `hold`
asks for it. -/
theorem State.boundary_status (s : State) {p j : Nat} (hp : p < 8) (hj : j < 16) (skipped accum hold : Bool) :
    (s.boundary p j skipped accum false hold).hbm = s.hbm ∧ ∃ st held, (hold = true → st = 7) ∧
      (s.boundary p j skipped accum false hold).reg (stepReg p j 0x10) =
        ((s.rolled p j skipped).closeStatus p j skipped accum st held).reg (stepReg p j 0x10) := by
  have hrolled := (s.rolled_keepsSteps hp hj skipped).hbm
  have hmarked := onlyRegs_stepMarked (s.rolled p j skipped) p j skipped accum
  obtain ⟨t, ht⟩ : ∃ t, (s.rolled p j skipped).stepMarked p j skipped accum = t := ⟨_, rfl⟩
  rw [s.boundary_eq p j skipped accum hold ht]
  rw [ht] at hmarked
  have hset := onlyRegs_setSeq t p j (t.closeState j hold)
  have htold := (t.setSeq p j (t.closeState j hold)).stepTold_keepsSteps p j (t.heldOnClose.filter fun k => !(k == j))
  generalize (t.setSeq p j (t.closeState j hold)).stepTold p j (t.heldOnClose.filter fun k => !(k == j)) = u at htold
  have hblock : StepBlock (stepReg p j 0x10) := stepReg_block hp hj (by decide)
  have hprogress := (u.refreshHeld p j).progress_keepsSteps p
  refine ⟨?_, t.closeState j hold, (Tab.get [] u.stepHeld j).length, fun h => ?_, ?_⟩
  · rw [hprogress.hbm, (onlyRegs_refreshHeld ..).hbm, htold.hbm, hset.hbm, hmarked.hbm, hrolled]
  · rw [State.closeState, h, Bool.true_or, if_pos rfl]
  · rw [hprogress.reg _ hblock, u.reg_refreshHeld_status p hj, State.reg_setFld_congr (htold.reg _ hblock), State.closeStatus, ht]

section
variable {s : State} {p j : Nat} (skipped accum : Bool) (st held : Nat)

theorem State.closeStatus_seqState : (s.closeStatus p j skipped accum st held).seqState p j = st % 8 := by
  rw [State.seqState_eq, State.closeStatus, State.fld_setFld_apart _ _ _ (by decide) (by decide) (by decide) (by decide),
    ← State.seqState_eq, State.seqState_setSeq]

/-- Below STATE and apart from WAITING, PT_STEP_STATUS holds what `stepMarked` writes there. -/
theorem State.fld_closeStatus_marks {hi lo : Nat} (hl : lo ≤ hi) (hhi : hi < 61) (hapart : hi < 56 ∨ 58 < lo) :
    (s.closeStatus p j skipped accum st held).fld (stepReg p j 0x10) hi lo =
      (((s.setFld (stepReg p j 0x10) 31 0 ((s.fld (stepReg p j 0x10) 31 0 + 1) % 2 ^ 32)).setFlag (stepReg p j 0x10) 60 skipped).setFlag
        (stepReg p j 0x10) 59 accum).fld (stepReg p j 0x10) hi lo := by
  rw [State.closeStatus, State.fld_setFld_apart _ _ _ (by decide) (by decide) hl hapart, State.setSeq,
    State.fld_setFld_apart _ _ _ (by decide) (by decide) hl (.inl hhi)]
  exact State.fld_congr (State.reg_setReg_ne _ _ (stepReg_ne (by decide))) hi lo

theorem State.closeStatus_skipped : (s.closeStatus p j skipped accum st held).flag (stepReg p j 0x10) 60 = skipped := by
  rw [State.flag_eq_fld, State.fld_closeStatus_marks _ _ _ _ (by decide) (by decide) (by decide), ← State.flag_eq_fld,
    State.flag_setFlag_ne _ _ _ (by decide) (by decide), State.flag_setFlag_self _ _ _ _ (by decide)]

theorem State.closeStatus_step : (s.closeStatus p j skipped accum st held).fld (stepReg p j 0x10) 31 0 =
    (s.fld (stepReg p j 0x10) 31 0 + 1) % 2 ^ 32 := by
  rw [State.fld_closeStatus_marks _ _ _ _ (by decide) (by decide) (by decide), State.setFlag, State.setFlag]
  simp (disch := decide) only [State.fld_setFld_apart]
  rw [State.fld_setFld_self _ _ _ _ _ (by decide) (by decide), Nat.mod_mod]

theorem State.closeStatus_cause : (s.closeStatus p j skipped accum st held).fld (stepReg p j 0x10) 55 54 = s.fld (stepReg p j 0x10) 55 54 := by
  rw [State.fld_closeStatus_marks _ _ _ _ (by decide) (by decide) (by decide), State.setFlag, State.setFlag]
  simp (disch := decide) only [State.fld_setFld_apart]

end

/-! ### A step that closes as skipped -/

/-- The step of job `j` is closed as skipped, for SKIP_CAUSE `cause`: HELD, LAST_SKIPPED, STEP one more, HBM as it was (R203, R204). -/
structure ClosedSkipped (s t : State) (p j cause : Nat) : Prop where
  held : t.seqState p j = 7
  skipped : t.flag (stepReg p j 0x10) 60 = true
  step : t.fld (stepReg p j 0x10) 31 0 = (s.fld (stepReg p j 0x10) 31 0 + 1) % 2 ^ 32
  cause : t.fld (stepReg p j 0x10) 55 54 = cause
  hbm : t.hbm = s.hbm

theorem ClosedSkipped.of_keepsSteps {s u t : State} {p j cause : Nat} (hp : p < 8) (hj : j < 16) (hkeeps : KeepsSteps s u)
    (h : ClosedSkipped u t p j cause) : ClosedSkipped s t p j cause where
  held := h.held
  skipped := h.skipped
  step := by rw [h.step, State.fld_congr (hkeeps.reg _ (stepReg_block hp hj (by decide)))]
  cause := h.cause
  hbm := h.hbm.trans hkeeps.hbm

theorem closedSkipped_boundary (s : State) {p j : Nat} (hp : p < 8) (hj : j < 16) :
    ClosedSkipped s (s.boundary p j true false false true) p j (s.fld (stepReg p j 0x10) 55 54) := by
  obtain ⟨hhbm, st, held, hst, hreg⟩ := s.boundary_status hp hj true false true
  rw [hst rfl] at hreg
  have hrolled := (s.rolled_keepsSteps hp hj true).reg _ (stepReg_block hp hj (o := 0x10) (by decide))
  refine ⟨(State.seqState_congr hreg).trans (State.closeStatus_seqState ..), (State.flag_congr hreg 60).trans (State.closeStatus_skipped ..),
    ?_, ?_, hhbm⟩
  · rw [State.fld_congr hreg, State.closeStatus_step, State.fld_congr hrolled]
  · rw [State.fld_congr hreg, State.closeStatus_cause, State.fld_congr hrolled]

/-- The RED and UPD records of job `j` that are held are consumed with STEP_SKIPPED (R204). -/
def State.consumeHeld (s : State) (p j : Nat) : State :=
  let q := Tab.get [] s.stepHeld j
  let out := fun (r : StartRec) => decide (2 ≤ s.roleOf p j r.rig r.section_)
  (q.filter out).foldl (fun (t : State) r => t.consume r 0x0504) { s with stepHeld := Tab.set [] s.stepHeld j (q.filter fun r => !(out r)) }

/-- A FAIL once its cause is stored: records consumed, PT_STEP_SKIPS, the event and the report STEP_SKIPPED (R204). -/
def State.skipTold (s : State) (p j cause : Nat) : State :=
  let t := ((s.consumeHeld p j).bump (stepReg p j 0x20) 1).jobEvent p j 2
  t.numFault p j 0x0504 0 cause (t.count (stepReg p j 0x18))

/-- A FAIL stores its cause, discards the window of thinned reduction, tells the skip and closes the step (R204). -/
theorem State.gateResult_fail {s : State} {p j : Nat} (cause : Nat) (hold : Bool) (hgate : s.seqState p j = 2) :
    s.gateResult p j false cause hold =
      (((s.setFld (stepReg p j 0x10) 55 54 cause).setFld (collReg p j 8) 63 57 0).skipTold p j cause).boundary p j true false false hold := by
  rw [State.gateResult, if_neg (Decidable.not_not.mpr hgate), if_neg Bool.false_ne_true]
  rfl

theorem State.consumeHeld_keepsSteps (s : State) (p j : Nat) : KeepsSteps s (s.consumeHeld p j) :=
  ((KeepsSteps.refl s).stepHeld _).foldl _ fun t r => t.consume_keepsSteps r 0x0504

/-- PT_STEP_SKIPS counts beside PT_STEP_STATUS, in the same page. -/
theorem State.bump_skips_status (s : State) {p : Nat} (hp : p < 8) {j : Nat} (hj : j < 16) (n : Nat) :
    (s.bump (stepReg p j 0x20) n).reg (stepReg p j 0x10) = s.reg (stepReg p j 0x10) := by
  have hpage : pageBase (stepReg p j 0x20) = pgPart p := by unfold pageBase stepReg pgPart; omega
  have hstatus := stepReg_status p j
  have hpart : pgPart p < 0x2_8000 := by unfold pgPart; omega
  refine s.bump_reg _ _ (stepReg_ne (by decide)) ?_ ?_ (by omega) <;> rw [hpage] <;> omega

theorem State.skipTold_status (s : State) {p j : Nat} (hp : p < 8) (hj : j < 16) (cause : Nat) :
    (s.skipTold p j cause).reg (stepReg p j 0x10) = s.reg (stepReg p j 0x10) ∧ (s.skipTold p j cause).hbm = s.hbm := by
  have hblock : StepBlock (stepReg p j 0x10) := stepReg_block hp hj (by decide)
  have hheld := s.consumeHeld_keepsSteps p j
  have htold : KeepsSteps ((s.consumeHeld p j).bump (stepReg p j 0x20) 1) (s.skipTold p j cause) :=
    ((KeepsSteps.refl _).jobEvent p j 2).numFault hp ..
  exact ⟨(htold.reg _ hblock).trans ((State.bump_skips_status _ hp hj 1).trans (hheld.reg _ hblock)),
    htold.hbm.trans ((onlyRegs_bump ..).hbm.trans hheld.hbm)⟩

theorem State.gateResult_closes {s : State} {p j cause : Nat} (hp : p < 8) (hj : j < 16) (hgate : s.seqState p j = 2) (hcause : cause < 4) :
    ClosedSkipped s (s.gateResult p j false cause true) p j cause := by
  rw [State.gateResult_fail cause true hgate]
  have hwindow : KeepsSteps (s.setFld (stepReg p j 0x10) 55 54 cause) ((s.setFld (stepReg p j 0x10) 55 54 cause).setFld (collReg p j 8) 63 57 0) :=
    (KeepsSteps.refl _).setFld (not_stepBlock_collReg p hj (by decide)) 63 57 0
  generalize (s.setFld (stepReg p j 0x10) 55 54 cause).setFld (collReg p j 8) 63 57 0 = t at hwindow ⊢
  obtain ⟨hstatus, hhbm⟩ := t.skipTold_status hp hj cause
  have hreg := hstatus.trans (hwindow.reg _ (stepReg_block hp hj (by decide)))
  have hclosed := closedSkipped_boundary (t.skipTold p j cause) hp hj
  refine ⟨hclosed.held, hclosed.skipped, ?_, ?_, ?_⟩
  · rw [hclosed.step, State.fld_congr hreg, State.fld_setFld_apart _ _ _ (by decide) (by decide) (by decide) (by decide)]
  · rw [hclosed.cause, State.fld_congr hreg, State.fld_setFld_self _ _ _ _ _ (by decide) (by decide)]
    exact Nat.mod_eq_of_lt hcause
  · rw [hclosed.hbm, hhbm, hwindow.hbm, State.setFld_hbm]

/-! ### No result of the gate -/

theorem State.gateNoResult_waits {s : State} {p j : Nat} (h : s.seqState p j ≠ 2 ∨ s.fld (stepReg p j 8) 47 40 = 0xFF ∨
    ¬Tab.get 0 s.pipeEnd j + 2 * (s.fld (stepReg p j 8) 63 48 * 1000) < s.now) : s.gateNoResult p j = s :=
  if_pos (by rwa [Nat.not_lt] at h)

/-- The deadline of the gate is reported in the page of the group's engine, and the agreement of job `j` ends (R203, R340). -/
def State.gateMissed (s : State) (p j : Nat) : State :=
  let g := s.fld (stepReg p j 8) 47 40
  let tag := Tab.get 0 s.pipeTag j
  let missing := s.agreeMissing j g
  let t := s.fallback (s.groupDie g) (collInfo g (slotBits missing.1) 0x1FF 0 j missing.2 tag)
  { t with agrees := t.agrees.filter fun a => a.perm || !(a.job == j), agreeDone := Tab.put t.agreeDone (agreeKey false j g) tag }

theorem State.gateMissed_keepsSteps (s : State) (p j : Nat) : KeepsSteps s (s.gateMissed p j) :=
  ((KeepsSteps.refl s).fallback (s.groupDie_lt _) _).agreements _ _

theorem State.gateNoResult_due {s : State} {p j : Nat} (hgate : s.seqState p j = 2) (hgroup : s.fld (stepReg p j 8) 47 40 ≠ 0xFF)
    (hdue : Tab.get 0 s.pipeEnd j + 2 * (s.fld (stepReg p j 8) 63 48 * 1000) < s.now) : s.gateNoResult p j =
      (s.gateMissed p j).gateResult p j false (if (s.gateMissed p j).count (stepReg p j 0x18) = 0 then 3 else 1) true := by
  refine if_neg ?_
  rintro (hother | hnone | hearly)
  · exact hother hgate
  · exact hgroup hnone
  · exact Nat.not_le.mpr hdue hearly

/-- Past twice the deadline the step fails and closes, with SKIP_CAUSE 1 where this device counted non-finite values, else 3. -/
theorem State.gateNoResult_closes {s : State} {p j : Nat} (hp : p < 8) (hj : j < 16) (hgate : s.seqState p j = 2)
    (hgroup : s.fld (stepReg p j 8) 47 40 ≠ 0xFF) (hdue : Tab.get 0 s.pipeEnd j + 2 * (s.fld (stepReg p j 8) 63 48 * 1000) < s.now) :
    ClosedSkipped s (s.gateNoResult p j) p j (if s.count (stepReg p j 0x18) = 0 then 3 else 1) := by
  have hmissed := s.gateMissed_keepsSteps p j
  have hcount : (s.gateMissed p j).count (stepReg p j 0x18) = s.count (stepReg p j 0x18) :=
    State.fld_congr (hmissed.reg _ (stepReg_block hp hj (by decide))) 47 0
  have hseq : (s.gateMissed p j).seqState p j = 2 := (State.seqState_congr (hmissed.reg _ (stepReg_block hp hj (by decide)))).trans hgate
  rw [State.gateNoResult_due hgate hgroup hdue, hcount]
  exact .of_keepsSteps hp hj hmissed (State.gateResult_closes hp hj hseq (by split <;> decide))

end Sys2Proof.Machine

namespace Sys2Proof
open Machine

/-- Settles O35: RESYNC and the plan's two registers by the state of the sequencer, and the gate without a result by its deadline. -/
theorem stepPlanRegisters : Obligations.StepPlanRegisters := by
  unfold Obligations.StepPlanRegisters
  refine ⟨fun s acc p j w hopen hjob => ⟨fun hacts hheld => ?_, execResync_ignored hopen hjob⟩, fun s acc p j cfg w => ?_, fun s dt p j => ?_⟩
  · refine ⟨_, execResync_held hopen hjob hacts hheld, ?_, ((onlyRegs_setSeq ..).trans (onlyRegs_refreshHeld ..)).stepHeld,
      s.resync_onlyRegsOf p.val j.val⟩
    rw [State.seqState_refreshHeld _ _ j.isLt, State.seqState_setSeq]
  · intro a hopen hjob
    exact ⟨execStepPlanWrite_running hopen hjob, execStepPlanWrite_answers hopen hjob⟩
  · intro u hlive g due
    have htick : KeepsSteps s u := s.tick_keepsSteps dt
    have hblock : ∀ o, o < 0x40 → u.reg (stepReg p.val j.val o) = s.reg (stepReg p.val j.val o) := fun o ho =>
      htick.reg _ (stepReg_block p.isLt j.isLt ho)
    have hseq : u.seqState p.val j.val = s.seqState p.val j.val := State.seqState_congr (hblock 0x10 (by decide))
    have hcfg : ∀ hi lo, u.fld (stepReg p.val j.val 8) hi lo = s.fld (stepReg p.val j.val 8) hi lo := State.fld_congr (hblock 8 (by decide))
    have hnext : execGateNoResult dt p j s = .next (u.gateNoResult p.val j.val) := congrArg Host.Outcome.next (State.whenLive_of_live hlive _)
    have hend : u.pipeEnd = s.pipeEnd := s.tick_pipeEnd dt
    refine ⟨fun hwaits => hnext.trans (congrArg _ (State.gateNoResult_waits ?_)), fun hgate hgroup hdue => ⟨_, hnext, ?_⟩⟩
    · rwa [hseq, hcfg, hcfg, hend]
    · have hclosed := State.gateNoResult_closes p.isLt j.isLt (hseq.trans hgate) (by rwa [hcfg]) (by rwa [hcfg, hend])
      have hcount : u.count (stepReg p.val j.val 0x18) = s.count (stepReg p.val j.val 0x18) := State.fld_congr (hblock 0x18 (by decide)) 47 0
      obtain ⟨hheld, hskipped, hstep, hcause, hhbm⟩ := ClosedSkipped.of_keepsSteps p.isLt j.isLt htick hclosed
      exact ⟨hheld, hskipped, hstep, hcount ▸ hcause, hhbm⟩

end Sys2Proof
end

section
/-! SUPPORT. The refutation of O36: a state in which STATE of PT_PHASE_STATUS is read as a grant of channels. A map-out runs of channel 10426,
which no module has; whether partition 0 has it granted (R353) is then read from bit 58 of PT_PHASE_STATUS of job 0, the low bit of STATE, which
falls as the switch settles. What held start records at R96 before the switch settled is so gone when the held record comes there. -/
namespace Sys2Proof.Machine

/-- A start record of job 0 for section 0 of RIG_ID 1. -/
def rolloutRecord : StartRec := { plainRecord with rig := 1 }

/-- A running device where job 0 of partition 0 drains toward GENERATE, alone, with no section in flight. RIG_ID 1 is its GEN_RIG, the phase
logic holds a record of it, and a map-out of channel 10426 is past its flip. -/
def drainingFarMapOut : State :=
  { regs := [(pgBare + 0x100, toW (7 * 2 ^ 57)), (pgPart 0 + 0x200, toW (2 ^ 63)),
      (phReg 0 0 8, toW (2 ^ 63 + 2 ^ 61 + 1 * 2 ^ 52 + 0xFF * 2 ^ 40)), (phReg 0 0 0x10, toW (2 * 2 ^ 60 + 1 * 2 ^ 58))]
    images := [{ plainImage with rig := 1 }]
    phaseHeld := [(0, [rolloutRecord])]
    maintRun := [{ src := 0, cls := 1, target := 10426, phase := 1 }] }

/-- A job that alternates alone settles once it has drained (R223). -/
theorem State.phaseDrained_alone {s : State} {p j : Nat} (hdrains : s.phState p j = 1)
    (hclear : ((s.sectionsOf j).any fun c => c.phase != 0 && c.phase != s.phTarget p j) = false) (halone : s.phaseGroup p j = 0xFF) :
    s.phaseDrained p j = s.settle p j := by
  refine (if_neg ?_).trans (if_pos halone)
  rintro (hother | hbusy)
  · exact hother hdrains
  · exact Bool.false_ne_true (hclear.symm.trans hbusy)

/-- The job drains, alone and with nothing in flight. -/
theorem drainingFarMapOut_drained : drainingFarMapOut.phState 0 0 = 1 ∧
    ((drainingFarMapOut.sectionsOf 0).any fun c => c.phase != 0 && c.phase != drainingFarMapOut.phTarget 0 0) = false ∧
    drainingFarMapOut.phaseGroup 0 0 = 0xFF := by decide

/-- The held record is of TARGET and of no step plan, and the map-out holds the job's start records. -/
theorem drainingFarMapOut_holds : drainingFarMapOut.roleOf 0 0 1 0 = 0 ∧
    drainingFarMapOut.phaseOfRig 0 0 1 = drainingFarMapOut.phTarget 0 0 ∧ drainingFarMapOut.r96Holds 0 0 = true := by decide

/-- The record passes R96 all the same: STATE 0 no longer reads as a grant of the channel. -/
theorem drainingFarMapOut_passes : Tab.get [] (drainingFarMapOut.settle 0 0).waiting 0 = [] := by decide

end Sys2Proof.Machine

namespace Sys2Proof
open Machine

/-- Refutes O36: the record that a settled switch lets go need not wait at R96, though start records of its job were held there. The statement
ranges over every state, also one whose map-out names a channel beyond the 1,024 of Table 0.3: there `r96Holds` reads the very status word that
settling writes. With channels below 1,024 this counterexample falls away. -/
theorem not_phaseAlternation : ¬ Obligations.PhaseAlternation := by
  unfold Obligations.PhaseAlternation
  intro hphases
  obtain ⟨hdrains, -⟩ := hphases
  have hlive : drainingFarMapOut.live = true := by decide
  obtain ⟨-, halone, -⟩ := hdrains drainingFarMapOut 0 0 hlive
  obtain ⟨hdraining, hclear, hgroup⟩ := drainingFarMapOut_drained
  obtain ⟨-, hreleases⟩ := halone hdraining hclear hgroup rfl rfl
  obtain ⟨hrole, htarget, hheld⟩ := drainingFarMapOut_holds
  obtain ⟨t, hnext, -, -, hwaiting, -⟩ := hreleases rolloutRecord rfl rfl hrole htarget hheld
  have hsettles : exec (.phaseDrained 0 0) drainingFarMapOut = .next (drainingFarMapOut.settle 0 0) :=
    congrArg Host.Outcome.next ((State.whenLive_of_live hlive _).trans (State.phaseDrained_alone hdraining hclear hgroup))
  obtain rfl : drainingFarMapOut.settle 0 0 = t := Host.Outcome.next.inj (hsettles.symm.trans hnext)
  exact absurd (drainingFarMapOut_passes.symm.trans hwaiting) (by decide)

end Sys2Proof
end

section
/-! SUPPORT. What a collective engine's commands rest on (the descriptors that run, HBM, and the answers of memory that requesters wait for), and that
frames, tokens, counters, events and faults leave it as it was. -/
namespace Sys2Proof.Machine

/-- The engines, HBM, and what requesters wait for. -/
structure RunView where
  engines : Tab EngineState
  hbm : Mem
  askers : Tab (Nat × Nat)

/-- That part of a state. -/
def State.runView (s : State) : RunView := ⟨s.engines, s.hbm, s.askers⟩

section
variable {s t : State} (h : t.runView = s.runView)
include h

theorem hbm_of_runView : t.hbm = s.hbm := congrArg RunView.hbm h

theorem askers_of_runView : t.askers = s.askers := congrArg RunView.askers h

theorem engine_of_runView (d : Nat) : t.engine d = s.engine d := by
  rw [State.engine, State.engine, show t.engines = s.engines from congrArg RunView.engines h]

theorem runAt_of_runView (d x : Nat) : t.runAt d x = s.runAt d x := by rw [State.runAt, State.runAt, engine_of_runView h]

end

theorem OnlyRegs.runView {s t : State} (h : OnlyRegs s t) : t.runView = s.runView := by
  obtain ⟨r, o, rfl⟩ := h
  rfl

@[simp] theorem State.runView_setFld (s : State) (a hi lo v : Nat) : (s.setFld a hi lo v).runView = s.runView := rfl

@[simp] theorem State.runView_bump (s : State) (a n : Nat) : (s.bump a n).runView = s.runView := (onlyRegs_bump ..).runView

@[simp] theorem State.runView_event (s : State) (pg i : Nat) : (s.event pg i).runView = s.runView := (onlyRegs_event ..).runView

@[simp] theorem State.runView_fallback (s : State) (d info : Nat) : (s.fallback d info).runView = s.runView := (onlyRegs_faultEv ..).runView

@[simp] theorem State.runView_partFault (s : State) (p code info : Nat) : (s.partFault p code info).runView = s.runView := by
  unfold State.partFault
  extract_lets c s1
  exact (onlyRegs_ite _ ((onlyRegs_fault ..).trans (onlyRegs_event ..)) (onlyRegs_fault ..)).runView

@[simp] theorem State.runView_waitNs (s : State) (a : Nat) : (s.waitNs a).runView = s.runView := by
  unfold State.waitNs
  split
  · rfl
  · exact State.runView_bump ..

@[simp] theorem State.runView_tick (s : State) (dt : Nat) : (s.tick dt).runView = s.runView := by
  obtain ⟨r, o, lim, slew, held, htick⟩ := s.tick_cases dt
  rw [htick]
  rfl

/-! ### Ports -/

@[simp] theorem State.runView_setPort (s : State) (q : Nat) (x : PortState) : (s.setPort q x).runView = s.runView := rfl

@[simp] theorem State.runView_emit (s : State) (o : Out) : (s.emit o).runView = s.runView := rfl

@[simp] theorem State.runView_stDrop (s : State) (q : Nat) : (s.stDrop q).runView = s.runView := by simp [State.stDrop]

@[simp] theorem State.runView_emitFrame (s : State) (q vc : Nat) (f : Frame) : (s.emitFrame q vc f).runView = s.runView := by
  unfold State.emitFrame
  split <;> rfl

@[simp] theorem State.runView_putFrame (s : State) (q : Nat) (f : TxFrame) (seq : Nat) : (s.putFrame q f seq).runView = s.runView := by
  unfold State.putFrame
  extract_lets s₁ x s₂
  have h₁ : s₁.runView = s.runView := by
    unfold s₁
    split
    · rfl
    · exact State.runView_setFld ..
  rw [State.runView_emitFrame, State.runView_bump, State.runView_bump]
  exact h₁

@[simp] theorem State.runView_sendHead (s : State) (q vc : Nat) : (s.sendHead q vc).runView = s.runView := by
  unfold State.sendHead
  extract_lets x
  split
  next e _ _ =>
    unfold State.resend
    rw [State.runView_putFrame, State.runView_bump, State.runView_setPort]
  · rfl
  next f rest _ _ =>
    rw [State.runView_putFrame, State.runView_setPort]

@[simp] theorem State.runView_pumpPort (s : State) (q n : Nat) : (s.pumpPort q n).runView = s.runView := by
  induction n generalizing s with
  | zero => rfl
  | succ n ih =>
    unfold State.pumpPort
    split
    · rfl
    · rw [ih, State.runView_sendHead]

@[simp] theorem State.runView_pushFrame (s : State) (q : Nat) (f : TxFrame) : (s.pushFrame q f).runView = s.runView := by
  simp [State.pushFrame, State.pump]

@[simp] theorem State.runView_sendLink (s : State) (q vc dev : Nat) (nak : Bool) : (s.sendLink q vc dev nak).runView = s.runView := by
  unfold State.sendLink
  split
  · rfl
  · simp

@[simp] theorem State.runView_freeSlot (s : State) (q vc : Nat) : (s.freeSlot q vc).runView = s.runView := by
  unfold State.freeSlot
  extract_lets x n x₁
  split
  · split
    · exact foldl_keeps_view State.runView _ _ _ fun _ _ _ => State.runView_emit ..
    · rfl
  · rfl

/-! ### Regulators -/

@[simp] theorem State.runView_beginHold (s : State) (kind p i job : Nat) : (s.beginHold kind p i job).runView = s.runView := by
  unfold State.beginHold
  extract_lets k last s₁
  split
  · rfl
  · rw [State.runView_event, State.runView_partFault]
    rfl

@[simp] theorem State.runView_letIn (s : State) (kind p i job cls bytes : Nat) (h : Held) :
    (s.letIn kind p i job cls bytes h).2.runView = s.runView := by
  unfold State.letIn
  extract_lets r b
  split
  · rfl
  · split
    · show (if b.held.isEmpty then s.beginHold kind p i job else s).runView = s.runView
      split
      · exact State.runView_beginHold ..
      · rfl
    · rfl

@[simp] theorem State.runView_enqueue (s : State) (q : Nat) (f : TxFrame) : (s.enqueue q f).runView = s.runView := by
  unfold State.enqueue
  split
  · simp
  · split
    · simp
    next p _ =>
      dsimp only
      split <;> simp

/-! ### Frames to peers -/

/-- A frame that is of no token channel. -/
@[simp] theorem State.runView_sendPeer (s : State) (i : Nat) (f : TxFrame) (dir : Bool) : (s.sendPeer i f none dir).runView = s.runView := by
  unfold State.sendPeer
  split <;> simp

@[simp] theorem State.runView_sendChunk (s : State) (d i : Nat) (r : CollRun) (down : Bool) (k cnt : Nat) (bs : List Byte) :
    (s.sendChunk d i r down k cnt bs).runView = s.runView := by simp [State.sendChunk]

@[simp] theorem State.runView_sendDown (s : State) (d : Nat) (r : CollRun) (k cnt : Nat) (bs : List Byte) :
    (s.sendDown d r k cnt bs).runView = s.runView := foldl_keeps_view State.runView _ _ _ fun _ _ _ => State.runView_sendChunk ..

/-! ### Tokens of the Stay dies -/

@[simp] theorem State.runView_slotGone (s : State) (x : InjTok) : (s.slotGone x).runView = s.runView := by
  unfold State.slotGone
  split <;> simp

@[simp] theorem State.runView_pumpInject (s : State) : s.pumpInject.runView = s.runView := by
  unfold State.pumpInject
  extract_lets go r
  have hgo : r.1.runView = s.runView := by
    refine List.foldlRecOn (motive := fun a => a.1.runView = s.runView) _ go ?none ?one
    case none => rfl
    intro a ha x _
    dsimp only [go]
    split
    · split <;> exact ha
    · split <;> exact ha
  exact (foldl_keeps_view State.runView _ _ _ fun _ _ _ => State.runView_slotGone ..).trans hgo

@[simp] theorem State.runView_doneToken (s : State) (d : Nat) (r : CollRun) : (s.doneToken d r).runView = s.runView := by
  unfold State.doneToken State.injectStay
  dsimp only
  split <;> exact State.runView_pumpInject _

end Sys2Proof.Machine
end

section
/-! SUPPORT. Descriptors of a collective engine: what is waiting and what runs, the reading of its own chunk (R331, R338), the chunk that is final at
a root that is alone (R337, R338), and its result in HBM (R229, R337). -/
namespace Sys2Proof.Machine

/-! ### Engines and runs -/

@[simp] theorem State.engine_setEngine_self (s : State) (d : Nat) (x : EngineState) : (s.setEngine d x).engine d = x := Tab.get_set_self ..

/-- The run of INDEX `x` is of that INDEX. -/
theorem State.index_of_runAt {s : State} {d x : Nat} {r : CollRun} (h : s.runAt d x = some r) : r.wait.index = x :=
  eq_of_beq (List.find?_some (p := fun q : CollRun => q.wait.index == x) h)

/-- MIN_CNT and MISSING are registers. -/
theorem State.redStatus_onlyRegs (s : State) (r : CollRun) : OnlyRegs s (s.redStatus r) := by
  unfold State.redStatus
  split
  · exact onlyRegs_ite _ ((onlyRegs_setFld ..).trans (onlyRegs_setFld ..)) (.refl s)
  · exact .refl s

/-- A run replaced by one of the same descriptor is what runs at its INDEX. -/
theorem State.runAt_setRun {s : State} {d x : Nat} {r r' : CollRun} (hrun : s.runAt d x = some r) (hwait : r'.wait = r.wait) :
    (s.setRun d r').runAt d x = some r' := by
  have hkeeps : ((fun q : CollRun => q.wait.index == x) ∘ fun q => if q.wait = r'.wait then r' else q) = fun q => q.wait.index == x := by
    funext q
    dsimp only [Function.comp]
    split
    next h => rw [h]
    · rfl
  have hrunning : (s.engine d).running.find? (fun q => q.wait.index == x) = some r := hrun
  rw [State.setRun, runAt_of_runView (State.redStatus_onlyRegs ..).runView, State.runAt, State.engine_setEngine_self]
  dsimp only
  rw [List.find?_map, hkeeps, hrunning, Option.map_some, if_pos hwait.symm]

theorem State.hbm_setRun (s : State) (d : Nat) (r : CollRun) : (s.setRun d r).hbm = s.hbm := (State.redStatus_onlyRegs ..).hbm

theorem State.askers_setRun (s : State) (d : Nat) (r : CollRun) : (s.setRun d r).askers = s.askers := by
  rw [State.setRun, askers_of_runView (State.redStatus_onlyRegs ..).runView]
  rfl

/-! ### Asking memory -/

theorem cutLines_ne_nil (a : Nat) {len : Nat} (h : len ≠ 0) : cutLines a len ≠ [] := by
  rw [cutLines, linesOf, if_neg h]
  simp

theorem joinLines_ne_nil {rs : List (Nat × Nat)} (h : rs ≠ []) : joinLines rs ≠ [] := by
  cases rs with
  | nil => exact absurd rfl h
  | cons a as =>
    unfold joinLines
    split
    · simp
    · split <;> simp

/-- Asking notes how many answers are awaited, and sends the requests to the slices. -/
theorem State.ask_cases (s : State) (key : Nat) (w : HbmUser) (rs : List (Nat × Nat)) : ∃ sl, s.ask key w rs =
    { s with freeCtr := s.freeCtr + 1, slices := sl, askers := Tab.put s.askers key (s.freeCtr + 1, (joinLines rs).length) } :=
  foldl_toSlice_cases (w.req 64 key (s.freeCtr + 1) false) (joinLines rs)
    { s with freeCtr := s.freeCtr + 1, askers := Tab.put s.askers key (s.freeCtr + 1, (joinLines rs).length) }

@[simp] theorem State.hbm_ask (s : State) (key : Nat) (w : HbmUser) (rs : List (Nat × Nat)) : (s.ask key w rs).hbm = s.hbm := by
  obtain ⟨sl, h⟩ := s.ask_cases key w rs
  rw [h]

@[simp] theorem State.runAt_ask (s : State) (key : Nat) (w : HbmUser) (rs : List (Nat × Nat)) (d x : Nat) :
    (s.ask key w rs).runAt d x = s.runAt d x := by
  obtain ⟨sl, h⟩ := s.ask_cases key w rs
  rw [h]
  rfl

/-- Who asks awaits at least one answer. -/
theorem State.askers_ask (s : State) (key : Nat) (w : HbmUser) {rs : List (Nat × Nat)} (hrs : rs ≠ []) :
    ∃ e, Tab.find? (s.ask key w rs).askers key = some e ∧ e.2 ≠ 0 := by
  obtain ⟨sl, h⟩ := s.ask_cases key w rs
  rw [h]
  exact ⟨_, Tab.find?_put_self .., fun hnone => joinLines_ne_nil hrs (List.length_eq_zero_iff.1 hnone)⟩

section
variable {s : State} {key : Nat} (w : HbmUser) {rs : List (Nat × Nat)}

/-- The first time, the requester asks. -/
theorem State.readNow_first (h : Tab.find? s.askers key = none) (hrs : rs ≠ []) : s.readNow key w rs = (false, s.ask key w rs) := by
  rw [State.readNow, h]
  exact if_neg (by rwa [List.isEmpty_iff])

/-- A requester that lacks answers waits. -/
theorem State.readNow_waits (h : s.served key = false) : s.readNow key w rs = (false, s) := by
  rw [State.served] at h
  rw [State.readNow]
  split at h
  next e he =>
    rw [he]
    exact if_neg (ne_of_beq_false h)
  · cases h

/-- With all answers the requester goes on. -/
theorem State.readNow_served (hasked : Tab.find? s.askers key ≠ none) (h : s.served key = true) : s.readNow key w rs = (true, s.dropAsk key) := by
  rw [State.served] at h
  rw [State.readNow]
  split at h
  next e he =>
    rw [he]
    exact if_pos (eq_of_beq h)
  next he => exact absurd he hasked

end

/-! ### The chunk of the node's own -/

section
variable {s : State} {d : Nat} {r : CollRun} (k : Nat)

theorem State.ownChunk_of_readNow {now : Bool} {t : State} (h : s.readNow (askKey (.run d r.wait.index)) (s.collUser r.wait.job r.body)
    (cutLines (chunkAddr r.src (dStripe r.body) k) 4096) = (now, t)) : s.ownChunk d r k =
    (if now then some (readElems (dInFmt r.body) (t.hbm.read (chunkAddr r.src (dStripe r.body) k) 4096)) else none, t) := by
  unfold State.ownChunk
  dsimp only
  rw [h]

theorem State.ownChunk_first (h : Tab.find? s.askers (askKey (.run d r.wait.index)) = none) : s.ownChunk d r k =
    (none, s.ask (askKey (.run d r.wait.index)) (s.collUser r.wait.job r.body) (cutLines (chunkAddr r.src (dStripe r.body) k) 4096)) := by
  rw [State.ownChunk_of_readNow k (State.readNow_first _ h (cutLines_ne_nil _ (by decide)))]
  rfl

theorem State.ownChunk_waits (h : s.served (askKey (.run d r.wait.index)) = false) : s.ownChunk d r k = (none, s) := by
  rw [State.ownChunk_of_readNow k (State.readNow_waits _ h)]
  rfl

theorem State.ownChunk_served (hasked : Tab.find? s.askers (askKey (.run d r.wait.index)) ≠ none)
    (h : s.served (askKey (.run d r.wait.index)) = true) : s.ownChunk d r k =
    (some (readElems (dInFmt r.body) (s.hbm.read (chunkAddr r.src (dStripe r.body) k) 4096)), s.dropAsk (askKey (.run d r.wait.index))) := by
  rw [State.ownChunk_of_readNow k (State.readNow_served _ hasked h)]
  rfl

end

/-! ### A chunk goes up -/

/-- A tree descriptor that reduces, without NORMS, that has chunks left to send up. -/
structure CollRun.Reduces (r : CollRun) : Prop where
  tree : dRing r.body = false
  noNorms : dFlag r.body 4 = false
  op : dOp r.body ≠ 4
  more : r.upK < dChunks r.body

/-- Its contribution has not all gone up. -/
theorem CollRun.Reduces.upDone {r : CollRun} (h : r.Reduces) (s : State) : s.upDone r = false := by
  rw [State.upDone, h.tree, if_neg (by decide), beq_false_of_ne h.op]
  exact decide_eq_false (Nat.not_le.2 h.more)

/-- A descriptor without NORMS has no norms to send. -/
theorem State.tryNorm_of_noNorms (s : State) (d : Nat) {r : CollRun} (h : dFlag r.body 4 = false) : s.tryNorm d r = s := by
  rw [State.tryNorm, h]
  rfl

theorem State.pushNorm_of_noNorms {s : State} {d x : Nat} {r : CollRun} (hrun : s.runAt d x = some r) (h : dFlag r.body 4 = false) :
    s.pushNorm d x = s := by
  rw [State.pushNorm, hrun]
  exact s.tryNorm_of_noNorms d h

/-- The next chunk of such a descriptor goes up, and with no norms that is all. -/
theorem CollRun.Reduces.chunkReady {s : State} {d x : Nat} {r r' : CollRun} (h : r.Reduces) (hrun : s.runAt d x = some r)
    (hafter : (s.treeUp d r).runAt d x = some r') (hbody : r'.body = r.body) : s.chunkReady d x r.upK = s.treeUp d r := by
  have hnext : ¬(r.upK ≠ r.upK ∨ s.upDone r = true) := by simp [h.upDone s]
  rw [State.chunkReady, hrun]
  dsimp only
  rw [if_neg hnext, h.tree, if_neg (by decide), State.pushNorm_of_noNorms hafter (by rw [hbody, h.noNorms])]

/-- Where a present child has not delivered the chunk, the node waits. -/
theorem State.treeUp_waits {s : State} (d : Nat) {r : CollRun} {i : Nat} (hop : dOp r.body ≠ 4) (hchild : i ∈ s.children (dGroup r.body))
    (hpresent : i ∉ r.missing) (hlacks : r.chunkFrom i r.upK = none) : s.treeUp d r = s := by
  have hhere : i ∈ r.present (s.children (dGroup r.body)) := List.mem_filter.2 ⟨hchild, by simpa using hpresent⟩
  have hfewer : ((r.present (s.children (dGroup r.body))).filterMap fun i => r.chunkFrom i r.upK).length <
      (r.present (s.children (dGroup r.body))).length := by
    rw [List.length_filterMap_eq_countP]
    exact Nat.lt_of_le_of_ne List.countP_le_length fun hall => by simpa [hlacks] using List.countP_eq_length.1 hall i hhere
  rw [State.treeUp, if_neg hop]
  exact if_pos hfewer

/-- The run of a root that is alone, once its chunk is final. -/
def CollRun.sole (r : CollRun) : CollRun :=
  { r with upK := r.upK + 1, minCnt := min r.minCnt 1, chunks := r.chunks.filter fun c => c.down || !(c.k == r.upK) }

section
variable {s t : State} {d : Nat} {r : CollRun} (hop : dOp r.body ≠ 4) (hchildren : s.children (dGroup r.body) = [])
include hop hchildren

/-- Without children the node needs its own chunk alone. -/
theorem State.treeUp_childless_waits (hown : s.ownChunk d r r.upK = (none, t)) : s.treeUp d r = t := by
  rw [State.treeUp, if_neg hop, hchildren, hown]
  rfl

theorem State.treeUp_childless_root (hroot : s.parent (dGroup r.body) = none) {xs : List (BitVec 32)}
    (hown : s.ownChunk d r r.upK = (some xs, t)) : s.treeUp d r = (t.setRun d r.sole).finalChunk d r.sole r.upK 1 xs := by
  rw [State.treeUp, if_neg hop, hchildren, hown, State.isRoot, hroot]
  rfl

end

/-! ### A final chunk of FP32 -/

theorem length_readElems_fp32 (bs : List Byte) : (readElems 0x9 bs).length = bs.length / 4 := by
  induction bs using readElems.induct with
  | case1 a b c d rest ih =>
    rw [readElems, if_neg (by decide), List.length_append, ih]
    simp only [List.length_cons, List.length_nil]
    omega
  | case2 bs hshort =>
    match bs, hshort with
    | [], _ | [_], _ | [_, _], _ | [_, _, _], _ => simp [readElems]
    | a :: b :: c :: d :: rest, hlong => exact (hlong a b c d rest rfl).elim

theorem length_writeElems_fp32 (xs : List (BitVec 32)) : (writeElems 0x9 xs).length = 4 * xs.length := by
  rw [writeElems]
  induction xs with
  | nil => rfl
  | cons x xs ih =>
    rw [List.flatMap_cons, List.length_append, ih, if_neg (by decide), length_leBytes, List.length_cons]
    omega

/-- A chunk cast from and to FP32 is a chunk. -/
theorem length_recast_fp32 {bs : List Byte} (h : bs.length = 4096) : (writeElems 0x9 (readElems 0x9 bs)).length = 4096 := by
  rw [length_writeElems_fp32, length_readElems_fp32, h]

theorem Mem.read_write_of_length (m : Mem) (a : Nat) {bs : List Byte} {n : Nat} (h : bs.length = n) : (m.write a bs).read a n = bs := by
  rw [← h, Mem.read_write_self]

/-- The state with HBM replaced. -/
def State.withHbm (s : State) (m : Mem) : State := { s with hbm := m }

@[simp] theorem State.hbm_withHbm (s : State) (m : Mem) : (s.withHbm m).hbm = m := rfl

@[simp] theorem State.askers_withHbm (s : State) (m : Mem) : (s.withHbm m).askers = s.askers := rfl

@[simp] theorem State.runAt_withHbm (s : State) (m : Mem) (d x : Nat) : (s.withHbm m).runAt d x = s.runAt d x := rfl

/-- HBM written: the bytes are there at once, and the requests go to the slices. -/
theorem State.runView_hbmWrite (s : State) (w : HbmUser) (a : Nat) (bs : List Byte) :
    (s.hbmWrite w a bs).runView = (s.withHbm (s.hbm.write a bs)).runView := by
  obtain ⟨sl, h⟩ := foldl_toSlice_cases (w.req 65 0 0 true) (joinLines (cutLines a bs.length)) { s with hbm := s.hbm.write a bs }
  rw [State.hbmWrite, State.post, h]
  rfl

/-- A SUM, without MEAN, of FP32 into FP32. -/
structure SumsFp32 (b : Nat) : Prop where
  op : dOp b = 1
  noMean : dFlag b 1 = false
  inFmt : dInFmt b = 0x9
  outFmt : dOutFmt b = 0x9

namespace SumsFp32

variable {b : Nat} (h : SumsFp32 b)
include h

theorem outLen : outLen b = 4096 := by
  rw [Machine.outLen, h.inFmt, h.outFmt]
  rfl

theorem outCut (k : Nat) {bs : List Byte} (hlen : bs.length = 4096) : outCut b k bs = [(k, bs)] := by
  rw [Machine.outCut, outFrames, h.outLen, hlen]
  simp [leBytes]

/-- Result chunks lie in DST as the chunks of the contribution lie in SRC. -/
theorem outPlace (size k : Nat) : outPlace b size k = (chunkAddr (dDst b) (dStripe b) k, 4096) := by
  simp [Machine.outPlace, h.outLen, h.op]

end SumsFp32

/-- The final chunk is written to its place in DST; engines and askers stay as they are. -/
theorem State.runView_finalChunk_fp32 (s : State) (d : Nat) {r : CollRun} (k cnt : Nat) {xs : List (BitVec 32)} (h : SumsFp32 r.body)
    (hlen : xs.length = 1024) : (s.finalChunk d r k cnt xs).runView =
      (s.withHbm (s.hbm.write (chunkAddr (dDst r.body) (dStripe r.body) k) (writeElems 0x9 xs))).runView := by
  have hbytes : (writeElems 0x9 xs).length = 4096 := by rw [length_writeElems_fp32, hlen]
  rw [State.finalChunk, meanElems, h.noMean, if_neg (by decide), h.outFmt, h.outCut k hbytes, List.foldl_cons, List.foldl_nil,
    State.runView_sendDown, State.putOutFrame, h.outPlace, List.take_of_length_le (Nat.le_of_eq hbytes), State.runView_hbmWrite]

end Sys2Proof.Machine
end

section
/-! SUPPORT. The commands of a collective engine's descriptors: a start in its turn (R331), a chunk of a tree without children (R338), the deadline
(R342) and the completion (R333). -/
namespace Sys2Proof.Machine

/-! ### COLL_DESC_START -/

theorem State.descStart_of_none {s : State} {d : Nat} (h : 4 ≤ (s.engine d).running.length ∨ (s.engine d).nextWait = none) :
    s.descStart d = s := by
  rw [State.descStart]
  rcases h with hfull | hnone
  · exact if_pos hfull
  · rw [hnone]
    exact ite_self s

/-- With no frame held, none goes on. -/
theorem State.releaseHeld_of_nil {s : State} (h : s.heldFrames = []) (g : Frame → Bool) : s.releaseHeld g = s := by
  rw [State.releaseHeld, h]
  rfl

/-- A descriptor that starts runs behind the others of its engine, from now, with nothing forwarded and nothing MISSING. -/
theorem State.engine_startRun {s : State} (d : Nat) (w : CollWait) (b : Nat) (h : s.heldFrames = []) : ∃ r,
    (s.startRun d w b).engine d = { s.engine d with running := (s.engine d).running ++ [r] } ∧
      r.wait = w ∧ r.body = b ∧ r.t0 = s.now ∧ r.upK = 0 ∧ r.missing = [] := by
  unfold State.startRun
  extract_lets win r r₁ x
  have hrun : r₁.wait = w ∧ r₁.body = b ∧ r₁.t0 = s.now ∧ r₁.upK = 0 ∧ r₁.missing = [] := by
    unfold r₁
    split <;> exact ⟨rfl, rfl, rfl, rfl, rfl⟩
  refine ⟨r₁, ?_, hrun⟩
  rw [State.releaseHeld_of_nil (by exact h), State.engine_setEngine_self]

/-- The next in turn leaves the queue and runs. -/
theorem State.engine_descStart {s : State} {d b : Nat} {w : CollWait} (hroom : (s.engine d).running.length < 4)
    (hnext : (s.engine d).nextWait = some w) (hbody : s.waitBody d w = some b) (hheld : s.heldFrames = []) : ∃ r,
    (s.descStart d).engine d =
        { s.engine d with waiting := (s.engine d).waiting.erase w, lastJob := w.job, running := (s.engine d).running ++ [r] } ∧
      r.wait = w ∧ r.body = b ∧ r.t0 = s.now ∧ r.upK = 0 ∧ r.missing = [] := by
  obtain ⟨r, hengine, hrun⟩ := State.engine_startRun
    (s := s.setEngine d { s.engine d with waiting := (s.engine d).waiting.erase w, lastJob := w.job }) d w b hheld
  have hstart : s.descStart d = (s.setEngine d { s.engine d with waiting := (s.engine d).waiting.erase w, lastJob := w.job }).startRun d w b := by
    have hbody' : (s.setEngine d { s.engine d with waiting := (s.engine d).waiting.erase w, lastJob := w.job }).waitBody d w = some b := hbody
    rw [State.descStart]
    dsimp only
    rw [if_neg (Nat.not_le.2 hroom), hnext]
    dsimp only
    rw [hbody']
  refine ⟨r, ?_, hrun⟩
  rw [hstart, hengine, State.engine_setEngine_self]

/-! ### COLL_CHUNK_READY -/

theorem State.chunkReady_of_none {s : State} {d x : Nat} (h : s.runAt d x = none) (k : Nat) : s.chunkReady d x k = s := by
  rw [State.chunkReady, h]

section
variable {s : State} {d x : Nat} {r : CollRun} (hrun : s.runAt d x = some r) (hred : r.Reduces)
include hrun hred

/-- A chunk that a present child still owes is not handled. -/
theorem State.chunkReady_waits {i : Nat} (hchild : i ∈ s.children (dGroup r.body)) (hpresent : i ∉ r.missing)
    (hlacks : r.chunkFrom i r.upK = none) : s.chunkReady d x r.upK = s := by
  have hup : s.treeUp d r = s := State.treeUp_waits d hred.op hchild hpresent hlacks
  rw [hred.chunkReady hrun (by rwa [hup]) rfl, hup]

variable (hchildren : s.children (dGroup r.body) = [])
include hchildren

/-- Without children the node first asks memory for its own chunk. -/
theorem State.chunkReady_asks (hfirst : Tab.find? s.askers (askKey (.run d x)) = none) : s.chunkReady d x r.upK =
    s.ask (askKey (.run d x)) (s.collUser r.wait.job r.body) (cutLines (chunkAddr r.src (dStripe r.body) r.upK) 4096) := by
  have hindex : r.wait.index = x := State.index_of_runAt hrun
  have hown := State.ownChunk_first (s := s) (d := d) (r := r) r.upK (by rwa [hindex])
  rw [hindex] at hown
  have hup := State.treeUp_childless_waits hred.op hchildren hown
  refine (hred.chunkReady hrun (r' := r) ?_ rfl).trans hup
  rw [hup, State.runAt_ask, hrun]

/-- It waits for all answers. -/
theorem State.chunkReady_unserved (hlacks : s.served (askKey (.run d x)) = false) : s.chunkReady d x r.upK = s := by
  have hown := State.ownChunk_waits (s := s) (d := d) (r := r) r.upK (by rwa [State.index_of_runAt hrun])
  have hup : s.treeUp d r = s := State.treeUp_childless_waits hred.op hchildren hown
  rw [hred.chunkReady hrun (by rwa [hup]) rfl, hup]

/-- With the answers a root that is alone writes the chunk, cast from and to FP32, and goes on to the next. -/
theorem State.chunkReady_final (hsum : SumsFp32 r.body) (hroot : s.parent (dGroup r.body) = none)
    (hasked : Tab.find? s.askers (askKey (.run d x)) ≠ none) (hserved : s.served (askKey (.run d x)) = true) :
    (s.chunkReady d x r.upK).hbm = s.hbm.write (chunkAddr (dDst r.body) (dStripe r.body) r.upK)
        (writeElems 0x9 (readElems 0x9 (s.hbm.read (chunkAddr r.src (dStripe r.body) r.upK) 4096))) ∧
      (s.chunkReady d x r.upK).runAt d x = some r.sole ∧ (s.chunkReady d x r.upK).askers = Tab.del s.askers (askKey (.run d x)) := by
  have hindex : r.wait.index = x := State.index_of_runAt hrun
  have hown := State.ownChunk_served (s := s) (d := d) (r := r) r.upK (by rwa [hindex]) (by rwa [hindex])
  rw [hindex, hsum.inFmt] at hown
  have hlen : (readElems 0x9 (s.hbm.read (chunkAddr r.src (dStripe r.body) r.upK) 4096)).length = 1024 := by
    rw [length_readElems_fp32, Mem.length_read]
  have hview := State.runView_finalChunk_fp32 ((s.dropAsk (askKey (.run d x))).setRun d r.sole) d (r := r.sole) r.upK 1 hsum hlen
  rw [← State.treeUp_childless_root hred.op hchildren hroot hown] at hview
  have hafter : (s.treeUp d r).runAt d x = some r.sole := by
    rw [runAt_of_runView hview, State.runAt_withHbm, State.runAt_setRun (s := s.dropAsk (askKey (.run d x))) (r' := r.sole) hrun rfl]
  rw [hred.chunkReady hrun hafter rfl]
  refine ⟨?_, hafter, ?_⟩
  · rw [hbm_of_runView hview, State.hbm_withHbm, State.hbm_setRun]
    rfl
  · rw [askers_of_runView hview, State.askers_withHbm, State.askers_setRun]
    rfl

end

/-! ### COLL_DEADLINE -/

/-- The present children that have delivered no chunk 0. -/
def State.lateChildren (s : State) (r : CollRun) : List Nat :=
  (r.present (s.children (dGroup r.body))).filter fun i => !(r.taken.contains (i, 0))

/-- Passing time leaves the Group Table alone. -/
theorem State.lateChildren_tick (s : State) (dt : Nat) (r : CollRun) : (s.tick dt).lateChildren r = s.lateChildren r := by
  have hgroup : dGroup r.body < 256 := bits_lt r.body 23 16
  have hreg : (s.tick dt).reg (pgGroup (dGroup r.body)) = s.reg (pgGroup (dGroup r.body)) := by
    refine s.tick_reg dt ?_ ?_ ?_ ?_ <;> simp only [pgGroup, pgGlobal, List.mem_cons, List.not_mem_nil, or_false] <;> omega
  rw [State.lateChildren, State.lateChildren, State.children, State.children, State.fld_congr hreg]

/-- The deadline has nothing to do: none is set, the operation has none (assumption 47 for BROADCAST), it has not passed, or no child is late. -/
def State.DeadlineIdle (s : State) (r : CollRun) : Prop :=
  dDeadline r.body = 0 ∨ dRing r.body = true ∨ dOp r.body = 4 ∨ s.now ≤ r.t0 + dDeadline r.body * (dLevel r.body + 1) * 1000 ∨
    s.lateChildren r = []

/-- The run with its late children MISSING, and without what they have sent. -/
def State.missLate (s : State) (r : CollRun) : CollRun :=
  { r with
    missing := r.missing ++ s.lateChildren r
    chunks := r.chunks.filter fun c => c.down || !((s.lateChildren r).contains c.slot) }

section
variable {s : State} {d x : Nat} {r : CollRun} (hrun : s.runAt d x = some r)
include hrun

theorem State.collDeadline_idle (h : s.DeadlineIdle r) : s.collDeadline d x = s := by
  rw [State.DeadlineIdle, ← List.isEmpty_iff] at h
  rw [State.collDeadline, hrun]
  exact if_pos h

theorem State.collDeadline_misses (h : ¬s.DeadlineIdle r) (hnorms : dFlag r.body 4 = false) :
    s.collDeadline d x = (s.setRun d (s.missLate r)).fallback d (collInfo (dGroup r.body) (slotBits (s.lateChildren r)) x 0 r.wait.job
      (1 + ((s.missLate r).present (s.children (dGroup r.body))).length) r.wait.tag) := by
  rw [State.DeadlineIdle, ← List.isEmpty_iff] at h
  rw [State.collDeadline, hrun]
  exact (if_neg h).trans (State.tryNorm_of_noNorms _ d hnorms)

/-- What runs, and HBM, after the deadline of a descriptor with late children. -/
theorem State.collDeadline_frame (h : ¬s.DeadlineIdle r) (hnorms : dFlag r.body 4 = false) :
    (s.collDeadline d x).runAt d x = some (s.missLate r) ∧ (s.collDeadline d x).hbm = s.hbm := by
  have hview : (s.collDeadline d x).runView = (s.setRun d (s.missLate r)).runView := by
    rw [State.collDeadline_misses hrun h hnorms, State.runView_fallback]
  exact ⟨(runAt_of_runView hview d x).trans (State.runAt_setRun hrun rfl), (hbm_of_runView hview).trans (s.hbm_setRun ..)⟩

end

/-! ### COLL_DESC_COMPLETE -/

/-- A descriptor that completes leaves its engine, which notes its TAG; its token and its counters leave engines and HBM alone. -/
theorem State.runView_completeRun (s : State) (d : Nat) (r : CollRun) : (s.completeRun d r).runView =
    (s.setEngine d { s.engine d with
      running := (s.engine d).running.filter fun q => !(decide (q.wait = r.wait))
      doneTag := Tab.put (s.engine d).doneTag (doneKey (dGroup r.body) r.wait.index r.wait.job) r.wait.tag }).runView := by
  unfold State.completeRun
  extract_lets x s₁ s₂ s₃
  have h₂ : s₂.runView = s₁.runView := by
    unfold s₂
    split <;> rfl
  have h₃ : s₃.runView = s₁.runView := by
    unfold s₃
    rw [State.runView_bump, State.runView_waitNs, h₂]
  split
  · rw [State.runView_doneToken, h₃]
  · exact h₃

end Sys2Proof.Machine
end

section
/-! SUPPORT. What the descriptor commands of a device that runs come to. -/
namespace Sys2Proof.Machine

theorem exec_collDescStart {s : State} (d : Die) (hlive : s.live = true) : exec (.collDescStart d) s = .next (s.descStart d.val) :=
  congrArg Host.Outcome.next (State.whenLive_of_live hlive _)

theorem exec_collChunkReady {s : State} (d : Die) (x : Fin 510) (k : Nat) (hlive : s.live = true) :
    exec (.collChunkReady d x k) s = .next (s.chunkReady d.val x.val k) :=
  congrArg Host.Outcome.next (State.whenLive_of_live hlive _)

theorem exec_collDeadline {s : State} (dt : Nat) (d : Die) (x : Fin 510) (hlive : (s.tick dt).live = true) :
    exec (.collDeadline dt d x) s = .next ((s.tick dt).collDeadline d.val x.val) :=
  congrArg Host.Outcome.next (State.whenLive_of_live hlive _)

theorem exec_collDescComplete_none {s : State} (d : Die) {x : Fin 510} (hlive : s.live = true) (hnone : s.runAt d.val x.val = none) :
    exec (.collDescComplete d x) s = .next s := by
  refine congrArg Host.Outcome.next ((State.whenLive_of_live hlive _).trans ?_)
  rw [hnone]

theorem exec_collDescComplete_some {s : State} (d : Die) {x : Fin 510} {r : CollRun} (hlive : s.live = true)
    (hrun : s.runAt d.val x.val = some r) :
    exec (.collDescComplete d x) s = .next (if s.runDone d.val r then s.completeRun d.val r else s) := by
  refine congrArg Host.Outcome.next ((State.whenLive_of_live hlive _).trans ?_)
  rw [hrun]

/-- A descriptor that has its whole result leaves the engine, which notes its TAG. -/
theorem exec_collDescComplete_done {s : State} (d : Die) {x : Fin 510} {r : CollRun} (hlive : s.live = true)
    (hrun : s.runAt d.val x.val = some r) (hdone : s.runDone d.val r = true) : Answers (exec (.collDescComplete d x) s) fun t =>
      (∀ r' ∈ (t.engine d.val).running, r'.wait ≠ r.wait) ∧
        Tab.find? (t.engine d.val).doneTag (doneKey (dGroup r.body) r.wait.index r.wait.job) = some r.wait.tag ∧ t.hbm = s.hbm := by
  rw [exec_collDescComplete_some d hlive hrun, if_pos hdone]
  have hview := State.runView_completeRun s d.val r
  have hengine := (engine_of_runView hview d.val).trans (State.engine_setEngine_self ..)
  refine ⟨_, rfl, fun r' hr' => ?_, ?_, (hbm_of_runView hview).trans rfl⟩
  · rw [hengine] at hr'
    simpa using (List.mem_filter.1 hr').2
  · rw [hengine, Tab.find?_put_self]

section
variable {s : State} (d : Die) {x : Fin 510} {r : CollRun} (hlive : s.live = true) (hrun : s.runAt d.val x.val = some r) (hred : r.Reduces)
  (hchildren : s.children (dGroup r.body) = [])
include hlive hrun hred hchildren

/-- A node without children asks memory, and the descriptor and HBM stay as they are. -/
theorem exec_collChunkReady_asks (hfirst : Tab.find? s.askers (askKey (.run d.val x.val)) = none) :
    Answers (exec (.collChunkReady d x r.upK) s) fun t =>
      (∃ e, Tab.find? t.askers (askKey (.run d.val x.val)) = some e ∧ e.2 ≠ 0) ∧ t.runAt d.val x.val = some r ∧ t.hbm = s.hbm := by
  rw [exec_collChunkReady d x r.upK hlive, State.chunkReady_asks hrun hred hchildren hfirst]
  exact ⟨_, rfl, State.askers_ask _ _ _ (cutLines_ne_nil _ (by decide)), (State.runAt_ask ..).trans hrun, State.hbm_ask ..⟩

/-- With the answers a root that is alone has its chunk in DST, nothing else of HBM written, and the next chunk before it. -/
theorem exec_collChunkReady_final (hsum : SumsFp32 r.body) (hroot : s.parent (dGroup r.body) = none)
    (hasked : Tab.find? s.askers (askKey (.run d.val x.val)) ≠ none) (hserved : s.served (askKey (.run d.val x.val)) = true) :
    Answers (exec (.collChunkReady d x r.upK) s) fun t =>
      t.hbm.read (chunkAddr (dDst r.body) (dStripe r.body) r.upK) 4096 =
        writeElems 0x9 (readElems 0x9 (s.hbm.read (chunkAddr r.src (dStripe r.body) r.upK) 4096)) ∧
      (∃ r', t.runAt d.val x.val = some r' ∧ r'.upK = r.upK + 1 ∧ r'.body = r.body) ∧
      Tab.find? t.askers (askKey (.run d.val x.val)) = none ∧
      ∀ a, a < chunkAddr (dDst r.body) (dStripe r.body) r.upK ∨ chunkAddr (dDst r.body) (dStripe r.body) r.upK + 4096 ≤ a →
        t.hbm.get a = s.hbm.get a := by
  obtain ⟨hhbm, hafter, haskers⟩ := State.chunkReady_final hrun hred hchildren hsum hroot hasked hserved
  have hlen := length_recast_fp32 (s.hbm.length_read (chunkAddr r.src (dStripe r.body) r.upK) 4096)
  refine ⟨_, exec_collChunkReady d x r.upK hlive, ?_, ⟨_, hafter, rfl, rfl⟩, ?_, fun a ha => ?_⟩
  · rw [hhbm, Mem.read_write_of_length _ _ hlen]
  · rw [haskers, Tab.find?_del, if_pos rfl]
  · rw [hhbm, Mem.get_write_outside _ _ _ (by rwa [hlen])]

end

end Sys2Proof.Machine

namespace Sys2Proof
open Machine

/-- Settles O42: a start in its turn, a chunk up to a root that is alone, the completion, and the deadline of late children. -/
theorem collectiveDescriptors : Obligations.CollectiveDescriptors := by
  unfold Obligations.CollectiveDescriptors
  refine ⟨fun s d hlive => ?start, fun s d x k hlive => ⟨fun hnone => ?_, fun r hrun htree hnorms hk hmore => ?chunk⟩,
    fun s d x hlive => ⟨exec_collDescComplete_none d hlive, fun r hrun => ?complete⟩, fun s dt d x r => ?deadline⟩
  case start =>
    refine ⟨fun hnone => (exec_collDescStart d hlive).trans (by rw [State.descStart_of_none hnone]), fun w b hroom hnext hbody hheld => ?_⟩
    obtain ⟨r, hengine, hrun⟩ := State.engine_descStart hroom hnext hbody hheld
    exact ⟨_, exec_collDescStart d hlive, by rw [hengine], by rw [hengine], r, by rw [hengine], hrun⟩
  · rw [exec_collChunkReady d x k hlive, State.chunkReady_of_none hnone]
  case chunk =>
    subst hk
    have hnext := exec_collChunkReady d x r.upK hlive
    refine ⟨fun i hop hchild hpresent hlacks => ?_, fun hop hchildren => ?_⟩
    · rw [hnext, State.chunkReady_waits hrun ⟨htree, hnorms, hop, hmore⟩ hchild hpresent hlacks]
    · have hred : r.Reduces := ⟨htree, hnorms, by rw [hop]; decide, hmore⟩
      refine ⟨fun hfirst => ?asks, fun hlacks => ?waits, fun hasked hserved hmean hin hout hroot => ?final⟩
      case asks => exact exec_collChunkReady_asks d hlive hrun hred hchildren hfirst
      case waits => rw [hnext, State.chunkReady_unserved hrun hred hchildren hlacks]
      case final => exact exec_collChunkReady_final d hlive hrun hred hchildren ⟨hop, hmean, hin, hout⟩ hroot hasked hserved
  case complete =>
    refine ⟨fun hstays => ?_, exec_collDescComplete_done d hlive hrun⟩
    rw [exec_collDescComplete_some d hlive hrun, hstays, if_neg (by decide)]
  case deadline =>
    intro u hlive hrun due late
    have hrun' : u.runAt d.val x.val = some r := (runAt_of_runView (s.runView_tick dt) _ _).trans hrun
    have hlate : u.lateChildren r = late := s.lateChildren_tick dt r
    have hnext : exec (.collDeadline dt d x) s = .next (u.collDeadline d.val x.val) := exec_collDeadline dt d x hlive
    refine ⟨fun hidle => ?_, fun hdue hset htree hop hnorms hsome => ?_⟩
    · have hidle' : u.DeadlineIdle r := by
        rw [State.DeadlineIdle, hlate]
        rcases hidle with hnot | hnone | hring | hbroadcast | hnil
        · exact .inr (.inr (.inr (.inl (Nat.not_lt.1 hnot))))
        · exact .inl hnone
        · exact .inr (.inl hring)
        · exact .inr (.inr (.inl hbroadcast))
        · exact .inr (.inr (.inr (.inr hnil)))
      rw [hnext, State.collDeadline_idle hrun' hidle']
    · have hacts : ¬u.DeadlineIdle r := by
        rw [State.DeadlineIdle, hlate, htree]
        rintro (hnone | hring | hbroadcast | hearly | hnil)
        · exact hset hnone
        · cases hring
        · exact hop hbroadcast
        · exact Nat.not_lt.2 hearly hdue
        · exact hsome hnil
      obtain ⟨hmissing, hhbm⟩ := State.collDeadline_frame hrun' hacts hnorms
      refine ⟨_, hnext, ?_, hhbm.trans (s.tick_hbm dt)⟩
      rw [hmissing, State.missLate, hlate]

end Sys2Proof
end

section
/-! SUPPORT. Writes to the Shard Directory and to YD_STOW (R264, R279, Table 11.8): which writes an entry with sections in flight takes, and what a
write of STAGED alone comes to. -/
namespace Sys2Proof.Machine

/-! ### One bit of a register -/

/-- A mask of one bit takes that bit. -/
theorem maskAnd_two_pow (x i : Nat) : maskAnd x (2 ^ i) = b2n (bit x i) * 2 ^ i := by
  have hbits (j : Nat) : (maskAnd x (2 ^ i)).testBit j = (x.testBit j && decide (i = j)) := by
    rw [show maskAnd x (2 ^ i) = x &&& 2 ^ i from rfl, Nat.testBit_and, Nat.testBit_two_pow]
  refine Nat.eq_of_testBit_eq fun j => (hbits j).trans ?_
  rw [bit_eq_testBit]
  cases hset : x.testBit i with
  | false =>
    rw [show b2n false * 2 ^ i = 0 from Nat.zero_mul _, Nat.zero_testBit]
    by_cases hij : i = j
    · rw [← hij, hset, Bool.false_and]
    · rw [decide_eq_false hij, Bool.and_false]
  | true =>
    rw [show b2n true * 2 ^ i = 2 ^ i from Nat.one_mul _, Nat.testBit_two_pow]
    by_cases hij : i = j
    · rw [← hij, hset, Bool.true_and]
    · rw [decide_eq_false hij, Bool.and_false]

/-- A merge of one bit is a write of that bit. -/
theorem mergeBits_two_pow (old w i : Nat) : mergeBits old w (2 ^ i) = setBits old i i (b2n (bit w i)) := by
  have hfield : bits old i i = b2n (bit old i) := by
    rw [bit_eq_bits, bits, show i + 1 - i = 1 by omega]
    rcases Nat.mod_two_eq_zero_or_one (old / 2 ^ i) with hzero | hone
    · rw [show 2 ^ 1 = 2 from rfl, hzero]; rfl
    · rw [show 2 ^ 1 = 2 from rfl, hone]; rfl
  have hbit : b2n (bit w i) % 2 ^ (i + 1 - i) = b2n (bit w i) := by
    rw [show i + 1 - i = 1 by omega]
    cases bit w i <;> rfl
  rw [mergeBits, setBits, maskAnd_two_pow, maskAnd_two_pow, hfield, hbit]

/-! ### The words of an entry -/

theorem sdAddr_injective {a b : Nat} (h : sdAddr a = sdAddr b) : a = b := by
  unfold sdAddr at h
  omega

theorem windowKind_sdAddr {b : Nat} (hb : b < 131072) : windowKind (sdAddr b) = 1 := by
  unfold windowKind sdAddr
  exact if_pos (by omega)

theorem sdAddr_aligned (b : Nat) : sdAddr b % 32 = 0 := by
  unfold sdAddr
  omega

/-- Word 0 of an entry (Table 11.8): ACT and VER are not writable. -/
theorem regRow_sdAddr {b : Nat} (hb : b < 131072) : regRow (sdAddr b) = some { off := 0, rw := 0xCFF0_0000_FFFF_FFFF, own := true } := by
  rw [regRow, windowKind_sdAddr hb, sdAddr_aligned]
  rfl

theorem regReset_sdAddr {b : Nat} (hb : b < 131072) : regReset (sdAddr b) = 0 := by
  rw [regReset, regRow_sdAddr hb]
  rfl

/-- No word of an entry has a bound on what it stores. -/
theorem clampReg_sdAddr {b : Nat} (hb : b < 131072) (old v : Nat) : clampReg (sdAddr b) old v = v := by
  rw [clampReg, windowKind_sdAddr hb, if_neg (show ¬(sdAddr b < 0x200_0000 ∧ 1 = 0) from fun h => Nat.one_ne_zero h.2)]
  rfl

theorem State.storeReg_of_plain (s : State) {a : Nat} {r : RegRow} (w m : Nat) (hrow : regRow a = some r) (hkind : r.kind = .plain) :
    s.storeReg a w m = s.setReg a (clampReg a (s.reg a) (mergeBits (s.reg a) w (maskAnd r.rw m))) := by
  rw [State.storeReg, hrow]
  dsimp only
  rw [hkind]

/-- A write of word 0 that reaches only STAGED. -/
theorem State.storeReg_staged (s : State) {b : Nat} (hb : b < 131072) (w : Nat) :
    s.storeReg (sdAddr b) w (2 ^ 62) = s.setFlag (sdAddr b) 62 (bit w 62) := by
  have hwritable : maskAnd 0xCFF0_0000_FFFF_FFFF (2 ^ 62) = 2 ^ 62 := by decide
  rw [s.storeReg_of_plain w (2 ^ 62) (regRow_sdAddr hb) rfl, hwritable, clampReg_sdAddr hb, mergeBits_two_pow, State.setFlag, State.setFld]

/-! ### Writes to an entry -/

theorem State.sdAct_lt (s : State) (b : Nat) : s.sdAct b < 2 := Nat.mod_lt _ (by decide)

/-- A valid entry with a section of its job in flight (R279). -/
def State.SdShut (s : State) (b : Nat) : Prop := s.sdValid b = true ∧ s.jobIdle (s.sdJob b) = false

theorem accMask_whole {acc : Acc} (h : acc.size = 8) : accMask acc = 2 ^ 64 - 1 := by rw [accMask, if_pos h]

/-- A write that changes every bit it may keeps a word that fits. -/
theorem maskAnd_whole (w : W64) : maskAnd w.toNat (2 ^ 64 - 1) = w.toNat :=
  (Nat.and_two_pow_sub_one_eq_mod w.toNat 64).trans (Nat.mod_eq_of_lt w.isLt)

section
variable {s : State} {b k w m : Nat}

theorem State.sdWrite_free (hfree : ¬s.SdShut b) (hkept : 0 < k ∨ bit (maskAnd w m) 60 = false) :
    s.sdWrite b k w m = s.storeReg (sdAddr b + 8 * k) w m := by
  have hcond : (!(s.sdValid b) || s.jobIdle (s.sdJob b)) = true := by
    rw [State.SdShut] at hfree
    cases hvalid : s.sdValid b
    · rfl
    · simpa [hvalid] using hfree
  have hmark : ¬(k = 0 ∧ bit (maskAnd w m) 60 = true) := by
    rintro ⟨hzero, hset⟩
    rcases hkept with hpos | hclear
    · exact Nat.ne_of_gt hpos hzero
    · rw [hclear] at hset; exact Bool.false_ne_true hset
  rw [State.sdWrite, hcond]
  exact (if_pos rfl).trans (if_neg hmark)

/-- What a write to an entry that is shut comes to, by the word. -/
theorem State.sdWrite_shut (hshut : s.SdShut b) : s.sdWrite b k w m =
    if k = 0 then s.storeReg (sdAddr b + 8 * k) w (maskAnd m (2 ^ 62))
    else if k = 2 - s.sdAct b then s.storeReg (sdAddr b + 8 * k) w m else s := by
  obtain ⟨hvalid, hbusy⟩ := hshut
  rw [State.sdWrite, hvalid, hbusy]
  rfl

end

section
variable {s : State} {acc : Acc} {b : Fin 131072} {k : Fin 4} (w : W64) (hopen : s.Open acc (sdAddr b.val + 8 * k.val)) (hsize : acc.size = 8)
include hopen hsize

theorem execSdEntryWrite_next : execSdEntryWrite acc b k w s = .next (s.sdWrite b.val k.val w.toNat (2 ^ 64 - 1)) := by
  rw [execSdEntryWrite, State.hostWrite_of_open hopen, accMask_whole hsize]

theorem execSdEntryWrite_stores (hfree : ¬s.SdShut b.val) (hkept : 0 < k.val ∨ bit w.toNat 60 = false) :
    execSdEntryWrite acc b k w s = .next (s.storeReg (sdAddr b.val + 8 * k.val) w.toNat (accMask acc)) := by
  rw [execSdEntryWrite_next w hopen hsize, State.sdWrite_free hfree (by rwa [maskAnd_whole]), accMask_whole hsize]

section
variable (hshut : s.SdShut b.val)
include hshut

theorem execSdEntryWrite_staged (hk : k.val = 0) :
    execSdEntryWrite acc b k w s = .next (s.setFlag (sdAddr b.val + 8 * k.val) 62 (bit w.toNat 62)) := by
  rw [execSdEntryWrite_next w hopen hsize, State.sdWrite_shut hshut, if_pos hk, hk]
  exact congrArg Host.Outcome.next (s.storeReg_staged b.isLt w.toNat)

theorem execSdEntryWrite_inactive (hk : k.val = 2 - s.sdAct b.val) :
    execSdEntryWrite acc b k w s = .next (s.storeReg (sdAddr b.val + 8 * k.val) w.toNat (accMask acc)) := by
  have hact := s.sdAct_lt b.val
  rw [execSdEntryWrite_next w hopen hsize, State.sdWrite_shut hshut, if_neg (by omega), if_pos hk, accMask_whole hsize]

theorem execSdEntryWrite_active (hk : k.val = s.sdAct b.val + 1 ∨ k.val = 3) : execSdEntryWrite acc b k w s = .next s := by
  have hact := s.sdAct_lt b.val
  rw [execSdEntryWrite_next w hopen hsize, State.sdWrite_shut hshut, if_neg (by omega), if_neg (by omega)]

end

end

/-! ### BASE of YD_STOW -/

section
variable {s : State} {acc : Acc} {y : Yard} (w : W64) (hopen : s.Open acc (pgYard y.val + 0x188))
include hopen

theorem execStowBaseWrite_stores (hnone : s.stowExtents y.val = []) :
    execStowBaseWrite acc y w s = .next (s.storeReg (pgYard y.val + 0x188) w.toNat (accMask acc)) := by
  rw [execStowBaseWrite, State.hostWrite_of_open hopen, hnone]
  rfl

theorem execStowBaseWrite_kept (hsome : s.stowExtents y.val ≠ []) : execStowBaseWrite acc y w s = .next s := by
  rw [execStowBaseWrite, State.hostWrite_of_open hopen, if_neg (by rwa [List.isEmpty_iff])]

end

end Sys2Proof.Machine
end

section
/-! SUPPORT. The pending flip (R280): the request, the entries that a flip reaches, and what it does to each of them. -/
namespace Sys2Proof.Machine

/-! ### The request -/

/-- An entry reads its active placement from word 0. -/
theorem State.sdAct_congr {s t : State} {b : Nat} (h : t.reg (sdAddr b) = s.reg (sdAddr b)) : t.sdAct b = s.sdAct b := by
  have hword : t.sdWord b 0 = s.sdWord b 0 := h
  rw [State.sdAct, State.sdAct, hword]

section
variable {s : State} {acc : Acc} {w : W64} (hopen : s.Open acc (pgGlobal + 0x920))
include hopen

theorem execFlip_pends (hacts : acts w.toNat 0 = true) (hfree : s.flag (pgGlobal + 0x928) 63 = false) : execFlip acc w s =
    .next (((s.storeReg (pgGlobal + 0x920) w.toNat (accMask acc)).setFlag (pgGlobal + 0x928) 63 true).setFld (pgGlobal + 0x928) 59 56
      ((s.storeReg (pgGlobal + 0x920) w.toNat (accMask acc)).fld (pgGlobal + 0x920) 7 4)) := by
  have hfree' := (State.flag_congr (s.reg_storeReg_ne (a := pgGlobal + 0x920) w.toNat (accMask acc) (by decide)) 63).trans hfree
  exact congrArg Host.Outcome.next ((State.hostWrite_of_open hopen _).trans (if_pos (by rw [hacts, hfree']; rfl)))

theorem execFlip_ignored (hpends : s.flag (pgGlobal + 0x928) 63 = true) :
    execFlip acc w s = .next (s.storeReg (pgGlobal + 0x920) w.toNat (accMask acc)) := by
  have hpends' := (State.flag_congr (s.reg_storeReg_ne (a := pgGlobal + 0x920) w.toNat (accMask acc) (by decide)) 63).trans hpends
  exact congrArg Host.Outcome.next ((State.hostWrite_of_open hopen _).trans (if_neg (by rw [hpends', Bool.not_true, Bool.and_false]; decide)))

end

/-- No word of an entry is a register of the Global page. -/
theorem sdAddr_ne_global {o : Nat} (b : Nat) (ho : o < 0x1000) : sdAddr b ≠ pgGlobal + o := by
  unfold sdAddr pgGlobal
  omega

/-- FLIP by whether a flip is pending. -/
theorem execFlip_answers {s : State} {acc : Acc} {w : W64} (hopen : s.Open acc (pgGlobal + 0x920)) (hacts : acts w.toNat 0 = true) :
    Answers (execFlip acc w s) fun t =>
      (s.flag (pgGlobal + 0x928) 63 = false →
        t.flag (pgGlobal + 0x928) 63 = true ∧ t.fld (pgGlobal + 0x928) 59 56 = t.fld (pgGlobal + 0x920) 7 4) ∧
      (s.flag (pgGlobal + 0x928) 63 = true → t.reg (pgGlobal + 0x928) = s.reg (pgGlobal + 0x928)) ∧ ∀ b, t.sdAct b = s.sdAct b := by
  have hact (b : Nat) : (s.storeReg (pgGlobal + 0x920) w.toNat (accMask acc)).reg (sdAddr b) = s.reg (sdAddr b) :=
    s.reg_storeReg_ne _ _ (sdAddr_ne_global b (by decide))
  cases hpends : s.flag (pgGlobal + 0x928) 63
  case true =>
    refine ⟨_, execFlip_ignored hopen hpends, Bool.noConfusion, fun _ => ?_, fun b => State.sdAct_congr (hact b)⟩
    exact s.reg_storeReg_ne _ _ (by decide)
  case false =>
    refine ⟨_, execFlip_pends hopen hacts hpends, fun _ => ⟨?_, ?_⟩, Bool.noConfusion, fun b => State.sdAct_congr ?_⟩
    · rw [State.flag_eq_fld, State.fld_setFld_above _ _ _ _ _ _ _ (by decide) (by decide) (by decide), ← State.flag_eq_fld,
        State.flag_setFlag_self _ _ _ _ (by decide)]
    · rw [State.fld_setFld_self _ _ _ _ _ (by decide) (by decide),
        State.fld_congr (s := s.storeReg (pgGlobal + 0x920) w.toNat (accMask acc)) (a := pgGlobal + 0x920)
          ((State.reg_setFld_ne _ _ _ _ (by decide)).trans (State.reg_setFlag_ne _ _ _ (by decide)))]
      exact Nat.mod_eq_of_lt (bits_lt _ 7 4)
    · have hne := sdAddr_ne_global (o := 0x928) b (by decide)
      rw [State.reg_setFld_ne _ _ _ _ hne, State.reg_setFlag_ne _ _ _ hne, hact]

/-! ### The entries that a flip reaches -/

/-- A key that is found is listed. -/
theorem Tab.mem_of_find? {α : Type} {t : Tab α} {k : Nat} {v : α} (h : Tab.find? t k = some v) : (k, v) ∈ t := by
  induction t with
  | nil => cases h
  | cons e t ih =>
    obtain ⟨j, x⟩ := e
    rw [Tab.find?] at h
    split at h
    · next hk => cases h; exact hk ▸ List.mem_cons_self
    · exact List.mem_cons_of_mem _ (ih h)

/-- STAGED is 0 at reset, so a staged entry is among those that have been written. -/
theorem State.mem_sdListed {s : State} {b : Nat} (hb : b < 131072) (hstaged : s.sdStaged b = true) : b ∈ s.sdListed := by
  cases hfind : Tab.find? s.regs (sdAddr b) with
  | none =>
    have hreset : s.sdWord b 0 = 0 := by
      show (Tab.get (regReset (sdAddr b)) s.regs (sdAddr b)).toNat = 0
      rw [Tab.get, hfind, regReset_sdAddr hb]
      rfl
    rw [State.sdStaged, hreset] at hstaged
    cases hstaged
  | some v =>
    refine List.mem_filterMap.2 ⟨_, Tab.mem_of_find? hfind, (if_pos ⟨windowKind_sdAddr hb, sdAddr_aligned b⟩).trans ?_⟩
    congr 1
    show (sdAddr b - 0x30_0000) / 32 = b
    unfold sdAddr
    omega

/-! ### The flip of one entry -/

theorem onlyRegs_flipEntry (s : State) (b : Nat) : OnlyRegs s (s.flipEntry b) :=
  onlyRegs_ite _ (((onlyRegs_setFlag ..).trans (onlyRegs_setFlag ..)).trans (onlyRegs_setFld ..)) (.refl s)

theorem State.reg_flipEntry_ne (s : State) (b : Nat) {a : Nat} (h : a ≠ sdAddr b) : (s.flipEntry b).reg a = s.reg a := by
  refine reg_ite _ ?_ rfl
  rw [State.reg_setFld_ne _ _ _ _ h, State.reg_setFlag_ne _ _ _ h, State.reg_setFlag_ne _ _ _ h]

theorem State.flipEntry_unstaged {s : State} {b : Nat} (h : s.flag (sdAddr b) 62 = false) : s.flipEntry b = s :=
  if_neg (Bool.eq_false_iff.1 h)

/-- Entry `b` of `t` is that of `s` flipped: ACT inverted, STAGED 0, VER one more. -/
def State.EntryFlipped (s t : State) (b : Nat) : Prop :=
  t.flag (sdAddr b) 61 = !(s.flag (sdAddr b) 61) ∧ t.flag (sdAddr b) 62 = false ∧
    t.fld (sdAddr b) 47 32 = (s.fld (sdAddr b) 47 32 + 1) % 65536

theorem State.EntryFlipped.congr {s s' t t' : State} {b : Nat} (h : s.EntryFlipped t b) (hs : s'.reg (sdAddr b) = s.reg (sdAddr b))
    (ht : t'.reg (sdAddr b) = t.reg (sdAddr b)) : s'.EntryFlipped t' b := by
  rw [State.EntryFlipped, State.flag_congr hs, State.fld_congr hs, State.flag_congr ht, State.flag_congr ht, State.fld_congr ht]
  exact h

theorem State.flipEntry_flips {s : State} {b : Nat} (h : s.flag (sdAddr b) 62 = true) : s.EntryFlipped (s.flipEntry b) b := by
  rw [State.flipEntry, if_pos h]
  refine ⟨?_, ?_, ?_⟩
  · rw [State.flag_eq_fld, State.fld_setFld_above _ _ _ _ _ _ _ (by decide) (by decide) (by decide), ← State.flag_eq_fld,
      State.flag_setFlag_ne _ _ _ (by decide) (by decide), State.flag_setFlag_self _ _ _ _ (by decide)]
  · rw [State.flag_eq_fld, State.fld_setFld_above _ _ _ _ _ _ _ (by decide) (by decide) (by decide), ← State.flag_eq_fld,
      State.flag_setFlag_self _ _ _ _ (by decide)]
  · rw [State.fld_setFld_self _ _ _ _ _ (by decide) (by decide)]
    exact Nat.mod_mod _ _

/-! ### The flip of a list of entries -/

/-- Entries that are not listed, or not staged, stay as they are. -/
theorem State.reg_flips_kept {s : State} {b : Nat} (l : List Nat) (h : b ∈ l → s.flag (sdAddr b) 62 = false) :
    (l.foldl State.flipEntry s).reg (sdAddr b) = s.reg (sdAddr b) := by
  induction l generalizing s with
  | nil => rfl
  | cons x l ih =>
    have hhead : (s.flipEntry x).reg (sdAddr b) = s.reg (sdAddr b) := by
      by_cases hx : b = x
      · subst hx
        rw [State.flipEntry_unstaged (h List.mem_cons_self)]
      · exact s.reg_flipEntry_ne x fun haddr => hx (sdAddr_injective haddr)
    rw [List.foldl_cons, ih fun hb => (State.flag_congr hhead 62).trans (h (List.mem_cons_of_mem x hb)), hhead]

/-- A staged entry that is listed flips once, however often it is listed: the first flip clears STAGED. -/
theorem State.flips_flipped {s : State} {b : Nat} {l : List Nat} (hmem : b ∈ l) (hstaged : s.flag (sdAddr b) 62 = true) :
    s.EntryFlipped (l.foldl State.flipEntry s) b := by
  induction l generalizing s with
  | nil => cases hmem
  | cons x l ih =>
    rw [List.foldl_cons]
    by_cases hx : b = x
    · subst hx
      have hflipped := State.flipEntry_flips hstaged
      have ⟨_, hcleared, _⟩ := hflipped
      exact hflipped.congr rfl (State.reg_flips_kept l fun _ => hcleared)
    · have hhead := s.reg_flipEntry_ne x fun haddr => hx (sdAddr_injective haddr)
      have hlater := ih ((List.mem_cons.1 hmem).resolve_left hx) ((State.flag_congr hhead 62).trans hstaged)
      exact hlater.congr hhead.symm rfl

/-! ### The pending flip -/

/-- The entries that the flip of job `j` reaches (R280). -/
def State.flipSet (s : State) (j : Nat) : List Nat := s.sdListed.filter fun b => s.sdStaged b && s.sdJob b == j

theorem State.flipJob_eq (s : State) (j : Nat) : s.flipJob j = (s.flipSet j).foldl State.flipEntry s := rfl

theorem State.mem_flipSet {s : State} {j b : Nat} (hb : b < 131072) (hstaged : s.sdStaged b = true) (hjob : s.sdJob b = j) : b ∈ s.flipSet j :=
  List.mem_filter.2 ⟨State.mem_sdListed hb hstaged, by rw [hstaged, hjob]; exact beq_self_eq_true j⟩

theorem State.of_mem_flipSet {s : State} {j b : Nat} (h : b ∈ s.flipSet j) : s.sdStaged b = true ∧ s.sdJob b = j := by
  have hkept := (List.mem_filter.1 h).2
  rwa [Bool.and_eq_true, beq_iff_eq] at hkept

theorem onlyRegs_flipJob (s : State) (j : Nat) : OnlyRegs s (s.flipJob j) := onlyRegs_foldl _ onlyRegs_flipEntry _ _

theorem onlyRegs_countFlip (s : State) (j : Nat) : OnlyRegs s (s.countFlip j) :=
  (((onlyRegs_setFlag ..).trans (onlyRegs_setFld ..)).trans (onlyRegs_setFld ..)).trans (onlyRegs_event ..)

theorem State.reg_countFlip (s : State) (j : Nat) {b : Nat} (hb : b < 131072) : (s.countFlip j).reg (sdAddr b) = s.reg (sdAddr b) := by
  have hne {o : Nat} (ho : o < 0x1000) := sdAddr_ne_global b ho
  rw [State.countFlip, State.event_reg _ _ _ (hne (by decide)) (hne (by decide)) (by unfold sdAddr; omega),
    State.reg_setFld_ne _ _ _ _ (hne (by decide)), State.reg_setFld_ne _ _ _ _ (hne (by decide)), State.reg_setFlag_ne _ _ _ (hne (by decide))]

/-- After the flip none is pending. -/
theorem State.countFlip_ends (s : State) (j : Nat) : (s.countFlip j).flag (pgGlobal + 0x928) 63 = false := by
  rw [State.countFlip, State.flag_congr (State.event_reg _ _ _ (by decide) (by decide) (by decide)), State.flag_eq_fld,
    State.fld_setFld_above _ _ _ _ _ _ _ (by decide) (by decide) (by decide),
    State.fld_setFld_above _ _ _ _ _ _ _ (by decide) (by decide) (by decide), ← State.flag_eq_fld,
    State.flag_setFlag_self _ _ _ _ (by decide)]

/-- A map-out that no longer waits for the flip changes no register. -/
theorem State.reg_moHold (s : State) (a : Nat) : s.moHold.reg a = s.reg a := rfl

theorem State.hbm_moHold (s : State) : s.moHold.hbm = s.hbm := rfl

/-- ACT is bit 61 of word 0. -/
theorem State.sdAct_eq (s : State) (b : Nat) : s.sdAct b = b2n (s.flag (sdAddr b) 61) := by
  have hbit : s.sdAct b = s.reg (sdAddr b) / 2 ^ 61 % 2 := rfl
  rw [hbit, State.flag, bit]
  rcases Nat.mod_two_eq_zero_or_one (s.reg (sdAddr b) / 2 ^ 61) with hzero | hone
  · rw [hzero]; rfl
  · rw [hone]; rfl

/-- What an entry flipped shows of its fields. -/
theorem State.EntryFlipped.fields {s t : State} {b : Nat} (h : s.EntryFlipped t b) : t.sdAct b = 1 - s.sdAct b ∧ t.sdStaged b = false ∧
    bits (t.sdWord b 0) 47 32 = (bits (s.sdWord b 0) 47 32 + 1) % 65536 := by
  obtain ⟨hact, hstaged, hver⟩ := h
  refine ⟨?_, hstaged, hver⟩
  rw [State.sdAct_eq, State.sdAct_eq, hact]
  cases s.flag (sdAddr b) 61 <;> rfl

theorem State.doFlip_waits {s : State} (h : s.jobIdle (s.fld (pgGlobal + 0x928) 59 56) = false) : s.doFlip = s := by
  rw [State.doFlip, h, Bool.and_false]
  rfl

section
variable {s : State} {j : Nat}

/-- Every entry after the flip of job `j`. -/
theorem State.flipJob_entry {b : Nat} (hb : b < 131072) :
    ((s.sdStaged b = true ∧ s.sdJob b = j) → s.EntryFlipped (s.flipJob j) b) ∧
      (¬(s.sdStaged b = true ∧ s.sdJob b = j) → (s.flipJob j).reg (sdAddr b) = s.reg (sdAddr b)) := by
  rw [State.flipJob_eq]
  exact ⟨fun ⟨hstaged, hjob⟩ => State.flips_flipped (State.mem_flipSet hb hstaged hjob) hstaged,
    fun hother => State.reg_flips_kept _ fun hmem => absurd (State.of_mem_flipSet hmem) hother⟩

theorem State.doFlip_due (hpends : s.flag (pgGlobal + 0x928) 63 = true) (hjob : s.fld (pgGlobal + 0x928) 59 56 = j) (hidle : s.jobIdle j = true) :
    s.doFlip = ((s.flipJob j).countFlip j).moHold := by
  rw [State.doFlip, hpends, hjob, hidle]
  rfl

/-- The flip leaves the entries of the job flipped, the others and HBM as they were, and no flip pending. -/
theorem State.doFlip_flips (hpends : s.flag (pgGlobal + 0x928) 63 = true) (hjob : s.fld (pgGlobal + 0x928) 59 56 = j) (hidle : s.jobIdle j = true) :
    s.doFlip.flag (pgGlobal + 0x928) 63 = false ∧ s.doFlip.hbm = s.hbm ∧ ∀ b, b < 131072 →
      ((s.sdStaged b = true ∧ s.sdJob b = j) → s.EntryFlipped s.doFlip b) ∧
      (¬(s.sdStaged b = true ∧ s.sdJob b = j) → s.doFlip.reg (sdAddr b) = s.reg (sdAddr b)) := by
  rw [State.doFlip_due hpends hjob hidle]
  have hreg := ((s.flipJob j).countFlip j).reg_moHold
  refine ⟨(State.flag_congr (hreg _) 63).trans (State.countFlip_ends _ j),
    (State.hbm_moHold _).trans ((onlyRegs_flipJob s j).trans (onlyRegs_countFlip _ j)).hbm, fun b hb => ?_⟩
  have hcount := (hreg (sdAddr b)).trans (State.reg_countFlip _ j hb)
  obtain ⟨hflipped, hkept⟩ := State.flipJob_entry (s := s) (j := j) hb
  exact ⟨fun hmine => (hflipped hmine).congr rfl hcount, fun hother => hcount.trans (hkept hother)⟩

end

theorem execSdFlip_next {s : State} (hlive : s.live = true) : execSdFlip s = .next s.doFlip :=
  congrArg Host.Outcome.next (State.whenLive_of_live hlive _)

end Sys2Proof.Machine

namespace Sys2Proof
open Machine

/-- Settles O22: a write by its word and by whether the entry is shut, the flip by the entries that its job has staged. -/
theorem shardDirectory : Obligations.ShardDirectory := by
  unfold Obligations.ShardDirectory
  refine ⟨fun s acc b k w hopen hsize => ⟨execSdEntryWrite_stores w hopen hsize, execSdEntryWrite_staged w hopen hsize,
      execSdEntryWrite_inactive w hopen hsize, execSdEntryWrite_active w hopen hsize⟩,
    fun _ _ _ => execFlip_answers, fun s => ?_,
    fun s acc y w hopen => ⟨execStowBaseWrite_stores w hopen, execStowBaseWrite_kept w hopen⟩⟩
  intro j hlive hpends
  refine ⟨fun hbusy => ?waits, fun hidle => ?flips⟩
  case waits => exact (execSdFlip_next hlive).trans (by rw [State.doFlip_waits hbusy])
  case flips =>
    obtain ⟨hends, hhbm, hentries⟩ := State.doFlip_flips hpends rfl hidle
    exact ⟨_, execSdFlip_next hlive, hends, hhbm, fun b hb => (hentries b hb).imp_left fun hflips hmine => (hflips hmine).fields⟩

end Sys2Proof
end

section
/-! SUPPORT. The grant of a channel controller (R265, Table 12.3): which request it is, what it leaves of the controller, and a grant slot. -/
namespace Sys2Proof.Machine

/-! ### Channel controllers of a state -/

@[simp] theorem State.chan_setChan_self (s : State) (c : Nat) (x : ChanState) : (s.setChan c x).chan c = x := Tab.get_set_self ..

theorem State.chan_setChan_ne (s : State) {c d : Nat} (x : ChanState) (h : d ≠ c) : (s.setChan c x).chan d = s.chan d := Tab.get_set_ne _ _ _ _ h

theorem State.chan_congr {s t : State} (h : t.chans = s.chans) (c : Nat) : t.chan c = s.chan c := by rw [State.chan, State.chan, h]

theorem OnlyRegs.chans {s t : State} (h : OnlyRegs s t) : t.chans = s.chans := by
  obtain ⟨r, o, rfl⟩ := h; rfl

theorem OnlyRegs.units {s t : State} (h : OnlyRegs s t) : t.units = s.units := by
  obtain ⟨r, o, rfl⟩ := h; rfl

theorem OnlyRegs.rowCe {s t : State} (h : OnlyRegs s t) : t.rowCe = s.rowCe := by
  obtain ⟨r, o, rfl⟩ := h; rfl

/-! ### Counters beside a channel controller -/

/-- Branches that each differ by a channel controller alone. -/
theorem State.ite_setChan {c : Nat} {x : ChanState} (p : Prop) [Decidable p] {t u t' u' : State} (ht : t = t'.setChan c x)
    (hu : u = u'.setChan c x) : (if p then t else u) = (if p then t' else u').setChan c x := by
  rw [ht, hu]
  exact (apply_ite (State.setChan · c x) p t' u').symm

section
variable (s : State) (c : Nat) (x : ChanState)

theorem State.msixTo_setChan (p : HostPort) (v : Nat) : (s.setChan c x).msixTo p v = (s.msixTo p v).setChan c x :=
  State.ite_setChan _ (State.ite_setChan _ rfl rfl) rfl

theorem State.sendIrq_setChan (pg : Nat) : (s.setChan c x).sendIrq pg = (s.sendIrq pg).setChan c x := by
  unfold State.sendIrq
  extract_lets a t a' t'
  have ht : t = t'.setChan c x := State.ite_setChan _ (s.msixTo_setChan c x _ _) rfl
  refine State.ite_setChan _ ?_ ht
  rw [ht]
  exact t'.msixTo_setChan c x _ _

theorem State.event_setChan (pg i : Nat) : (s.setChan c x).event pg i = (s.event pg i).setChan c x := by
  unfold State.event
  extract_lets a t v a' t' v'
  have hv : v = v'.setChan c x := State.ite_setChan _ rfl rfl
  rw [hv]
  exact State.ite_setChan _ (v'.sendIrq_setChan c x pg) rfl

/-- A counter takes no notice of a channel controller. -/
theorem State.bump_setChan (a n : Nat) : (s.setChan c x).bump a n = (s.bump a n).setChan c x := by
  unfold State.bump
  extract_lets v k t v' k' t'
  refine State.ite_setChan _ rfl (State.ite_setChan _ rfl ?_)
  cases cntSatBit (pageType (a / 0x1000)) with
  | none => rfl
  | some b => exact t'.event_setChan c x (pageBase a) b

end

/-! ### Which request is granted -/

theorem ChanState.q_setCur (c : ChanState) (p i : Nat) (v : Int) : (c.setCur p v).q i = c.q i := by
  unfold ChanState.setCur
  split
  · rfl
  · split <;> rfl

theorem ChanState.cur_setCur_self (c : ChanState) (p : Nat) (v : Int) : (c.setCur p v).cur p = v := by
  unfold ChanState.setCur ChanState.cur
  split
  · rfl
  · split <;> rfl

/-- A weight given and taken again. -/
theorem ChanState.setCur_back (c : ChanState) (p : Nat) (v : Int) : (c.setCur p v).setCur p (c.cur p) = c := by
  unfold ChanState.setCur ChanState.cur
  split
  · rfl
  · split <;> rfl

theorem ChanState.grant_first {c : ChanState} {r : MemReq} {rest : List MemReq} (h : c.q0 = r :: rest) :
    c.grant = some (r, { c with q0 := rest }) := by
  rw [ChanState.grant, h]

/-- Where one class alone waits, its oldest request is granted and the weights stay: the class pays the round what it was given. -/
theorem ChanState.grant_alone (c : ChanState) {p : Nat} {r : MemReq} {rest : List MemReq} (h0 : c.q0 = [])
    (halone : ([1, 2, 3].filter fun i => !(c.q i).isEmpty) = [p]) (hq : c.q p = r :: rest) : c.grant = some (r, c.setQ p rest) := by
  rw [ChanState.grant, h0, halone]
  show (match (c.setCur p (c.cur p + classWeight p)).q p with
    | [] => none
    | r :: rest => some (r, ((c.setCur p (c.cur p + classWeight p)).setCur p
        ((c.setCur p (c.cur p + classWeight p)).cur p - (0 + classWeight p))).setQ p rest)) = _
  rw [ChanState.q_setCur, hq, ChanState.cur_setCur_self, Int.zero_add, Int.add_sub_cancel]
  exact congrArg (fun x : ChanState => some (r, x.setQ p rest)) (c.setCur_back p _)

/-! ### A grant slot -/

/-- The grant slots that a thermal level uses (Table 12.3). -/
theorem slotUsed_iff (level n : Nat) : slotUsed level n = true ↔ level = 0 ∨ (level = 1 ∧ n % 4 ≠ 3) ∨ (level = 2 ∧ n % 4 = 0) := by
  match level with
  | 0 => simp [slotUsed]
  | 1 => simp [slotUsed]
  | 2 => simp [slotUsed]
  | k + 3 => simp [slotUsed]

/-- The controller at its next grant slot. -/
def ChanState.nextSlot (x : ChanState) : ChanState := { x with slots := (x.slots + 1) % 4 }

/-- The controller once `r` is granted: a read enters service. -/
def ChanState.serve (x : ChanState) (r : MemReq) : ChanState := if r.write then x else { x with service := x.service ++ [r] }

/-- The thermal level of the stack of channel `c` uses the channel's slot. -/
def State.SlotUsed (s : State) (c : Nat) : Prop := slotUsed (s.fld (pgTherm (c / 32) + 0x108) 1 0) (s.chan c).slots = true

section
variable {s : State} {c again : Nat} (hchan : s.chLive c = true) (hlock : s.relock.contains (c / 512) = false)
include hchan hlock

theorem State.grantSlot_unused (hunused : ¬s.SlotUsed c) :
    s.grantSlot c again = (s.setChan c (s.chan c).nextSlot).bump (pgHc (c / 32) + 0x218) 64 := by
  rw [State.SlotUsed, Bool.not_eq_true] at hunused
  rw [State.grantSlot, hchan, hlock, hunused]
  rfl

theorem State.grantSlot_grants {r : MemReq} {z : ChanState} (hused : s.SlotUsed c) (hgrant : (s.chan c).nextSlot.grant = some (r, z)) :
    s.grantSlot c again = ((s.setChan c (s.chan c).nextSlot).setChan c (z.serve r)).bump (pgHc (c / 32) + 0x210) again := by
  rw [State.SlotUsed] at hused
  rw [ChanState.nextSlot] at hgrant
  rw [State.grantSlot, hchan, hlock, hused, hgrant]
  rfl

end

theorem execHbmGrant_next {s : State} {c : Chan} {again : Nat} (hlive : s.live = true) :
    execHbmGrant (c, again) s = .next (s.grantSlot c.val again) :=
  congrArg Host.Outcome.next (State.whenLive_of_live hlive _)

/-- A request granted enters service if it reads, its repeats are counted, and nothing else but messages differs. -/
theorem execHbmGrant_serves {s : State} {c : Chan} {again : Nat} {r : MemReq} {z : ChanState} (hlive : s.live = true)
    (hchan : s.chLive c.val = true) (hlock : s.relock.contains (c.val / 512) = false) (hused : s.SlotUsed c.val)
    (hgrant : (s.chan c.val).nextSlot.grant = some (r, z)) : Answers (execHbmGrant (c, again) s) fun t =>
      t.chan c.val = z.serve r ∧ t.regs = (s.bump (pgHc (c.val / 32) + 0x210) again).regs ∧ t.hbm = s.hbm ∧ t.units = s.units ∧
        ∀ d, d ≠ c.val → t.chan d = s.chan d := by
  have hnext := execHbmGrant_next (c := c) (again := again) hlive
  have hbump := onlyRegs_bump s (pgHc (c.val / 32) + 0x210) again
  rw [State.grantSlot_grants hchan hlock hused hgrant, State.bump_setChan, State.bump_setChan] at hnext
  refine ⟨_, hnext, State.chan_setChan_self .., rfl, hbump.hbm, hbump.units, fun d hd => ?_⟩
  rw [State.chan_setChan_ne _ _ hd, State.chan_setChan_ne _ _ hd, State.chan_congr hbump.chans]

end Sys2Proof.Machine
end

section
/-! SUPPORT. Reads that return and the patrol scrub (R283, R289, R291..R293): the answer to a firing unit, what a row read reports, and what fencing a
row leaves of its channel's register. -/
namespace Sys2Proof.Machine

/-! ### A read that returns -/

theorem State.rowRead_ok (s : State) (c row : Nat) : s.rowRead c row .ok = s := by
  unfold State.rowRead
  split <;> rfl

/-- The oldest read in service returns where it is the one of the row. -/
theorem State.readBack_first {s : State} {c row : Nat} {r : MemReq} {rest : List MemReq} (sev : Ecc) (hservice : (s.chan c).service = r :: rest)
    (hrow : adOff (r.line * 4096) / 4096 = row / 4) :
    s.readBack c row sev = ((s.setChan c { s.chan c with service := rest }).rowRead c row sev).cameBack r := by
  have hfirst : indexWhere (fun q : MemReq => adOff (q.line * 4096) / 4096 == row / 4) (r :: rest) = some 0 :=
    if_pos (beq_iff_eq.2 hrow)
  rw [State.readBack, hservice, hfirst]
  rfl

theorem State.cameBack_uncached {s : State} {r : MemReq} (h : r.cache = false) : s.cameBack r = s.memAnswer r := by
  rw [State.cameBack, h]
  rfl

/-- A firing unit that waits for further answers has one less to wait for. -/
theorem State.memAnswer_counts {s : State} {r : MemReq} (hunit : r.y < 64) (hepoch : (s.unit r.y r.u).epoch = r.epoch) (hemit : r.emit = false)
    (hwait : 1 < (s.unit r.y r.u).memWait) :
    s.memAnswer r = s.setUnit r.y r.u { s.unit r.y r.u with memWait := (s.unit r.y r.u).memWait - 1 } := by
  have hring : ¬((s.unit r.y r.u).epoch = r.epoch ∧ r.emit ∧ 0 < (s.unit r.y r.u).ringWait) := by simp [hemit]
  have hmem : (s.unit r.y r.u).epoch = r.epoch ∧ !r.emit ∧ 0 < (s.unit r.y r.u).memWait := ⟨hepoch, by rw [hemit]; rfl, by omega⟩
  rw [State.memAnswer, if_pos hunit, State.unitAnswer]
  exact (if_neg hring).trans ((if_pos hmem).trans (if_neg (by omega)))

theorem execHbmReadComplete_answers {s : State} {c : Chan} {row : BitVec 22} {r : MemReq} {rest : List MemReq} (hlive : s.live = true)
    (hservice : (s.chan c.val).service = r :: rest) (hrow : adOff (r.line * 4096) / 4096 = row.toNat / 4) (hcache : r.cache = false)
    (hemit : r.emit = false) (hunit : r.y < 64) (hepoch : (s.unit r.y r.u).epoch = r.epoch) (hwait : 1 < (s.unit r.y r.u).memWait) :
    Answers (execHbmReadComplete c row .ok s) fun t => (t.chan c.val).service = rest ∧
      t.unit r.y r.u = { s.unit r.y r.u with memWait := (s.unit r.y r.u).memWait - 1 } ∧ t.regs = s.regs ∧ t.hbm = s.hbm := by
  have hnext : execHbmReadComplete c row .ok s = .next (s.readBack c.val row.toNat .ok) :=
    congrArg Host.Outcome.next (State.whenLive_of_live hlive _)
  rw [State.readBack_first .ok hservice hrow, State.rowRead_ok, State.cameBack_uncached hcache,
    State.memAnswer_counts (s := s.setChan c.val { s.chan c.val with service := rest }) hunit hepoch hemit hwait] at hnext
  refine ⟨_, hnext, ?_, State.unit_setUnit_self .., rfl, rfl⟩
  exact congrArg ChanState.service (s.chan_setChan_self c.val { s.chan c.val with service := rest })

/-! ### Registers of a controller and of its stack -/

theorem pageBase_pgHc (h : Nat) {o : Nat} (ho : o < 0x1000) : pageBase (pgHc h + o) = pgHc h := by
  unfold pageBase pgHc
  omega

/-- HC_CH lies among the pages of the stacks, below the slices. -/
theorem chReg_bounds {c : Nat} (hc : c < 1024) : 0x20_0000 ≤ chReg c ∧ chReg c < 0x28_0000 := by
  unfold chReg pgHc
  omega

theorem limitReg_below (c : Chan) : pgRep (c.val / 32) + 0x100 < 0x28_0000 := by
  have hc := c.isLt
  unfold pgRep pgHc
  omega

theorem fenceReg_below (c : Chan) {e w : Nat} (he : e < 64) (hw : w < 2) : fenceReg (c.val / 32) e w < 0x28_0000 := by
  have hc := c.isLt
  unfold fenceReg pgRep pgHc
  omega

/-- HC_CH of a channel stands apart from the other registers of its stack's pages. -/
theorem chReg_ne (c : Nat) {o : Nat} (ho : o < 0x100 ∨ 0x200 ≤ o) (hlt : o < 0x4000) : chReg c ≠ pgHc (c / 32) + o := by
  unfold chReg
  omega

theorem chReg_ne_fenceReg (c : Nat) (e w : Nat) : chReg c ≠ fenceReg (c / 32) e w := by
  unfold chReg fenceReg pgRep
  omega

/-- A counter of the controller page changes itself and the page's events. -/
theorem State.reg_bump_pgHc (s : State) (h n : Nat) {o a : Nat} (ho : o < 0x1000) (h0 : a ≠ pgHc h + o)
    (h1 : a ≠ pgHc h + 0x18) (h2 : a ≠ pgHc h + 0x28) (hlt : a < 0x201_0000) : (s.bump (pgHc h + o) n).reg a = s.reg a :=
  s.bump_reg _ n h0 (by rwa [pageBase_pgHc h ho]) (by rwa [pageBase_pgHc h ho]) hlt

/-- A field that stops at its largest value, once incremented (R444). -/
theorem State.fld_bumpFld_self (s : State) (a n : Nat) {hi lo : Nat} (h : hi < 64) (hl : lo ≤ hi) :
    (s.bumpFld a hi lo n).fld a hi lo = min (2 ^ (hi + 1 - lo) - 1) (s.fld a hi lo + n) := by
  have hpos := Nat.two_pow_pos (hi + 1 - lo)
  have hstop : stopAt (2 ^ (hi + 1 - lo) - 1) (s.fld a hi lo + n) = min (2 ^ (hi + 1 - lo) - 1) (s.fld a hi lo + n) := by
    unfold stopAt
    split <;> omega
  rw [State.bumpFld, State.fld_setFld_self _ _ _ _ _ h hl, hstop, Nat.mod_eq_of_lt (by omega)]

/-! ### A line read in one act -/

/-- The read of a line changes slices, counters and what left the module. -/
theorem State.readLine_cases (s : State) (l : Nat) : ∃ x r o, s.readLine l = { s with slices := x, regs := r, out := o } := by
  unfold State.readLine
  extract_lets h x
  split
  · obtain ⟨r, o, hbump⟩ := onlyRegs_bump (s.setSlice h (x.use l)) (pgSlice h + 0x100) 1
    exact ⟨_, r, o, hbump⟩
  · obtain ⟨r, o, hbump⟩ : OnlyRegs s _ := onlyRegs_ite (x.fills.any (·.req.line == l) = true) (onlyRegs_bump s (pgSlice h + 0x110) 1)
      (onlyRegs_bump s (pgSlice h + 0x108) 1)
    exact ⟨s.slices, r, o, hbump⟩

/-- Its counters are in the page of its slice. -/
theorem State.reg_readLine (s : State) (l : Nat) {a : Nat} (ha : a < 0x28_0000) : (s.readLine l).reg a = s.reg a := by
  have hbump (t : State) (h o : Nat) : (t.bump (pgSlice h + o) 1).reg a = t.reg a := by
    have hslice : 0x28_0000 ≤ pgSlice h + o := by unfold pgSlice; omega
    have hpage : 0x28_0000 ≤ pageBase (pgSlice h + o) := by unfold pageBase; omega
    exact t.bump_reg _ 1 (by omega) (by omega) (by omega) (by omega)
  unfold State.readLine
  extract_lets h x
  exact reg_ite _ (hbump _ _ _) (reg_ite _ (hbump _ _ _) (hbump _ _ _))

/-- The scrub of a row counts nothing for it: HC_CH, the row's own count, HBM and the controllers stay. -/
def State.ScrubSilent (s : State) (c : Nat) (t : State) : Prop :=
  t.reg (chReg c) = s.reg (chReg c) ∧ t.rowCe = s.rowCe ∧ t.hbm = s.hbm ∧ t.chans = s.chans

theorem State.readLine_silent (s : State) (c : Chan) (l : Nat) : s.ScrubSilent c.val (s.readLine l) := by
  have hreg := s.reg_readLine l (chReg_bounds c.isLt).2
  obtain ⟨x, r, o, hread⟩ := s.readLine_cases l
  rw [hread] at hreg ⊢
  exact ⟨hreg, rfl, rfl, rfl⟩

theorem State.recRepaired_readLine (s : State) (l : Nat) : (s.readLine l).recRepaired = s.recRepaired := by
  obtain ⟨x, r, o, hread⟩ := s.readLine_cases l
  rw [hread]

theorem State.fenceOf_readLine (s : State) (c : Chan) (row l : Nat) : (s.readLine l).fenceOf c.val row = s.fenceOf c.val row := by
  refine firstBelow_congr fun e he => ?_
  have hword (w : Nat) (hw : w < 2) := s.reg_readLine l (fenceReg_below c he hw)
  rw [State.fenceValid, State.fenceValid, State.fenceRow, State.fenceRow, State.flag_congr (hword 0 (by decide)),
    State.fld_congr (hword 0 (by decide)), State.fld_congr (hword 1 (by decide))]

/-! ### What the read of a row reports -/

/-- An error of channel `c` counted, in its field [hi:lo] of HC_CH and in the counter at `o` of the controller page. -/
def State.countErr (s : State) (c hi lo o : Nat) : State := (s.bumpFld (chReg c) hi lo 1).bump (pgHc (c / 32) + o) 1

theorem onlyRegs_countErr (s : State) (c hi lo o : Nat) : OnlyRegs s (s.countErr c hi lo o) := (onlyRegs_bumpFld ..).trans (onlyRegs_bump ..)

theorem State.fld_countErr (s : State) {c hi lo o : Nat} (hc : c < 1024) (h : hi < 64) (hl : lo ≤ hi) (ho : 0x200 ≤ o ∧ o < 0x1000) :
    (s.countErr c hi lo o).fld (chReg c) hi lo = min (2 ^ (hi + 1 - lo) - 1) (s.fld (chReg c) hi lo + 1) := by
  obtain ⟨hlow, hhigh⟩ := ho
  have hbelow : chReg c < 0x201_0000 := Nat.lt_trans (chReg_bounds hc).2 (by decide)
  have hbump : (s.countErr c hi lo o).reg (chReg c) = (s.bumpFld (chReg c) hi lo 1).reg (chReg c) :=
    State.reg_bump_pgHc _ _ _ hhigh (chReg_ne c (.inr hlow) (by omega)) (chReg_ne c (by decide) (by decide))
      (chReg_ne c (by decide) (by decide)) hbelow
  rw [State.fld_congr hbump, State.fld_bumpFld_self _ _ _ h hl]

/-- The threshold of the stack is no counter. -/
theorem State.countErr_limit (s : State) {c hi lo o : Nat} (hc : c < 1024) (ho : o < 0x1000) :
    (s.countErr c hi lo o).fld (pgRep (c / 32) + 0x100) 15 0 = s.fld (pgRep (c / 32) + 0x100) 15 0 := by
  have hlt : pgHc (c / 32) + 0x3100 < 0x201_0000 := by unfold pgHc; omega
  refine State.fld_congr (a := pgHc (c / 32) + 0x3100) ?_ 15 0
  rw [State.countErr, State.reg_bump_pgHc _ _ _ ho (by omega) (by omega) (by omega) hlt,
    State.bumpFld_reg _ _ _ _ _ (chReg_ne c (by decide) (by decide)).symm]

section
variable {s : State} {c row : Nat}

/-- The buffer of a fenced row reports nothing (R292). -/
theorem State.rowRead_fenced (sev : Ecc) (h : (s.fenceOf c row).isSome = true) : s.rowRead c row sev = s := by
  rw [State.rowRead, if_pos h]

/-- The corrected errors of the row numbered `k` are `n`. -/
def State.setRowCe (s : State) (k n : Nat) : State := { s with rowCe := Tab.put s.rowCe k n }

theorem State.reg_setRowCe (s : State) (k n a : Nat) : (s.setRowCe k n).reg a = s.reg a := rfl

theorem State.rowCe_setRowCe_self (s : State) (k n : Nat) : Tab.get 0 (s.setRowCe k n).rowCe k = n :=
  congrArg (Option.getD · 0) (Tab.find?_put_self s.rowCe k n)

/-- The corrected error of a row below the threshold, which no repair has had, is counted. -/
theorem State.rowRead_corrected (hc : c < 1024) (hfence : s.fenceOf c row = none) (hnew : s.recRepaired.contains (rowKey c row) = false)
    (hfew : Tab.get 0 s.rowCe (rowKey c row) + 1 < s.fld (pgRep (c / 32) + 0x100) 15 0) :
    s.rowRead c row .corrected = (s.countErr c 31 0 0x200).setRowCe (rowKey c row) (Tab.get 0 s.rowCe (rowKey c row) + 1) := by
  rw [← s.countErr_limit (hi := 31) (lo := 0) (o := 0x200) hc (by decide), ← (onlyRegs_countErr s c 31 0 0x200).rowCe] at hfew
  rw [← (onlyRegs_countErr s c 31 0 0x200).rowCe]
  have hstays : ¬(s.recRepaired.contains (rowKey c row) = true ∨
      ((s.countErr c 31 0 0x200).setRowCe (rowKey c row) (Tab.get 0 (s.countErr c 31 0 0x200).rowCe (rowKey c row) + 1)).fld
          (pgRep (c / 32) + 0x100) 15 0 ≤
        Tab.get 0 (s.countErr c 31 0 0x200).rowCe (rowKey c row) + 1) := by
    rw [hnew, State.fld_congr (State.reg_setRowCe _ _ _ _)]
    rintro (hagain | hreached)
    · cases hagain
    · exact absurd hfew (Nat.not_lt.2 hreached)
  unfold State.rowRead
  exact (if_neg (by rw [hfence]; decide)).trans (if_neg hstays)

end

/-! ### What an uncorrectable error leaves -/

/-- UE of channel `c`, and HBM, are the same in both. -/
def State.SameUe (s : State) (c : Nat) (t : State) : Prop := t.fld (chReg c) 47 32 = s.fld (chReg c) 47 32 ∧ t.hbm = s.hbm

theorem State.SameUe.trans {s t u : State} {c : Nat} (h : s.SameUe c t) (k : t.SameUe c u) : s.SameUe c u := ⟨k.1.trans h.1, k.2.trans h.2⟩

theorem State.sameUe_of_reg {s t : State} {c : Nat} (hreg : t.reg (chReg c) = s.reg (chReg c)) (hhbm : t.hbm = s.hbm) : s.SameUe c t :=
  ⟨State.fld_congr hreg 47 32, hhbm⟩

theorem State.sameUe_ite {s t u : State} {c : Nat} (p : Prop) [Decidable p] (h : s.SameUe c t) (k : s.SameUe c u) :
    s.SameUe c (if p then t else u) := by
  split
  · exact h
  · exact k

theorem State.sameUe_setReg (s : State) {c a : Nat} (h : chReg c ≠ a) (v : Nat) : s.SameUe c (s.setReg a v) :=
  State.sameUe_of_reg (s.reg_setReg_ne v h) (s.setReg_hbm a v)

/-- The records of fenced rows are no registers. -/
theorem State.sameUe_recs (s : State) (c : Nat) (permanent pending : List Nat) :
    s.SameUe c { s with recPermanent := permanent, recPending := pending } := ⟨rfl, rfl⟩

/-- A write of another field of the channel's register. -/
theorem State.sameUe_setFld (s : State) (c v : Nat) {hi lo : Nat} (h : hi < 64) (hl : lo ≤ hi) (hapart : 47 < lo) :
    s.SameUe c (s.setFld (chReg c) hi lo v) :=
  ⟨s.fld_setFld_apart (chReg c) v h hl (by decide) (.inl hapart), s.setFld_hbm ..⟩

/-! ### Fencing a row -/

theorem State.sameUe_countFence (s : State) (c : Nat) : s.SameUe c (s.countFence (c / 32)) := by
  unfold State.countFence State.setFld
  exact s.sameUe_setReg (by unfold chReg pgRep; omega) _

theorem State.sameUe_putFence (s : State) (c row e : Nat) : s.SameUe c (s.putFence c row e) := by
  unfold State.putFence
  extract_lets h b k perm t u v
  have ht : s.SameUe c t := s.sameUe_setReg (chReg_ne_fenceReg c e 0) _
  have hu : s.SameUe c u := ht.trans (t.sameUe_setReg (chReg_ne_fenceReg c e 1) _)
  have hv : s.SameUe c v := by
    unfold v
    split
    · exact hu.trans (u.sameUe_recs c _ u.recPending)
    · exact hu.trans (u.sameUe_recs c u.recPermanent _)
  exact hv.trans (v.sameUe_countFence c)

section
variable (s : State) {c : Nat} (hc : c < 1024)
include hc

/-- What the controller page reports of the channel. -/
theorem State.sameUe_faultEv (code info ev : Nat) : s.SameUe c (s.faultEv (pgHc (c / 32)) code info ev) := by
  have hreg := chReg_bounds hc
  have hpage : pgHc (c / 32) < 0x200_0000 := by unfold pgHc; omega
  have hne {o : Nat} (ho : o < 0x100) := chReg_ne c (.inl ho) (by omega)
  exact State.sameUe_of_reg (s.faultEv_reg _ code info ev (hne (by decide)) (hne (by decide)) (hne (by decide)) (hne (by decide))
    (.inr (by omega)) (by unfold pgBare; omega) (by omega) hpage) (onlyRegs_faultEv ..).hbm

/-- ESCAPES and MO_DUE are other fields of the channel's register. -/
theorem State.sameUe_escape (row cause : Nat) : s.SameUe c (s.escape c row cause) := by
  unfold State.escape
  extract_lets t u
  have ht : s.SameUe c t := s.sameUe_setFld c _ (by decide) (by decide) (by decide)
  have hu : s.SameUe c u := State.sameUe_ite _ (ht.trans (t.sameUe_setFld c _ (by decide) (by decide) (by decide))) ht
  exact hu.trans (u.sameUe_faultEv hc _ _ _)

theorem State.sameUe_event (i : Nat) : s.SameUe c (s.event (pgHc (c / 32)) i) :=
  State.sameUe_of_reg (State.event_reg _ _ _ (chReg_ne c (by decide) (by decide)) (chReg_ne c (by decide) (by decide))
    (by have := chReg_bounds hc; omega)) (onlyRegs_event ..).hbm

theorem State.sameUe_fenceRowNow (row : Nat) : s.SameUe c (s.fenceRowNow c row) := by
  unfold State.fenceRowNow
  extract_lets h
  refine State.sameUe_ite _ ⟨rfl, rfl⟩ ?_
  split
  · exact s.sameUe_escape hc _ _
  next e _ =>
    extract_lets t
    have ht : s.SameUe c t := (s.sameUe_putFence c row e).trans (State.sameUe_event _ hc 1)
    exact State.sameUe_ite _ (ht.trans (State.sameUe_escape _ hc _ _)) (State.sameUe_ite _ (ht.trans (State.sameUe_escape _ hc _ _)) ht)

/-- The uncorrectable error of a row that is not fenced counts in UE of its channel. -/
theorem State.rowRead_bad {row : Nat} (hfence : s.fenceOf c row = none) :
    (s.rowRead c row .bad).fld (chReg c) 47 32 = min (2 ^ 16 - 1) (s.fld (chReg c) 47 32 + 1) ∧ (s.rowRead c row .bad).hbm = s.hbm := by
  have hread : s.rowRead c row .bad =
      ((s.countErr c 47 32 0x208).faultEv (pgHc (c / 32)) 0x0601 (hcInfo c 0 (rowBank c row) row) 0).fenceRowNow c row := by
    unfold State.rowRead
    exact if_neg (by rw [hfence]; decide)
  have hrest := ((s.countErr c 47 32 0x208).sameUe_faultEv hc 0x0601 (hcInfo c 0 (rowBank c row) row) 0).trans (State.sameUe_fenceRowNow _ hc row)
  obtain ⟨hue, hhbm⟩ := hrest
  rw [hread, hue, hhbm]
  exact ⟨s.fld_countErr hc (by decide) (by decide) (by decide), (onlyRegs_countErr ..).hbm⟩

end

/-! ### The patrol scrub -/

/-- The line that holds a row of a channel. -/
def rowLine (c row : Nat) : Nat := (c * 2 ^ 32 + row * 1024) / 4096

/-- The slice of the line neither holds nor fetches it. -/
def State.LineOut (s : State) (l : Nat) : Prop :=
  (s.slice (lineStack l)).holds l = false ∧ ((s.slice (lineStack l)).fills.any fun f => f.req.line == l) = false

section
variable {s : State} {c : Chan} {row : Nat}

/-- A row whose line is out of its slice is read from HBM. -/
theorem State.scrubRow_out (sev : Ecc) (h : s.LineOut (rowLine c.val row)) :
    s.scrubRow c.val row sev = (s.readLine (rowLine c.val row)).rowRead c.val row sev := by
  obtain ⟨hheld, hfills⟩ := h
  have hread : (!(s.slice (lineStack (rowLine c.val row))).holds (rowLine c.val row) &&
      !(s.slice (lineStack (rowLine c.val row))).fills.any fun f => f.req.line == rowLine c.val row) = true := by
    rw [hheld, hfills]
    rfl
  exact if_pos hread

/-- A line in its slice is not read from HBM. -/
theorem State.scrubRow_in (sev : Ecc) (h : ¬s.LineOut (rowLine c.val row)) : s.scrubRow c.val row sev = s.readLine (rowLine c.val row) := by
  refine if_neg fun hout => h ?_
  rw [Bool.and_eq_true, Bool.not_eq_true', Bool.not_eq_true'] at hout
  exact hout

/-- Where the read of the row reports nothing, the scrub is the read of its line. -/
theorem State.scrubRow_silent {sev : Ecc} (h : s.LineOut (rowLine c.val row) →
    (s.readLine (rowLine c.val row)).rowRead c.val row sev = s.readLine (rowLine c.val row)) :
    s.ScrubSilent c.val (s.scrubRow c.val row sev) := by
  by_cases hout : s.LineOut (rowLine c.val row)
  · rw [State.scrubRow_out sev hout, h hout]
    exact s.readLine_silent c _
  · rw [State.scrubRow_in sev hout]
    exact s.readLine_silent c _

theorem State.scrubRow_ok : s.ScrubSilent c.val (s.scrubRow c.val row .ok) := State.scrubRow_silent fun _ => State.rowRead_ok ..

/-- A line that the slice holds, and a fenced row (R283, R292). -/
theorem State.scrubRow_covered (sev : Ecc)
    (h : (s.slice (lineStack (rowLine c.val row))).holds (rowLine c.val row) = true ∨ (s.fenceOf c.val row).isSome = true) :
    s.ScrubSilent c.val (s.scrubRow c.val row sev) := by
  refine State.scrubRow_silent fun hout => ?_
  rcases h with hheld | hfence
  · obtain ⟨hnot, -⟩ := hout
    rw [hheld] at hnot
    cases hnot
  · exact State.rowRead_fenced sev (by rwa [State.fenceOf_readLine])

section
variable (hout : s.LineOut (rowLine c.val row)) (hfence : s.fenceOf c.val row = none)
include hout hfence

theorem State.scrubRow_corrected (hnew : s.recRepaired.contains (rowKey c.val row) = false)
    (hfew : Tab.get 0 s.rowCe (rowKey c.val row) + 1 < s.fld (pgRep (c.val / 32) + 0x100) 15 0) :
    (s.scrubRow c.val row .corrected).fld (chReg c.val) 31 0 = min (2 ^ 32 - 1) (s.fld (chReg c.val) 31 0 + 1) ∧
      Tab.get 0 (s.scrubRow c.val row .corrected).rowCe (rowKey c.val row) = Tab.get 0 s.rowCe (rowKey c.val row) + 1 ∧
      (s.scrubRow c.val row .corrected).hbm = s.hbm ∧ (s.scrubRow c.val row .corrected).chans = s.chans := by
  have honly := onlyRegs_countErr (s.readLine (rowLine c.val row)) c.val 31 0 0x200
  have hlimit := s.reg_readLine (rowLine c.val row) (limitReg_below c)
  obtain ⟨hreg, hcount, hhbm, hchans⟩ := s.readLine_silent c (rowLine c.val row)
  have hread := (s.readLine (rowLine c.val row)).rowRead_corrected (row := row) c.isLt ((s.fenceOf_readLine c row _).trans hfence)
    (by rwa [s.recRepaired_readLine]) (by rwa [hcount, State.fld_congr hlimit])
  rw [State.scrubRow_out .corrected hout, hread]
  refine ⟨?_, ?_, honly.hbm.trans hhbm, honly.chans.trans hchans⟩
  · rw [State.fld_congr (State.reg_setRowCe _ _ _ _), State.fld_countErr _ c.isLt (by decide) (by decide) (by decide), State.fld_congr hreg]
  · rw [State.rowCe_setRowCe_self, hcount]

theorem State.scrubRow_bad : (s.scrubRow c.val row .bad).fld (chReg c.val) 47 32 = min (2 ^ 16 - 1) (s.fld (chReg c.val) 47 32 + 1) ∧
    (s.scrubRow c.val row .bad).hbm = s.hbm := by
  obtain ⟨hreg, -, hhbm, -⟩ := s.readLine_silent c (rowLine c.val row)
  obtain ⟨hue, hkept⟩ := (s.readLine (rowLine c.val row)).rowRead_bad c.isLt ((s.fenceOf_readLine c row _).trans hfence)
  rw [State.scrubRow_out .bad hout, hue, hkept, State.fld_congr hreg]
  exact ⟨rfl, hhbm⟩

end

end

/-- The scrub reads a row of a LIVE channel that nothing has quiesced, while its stack grants slots and no class 0 request waits (R291, R418). -/
theorem execPatrolScrub_reads {s : State} {c : Chan} {row : BitVec 22} (sev : Ecc) (hlive : s.live = true) (hon : s.flag (pgArb + 0x100) 1 = true)
    (hchan : s.chLive c.val = true) (hrow : row.toNat < 0x280000) (hmaint : s.maintRun = []) (hlevel : s.fld (pgTherm (c.val / 32) + 0x108) 1 0 ≠ 3)
    (hlock : s.relock.contains (c.val / 512) = false) (hqueue : (s.chan c.val).q0 = []) :
    execPatrolScrub c row sev s = .next (s.scrubRow c.val row.toNat sev) := by
  have hrow' : row.toNat < chanBytes / 1024 := hrow
  refine congrArg Host.Outcome.next ((State.whenLive_of_live hlive _).trans (if_pos ?_))
  rw [hon, hchan, decide_eq_true hrow', hmaint, bne_iff_ne.2 hlevel, hlock, hqueue]
  rfl

end Sys2Proof.Machine

namespace Sys2Proof
open Machine

/-- Settles O19: a slot by what the controller grants, a returned read by what its unit waits for, the scrub by what the read of its row reports. -/
theorem hbmChannels : Obligations.HbmChannels := by
  unfold Obligations.HbmChannels
  refine ⟨fun s c again hlive hchan hlock => ?slot, fun _ _ _ _ _ => execHbmReadComplete_answers,
    fun s c row hlive hon hchan hrow hmaint hlevel hlock hqueue => ?scrub⟩
  case slot =>
    intro x level used y served
    have hused : used → s.SlotUsed c.val := (slotUsed_iff level x.slots).2
    refine ⟨fun r rest h h0 => ?first, fun r rest h h0 h1 h2 h3 => ?one, fun r rest h h0 h1 h2 h3 => ?two, fun r rest h h0 h1 h2 h3 => ?three,
      fun hnot => ?unused⟩
    case first => exact execHbmGrant_serves hlive hchan hlock (hused h) (ChanState.grant_first h0)
    case one =>
      exact execHbmGrant_serves hlive hchan hlock (hused h) (y.grant_alone (p := 1) h0 (by simp [ChanState.q, y, h1, h2, h3]) h1)
    case two =>
      exact execHbmGrant_serves hlive hchan hlock (hused h) (y.grant_alone (p := 2) h0 (by simp [ChanState.q, y, h1, h2, h3]) h2)
    case three =>
      exact execHbmGrant_serves hlive hchan hlock (hused h) (y.grant_alone (p := 3) h0 (by simp [ChanState.q, y, h1, h2, h3]) h3)
    case unused =>
      have hunused : ¬s.SlotUsed c.val := fun h => hnot ((slotUsed_iff level x.slots).1 h)
      exact (execHbmGrant_next hlive).trans (congrArg Host.Outcome.next (State.grantSlot_unused hchan hlock hunused))
  case scrub =>
    intro l x silent
    have hreads (sev : Ecc) : exec (.patrolScrub c row sev) s = .next (s.scrubRow c.val row.toNat sev) :=
      execPatrolScrub_reads sev hlive hon hchan hrow hmaint hlevel hlock hqueue
    refine ⟨⟨_, hreads .ok, State.scrubRow_ok⟩, fun sev hcovered => ⟨_, hreads sev, State.scrubRow_covered sev hcovered⟩,
      fun hheld hfills hfence => ⟨fun hnew hfew => ⟨_, hreads .corrected, ?_⟩, ⟨_, hreads .bad, ?_⟩⟩⟩
    · exact State.scrubRow_corrected ⟨hheld, hfills⟩ hfence hnew hfew
    · exact State.scrubRow_bad ⟨hheld, hfills⟩ hfence

end Sys2Proof
end

section
/-! SUPPORT. The maintenance arbiter as the rows of HBM health meet it (R417, R419): a host's request, and an operation that ends while
nothing is queued; the pages of the stacks as time passes and as faults are recorded. -/
namespace Sys2Proof.Machine

/-! ### Time -/

@[simp] theorem State.tick_maintRun (s : State) (dt : Nat) : (s.tick dt).maintRun = s.maintRun := by
  obtain ⟨r, o, lim, slew, held, htick⟩ := s.tick_cases dt
  rw [htick]

@[simp] theorem State.tick_maintQueue (s : State) (dt : Nat) : (s.tick dt).maintQueue = s.maintQueue := by
  obtain ⟨r, o, lim, slew, held, htick⟩ := s.tick_cases dt
  rw [htick]

@[simp] theorem State.tick_chans (s : State) (dt : Nat) : (s.tick dt).chans = s.chans := by
  obtain ⟨r, o, lim, slew, held, htick⟩ := s.tick_cases dt
  rw [htick]

/-- The registers of the stacks' pages past the header of the first page: time, faults and events elsewhere leave them. -/
def StackReg (a : Nat) : Prop := ∃ h o, h < 32 ∧ 0x100 ≤ o ∧ o < 0x4000 ∧ a = pgHc h + o

theorem stackReg_pgHc {h o : Nat} (hh : h < 32) (hlo : 0x100 ≤ o) (hhi : o < 0x4000) : StackReg (pgHc h + o) := ⟨h, o, hh, hlo, hhi, rfl⟩

theorem stackReg_chReg (c : Chan) : StackReg (chReg c.val) :=
  ⟨c.val / 32, 0x100 + 8 * (c.val % 32), by omega, by omega, by omega, Nat.add_assoc ..⟩

theorem stackReg_moSt (c : Chan) : StackReg (moSt (c.val / 32)) := stackReg_pgHc (by omega) (by decide) (by decide)

theorem StackReg.bounds {a : Nat} (ha : StackReg a) : 0x20_0000 ≤ a ∧ a < 0x28_0000 := by
  obtain ⟨h, o, hh, hlo, hhi, rfl⟩ := ha
  unfold pgHc
  omega

theorem State.tick_stackReg (s : State) (dt : Nat) {a : Nat} (ha : StackReg a) : (s.tick dt).reg a = s.reg a := by
  obtain ⟨hlo, hhi⟩ := ha.bounds
  refine s.tick_reg dt (by unfold pgGlobal; omega) (by omega) ?_ (by omega)
  simp only [List.mem_cons, List.not_mem_nil, or_false]
  omega

/-! ### Faults and events of a stack's first page -/

theorem StackReg.ne_header {a : Nat} (ha : StackReg a) (k : Nat) {o : Nat} (ho : o < 0x100) : a ≠ pgHc k + o := by
  obtain ⟨h, o', hh, hlo, hhi, rfl⟩ := ha
  unfold pgHc
  omega

theorem State.event_stackReg (s : State) (h i : Nat) {a : Nat} (ha : StackReg a) : (s.event (pgHc h) i).reg a = s.reg a := by
  have hhi := ha.bounds.2
  exact s.event_reg _ i (ha.ne_header h (by decide)) (ha.ne_header h (by decide)) (by omega)

theorem State.fault_stackReg (s : State) {h : Nat} (hh : h < 32) (code info : Nat) {a : Nat} (ha : StackReg a) :
    (s.fault (pgHc h) code info).reg a = s.reg a := by
  obtain ⟨hlo, hhi⟩ := ha.bounds
  exact s.fault_reg _ code info (ha.ne_header h (by decide)) (ha.ne_header h (by decide)) (.inr (by omega)) (by unfold pgBare; omega)
    (by omega) (by unfold pgHc; omega)

theorem State.faultEv_stackReg (s : State) {h : Nat} (hh : h < 32) (code info ev : Nat) {a : Nat} (ha : StackReg a) :
    (s.faultEv (pgHc h) code info ev).reg a = s.reg a :=
  (State.event_stackReg _ h ev ha).trans (s.fault_stackReg hh code info ha)

/-! ### A host's request -/

theorem OnlyRegs.primary {s t : State} (h : OnlyRegs s t) : t.primary = s.primary := by
  obtain ⟨r, o, rfl⟩ := h; rfl

theorem OnlyRegs.maintWait {s t : State} (h : OnlyRegs s t) : t.maintWait = s.maintWait := by
  obtain ⟨r, o, rfl⟩ := h; rfl

theorem State.request_of_primary {s : State} (h : s.primary.isSome = true) (m : MaintOp) : s.request m = s.arbiter m :=
  if_neg (by rw [Option.isNone_eq_false_iff.2 h]; decide)

theorem State.request_waits {s : State} (h : s.primary = none) (m : MaintOp) : s.request m = { s with maintWait := s.maintWait ++ [m] } :=
  if_pos (by rw [h]; rfl)

/-! ### The end of an operation -/

theorem OnlyRegs.maintRun {s t : State} (h : OnlyRegs s t) : t.maintRun = s.maintRun := by
  obtain ⟨r, o, rfl⟩ := h; rfl

theorem OnlyRegs.maintQueue {s t : State} (h : OnlyRegs s t) : t.maintQueue = s.maintQueue := by
  obtain ⟨r, o, rfl⟩ := h; rfl

/-- The running operations without those of one class and target. -/
def State.stopOp (s : State) (cls target : Nat) : State :=
  { s with maintRun := s.maintRun.filter fun k => !(k.cls == cls && k.target == target) }

theorem State.stopOp_hbm (s : State) (cls target : Nat) : (s.stopOp cls target).hbm = s.hbm := rfl

theorem State.stopOp_slices (s : State) (cls target : Nat) : (s.stopOp cls target).slices = s.slices := rfl

theorem State.stopOp_recMapped (s : State) (cls target : Nat) : (s.stopOp cls target).recMapped = s.recMapped := rfl

theorem State.stopOp_maintRun (s : State) (cls target : Nat) :
    (s.stopOp cls target).maintRun = s.maintRun.filter fun k => !(k.cls == cls && k.target == target) := rfl

/-- An operation of a class and target has ended with RESULT `r`, and MA_RESULT shows it. -/
def State.opEnded (s : State) (cls target r : Nat) : State :=
  ((s.stopOp cls target).setReg (pgArb + 0x148) (fieldAt 60 cls + fieldAt 58 r + target)).event pgArb 2

theorem State.onlyRegs_opEnded (s : State) (cls target r : Nat) : OnlyRegs (s.stopOp cls target) (s.opEnded cls target r) :=
  (onlyRegs_setReg ..).trans (onlyRegs_event ..)

theorem State.examineQueue_nil {s : State} (h : s.maintQueue = []) : s.examineQueue [] [] = s := by
  rw [State.examineQueue, ← h]

/-- With nothing queued, the end of a running operation is all that happens (R419). -/
theorem State.endMaint_alone {s : State} {cls target r : Nat} (hruns : (s.maintRun.any fun m => m.cls == cls && m.target == target) = true)
    (hqueue : s.maintQueue = []) : s.endMaint cls target r = s.opEnded cls target r := by
  obtain ⟨m, hfind⟩ := Option.isSome_iff_exists.1 (List.find?_isSome.2 (List.any_eq_true.1 hruns))
  have hmine : m.cls = cls ∧ m.target = target := by simpa using List.find?_some hfind
  obtain ⟨rfl, rfl⟩ := hmine
  have hidle : (s.opEnded m.cls m.target r).maintQueue = [] := (s.onlyRegs_opEnded m.cls m.target r).maintQueue.trans hqueue
  unfold State.endMaint
  rw [hfind]
  calc ((s.stopOp m.cls m.target).maintResult m r).examineQueue [] s.maintQueue
      = (s.opEnded m.cls m.target r).examineQueue [] [] := by rw [hqueue, State.opEnded, State.maintResult]
    _ = s.opEnded m.cls m.target r := State.examineQueue_nil hidle

theorem State.opEnded_result (s : State) {cls target r : Nat} (h : fieldAt 60 cls + fieldAt 58 r + target < 2 ^ 64) :
    (s.opEnded cls target r).reg (pgArb + 0x148) = fieldAt 60 cls + fieldAt 58 r + target := by
  rw [State.opEnded, State.event_reg _ _ _ (by decide) (by decide) (by decide), State.reg_setReg_self, Nat.mod_eq_of_lt h]

theorem State.opEnded_stackReg (s : State) (cls target r : Nat) {a : Nat} (ha : StackReg a) : (s.opEnded cls target r).reg a = s.reg a := by
  obtain ⟨hlo, hhi⟩ := ha.bounds
  have hpage : pgArb = 0x3_0000 := rfl
  rw [State.opEnded, State.event_reg _ _ _ (by omega) (by omega) (by omega), State.reg_setReg_ne _ _ (by omega)]
  rfl

end Sys2Proof.Machine
end

section
/-! SUPPORT. The map-out of a channel (R297, R298): its request, the end of QUIESCE, SHARDS with nothing to move, and the channel that leaves
service once RESTRIPE is done. -/
namespace Sys2Proof.Machine

/-! ### The request -/

section
variable {s : State} {acc : Acc} {h : Stack} {w : W64} (hopen : s.Open acc (pgHc h.val + 0x300))
include hopen

/-- The state once HC_MO_CTRL has taken the write. -/
def State.moCtrlStored (s : State) (acc : Acc) (h : Stack) (w : W64) : State := s.storeReg (pgHc h.val + 0x300) w.toNat (accMask acc)

theorem execMapOutRequest_asks (hacts : acts w.toNat 8 = true) : execMapOutRequest acc h w s = .next ((s.moCtrlStored acc h w).request
    { cls := 1, target := 32 * h.val + (s.moCtrlStored acc h w).fld (pgHc h.val + 0x300) 4 0, src := acc.port.code }) :=
  congrArg Host.Outcome.next ((State.hostWrite_of_open hopen _).trans (if_pos hacts))

theorem execMapOutRequest_stores (hacts : acts w.toNat 8 = false) : execMapOutRequest acc h w s = .next (s.moCtrlStored acc h w) :=
  congrArg Host.Outcome.next ((State.hostWrite_of_open hopen _).trans (if_neg (by rw [hacts]; decide)))

theorem execMapOutRequest_primary (hacts : acts w.toNat 8 = true) (hprimary : s.primary.isSome = true) :
    execMapOutRequest acc h w s = .next ((s.moCtrlStored acc h w).askMapOut
      (32 * h.val + (s.moCtrlStored acc h w).fld (pgHc h.val + 0x300) 4 0) acc.port.code) := by
  rw [← (onlyRegs_storeReg s (pgHc h.val + 0x300) w.toNat (accMask acc)).primary] at hprimary
  rw [execMapOutRequest_asks hopen hacts]
  exact congrArg Host.Outcome.next ((State.request_of_primary hprimary _).trans (if_pos rfl))

theorem execMapOutRequest_waits (hacts : acts w.toNat 8 = true) (hprimary : s.primary = none) :
    execMapOutRequest acc h w s = .next { s.moCtrlStored acc h w with maintWait := s.maintWait ++
      [⟨1, 32 * h.val + (s.moCtrlStored acc h w).fld (pgHc h.val + 0x300) 4 0, acc.port.code, 0, none⟩] } := by
  have hstored := onlyRegs_storeReg s (pgHc h.val + 0x300) w.toNat (accMask acc)
  rw [execMapOutRequest_asks hopen hacts, ← hstored.maintWait]
  exact congrArg Host.Outcome.next (State.request_waits (hstored.primary.trans hprimary) _)

end

/-! ### QUIESCE -/

theorem chReg_ne_moSt (c : Nat) : chReg c ≠ moSt (c / 32) := chReg_ne c (.inr (by decide)) (by decide)

section
variable {s : State} {dt : Nat} {c : Chan} (hlive : (s.tick dt).live = true)
include hlive

theorem execMapOutQuiesced_waits (hbusy : (s.tick dt).noSectionsAt c.val = false) : execMapOutQuiesced dt c s = .next (s.tick dt) :=
  congrArg Host.Outcome.next ((State.whenLive_of_live hlive _).trans (if_neg (by rw [hbusy, Bool.and_false]; decide)))

theorem execMapOutQuiesced_fences (hphase : (s.tick dt).mapOutAt c.val 1 = true) (hidle : (s.tick dt).noSectionsAt c.val = true) :
    Answers (execMapOutQuiesced dt c s) fun t => t.chState c.val = 1 ∧ t.fld (moSt (c.val / 32)) 62 60 = 2 ∧
      OnlyRegsOf (s.tick dt) t fun r => r = chReg c.val ∨ r = moSt (c.val / 32) := by
  refine ⟨((s.tick dt).setFld (chReg c.val) 63 62 1).setFld (moSt (c.val / 32)) 62 60 2,
    congrArg Host.Outcome.next ((State.whenLive_of_live hlive _).trans (if_pos (by rw [hphase, hidle]; rfl))), ?state, ?phase, ?others,
    ((onlyRegs_setFld ..).trans (onlyRegs_setFld ..)).hbm⟩
  case state =>
    rw [State.chState, State.fld_congr (State.reg_setFld_ne _ _ _ _ (chReg_ne_moSt c.val))]
    exact State.fld_setFld_self _ _ _ _ _ (by decide) (by decide)
  case phase => exact State.fld_setFld_self _ _ _ _ _ (by decide) (by decide)
  case others =>
    intro r hr
    obtain ⟨hchan, hstatus⟩ := not_or.1 hr
    rw [State.reg_setFld_ne _ _ _ _ hstatus, State.reg_setFld_ne _ _ _ _ hchan]

end

/-! ### SHARDS -/

/-- Rows that no copy reads report nothing. -/
theorem State.copyErrs_unread (s : State) {read : Nat → Bool} (h : ∀ x, read x = false) (errs : List (Chan × BitVec 22 × Ecc)) :
    s.copyErrs read errs = s :=
  foldl_keeps_view id _ errs s fun _ _ _ => if_neg (by rw [h]; decide)

/-- No listed entry has a placement in channel `c`. -/
def State.NothingPlaced (s : State) (c : Nat) : Prop :=
  ∀ b ∈ s.sdListed, s.placedIn (s.sdPlace b true) c = false ∧ s.placedIn (s.sdPlace b false) c = false

theorem State.migrants_of_nothingPlaced {s : State} {c : Nat} (h : s.NothingPlaced c) : s.migrants c = [] :=
  List.filter_eq_nil_iff.2 fun b hb => by rw [(h b hb).1, Bool.and_false]; decide

theorem State.flipJobs_nil (s : State) : s.flipJobs [] = s := rfl

/-- SHARDS with nothing placed in the channel reports nothing moved and reaches RESTRIPE. -/
theorem State.moveShards_of_nothingPlaced {s : State} {c : Nat} (h : s.NothingPlaced c) (errs : List (Chan × BitVec 22 × Ecc)) :
    s.moveShards c errs = ((s.setFld (moSt (c / 32)) 51 36 0).setFld (moSt (c / 32)) 35 0 0).setFld (moSt (c / 32)) 62 60 4 := by
  have hstaged : (s.sdListed.filter fun b => !([] : List Nat).contains b && s.placedIn (s.sdPlace b false) c) = [] :=
    List.filter_eq_nil_iff.2 fun b hb => by rw [(h b hb).2, Bool.and_false]; decide
  unfold State.moveShards
  rw [State.migrants_of_nothingPlaced h]
  simp only [List.map_nil, List.any_nil, s.copyErrs_unread fun _ => rfl, hstaged, List.foldl_nil, State.migrateAll, List.eraseDups_nil,
    State.flipJobs_nil, List.length_nil, Nat.zero_div]

theorem execMapOutShardsDone_empty {s : State} {dt : Nat} {c : Chan} {errs : List (Chan × BitVec 22 × Ecc)} (hlive : (s.tick dt).live = true)
    (hphase : (s.tick dt).mapOutAt c.val 2 = true) (hnone : (s.tick dt).NothingPlaced c.val) :
    Answers (execMapOutShardsDone dt (c, errs) s) fun t => t.fld (moSt (c.val / 32)) 62 60 = 4 ∧ t.fld (moSt (c.val / 32)) 51 36 = 0 ∧
      t.fld (moSt (c.val / 32)) 35 0 = 0 ∧ OnlyRegsOf (s.tick dt) t fun r => r = moSt (c.val / 32) := by
  refine ⟨_, congrArg Host.Outcome.next (((State.whenLive_of_live hlive _).trans (if_pos hphase)).trans
    (State.moveShards_of_nothingPlaced hnone errs)), ?phase, ?blocks, ?bytes, ?others,
    (((onlyRegs_setFld ..).trans (onlyRegs_setFld ..)).trans (onlyRegs_setFld ..)).hbm⟩
  case phase => exact State.fld_setFld_self _ _ _ _ _ (by decide) (by decide)
  case blocks =>
    rw [State.fld_setFld_apart _ _ _ (by decide) (by decide) (by decide) (by decide),
      State.fld_setFld_apart _ _ _ (by decide) (by decide) (by decide) (by decide)]
    exact State.fld_setFld_self _ _ _ _ _ (by decide) (by decide)
  case bytes =>
    rw [State.fld_setFld_apart _ _ _ (by decide) (by decide) (by decide) (by decide)]
    exact State.fld_setFld_self _ _ _ _ _ (by decide) (by decide)
  case others =>
    intro r hr
    rw [State.reg_setFld_ne _ _ _ _ hr, State.reg_setFld_ne _ _ _ _ hr, State.reg_setFld_ne _ _ _ _ hr]

/-! ### RESTRIPE and DONE -/

/-- A Yard without stowage has nothing to re-stripe. -/
theorem State.restripe_empty {s : State} {y : Nat} (h : s.stowExtents y = []) (old new : List Nat) (errs : List (Chan × BitVec 22 × Ecc)) :
    s.restripe y old new errs = s := by
  have hend : ceilDiv (s.stowEnd y) 4096 = 0 := by rw [State.stowEnd, h]; rfl
  unfold State.restripe
  simp only [hend, List.range_zero, List.any_nil, s.copyErrs_unread fun _ => rfl, List.foldl_nil]

theorem OnlyRegs.slices {s t : State} (h : OnlyRegs s t) : t.slices = s.slices := by
  obtain ⟨r, o, rfl⟩ := h; rfl

theorem OnlyRegs.recMapped {s t : State} (h : OnlyRegs s t) : t.recMapped = s.recMapped := by
  obtain ⟨r, o, rfl⟩ := h; rfl

/-- What a map-out that ends shows beside registers, and what the arbiter runs. -/
structure ServiceView where
  hbm : Mem
  slices : Tab SliceState
  recMapped : List Nat
  maintRun : List MaintOp
  maintQueue : List MaintOp

def State.serviceView (s : State) : ServiceView := ⟨s.hbm, s.slices, s.recMapped, s.maintRun, s.maintQueue⟩

theorem OnlyRegs.serviceView {s t : State} (h : OnlyRegs s t) : t.serviceView = s.serviceView := by
  obtain ⟨r, o, rfl⟩ := h; rfl

/-- The records of fenced rows are not in view. -/
theorem State.serviceView_recs (s : State) (perm pend : List Nat) :
    ({ s with recPermanent := perm, recPending := pend } : State).serviceView = s.serviceView := rfl

theorem State.serviceView_freeFence (s : State) (h e : Nat) : (s.freeFence h e).serviceView = s.serviceView := by
  unfold State.freeFence State.countFence
  rw [(onlyRegs_setFld ..).serviceView, State.serviceView_recs]
  exact ((onlyRegs_setReg ..).trans (onlyRegs_setReg ..)).serviceView

theorem State.reg_freeFence (s : State) (h e : Nat) {a : Nat} (ha : a < pgRep h + 0x110) : (s.freeFence h e).reg a = s.reg a := by
  have hword (w : Nat) : a ≠ fenceReg h e w := by unfold fenceReg; omega
  unfold State.freeFence State.countFence
  rw [State.reg_setFld_ne _ _ _ _ (Nat.ne_of_lt ha)]
  exact (State.reg_setReg_ne _ _ (hword 1)).trans (State.reg_setReg_ne _ _ (hword 0))

/-- The fence entries `es` of stack `h` freed. -/
def State.freeFences (s : State) (h : Nat) (es : List Nat) : State := es.foldl (fun t e => t.freeFence h e) s

theorem State.serviceView_freeFences (s : State) (h : Nat) (es : List Nat) : (s.freeFences h es).serviceView = s.serviceView :=
  foldl_keeps_view State.serviceView _ _ _ fun t e _ => t.serviceView_freeFence h e

theorem State.reg_freeFences (s : State) (h : Nat) (es : List Nat) {a : Nat} (ha : a < pgRep h + 0x110) : (s.freeFences h es).reg a = s.reg a :=
  foldl_keeps_view (·.reg a) _ _ _ fun t e _ => t.reg_freeFence h e ha

theorem State.reg_dropLines (s : State) (c a : Nat) : (s.dropLines c).reg a = s.reg a := by unfold State.dropLines; rfl

theorem State.dropLines_lines (s : State) (c : Nat) : ((s.dropLines c).slice (c / 32)).lines =
    (s.slice (c / 32)).lines.filter fun e => !(adChan (e.line * 4096) == c) := by
  unfold State.dropLines
  exact congrArg SliceState.lines (Tab.get_set_self ..)

/-- Channel `c` MAPPED_OUT, with its lines dropped. -/
def State.chanMapped (s : State) (c : Nat) : State := ((s.setFld (chReg c) 63 62 2).setFlag (chReg c) 59 false).dropLines c

theorem State.serviceView_dropLines (s : State) (c : Nat) :
    (s.dropLines c).serviceView = { s.serviceView with slices := (s.dropLines c).slices } := by
  unfold State.dropLines
  rfl

theorem State.serviceView_chanMapped (s : State) (c : Nat) :
    (s.chanMapped c).serviceView = { s.serviceView with slices := (s.dropLines c).slices } := by
  have hmapped := (onlyRegs_setFld s (chReg c) 63 62 2).trans (onlyRegs_setFlag _ (chReg c) 59 false)
  have hslices : (s.chanMapped c).slices = (s.dropLines c).slices := by
    unfold State.chanMapped State.dropLines State.setSlice State.slice
    rw [hmapped.slices]
  rw [← hslices, State.chanMapped, State.serviceView_dropLines, hmapped.serviceView]

theorem State.chanMapped_chState (s : State) (c : Nat) : (s.chanMapped c).chState c = 2 := by
  rw [State.chState, State.chanMapped, State.fld_congr (State.reg_dropLines _ c _), State.setFlag,
    State.fld_setFld_apart _ _ _ (by decide) (by decide) (by decide) (by decide)]
  exact State.fld_setFld_self _ _ _ _ _ (by decide) (by decide)

/-- The fence entries of channel `c`. -/
def State.fencesOf (s : State) (c : Nat) : List Nat :=
  (List.range 64).filter fun e => s.fenceValid (c / 32) e && (s.fenceRow (c / 32) e).1 == c

/-- Channel `c` recorded as mapped out. -/
def State.recordMapped (s : State) (c : Nat) : State := { s with recMapped := s.recMapped ++ [c] }

/-- Channel `c` out of service: MAPPED_OUT, its lines dropped, its fence entries freed, and recorded (DONE of R297). -/
def State.mapChanOut (s : State) (c : Nat) : State :=
  ((s.chanMapped c).freeFences (c / 32) ((s.chanMapped c).fencesOf c)).recordMapped c

theorem State.serviceView_recordMapped (s : State) (c : Nat) :
    (s.recordMapped c).serviceView = { s.serviceView with recMapped := s.serviceView.recMapped ++ [c] } := rfl

theorem State.reg_recordMapped (s : State) (c a : Nat) : (s.recordMapped c).reg a = s.reg a := rfl

theorem State.serviceView_mapChanOut (s : State) (c : Nat) :
    (s.mapChanOut c).serviceView = ⟨s.hbm, (s.dropLines c).slices, s.recMapped ++ [c], s.maintRun, s.maintQueue⟩ := by
  rw [State.mapChanOut, State.serviceView_recordMapped, State.serviceView_freeFences, State.serviceView_chanMapped]
  rfl

theorem State.mapChanOut_chState (s : State) (c : Nat) : (s.mapChanOut c).chState c = 2 := by
  have hbelow : chReg c < pgRep (c / 32) + 0x110 := by unfold chReg pgRep; omega
  have hfreed : (s.mapChanOut c).reg (chReg c) = (s.chanMapped c).reg (chReg c) :=
    (State.reg_recordMapped _ c _).trans (State.reg_freeFences _ _ _ hbelow)
  exact (State.fld_congr hfreed 63 62).trans (s.chanMapped_chState c)

/-- HC_MO_STATUS of a map-out of channel `c` that has ended, `mb` MiB of stowage moved. -/
def State.mapOutShown (s : State) (c mb : Nat) : State :=
  let a := moSt (c / 32)
  (((s.setFld a 35 0 (s.fld a 35 0 + mb)).setFlag a 63 false).setFld a 62 60 0).setFld a 59 57 1

theorem State.onlyRegs_mapOutShown (s : State) (c mb : Nat) : OnlyRegs s (s.mapOutShown c mb) :=
  (((onlyRegs_setFld ..).trans (onlyRegs_setFlag ..)).trans (onlyRegs_setFld ..)).trans (onlyRegs_setFld ..)

theorem State.reg_mapOutShown_ne (s : State) {c a : Nat} (mb : Nat) (h : a ≠ moSt (c / 32)) : (s.mapOutShown c mb).reg a = s.reg a := by
  unfold State.mapOutShown
  rw [State.reg_setFld_ne _ _ _ _ h, State.reg_setFld_ne _ _ _ _ h, State.reg_setFlag_ne _ _ _ h, State.reg_setFld_ne _ _ _ _ h]

theorem State.mapOutShown_fields (s : State) (c mb : Nat) : let t := s.mapOutShown c mb
    t.flag (moSt (c / 32)) 63 = false ∧ t.fld (moSt (c / 32)) 59 57 = 1 ∧ t.fld (moSt (c / 32)) 62 60 = 0 := by
  unfold State.mapOutShown
  refine ⟨?busy, State.fld_setFld_self _ _ _ _ _ (by decide) (by decide), ?phase⟩
  case busy =>
    rw [State.flag_eq_fld, State.fld_setFld_apart _ _ _ (by decide) (by decide) (by decide) (by decide),
      State.fld_setFld_apart _ _ _ (by decide) (by decide) (by decide) (by decide), ← State.flag_eq_fld,
      State.flag_setFlag_self _ _ _ _ (by decide)]
  case phase =>
    rw [State.fld_setFld_apart _ _ _ (by decide) (by decide) (by decide) (by decide)]
    exact State.fld_setFld_self _ _ _ _ _ (by decide) (by decide)

/-- CHANNEL_MAPPED_OUT and MO_DONE reported. -/
def State.mapOutReported (s : State) (c : Nat) : State := (s.fault (pgHc (c / 32)) 0x0602 (hcInfo c 0 0 0)).event (pgHc (c / 32)) 4

theorem State.onlyRegs_mapOutReported (s : State) (c : Nat) : OnlyRegs s (s.mapOutReported c) := (onlyRegs_fault ..).trans (onlyRegs_event ..)

theorem State.reg_mapOutReported (s : State) (c : Chan) {a : Nat} (ha : StackReg a) : (s.mapOutReported c.val).reg a = s.reg a :=
  (State.event_stackReg _ _ 4 ha).trans (s.fault_stackReg (by omega) _ _ ha)

/-- Everything that DONE of channel `c` does before the arbiter hears of it. -/
def State.mapOutEnded (s : State) (c mb : Nat) : State := ((s.mapChanOut c).mapOutShown c mb).mapOutReported c

theorem State.serviceView_mapOutEnded (s : State) (c mb : Nat) :
    (s.mapOutEnded c mb).serviceView = ⟨s.hbm, (s.dropLines c).slices, s.recMapped ++ [c], s.maintRun, s.maintQueue⟩ :=
  ((State.onlyRegs_mapOutShown ..).trans (State.onlyRegs_mapOutReported ..)).serviceView.trans (s.serviceView_mapChanOut c)

theorem State.mapOutEnded_shows (s : State) (c : Chan) (mb : Nat) : let t := s.mapOutEnded c.val mb
    t.chState c.val = 2 ∧ t.flag (moSt (c.val / 32)) 63 = false ∧ t.fld (moSt (c.val / 32)) 59 57 = 1 ∧
      t.fld (moSt (c.val / 32)) 62 60 = 0 := by
  obtain ⟨hbusy, hresult, hphase⟩ := (s.mapChanOut c.val).mapOutShown_fields c.val mb
  have hstate := State.reg_mapOutShown_ne (s.mapChanOut c.val) mb (chReg_ne_moSt c.val)
  have hchan := State.reg_mapOutReported ((s.mapChanOut c.val).mapOutShown c.val mb) c (stackReg_chReg c)
  have hstatus := State.reg_mapOutReported ((s.mapChanOut c.val).mapOutShown c.val mb) c (stackReg_moSt c)
  exact ⟨(State.fld_congr (hchan.trans hstate) 63 62).trans (s.mapChanOut_chState c.val), (State.flag_congr hstatus 63).trans hbusy,
    (State.fld_congr hstatus 59 57).trans hresult, (State.fld_congr hstatus 62 60).trans hphase⟩

/-- Without stowage in the channel's home Yard, DONE follows at once. -/
theorem State.mapOutDone_empty {s : State} {c : Nat} (hnone : ∀ y, homeYard c = some y → s.stowExtents y = [])
    (errs : List (Chan × BitVec 22 × Ecc)) : ∃ mb, s.mapOutDone c errs = (s.mapOutEnded c mb).endMaint 1 c 1 := by
  unfold State.mapOutDone
  extract_lets h a t mb
  have ht : t = s := by
    unfold t
    split
    · rfl
    next y hy => exact State.restripe_empty (hnone y hy) _ _ errs
  clear_value t
  subst ht
  exact ⟨mb, rfl⟩

/-- What the end of the map-out of channel `c` leaves, where nothing had to be re-striped. -/
theorem State.mapOutDone_answers {s : State} {c : Chan} (hphase : s.mapOutAt c.val 4 = true)
    (hnone : ∀ y, homeYard c.val = some y → s.stowExtents y = []) (hqueue : s.maintQueue = []) (errs : List (Chan × BitVec 22 × Ecc)) :
    let t := s.mapOutDone c.val errs
    let a := moSt (c.val / 32)
    t.chState c.val = 2 ∧ t.flag a 63 = false ∧ t.fld a 59 57 = 1 ∧ t.fld a 62 60 = 0 ∧ c.val ∈ t.recMapped ∧ t.hbm = s.hbm ∧
      (t.slice (c.val / 32)).lines.all (fun e => adChan (e.line * 4096) != c.val) = true ∧
      t.maintRun = s.maintRun.filter fun k => !(k.cls == 1 && k.target == c.val) := by
  obtain ⟨mb, hdone⟩ := State.mapOutDone_empty hnone errs
  obtain ⟨hstate, hbusy, hresult, hended⟩ := s.mapOutEnded_shows c mb
  obtain ⟨hhbm, hslices, hmapped, hrun, hqueued⟩ := ServiceView.mk.inj (s.serviceView_mapOutEnded c.val mb)
  generalize s.mapOutEnded c.val mb = w at *
  have hruns : (w.maintRun.any fun m => m.cls == 1 && m.target == c.val) = true := by
    obtain ⟨m, hmem, hmine⟩ := List.any_eq_true.1 (Bool.and_eq_true_iff.1 hphase).1
    rw [hrun]
    exact List.any_eq_true.2 ⟨m, hmem, (Bool.and_eq_true_iff.1 hmine).1⟩
  rw [hdone, State.endMaint_alone hruns (hqueued.trans hqueue)]
  have hclosed := w.onlyRegs_opEnded 1 c.val 1
  have hchan := w.opEnded_stackReg 1 c.val 1 (stackReg_chReg c)
  have hstatus := w.opEnded_stackReg 1 c.val 1 (stackReg_moSt c)
  refine ⟨(State.fld_congr hchan 63 62).trans hstate, (State.flag_congr hstatus 63).trans hbusy,
    (State.fld_congr hstatus 59 57).trans hresult, (State.fld_congr hstatus 62 60).trans hended, ?recorded,
    hclosed.hbm.trans ((w.stopOp_hbm ..).trans hhbm), ?lines, ?runs⟩
  case recorded =>
    rw [hclosed.recMapped, State.stopOp_recMapped, hmapped]
    exact List.mem_append_right _ (List.mem_singleton_self _)
  case lines =>
    rw [State.slice, hclosed.slices, w.stopOp_slices, hslices, ← State.slice, State.dropLines_lines]
    exact List.all_eq_true.2 fun e he => (List.mem_filter.1 he).2
  case runs => rw [hclosed.maintRun, State.stopOp_maintRun, hrun]

theorem execMapOutRestripeDone_next {s : State} {dt : Nat} {c : Chan} {errs : List (Chan × BitVec 22 × Ecc)} (hlive : (s.tick dt).live = true)
    (hphase : (s.tick dt).mapOutAt c.val 4 = true) : execMapOutRestripeDone dt (c, errs) s = .next ((s.tick dt).mapOutDone c.val errs) :=
  congrArg Host.Outcome.next ((State.whenLive_of_live hlive _).trans (if_pos hphase))

end Sys2Proof.Machine

namespace Sys2Proof
open Machine

/-- Settles O21: each phase by what its command does where the channel is at it; DONE by the parts of the state that leaving service, the status
shown, the report and the arbiter change one after another. -/
theorem mapOut : Obligations.MapOut := by
  unfold Obligations.MapOut
  refine ⟨fun s acc h w hopen => ⟨execMapOutRequest_primary hopen, execMapOutRequest_waits hopen, execMapOutRequest_stores hopen⟩,
    fun s dt c errs => ?_⟩
  intro u a hlive
  refine ⟨execMapOutQuiesced_fences hlive, fun _ => execMapOutQuiesced_waits hlive, execMapOutShardsDone_empty hlive,
    fun hphase hnone hqueue => ?done⟩
  case done =>
    have hanswers := State.mapOutDone_answers hphase hnone ((s.tick_maintQueue dt).trans hqueue) errs
    rw [s.tick_hbm, s.tick_maintRun] at hanswers
    exact ⟨_, execMapOutRestripeDone_next hlive hphase, hanswers⟩

end Sys2Proof
end

section
/-! SUPPORT. The temperature of a stack and its level (R289, R290, Table 12.3), and the row repair of a stack (R294). -/
namespace Sys2Proof.Machine

/-! ### The level -/

/-- Table 12.3 in 1/16 °C: a level is entered at its threshold, and kept down to 3 °C below it. -/
theorem nextLevel_eq (old : Nat) (t : Int) : nextLevel old t =
    if 1680 ≤ t ∨ (3 ≤ old ∧ 1632 ≤ t) then 3 else if 1520 ≤ t ∨ (2 ≤ old ∧ 1472 ≤ t) then 2
    else if 1360 ≤ t ∨ (1 ≤ old ∧ 1312 ≤ t) then 1 else 0 := by
  simp [nextLevel, levelEnter]

theorem nextLevel_lt (old : Nat) (t : Int) : nextLevel old t < 4 := by
  rw [nextLevel_eq]
  (repeat' split) <;> decide

/-- The level in each band of temperatures between an entry and the end of a hold. -/
theorem nextLevel_bands {old : Nat} (hold : old < 4) (t : Int) :
    (1680 ≤ t → nextLevel old t = 3) ∧
    (t < 1312 → nextLevel old t = 0) ∧
    (1520 ≤ t → t < 1632 → nextLevel old t = 2) ∧
    (1632 ≤ t → t < 1680 → nextLevel old t = if old = 3 then 3 else 2) ∧
    (1472 ≤ t → t < 1520 → nextLevel old t = if 2 ≤ old then 2 else 1) ∧
    (1360 ≤ t → t < 1472 → nextLevel old t = 1) ∧
    (1312 ≤ t → t < 1360 → nextLevel old t = if old = 0 then 0 else 1) := by
  rw [nextLevel_eq]
  refine ⟨fun _ => ?_, fun _ => ?_, fun _ _ => ?_, fun _ _ => ?_, fun _ _ => ?_, fun _ _ => ?_, fun _ _ => ?_⟩ <;>
    (repeat' split) <;> omega

/-! ### A reading -/

theorem stackReg_therm (h : Stack) {o : Nat} (hlo : 0x100 ≤ o) (hhi : o < 0x1000) : StackReg (pgTherm h.val + o) := by
  rw [pgTherm, Nat.add_assoc]
  exact stackReg_pgHc h.isLt (by omega) (by omega)

theorem stackReg_rep (h : Stack) {o : Nat} (hlo : 0x100 ≤ o) (hhi : o < 0x1000) : StackReg (pgRep h.val + o) := by
  rw [pgRep, Nat.add_assoc]
  exact stackReg_pgHc h.isLt (by omega) (by omega)

/-- The reading `t` of stack `h` and the peak of its readings. -/
def State.tempKept (s : State) (h t : Nat) : State :=
  let a := pgTherm h + 0x100
  (s.setFld a 15 0 t).setFld a 31 16 (if toSigned 16 (s.fld a 31 16) < toSigned 16 t then t else s.fld a 31 16)

theorem State.onlyRegs_tempKept (s : State) (h t : Nat) : OnlyRegs s (s.tempKept h t) := (onlyRegs_setFld ..).trans (onlyRegs_setFld ..)

theorem State.fld_tempKept (s : State) (h : Nat) {t : Nat} (ht : t < 2 ^ 16) : (s.tempKept h t).fld (pgTherm h + 0x100) 15 0 = t := by
  rw [State.tempKept, State.fld_setFld_apart _ _ _ (by decide) (by decide) (by decide) (by decide),
    State.fld_setFld_self _ _ _ _ _ (by decide) (by decide), Nat.mod_eq_of_lt ht]

/-- The time at level `old` counted in whole milliseconds; what is left of it counts later. -/
def State.levelTimed (s : State) (h old ms : Nat) (since : Nat) : State :=
  if old = 0 then { s with thermSince := Tab.put s.thermSince h s.now }
  else { s.bump (pgTherm h + 0x108 + 8 * old) ms with thermSince := Tab.put s.thermSince h since }

theorem State.levelTimed_memory (s : State) (h old ms since : Nat) :
    (s.levelTimed h old ms since).hbm = s.hbm ∧ (s.levelTimed h old ms since).chans = s.chans := by
  have hbump := onlyRegs_bump s (pgTherm h + 0x108 + 8 * old) ms
  unfold State.levelTimed
  split
  · exact ⟨rfl, rfl⟩
  · exact ⟨hbump.hbm, hbump.chans⟩

/-- The counters of the levels stand beside the reading. -/
theorem State.reg_levelTimed (s : State) (h : Stack) {old : Nat} (hold : old < 4) (ms since : Nat) :
    (s.levelTimed h.val old ms since).reg (pgTherm h.val + 0x100) = s.reg (pgTherm h.val + 0x100) := by
  have hh := h.isLt
  have hbase : pageBase (pgTherm h.val + 0x108 + 8 * old) = pgTherm h.val := by
    unfold pageBase pgTherm pgHc
    omega
  unfold State.levelTimed
  split
  · rfl
  · exact s.bump_reg _ ms (by omega) (by omega) (by omega) (by unfold pgTherm pgHc; omega)

/-- The level of stack `h` and its double refresh, and what a running repair of the stack shows of them. -/
def State.levelShown (s : State) (h new : Nat) (hot : Bool) : State :=
  let u := (s.setFlag (pgTherm h + 0x108) 2 hot).setFld (pgTherm h + 0x108) 1 0 new
  if u.flag (pgRep h + 0x110) 63 then u.setFlag (pgRep h + 0x110) 62 (decide (0 < new)) else u

theorem State.onlyRegs_levelShown (s : State) (h new : Nat) (hot : Bool) : OnlyRegs s (s.levelShown h new hot) :=
  have hset := (onlyRegs_setFlag s (pgTherm h + 0x108) 2 hot).trans (onlyRegs_setFld _ (pgTherm h + 0x108) 1 0 new)
  onlyRegs_ite _ (hset.trans (onlyRegs_setFlag ..)) hset

theorem State.reg_levelShown (s : State) (h new : Nat) (hot : Bool) {o : Nat} (ho : o < 0x1000) : (s.levelShown h new hot).reg (pgTherm h + o) =
    ((s.setFlag (pgTherm h + 0x108) 2 hot).setFld (pgTherm h + 0x108) 1 0 new).reg (pgTherm h + o) :=
  reg_ite _ (State.reg_setFlag_ne _ _ _ (by unfold pgTherm pgRep; omega)) rfl

theorem State.levelShown_level (s : State) (h : Nat) {new : Nat} (hnew : new < 4) (hot : Bool) :
    (s.levelShown h new hot).fld (pgTherm h + 0x108) 1 0 = new ∧ (s.levelShown h new hot).flag (pgTherm h + 0x108) 2 = hot := by
  have hreg := s.reg_levelShown h new hot (o := 0x108) (by decide)
  refine ⟨?level, ?refresh⟩
  case level =>
    exact (State.fld_congr hreg 1 0).trans ((State.fld_setFld_self _ _ _ _ _ (by decide) (by decide)).trans (Nat.mod_eq_of_lt hnew))
  case refresh =>
    rw [State.flag_congr hreg, State.flag_eq_fld, State.fld_setFld_apart _ _ _ (by decide) (by decide) (by decide) (by decide),
      ← State.flag_eq_fld, State.flag_setFlag_self _ _ _ _ (by decide)]

/-- A change of level reported (R290). -/
def State.levelReported (s : State) (h old new t : Nat) : State :=
  if new = old then s else s.faultEv (pgHc h) 0x0604 (fieldAt 59 h + fieldAt 51 new + t % 2 ^ 16) 3

theorem State.onlyRegs_levelReported (s : State) (h old new t : Nat) : OnlyRegs s (s.levelReported h old new t) :=
  onlyRegs_ite _ (.refl s) (onlyRegs_faultEv ..)

theorem State.reg_levelReported (s : State) (h : Stack) (old new t : Nat) {a : Nat} (ha : StackReg a) :
    (s.levelReported h.val old new t).reg a = s.reg a :=
  reg_ite _ rfl (s.faultEv_stackReg h.isLt _ _ _ ha)

/-- The reading taken, and the time at level `old` counted. -/
def State.tempTaken (s : State) (h t old ms since : Nat) : State := (s.tempKept h t).levelTimed h old ms since

theorem State.tempTaken_keeps (s : State) (h : Stack) {t old : Nat} (ht : t < 2 ^ 16) (hold : old < 4) (ms since : Nat) :
    let v := s.tempTaken h.val t old ms since
    v.fld (pgTherm h.val + 0x100) 15 0 = t ∧ v.hbm = s.hbm ∧ v.chans = s.chans := by
  have hkept := s.onlyRegs_tempKept h.val t
  obtain ⟨hhbm, hchans⟩ := (s.tempKept h.val t).levelTimed_memory h.val old ms since
  exact ⟨(State.fld_congr ((s.tempKept h.val t).reg_levelTimed h hold ms since) 15 0).trans (s.fld_tempKept h.val ht),
    hhbm.trans hkept.hbm, hchans.trans hkept.chans⟩

/-- The level that follows from the reading `t`, shown and reported. -/
def State.levelTaken (s : State) (h t old new : Nat) (hot : Bool) : State := (s.levelShown h new hot).levelReported h old new t

theorem State.onlyRegs_levelTaken (s : State) (h t old new : Nat) (hot : Bool) : OnlyRegs s (s.levelTaken h t old new hot) :=
  (State.onlyRegs_levelShown ..).trans (State.onlyRegs_levelReported ..)

theorem State.levelTaken_shows (s : State) (h : Stack) (t old : Nat) {new : Nat} (hnew : new < 4) (hot : Bool) :
    let v := s.levelTaken h.val t old new hot
    v.reg (pgTherm h.val + 0x100) = s.reg (pgTherm h.val + 0x100) ∧ v.flag (pgTherm h.val + 0x108) 2 = hot ∧
      v.fld (pgTherm h.val + 0x108) 1 0 = new := by
  obtain ⟨hlevel, hrefresh⟩ := s.levelShown_level h.val hnew hot
  have hreported {o : Nat} (hlo : 0x100 ≤ o) (hhi : o < 0x1000) :=
    (s.levelShown h.val new hot).reg_levelReported h old new t (stackReg_therm h hlo hhi)
  have hreading : (s.levelShown h.val new hot).reg (pgTherm h.val + 0x100) = s.reg (pgTherm h.val + 0x100) := by
    rw [State.reg_levelShown _ _ _ _ (by decide), State.reg_setFld_ne _ _ _ _ (by omega), State.reg_setFlag_ne _ _ _ (by omega)]
  have hlevels := hreported (o := 0x108) (by decide) (by decide)
  exact ⟨(hreported (by decide) (by decide)).trans hreading, (State.flag_congr hlevels 2).trans hrefresh,
    (State.fld_congr hlevels 1 0).trans hlevel⟩

theorem State.readTemp_eq (s : State) (h t : Nat) {old : Nat} (hold : s.fld (pgTherm h + 0x108) 1 0 = old) : ∃ ms since,
    s.readTemp h t =
      (s.tempTaken h t old ms since).levelTaken h t old (nextLevel old (toSigned 16 t)) (decide (85 * 16 < toSigned 16 t)) := by
  subst hold
  exact ⟨_, _, rfl⟩

/-- What a reading leaves: itself, the level that follows from it, and HBM with its channels as they were. -/
theorem State.readTemp_shows (s : State) (h : Stack) {t : Nat} (ht : t < 2 ^ 16) : let v := s.readTemp h.val t
    v.fld (pgTherm h.val + 0x100) 15 0 = t ∧ v.hbm = s.hbm ∧ v.chans = s.chans ∧
      v.flag (pgTherm h.val + 0x108) 2 = decide (85 * 16 < toSigned 16 t) ∧
      v.fld (pgTherm h.val + 0x108) 1 0 = nextLevel (s.fld (pgTherm h.val + 0x108) 1 0) (toSigned 16 t) := by
  have hold : s.fld (pgTherm h.val + 0x108) 1 0 < 4 := bits_lt ..
  generalize hlevel : s.fld (pgTherm h.val + 0x108) 1 0 = old at hold ⊢
  obtain ⟨ms, since, hread⟩ := s.readTemp_eq h.val t hlevel
  obtain ⟨hkept, hhbm, hchans⟩ := s.tempTaken_keeps h ht hold ms since
  obtain ⟨hreading, hrefresh, hnew⟩ := (s.tempTaken h.val t old ms since).levelTaken_shows h t old (nextLevel_lt old (toSigned 16 t))
    (decide (85 * 16 < toSigned 16 t))
  have hframe := (s.tempTaken h.val t old ms since).onlyRegs_levelTaken h.val t old (nextLevel old (toSigned 16 t))
    (decide (85 * 16 < toSigned 16 t))
  rw [hread]
  exact ⟨(State.fld_congr hreading 15 0).trans hkept, hframe.hbm.trans hhbm, hframe.chans.trans hchans, hrefresh, hnew⟩

section
variable {s : State} {dt : Nat} {h : Stack} (hlive : (s.tick dt).live = true)
include hlive

theorem execHbmTempSample_untrained (t : BitVec 16) (hoff : (s.tick dt).flag (pgPhy h.val + 0x100) 63 = false) :
    execHbmTempSample dt h t s = .next (s.tick dt) :=
  congrArg Host.Outcome.next ((State.whenLive_of_live hlive _).trans (if_neg (by rw [hoff]; decide)))

theorem execHbmTempSample_reads (t : BitVec 16) (hon : (s.tick dt).flag (pgPhy h.val + 0x100) 63 = true) :
    execHbmTempSample dt h t s = .next ((s.tick dt).readTemp h.val t.toNat) :=
  congrArg Host.Outcome.next ((State.whenLive_of_live hlive _).trans (if_pos hon))

theorem execHbmTempSample_answers (t : BitVec 16) (hon : (s.tick dt).flag (pgPhy h.val + 0x100) 63 = true) :
    Answers (execHbmTempSample dt h t s) fun v => v.fld (pgTherm h.val + 0x100) 15 0 = t.toNat ∧ v.hbm = s.hbm ∧ v.chans = s.chans ∧
      v.flag (pgTherm h.val + 0x108) 2 = decide (1360 < t.toInt) ∧
      v.fld (pgTherm h.val + 0x108) 1 0 = nextLevel (s.fld (pgTherm h.val + 0x108) 1 0) t.toInt := by
  have hsigned : toSigned 16 t.toNat = t.toInt := by rw [toSigned_eq_toInt (by decide), BitVec.ofNat_toNat, BitVec.setWidth_eq]
  have hshows := (s.tick dt).readTemp_shows h t.isLt
  rw [hsigned, s.tick_hbm, s.tick_chans, State.fld_congr (s.tick_stackReg dt (stackReg_therm h (by decide) (by decide)))] at hshows
  exact ⟨_, execHbmTempSample_reads hlive t hon, hshows⟩

end

/-! ### The request of a repair -/

section
variable {s : State} {acc : Acc} {h : Stack} {w : W64} (hopen : s.Open acc (pgRep h.val + 0x108))
include hopen

theorem execRepair_asks (hacts : acts w.toNat 0 = true) :
    execRepair acc h w s = .next (s.request { cls := 2, target := h.val, src := acc.port.code }) :=
  congrArg Host.Outcome.next ((State.hostWrite_of_open hopen _).trans (if_pos hacts))

theorem execRepair_primary (hacts : acts w.toNat 0 = true) (hprimary : s.primary.isSome = true) :
    execRepair acc h w s = .next (s.maintAsk ⟨2, h.val, acc.port.code, 0, none⟩) :=
  (execRepair_asks hopen hacts).trans (congrArg Host.Outcome.next (State.request_of_primary hprimary _))

theorem execRepair_waits (hacts : acts w.toNat 0 = true) (hprimary : s.primary = none) :
    execRepair acc h w s = .next { s with maintWait := s.maintWait ++ [⟨2, h.val, acc.port.code, 0, none⟩] } :=
  (execRepair_asks hopen hacts).trans (congrArg Host.Outcome.next (State.request_waits hprimary _))

theorem execRepair_ignored (hacts : acts w.toNat 0 = false) : execRepair acc h w s = .next s :=
  congrArg Host.Outcome.next ((State.hostWrite_of_open hopen _).trans (if_neg (by rw [hacts]; decide)))

end

/-! ### A step of the running repair -/

/-- REP_STATUS is none of the fence entries. -/
theorem State.fencesIn_deferral (s : State) (h c st : Nat) (b : Bool) : (s.setFlag (pgRep h + 0x110) 62 b).fencesIn c st = s.fencesIn c st := by
  have hword (e w : Nat) (he : e < 64) (hw : w < 2) : (s.setFlag (pgRep h + 0x110) 62 b).reg (fenceReg (c / 32) e w) =
      s.reg (fenceReg (c / 32) e w) := State.reg_setFlag_ne _ _ _ (by unfold fenceReg pgRep pgHc; omega)
  refine List.filter_congr fun e he => ?_
  have he := List.mem_range.1 he
  rw [State.fenceValid, State.fenceValid, State.fenceRow, State.fenceRow, State.flag_congr (hword e 0 he (by decide)),
    State.fld_congr (hword e 0 he (by decide)), State.fld_congr (hword e 0 he (by decide)), State.fld_congr (hword e 1 he (by decide))]

/-- REP_STATUS of stack `h` once its repair has ended: neither deferred nor busy. -/
def State.repairIdle (s : State) (h : Nat) : State := (s.setFlag (pgRep h + 0x110) 62 false).setFlag (pgRep h + 0x110) 63 false

theorem State.onlyRegs_repairIdle (s : State) (h : Nat) : OnlyRegs s (s.repairIdle h) := (onlyRegs_setFlag ..).trans (onlyRegs_setFlag ..)

theorem State.repairIdle_flags (s : State) (h : Nat) :
    (s.repairIdle h).flag (pgRep h + 0x110) 63 = false ∧ (s.repairIdle h).flag (pgRep h + 0x110) 62 = false :=
  ⟨State.flag_setFlag_self _ _ _ _ (by decide),
    (State.flag_setFlag_ne _ _ _ (by decide) (by decide)).trans (State.flag_setFlag_self _ _ _ _ (by decide))⟩

/-- No channel of stack `h` has an entry that waits for repair or is under repair. -/
def State.NothingFenced (s : State) (h : Nat) : Prop := ∀ c, c / 32 = h → s.fencesIn c 0 = [] ∧ s.fencesIn c 2 = []

section
variable {s : State} {h : Nat} {m : MaintOp} (hruns : s.maintRun = [m]) (hcls : m.cls = 2) (htarget : m.target = h)
include hruns hcls htarget

theorem State.repairStep_found : s.maintRun.find? (fun k => k.cls == 2 && k.target == h) = some m := by
  rw [hruns]
  exact List.find?_cons_of_pos (by rw [hcls, htarget]; simp)

theorem State.repairStep_hot (hhot : 0 < s.fld (pgTherm h + 0x108) 1 0) : s.repairStep h = s.setFlag (pgRep h + 0x110) 62 true := by
  unfold State.repairStep
  rw [State.repairStep_found hruns hcls htarget]
  exact if_pos hhot

section
variable (hcool : s.fld (pgTherm h + 0x108) 1 0 = 0)
include hcool

/-- Cool, in no channel, and with no entry left, the repair ends. -/
theorem State.repairStep_ends (hphase : m.phase = 0) (hnone : s.NothingFenced h) :
    s.repairStep h = (s.repairIdle h).endMaint 2 h 1 := by
  have hleft : ((List.range 32).map (32 * h + ·)).find? (fun c => !(s.fencesIn c 0).isEmpty || !(s.fencesIn c 2).isEmpty) = none := by
    refine List.find?_eq_none.2 fun c hc => ?_
    obtain ⟨i, hi, rfl⟩ := List.mem_map.1 hc
    have hi := List.mem_range.1 hi
    obtain ⟨hpending, hrepairing⟩ := hnone (32 * h + i) (by omega)
    rw [hpending, hrepairing]
    decide
  unfold State.repairStep
  rw [State.repairStep_found hruns hcls htarget]
  refine (if_neg (by omega)).trans ((if_pos hphase).trans ?_)
  rw [hleft]
  rfl

section
variable (hphase : 0 < m.phase)
include hphase

theorem State.repairStep_waits (hbusy : s.noSectionsAt (32 * h + m.phase - 1) = false) : s.repairStep h = s.setFlag (pgRep h + 0x110) 62 false := by
  unfold State.repairStep
  rw [State.repairStep_found hruns hcls htarget]
  exact (if_neg (by omega)).trans ((if_neg (by omega)).trans (if_pos (by rw [hbusy]; rfl)))

/-- In a quiesced channel with no repair begun, its pending entries show REPAIRING. -/
theorem State.repairStep_begins (hidle : s.noSectionsAt (32 * h + m.phase - 1) = true) (hnone : s.fencesIn (32 * h + m.phase - 1) 2 = []) :
    s.repairStep h = (s.fencesIn (32 * h + m.phase - 1) 0).foldl (fun t e => t.setFld (fenceReg h e 0) 62 61 2)
      (s.setFlag (pgRep h + 0x110) 62 false) := by
  unfold State.repairStep
  rw [State.repairStep_found hruns hcls htarget]
  refine (if_neg (by omega)).trans ((if_neg (by omega)).trans ((if_neg (by rw [hidle]; decide)).trans ?_))
  rw [s.fencesIn_deferral, s.fencesIn_deferral, hnone]
  rfl

end

end

end

/-- The repair that ends leaves RESULT 1 in MA_RESULT, and no BUSY. -/
theorem State.repairStep_ended {s : State} {h : Stack} {m : MaintOp} (hruns : s.maintRun = [m]) (hcls : m.cls = 2) (htarget : m.target = h.val)
    (hcool : s.fld (pgTherm h.val + 0x108) 1 0 = 0) (hphase : m.phase = 0) (hnone : s.NothingFenced h.val) (hqueue : s.maintQueue = []) :
    let t := s.repairStep h.val
    t.maintRun = [] ∧ t.flag (pgRep h.val + 0x110) 63 = false ∧ t.flag (pgRep h.val + 0x110) 62 = false ∧
      t.reg (pgArb + 0x148) = 2 * 2 ^ 60 + 2 ^ 58 + h.val ∧ t.hbm = s.hbm := by
  have hmine : (m.cls == 2 && m.target == h.val) = true := by rw [hcls, htarget]; simp
  have hends := State.repairStep_ends hruns hcls htarget hcool hphase hnone
  have hshown := s.onlyRegs_repairIdle h.val
  obtain ⟨hbusy, hdeferred⟩ := s.repairIdle_flags h.val
  generalize s.repairIdle h.val = w at *
  have hrun : w.maintRun = [m] := hshown.maintRun.trans hruns
  rw [hends, State.endMaint_alone (by rw [hrun, List.any_cons, hmine]; rfl) (hshown.maintQueue.trans hqueue)]
  have hclosed := w.onlyRegs_opEnded 2 h.val 1
  have hstatus := w.opEnded_stackReg 2 h.val 1 (stackReg_rep h (o := 0x110) (by decide) (by decide))
  refine ⟨?runs, (State.flag_congr hstatus 63).trans hbusy, (State.flag_congr hstatus 62).trans hdeferred, ?result,
    hclosed.hbm.trans ((w.stopOp_hbm ..).trans hshown.hbm)⟩
  case runs =>
    have hothers : [m].filter (fun k => !(k.cls == 2 && k.target == h.val)) = [] := List.filter_cons_of_neg (by rw [hmine]; decide)
    rw [hclosed.maintRun, State.stopOp_maintRun, hrun, hothers]
  case result =>
    have hh := h.isLt
    rw [w.opEnded_result (by unfold fieldAt; omega)]
    unfold fieldAt
    omega

theorem execRowRepairRun_next {s : State} {dt : Nat} (h : Stack) (hlive : (s.tick dt).live = true) :
    execRowRepairRun dt h s = .next ((s.tick dt).repairStep h.val) :=
  congrArg Host.Outcome.next (State.whenLive_of_live hlive _)

end Sys2Proof.Machine

namespace Sys2Proof
open Machine

/-- Settles O23: the level by the bands of its two thresholds, the request by the primary, and the repair by whether its stack is cool, whether it
is in a channel, and what is in flight there. -/
theorem stackHeatAndRepair : Obligations.StackHeatAndRepair := by
  unfold Obligations.StackHeatAndRepair
  refine ⟨fun s dt h t => ?heat, fun s acc h w hopen => ⟨execRepair_primary hopen, execRepair_waits hopen, execRepair_ignored hopen⟩,
    fun s dt h m => ?repair⟩
  case heat =>
    intro u hlive
    refine ⟨execHbmTempSample_untrained hlive t, fun hon => ?_⟩
    obtain ⟨v, hnext, hkept, hhbm, hchans, hrefresh, hlevel⟩ := execHbmTempSample_answers hlive t hon
    have hbands := nextLevel_bands (bits_lt (s.reg (pgTherm h.val + 0x108)) 1 0) t.toInt
    rw [← State.fld, ← hlevel] at hbands
    exact ⟨v, hnext, hkept, hhbm, hchans, hrefresh, hbands⟩
  case repair =>
    intro u a hlive hruns hcls htarget
    have hruns : u.maintRun = [m] := (s.tick_maintRun dt).trans hruns
    have hstep {t : State} (ht : u.repairStep h.val = t) : exec (.rowRepairRun dt h) s = .next t :=
      (execRowRepairRun_next h hlive).trans (congrArg Host.Outcome.next ht)
    refine ⟨fun hhot => hstep (State.repairStep_hot hruns hcls htarget hhot), fun hcool hphase hnone hqueue => ?ends,
      fun hcool hphase hbusy => hstep (State.repairStep_waits hruns hcls htarget hcool hphase hbusy),
      fun hcool hphase hidle hnone => hstep (State.repairStep_begins hruns hcls htarget hcool hphase hidle hnone)⟩
    case ends =>
      have hended := State.repairStep_ended hruns hcls htarget hcool hphase hnone ((s.tick_maintQueue dt).trans hqueue)
      rw [s.tick_hbm] at hended
      exact ⟨_, hstep rfl, hended⟩

end Sys2Proof
end

section
/-! SUPPORT. Semaphores (R394): what an access that is not in a tie comes to at the register of a semaphore. -/
namespace Sys2Proof.Machine

/-- The access of 8 bytes at a register's own address, with no access of the other port beside it. -/
abbrev wholeAcc (port : HostPort) : Acc := ⟨port, 8, 0, false⟩

/-- An access that does not compete is handled at once while a host oscillator is there (R396, Table 2.5). -/
theorem State.inTurn_alone {s : State} {acc : Acc} (hosc : s.oscOut.contains 0 = false) (htie : acc.tie = false) (a : Nat) (f : State → State) :
    s.inTurn acc a f = f s := by
  have hsettled : s.tieSettled acc a = s := by rw [State.tieSettled, htie]; rfl
  have hserved : s.served_ acc a = true := by rw [State.served_, hosc, htie]; rfl
  rw [State.inTurn, if_pos hserved, hsettled]

theorem portCode_ne_zero (port : HostPort) : port.code ≠ 0 := by cases port <;> decide

/-- The register of a semaphore by its number. -/
theorem semReg_eq (i : Nat) : semReg i = 0x200 + 8 * i := by simp only [semReg, pgGlobal, Nat.zero_add]

theorem State.semOwner_eq (s : State) (i : Nat) : s.semOwner i = s.reg (0x200 + 8 * i) % 4 := by
  simp only [State.semOwner, State.fld, bits, pgGlobal, Nat.zero_add, Nat.pow_zero, Nat.div_one, Nat.reduceAdd, Nat.sub_zero, Nat.reducePow]

/-- An acquire is an 8-byte read in the semaphores' range. -/
theorem State.hostRead_sem (s : State) (port : HostPort) (i : Fin 32) (hosc : s.oscOut.contains 0 = false) :
    s.hostRead (wholeAcc port) (semReg i.val) = s.semAcquire port i.val := by
  have hrange : semReg 0 ≤ semReg i.val ∧ semReg i.val < semReg 32 := by simp only [semReg_eq]; omega
  have hindex : (semReg i.val - semReg 0) / 8 = i.val := by simp only [semReg_eq]; omega
  rw [State.hostRead, State.inTurn_alone hosc rfl]
  simp [hrange, hindex, accOk]

section
variable {s : State} {port : HostPort} {i : Fin 32} (hosc : s.oscOut.contains 0 = false)
include hosc

theorem execSemAcquire_alone : execSemAcquire (wholeAcc port) i s = .next (s.semAcquire port i.val) := by
  rw [execSemAcquire, s.hostRead_sem port i hosc]

theorem execSemAcquire_free (hfree : s.reg (0x200 + 8 * i.val) % 4 = 0) : execSemAcquire (wholeAcc port) i s = .next
    (({ s.setReg (0x200 + 8 * i.val) port.code with semSince := Tab.put s.semSince i.val s.now } : State).emit (.readData port 0)) := by
  rw [execSemAcquire_alone hosc, State.semAcquire, s.semOwner_eq, hfree, if_pos rfl, State.takeSem, semReg_eq]

theorem execSemAcquire_other (hheld : s.reg (0x200 + 8 * i.val) % 4 ≠ 0) (hother : s.reg (0x200 + 8 * i.val) % 4 ≠ port.code) :
    execSemAcquire (wholeAcc port) i s = .next (s.emit (.readData port (2 ^ 63 + s.reg (0x200 + 8 * i.val) % 4))) := by
  rw [execSemAcquire_alone hosc, State.semAcquire, s.semOwner_eq, if_neg hheld, if_neg hother]

theorem execSemAcquire_own (hown : s.reg (0x200 + 8 * i.val) % 4 = port.code) : execSemAcquire (wholeAcc port) i s = .next
    (({ s.setReg (0x200 + 8 * i.val) port.code with semSince := Tab.put s.semSince i.val s.now } : State).emit
      (.readData port (2 ^ 63 + port.code))) := by
  rw [execSemAcquire_alone hosc, State.semAcquire, s.semOwner_eq, hown, if_neg (portCode_ne_zero port), if_pos rfl, State.takeSem, semReg_eq]

end

/-- An 8-byte write that reaches a semaphore frees it for its owner's 0, and is dropped otherwise. -/
theorem execSemRelease_open {s : State} {port : HostPort} {i : Fin 32} (w : W64) (hopen : s.Open (wholeAcc port) (0x200 + 8 * i.val)) :
    execSemRelease (wholeAcc port) i w s = .next (if w = 0 ∧ s.reg (0x200 + 8 * i.val) % 4 = port.code then
      { s.setReg (0x200 + 8 * i.val) 0 with semSince := Tab.del s.semSince i.val } else s.bump (pgHost port.isB + 0x138) 1) := by
  rw [← semReg_eq] at hopen
  rw [execSemRelease, if_neg (by simp), State.hostWrite_of_open hopen, s.semOwner_eq, State.freeSem, semReg_eq, State.dropped, pgOf]

end Sys2Proof.Machine

namespace Sys2Proof
open Machine

/-- Settles O1: `step` hands its front command to `exec`, by definition. -/
theorem stepRunsFrontCommand : Obligations.StepRunsFrontCommand := by
  unfold Obligations.StepRunsFrontCommand
  refine ⟨fun c rest s => rfl, fun s hidle => ?_⟩
  rw [step, hidle]

/-- Settles O49: by who owns the semaphore that is read, and by whether the write is the release of its owner. -/
theorem semaphoreAcquireRelease : Obligations.SemaphoreAcquireRelease := by
  unfold Obligations.SemaphoreAcquireRelease
  intro s port i w
  refine ⟨execSemAcquire_free, execSemAcquire_other, execSemAcquire_own, fun hopen hzero hown => ?release, fun hopen hnot => ?drop⟩
  case release => exact (execSemRelease_open w hopen).trans (congrArg _ (if_pos ⟨hzero, hown⟩))
  case drop => exact (execSemRelease_open w hopen).trans (congrArg _ (if_neg hnot))

end Sys2Proof
end

section
/-! SUPPORT. The header of a page (R387..R392): what a whole write that is let through comes to at each of its registers. -/
namespace Sys2Proof.Machine

/-! ### Words -/

theorem accMask_wholeAcc (port : HostPort) : accMask (wholeAcc port) = 2 ^ 64 - 1 := rfl

/-- A write to every bit replaces a word. -/
theorem mergeBits_whole {old : Nat} (hold : old < 2 ^ 64) (w : W64) : mergeBits old w.toNat (2 ^ 64 - 1) = w.toNat := by
  have hmask : maskAnd old (2 ^ 64 - 1) = old := Nat.and_two_pow_sub_one_of_lt_two_pow hold
  rw [mergeBits, hmask, maskAnd_whole, Nat.sub_self, Nat.zero_add]

theorem bits_low (v n : Nat) : bits v n 0 = v % 2 ^ (n + 1) := by rw [bits, Nat.pow_zero, Nat.div_one, Nat.sub_zero]

/-- The only 1 bit of a power of two is its own. -/
theorem bitList_two_pow {n i : Nat} (h : i < n) : bitList n (2 ^ i) = [i] := by
  have hbit : bit (2 ^ i) = fun k => k == i := by
    funext k
    rw [bit_eq_testBit, Nat.testBit_two_pow]
    by_cases hk : i = k
    · simp [hk]
    · simp [hk, Ne.symm hk]
  rw [bitList, hbit, List.filter_beq, List.count_eq_one_of_mem List.nodup_range (List.mem_range.mpr h)]
  rfl

/-! ### Header registers -/

/-- A write to a header register that is let through acts at the page's base. -/
theorem State.hdrWrite_of_open {s : State} {acc : Acc} {n off : Nat} (hpage : inPage (n * 0x1000) = true) (hopen : s.Open acc (n * 0x1000 + off))
    (f : State → Nat → State) : s.hdrWrite acc n off f = f s (n * 0x1000) := by
  rw [State.hdrWrite, if_pos hpage, hdrReg, State.hostWrite_of_open hopen]

theorem eventCount_le (n : Nat) : eventCount n ≤ 13 := by
  unfold eventCount
  (repeat' split) <;> decide

section
variable {s : State} {port : HostPort} {n : Nat} {w : W64} (hpage : inPage (n * 0x1000) = true)
include hpage

/-- What a write to OWNER comes to, by the owner that stands there and the code written. -/
theorem execPgOwnerWrite_open (hopen : s.Open (wholeAcc port) (n * 0x1000 + 0x48)) {own new : Nat}
    (hown : s.reg (n * 0x1000 + 0x48) % 4 = own) (hnew : w.toNat % 4 = new) : execPgOwnerWrite (wholeAcc port) n w s =
    .next (if own = 0 ∧ new = port.code then s.setReg (n * 0x1000 + 0x48) new
      else if own = port.code ∧ new = 0 then s.setReg (n * 0x1000 + 0x48) 0
      else if own = port.code ∧ own = new then s
      else s.badAccess (wholeAcc port)) := by
  have hfld : s.fld (n * 0x1000 + 0x48) 1 0 = own := (bits_low _ 1).trans hown
  have hlt : own < 2 ^ 64 := by omega
  have hmerged : bits (mergeBits own w.toNat (2 ^ 64 - 1)) 1 0 = new := by rw [mergeBits_whole hlt, bits_low]; exact hnew
  rw [execPgOwnerWrite, State.hdrWrite_of_open hpage hopen, accMask_wholeAcc]
  dsimp only
  rw [hfld, hmerged]
  exact congrArg _ (if_neg (by decide))

theorem execEvtPendClear_open (hopen : s.Open (wholeAcc port) (n * 0x1000 + 0x28)) : execEvtPendClear (wholeAcc port) n w s =
    .next (((s.setReg (n * 0x1000 + 0x18) (s.reg (n * 0x1000 + 0x18) - Nat.land (s.reg (n * 0x1000 + 0x18)) (w.toNat % 2 ^ 32))).setReg
      (n * 0x1000 + 0x28) (s.reg (n * 0x1000 + 0x28) - Nat.land (s.reg (n * 0x1000 + 0x28)) (w.toNat % 2 ^ 32))).irqAfterWrite (n * 0x1000)) := by
  rw [execEvtPendClear, State.hdrWrite_of_open hpage hopen, accMask_wholeAcc, maskAnd_whole, bits_low]
  rfl

theorem execEvtEnableWrite_open (hopen : s.Open (wholeAcc port) (n * 0x1000 + 0x20)) : execEvtEnableWrite (wholeAcc port) n w s =
    .next ((s.storeReg (n * 0x1000 + 0x20) w.toNat (2 ^ 64 - 1)).irqAfterWrite (n * 0x1000)) := by
  rw [execEvtEnableWrite, State.hdrWrite_of_open hpage hopen, accMask_wholeAcc]

theorem execPgCtrlWrite_open (hopen : s.Open (wholeAcc port) (n * 0x1000 + 0x08)) : execPgCtrlWrite (wholeAcc port) n w s =
    .next ((s.storeReg (n * 0x1000 + 0x08) w.toNat (2 ^ 64 - 1)).irqAfterWrite (n * 0x1000)) := by
  rw [execPgCtrlWrite, State.hdrWrite_of_open hpage hopen, accMask_wholeAcc]

theorem execEvtSet_one {i : Nat} (hopen : s.Open (wholeAcc port) (n * 0x1000 + 0x30)) (hi : i < eventCount n) :
    execEvtSet (wholeAcc port) n (BitVec.ofNat 64 (2 ^ i)) s = .next (s.event (n * 0x1000) i) := by
  have hword : (BitVec.ofNat 64 (2 ^ i)).toNat = 2 ^ i := by
    rw [BitVec.toNat_ofNat]
    exact Nat.mod_eq_of_lt (Nat.pow_lt_pow_right (by decide) (by have := eventCount_le n; omega))
  rw [execEvtSet, State.hdrWrite_of_open hpage hopen, accMask_wholeAcc, maskAnd_whole, hword, bitList_two_pow hi]
  rfl

theorem execClr_open (hopen : s.Open (wholeAcc port) (n * 0x1000 + 0x38)) : execClr (wholeAcc port) n w s =
    .next (if w.toNat.testBit 63 then (s.setReg (n * 0x1000 + 0x38) 0).setReg (n * 0x1000 + 0x40) 0 else s) := by
  rw [execClr, State.hdrWrite_of_open hpage hopen, accMask_wholeAcc, maskAnd_whole, bit_eq_testBit]

end

end Sys2Proof.Machine

namespace Sys2Proof
open Machine

/-- Settles O51: a whole write acts at its register as the table of the header says, and OWNER by who owns the page and the code written. -/
theorem pageHeaderWrites : Obligations.PageHeaderWrites := by
  unfold Obligations.PageHeaderWrites
  intro s port n w hpage
  have hport := portCode_ne_zero port
  refine ⟨fun hopen hown hw => ?take, fun hopen hown hw => ?free, fun hopen hown hw => ?again, fun hopen hown hw => ?other,
    execEvtPendClear_open hpage, execEvtEnableWrite_open hpage, execPgCtrlWrite_open hpage, fun i hopen hi hw => ?event,
    fun hopen hbit => ?clears, fun hopen hbit => ?keeps⟩
  case take => exact (execPgOwnerWrite_open hpage hopen hown hw).trans (congrArg _ (if_pos ⟨rfl, rfl⟩))
  case free =>
    refine (execPgOwnerWrite_open hpage hopen hown hw).trans (congrArg _ ?_)
    rw [if_neg fun h => hport h.1, if_pos ⟨rfl, rfl⟩]
  case again =>
    refine (execPgOwnerWrite_open hpage hopen hown (hw.trans hown)).trans (congrArg _ ?_)
    rw [if_neg fun h => hport h.1, if_neg fun h => hport h.2, if_pos ⟨rfl, rfl⟩]
  case other =>
    refine (execPgOwnerWrite_open hpage hopen hown rfl).trans (congrArg _ ?_)
    rw [if_neg fun h => hw h.2, if_neg fun h => hport h.1.symm, if_neg fun h => hport h.1.symm]
  case event =>
    subst hw
    exact execEvtSet_one hpage hopen hi
  case clears => exact (execClr_open hpage hopen).trans (congrArg _ (if_pos hbit))
  case keeps => exact (execClr_open hpage hopen).trans (congrArg _ (if_neg (by rw [hbit]; decide)))

end Sys2Proof
end

section
/-! SUPPORT. The registers of a ring (R367, R371, R372): what a write that is let through comes to. -/
namespace Sys2Proof.Machine

section
variable {s : State} {acc : Acc} {j : JobId} {w : W64}

theorem execRingTailWrite_open (hopen : s.Open acc (pgDoor j.val)) : execRingTailWrite acc j w s =
    .next (if (s.storeReg (pgDoor j.val) w.toNat (accMask acc)).fld (pgDoor j.val) 15 0 < s.ringSize j.val then
      s.storeReg (pgDoor j.val) w.toNat (accMask acc) else s) := by
  rw [execRingTailWrite, State.hostWrite_of_open hopen]

theorem execRingCfgWrite_open (hopen : s.Open acc (pgDoor j.val + 0x10)) :
    execRingCfgWrite acc j w s = .next (s.writeRingCfg j.val w.toNat (accMask acc)) := by
  rw [execRingCfgWrite, State.hostWrite_of_open hopen]

/-- What a write to RING_CTRL that is let through does. -/
def State.ringCtrlled (s : State) (j w : Nat) : State :=
  if s.fld (ringSt j) 63 62 ≠ 3 ∨ !(acts w 0 || acts w 1) then s
  else
    ((if acts w 1 ∧ s.ringHead j ≠ s.fld (pgDoor j) 15 0 then s.setFld (ringSt j) 15 0 ((s.ringHead j + 1) % s.ringSize j) else s).setFld
      (ringSt j) 63 62 1).advanceRing j

theorem State.ringCtrl_open (hopen : s.Open acc (pgDoor j.val + 0x20)) : s.ringCtrl acc j.val w.toNat = s.ringCtrlled j.val w.toNat :=
  State.hostWrite_of_open hopen _

end

/-! ### RING_CFG -/

section
variable {s t : State} {j w m : Nat} (ht : s.storeReg (pgDoor j + 0x10) w m = t)
include ht

theorem State.writeRingCfg_kept (hon : s.ringOn j = true) (hstays : t.ringOn j = true) : s.writeRingCfg j w m = s := by
  subst ht
  rw [State.writeRingCfg, if_pos hon, if_pos hstays]

variable (hoff : s.ringOn j = false)
include hoff

theorem State.writeRingCfg_enables {p : Nat} (hset : t.ringOn j = true) (hpart : t.partOfJob j = some p)
    (hrange : rangeOk (t.ringBase j) (128 * t.ringSize j) = true) (hgranted : t.granted p (adChan (t.ringBase j)) = true) :
    s.writeRingCfg j w m = (t.setFlag (ringSt j) 61 false).refreshRing j := by
  subst ht
  simp [State.writeRingCfg, hoff, hset, hpart, hrange, hgranted]

theorem State.writeRingCfg_refused (hset : t.ringOn j = true) (hpart : t.partOfJob j = none) :
    s.writeRingCfg j w m = (t.setFlag (pgDoor j + 0x10) 63 false).setFlag (ringSt j) 61 true := by
  subst ht
  simp [State.writeRingCfg, hoff, hset, hpart]

theorem State.writeRingCfg_disabled (hclear : t.ringOn j = false) (hreaches : bit m 63 = true) :
    s.writeRingCfg j w m = t.setFlag (ringSt j) 61 false := by
  subst ht
  simp [State.writeRingCfg, hoff, hclear, hreaches]

end

/-! ### RING_CTRL -/

section
variable {s : State} {j w : Nat}

theorem State.ringCtrlled_running (hruns : s.fld (ringSt j) 63 62 ≠ 3) : s.ringCtrlled j w = s := if_pos (.inl hruns)

variable (hhalted : s.fld (ringSt j) 63 62 = 3)
include hhalted

theorem State.ringCtrlled_go (hgo : acts w 0 = true) (hskip : acts w 1 = false) :
    s.ringCtrlled j w = (s.setFld (ringSt j) 63 62 1).advanceRing j := by
  simp [State.ringCtrlled, hhalted, hgo, hskip]

theorem State.ringCtrlled_skip (hskip : acts w 1 = true) (hbehind : s.ringHead j ≠ s.fld (pgDoor j) 15 0) : s.ringCtrlled j w =
    ((s.setFld (ringSt j) 15 0 ((s.ringHead j + 1) % s.ringSize j)).setFld (ringSt j) 63 62 1).advanceRing j := by
  simp [State.ringCtrlled, hhalted, hskip, hbehind]

end

end Sys2Proof.Machine

namespace Sys2Proof
open Machine

/-- Settles O47: the doorbell by its value, RING_CFG by EN before and after the write, RING_CTRL by STATE and the bits that act. -/
theorem ringRegisters : Obligations.RingRegisters := by
  unfold Obligations.RingRegisters
  intro s acc j w
  refine ⟨fun hopen => ⟨fun hin => ?stored, fun hout => ?ignored⟩, fun hopen => ?cfg, fun hopen => ?ctrl⟩
  case stored => exact (execRingTailWrite_open hopen).trans (congrArg _ (if_pos hin))
  case ignored => exact (execRingTailWrite_open hopen).trans (congrArg _ (if_neg (Nat.not_lt.mpr hout)))
  case cfg =>
    have hwrite {t : State} (ht : s.writeRingCfg j.val w.toNat (accMask acc) = t) : exec (.ringCfgWrite acc j w) s = .next t :=
      (execRingCfgWrite_open hopen).trans (congrArg _ ht)
    exact ⟨fun p hoff hset hpart hrange hgranted => hwrite (State.writeRingCfg_enables rfl hoff hset hpart hrange hgranted),
      fun hoff hset hpart => hwrite (State.writeRingCfg_refused rfl hoff hset hpart),
      fun hoff hclear hreaches => hwrite (State.writeRingCfg_disabled rfl hoff hclear hreaches),
      fun hon hstays => hwrite (State.writeRingCfg_kept rfl hon hstays)⟩
  case ctrl =>
    have hgo {t : State} (ht : s.ringCtrlled j.val w.toNat = t) : exec (.go acc j w) s = .next t :=
      congrArg Host.Outcome.next ((State.ringCtrl_open hopen).trans ht)
    have hskip {t : State} (ht : s.ringCtrlled j.val w.toNat = t) : exec (.skip acc j w) s = .next t :=
      congrArg Host.Outcome.next ((State.ringCtrl_open hopen).trans ht)
    exact ⟨fun hhalted hg hs => hgo (State.ringCtrlled_go hhalted hg hs),
      fun hhalted hs hbehind => hskip (State.ringCtrlled_skip hhalted hs hbehind),
      fun hruns => ⟨hgo (State.ringCtrlled_running hruns), hskip (State.ringCtrlled_running hruns)⟩⟩

end Sys2Proof
end

section
/-! SUPPORT. The settings of a partition and of a job (R353..R356): what a write that is let through comes to. -/
namespace Sys2Proof.Machine

/-! ### A bit that a write does not reach -/

/-- A write by a mask, as words. -/
theorem toW_mergeBits (old w m : W64) : toW (mergeBits old.toNat w.toNat m.toNat) = (old &&& ~~~m) + (w &&& m) := by
  have hkept : toW (old.toNat - maskAnd old.toNat m.toNat) = old &&& ~~~m := by
    have h := BitVec.eq_of_toNat_eq (toNat_toW_clear old.isLt m.isLt)
    rwa [toW_toNat, toW_toNat] at h
  rw [← hkept, ← toW_land]
  exact BitVec.ofNat_add _ _

theorem bit_toW {v i : Nat} (hi : i < 64) : bit v i = (toW v).getLsbD i := by
  rw [bit_eq_testBit, toW, BitVec.getLsbD_ofNat, decide_eq_true hi, Bool.true_and]

theorem bit_mod_two_pow_64 (v : Nat) {i : Nat} (hi : i < 64) : bit (v % 2 ^ 64) i = bit v i := by
  rw [bit_eq_testBit, bit_eq_testBit, Nat.testBit_mod_two_pow, decide_eq_true hi, Bool.true_and]

theorem bit_maskAnd (v m i : Nat) : bit (maskAnd v m) i = (bit v i && bit m i) := by
  rw [bit_eq_testBit, bit_eq_testBit, bit_eq_testBit, ← Nat.testBit_and]
  rfl

theorem bit_mergeBits_unmasked {old m : Nat} (hold : old < 2 ^ 64) (w : W64) (hm : m < 2 ^ 64) {i : Nat} (hi : i < 64)
    (h : bit m i = false) : bit (mergeBits old w.toNat m) i = bit old i := by
  obtain ⟨old, rfl⟩ : ∃ a : W64, old = a.toNat := ⟨⟨⟨old, hold⟩⟩, rfl⟩
  obtain ⟨m, rfl⟩ : ∃ a : W64, m = a.toNat := ⟨⟨⟨m, hm⟩⟩, rfl⟩
  have hdisjoint : (old &&& ~~~m) &&& (w &&& m) = 0#64 := by
    ext k hk
    simp only [BitVec.getElem_and, BitVec.getElem_not, BitVec.getElem_zero]
    cases old[k] <;> cases m[k] <;> simp
  have hkeeps : m.getLsbD i = false := by rw [← toW_toNat m, ← bit_toW hi, h]
  rw [bit_toW hi, bit_toW hi, toW_mergeBits, BitVec.add_eq_or_of_and_eq_zero _ _ hdisjoint, toW_toNat, BitVec.getLsbD_or, BitVec.getLsbD_and,
    BitVec.getLsbD_and, BitVec.getLsbD_not, hkeeps]
  simp [hi]

/-- PT_JOB_CFG of a job (Table 15.3). -/
theorem regRow_jobCfg {p j : Nat} (hp : p < 8) (hj : j < 16) : regRow (jobCfg p j) =
    some { off := 0x200, count := 16, stride := 0x10, rw := 0xF000_0000_FFFF_FFFF, reset := 1000, own := true } := by
  have hrow : ∀ j : Fin 16, rowsPart.find? (·.covers (0x200 + 0x10 * j.val)) =
      some { off := 0x200, count := 16, stride := 0x10, rw := 0xF000_0000_FFFF_FFFF, reset := 1000, own := true } := by decide
  rw [jobCfg, Nat.add_assoc, regRow_pgPart hp (by omega) (by omega)]
  exact hrow ⟨j, hj⟩

/-- PT_JOB_CFG has no bound on what it stores. -/
theorem clampReg_jobCfg {p j : Nat} (hp : p < 8) (hj : j < 16) (old v : Nat) : clampReg (jobCfg p j) old v = v := by
  have hpage : jobCfg p j / 0x1000 = 0x20 + p := by unfold jobCfg pgPart; omega
  have hoff : jobCfg p j % 0x1000 = 0x200 + 0x10 * j := by unfold jobCfg pgPart; omega
  have hlow : jobCfg p j < 0x200_0000 := by unfold jobCfg pgPart; omega
  have hwin : windowKind (jobCfg p j) = 0 := by
    unfold windowKind jobCfg pgPart
    repeat rw [if_neg (by omega)]
  have htype : pageType (0x20 + p) = 0x06 := by
    unfold pageType
    repeat rw [if_neg (by omega)]
    rw [if_pos (by omega)]
  simp only [clampReg, hlow, hwin, hpage, htype, hoff, and_self, if_true]
  repeat rw [if_neg (by omega)]

/-- A write to PT_JOB_CFG that does not reach EN leaves it. -/
theorem State.storeReg_jobCfg_en (s : State) {p j : Nat} (hp : p < 8) (hj : j < 16) (w : W64) {m : Nat} (hm : m < 2 ^ 64)
    (h : bit m 63 = false) : (s.storeReg (jobCfg p j) w.toNat m).flag (jobCfg p j) 63 = s.flag (jobCfg p j) 63 := by
  have hreach : maskAnd 0xF000_0000_FFFF_FFFF m < 2 ^ 64 := Nat.lt_of_le_of_lt Nat.and_le_right hm
  have hbit : bit (maskAnd 0xF000_0000_FFFF_FFFF m) 63 = false := by rw [bit_maskAnd, h, Bool.and_false]
  rw [s.storeReg_of_plain _ _ (regRow_jobCfg hp hj) rfl, clampReg_jobCfg hp hj, State.flag, State.flag, State.reg_setReg_self,
    bit_mod_two_pow_64 _ (by decide)]
  exact bit_mergeBits_unmasked (s.reg_lt _) w hreach (by decide) hbit

/-! ### PT_CFG, PT_YARDS, PT_CHAN, PT_SAVE -/

theorem foldl_add_map_eq_zero {l : List Nat} {f : Nat → Nat} (h : ∀ b, f b = 0) : (l.map f).foldl (· + ·) 0 = 0 := by
  rw [funext h, ← List.sum_eq_foldl]
  simp

section
variable {s : State} {p : Nat}

theorem State.takeSetting_refused {t : State} (hon : t.partOn p = true) (hclash : t.clashes p = true) :
    s.takeSetting p t = s.setFlag (pgPart p + 0x100) 62 true := by
  rw [State.takeSetting, hon, hclash]
  rfl

theorem State.takeSetting_taken {t : State} (h : ¬(t.partOn p = true ∧ t.clashes p = true)) :
    s.takeSetting p t = t.setFlag (pgPart p + 0x100) 62 false :=
  if_neg (by rwa [Bool.and_eq_true])

/-- With no image and no enabled job left behind, PT_CFG is taken or refused as it is written. -/
theorem State.writePtCfg_candidate {w m : Nat} (hnone : s.loadedIn p = false)
    (hjobs : ¬(s.partOn p = true ∧ (s.storeReg (pgPart p + 0x100) w m).partOn p = false ∧ s.jobsOf p ≠ [])) :
    s.writePtCfg p w m = s.takeSetting p (s.storeReg (pgPart p + 0x100) w m) := by
  unfold State.writePtCfg
  simp only [hnone, Bool.false_eq_true, if_false]
  rw [if_neg]
  simpa [and_assoc] using hjobs

/-- With no Yard in any partition, no bit of PT_CHAN is a home bit and no claim is of another's. -/
theorem State.writePtChan_unowned {i w m : Nat} (hnone : s.loadedIn p = false) (hp : p < 8) (hoff : s.partOn p = false)
    (hyards : ∀ q, q < 8 → s.reg (pgPart q + 0x108) = 0) :
    s.writePtChan p i w m = (s.storeReg (pgPart p + 0x300 + 8 * i) w m).setFlag (pgPart p + 0x100) 62 false := by
  have hflag {q y : Nat} (hq : q < 8) : s.flag (pgPart q + 0x108) y = false := by
    rw [State.flag, hyards q hq, bit_eq_testBit, Nat.zero_testBit]
  have hreads : (s.storeReg (pgPart p + 0x300 + 8 * i) w m).partOn p = false := by
    rw [State.partOn, State.flag, State.reg_storeReg_ne _ _ _ (by omega)]
    exact hoff
  have hhome (b : Nat) : fieldAt b (b2n false) = 0 := Nat.zero_mul _
  have hmask : m - maskAnd m 0 = m := by rw [maskAnd, show Nat.land m 0 = 0 from Nat.and_zero m, Nat.sub_zero]
  unfold State.writePtChan
  rw [foldl_add_map_eq_zero fun b => ?home]
  case home =>
    rcases homeYard (64 * i + b) with _ | y
    · exact hhome b
    · exact (congrArg (fun v => fieldAt b (b2n v)) (hflag hp)).trans (hhome b)
  dsimp only
  rw [hmask, hnone, if_neg (by decide), if_neg, State.takeSetting_taken fun h => by rw [hreads] at h; exact Bool.noConfusion h.1]
  intro hforeign
  obtain ⟨b, -, hclaim⟩ := List.any_eq_true.mp hforeign
  generalize homeYard (64 * i + b) = home at hclaim
  rcases home with _ | y
  · simp at hclaim
  · simp only [Bool.and_eq_true, List.any_eq_true, List.mem_range] at hclaim
    obtain ⟨-, q, hq, -, hyard⟩ := hclaim
    rw [hflag hq] at hyard
    exact Bool.noConfusion hyard

end

section
variable {s : State} {acc : Acc} {p : Part} {w : W64}

theorem execPtCfgWrite_cfg_open (hopen : s.Open acc (pgPart p.val + 0x100)) :
    execPtCfgWrite acc p .cfg w s = .next (s.writePtCfg p.val w.toNat (accMask acc)) := by
  rw [execPtCfgWrite, State.hostWrite_of_open hopen]

theorem execPtCfgWrite_yards_open (hopen : s.Open acc (pgPart p.val + 0x108)) : execPtCfgWrite acc p .yards w s =
    .next (if s.loadedIn p.val then s else s.takeSetting p.val (s.storeReg (pgPart p.val + 0x108) w.toNat (accMask acc))) :=
  congrArg Host.Outcome.next (State.hostWrite_of_open hopen _)

theorem execPtCfgWrite_chan_open {i : Fin 16} (hopen : s.Open acc (pgPart p.val + 0x300 + 8 * i.val)) :
    execPtCfgWrite acc p (.chan i) w s = .next (s.writePtChan p.val i.val w.toNat (accMask acc)) := by
  rw [execPtCfgWrite, State.hostWrite_of_open hopen]

theorem execPtSaveWrite_open (hopen : s.Open acc (pgPart p.val + 0x110)) : execPtSaveWrite acc p w s =
    .next (if (s.storeReg (pgPart p.val + 0x110) w.toNat (accMask acc)).saveOk p.val then
      (s.storeReg (pgPart p.val + 0x110) w.toNat (accMask acc)).setFlag (pgPart p.val + 0x100) 62 false
      else s.setFlag (pgPart p.val + 0x100) 62 true) := by
  rw [execPtSaveWrite, State.hostWrite_of_open hopen]
  rfl

theorem execJobCfgWrite_open {j : JobId} (hopen : s.Open acc (jobCfg p.val j.val)) :
    execJobCfgWrite acc p j w s = .next (s.writeJobCfg p.val j.val w.toNat (accMask acc)) := by
  rw [execJobCfgWrite, State.hostWrite_of_open hopen]

end

/-! ### PT_JOB_CFG -/

section
variable {s t : State} {p j m : Nat} {w : W64} (ht : s.storeReg (jobCfg p j) w.toNat m = t)
include ht

theorem State.writeJobCfg_unreached (hsame : s.flag (jobCfg p j) 63 = t.flag (jobCfg p j) 63) (hm : bit m 63 = false) :
    s.writeJobCfg p j w.toNat m = t := by
  subst ht
  unfold State.writeJobCfg
  dsimp only
  rw [hsame, hm]
  cases (s.storeReg (jobCfg p j) w.toNat m).flag (jobCfg p j) 63 <;> rfl

theorem State.writeJobCfg_elsewhere {q : Nat} (hwas : s.flag (jobCfg p j) 63 = false) (hnow : t.flag (jobCfg p j) 63 = true)
    (hq : s.jobElsewhere p j = some q) : s.writeJobCfg p j w.toNat m =
      ((s.setFlag (jobCfg p j) 59 true).setFlag (pgPart p + 0x100) 62 true).partFault p 0x0804 (fieldAt 56 j + q) := by
  have hlt : q < 8 := List.mem_range.mp (List.mem_of_find?_eq_some (p := fun q => decide (q ≠ p) && s.flag (jobCfg q j) 63) hq)
  have hinfo : jobInfo j 0 0 q = fieldAt 56 j + q := by
    have hnone (b : Nat) : fieldAt b 0 = 0 := Nat.zero_mul _
    rw [jobInfo, hnone, hnone, Nat.add_zero, Nat.mod_eq_of_lt (by omega)]
  subst ht
  unfold State.writeJobCfg
  dsimp only
  rw [hwas, hnow, hq, Option.getD_some, hinfo]
  exact if_pos rfl

/-- The write that changes EN reaches it. -/
theorem bit_of_changed (hp : p < 8) (hj : j < 16) (hm : m < 2 ^ 64) (h : t.flag (jobCfg p j) 63 ≠ s.flag (jobCfg p j) 63) : bit m 63 = true := by
  subst ht
  exact Bool.of_not_eq_false fun hunreached => h (s.storeReg_jobCfg_en hp hj w hm hunreached)

variable (hm : bit m 63 = true)
include hm

theorem State.writeJobCfg_enables (hwas : s.flag (jobCfg p j) 63 = false) (hnow : t.flag (jobCfg p j) 63 = true)
    (hnowhere : s.jobElsewhere p j = none) (hon : s.partOn p = true) : s.writeJobCfg p j w.toNat m =
      ((t.setFlag (jobCfg p j) 59 false).setFlag (pgPart p + 0x100) 62 false).setFld (jobSt p j) 63 62 1 := by
  subst ht
  unfold State.writeJobCfg
  dsimp only
  rw [hwas, hnow, hnowhere, hon, hm]
  rfl

theorem State.writeJobCfg_disables (hwas : s.flag (jobCfg p j) 63 = true) (hnow : t.flag (jobCfg p j) 63 = false)
    (himages : ∀ i ∈ s.images, ¬(i.part = p ∧ i.job = j)) (hring : s.ringOn j = false) : s.writeJobCfg p j w.toNat m =
      ((t.setFlag (jobCfg p j) 59 false).setFlag (pgPart p + 0x100) 62 false).setFld (jobSt p j) 63 62 0 := by
  have hloaded : (s.images.any fun i => i.part == p && i.job == j) = false := by
    simpa using fun i hi hpart => by simpa [hpart] using himages i hi
  subst ht
  unfold State.writeJobCfg
  dsimp only
  rw [hwas, hnow, hm, hloaded, hring]
  rfl

end

theorem accMask_lt (acc : Acc) : accMask acc < 2 ^ 64 := by
  unfold accMask
  split
  · decide
  · split <;> decide

end Sys2Proof.Machine

namespace Sys2Proof
open Machine

/-- Settles O45: a candidate setting is taken or refused by whether it clashes; EN of a job by whether another partition runs it. -/
theorem partitionSettings : Obligations.PartitionSettings := by
  unfold Obligations.PartitionSettings
  intro s acc p w
  refine ⟨fun hopen hnone hjobs => ?cfg, fun hopen hnone => ?yards, fun hopen hloaded => ?yardsKept, fun i hopen hloaded => ?chanKept,
    fun i hopen hnone hoff hyards => ?chan, fun hopen => ?save, fun j hopen => ?job⟩
  case cfg =>
    have hwrite := (execPtCfgWrite_cfg_open (w := w) hopen).trans (congrArg _ (State.writePtCfg_candidate hnone hjobs))
    exact ⟨fun ⟨hon, hclash⟩ => hwrite.trans (congrArg _ (State.takeSetting_refused hon hclash)),
      fun h => hwrite.trans (congrArg _ (State.takeSetting_taken h))⟩
  case yards =>
    have hwrite := (execPtCfgWrite_yards_open (w := w) hopen).trans (congrArg _ (if_neg (by rw [hnone]; decide)))
    exact ⟨fun ⟨hon, hclash⟩ => hwrite.trans (congrArg _ (State.takeSetting_refused hon hclash)),
      fun h => hwrite.trans (congrArg _ (State.takeSetting_taken h))⟩
  case yardsKept => exact (execPtCfgWrite_yards_open hopen).trans (congrArg _ (if_pos hloaded))
  case chanKept => exact (execPtCfgWrite_chan_open hopen).trans (congrArg _ (if_pos hloaded))
  case chan => exact (execPtCfgWrite_chan_open hopen).trans (congrArg _ (State.writePtChan_unowned hnone p.isLt hoff hyards))
  case save =>
    have hwrite := execPtSaveWrite_open (w := w) hopen
    exact ⟨fun hok => hwrite.trans (congrArg _ (if_pos hok)), fun hbad => hwrite.trans (congrArg _ (if_neg (by rw [hbad]; decide)))⟩
  case job =>
    have hwrite {t : State} (ht : s.writeJobCfg p.val j.val w.toNat (accMask acc) = t) : exec (.jobCfgWrite acc p j w) s = .next t :=
      (execJobCfgWrite_open hopen).trans (congrArg _ ht)
    have hreach {v v' : Bool} (hwas : s.flag (jobCfg p.val j.val) 63 = v)
        (hnow : (s.storeReg (jobCfg p.val j.val) w.toNat (accMask acc)).flag (jobCfg p.val j.val) 63 = v') (hne : v' ≠ v) :
        bit (accMask acc) 63 = true := bit_of_changed rfl p.isLt j.isLt (accMask_lt acc) (by rwa [hwas, hnow])
    exact ⟨fun hwas hnow hnowhere hon => hwrite (State.writeJobCfg_enables rfl (hreach hwas hnow (by decide)) hwas hnow hnowhere hon),
      fun q hwas hnow hq => hwrite (State.writeJobCfg_elsewhere rfl hwas hnow hq),
      fun hwas hnow himages hring => hwrite (State.writeJobCfg_disables rfl (hreach hwas hnow (by decide)) hwas hnow himages hring),
      fun hsame hm => hwrite (State.writeJobCfg_unreached rfl hsame hm)⟩

end Sys2Proof
end

section
/-! SUPPORT. Registers with no row of their own, counters and ties (R384, R396, R443). -/
namespace Sys2Proof.Machine

section
variable {s : State} {acc : Acc} {a : Nat} {w : W64} {r : RegRow}

/-! ### Where a register's write goes -/

theorem hostReg_of_low (p : HostPort) (h : a < 0x201_0000) : hostReg p a = some a := if_pos h

/-- A register write outside the log and tag-store windows. -/
theorem execRegisterWrite_of_low (hlow : a < 0x201_0000) (h4 : windowKind a ≠ 4) (h5 : windowKind a ≠ 5) : execRegisterWrite acc a w s =
    .next (s.hostWrite acc a fun t =>
      if ((regRow a).map (·.own)).getD false then t else t.plainWrite acc.port a w.toNat (accMask acc)) := by
  rw [execRegisterWrite, hostReg_of_low _ hlow]
  exact if_neg (by simp [h4, h5])

theorem execRegisterWrite_window (hlow : a < 0x201_0000) (h : windowKind a = 4 ∨ windowKind a = 5) : execRegisterWrite acc a w s = .next s := by
  rw [execRegisterWrite, hostReg_of_low _ hlow]
  exact if_pos h

theorem execRegisterWrite_plain (hlow : a < 0x201_0000) (h4 : windowKind a ≠ 4) (h5 : windowKind a ≠ 5) (hrow : regRow a = some r)
    (hown : r.own = false) (hopen : s.Open acc a) : execRegisterWrite acc a w s = .next (s.plainWrite acc.port a w.toNat (accMask acc)) := by
  rw [execRegisterWrite_of_low hlow h4 h5, State.hostWrite_of_open hopen, hrow]
  exact congrArg _ (if_neg (by simp [hown]))

/-- The counter of another job's is in the partition pages. -/
theorem execCounterSatClear_counter (hrow : regRow a = some r) (hkind : r.kind = .counter) (hlow : a < 0x202_0000)
    (hpage : a < 0x2_0000 ∨ 0x2_8000 ≤ a) (hopen : s.Open acc a) : execCounterSatClear acc a w s =
      .next (if bit (maskAnd w.toNat (accMask acc)) 63 then s.setReg a 0 else s) := by
  have hown : execCounterSatClear.foreignCounter s a = false := by
    rw [execCounterSatClear.foreignCounter, decide_eq_false (by omega), Bool.false_and]
  have hstore : s.storeReg a w.toNat (accMask acc) = if bit (maskAnd w.toNat (accMask acc)) 63 then s.setReg a 0 else s := by
    rw [State.storeReg, hrow]
    dsimp only
    rw [hkind]
  rw [execCounterSatClear, hrow]
  dsimp only
  rw [if_pos ⟨hkind, hlow⟩, State.hostWrite_of_open hopen, hown, if_neg (by decide), hstore]

/-- A write before READY to a page that takes none. -/
theorem State.hostWrite_of_drop (hgate : s.gate acc a = .drop) (hosc : s.oscOut.contains 0 = false) (htie : acc.tie = false)
    (f : State → State) : s.hostWrite acc a f = s.bump (pgHost acc.port.isB + 0x138) 1 := by
  rw [State.hostWrite, State.inTurn_alone hosc htie, hgate]
  rfl

/-! ### Plain registers of the power, arbiter, monitor, HBM, slice and Yard pages -/

theorem windowKind_lt_of_page (hpage : 0x1_0000 ≤ a ∧ a < 0x200_0000) : windowKind a < 6 ∨ windowKind a = 0 := by
  unfold windowKind
  split_ifs <;> omega

/-- The register of such a page has a rule of its own at WC_LEASES alone. -/
theorem State.plainWrite_of_page {m : Nat} {p : HostPort} (hpage : (0x1_0000 ≤ a ∧ a < 0x2_0000) ∨ (0x3_0000 ≤ a ∧ a < 0x200_0000)) :
    s.plainWrite p a w.toNat m = if a % 0x1000 = 0x210 then
      (List.range 64).foldl (fun (u : State) y => if pgCore y + 0x210 = a then u.peakAt y else u) (s.storeReg a w.toNat m)
      else s.storeReg a w.toNat m := by
  have hkind : windowKind a < 6 ∨ windowKind a = 0 := windowKind_lt_of_page (by omega)
  unfold State.plainWrite
  dsimp only
  rw [if_neg (by omega), if_neg (by omega), if_neg (by omega), if_neg (by omega), if_neg (by omega)]

/-- PEAK follows IN_USE in the Yard whose WC_LEASES the register is. -/
theorem foldl_peakAt (a : Nat) (t : State) : (List.range 64).foldl (fun (u : State) y => if pgCore y + 0x210 = a then u.peakAt y else u) t =
    ((List.range 64).filter fun y => decide (pgCore y + 0x210 = a)).foldl State.peakAt t := by
  rw [List.foldl_filter]
  simp only [decide_eq_true_eq]

theorem State.plainWrite_of_other {m : Nat} {p : HostPort} (hpage : (0x1_0000 ≤ a ∧ a < 0x2_0000) ∨ (0x3_0000 ≤ a ∧ a < 0x200_0000))
    (hnot : ∀ y, y < 64 → a ≠ pgCore y + 0x210) : s.plainWrite p a w.toNat m = s.storeReg a w.toNat m := by
  have hnone : (List.range 64).filter (fun y => decide (pgCore y + 0x210 = a)) = [] := by
    rw [List.filter_eq_nil_iff]
    intro y hy h
    exact hnot y (List.mem_range.mp hy) (of_decide_eq_true h).symm
  rw [State.plainWrite_of_page hpage, foldl_peakAt, hnone, List.foldl_nil, ite_self]

theorem State.plainWrite_wcLeases {y m : Nat} {p : HostPort} (hpage : (0x1_0000 ≤ a ∧ a < 0x2_0000) ∨ (0x3_0000 ≤ a ∧ a < 0x200_0000))
    (hy : y < 64) (ha : a = pgCore y + 0x210) : s.plainWrite p a w.toNat m = (s.storeReg a w.toNat m).peakAt y := by
  have hsame (z : Nat) : decide (pgCore z + 0x210 = a) = (z == y) := by
    rw [Bool.eq_iff_iff, decide_eq_true_eq, beq_iff_eq, ha]
    unfold pgCore pgYard
    omega
  have hone : (List.range 64).filter (fun z => decide (pgCore z + 0x210 = a)) = [y] := by
    rw [funext hsame, List.filter_beq, List.count_eq_one_of_mem List.nodup_range (List.mem_range.mpr hy)]
    rfl
  have hoff : a % 0x1000 = 0x210 := by rw [ha, pgCore, pgYard]; omega
  rw [State.plainWrite_of_page hpage, if_pos hoff, foldl_peakAt, hone, List.foldl_cons, List.foldl_nil]

/-- PERM_CFG while a permute is BUSY. -/
theorem execRegisterWrite_permCfg_busy (hopen : s.Open acc 0x940) (hbusy : s.flag 0x958 63 = true) : execRegisterWrite acc 0x940 w s = .next s := by
  have hkept : s.plainWrite acc.port 0x940 w.toNat (accMask acc) = s := by
    unfold State.plainWrite
    dsimp only
    rw [if_neg (by decide), if_pos (by decide), if_pos hbusy]
  rw [execRegisterWrite_of_low (by decide) (by decide) (by decide), State.hostWrite_of_open hopen, hkept, ite_self]

/-! ### Ties (R396) -/

section
variable (htie : acc.tie = true)
include htie

theorem State.contains_tieSettled : (s.tieSettled acc a).tieB.contains (a / 0x1000) = !acc.port.isB := by
  rw [State.tieSettled, if_pos htie]
  cases acc.port.isB <;> simp

theorem State.inTurn_turn (hturn : s.oscOut.contains 0 = false ∧ s.tieB.contains (a / 0x1000) = acc.port.isB) (f : State → State) :
    s.inTurn acc a f = (s.tieSettled acc a).inTurn { acc with tie := false } a f := by
  have hserved : s.served_ acc a = true := by
    rw [State.served_, hturn.1, htie, hturn.2]
    simp
  have hosc : (s.tieSettled acc a).oscOut.contains 0 = false := by
    rw [State.tieSettled, if_pos htie]
    exact hturn.1
  rw [State.inTurn, if_pos hserved, State.inTurn_alone hosc rfl]

theorem State.inTurn_waits (hturn : ¬(s.oscOut.contains 0 = false ∧ s.tieB.contains (a / 0x1000) = acc.port.isB)) (f : State → State) :
    s.inTurn acc a f = s := by
  rw [State.inTurn, if_neg]
  intro hserved
  rw [State.served_, htie] at hserved
  exact hturn (by simpa using hserved)

end

end

end Sys2Proof.Machine

namespace Sys2Proof
open Machine

/-- Settles O52: plain registers by the rule of the page, counters by SAT, and a tie by whose turn it is. -/
theorem plainRegisterWrites : Obligations.PlainRegisterWrites := by
  unfold Obligations.PlainRegisterWrites
  refine ⟨fun s acc a w r hrow => ⟨fun hopen hown hpage h4 h5 => ?plain, fun hopen hkind hpage => ?counter,
    fun hgate hosc htie hown hlow h4 h5 => ?dropped, fun hopen hbusy => execRegisterWrite_permCfg_busy hopen hbusy⟩,
    fun s acc w htie => ⟨fun a hlow => ⟨fun hturn h4 h5 => ⟨State.contains_tieSettled htie, ?tied⟩, fun hturn => ?waits⟩,
      fun i => ⟨fun hturn => ?acquires, fun hturn => ?acquireWaits⟩⟩⟩
  case plain =>
    have hwrite := execRegisterWrite_plain (w := w) (by omega) h4 h5 hrow hown hopen
    exact ⟨fun hnot => hwrite.trans (congrArg _ (State.plainWrite_of_other hpage hnot)),
      fun y hy ha => hwrite.trans (congrArg _ (State.plainWrite_wcLeases hpage hy ha))⟩
  case counter =>
    have hwrite := execCounterSatClear_counter (w := w) hrow hkind (by omega) (by omega) hopen
    exact ⟨fun hsat => hwrite.trans (congrArg _ (if_pos hsat)), fun hsat => hwrite.trans (congrArg _ (if_neg (by rw [hsat]; decide)))⟩
  case dropped => exact (execRegisterWrite_of_low hlow h4 h5).trans (congrArg _ (State.hostWrite_of_drop hgate hosc htie _))
  case tied =>
    change execRegisterWrite _ _ _ _ = execRegisterWrite _ _ _ _
    rw [execRegisterWrite_of_low hlow h4 h5, execRegisterWrite_of_low hlow h4 h5]
    exact congrArg Host.Outcome.next (State.inTurn_turn htie hturn _)
  case waits =>
    by_cases hwindow : windowKind a = 4 ∨ windowKind a = 5
    · exact execRegisterWrite_window hlow hwindow
    · refine (execRegisterWrite_of_low hlow (fun h => hwindow (.inl h)) fun h => hwindow (.inr h)).trans ?_
      exact congrArg Host.Outcome.next (State.inTurn_waits htie hturn _)
  case acquires =>
    rw [← semReg_eq] at hturn ⊢
    exact congrArg Host.Outcome.next (State.inTurn_turn htie hturn _)
  case acquireWaits =>
    rw [← semReg_eq] at hturn
    exact congrArg Host.Outcome.next (State.inTurn_waits htie hturn _)

end Sys2Proof
end

section
/-! SUPPORT. The host ports (R380, R382, R395, R398): what a port that goes leaves behind, a link that comes up, a window's size, a semaphore held
too long. -/
namespace Sys2Proof.Machine

/-! ### One step of a fold that acts on each number apart -/

/-- What the step at `i` makes of a view that no other step touches. -/
theorem foldl_view_at {β : Type} (view : State → β) (f : State → Nat → State) (g : β → β) {i : Nat} (hself : ∀ t, view (f t i) = g (view t))
    {l : List Nat} (hother : ∀ t, ∀ j ∈ l, j ≠ i → view (f t j) = view t) (hnodup : l.Nodup) (hmem : i ∈ l) (s : State) :
    view (l.foldl f s) = g (view s) := by
  induction l generalizing s with
  | nil => exact absurd hmem List.not_mem_nil
  | cons j l ih =>
    obtain ⟨hj, hl⟩ := List.nodup_cons.mp hnodup
    rw [List.foldl_cons]
    rcases List.mem_cons.mp hmem with rfl | hmem
    · refine (foldl_keeps_view view f l _ fun t k hk => hother t k (List.mem_cons_of_mem _ hk) ?_).trans (hself s)
      exact fun h => hj (h ▸ hk)
    · rw [ih (fun t k hk => hother t k (List.mem_cons_of_mem _ hk)) hl hmem, hother s j List.mem_cons_self fun h => hj (h ▸ hmem)]

/-! ### What a port that goes leaves -/

/-- Semaphore `i` freed where its owner has the code `code`. -/
def State.semFreed (t : State) (code i : Nat) : State :=
  if t.fld (pgGlobal + 0x200 + 8 * i) 1 0 = code then
    { t.setReg (pgGlobal + 0x200 + 8 * i) 0 with semSince := Tab.del t.semSince i }
  else t

/-- The semaphores of the port of code `code` are freed. -/
def State.semsFreed (s : State) (code : Nat) : State := (List.range 32).foldl (fun (t : State) i => t.semFreed code i) s

theorem State.semFreed_self (t : State) (code i : Nat) : (t.semFreed code i).semOwner i = if t.semOwner i = code then 0 else t.semOwner i := by
  have hreg : (t.setReg (pgGlobal + 0x200 + 8 * i) 0).reg (pgGlobal + 0x200 + 8 * i) = 0 := State.reg_setReg_self ..
  unfold State.semFreed State.semOwner
  split
  · exact congrArg (fun v => bits v 1 0) hreg
  · rfl

theorem State.semFreed_other (t : State) (code : Nat) {i j : Nat} (h : j ≠ i) : (t.semFreed code j).semOwner i = t.semOwner i := by
  have hreg : (t.setReg (pgGlobal + 0x200 + 8 * j) 0).reg (pgGlobal + 0x200 + 8 * i) = t.reg (pgGlobal + 0x200 + 8 * i) :=
    State.reg_setReg_ne _ _ (by omega)
  unfold State.semFreed
  split
  · exact State.fld_congr hreg 1 0
  · rfl

/-- Whether a port's reset leaves register `a` as it stands. -/
def portKeeps (b : Bool) (code : Nat) (e : Nat × W64) : Bool :=
  !(decide (pgMsix b ≤ e.1 ∧ e.1 < pgMsix b + 0x2000)) && !(e.1 == pgHost b + 0x108) && !(e.1 == pgHost b + 0x110) &&
    !(inPage e.1 && e.1 % 0x1000 == 0x048 && e.2.toNat % 4 == code)

theorem State.hostPortGone_regs (s : State) (b : Bool) :
    (s.hostPortGone b).regs = (s.semsFreed (if b then 2 else 1)).regs.filter (portKeeps b (if b then 2 else 1)) := by
  unfold State.hostPortGone
  cases b <;> rfl

theorem State.hostPortGone_hbm (s : State) (b : Bool) : (s.hostPortGone b).hbm = s.hbm := by
  have hfreed (code : Nat) : (s.semsFreed code).hbm = s.hbm :=
    foldl_keeps_view State.hbm _ _ _ fun t i _ => by
      unfold State.semFreed
      split <;> rfl
  unfold State.hostPortGone
  cases b
  · exact hfreed 1
  · exact hfreed 2

theorem State.semsFreed_semOwner (s : State) (code : Nat) {i : Nat} (hi : i < 32) :
    (s.semsFreed code).semOwner i = if s.semOwner i = code then 0 else s.semOwner i := by
  exact foldl_view_at (fun t => t.semOwner i) _ (fun own => if own = code then 0 else own) (fun t => t.semFreed_self code i)
    (fun t j _ hj => t.semFreed_other code hj) List.nodup_range (List.mem_range.mpr hi) s

/-- A semaphore's register is none that a port's reset clears by itself. -/
theorem State.hostPortGone_semOwner (s : State) (b : Bool) {i : Nat} (hi : i < 32) :
    (s.hostPortGone b).semOwner i = (s.semsFreed (if b then 2 else 1)).semOwner i := by
  have hkept (v : W64) : portKeeps b (if b then 2 else 1) (pgGlobal + 0x200 + 8 * i, v) = true := by
    have hm := pgMsix_ge b
    have hb : pgHost b = 0x4000 ∨ pgHost b = 0x5000 := by cases b <;> simp [pgHost]
    unfold pgGlobal portKeeps
    simp only [Bool.and_eq_true, Bool.not_eq_true', decide_eq_false_iff_not, beq_eq_false_iff_ne, Bool.and_eq_false_iff]
    omega
  refine State.fld_congr ?_ 1 0
  rw [State.reg, State.reg, Tab.get, Tab.get, State.hostPortGone_regs, Tab.find?_filter_kept _ _ hkept]

/-! ### The owner of a page -/

/-- OWNER stands in the header of every page that has one. -/
theorem regReset_owner {n : Nat} (hpage : inPage (n * 0x1000) = true) : inPage (n * 0x1000 + 0x48) = true ∧ regReset (n * 0x1000 + 0x48) = 0 := by
  have hcount (h : n * 0x1000 < 0x200_0000) : n < 0x2000 := by omega
  have hend (h : n < 0x2000) : n * 0x1000 + 0x48 < 0x200_0000 := by omega
  have hnum : (n * 0x1000 + 0x48) / 0x1000 = n ∧ (n * 0x1000 + 0x48) % 0x1000 = 0x48 ∧ n * 0x1000 / 0x1000 = n := by omega
  have hrow (ty : Nat) : (headerRows ty).find? (·.covers 0x48) = some { off := 0x048, own := true } := rfl
  obtain ⟨hnumber, hoff, hbase⟩ := hnum
  simp only [inPage, Bool.and_eq_true, decide_eq_true_eq, beq_iff_eq, Bool.not_eq_true', beq_eq_false_iff_ne, hbase] at hpage
  obtain ⟨⟨hlow, hwindow⟩, htype⟩ := hpage
  have hplain : windowKind (n * 0x1000 + 0x48) = 0 := by
    unfold windowKind at hwindow ⊢
    split_ifs at hwindow
    split_ifs <;> omega
  refine ⟨?_, ?_⟩
  · rw [inPage, hplain, hnumber, decide_eq_true (hend (hcount hlow)), beq_eq_false_iff_ne.mpr htype]
    rfl
  · rw [regReset, regRow, hplain]
    dsimp only
    rw [hnumber, hoff, if_neg htype, if_pos (by decide), hrow]
    rfl

/-- After a port's reset no page is its own. -/
theorem State.hostPortGone_owner (s : State) (b : Bool) {n : Nat} (hpage : inPage (n * 0x1000) = true) :
    (s.hostPortGone b).fld (n * 0x1000 + 0x48) 1 0 ≠ (if b then 2 else 1) := by
  obtain ⟨hinside, hreset⟩ := regReset_owner hpage
  have hoff : (n * 0x1000 + 0x48) % 0x1000 = 0x48 := by omega
  rw [State.fld, bits_low, State.reg, Tab.get, State.hostPortGone_regs]
  cases hfind : Tab.find? ((s.semsFreed (if b then 2 else 1)).regs.filter (portKeeps b (if b then 2 else 1))) (n * 0x1000 + 0x48) with
  | none =>
    rw [hreset]
    cases b <;> decide
  | some v =>
    have hkept := List.of_mem_filter (Tab.mem_of_find? hfind)
    unfold portKeeps at hkept
    rw [hinside, hoff] at hkept
    simp only [Bool.and_eq_true, Bool.not_eq_true', beq_eq_false_iff_ne, BEq.rfl, Bool.true_and] at hkept
    exact hkept.2

/-- The fall of a link, after what the port held is freed, changes its link register and its page's event registers. -/
theorem State.hostLinkDown_reg (s : State) (b : Bool) {a : Nat} (hlink : a ≠ pgHost b + 0x100) (hstatus : a ≠ pgHost b + 0x18)
    (hpend : a ≠ pgHost b + 0x28) (hlow : a < 0x201_0000) : (s.hostLinkDown b).reg a = (s.hostPortGone b).reg a := by
  unfold State.hostLinkDown
  split
  · rw [State.event_reg _ _ _ hstatus hpend hlow, State.reg_setFld_ne _ _ _ _ hlink]
  · rfl

theorem State.hostLinkDown_hbm (s : State) (b : Bool) : (s.hostLinkDown b).hbm = s.hbm := by
  unfold State.hostLinkDown
  split
  · exact ((onlyRegs_setFld ..).trans (onlyRegs_event ..)).hbm.trans (s.hostPortGone_hbm b)
  · exact s.hostPortGone_hbm b

/-- What a port's reset gives up, whichever of the resets it is. -/
def State.PortGone (s t : State) (code : Nat) : Prop :=
  (∀ i, i < 32 → s.semOwner i = code → t.semOwner i = 0) ∧ (∀ i, i < 32 → s.semOwner i ≠ code → t.semOwner i = s.semOwner i) ∧
    ∀ n, inPage (n * 0x1000) = true → t.fld (n * 0x1000 + 0x48) 1 0 ≠ code

theorem State.hostPortGone_gone (s : State) (p : HostPort) : s.PortGone (s.hostPortGone p.isB) p.code := by
  have hcode : p.code = if p.isB then 2 else 1 := by cases p <;> rfl
  have howner {i : Nat} (hi : i < 32) : (s.hostPortGone p.isB).semOwner i = if s.semOwner i = p.code then 0 else s.semOwner i := by
    rw [s.hostPortGone_semOwner p.isB hi, ← hcode, s.semsFreed_semOwner p.code hi]
  exact ⟨fun i hi hown => (howner hi).trans (if_pos hown), fun i hi hown => (howner hi).trans (if_neg hown),
    fun n hn => hcode ▸ s.hostPortGone_owner p.isB hn⟩

theorem State.hostLinkDown_gone (s : State) (p : HostPort) : s.PortGone (s.hostLinkDown p.isB) p.code := by
  obtain ⟨hfreed, hkept, howner⟩ := s.hostPortGone_gone p
  have hb : pgHost p.isB = 0x4000 ∨ pgHost p.isB = 0x5000 := by cases p <;> simp [pgHost, HostPort.isB]
  have hsem {i : Nat} (hi : i < 32) : (s.hostLinkDown p.isB).semOwner i = (s.hostPortGone p.isB).semOwner i := by
    refine State.fld_congr (s.hostLinkDown_reg p.isB ?_ ?_ ?_ ?_) 1 0 <;> (unfold pgGlobal; omega)
  refine ⟨fun i hi hown => (hsem hi).trans (hfreed i hi hown), fun i hi hown => (hsem hi).trans (hkept i hi hown), fun n hn => ?_⟩
  have hlow : n * 0x1000 < 0x200_0000 := by
    simp only [inPage, Bool.and_eq_true, decide_eq_true_eq] at hn
    exact hn.1.1
  have hlow' : n * 0x1000 + 0x48 < 0x201_0000 := Nat.lt_of_lt_of_le (Nat.add_lt_add_right hlow _) (by decide)
  rw [State.fld_congr (s.hostLinkDown_reg p.isB (by omega) (by omega) (by omega) hlow') 1 0]
  exact howner n hn

/-! ### A link that comes up, and the size of its window -/

/-- UP, SPEED, WIDTH and FLIT as HP_LINK holds them. -/
theorem linkWord_mod (speed : Fin 7) (width : Fin 17) (flit : Bool) :
    (fieldAt 9 1 + fieldAt 6 speed.val + fieldAt 1 width.val + b2n flit) % 2 ^ 10 = 512 + 64 * speed.val + 2 * width.val + if flit then 1 else 0 := by
  have hspeed := speed.isLt
  have hwidth := width.isLt
  unfold fieldAt b2n
  cases flit <;> simp <;> omega

/-- UP is the top bit of the field of UP, SPEED, WIDTH and FLIT. -/
theorem bit_top (v : Nat) : bit v 63 = decide (512 ≤ bits v 63 54) := by
  rw [Bool.eq_iff_iff, bit, decide_eq_true_eq, beq_iff_eq, bits]
  omega

/-- What a link that came up does beside showing its speed. -/
def State.linkRisen (s : State) (b recovery msix was : Bool) : State :=
  let s2 := if b then { s with hostMsixB := msix } else { s with hostMsixA := msix }
  let s3 := if recovery then s2.bump (pgHost b + 0x140) 1 else s2
  if was then s3 else s3.event (pgHost b) 0

theorem State.linkRisen_keeps (s : State) (b recovery msix was : Bool) :
    (s.linkRisen b recovery msix was).reg (pgHost b + 0x100) = s.reg (pgHost b + 0x100) ∧ (s.linkRisen b recovery msix was).hbm = s.hbm := by
  unfold State.linkRisen
  extract_lets s2 s3
  have hb : pgHost b = 0x4000 ∨ pgHost b = 0x5000 := by cases b <;> simp [pgHost]
  have hmsix : s2.reg (pgHost b + 0x100) = s.reg (pgHost b + 0x100) ∧ s2.hbm = s.hbm := by cases b <;> exact ⟨rfl, rfl⟩
  have hbump : s3.reg (pgHost b + 0x100) = s2.reg (pgHost b + 0x100) ∧ s3.hbm = s2.hbm := by
    cases recovery
    · exact ⟨rfl, rfl⟩
    · exact ⟨State.bump_reg _ _ _ (by omega) (by unfold pageBase; omega) (by unfold pageBase; omega) (by omega), (onlyRegs_bump ..).hbm⟩
  have hevent : (s3.event (pgHost b) 0).reg (pgHost b + 0x100) = s3.reg (pgHost b + 0x100) ∧ (s3.event (pgHost b) 0).hbm = s3.hbm :=
    ⟨State.event_reg _ _ _ (by omega) (by omega) (by omega), (onlyRegs_event ..).hbm⟩
  split
  · exact ⟨hbump.1.trans hmsix.1, hbump.2.trans hmsix.2⟩
  · exact ⟨hevent.1.trans (hbump.1.trans hmsix.1), hevent.2.trans (hbump.2.trans hmsix.2)⟩

section
variable {s : State} {p : HostPort} {speed : Fin 7} {width : Fin 17} (flit recovery msix : Bool)

theorem execHostLinkUp_up (htime : s.timeOn = true) (hosc : s.oscOut.contains 0 = false) (hspeed : speed.val ≠ 0)
    (hwidth : width.val ∈ [1, 2, 4, 8, 16]) : execHostLinkUp p speed width flit recovery msix s =
      .next ((s.setFld (pgHost p.isB + 0x100) 63 54 (fieldAt 9 1 + fieldAt 6 speed.val + fieldAt 1 width.val + b2n flit)).linkRisen p.isB recovery
        msix (s.linkUp p.isB)) := by
  have hrate : (speed.val == 0) = false := beq_eq_false_iff_ne.mpr hspeed
  have hlanes : [1, 2, 4, 8, 16].contains width.val = true := List.contains_iff_mem.mpr hwidth
  unfold execHostLinkUp
  rw [htime, hosc, hrate, hlanes]
  exact if_neg (by decide)

theorem execHostLinkUp_kept
    (h : ¬(s.timeOn = true ∧ s.oscOut.contains 0 = false ∧ speed.val ≠ 0 ∧ width.val ∈ [1, 2, 4, 8, 16])) :
    execHostLinkUp p speed width flit recovery msix s = .next s := by
  unfold execHostLinkUp
  extract_lets b a was s1 s2 s3
  refine if_pos (Bool.not_eq_false _ ▸ fun hgood => h ?_)
  simp only [Bool.or_eq_false_iff, Bool.not_eq_false', beq_eq_false_iff_ne, List.contains_iff_mem] at hgood
  exact ⟨hgood.1.1.1, hgood.1.1.2, hgood.1.2, hgood.2⟩

end

/-- HP_BAR2 takes the exponent and HP_APERTURE loses the bits below it. -/
theorem execResizableBarWrite_sized {s : State} {p : HostPort} {n : Nat} (hup : s.linkUp p.isB = true) (hlo : 30 ≤ n) (hhi : n ≤ 36) :
    Answers (execResizableBarWrite p n s) fun t =>
      t.fld (pgHost p.isB + 0x110) 5 0 = n ∧ t.reg (pgHost p.isB + 0x108) = s.reg (pgHost p.isB + 0x108) / 2 ^ n * 2 ^ n ∧
      OnlyRegsOf s t fun a => a = pgHost p.isB + 0x110 ∨ a = pgHost p.isB + 0x108 := by
  have hb : pgHost p.isB = 0x4000 ∨ pgHost p.isB = 0x5000 := by cases p <;> simp [pgHost, HostPort.isB]
  have hbase : (s.setFld (pgHost p.isB + 0x110) 5 0 n).reg (pgHost p.isB + 0x108) = s.reg (pgHost p.isB + 0x108) :=
    State.reg_setFld_ne _ _ _ _ (by omega)
  unfold execResizableBarWrite
  extract_lets b s1
  rw [if_pos ⟨hup, hlo, hhi⟩]
  refine ⟨_, rfl, ?_, ?_, fun a ha => ?_, ((onlyRegs_setFld ..).trans (onlyRegs_setReg ..)).hbm⟩
  · rw [State.fld_congr (State.reg_setReg_ne _ _ (show pgHost p.isB + 0x110 ≠ pgHost p.isB + 0x108 by omega)),
      State.fld_setFld_self _ _ _ _ _ (by decide) (by decide)]
    exact Nat.mod_eq_of_lt (by omega)
  · rw [State.reg_setReg_self, hbase, alignBase]
    exact Nat.mod_eq_of_lt (Nat.lt_of_le_of_lt (Nat.div_mul_le_self _ _) (s.reg_lt _))
  · rw [State.reg_setReg_ne _ _ fun h => ha (.inr h), State.reg_setFld_ne _ _ _ _ fun h => ha (.inl h)]

theorem execResizableBarWrite_kept {s : State} {p : HostPort} {n : Nat} (h : n < 30 ∨ 36 < n) : execResizableBarWrite p n s = .next s := by
  unfold execResizableBarWrite
  exact if_neg (by omega)

/-! ### Semaphores held past TMO_MS -/

/-- What the 1 ms check looks at for semaphore `i`: its owner, TMO_MS, its EN bit, the time, and when it was taken. -/
structure SemView where
  own : Nat
  tmo : Nat
  en : Bool
  now : Nat
  since : Nat

def State.semView (s : State) (i : Nat) : SemView :=
  ⟨s.semOwner i, s.fld (pgGlobal + 0x300) 31 0, s.flag (pgGlobal + 0x308) i, s.now, Tab.get 0 s.semSince i⟩

/-- Whether the check frees it. -/
def SemView.past (v : SemView) : Bool := !decide (v.own = 0 ∨ v.tmo = 0 ∨ !v.en ∨ v.now - v.since < v.tmo * 1000000)

theorem SemView.past_iff (v : SemView) : v.past = true ↔ v.own ≠ 0 ∧ v.tmo ≠ 0 ∧ v.en = true ∧ v.tmo * 1000000 ≤ v.now - v.since := by
  unfold SemView.past
  cases v.en
  · simp
  · simp only [Bool.not_eq_true', decide_eq_false_iff_not, Bool.not_true, Bool.false_eq_true, false_or, true_and]
    omega

/-- The view after the check. -/
def SemView.checked (v : SemView) : SemView := if v.past then { v with own := 0, since := 0 } else v

/-- What the check does to a semaphore that it frees. -/
def State.semReported (s : State) (i : Nat) : State :=
  (((s.freeSem i).bump (pgGlobal + 0x318) 1).faultEv pgGlobal 0x0A04 (fieldAt 62 (s.semOwner i) + fieldAt 56 i +
    stopAt (2 ^ 32 - 1) ((s.now - Tab.get 0 s.semSince i) / 1000000)) 5).event (pgHost (s.semOwner i == 2)) 4

theorem State.semTimeout_eq (s : State) (i : Nat) : s.semTimeout i = if (s.semView i).past then s.semReported i else s := by
  unfold SemView.past
  by_cases h : s.semOwner i = 0 ∨ s.fld (pgGlobal + 0x300) 31 0 = 0 ∨ (!s.flag (pgGlobal + 0x308) i) = true ∨
      s.now - Tab.get 0 s.semSince i < s.fld (pgGlobal + 0x300) 31 0 * 1000000
  · exact (if_pos h).trans (if_neg fun hpast => of_decide_eq_false ((Bool.not_eq_true' _).mp hpast) h).symm
  · exact (if_neg h).trans (if_pos ((Bool.not_eq_true' _).mpr (decide_eq_false h))).symm

theorem State.semReported_reg (s : State) (i : Nat) {a : Nat} (hcount : a ≠ pgGlobal + 0x318) (hlo : 0x100 ≤ a) (hhi : a < 0x1000) :
    (s.semReported i).reg a = (s.freeSem i).reg a := by
  have hhost (b : Bool) : pgHost b = 0x4000 ∨ pgHost b = 0x5000 := by cases b <;> simp [pgHost]
  have hevent (t : State) (b : Bool) : (t.event (pgHost b) 4).reg a = t.reg a := by
    have hpage := hhost b
    generalize pgHost b = h at hpage
    exact State.event_reg _ _ _ (by omega) (by omega) (by omega)
  have hfault (t : State) (x : Nat) : (t.faultEv pgGlobal 0x0A04 x 5).reg a = t.reg a :=
    State.faultEv_reg _ _ _ _ _ (show a ≠ 0x38 by omega) (show a ≠ 0x40 by omega) (show a ≠ 0x18 by omega) (show a ≠ 0x28 by omega)
      (.inl (by omega)) (show a ≠ 0x3100 by omega) (by omega) (by decide)
  have hbump (t : State) : (t.bump (pgGlobal + 0x318) 1).reg a = t.reg a :=
    State.bump_reg _ _ _ hcount (show a ≠ 0x18 by omega) (show a ≠ 0x28 by omega) (by omega)
  unfold State.semReported
  rw [hevent, hfault, hbump]

theorem State.onlyRegs_semReported (s : State) (i : Nat) : OnlyRegs (s.freeSem i) (s.semReported i) :=
  ((onlyRegs_bump ..).trans (onlyRegs_faultEv ..)).trans (onlyRegs_event ..)

theorem OnlyRegs.semSince {s t : State} (h : OnlyRegs s t) : t.semSince = s.semSince := by
  obtain ⟨r, o, rfl⟩ := h
  rfl

theorem State.semTimeout_hbm (s : State) (i : Nat) : (s.semTimeout i).hbm = s.hbm := by
  rw [State.semTimeout_eq]
  split
  · exact (s.onlyRegs_semReported i).hbm
  · rfl

theorem State.freeSem_reg (s : State) {i a : Nat} (h : a ≠ pgGlobal + 0x200 + 8 * i) : (s.freeSem i).reg a = s.reg a := State.reg_setReg_ne _ _ h

/-- What the check makes of the view of semaphore `j`, where it frees `i`. -/
theorem State.semView_semReported (s : State) {i j : Nat} (hi : i < 32) (hj : j < 32) : (s.semReported i).semView j =
    { s.semView j with own := (s.freeSem i).semOwner j, since := Tab.get 0 (s.freeSem i).semSince j } := by
  have hglobal : pgGlobal = 0 := rfl
  have hown : (s.semReported i).semOwner j = (s.freeSem i).semOwner j :=
    State.fld_congr (s.semReported_reg i (by omega) (by omega) (by omega)) 1 0
  have hreg {a : Nat} (hcount : a ≠ pgGlobal + 0x318) (hne : a ≠ pgGlobal + 0x200 + 8 * i) (hlo : 0x100 ≤ a) (hhi : a < 0x1000) :
      (s.semReported i).reg a = s.reg a := (s.semReported_reg i hcount hlo hhi).trans (s.freeSem_reg hne)
  have htmo : (s.semReported i).fld (pgGlobal + 0x300) 31 0 = s.fld (pgGlobal + 0x300) 31 0 :=
    State.fld_congr (hreg (by omega) (by omega) (by omega) (by omega)) 31 0
  have hen : (s.semReported i).flag (pgGlobal + 0x308) j = s.flag (pgGlobal + 0x308) j :=
    State.flag_congr (hreg (by omega) (by omega) (by omega) (by omega)) j
  have hnow : (s.semReported i).now = s.now := hreg (by omega) (by omega) (by omega) (by omega)
  unfold State.semView
  rw [hown, (s.onlyRegs_semReported i).semSince, htmo, hen, hnow]

/-- The check of semaphore `i` as its view sees it. -/
theorem State.semView_semTimeout_self (s : State) {i : Nat} (hi : i < 32) : (s.semTimeout i).semView i = (s.semView i).checked := by
  have hown : (s.freeSem i).semOwner i = 0 :=
    congrArg (fun v => bits v 1 0) (State.reg_setReg_self s (pgGlobal + 0x200 + 8 * i) 0)
  have hsince : Tab.get 0 (s.freeSem i).semSince i = 0 := by
    rw [Tab.get, State.freeSem, Tab.find?_del, if_pos rfl, Option.getD_none]
  rw [State.semTimeout_eq, SemView.checked]
  split
  · rw [s.semView_semReported hi hi, hown, hsince]
  · rfl

theorem State.semView_semTimeout_other (s : State) {i j : Nat} (hi : i < 32) (hj : j < 32) (h : j ≠ i) : (s.semTimeout j).semView i = s.semView i := by
  have hown : (s.freeSem j).semOwner i = s.semOwner i := State.fld_congr (s.freeSem_reg (by omega)) 1 0
  have hsince : Tab.get 0 (s.freeSem j).semSince i = Tab.get 0 s.semSince i := by
    rw [Tab.get, Tab.get, State.freeSem, Tab.find?_del, if_neg h.symm]
  rw [State.semTimeout_eq]
  split
  · rw [s.semView_semReported hj hi, hown, hsince]
    rfl
  · rfl

/-- The check of every semaphore, as the view of semaphore `i` sees it. -/
theorem State.semView_semTimeouts (s : State) {i : Nat} (hi : i < 32) :
    ((List.range 32).foldl (fun (t : State) k => t.semTimeout k) s).semView i = (s.semView i).checked :=
  foldl_view_at (fun t => t.semView i) _ SemView.checked (fun t => t.semView_semTimeout_self hi)
    (fun t _ hmem hj => t.semView_semTimeout_other hi (List.mem_range.mp hmem) hj) List.nodup_range (List.mem_range.mpr hi) s

theorem State.semTimeouts_hbm (s : State) : ((List.range 32).foldl (fun (t : State) k => t.semTimeout k) s).hbm = s.hbm :=
  foldl_keeps_view State.hbm _ _ _ fun t i _ => t.semTimeout_hbm i

/-- Time does not touch what the check looks at, but the clock. -/
theorem State.semView_tick (s : State) (dt : Nat) {i : Nat} (hi : i < 32) : (s.tick dt).semView i = { s.semView i with now := (s.tick dt).now } := by
  have hreg {a : Nat} (hlo : 0x200 ≤ a) (hhi : a < 0x1000) : (s.tick dt).reg a = s.reg a := by
    refine State.tick_reg s dt (show a ≠ 0x108 by omega) (by omega) ?_ (by omega)
    simp only [List.mem_cons, List.not_mem_nil, or_false]
    omega
  have hsince : (s.tick dt).semSince = s.semSince := by
    obtain ⟨r, o, lim, slew, held, htick⟩ := s.tick_cases dt
    rw [htick]
  have hglobal : pgGlobal = 0 := rfl
  have hown : (s.tick dt).semOwner i = s.semOwner i := State.fld_congr (hreg (by omega) (by omega)) 1 0
  have htmo : (s.tick dt).fld (pgGlobal + 0x300) 31 0 = s.fld (pgGlobal + 0x300) 31 0 := State.fld_congr (hreg (by omega) (by omega)) 31 0
  have hen : (s.tick dt).flag (pgGlobal + 0x308) i = s.flag (pgGlobal + 0x308) i := State.flag_congr (hreg (by omega) (by omega)) i
  unfold State.semView
  rw [hown, hsince, htmo, hen]

end Sys2Proof.Machine

namespace Sys2Proof
open Machine

/-- Settles O53: what a port's reset frees, the link register of a port that comes up, the window's size, and the semaphores the check frees. -/
theorem hostPortLinks : Obligations.HostPortLinks := by
  unfold Obligations.HostPortLinks
  refine ⟨fun s p => ⟨fun k => ?reset, fun speed width flit recovery msix => ⟨fun hmay => ?up, fun hmay => ?kept⟩,
    fun n hup hlo hhi => execResizableBarWrite_sized hup hlo hhi, fun n hn => execResizableBarWrite_kept hn⟩, fun s dt => ?timeout⟩
  case reset =>
    have hgone := s.hostPortGone_gone p
    have hdown := s.hostLinkDown_gone p
    have hlink := s.hostLinkDown_linkUp_self p.isB
    have hhbm := s.hostLinkDown_hbm p.isB
    cases k with
    | flr =>
      exact ⟨_, rfl, hgone.1, hgone.2.1, hgone.2.2, fun _ => State.flag_congr (s.hostPortGone_linkReg p.isB p.isB) 63, fun h => absurd rfl h,
        s.hostPortGone_hbm p.isB⟩
    | perst => exact ⟨_, rfl, hdown.1, hdown.2.1, hdown.2.2, fun h => PortReset.noConfusion h, fun _ => hlink, hhbm⟩
    | hot => exact ⟨_, rfl, hdown.1, hdown.2.1, hdown.2.2, fun h => PortReset.noConfusion h, fun _ => hlink, hhbm⟩
    | dlDown => exact ⟨_, rfl, hdown.1, hdown.2.1, hdown.2.2, fun h => PortReset.noConfusion h, fun _ => hlink, hhbm⟩
  case up =>
    obtain ⟨htime, hosc, hspeed, hwidth⟩ := hmay
    obtain ⟨hreg, hhbm⟩ := State.linkRisen_keeps (s.setFld (pgHost p.isB + 0x100) 63 54
      (fieldAt 9 1 + fieldAt 6 speed.val + fieldAt 1 width.val + b2n flit)) p.isB recovery msix (s.linkUp p.isB)
    have hfld := (State.fld_congr hreg 63 54).trans (State.fld_setFld_self _ _ _ _ _ (by decide) (by decide))
    rw [linkWord_mod] at hfld
    exact ⟨_, execHostLinkUp_up flit recovery msix htime hosc hspeed hwidth, hfld,
      (bit_top _).trans (decide_eq_true (by rw [State.fld] at hfld; omega)), hhbm.trans (State.setFld_hbm ..)⟩
  case kept => exact execHostLinkUp_kept flit recovery msix hmay
  case timeout =>
    refine ⟨_, rfl, (State.semTimeouts_hbm _).trans (s.tick_hbm dt), fun i hi => ?_⟩
    have hview := (s.tick dt).semView_semTimeouts hi
    rw [s.semView_tick dt hi] at hview
    have howner := congrArg SemView.own hview
    rw [SemView.checked] at howner
    have hpast := SemView.past_iff { s.semView i with now := (s.tick dt).now }
    constructor
    · intro hp
      rw [if_pos (hpast.mpr hp)] at howner
      exact howner
    · intro hp
      rw [if_neg fun h => hp (hpast.mp h)] at howner
      exact howner

end Sys2Proof
end

section
/-! SUPPORT. A BAR2 read that fills its port's counter (R382, R392, R443): the event of a counter that stops at its maximum sends a message. -/
namespace Sys2Proof.Machine

/-- A READY device whose port A is up with MSI-X enabled and vector 0 unmasked; HP_RD_BYTES of the port is one below its maximum, and the
interrupt of the page's CNT_SAT event goes to vector 0 of port A. -/
def fullReadCounter : State :=
  { State.reset with
    hostMsixA := true
    regs := [(pgBare + 0x100, toW (2 ^ 63 + 7 * 2 ^ 57)), (pgHost false + 0x100, toW (2 ^ 63)), (pgHost false + 0x120, toW (2 ^ 48 - 2)),
      (pgHost false + 0x20, toW (2 ^ 5)), (pgHost false + 0x08, toW (2 ^ 16)), (pgMsix false + 8, toW 0)] }

/-- The read is inside the window and HBM serves it. -/
theorem fullReadCounter_serves :
    fullReadCounter.barHit false 0 1 = true ∧ fullReadCounter.barServed false 0 1 = true := by
  have hup : fullReadCounter.linkUp false = true := by decide
  have hsize : fullReadCounter.barLog2 false = 34 := by decide
  have hlive : fullReadCounter.live = true := by decide
  have haddr : fullReadCounter.barAddr false 0 = 0 := by decide
  have hrange : rangeOk 0 1 = true := by decide
  have hchan : fullReadCounter.chLive (adChan 0) = true := by decide
  rw [State.barHit, State.barServed, hup, hsize, hlive, haddr, hrange, hchan]
  exact ⟨rfl, rfl⟩

/-- What is sent once a command has run. -/
def Result.sent : Result → List Out
  | .next t => t.out
  | _ => []

/-- The read sends the message of CNT_SAT. -/
theorem fullReadCounter_bar2Read_sent : Result.sent (execBar2Read .a 0 1 fullReadCounter) = [.msix .a 0] := by decide +kernel

end Sys2Proof.Machine

namespace Sys2Proof
open Machine

/-- Refutes O50: a read that brings its port's HP_RD_BYTES to the maximum raises CNT_SAT, whose message is sent with it (R392, R443), so what
the device has sent is not as it was. -/
theorem not_hostWindowAccess : ¬Obligations.HostWindowAccess := by
  unfold Obligations.HostWindowAccess
  intro h
  obtain ⟨hhit, hserved⟩ := fullReadCounter_serves
  obtain ⟨t, hread, -, hout, -⟩ := (h.1 fullReadCounter .a 0).2.1 1 hhit hserved (by decide)
  have hmessage : t.out = [.msix .a 0] := (congrArg Result.sent hread).symm.trans fullReadCounter_bar2Read_sent
  rw [hout] at hmessage
  exact absurd hmessage (by decide)

end Sys2Proof
end

section
/-! SUPPORT. GLB_EVT_SUM and GLB_EVT_YARDS (R393, Table 16.13): which pages stand under each bit, and what PG_STATUS of a page shows. -/
namespace Sys2Proof.Machine

/-! ### A sum of bits at different places -/

/-- A bit set where there was none. -/
theorem testBit_add_two_pow {x k : Nat} (h : x.testBit k = false) (i : Nat) : (2 ^ k + x).testBit i = (x.testBit i || decide (i = k)) := by
  rcases Nat.lt_trichotomy i k with hlt | rfl | hgt
  · rw [Nat.testBit_two_pow_add_gt hlt, decide_eq_false (Nat.ne_of_lt hlt), Bool.or_false]
  · rw [Nat.testBit_two_pow_add_eq, h, decide_eq_true rfl, Bool.or_true, Bool.not_false]
  · have heven : x / 2 ^ k % 2 = 0 := by
      rw [Nat.testBit_eq_decide_div_mod_eq] at h
      have := of_decide_eq_false h
      omega
    have hrest : (2 ^ k + x) / 2 ^ (k + 1) = x / 2 ^ (k + 1) := by
      rw [Nat.pow_succ, ← Nat.div_div_eq_div_mul, ← Nat.div_div_eq_div_mul, Nat.add_div_left _ (Nat.two_pow_pos k)]
      omega
    have hshift (v : Nat) : v.testBit i = (v / 2 ^ (k + 1)).testBit (i - (k + 1)) := by
      rw [Nat.testBit_div_two_pow]
      congr 1
      omega
    rw [hshift (2 ^ k + x), hrest, ← hshift, decide_eq_false (Nat.ne_of_gt hgt), Bool.or_false]

/-- A word with each listed truth value at its place. -/
def bitsAt (l : List (Nat × Bool)) : Nat := (l.map fun e => fieldAt e.1 (b2n e.2)).foldl (· + ·) 0

theorem bitsAt_cons (e : Nat × Bool) (l : List (Nat × Bool)) : bitsAt (e :: l) = fieldAt e.1 (b2n e.2) + bitsAt l := by
  simp only [bitsAt, ← List.sum_eq_foldl, List.map_cons, List.sum_cons]

/-- At places that are all different, a bit of the word is 1 exactly where a true value stands at it. -/
theorem bit_bitsAt {l : List (Nat × Bool)} (hnodup : (l.map (·.1)).Nodup) (i : Nat) : bit (bitsAt l) i = l.any fun e => decide (i = e.1) && e.2 := by
  rw [bit_eq_testBit]
  induction l generalizing i with
  | nil => exact Nat.zero_testBit i
  | cons e l ih =>
    obtain ⟨hout, hl⟩ := List.nodup_cons.mp hnodup
    have hfree : (bitsAt l).testBit e.1 = false := by
      rw [ih hl, List.any_eq_false]
      intro x hx h
      have hplace : e.1 = x.1 := of_decide_eq_true (Bool.and_eq_true_iff.mp h).1
      exact hout (List.mem_map.mpr ⟨x, hx, hplace.symm⟩)
    rw [bitsAt_cons, List.any_cons, ← ih hl i]
    obtain ⟨k, b⟩ := e
    cases b
    · simp [fieldAt, b2n]
    · rw [show fieldAt k (b2n true) = 2 ^ k from Nat.one_mul _, testBit_add_two_pow hfree, Bool.and_true, Bool.or_comm]

/-- The bit at a listed place. -/
theorem bit_bitsAt_mem {l : List (Nat × Bool)} (hnodup : (l.map (·.1)).Nodup) {i : Nat} {b : Bool} (h : (i, b) ∈ l) : bit (bitsAt l) i = b := by
  rw [bit_bitsAt hnodup, Bool.eq_iff_iff, List.any_eq_true]
  constructor
  · rintro ⟨x, hx, hthere⟩
    obtain ⟨hplace, htrue⟩ := Bool.and_eq_true_iff.mp hthere
    have hsame : x = (i, b) := List.inj_on_of_nodup_map hnodup hx h (of_decide_eq_true hplace).symm
    rwa [hsame] at htrue
  · rintro rfl
    exact ⟨_, h, by simp⟩

/-! ### PG_STATUS -/

/-- The registers of a page with a header, past its first, are its own. -/
theorem inPage_header {n o : Nat} (ho : o < 0x80) (hpage : inPage (n * 0x1000) = true) : inPage (n * 0x1000 + o) = true := by
  have hnumber : (n * 0x1000 + o) / 0x1000 = n := by omega
  have hbase : n * 0x1000 / 0x1000 = n := Nat.mul_div_cancel _ (by decide)
  have hinside : n * 0x1000 + o < (n + 1) * 0x1000 := by omega
  have hcount (h : n * 0x1000 < 0x200_0000) : n < 0x2000 := by omega
  have hend (h : n < 0x2000) : n * 0x1000 + o < 0x200_0000 := Nat.lt_of_lt_of_le hinside (Nat.mul_le_mul_right 0x1000 (Nat.succ_le_of_lt h))
  simp only [inPage, Bool.and_eq_true, decide_eq_true_eq, beq_iff_eq, Bool.not_eq_true', beq_eq_false_iff_ne, hbase] at hpage
  obtain ⟨⟨hlow, hwindow⟩, htype⟩ := hpage
  have hplain : windowKind (n * 0x1000 + o) = 0 := by
    unfold windowKind at hwindow ⊢
    split_ifs at hwindow
    split_ifs <;> omega
  rw [inPage, hplain, hnumber, decide_eq_true (hend (hcount hlow)), beq_eq_false_iff_ne.mpr htype]
  rfl

/-- A register's block is its page's. -/
theorem page_sub_div (n lo k : Nat) {o : Nat} (ho : o < 0x1000) :
    (n * 0x1000 + o - lo * 0x1000) / (0x1000 * k) = (n * 0x1000 - lo * 0x1000) / (0x1000 * k) := by
  have hpage : (n * 0x1000 + o) / 0x1000 = n * 0x1000 / 0x1000 := by omega
  rw [← Nat.div_div_eq_div_mul, ← Nat.div_div_eq_div_mul, Nat.mul_comm lo, Nat.sub_mul_div, Nat.sub_mul_div, hpage]

/-- A block is absent or there with all its page. -/
theorem State.absent_page (s : State) (n : Nat) {o : Nat} (ho : o < 0x1000) : s.absent (n * 0x1000 + o) = s.absent (n * 0x1000) := by
  have hrange (lo hi : Nat) : (lo * 0x1000 ≤ n * 0x1000 + o ∧ n * 0x1000 + o < hi * 0x1000) =
      (lo * 0x1000 ≤ n * 0x1000 ∧ n * 0x1000 < hi * 0x1000) := by
    rw [eq_iff_iff]
    omega
  have hyard : (n * 0x1000 + o - 0x100_0000) / 0x4_0000 = (n * 0x1000 - 0x100_0000) / 0x4_0000 := page_sub_div n 0x1000 0x40 ho
  have hport : (n * 0x1000 + o - 0x10_0000) / 0x4000 = (n * 0x1000 - 0x10_0000) / 0x4000 := page_sub_div n 0x100 4 ho
  have hengine : (n * 0x1000 + o - 0x12_0000) / 0x1000 = (n * 0x1000 - 0x12_0000) / 0x1000 := page_sub_div n 0x120 1 ho
  have hstack : (n * 0x1000 + o - 0x20_0000) / 0x4000 = (n * 0x1000 - 0x20_0000) / 0x4000 := page_sub_div n 0x200 4 ho
  unfold State.absent
  rw [hyard, hport, hengine, hstack]
  have h1 := hrange 0x1000 0x2000
  have h2 := hrange 0x100 0x120
  have h3 := hrange 0x120 0x128
  have h4 := hrange 0x200 0x280
  simp only [Nat.reduceMul] at h1 h2 h3 h4
  simp only [h1, h2, h3, h4]

/-- The lines of the register tables that hold a page's header. -/
theorem regRow_header {n o : Nat} (ho : o < 0x100) (hin : inPage (n * 0x1000 + o) = true) :
    regRow (n * 0x1000 + o) = (headerRows (pageType n)).find? (·.covers o) := by
  have hnumber : (n * 0x1000 + o) / 0x1000 = n := by omega
  have hoff : (n * 0x1000 + o) % 0x1000 = o := by omega
  simp only [inPage, Bool.and_eq_true, beq_iff_eq, Bool.not_eq_true', beq_eq_false_iff_ne, hnumber] at hin
  rw [regRow, hin.1.2]
  dsimp only
  rw [hnumber, hoff, if_neg hin.2, if_pos ho]
  rfl

/-- IRQ of PG_STATUS, of a page with a header. -/
theorem bit_pgStatus (s : State) {n : Nat} (hpage : inPage (n * 0x1000) = true) :
    bit (readReg s (n * 0x1000 + 0x10)) 1 = s.shownIrq (n * 0x1000) := by
  have hin := inPage_header (o := 0x10) (by decide) hpage
  have hoff : (n * 0x1000 + 0x10) % 0x1000 = 0x10 := by omega
  have hbase : pageBase (n * 0x1000 + 0x10) = n * 0x1000 := by unfold pageBase; omega
  have hrow : regRow (n * 0x1000 + 0x10) = some { off := 0x010 } := regRow_header (by decide) hin
  have hword (b1 b2 b3 : Bool) : bit (fieldAt 2 (b2n b1) + fieldAt 1 (b2n b2) + b2n b3) 1 = b2 := by
    cases b1 <;> cases b2 <;> cases b3 <;> decide
  rw [readReg, hrow]
  dsimp only
  rw [hin, hoff, hbase, s.absent_page n (by decide), State.shownIrq]
  simp only [Bool.true_and, Nat.reduceBEq, Bool.false_eq_true, if_false, if_true]
  cases s.isReady && s.absent (n * 0x1000)
  · exact hword _ _ _
  · exact (show bit 8 1 = false by decide)

/-! ### The words of Table 16.13 -/

/-- The pages under each bit of GLB_EVT_SUM. -/
def State.evtBits (s : State) : List (Nat × Bool) :=
  ((List.range 8).map fun g => (56 + g, (List.range 8).any fun i => s.anyIrq (yardPages (8 * g + i)))) ++
  ((List.range 32).map fun h => (24 + h, s.anyIrq [pgHc h, pgPhy h, pgTherm h, pgRep h, pgSlice h])) ++
  ((List.range 8).map fun d => (16 + d, s.anyIrq ((List.range 4).map (fun q => pgPort (4 * d + q)) ++ [pgEngine d]))) ++
  ((List.range 8).map fun p => (6 + p, s.anyIrq [pgPart p])) ++
  [(15, s.anyIrq [pgMon]), (14, s.anyIrq [pgArb]), (5, s.anyIrq [pgPower 0, pgPower 1]), (4, s.anyIrq [pgHost true]),
    (3, s.anyIrq [pgHost false]), (2, s.anyIrq [pgMast true]), (1, s.anyIrq [pgMast false]), (0, s.anyIrq [pgGlobal])]

section
variable (s : State)

theorem State.evtBits_yards {g : Nat} (hg : g < 8) : (56 + g, (List.range 8).any fun i => s.anyIrq (yardPages (8 * g + i))) ∈ s.evtBits := by
  simp only [State.evtBits, List.mem_append]
  exact .inl (.inl (.inl (.inl (List.mem_map.mpr ⟨g, List.mem_range.mpr hg, rfl⟩))))

theorem State.evtBits_stack {h : Nat} (hh : h < 32) : (24 + h, s.anyIrq [pgHc h, pgPhy h, pgTherm h, pgRep h, pgSlice h]) ∈ s.evtBits := by
  simp only [State.evtBits, List.mem_append]
  exact .inl (.inl (.inl (.inr (List.mem_map.mpr ⟨h, List.mem_range.mpr hh, rfl⟩))))

theorem State.evtBits_ports {d : Nat} (hd : d < 8) :
    (16 + d, s.anyIrq ((List.range 4).map (fun q => pgPort (4 * d + q)) ++ [pgEngine d])) ∈ s.evtBits := by
  simp only [State.evtBits, List.mem_append]
  exact .inl (.inl (.inr (List.mem_map.mpr ⟨d, List.mem_range.mpr hd, rfl⟩)))

theorem State.evtBits_part {p : Nat} (hp : p < 8) : (6 + p, s.anyIrq [pgPart p]) ∈ s.evtBits := by
  simp only [State.evtBits, List.mem_append]
  exact .inl (.inr (List.mem_map.mpr ⟨p, List.mem_range.mpr hp, rfl⟩))

/-- The bits that have pages of their own. -/
theorem State.evtBits_single {e : Nat × Bool} (he : e ∈ [(15, s.anyIrq [pgMon]), (14, s.anyIrq [pgArb]), (5, s.anyIrq [pgPower 0, pgPower 1]),
    (4, s.anyIrq [pgHost true]), (3, s.anyIrq [pgHost false]), (2, s.anyIrq [pgMast true]), (1, s.anyIrq [pgMast false]),
    (0, s.anyIrq [pgGlobal])]) : e ∈ s.evtBits := List.mem_append_right _ he

end

theorem evtSum_eq (s : State) : evtSum s = bitsAt s.evtBits := by
  simp only [evtSum, bitsAt, State.evtBits, List.map_append, List.map_map]
  rfl

theorem evtBits_nodup (s : State) : (s.evtBits.map (·.1)).Nodup := by
  have hplaces : s.evtBits.map (·.1) = (List.range 8).map (56 + ·) ++ (List.range 32).map (24 + ·) ++ (List.range 8).map (16 + ·) ++
      (List.range 8).map (6 + ·) ++ [15, 14, 5, 4, 3, 2, 1, 0] := by
    simp only [State.evtBits, List.map_append, List.map_map]
    rfl
  rw [hplaces]
  decide

theorem evtYards_eq (s : State) : evtYards s = bitsAt ((List.range 64).map fun y => (y, s.anyIrq (yardPages y))) := by
  simp only [evtYards, bitsAt, List.map_map]
  rfl

theorem bit_evtSum (s : State) {i : Nat} {b : Bool} (h : (i, b) ∈ s.evtBits) : bit (evtSum s) i = b := by
  rw [evtSum_eq, bit_bitsAt_mem (evtBits_nodup s) h]

theorem bit_evtYards (s : State) {y : Nat} (hy : y < 64) : bit (evtYards s) y = s.anyIrq (yardPages y) := by
  have hplaces : ((List.range 64).map fun y => (y, s.anyIrq (yardPages y))).map (·.1) = List.range 64 := by
    rw [List.map_map]
    exact List.map_id' _
  rw [evtYards_eq, bit_bitsAt_mem (hplaces ▸ List.nodup_range) (List.mem_map.mpr ⟨y, List.mem_range.mpr hy, rfl⟩)]

theorem readReg_evtSum (s : State) : readReg s (pgGlobal + 0x118) = evtSum s := by
  have hrow : regRow (pgGlobal + 0x118) = some { off := 0x118 } := by decide
  rw [readReg, hrow]
  dsimp only
  rw [show s.absent (pgGlobal + 0x118) = false from rfl, Bool.and_false]
  rfl

theorem readReg_evtYards (s : State) : readReg s (pgGlobal + 0x120) = evtYards s := by
  have hrow : regRow (pgGlobal + 0x120) = some { off := 0x120 } := by decide
  rw [readReg, hrow]
  dsimp only
  rw [show s.absent (pgGlobal + 0x120) = false from rfl, Bool.and_false]
  rfl

/-! ### The pages of the table -/

/-- A page with a header, by its first register. -/
abbrev IsPage (pg : Nat) : Prop := pg % 0x1000 = 0 ∧ inPage pg = true

theorem IsPage.bit_irq {pg : Nat} (h : IsPage pg) (s : State) : bit (readReg s (pg + 0x10)) 1 = s.shownIrq pg := by
  obtain ⟨n, rfl⟩ : ∃ n, pg = n * 0x1000 := ⟨pg / 0x1000, by have := h.1; omega⟩
  exact bit_pgStatus s h.2

theorem isPage_stack (h : Fin 32) : IsPage (pgHc h.val) ∧ IsPage (pgPhy h.val) ∧ IsPage (pgTherm h.val) ∧ IsPage (pgRep h.val) ∧
    IsPage (pgSlice h.val) := by
  revert h
  decide

theorem isPage_single : IsPage pgMon ∧ IsPage pgArb ∧ IsPage pgGlobal := by decide

theorem isPage_power : IsPage (pgPower 0) ∧ IsPage (pgPower 1) := by decide

theorem isPage_host (b : Bool) : IsPage (pgHost b) ∧ IsPage (pgMast b) := by
  revert b
  decide

theorem isPage_port (q : Fin 32) : IsPage (pgPort q.val) := by
  revert q
  decide

theorem isPage_engine (d : Fin 8) : IsPage (pgEngine d.val) := by
  revert d
  decide

theorem isPage_part (p : Fin 8) : IsPage (pgPart p.val) := by
  revert p
  decide

/-- The places of a Yard's pages all have a block type. -/
theorem yardPage_ne_zero {k : Nat} (hk : k < 9 ∨ (16 ≤ k ∧ k < 32)) :
    (if k = 0 then 0x10 else if k = 1 then 0x11 else if k = 2 then 0x12 else if k ≤ 4 then 0x13 else if k ≤ 8 then 0x14
      else if 16 ≤ k ∧ k < 32 then 0x15 else 0) ≠ 0 := by
  split_ifs <;> omega

theorem isPage_yard {y k : Nat} (hy : y < 64) (hk : k < 9 ∨ (16 ≤ k ∧ k < 32)) : IsPage (pgYard y + k * 0x1000) := by
  have hnumber : (pgYard y + k * 0x1000) / 0x1000 = 0x1000 + y * 64 + k := by unfold pgYard; omega
  have hlow : pgYard y + k * 0x1000 < 0x200_0000 := by unfold pgYard; omega
  have hwindow : windowKind (pgYard y + k * 0x1000) = 0 := by
    unfold windowKind pgYard
    repeat rw [if_neg (by omega)]
  have htype : pageType (0x1000 + y * 64 + k) ≠ 0 := by
    have hplace : (0x1000 + y * 64 + k) % 64 = k := by omega
    unfold pageType
    repeat rw [if_neg (by omega)]
    rw [if_pos (by omega), hplace]
    exact yardPage_ne_zero hk
  refine ⟨by unfold pgYard; omega, ?_⟩
  rw [inPage, hnumber, hwindow, decide_eq_true hlow, beq_eq_false_iff_ne.mpr htype]
  rfl

theorem isPage_unit {y u : Nat} (hy : y < 64) (hu : u < 22) : IsPage (pgUnit y u) := by
  unfold pgUnit
  split_ifs with hmu hvu
  · rw [show pgYard y + 0x1_0000 + u * 0x1000 = pgYard y + (16 + u) * 0x1000 by omega]
    exact isPage_yard hy (by omega)
  · rw [show pgYard y + 0x5000 + (u - 16) * 0x1000 = pgYard y + (u - 11) * 0x1000 by omega]
    exact isPage_yard hy (by omega)
  · rw [show pgYard y + 0x3000 + (u - 20) * 0x1000 = pgYard y + (u - 17) * 0x1000 by omega]
    exact isPage_yard hy (by omega)

theorem any_congr_mem {l : List Nat} {f g : Nat → Bool} (h : ∀ u ∈ l, f u = g u) : l.any f = l.any g := by
  rw [Bool.eq_iff_iff, List.any_eq_true, List.any_eq_true]
  exact exists_congr fun u => and_congr_right fun hu => by rw [h u hu]

/-- The pages of a Yard, as its bit looks at them. -/
theorem anyIrq_yardPages (s : State) {y : Nat} (hy : y < 64) : s.anyIrq (yardPages y) =
    (bit (readReg s (pgYard y + 0x10)) 1 || bit (readReg s (pgSwitch y + 0x10)) 1 || bit (readReg s (pgCore y + 0x10)) 1 ||
      (List.range 22).any fun u => bit (readReg s (pgUnit y u + 0x10)) 1) := by
  have hyard : IsPage (pgYard y) := isPage_yard (k := 0) hy (by decide)
  have hswitch : IsPage (pgSwitch y) := isPage_yard (k := 1) hy (by decide)
  have hcore : IsPage (pgCore y) := isPage_yard (k := 2) hy (by decide)
  have hunits : (List.range 22).any (fun u => bit (readReg s (pgUnit y u + 0x10)) 1) = ((List.range 22).map (pgUnit y)).any s.shownIrq := by
    rw [List.any_map]
    refine any_congr_mem fun u hu => ?_
    exact (isPage_unit hy (List.mem_range.mp hu)).bit_irq s
  rw [hyard.bit_irq s, hswitch.bit_irq s, hcore.bit_irq s, hunits, State.anyIrq, yardPages, List.any_append, List.any_cons, List.any_cons,
    List.any_cons, List.any_nil, Bool.or_false]
  simp only [Bool.or_assoc]

/-! ### A write to the words -/

theorem State.shownIrq_congr {s t : State} (h : ∀ b, t.reg b = s.reg b) (hstay : t.stayAbsent = s.stayAbsent) (pg : Nat) :
    t.shownIrq pg = s.shownIrq pg := by
  have habsent : t.absent pg = s.absent pg := by
    unfold State.absent
    rw [State.enabled_congr (h _), hstay, State.flag_congr (h _)]
  rw [State.shownIrq, State.shownIrq, State.isReady, State.isReady, State.flag_congr (h _), habsent, State.irq, State.irq, h, h]

/-- The words depend on what the pages show alone. -/
theorem evtSum_congr {s t : State} (h : t.shownIrq = s.shownIrq) : evtSum t = evtSum s ∧ evtYards t = evtYards s := by
  simp only [evtSum, evtYards, State.anyIrq, h, and_self]

/-- A write to either word stores it as it stands. -/
theorem State.storeReg_evt (s : State) {a : Nat} (ha : a = pgGlobal + 0x118 ∨ a = pgGlobal + 0x120) (w m : Nat) :
    s.storeReg a w m = s.setReg a (s.reg a) := by
  have hrow : regRow a = some { off := a % 0x1000 } := by rcases ha with rfl | rfl <;> decide
  have hnone (v : Nat) : maskAnd v 0 = 0 := Nat.and_zero v
  have hmerge (old : Nat) : mergeBits old w 0 = old := by rw [mergeBits, hnone, hnone, Nat.sub_zero, Nat.add_zero]
  have hclamp (old v : Nat) : clampReg a old v = v := by rcases ha with rfl | rfl <;> rfl
  rw [s.storeReg_of_plain w m hrow rfl, hclamp, show maskAnd (0 : Nat) m = 0 from Nat.zero_and m, hmerge]

theorem State.reg_setReg_own (s : State) (a b : Nat) : (s.setReg a (s.reg a)).reg b = s.reg b := by
  by_cases h : b = a
  · rw [h, State.reg_setReg_self, Nat.mod_eq_of_lt (s.reg_lt a)]
  · exact State.reg_setReg_ne _ _ h

/-- What a write that reaches either word comes to. -/
theorem execRegisterWrite_evt {s : State} {acc : Acc} {a : Nat} (ha : a = pgGlobal + 0x118 ∨ a = pgGlobal + 0x120) (w : W64)
    (hopen : s.Open acc a) : execRegisterWrite acc a w s = .next (s.setReg a (s.reg a)) := by
  have hrow : regRow a = some { off := a % 0x1000 } := by rcases ha with rfl | rfl <;> decide
  have hwindow : windowKind a = 0 := by rcases ha with rfl | rfl <;> decide
  have hlow : a < 0x200 := by rcases ha with rfl | rfl <;> decide
  have hplain : s.plainWrite acc.port a w.toNat (accMask acc) = s.storeReg a w.toNat (accMask acc) := by
    unfold State.plainWrite
    dsimp only
    repeat rw [if_neg (by omega)]
  rw [execRegisterWrite_plain (by omega) (by omega) (by omega) hrow rfl hopen, hplain, s.storeReg_evt ha]

end Sys2Proof.Machine

namespace Sys2Proof
open Machine

/-- Settles O5: each word is a sum of bits at different places, and what stands at a place is what its pages show. -/
theorem eventSummary : Obligations.EventSummary := by
  unfold Obligations.EventSummary
  intro s
  dsimp only
  rw [readReg_evtSum, readReg_evtYards]
  have hbit {i : Nat} {b c : Bool} (h : (i, b) ∈ s.evtBits) (hb : b = c) : bit (evtSum s) i = c := (bit_evtSum s h).trans hb
  have hone {pg : Nat} (h : IsPage pg) : s.anyIrq [pg] = bit (readReg s (pg + 0x10)) 1 := by
    rw [h.bit_irq s, State.anyIrq, List.any_cons, List.any_nil, Bool.or_false]
  refine ⟨fun g hg => ?yards, fun h hh => ?memory, fun d hd => ?ports, ?mon, ?arb, fun p hp => ?parts, ?power, ?hostB, ?hostA, ?mastB, ?mastA,
    ?global, fun y hy => ?yard, fun acc w a ha hopen => ?write⟩
  case yards =>
    refine hbit (s.evtBits_yards hg) (any_congr_mem fun i hi => ?_)
    exact anyIrq_yardPages s (by have := List.mem_range.mp hi; omega)
  case memory =>
    obtain ⟨hhc, hphy, htherm, hrep, hslice⟩ := isPage_stack ⟨h, hh⟩
    refine hbit (s.evtBits_stack hh) ?_
    rw [hhc.bit_irq s, hphy.bit_irq s, htherm.bit_irq s, hrep.bit_irq s, hslice.bit_irq s]
    simp only [State.anyIrq, List.any_cons, List.any_nil, Bool.or_false, Bool.or_assoc]
  case ports =>
    have hport {q : Nat} (hq : q < 32) := (isPage_port ⟨q, hq⟩).bit_irq s
    refine hbit (s.evtBits_ports hd) ?_
    rw [hport (by omega), hport (by omega), hport (by omega), hport (by omega), (isPage_engine ⟨d, hd⟩).bit_irq s]
    simp only [State.anyIrq, List.range_succ, List.range_zero, List.nil_append, List.cons_append, List.map_cons, List.map_nil, List.any_cons,
      List.any_nil, Bool.or_false, Bool.or_assoc, Nat.add_zero]
  case parts => exact hbit (s.evtBits_part hp) (hone (isPage_part ⟨p, hp⟩))
  case mon => exact hbit (s.evtBits_single (by simp)) (hone isPage_single.1)
  case arb => exact hbit (s.evtBits_single (by simp)) (hone isPage_single.2.1)
  case power =>
    refine hbit (s.evtBits_single (e := (5, s.anyIrq [pgPower 0, pgPower 1])) (by simp)) ?_
    rw [isPage_power.1.bit_irq s, isPage_power.2.bit_irq s]
    simp only [State.anyIrq, List.any_cons, List.any_nil, Bool.or_false]
  case hostB => exact hbit (s.evtBits_single (by simp)) (hone (isPage_host true).1)
  case hostA => exact hbit (s.evtBits_single (by simp)) (hone (isPage_host false).1)
  case mastB => exact hbit (s.evtBits_single (by simp)) (hone (isPage_host true).2)
  case mastA => exact hbit (s.evtBits_single (by simp)) (hone (isPage_host false).2)
  case global => exact hbit (s.evtBits_single (by simp)) (hone isPage_single.2.2)
  case yard => exact (bit_evtYards s hy).trans (anyIrq_yardPages s hy)
  case write =>
    have hshown := funext (State.shownIrq_congr (s.reg_setReg_own a) rfl)
    obtain ⟨hsum, hyards⟩ := evtSum_congr hshown
    refine ⟨_, execRegisterWrite_evt ha w hopen, s.reg_setReg_own a, ?_, rfl, rfl⟩
    rcases ha with rfl | rfl
    · rw [readReg_evtSum, readReg_evtSum, hsum]
    · rw [readReg_evtYards, readReg_evtYards, hyards]

end Sys2Proof
end

section
/-! SUPPORT. The Mastheads (R410..R415, R423): the role each page shows, and what a heartbeat, a takeover and a standby leave. -/
namespace Sys2Proof.Machine

/-! ### The two pages -/

theorem otherMast_other (m : Fin 2) : otherMast (otherMast m) = m := by
  revert m
  decide

theorem otherMast_ne (m : Fin 2) : otherMast m ≠ m := by
  revert m
  decide

/-- The pages of the two Mastheads, one after the other. -/
theorem pgMast_cases (m : Fin 2) : (pgMast (mastOf m) = 0x1000 ∧ pgMast (mastOf (otherMast m)) = 0x2000) ∨
    (pgMast (mastOf m) = 0x2000 ∧ pgMast (mastOf (otherMast m)) = 0x1000) := by
  revert m
  decide

/-! ### Roles -/

theorem State.role_congr {s t : State} {m : Bool} (h : t.reg (pgMast m + 0x100) = s.reg (pgMast m + 0x100)) : t.role m = s.role m :=
  State.fld_congr h 63 61

/-- A role that is not STANDBY is taken without an event. -/
theorem State.setRole_of_ne (s : State) (m : Bool) {r : Nat} (h : r ≠ 2) : s.setRole m r = s.setFld (pgMast m + 0x100) 63 61 r :=
  if_neg fun hr => h hr.1

theorem State.role_setFld_self (s : State) (m : Bool) {r : Nat} (h : r < 8) : (s.setFld (pgMast m + 0x100) 63 61 r).role m = r :=
  (State.fld_setFld_self _ _ _ _ _ (by decide) (by decide)).trans (Nat.mod_eq_of_lt h)

theorem State.setRole_reg_ne (s : State) (m : Bool) (r : Nat) {a : Nat} (hrole : a ≠ pgMast m + 0x100) (hstatus : a ≠ pgMast m + 0x18)
    (hpend : a ≠ pgMast m + 0x28) (hlow : a < 0x201_0000) : (s.setRole m r).reg a = s.reg a := by
  unfold State.setRole
  have hset : (s.setFld (pgMast m + 0x100) 63 61 r).reg a = s.reg a := State.reg_setFld_ne _ _ _ _ hrole
  exact reg_ite _ ((State.event_reg _ _ _ hstatus hpend hlow).trans hset) hset

theorem State.role_setRole_self (s : State) (m : Bool) {r : Nat} (h : r < 8) : (s.setRole m r).role m = r := by
  have hb : pgMast m = 0x1000 ∨ pgMast m = 0x2000 := by cases m <;> simp [pgMast]
  have hevent : ((s.setFld (pgMast m + 0x100) 63 61 r).event (pgMast m) 2).role m = (s.setFld (pgMast m + 0x100) 63 61 r).role m :=
    State.role_congr (State.event_reg _ _ _ (by omega) (by omega) (by omega))
  unfold State.setRole
  dsimp only
  split
  · rw [hevent, s.role_setFld_self m h]
  · exact s.role_setFld_self m h

theorem State.role_setRole_other (s : State) (m : Fin 2) (r : Nat) : (s.setRole (mastOf (otherMast m)) r).role (mastOf m) = s.role (mastOf m) := by
  have hpages := pgMast_cases m
  exact State.role_congr (s.setRole_reg_ne _ r (by omega) (by omega) (by omega) (by omega))

/-! ### A Masthead that becomes primary -/

/-- The latch given to Masthead `m` at this moment. -/
def State.latchTo (s : State) (m : Fin 2) : State :=
  { s with latch := some m, lastLatch := m, latchNs := 0, beatNs := 0, shroudLost := false }

theorem State.role_latchTo (s : State) (m : Fin 2) (k : Bool) : (s.latchTo m).role k = s.role k := rfl

/-- The roles and the latch after a takeover, before it is counted and recorded. -/
def State.takenOver (s : State) (m : Fin 2) : State := ((s.setRole (mastOf m) 3).setRole (mastOf (otherMast m)) 1).latchTo m

theorem State.becomePrimary_eq (s : State) (m : Fin 2) (c : Nat) : s.becomePrimary m c =
    (((s.takenOver m).bump (pgMast (mastOf m) + 0x118) 1).event (pgMast (mastOf m)) 0).fault (pgMast (mastOf m)) 0x0A02
      (fieldAt 62 c + stopAt (2 ^ 32 - 1) (s.beatNs / 1000)) := rfl

theorem State.onlyRegs_becomePrimary (s : State) (m : Fin 2) (c : Nat) : OnlyRegs (s.takenOver m) (s.becomePrimary m c) := by
  rw [State.becomePrimary_eq]
  exact ((onlyRegs_bump ..).trans (onlyRegs_event ..)).trans (onlyRegs_fault ..)

/-- What only registers tell apart holds of the latch as it was. -/
theorem OnlyRegs.latchView {s t : State} (h : OnlyRegs s t) : t.latch = s.latch ∧ t.latchNs = s.latchNs ∧ t.bankA = s.bankA ∧ t.bankB = s.bankB ∧
    t.images = s.images := by
  obtain ⟨r, o, rfl⟩ := h
  exact ⟨rfl, rfl, rfl, rfl, rfl⟩

/-- Either page shows the role it took. -/
theorem State.becomePrimary_role (s : State) (m : Fin 2) (c : Nat) (k : Bool) : (s.becomePrimary m c).role k = (s.takenOver m).role k := by
  have hk : pgMast k = 0x1000 ∨ pgMast k = 0x2000 := by cases k <;> simp [pgMast]
  have hm : pgMast (mastOf m) = 0x1000 ∨ pgMast (mastOf m) = 0x2000 := by cases mastOf m <;> simp [pgMast]
  have hbase : pageBase (pgMast (mastOf m) + 0x118) = pgMast (mastOf m) := by unfold pageBase; omega
  refine State.role_congr ?_
  rw [State.becomePrimary_eq,
    State.fault_reg _ _ _ _ (by omega) (by omega) (.inl (by omega)) (show pgMast k + 0x100 ≠ 0x3100 by omega) (by omega) (by omega),
    State.event_reg _ _ _ (by omega) (by omega) (by omega), State.bump_reg _ _ _ (by omega) (by omega) (by omega) (by omega)]

theorem State.takenOver_role (s : State) (m : Fin 2) : (s.takenOver m).role (mastOf m) = 3 ∧ (s.takenOver m).role (mastOf (otherMast m)) = 1 := by
  rw [State.takenOver, State.role_latchTo, State.role_latchTo, State.role_setRole_other, State.role_setRole_self _ _ (by decide),
    State.role_setRole_self _ _ (by decide)]
  exact ⟨rfl, rfl⟩

theorem State.takenOver_regs (s : State) (m : Fin 2) : (s.takenOver m).hbm = s.hbm ∧ (s.takenOver m).images = s.images ∧
    (s.takenOver m).bankA = s.bankA ∧ (s.takenOver m).bankB = s.bankB ∧ (s.takenOver m).maintRun = s.maintRun ∧
    (s.takenOver m).maintQueue = s.maintQueue ∧ (s.takenOver m).maintWait = s.maintWait := by
  obtain ⟨r, o, hroles⟩ := (onlyRegs_setRole s (mastOf m) 3).trans (onlyRegs_setRole _ (mastOf (otherMast m)) 1)
  unfold State.takenOver
  rw [hroles]
  exact ⟨rfl, rfl, rfl, rfl, rfl, rfl, rfl⟩

/-- What a takeover leaves: the latch and the two roles, and everything that no register holds. -/
theorem State.becomePrimary_takes (s : State) (m : Fin 2) (c : Nat) :
    (s.becomePrimary m c).latch = some m ∧ (s.becomePrimary m c).latchNs = 0 ∧ (s.becomePrimary m c).role (mastOf m) = 3 ∧
    (s.becomePrimary m c).role (mastOf (otherMast m)) = 1 := by
  obtain ⟨hlatch, hns, -⟩ := (s.onlyRegs_becomePrimary m c).latchView
  obtain ⟨hmine, hother⟩ := s.takenOver_role m
  exact ⟨hlatch, hns, (s.becomePrimary_role m c _).trans hmine, (s.becomePrimary_role m c _).trans hother⟩

theorem State.becomePrimary_keeps (s : State) (m : Fin 2) (c : Nat) : (s.becomePrimary m c).hbm = s.hbm ∧ (s.becomePrimary m c).images = s.images ∧
    (s.becomePrimary m c).bankA = s.bankA ∧ (s.becomePrimary m c).bankB = s.bankB ∧ (s.becomePrimary m c).maintRun = s.maintRun ∧
    (s.becomePrimary m c).maintQueue = s.maintQueue ∧ (s.becomePrimary m c).maintWait = s.maintWait := by
  obtain ⟨hhbm, himages, ha, hb, hrun, hqueue, hwait⟩ := s.takenOver_regs m
  have honly := s.onlyRegs_becomePrimary m c
  obtain ⟨-, -, hbankA, hbankB, hheld⟩ := honly.latchView
  exact ⟨honly.hbm.trans hhbm, hheld.trans himages, hbankA.trans ha, hbankB.trans hb, honly.maintRun.trans hrun, honly.maintQueue.trans hqueue,
    honly.maintWait.trans hwait⟩

theorem State.tick_images (s : State) (dt : Nat) : (s.tick dt).images = s.images := by
  obtain ⟨r, o, lim, slew, held, htick⟩ := s.tick_cases dt
  rw [htick]

/-! ### The claim -/

/-- With nothing queued or waiting for a primary, the arbiter has nothing to look at. -/
theorem State.actOnWaiting_idle {s : State} (hqueue : s.maintQueue = []) (hwait : s.maintWait = []) : s.actOnWaiting = s := by
  have hidle : s.examineQueue [] s.maintQueue = s := by
    rw [hqueue]
    exact State.examineQueue_nil hqueue
  rw [State.actOnWaiting, hidle, hwait, List.foldl_nil, ← hwait]

/-- With no operation running or waiting, a takeover is all that a claim of an expired latch is. -/
theorem State.claim_expired {s : State} {m : Fin 2} (hns : 1000000 ≤ s.latchNs) (hrun : s.maintRun = []) (hqueue : s.maintQueue = [])
    (hwait : s.maintWait = []) : s.claim m = s.becomePrimary m 1 := by
  obtain ⟨-, -, -, -, hrun', hqueue', hwait'⟩ := s.becomePrimary_keeps m 1
  have hdrop : (s.becomePrimary m 1).dropUpdate = s.becomePrimary m 1 := by
    rw [State.dropUpdate, State.endMaint, hrun', hrun]
    rfl
  rw [State.claim, if_pos hns, hdrop, State.actOnWaiting_idle (hqueue'.trans hqueue) (hwait'.trans hwait)]

theorem State.standby_of {s : State} {m : Fin 2} (hlatch : s.latch = some m) (hrole : s.role (mastOf (otherMast m)) = 2) :
    s.standby = some (otherMast m) := by
  rw [State.standby, hlatch]
  exact if_pos hrole

theorem execMastheadTakeover_standby {s : State} {dt : Nat} {m : Fin 2} (hlatch : (s.tick dt).latch = some m)
    (hrole : (s.tick dt).role (mastOf (otherMast m)) = 2) (hbeat : 1000000 ≤ (s.tick dt).beatNs) :
    execMastheadTakeover dt s = .next ((s.tick dt).claim (otherMast m)) := by
  unfold execMastheadTakeover
  dsimp only
  rw [State.standby_of hlatch hrole]
  exact congrArg _ (if_pos hbeat)

theorem execShroudClaimRetry_standby {s : State} {dt : Nat} {m : Fin 2} (hlatch : (s.tick dt).latch = some m)
    (hrole : (s.tick dt).role (mastOf (otherMast m)) = 2) (hshroud : (s.tick dt).shroudLost = true) :
    execShroudClaimRetry dt s = .next ((s.tick dt).claim (otherMast m)) := by
  unfold execShroudClaimRetry
  dsimp only
  rw [State.standby_of hlatch hrole]
  exact congrArg _ (if_pos hshroud)

/-! ### Heartbeats -/

/-- SEQ of both pages after a heartbeat that the standby hears. -/
theorem State.countBeat_reg_ne (s : State) (m : Fin 2) {a : Nat} (h : a ≠ pgMast (mastOf m) + 0x110) : (s.countBeat m).reg a = s.reg a :=
  State.reg_setFld_ne _ _ _ _ h

theorem State.countBeat_seq (s : State) (m : Fin 2) : (s.countBeat m).fld (mhHb m) 31 0 = (s.fld (mhHb m) 31 0 + 1) % 2 ^ 32 :=
  State.fld_setFld_self _ _ _ _ _ (by decide) (by decide)

/-- The latch refreshed at this moment. -/
def State.latchFresh (s : State) : State := { s with latchNs := 0 }

theorem State.role_countBeat (s : State) (m : Fin 2) (k : Bool) : (s.countBeat m).role k = s.role k := by
  have hk : pgMast k = 0x1000 ∨ pgMast k = 0x2000 := by cases k <;> simp [pgMast]
  have hm : pgMast (mastOf m) = 0x1000 ∨ pgMast (mastOf m) = 0x2000 := by cases mastOf m <;> simp [pgMast]
  exact State.role_congr (s.countBeat_reg_ne m (by omega))

/-- The standby has heard the primary at this moment. -/
def State.heardNow (s : State) : State := { s with beatNs := 0, shroudLost := false }

theorem State.reg_heardNow (s : State) (a : Nat) : s.heardNow.reg a = s.reg a := rfl

theorem State.heardNow_view (s : State) : s.heardNow.beatNs = 0 ∧ s.heardNow.latchNs = s.latchNs ∧ s.heardNow.latch = s.latch ∧
    s.heardNow.hbm = s.hbm := ⟨rfl, rfl, rfl, rfl⟩

/-- A heartbeat counted by both Mastheads, its gap measured. -/
def State.beatCounted (s : State) (m : Fin 2) : State :=
  ((s.latchFresh.countBeat m).countBeat (otherMast m)).setFld (mhHb (otherMast m)) 47 32
    (max (stopAt 0xFFFF (s.beatNs / 1000)) ((s.latchFresh.countBeat m).fld (mhHb (otherMast m)) 47 32))

theorem onlyRegs_countBeat (s : State) (m : Fin 2) : OnlyRegs s (s.countBeat m) := onlyRegs_setFld ..

theorem State.onlyRegs_beatCounted (s : State) (m : Fin 2) : OnlyRegs s.latchFresh (s.beatCounted m) :=
  ((onlyRegs_countBeat _ m).trans (onlyRegs_countBeat _ (otherMast m))).trans (onlyRegs_setFld ..)

/-- A heartbeat that the standby hears. -/
def State.beatHeard (s : State) (m : Fin 2) : State := (s.beatCounted m).heardNow

section
variable {s : State} {dt : Nat} {m : Fin 2} (hlatch : (s.tick dt).latch = some m) (hrole : (s.tick dt).role (mastOf m) = 3)
include hlatch hrole

theorem execHeartbeat_expired (hns : 1000000 ≤ (s.tick dt).latchNs) (p q : Bool) :
    execHeartbeat dt p q s = .next ((s.tick dt).setFld (pgMast (mastOf m) + 0x100) 63 61 1) := by
  have hnone : (s.tick dt).primary = none := if_neg (Nat.not_lt.mpr hns)
  unfold execHeartbeat
  extract_lets s1
  split
  next hno => exact absurd (hlatch.symm.trans hno) (Option.some_ne_none m)
  next m' hsome =>
    obtain rfl : m = m' := Option.some.inj (hlatch.symm.trans hsome)
    rw [if_neg (not_not.mpr hrole), if_pos hnone, State.setRole_of_ne _ _ (by decide)]

variable (hns : (s.tick dt).latchNs < 1000000)
include hns

theorem execHeartbeat_primary (p q : Bool) : execHeartbeat dt p q s = .next (
    if (p || q) && (s.tick dt).role (mastOf (otherMast m)) == 2 then (s.tick dt).beatHeard m else (s.tick dt).latchFresh.countBeat m) := by
  have hprimary : (s.tick dt).primary ≠ none := by
    rw [State.primary, if_pos hns, hlatch]
    exact Option.some_ne_none m
  have hother : ((s.tick dt).latchFresh.countBeat m).role (mastOf (otherMast m)) = (s.tick dt).role (mastOf (otherMast m)) :=
    State.role_countBeat _ m _
  unfold execHeartbeat
  extract_lets s1
  split
  next hno => exact absurd (hlatch.symm.trans hno) (Option.some_ne_none m)
  next m' hsome =>
    obtain rfl : m = m' := Option.some.inj (hlatch.symm.trans hsome)
    rw [if_neg (not_not.mpr hrole), if_neg hprimary, ← hother]
    cases h : ((p || q) && ((s.tick dt).latchFresh.countBeat m).role (mastOf (otherMast m)) == 2)
    · exact if_neg (Bool.eq_false_iff.mp h)
    · exact if_pos h

end

/-- What a heartbeat that the standby hears leaves. -/
theorem State.beatHeard_counts {s : State} {m : Fin 2} : (s.beatHeard m).latchNs = 0 ∧ (s.beatHeard m).beatNs = 0 ∧
    (s.beatHeard m).fld (pgMast (mastOf m) + 0x110) 31 0 = (s.fld (pgMast (mastOf m) + 0x110) 31 0 + 1) % 2 ^ 32 ∧
    (s.beatHeard m).fld (pgMast (mastOf (otherMast m)) + 0x110) 31 0 = (s.fld (pgMast (mastOf (otherMast m)) + 0x110) 31 0 + 1) % 2 ^ 32 ∧
    (s.beatHeard m).latch = s.latch ∧ (s.beatHeard m).hbm = s.hbm := by
  have hpages := pgMast_cases m
  have hmine : (s.beatHeard m).reg (mhHb m) = (s.latchFresh.countBeat m).reg (mhHb m) := by
    have hset : mhHb m ≠ mhHb (otherMast m) := by unfold mhHb; omega
    rw [State.beatHeard, State.reg_heardNow, State.beatCounted, State.reg_setFld_ne _ _ _ _ hset, State.countBeat_reg_ne _ _ hset]
  have hother : (s.beatHeard m).fld (mhHb (otherMast m)) 31 0 =
      ((s.latchFresh.countBeat m).countBeat (otherMast m)).fld (mhHb (otherMast m)) 31 0 := by
    rw [State.beatHeard, State.fld_congr (State.reg_heardNow _ _), State.beatCounted,
      State.fld_setFld_below _ _ _ _ _ _ _ (by decide) (by decide) (by decide) (by decide)]
  have hfirst : (s.latchFresh.countBeat m).fld (mhHb (otherMast m)) 31 0 = s.fld (mhHb (otherMast m)) 31 0 :=
    State.fld_congr (State.countBeat_reg_ne _ _ (by unfold mhHb; omega)) 31 0
  obtain ⟨hbeat, hns, hlatch, hhbm⟩ := (s.beatCounted m).heardNow_view
  obtain ⟨hlatch', hfresh, -⟩ := (s.onlyRegs_beatCounted m).latchView
  refine ⟨hns.trans hfresh, hbeat, ?_, ?_, hlatch.trans hlatch', hhbm.trans (s.onlyRegs_beatCounted m).hbm⟩
  · exact (State.fld_congr hmine 31 0).trans (State.countBeat_seq _ m)
  · rw [show pgMast (mastOf (otherMast m)) + 0x110 = mhHb (otherMast m) from rfl, hother, State.countBeat_seq, hfirst]

/-! ### A standby -/

theorem onlyRegs_useBank (s : State) (m bank : Bool) : OnlyRegs s (s.useBank m bank) :=
  ((onlyRegs_setFlag ..).trans (onlyRegs_setFld ..)).trans (onlyRegs_setReg ..)

theorem execStandbyReady_booted {s : State} {m : Fin 2} (hlatch : s.latch = some m) (hrole : s.role (mastOf (otherMast m)) = 1)
    (hlo : 3 ≤ s.stage) (hhi : s.stage ≤ 8) : Answers (execStandbyReady (otherMast m) s) fun t =>
      t.role (mastOf (otherMast m)) = 2 ∧ t.role (mastOf m) = s.role (mastOf m) ∧ t.latch = some m ∧ t.hbm = s.hbm := by
  have hpages := pgMast_cases m
  have hne := otherMast_ne m
  have hholds : (s.latch.isSome && s.latch != some (otherMast m) && s.role (mastOf (otherMast m)) == 1 &&
      decide (3 ≤ s.stage ∧ s.stage ≤ 8)) = true := by
    rw [hlatch, hrole, decide_eq_true ⟨hlo, hhi⟩]
    simpa using hne.symm
  unfold execStandbyReady
  rw [if_pos hholds]
  have hbank : (s.useBank (mastOf (otherMast m)) (if otherMast m = 1 then s.bankB else s.bankA)).role (mastOf m) = s.role (mastOf m) := by
    refine State.role_congr ?_
    rw [State.useBank, State.reg_setReg_ne _ _ (by omega), State.reg_setFld_ne _ _ _ _ (by omega), State.reg_setFlag_ne _ _ _ (by omega)]
  have hregs := onlyRegs_useBank s (mastOf (otherMast m)) (if otherMast m = 1 then s.bankB else s.bankA)
  generalize s.useBank (mastOf (otherMast m)) (if otherMast m = 1 then s.bankB else s.bankA) = t at hbank hregs
  have honly := hregs.trans (onlyRegs_setRole t (mastOf (otherMast m)) 2)
  refine ⟨(t.setRole (mastOf (otherMast m)) 2).heardNow, rfl, ?_, ?_, honly.latchView.1.trans hlatch, honly.hbm⟩
  · rw [State.role_congr (State.reg_heardNow _ _), State.role_setRole_self _ _ (by decide)]
  · rw [State.role_congr (State.reg_heardNow _ _), State.role_setRole_other, hbank]

end Sys2Proof.Machine

namespace Sys2Proof
open Machine

/-- Settles O56: heartbeats by the age of the latch, claims by its expiry, the standby by its role. -/
theorem mastheads : Obligations.Mastheads := by
  unfold Obligations.Mastheads
  intro s dt m
  refine ⟨fun hlatch hrole hns p q => ?expired, fun hlatch hrole hns => ?alone, fun hlatch hrole hns hstandby => ?heard,
    fun hlatch hrole hbeat hns hrun hqueue hwait => ?takeover,
    fun hlatch hrole hbeat hns hshroud => ?stays, fun hlatch hrole hshroud hns hrun hqueue hwait => ?retry,
    fun hlatch hlo hhi hns => ?lost, fun hlatch hrole hlo hhi => execStandbyReady_booted hlatch hrole hlo hhi⟩
  case expired => exact execHeartbeat_expired hlatch hrole hns p q
  case alone => exact execHeartbeat_primary hlatch hrole hns false false
  case heard =>
    have hexec := execHeartbeat_primary hlatch hrole hns true false
    rw [if_pos (by rw [hstandby]; rfl)] at hexec
    obtain ⟨hfresh, hbeat, hmine, hother, hsame, hhbm⟩ := State.beatHeard_counts (s := s.tick dt) (m := m)
    exact ⟨_, hexec, hfresh, hbeat, hmine, hother, hsame.trans hlatch, hhbm.trans (s.tick_hbm dt)⟩
  case takeover =>
    have hexec := execMastheadTakeover_standby hlatch hrole hbeat
    rw [State.claim_expired hns hrun hqueue hwait] at hexec
    obtain ⟨hhbm, himages, -⟩ := (s.tick dt).becomePrimary_keeps (otherMast m) 1
    obtain ⟨hnew, hfresh, hprimary, hboots⟩ := (s.tick dt).becomePrimary_takes (otherMast m) 1
    rw [otherMast_other] at hboots
    exact ⟨_, hexec, hnew, hprimary, hboots, hfresh, hhbm.trans (s.tick_hbm dt), himages.trans (s.tick_images dt)⟩
  case stays =>
    refine (execMastheadTakeover_standby hlatch hrole hbeat).trans (congrArg _ ?_)
    rw [State.claim, if_neg (Nat.not_le.mpr hns), hshroud]
    rfl
  case retry =>
    have hexec := execShroudClaimRetry_standby hlatch hrole hshroud
    rw [State.claim_expired hns hrun hqueue hwait] at hexec
    obtain ⟨hnew, -, hprimary, hboots⟩ := (s.tick dt).becomePrimary_takes (otherMast m) 1
    rw [otherMast_other] at hboots
    exact ⟨_, hexec, hnew, hprimary, hboots⟩
  case lost =>
    refine if_pos ?_
    rw [Option.isSome_iff_ne_none.mpr hlatch, decide_eq_true ⟨hlo, hhi, hns⟩]
    rfl

end Sys2Proof
end

section
/-! SUPPORT. Requests to the maintenance arbiter and the ends of its operations (R414, R417, R419, R421). -/
namespace Sys2Proof.Machine

/-! ### A request by a host -/

theorem State.primary_of_held {s : State} (h : s.latch ≠ none ∧ s.latchNs < 1000000) : s.primary.isSome = true := by
  rw [State.primary, if_pos h.2]
  exact Option.isSome_iff_ne_none.mpr h.1

theorem State.primary_of_not_held {s : State} (h : ¬(s.latch ≠ none ∧ s.latchNs < 1000000)) : s.primary = none := by
  rw [State.primary]
  split
  next hns => exact not_not.mp fun hlatch => h ⟨hlatch, hns⟩
  next => rfl

/-- A request of no map-out or permute goes to the arbiter as it is. -/
theorem State.arbiter_plain (s : State) {m : MaintOp} (h1 : m.cls ≠ 1) (h6 : m.cls ≠ 6) : s.arbiter m = s.maintAsk m := by
  rw [State.arbiter, if_neg h1, if_neg fun h => h6 h.1]

/-- A host's request of such a class, by whether the latch is held. -/
theorem State.request_plain (s : State) {m : MaintOp} (h1 : m.cls ≠ 1) (h6 : m.cls ≠ 6) : s.request m =
    if s.latch ≠ none ∧ s.latchNs < 1000000 then s.maintAsk m else { s with maintWait := s.maintWait ++ [m] } := by
  split
  next h => rw [State.request_of_primary (State.primary_of_held h), s.arbiter_plain h1 h6]
  next h => exact State.request_waits (State.primary_of_not_held h) m

/-- A write of MA_REQ with REQ and class 4, 5 or 7. -/
theorem State.maReq_asks {s : State} {acc : Acc} {w c : Nat} (hopen : s.Open acc (pgArb + 0x108)) (hreq : bit (maskAnd w (accMask acc)) 59 = true)
    (hcls : (s.storeReg (pgArb + 0x108) w (accMask acc)).fld (pgArb + 0x108) 63 60 = c) (hc : c = 4 ∨ c = 5 ∨ c = 7) : s.maReq acc w =
      (s.storeReg (pgArb + 0x108) w (accMask acc)).request
        ⟨c, if c = 7 then 0 else (s.storeReg (pgArb + 0x108) w (accMask acc)).fld (pgArb + 0x108) 31 0, acc.port.code, 0, none⟩ := by
  subst hcls
  rw [State.maReq, State.hostWrite_of_open hopen]
  exact if_pos ⟨hreq, hc⟩

/-! ### The policy -/

section
variable {s : State} {cls : Fin 8} {g : BitVec 32}

theorem execMaintRequest_due (hlive : s.live = true) (hprimary : s.primary ≠ none) (hwindow : s.flag (pgArb + 0x100) 0 = true)
    (hdue : s.policyDue cls.val g.toNat = true) : execMaintRequest cls g s = .next (s.arbiter { cls := cls.val, target := g.toNat, src := 0 }) := by
  rw [execMaintRequest, State.whenLive_of_live hlive]
  refine congrArg _ (if_pos ?_)
  rw [Option.isSome_iff_ne_none.mpr hprimary, hwindow, hdue]
  rfl

theorem execMaintRequest_idle (h : s.live = false ∨ ¬(s.primary ≠ none ∧ s.flag (pgArb + 0x100) 0 = true ∧ s.policyDue cls.val g.toNat = true)) :
    execMaintRequest cls g s = .next s := by
  refine congrArg Host.Outcome.next ?_
  rcases h with hdead | hnot
  · exact if_neg (by rw [hdead]; decide)
  · unfold State.whenLive
    split
    · refine if_neg fun hmay => hnot ?_
      simp only [Bool.and_eq_true] at hmay
      exact ⟨Option.isSome_iff_ne_none.mp hmay.1.1, hmay.1.2, hmay.2⟩
    · rfl

/-- The policy asks for no permute. -/
theorem State.policyDue_ne_permute (h : s.policyDue cls.val g.toNat = true) : cls.val ≠ 6 := by
  intro h6
  rw [h6] at h
  exact Bool.noConfusion h

end

/-! ### The end of an operation -/

theorem not_not_any {l : List MaintOp} {f : MaintOp → Bool} (h : l.any f = true) : ¬(!l.any f) = true := by
  rw [h]
  decide

section
variable {s : State} {dt : Nat} {g : BitVec 32} (hlive : (s.tick dt).live = true)
include hlive

theorem execMaintOpEnd_retrain (hruns : ((s.tick dt).maintRun.any fun m => m.cls == 4 && m.target == g.toNat) = true) (good : Bool) :
    execMaintOpEnd dt 4 g good s = .next ((s.tick dt).endMaint 4 g.toNat (if good then 1 else 2)) := by
  refine congrArg Host.Outcome.next ((State.whenLive_of_live hlive _).trans ?_)
  exact (if_neg (not_not_any hruns)).trans (if_pos rfl)

variable (hruns : ((s.tick dt).maintRun.any fun m => m.cls == 7 && m.target == g.toNat) = true)
include hruns

theorem execMaintOpEnd_update_failed : execMaintOpEnd dt 7 g false s = .next ((s.tick dt).endMaint 7 g.toNat 2) := by
  refine congrArg Host.Outcome.next ((State.whenLive_of_live hlive _).trans ?_)
  exact (if_neg (not_not_any hruns)).trans ((if_neg (by decide)).trans (if_pos rfl))

theorem execMaintOpEnd_update_done {m : Fin 2} (hstandby : (s.tick dt).standby = some m) :
    execMaintOpEnd dt 7 g true s = .next ((s.tick dt).updateDone m) := by
  refine congrArg Host.Outcome.next ((State.whenLive_of_live hlive _).trans ?_)
  refine (if_neg (not_not_any hruns)).trans ((if_neg (by decide)).trans ((if_pos rfl).trans ?_))
  rw [hstandby]

end

/-- The flash devices after an update, before the standby takes over from the new bank. -/
def State.updated (s : State) (m : Fin 2) : State :=
  let v := BitVec.truncate 32 (Config.freeWord s.fresh.1)
  ({ s.fresh.2 with
      fwVer := Tab.put (Tab.put s.fresh.2.fwVer (b2n !s.fresh.2.bankA) v) (2 + b2n !s.fresh.2.bankB) v
      bankA := !s.fresh.2.bankA
      bankB := !s.fresh.2.bankB } : State).useBank (mastOf m) (if m = 1 then !s.fresh.2.bankB else !s.fresh.2.bankA)

theorem State.updateDone_eq (s : State) (m : Fin 2) : s.updateDone m = ((s.updated m).becomePrimary m 2).endMaint 7 0 1 := rfl

theorem State.updated_view (s : State) (m : Fin 2) :
    (s.updated m).bankA = !s.bankA ∧ (s.updated m).bankB = !s.bankB ∧ (s.updated m).hbm = s.hbm ∧
    (s.updated m).maintRun = s.maintRun ∧ (s.updated m).maintQueue = s.maintQueue := by
  have honly := onlyRegs_useBank ({ s.fresh.2 with
      fwVer := Tab.put (Tab.put s.fresh.2.fwVer (b2n !s.fresh.2.bankA) (BitVec.truncate 32 (Config.freeWord s.fresh.1))) (2 + b2n !s.fresh.2.bankB)
        (BitVec.truncate 32 (Config.freeWord s.fresh.1))
      bankA := !s.fresh.2.bankA
      bankB := !s.fresh.2.bankB } : State) (mastOf m) (if m = 1 then !s.fresh.2.bankB else !s.fresh.2.bankA)
  obtain ⟨-, -, ha, hb, -⟩ := honly.latchView
  exact ⟨ha, hb, honly.hbm, honly.maintRun, honly.maintQueue⟩

/-- The end of an operation is shown in the arbiter's page alone. -/
theorem State.opEnded_role (s : State) (cls target r : Nat) (k : Bool) : (s.opEnded cls target r).role k = s.role k := by
  have hk : pgMast k = 0x1000 ∨ pgMast k = 0x2000 := by cases k <;> simp [pgMast]
  have hpage : pgArb = 0x3_0000 := rfl
  refine State.role_congr ?_
  rw [State.opEnded, State.event_reg _ _ _ (by omega) (by omega) (by omega), State.reg_setReg_ne _ _ (by omega)]
  rfl

/-- An update that passed, with nothing queued: both banks change and the standby is primary. -/
theorem State.updateDone_done {s : State} {m : Fin 2} (hruns : (s.maintRun.any fun k => k.cls == 7 && k.target == 0) = true)
    (hqueue : s.maintQueue = []) : (s.updateDone m).latch = some m ∧ (s.updateDone m).role (mastOf m) = 3 ∧
    (s.updateDone m).bankA = (!s.bankA) ∧ (s.updateDone m).bankB = (!s.bankB) ∧ (s.updateDone m).hbm = s.hbm := by
  obtain ⟨ha, hb, hhbm, hrun, hq⟩ := s.updated_view m
  obtain ⟨hhbm', -, ha', hb', hrun', hq', -⟩ := (s.updated m).becomePrimary_keeps m 2
  obtain ⟨hlatch, -, hrole, -⟩ := (s.updated m).becomePrimary_takes m 2
  rw [State.updateDone_eq]
  generalize (s.updated m).becomePrimary m 2 = t at *
  rw [State.endMaint_alone (by rw [hrun', hrun]; exact hruns) (hq'.trans (hq.trans hqueue))]
  have honly := t.onlyRegs_opEnded 7 0 1
  obtain ⟨hlatch', -, hbankA, hbankB, -⟩ := honly.latchView
  exact ⟨hlatch'.trans hlatch, (t.opEnded_role 7 0 1 _).trans hrole, hbankA.trans (ha'.trans ha), hbankB.trans (hb'.trans hb),
    honly.hbm.trans (hhbm'.trans hhbm)⟩

/-! ### MA_CTRL -/

theorem execMaCtrlWrite_open {s : State} {acc : Acc} {w : W64} (hopen : s.Open acc (pgArb + 0x100)) : execMaCtrlWrite acc w s = .next
    (if !(s.flag (pgArb + 0x100) 0) && (s.storeReg (pgArb + 0x100) w.toNat (accMask acc)).flag (pgArb + 0x100) 0 then
      (s.storeReg (pgArb + 0x100) w.toNat (accMask acc)).examineQueue [] (s.storeReg (pgArb + 0x100) w.toNat (accMask acc)).maintQueue
      else s.storeReg (pgArb + 0x100) w.toNat (accMask acc)) :=
  congrArg Host.Outcome.next (State.hostWrite_of_open hopen _)

end Sys2Proof.Machine

namespace Sys2Proof
open Machine

/-- Settles O57: a request by its class and the latch, the window by its change, the policy by what is due, an operation by how it ended. -/
theorem maintenanceRequests : Obligations.MaintenanceRequests := by
  unfold Obligations.MaintenanceRequests
  refine ⟨fun s acc w hopen hreq => ?request, fun s acc w hopen => ?ctrl,
    fun s cls g => ⟨fun hlive hmay hcls => ?policy, fun hlive hmay hcls => ?mapOut,
    fun h => execMaintRequest_idle h⟩, fun s dt g good hlive hruns => execMaintOpEnd_retrain hlive hruns good, fun s dt g hlive hruns =>
    ⟨execMaintOpEnd_update_failed hlive hruns, fun m hg hstandby hqueue => ?update⟩⟩
  case request =>
    have hasks {c : Nat} (hcls : (s.storeReg (pgArb + 0x108) w.toNat (accMask acc)).fld (pgArb + 0x108) 63 60 = c) (hc : c = 4 ∨ c = 5 ∨ c = 7) :=
      (State.maReq_asks hopen hreq hcls hc).trans (State.request_plain _ (show c ≠ 1 by omega) (show c ≠ 6 by omega))
    exact ⟨fun hcls => congrArg Host.Outcome.next (hasks hcls (by decide)), fun hcls => congrArg Host.Outcome.next (hasks hcls (by decide)),
      fun hcls => congrArg Host.Outcome.next (hasks hcls (by decide))⟩
  case ctrl =>
    have hwrite := execMaCtrlWrite_open (w := w) hopen
    refine ⟨fun h => hwrite.trans (congrArg _ (if_neg ?_)), fun hwas hnow => hwrite.trans (congrArg _ (if_pos ?_))⟩
    · rcases h with h | h <;> simp [h]
    · rw [hwas, hnow]
      rfl
  case policy =>
    obtain ⟨hprimary, hwindow, hdue⟩ := hmay
    exact (execMaintRequest_due hlive hprimary hwindow hdue).trans (congrArg _ (State.arbiter_plain _ hcls (State.policyDue_ne_permute hdue)))
  case mapOut =>
    obtain ⟨hprimary, hwindow, hdue⟩ := hmay
    exact (execMaintRequest_due hlive hprimary hwindow hdue).trans (congrArg _ (if_pos hcls))
  case update =>
    rw [hg] at hruns
    obtain ⟨hlatch, hrole, ha, hb, hhbm⟩ := State.updateDone_done (m := m) hruns hqueue
    exact ⟨_, execMaintOpEnd_update_done hlive (by rwa [hg]) hstandby, hlatch, hrole, ha, hb, hhbm.trans (s.tick_hbm dt)⟩

end Sys2Proof
end

section
/-! SUPPORT. What a fabric reset, a port that goes DOWN and a frame sent leave as it was: the registers below the partition pages (the global page,
the Mastheads', the Bare page but BR_STATUS, the host ports', the power pages), HBM, the input and the arbiter. -/
namespace Sys2Proof.Machine

/-- What stands beside the registers that a fabric reset does not reach. -/
structure BaseView where
  hbm : Mem
  inputOut : Bool
  maintRun : List MaintOp
  maintQueue : List MaintOp
  retired : Outside

/-- That part of a state. -/
def State.baseView (s : State) : BaseView := ⟨s.hbm, s.inputOut, s.maintRun, s.maintQueue, s.outside⟩

/-- The registers below the partition pages but BR_STATUS, and what `baseView` shows, are the same. -/
structure SameBase (s t : State) : Prop where
  reg : ∀ a, a < 0x2_0000 → a ≠ pgBare + 0x100 → t.reg a = s.reg a
  view : t.baseView = s.baseView

theorem OnlyRegs.baseView {s t : State} (h : OnlyRegs s t) : t.baseView = s.baseView := by
  obtain ⟨r, o, hst⟩ := h
  rw [hst]; rfl

section
variable {s t : State} (h : t.baseView = s.baseView)
include h

theorem hbm_of_baseView : t.hbm = s.hbm := congrArg BaseView.hbm h

theorem inputOut_of_baseView : t.inputOut = s.inputOut := congrArg BaseView.inputOut h

theorem maintRun_of_baseView : t.maintRun = s.maintRun := congrArg BaseView.maintRun h

theorem maintQueue_of_baseView : t.maintQueue = s.maintQueue := congrArg BaseView.maintQueue h

end

/-- A register update above the base registers. -/
theorem SameBase.of_onlyRegs {s t : State} (h : OnlyRegs s t) (hreg : ∀ a, a < 0x2_0000 → a ≠ pgBare + 0x100 → t.reg a = s.reg a) :
    SameBase s t := ⟨hreg, h.baseView⟩

namespace SameBase
variable {s t u : State}

theorem refl (s : State) : SameBase s s := ⟨fun _ _ _ => rfl, rfl⟩

theorem trans (h : SameBase s t) (k : SameBase t u) : SameBase s u :=
  ⟨fun a ha hb => (k.reg a ha hb).trans (h.reg a ha hb), k.view.trans h.view⟩

theorem ite (c : Prop) [Decidable c] (h : SameBase s t) (k : SameBase s u) : SameBase s (if c then t else u) := by
  split
  · exact h
  · exact k

/-- A fold whose steps keep the base keeps it. -/
theorem foldl_mem {α : Type} {f : State → α → State} (h : SameBase s t) (l : List α) (hf : ∀ v, ∀ x ∈ l, SameBase v (f v x)) :
    SameBase s (l.foldl f t) := by
  induction l generalizing t with
  | nil => exact h
  | cons x l ih =>
    exact ih (h.trans (hf t x List.mem_cons_self)) fun v y hy => hf v y (List.mem_cons_of_mem x hy)

theorem foldl {α : Type} {f : State → α → State} (h : SameBase s t) (l : List α) (hf : ∀ v x, SameBase v (f v x)) :
    SameBase s (l.foldl f t) := h.foldl_mem l fun v x _ => hf v x

/-- A table beside the registers replaced. -/
theorem beside (h : SameBase s t) (hregs : u.regs = t.regs) (hview : u.baseView = t.baseView) : SameBase s u :=
  h.trans ⟨fun a _ _ => by rw [State.reg, State.reg, hregs], hview⟩

theorem setReg (h : SameBase s t) {a : Nat} (ha : 0x2_0000 ≤ a) (v : Nat) : SameBase s (t.setReg a v) :=
  h.trans (.of_onlyRegs (onlyRegs_setReg ..) fun b hb _ => t.reg_setReg_ne v (by omega))

theorem setFld (h : SameBase s t) {a : Nat} (ha : 0x2_0000 ≤ a) (hi lo v : Nat) : SameBase s (t.setFld a hi lo v) := h.setReg ha _

theorem setFlag (h : SameBase s t) {a : Nat} (ha : 0x2_0000 ≤ a) (i : Nat) (b : Bool) : SameBase s (t.setFlag a i b) := h.setReg ha _

theorem event (h : SameBase s t) {pg : Nat} (hpg : 0x2_0000 ≤ pg) (i : Nat) : SameBase s (t.event pg i) :=
  h.trans (.of_onlyRegs (onlyRegs_event ..) fun b hb _ => t.event_reg pg i (by omega) (by omega) (by omega))

theorem bump (h : SameBase s t) {a : Nat} (ha : 0x2_0000 ≤ a) (n : Nat) : SameBase s (t.bump a n) := by
  have hbase : 0x2_0000 ≤ pageBase a := by unfold pageBase; omega
  exact h.trans (.of_onlyRegs (onlyRegs_bump ..) fun b hb _ => t.bump_reg a n (by omega) (by omega) (by omega) (by omega))

theorem fault (h : SameBase s t) {pg : Nat} (hpg : 0x2_0000 ≤ pg) (hlt : pg < 0x200_0000) (code info : Nat) :
    SameBase s (t.fault pg code info) :=
  h.trans (.of_onlyRegs (onlyRegs_fault ..) fun b hb hne =>
    t.fault_reg pg code info (by omega) (by omega) (.inl (by omega)) hne (by omega) hlt)

theorem faultEv (h : SameBase s t) {pg : Nat} (hpg : 0x2_0000 ≤ pg) (hlt : pg < 0x200_0000) (code info ev : Nat) :
    SameBase s (t.faultEv pg code info ev) := (h.fault hpg hlt code info).event hpg ev

/-- Registers of a page above the base back at reset. -/
theorem resetRegs (h : SameBase s t) {lo : Nat} (hlo : 0x2_0000 ≤ lo) (hi : Nat) : SameBase s (t.resetRegs lo hi) := by
  refine h.trans ⟨fun b hb _ => ?_, rfl⟩
  rw [State.reg_resetRegs, if_neg (by omega)]

end SameBase

theorem pgPart_ge (p : Nat) : 0x2_0000 ≤ pgPart p := by unfold pgPart; omega
theorem pgPort_ge (q : Nat) : 0x10_0000 ≤ pgPort q := by unfold pgPort; omega
theorem pgDoor_ge (j : Nat) : 0x200_0000 ≤ pgDoor j := by unfold pgDoor; omega
theorem pgEngine_ge (d : Nat) : 0x12_0000 ≤ pgEngine d := by unfold pgEngine; omega

theorem firstBelow_lt {n p : Nat} {f : Nat → Bool} (h : firstBelow n f = some p) : p < n := List.mem_range.mp (List.mem_of_find?_eq_some h)

theorem State.partOfJob_lt {s : State} {j p : Nat} (h : s.partOfJob j = some p) : p < 8 := firstBelow_lt h

/-! ### Frames -/

namespace SameBase
variable {s t : State}

theorem setPort (h : SameBase s t) (q : Nat) (x : PortState) : SameBase s (t.setPort q x) := h.beside rfl rfl

theorem emit (h : SameBase s t) (o : Out) : SameBase s (t.emit o) := h.beside rfl rfl

theorem fresh (h : SameBase s t) : SameBase s t.fresh.2 := h.beside rfl rfl

theorem emitFrame (h : SameBase s t) (q vc : Nat) (f : Frame) : SameBase s (t.emitFrame q vc f) := .ite _ (h.fresh.emit _) (h.emit _)

theorem norms (h : SameBase s t) (l : List NormRec) : SameBase s { t with norms := l } := h.beside rfl rfl

theorem inject (h : SameBase s t) (l : List InjTok) : SameBase s { t with inject := l } := h.beside rfl rfl

theorem setEngine (h : SameBase s t) (d : Nat) (x : EngineState) : SameBase s (t.setEngine d x) := h.beside rfl rfl

theorem jobEvent (h : SameBase s t) (p j i : Nat) : SameBase s (t.jobEvent p j i) :=
  (h.setFlag (by have := pgPart_ge p; omega) j true).event (pgPart_ge p) i

theorem partFault (h : SameBase s t) {p : Nat} (hp : p < 8) (code info : Nat) : SameBase s (t.partFault p code info) := by
  have hfault := h.fault (pgPart_ge p) (show pgPart p < 0x200_0000 by unfold pgPart; omega) code info
  exact .ite _ (hfault.event (pgPart_ge p) 5) hfault

theorem stDrop (h : SameBase s t) (q : Nat) : SameBase s (t.stDrop q) :=
  (h.bump (by have := pgPort_ge q; omega) 1).event (by have := pgPort_ge q; omega) 4

end SameBase

theorem State.freeSlot_sameBase (s : State) (q vc : Nat) : SameBase s (s.freeSlot q vc) := by
  unfold State.freeSlot
  extract_lets x n x1
  exact .ite _ (.ite _ (((SameBase.refl s).setPort ..).foldl _ fun t v => (SameBase.refl t).emit _) (.refl s)) ((SameBase.refl s).setPort ..)

theorem State.dropHeld_sameBase (s : State) (g : Frame → Bool) : SameBase s (s.dropHeld g) := by
  have hkept : SameBase s { s with heldFrames := s.heldFrames.filter fun e => !(g e.2) } := (SameBase.refl s).beside rfl rfl
  exact hkept.foldl _ fun t e => t.freeSlot_sameBase e.1 (fVc e.2)

theorem State.putFrame_sameBase (s : State) (q : Nat) (f : TxFrame) (seq : Nat) : SameBase s (s.putFrame q f seq) := by
  have hq := pgPort_ge q
  have hcredit : SameBase s (if s.ethernet q then s else s.setFld (pgPort q + 0x180 + 8 * f.vc) 63 56 (s.credits q f.vc - 1)) :=
    .ite _ (.refl s) ((SameBase.refl s).setFld (by omega) ..)
  exact (((hcredit.setPort ..).bump (by omega) 1).bump (by omega) _).emitFrame ..

theorem State.resend_sameBase (s : State) (q : Nat) (e : Sent) : SameBase s (s.resend q e) :=
  (((SameBase.refl s).setPort ..).bump (by have := pgPort_ge q; omega) 1).trans (State.putFrame_sameBase ..)

theorem State.sendHead_sameBase (s : State) (q vc : Nat) : SameBase s (s.sendHead q vc) := by
  unfold State.sendHead
  dsimp only
  split
  · exact s.resend_sameBase ..
  · exact .refl s
  · exact ((SameBase.refl s).setPort ..).trans (State.putFrame_sameBase ..)

theorem State.pumpPort_sameBase (s : State) (q n : Nat) : SameBase s (s.pumpPort q n) := by
  induction n generalizing s with
  | zero => exact .refl s
  | succ n ih =>
    unfold State.pumpPort
    split
    · exact .refl s
    · exact (s.sendHead_sameBase ..).trans (ih _)

theorem State.pushFrame_sameBase (s : State) (q : Nat) (f : TxFrame) : SameBase s (s.pushFrame q f) :=
  ((SameBase.refl s).setPort ..).trans (State.pumpPort_sameBase ..)

theorem State.beginHold_sameBase (s : State) (kind : Nat) {p : Nat} (hp : p < 8) (i job : Nat) : SameBase s (s.beginHold kind p i job) := by
  have hheld : SameBase s { s with regHeldAt := Tab.put s.regHeldAt (8 * kind + p) (s.now + 1) } := (SameBase.refl s).beside rfl rfl
  exact .ite _ hheld ((hheld.partFault hp ..).event (pgPart_ge p) 9)

theorem SameBase.setBucket {s t : State} (h : SameBase s t) (kind p i : Nat) (b : Bucket) : SameBase s (t.setBucket kind p i b) := h.beside rfl rfl

theorem State.letIn_sameBase (s : State) (kind : Nat) {p : Nat} (hp : p < 8) (i job cls bytes : Nat) (r : Held) :
    SameBase s (s.letIn kind p i job cls bytes r).2 := by
  unfold State.letIn
  dsimp only
  split
  · exact .refl s
  split
  · exact (SameBase.ite _ (s.beginHold_sameBase kind hp i job) (.refl s)).setBucket ..
  · exact (SameBase.refl s).setBucket ..

theorem State.enqueue_sameBase (s : State) (q : Nat) (f : TxFrame) : SameBase s (s.enqueue q f) := by
  unfold State.enqueue
  split
  · exact s.pushFrame_sameBase ..
  split
  · exact s.pushFrame_sameBase ..
  next p hpart =>
    have hin := s.letIn_sameBase 2 (State.partOfJob_lt hpart) q f.job 0 f.payload.length (.frame q f)
    exact .ite _ (hin.trans (State.pushFrame_sameBase ..)) hin

theorem State.moveFrames_sameBase (s : State) (q : Nat) : SameBase s (s.moveFrames q) := by
  unfold State.moveFrames
  extract_lets
  refine ((SameBase.refl s).setPort ..).foldl _ fun t f => ?_
  split <;> exact t.pushFrame_sameBase ..

theorem State.burstAt_sameBase (s : State) (k q job : Nat) (last : Bool) : SameBase s (s.burstAt k q job last) := by
  have hend : SameBase s { s with burstPort := Tab.del s.burstPort k } := (SameBase.refl s).beside rfl rfl
  exact .ite _ (.ite _ hend (hend.trans (State.moveFrames_sameBase ..))) ((SameBase.refl s).beside rfl rfl)

theorem State.sendPeer_sameBase (s : State) (i : Nat) (f : TxFrame) (chan : Option Nat) (dir : Bool) : SameBase s (s.sendPeer i f chan dir) := by
  unfold State.sendPeer
  split
  · exact (SameBase.refl s).stDrop _
  dsimp only
  split
  · exact (s.enqueue_sameBase ..).trans (State.burstAt_sameBase ..)
  · exact s.enqueue_sameBase ..

theorem State.sendCtrl_sameBase (s : State) (i : Nat) (f : TxFrame) : SameBase s (s.sendCtrl i f) := s.sendPeer_sameBase ..

/-! ### A fabric reset -/

theorem State.refreshRing_sameBase (s : State) (j : Nat) : SameBase s (s.refreshRing j) := by
  have hj := pgDoor_ge j
  have hset : ∀ v, SameBase s (s.setFld (ringSt j) 63 62 v) := fun v => (SameBase.refl s).setFld (by unfold ringSt; omega) 63 62 v
  exact .ite _ (hset 0) (.ite _ (.refl s) (hset _))

theorem State.haltRing_sameBase (s : State) (j cause code : Nat) : SameBase s (s.haltRing j cause code) := by
  have hj : 0x2_0000 ≤ pgDoor j + 0x18 := by have := pgDoor_ge j; omega
  have hset := (((SameBase.refl s).setFld hj 63 62 3).setFld hj 60 58 cause).setFld hj 47 32 code
  unfold State.haltRing
  dsimp only
  split
  · exact hset.jobEvent ..
  · exact hset

theorem State.restartRing_sameBase (s : State) (j code : Nat) : SameBase s (s.restartRing j code) := by
  have hj : 0x2_0000 ≤ ringSt j := by unfold ringSt; have := pgDoor_ge j; omega
  unfold State.restartRing
  refine .ite _ ?_ (.refl s)
  have hback : SameBase s (((s.setFld (ringSt j) 15 0 (s.fld (ringSt j) 31 16)).setRing j []).dropAsk (askKey (.ring j))) :=
    ((SameBase.refl s).setFld hj ..).beside rfl rfl
  exact .ite _ ((hback.setFld hj ..).trans (State.refreshRing_sameBase ..)) (hback.trans (State.haltRing_sameBase ..))

theorem State.stopRun_sameBase (s : State) (d : Nat) (r : CollRun) (slots : List Nat) : SameBase s (s.stopRun d r slots) := by
  unfold State.stopRun
  extract_lets x g s1 dropped s2 s3
  have h1 : SameBase s s1 := (SameBase.refl s).beside rfl rfl
  have hdrop : SameBase s dropped := h1.trans (State.dropHeld_sameBase ..)
  have h2 : SameBase s s2 := hdrop.norms _
  exact (h2.foldl slots fun t i => t.sendCtrl_sameBase ..).event (by have := pgEngine_ge d; omega) 3

theorem State.spoilPins_sameBase (s : State) (ys : List Nat) : SameBase s (s.spoilPins ys) := by
  refine (SameBase.refl s).foldl _ fun t e => ?_
  split
  · dsimp only
    exact .ite _ ((SameBase.refl t).beside rfl rfl) (.refl t)
  · exact .refl t

theorem State.clearFabric_sameBase (s : State) (ys js : List Nat) : SameBase s (s.clearFabric ys js) := (SameBase.refl s).beside rfl rfl

theorem State.clearBridge_sameBase (s : State) (js : List Nat) : SameBase s (s.clearBridge js) := by
  unfold State.clearBridge
  extract_lets stays s0 mine s1 s2 s3
  have h0 : SameBase s s0 := s.dropHeld_sameBase _
  have h1 : SameBase s s1 := by
    refine SameBase.foldl (h0.inject (s0.inject.filter fun x => !(mine x))) (s0.inject.filter mine) fun t x => ?_
    split
    · exact t.freeSlot_sameBase ..
    · exact .refl t
  have h2 : SameBase s s2 := h1.foldl _ fun t e => (SameBase.refl t).setPort ..
  have h3 : SameBase s s3 := h2.foldl _ fun t e => (SameBase.refl t).beside rfl rfl
  exact h3.beside rfl rfl

theorem State.resetStep_sameBase (s : State) (p j : Nat) : SameBase s (s.resetStep p j) := by
  have hp := pgPart_ge p
  unfold State.resetStep
  extract_lets a st alone s1 s2 b s3
  have h1 : SameBase s s1 := .ite _ (.refl s) ((SameBase.refl s).setFld (by omega) ..)
  have h2 : SameBase s s2 := h1.beside rfl rfl
  have h3 : SameBase s s3 := (h2.setFld (by omega) ..).setFld (by omega) ..
  exact (SameBase.ite _ (h3.setFld (by omega) ..) h3).setFlag (by omega) ..

theorem State.fabricReset_sameBase (s : State) (p code : Nat) : SameBase s (s.fabricReset p code) := by
  unfold State.fabricReset
  extract_lets ys js held queued hit s1 s2 s3 s4
  dsimp only
  have h1 : SameBase s s1 := ((s.spoilPins_sameBase ys).trans (State.clearFabric_sameBase ..)).trans (State.clearBridge_sameBase ..)
  have h2 : SameBase s s2 := h1.beside rfl rfl
  have h3 : SameBase s s3 := h2.foldl js fun t j => t.resetStep_sameBase p j
  have h4 : SameBase s s4 := h3.foldl _ fun t d => ((SameBase.refl t).setEngine d _).foldl _ fun u r => u.stopRun_sameBase d r _
  have h5 := h4.fresh.foldl ys (f := fun t y => t.setCore y ((t.core y).fabricReset js (Config.freeWord s4.fresh.1).toNat code))
    fun t y => (SameBase.refl t).beside rfl rfl
  have h6 := h5.foldl hit (f := fun t j => t.restartRing j code) fun t j => t.restartRing_sameBase j code
  exact (h6.event (pgPart_ge p) 6).beside rfl rfl

/-! ### A port that goes DOWN -/

theorem State.portDown_sameBase (s : State) {q : Nat} (hq : q < 32) (cause : Nat) : SameBase s (s.portDown q cause) := by
  have hlo := pgPort_ge q
  have hhi : pgPort q < 0x200_0000 := by unfold pgPort; omega
  have ha : 0x2_0000 ≤ pgPort q + 0x108 := by omega
  unfold State.portDown
  extract_lets a was s1 port s2 s3
  have h1 : SameBase s s1 := ((((SameBase.refl s).setFld ha ..).setFld ha ..).setFld ha ..).setFld ha ..
  have h2 : SameBase s s2 := h1.setPort q _
  exact .ite _ h2 ((h2.fault (by omega) hhi ..).event (by omega) 1)

theorem State.portLost_sameBase (s : State) {q : Nat} (hq : q < 32) (cause : Nat) : SameBase s (s.portLost q cause) :=
  (s.portDown_sameBase hq cause).trans (State.moveFrames_sameBase ..)

/-! ### A safe stop -/

/-- What a safe stop does before it writes BR_STATUS: fabric resets, ports DOWN. -/
def State.fabricStopped (s : State) (code : Nat) : State :=
  (List.range 32).foldl (fun (t : State) q => t.portDown q 6)
    ((List.range 8).foldl (fun (t : State) p => if t.partOn p then t.fabricReset p code else t) s)

theorem State.fabricStopped_sameBase (s : State) (code : Nat) : SameBase s (s.fabricStopped code) :=
  ((SameBase.refl s).foldl _ fun t p => .ite _ (t.fabricReset_sameBase p code) (.refl t)).foldl_mem _
    fun t _ hq => t.portDown_sameBase (List.mem_range.mp hq) 6

/-- The domains go off, and BR_STATUS shows the stop. -/
def State.domainsOff (s : State) : State := (List.range 72).foldl (fun (t : State) p => t.setFlag (pgPower 1 + 0x100 + 8 * p) 63 false) s

def State.showStop (s : State) : State := ((s.setFlag (pgBare + 0x100) 62 true).setFld (pgBare + 0x100) 56 53 0).setStage 8

/-- PWR_OK goes low. -/
def State.pwrLow (s : State) : State := { s with pwrOk := false }

theorem State.pwrLow_reg (s : State) (a : Nat) : s.pwrLow.reg a = s.reg a := rfl

theorem State.pwrLow_baseView (s : State) : s.pwrLow.baseView = s.baseView := rfl

theorem State.pwrLow_pwrOk (s : State) : s.pwrLow.pwrOk = false := rfl

theorem State.safeStop_eq (s : State) (code : Nat) : s.safeStop code = (s.fabricStopped code).domainsOff.showStop.pwrLow := rfl

end Sys2Proof.Machine
end

section
/-! SUPPORT. BR_STATUS through a recorded fault, the two wide resets and the safe stop (R402, R416, R433), and the power input (R401, R403, R407). -/
namespace Sys2Proof.Machine

/-! ### BR_STATUS -/

theorem State.logFault_reg (s : State) (pg code info sev : Nat) (first : Bool) {a : Nat} (ha : a < 0x4_0000) :
    (s.logFault pg code info sev first).reg a = s.reg a := by
  have hlog : ∀ n, 0x4_1000 ≤ logAddr (n % 256) := fun n => by unfold logAddr; omega
  have hentry := hlog (s.fld (pgMon + 0x108) 31 0)
  have hmon : pgMon = 0x4_0000 := rfl
  unfold State.logFault
  dsimp only
  rw [State.reg_setFld_ne _ _ _ _ (by omega), State.reg_setReg_ne _ _ (by omega), State.reg_setReg_ne _ _ (by omega),
    State.reg_setReg_ne _ _ (by omega), State.reg_setReg_ne _ _ (by omega)]

theorem State.yardHit_reg (s : State) (y : Nat) {a : Nat} (ha : a < 0x4_0000) : (s.yardHit y).reg a = s.reg a := by
  have hmon : pgMon = 0x4_0000 := rfl
  unfold State.yardHit
  extract_lets t
  have hhit : t.reg a = s.reg a := s.bumpFld_reg _ _ _ _ (by omega)
  exact reg_ite _ ((t.event_reg _ _ (by omega) (by omega) (by omega)).trans hhit) hhit

/-- What a fault does to BR_STATUS: FAULT_N, where its severity is DEVICE (R416). -/
theorem State.fault_bare (s : State) {pg : Nat} (hne : pgBare + 0x100 ≠ pg + 0x38 ∧ pgBare + 0x100 ≠ pg + 0x40) (code info : Nat) :
    ∃ u : State, u.reg (pgBare + 0x100) = s.reg (pgBare + 0x100) ∧
      s.fault pg code info = if (faultSev code).code = 4 then u.setFlag (pgBare + 0x100) 62 true else u := by
  have hmon : pgMon = 0x4_0000 := rfl
  have hsev : (faultSev code).code < 5 := by cases faultSev code <;> decide
  have hlow : pgBare + 0x100 < 0x4_0000 := by decide
  unfold State.fault
  extract_lets first s1 sev s2 s3 s4
  have hsev' : sev < 5 := hsev
  have h1 : s1.reg (pgBare + 0x100) = s.reg (pgBare + 0x100) :=
    reg_ite _ ((State.reg_setReg_ne _ _ hne.2).trans (State.reg_setReg_ne _ _ hne.1)) (s.bumpFld_reg _ _ _ _ hne.1)
  have hbase : pageBase (pgMon + 0x110 + 8 * sev) = 0x4_0000 := by unfold pageBase; omega
  have h2 : s2.reg (pgBare + 0x100) = s.reg (pgBare + 0x100) :=
    (s1.bump_reg _ _ (by omega) (by omega) (by omega) (by omega)).trans h1
  have h3 : s3.reg (pgBare + 0x100) = s.reg (pgBare + 0x100) := reg_ite _ ((s2.logFault_reg _ _ _ _ _ hlow).trans h2) h2
  have h4 : s4.reg (pgBare + 0x100) = s.reg (pgBare + 0x100) := by
    unfold s4
    split
    · exact (s3.yardHit_reg _ hlow).trans h3
    · exact h3
  exact ⟨s4, h4, rfl⟩

theorem State.fld_setFlag_apart (s : State) (a : Nat) {i hi lo : Nat} (b : Bool) (hi64 : i < 64) (hl : lo ≤ hi) (h : hi < i ∨ i < lo) :
    (s.setFlag a i b).fld a hi lo = s.fld a hi lo := s.fld_setFld_apart a _ hi64 (Nat.le_refl i) hl h

theorem State.fault_stage (s : State) {pg : Nat} (hne : pgBare + 0x100 ≠ pg + 0x38 ∧ pgBare + 0x100 ≠ pg + 0x40) (code info : Nat) :
    (s.fault pg code info).stage = s.stage := by
  obtain ⟨u, hu, hfault⟩ := s.fault_bare hne code info
  rw [hfault, State.stage]
  split
  · exact (u.fld_setFlag_apart _ _ (by decide) (by decide) (by decide)).trans (State.fld_congr hu ..)
  · exact State.fld_congr hu ..

theorem State.faultEv_stage (s : State) {pg : Nat} (hne : pgBare + 0x100 ≠ pg + 0x38 ∧ pgBare + 0x100 ≠ pg + 0x40)
    (hev : pgBare + 0x100 ≠ pg + 0x18 ∧ pgBare + 0x100 ≠ pg + 0x28) (code info ev : Nat) : (s.faultEv pg code info ev).stage = s.stage :=
  (State.fld_congr (State.event_reg _ _ _ hev.1 hev.2 (by decide)) ..).trans (s.fault_stage hne code info)

/-! ### A safe stop -/

theorem State.onlyRegs_domainsOff (s : State) : OnlyRegs s s.domainsOff := onlyRegs_foldl _ (fun _ _ => onlyRegs_setFlag ..) _ _

theorem State.onlyRegs_setStage (s : State) (n : Nat) : ∃ b : Nat, OnlyRegs { s with stageNs := b } (s.setStage n) := by
  unfold State.setStage
  split
  · exact ⟨s.stageNs, .refl s⟩
  · exact ⟨0, (onlyRegs_setFld ..).trans (onlyRegs_event ..)⟩

theorem State.reg_setStage_ne (s : State) (n : Nat) {a : Nat} (ha : a ∉ [pgBare + 0x100, pgBare + 0x18, pgBare + 0x28]) (hlt : a < 0x201_0000) :
    (s.setStage n).reg a = s.reg a := by
  simp only [List.mem_cons, List.not_mem_nil, or_false, not_or] at ha
  obtain ⟨hst, hev, hpend⟩ := ha
  unfold State.setStage
  exact reg_ite _ rfl ((State.event_reg _ _ _ hev hpend hlt).trans (State.reg_setFld_ne _ _ _ _ hst))

theorem State.setStage_baseView (s : State) (n : Nat) : (s.setStage n).baseView = s.baseView := by
  obtain ⟨b, hset⟩ := s.onlyRegs_setStage n
  exact hset.baseView

theorem State.showStop_baseView (s : State) : s.showStop.baseView = s.baseView :=
  (State.setStage_baseView ..).trans ((onlyRegs_setFlag ..).trans (onlyRegs_setFld ..)).baseView

theorem State.domainsOff_reg (s : State) {a : Nat} (ha : a < 0x1_1000) : s.domainsOff.reg a = s.reg a := by
  have hpage : pgPower 1 = 0x1_1000 := rfl
  exact foldl_keeps_view (fun u => u.reg a) _ _ s fun u p _ => u.reg_setFlag_ne _ _ (show a ≠ pgPower 1 + 0x100 + 8 * p by omega)

theorem State.showStop_reg (s : State) {a : Nat} (ha : a ∉ [pgBare + 0x100, pgBare + 0x18, pgBare + 0x28]) (hlt : a < 0x201_0000) :
    s.showStop.reg a = s.reg a := by
  have hne : a ≠ pgBare + 0x100 := fun h => ha (h ▸ List.mem_cons_self)
  exact (State.reg_setStage_ne _ _ ha hlt).trans ((State.reg_setFld_ne _ _ _ _ hne).trans (State.reg_setFlag_ne _ _ _ hne))

/-- BR_STATUS of STAGE `n` entered, but for STAGE. -/
theorem State.flag_setStage (s : State) {n i : Nat} (hi : i < 57 ∨ 60 < i) : (s.setStage n).flag (pgBare + 0x100) i = s.flag (pgBare + 0x100) i := by
  unfold State.setStage
  split
  · rfl
  · rw [State.flag_congr (State.event_reg _ _ _ (by decide) (by decide) (by decide)), State.flag_eq_fld, State.flag_eq_fld,
      State.fld_setFld_apart _ _ _ (by decide) (by decide) (Nat.le_refl i) hi]
    rfl

theorem State.safeStop_faultN (s : State) (code : Nat) : (s.safeStop code).flag (pgBare + 0x100) 62 = true := by
  rw [State.safeStop_eq, State.flag_congr (State.pwrLow_reg ..)]
  generalize (s.fabricStopped code).domainsOff = u
  unfold State.showStop
  rw [State.flag_setStage _ (by decide), State.flag_eq_fld, State.fld_setFld_apart _ _ _ (by decide) (by decide) (by decide) (by decide),
    ← State.flag_eq_fld, State.flag_setFlag_self _ _ _ _ (by decide)]

theorem State.safeStop_inputOut (s : State) (code : Nat) : (s.safeStop code).inputOut = s.inputOut := by
  have hview := (State.showStop_baseView _).trans ((s.fabricStopped code).onlyRegs_domainsOff.baseView.trans (s.fabricStopped_sameBase code).view)
  rw [State.safeStop_eq]
  exact inputOut_of_baseView ((State.pwrLow_baseView _).trans hview)

/-- A register of the power page 0 through a safe stop. -/
theorem State.safeStop_reg (s : State) (code : Nat) {a : Nat} (hlo : pgPower 0 ≤ a) (hhi : a < pgPower 1) : (s.safeStop code).reg a = s.reg a := by
  have hpages : pgPower 0 = 0x1_0000 ∧ pgPower 1 = 0x1_1000 ∧ pgBare = 0x3000 := ⟨rfl, rfl, rfl⟩
  rw [State.safeStop_eq, State.pwrLow_reg]
  have hne : a ∉ [pgBare + 0x100, pgBare + 0x18, pgBare + 0x28] := by
    simp only [List.mem_cons, List.not_mem_nil, or_false]
    omega
  exact (State.showStop_reg _ hne (by omega)).trans ((State.domainsOff_reg _ (by omega)).trans
    ((s.fabricStopped_sameBase code).reg a (by omega) (by omega)))

/-! ### Wide resets -/

theorem State.reg_outer_nil (s : State) (m : Mem) (n a : Nat) : (s.outer [] m n).reg a = (regReset a).toNat := reset_reg a

/-- The registers a cold reset leaves: BR_LOG and BR_RESET_TIME, and everything else at its reset value (R433). -/
theorem State.coldReset_log (s : State) (type source : Nat) :
    (s.coldReset type source).reg (pgBare + 0x110) = (fieldAt 61 type + fieldAt 58 source) % 2 ^ 64 := by
  unfold State.coldReset
  rw [State.reg_setReg_ne _ _ (by decide), State.reg_setReg_self]

theorem State.coldReset_time (s : State) (type source : Nat) :
    (s.coldReset type source).reg (pgBare + 0x118) = if type = 1 then 0 else s.now := by
  unfold State.coldReset
  rw [State.reg_setReg_self, Nat.mod_eq_of_lt]
  split
  · decide
  · exact s.reg_lt _

theorem State.coldReset_reg (s : State) (type source : Nat) {a : Nat} (hlog : a ≠ pgBare + 0x110) (htime : a ≠ pgBare + 0x118) :
    (s.coldReset type source).reg a = (regReset a).toNat := by
  unfold State.coldReset
  rw [State.reg_setReg_ne _ _ htime, State.reg_setReg_ne _ _ hlog, State.reg_outer_nil]

theorem State.coldReset_stage (s : State) (type source : Nat) : (s.coldReset type source).stage = 1 := by
  rw [State.stage, State.fld, s.coldReset_reg type source (by decide) (by decide)]
  decide

/-- TYPE of BR_LOG as it is written. -/
theorem bits_resetLog {type source : Nat} (htype : type < 8) (hsource : source < 8) :
    bits ((fieldAt 61 type + fieldAt 58 source) % 2 ^ 64) 63 61 = type := by
  unfold bits fieldAt
  omega

theorem State.coldReset_resetType (s : State) {type source : Nat} (htype : type < 8) (hsource : source < 8) :
    (s.coldReset type source).resetType = type := by
  rw [State.resetType, State.fld, State.coldReset_log, bits_resetLog htype hsource]

theorem State.coldReset_retired (s : State) (type source : Nat) :
    (s.coldReset type source).retiredA = s.retiredA ∧ (s.coldReset type source).retiredB = s.retiredB :=
  ⟨congrArg Outside.retiredA (s.coldReset_outside type source), congrArg Outside.retiredB (s.coldReset_outside type source)⟩

/-- Both Mastheads boot. -/
def State.mastsBoot (s : State) : State := (s.setFld (pgMast false + 0x100) 63 61 1).setFld (pgMast true + 0x100) 63 61 1

theorem State.mastsBoot_reg (s : State) {a : Nat} (hA : a ≠ pgMast false + 0x100) (hB : a ≠ pgMast true + 0x100) : s.mastsBoot.reg a = s.reg a :=
  (State.reg_setFld_ne _ _ _ _ hB).trans (State.reg_setFld_ne _ _ _ _ hA)

/-- What a warm reset leaves once the map-outs have ended, as they do in `t`, before BR_LOG and the stage. -/
def State.warmKeeps (t : State) : State :=
  { t.outer (warmRegs t.regs) t.hbm t.freeCtr with
    timeOn := t.timeOn, pwrOk := true, hostMsixA := t.hostMsixA, hostMsixB := t.hostMsixB,
    hostCfgA := t.hostCfgA, hostCfgB := t.hostCfgB, tsyncGood := t.tsyncGood, tsyncNs := t.tsyncNs, slewLeft := t.slewLeft,
    semSince := t.semSince, rowCe := t.rowCe, energyRem := t.energyRem, cagesOff := t.cagesOff
    oscOut := t.oscOut.filter (· == 2), relock := if t.oscOut.contains 2 then [0, 1] else [] }

/-- The map-outs that run end. -/
def State.mapOutsEnd (s : State) : State := (s.maintRun.filter fun m => m.cls == 1).foldl (fun (t : State) m => t.endMapOut m.target) s

theorem State.warmReset_eq (s : State) (source : Nat) : s.warmReset source =
    (((s.mapOutsEnd.warmKeeps.setReg (pgBare + 0x110) (fieldAt 61 3 + fieldAt 58 source)).setReg (pgBare + 0x118) s.now).setStage 2).mastsBoot := rfl

theorem State.warmReset_stage (s : State) (source : Nat) : (s.warmReset source).stage = 2 := by
  rw [State.warmReset_eq]
  exact (State.fld_congr (State.mastsBoot_reg _ (by decide) (by decide)) ..).trans (State.setStage_stage _ 2 (by decide))

theorem State.warmReset_reg (s : State) (source : Nat) {a : Nat} (hmast : a ≠ pgMast false + 0x100 ∧ a ≠ pgMast true + 0x100)
    (hbare : a ∉ [pgBare + 0x100, pgBare + 0x18, pgBare + 0x28]) (hlt : a < 0x201_0000) : (s.warmReset source).reg a =
      ((s.mapOutsEnd.warmKeeps.setReg (pgBare + 0x110) (fieldAt 61 3 + fieldAt 58 source)).setReg (pgBare + 0x118) s.now).reg a := by
  rw [State.warmReset_eq, State.mastsBoot_reg _ hmast.1 hmast.2, State.reg_setStage_ne _ _ hbare hlt]

theorem State.warmReset_resetType (s : State) {source : Nat} (hsource : source < 8) : (s.warmReset source).resetType = 3 := by
  rw [State.resetType, State.fld, State.warmReset_reg _ _ (by decide) (by decide) (by decide), State.reg_setReg_ne _ _ (by decide),
    State.reg_setReg_self, bits_resetLog (by decide) hsource]

/-- What a register update of a warm reset leaves: PWR_OK high, HBM. -/
theorem OnlyRegs.pwrOk {s t : State} (h : OnlyRegs s t) : t.pwrOk = s.pwrOk := by
  obtain ⟨r, o, hst⟩ := h
  rw [hst]

theorem State.setStage_pwrOk (s : State) (n : Nat) : (s.setStage n).pwrOk = s.pwrOk := by
  obtain ⟨b, hset⟩ := s.onlyRegs_setStage n
  exact hset.pwrOk

theorem State.warmReset_pwrOk (s : State) (source : Nat) : (s.warmReset source).pwrOk = true := by
  rw [State.warmReset_eq]
  exact ((onlyRegs_setFld ..).trans (onlyRegs_setFld ..)).pwrOk.trans (State.setStage_pwrOk ..)

/-! ### The input -/

/-- The input noted as out, or as there. -/
def State.setInput (s : State) (out : Bool) : State := { s with inputOut := out }

theorem State.setInput_eq (s : State) (b : Bool) : ({ s with inputOut := b } : State) = s.setInput b := rfl

theorem State.setInput_reg (s : State) (b : Bool) (a : Nat) : (s.setInput b).reg a = s.reg a := rfl

theorem State.setInput_inputOut (s : State) (b : Bool) : (s.setInput b).inputOut = b := rfl

def State.setGan (s : State) (off : Bool) : State := { s with ganOff := off }

theorem State.setGan_eq (s : State) (b : Bool) : ({ s with ganOff := b } : State) = s.setGan b := rfl

theorem State.setGan_reg (s : State) (b : Bool) (a : Nat) : (s.setGan b).reg a = s.reg a := rfl

theorem State.setGan_ganOff (s : State) (b : Bool) : (s.setGan b).ganOff = b := rfl

/-- VIN shown, and the input out. -/
def State.inputLost (s : State) (v : Nat) : State := (s.seeVin v).setInput true

theorem State.inputLost_reg (s : State) (v a : Nat) : (s.inputLost v).reg a = (s.seeVin v).reg a := State.setInput_reg ..

theorem State.inputLost_inputOut (s : State) (v : Nat) : (s.inputLost v).inputOut = true := State.setInput_inputOut ..

/-- The power-loss record is in both flash devices. -/
def State.recordLoss (s : State) : State := { s with powerLoss := true }

theorem State.recordLoss_reg (s : State) (a : Nat) : s.recordLoss.reg a = s.reg a := rfl

theorem State.recordLoss_powerLoss (s : State) : s.recordLoss.powerLoss = true := rfl

theorem State.recordLoss_pins (s : State) : s.recordLoss.pwrOk = s.pwrOk ∧ s.recordLoss.inputOut = s.inputOut := ⟨rfl, rfl⟩

/-- The state in which the stop of a lost input begins. -/
def State.inputFault (s : State) (v code ev : Nat) : State := (s.inputLost v).faultEv (pgPower 0) code v ev

theorem State.loseInput_eq (s : State) (v code ev : Nat) : s.loseInput v code ev =
    if (s.inputFault v code ev).stage = 8 then s.inputFault v code ev
    else (((s.inputFault v code ev).bump (pgPower 0 + 0x130) 1).safeStop code).recordLoss := rfl

theorem State.seeVin_stage (s : State) (v : Nat) : (s.seeVin v).stage = s.stage := State.fld_congr (State.reg_setFld_ne _ _ _ _ (by decide)) ..

theorem State.inputFault_stage (s : State) (v code ev : Nat) : (s.inputFault v code ev).stage = s.stage :=
  (State.faultEv_stage _ (by decide) (by decide) _ _ _).trans ((State.fld_congr (s.inputLost_reg v _) ..).trans (s.seeVin_stage v))

theorem State.inputFault_inputOut (s : State) (v code ev : Nat) : (s.inputFault v code ev).inputOut = true :=
  (inputOut_of_baseView (onlyRegs_faultEv ..).baseView).trans (s.inputLost_inputOut v)

theorem State.inputFault_vin (s : State) {v : Nat} (hv : v < 2 ^ 16) (code ev : Nat) : (s.inputFault v code ev).fld pwrStatus 63 48 = v := by
  rw [State.inputFault, State.fld_congr (State.faultEv_reg _ _ _ _ _ (by decide) (by decide) (by decide) (by decide) (by decide) (by decide)
    (by decide) (by decide)), State.fld_congr (State.inputLost_reg ..), State.seeVin, State.fld_setFld_self _ _ _ _ _ (by decide) (by decide),
    Nat.mod_eq_of_lt hv]

/-- The device whose input is lost, as O54 states it. -/
structure InputStopped (t : State) (v : Nat) : Prop where
  stage : t.stage = 8
  faultN : t.flag (pgBare + 0x100) 62 = true
  pwrOk : t.pwrOk = false
  powerLoss : t.powerLoss = true
  inputOut : t.inputOut = true
  vin : t.fld pwrStatus 63 48 = v

theorem State.safeStop_pwrOk (s : State) (code : Nat) : (s.safeStop code).pwrOk = false := by
  rw [State.safeStop_eq, State.pwrLow_pwrOk]

/-- The input lost, in a state that is not yet stopped: the stop of R402 and the record of the loss. -/
theorem State.loseInput_stops {s : State} (hstage : s.stage ≠ 8) {v : Nat} (hv : v < 2 ^ 16) (code ev : Nat) :
    InputStopped (s.loseInput v code ev) v := by
  have hgoes : ¬(s.inputFault v code ev).stage = 8 := by rwa [State.inputFault_stage]
  rw [State.loseInput_eq, if_neg hgoes]
  have hcount := onlyRegs_bump (s.inputFault v code ev) (pgPower 0 + 0x130) 1
  have hvin : ((s.inputFault v code ev).bump (pgPower 0 + 0x130) 1).fld pwrStatus 63 48 = v :=
    (State.fld_congr (State.bump_reg _ _ _ (by decide) (by decide) (by decide) (by decide)) ..).trans (s.inputFault_vin hv code ev)
  have hout := (inputOut_of_baseView hcount.baseView).trans (s.inputFault_inputOut v code ev)
  generalize (s.inputFault v code ev).bump (pgPower 0 + 0x130) 1 = u at hvin hout ⊢
  exact {
    stage := (State.fld_congr (State.recordLoss_reg ..) ..).trans (u.safeStop_stage code)
    faultN := (State.flag_congr (State.recordLoss_reg ..) _).trans (u.safeStop_faultN code)
    pwrOk := (State.recordLoss_pins _).1.trans (u.safeStop_pwrOk code)
    powerLoss := State.recordLoss_powerLoss _
    inputOut := (State.recordLoss_pins _).2.trans ((u.safeStop_inputOut code).trans hout)
    vin := (State.fld_congr ((State.recordLoss_reg ..).trans (u.safeStop_reg code (by decide) (by decide))) ..).trans hvin }

/-- A device that has stopped already records the fault alone (R416). -/
theorem State.loseInput_stopped {s : State} (hstage : s.stage = 8) (v code ev : Nat) :
    s.loseInput v code ev = (s.inputLost v).faultEv (pgPower 0) code v ev := by
  rw [State.loseInput_eq, if_pos (by rwa [State.inputFault_stage]), State.inputFault]

theorem InputStopped.setGan {s : State} {v : Nat} (h : InputStopped s v) (b : Bool) : InputStopped (s.setGan b) v :=
  ⟨h.stage, h.faultN, h.pwrOk, h.powerLoss, h.inputOut, h.vin⟩

theorem execInputOvervolt_eq (v : BitVec 16) (s : State) : execInputOvervolt v s =
    if s.stage = 0 ∨ v.toNat ≤ 6000 then .next s else .next ((s.loseInput v.toNat 0x0902 1).setGan true) := rfl

/-- The input back: VIN shown, the GaN stage on. -/
def State.inputBack (s : State) (v : Nat) : State := ((s.seeVin v).setInput false).setGan false

theorem State.inputBack_reg (s : State) (v a : Nat) : (s.inputBack v).reg a = (s.seeVin v).reg a :=
  (State.setGan_reg ..).trans (State.setInput_reg ..)

theorem State.clearInput_eq (s : State) : ({ s with inputOut := false, ganOff := false } : State) = (s.setInput false).setGan false := rfl

theorem execInputRecovered_eq (v : BitVec 16) (s : State) : execInputRecovered v s =
    if v.toNat < 4800 ∨ 5800 < v.toNat then .next s
    else if s.stage = 0 then .next (s.coldReset 1 0)
    else if !s.inputOut || s.stage != 8 || s.thermtrip then .next (s.inputBack v.toNat)
    else if !(s.inputBack v.toNat).isReady then .next ((s.inputBack v.toNat).coldReset 1 0)
    else if (s.inputBack v.toNat).flag pwrCfg 0 then .next ((s.inputBack v.toNat).warmReset 3)
    else .next (s.inputBack v.toNat) := by
  have hback : ({ s.seeVin v.toNat with inputOut := false, ganOff := false } : State) = s.inputBack v.toNat := State.clearInput_eq _
  unfold execInputRecovered
  dsimp only
  rw [hback]

theorem State.inputBack_isReady (s : State) (v : Nat) : (s.inputBack v).isReady = s.isReady :=
  State.flag_congr ((s.inputBack_reg v _).trans (State.reg_setFld_ne _ _ _ _ (by decide))) _

theorem State.inputBack_autoWarm (s : State) (v : Nat) : (s.inputBack v).flag pwrCfg 0 = s.flag pwrCfg 0 :=
  State.flag_congr ((s.inputBack_reg v _).trans (State.reg_setFld_ne _ _ _ _ (by decide))) _

section
variable {s : State} {v : BitVec 16}

theorem execInputRecovered_outside (h : v.toNat < 4800 ∨ 5800 < v.toNat) : execInputRecovered v s = .next s := by
  rw [execInputRecovered_eq, if_pos h]

variable (hlo : 4800 ≤ v.toNat) (hhi : v.toNat ≤ 5800)
include hlo hhi

theorem execInputRecovered_off (hoff : s.stage = 0) : execInputRecovered v s = .next (s.coldReset 1 0) := by
  rw [execInputRecovered_eq, if_neg (by omega), if_pos hoff]

/-- After a junction trip the device stays stopped (R408). -/
theorem execInputRecovered_tripped (hstage : s.stage = 8) (htrip : s.thermtrip = true) : execInputRecovered v s = .next (s.inputBack v.toNat) := by
  rw [execInputRecovered_eq, if_neg (by omega), if_neg (by omega), if_pos (by simp [htrip])]

variable (hstage : s.stage = 8) (hout : s.inputOut = true) (htrip : s.thermtrip = false)
include hstage hout htrip

theorem execInputRecovered_stopped : execInputRecovered v s =
    if s.isReady = false then .next ((s.inputBack v.toNat).coldReset 1 0)
    else if s.flag pwrCfg 0 then .next ((s.inputBack v.toNat).warmReset 3)
    else .next (s.inputBack v.toNat) := by
  rw [execInputRecovered_eq, if_neg (by omega), if_neg (by omega), if_neg (by simp [hout, hstage, htrip]), State.inputBack_isReady,
    State.inputBack_autoWarm]
  simp only [Bool.not_eq_true']

end

/-- A module that is off: its outputs held from P3V3_AUX stay. -/
theorem State.powerOff_stage (s : State) : s.powerOff.stage = 0 := by
  unfold State.powerOff
  exact State.fld_setFld_self _ _ _ _ _ (by decide) (by decide)

theorem State.powerOff_keeps (s : State) : s.powerOff.hbm = Mem.undefinedBy (s.freeCtr + 1) ∧ s.powerOff.thermtrip = s.thermtrip := by
  unfold State.powerOff
  exact ⟨State.setReg_hbm .., State.setReg_thermtrip ..⟩

end Sys2Proof.Machine

namespace Sys2Proof
open Machine

/-- Settles O54: each command changes nothing beside its threshold, and past it is an equation; what a safe stop, a cold and a warm reset leave is
said once for each of them. -/
theorem powerInput : Obligations.PowerInput := by
  unfold Obligations.PowerInput
  intro s v
  extract_lets off seen out back stopped failed
  have hv : v.toNat < 2 ^ 16 := v.isLt
  have hout : out = s.inputLost v.toNat := State.setInput_eq seen true
  have hback : back = s.inputBack v.toNat := State.clearInput_eq seen
  clear_value out back
  subst hout hback
  have hstops : ∀ {t : State}, InputStopped t v.toNat → stopped t := fun h => ⟨h.stage, h.faultN, h.pwrOk, h.powerLoss, h.inputOut, h.vin⟩
  refine ⟨?inputLow, ?lowNot, ?under, ?underNot, ?overvolt, ?overNot, ?recovers, ?recoversNot, ?collapse, ?collapseNot, ?limit⟩
  case inputLow => exact fun hon hlow => if_neg (by omega)
  case lowNot => exact fun h => if_pos h
  case under =>
    intro hon hlow
    have hloses : exec (.inputUndervolt v) s = .next (s.loseInput v.toNat 0x0901 0) := if_neg (by omega)
    exact ⟨fun hstage => ⟨_, hloses, hstops (State.loseInput_stops hstage hv ..)⟩,
      fun hstage => hloses.trans (congrArg Host.Outcome.next (State.loseInput_stopped hstage ..))⟩
  case underNot => exact fun h => if_pos h
  case overvolt =>
    intro hon hhigh
    have hloses : exec (.inputOvervolt v) s = .next ((s.loseInput v.toNat 0x0902 1).setGan true) :=
      (execInputOvervolt_eq v s).trans (if_neg (by omega))
    refine ⟨fun hstage => ⟨_, hloses, hstops ((State.loseInput_stops hstage hv ..).setGan true), State.setGan_ganOff ..⟩,
      fun hstage => hloses.trans (congrArg Host.Outcome.next ?_)⟩
    rw [State.loseInput_stopped hstage]
    exact (State.setGan_eq failed true).symm
  case overNot => exact fun h => if_pos h
  case recovers =>
    intro hlo hhi
    refine ⟨fun hoff => ⟨_, execInputRecovered_off hlo hhi hoff, State.coldReset_stage .., State.coldReset_resetType _ (by decide) (by decide)⟩,
      fun hstage hout htrip => ?_, fun hstage htrip => execInputRecovered_tripped hlo hhi hstage htrip⟩
    have hexec := execInputRecovered_stopped hlo hhi hstage hout htrip
    refine ⟨fun hready hauto => ⟨(s.inputBack v.toNat).warmReset 3, ?_, State.warmReset_stage .., State.warmReset_resetType _ (by decide),
      State.warmReset_pwrOk ..⟩, fun hready hauto => ?_, fun hready => ⟨(s.inputBack v.toNat).coldReset 1 0, ?_, State.coldReset_stage ..,
      State.coldReset_resetType _ (by decide) (by decide)⟩⟩
    · exact hexec.trans ((if_neg (by simp [hready])).trans (if_pos hauto))
    · exact hexec.trans ((if_neg (by simp [hready])).trans (if_neg (Bool.eq_false_iff.mp hauto)))
    · exact hexec.trans (if_pos hready)
  case recoversNot => exact execInputRecovered_outside
  case collapse =>
    intro hon hlow
    refine ⟨s.powerOff, if_neg (by omega), s.powerOff_stage, s.powerOff_keeps.1, s.powerOff_keeps.2, ?_, ?_⟩
    · exact congrArg Outside.retiredA s.powerOff_outside
    · exact congrArg Outside.retiredB s.powerOff_outside
  case collapseNot => exact fun h => if_pos h
  case limit => exact fun iin => ⟨fun hon hlim => if_neg (not_or.mpr ⟨hon, Nat.not_le.mpr hlim⟩), fun h => if_pos h⟩

end Sys2Proof
end

section
/-! SUPPORT. A port that goes DOWN with nothing to send (R308), and the connectors and management commands (R460, R461, R464, R465). -/
namespace Sys2Proof.Machine

/-! ### A port that goes DOWN -/

/-- ST_STATUS of a port DOWN with a cause (Table 13.8). -/
def State.portShown (s : State) (q cause : Nat) : State :=
  (((s.setFld (pgPort q + 0x108) 63 61 0).setFld (pgPort q + 0x108) 58 55 cause).setFld (pgPort q + 0x108) 60 59 0).setFld (pgPort q + 0x108) 7 0 0

theorem State.onlyRegs_portShown (s : State) (q cause : Nat) : OnlyRegs s (s.portShown q cause) :=
  (((onlyRegs_setFld ..).trans (onlyRegs_setFld ..)).trans (onlyRegs_setFld ..)).trans (onlyRegs_setFld ..)

theorem State.portShown_fields (s : State) (q : Nat) {cause : Nat} (hcause : cause < 16) :
    (s.portShown q cause).portState q = 0 ∧ (s.portShown q cause).fld (pgPort q + 0x108) 58 55 = cause := by
  unfold State.portShown State.portState
  refine ⟨?_, ?_⟩
  · rw [State.fld_setFld_apart _ _ _ (by decide) (by decide) (by decide) (by decide), State.fld_setFld_apart _ _ _ (by decide) (by decide)
      (by decide) (by decide), State.fld_setFld_apart _ _ _ (by decide) (by decide) (by decide) (by decide),
      State.fld_setFld_self _ _ _ _ _ (by decide) (by decide)]
    rfl
  · rw [State.fld_setFld_apart _ _ _ (by decide) (by decide) (by decide) (by decide), State.fld_setFld_apart _ _ _ (by decide) (by decide)
      (by decide) (by decide), State.fld_setFld_self _ _ _ _ _ (by decide) (by decide)]
    exact Nat.mod_eq_of_lt hcause

theorem OnlyRegs.ports {s t : State} (h : OnlyRegs s t) : t.ports = s.ports := by
  obtain ⟨r, o, hst⟩ := h
  rw [hst]

theorem OnlyRegs.cagesOff {s t : State} (h : OnlyRegs s t) : t.cagesOff = s.cagesOff := by
  obtain ⟨r, o, hst⟩ := h
  rw [hst]

theorem State.port_congr {s t : State} (h : t.ports = s.ports) (q : Nat) : t.port q = s.port q := by rw [State.port, State.port, h]

theorem State.port_setPort_self (s : State) (q : Nat) (x : PortState) : (s.setPort q x).port q = x := Tab.get_set_self ..

theorem State.setPort_reg (s : State) (q : Nat) (x : PortState) (a : Nat) : (s.setPort q x).reg a = s.reg a := rfl

/-- PORT_DOWN and its event, and the moment noted for the retry (R304, R308). -/
theorem State.portDown_shape (s : State) (q cause : Nat) : ∃ x : PortState, x.replay = (s.port q).replay ∧ x.queues = (s.port q).queues ∧
    OnlyRegs ((s.portShown q cause).setPort q x) (s.portDown q cause) ∧
    (q < 32 → (s.portDown q cause).reg (pgPort q + 0x108) = (s.portShown q cause).reg (pgPort q + 0x108)) := by
  have hport : (s.portShown q cause).port q = s.port q := State.port_congr (s.onlyRegs_portShown q cause).ports q
  unfold State.portDown
  extract_lets a was s1 old s2 s3
  have hold : old = s.port q := hport
  refine ⟨{ old with downAt := s1.now }, by rw [← hold], by rw [← hold],
    onlyRegs_ite _ (.refl s2) ((onlyRegs_fault ..).trans (onlyRegs_event ..)), fun hq => ?_⟩
  have hpage : pgPort q = 0x10_0000 + q * 0x1000 := rfl
  have hbare : pgBare + 0x100 = 0x3100 := rfl
  have hreg : s2.reg (pgPort q + 0x108) = (s.portShown q cause).reg (pgPort q + 0x108) := State.setPort_reg s1 q _ _
  refine reg_ite _ hreg ((State.event_reg _ _ _ (by omega) (by omega) (by omega)).trans (.trans ?_ hreg))
  exact State.fault_reg _ _ _ _ (by omega) (by omega) (.inr (by omega)) (by omega) (by omega) (by omega)

/-- Nothing waits at a port, and nothing it sent is unacknowledged. -/
def State.NothingToSend (s : State) (q : Nat) : Prop := (s.port q).replay = [] ∧ (s.port q).queues = []

theorem State.NothingToSend.of_empty {s : State} {q : Nat} (h : s.port q = {}) : s.NothingToSend q := by
  rw [State.NothingToSend, h]
  exact ⟨rfl, rfl⟩

/-- A port with nothing to send has nothing to move (R308). -/
theorem State.moveFrames_nothing {s : State} {q : Nat} (h : s.NothingToSend q) : ∃ x, s.moveFrames q = s.setPort q x := by
  obtain ⟨hreplay, hqueues⟩ := h
  unfold State.moveFrames
  extract_lets x goes sent all start
  have hall : all = [] := by
    have hsent : sent = [] := by rw [show sent = x.replay.filter fun r => goes r.frame from rfl, show x.replay = [] from hreplay, List.filter_nil]
    rw [show all = sent.map (·.frame) ++ (x.queues.flatMap (·.2)).filter goes from rfl, hsent, show x.queues = [] from hqueues]
    rfl
  rw [hall]
  exact ⟨_, rfl⟩

/-- What a port that goes DOWN with nothing to send leaves: its state and cause, HBM and the cages. -/
theorem State.portLost_idle {s : State} {q : Nat} (hq : q < 32) (h : s.NothingToSend q) {cause : Nat} (hcause : cause < 16) :
    let t := s.portLost q cause
    t.portState q = 0 ∧ t.fld (pgPort q + 0x108) 58 55 = cause ∧ t.cagesOff = s.cagesOff := by
  obtain ⟨x, hreplay, hqueues, hshape, hreg⟩ := s.portDown_shape q cause
  have hport : (s.portDown q cause).port q = x := (State.port_congr hshape.ports q).trans (State.port_setPort_self ..)
  have hidle : (s.portDown q cause).NothingToSend q := by
    rw [State.NothingToSend, hport, hreplay, hqueues]
    exact h
  obtain ⟨y, hmoved⟩ := State.moveFrames_nothing hidle
  have hst : (s.portLost q cause).reg (pgPort q + 0x108) = (s.portShown q cause).reg (pgPort q + 0x108) := by
    rw [State.portLost, hmoved, State.setPort_reg, hreg hq]
  obtain ⟨hstate, hshown⟩ := s.portShown_fields q hcause
  refine ⟨(State.fld_congr hst ..).trans hstate, (State.fld_congr hst ..).trans hshown, ?_⟩
  rw [State.portLost, hmoved, State.setPort_cagesOff, hshape.cagesOff, State.setPort_cagesOff, (s.onlyRegs_portShown q cause).cagesOff]

/-! ### Cages -/

/-- A cage switched off. -/
def State.cutCage (s : State) (q : Nat) : State := { s with cagesOff := s.cagesOff ++ [q] }

theorem State.cutCage_reg (s : State) (q a : Nat) : (s.cutCage q).reg a = s.reg a := rfl

theorem State.cutCage_port (s : State) (q r : Nat) : (s.cutCage q).port r = s.port r := rfl

theorem State.cutCage_cagesOff (s : State) (q : Nat) : (s.cutCage q).cagesOff = s.cagesOff ++ [q] := rfl

theorem execCageOverpower_eq (p : PortId) (s : State) : execCageOverpower p s =
    if s.stage = 0 ∨ s.cagesOff.contains p.val then .next s
    else .next (if (s.cutCage p.val).portState p.val = 0 then s.cutCage p.val else (s.cutCage p.val).portLost p.val 1) := rfl

theorem State.cutCage_portState (s : State) (q r : Nat) : (s.cutCage q).portState r = s.portState r := State.fld_congr (s.cutCage_reg q _) ..

/-! ### The SMBus -/

/-- The offsets of the Bare page at which an SMBus write has a meaning of its own. -/
theorem State.smbStore_plain (s : State) {a : Nat} (w : Nat) (ha : a % 0x1000 ∉ [0x008, 0x020, 0x028, 0x030, 0x038, 0x048, 0x050, 0x108, 0x190]) :
    s.smbStore a w = s.storeReg a w (2 ^ 64 - 1) := by
  simp only [List.mem_cons, List.not_mem_nil, or_false, not_or] at ha
  obtain ⟨h1, h2, h3, h4, h5, h6, h7, h8, h9⟩ := ha
  unfold State.smbStore
  extract_lets m pg
  split
  case h_10 => rfl
  all_goals exact absurd ‹_› ‹_›

section
variable {s : State} (hserves : s.smbServes = true)
include hserves

theorem execSmbSetOffset_serves (o : BitVec 32) : execSmbSetOffset o true s = .next { s with smbOffset := o.toNat } := by
  unfold execSmbSetOffset
  rw [hserves]
  rfl

theorem execSmbWrite_serves {o : BitVec 32} (hpage : o.toNat / 0x1000 = 3) (w : W64) :
    execSmbWrite o w true s = .next (s.smbStore o.toNat w.toNat) := by
  unfold execSmbWrite
  rw [hserves, hpage]
  rfl

end

theorem execSmbSetOffset_dropped {s : State} {o : BitVec 32} {pec : Bool} (h : s.smbServes = false ∨ pec = false) :
    execSmbSetOffset o pec s = .next s := by
  unfold execSmbSetOffset
  rw [if_neg (by rcases h with h | h <;> simp [h])]

theorem execSmbWrite_dropped {s : State} {o : BitVec 32} {w : W64} {pec : Bool} (h : s.smbServes = false ∨ pec = false ∨ o.toNat / 0x1000 ≠ 3) :
    execSmbWrite o w pec s = .next s := by
  unfold execSmbWrite
  rw [if_neg (by rcases h with h | h | h <;> simp [h])]

/-! ### The test access port -/

/-- Whether the instruction acts as BYPASS outside stages 0, 8 and 9 (R465). -/
def guardedOp (i : JtagOp) : Prop := i = .extest ∨ i = .intest ∨ i = .debug

theorem execJtagInstruction_free {s : State} (h : ¬(s.stage ≠ 0 ∧ s.stage ≠ 8 ∧ s.stage ≠ 9)) (i : JtagOp) :
    execJtagInstruction i s = .next { s with jtagIr := i } := by
  have hfree : (s.stage == 0 || s.stage == 8 || s.stage == 9) = true := by simp only [Bool.or_eq_true, beq_iff_eq]; omega
  unfold execJtagInstruction
  rw [hfree]
  cases i <;> rfl

theorem execJtagInstruction_unguarded {s : State} {i : JtagOp} (h : ¬guardedOp i) : execJtagInstruction i s = .next { s with jtagIr := i } := by
  unfold execJtagInstruction
  cases i
  case extest => exact absurd (.inl rfl) h
  case intest => exact absurd (.inr (.inl rfl)) h
  case debug => exact absurd (.inr (.inr rfl)) h
  all_goals rfl

theorem execJtagInstruction_bypasses {s : State} {i : JtagOp} (hi : guardedOp i) (h : s.stage ≠ 0 ∧ s.stage ≠ 8 ∧ s.stage ≠ 9) :
    execJtagInstruction i s = .next { s with jtagIr := .bypass } := by
  have hfree : (s.stage == 0 || s.stage == 8 || s.stage == 9) = false := by simp [h]
  unfold execJtagInstruction
  rw [hfree]
  rcases hi with rfl | rfl | rfl <;> rfl

end Sys2Proof.Machine

namespace Sys2Proof
open Machine

/-- Settles O60: a cage that is lost takes DOWN a port with nothing to send, an insertion is a cold reset or nothing; the SMBus and
the test access port by the branches of their commands. -/
theorem connectorsAndManagement : Obligations.ConnectorsAndManagement := by
  unfold Obligations.ConnectorsAndManagement
  intro s
  refine ⟨fun p => ?cage, fun hoff => ?insert, fun hon => ?inserted, fun o => rfl, fun o h => execSmbSetOffset_serves h o,
    fun o pec h => execSmbSetOffset_dropped h, fun h => ?read, fun h => ?readNot, fun o w hserves hpage => ?write,
    fun o w pec h => execSmbWrite_dropped h, fun i => ?jtag⟩
  case cage =>
    refine ⟨fun h => if_pos h, fun hon hcage => ?_⟩
    have hexec := (execCageOverpower_eq p s).trans (if_neg (by simp only [hcage]; simpa using hon))
    rw [State.cutCage_portState] at hexec
    refine ⟨fun hdown => hexec.trans (congrArg Host.Outcome.next (if_pos hdown)),
      fun hup => hexec.trans (congrArg Host.Outcome.next (if_neg hup)), fun hup hempty => ?_⟩
    have hidle : (s.cutCage p.val).NothingToSend p.val := .of_empty ((s.cutCage_port ..).trans hempty)
    obtain ⟨hstate, hcause, hcages⟩ := State.portLost_idle p.isLt hidle (cause := 1) (by decide)
    refine ⟨_, hexec.trans (congrArg Host.Outcome.next (if_neg hup)), hstate, hcause, ?_⟩
    rw [hcages, State.cutCage_cagesOff]
    simp
  case insert =>
    exact ⟨s.coldReset 1 0, congrArg Host.Outcome.next (if_pos hoff), State.coldReset_stage .., State.coldReset_resetType _ (by decide) (by decide),
      State.coldReset_retired ..⟩
  case inserted => exact congrArg Host.Outcome.next (if_neg hon)
  case read => exact congrArg Host.Outcome.next (if_pos h)
  case readNot => exact congrArg Host.Outcome.next (if_neg (by rw [h]; decide))
  case write =>
    have hexec := execSmbWrite_serves hserves hpage w
    exact ⟨fun hplain => hexec.trans (congrArg Host.Outcome.next (State.smbStore_plain s w.toNat hplain)), hexec⟩
  case jtag =>
    by_cases hbusy : s.stage ≠ 0 ∧ s.stage ≠ 8 ∧ s.stage ≠ 9
    · by_cases hi : guardedOp i
      · rw [if_pos ⟨hi, hbusy⟩]
        exact execJtagInstruction_bypasses hi hbusy
      · rw [if_neg fun h => hi h.1]
        exact execJtagInstruction_unguarded hi
    · rw [if_neg fun h => hbusy h.2]
      exact execJtagInstruction_free hbusy i

end Sys2Proof
end

section
/-! SUPPORT. The configuration of the links: ST_CFG, GLB_DEV and the Group Table (R304, R305, R321). -/
namespace Sys2Proof.Machine

theorem State.sendIdent_sameBase (s : State) (q : Nat) : SameBase s (s.sendIdent q) := by
  have hq := pgPort_ge q
  unfold State.sendIdent
  refine .ite _ (.refl s) ?_
  dsimp only
  exact ((((SameBase.refl s).fresh.setPort ..).bump (by omega) 1).bump (by omega) 32).emitFrame ..

/-! ### ST_CFG -/

section
variable {s : State} {acc : Acc} {p : PortId} {w : W64} (hopen : s.Open acc (pgPort p.val + 0x100))
include hopen

theorem execStCfgWrite_eq {t : State} (ht : t = s.storeReg (pgPort p.val + 0x100) w.toNat (accMask acc)) :
    execStCfgWrite acc p w s = .next (if !s.live || s.oscOut.contains 1 then t
      else if !(t.flag (pgPort p.val + 0x100) 0) then (if s.flag (pgPort p.val + 0x100) 0 then t.portLost p.val 6 else t)
      else if !(s.flag (pgPort p.val + 0x100) 0) ∨ s.ethernet p.val ≠ t.ethernet p.val then t.retrain p.val 0
      else t) := by
  unfold execStCfgWrite
  dsimp only
  rw [State.hostWrite_of_open hopen, ht]

end

/-- The port that ST_CFG names has still nothing to send. -/
theorem State.storeReg_nothingToSend {s : State} {q : Nat} (h : s.NothingToSend q) (a w m : Nat) : (s.storeReg a w m).NothingToSend q := by
  rw [State.NothingToSend, State.port_congr (onlyRegs_storeReg ..).ports]
  exact h

theorem State.portLost_hbm (s : State) {q : Nat} (hq : q < 32) (cause : Nat) : (s.portLost q cause).hbm = s.hbm :=
  hbm_of_baseView (s.portLost_sameBase hq cause).view

/-- A port that trains again (R304, R307). -/
theorem State.retrain_state (s : State) {q : Nat} (hq : q < 32) (cause : Nat) :
    (s.retrain q cause).portState q = 1 ∧ (s.retrain q cause).hbm = s.hbm :=
  ⟨State.fld_setFld_self _ _ _ _ _ (by decide) (by decide), (onlyRegs_setFld ..).hbm.trans (s.portLost_hbm hq cause)⟩

/-! ### GLB_DEV -/

theorem State.portUp_congr {s t : State} {q : Nat} (h : t.reg (pgPort q + 0x108) = s.reg (pgPort q + 0x108)) : t.portUp q = s.portUp q := by
  rw [State.portUp, State.portUp, State.portState, State.portState, State.fld_congr h]

/-- IDENT is sent again on every UP port (R305). -/
def State.identAgain (s : State) : State := (List.range 32).foldl (fun (u : State) q => if u.portUp q then u.sendIdent q else u) s

theorem State.identAgain_sameBase (s : State) : SameBase s s.identAgain :=
  (SameBase.refl s).foldl _ fun t q => .ite _ (t.sendIdent_sameBase q) (.refl t)

theorem State.identAgain_none {s : State} (h : ∀ q, q < 32 → s.portUp q = false) : s.identAgain = s := by
  refine List.foldlRecOn (motive := fun t => t = s) _ _ rfl fun t ht q hq => ?_
  rw [ht, if_neg (by rw [h q (List.mem_range.mp hq)]; decide)]

theorem execGlbDevWrite_eq {s : State} {acc : Acc} (hopen : s.Open acc (pgGlobal + 0x930)) (w : W64) :
    execGlbDevWrite acc w s = .next (s.storeReg (pgGlobal + 0x930) w.toNat (accMask acc)).identAgain := by
  unfold execGlbDevWrite
  rw [State.hostWrite_of_open hopen]
  rfl

/-! ### The Group Table -/

/-- Whether the job of a group entry keeps it (R354). -/
def State.groupBusy (s : State) (b : Nat) : Bool :=
  s.flag b 63 && (!(s.jobIdle (s.fld b 59 56)) || (match s.partOfJob (s.fld b 59 56) with
    | some p => !(s.phState p (s.fld b 59 56) == 0)
    | none => false))

theorem State.groupBusy_of {s : State} {b : Nat} (hon : s.flag b 63 = true)
    (h : s.jobIdle (s.fld b 59 56) = false ∨ ∃ p, s.partOfJob (s.fld b 59 56) = some p ∧ s.phState p (s.fld b 59 56) ≠ 0) :
    s.groupBusy b = true := by
  rw [State.groupBusy, hon, Bool.true_and]
  rcases h with hidle | ⟨p, hpart, hphase⟩
  · rw [hidle]
    rfl
  · simp [hpart, hphase]

theorem execGroupTableWrite_eq {s : State} {acc : Acc} {g : Fin 255} {k : Fin 9} (hopen : s.Open acc (pgGroup g.val + 8 * k.val)) (w : W64)
    {t : State} (ht : t = (s.storeReg (pgGroup g.val + 8 * k.val) w.toNat (accMask acc)).setFlag (pgGroup g.val) 3 false) :
    execGroupTableWrite acc g k w s = .next (if s.groupBusy (pgGroup g.val) ||
        (t.flag (pgGroup g.val) 63 && t.groupBad ((List.range 9).map fun i => t.reg (pgGroup g.val + 8 * i))) then
      s.setFlag (pgGroup g.val) 3 true else t) := by
  unfold execGroupTableWrite
  dsimp only
  rw [State.hostWrite_of_open hopen, ht]
  rfl

end Sys2Proof.Machine

namespace Sys2Proof
open Machine

/-- Settles O39: each of the three writes is an equation where its register takes writes; ST_CFG loses or retrains a port with nothing to send, and the
identities that GLB_DEV has sent reach neither the global page nor HBM. -/
theorem linkConfiguration : Obligations.LinkConfiguration := by
  unfold Obligations.LinkConfiguration
  refine ⟨fun s acc p w => ?stCfg, fun s acc w hopen => ?glbDev, fun s acc g k w => ?group⟩
  case stCfg =>
    intro q a hopen t
    have hexec : execStCfgWrite acc p w s = .next (if !s.live || s.oscOut.contains 1 then t
        else if !(t.flag a 0) then (if s.flag a 0 then t.portLost q 6 else t)
        else if !(s.flag a 0) ∨ s.ethernet q ≠ t.ethernet q then t.retrain q 0 else t) := execStCfgWrite_eq hopen rfl
    refine ⟨fun hheld => ?_, fun henable hmode => ?_, fun hlive hosc hon hoff hempty => ?_, fun hlive hosc hoff hon hempty => ?_⟩
    · rw [if_pos (by rcases hheld with h | h <;> simp only [h, Bool.not_false, Bool.true_or, Bool.or_true])] at hexec
      exact hexec
    · refine hexec.trans (congrArg Host.Outcome.next ?_)
      split
      · rfl
      split
      next hdisabled =>
        rw [henable] at hdisabled
        exact if_neg (by simpa using hdisabled)
      next henabled =>
        rw [henable] at henabled
        exact if_neg (by rw [hmode]; simpa using henabled)
    · rw [if_neg (by rw [hlive, hosc]; decide), if_pos (by rw [hoff]; decide), if_pos hon] at hexec
      have hidle : t.NothingToSend q := State.storeReg_nothingToSend (.of_empty hempty) ..
      obtain ⟨hstate, hcause, -⟩ := State.portLost_idle p.isLt hidle (cause := 6) (by decide)
      exact ⟨_, hexec, hstate, hcause, (t.portLost_hbm p.isLt 6).trans (onlyRegs_storeReg ..).hbm⟩
    · rw [if_neg (by rw [hlive, hosc]; decide), if_neg (by rw [hon]; decide), if_pos (.inl (by rw [hoff]; decide))] at hexec
      obtain ⟨hstate, hhbm⟩ := t.retrain_state p.isLt 0
      exact ⟨_, hexec, hstate, hhbm.trans (onlyRegs_storeReg ..).hbm⟩
  case glbDev =>
    intro t
    have hexec := execGlbDevWrite_eq hopen w
    have hup : ∀ q, t.portUp q = s.portUp q := fun q =>
      State.portUp_congr (State.reg_storeReg_ne _ _ _ (by unfold pgPort pgGlobal; omega))
    refine ⟨fun hdown => hexec.trans (congrArg Host.Outcome.next (State.identAgain_none fun q hq => (hup q).trans (hdown q hq))), _, hexec, ?_, ?_⟩
    · exact t.identAgain_sameBase.reg _ (by decide) (by decide)
    · exact (hbm_of_baseView t.identAgain_sameBase.view).trans (onlyRegs_storeReg ..).hbm
  case group =>
    intro b a hopen t
    have hexec := execGroupTableWrite_eq hopen w (t := t) rfl
    refine ⟨fun hon hbusy => ?_, fun hoff htoff => ?_, fun hoff hton hbad => ?_⟩
    · rw [State.groupBusy_of hon hbusy, Bool.true_or, if_pos rfl] at hexec
      exact hexec
    · rw [State.groupBusy, hoff, htoff, Bool.false_and, Bool.false_and, if_neg (by decide)] at hexec
      exact hexec
    · rw [hton, hbad, Bool.true_and, Bool.or_true, if_pos rfl] at hexec
      exact hexec

end Sys2Proof
end

section
/-! SUPPORT. An identity sent again that fills its port's counter of frames (R305, R392, R443): the event of a counter that stops at its maximum sends a
message. -/
namespace Sys2Proof.Machine

/-- A READY device with an identity whose port 0 is in IDENT and sends it again. TX_FRAMES of the port is one below its maximum, and the
interrupt of the page's CNT_SAT event goes to vector 0 of host port A, which is up with MSI-X enabled. -/
def fullFrameCounter : State :=
  { State.reset with
    hostMsixA := true
    regs := [(pgBare + 0x100, toW (2 ^ 63 + 7 * 2 ^ 57)), (pgHost false + 0x100, toW (2 ^ 63)), (pgMsix false + 8, toW 0),
      (pgGlobal + 0x930, toW (2 ^ 15)), (pgPort 0 + 0x108, toW (2 * 2 ^ 61)), (pgPort 0 + 0x110, toW (2 ^ 48 - 2)),
      (pgPort 0 + 0x20, toW (2 ^ 5)), (pgPort 0 + 0x08, toW (2 ^ 16))] }

theorem fullFrameCounter_idents : fullFrameCounter.portState 0 = 2 ∧ fullFrameCounter.ethernet 0 = false ∧
    fullFrameCounter.flag (pgGlobal + 0x930) 15 = true := by decide

theorem fullFrameCounter_silent : (fullFrameCounter.tick 0).out = [] := by decide +kernel

/-- The command sends the message of CNT_SAT beside the frame. -/
theorem fullFrameCounter_identRetry_sent : (Result.sent (execIdentRetry 0 0 fullFrameCounter)).length = 2 := by decide +kernel

end Sys2Proof.Machine

namespace Sys2Proof
open Machine

/-- Refutes O38: an identity sent again that brings its port's TX_FRAMES to the maximum raises CNT_SAT, whose message is sent before it (R392, R443), so
the frame is not all that the device sends. -/
theorem not_portLifecycle : ¬Obligations.PortLifecycle := by
  unfold Obligations.PortLifecycle
  intro h
  obtain ⟨-, -, hretry, -⟩ := h
  obtain ⟨hstate, hdirect, hid⟩ := fullFrameCounter_idents
  obtain ⟨t, hnext, -, -, f, hout⟩ := (hretry fullFrameCounter 0 0).2 hstate hdirect hid rfl (Nat.zero_le _)
  have hsent : t.out.length = 2 := by
    rw [← fullFrameCounter_identRetry_sent]
    exact (congrArg (fun r => (Result.sent r).length) hnext).symm
  rw [hout, fullFrameCounter_silent] at hsent
  exact absurd hsent (by simp)

end Sys2Proof
end

section
/-! SUPPORT. A frame sent again that fills its port's counter of resent frames (R312, R392, R443): the event of a counter that stops at its maximum sends a
message. -/
namespace Sys2Proof.Machine

/-- An empty TOKEN frame on VC 1. -/
def plainFrame : TxFrame :=
  { type := 1, last := true, ph := 0, set := 0, vc := 1, dst := 0, job := 0, group := 0, tag := 0, target := 0, payload := [] }

/-- A frame sent at time 0 and not acknowledged. -/
def lateFrame : Sent := { frame := plainFrame, seq := 0, at_ := 0, sends := 1 }

/-- A READY device at time 10 whose port 0 is UP in direct mode, with a credit on VC 1 and one late frame. TX_FRAMES of the port is one below
its maximum, and the interrupt of the page's CNT_SAT event goes to vector 0 of host port A, which is up with MSI-X enabled. -/
def fullResendCounter : State :=
  { State.reset with
    hostMsixA := true
    ports := [(0, { replay := [lateFrame] })]
    regs := [(pgBare + 0x100, toW (2 ^ 63 + 7 * 2 ^ 57)), (pgHost false + 0x100, toW (2 ^ 63)), (pgMsix false + 8, toW 0),
      (pgGlobal + 0x108, toW 10), (pgPort 0 + 0x100, toW 1), (pgPort 0 + 0x108, toW (3 * 2 ^ 61)), (pgPort 0 + 0x188, toW (2 ^ 56)),
      (pgPort 0 + 0x110, toW (2 ^ 48 - 2)), (pgPort 0 + 0x20, toW (2 ^ 5)), (pgPort 0 + 0x08, toW (2 ^ 16))] }

theorem fullResendCounter_late : fullResendCounter.portUp 0 = true ∧ (fullResendCounter.port 0).replay = [lateFrame] ∧
    (fullResendCounter.port 0).queues = [] ∧
    lateFrame.at_ + fullResendCounter.fld (pgPort 0 + 0x100) 63 48 * 1000 < (fullResendCounter.tick 0).now := by decide +kernel

theorem fullResendCounter_may :
    if fullResendCounter.ethernet 0 then fullResendCounter.paused 0 1 = false else fullResendCounter.credits 0 1 ≠ 0 := by decide +kernel

theorem fullResendCounter_silent : (fullResendCounter.tick 0).out = [] := by decide +kernel

/-- The command sends the message of CNT_SAT beside the frame. -/
theorem fullResendCounter_replayTimeout_sent : (Result.sent (execReplayTimeout 0 0 fullResendCounter)).length = 2 := by decide +kernel

end Sys2Proof.Machine

namespace Sys2Proof
open Machine

/-- Refutes O40: a frame sent again that brings its port's TX_FRAMES to the maximum raises CNT_SAT, whose message is sent before it (R392, R443), so
the device sends two things and not one. -/
theorem not_linkFrames : ¬Obligations.LinkFrames := by
  unfold Obligations.LinkFrames
  intro h
  obtain ⟨-, -, -, -, -, -, hreplay, -⟩ := h
  obtain ⟨hup, hsent, hqueues, hlate⟩ := fullResendCounter_late
  obtain ⟨-, hagain, -⟩ := hreplay fullResendCounter 0 0
  obtain ⟨hmay, -⟩ := hagain lateFrame hup hsent hqueues hlate (by decide) (by decide)
  obtain ⟨t, hnext, -, -, hout⟩ := hmay fullResendCounter_may
  have htwo : t.out.length = 2 := by
    rw [← fullResendCounter_replayTimeout_sent]
    exact (congrArg (fun r => (Result.sent r).length) hnext).symm
  rw [hout, fullResendCounter_silent] at htwo
  exact absurd htwo (by decide)

end Sys2Proof
end

section
/-! SUPPORT. What the port of a frame changes when the frame arrives in its turn (R306, R312, R316): the registers of the port pages, what a port
holds, what leaves the module. -/
namespace Sys2Proof.Machine

/-- Ports, what leaves the module, the free values and the registers from the port pages on may differ; nothing else does. -/
def OnlyPorts (s t : State) : Prop :=
  (∃ r o p n, t = { s with regs := r, out := o, ports := p, freeCtr := n }) ∧ ∀ a, a < 0x10_0000 → t.reg a = s.reg a

namespace OnlyPorts
variable {s t u : State}

theorem refl (s : State) : OnlyPorts s s := ⟨⟨s.regs, s.out, s.ports, s.freeCtr, (rfl)⟩, fun _ _ => rfl⟩

theorem trans (h : OnlyPorts s t) (k : OnlyPorts t u) : OnlyPorts s u := by
  obtain ⟨⟨r, o, p, n, rfl⟩, hreg⟩ := h
  obtain ⟨⟨r', o', p', n', rfl⟩, kreg⟩ := k
  exact ⟨⟨r', o', p', n', rfl⟩, fun a ha => (kreg a ha).trans (hreg a ha)⟩

theorem ite (c : Prop) [Decidable c] (h : OnlyPorts s t) (k : OnlyPorts s u) : OnlyPorts s (if c then t else u) := by
  split
  · exact h
  · exact k

theorem foldl {α : Type} {f : State → α → State} (h : OnlyPorts s t) (l : List α) (hf : ∀ v x, OnlyPorts v (f v x)) :
    OnlyPorts s (l.foldl f t) := by
  induction l generalizing t with
  | nil => exact h
  | cons x l ih => exact ih (h.trans (hf t x))

theorem of_onlyRegs (h : OnlyRegs s t) (hreg : ∀ a, a < 0x10_0000 → t.reg a = s.reg a) : OnlyPorts s t := by
  obtain ⟨r, o, rfl⟩ := h
  exact ⟨⟨r, o, s.ports, s.freeCtr, rfl⟩, hreg⟩

theorem setPort (h : OnlyPorts s t) (q : Nat) (x : PortState) : OnlyPorts s (t.setPort q x) :=
  h.trans ⟨⟨t.regs, t.out, Tab.set {} t.ports q x, t.freeCtr, rfl⟩, fun _ _ => rfl⟩

theorem emit (h : OnlyPorts s t) (o : Out) : OnlyPorts s (t.emit o) :=
  h.trans ⟨⟨t.regs, t.out ++ [o], t.ports, t.freeCtr, rfl⟩, fun _ _ => rfl⟩

theorem fresh (h : OnlyPorts s t) : OnlyPorts s t.fresh.2 :=
  h.trans ⟨⟨t.regs, t.out, t.ports, t.freeCtr + 1, rfl⟩, fun _ _ => rfl⟩

theorem emitFrame (h : OnlyPorts s t) (q vc : Nat) (f : Frame) : OnlyPorts s (t.emitFrame q vc f) := .ite _ (h.fresh.emit _) (h.emit _)

theorem setFld (h : OnlyPorts s t) {a : Nat} (ha : 0x10_0000 ≤ a) (hi lo v : Nat) : OnlyPorts s (t.setFld a hi lo v) :=
  h.trans (.of_onlyRegs (onlyRegs_setFld ..) fun b hb => t.reg_setFld_ne _ _ _ (by omega))

theorem bump (h : OnlyPorts s t) {a : Nat} (ha : 0x10_0000 ≤ a) (n : Nat) : OnlyPorts s (t.bump a n) := by
  have hbase : 0x10_0000 ≤ pageBase a := by unfold pageBase; omega
  exact h.trans (.of_onlyRegs (onlyRegs_bump ..) fun b hb => t.bump_reg a n (by omega) (by omega) (by omega) (by omega))

/-! ### What stays -/

theorem hbm (h : OnlyPorts s t) : t.hbm = s.hbm := by obtain ⟨⟨r, o, p, n, rfl⟩, -⟩ := h; rfl

theorem sections (h : OnlyPorts s t) : t.sections = s.sections := by obtain ⟨⟨r, o, p, n, rfl⟩, -⟩ := h; rfl

theorem agrees (h : OnlyPorts s t) : t.agrees = s.agrees := by obtain ⟨⟨r, o, p, n, rfl⟩, -⟩ := h; rfl

theorem permute (h : OnlyPorts s t) : t.permute = s.permute := by obtain ⟨⟨r, o, p, n, rfl⟩, -⟩ := h; rfl

theorem agreeDone (h : OnlyPorts s t) : t.agreeDone = s.agreeDone := by obtain ⟨⟨r, o, p, n, rfl⟩, -⟩ := h; rfl

theorem engine (h : OnlyPorts s t) (d : Nat) : t.engine d = s.engine d := by obtain ⟨⟨r, o, p, n, rfl⟩, -⟩ := h; rfl

theorem now (h : OnlyPorts s t) : t.now = s.now := h.2 _ (by decide)

end OnlyPorts

/-! ### Frames sent -/

theorem State.putFrame_onlyPorts (s : State) (q : Nat) (f : TxFrame) (seq : Nat) : OnlyPorts s (s.putFrame q f seq) := by
  have hq := pgPort_ge q
  have hcredit : OnlyPorts s (if s.ethernet q then s else s.setFld (pgPort q + 0x180 + 8 * f.vc) 63 56 (s.credits q f.vc - 1)) :=
    .ite _ (.refl s) ((OnlyPorts.refl s).setFld (by omega) ..)
  exact (((hcredit.setPort ..).bump (by omega) 1).bump (by omega) _).emitFrame ..

theorem State.sendHead_onlyPorts (s : State) (q vc : Nat) : OnlyPorts s (s.sendHead q vc) := by
  have hq := pgPort_ge q
  unfold State.sendHead
  dsimp only
  split
  · exact (((OnlyPorts.refl s).setPort ..).bump (by omega) 1).trans (State.putFrame_onlyPorts ..)
  · exact .refl s
  · exact ((OnlyPorts.refl s).setPort ..).trans (State.putFrame_onlyPorts ..)

theorem State.pumpPort_onlyPorts (s : State) (q n : Nat) : OnlyPorts s (s.pumpPort q n) := by
  induction n generalizing s with
  | zero => exact .refl s
  | succ n ih =>
    unfold State.pumpPort
    split
    · exact .refl s
    · exact (s.sendHead_onlyPorts ..).trans (ih _)

theorem State.sendLink_onlyPorts (s : State) (q vc dev : Nat) (nak : Bool) : OnlyPorts s (s.sendLink q vc dev nak) := by
  refine .ite _ (.refl s) ?_
  exact (((OnlyPorts.refl s).setPort ..).bump (by have := pgPort_ge q; omega) 1).emitFrame ..

theorem State.freeSlot_onlyPorts (s : State) (q vc : Nat) : OnlyPorts s (s.freeSlot q vc) := by
  unfold State.freeSlot
  extract_lets x n x1
  exact .ite _ (.ite _ (((OnlyPorts.refl s).setPort ..).foldl _ fun t v => (OnlyPorts.refl t).emit _) (.refl s)) ((OnlyPorts.refl s).setPort ..)

/-! ### A frame that arrives in its turn -/

/-- The words of the Group Table are those of `s`. -/
def SameGroups (s t : State) : Prop := ∀ a, 0x12_0000 ≤ a → a < 0x200_0000 → t.reg a = s.reg a

/-- The state in which a frame taken in its turn is delivered: it is counted, and its number and its acknowledgement are noted (R312). -/
def State.counted (s : State) (q : Nat) (f : Frame) : State :=
  let c := (s.bump (pgPort q + 0x148) f.fecCorr).bump (pgPort q + 0x150) f.fecBad
  let k := pairKey (fVc f) (fSrc f)
  let x := c.port q
  ((c.setPort q { x with rxSeq := Tab.put x.rxSeq k ((fSeq f + 1) % 2 ^ 32), rxIdle := Tab.put x.rxIdle k (c.now + 1)
                         unacked := Tab.set 0 x.unacked k (Tab.get 0 x.unacked k + 1) }).bump (pgPort q + 0x118) 1).bump (pgPort q + 0x128)
    f.payload.length

theorem State.counted_onlyPorts (s : State) (q : Nat) (f : Frame) : OnlyPorts s (s.counted q f) := by
  have hq := pgPort_ge q
  exact (((((OnlyPorts.refl s).bump (by omega) _).bump (by omega) _).setPort ..).bump (by omega) 1).bump (by omega) _

theorem SameGroups.bump {s t : State} (h : SameGroups s t) {q o : Nat} (hq : q < 32) (ho : o < 0x1000) (n : Nat) :
    SameGroups s (t.bump (pgPort q + o) n) := by
  have hpage : pageBase (pgPort q + o) = pgPort q := by unfold pageBase pgPort; omega
  have hport : pgPort q + 0x1000 ≤ 0x12_0000 := by unfold pgPort; omega
  exact fun a ha hlt => (t.bump_reg _ n (by omega) (by omega) (by omega) (by omega)).trans (h a ha hlt)

theorem State.counted_sameGroups (s : State) {q : Nat} (hq : q < 32) (f : Frame) : SameGroups s (s.counted q f) := by
  have hrefl : SameGroups s s := fun _ _ _ => rfl
  have hfec := (hrefl.bump hq (show 0x148 < 0x1000 by decide) f.fecCorr).bump hq (show 0x150 < 0x1000 by decide) f.fecBad
  have hset : ∀ x, SameGroups s (((s.bump (pgPort q + 0x148) f.fecCorr).bump (pgPort q + 0x150) f.fecBad).setPort q x) := fun _ => hfec
  exact ((hset _).bump hq (by decide) 1).bump hq (by decide) _

theorem OnlyRegs.rxPorts {s t : State} (h : OnlyRegs s t) (q : Nat) : t.port q = s.port q := State.port_congr h.ports q

theorem State.accept_onlyPorts (s : State) (q : Nat) (f : Frame) (go : State → State) {c : State}
    (hc : c = (s.bump (pgPort q + 0x148) f.fecCorr).bump (pgPort q + 0x150) f.fecBad) : OnlyPorts (go (s.counted q f)) (c.accept q f go) := by
  subst hc
  exact .ite _ (State.sendLink_onlyPorts ..) (.refl _)

/-- A frame of a sequence in its turn, in direct mode, is accepted (R312). -/
theorem State.inOrder_turn {s : State} {q : Nat} {f : Frame} (hdirect : s.ethernet q = false)
    (hseq : fSeq f = Tab.get 0 (s.port q).rxSeq (pairKey (fVc f) (fSrc f))) (go : State → State) : s.inOrder q f go = s.accept q f go := by
  have hroom : s.pairRoom q (pairKey (fVc f) (fSrc f)) = some s := by
    rw [State.pairRoom, hdirect]
    rfl
  rw [State.inOrder, hroom]
  exact if_pos hseq

section
variable {s : State} {q : Nat} (hq : q < 32) {f : Frame} {n : Nat} (h : s.Takes q f n) (hn : n ≠ 4) {want : Frame → Bool} (hwant : want f = true)
  (go : State → State)
include hq h hn hwant

/-- Such a frame is delivered, and then the port acknowledges and sends. -/
theorem State.receive_takes : OnlyPorts (go (s.counted q f)) (s.receive q f want go) := by
  obtain ⟨hup, hdirect, hlen, hgood, htype, hdst, hseq, hcredit, hack⟩ := h
  unfold State.receive
  extract_lets c1 c2 s1
  have hc1 : c1 = s := if_neg (by rw [hdirect, Bool.false_and]; decide)
  have hc2 : c2 = (s.bump (pgPort q + 0x148) f.fecCorr).bump (pgPort q + 0x150) f.fecBad := by rw [← hc1]
  have hregs : OnlyRegs s c2 := hc2 ▸ (onlyRegs_bump ..).trans (onlyRegs_bump ..)
  have hmode : c2.ethernet q = false := by
    have hpage : pageBase (pgPort q + 0x148) = pgPort q ∧ pageBase (pgPort q + 0x150) = pgPort q := by unfold pageBase pgPort; omega
    have hport : pgPort q < 0x12_0000 := by unfold pgPort; omega
    rw [← hdirect, State.ethernet, State.ethernet]
    refine State.flag_congr ?_ 1
    rw [hc2]
    exact (State.bump_reg _ _ _ (by omega) (by omega) (by omega) (by omega)).trans
      (State.bump_reg _ _ _ (by omega) (by omega) (by omega) (by omega))
  clear_value c2
  have htaken : s1 = c2 := by
    have hcr : c2.takeCredits q f = c2 := if_pos (by rw [hcredit]; exact Bool.or_true _)
    unfold s1
    rw [hcr]
    exact if_pos hack
  rw [if_neg (by rw [hup, hgood]; simpa using hlen), hgood]
  dsimp only
  rw [hwant, if_neg (by decide), if_neg (by simpa using hdst), htaken, htype, if_neg hn,
    State.inOrder_turn hmode (by rw [hregs.rxPorts]; exact hseq)]
  exact (s.accept_onlyPorts q f go hc2).trans (State.pumpPort_onlyPorts ..)

end

end Sys2Proof.Machine
end

section
/-! SUPPORT. The agreements of the gate (R340), the deadline of one, and the norms and the abort of a running descriptor (R343, R345). -/
namespace Sys2Proof.Machine

/-! ### The record of an agreement -/

/-- An agreement is of a job, a group and a tag. -/
def Agree.Of (a : Agree) (perm : Bool) (j g tag : Nat) : Prop := a.perm = perm ∧ a.job = j ∧ a.group = g ∧ a.tag = tag

theorem Agree.same_iff (a b : Agree) : a.same b = true ↔ b.Of a.perm a.job a.group a.tag := by
  rw [Agree.same, Agree.Of]
  simp only [Bool.and_eq_true, beq_iff_eq]
  constructor
  · rintro ⟨⟨⟨h1, h2⟩, h3⟩, h4⟩
    exact ⟨h1.symm, h2.symm, h3.symm, h4.symm⟩
  · rintro ⟨h1, h2, h3, h4⟩
    exact ⟨⟨⟨h1.symm, h2.symm⟩, h3.symm⟩, h4.symm⟩

theorem Agree.same_of {a b : Agree} {perm : Bool} {j g tag : Nat} (ha : a.Of perm j g tag) (hb : b.Of perm j g tag) : a.same = b.same := by
  obtain ⟨rfl, rfl, rfl, rfl⟩ := ha
  obtain ⟨h1, h2, h3, h4⟩ := hb
  funext c
  rw [Agree.same, Agree.same, h1, h2, h3, h4]

theorem State.agreeAt_of (s : State) (perm : Bool) (j g tag : Nat) : (s.agreeAt perm j g tag).Of perm j g tag := by
  unfold State.agreeAt
  extract_lets d
  cases hfind : s.agrees.find? d.same with
  | none => exact ⟨rfl, rfl, rfl, rfl⟩
  | some b => exact (Agree.same_iff d b).mp (List.find?_some hfind)

/-- The record of an agreement put in place is what is found for its job, group and tag. -/
theorem State.agreeAt_putAgree (s : State) {a : Agree} {perm : Bool} {j g tag : Nat} (ha : a.Of perm j g tag) :
    (s.putAgree a).agreeAt perm j g tag = a := by
  have hself : a.same a = true := (Agree.same_iff a a).mpr ⟨rfl, rfl, rfl, rfl⟩
  have hfind : (s.putAgree a).agrees.find? a.same = some a := by
    unfold State.putAgree
    dsimp only
    split
    next hany =>
      rw [List.find?_map]
      obtain ⟨b, hb, hsame⟩ := List.any_eq_true.mp hany
      have hkeeps : (a.same ∘ fun b => if a.same b then a else b) = a.same := by
        funext c
        dsimp only [Function.comp]
        split
        next h => rw [h, hself]
        · rfl
      rw [hkeeps]
      cases hold : s.agrees.find? a.same with
      | none => exact absurd hsame (List.find?_eq_none.mp hold b hb)
      | some c => rw [Option.map_some, if_pos (List.find?_some hold)]
    next hnone =>
      rw [List.find?_append, List.find?_eq_none.mpr fun b hb h => hnone (List.any_eq_true.mpr ⟨b, hb, h⟩)]
      simp [hself]
  unfold State.agreeAt
  extract_lets d
  rw [Agree.same_of (b := a) (show d.Of perm j g tag from ⟨rfl, rfl, rfl, rfl⟩) ha, hfind]
  rfl

/-- An agreement to which this device has not contributed waits. -/
theorem State.tryAgree_waits (s : State) {a : Agree} (h : a.own = none) : s.tryAgree a = s := by
  unfold State.tryAgree
  rw [h]

theorem State.agreeAt_congr {s t : State} (hagrees : t.agrees = s.agrees) (hnow : t.now = s.now) (perm : Bool) (j g tag : Nat) :
    t.agreeAt perm j g tag = s.agreeAt perm j g tag := by
  rw [State.agreeAt, State.agreeAt, hagrees, hnow]

theorem State.agreeLate_congr {s t : State} (hagrees : t.agrees = s.agrees) (hnow : t.now = s.now) (hdone : t.agreeDone = s.agreeDone)
    (perm : Bool) (j g tag : Nat) : t.agreeLate perm j g tag = s.agreeLate perm j g tag := by
  rw [State.agreeLate, State.agreeLate, State.agreeAt_congr hagrees hnow, hagrees, hdone]

/-! ### The Group Table as a frame finds it -/

section
variable {s t : State} (h : SameGroups s t) {g : Nat} (hg : g < 256)
include h hg

theorem SameGroups.word {k : Nat} (hk : k < 16) : t.reg (pgGroup g + 8 * k) = s.reg (pgGroup g + 8 * k) := by
  refine h _ ?_ ?_ <;> unfold pgGroup <;> omega

theorem SameGroups.word0 : t.reg (pgGroup g) = s.reg (pgGroup g) := h.word hg (k := 0) (by decide)

theorem SameGroups.children : t.children g = s.children g := by
  rw [State.children, State.children, State.fld_congr (h.word0 hg)]

theorem SameGroups.parent : t.parent g = s.parent g := by
  rw [State.parent, State.parent, State.fld_congr (h.word0 hg)]

theorem SameGroups.peer {i : Nat} (hi : i < 8) : t.peer g i = s.peer g i := by
  rw [State.peer, State.peer, Nat.add_assoc, show 8 + 8 * i = 8 * (i + 1) by omega]
  exact h.word hg (by omega)

theorem SameGroups.slotFrom (dev : Nat) : t.slotFrom g dev = s.slotFrom g dev :=
  firstBelow_congr fun i hi => by rw [State.peerValid, State.peerValid, State.peerDev, State.peerDev, h.peer hg hi]

end

theorem fGroup_lt (f : Frame) : fGroup f < 256 := bits_lt _ 79 72

theorem dGroup_lt (b : Nat) : dGroup b < 256 := bits_lt _ 23 16

/-! ### AGREE_UP and AGREE_DOWN -/

section
variable {s : State} {q : Nat} {f : Frame} {i : Nat} (hslot : s.slotFrom (fGroup f) (fSrc f) = some i) (hdesc : fDesc f = 0x1FF)
  (hlate : s.agreeLate false (fJob f) (fGroup f) (fTag f) = false) (hown : (s.agreeAt false (fJob f) (fGroup f) (fTag f)).own = none)
include hslot hdesc hlate hown

theorem State.agreeUp_hears (hchild : i ∈ s.children (fGroup f)) (hsent : (s.agreeAt false (fJob f) (fGroup f) (fTag f)).sent = false)
    (hfirst : ((s.agreeAt false (fJob f) (fGroup f) (fTag f)).heard.any fun h => h.1 == i) = false) :
    s.agreeUp q f = s.putAgree { s.agreeAt false (fJob f) (fGroup f) (fTag f) with
      heard := (s.agreeAt false (fJob f) (fGroup f) (fTag f)).heard ++ [(i, bit (fTarget f) 8, bit (fTarget f) 9, bit (fTarget f) 10)] } := by
  unfold State.agreeUp
  dsimp only
  rw [hslot, hdesc]
  dsimp only
  rw [if_neg (by simpa using hchild), show ((0x1FF : Nat) == 0x1FE) = false from rfl, if_neg (by rw [hlate]; decide), if_neg (by rw [hsent]; decide),
    if_neg (by rw [hfirst]; decide)]
  exact State.tryAgree_waits _ hown

theorem State.agreeDown_stores (hparent : s.parent (fGroup f) = some i) :
    s.agreeDown q f = s.putAgree { s.agreeAt false (fJob f) (fGroup f) (fTag f) with
      down := some (bit (fTarget f) 8, bit (fTarget f) 10, bit (fTarget f) 9) } := by
  unfold State.agreeDown
  dsimp only
  rw [hslot, hdesc, hparent, if_neg (by simp), show ((0x1FF : Nat) == 0x1FE) = false from rfl, if_neg (by rw [hlate]; decide)]
  exact State.tryAgree_waits _ hown

end

/-- What a record put in place leaves as it was. -/
theorem State.putAgree_keeps (s : State) (a : Agree) : (s.putAgree a).hbm = s.hbm ∧ (s.putAgree a).sections = s.sections ∧ (s.putAgree a).now = s.now :=
  ⟨rfl, rfl, rfl⟩

/-- A command that delivers a frame in its turn by putting a record in place answers a state with that record. -/
theorem agree_answers {s u t : State} {a : Agree} {perm : Bool} {j g tag : Nat} (ha : a.Of perm j g tag) (hu : OnlyPorts s u)
    (ht : OnlyPorts (u.putAgree a) t) : t.agreeAt perm j g tag = a ∧ t.hbm = s.hbm ∧ t.sections = s.sections := by
  obtain ⟨hhbm, hsections, -⟩ := u.putAgree_keeps a
  exact ⟨(State.agreeAt_congr ht.agrees ht.now ..).trans (u.agreeAt_putAgree ha), ht.hbm.trans (hhbm.trans hu.hbm),
    ht.sections.trans (hsections.trans hu.sections)⟩

theorem isCtrl_of {f : Frame} {code : Nat} (htype : fType f = 7) (hcode : fCode f = code) : isCtrl code f = true := by
  rw [isCtrl, htype, hcode]
  simp

section
variable {s : State} {p : PortId} {f : Frame} {i : Nat} (htakes : s.Takes p.val f 7)
include htakes

theorem isCtrl_of_takes {code : Nat} (hcode : fCode f = code) : isCtrl code f = true := by
  obtain ⟨-, -, -, -, htype, -⟩ := htakes
  exact isCtrl_of htype hcode

variable (hslot : s.slotFrom (fGroup f) (fSrc f) = some i) (hdesc : fDesc f = 0x1FF)
  (hlate : s.agreeLate false (fJob f) (fGroup f) (fTag f) = false) {a : Agree} (ha : s.agreeAt false (fJob f) (fGroup f) (fTag f) = a)
  (hown : a.own = none)
include hslot hdesc hlate ha hown

/-- The first AGREE_UP of a child joins what was heard. -/
theorem execAgreeUp_answers (hcode : fCode f = 1) (hchild : i ∈ s.children (fGroup f)) (hsent : a.sent = false)
    (hfirst : (a.heard.any fun h => h.1 == i) = false) : Answers (execAgreeUp p f s) fun t =>
      t.agreeAt false (fJob f) (fGroup f) (fTag f) =
        { a with heard := a.heard ++ [(i, bit (fTarget f) 8, bit (fTarget f) 9, bit (fTarget f) 10)] } ∧
      t.hbm = s.hbm ∧ t.sections = s.sections := by
  have hport := s.counted_onlyPorts p.val f
  have hgroups := s.counted_sameGroups p.isLt f
  have hdelivered := State.receive_takes p.isLt htakes (by decide) (isCtrl_of_takes htakes hcode) fun t => (t.agreeUp p.val f).freeSlot p.val (fVc f)
  refine ⟨_, rfl, agree_answers (ha ▸ s.agreeAt_of ..) hport (.trans ?_ hdelivered)⟩
  generalize s.counted p.val f = u at hport hgroups ⊢
  have hat := State.agreeAt_congr hport.agrees hport.now false (fJob f) (fGroup f) (fTag f)
  rw [ha] at hat
  have hears := u.agreeUp_hears (q := p.val) ((hgroups.slotFrom (fGroup_lt f) _).trans hslot) hdesc
    ((State.agreeLate_congr hport.agrees hport.now hport.agreeDone ..).trans hlate) (by rw [hat]; exact hown)
    (by rw [hgroups.children (fGroup_lt f)]; exact hchild) (by rw [hat]; exact hsent) (by rw [hat]; exact hfirst)
  rw [hat] at hears
  rw [hears]
  exact State.freeSlot_onlyPorts ..

/-- The AGREE_DOWN of the parent is kept as the result. -/
theorem execAgreeDown_answers (hcode : fCode f = 2) (hparent : s.parent (fGroup f) = some i) : Answers (execAgreeDown p f s) fun t =>
    t.agreeAt false (fJob f) (fGroup f) (fTag f) = { a with down := some (bit (fTarget f) 8, bit (fTarget f) 10, bit (fTarget f) 9) } ∧
      t.hbm = s.hbm ∧ t.sections = s.sections := by
  have hport := s.counted_onlyPorts p.val f
  have hgroups := s.counted_sameGroups p.isLt f
  have hdelivered := State.receive_takes p.isLt htakes (by decide) (isCtrl_of_takes htakes hcode) fun t => (t.agreeDown p.val f).freeSlot p.val (fVc f)
  refine ⟨_, rfl, agree_answers (ha ▸ s.agreeAt_of ..) hport (.trans ?_ hdelivered)⟩
  generalize s.counted p.val f = u at hport hgroups ⊢
  have hat := State.agreeAt_congr hport.agrees hport.now false (fJob f) (fGroup f) (fTag f)
  rw [ha] at hat
  have hkeeps := u.agreeDown_stores (q := p.val) ((hgroups.slotFrom (fGroup_lt f) _).trans hslot) hdesc
    ((State.agreeLate_congr hport.agrees hport.now hport.agreeDone ..).trans hlate) (by rw [hat]; exact hown)
    ((hgroups.parent (fGroup_lt f)).trans hparent)
  rw [hat] at hkeeps
  rw [hkeeps]
  exact State.freeSlot_onlyPorts ..

end

/-! ### The deadline -/

/-- Agreements, the permute and HBM, as a frame sent to a peer leaves them. -/
structure SentView where
  agrees : List Agree
  permute : Option PermRun
  hbm : Mem

def State.sentView (s : State) : SentView := ⟨s.agrees, s.permute, s.hbm⟩

section
variable {s t : State} (h : t.sentView = s.sentView)
include h

theorem agrees_of_sentView : t.agrees = s.agrees := congrArg SentView.agrees h

theorem permute_of_sentView : t.permute = s.permute := congrArg SentView.permute h

theorem hbm_of_sentView : t.hbm = s.hbm := congrArg SentView.hbm h

end

theorem OnlyPorts.sentView {s t : State} (h : OnlyPorts s t) : t.sentView = s.sentView := by
  rw [State.sentView, State.sentView, h.agrees, h.permute, h.hbm]

theorem OnlyRegs.sentView {s t : State} (h : OnlyRegs s t) : t.sentView = s.sentView := by
  obtain ⟨r, o, rfl⟩ := h
  rfl

theorem State.sentView_letIn (s : State) (kind p i job cls bytes : Nat) (r : Held) :
    (s.letIn kind p i job cls bytes r).2.sentView = s.sentView := by
  have hhold : (s.beginHold kind p i job).sentView = s.sentView := by
    unfold State.beginHold
    extract_lets k last s1
    split
    · rfl
    · exact (((onlyRegs_fault ..).trans (onlyRegs_ite _ (onlyRegs_event ..) (.refl _))).trans (onlyRegs_event ..)).sentView
  unfold State.letIn
  dsimp only
  split
  · rfl
  split
  · show (if _ then s.beginHold kind p i job else s).sentView = _
    split
    · exact hhold
    · rfl
  · rfl

theorem State.sentView_pushFrame (s : State) (q : Nat) (f : TxFrame) : (s.pushFrame q f).sentView = s.sentView :=
  (((OnlyPorts.refl s).setPort ..).trans (State.pumpPort_onlyPorts ..)).sentView

theorem State.sentView_sendCtrl (s : State) (i : Nat) (f : TxFrame) : (s.sendCtrl i f).sentView = s.sentView := by
  unfold State.sendCtrl State.sendPeer
  split
  · exact ((onlyRegs_bump ..).trans (onlyRegs_event ..)).sentView
  dsimp only
  unfold State.enqueue
  split
  · exact State.sentView_pushFrame ..
  split
  · exact State.sentView_pushFrame ..
  · dsimp only
    split
    · exact (State.sentView_pushFrame ..).trans (State.sentView_letIn ..)
    · exact State.sentView_letIn ..

/-- The gate's or permute's agreement of a job to which this device has contributed. -/
def Agree.contributedFor (perm : Bool) (j : Nat) (a : Agree) : Bool := a.perm == perm && a.job == j && a.own.isSome

/-- The first agreement contributed to, put in place as forwarded, is still the first. -/
theorem State.find_putAgree {s : State} {perm : Bool} {j : Nat} {a : Agree} (h : s.agrees.find? (Agree.contributedFor perm j) = some a) :
    (s.putAgree { a with sent := true }).agrees.find? (Agree.contributedFor perm j) = some { a with sent := true } := by
  obtain ⟨b, hb⟩ : ∃ b : Agree, b = { a with sent := true } := ⟨_, rfl⟩
  have hmine : b.contributedFor perm j = true := hb ▸ (List.find?_some h : a.contributedFor perm j = true)
  have hsame : b.same a = true := by rw [hb]; exact (Agree.same_iff _ a).mpr ⟨rfl, rfl, rfl, rfl⟩
  rw [← hb]
  obtain ⟨-, before, after, hlist, hearlier⟩ := List.find?_eq_some_iff_append.mp h
  have hany : s.agrees.any b.same = true := List.any_eq_true.mpr ⟨a, List.mem_of_find?_eq_some h, hsame⟩
  unfold State.putAgree
  dsimp only
  rw [if_pos hany, hlist, List.map_append, List.map_cons, if_pos hsame, List.find?_append, List.find?_cons_of_pos hmine]
  cases hfind : (before.map fun c => if b.same c then b else c).find? (Agree.contributedFor perm j) with
  | none => rfl
  | some c =>
    obtain ⟨x, hx, hxc⟩ := List.mem_map.mp (List.mem_of_find?_eq_some hfind)
    have hc := List.find?_some hfind
    rw [Option.some_or]
    split at hxc
    · rw [hxc]
    · subst hxc
      have hnot := hearlier x hx
      rw [hc] at hnot
      exact absurd hnot (by decide)

/-- What makes an agreement wait for its deadline or for nothing: it has gone up, or a child is missing in time. -/
theorem State.tryAgree_idle {s : State} {a : Agree} (hown : a.own.isSome = true) (hdown : a.down = none)
    (h : a.sent = true ∨ ((∃ i ∈ s.children a.group, (a.heard.any fun h => h.1 == i) = false) ∧ s.now ≤ a.t0 + s.agreeTime a)) :
    s.tryAgree a = s := by
  obtain ⟨own, hown⟩ := Option.isSome_iff_exists.mp hown
  unfold State.tryAgree
  rw [hown, hdown]
  dsimp only
  refine if_pos ?_
  rcases h with hsent | ⟨⟨i, hi, hmiss⟩, htime⟩
  · rw [hsent, Bool.true_or]
  · have hlack : (a.heard.find? fun h => h.1 == i) = none := by
      rw [List.find?_eq_none]
      intro x hx hxi
      exact absurd (List.any_eq_true.mpr ⟨x, hx, hxi⟩) (by rw [hmiss]; decide)
    have hfew : ((s.children a.group).filterMap fun i => a.heard.find? (·.1 == i)).length < (s.children a.group).length := by
      rw [List.length_filterMap_lt_length_iff_exists]
      exact ⟨i, hi, hlack⟩
    rw [decide_eq_false (by omega), decide_eq_false (by omega), Bool.or_false, Bool.not_false, Bool.or_true]

/-- At its deadline an agreement goes up to the parent. -/
theorem State.tryAgree_up {s : State} {a : Agree} {i : Nat} (hown : a.own.isSome = true) (hdown : a.down = none) (hsent : a.sent = false)
    (hdue : a.t0 + s.agreeTime a < s.now) (hparent : s.parent a.group = some i) :
    ∃ f, s.tryAgree a = (s.putAgree { a with sent := true }).sendCtrl i f := by
  obtain ⟨own, hown⟩ := Option.isSome_iff_exists.mp hown
  unfold State.tryAgree
  rw [hown, hdown]
  dsimp only
  rw [if_neg (by simp [hsent, hdue]), hparent]
  exact ⟨_, rfl⟩

/-! ### What passing time leaves of an agreement -/

theorem State.tick_partOfJob (s : State) (dt : Nat) {j : Nat} (hj : j < 16) : (s.tick dt).partOfJob j = s.partOfJob j := by
  refine firstBelow_congr fun p hp => ?_
  have hreg : ∀ o, o = 0x100 ∨ o = 0x200 + 16 * j → (s.tick dt).reg (pgPart p + o) = s.reg (pgPart p + o) := by
    intro o ho
    have hpage : pgPart p = 0x2_0000 + p * 0x1000 := rfl
    refine s.tick_reg dt (by unfold pgGlobal; omega) (by omega) ?_ fun _ _ => ?_ <;>
      · simp only [List.mem_cons, List.not_mem_nil, or_false]
        omega
  rw [State.partOn, State.partOn, State.flag_congr (hreg _ (.inl rfl)), Nat.add_assoc, State.flag_congr (hreg _ (.inr rfl))]

theorem State.tick_agreeTime (s : State) (dt : Nat) {a : Agree} (hj : a.job < 16) : (s.tick dt).agreeTime a = s.agreeTime a := by
  have hperm : (s.tick dt).reg (pgGlobal + 0x948) = s.reg (pgGlobal + 0x948) :=
    s.tick_reg dt (by decide) (by decide) (by decide) fun h => absurd h (by decide)
  have hpart : (s.tick dt).partOf a.job = s.partOf a.job := by rw [State.partOf, State.partOf, s.tick_partOfJob dt hj]
  have hlt : s.partOf a.job < 8 := by
    unfold State.partOf
    cases h : s.partOfJob a.job with
    | none => decide
    | some p => exact State.partOfJob_lt h
  rw [State.agreeTime, State.agreeTime, hpart, State.fld_congr hperm,
    State.fld_congr ((s.tick_keepsSteps dt).reg _ (stepReg_block hlt hj (by decide)))]

theorem State.tick_agrees (s : State) (dt : Nat) : (s.tick dt).agrees = s.agrees := by
  obtain ⟨r, o, lim, slew, held, htick⟩ := s.tick_cases dt
  rw [htick]

/-! ### Bits that passing time only sets

The pending bits of the MSI-X tables lie above the Group Table. A GROUP beyond it, which no frame carries, would read them. -/

/-- From the engines' pages on, a bit set in `s` is set in `t`. -/
def RaisesBits (s t : State) : Prop := ∀ a i, 0x12_0000 ≤ a → s.flag a i = true → t.flag a i = true

namespace RaisesBits
variable {s t u : State}

theorem refl (s : State) : RaisesBits s s := fun _ _ _ h => h

theorem trans (h : RaisesBits s t) (k : RaisesBits t u) : RaisesBits s u := fun a i ha hs => k a i ha (h a i ha hs)

theorem ite (c : Prop) [Decidable c] (h : RaisesBits s t) (k : RaisesBits s u) : RaisesBits s (if c then t else u) := by
  split
  · exact h
  · exact k

theorem setFlag (h : RaisesBits s t) (b : Nat) {j : Nat} (hj : j < 64) : RaisesBits s (t.setFlag b j true) := by
  refine h.trans fun a i _ hset => ?_
  by_cases hij : i = j
  · subst hij
    exact t.flag_setFlag_true b a hj hset
  · exact (t.flag_setFlag_other_bit b a true hj hij).trans hset

theorem setReg (h : RaisesBits s t) {b : Nat} (hb : b < 0x12_0000) (v : Nat) : RaisesBits s (t.setReg b v) :=
  h.trans fun a i ha hset => (State.flag_congr (t.reg_setReg_ne v (by omega)) i).trans hset

theorem msixTo (h : RaisesBits s t) (p : HostPort) (v : Nat) : RaisesBits s (t.msixTo p v) := by
  unfold State.msixTo
  extract_lets b
  exact .ite _ (.ite _ (h.setFlag _ (Nat.mod_lt _ (by decide))) h) h

theorem sendIrq (h : RaisesBits s t) (pg : Nat) : RaisesBits s (t.sendIrq pg) := by
  unfold State.sendIrq
  extract_lets c t1
  have h1 : RaisesBits s t1 := .ite _ (h.msixTo _ _) h
  exact .ite _ (h1.msixTo _ _) h1

theorem event (h : RaisesBits s t) (pg : Nat) {i : Nat} (hi : i < 64) : RaisesBits s (t.event pg i) := by
  unfold State.event
  extract_lets was t1 t2
  have h1 : RaisesBits s t1 := h.setFlag _ hi
  have h2 : RaisesBits s t2 := .ite _ (h1.setFlag _ hi) h1
  exact .ite _ (h2.sendIrq pg) h2

theorem bump (h : RaisesBits s t) {b : Nat} (hb : b < 0x12_0000) (n : Nat) : RaisesBits s (t.bump b n) := by
  have hsat : ∀ ty e, cntSatBit ty = some e → e < 64 := by
    intro ty e he
    unfold cntSatBit at he
    split at he <;> cases he <;> decide
  unfold State.bump
  extract_lets v c t1
  refine .ite _ h (.ite _ (h.setReg hb _) ?_)
  split
  next e he => exact (h.setReg hb _).event _ (hsat _ e he)
  · exact h.setReg hb _

end RaisesBits

theorem State.regWaits_raises (s : State) (dt : Nat) : RaisesBits s (s.regWaits dt) := by
  have hkinds : ∀ k ∈ s.regsHolding, k < 24 := by
    intro k hk
    simp only [State.regsHolding, List.mem_eraseDups, List.mem_map, List.mem_filter, Bool.and_eq_true, decide_eq_true_eq] at hk
    obtain ⟨e, ⟨_, he, _⟩, rfl⟩ := hk
    omega
  refine List.foldlRecOn (motive := RaisesBits s) _ _ (.refl s) fun t ht k hk => ht.bump ?_ dt
  have hk := hkinds k hk
  unfold pgPart
  omega

theorem State.tick_raises (s : State) (dt : Nat) : RaisesBits s (s.tick dt) := by
  have hlimit : RaisesBits s ((s.regWaits dt).limitTime dt) := by
    unfold State.limitTime
    extract_lets lim
    exact .ite _ ((s.regWaits_raises dt).bump (by decide) dt) (s.regWaits_raises dt)
  unfold State.tick State.regHeldNow State.clocks
  generalize (s.regWaits dt).limitTime dt = t at hlimit ⊢
  dsimp only
  split
  · exact hlimit.setReg (by decide) _
  · exact hlimit

theorem bit_bits_children (w : Nat) {i : Nat} (hi : i < 8) : bit (bits w 11 4) i = bit w (4 + i) := by
  rw [bit_eq_testBit, bit_eq_testBit, bits, Nat.testBit_mod_two_pow, Nat.testBit_div_two_pow, decide_eq_true (show i < 11 + 1 - 4 by omega),
    Bool.true_and, Nat.add_comm]

theorem RaisesBits.children {s t : State} (h : RaisesBits s t) (g : Nat) {i : Nat} (hi : i ∈ s.children g) : i ∈ t.children g := by
  unfold State.children bitList at hi ⊢
  rw [List.mem_filter, List.mem_range] at hi ⊢
  obtain ⟨hlt, hset⟩ := hi
  refine ⟨hlt, ?_⟩
  rw [State.fld, bit_bits_children _ hlt] at hset ⊢
  exact h _ _ (by unfold pgGroup; omega) hset

theorem State.tick_parent (s : State) (dt : Nat) {g : Nat} (hg : g < 256) : (s.tick dt).parent g = s.parent g := by
  have hpage : pgGroup g = 0x12_8000 + g * 0x80 := rfl
  have hreg : (s.tick dt).reg (pgGroup g) = s.reg (pgGroup g) := by
    refine s.tick_reg dt (by unfold pgGlobal; omega) (by omega) ?_ fun _ h => absurd h (by omega)
    simp only [List.mem_cons, List.not_mem_nil, or_false]
    omega
  rw [State.parent, State.parent, State.fld_congr hreg]

/-! ### AGREE_DEADLINE -/

section
variable {s : State} {dt : Nat} {perm : Bool} {j : JobId} (hlive : (s.tick dt).live = true)
include hlive

theorem execAgreeDeadline_next : execAgreeDeadline dt perm j s = .next (match s.agrees.find? (Agree.contributedFor perm j.val) with
    | some a => (s.tick dt).tryAgree a
    | none => s.tick dt) := by
  unfold execAgreeDeadline
  rw [State.whenLive_of_live hlive, State.tick_agrees] <;> rfl

variable {a : Agree} (hfind : s.agrees.find? (Agree.contributedFor perm j.val) = some a)
include hfind

omit hlive in
theorem Agree.of_find : a.own.isSome = true ∧ a.job = j.val := by
  have hmine := List.find?_some hfind
  simp only [Agree.contributedFor, Bool.and_eq_true, beq_iff_eq] at hmine
  exact ⟨hmine.2, hmine.1.2⟩

theorem execAgreeDeadline_idle (hdown : a.down = none) (h : a.sent = true ∨
    ((∃ i ∈ s.children a.group, (a.heard.any fun h => h.1 == i) = false) ∧ (s.tick dt).now ≤ a.t0 + s.agreeTime a)) :
    execAgreeDeadline dt perm j s = .next (s.tick dt) := by
  obtain ⟨hown, hjob⟩ := Agree.of_find hfind
  rw [execAgreeDeadline_next hlive, hfind]
  refine congrArg Host.Outcome.next (State.tryAgree_idle hown hdown ?_)
  rw [s.tick_agreeTime dt (hjob ▸ j.isLt)]
  exact h.imp_right fun ⟨⟨i, hi, hmiss⟩, htime⟩ => ⟨⟨i, (s.tick_raises dt).children _ hi, hmiss⟩, htime⟩

theorem execAgreeDeadline_up {i : Nat} (hdown : a.down = none) (hsent : a.sent = false) (hdue : a.t0 + s.agreeTime a < (s.tick dt).now)
    (hparent : s.parent a.group = some i) : Answers (execAgreeDeadline dt perm j s) fun t =>
      t.agrees.find? (Agree.contributedFor perm j.val) = some { a with sent := true } ∧ t.hbm = s.hbm := by
  obtain ⟨hown, hjob⟩ := Agree.of_find hfind
  have hgroup : a.group < 256 := by
    by_contra hbig
    rw [State.parent, if_neg (by omega)] at hparent
    cases hparent
  obtain ⟨f, hup⟩ := State.tryAgree_up (s := s.tick dt) hown hdown hsent (by rwa [s.tick_agreeTime dt (hjob ▸ j.isLt)])
    ((s.tick_parent dt hgroup).trans hparent)
  have hview := ((s.tick dt).putAgree { a with sent := true }).sentView_sendCtrl i f
  rw [← hup] at hview
  refine ⟨(s.tick dt).tryAgree a, ?_, ?_, ?_⟩
  · rw [execAgreeDeadline_next hlive, hfind]
  · rw [agrees_of_sentView hview]
    exact State.find_putAgree (s := s.tick dt) (by rw [State.tick_agrees]; exact hfind)
  · exact (hbm_of_sentView hview).trans (((s.tick dt).putAgree_keeps { a with sent := true }).1.trans (s.tick_hbm dt))

end

/-! ### The norms and the abort of a running descriptor -/

/-- A run is the one that a frame names. -/
def CollRun.instanceOf (f : Frame) (r : CollRun) : Bool := r.serves f && r.wait.tag == fTag f

theorem State.runFor_eq (s : State) (d : Nat) (f : Frame) : s.runFor d f = (s.engine d).running.find? (CollRun.instanceOf f) := rfl

theorem State.runFor_congr {s t : State} {d : Nat} (h : t.engine d = s.engine d) (f : Frame) : t.runFor d f = s.runFor d f := by
  rw [State.runFor, State.runFor, h]

/-- A run replaced by one of the same descriptor is what its frames find. -/
theorem State.runFor_setRun {s : State} {d : Nat} {f : Frame} {r r' : CollRun} (hrun : s.runFor d f = some r) (hwait : r'.wait = r.wait)
    (hbody : r'.body = r.body) : (s.setRun d r').runFor d f = some r' := by
  rw [State.runFor_eq] at hrun
  have hserves : CollRun.instanceOf f r' = true := by
    rw [CollRun.instanceOf, CollRun.serves, hwait, hbody]
    exact (List.find?_some hrun : CollRun.instanceOf f r = true)
  have hengine : (s.setRun d r').engine d =
      { s.engine d with running := (s.engine d).running.map fun q => if q.wait = r'.wait then r' else q } :=
    (engine_of_runView (State.redStatus_onlyRegs ..).runView d).trans (State.engine_setEngine_self ..)
  rw [State.runFor_eq, hengine]
  dsimp only
  obtain ⟨-, before, after, hlist, hearlier⟩ := List.find?_eq_some_iff_append.mp hrun
  rw [hlist, List.map_append, List.map_cons, if_pos hwait.symm, List.find?_append, List.find?_cons_of_pos hserves]
  cases hfind : (before.map fun q => if q.wait = r'.wait then r' else q).find? (CollRun.instanceOf f) with
  | none => rfl
  | some c =>
    obtain ⟨x, hx, hxc⟩ := List.mem_map.mp (List.mem_of_find?_eq_some hfind)
    have hc := List.find?_some hfind
    rw [Option.some_or]
    split at hxc
    · rw [hxc]
    · subst hxc
      have hnot := hearlier x hx
      rw [hc] at hnot
      exact absurd hnot (by decide)

/-- What a run replaced leaves of the group words: the words of the RED section's page are never one. -/
theorem State.setRun_group (s : State) (d : Nat) (r : CollRun) (g : Nat) : (s.setRun d r).reg (pgGroup g) = s.reg (pgGroup g) := by
  have hne : ∀ p j : Nat, pgGroup g ≠ collReg p j 8 := by
    intro p j
    unfold pgGroup collReg pgPart
    omega
  unfold State.setRun State.redStatus
  dsimp only
  split
  next c _ => exact reg_ite _ ((State.reg_setFld_ne _ _ _ _ (hne c.part c.job)).trans (State.reg_setFld_ne _ _ _ _ (hne c.part c.job))) rfl
  · rfl

theorem State.upDone_congr {s t : State} {r r' : CollRun} (hbody : r'.body = r.body) (hup : r'.upK = r.upK)
    (h : t.reg (pgGroup (dGroup r.body)) = s.reg (pgGroup (dGroup r.body))) : t.upDone r' = s.upDone r := by
  have hplace : t.ringPlace r' = s.ringPlace r := by rw [State.ringPlace, State.ringPlace, hbody, State.fld_congr h, State.fld_congr h]
  have hroot : t.isRoot r' = s.isRoot r := by rw [State.isRoot, State.isRoot, State.parent, State.parent, hbody, State.fld_congr h]
  rw [State.upDone, State.upDone, hroot, hbody, hup, State.ringEvents, State.ringEvents, State.perShard, State.perShard, hplace, hbody]

/-- Norms wait until this device's contribution has gone up. -/
theorem State.tryNorm_of_pending (s : State) (d : Nat) {r : CollRun} (h : s.upDone r = false) : s.tryNorm d r = s := by
  rw [State.tryNorm, h]
  exact if_pos (by simp)

theorem State.runView_sendNorm (s : State) (d i code : Nat) (r : CollRun) (v cnt : Nat) : (s.sendNorm d i code r v cnt).runView = s.runView :=
  (State.runView_bump ..).trans (State.runView_sendPeer ..)

theorem State.runView_normTotal (s : State) (d : Nat) (r : CollRun) (v cnt : Nat) : (s.normTotal d r v cnt).runView =
    (s.setRun d { r with normTotal := v, normCnt := cnt, normDone := true, normUp := true }).runView :=
  foldl_keeps_view State.runView _ _ _ fun _ _ _ => State.runView_sendNorm ..

section
variable {s : State} {d : Nat} {r : CollRun} {f : Frame} {i : Nat} (hslot : s.slotFrom (dGroup r.body) (fSrc f) = some i)
include hslot

theorem State.takeCtrl_normUp (hcode : fCode f = 3) (hchild : i ∈ s.children (dGroup r.body)) (hpresent : i ∉ r.missing)
    (hfirst : (r.normUps.any fun n => n.1 == i) = false) (hpending : s.upDone r = false) : s.takeCtrl d r f =
      (s.setRun d { r with normUps := r.normUps ++ [(i, leNat (f.payload.take 8), bits (fTarget f) 63 48)] }).bump (ceReg d 0x118)
        f.payload.length := by
  have hchildOf : s.childOf r i = some (i, false) := if_pos (by simpa using hchild)
  unfold State.takeCtrl
  dsimp only
  rw [hcode, hslot]
  dsimp only [Option.bind_some]
  rw [hchildOf]
  dsimp only
  rw [if_neg (by simpa using hpresent), if_neg (by rw [hfirst]; decide)]
  refine State.tryNorm_of_pending _ _ ((State.upDone_congr (s := s) (r := r) rfl rfl ?_).trans hpending)
  have hpage : pgGroup (dGroup r.body) = 0x12_8000 + dGroup r.body * 0x80 := rfl
  have hgroup := dGroup_lt r.body
  have hpageOf : pageBase (ceReg d 0x118) = 0x12_0000 + d * 0x1000 := by unfold pageBase ceReg pgEngine; omega
  have hcount : ceReg d 0x118 = 0x12_0000 + d * 0x1000 + 0x118 := rfl
  exact (State.bump_reg _ _ _ (by omega) (by omega) (by omega) (by omega)).trans (s.setRun_group ..)

theorem State.takeCtrl_normDown (hcode : fCode f = 4) (hparent : s.parent (dGroup r.body) = some i) : s.takeCtrl d r f =
    (s.bump (ceReg d 0x118) f.payload.length).normTotal d r (leNat (f.payload.take 8)) (bits (fTarget f) 63 48) := by
  unfold State.takeCtrl
  dsimp only
  rw [hcode, hslot, hparent]
  exact if_pos ⟨rfl, rfl⟩

omit hslot in
theorem State.takeAbort_child (hchild : i ∈ s.children (dGroup r.body)) (hpresent : i ∉ r.missing) (hnorms : dFlag r.body 4 = false) :
    s.takeAbort d r (some i) =
      s.setRun d { r with missing := r.missing ++ [i], chunks := r.chunks.filter fun c => c.down || !(c.slot == i) } := by
  unfold State.takeAbort
  dsimp only
  rw [if_pos (by simpa using hchild), if_neg (by simpa using hpresent)]
  exact State.tryNorm_of_noNorms _ _ hnorms

theorem State.takeCtrl_abort (hcode : fCode f = 5) (hchild : i ∈ s.children (dGroup r.body)) (hpresent : i ∉ r.missing)
    (hnorms : dFlag r.body 4 = false) : s.takeCtrl d r f =
      s.setRun d { r with missing := r.missing ++ [i], chunks := r.chunks.filter fun c => c.down || !(c.slot == i) } := by
  unfold State.takeCtrl
  dsimp only
  rw [hcode, hslot]
  exact State.takeAbort_child hchild hpresent hnorms

end

/-- A frame of a descriptor that runs, not a TOKEN, MARK or COLL frame, is taken by its run. -/
theorem State.deliverFrame_ctrl {s : State} {q : Nat} {f : Frame} {r : CollRun} (htype : fType f = 7) (hrun : s.runFor (q / 4) f = some r) :
    s.deliverFrame q f = (s.takeCtrl (q / 4) r f).freeSlot q (fVc f) := by
  have hpermute : s.ofPermute (q / 4) f = false := by rw [State.ofPermute, hrun]; rfl
  have hmeets : s.meets q f = .take := by
    unfold State.meets
    dsimp only
    rw [htype, if_pos rfl]
    dsimp only
    rw [if_neg (by decide), hpermute, if_neg (by decide), State.instanceMeets, hrun]
    rfl
  have htaken : s.takeFrame q f = s.takeCtrl (q / 4) r f := by
    unfold State.takeFrame
    dsimp only
    rw [htype, if_neg (by decide), hpermute, if_neg (by decide), hrun]
    exact if_neg (by decide)
  have hend : s.endFrame q f .take = (s.settleFrame q f .take).freeSlot q (fVc f) := if_neg (by rw [htype]; decide)
  unfold State.deliverFrame
  rw [hmeets]
  refine hend.trans ?_
  exact congrArg (State.freeSlot · q (fVc f)) htaken

/-- A NORM or ABORT frame of a running descriptor, taken in its turn, leaves what the descriptor made of it. -/
theorem ctrl_answers {s : State} {p : PortId} {f : Frame} {r : CollRun} (htakes : s.Takes p.val f 7) (hrun : s.runFor (p.val / 4) f = some r)
    {code : Nat} (hcode : fCode f = code) {go : State → State}
    (hgo : go (s.counted p.val f) = (s.counted p.val f).deliverFrame p.val f) {r' : CollRun}
    (htaken : ((s.counted p.val f).takeCtrl (p.val / 4) r f).runFor (p.val / 4) f = some r')
    (hhbm : ((s.counted p.val f).takeCtrl (p.val / 4) r f).hbm = (s.counted p.val f).hbm) :
    (s.receive p.val f (isCtrl code) go).hbm = s.hbm ∧ (s.receive p.val f (isCtrl code) go).runFor (p.val / 4) f = some r' := by
  have hport := s.counted_onlyPorts p.val f
  have hdelivered := State.receive_takes p.isLt htakes (by decide) (isCtrl_of_takes htakes hcode) go
  obtain ⟨-, -, -, -, htype, -⟩ := htakes
  rw [hgo, State.deliverFrame_ctrl htype ((State.runFor_congr (hport.engine _) f).trans hrun)] at hdelivered
  have hafter := (State.freeSlot_onlyPorts _ p.val (fVc f)).trans hdelivered
  exact ⟨hafter.hbm.trans (hhbm.trans hport.hbm), (State.runFor_congr (hafter.engine _) f).trans htaken⟩

end Sys2Proof.Machine

namespace Sys2Proof
open Machine

/-- Settles O43: a frame that arrives in its turn is delivered in a state with the same agreements, runs and group words; what it is then made of is an equation
of the record or of the run, and the port's own part comes after it. -/
theorem collectiveAgreements : Obligations.CollectiveAgreements := by
  unfold Obligations.CollectiveAgreements
  refine ⟨fun s p f i htakes hdesc => ?agree, fun s dt perm j => ?deadline, fun s p f r i htakes hrun hslot => ?norms⟩
  case agree =>
    intro g a v hslot hlate hown
    exact ⟨execAgreeUp_answers htakes hslot hdesc hlate rfl hown, execAgreeDown_answers htakes hslot hdesc hlate rfl hown⟩
  case deadline =>
    intro u hlive mine
    refine ⟨fun hnone => ?_, fun a hfind hdown => ⟨execAgreeDeadline_idle hlive hfind hdown,
      fun i hsent hdue hparent => execAgreeDeadline_up hlive hfind hdown hsent hdue hparent⟩⟩
    have hfind : s.agrees.find? (Agree.contributedFor perm j.val) = none := hnone
    refine (execAgreeDeadline_next hlive).trans ?_
    rw [hfind]
  case norms =>
    have hd : p.val / 4 < 8 := by have := p.isLt; omega
    have hport := s.counted_onlyPorts p.val f
    have hgroups := s.counted_sameGroups p.isLt f
    have hrun' := (State.runFor_congr (hport.engine (p.val / 4)) f).trans hrun
    have hslot' := (hgroups.slotFrom (dGroup_lt r.body) (fSrc f)).trans hslot
    have hchildren := hgroups.children (dGroup_lt r.body)
    refine ⟨fun hcode hchild hpresent hfirst hpending => ⟨_, rfl, ctrl_answers htakes hrun hcode rfl ?_ ?_⟩,
      fun hcode hparent => ⟨_, rfl, ctrl_answers htakes hrun hcode rfl ?_ ?_⟩,
      fun hcode hnot hchild hpresent hnorms => ⟨_, rfl, ctrl_answers htakes hrun hcode (if_neg hnot) ?_ ?_⟩⟩
    all_goals generalize s.counted p.val f = w at hport hgroups hrun' hslot' hchildren ⊢
    · rw [w.takeCtrl_normUp hslot' hcode (hchildren ▸ hchild) hpresent hfirst
        ((State.upDone_congr rfl rfl (hgroups.word0 (dGroup_lt r.body))).trans hpending), State.runFor_congr (engine_of_runView (State.runView_bump ..) _)]
      exact State.runFor_setRun hrun' rfl rfl
    · rw [w.takeCtrl_normUp hslot' hcode (hchildren ▸ hchild) hpresent hfirst
        ((State.upDone_congr rfl rfl (hgroups.word0 (dGroup_lt r.body))).trans hpending), (onlyRegs_bump ..).hbm]
      exact w.hbm_setRun ..
    · rw [w.takeCtrl_normDown hslot' hcode ((hgroups.parent (dGroup_lt r.body)).trans hparent),
        State.runFor_congr (engine_of_runView (State.runView_normTotal ..) _)]
      exact State.runFor_setRun ((State.runFor_congr (engine_of_runView (State.runView_bump ..) _) f).trans hrun') rfl rfl
    · rw [w.takeCtrl_normDown hslot' hcode ((hgroups.parent (dGroup_lt r.body)).trans hparent), hbm_of_runView (State.runView_normTotal ..)]
      exact (State.hbm_setRun ..).trans (onlyRegs_bump ..).hbm
    · rw [w.takeCtrl_abort hslot' hcode (hchildren ▸ hchild) hpresent hnorms]
      exact State.runFor_setRun hrun' rfl rfl
    · rw [w.takeCtrl_abort hslot' hcode (hchildren ▸ hchild) hpresent hnorms]
      exact w.hbm_setRun ..

end Sys2Proof
end

section
/-! SUPPORT. The permute (R346..R348): its request, WAIT, MOVE with nothing left to move, and its end without a result. -/
namespace Sys2Proof.Machine

/-! ### The request -/

section
variable {s : State} {acc : Acc} {w : W64} (hopen : s.Open acc (pgGlobal + 0x950))
include hopen

theorem execPermuteRequest_asks (hacts : acts w.toNat 0 = true) (hbusy : s.flag (pgGlobal + 0x958) 63 = false) (hlive : s.live = true) :
    execPermuteRequest acc w s = .next (s.request ⟨6, s.permJob, acc.port.code, 0, none⟩) :=
  congrArg Host.Outcome.next ((State.hostWrite_of_open hopen _).trans (if_pos ⟨hacts, by rw [hbusy]; rfl, hlive⟩))

theorem execPermuteRequest_ignored (h : acts w.toNat 0 = false ∨ s.flag (pgGlobal + 0x958) 63 = true) : execPermuteRequest acc w s = .next s := by
  refine congrArg Host.Outcome.next ((State.hostWrite_of_open hopen _).trans (if_neg ?_))
  rintro ⟨hacts, hbusy, -⟩
  rcases h with h | h
  · rw [h] at hacts
    exact absurd hacts (by decide)
  · rw [h] at hbusy
    exact absurd hbusy (by decide)

end

theorem State.arbiter_permute {s : State} {m : MaintOp} (hcls : m.cls = 6) (hbusy : s.flag (pgGlobal + 0x958) 63 = false) :
    s.arbiter m = s.maintAsk m := by
  unfold State.arbiter
  rw [if_neg (by rw [hcls]; decide), if_neg (by rw [hbusy]; simp)]

/-! ### The staged entries -/

theorem Tab.filterMap_put {α β : Type} (f : Nat × α → Option β) {k : Nat} (hf : ∀ v, f (k, v) = none) (t : Tab α) (v : α) :
    List.filterMap f (Tab.put t k v) = List.filterMap f t := by
  induction t with
  | nil => rw [Tab.put, List.filterMap_cons_none (hf v)]
  | cons e t ih =>
    obtain ⟨j, w⟩ := e
    unfold Tab.put
    split
    · rw [List.filterMap_cons_none (hf v)]
    split
    next hk =>
      subst hk
      rw [List.filterMap_cons_none (hf v), List.filterMap_cons_none (hf w)]
    · rw [List.filterMap_cons, List.filterMap_cons, ih]

theorem Tab.filterMap_del {α β : Type} (f : Nat × α → Option β) {k : Nat} (hf : ∀ v, f (k, v) = none) (t : Tab α) :
    List.filterMap f (Tab.del t k) = List.filterMap f t := by
  unfold Tab.del
  induction t with
  | nil => rfl
  | cons e t ih =>
    obtain ⟨j, w⟩ := e
    by_cases hk : j = k
    · subst hk
      rw [List.filter_cons_of_neg (by simp), List.filterMap_cons_none (hf w), ih]
    · rw [List.filter_cons_of_pos (by simpa using hk), List.filterMap_cons, List.filterMap_cons, ih]

/-- A register outside the Shard Directory lists no entry. -/
theorem State.sdListed_setReg (s : State) {a : Nat} (ha : windowKind a ≠ 1) (v : Nat) : (s.setReg a v).sdListed = s.sdListed := by
  have hnone : ∀ w : Nat × W64, w.1 = a → (if windowKind w.1 = 1 ∧ w.1 % 32 = 0 then some ((w.1 - 0x30_0000) / 32) else none) = none := by
    rintro ⟨b, w⟩ rfl
    exact if_neg fun h => ha h.1
  unfold State.sdListed State.setReg Tab.set
  dsimp only
  split
  · exact Tab.filterMap_del _ (fun v => hnone (a, v) rfl) _
  · exact Tab.filterMap_put _ (fun v => hnone (a, v) rfl) _ _

theorem sdAddr_ge (b : Nat) : 0x30_0000 ≤ sdAddr b := by unfold sdAddr; omega

theorem State.setPermPhase_reg (s : State) (n : Nat) {a : Nat} (ha : a ≠ pgGlobal + 0x958) : (s.setPermPhase n).reg a = s.reg a :=
  s.reg_setReg_ne _ ha

theorem State.onlyRegs_setPermPhase (s : State) (n : Nat) : OnlyRegs s (s.setPermPhase n) := onlyRegs_setFld ..

theorem OnlyRegs.heldFrames {s t : State} (h : OnlyRegs s t) : t.heldFrames = s.heldFrames := by obtain ⟨r, o, rfl⟩ := h; rfl

theorem OnlyRegs.agrees {s t : State} (h : OnlyRegs s t) : t.agrees = s.agrees := by obtain ⟨r, o, rfl⟩ := h; rfl

theorem OnlyRegs.permute {s t : State} (h : OnlyRegs s t) : t.permute = s.permute := by obtain ⟨r, o, rfl⟩ := h; rfl

theorem State.staged_setPermPhase (s : State) (n : Nat) : (s.setPermPhase n).staged = s.staged := by
  unfold State.staged
  rw [show (s.setPermPhase n).sdListed = s.sdListed from s.sdListed_setReg (by decide) _]
  refine List.filter_congr fun b _ => ?_
  have hword : (s.setPermPhase n).sdWord b 0 = s.sdWord b 0 := s.setPermPhase_reg n (by have := sdAddr_ge b; unfold pgGlobal; omega)
  rw [State.sdStaged, State.sdStaged, State.sdJob, State.sdJob, hword, State.permJob, State.permJob, State.fld_congr (s.setPermPhase_reg n (by decide))]

/-! ### WAIT -/

/-- What keeps a permute in WAIT. -/
def State.permWaits (s : State) : Prop :=
  s.permPhase ≠ 1 ∨ s.seqQuiet (s.partOf s.permJob) s.permJob = false ∨ s.jobIdle s.permJob = false ∨ s.flag (pgGlobal + 0x928) 63 = true

section
variable {s : State} {r : PermRun} (hlive : s.live = true) (hpermute : s.permute = some r)
include hlive hpermute

theorem execPermuteWaitDone_waits (h : s.permWaits) : execPermuteWaitDone s = .next s := by
  refine congrArg Host.Outcome.next ((State.whenLive_of_live hlive _).trans ?_)
  rw [hpermute]
  refine if_pos ?_
  unfold State.permWaits at h
  cases hquiet : s.seqQuiet (s.partOf s.permJob) s.permJob <;> cases hidle : s.jobIdle s.permJob <;> simp_all

theorem execPermuteWaitDone_starts (h : ¬s.permWaits) : execPermuteWaitDone s = .next (s.permStart r) := by
  refine congrArg Host.Outcome.next ((State.whenLive_of_live hlive _).trans ?_)
  rw [hpermute]
  refine if_neg fun hw => h ?_
  unfold State.permWaits
  cases hquiet : s.seqQuiet (s.partOf s.permJob) s.permJob <;> cases hidle : s.jobIdle s.permJob <;> simp_all

end

/-- With nothing staged, the check is of the region offset alone. -/
theorem State.permCheck_of_none {s : State} (hstaged : s.staged = []) : s.permCheck = !(s.permOff == 0) := by
  unfold State.permCheck
  rw [hstaged]
  simp

def State.setPermute (s : State) (v : Option PermRun) : State := { s with permute := v }

theorem State.setPermute_eq (s : State) (v : Option PermRun) : { s with permute := v } = s.setPermute v := rfl

theorem State.setPermute_permute (s : State) (v : Option PermRun) : (s.setPermute v).permute = v := rfl

theorem State.setPermute_hbm (s : State) (v : Option PermRun) : (s.setPermute v).hbm = s.hbm := rfl

theorem State.setPermute_reg (s : State) (v : Option PermRun) (a : Nat) : (s.setPermute v).reg a = s.reg a := rfl

theorem State.setPermute_agrees (s : State) (v : Option PermRun) : (s.setPermute v).agrees = s.agrees := rfl

theorem State.setPermute_heldFrames (s : State) (v : Option PermRun) : (s.setPermute v).heldFrames = s.heldFrames := rfl

/-- MOVE of a permute with nothing to move. -/
def State.permMoveBegun (s : State) (r : PermRun) : State := ((s.setPermPhase 2).setPermPhase 3).setPermute (some { r with expect := [] })

theorem State.permStart_empty {s : State} {r : PermRun} (hlost : r.lost = false) (hstaged : s.staged = [])
    (hoff : s.fld (pgGlobal + 0x948) 63 44 ≠ 0) (hheld : s.heldFrames = []) : s.permStart r = s.permMoveBegun r := by
  have hnone : (s.setPermPhase 2).staged = [] := (s.staged_setPermPhase 2).trans hstaged
  have hcheck : (s.setPermPhase 2).permCheck = true := by
    rw [State.permCheck_of_none hnone, State.permOff, State.fld_congr (s.setPermPhase_reg 2 (by decide))]
    simpa using hoff
  unfold State.permStart
  dsimp only
  rw [if_neg (by rw [hlost]; decide), if_neg (by rw [hcheck]; decide), hnone, State.setPermute_eq,
    show sortBy (fun (a b : Nat) => decide (a ≤ b)) [] = [] from rfl, List.filter_nil, List.filter_nil, List.map_nil, List.foldl_nil]
  refine State.releaseHeld_of_nil ?_ _
  rw [State.setPermute_heldFrames, (State.onlyRegs_setPermPhase ..).heldFrames, (State.onlyRegs_setPermPhase ..).heldFrames, hheld]

theorem State.permPhase_setPermPhase (s : State) {n : Nat} (hn : n < 8) : (s.setPermPhase n).permPhase = n :=
  (s.fld_setFld_self _ _ _ n (by decide) (by decide)).trans (Nat.mod_eq_of_lt hn)

theorem State.permMoveBegun_answers (s : State) (r : PermRun) : (s.permMoveBegun r).permPhase = 3 ∧
    (s.permMoveBegun r).permute = some { r with expect := [] } ∧ (s.permMoveBegun r).hbm = s.hbm :=
  ⟨(State.fld_congr (State.setPermute_reg ..) ..).trans ((s.setPermPhase 2).permPhase_setPermPhase (by decide)), State.setPermute_permute ..,
    (State.setPermute_hbm ..).trans ((State.onlyRegs_setPermPhase ..).trans (State.onlyRegs_setPermPhase ..)).hbm⟩

/-! ### MOVE -/

theorem State.permUnsent_range (s : State) {q : Nat} (hq : q ∈ s.permUnsent.1) : q ∈ List.range 32 := by
  unfold State.permUnsent at hq
  dsimp only at hq
  exact List.mem_of_mem_filter hq

theorem State.permMoved_waits {s : State} {r : PermRun} (hlost : r.lost = false) (hexpect : r.expect ≠ [])
    (hup : ∀ q, q < 32 → s.portUp q = true) : s.permMoved r = s := by
  have hnone : s.permUnsent.1.any (fun q => !(s.portUp q)) = false := by
    rw [List.any_eq_false]
    intro q hq
    rw [hup q (List.mem_range.mp (s.permUnsent_range hq))]
    decide
  unfold State.permMoved
  dsimp only
  rw [if_neg (by rw [hlost, hnone]; decide), if_pos (by cases hr : r.expect with
    | nil => exact absurd hr hexpect
    | cons => simp)]

theorem State.permMoved_done {s : State} {r : PermRun} (hlost : r.lost = false) (hexpect : r.expect = []) (hunsent : s.permUnsent = ([], false)) :
    s.permMoved r = s.permContribute r true := by
  unfold State.permMoved
  rw [hunsent, hexpect]
  dsimp only
  rw [if_neg (by rw [hlost, List.any_nil]; decide), if_neg (by decide)]

/-- A node without children that contributes forwards at once. -/
theorem State.tryAgree_leaf {s : State} {a : Agree} {i : Nat} (hown : a.own.isSome = true) (hdown : a.down = none) (hsent : a.sent = false)
    (hchildren : s.children a.group = []) (hparent : s.parent a.group = some i) :
    ∃ f, s.tryAgree a = (s.putAgree { a with sent := true }).sendCtrl i f := by
  obtain ⟨own, hown⟩ := Option.isSome_iff_exists.mp hown
  unfold State.tryAgree
  rw [hown, hdown, hchildren]
  dsimp only
  rw [if_neg (by simp [hsent]), hparent]
  exact ⟨_, rfl⟩

/-- The first contribution to an agreement, at a node without children, leaves by one frame to the parent. -/
theorem State.contribute_leaf {s : State} {perm : Bool} {j g tag i : Nat} {own : Bool} (hagrees : s.agrees = []) (hchildren : s.children g = [])
    (hparent : s.parent g = some i) : ∃ a b f, s.contribute perm j g tag own = ((s.putAgree a).putAgree b).sendCtrl i f := by
  have hnew : s.agreeAt perm j g tag = ⟨perm, j, g, tag, none, s.now, 0, [], false, none⟩ := by
    unfold State.agreeAt
    rw [hagrees]
    rfl
  unfold State.contribute
  dsimp only
  rw [hnew]
  obtain ⟨f, hsends⟩ := State.tryAgree_leaf (s := s.putAgree ⟨perm, j, g, tag, some own, s.now, s.now, [], false, none⟩)
    (a := ⟨perm, j, g, tag, some own, s.now, s.now, [], false, none⟩) rfl rfl rfl hchildren hparent
  exact ⟨_, _, f, hsends⟩

theorem State.setPermPhase_group (s : State) (n g : Nat) : (s.setPermPhase n).children g = s.children g ∧ (s.setPermPhase n).parent g = s.parent g := by
  have hreg : (s.setPermPhase n).reg (pgGroup g) = s.reg (pgGroup g) := s.setPermPhase_reg n (by unfold pgGlobal pgGroup; omega)
  exact ⟨by rw [State.children, State.children, State.fld_congr hreg], by rw [State.parent, State.parent, State.fld_congr hreg]⟩

/-- AGREE: this device has noted when it contributes. -/
def State.permAgrees (s : State) (r : PermRun) : State := (s.setPermPhase 4).setPermute (some { r with contributed := s.now + 1 })

theorem State.permAgrees_reg (s : State) (r : PermRun) (a : Nat) : (s.permAgrees r).reg a = (s.setPermPhase 4).reg a :=
  State.setPermute_reg ..

theorem State.permAgrees_keeps (s : State) (r : PermRun) : (s.permAgrees r).agrees = s.agrees ∧ (s.permAgrees r).hbm = s.hbm ∧
    (s.permAgrees r).permute = some { r with contributed := s.now + 1 } :=
  ⟨(State.setPermute_agrees ..).trans (s.onlyRegs_setPermPhase 4).agrees, (State.setPermute_hbm ..).trans (s.onlyRegs_setPermPhase 4).hbm,
    State.setPermute_permute ..⟩

theorem State.permAgrees_group (s : State) (r : PermRun) (g : Nat) : (s.permAgrees r).children g = (s.setPermPhase 4).children g ∧
    (s.permAgrees r).parent g = (s.setPermPhase 4).parent g := by
  have hreg := s.permAgrees_reg r (pgGroup g)
  exact ⟨by rw [State.children, State.children, State.fld_congr hreg], by rw [State.parent, State.parent, State.fld_congr hreg]⟩

theorem State.permContribute_eq (s : State) (r : PermRun) (own : Bool) :
    s.permContribute r own = (s.permAgrees r).contribute true s.permJob s.permGroup s.permTag own := by
  unfold State.permContribute State.permAgrees State.setPermute
  rfl

theorem State.putAgree_reg (s : State) (a : Agree) (b : Nat) : (s.putAgree a).reg b = s.reg b := rfl

theorem State.putAgree_permute (s : State) (a : Agree) : (s.putAgree a).permute = s.permute := rfl

theorem State.permContribute_leaf {s : State} {r : PermRun} {i : Nat} (own : Bool) (hagrees : s.agrees = []) (hchildren : s.children s.permGroup = [])
    (hparent : s.parent s.permGroup = some i) : (s.permContribute r own).permPhase = 4 ∧
      (s.permContribute r own).permute = some { r with contributed := s.now + 1 } ∧ (s.permContribute r own).hbm = s.hbm := by
  obtain ⟨hphaseChildren, hphaseParent⟩ := s.setPermPhase_group 4 s.permGroup
  obtain ⟨hsameChildren, hsameParent⟩ := s.permAgrees_group r s.permGroup
  obtain ⟨hsameAgrees, hhbm, hnoted⟩ := s.permAgrees_keeps r
  obtain ⟨a, b, f, hsends⟩ := State.contribute_leaf (s := s.permAgrees r) (perm := true) (j := s.permJob) (g := s.permGroup) (tag := s.permTag)
    (own := own) (hsameAgrees.trans hagrees) (hsameChildren.trans (hphaseChildren.trans hchildren)) (hsameParent.trans (hphaseParent.trans hparent))
  have hcontribute : s.permContribute r own = (((s.permAgrees r).putAgree a).putAgree b).sendCtrl i f := by
    rw [← hsends, State.permContribute_eq]
  have hreg : ((((s.permAgrees r).putAgree a).putAgree b).sendCtrl i f).reg (pgGlobal + 0x958) = (s.setPermPhase 4).reg (pgGlobal + 0x958) := by
    rw [(State.sendCtrl_sameBase _ i f).reg _ (by decide) (by decide), State.putAgree_reg, State.putAgree_reg, State.permAgrees_reg]
  have hview := State.sentView_sendCtrl (((s.permAgrees r).putAgree a).putAgree b) i f
  rw [hcontribute, permute_of_sentView hview, hbm_of_sentView hview, State.putAgree_permute, State.putAgree_permute, (State.putAgree_keeps ..).1,
    (State.putAgree_keeps ..).1]
  exact ⟨(State.fld_congr hreg ..).trans (s.permPhase_setPermPhase (by decide)), hnoted, hhbm⟩

theorem execPermuteMoveDone_moves {s : State} {r : PermRun} (hlive : s.live = true) (hpermute : s.permute = some r) :
    execPermuteMoveDone s = .next (if s.permPhase = 3 then s.permMoved r else s) := by
  refine congrArg Host.Outcome.next ((State.whenLive_of_live hlive _).trans ?_)
  rw [hpermute]

/-! ### No result -/

/-- With nothing queued, the end of an operation leaves the permute, HBM and the registers of the global and Bare pages. -/
theorem State.endMaint_idle {s : State} (hqueue : s.maintQueue = []) (cls target r : Nat) : (s.endMaint cls target r).permute = s.permute ∧
    (s.endMaint cls target r).hbm = s.hbm ∧ ∀ a, a < 0x2_0000 → (s.endMaint cls target r).reg a = s.reg a := by
  cases hruns : s.maintRun.any fun m => m.cls == cls && m.target == target with
  | true =>
    rw [State.endMaint_alone hruns hqueue]
    obtain ⟨g, o, hended⟩ := s.onlyRegs_opEnded cls target r
    refine ⟨by rw [hended]; rfl, by rw [hended]; rfl, fun a ha => ?_⟩
    have hpage : pgArb = 0x3_0000 := rfl
    rw [State.opEnded, State.event_reg _ _ _ (by omega) (by omega) (by omega), State.reg_setReg_ne _ _ (by omega)]
    rfl
  | false =>
    have hnone : s.endMaint cls target r = s := by
      unfold State.endMaint
      rw [List.find?_eq_none.mpr fun m hm h => absurd (List.any_eq_false.mp hruns m hm) (by rw [h]; simp)]
    rw [hnone]
    exact ⟨rfl, rfl, fun _ _ => rfl⟩

/-- PERM_STATUS of a permute that ended with RESULT 2. -/
def State.permFailed (s : State) (cause : Nat) : State :=
  (((s.setFlag (pgGlobal + 0x958) 63 false).setFld (pgGlobal + 0x958) 62 60 0).setFld (pgGlobal + 0x958) 59 57 2).setFld (pgGlobal + 0x958) 56 53 cause

theorem State.flag_setFld_apart (s : State) (a v : Nat) {hi lo i : Nat} (h : hi < 64) (hl : lo ≤ hi) (hapart : i < lo ∨ hi < i) :
    (s.setFld a hi lo v).flag a i = s.flag a i := by
  rw [State.flag_eq_fld, State.flag_eq_fld, State.fld_setFld_apart _ _ _ h hl (Nat.le_refl i) hapart]

theorem State.permFailed_status (s : State) {cause : Nat} (hcause : cause < 16) : (s.permFailed cause).flag (pgGlobal + 0x958) 63 = false ∧
    (s.permFailed cause).fld (pgGlobal + 0x958) 59 57 = 2 ∧ (s.permFailed cause).fld (pgGlobal + 0x958) 56 53 = cause := by
  unfold State.permFailed
  refine ⟨?_, ?_, (State.fld_setFld_self _ _ _ _ _ (by decide) (by decide)).trans (Nat.mod_eq_of_lt hcause)⟩
  · rw [State.flag_setFld_apart, State.flag_setFld_apart, State.flag_setFld_apart, State.flag_setFlag_self _ _ _ _ (by decide)] <;> decide
  · rw [State.fld_setFld_apart, State.fld_setFld_self] <;> decide

theorem State.onlyRegs_permFailed (s : State) (cause : Nat) : OnlyRegs s (s.permFailed cause) :=
  (((onlyRegs_setFlag ..).trans (onlyRegs_setFld ..)).trans (onlyRegs_setFld ..)).trans (onlyRegs_setFld ..)

def State.dropPermute (s : State) : State := { s with permute := none, agrees := s.agrees.filter fun g => !g.perm }

theorem State.dropPermute_eq (s : State) : { s with permute := none, agrees := s.agrees.filter fun g => !g.perm } = s.dropPermute := rfl

theorem State.dropPermute_reg (s : State) (a : Nat) : s.dropPermute.reg a = s.reg a := rfl

theorem State.dropPermute_keeps (s : State) : s.dropPermute.permute = none ∧ s.dropPermute.hbm = s.hbm ∧ s.dropPermute.maintQueue = s.maintQueue :=
  ⟨rfl, rfl, rfl⟩

/-- The state in which a permute has ended, before its fault is reported. -/
def State.permCleared (s : State) (cause : Nat) : State := (s.permFailed cause).dropPermute

theorem State.permCleared_reg (s : State) (cause a : Nat) : (s.permCleared cause).reg a = (s.permFailed cause).reg a := State.dropPermute_reg ..

theorem State.permCleared_keeps (s : State) (cause : Nat) : (s.permCleared cause).permute = none ∧ (s.permCleared cause).hbm = s.hbm ∧
    (s.permCleared cause).maintQueue = s.maintQueue := by
  obtain ⟨hpermute, hhbm, hqueue⟩ := (s.permFailed cause).dropPermute_keeps
  have hfailed := s.onlyRegs_permFailed cause
  exact ⟨hpermute, hhbm.trans hfailed.hbm, hqueue.trans hfailed.maintQueue⟩

theorem State.permAbort_eq (s : State) (cause : Nat) : s.permAbort cause =
    (((s.permCleared cause).fault pgGlobal 0x0706 (s.permInfo cause)).event pgGlobal 4).endMaint 6 s.permJob 2 := by
  unfold State.permAbort State.permCleared State.permFailed
  dsimp only
  rw [State.dropPermute_eq, State.permJob]

theorem State.permAbort_answers {s : State} {cause : Nat} (hcause : cause < 16) (hqueue : s.maintQueue = []) :
    (s.permAbort cause).permute = none ∧ (s.permAbort cause).hbm = s.hbm ∧ (s.permAbort cause).flag (pgGlobal + 0x958) 63 = false ∧
      (s.permAbort cause).fld (pgGlobal + 0x958) 59 57 = 2 ∧ (s.permAbort cause).fld (pgGlobal + 0x958) 56 53 = cause := by
  obtain ⟨hpermute, hhbm, hsameQueue⟩ := s.permCleared_keeps cause
  obtain ⟨t, ht⟩ : ∃ t, t = ((s.permCleared cause).fault pgGlobal 0x0706 (s.permInfo cause)).event pgGlobal 4 := ⟨_, rfl⟩
  have hregs : OnlyRegs (s.permCleared cause) t := ht ▸ (onlyRegs_fault ..).trans (onlyRegs_event ..)
  obtain ⟨hended, hendedHbm, hendedReg⟩ := State.endMaint_idle (hregs.maintQueue.trans (hsameQueue.trans hqueue)) 6 s.permJob 2
  have hreg : (t.endMaint 6 s.permJob 2).reg (pgGlobal + 0x958) = (s.permFailed cause).reg (pgGlobal + 0x958) := by
    rw [hendedReg _ (by decide), ht, State.event_reg _ _ _ (by decide) (by decide) (by decide),
      State.fault_reg _ _ _ _ (by decide) (by decide) (by decide) (by decide) (by decide) (by decide), State.permCleared_reg]
  obtain ⟨hbusy, hresult, hshown⟩ := s.permFailed_status hcause
  rw [State.permAbort_eq, ← ht, hended, hendedHbm, State.flag_congr hreg, State.fld_congr hreg, State.fld_congr hreg]
  exact ⟨hregs.permute.trans hpermute, hregs.hbm.trans hhbm, hbusy, hresult, hshown⟩

/-- The agreement of the permute is noted as done. -/
def State.permNoted (s : State) : State :=
  { s with agreeDone := Tab.put s.agreeDone (agreeKey true s.permJob s.permGroup) s.permTag }

theorem State.permNoted_keeps (s : State) : s.permNoted.hbm = s.hbm ∧ s.permNoted.maintQueue = s.maintQueue := ⟨rfl, rfl⟩

/-- The sequencer of the permute's job is held. -/
def State.permHolds (s : State) (p j : Nat) : State := if s.planOn p j then (s.setSeq p j 7).refreshHeld p j else s

theorem State.permHolds_sameBase (s : State) (p j : Nat) : SameBase s (s.permHolds p j) := by
  have hstep : 0x2_0000 ≤ stepReg p j 0x10 := by unfold stepReg pgPart; omega
  have hphase : 0x2_0000 ≤ phReg p j 0x10 := by unfold phReg pgPart; omega
  exact .ite _ (((((SameBase.refl s).setFld hstep ..).setFld hstep ..).setFld hphase ..).setFlag hphase ..) (.refl s)

theorem State.permHolds_permute (s : State) (p j : Nat) : (s.permHolds p j).permute = s.permute := by
  have hregs : OnlyRegs s (s.permHolds p j) :=
    onlyRegs_ite _ ((((onlyRegs_setFld ..).trans (onlyRegs_setFld ..)).trans (onlyRegs_setFld ..)).trans (onlyRegs_setFlag ..)) (.refl s)
  exact hregs.permute

section
variable {s : State} {r : PermRun}

/-- A permute has had no result for twice its DEADLINE_MS. -/
def State.permDue (s : State) (r : PermRun) : Prop :=
  r.contributed ≠ 0 ∧ r.contributed + 2 * (s.fld (pgGlobal + 0x948) 15 0 * 1000000) < s.now + 1

theorem State.permNoResult_early (h : ¬s.permDue r) : s.permNoResult r = s := by
  unfold State.permDue at h
  exact if_pos (by omega)

theorem State.permNoResult_due (h : s.permDue r) : s.permNoResult r = (s.permNoted.permAbort 5).permHolds (s.partOf s.permJob) s.permJob := by
  unfold State.permDue at h
  exact if_neg (by omega)

theorem State.permNoResult_answers (h : s.permDue r) (hqueue : s.maintQueue = []) : (s.permNoResult r).permute = none ∧
    (s.permNoResult r).flag (pgGlobal + 0x958) 63 = false ∧ (s.permNoResult r).fld (pgGlobal + 0x958) 59 57 = 2 ∧
      (s.permNoResult r).fld (pgGlobal + 0x958) 56 53 = 5 ∧ (s.permNoResult r).hbm = s.hbm := by
  obtain ⟨hhbm, hsameQueue⟩ := s.permNoted_keeps
  obtain ⟨hnone, habortHbm, hbusy, hresult, hcause⟩ := State.permAbort_answers (s := s.permNoted) (cause := 5) (by decide) (hsameQueue.trans hqueue)
  have hholds := (s.permNoted.permAbort 5).permHolds_sameBase (s.partOf s.permJob) s.permJob
  have hreg := hholds.reg (pgGlobal + 0x958) (by decide) (by decide)
  rw [State.permNoResult_due h, State.permHolds_permute, State.flag_congr hreg, State.fld_congr hreg, State.fld_congr hreg,
    hbm_of_baseView hholds.view]
  exact ⟨hnone, hbusy, hresult, hcause, habortHbm.trans hhbm⟩

end

theorem State.tick_permute (s : State) (dt : Nat) : (s.tick dt).permute = s.permute := by
  obtain ⟨r, o, lim, slew, held, htick⟩ := s.tick_cases dt
  rw [htick]

section
variable {s : State} {dt : Nat} (hlive : (s.tick dt).live = true)
include hlive

theorem execPermuteNoResult_runs {r : PermRun} (h : s.permute = some r) : execPermuteNoResult dt s = .next ((s.tick dt).permNoResult r) := by
  rw [execPermuteNoResult, State.whenLive_of_live hlive, State.tick_permute, h]

theorem execPermuteNoResult_none (h : s.permute = none) : execPermuteNoResult dt s = .next (s.tick dt) := by
  rw [execPermuteNoResult, State.whenLive_of_live hlive, State.tick_permute, h]

end

end Sys2Proof.Machine

namespace Sys2Proof
open Machine

/-- Settles O44: PERM_STATUS, the agreement and the arbiter's queue are followed through WAIT, MOVE and the end without a result; the frame that
carries the contribution leaves the global page and the permute as they are. -/
theorem permuteCommands : Obligations.PermuteCommands := by
  unfold Obligations.PermuteCommands
  refine ⟨fun s acc w hopen => ⟨fun hacts hbusy hlive => ?_, fun h => execPermuteRequest_ignored hopen h⟩, fun s hlive hnone => ⟨?_, ?_⟩,
    fun s r hlive hpermute => ⟨fun hwaits => execPermuteWaitDone_waits hlive hpermute hwaits, fun hstarts hlost hstaged hoff hheld => ?_,
      fun hphase => ?_, fun hphase hlost hexpect hup => ?_, fun i hphase hlost hexpect hunsent hagrees hchildren hparent => ?_⟩,
    fun s dt hlive => ⟨fun hnone => ?_, fun r hpermute => ⟨fun hearly => ?_, fun hdue hqueue => ?_⟩⟩⟩
  · have hasks := execPermuteRequest_asks hopen hacts hbusy hlive
    refine ⟨fun hprimary => hasks.trans (congrArg _ ?_), fun hprimary => hasks.trans (congrArg _ (State.request_waits hprimary _))⟩
    exact (State.request_of_primary (Option.isSome_iff_ne_none.mpr hprimary) _).trans (State.arbiter_permute rfl hbusy)
  · refine congrArg Host.Outcome.next ((State.whenLive_of_live hlive _).trans ?_)
    rw [hnone]
  · refine congrArg Host.Outcome.next ((State.whenLive_of_live hlive _).trans ?_)
    rw [hnone]
  · have hnext := execPermuteWaitDone_starts hlive hpermute hstarts
    rw [State.permStart_empty hlost hstaged hoff hheld] at hnext
    exact ⟨_, hnext, s.permMoveBegun_answers r⟩
  · exact (execPermuteMoveDone_moves hlive hpermute).trans (congrArg _ (if_neg hphase))
  · exact (execPermuteMoveDone_moves hlive hpermute).trans (congrArg _ ((if_pos hphase).trans (State.permMoved_waits hlost hexpect hup)))
  · have hnext := (execPermuteMoveDone_moves hlive hpermute).trans
      (congrArg _ ((if_pos hphase).trans (State.permMoved_done hlost hexpect hunsent)))
    exact ⟨_, hnext, State.permContribute_leaf true hagrees hchildren hparent⟩
  · exact execPermuteNoResult_none hlive hnone
  · have hconf : (s.tick dt).reg (pgGlobal + 0x948) = s.reg (pgGlobal + 0x948) :=
      s.tick_reg dt (by decide) (by decide) (by decide) fun h => absurd h (by decide)
    rw [← State.fld_congr hconf] at hearly
    exact (execPermuteNoResult_runs hlive hpermute).trans (congrArg _ (State.permNoResult_early hearly))
  · have hconf : (s.tick dt).reg (pgGlobal + 0x948) = s.reg (pgGlobal + 0x948) :=
      s.tick_reg dt (by decide) (by decide) (by decide) fun h => absurd h (by decide)
    rw [← State.fld_congr hconf] at hdue
    have hanswers := State.permNoResult_answers hdue ((s.tick_maintQueue dt).trans hqueue)
    rw [s.tick_hbm dt] at hanswers
    exact ⟨_, execPermuteNoResult_runs hlive hpermute, hanswers⟩

end Sys2Proof
end

section
/-! SUPPORT. A Yard that is retired (R27, R455, R456): what STOP and the reset of a Yard leave as it was, what SWITCH makes of the map and the retired
lists, and the two outcomes of the spare's test. -/
namespace Sys2Proof.Machine

/-! ### STOP: the images that leave -/

theorem State.freeSlots_sameBase (s : State) (i : Image) : SameBase s (s.freeSlots i) :=
  (SameBase.refl s).foldl _ fun t _ => (SameBase.refl t).beside (State.setUnit_regs ..) rfl

theorem State.endCtx_sameBase (s : State) (y j : Nat) : SameBase s (s.endCtx y j) := (SameBase.refl s).beside (State.setCore_regs ..) rfl

theorem SameBase.setImages {s t : State} (h : SameBase s t) (l : List Image) : SameBase s { t with images := l } := h.beside rfl rfl

theorem SameBase.setCrossOwner {s t : State} (h : SameBase s t) (l : Tab Nat) : SameBase s { t with crossOwner := l } := h.beside rfl rfl

theorem State.dropImage_sameBase (s : State) (i : Image) : SameBase s (s.dropImage i) := by
  have hpart := pgPart_ge i.part
  unfold State.dropImage
  extract_lets free s1 flagged s2
  have h1 : SameBase s s1 := (s.freeSlots_sameBase i).setImages _
  have h2 : SameBase s s2 := (h1.setFlag (by omega) ..).setCrossOwner _
  exact h2.foldl _ fun t y => .ite _ (.refl t) (t.endCtx_sameBase y i.job)

theorem State.stopImage_sameBase (s : State) (i : Image) : SameBase s (s.stopImage i) := by
  have hpart : 0x2_0000 ≤ pgPart i.part + 0x1D0 := by have := pgPart_ge i.part; omega
  unfold State.stopImage
  extract_lets a s1
  have h1 : SameBase s s1 := (((s.dropImage_sameBase i).setFld hpart ..).setFld hpart ..).setFld hpart ..
  exact (SameBase.ite _ h1 (h1.setFld hpart ..)).jobEvent ..

/-! ### The reset of a Yard -/

theorem pgYard_ge (y : Nat) : 0x100_0000 ≤ pgYard y := by unfold pgYard; omega

theorem State.gainRails_sameBase (s t : State) (y e : Nat) : SameBase t (s.gainRails t y e) := by
  have hlink : ∀ (u : State) (l : HalLink), SameBase u (u.setLink y e l) := fun u l => (SameBase.refl u).beside (State.setLink_regs ..) rfl
  unfold State.gainRails
  extract_lets a b a' t1
  have h1 : SameBase t t1 := .ite _ (hlink t _) (.refl t)
  exact .ite _ (h1.trans (hlink t1 _)) h1

theorem State.restoreRails_sameBase (s : State) (y : Nat) : SameBase s (s.restoreRails y) := by
  unfold State.restoreRails
  split
  · exact .refl s
  refine (SameBase.refl s).foldl _ fun t e => ?_
  split
  next z f _ =>
    have hswitch : 0x2_0000 ≤ pgSwitch z + 0x108 := by have := pgYard_ge z; unfold pgSwitch; omega
    exact (((SameBase.refl t).setFlag hswitch ..).setFlag hswitch ..).trans (State.gainRails_sameBase ..)
  · exact .refl t

theorem State.scrambleYard_sameBase (s : State) (y : Nat) : SameBase s (s.scrambleYard y) := by
  unfold State.scrambleYard
  exact (SameBase.refl s).fresh.beside rfl rfl

/-- What Yard `y` holds beside its registers is cleared. -/
def State.emptyYard (s : State) (y : Nat) : State :=
  { s with units := Tab.clear (inYards [y] 64) s.units, switches := Tab.del s.switches y, links := Tab.clear (inYards [y] 4) s.links,
           cores := Tab.del s.cores y, wcQ := s.wcQ.filter fun r => !(r.y == y) }

theorem State.emptyYard_sameBase (s : State) (y : Nat) : SameBase s (s.emptyYard y) := (SameBase.refl s).beside rfl rfl

theorem State.yardReset_sameBase (s : State) (y : Nat) : SameBase s (s.yardReset y) := by
  have hyard : 0x2_0000 ≤ pgYard y := by have := pgYard_ge y; omega
  exact .ite _ (.refl s) ((((s.restoreRails_sameBase y).resetRegs hyard _).trans (State.emptyYard_sameBase ..)).trans (State.scrambleYard_sameBase ..))

/-! ### SWITCH -/

theorem State.onlyRegs_setMapGen (s : State) (g : Nat) : OnlyRegs s (s.setMapGen g) := by
  unfold State.setMapGen
  extract_lets s1
  exact onlyRegs_ite _ (onlyRegs_setReg ..) ((onlyRegs_setReg ..).trans (onlyRegs_event ..))

theorem State.setMapGen_reg (s : State) (g : Nat) {a : Nat} (hlo : 0x400 ≤ a) (hhi : a < 0x2_0000) : (s.setMapGen g).reg a = s.reg a := by
  have hpage : pgGlobal = 0 := rfl
  have hgen : (s.setReg (pgGlobal + 0x3F8) (g % 2 ^ 32)).reg a = s.reg a := s.reg_setReg_ne _ (by omega)
  unfold State.setMapGen
  extract_lets s1
  split
  · exact hgen
  · exact (State.event_reg _ _ _ (by omega) (by omega) (by omega)).trans hgen

/-- A physical Yard on both retired lists. -/
def State.listRetired (s : State) (p : Nat) : State :=
  { s with retiredA := s.retiredA.filter (fun q => !(q == p)) ++ [p], retiredB := s.retiredB.filter (fun q => !(q == p)) ++ [p] }

theorem State.listRetired_keeps (s : State) (p : Nat) : (s.listRetired p).maintQueue = s.maintQueue ∧ (s.listRetired p).maintRun = s.maintRun ∧
    ∀ a, (s.listRetired p).reg a = s.reg a := ⟨rfl, rfl, fun _ => rfl⟩

/-- PHYS_YARD and the domain of a retired Yard. -/
def State.showRetired (s : State) (p : Nat) : State :=
  ((s.setFld (pgGlobal + 0x600 + 8 * p) 23 20 3).setFld (pgGlobal + 0x600 + 8 * p) 31 24 0xFF).setFlag (pgPower 1 + 0x100 + 8 * p) 63 false

theorem State.onlyRegs_showRetired (s : State) (p : Nat) : OnlyRegs s (s.showRetired p) :=
  ((onlyRegs_setFld s ..).trans (onlyRegs_setFld ..)).trans (onlyRegs_setFlag ..)

theorem State.retirePhys_eq (s : State) (p : Nat) : s.retirePhys p = (s.showRetired p).listRetired p := by
  unfold State.retirePhys State.showRetired State.listRetired
  rfl

theorem State.retirePhys_maintQueue (s : State) (p : Nat) : (s.retirePhys p).maintQueue = s.maintQueue := by
  rw [State.retirePhys_eq, (State.listRetired_keeps ..).1, (s.onlyRegs_showRetired p).maintQueue]

/-- The registers of the physical Yards and of the power page aside, a retirement changes none. -/
theorem State.retirePhys_reg (s : State) (p : Nat) {a : Nat} (h : a < 0x600) : (s.retirePhys p).reg a = s.reg a := by
  have hpage : pgGlobal = 0 := rfl
  have hpower : pgPower 1 = 0x1_1000 := rfl
  rw [State.retirePhys_eq, (State.listRetired_keeps ..).2.2, State.showRetired, State.setFlag, State.reg_setFld_ne _ _ _ _ (by omega),
    State.reg_setFld_ne _ _ _ _ (by omega), State.reg_setFld_ne _ _ _ _ (by omega)]

theorem State.retired_outside {s t : State} (h : t.outside = s.outside) (p : Nat) : t.Retired p ↔ s.Retired p := by
  have hA : t.retiredA = s.retiredA := congrArg Outside.retiredA h
  have hB : t.retiredB = s.retiredB := congrArg Outside.retiredB h
  rw [State.Retired, State.Retired, hA, hB]

theorem State.retired_of_keeps {s t : State} (h : Keeps s.outside t.outside) {p : Nat} (hp : s.Retired p) : t.Retired p := h.retired hp.1 hp.2

theorem State.retirePhys_retired (s : State) (p : Nat) : (s.retirePhys p).Retired p := by
  unfold State.retirePhys
  exact ⟨List.mem_append_right _ (List.mem_singleton_self p), List.mem_append_right _ (List.mem_singleton_self p)⟩

theorem State.switchYard_outside (s : State) (y old : Nat) (spare : Option Nat) : (s.switchYard y old spare).outside = (s.retirePhys old).outside := by
  unfold State.switchYard
  cases spare with
  | none => simp only [State.setMapGen_outside, State.setReg_outside, State.yardReset_outside, State.reissue_outside]
  | some p => simp only [State.setMapGen_outside, State.setReg_outside, State.yardReset_outside, State.reissue_outside]

theorem State.reissue_maintQueue (s : State) (y : Nat) : (s.reissue y).maintQueue = s.maintQueue := rfl

theorem mapWord_lt {p : Nat} (hp : p < 72) (remapped : Bool) : mapWord p remapped < 2 ^ 64 := by
  have hbool : b2n remapped ≤ 1 := by cases remapped <;> decide
  unfold mapWord fieldAt
  omega

/-- A Yard that is re-pointed: what its map entry then reads, and the queue of the arbiter. -/
theorem State.switchYard_spare (s : State) {y p : Nat} (old : Nat) (hy : y < 64) (hp : p < 72) :
    (s.switchYard y old (some p)).reg (pgGlobal + 0x400 + 8 * y) = mapWord p true ∧ (s.switchYard y old (some p)).maintQueue = s.maintQueue := by
  have hpage : pgGlobal = 0 := rfl
  have hpower : pgPower 1 = 0x1_1000 := rfl
  have hbare : pgBare = 0x3000 := rfl
  unfold State.switchYard
  extract_lets s1 gen
  dsimp only
  constructor
  · rw [(State.yardReset_sameBase ..).reg _ (by omega) (by omega), State.setMapGen_reg _ _ (by omega) (by omega), State.reg_setReg_ne _ _ (by omega),
      State.reg_setReg_ne _ _ (by omega), State.reg_setReg_self, Nat.mod_eq_of_lt (mapWord_lt hp true)]
  · rw [maintQueue_of_baseView (State.yardReset_sameBase ..).view]
    refine ((((onlyRegs_setReg ..).trans (onlyRegs_setReg ..)).trans (onlyRegs_setReg ..)).trans (State.onlyRegs_setMapGen ..)).maintQueue.trans ?_
    exact (State.reissue_maintQueue ..).trans (State.retirePhys_maintQueue ..)

/-- A Yard that becomes vacant. -/
theorem State.switchYard_vacant (s : State) {y : Nat} (old : Nat) (hy : y < 64) :
    (s.switchYard y old none).reg (pgGlobal + 0x400 + 8 * y) = 0x7F ∧ (s.switchYard y old none).maintQueue = s.maintQueue := by
  have hpage : pgGlobal = 0 := rfl
  unfold State.switchYard
  extract_lets s1 gen
  dsimp only
  constructor
  · rw [State.setMapGen_reg _ _ (by omega) (by omega), State.reg_setReg_self]
    decide
  · rw [((onlyRegs_setReg ..).trans (State.onlyRegs_setMapGen ..)).maintQueue, maintQueue_of_baseView (State.yardReset_sameBase ..).view]
    exact (State.reissue_maintQueue ..).trans (State.retirePhys_maintQueue ..)

/-! ### STOP, SWITCH and DONE -/

/-- Round the SWITCH of a retirement everything leaves the base as it was. -/
theorem State.retireYard_shape {s : State} {y old : Nat} (cause : Nat) (spare : Option Nat) (hold : s.physOf y = some old) :
    ∃ u, SameBase s u ∧ SameBase (u.switchYard y old spare) (s.retireYard y cause spare) := by
  have hmon : pgMon = 0x4_0000 := rfl
  unfold State.retireYard
  rw [hold]
  dsimp only
  refine ⟨_, ?_, (SameBase.faultEv (.refl _) (show 0x2_0000 ≤ pgMon by decide) (by decide) ..).setFld (by omega) ..⟩
  refine ((SameBase.refl s).foldl _ fun t i => t.stopImage_sameBase i).foldl _ fun t p => t.fabricReset_sameBase p 0x0905

section
variable {s : State} {y old : Nat} (cause : Nat) (spare : Option Nat) (hold : s.physOf y = some old)
include hold

theorem State.retireYard_retired : (s.retireYard y cause spare).Retired old := by
  obtain ⟨u, -, hround⟩ := State.retireYard_shape cause spare hold
  refine (State.retired_outside (congrArg BaseView.retired hround.view) old).mpr ?_
  exact (State.retired_outside (u.switchYard_outside y old spare) old).mpr (u.retirePhys_retired old)

theorem State.retireYard_map {w : Nat} (hy : y < 64)
    (hswitch : ∀ u : State, (u.switchYard y old spare).reg (pgGlobal + 0x400 + 8 * y) = w ∧ (u.switchYard y old spare).maintQueue = u.maintQueue) :
    (s.retireYard y cause spare).reg (pgGlobal + 0x400 + 8 * y) = w ∧ (s.retireYard y cause spare).maintQueue = s.maintQueue := by
  have hpage : pgGlobal = 0 := rfl
  have hbare : pgBare = 0x3000 := rfl
  obtain ⟨u, hbefore, hround⟩ := State.retireYard_shape cause spare hold
  obtain ⟨hmap, hqueue⟩ := hswitch u
  exact ⟨(hround.reg _ (by omega) (by omega)).trans hmap,
    (maintQueue_of_baseView hround.view).trans (hqueue.trans (maintQueue_of_baseView hbefore.view))⟩

end

theorem State.physOf_congr {s t : State} {y : Nat} (h : t.reg (pgGlobal + 0x400 + 8 * y) = s.reg (pgGlobal + 0x400 + 8 * y)) :
    t.physOf y = s.physOf y := by
  rw [State.physOf, State.physOf, State.flag_congr h, State.fld_congr h]

theorem State.physOf_of_mapWord {s : State} {y p : Nat} (hp : p < 72) (h : s.reg (pgGlobal + 0x400 + 8 * y) = mapWord p true) :
    s.physOf y = some p ∧ s.flag (pgGlobal + 0x400 + 8 * y) 30 = true := by
  have hfields : bit (mapWord p true) 31 = true ∧ bits (mapWord p true) 6 0 = p ∧ bit (mapWord p true) 30 = true := by
    have hword : mapWord p true = 2 ^ 31 + 2 ^ 30 + p / 9 * 2 ^ 12 + p % 9 * 2 ^ 8 + p := by
      rw [mapWord, fieldAt, fieldAt, fieldAt, fieldAt, show b2n true = 1 from rfl, Nat.one_mul]
      omega
    have hbounds : 3 * 2 ^ 30 ≤ mapWord p true ∧ mapWord p true < 4 * 2 ^ 30 := by omega
    have hlow : mapWord p true % 2 ^ 7 = p := by omega
    unfold bit bits
    simp only [beq_iff_eq]
    clear hword
    generalize mapWord p true = w at *
    refine ⟨by omega, ?_, by omega⟩
    rw [show 2 ^ 0 = 1 from rfl, Nat.div_one, hlow]
  obtain ⟨hbacked, hphys, hremapped⟩ := hfields
  rw [State.physOf, State.flag, State.fld, State.flag, h, hbacked, hphys, hremapped]
  exact ⟨rfl, rfl⟩

theorem State.physOf_of_vacant {s : State} {y : Nat} (h : s.reg (pgGlobal + 0x400 + 8 * y) = 0x7F) : s.physOf y = none := by
  rw [State.physOf, State.flag, h]
  rfl

/-- After the end of an operation with nothing queued, the map and the retired lists are as they were. -/
theorem State.endMaint_retirement {s : State} (hqueue : s.maintQueue = []) (cls target r : Nat) {y : Nat} (hy : y < 64) :
    (s.endMaint cls target r).reg (pgGlobal + 0x400 + 8 * y) = s.reg (pgGlobal + 0x400 + 8 * y) ∧
      ∀ q, s.Retired q → (s.endMaint cls target r).Retired q := by
  obtain ⟨-, -, hreg⟩ := State.endMaint_idle hqueue cls target r
  exact ⟨hreg _ (by unfold pgGlobal; omega), fun q hq => State.retired_of_keeps (s.endMaint_keeps cls target r (Keeps.refl _)) hq⟩

/-! ### The test of the spare -/

section
variable {s : State} {y p : Nat} {m : MaintOp} (hrun : s.maintRun = [m]) (hcls : m.cls = 5) (htarget : m.target = y) (hspare : m.spare = some p)
include hrun hcls htarget hspare

/-- The cause a retirement is recorded with. -/
def MaintOp.retireCause (m : MaintOp) : Nat := if m.src = 0 then 3 else 2

theorem State.retireTested_pass : s.retireTested y true = (s.retireYard y m.retireCause (some p)).endMaint 5 y 1 := by
  have hfind : (s.maintRun.find? fun m => m.cls == 5 && m.target == y) = some m := by
    rw [hrun, List.find?_cons_of_pos (by rw [hcls, htarget]; simp)]
  unfold State.retireTested
  rw [hfind]
  dsimp only
  rw [hspare]
  rfl

/-- The state with the spare that failed retired. -/
def State.spareFailed (s : State) (p : Nat) : State := (s.retirePhys p).setMapGen (s.reg (pgGlobal + 0x3F8) + 1)

theorem State.retireTested_fail {old : Nat} (hold : s.physOf y = some old) (hy : y < 64) (hnone : (s.spareFailed p).chooseSpare old = none) :
    s.retireTested y false = ((s.spareFailed p).retireYard y m.retireCause none).endMaint 5 y 1 := by
  have hfind : (s.maintRun.find? fun m => m.cls == 5 && m.target == y) = some m := by
    rw [hrun, List.find?_cons_of_pos (by rw [hcls, htarget]; simp)]
  have hphys : (s.spareFailed p).physOf y = some old := by
    have hpage : pgGlobal = 0 := rfl
    refine (State.physOf_congr ?_).trans hold
    rw [State.spareFailed, State.setMapGen_reg _ _ (by omega) (by omega), State.retirePhys_reg _ _ (by omega)]
  unfold State.retireTested
  rw [hfind]
  dsimp only
  rw [hspare]
  dsimp only
  rw [if_neg (by decide), show (s.retirePhys p).setMapGen (s.reg (pgGlobal + 0x3F8) + 1) = s.spareFailed p from rfl, hphys, Option.getD_some, hnone]
  rfl

end

theorem State.spareFailed_shape (s : State) (p : Nat) {y : Nat} (hy : y < 64) : (s.spareFailed p).Retired p ∧ (s.spareFailed p).physOf y = s.physOf y ∧
    (s.spareFailed p).maintQueue = s.maintQueue := by
  have hpage : pgGlobal = 0 := rfl
  refine ⟨(State.retired_outside (State.setMapGen_outside ..) p).mpr (s.retirePhys_retired p), State.physOf_congr ?_, ?_⟩
  · rw [State.spareFailed, State.setMapGen_reg _ _ (by omega) (by omega), State.retirePhys_reg _ _ (by omega)]
  · exact (State.onlyRegs_setMapGen ..).maintQueue.trans (State.retirePhys_maintQueue ..)

/-- With nothing queued and its spare good, Yard `y` stands behind the spare, and the Yard that was behind it is retired. -/
theorem State.retirement_done {s : State} {y p old : Nat} (cause : Nat) (hold : s.physOf y = some old) (hqueue : s.maintQueue = []) (hy : y < 64)
    (hp : p < 72) : ((s.retireYard y cause (some p)).endMaint 5 y 1).Retired old ∧
      ((s.retireYard y cause (some p)).endMaint 5 y 1).physOf y = some p ∧
      ((s.retireYard y cause (some p)).endMaint 5 y 1).flag (pgGlobal + 0x400 + 8 * y) 30 = true := by
  obtain ⟨hmap, hsameQueue⟩ := State.retireYard_map cause (some p) hold hy fun u => u.switchYard_spare old hy hp
  obtain ⟨hreg, hretired⟩ := State.endMaint_retirement (hsameQueue.trans hqueue) 5 y 1 hy
  obtain ⟨hphys, hremapped⟩ := State.physOf_of_mapWord hp (hreg.trans hmap)
  exact ⟨hretired old (State.retireYard_retired cause (some p) hold), hphys, hremapped⟩

/-- With nothing queued and no spare left, Yard `y` is vacant and the Yard that was behind it is retired. -/
theorem State.retirement_vacant {s : State} {y old : Nat} (cause : Nat) (hold : s.physOf y = some old) (hqueue : s.maintQueue = []) (hy : y < 64) :
    ((s.retireYard y cause none).endMaint 5 y 1).Retired old ∧ ((s.retireYard y cause none).endMaint 5 y 1).physOf y = none := by
  obtain ⟨hmap, hsameQueue⟩ := State.retireYard_map cause none hold hy fun u => u.switchYard_vacant old hy
  obtain ⟨hreg, hretired⟩ := State.endMaint_retirement (hsameQueue.trans hqueue) 5 y 1 hy
  exact ⟨hretired old (State.retireYard_retired cause none hold), State.physOf_of_vacant (hreg.trans hmap)⟩

theorem execRetireTestDone_next {s : State} {dt : Nat} (hlive : (s.tick dt).live = true) (y : Yard) (pass : Bool) :
    execRetireTestDone dt y pass s = .next ((s.tick dt).retireTested y.val pass) := by
  rw [execRetireTestDone, State.whenLive_of_live hlive]

theorem State.retireTested_retired (s : State) (dt y : Nat) (pass : Bool) {q : Nat} (h : s.Retired q) : ((s.tick dt).retireTested y pass).Retired q :=
  State.retired_of_keeps (State.retireTested_keeps _ y pass (keeps_of_eq (s.tick_outside dt))) h

section
variable {s : State} {dt : Nat} {y : Yard} {m : MaintOp} {p old : Nat} (hlive : (s.tick dt).live = true) (hrun : s.maintRun = [m])
  (hcls : m.cls = 5) (htarget : m.target = y.val) (hspare : m.spare = some p) (hqueue : s.maintQueue = [])
  (hold : (s.tick dt).physOf y.val = some old)
include hlive hrun hcls htarget hspare hqueue hold

theorem execRetireTestDone_pass (hp : p < 72) : Answers (execRetireTestDone dt y true s) fun t =>
    t.Retired old ∧ t.physOf y.val = some p ∧ t.flag (pgGlobal + 0x400 + 8 * y.val) 30 = true ∧ ∀ q, s.Retired q → t.Retired q := by
  have hall : ∀ q, s.Retired q → ((s.tick dt).retireTested y.val true).Retired q := fun q hq => s.retireTested_retired dt y.val true hq
  rw [State.retireTested_pass ((s.tick_maintRun dt).trans hrun) hcls htarget hspare] at hall
  obtain ⟨hretired, hphys, hremapped⟩ := State.retirement_done m.retireCause hold ((s.tick_maintQueue dt).trans hqueue) y.isLt hp
  refine ⟨_, (execRetireTestDone_next hlive y true).trans (congrArg _ ?_), hretired, hphys, hremapped, hall⟩
  exact State.retireTested_pass ((s.tick_maintRun dt).trans hrun) hcls htarget hspare

theorem execRetireTestDone_fail (hnone : ((s.tick dt).spareFailed p).chooseSpare old = none) : Answers (execRetireTestDone dt y false s) fun t =>
    t.Retired old ∧ t.Retired p ∧ t.physOf y.val = none ∧ ∀ q, s.Retired q → t.Retired q := by
  have hall : ∀ q, s.Retired q → ((s.tick dt).retireTested y.val false).Retired q := fun q hq => s.retireTested_retired dt y.val false hq
  have hfail := State.retireTested_fail ((s.tick_maintRun dt).trans hrun) hcls htarget hspare hold y.isLt hnone
  obtain ⟨hspareRetired, hsamePhys, hsameQueue⟩ := (s.tick dt).spareFailed_shape p y.isLt
  have hqueue' := hsameQueue.trans ((s.tick_maintQueue dt).trans hqueue)
  obtain ⟨hretired, hphys⟩ := State.retirement_vacant m.retireCause (hsamePhys.trans hold) hqueue' y.isLt
  have hlast : ((((s.tick dt).spareFailed p).retireYard y.val m.retireCause none).endMaint 5 y.val 1).Retired p :=
    State.retired_of_keeps (State.endMaint_keeps _ 5 y.val 1 (State.retireYard_keeps _ y.val m.retireCause none (Keeps.refl _))) hspareRetired
  rw [hfail] at hall
  exact ⟨_, (execRetireTestDone_next hlive y false).trans (congrArg _ hfail), hretired, hlast, hphys, hall⟩

end

/-! ### The window of the hits -/

/-- The hits back at reset. -/
theorem State.clearHits_answers (s : State) : (∀ y, y < 64 → (s.resetRegs (pgMon + 0x400) (pgMon + 0x600)).reg (pgMon + 0x400 + 8 * y) =
      (regReset (pgMon + 0x400 + 8 * y)).toNat) ∧
    ∀ a, a < pgMon + 0x400 ∨ pgMon + 0x600 ≤ a → (s.resetRegs (pgMon + 0x400) (pgMon + 0x600)).reg a = s.reg a :=
  ⟨fun y hy => by rw [State.reg_resetRegs, if_pos (by omega)], fun a ha => by rw [State.reg_resetRegs, if_neg (by omega)]⟩

section
variable {s : State} {dt : Nat}

/-- The length of the window in ns. -/
def State.hitsWindow (s : State) : Nat := s.fld (pgMon + 0x180) 47 32 * 3600000000000

theorem execHitsWindowClear_passes (h : s.now / s.hitsWindow < (s.tick dt).now / s.hitsWindow) : Answers (execHitsWindowClear dt s) fun t =>
    (∀ y, y < 64 → t.reg (pgMon + 0x400 + 8 * y) = (regReset (pgMon + 0x400 + 8 * y)).toNat) ∧
      (∀ a, a < pgMon + 0x400 ∨ pgMon + 0x600 ≤ a → t.reg a = (s.tick dt).reg a) ∧ t.hbm = s.hbm := by
  have hhbm : ((s.tick dt).resetRegs (pgMon + 0x400) (pgMon + 0x600)).hbm = s.hbm := by rw [State.resetRegs_hbm, s.tick_hbm dt]
  obtain ⟨hhits, hothers⟩ := (s.tick dt).clearHits_answers
  refine ⟨(s.tick dt).resetRegs (pgMon + 0x400) (pgMon + 0x600), ?_, hhits, hothers, hhbm⟩
  exact congrArg Host.Outcome.next (if_pos h)

theorem execHitsWindowClear_stays (h : ¬(s.now / s.hitsWindow < (s.tick dt).now / s.hitsWindow)) : execHitsWindowClear dt s = .next (s.tick dt) :=
  congrArg Host.Outcome.next (if_neg h)

end

end Sys2Proof.Machine

namespace Sys2Proof
open Machine

/-- Settles O58: STOP, the fabric resets and the Yard reset leave the map and the arbiter's queue; SWITCH writes the map entry and the retired lists,
and what follows takes no Yard off them. -/
theorem yardRetirement : Obligations.YardRetirement := by
  unfold Obligations.YardRetirement
  exact ⟨fun s dt y m p old hlive hrun hcls htarget hspare hqueue hold hp _ => execRetireTestDone_pass hlive hrun hcls htarget hspare hqueue hold hp,
    fun s dt y m p old hlive hrun hcls htarget hspare hqueue hold _ _ hnone =>
      execRetireTestDone_fail hlive hrun hcls htarget hspare hqueue hold (by rw [State.spareFailed]; exact hnone),
    fun s dt => ⟨execHitsWindowClear_passes, execHitsWindowClear_stays⟩⟩

end Sys2Proof
end

section
/-! SUPPORT. A job that yields, drains and resumes (R363, R365), and the warning of a yield that waits (R366). -/
namespace Sys2Proof.Machine

/-! ### The state of a job -/

theorem jobSt_bounds {p j : Nat} (hp : p < 8) (hj : j < 16) : 0x2_0000 ≤ jobSt p j ∧ jobSt p j < 0x2_8000 ∧
    0x208 ≤ jobSt p j % 0x1000 ∧ jobSt p j % 0x1000 < 0x308 := by
  unfold jobSt pgPart
  omega

theorem State.jobState_eq (s : State) (p j : Nat) : s.jobState p j = s.fld (jobSt p j) 63 62 := rfl

theorem State.jobState_congr {s t : State} {p j : Nat} (h : t.reg (jobSt p j) = s.reg (jobSt p j)) : t.jobState p j = s.jobState p j := by
  rw [State.jobState_eq, State.jobState_eq, State.fld_congr h]

theorem State.jobState_setState (s : State) (p j : Nat) {n : Nat} (hn : n < 4) : (s.setFld (jobSt p j) 63 62 n).jobState p j = n :=
  (s.fld_setFld_self _ 63 62 n (by decide) (by decide)).trans (Nat.mod_eq_of_lt hn)

/-! ### The ring follows its job -/

theorem State.onlyRegs_refreshRing (s : State) (j : Nat) : OnlyRegs s (s.refreshRing j) :=
  onlyRegs_ite _ (onlyRegs_setFld ..) (onlyRegs_ite _ (.refl s) (onlyRegs_setFld ..))

theorem State.refreshRing_reg (s : State) (j : Nat) {a : Nat} (ha : a < 0x200_0000) : (s.refreshRing j).reg a = s.reg a := by
  have hdoor : a ≠ ringSt j := by have := pgDoor_ge j; unfold ringSt; omega
  unfold State.refreshRing
  extract_lets st yields pending
  split
  · exact s.reg_setReg_ne _ hdoor
  split
  · rfl
  · exact s.reg_setReg_ne _ hdoor

theorem State.refreshRing_jobState (s : State) (k : Nat) {p j : Nat} (hp : p < 8) (hj : j < 16) : (s.refreshRing k).jobState p j = s.jobState p j :=
  State.jobState_congr (s.refreshRing_reg k (by have := jobSt_bounds hp hj; omega))

theorem OnlyRegs.yieldAt {s t : State} (h : OnlyRegs s t) : t.yieldAt = s.yieldAt := by obtain ⟨r, o, rfl⟩ := h; rfl

theorem OnlyRegs.yieldWarned {s t : State} (h : OnlyRegs s t) : t.yieldWarned = s.yieldWarned := by obtain ⟨r, o, rfl⟩ := h; rfl

/-! ### YIELD and RESUME -/

/-- The time of a yield noted, and its earlier warnings forgotten. -/
def State.noteYield (s : State) (j t : Nat) : State :=
  { s with yieldAt := Tab.put s.yieldAt j t, yieldWarned := s.yieldWarned.filter fun k => !(k % 16 == j) }

theorem State.setFld_noteYield (s : State) (a hi lo v j t : Nat) :
    { s.setFld a hi lo v with yieldAt := Tab.put s.yieldAt j t, yieldWarned := s.yieldWarned.filter fun k => !(k % 16 == j) } =
      (s.setFld a hi lo v).noteYield j t := by
  rw [State.noteYield, State.setFld_yieldAt, State.setFld_yieldWarned]

theorem State.noteYield_yieldAt (s : State) (j t : Nat) : Tab.get 0 (s.noteYield j t).yieldAt j = t :=
  congrArg (Option.getD · 0) (Tab.find?_put_self s.yieldAt j t)

theorem State.noteYield_keeps (s : State) (j t : Nat) : (s.noteYield j t).hbm = s.hbm ∧ (s.noteYield j t).cores = s.cores ∧
    ∀ a, (s.noteYield j t).reg a = s.reg a := ⟨rfl, rfl, fun _ => rfl⟩

/-- YIELD of the job PT_JOB_CTRL names. -/
def State.jobYields (s : State) (p w j : Nat) : State :=
  if acts w 0 ∧ s.jobState p j = 1 then ((s.setFld (jobSt p j) 63 62 2).noteYield j s.now).refreshRing j else s

/-- RESUME of the job PT_JOB_CTRL names. -/
def State.jobResumes (s : State) (p w j : Nat) : State :=
  if acts w 1 ∧ 2 ≤ s.jobState p j then (s.setFld (jobSt p j) 63 62 1).refreshRing j else s

/-- What PT_JOB_CTRL does for the job it names, once the write is stored. -/
def State.jobActs (s : State) (p w j : Nat) : State := (s.jobYields p w j).jobResumes p w j

theorem State.jobCtrl_open {s : State} {acc : Acc} {p : Nat} (h : s.Open acc (pgPart p + 0x190)) (w : Nat) : s.jobCtrl acc p w =
    (s.storeReg (pgPart p + 0x190) w (accMask acc)).jobActs p w ((s.storeReg (pgPart p + 0x190) w (accMask acc)).fld (pgPart p + 0x190) 7 4) := by
  unfold State.jobCtrl
  dsimp only
  rw [State.hostWrite_of_open h, State.setFld_noteYield]
  rfl

section
variable {s : State} {p w j : Nat} (hp : p < 8) (hj : j < 16)
include hp hj

theorem State.jobActs_yields (hyield : acts w 0 = true) (hresume : acts w 1 = false) (hrun : s.jobState p j = 1) :
    (s.jobActs p w j).jobState p j = 2 ∧ Tab.get 0 (s.jobActs p w j).yieldAt j = s.now ∧ (s.jobActs p w j).hbm = s.hbm ∧
      (s.jobActs p w j).cores = s.cores := by
  have hyields : s.jobActs p w j = ((s.setFld (jobSt p j) 63 62 2).noteYield j s.now).refreshRing j := by
    rw [State.jobActs, State.jobYields, if_pos ⟨hyield, hrun⟩]
    exact if_neg fun h => absurd h.1 (by rw [hresume]; decide)
  obtain ⟨hhbm, hcores, hreg⟩ := (s.setFld (jobSt p j) 63 62 2).noteYield_keeps j s.now
  have hring := ((s.setFld (jobSt p j) 63 62 2).noteYield j s.now).onlyRegs_refreshRing j
  have hset : OnlyRegs s (s.setFld (jobSt p j) 63 62 2) := onlyRegs_setFld ..
  rw [hyields, State.refreshRing_jobState _ _ hp hj, hring.yieldAt, hring.hbm, hring.cores, State.jobState_congr (hreg _),
    State.jobState_setState _ _ _ (by decide), State.noteYield_yieldAt, hhbm, hcores, hset.hbm, hset.cores]
  exact ⟨rfl, rfl, rfl, rfl⟩

theorem State.jobActs_resumes (hyield : acts w 0 = false) (hresume : acts w 1 = true) (hstate : 2 ≤ s.jobState p j) :
    (s.jobActs p w j).jobState p j = 1 ∧ (s.jobActs p w j).hbm = s.hbm ∧ (s.jobActs p w j).cores = s.cores := by
  have hresumes : s.jobActs p w j = (s.setFld (jobSt p j) 63 62 1).refreshRing j := by
    have hnone : s.jobYields p w j = s := if_neg fun h => absurd h.1 (by rw [hyield]; decide)
    rw [State.jobActs, hnone]
    exact if_pos ⟨hresume, hstate⟩
  have hkeeps : OnlyRegs s ((s.setFld (jobSt p j) 63 62 1).refreshRing j) := (onlyRegs_setFld ..).trans (State.onlyRegs_refreshRing ..)
  rw [hresumes, State.refreshRing_jobState _ _ hp hj, State.jobState_setState _ _ _ (by decide), hkeeps.hbm, hkeeps.cores]
  exact ⟨rfl, rfl, rfl⟩

end

/-! ### The end of a drain -/

/-- STATE 3, the time of the drain and its event. -/
theorem State.drained_jobState (s : State) {p j : Nat} (hp : p < 8) (hj : j < 16) (us : Nat) :
    ((((s.setFld (jobSt p j) 63 62 3).setFld (jobSt p j) 47 32 us).jobEvent p j 7).refreshRing j).jobState p j = 3 := by
  have hst := jobSt_bounds hp hj
  have hpage : pgPart p % 0x1000 = 0 := by unfold pgPart; omega
  have hevent : ∀ t : State, (t.jobEvent p j 7).reg (jobSt p j) = t.reg (jobSt p j) := by
    intro t
    rw [State.jobEvent, State.event_reg _ _ _ (by omega) (by omega) (by omega), State.setFlag, State.reg_setFld_ne _ _ _ _ (by omega)]
  rw [State.refreshRing_jobState _ _ hp hj, State.jobState_congr (hevent _), State.jobState_eq, State.fld_setFld_apart _ _ _ (by decide) (by decide)
    (by decide) (by decide), ← State.jobState_eq, State.jobState_setState _ _ _ (by decide)]

theorem State.drain_done {s : State} {p j : Nat} (hp : p < 8) (hj : j < 16) (es : List (Yard × Ecc)) (hyields : s.jobState p j = 2)
    (hidle : s.jobIdle j = true) (hsave : s.saveOk p = true) : (s.drain p j es).jobState p j = 3 := by
  unfold State.drain
  rw [if_neg (by rw [hyields, hidle]; decide), if_neg (by rw [hsave]; decide)]
  exact State.drained_jobState _ hp hj _

/-! ### PREEMPT_WAIT -/

theorem State.preemptWait_known {s : State} (p : Nat) {j : Nat} (h : s.yieldWarned.contains j = true) : s.preemptWait p j 1 = s := if_pos h

/-- The reports of a yield with `k` added. -/
def State.warnYield (s : State) (k : Nat) : State := { s with yieldWarned := s.yieldWarned ++ [k] }

theorem State.warnYield_keeps (s : State) (k : Nat) : (s.warnYield k).yieldWarned = s.yieldWarned ++ [k] ∧ (s.warnYield k).hbm = s.hbm := ⟨rfl, rfl⟩

theorem onlyRegs_partFault (s : State) (p code info : Nat) : OnlyRegs s (s.partFault p code info) :=
  onlyRegs_ite _ ((onlyRegs_fault ..).trans (onlyRegs_event ..)) (onlyRegs_fault ..)

theorem onlyRegs_jobEvent (s : State) (p j i : Nat) : OnlyRegs s (s.jobEvent p j i) := (onlyRegs_setFlag ..).trans (onlyRegs_event ..)

theorem State.preemptWait_reports {s : State} (p : Nat) {j : Nat} (h : s.yieldWarned.contains j = false) :
    (s.preemptWait p j 1).yieldWarned = s.yieldWarned ++ [j] ∧ (s.preemptWait p j 1).hbm = s.hbm := by
  have hreports : ∃ info, s.preemptWait p j 1 = ((s.warnYield j).partFault p 0x0802 info).jobEvent p j 8 :=
    ⟨_, if_neg (by rw [if_pos rfl, h]; decide)⟩
  obtain ⟨info, hreports⟩ := hreports
  have hregs : OnlyRegs (s.warnYield j) (((s.warnYield j).partFault p 0x0802 info).jobEvent p j 8) :=
    (onlyRegs_partFault ..).trans (onlyRegs_jobEvent ..)
  rw [hreports, hregs.yieldWarned, hregs.hbm]
  exact s.warnYield_keeps j

theorem State.tick_yield (s : State) (dt : Nat) : (s.tick dt).yieldAt = s.yieldAt ∧ (s.tick dt).yieldWarned = s.yieldWarned := by
  obtain ⟨r, o, lim, slew, held, htick⟩ := s.tick_cases dt
  rw [htick]
  exact ⟨rfl, rfl⟩

theorem execPreemptWait_due {s : State} {dt : Nat} {p : Part} {j : JobId} (hlive : (s.tick dt).live = true)
    (hyields : (s.tick dt).jobState p.val j.val = 2) (hwarns : (s.tick dt).fld (jobCfg p.val j.val) 31 0 ≠ 0)
    (hdue : Tab.get 0 s.yieldAt j.val + (s.tick dt).fld (jobCfg p.val j.val) 31 0 * 1000 ≤ (s.tick dt).now) :
    execPreemptWait dt p j s = .next ((s.tick dt).preemptWait p.val j.val 1) := by
  rw [execPreemptWait, State.whenLive_of_live hlive]
  rw [← (s.tick_yield dt).1] at hdue
  exact congrArg Host.Outcome.next (if_pos ⟨hyields, hwarns, hdue⟩)

end Sys2Proof.Machine

namespace Sys2Proof
open Machine

/-- Settles O46: the writes of PT_JOB_CTRL and the end of the drain set STATE and otherwise reach the ring's page and the partition's header. -/
theorem yieldAndResume : Obligations.YieldAndResume := by
  unfold Obligations.YieldAndResume
  intro s p
  refine ⟨fun acc w j hopen hjob => ?_, fun j es hlive hyields hidle hsave => ?_,
    fun j dt hlive hyields hwarns hdue => ⟨fun hnew => ?_, fun hknown => ?_⟩⟩
  · have hj : j < 16 := hjob ▸ bits_lt _ 7 4
    have hst := jobSt_bounds p.isLt hj
    have hpage : pgPart p.val % 0x1000 = 0 := by unfold pgPart; omega
    have hnext : (.next (s.jobCtrl acc p.val w.toNat) : Result) =
        .next ((s.storeReg (pgPart p.val + 0x190) w.toNat (accMask acc)).jobActs p.val w.toNat j) := by
      rw [State.jobCtrl_open hopen, ← hjob]
    have hstored := onlyRegs_storeReg s (pgPart p.val + 0x190) w.toNat (accMask acc)
    have hnow : (s.storeReg (pgPart p.val + 0x190) w.toNat (accMask acc)).now = s.now :=
      s.reg_storeReg_ne _ _ (by unfold pgGlobal pgPart; omega)
    have hstate : (s.storeReg (pgPart p.val + 0x190) w.toNat (accMask acc)).jobState p.val j = s.jobState p.val j :=
      State.jobState_congr (s.reg_storeReg_ne _ _ (by omega))
    refine ⟨fun hyield hresume hrun => ⟨_, hnext, ?_⟩, fun hyield hresume hwas => ⟨_, hnext, ?_⟩⟩
    · obtain ⟨hyields, hnoted, hhbm, hcores⟩ := State.jobActs_yields p.isLt hj hyield hresume (hstate.trans hrun)
      exact ⟨hyields, hnoted.trans hnow, hhbm.trans hstored.hbm, hcores.trans hstored.cores⟩
    · obtain ⟨hruns, hhbm, hcores⟩ := State.jobActs_resumes p.isLt hj hyield hresume (by rw [hstate]; omega)
      exact ⟨hruns, hhbm.trans hstored.hbm, hcores.trans hstored.cores⟩
  · exact ⟨_, congrArg Host.Outcome.next (State.whenLive_of_live hlive _), State.drain_done p.isLt j.isLt es hyields hidle hsave⟩
  · have hreports := State.preemptWait_reports (s := s.tick dt) p.val (j := j.val) (by rw [(s.tick_yield dt).2]; exact hnew)
    rw [(s.tick_yield dt).2, s.tick_hbm dt] at hreports
    exact ⟨_, execPreemptWait_due hlive hyields hwarns hdue, hreports⟩
  · exact (execPreemptWait_due hlive hyields hwarns hdue).trans
      (congrArg _ (State.preemptWait_known p.val (by rw [(s.tick_yield dt).2]; exact hknown)))

end Sys2Proof
end

section
/-! SUPPORT. How a ring fetches its next entry (R357, R368, R371), and what the oldest entry not yet acted on does (R369). -/
namespace Sys2Proof.Machine

/-! ### Fetching -/

/-- The address of the entry at HEAD. -/
def State.headAddr (s : State) (j : Nat) : Nat := s.ringBase j + 128 * s.ringHead j

/-- A malformed entry halts its ring with cause 1. -/
def State.refuseEntry (s : State) (j p h : Nat) (bs : List Byte) : State :=
  (s.partFault p 0x0B01 (jobInfo j 1 h (fieldOf bs 0 1))).haltRing j 1 0x0B01

/-- The entry that bytes hold. -/
def entryOf (h : Nat) (bs : List Byte) : RingEntry :=
  { index := h, op := fieldOf bs 0 1, irq := bit (fieldOf bs 1 1) 0, arg := fieldOf bs 8 8, body := (bs.drop 0x10).take 80 }

/-- A well-formed entry is taken, and HEAD moves by one. -/
def State.takeEntry (s : State) (j h : Nat) (bs : List Byte) : State :=
  ((s.setRing j (s.ringOf j ++ [entryOf h bs])).setFld (ringSt j) 15 0 ((h + 1) % s.ringSize j)).refreshRing j

theorem State.dropAsk_hbm (s : State) (key : Nat) : (s.dropAsk key).hbm = s.hbm := rfl

/-- The requester of a ring's fetch. -/
def ringUser (p j : Nat) : HbmUser := { part := p, cls := 0, job := j }

section
variable {s : State} {j p : Nat} (hpart : s.partOfJob j = some p)
include hpart

theorem State.ringFetch_idle (h : s.mayFetch j = false) : s.ringFetch j = s := by
  unfold State.ringFetch
  rw [hpart]
  exact if_pos (.inl (by rw [h]; rfl))

variable (hmay : s.mayFetch j = true) (hturn : s.fetchLater p j = false)
include hmay hturn

theorem State.ringFetch_dead (hdead : s.chLive (adChan (s.headAddr j)) = false) : s.ringFetch j = s.haltRing j 4 0 := by
  unfold State.headAddr at hdead
  unfold State.ringFetch
  rw [hpart]
  dsimp only
  rw [if_neg (by rw [hmay, hturn]; decide), if_pos (by rw [hdead]; decide)]

variable (hlive : s.chLive (adChan (s.headAddr j)) = true)
include hlive

/-- On a LIVE channel the fetch goes by the answers of memory. -/
theorem State.ringFetch_reads {now : Bool} {t : State}
    (hread : s.readNow (askKey (.ring j)) (ringUser p j) (cutLines (s.headAddr j) 128) = (now, t)) : s.ringFetch j =
      if !now then t
      else if t.entryBad p (t.hbm.read (s.headAddr j) 128) then t.refuseEntry j p (s.ringHead j) (t.hbm.read (s.headAddr j) 128)
      else t.takeEntry j (s.ringHead j) (t.hbm.read (s.headAddr j) 128) := by
  unfold State.headAddr ringUser at hread
  unfold State.headAddr at hlive
  unfold State.ringFetch
  rw [hpart]
  dsimp only
  rw [if_neg (by rw [hmay, hturn]; decide), if_neg (by rw [hlive]; decide), hread]
  rfl

theorem State.ringFetch_asks (hnew : Tab.find? s.askers (askKey (.ring j)) = none) :
    s.ringFetch j = s.ask (askKey (.ring j)) (ringUser p j) (cutLines (s.headAddr j) 128) :=
  State.ringFetch_reads hpart hmay hturn hlive (State.readNow_first _ hnew (cutLines_ne_nil _ (by decide)))

theorem State.ringFetch_waits (hwaits : s.served (askKey (.ring j)) = false) : s.ringFetch j = s :=
  State.ringFetch_reads hpart hmay hturn hlive (State.readNow_waits _ hwaits)

variable (hasked : Tab.find? s.askers (askKey (.ring j)) ≠ none) (hserved : s.served (askKey (.ring j)) = true)
include hasked hserved

theorem State.ringFetch_answered : s.ringFetch j =
    if (s.dropAsk (askKey (.ring j))).entryBad p (s.hbm.read (s.headAddr j) 128) then
      (s.dropAsk (askKey (.ring j))).refuseEntry j p (s.ringHead j) (s.hbm.read (s.headAddr j) 128)
    else (s.dropAsk (askKey (.ring j))).takeEntry j (s.ringHead j) (s.hbm.read (s.headAddr j) 128) := by
  rw [State.ringFetch_reads hpart hmay hturn hlive (State.readNow_served _ hasked hserved), State.dropAsk_hbm]
  rfl

end

/-- What asking leaves as it was. -/
theorem State.ask_keeps (s : State) (key : Nat) (w : HbmUser) (rs : List (Nat × Nat)) :
    (s.ask key w rs).regs = s.regs ∧ (s.ask key w rs).rings = s.rings := by
  obtain ⟨sl, h⟩ := s.ask_cases key w rs
  rw [h]
  exact ⟨rfl, rfl⟩

theorem execRingFetch_live {s : State} (hlive : s.live = true) (j : JobId) : execRingFetch j s = .next (s.ringFetch j.val) := by
  rw [execRingFetch, State.whenLive_of_live hlive]

/-! ### Acting -/

/-- The oldest entry not yet acted on acts by `f`. -/
theorem State.ringAct_live {s : State} {j p op : Nat} {alone : Bool} {e : RingEntry} (hlive : s.live = true) (hpart : s.partOfJob j = some p)
    (he : s.nextEntry j op alone = some e) (f : State → Nat → RingEntry → State) :
    (.next (s.whenLive fun s => s.ringAct j op alone f) : Result) = .next (f s p e) := by
  rw [State.whenLive_of_live hlive, State.ringAct, hpart, he]

theorem State.unload_done {s : State} {p j rig : Nat} {i : Image} (himage : s.imageAt p rig = some i) (hused : s.imageUsed i = false)
    (hactive : s.imageActive i = false) : s.unload p j rig = (true, (s.dropImage i).rigResult p 3 rig j 0) := by
  unfold State.unload
  rw [himage]
  dsimp only
  rw [if_neg (by rw [hused, hactive]; decide)]

end Sys2Proof.Machine

namespace Sys2Proof
open Machine

/-- Settles O48: the fetch by whether the ring may fetch, the channel serves and memory has answered; each kind of entry by what its row does with
the oldest entry not yet acted on. -/
theorem ringEntries : Obligations.RingEntries := by
  unfold Obligations.RingEntries
  intro s j p hlive hpart
  refine ⟨fun hmay hturn => ⟨fun hdead => ?dead, fun hserves hnew => ?asks, fun hserves hwaits => ?waits, fun hserves hasked hserved => ?answered⟩,
    fun hidle => ?idle, fun e he => State.ringAct_live hlive hpart he _, fun e he => State.ringAct_live hlive hpart he _,
    fun e he hfree => ?load, fun e i he hfree himage hused hactive => ?unload, fun e he => State.ringAct_live hlive hpart he _,
    fun e he => ⟨fun hdead => ?signalWaits, fun hserves => ?signal⟩⟩
  case dead => exact (execRingFetch_live hlive j).trans (congrArg _ (State.ringFetch_dead hpart hmay hturn hdead))
  case asks =>
    obtain ⟨hregs, hrings⟩ := s.ask_keeps (askKey (.ring j.val)) (ringUser p j.val) (cutLines (s.headAddr j.val) 128)
    exact ⟨_, (execRingFetch_live hlive j).trans (congrArg _ (State.ringFetch_asks hpart hmay hturn hserves hnew)),
      State.askers_ask _ _ _ (cutLines_ne_nil _ (by decide)), hregs, hrings, State.hbm_ask ..⟩
  case waits => exact (execRingFetch_live hlive j).trans (congrArg _ (State.ringFetch_waits hpart hmay hturn hserves hwaits))
  case answered =>
    have hfetch := (execRingFetch_live hlive j).trans (congrArg _ (State.ringFetch_answered hpart hmay hturn hserves hasked hserved))
    exact ⟨fun hbad => hfetch.trans (congrArg _ (if_pos hbad)), fun hgood => hfetch.trans (congrArg _ (if_neg (by
      rw [State.headAddr, hgood]
      decide)))⟩
  case idle => exact (execRingFetch_live hlive j).trans (congrArg _ (State.ringFetch_idle hpart hidle))
  case load => exact (State.ringAct_live hlive hpart he _).trans (congrArg _ (if_neg (by rw [hfree]; decide)))
  case unload =>
    refine (State.ringAct_live hlive hpart he _).trans (congrArg _ ?_)
    dsimp only
    rw [if_neg (by rw [hfree]; decide), State.unload_done himage hused hactive]
    dsimp only
    rw [if_pos rfl]
  case signalWaits => exact (State.ringAct_live hlive hpart he _).trans (congrArg _ (if_pos (by rw [hdead]; decide)))
  case signal =>
    refine (State.ringAct_live hlive hpart he _).trans (congrArg _ ((if_neg (by rw [hserves]; decide)).trans ?_))
    rw [State.partOf, hpart]
    rfl

end Sys2Proof
end

section
/-! SUPPORT. The resets a keyed write of BR_RESET makes (R433..R437): which one it names, what a warm reset keeps, and the end of a reset of part of the
device. -/
namespace Sys2Proof.Machine

/-! ### What a warm reset keeps -/

/-- A table through a filter and a map that keep the entries of a key keeps what is found there. -/
theorem Tab.find?_filterMap_self {f : Nat × W64 → Option (Nat × W64)} {a : Nat} (hself : ∀ w, f (a, w) = some (a, w))
    (hkey : ∀ e e', f e = some e' → e'.1 = e.1) (t : Tab W64) : Tab.find? (List.filterMap f t) a = Tab.find? t a := by
  induction t with
  | nil => rfl
  | cons e t ih =>
    obtain ⟨b, w⟩ := e
    by_cases hb : b = a
    · subst hb
      rw [List.filterMap_cons_some (hself w), Tab.find?, Tab.find?, if_pos rfl, if_pos rfl]
    · cases hf : f (b, w) with
      | none => rw [List.filterMap_cons_none hf, ih, Tab.find?, if_neg hb]
      | some e' =>
        obtain ⟨c, v⟩ := e'
        have hc : c = b := hkey _ _ hf
        subst hc
        rw [List.filterMap_cons_some hf, Tab.find?, Tab.find?, if_neg hb, if_neg hb, ih]

theorem warmRegs_find (t : Tab W64) {a : Nat} (ha : warmKept a = true) : Tab.find? (warmRegs t) a = Tab.find? t a := by
  unfold warmRegs
  rw [Tab.find?_filterMap_self (fun w => if_pos ha)]
  · rw [Tab.find?_filter (fun k => warmKept k || !(warmPart k == 0)) t a, if_pos (by rw [ha, Bool.true_or])]
  · intro e e' h
    split at h
    · rw [← Option.some.inj h]
    · dsimp only at h
      split at h
      · cases h
      · rw [← Option.some.inj h]

theorem State.warmKeeps_reg (s : State) {a : Nat} (ha : warmKept a = true) : s.warmKeeps.reg a = s.reg a := by
  show (Tab.get (regReset a) (warmRegs s.regs) a).toNat = _
  rw [Tab.get, warmRegs_find _ ha]
  rfl

theorem State.warmKeeps_hbm (s : State) : s.warmKeeps.hbm = s.hbm := rfl

theorem warmKept_apart {a : Nat} (ha : warmKept a = true) : (a ≠ pgMast false + 0x100 ∧ a ≠ pgMast true + 0x100) ∧
    a ∉ [pgBare + 0x100, pgBare + 0x18, pgBare + 0x28] := by
  have hnot : ∀ b ∈ [pgMast false + 0x100, pgMast true + 0x100, pgBare + 0x100, pgBare + 0x18, pgBare + 0x28], warmKept b = false := by decide
  have hne : ∀ b ∈ [pgMast false + 0x100, pgMast true + 0x100, pgBare + 0x100, pgBare + 0x18, pgBare + 0x28], a ≠ b := by
    rintro b hb rfl
    rw [hnot _ hb] at ha
    exact absurd ha (by decide)
  refine ⟨⟨hne _ (by simp), hne _ (by simp)⟩, fun hmem => ?_⟩
  exact hne a (List.mem_cons_of_mem _ (List.mem_cons_of_mem _ hmem)) rfl

theorem State.mapOutsEnd_none {s : State} (h : s.maintRun = []) : s.mapOutsEnd = s := by
  unfold State.mapOutsEnd
  rw [h]
  rfl

section
variable {s : State} (source : Nat) (hidle : s.maintRun = [])
include hidle

/-- With no operation running a warm reset leaves the registers it keeps as they were. -/
theorem State.warmReset_kept {a : Nat} (ha : warmKept a = true) (hlog : a ≠ pgBare + 0x110) (htime : a ≠ pgBare + 0x118) (hlt : a < 0x201_0000) :
    (s.warmReset source).reg a = s.reg a := by
  obtain ⟨hmast, hbare⟩ := warmKept_apart ha
  rw [State.warmReset_reg _ _ hmast hbare hlt, State.reg_setReg_ne _ _ htime, State.reg_setReg_ne _ _ hlog, State.mapOutsEnd_none hidle,
    State.warmKeeps_reg _ ha]

theorem State.warmReset_hbm : (s.warmReset source).hbm = s.hbm := by
  rw [State.warmReset_eq, State.mapOutsEnd_none hidle]
  exact ((onlyRegs_setFld ..).trans (onlyRegs_setFld ..)).hbm.trans ((hbm_of_baseView (State.setStage_baseView ..)).trans
    (((onlyRegs_setReg ..).trans (onlyRegs_setReg ..)).hbm.trans s.warmKeeps_hbm))

end

theorem State.warmReset_time (s : State) (source : Nat) : (s.warmReset source).reg (pgBare + 0x118) = s.now := by
  rw [State.warmReset_reg _ _ (by decide) (by decide) (by decide), State.reg_setReg_self]
  exact Nat.mod_eq_of_lt (s.reg_lt _)

/-! ### The end of a reset of part of the device -/

/-- BR_LOG of such a reset. -/
theorem State.resetDone_answers (s : State) {type source target : Nat} (htype : type < 8) (hsource : source < 8) (htarget : target < 64) (ms t0 : Nat) :
    (s.resetDone type source target ms t0).reg (pgBare + 0x110) = type * 2 ^ 61 + source * 2 ^ 58 + target * 2 ^ 52 + ms % 2 ^ 32 ∧
      (s.resetDone type source target ms t0).flag (pgBare + 0x18) 2 = true := by
  have hword : fieldAt 61 type + fieldAt 58 source + fieldAt 52 target + ms % 2 ^ 32 < 2 ^ 64 := by unfold fieldAt; omega
  unfold State.resetDone
  dsimp only
  constructor
  · rw [State.event_reg _ _ _ (by decide) (by decide) (by decide), State.tick_reg _ _ (by decide) (by decide) (by decide)
      fun h => absurd h (by decide), State.setFlag, State.reg_setFld_ne _ _ _ _ (by decide), State.reg_setReg_ne _ _ (by decide),
      State.reg_setReg_self, Nat.mod_eq_of_lt hword]
    rfl
  · exact State.event_flag _ _ _ (by decide) (by decide)

/-! ### The partition's registers -/

/-- A partition whose regulators hold nothing counts no waits. -/
theorem State.regWaits_part (s : State) (dt : Nat) {p a : Nat} (hp : p < 8) (hfree : ∀ k ∈ s.regsHolding, k % 8 ≠ p) (hlo : pgPart p ≤ a)
    (hhi : a < pgPart p + 0x1000) : (s.regWaits dt).reg a = s.reg a := by
  have hpage : pgPart p = 0x2_0000 + p * 0x1000 := rfl
  have hkinds : ∀ k ∈ s.regsHolding, k < 24 := by
    intro k hk
    simp only [State.regsHolding, List.mem_eraseDups, List.mem_map, List.mem_filter, Bool.and_eq_true, decide_eq_true_eq] at hk
    obtain ⟨e, ⟨-, he, -⟩, rfl⟩ := hk
    omega
  unfold State.regWaits
  refine List.foldlRecOn (motive := fun (t : State) => t.reg a = s.reg a) s.regsHolding _ rfl fun t ht k hk => ?_
  have hother : pgPart (k % 8) = 0x2_0000 + k % 8 * 0x1000 := rfl
  have hne := hfree k hk
  have hlt := hkinds k hk
  have hbase : pageBase (pgPart (k % 8) + 0x158 + 8 * (k / 8)) = pgPart (k % 8) := by
    unfold pageBase
    omega
  exact (State.bump_reg _ _ _ (by omega) (by omega) (by omega) (by omega)).trans ht

/-- What time does beside the regulators' waits. -/
theorem State.tick_reg_regWaits (s : State) (dt : Nat) {a : Nat} (ha : 0x2_0000 ≤ a) (hlt : a < 0x201_0000) :
    (s.tick dt).reg a = (s.regWaits dt).reg a := by
  have hlimit : ((s.regWaits dt).limitTime dt).reg a = (s.regWaits dt).reg a := by
    refine State.limitTime_reg _ _ hlt ?_
    simp only [List.mem_cons, List.not_mem_nil, or_false]
    omega
  rw [← hlimit]
  unfold State.tick State.regHeldNow
  show (((s.regWaits dt).limitTime dt).clocks dt).reg a = _
  generalize (s.regWaits dt).limitTime dt = t
  unfold State.clocks
  extract_lets s1 lim corr
  split
  · exact s1.reg_setReg_ne _ (by unfold pgGlobal; omega)
  · rfl

/-- The regulators of a partition hold nothing and have no setting in force, and nothing of it has moved. -/
def State.emptyRegulators (s : State) (p : Nat) : State :=
  { s with buckets := Tab.clear (fun k => k / 32 % 8 == p) s.buckets, regLive := Tab.clear (fun k => k % 8 == p) s.regLive,
           regHeldAt := Tab.clear (fun k => k % 8 == p) s.regHeldAt, moved := Tab.del s.moved p }

theorem State.emptyRegulators_reg (s : State) (p a : Nat) : (s.emptyRegulators p).reg a = s.reg a := rfl

theorem State.emptyRegulators_buckets (s : State) (p : Nat) : (s.emptyRegulators p).buckets = Tab.clear (fun k => k / 32 % 8 == p) s.buckets := rfl

theorem State.emptyRegulators_holding (s : State) (p : Nat) : ∀ k ∈ (s.emptyRegulators p).regsHolding, k % 8 ≠ p := by
  intro k hk
  simp only [State.regsHolding, State.emptyRegulators_buckets, List.mem_eraseDups, List.mem_map, List.mem_filter, Tab.clear] at hk
  obtain ⟨e, ⟨⟨-, he⟩, -⟩, rfl⟩ := hk
  simpa using he

theorem State.partitionReset_shape (s : State) (p : Nat) :
    ∃ t : State, s.partitionReset p = (t.resetRegs (pgPart p + 0x100) (pgPart p + 0x1000)).emptyRegulators p := by
  unfold State.partitionReset
  extract_lets ys js s1 a s2 s3 s4 s5 s6 s7 s8 s9 s10
  exact ⟨s9, rfl⟩

/-- A partition reset leaves the partition's registers at reset, and its regulators empty. -/
theorem State.partitionReset_done (s : State) (p : Nat) :
    (∀ a, pgPart p + 0x100 ≤ a → a < pgPart p + 0x1000 → (s.partitionReset p).reg a = (regReset a).toNat) ∧
      ∀ k ∈ (s.partitionReset p).regsHolding, k % 8 ≠ p := by
  obtain ⟨t, hreset⟩ := s.partitionReset_shape p
  rw [hreset]
  refine ⟨fun a hlo hhi => ?_, State.emptyRegulators_holding _ p⟩
  rw [State.emptyRegulators_reg]
  exact (State.reg_resetRegs ..).trans (if_pos ⟨hlo, hhi⟩)

theorem State.regsHolding_congr {s t : State} (h : t.buckets = s.buckets) : t.regsHolding = s.regsHolding := by
  rw [State.regsHolding, State.regsHolding, h]

/-- BR_LOG as a reset of part of the device writes it, before its time passes. -/
def State.resetLogged (s : State) (type source target ms t0 : Nat) : State :=
  ((s.setReg (pgBare + 0x110) (fieldAt 61 type + fieldAt 58 source + fieldAt 52 target + ms % 2 ^ 32)).setReg (pgBare + 0x118) t0).setFlag
    (pgBare + 0x100) 61 false

theorem State.resetDone_eq (s : State) (type source target ms t0 : Nat) : s.resetDone type source target ms t0 =
    ((s.resetLogged type source target ms t0).tick (ms * 1000000)).event pgBare 2 := rfl

theorem OnlyRegs.buckets {s t : State} (h : OnlyRegs s t) : t.buckets = s.buckets := by obtain ⟨r, o, rfl⟩ := h; rfl

theorem State.resetDone_part (s : State) {p : Nat} (hp : p < 8) (type source target ms t0 : Nat) {a : Nat} (hlo : pgPart p + 0x100 ≤ a)
    (hhi : a < pgPart p + 0x1000) (hfree : ∀ k ∈ s.regsHolding, k % 8 ≠ p) : (s.resetDone type source target ms t0).reg a = s.reg a := by
  have hpage : pgPart p = 0x2_0000 + p * 0x1000 := rfl
  have hbare : pgBare = 0x3000 := rfl
  have hlogged : OnlyRegs s (s.resetLogged type source target ms t0) := ((onlyRegs_setReg ..).trans (onlyRegs_setReg ..)).trans (onlyRegs_setFlag ..)
  have hholding := State.regsHolding_congr hlogged.buckets
  rw [State.resetDone_eq, State.event_reg _ _ _ (by omega) (by omega) (by omega), State.tick_reg_regWaits _ _ (by omega) (by omega),
    State.regWaits_part _ _ hp (by rw [hholding]; exact hfree) (by omega) hhi, State.resetLogged, State.setFlag,
    State.reg_setFld_ne _ _ _ _ (by omega), State.reg_setReg_ne _ _ (by omega), State.reg_setReg_ne _ _ (by omega)]

/-! ### What a write of BR_RESET names -/

/-- The state once BR_RESET has stored the write. -/
def State.resetStored (s : State) (w : Nat) : State := s.storeReg (pgBare + 0x108) w (2 ^ 64 - 1)

theorem State.resetStored_reg (s : State) (w : Nat) {a : Nat} (ha : a ≠ pgBare + 0x108) : (s.resetStored w).reg a = s.reg a :=
  s.reg_storeReg_ne _ _ ha

theorem State.resetStored_stage (s : State) (w : Nat) : (s.resetStored w).stage = s.stage := State.fld_congr (s.resetStored_reg w (by decide)) ..

theorem State.resetStored_isReady (s : State) (w : Nat) : (s.resetStored w).isReady = s.isReady :=
  State.flag_congr (s.resetStored_reg w (by decide)) _

theorem State.resetStored_coldRuns (s : State) (w : Nat) : (s.resetStored w).coldRuns = s.coldRuns := by
  rw [State.coldRuns, State.coldRuns, State.resetStored_stage, State.resetType, State.resetType, State.fld_congr (s.resetStored_reg w (by decide))]

theorem State.onlyRegs_resetStored (s : State) (w : Nat) : OnlyRegs s (s.resetStored w) := onlyRegs_storeReg ..

theorem State.resetStored_tripHolds (s : State) (w : Nat) : (s.resetStored w).tripHolds = s.tripHolds := by
  obtain ⟨r, o, h⟩ := s.onlyRegs_resetStored w
  rw [h]
  rfl

theorem State.resetStored_now (s : State) (w : Nat) : (s.resetStored w).now = s.now := s.resetStored_reg w (by decide)

/-- The key of a write to BR_RESET. -/
def resetKey (w : Nat) : Nat := bits (maskAnd w (maskedBits w)) 23 16

theorem State.resetStored_serves {s : State} (w : Nat) (hready : s.isReady = true) (hstage : s.stage ≠ 8) :
    ¬((!(s.resetStored w).isReady || (s.resetStored w).stage == 8) = true) := by
  rw [State.resetStored_isReady, State.resetStored_stage, hready]
  simpa using hstage

section
variable {s : State} {w source ms : Nat}

theorem State.brReset_keyless (hkey : resetKey w ≠ 0xA5) : s.brReset w source ms = s.resetStored w := if_pos hkey

variable (hkey : resetKey w = 0xA5)
include hkey

theorem State.brReset_cold (hcold : acts w 0 = true) : s.brReset w source ms =
    if (s.resetStored w).coldRuns || (s.resetStored w).tripHolds then (s.resetStored w).refuseReset else (s.resetStored w).coldReset 2 source :=
  (if_neg (not_not_intro hkey)).trans (if_pos hcold)

variable (hcold : acts w 0 = false)
include hcold

theorem State.brReset_warm (hwarm : acts w 1 = true) : s.brReset w source ms =
    if (s.resetStored w).isReady && !(s.resetStored w).tripHolds then (s.resetStored w).warmReset source else (s.resetStored w).refuseReset :=
  (if_neg (not_not_intro hkey)).trans ((if_neg (by rw [hcold]; decide)).trans (if_pos hwarm))

variable (hwarm : acts w 1 = false) (hready : s.isReady = true) (hstage : s.stage ≠ 8)
include hwarm hready hstage

theorem State.brReset_part (hpart : acts w 2 = true) : s.brReset w source ms =
    ((s.resetStored w).partitionReset ((s.resetStored w).fld (pgBare + 0x108) 9 7)).resetDone 4 source ((s.resetStored w).fld (pgBare + 0x108) 9 7) ms
      (s.resetStored w).now :=
  (if_neg (not_not_intro hkey)).trans ((if_neg (by rw [hcold]; decide)).trans ((if_neg (by rw [hwarm]; decide)).trans ((if_pos hpart).trans
    (if_neg (State.resetStored_serves w hready hstage)))))

theorem State.brReset_yard (hpart : acts w 2 = false) (hyard : acts w 3 = true)
    (hunused : (s.resetStored w).yardUsed ((s.resetStored w).fld (pgBare + 0x108) 15 10) = false) : s.brReset w source ms =
    ((s.resetStored w).yardReset ((s.resetStored w).fld (pgBare + 0x108) 15 10)).resetDone 5 source ((s.resetStored w).fld (pgBare + 0x108) 15 10) ms
      (s.resetStored w).now :=
  (if_neg (not_not_intro hkey)).trans ((if_neg (by rw [hcold]; decide)).trans ((if_neg (by rw [hwarm]; decide)).trans
    ((if_neg (by rw [hpart]; decide)).trans ((if_pos hyard).trans
      ((if_neg (State.resetStored_serves w hready hstage)).trans (if_neg (ne_true_of_eq_false hunused)))))))

end

theorem hostCode_lt (p : HostPort) : p.code < 8 := by cases p <;> decide

end Sys2Proof.Machine

namespace Sys2Proof
open Machine

/-- Settles O7: the write is stored, its key and its bits name the reset, and each reset is followed to BR_LOG and to the registers it resets or
keeps. -/
theorem resets : Obligations.Resets := by
  unfold Obligations.Resets
  intro s acc w hopen
  have hwrite (ms : Nat) : s.hostWrite acc (pgBare + 0x108) (fun t => t.brReset w.toNat acc.port.code ms) = s.brReset w.toNat acc.port.code ms :=
    State.hostWrite_of_open hopen _
  have hcode := hostCode_lt acc.port
  refine ⟨fun hkey hcold hruns hholds => ?cold, fun hkey hcold hholds => ?coldRefused, fun hkey hcold hwarm hready hholds hidle => ?warm,
    fun hkey hcold hwarm hready => ?warmRefused, fun ms hkey hcold hwarm hpart hready hstage => ?part,
    fun ms hkey hcold hwarm hpart hyard hready hstage hunused => ?yard, fun ms hkey => ?keyless⟩
  case cold =>
    have hreset : s.brReset w.toNat acc.port.code 0 = (s.resetStored w.toNat).coldReset 2 acc.port.code := by
      rw [State.brReset_cold hkey hcold, State.resetStored_coldRuns, State.resetStored_tripHolds, hruns, hholds]
      exact if_neg (by decide)
    refine ⟨_, congrArg Host.Outcome.next ((hwrite 0).trans hreset), State.coldReset_stage .., ?_, ?_,
      fun a hlog htime => State.coldReset_reg _ _ _ hlog htime, ?_⟩
    · rw [State.coldReset_log, Nat.mod_eq_of_lt (by unfold fieldAt; omega)]
      rfl
    · rw [State.coldReset_time, if_neg (by decide), State.resetStored_now]
    · exact (State.coldReset_retired ..).1.trans (congrArg Outside.retiredA (congrArg BaseView.retired (s.onlyRegs_resetStored w.toNat).baseView))
  case coldRefused =>
    refine congrArg Host.Outcome.next ((hwrite 0).trans ((State.brReset_cold hkey hcold).trans (if_pos ?_)))
    rw [State.resetStored_tripHolds, hholds, Bool.or_true]
  case warm =>
    have hreset : s.brReset w.toNat acc.port.code 0 = (s.resetStored w.toNat).warmReset acc.port.code := by
      rw [State.brReset_warm hkey hcold hwarm, State.resetStored_isReady, State.resetStored_tripHolds, hready, hholds]
      exact if_pos (by decide)
    have hstored := s.onlyRegs_resetStored w.toNat
    have hstoredIdle := hstored.maintRun.trans hidle
    refine ⟨_, congrArg Host.Outcome.next ((hwrite 0).trans hreset), State.warmReset_stage .., State.warmReset_resetType _ hcode, ?_, ?_,
      fun a hkept hlog htime hlt => ?_⟩
    · rw [State.warmReset_time, State.resetStored_now]
    · rw [State.warmReset_hbm _ hstoredIdle, hstored.hbm]
    · have hne : a ≠ pgBare + 0x108 := by
        rintro rfl
        exact absurd hkept (by decide)
      rw [State.warmReset_kept _ hstoredIdle hkept hlog htime hlt, State.resetStored_reg _ _ hne]
  case warmRefused =>
    refine congrArg Host.Outcome.next ((hwrite 0).trans ((State.brReset_warm hkey hcold hwarm).trans (if_neg ?_)))
    rw [State.resetStored_isReady, hready, Bool.false_and]
    decide
  case part =>
    have hp : (s.resetStored w.toNat).fld (pgBare + 0x108) 9 7 < 8 := bits_lt _ 9 7
    obtain ⟨hregs, hfree⟩ := (s.resetStored w.toNat).partitionReset_done ((s.resetStored w.toNat).fld (pgBare + 0x108) 9 7)
    obtain ⟨hlog, hevent⟩ := State.resetDone_answers ((s.resetStored w.toNat).partitionReset ((s.resetStored w.toNat).fld (pgBare + 0x108) 9 7))
      (type := 4) (by decide) hcode (Nat.lt_trans hp (by decide)) ms (s.resetStored w.toNat).now
    refine ⟨_, congrArg Host.Outcome.next ((hwrite ms).trans (State.brReset_part hkey hcold hwarm hready hstage hpart)), hlog,
      fun a hlo hhi => ?_, hevent⟩
    exact (State.resetDone_part _ hp _ _ _ _ _ hlo hhi hfree).trans (hregs a hlo hhi)
  case yard =>
    have hy : (s.resetStored w.toNat).fld (pgBare + 0x108) 15 10 < 64 := bits_lt _ 15 10
    exact ⟨_, congrArg Host.Outcome.next ((hwrite ms).trans (State.brReset_yard hkey hcold hwarm hready hstage hpart hyard hunused)),
      State.resetDone_answers _ (by decide) hcode hy ms _⟩
  case keyless =>
    have hnone (k : Nat) := congrArg (Host.Outcome.next : State → Result) ((hwrite k).trans (State.brReset_keyless hkey))
    exact ⟨hnone 0, hnone 0, hnone ms, hnone ms⟩

end Sys2Proof
end

section
/-! SUPPORT. The stages of a start-up (R426..R431): what each leaves of STAGE, BR_LOG and HBM before it ends, and the end of a stage. -/
namespace Sys2Proof.Machine

/-! ### What keeps the stage -/

/-- STAGE, TYPE of BR_LOG, HBM, the free values and the absent Stay dies are the same. -/
structure SameStage (s t : State) : Prop where
  stage : t.stage = s.stage
  resetType : t.resetType = s.resetType
  hbm : t.hbm = s.hbm
  freeCtr : t.freeCtr = s.freeCtr
  stayAbsent : t.stayAbsent = s.stayAbsent

namespace SameStage
variable {s t u : State}

theorem refl (s : State) : SameStage s s := ⟨rfl, rfl, rfl, rfl, rfl⟩

theorem trans (h : SameStage s t) (k : SameStage t u) : SameStage s u :=
  ⟨k.stage.trans h.stage, k.resetType.trans h.resetType, k.hbm.trans h.hbm, k.freeCtr.trans h.freeCtr, k.stayAbsent.trans h.stayAbsent⟩

theorem ite (c : Prop) [Decidable c] (h : SameStage s t) (k : SameStage s u) : SameStage s (if c then t else u) := by
  split
  · exact h
  · exact k

theorem foldl_mem {α : Type} {f : State → α → State} (h : SameStage s t) (l : List α) (hf : ∀ v, ∀ x ∈ l, SameStage v (f v x)) :
    SameStage s (l.foldl f t) := by
  induction l generalizing t with
  | nil => exact h
  | cons x l ih =>
    exact ih (h.trans (hf t x List.mem_cons_self)) fun v y hy => hf v y (List.mem_cons_of_mem x hy)

theorem foldl {α : Type} {f : State → α → State} (h : SameStage s t) (l : List α) (hf : ∀ v x, SameStage v (f v x)) :
    SameStage s (l.foldl f t) := h.foldl_mem l fun v x _ => hf v x

/-- A register update that keeps STAGE and TYPE. -/
theorem of_onlyRegs (h : OnlyRegs s t) (hstage : t.stage = s.stage) (hlog : t.reg (pgBare + 0x110) = s.reg (pgBare + 0x110)) : SameStage s t := by
  refine ⟨hstage, State.fld_congr hlog .., h.hbm, ?_, ?_⟩
  · obtain ⟨r, o, rfl⟩ := h
    rfl
  · obtain ⟨r, o, rfl⟩ := h
    rfl

theorem setReg (h : SameStage s t) {a : Nat} (ha : a ≠ pgBare + 0x100 ∧ a ≠ pgBare + 0x110) (v : Nat) : SameStage s (t.setReg a v) :=
  h.trans (.of_onlyRegs (onlyRegs_setReg ..) (State.fld_congr (t.reg_setReg_ne v ha.1.symm) ..) (t.reg_setReg_ne v ha.2.symm))

theorem setFld (h : SameStage s t) {a : Nat} (ha : a ≠ pgBare + 0x100 ∧ a ≠ pgBare + 0x110) (hi lo v : Nat) : SameStage s (t.setFld a hi lo v) :=
  h.setReg ha _

theorem event (h : SameStage s t) {pg : Nat} (hpg : pg % 0x100 = 0) (i : Nat) : SameStage s (t.event pg i) := by
  have hbare : pgBare = 0x3000 := rfl
  exact h.trans (.of_onlyRegs (onlyRegs_event ..) (State.fld_congr (t.event_reg pg i (by omega) (by omega) (by decide)) ..)
    (t.event_reg pg i (by omega) (by omega) (by decide)))

theorem faultEv (h : SameStage s t) {pg : Nat} (hpg : pg % 0x100 = 0) (hlt : pg < 0x200_0000) (code info ev : Nat) :
    SameStage s (t.faultEv pg code info ev) := by
  have hbare : pgBare = 0x3000 := rfl
  refine h.trans (.of_onlyRegs ((onlyRegs_fault ..).trans (onlyRegs_event ..))
    (State.faultEv_stage _ ⟨by omega, by omega⟩ ⟨by omega, by omega⟩ ..) ?_)
  exact (State.event_reg _ _ _ (by omega) (by omega) (by decide)).trans
    (State.fault_reg _ _ _ _ (by omega) (by omega) (by decide) (by decide) (by decide) hlt)

/-- Something else than what is compared replaced beside the registers. -/
theorem beside (h : SameStage s t) (hregs : u.regs = t.regs) (hhbm : u.hbm = t.hbm) (hctr : u.freeCtr = t.freeCtr)
    (hstay : u.stayAbsent = t.stayAbsent) : SameStage s u := by
  have hreg : ∀ a, u.reg a = t.reg a := fun a => by rw [State.reg, State.reg, hregs]
  exact h.trans ⟨State.fld_congr (hreg _) .., State.fld_congr (hreg _) .., hhbm, hctr, hstay⟩

end SameStage

theorem State.tick_sameStage (s : State) (dt : Nat) : SameStage s (s.tick dt) := by
  have hreg : ∀ a, a = pgBare + 0x100 ∨ a = pgBare + 0x110 → (s.tick dt).reg a = s.reg a := by
    rintro a (rfl | rfl)
    · exact s.tick_reg dt (by decide) (by decide) (by decide) fun h => absurd h (by decide)
    · exact s.tick_reg dt (by decide) (by decide) (by decide) fun h => absurd h (by decide)
  have hothers : (s.tick dt).freeCtr = s.freeCtr ∧ (s.tick dt).stayAbsent = s.stayAbsent := by
    obtain ⟨r, o, lim, slew, held, htick⟩ := s.tick_cases dt
    rw [htick]
    exact ⟨rfl, rfl⟩
  exact ⟨State.fld_congr (hreg _ (.inl rfl)) .., State.fld_congr (hreg _ (.inr rfl)) .., s.tick_hbm dt, hothers.1, hothers.2⟩

theorem State.tick_portState (s : State) (dt : Nat) {q : Nat} (hq : q < 32) : (s.tick dt).portState q = s.portState q := by
  have hport : pgPort q = 0x10_0000 + q * 0x1000 := rfl
  refine State.fld_congr (s.tick_reg dt (by unfold pgGlobal; omega) (by omega) ?_ (by omega)) ..
  simp only [List.mem_cons, List.not_mem_nil, or_false]
  omega

/-! ### The end of a stage -/

/-- The Mastheads have refreshed the latch and the heartbeat. -/
def State.refreshed (s : State) : State := { s with latchNs := 0, beatNs := 0 }

theorem State.refreshed_hbm (s : State) : s.refreshed.hbm = s.hbm := rfl

theorem State.refreshed_reg (s : State) (a : Nat) : s.refreshed.reg a = s.reg a := rfl

theorem State.refreshed_stayAbsent (s : State) : s.refreshed.stayAbsent = s.stayAbsent := rfl

/-- The age of the stage that ends, noted. -/
def State.stageNoted (s : State) (k : Nat) : State := s.refreshed.setReg (pgBare + 0x120 + 8 * (k - 1)) (s.refreshed.stageNs / 1000000 % 2 ^ 32)

theorem State.endStage_eq (s : State) (k next : Nat) : s.endStage k next = (s.stageNoted k).setStage next := rfl

theorem State.endStage_stage (s : State) (k : Nat) {next : Nat} (h : next < 16) : (s.endStage k next).stage = next := by
  rw [State.endStage_eq]
  exact State.setStage_stage _ next h

theorem State.stageNoted_hbm (s : State) (k : Nat) : (s.stageNoted k).hbm = s.hbm := (State.setReg_hbm ..).trans s.refreshed_hbm

theorem State.endStage_hbm (s : State) (k next : Nat) : (s.endStage k next).hbm = s.hbm := by
  rw [State.endStage_eq, hbm_of_baseView (State.setStage_baseView ..), State.stageNoted_hbm]

theorem State.endStage_stayAbsent (s : State) (k next : Nat) : (s.endStage k next).stayAbsent = s.stayAbsent := by
  obtain ⟨b, r, o, hset⟩ := (s.stageNoted k).onlyRegs_setStage next
  rw [State.endStage_eq, hset]
  dsimp only
  rw [State.stageNoted, State.setReg_stayAbsent, State.refreshed_stayAbsent]

theorem State.endStage_reg (s : State) (k next : Nat) {a : Nat} (ha : a < pgBare ∨ pgBare + 0x1000 ≤ a) (hlt : a < 0x201_0000) (hk : k < 10) :
    (s.endStage k next).reg a = s.reg a := by
  have hbare : pgBare = 0x3000 := rfl
  have hnot : a ∉ [pgBare + 0x100, pgBare + 0x18, pgBare + 0x28] := by
    simp only [List.mem_cons, List.not_mem_nil, or_false]
    omega
  rw [State.endStage_eq, State.reg_setStage_ne _ _ hnot hlt, State.stageNoted, State.reg_setReg_ne _ _ (by omega), State.refreshed_reg]

theorem State.fld_setStage (s : State) {n hi lo : Nat} (hl : lo ≤ hi) (h : hi < 57 ∨ 60 < lo) :
    (s.setStage n).fld (pgBare + 0x100) hi lo = s.fld (pgBare + 0x100) hi lo := by
  unfold State.setStage
  split
  · rfl
  · rw [State.fld_congr (State.event_reg _ _ _ (by decide) (by decide) (by decide)), State.fld_setFld_apart _ _ _ (by decide) (by decide) hl h]
    rfl

/-- A start that fails stands in stage 9 with its cause. -/
theorem State.failStart_answers (s : State) {c : Nat} (hc : c < 16) : (s.failStart c).stage = 9 ∧ (s.failStart c).fld (pgBare + 0x100) 56 53 = c := by
  have hcause : (s.setFld (pgBare + 0x100) 56 53 c).fld (pgBare + 0x100) 56 53 = c :=
    (State.fld_setFld_self _ _ _ _ _ (by decide) (by decide)).trans (Nat.mod_eq_of_lt hc)
  unfold State.failStart
  exact ⟨State.setStage_stage _ 9 (by decide), (State.fld_setStage _ (by decide) (by decide)).trans hcause⟩

/-! ### Housekeeping and boot -/

/-- The state in which housekeeping ends. -/
def State.housekept (s : State) : State :=
  ((((s.setFld (pgGlobal + 0x900) 7 0 (0xFF - s.fld (pgGlobal + 0x900) 23 16)).setRole false 1).setRole true 1).endStage 1 2).setReg (pgGlobal + 0x108) 0

/-- GLB_TIME runs and PWR_OK is high. -/
def State.startTime (s : State) : State := { s with timeOn := true, pwrOk := true }

theorem State.startTime_view (s : State) : s.startTime.timeOn = true ∧ s.startTime.pwrOk = true ∧ ∀ a, s.startTime.reg a = s.reg a :=
  ⟨rfl, rfl, fun _ => rfl⟩

section
variable {s : State} (dt : Nat) (hstage : s.stage = 1)
include hstage

theorem execHousekeepingDone_passes : execHousekeepingDone dt true s = .next (s.tick dt).housekept.startTime := by
  unfold execHousekeepingDone
  exact (if_neg (not_not_intro hstage)).trans (if_neg (by decide))

theorem execHousekeepingDone_fails : execHousekeepingDone dt false s = .next ((s.tick dt).failStart 4) := by
  unfold execHousekeepingDone
  exact (if_neg (not_not_intro hstage)).trans (if_pos (by decide))

end

theorem State.housekept_answers (s : State) :
    s.housekept.stage = 2 ∧ s.housekept.now = 0 ∧ s.housekept.role false = 1 ∧ s.housekept.role true = 1 := by
  unfold State.housekept
  refine ⟨?_, State.reg_setReg_self .., ?_, ?_⟩
  · exact (State.fld_congr (State.reg_setReg_ne _ _ (by decide)) ..).trans (State.endStage_stage _ _ (by decide))
  · refine (State.fld_congr ((State.reg_setReg_ne _ _ (by decide)).trans (State.endStage_reg _ _ _ (by decide) (by decide) (by decide))) ..).trans ?_
    exact (State.fld_congr (State.setRole_reg_ne _ _ _ (by decide) (by decide) (by decide) (by decide)) ..).trans (State.role_setRole_self _ _ (by decide))
  · refine (State.fld_congr ((State.reg_setReg_ne _ _ (by decide)).trans (State.endStage_reg _ _ _ (by decide) (by decide) (by decide))) ..).trans ?_
    exact State.role_setRole_self _ _ (by decide)

/-- The latch goes to Masthead `n`, and both retired lists become `l`. -/
def State.holdLatch (s : State) (n : Fin 2) (l : List Nat) : State :=
  { s with latch := some n, lastLatch := n, latchNs := 0, beatNs := 0, shroudLost := false, retiredA := l, retiredB := l }

theorem State.holdLatch_view (s : State) (n : Fin 2) (l : List Nat) : (s.holdLatch n l).latch = some n ∧ (∀ a, (s.holdLatch n l).reg a = s.reg a) ∧
    (s.holdLatch n l).retiredA = l ∧ (s.holdLatch n l).retiredB = l := ⟨rfl, fun _ => rfl, rfl, rfl⟩

/-- Both Mastheads after boot. -/
def State.booted (s : State) (a b : BootOutcome) : State := (s.bootMast false a).bootMast true b

theorem State.onlyRegs_bootMast (s : State) (m : Bool) (o : BootOutcome) : OnlyRegs s (s.bootMast m o) := by
  have hbank : ∀ k, OnlyRegs s (s.useBank m k) := fun k => ((onlyRegs_setFlag ..).trans (onlyRegs_setFld ..)).trans (onlyRegs_setReg ..)
  cases o with
  | active => exact hbank _
  | fallback => exact hbank _
  | failed => exact onlyRegs_setRole s m 4

/-- The roles once Masthead `prim` is primary; the other, whose boot ended in `other`, is standby unless it failed. -/
def State.takeRoles (s : State) (prim : Bool) (other : BootOutcome) : State :=
  if other = .failed then s.setRole prim 3 else (s.setRole prim 3).setRole (!prim) 2

theorem State.onlyRegs_takeRoles (s : State) (prim : Bool) (other : BootOutcome) : OnlyRegs s (s.takeRoles prim other) :=
  onlyRegs_ite _ (onlyRegs_setRole ..) ((onlyRegs_setRole ..).trans (onlyRegs_setRole ..))

theorem State.takeRoles_role (s : State) (prim : Bool) (other : BootOutcome) : (s.takeRoles prim other).role prim = 3 := by
  have hself : (s.setRole prim 3).role prim = 3 := State.role_setRole_self _ _ (by decide)
  unfold State.takeRoles
  split
  · exact hself
  · refine (State.fld_congr (State.setRole_reg_ne _ _ _ ?_ ?_ ?_ ?_) ..).trans hself <;> cases prim <;> decide

/-- On a cold start the channels recorded as mapped out read so. -/
def State.mappedOut (s : State) : State :=
  if s.resetType ≤ 2 then s.recMapped.foldl (fun (t : State) c => t.setFld (chReg c) 63 62 2) s else s

theorem State.mappedOut_reg (s : State) {a : Nat} (ha : a < 0x20_0000) : s.mappedOut.reg a = s.reg a := by
  unfold State.mappedOut
  refine reg_ite _ ?_ rfl
  refine List.foldlRecOn (motive := fun (t : State) => t.reg a = s.reg a) s.recMapped _ rfl fun t ht c _ => ?_
  exact (t.reg_setReg_ne _ (by unfold chReg pgHc; omega)).trans ht

/-- The union of the two retired lists. -/
def State.retiredUnion (s : State) : List Nat := s.retiredA ++ s.retiredB.filter fun p => !(s.retiredA.contains p)

theorem State.mem_retiredUnion {s : State} {p : Nat} (h : p ∈ s.retiredA ∨ p ∈ s.retiredB) : p ∈ s.retiredUnion := by
  unfold State.retiredUnion
  by_cases hA : p ∈ s.retiredA
  · exact List.mem_append_left _ hA
  · exact List.mem_append_right _ (List.mem_filter.2 ⟨h.resolve_left hA, by simpa using hA⟩)

theorem State.retiredUnion_congr {s t : State} (h : t.outside = s.outside) : t.retiredUnion = s.retiredUnion := by
  have hA : t.retiredA = s.retiredA := congrArg Outside.retiredA h
  have hB : t.retiredB = s.retiredB := congrArg Outside.retiredB h
  rw [State.retiredUnion, State.retiredUnion, hA, hB]

section
variable {s : State} (dt : Nat) {a b : BootOutcome} (hstage : s.stage = 2)
include hstage

theorem execBootDone_failed : execBootDone dt .failed .failed s =
    .next ((((s.tick dt).booted .failed .failed).failStart 2).setFlag (pgBare + 0x100) 62 true) := by
  unfold execBootDone
  exact (if_neg (not_not_intro hstage)).trans (if_pos ⟨rfl, rfl⟩)

theorem execBootDone_boots (prim : Bool) (hprim : (a == .failed) = prim) (h : ¬(a = .failed ∧ b = .failed)) : ∃ u : State,
    u = ((s.tick dt).booted a b).takeRoles prim (if prim then a else b) ∧
      execBootDone dt a b s = .next ((u.mappedOut.endStage 2 3).holdLatch (if prim then 1 else 0) u.retiredUnion) := by
  subst hprim
  refine ⟨_, rfl, ?_⟩
  unfold execBootDone
  exact (if_neg (not_not_intro hstage)).trans (if_neg h)

end

theorem execBootDone_answers {s : State} (dt : Nat) {a b : BootOutcome} (hstage : s.stage = 2) (h : ¬(a = .failed ∧ b = .failed)) :
    Answers (execBootDone dt a b s) fun t => t.stage = 3 ∧ t.latch = some (if a = .failed then 1 else 0) ∧ t.role (decide (a = .failed)) = 3 ∧
      ∀ p, p ∈ s.retiredA ∨ p ∈ s.retiredB → t.Retired p := by
  have hprim : (a == .failed) = decide (a = .failed) := by cases a <;> rfl
  obtain ⟨u, hu, hnext⟩ := execBootDone_boots dt hstage (decide (a = .failed)) hprim h
  obtain ⟨hlatch, hreg, hretiredA, hretiredB⟩ := (u.mappedOut.endStage 2 3).holdLatch_view (if decide (a = .failed) then 1 else 0) u.retiredUnion
  have hregs : OnlyRegs (s.tick dt) u :=
    hu ▸ ((State.onlyRegs_bootMast ..).trans (State.onlyRegs_bootMast ..)).trans (State.onlyRegs_takeRoles ..)
  have hunion : u.retiredUnion = s.retiredUnion :=
    State.retiredUnion_congr ((congrArg BaseView.retired hregs.baseView).trans (s.tick_outside dt))
  refine ⟨_, hnext, (State.fld_congr (hreg _) ..).trans (State.endStage_stage _ _ (by decide)), ?_, ?_, fun p hp => ?_⟩
  · rw [hlatch]
    simp only [decide_eq_true_eq]
  · have hpage : ∀ m, pgMast m + 0x100 < pgBare := by decide
    have hlow : ∀ m, pgMast m + 0x100 < 0x20_0000 := by decide
    have hrole : u.role (decide (a = .failed)) = 3 := by rw [hu]; exact State.takeRoles_role ..
    refine Eq.trans ?_ hrole
    refine State.fld_congr ((hreg _).trans ((State.endStage_reg _ _ _ (.inl (hpage _)) ?_ (by decide)).trans (State.mappedOut_reg _ (hlow _)))) ..
    exact Nat.lt_trans (hlow _) (by decide)
  · have hmem : p ∈ u.retiredUnion := hunion ▸ State.mem_retiredUnion hp
    exact ⟨hretiredA ▸ hmem, hretiredB ▸ hmem⟩

theorem State.failStart_faultN (s : State) : ((s.failStart 2).setFlag (pgBare + 0x100) 62 true).stage = 9 ∧
    ((s.failStart 2).setFlag (pgBare + 0x100) 62 true).fld (pgBare + 0x100) 56 53 = 2 ∧
      ((s.failStart 2).setFlag (pgBare + 0x100) 62 true).flag (pgBare + 0x100) 62 = true := by
  obtain ⟨hstage, hcause⟩ := s.failStart_answers (c := 2) (by decide)
  exact ⟨(State.fld_setFlag_apart _ _ _ (by decide) (by decide) (by decide)).trans hstage,
    (State.fld_setFlag_apart _ _ _ (by decide) (by decide) (by decide)).trans hcause, State.flag_setFlag_self _ _ _ _ (by decide)⟩

/-! ### The self-test -/

theorem pgHc_apart (h o : Nat) : pgHc h + o ≠ pgBare + 0x100 ∧ pgHc h + o ≠ pgBare + 0x110 := by
  have hbare : pgBare = 0x3000 := rfl
  unfold pgHc
  omega

theorem chReg_apart (c : Nat) : chReg c ≠ pgBare + 0x100 ∧ chReg c ≠ pgBare + 0x110 := by
  have h := pgHc_apart (c / 32) (0x100 + 8 * (c % 32))
  rwa [← Nat.add_assoc] at h

theorem State.setMapGen_sameStage (s : State) (g : Nat) : SameStage s (s.setMapGen g) := by
  have hset : SameStage s (s.setReg (pgGlobal + 0x3F8) (g % 2 ^ 32)) := (SameStage.refl s).setReg (by decide) _
  exact .ite _ hset (hset.event (by decide) 1)

theorem State.buildMap_sameStage (s : State) (r : SelfTest) : SameStage s (s.buildMap r) := by
  have hglobal : pgGlobal = 0 := rfl
  have hbare : pgBare = 0x3000 := rfl
  have hpower : pgPower 1 = 0x1_1000 := rfl
  unfold State.buildMap
  extract_lets retired place s1 phys
  have h1 : SameStage s s1 := by
    refine (SameStage.refl s).foldl_mem _ fun t y hy => ?_
    have hy64 : y < 64 := List.mem_range.mp hy
    unfold place
    split
    · exact (SameStage.refl t).setReg ⟨by omega, by omega⟩ _
    · exact (SameStage.refl t).setReg ⟨by omega, by omega⟩ _
  refine (h1.foldl_mem _ fun t p hp => ?_).trans (State.setMapGen_sameStage ..)
  have hp72 : p < 72 := List.mem_range.mp hp
  exact ((SameStage.refl t).setReg ⟨by omega, by omega⟩ _).setReg ⟨by omega, by omega⟩ _

theorem State.setChannels_sameStage (s : State) (h st : Nat) : SameStage s (s.setChannels h st) :=
  (SameStage.refl s).foldl _ fun t _ => .ite _ (.refl t) ((SameStage.refl t).setFld (chReg_apart _) ..)

/-- What the self-test leaves undefined, and the Stay dies it found absent. -/
def State.selfCleared (s : State) (r : SelfTest) : State := { s.scrambleSram with stayAbsent := r.stays.toNat }

theorem State.selfCleared_view (s : State) (r : SelfTest) : (s.selfCleared r).hbm = s.hbm ∧ (s.selfCleared r).stayAbsent = r.stays.toNat := ⟨rfl, rfl⟩

/-- The module after its self-test, with the Yard map built. -/
def State.selftested (s : State) (r : SelfTest) : State := (s.selfCleared r).buildMap r

/-- The channels in service, and those of failed slices out of it. -/
def State.sliceStates (s : State) (r : SelfTest) : State :=
  (List.range 32).foldl (fun (t : State) h => t.setChannels h (if r.slices.getLsbD h then 3 else 0)) s

theorem State.sliceStates_sameStage (s : State) (r : SelfTest) : SameStage s (s.sliceStates r) :=
  (SameStage.refl s).foldl _ fun t h => t.setChannels_sameStage h _

section
variable {s : State} (dt : Nat) {r : SelfTest} (hstage : s.stage = 3)
include hstage

theorem execSelftestDone_wafer (hwafer : r.wafer = true) : execSelftestDone dt r s = .next ((s.tick dt).failStart 1) := by
  unfold execSelftestDone
  exact (if_neg (not_not_intro hstage)).trans (if_pos hwafer)

theorem execSelftestDone_passes (hwafer : r.wafer = false)
    (hsome : ((List.range 64).any fun y => ((s.tick dt).selftested r).enabled y) = true) :
    execSelftestDone dt r s = .next ((((s.tick dt).selftested r).sliceStates r).endStage 3 4) := by
  have hnot : ¬((List.range 64).all fun y => !((s.tick dt).selftested r).enabled y) = true := by
    rw [List.all_eq_not_any_not]
    simp only [Bool.not_not, hsome]
    decide
  unfold execSelftestDone
  exact (if_neg (not_not_intro hstage)).trans ((if_neg (ne_true_of_eq_false hwafer)).trans (if_neg hnot))

end

theorem State.selftest_answers (s : State) (dt : Nat) (r : SelfTest) :
    ((((s.tick dt).selftested r).sliceStates r).endStage 3 4).stage = 4 ∧
      ((((s.tick dt).selftested r).sliceStates r).endStage 3 4).stayAbsent = r.stays.toNat ∧
        ((((s.tick dt).selftested r).sliceStates r).endStage 3 4).hbm = s.hbm := by
  have hsame : SameStage ((s.tick dt).selfCleared r) (((s.tick dt).selftested r).sliceStates r) :=
    (State.buildMap_sameStage ..).trans (State.sliceStates_sameStage ..)
  obtain ⟨hhbm, hstay⟩ := (s.tick dt).selfCleared_view r
  rw [State.endStage_stayAbsent, State.endStage_hbm, hsame.stayAbsent, hsame.hbm, hhbm, hstay]
  exact ⟨State.endStage_stage _ _ (by decide), rfl, s.tick_hbm dt⟩

/-! ### HBM and the ports -/

theorem State.trainStack_sameStage (s : State) (bad : List StackTest) (h : Nat) : SameStage s (s.trainStack bad h) := by
  have hphy : pgPhy h + 0x100 ≠ pgBare + 0x100 ∧ pgPhy h + 0x100 ≠ pgBare + 0x110 := pgHc_apart h 0x1100
  unfold State.trainStack
  extract_lets r out ok phy
  refine .ite _ (.refl s) (.ite _ (s.setChannels_sameStage h 3) ?_)
  exact ((SameStage.refl s).setReg hphy _).foldl _ fun t _ => .ite _ (.refl t) ((SameStage.refl t).setFld (chReg_apart _) ..)

/-- Every stack after training. -/
def State.hbmTrained (s : State) (bad : List StackTest) : State := (List.range 32).foldl (fun (t : State) h => t.trainStack bad h) s

theorem State.hbmTrained_sameStage (s : State) (bad : List StackTest) : SameStage s (s.hbmTrained bad) :=
  (SameStage.refl s).foldl _ fun t h => t.trainStack_sameStage bad h

/-- HBM holds what nothing defines. -/
def State.scrambleHbm (s : State) : State := { s.fresh.2 with hbm := Mem.undefinedBy s.fresh.1 }

theorem State.scrambleHbm_hbm (s : State) : s.scrambleHbm.hbm = Mem.undefinedBy (s.freeCtr + 1) := rfl

/-- A port as it enters the stage of the links: it trains where ENABLE is 1 and its Stay die is there. -/
def State.startPort (s : State) (q : Nat) : State :=
  if bit s.stayAbsent (q / 4) then
    (s.setFld (pgPort q + 0x108) 58 55 7).faultEv (pgPort q) 0x0702 (fieldAt 59 q + fieldAt 55 7) 1
  else if s.flag (pgPort q + 0x100) 0 then s.setFld (pgPort q + 0x108) 63 61 1
  else s.setFld (pgPort q + 0x108) 58 55 6

theorem State.startPort_sameStage (s : State) {q : Nat} (hq : q < 32) : SameStage s (s.startPort q) := by
  have hbare : pgBare = 0x3000 := rfl
  have hport : pgPort q = 0x10_0000 + q * 0x1000 := rfl
  have hset : ∀ hi lo v, SameStage s (s.setFld (pgPort q + 0x108) hi lo v) := fun hi lo v => (SameStage.refl s).setFld ⟨by omega, by omega⟩ hi lo v
  exact .ite _ ((hset 58 55 7).faultEv (by omega) (by omega) ..) (.ite _ (hset 63 61 1) (hset 58 55 6))

/-- All ports as they enter the stage of the links. -/
def State.startPorts (s : State) : State := (List.range 32).foldl State.startPort s

theorem State.startPorts_sameStage (s : State) : SameStage s s.startPorts :=
  (SameStage.refl s).foldl_mem _ fun t _ hq => t.startPort_sameStage (List.mem_range.mp hq)

theorem execHbmTrainDone_eq {s : State} (dt : Nat) (bad : List StackTest) (hstage : s.stage = 4) : execHbmTrainDone dt bad s =
    .next ((if ((s.tick dt).hbmTrained bad).resetType ≤ 2 then ((s.tick dt).hbmTrained bad).scrambleHbm
      else (s.tick dt).hbmTrained bad).startPorts.endStage 4 5) := by
  unfold execHbmTrainDone
  exact if_neg (not_not_intro hstage)

theorem execHbmTrainDone_answers {s : State} (dt : Nat) (bad : List StackTest) (hstage : s.stage = 4) :
    Answers (execHbmTrainDone dt bad s) fun t =>
      t.stage = 5 ∧ (s.resetType ≤ 2 → t.hbm = Mem.undefinedBy (s.freeCtr + 1)) ∧ (2 < s.resetType → t.hbm = s.hbm) := by
  have hsame := (s.tick_sameStage dt).trans ((s.tick dt).hbmTrained_sameStage bad)
  refine ⟨_, execHbmTrainDone_eq dt bad hstage, State.endStage_stage _ _ (by decide), fun hcold => ?_, fun hwarm => ?_⟩
  · rw [State.endStage_hbm, (State.startPorts_sameStage _).hbm, hsame.resetType, if_pos hcold, State.scrambleHbm_hbm, hsame.freeCtr]
  · rw [State.endStage_hbm, (State.startPorts_sameStage _).hbm, hsame.resetType, if_neg (by omega), hsame.hbm]

/-! ### The links and READY -/

/-- Some port trains. -/
def State.trains (s : State) : Bool := (List.range 32).any fun q => s.portState q == 1

theorem State.trains_tick (s : State) (dt : Nat) : (s.tick dt).trains = s.trains := by
  rw [Bool.eq_iff_iff, State.trains, State.trains, List.any_eq_true, List.any_eq_true]
  refine exists_congr fun q => and_congr_right fun hq => ?_
  rw [s.tick_portState dt (List.mem_range.mp hq)]

theorem State.trains_eq_false {s : State} (h : ∀ q, q < 32 → s.portState q ≠ 1) : s.trains = false := by
  refine List.any_eq_false.mpr fun q hq => ?_
  simpa using h q (List.mem_range.mp hq)

theorem State.trains_eq_true {s : State} (h : ∃ q, q < 32 ∧ s.portState q = 1) : s.trains = true := by
  obtain ⟨q, hq, hstate⟩ := h
  exact List.any_eq_true.mpr ⟨q, List.mem_range.mpr hq, by rw [hstate]; rfl⟩

theorem execLinksDone_ends {s : State} (dt : Nat) (hstage : s.stage = 5) (h : s.trains = false) :
    execLinksDone dt s = .next ((s.tick dt).endStage 5 6) := by
  rw [← s.trains_tick dt] at h
  unfold execLinksDone
  exact (if_neg (not_not_intro hstage)).trans (if_neg (ne_true_of_eq_false h))

theorem State.setRecords_sameStage (s : State) (perm pend : List Nat) : SameStage s { s with recPermanent := perm, recPending := pend } :=
  (SameStage.refl s).beside rfl rfl rfl rfl

theorem State.putFence_sameStage (s : State) (c row e : Nat) : SameStage s (s.putFence c row e) := by
  have hfence : ∀ k, fenceReg (c / 32) e k ≠ pgBare + 0x100 ∧ fenceReg (c / 32) e k ≠ pgBare + 0x110 := fun k => by
    have hbare : pgBare = 0x3000 := rfl
    unfold fenceReg pgRep pgHc
    omega
  have hrep : pgRep (c / 32) + 0x110 ≠ pgBare + 0x100 ∧ pgRep (c / 32) + 0x110 ≠ pgBare + 0x110 := pgHc_apart (c / 32) 0x3110
  unfold State.putFence
  extract_lets h b k perm s1 s2 s3
  have h2 : SameStage s s2 := ((SameStage.refl s).setReg (hfence 0) _).setReg (hfence 1) _
  have h3 : SameStage s s3 := .ite _ (h2.trans (s2.setRecords_sameStage _ _)) (h2.trans (s2.setRecords_sameStage _ _))
  exact h3.setFld hrep ..

theorem State.rebuildFence_sameStage (s : State) : SameStage s s.rebuildFence := by
  refine (SameStage.refl s).foldl _ fun t k => ?_
  dsimp only
  split
  · exact .ite _ (.refl t) (State.putFence_sameStage ..)
  · exact .refl t

/-- Each vacant logical Yard is reported. -/
def State.vacantReported (s : State) : State :=
  (List.range 64).foldl (fun (t : State) y => if t.enabled y then t else t.yardRetired y 0x7F 0x7F 1 0) s

theorem State.vacantReported_sameStage (s : State) : SameStage s s.vacantReported :=
  (SameStage.refl s).foldl _ fun t _ => .ite _ (.refl t) ((SameStage.refl t).faultEv (by decide) (by decide) ..)

/-- What READY reports and rebuilds before stage 6 ends. -/
def State.readied (s : State) : State := (if s.resetType ≤ 2 then s.rebuildFence else s).vacantReported

theorem State.readied_sameStage (s : State) : SameStage s s.readied :=
  (SameStage.ite _ s.rebuildFence_sameStage (.refl s)).trans (State.vacantReported_sameStage _)

/-- Stage 7: the time of the start is noted, READY is shown and its event raised. -/
def State.showReady (s : State) : State :=
  (((s.endStage 6 7).setFld (pgBare + 0x110) 31 0 (s.resetNs / 1000000)).setFlag (pgBare + 0x100) 63 true).event pgBare 0

theorem State.showReady_answers (s : State) : s.showReady.stage = 7 ∧ s.showReady.isReady = true ∧ s.showReady.hbm = s.hbm := by
  have hevent : s.showReady.reg (pgBare + 0x100) = _ := State.event_reg _ _ _ (by decide) (by decide) (by decide)
  have hregs : OnlyRegs (s.endStage 6 7) s.showReady := ((onlyRegs_setFld ..).trans (onlyRegs_setFlag ..)).trans (onlyRegs_event ..)
  refine ⟨?_, (State.flag_congr hevent _).trans (State.flag_setFlag_self _ _ _ _ (by decide)), hregs.hbm.trans (s.endStage_hbm 6 7)⟩
  refine (State.fld_congr hevent ..).trans ((State.fld_setFlag_apart _ _ _ (by decide) (by decide) (by decide)).trans ?_)
  exact (State.fld_congr (State.reg_setFld_ne _ _ _ _ (by decide)) ..).trans (s.endStage_stage 6 (by decide))

section
variable {s : State} (dt : Nat) (hstage : s.stage = 6)
include hstage

theorem execReady_ends (hlatch : s.latch ≠ none) (h : s.trains = false) : execReady dt s = .next (s.tick dt).readied.showReady := by
  rw [← s.trains_tick dt] at h
  unfold execReady
  exact (if_neg (by rintro (hne | hnone); exacts [hne hstage, hlatch hnone])).trans (if_neg (ne_true_of_eq_false h))

theorem execReady_waits (h : s.trains = true) : execReady dt s = .next s ∨ execReady dt s = .next (s.tick dt) := by
  rw [← s.trains_tick dt] at h
  unfold execReady
  by_cases hlatch : s.latch = none
  · exact .inl (if_pos (.inr hlatch))
  · exact .inr ((if_neg (by rintro (hne | hnone); exacts [hne hstage, hlatch hnone])).trans (if_pos h))

end

theorem State.tick_isReady (s : State) (dt : Nat) : (s.tick dt).isReady = s.isReady :=
  State.flag_congr (s.tick_reg dt (by decide) (by decide) (by decide) fun h => absurd h (by decide)) _

end Sys2Proof.Machine

namespace Sys2Proof
open Machine

/-- Settles O6: each row is followed to the end of its stage; what it does before that leaves STAGE, BR_LOG and HBM but for HBM on a cold start. -/
theorem startUpStages : Obligations.StartUpStages := by
  unfold Obligations.StartUpStages
  refine ⟨fun s hoff => ?on, fun s dt hstage => ⟨?passes, ?fails⟩,
    fun s dt a b hstage => ⟨fun h => execBootDone_answers dt hstage h, ?noMasthead⟩,
    fun s dt r hstage => ⟨fun hwafer => ?wafer, fun hwafer hsome => ?selftest⟩, fun s dt bad hstage => execHbmTrainDone_answers dt bad hstage,
    fun s dt hstage hports => ?links, fun s dt hstage hlatch hports => ?ready, fun s dt hstage hport => ?waits⟩
  case on =>
    refine ⟨_, congrArg Host.Outcome.next (if_pos hoff), State.coldReset_stage .., State.coldReset_resetType _ (by decide) (by decide), fun a hlog => ?_,
      congrArg Outside.pending (s.coldReset_outside 1 0)⟩
    by_cases htime : a = pgBare + 0x118
    · subst htime
      rw [State.coldReset_time, if_pos rfl]
      decide
    · exact State.coldReset_reg _ _ _ hlog htime
  case passes =>
    obtain ⟨htime, hpwr, hreg⟩ := (s.tick dt).housekept.startTime_view
    obtain ⟨hnext, hnow, hA, hB⟩ := (s.tick dt).housekept_answers
    exact ⟨_, execHousekeepingDone_passes dt hstage, (State.fld_congr (hreg _) ..).trans hnext, (hreg _).trans hnow, htime, hpwr,
      (State.fld_congr (hreg _) ..).trans hA, (State.fld_congr (hreg _) ..).trans hB⟩
  case fails => exact ⟨_, execHousekeepingDone_fails dt hstage, State.failStart_answers _ (by decide)⟩
  case noMasthead =>
    rintro rfl rfl
    exact ⟨_, execBootDone_failed dt hstage, State.failStart_faultN _⟩
  case wafer => exact ⟨_, execSelftestDone_wafer dt hstage hwafer, State.failStart_answers _ (by decide)⟩
  case selftest => exact ⟨_, execSelftestDone_passes dt hstage hwafer hsome, s.selftest_answers dt r⟩
  case links =>
    exact ⟨_, execLinksDone_ends dt hstage (State.trains_eq_false hports), State.endStage_stage _ _ (by decide),
      (State.endStage_hbm ..).trans (s.tick_hbm dt)⟩
  case ready =>
    obtain ⟨hseven, hready, hhbm⟩ := (s.tick dt).readied.showReady_answers
    exact ⟨_, execReady_ends dt hstage hlatch (State.trains_eq_false hports), hseven, hready,
      hhbm.trans ((State.readied_sameStage _).hbm.trans (s.tick_hbm dt))⟩
  case waits =>
    rcases execReady_waits dt hstage (State.trains_eq_true hport) with hnext | hnext
    · exact ⟨_, hnext, hstage, rfl⟩
    · exact ⟨_, hnext, (s.tick_sameStage dt).stage.trans hstage, s.tick_isReady dt⟩

end Sys2Proof
end
